-- ==== Sys2Proof/Word.lean ====
section
/-! DEFINITION. The machine's words and bytes, sparse tables with a default, and the plainest arithmetic on them (00 R7). -/

namespace Sys2Proof

/-- A byte of the device's address space. -/
abbrev Byte := BitVec 8

/-- A 32-bit register or program word (02 R35). -/
abbrev Word := BitVec 32

/-- A sparse table: key and value pairs, keys strictly rising, no entry at the value an unlisted key reads as. -/
abbrev Tbl (α : Type) := List (Nat × α)

/-- What a table holds at a key; `d` is what an unlisted key reads as. -/
def Tbl.get {α : Type} (d : α) : Tbl α → Nat → α
  | [], _ => d
  | (j, v) :: t, k => if j = k then v else Tbl.get d t k

/-- A table without its entry for a key. -/
def Tbl.erase {α : Type} : Tbl α → Nat → Tbl α
  | [], _ => []
  | (j, v) :: t, k => if j = k then Tbl.erase t k else (j, v) :: Tbl.erase t k

/-- A table with an entry put before the first larger key. -/
def Tbl.insert {α : Type} : Tbl α → Nat → α → Tbl α
  | [], k, v => [(k, v)]
  | (j, u) :: t, k, v => if k < j then (k, v) :: (j, u) :: t else (j, u) :: Tbl.insert t k v

/-- A table that has no entry for a key, with a value put at it; the value an unlisted key reads as puts none. -/
def Tbl.add {α : Type} [DecidableEq α] (d : α) : Tbl α → Nat → α → Tbl α
  | [], k, v => if v = d then [] else [(k, v)]
  | e :: t, k, v => if v = d then e :: t else Tbl.insert (e :: t) k v

/-- A table with one key's value replaced; the value an unlisted key reads as removes the entry. -/
def Tbl.set {α : Type} [DecidableEq α] (d : α) (t : Tbl α) (k : Nat) (v : α) : Tbl α := Tbl.add d (Tbl.erase t k) k v

/-- The entry of a table at a key, if it has one. -/
def Tbl.find? {α : Type} : Tbl α → Nat → Option α
  | [], _ => none
  | (j, v) :: t, k => if j = k then some v else Tbl.find? t k

/-- A table with an entry put at a key, whatever its value. -/
def Tbl.put {α : Type} (t : Tbl α) (k : Nat) (v : α) : Tbl α := Tbl.insert (Tbl.erase t k) k v

/-- The keys of a table rise strictly from `lo` on, and no entry holds its key's default. -/
def Tbl.wfFrom {α : Type} [DecidableEq α] (d : Nat → α) : Nat → Tbl α → Bool
  | _, [] => true
  | lo, (k, v) :: t => decide (lo ≤ k) && decide (v ≠ d k) && Tbl.wfFrom d (k + 1) t

/-- The canonical form of a table whose unlisted key `k` reads as `d k`. -/
def Tbl.wf {α : Type} [DecidableEq α] (d : Nat → α) (t : Tbl α) : Bool := Tbl.wfFrom d 0 t

/-- Field `[hi:lo]` of a register value, as a number. -/
def Word.field (w : Word) (hi lo : Nat) : Nat := (w.toNat / 2 ^ lo) % 2 ^ (hi + 1 - lo)

/-- A register value with field `[hi:lo]` replaced by the low bits of `v`. -/
def Word.put (w : Word) (hi lo v : Nat) : Word :=
  let n := 2 ^ (hi + 1 - lo)
  BitVec.ofNat 32 (w.toNat - (w.toNat / 2 ^ lo % n) * 2 ^ lo + (v % n) * 2 ^ lo)

/-- Bit `i` of a number. -/
def natBit (n i : Nat) : Bool := n / 2 ^ i % 2 = 1

/-- One for true, zero for false. -/
def b2n (b : Bool) : Nat := if b then 1 else 0

/-- Bits `[hi:lo]` of a number. -/
def natField (n hi lo : Nat) : Nat := n / 2 ^ lo % 2 ^ (hi + 1 - lo)

/-- The low `n` bytes of a number, least significant first (00 R7: little-endian). -/
def leBytes : Nat → Nat → List Byte
  | 0, _ => []
  | n + 1, v => BitVec.ofNat 8 v :: leBytes n (v / 256)

/-- The number a list of bytes spells, least significant first. -/
def leNat : List Byte → Nat
  | [] => 0
  | b :: t => b.toNat + 256 * leNat t

/-- A byte of a list, 0 past its end. -/
def byteAt (l : List Byte) (i : Nat) : Nat := match l[i]? with | some b => b.toNat | none => 0

/-- `n` bytes of a list from an offset, as a little-endian number. -/
def leField (l : List Byte) (off n : Nat) : Nat := leNat ((l.drop off).take n)

/-- A number read as a signed integer of `n` bits. -/
def signed (n v : Nat) : Int := if v % 2 ^ n < 2 ^ (n - 1) then (v % 2 ^ n : Nat) else (v % 2 ^ n : Nat) - (2 ^ n : Nat)

/-- An integer as an unsigned number of `n` bits, wrapping. -/
def wrapNat (n : Nat) (i : Int) : Nat := (i % (2 ^ n : Nat)).toNat

/-- An integer held within bounds. -/
def clampInt (lo hi i : Int) : Int := if i < lo then lo else if hi < i then hi else i

/-- How many of the bits below `n` of `v` are 1. -/
def popCount : Nat → Nat → Nat
  | 0, _ => 0
  | n + 1, v => v % 2 + popCount n (v / 2)

/-- The numbers below `n` whose bit is 1 in `v`, rising. -/
def bitList (n v : Nat) : List Nat := (List.range n).filter (fun i => natBit v i)

end Sys2Proof
end

