-- ==== Sys2Proof/Syntax.lean ====
section
/-! DEFINITION. The commands of the P48, one constructor per row of spec/opcode_table.json, and their operand types. -/

namespace Sys2Proof

/-- Who makes a register access (02 R36); the counter shadows are kept per requester path (R40). -/
inductive Req where
  | host | scribe | checker | manager
  deriving DecidableEq, Repr

/-- Who makes a memory access, as the classes of a scratchpad window tell requesters apart (09 R220). -/
inductive Who where
  /-- A Quill or DMA channel of a job, with its device. -/
  | job (dev id : Nat)
  | host | scribe | carousel
  /-- The small convolution engine for a descriptor's job. -/
  | fine (dev id : Nat)
  /-- The debug port (09 R229). -/
  | debug
  deriving DecidableEq, Repr

/-- The kind of a memory access. -/
inductive Acc3 where
  | read | write | atomic
  deriving DecidableEq, Repr

/-- What the array gives a scratchpad or memory read besides the errors already held: nothing, one bad bit, or more. -/
inductive Upset where
  | none
  | single (addr bit : Nat)
  | double (addr : Nat)
  deriving DecidableEq, Repr

/-- Who asks a memory controller for a slot: a job of the device, Carousel, the queue engine, host bulk transfers (10 R242, R244). -/
inductive MemWho where
  | job (id : Nat)
  | carousel
  | queueEngine
  | host
  deriving DecidableEq, Repr

/-- A request that waits for a memory slot (10 R242). -/
inductive MemAsk where
  | read (who : MemWho) (addr len : Nat)
  | write (who : MemWho) (addr : Nat) (data : List Byte)
  deriving DecidableEq, Repr

/-- A matrix operation's passes: the Quill that runs them, and the logical Nib and the group in which the hardware's residue check fails, if it does
(05 R107, R110). -/
structure PassRun where
  quill : Nat
  bad : Option (Nat × Nat)
  deriving DecidableEq, Repr

/-- A short packet: its virtual channel, its header word, and what the header's ECC finds, 0 none, 1 corrected, 2 uncorrectable (12 R273). -/
structure CsiShort where
  vc : Nat
  hdr : Nat
  bad : Nat
  deriving DecidableEq, Repr

/-- What the link does to a slot's transfer: nothing, an error that link ECC corrects, a read error it cannot correct in one byte of a block or
in several (10 R247). -/
inductive LinkErr where
  | ok
  | fixed
  | one (byte : Nat)
  | many
  deriving DecidableEq, Repr


/-- What an encoder gives at a sample: A, B and Z after their filters, or a serial read's data bits, parity bit and whether a start bit came
(13 R309). -/
inductive EncIn where
  | quad (a b z : Bool)
  | serial (data : Nat) (parity start : Bool)
  deriving DecidableEq, Repr

/-- A frame on a CAN bus at its validity point (14 R330, R331): identifier, extended, remote, format (0 classical, 1 FD, 2 XL), flags,
length, XL fields, data, and how long ago in ns its start of frame was. -/
structure CanFrame where
  id : Nat
  ide : Bool
  rtr : Bool
  fmt : Nat
  brs : Bool
  esi : Bool
  len : Nat
  sdt : Nat
  vcid : Nat
  sec : Bool
  af : Nat
  data : List Byte
  ago : Nat
  deriving DecidableEq, Repr

/-- A frame as a controller receives it, and whether its record's payload overran the FIFO (14 R331). -/
structure CanRx where
  frame : CanFrame
  ovr : Bool
  deriving DecidableEq, Repr

/-- A receive error: whether REC rises by 8, and the record begun for the frame, if any: its receive queue and its bytes (14 R331, R336). -/
structure CanRxErr where
  eight : Bool
  begun : Option (Bool × Nat)
  deriving DecidableEq, Repr

/-- What a grant period's model takes from counters of the platform blocks that the spec does not name (16 R378): their modelled power, in mW,
and the model's figure for each rail (R364). -/
structure PwrAct where
  rest : Nat
  rails : List Nat
  deriving DecidableEq, Repr

/-- Where a flit of a packet for another device goes on: the port and the VC; with the first flit of a packet with det 1, what its header holds: opcode,
origin, job and tag (17 R397, R399, R401). -/
structure Transit where
  port : Nat
  vc : Nat
  det : Option (Nat × Nat × Nat × Nat)
  deriving DecidableEq, Repr

/-- A flit that a port receives (17 R394, R395): whether its CRC holds, its fields, the kind of a flit on VC 7, the symbols corrected on each lane, and
where a flit of a packet for another device goes; none too for the flits behind one whose packet is refused. -/
structure FlitIn where
  crcOk : Bool
  seq : Nat
  ack : Nat
  vc : Nat
  kind : Nat
  fec : List Nat
  transit : Option Transit
  deriving DecidableEq, Repr

/-- The IPv4 and UDP part of a frame (18 R425): addresses, ports, whether a nonzero checksum holds, whether it has neither options nor fragments. -/
structure HostIp where
  dst : Nat
  src : Nat
  dport : Nat
  sport : Nat
  sumOk : Bool
  plain : Bool
  deriving DecidableEq, Repr

/-- The protection of a frame: AN, PN, ICV of 16 bytes (18 R421). -/
structure SecTag where
  an : Nat
  pn : Nat
  icv : List Byte
  deriving DecidableEq, Repr

/-- A frame that a host port receives (18 R418 to R426): whether its FCS holds; MAC addresses as little-endian numbers; tag control information;
the protection of a protected frame, whose other fields are those it has once decrypted; EtherType; address that an ARP request asks for; IPv4 part;
bytes; what follows the headers. -/
structure HostFrame where
  fcsOk : Bool
  dst : Nat
  src : Nat
  tag : Option Nat
  sec : Option SecTag
  ethertype : Nat
  arp : Option Nat
  ip : Option HostIp
  len : Nat
  pdu : List Byte
  deriving DecidableEq, Repr

/-- The commands: one constructor per row of spec/opcode_table.json. -/
inductive Instr where
  /-- JOB_DESCRIPTOR (R17): The management controller reads a job descriptor record from a consumer-3 command queue and either queues the job or refuses it. -/
  | jobDescriptor (q : Nat)
  /-- JOB_ADMIT (R18): Once the availability conditions hold, the head job of a command queue is admitted, its reservations are taken and its windows are opened. -/
  | jobAdmit
  /-- JOB_RUN_START (R115): Once the chain condition is met and every Inkwell holds a validated image copy, the job moves from ADMITTED to RUNNING and its Quills start in waves. -/
  | jobRunStart (id : Nat)
  /-- WAVE_START (R155): After a release, each Quill issues its next instruction at its fixed wave offset. -/
  | waveStart (q : Nat)
  /-- JOB_DONE (R22): When every Quill has ended and every operation and DMA has drained, or the zero-fill has finished, the job's completion record is written and its resources are released. -/
  | jobDone (id : Nat)
  /-- ZERO_FILL_DONE (R227): The zero-fill of a job's shares and program units completes, and its Quills become free. -/
  | zeroFillDone (n : Nat)
  /-- NOP (R116): Quill instruction that does nothing. -/
  | nop (q : Nat)
  /-- SET (R116): Quill instruction that writes an immediate value to a scalar register. -/
  | quillSet (q dst imm : Nat)
  /-- ALU (R116): Quill instruction that performs a scalar arithmetic or logic sub-op. -/
  | alu (q sub dst a b : Nat) (useImm : Bool) (imm : Nat)
  /-- LOOP (R116): Quill instruction that runs the following body a counted number of times. -/
  | loop (q countSc count body : Nat)
  /-- BRANCH (R116): Quill instruction that adds a signed offset to pc when its condition holds. -/
  | branch (q cond a b : Nat) (useImm : Bool) (imm off : Nat)
  /-- TOP (R116): Quill instruction that issues a tensor operation descriptor. -/
  | top (q tod : Nat)
  /-- WAIT_TOP (R116): Quill instruction that waits until every issued tensor operation has drained. -/
  | waitTop (q : Nat)
  /-- SEM_WAIT (R125): Quill instruction that waits until a semaphore reaches count and then subtracts count from it. -/
  | semWait (q sem count : Nat)
  /-- SEM_SIGNAL (R125): Quill instruction that adds count to a semaphore of a named rank, locally or over the ring, after the Quill's earlier writes have completed. -/
  | semSignal (q sem : Nat) (remote : Bool) (count rank dev job : Nat)
  /-- BARRIER (R127): Quill instruction that arrives at a local or cross-device barrier. -/
  | barrier (q scope group : Nat)
  /-- LOCAL_BARRIER_RELEASE (R154): A local barrier releases exactly 48 mesh cycles after the last participant arrives. -/
  | localBarrierRelease (job : Nat) (copyB : Bool) (scope group : Nat)
  /-- BARRIER_RELEASE_TIME (R156): A cross-device barrier member releases when its ring time reaches the release time R set by the root. -/
  | barrierReleaseTime (group : Nat) (copyB : Bool)
  /-- DMA (R128): Quill instruction that queues a copy between two AGPs on one of its router DMA channels. -/
  | dma (q ch : Nat) (noFail notify : Bool) (statusSc src dst queue : Nat)
  /-- DMA_WAIT (R116): Quill instruction that waits for the masked DMA channels to finish. -/
  | dmaWait (q mask : Nat)
  /-- DMA_COMPLETE (R269): A DMA finishes or stops at its first error, writes its status and any completion record, and fails the job when no_fail is 0. -/
  | dmaComplete (k : Nat)
  /-- ATOMIC (R490): Quill instruction that performs swap, fetch-and-add or compare-and-swap on a 4-byte word and returns the old value. -/
  | atomic (q op : Nat) (noFail : Bool) (statusSc dst val cmp agp : Nat)
  /-- QPUSH (R129): Quill instruction that pushes one record into a hardware queue. -/
  | qpush (q : Nat) (blocking : Bool) (statusSc src queue : Nat)
  /-- QPOP (R129): Quill instruction that pops one record from a hardware queue. -/
  | qpop (q : Nat) (blocking : Bool) (statusSc dst queue : Nat)
  /-- TRAP (R116): Quill instruction that fails the job and raises TRAP. -/
  | trap (q code : Nat)
  /-- END (R117): Quill instruction that ends the program for this Quill. -/
  | quillEnd (q : Nat)
  /-- SEM_TIMEOUT (R130): A Quill wait exceeds QL_WAIT_LIMIT, and the job fails. -/
  | semTimeout (q : Nat)
  /-- MATMUL (R122): A matrix-product tensor operation runs its passes on the exact or float path. -/
  | matmul (x : PassRun)
  /-- CONV (R198): A convolution tensor operation runs as a matrix product over gathered taps, with padding handled as R201 sets out. -/
  | conv (x : PassRun)
  /-- POOL_RESIZE (R207): A pooling or resize operation runs on the vector unit. -/
  | poolResize (q : Nat)
  /-- ATTENTION_FWD (R177): A forward attention launch takes a ticket, writes its new keys and values if asked, and reduces scores over the Folios. -/
  | attentionFwd (q : Nat)
  /-- ATTENTION_BWD (R191): A backward attention launch recomputes scores and forms dQ, dK and dV. -/
  | attentionBwd (q : Nat)
  /-- ELTWISE (R131): An element-wise vector function operation runs. -/
  | eltwise (q : Nat)
  /-- REDUCE (R132): A sum, max, min or sum-of-squares reduction along dimension 0 runs. -/
  | reduce (q : Nat)
  /-- OPT_STEP (R133): An optimiser update of FP32 master weights and their moments runs. -/
  | optStep (q : Nat)
  /-- TENSOR_OP_DRAIN (R109): The accumulators of a finished pass drain to the rescale unit or to the partial-sum writer. -/
  | tensorOpDrain (q : Nat)
  /-- NIB_RETIRE (R135): A QL_NIB_RETIRE write with the key marks a Nib or NS failed. -/
  | nibRetire (r : Req) (q v : Nat)
  /-- NIB_SPARED (R136): While the Quill is free, NS takes over a failed Nib's logical index and the map is saved. -/
  | nibSpared (q : Nat)
  /-- REGISTER_WRITE (R37): A write to a register that has no row of its own takes effect by field access code, after the access checks. -/
  | registerWrite (r : Req) (addr size v : Nat)
  /-- READ_CLEAR (R37): A read of an RC field returns its value and clears the field. -/
  | readClear (r : Req) (addr size : Nat)
  /-- COUNTER_LO_READ (R40): A read of a 64-bit counter's _LO register latches its high half into the requester path's shadow. -/
  | counterLoRead (r : Req) (c i lo : Nat)
  /-- SOFT_RESET (R491): Setting CTRL.soft_reset resets the block to its power-on state. -/
  | softReset (r : Req) (c i : Nat)
  /-- SOFT_RESET_DONE (R491): A soft reset completes, and reset_busy and soft_reset clear. -/
  | softResetDone (c i : Nat)
  /-- BLOCK_DISABLE (R43): Clearing CTRL.enable makes the block finish its current transaction and then accept no new work. -/
  | blockDisable (r : Req) (c i : Nat)
  /-- EVENT_INJECT (R46): An EVENT_INJECT write provokes a report-only or fault-mode occurrence of an event source. -/
  | eventInject (r : Req) (c i v : Nat)
  /-- INJECT_ALLOW_WRITE (R55): A write to GLB_INJECT_CTRL.fault_allow is accepted only while SAFE_OUT is deasserted, except from the checker. -/
  | injectAllowWrite (r : Req) (allow : Bool)
  /-- EVENTS_LOST (R51): Once at least 65 slots of the event queue are free again after drops, one EVENTS_LOST record is written. -/
  | eventsLost
  /-- WARM_RESET (R443): Writing the key to GLB_WARM_RESET drops SAFE_OUT and resets the device. -/
  | warmReset (r : Req) (v : Nat)
  /-- GPTP_SYNC (R54): A gPTP Sync updates the offset, and device time is stepped forward or slewed. -/
  | gptpSync (p ns : Nat)
  /-- GPTP_SYNC_TIMEOUT (R424): After 3 s without Sync, gptp_locked clears and device time runs on its own clock. -/
  | gptpSyncTimeout
  /-- PDELAY_MEASURE (R424): Each port measures the gPTP path delay once per second. -/
  | pdelayMeasure (p : Nat) (ns : Option Nat)
  /-- SPAD_REQUEST (R222): A scratchpad read, write or atomic is checked against bank state, fill state and windows, and is accepted or refused whole. -/
  | spadRequest (w : Who) (k : Acc3) (addr len : Nat) (data : List Byte) (u : Upset)
  /-- WINDOW_EXPIRY (R224): A window reaches its expiry time and refuses access from then on. -/
  | windowExpiry (n w : Nat)
  /-- WINDOW_OPEN (R220): SPAD_WIN_CMD op 1 opens the selected window entry from the staged words. -/
  | windowOpen (r : Req) (n : Nat)
  /-- WINDOW_CLOSE (R224): SPAD_WIN_CMD op 2 closes the selected open window. -/
  | windowClose (r : Req) (n : Nat)
  /-- BANK_POWER_DOWN (R225): A power-down request takes a bank to DRAINING and closes its windows to CLOSED_POWER. -/
  | bankPowerDown (r : Req) (n bank owner : Nat)
  /-- BANK_WAKE (R225): A wake request takes an OFF bank to WAKING, or is held while the bank drains. -/
  | bankWake (r : Req) (n bank owner : Nat)
  /-- BANK_DRAINED (R225): The last accepted request to a DRAINING bank completes, and the bank is gated OFF. -/
  | bankDrained (n b : Nat)
  /-- BANK_WAKE_DONE (R225): A waking bank finishes its power-up and zero-fill and becomes ON. -/
  | bankWakeDone (n b : Nat)
  /-- HOLD_FILL (R229): A write to SPAD_DEBUG.hold_fill holds or releases the fill of released shares while debug is unlocked. -/
  | holdFill (r : Req) (n : Nat) (hold : Bool)
  /-- SCRUB_STEP (R231): The scrubber reads and corrects a scratchpad word through the maintenance port. -/
  | scrubStep (n b : Nat) (u : Upset)
  /-- MEMORY_SLOT (R242): A memory controller slot starts and carries one unit of reserved or unreserved traffic on its channel. -/
  | memorySlot (m pos : Nat) (asks : List MemAsk) (link : LinkErr) (u : Upset)
  /-- REFRESH (R245): A per-bank refresh is issued at a slot start when it falls due, possibly delaying a reserved command. -/
  | refresh (m ch bank : Nat)
  /-- REFRESH_RATE_CHANGE (R245): The stack temperature crosses 85 °C or 82 °C, and the refresh rate changes. -/
  | refreshRateChange (m temp : Nat)
  /-- PATROL_SCRUB (R248): The patrol scrubber reads a unit in an unreserved slot and corrects it. -/
  | patrolScrub (m : Nat) (u : Upset)
  /-- ROW_SPARE_FORCE (R248): MC_SPARE_SEL.force starts sparing the selected row at once. -/
  | rowSpareForce (r : Req) (m bank row : Nat)
  /-- ROW_SPARE_DONE (R248): The copy to a spare row completes, and the remap takes effect between two slots. -/
  | rowSpareDone (m bank row : Nat)
  /-- MC_TRAINED (R249): Stack training by restore or full training completes or fails. -/
  | mcTrained (m : Nat) (full ok : Bool) (ms stage : Nat)
  /-- ECC_FILL_DONE (R249): The background start-up zero-fill of every usable unit completes. -/
  | eccFillDone (m : Nat)
  /-- PACKET_COMPLETE (R256): A packet's length word is written, wr_ptr advances over the complete packets in order, and a notice is raised for each. -/
  | packetComplete (q num : Nat)
  /-- PACKET_ABANDON (R257): A reserved packet not complete within QE_PACKET_LIMIT, or whose producer was killed, cancelled or fenced, is turned into a pad. -/
  | packetAbandon (q num : Nat)
  /-- DESCRIPTOR_FETCH (R253): A missing queue descriptor is fetched from LPDDR5X and a victim is written back, and the waiting operation proceeds. -/
  | descriptorFetch (q : Nat) (u : Upset)
  /-- STAGED_RECORD_RELEASE (R262): A staged record leaves the staging buffer for its queue once room returns. -/
  | stagedRecordRelease (q : Nat)
  /-- QUEUE_CONFIGURE (R263): QE_Q_CMD op 1 writes the selected descriptor from the staged words and zeroes its pointers. -/
  | queueConfigure (r : Req)
  /-- QUEUE_ENABLE (R252): QE_Q_CMD op 2 enables the selected queue. -/
  | queueEnable (r : Req)
  /-- QUEUE_DISABLE (R263): QE_Q_CMD op 3 disables the queue and wakes blocked waiters with status disabled. -/
  | queueDisable (r : Req)
  /-- QUEUE_PIN (R253): QE_Q_CMD op 4 pins the selected descriptor in the on-chip cache. -/
  | queuePin (r : Req)
  /-- QUEUE_UNPIN (R253): QE_Q_CMD op 5 unpins the selected descriptor. -/
  | queueUnpin (r : Req)
  /-- RDPTR_WRITE (R260): A QE_Q_RDPTR write advances the read pointer of a consumer-2 queue. -/
  | rdptrWrite (r : Req) (v : Nat)
  /-- CTX_OPEN (R168): Cache command that opens a free context. -/
  | ctxOpen
  /-- CTX_CLOSE (R168): Cache command that releases a context's entries and puts the context in LIMBO. -/
  | ctxClose
  /-- CTX_FORK (R168): Cache command that opens a destination context sharing the source's Folios. -/
  | ctxFork
  /-- APPEND (R168): Cache command that reserves new positions, allocating fresh Folios or copying shared ones. -/
  | append
  /-- COMMIT (R187): Cache command that moves accepted candidates into place and rolls back the rest. -/
  | commit
  /-- TRUNCATE (R168): Cache command that shortens a context and releases its blocks above the new length. -/
  | truncate
  /-- REINK_BEGIN (R190): Cache command that allocates a new slot, marks a Folio REINK and takes a ticket. -/
  | reinkBegin
  /-- REINK_END (R190): Cache command that installs the new slot and formats if the Folio is unchanged, or returns stale. -/
  | reinkEnd
  /-- REINK_ABORT (R168): Cache command that sends the new slot to limbo and returns the Folio to LIVE. -/
  | reinkAbort
  /-- TICKET_GRANT (R172): The manager grants an epoch ticket to a launch, advancing the epoch first if an advance is pending, and checks its contexts. -/
  | ticketGrant (q : Nat)
  /-- TICKET_RETURN (R172): A launch or Re-ink returns its ticket, which may let limbo items be reused. -/
  | ticketReturn
  /-- LIMBO_RECLAIM (R174): In idle cycles, the manager reclaims a limbo item whose stamp every occupied ticket has reached. -/
  | limboReclaim (kind : Nat)
  /-- CC_ENABLE (R160): Setting CC_CMD_QUEUE.enable starts command processing and builds the free lists. -/
  | ccEnable (r : Req) (q : Nat)
  /-- FN_LAYER (R211): The small convolution engine takes a layer descriptor from its queue and runs it. -/
  | fnLayer
  /-- FN_SOURCE_STALL (R215): No source row arrives within FN_STALL_LIMIT, and the layer ends with status source_stall. -/
  | fnSourceStall
  /-- FN_LAYER_COMPLETE (R216): A layer finishes and writes its completion record. -/
  | fnLayerComplete (u : Upset)
  /-- CSI_PACKET (R273): A CSI-2 packet is received, checked and passed to the line buffer. -/
  | csiPacket (csi vc dt hdr bad : Nat) (payload : List Byte) (crcOk full : Bool) (mem : Upset)
  /-- FRAME_START (R274): A Frame Start short packet checks the frame number and starts a sample in a batch slot. -/
  | frameStart (csi : Nat) (p : CsiShort) (number : Nat)
  /-- FRAME_END (R277): A Frame End finalises the frame's hashes, repeat run and frozen flag, and writes the frame record. -/
  | frameEnd (csi : Nat) (p : CsiShort)
  /-- CAM_LINK_LOST (R295): No D-PHY clock for 1 ms while a virtual channel is enabled. -/
  | camLinkLost (csi lanes : Nat)
  /-- SOURCE_RECORD (R279): A memory stream pops a source record and starts a JPEG or tensor sample. -/
  | sourceRecord (st : Nat)
  /-- SAMPLE_COMPLETE (R287): A sample's last write completes, the running mean updates and a resolved batch is issued. -/
  | sampleComplete (st id : Nat)
  /-- SAMPLE_LATE (R288): A sample reaches its deadline incomplete and is marked missing or deferred. -/
  | sampleLate (st id : Nat)
  /-- BATCH_WINDOW_EXPIRY (R285): window_us expires on an open fill batch, or on a per-member window. -/
  | batchWindowExpiry (g : Nat)
  /-- STREAM_CONFIGURE (R278): CAR_ST_CMD op 1 configures a stopped stream. -/
  | streamConfigure (r : Req)
  /-- STREAM_START (R278): CAR_ST_CMD op 2 starts a stream. -/
  | streamStart (r : Req)
  /-- STREAM_STOP (R290): CAR_ST_CMD op 3 stops a stream and cancels its in-flight samples as missing. -/
  | streamStop (r : Req)
  /-- MEAN_RESET (R287): CAR_ST_CMD op 4 resets the stream's running mean to init_mean_ns. -/
  | meanReset (r : Req)
  /-- GROUP_CONFIGURE (R283): CAR_GRP_CMD op 1 configures a stopped batch group. -/
  | groupConfigure (r : Req)
  /-- GROUP_START (R283): CAR_GRP_CMD op 2 starts a group if every member's samples fit slot_stride. -/
  | groupStart (r : Req)
  /-- GROUP_STOP (R290): CAR_GRP_CMD op 3 stops a group and issues any open batch. -/
  | groupStop (r : Req)
  /-- SLOT_TRIGGER (R297): A timer, encoder, CAN, PWM or DIN trigger fires, latches the slot's inputs and makes it pending, or is dropped as an overrun. -/
  | slotTrigger (slot : Nat)
  /-- LAW_DISPATCH (R299): The highest-priority pending slot is dispatched, possibly preempting another, and enters or leaves HOLD. -/
  | lawDispatch (u : Upset)
  /-- MAC (R301): Law instruction that multiplies a signal by a coefficient into the accumulator. -/
  | mac (clr : Bool) (src coef : Nat) (u : Upset)
  /-- STORE (R301): Law instruction that writes the rounded and saturated accumulator to a signal. -/
  | lawStore (dst sh : Nat)
  /-- LIMIT (R301): Law instruction that clamps a signal between two coefficients. -/
  | limit (dst coef : Nat) (u : Upset)
  /-- MOVE (R301): Law instruction that copies one signal to another. -/
  | lawMove (dst src : Nat)
  /-- OUT (R312): Law instruction that writes a PWM compare or a transmit buffer word. -/
  | lawOut (src : Nat) (buf : Bool) (n word : Nat)
  /-- SEND (R314): Law instruction that requests transmission of a Tightrope transmit buffer. -/
  | lawSend (buf : Nat)
  /-- SKIPIF (R301): Law instruction that skips the next n instructions on a sign condition. -/
  | skipif (src cond n : Nat)
  /-- LAW_END (R301): Law instruction that ends the law. -/
  | lawEnd
  /-- SLOT_CONFIGURE (R296): TR_SLOT_CMD op 1 configures a stopped slot after the law checks. -/
  | slotConfigure (r : Req)
  /-- SLOT_START (R298): TR_SLOT_CMD op 2 starts a slot, subject to the engine load limit. -/
  | slotStart (r : Req)
  /-- SLOT_STOP (R296): TR_SLOT_CMD op 3 stops a slot. -/
  | slotStop (r : Req)
  /-- SLOT_RESUME (R308): TR_SLOT_CMD op 4 resumes a slot held in safe mode once no cause persists. -/
  | slotResume (r : Req)
  /-- LAW_DATA_WRITE (R301): A TR_LAW_DATA write stores a law word and increments the index, unless a started slot uses it. -/
  | lawDataWrite (r : Req) (v : Nat)
  /-- COEF_WRITE (R315): A TR_COEF_WRITE writes the staged value and shift to a coefficient for later dispatches. -/
  | coefWrite (r : Req) (v : Nat)
  /-- BANK_SWAP (R317): Setting TR_BANK_CTRL.swap requests a coefficient bank swap at the next dispatch of swap_slot. -/
  | bankSwap (r : Req) (slot : Nat)
  /-- COEF_COPY_DONE (R317): The copy of the new active bank into the inactive one completes, and copy_busy clears. -/
  | coefCopyDone
  /-- SP_COMMIT (R307): A checker write to TR_SP_COMMIT replaces a slot's eight setpoint words as accepted or held. -/
  | spCommit (r : Req) (v : Nat)
  /-- TEST_GENERATOR (R318): A TR_TEST_CTRL write starts, changes or stops the test signal generator. -/
  | testGenerator (r : Req) (v : Nat)
  /-- CAPTURE_READ (R319): A TR_CAP_READ read returns the next captured word and advances. -/
  | captureRead (r : Req)
  /-- ENC_CONFIGURE (R309): TIO_ENC_CMD op 1 configures an encoder not used by a running slot. -/
  | encConfigure (r : Req)
  /-- ENC_REVALIDATE (R309): TIO_ENC_CMD op 2 revalidates a quadrature encoder. -/
  | encRevalidate (r : Req)
  /-- ENC_SAMPLE (R309): A filtered encoder sample or serial read updates the position, or finds the encoder invalid. -/
  | encSample (enc : Nat) (x : EncIn)
  /-- DIN_CONFIGURE (R310): TIO_DIN_CMD configures a discrete input. -/
  | dinConfigure (r : Req)
  /-- DIN_EDGE (R310): A raw level change on a discrete input is filtered, rejected as a short pulse, or accepted. -/
  | dinEdge (din : Nat)
  /-- DIN_STUCK (R310): A filtered 1 held longer than max_active_us makes the input stuck. -/
  | dinStuck (din : Nat)
  /-- ADC_CONFIGURE (R311): TIO_ADC_CMD op 1 configures an ADC master. -/
  | adcConfigure (r : Req)
  /-- ADC_START (R311): TIO_ADC_CMD op 2 starts an ADC master's sequences. -/
  | adcStart (r : Req)
  /-- ADC_STOP (R311): TIO_ADC_CMD op 3 stops an ADC master's sequences. -/
  | adcStop (r : Req)
  /-- ADC_SEQUENCE (R311): An ADC master's period expires, and it runs its frame sequence. -/
  | adcSequence (adc : Nat) (frames : List Nat)
  /-- PWM_CONFIGURE (R312): TIO_PWM_CMD op 1 configures a PWM channel. -/
  | pwmConfigure (r : Req)
  /-- PWM_RELEASE (R312): TIO_PWM_CMD op 2 releases a channel to high impedance. -/
  | pwmRelease (r : Req)
  /-- PWM_PERIOD_START (R312): A PWM period starts, and the latest compare takes effect. -/
  | pwmPeriodStart (pwm : Nat)
  /-- STOP_N_ASSERT (R313): STOP_N low for 20 ns drops SAFE_OUT and forces every PWM channel to its safe level. -/
  | stopNAssert
  /-- STOP_N_RELEASE (R313): STOP_N returns high, and channels resume at their next period start once no stop remains. -/
  | stopNRelease
  /-- CAN_ENTRY_CONFIGURE (R324): CAN_CMD op 1 configures the selected transmit buffer, filter or allow entry. -/
  | canEntryConfigure (r : Req) (can : Nat)
  /-- TB_REQUEST (R325): CAN_CMD op 2 requests transmission of the selected buffer. -/
  | tbRequest (r : Req) (can : Nat)
  /-- TB_ABORT (R326): CAN_CMD op 3 aborts a pending buffer, or aborts it at frame end if it is on the bus. -/
  | tbAbort (r : Req) (can : Nat)
  /-- BUS_OFF_RECOVER (R336): CAN_CMD op 4 starts recovery from bus-off. -/
  | busOffRecover (r : Req) (can : Nat)
  /-- TR_MAP_WRITE (R328): A CAN_TR_MAP write maps Tightrope buffers to TB12–TB15. -/
  | trMapWrite (r : Req) (can v : Nat)
  /-- JOB_TX_REQUEST (R329): Scribe takes a job transmit request record and checks it against the allow table. -/
  | jobTxRequest (can : Nat)
  /-- CAN_FRAME_RECEIVED (R330): A received frame at its validity point is filtered to a queue, a Tightrope route, the stop check or a drop. -/
  | canFrameReceived (can : Nat) (r : CanRx)
  /-- CAN_FRAME_TRANSMITTED (R325): A transmitted frame ends in success, held contents become pending and a report record is written. -/
  | canFrameTransmitted (can : Nat)
  /-- CAN_ERROR_FRAME (R326): A transmission ends in an error frame, counting an attempt and updating TEC and REC. -/
  | canErrorFrame (can type : Nat) (dry : Bool)
  /-- CAN_RECOVERY_DONE (R336): 128 × 11 recessive bits have been counted, and the controller returns to error-active. -/
  | canRecoveryDone (can : Nat)
  /-- CAN_STOP_CLEAR (R335): Writing CAN_STOP.clear clears the latched stop bit. -/
  | canStopClear (r : Req) (can : Nat)
  /-- ARM_REQUEST (R344): An SN_ARM write with the key asserts SAFE_OUT if every arm condition holds, and closes the configuration window. -/
  | armRequest (r : Req) (clear : Bool)
  /-- SN_CONFIGURE (R347): SN_CMD writes a staged checker table entry while the window is open. -/
  | snConfigure (r : Req)
  /-- SETPOINT_RECORD (R349): The checker judges a setpoint record and commits it or the held value to Tightrope, applying the disagreement policy. -/
  | setpointRecord (u : Upset)
  /-- TWIN_HOLD_EXPIRY (R350): An unmatched twin-slot record finds no twin within 1.4 µs and is judged or discarded with cause 8. -/
  | twinHoldExpiry
  /-- FRAME_RECORD (R357): The checker consumes a frame record and applies the stream's frozen action. -/
  | frameRecord
  /-- OUTPUT_COMPARISON (R356): After both copies of a safety job end, their compared bindings are compared byte for byte. -/
  | outputComparison (job : Nat)
  /-- CMP_WINDOW_EXPIRY (R356): The later copy has not ended within window_us of the earlier one. -/
  | cmpWindowExpiry (job : Nat)
  /-- LOCKSTEP_MISMATCH (R341): A checker comparator mismatch, clock fault or uncorrectable checker memory word drops SAFE_OUT and resets the checker cores. -/
  | lockstepMismatch (kind : Nat)
  /-- CHECKER_WATCHDOG (R341): The checker watchdog expires unserviced, with the same action as a mismatch. -/
  | checkerWatchdog
  /-- CHANNEL_DISCREPANCY (R340): A SAFE_OUT channel readback, or the pair, has disagreed for 10 µs, and the checker trips. -/
  | channelDiscrepancy (chans : Nat)
  /-- OVERFLOW_LOG_DRAIN (R354): Overflow log entries move to their queues once space returns. -/
  | overflowLogDrain
  /-- LOG_READ (R354): An SN_LOG_READ read returns the next word of the oldest overflow log entry and advances. -/
  | logRead (r : Req)
  /-- SELF_TEST_SLICE (R358): A self-test slice starts when no safety window is open and it can end before the next one. -/
  | selfTestSlice
  /-- SLICE_DONE (R358): A slice completes within its length, and its result counts or its failure action applies. -/
  | sliceDone (ok : Bool) (nib : Nat)
  /-- SLICE_ABORT (R359): The slice timer ends a slice, its result is discarded and its Quill is zero-filled. -/
  | sliceAbort
  /-- SELF_TEST_LATE (R360): A self-test cycle does not complete within cycle_s, and the checker may trip. -/
  | selfTestLate
  /-- GRANT_PERIOD (R366): Every 10 µs the Ringmaster computes grants and Quill clocks, and checks reservations, the cap and divergence. -/
  | grantPeriod (act : PwrAct)
  /-- VOLTAGE_REACHED (R368): The regulator reports the new VDD_Q, and the raised clocks take effect. -/
  | voltageReached
  /-- RAIL_READING (R364): A regulator readback updates the rail's measured power. -/
  | railReading (rail mv mw : Nat)
  /-- RAIL_TIMEOUT (R364): A rail reading older than 1 ms counts as missing, and the device becomes unreconciled. -/
  | railTimeout (rail : Nat) (pmbus : Bool)
  /-- RECON_WINDOW (R380): At the end of each 1 ms window, the ratio r is recomputed if no period diverged. -/
  | reconWindow
  /-- CAP_WRITE (R365): A PWR_CAP write sets the power cap from the next grant period, or is refused. -/
  | capWrite (r : Req) (v : Nat)
  /-- ALLOWANCE_WRITE (R365): A PWR_ALLOWANCE write sets the platform allowance, or is refused. -/
  | allowanceWrite (r : Req) (v : Nat)
  /-- OVERPOWER (R370): Measured power above 600 W for 100 µs sets every throughput Quill to 300 MHz. -/
  | overpower
  /-- DROOP_DETECT (R376): A droop detector on VDD_Q or VDD_C crosses a threshold, and the Inkwell or mesh clocks are halved or stopped. -/
  | droopDetect (site level : Nat)
  /-- DROOP_END (R376): 64 mesh cycles after the rail recovers, the droop throttle ends. -/
  | droopEnd (site : Nat)
  /-- TEMP_READING (R384): A sensor reading every 100 µs starts or ends a throttle or emergency response. -/
  | tempReading (sensor temp : Nat)
  /-- THERMAL_TRIP (R384): A sensor at 120 °C drops SAFE_OUT and resets the device until every comparator reads below 100 °C. -/
  | thermalTrip (sensor temp : Nat)
  /-- RECOVERY_END (R374): One second after the last recovery cause, the recovery offset ends. -/
  | recoveryEnd
  /-- COOLANT_LOSS (R385): COOL_FLOW_OK low for 50 µs gates the Quills, drops SAFE_OUT and puts memory in self-refresh. -/
  | coolantLoss
  /-- COOLANT_RESTART (R387): A PWR_COOL restart write retrains memory and ungates the Quills, if flow and temperature allow. -/
  | coolantRestart (r : Req) (v : Nat)
  /-- DOMAIN_ON (R388): PWR_DOMAIN_CMD op 1 switches a power domain on. -/
  | domainOn (r : Req) (d : Nat)
  /-- DOMAIN_OFF_CMD (R388): PWR_DOMAIN_CMD op 0 switches a power domain off, or is refused. -/
  | domainOffCmd (r : Req) (d : Nat)
  /-- DOMAIN_USABLE (R388): A switched-on domain becomes usable after its on time. -/
  | domainUsable (d : Nat)
  /-- AUTO_POWER_DOWN (R389): An Inkwell or bank idle for idle_ms is switched off automatically. -/
  | autoPowerDown (bank : Option Nat) (n : Nat)
  /-- FLIT_RECEIVED (R395): A ring flit is received, CRC-checked and accepted in sequence, or discarded. -/
  | flitReceived (p : Nat) (f : FlitIn)
  /-- NAK_RECEIVED (R402): A nak makes the transmitter replay from ack + 1. -/
  | nakReceived (p ack : Nat)
  /-- LINK_RETRAIN (R403): Repeated naks, a replay error or a command start a retrain of the link. -/
  | linkRetrain (p cause : Nat)
  /-- RETRAIN_DONE (R403): A retrain finishes, and held flits are replayed. -/
  | retrainDone (p : Nat)
  /-- LINK_DOWN (R404): A link goes down, replay buffers are discarded and routes avoid it. -/
  | linkDown (p : Nat)
  /-- LINK_UP (R404): A link finishes training, and the manager restores its routes. -/
  | linkUp (p die dev q delayPs lanes : Nat)
  /-- LANE_SPARED (R393): A lane over the error threshold or out of lock is switched to the spare lane. -/
  | laneSpared (p lane : Nat) (lock : Bool)
  /-- LANE_SWAP_FLIT (R393): A lane-swap control flit agrees the boundary at which both ends switch lanes. -/
  | laneSwapFlit (p lane : Nat)
  /-- SPARE_SHADOW_ROTATE (R393): Every 100 ms the spare lane moves to shadow the next active lane. -/
  | spareShadowRotate (p : Nat)
  /-- CREDIT_RETURN (R396): A credit-return link flit restores transmit credits for a VC. -/
  | creditReturn (p vc n : Nat)
  /-- TIME_SYNC (R405): A time-sync flit corrects the device's ring time and is passed down the tree. -/
  | timeSync (p ps depth : Nat)
  /-- RING_TIME_LOST (R407): No time sync for 10 µs, and the device counts alone or becomes the source. -/
  | ringTimeLost (managerGone : Bool)
  /-- RING_READ (R397): A ring read request packet arrives at its target. -/
  | ringRead (src job tag : Nat) (det : Bool) (addr len : Nat)
  /-- RING_WRITE (R397): A ring write request packet arrives at its target. -/
  | ringWrite (src job tag : Nat) (det : Bool) (addr : Nat) (data : List Byte)
  /-- RING_ATOMIC (R490): A ring atomic request packet is performed at its target. -/
  | ringAtomic (src job tag : Nat) (det : Bool) (addr op val cmp : Nat)
  /-- READ_RESPONSE (R397): A read response packet returns data and status to its requester. -/
  | readResponse (tag status cause : Nat) (data : List Byte)
  /-- WRITE_RESPONSE (R397): A write response packet returns status to its requester. -/
  | writeResponse (tag status cause : Nat)
  /-- RING_SEM_SIGNAL (R126): A remote semaphore signal packet is delivered, or refused if the job is not running. -/
  | ringSemSignal (src job tag : Nat) (det : Bool) (target rank sem count : Nat)
  /-- RING_QUEUE_PUSH (R259): A remote queue push packet is matched and reserved in the target queue. -/
  | ringQueuePush (src job tag : Nat) (det : Bool) (q : Nat) (data : List Byte)
  /-- BARRIER_ARRIVAL (R156): A barrier arrival packet reaches the root, which sets the release time after the last arrival. -/
  | barrierArrival (group member : Nat) (copyB : Bool)
  /-- BARRIER_RELEASE (R156): A barrier release packet gives a member the release time R. -/
  | barrierRelease (group : Nat) (copyB : Bool) (R : Nat)
  /-- RING_REG_ACCESS (R34): A manager register read or write packet is performed, or refused, at the target. -/
  | ringRegAccess (src tag : Nat) (wr : Bool) (addr n : Nat) (data : List Byte)
  /-- REGISTER_RESPONSE (R397): A register response packet returns to the manager. -/
  | registerResponse (tag status : Nat) (data : List Byte)
  /-- RING_REQ_TIMEOUT (R407): A request with no response within the limit ends with status unreachable. -/
  | ringReqTimeout (tag : Nat)
  /-- ENUM_START (R409): Enumeration starts at boot or on the manager's start bit. -/
  | enumStart (r : Option Req)
  /-- DISCOVER (R409): A DISCOVER packet is answered with identity and port state and forwarded. -/
  | discover (p origin round : Nat)
  /-- DISCOVER_REPLY (R409): The manager receives a DISCOVER answer and places the device. -/
  | discoverReply (die : Nat) (manager : Bool) (ports : List (Bool × Nat × Nat))
  /-- ASSIGN (R409): An ASSIGN packet sets the device ID, coordinates and routes, and the device acknowledges. -/
  | assign (id sx sy sz x y z depth : Nat) (down : List (Nat × Nat))
  /-- ENUM_DONE (R409): Every device has acknowledged, and the manager sets done and starts ring time. -/
  | enumDone
  /-- DISCOVER_REPEAT (R411): Every 100 ms after enumeration the manager repeats DISCOVER to find late devices. -/
  | discoverRepeat
  /-- ENUM_WAIT_TIMEOUT (R408): A worker with a port up receives no DISCOVER within 1 s. -/
  | enumWaitTimeout
  /-- ROUTE_UPDATE (R404): A route update packet marks links down or up in the device's route table. -/
  | routeUpdate (dev p : Nat) (down : Bool)
  /-- FENCE_CMD (R412): A RING_FENCE_CMD write fences this device or, on the manager, another device. -/
  | fenceCmd (r : Req) (target : Nat)
  /-- DEVICE_FENCE (R413): The device fences itself: SAFE_OUT drops, jobs are killed, notices are sent and completion records are written or relayed. -/
  | deviceFence (fault : Option Nat)
  /-- FENCE_NOTICE (R413): A fence notice marks the peer fenced and relays its completion records. -/
  | fenceNotice (dev reason : Nat) (records : List (List Byte))
  /-- LINK_RETRAIN_CMD (R403): Setting RP_LINK_CTRL.retrain starts a retrain. -/
  | linkRetrainCmd (r : Req) (p : Nat)
  /-- LINK_MODE_WRITE (R416): An RP_LINK_CTRL.mode write disables, loops or restores a port. -/
  | linkModeWrite (r : Req) (p mode : Nat)
  /-- LINK_TEST_DROP (R416): RP_TEST drop withholds the next flits to provoke a nak. -/
  | linkTestDrop (r : Req) (p n : Nat)
  /-- LINK_TEST_CORRUPT (R416): RP_TEST corrupt inverts a bit in the next flits. -/
  | linkTestCorrupt (r : Req) (p n : Nat)
  /-- LINK_TEST_REORDER (R416): RP_TEST reorder swaps the next two flits. -/
  | linkTestReorder (r : Req) (p : Nat)
  /-- HOST_FRAME (R420): A received Ethernet frame passes MAC, MACsec and the priority filter into the priority buffer or the data FIFO. -/
  | hostFrame (p : Nat) (f : HostFrame)
  /-- HOST_LINK_UP (R418): A host port link trains. -/
  | hostLinkUp (p rate : Nat)
  /-- HOST_LINK_DOWN (R418): A host port link is lost. -/
  | hostLinkDown (p : Nat)
  /-- SYNC (R432): CCP command that sets the port's peer and returns the session and sequence state, optionally restarting deliveries. -/
  | sync
  /-- QACK (R433): CCP command that acknowledges delivered records of a queue and advances rd_ptr. -/
  | qack
  /-- REG_READ (R436): CCP command that reads register words. -/
  | regRead
  /-- REG_WRITE (R436): CCP command that writes register words, stopping at the first refusal. -/
  | regWrite
  /-- MEM_READ (R436): CCP command that reads memory through windows or the ring. -/
  | memRead
  /-- MEM_WRITE (R436): CCP command that writes memory through windows or the ring. -/
  | memWrite
  /-- QUEUE_PUSH (R436): CCP command that pushes a record onto a queue. -/
  | queuePush
  /-- BARRIER_GROUP (R157): CCP command to the manager that configures a barrier group on every member. -/
  | barrierGroup (copy : Option (List Byte))
  /-- DET_SLOTS (R401): CCP command to the manager that writes deterministic ring slot entries along routes. -/
  | detSlots
  /-- MACSEC_KEY (R421): CCP command that installs and optionally activates a wrapped MACsec SAK. -/
  | macsecKey
  /-- STOP (R438): CCP command that latches the device stop condition and drops SAFE_OUT. -/
  | hostStop
  /-- KILL (R439): CCP command that kills the named jobs. -/
  | kill
  /-- HOLD (R439): CCP command that holds admission or job CAN requests. -/
  | hostHold
  /-- RELEASE (R439): CCP command that clears the named hold scopes. -/
  | hostRelease
  /-- HOST_STOP_CLEAR (R438): Writing HOST_STOP.clear clears the latched host stop. -/
  | hostStopClear (r : Req)
  /-- DELIVERY_RESEND (R433): Unacknowledged delivered records are resent when the window has not moved for resend_us. -/
  | deliveryResend (q : Nat)
  /-- UPDATE_STAGE (R463): CCP command that stages an image or settings record from LPDDR5X. -/
  | updateStage
  /-- UPDATE_DONE (R463): A staging completes and has been checked. -/
  | updateDone (bad : Option Nat)
  /-- UPDATE_ACTIVATE (R464): CCP command that hands service over to the staged image, component by component. -/
  | updateActivate
  /-- COMPONENT_SWAP (R464): A component reaches its swap point and switches to its new code. -/
  | componentSwap (id : Nat)
  /-- UPDATE_COMMIT (R465): CCP command that makes the pending slot active and optionally advances the rollback counter. -/
  | updateCommit
  /-- UPDATE_ABORT (R465): CCP command that discards a staging or swaps back after activation. -/
  | updateAbort
  /-- ATTEST (R460): CCP command that writes a signed attestation record. -/
  | attest
  /-- BOTTOM_TREE_READY (R461): Background generation of the next bottom tree completes. -/
  | bottomTreeReady
  /-- DEBUG_CHALLENGE (R462): CCP command that returns a fresh debug nonce. -/
  | debugChallenge
  /-- DEBUG_UNLOCK (R462): CCP command that verifies an unlock token and unlocks the requested debug scope. -/
  | debugUnlock
  /-- DEBUG_LOCK (R462): A DBG_LOCK write with the key locks debug. -/
  | debugLock (r : Req)
  /-- DEBUG_EXPIRY (R462): The unlock duration ends, and debug locks. -/
  | debugExpiry
  /-- PROVISION (R459): CCP command that writes owner slot 0 once. -/
  | provision
  /-- SETTINGS_RECORD_APPEND (R455): Scribe appends a requested settings record and programs its commit word last. -/
  | settingsRecordAppend (bad : Bool)
  /-- SETTINGS_COMPACTION (R455): A settings bank compaction completes, and waiting records are appended. -/
  | settingsCompaction
  /-- POWER_ON_RESET (R443): Power-on reset drops SAFE_OUT, forces safe levels and resets every block. -/
  | powerOnReset (straps banks : Nat)
  /-- RESET_PIN (R443): RESET_N held low resets the device, and its release latches the straps. -/
  | resetPin (straps banks : Nat)
  /-- MGMT_WATCHDOG (R443): The management watchdog expires unserviced for 100 ms and resets the device. -/
  | mgmtWatchdog
  /-- RAIL_UNDERVOLTAGE (R474): A rail below its trip threshold for 1 µs drops SAFE_OUT and holds the device in reset. -/
  | railUndervoltage (rail mv : Nat)
  /-- REFCLK_LOSS (R476): REFCLK stops, the clock monitor acts and the device is held in reset. -/
  | refclkLoss
  /-- REFCLK_RETURN (R476): The device boots 100 µs after REFCLK returns. -/
  | refclkReturn
  /-- BOOT (R450): After reset, the security ROM verifies and loads an image, Scribe scans settings and training and enumeration proceed. -/
  | boot (fails : List Nat)
  /-- CAN_ARBITRATION (R325): A controller with pending buffers starts a frame and enters arbitration with the lowest identifier, and that buffer goes on the bus. -/
  | canArbitration (can : Nat)
  /-- ARBITRATION_LOST (R325): A buffer on the bus loses arbitration to another node's frame and returns to pending without counting an attempt. -/
  | arbitrationLost (can : Nat)
  /-- CAN_RX_ERROR (R336): A bus error detected while receiving raises an error frame, increments REC and may make the controller error-passive. -/
  | canRxError (can type : Nat) (e : CanRxErr)
  /-- MEMORY_SAMPLE_CORRUPT (R289): A memory sample is found corrupt during decode, by a JPEG syntax or feature error, a failed source read or a CRC mismatch, and is dropped from its slot or substituted. -/
  | memorySampleCorrupt (st id cause : Nat)
  /-- COOL_FLOW_RESTORED (R387): COOL_FLOW_OK returns high, PWR_COOL.pin updates and the 1 s flow condition for restart and arming begins. -/
  | coolFlowRestored
  /-- DIN_LEVEL_STABLE (R310): A discrete input's raw level has stayed stable for min_pulse, or for 16 × min_pulse after over-rate, so its filtered level changes or it recovers. -/
  | dinLevelStable (din : Nat)
  /-- DPHY_CLOCK_RETURN (R295): A camera receiver's D-PHY clock lane becomes active again after loss, and the receiver regains lock on the stream. -/
  | dphyClockReturn (csi : Nat)
  /-- ATTEST_TOKEN_REFILL (R460): The attestation token bucket gains tokens at 240 per hour, up to 240. -/
  | attestTokenRefill
  /-- CHECKER_RELOAD_DONE (R341): The checker cores finish their reset and reload from their image and resume judging with their histories and self-test progress cleared. -/
  | checkerReloadDone
  deriving DecidableEq, Repr

end Sys2Proof
end

