-- ==== Sys2Proof/Decode.lean ====
section
/-! DEFINITION. The command that a word spells by the opcode table's bits: no row of the table gives bits, so a word spells none. -/

namespace Sys2Proof

/-- The command of a table word. Every row of spec/opcode_table.json has an empty list of fields (DESIGN CHOICE, log entry 1). -/
def decodeTableWord (_nbits _w : Nat) : Option Instr := none

end Sys2Proof
end

