-- ==== Sys2Proof/Config.lean ====
section
/-! DEFINITION. What the implementation fixes and what the spec leaves open: constants with no body, so that nothing can be
proved of their values (DESIGN CHOICE, log entries 3 and 6). -/

namespace Sys2Proof.Config

/-- A free value: the n-th value that the spec leaves open (DESIGN CHOICE, log entry 3). -/
opaque freeValue : Nat → Nat

/-- A free 32-bit word, from the same source (DESIGN CHOICE, log entry 3). -/
def freeWord (n : Nat) : Word := BitVec.ofNat 32 (freeValue n)

/-- A value that the spec leaves open and that is fixed by what it is computed from (06 R141): a tag and the operands (DESIGN CHOICE,
log entry 3). -/
opaque openValue : List Nat → Nat

/-- The bits that an implementation's evaluation of a transcendental ELTWISE function proposes; `eltUnary` takes them where they lie
within 2 ulp (05 R131); function number, then the binary32 operand bits (DESIGN CHOICE, log entry 3). -/
opaque eltwiseBits : Nat → Nat → Nat

/-- The HSS public key of 60 bytes whose SHA-256 a number spells: the anchors hold digests, and no rule says where a verifier finds the key (19 R449;
DESIGN CHOICE, log entry 6). -/
opaque publicKey : Nat → List Byte

/-- What the label of a derived key holds behind its number (19 R458; DESIGN CHOICE, log entry 6): 0 settings key, 1 attestation seed. -/
opaque labelRest : Nat → List Byte

/-- The identifier and the seed of a bottom tree of the attestation key: attestation seed, top index (19 R461: each is a tree of its own, and no rule
says what it is made from; DESIGN CHOICE, log entry 6). -/
opaque bottomTree : List Byte → Nat → List Byte

/-- The randomizer of a signature, which RFC 8554 lets the signer choose: level, index, message (19 R460; DESIGN CHOICE, log entry 6). -/
opaque randomizer : Nat → Nat → List Byte → List Byte

/-- What the fixed integer inverse DCT gives for a block's dequantised coefficients by zigzag position at a row and column, before the level
shift: no rule gives its bits (12 R279; DESIGN CHOICE, log entry 56). -/
opaque idct : List (Nat × Int) → Nat → Nat → Int

/-- The bytes of a frame's IPv4 and UDP headers, or of an ARP request, of which a frame here carries the fields the rules name (18 R425; DESIGN
CHOICE, log entry 6). -/
opaque netHeader : List Nat → List Byte

/-- The modelled power of a Quill at 1,500 MHz, in mW, by power record and VDD_Q in mV: the spec gives no heaviest activity in terms of the
record's coefficients (16 R367; DESIGN CHOICE, log entry 3). -/
opaque quillMaxMw : List Byte → Nat → Nat

/-- Flits that a receiver's buffer of a virtual channel holds: the spec gives no number (17 R396; DESIGN CHOICE, log entry 3). -/
opaque vcCredits : Nat → Nat

/-- The body of a settings record that the device makes, by kind and content: the spec gives those records no layout (19 R454; DESIGN CHOICE, log
entry 3). -/
opaque bodyLayout : Nat → List Nat → List Byte

/-- An entry of a settings record that the host stages, if the record has it: kind, entry, body. The spec names the contents of those records
and gives them no layout (19 R454; DESIGN CHOICE, log entry 3). -/
opaque settingEntry : Nat → Nat → List Byte → Option Nat

/-- Refreshes of one bank that may be postponed while a delay is outstanding on its channel: what the stacks allow, which the spec does not say
(10 R245; DESIGN CHOICE, log entry 3). -/
opaque maxPostponed : Nat

/-- Density of the flash fitted, 0 to 2 (19 R445, FL_STATUS; DESIGN CHOICE, log entry 3). -/
opaque flashDensity : Nat

end Sys2Proof.Config
end

