-- ==== Sys2Proof/Machine/Operands.lean ====
section
/-! DEFINITION. Number formats: encodings, values, the exact path's units, and where an element lies (03 R56 to R63). -/

namespace Sys2Proof.Machine

/-- A value that an encoding stands for: NaN, an infinity, or (−1)^neg × m × 2^k (03 R57, R58). -/
inductive Val where
  | nan
  | inf (neg : Bool)
  | fin (neg : Bool) (m : Nat) (k : Int)
  deriving DecidableEq, Repr

/-- A floating-point format's parameters (03 R57). -/
structure FpFmt where
  width : Nat
  ebits : Nat
  mbits : Nat
  bias : Nat
  hasInf : Bool
  /-- NaN encodings: 0 none, 1 exponent and fraction all ones (E4M3), 2 exponent all ones and fraction not 0. -/
  nanKind : Nat
  /-- Largest finite encoding without the sign. -/
  maxBits : Nat
  /-- Canonical NaN (R75). -/
  canon : Nat
  deriving DecidableEq, Repr

/-- The floating-point formats of 03 R57, by code. -/
def fpFmt : Nat → Option FpFmt
  | 0 => some ⟨32, 8, 23, 127, true, 2, 0x7F7FFFFF, 0x7FC00000⟩
  | 1 => some ⟨16, 8, 7, 127, true, 2, 0x7F7F, 0x7FC0⟩
  | 2 => some ⟨16, 5, 10, 15, true, 2, 0x7BFF, 0x7E00⟩
  | 3 => some ⟨8, 4, 3, 7, false, 1, 0x7E, 0x7F⟩
  | 4 => some ⟨8, 5, 2, 15, true, 2, 0x7B, 0x7E⟩
  | 5 => some ⟨6, 3, 2, 3, false, 0, 0x1F, 0⟩
  | 6 => some ⟨6, 2, 3, 1, false, 0, 0x1F, 0⟩
  | 7 => some ⟨4, 2, 1, 1, false, 0, 0x7, 0⟩
  | _ => none

/-- Bits of an element of a format code (03 R56). -/
def fmtWidth : Nat → Nat
  | 0 => 32 | 1 => 16 | 2 => 16 | 3 => 8 | 4 => 8 | 5 => 6 | 6 => 6 | 7 => 4
  | 8 => 32 | 9 => 16 | 10 => 8 | 11 => 4 | 12 => 32 | _ => 8

/-- Codes 0xD to 0xF are reserved (03 R56). -/
def fmtReserved (f : Nat) : Bool := 13 ≤ f

/-- A storage-only format: INT32 or the Q-format (03 R56). -/
def fmtStorageOnly (f : Nat) : Bool := f == 8 || f == 12

/-- An integer format, the Q-format's words included. -/
def fmtIsInt (f : Nat) : Bool := 8 ≤ f && f ≤ 12

/-- A float-path operand format: FP32, BF16, FP16 (03 R56). -/
def fmtFloatPath (f : Nat) : Bool := f ≤ 2

/-- The value of a floating-point encoding (03 R57). -/
def FpFmt.value (F : FpFmt) (bits : Nat) : Val :=
  let f := bits % 2 ^ F.mbits
  let e := bits / 2 ^ F.mbits % 2 ^ F.ebits
  let neg := natBit bits (F.width - 1)
  let top := 2 ^ F.ebits - 1
  if F.nanKind = 2 ∧ e = top ∧ f ≠ 0 then .nan
  else if F.nanKind = 1 ∧ e = top ∧ f = 2 ^ F.mbits - 1 then .nan
  else if F.hasInf = true ∧ e = top then .inf neg
  else if e = 0 then .fin neg f (1 - (F.bias : Int) - F.mbits)
  else .fin neg (2 ^ F.mbits + f) ((e : Int) - F.bias - F.mbits)

/-- The unbiased exponent of a floating-point encoding, 1 − bias for a subnormal (03 R71 step 1). -/
def FpFmt.expo (F : FpFmt) (bits : Nat) : Int :=
  let e := bits / 2 ^ F.mbits % 2 ^ F.ebits
  if e = 0 then 1 - (F.bias : Int) else (e : Int) - F.bias

/-- The value of an element of a format; a Q-format word counts as its integer (03 R57, R58). -/
def elemValue (f bits : Nat) : Val :=
  match fpFmt f with
  | some F => F.value bits
  | none => let i := signed (fmtWidth f) bits; .fin (decide (i < 0)) i.natAbs 0

/-- A value as a signed integer in units of 2^u, for a value that is a multiple of it; 0 for a value that is not finite. -/
def Val.units (u : Int) : Val → Int
  | .fin neg m k => let n : Int := (m * 2 ^ (k - u).toNat : Nat); if neg then -n else n
  | _ => 0

/-- k_min of a format (03 R62). -/
def kMin : Nat → Int
  | 7 => -1 | 6 => -3 | 5 => -4 | 3 => -9 | 4 => -16 | _ => 0

/-- m_max of a format (03 R62). -/
def mMax : Nat → Nat
  | 11 => 8 | 10 => 128 | 9 => 32768 | 7 => 12 | 6 => 60 | 5 => 448 | 3 => 229376 | 4 => 3758096384 | _ => 0

/-- The smallest h with n ≤ 2^h. -/
def ceilLog2 (n : Nat) : Nat := if 2 ^ (Nat.log2 n) = n then Nat.log2 n else if n = 0 then 0 else Nat.log2 n + 1

/-- λ of a pair of exact-path formats (03 R63). -/
def pairUnit (fa fb : Nat) : Int := kMin fa + kMin fb

/-- The group height H of a pair (03 R63). -/
def pairHeight (fa fb : Nat) : Nat := ceilLog2 (128 * mMax fa * mMax fb)

/-- An INT8, INT4, FP4, FP6 or FP8 format. -/
def fmtNarrow (f : Nat) : Bool := (3 ≤ f && f ≤ 7) || f == 10 || f == 11

/-- How a pair of operand formats is computed (03 R61). -/
inductive Path where
  | exact | float | refused | storage
  deriving DecidableEq, Repr

/-- The path of a pair of formats (03 R56, R61). -/
def pairPath (fa fb : Nat) : Path :=
  if fmtStorageOnly fa || fmtStorageOnly fb then .storage
  else if fmtFloatPath fa || fmtFloatPath fb then (if fa == 9 || fb == 9 then .refused else .float)
  else .exact

/-- Whether a pair uses the split window (03 R64). -/
def pairSplit (fa fb : Nat) : Bool := 47 ≤ pairHeight fa fb

/-- MAC per Nib per cycle of a pair (03 R61). -/
def pairRate (fa fb : Nat) : Nat :=
  let four := fun f => f == 11 || f == 7
  match pairPath fa fb with
  | .float => if fa == 0 || fb == 0 then 16 else 64
  | .exact =>
    if fa == 9 || fb == 9 then 64
    else if four fa && four fb then 512
    else if pairSplit fa fb then 128
    else 256
  | _ => 0

/-- The rate class of a pair, 0 to 4 as R107 lists them (05 R107). -/
def rateClass (fa fb : Nat) : Nat :=
  match pairRate fa fb with | 512 => 0 | 256 => 1 | 128 => 2 | 64 => 3 | _ => 4

/-- Where element `off` of a packed tensor lies: byte offset and first bit in it; 6-bit elements by their 24-bit word (03 R59). -/
def elemPlace (f : Nat) (off : Int) : Int × Nat :=
  match fmtWidth f with
  | 4 => (off / 2, 4 * (off % 2).toNat)
  | 6 => (3 * (off / 4), 6 * (off % 4).toNat)
  | w => (off * (w / 8 : Nat), 0)

/-- How many bytes from its place an element's bits can reach. -/
def elemSpan (f : Nat) : Nat :=
  match fmtWidth f with
  | 4 => 1
  | 6 => 3
  | w => w / 8

end Sys2Proof.Machine
end

