-- ==== Sys2Proof/Machine/Flags.lean ====
section
/-! DEFINITION. Conversions between formats, FP32 arithmetic, and the numeric status flags they set (03 R71 to R78, 05 R494). -/

namespace Sys2Proof.Machine

/-- Numeric status bit [0], window_saturated (03 R78). -/
def nsWindow : Nat := 1
/-- Numeric status bit [1], nonfinite_input. -/
def nsNonfinite : Nat := 2
/-- Numeric status bit [2], nan_to_zero. -/
def nsNanToZero : Nat := 4
/-- Numeric status bit [3], overflow_saturated. -/
def nsOverSat : Nat := 8
/-- Numeric status bit [4], overflow_inf. -/
def nsOverInf : Nat := 16
/-- Numeric status bit [5], underflow_zero. -/
def nsUnder : Nat := 32

/-- Division rounded to nearest, ties to even. -/
def rheDiv (a b : Nat) : Nat :=
  let q := a / b
  let r := a % b
  if 2 * r > b ∨ (2 * r = b ∧ q % 2 = 1) then q + 1 else q

/-- m × 2^k rounded to an integer, nearest, ties to even. -/
def rheScale (m : Nat) (k : Int) : Nat := if 0 ≤ k then m * 2 ^ k.toNat else rheDiv m (2 ^ (-k).toNat)

/-- A signed integer times 2^k, rounded to nearest, ties to even. -/
def rheScaleInt (i : Int) (k : Int) : Int := let n : Int := (rheScale i.natAbs k : Nat); if i < 0 then -n else n

/-- A magnitude m × 2^k rounded once to a float format with an unbounded exponent: encoding without the sign, or `none` when
it lies beyond the largest finite value (03 R74, R76). -/
def FpFmt.roundMag (F : FpFmt) (m : Nat) (k : Int) : Option Nat :=
  let E : Int := k + Nat.log2 m
  let emin : Int := 1 - F.bias
  let qe : Int := (if E < emin then emin else E) - F.mbits
  let n := rheScale m (k - qe)
  let bits : Nat :=
    if n < 2 ^ F.mbits then n
    else
      let n' := if n < 2 ^ (F.mbits + 1) then n else n / 2
      let q' : Int := if n < 2 ^ (F.mbits + 1) then qe else qe + 1
      (q' + F.mbits + F.bias).toNat * 2 ^ F.mbits + (n' - 2 ^ F.mbits)
  if bits ≤ F.maxBits then some bits else none

/-- The encoding of a sign over a magnitude's bits. -/
def FpFmt.signBits (F : FpFmt) (neg : Bool) (mag : Nat) : Nat := mag + (if neg then 2 ^ (F.width - 1) else 0)

/-- The infinity's magnitude bits: exponent all ones, fraction 0. -/
def FpFmt.infBits (F : FpFmt) : Nat := (2 ^ F.ebits - 1) * 2 ^ F.mbits

/-- Conversion of a value to a float format under an overflow mode (true: IEEE), with the flags it sets (03 R74 to R76). -/
def FpFmt.convert (F : FpFmt) (ieee : Bool) : Val → Nat × Nat
  | .nan => if F.canon = 0 then (0, nsNanToZero) else (F.canon, 0)
  | .inf neg => if ieee = true ∧ F.hasInf = true then (F.signBits neg F.infBits, 0) else (F.signBits neg F.maxBits, nsOverSat)
  | .fin neg m k =>
    if m = 0 then (F.signBits neg 0, 0)
    else match F.roundMag m k with
      | some b => (F.signBits neg b, if b = 0 then nsUnder else 0)
      | none => if ieee = true ∧ F.hasInf = true then (F.signBits neg F.infBits, nsOverInf) else (F.signBits neg F.maxBits, nsOverSat)

/-- Conversion of a value to an integer of `w` bits, saturating (03 R74 to R76). -/
def intConvert (w : Nat) : Val → Nat × Nat
  | .nan => (0, nsNanToZero)
  | .inf neg => (if neg then 2 ^ (w - 1) else 2 ^ (w - 1) - 1, nsOverSat)
  | .fin neg m k =>
    let n : Int := (rheScale m k : Nat)
    let i : Int := if neg then -n else n
    let c := clampInt (-(2 ^ (w - 1) : Nat)) ((2 ^ (w - 1) : Nat) - 1) i
    (wrapNat w c, if c = i then 0 else nsOverSat)

/-- Conversion of a value to a format code (03 R74 to R77; a Q-format word with fraction count 0). -/
def convertTo (fmt : Nat) (ieee : Bool) (v : Val) : Nat × Nat :=
  match fpFmt fmt with
  | some F => F.convert (ieee && decide (fmt = 0 ∨ fmt = 1 ∨ fmt = 2 ∨ fmt = 4)) v
  | none => intConvert (fmtWidth fmt) v

/-- Conversion to the Q-format with fraction count f (03 R77). -/
def toQ (f : Nat) (v : Val) : Nat × Nat :=
  match v with
  | .fin neg m k => intConvert 32 (.fin neg m (k + f))
  | w => intConvert 32 w

/-- FP32's parameters. -/
def fp32 : FpFmt := ⟨32, 8, 23, 127, true, 2, 0x7F7FFFFF, 0x7FC00000⟩

/-- BF16's parameters. -/
def bf16 : FpFmt := ⟨16, 8, 7, 127, true, 2, 0x7F7F, 0x7FC0⟩

/-- The value of FP32 bits. -/
def f32Val (b : Nat) : Val := fp32.value b

/-- A value rounded to FP32 by IEEE rules, with its flags (03 R73, R494). -/
def f32Of (v : Val) : Nat × Nat := fp32.convert true v

/-- Sign and size of a finite value as a signed integer in units of 2^u (u at most its k). -/
def Val.int (u : Int) : Val → Int := Val.units u

/-- The exact sum of two values by IEEE rules: NaN for opposite infinities, +0 for an exact cancellation (03 R73). -/
def Val.add : Val → Val → Val
  | .nan, _ => .nan
  | _, .nan => .nan
  | .inf a, .inf b => if a = b then .inf a else .nan
  | .inf a, _ => .inf a
  | _, .inf b => .inf b
  | .fin na ma ka, .fin nb mb kb =>
    let u := if ka < kb then ka else kb
    let i := Val.units u (.fin na ma ka) + Val.units u (.fin nb mb kb)
    if i = 0 then .fin (na && nb) 0 0 else .fin (decide (i < 0)) i.natAbs u

/-- The negated value. -/
def Val.neg : Val → Val
  | .nan => .nan
  | .inf a => .inf (!a)
  | .fin a m k => .fin (!a) m k

/-- Whether a value is a zero. -/
def Val.isZero : Val → Bool
  | .fin _ m _ => m == 0
  | _ => false

/-- Whether a value is neither NaN nor an infinity. -/
def Val.isFin : Val → Bool
  | .fin .. => true
  | _ => false

/-- The exact product of two values by IEEE rules (05 R493). -/
def Val.mul : Val → Val → Val
  | .nan, _ => .nan
  | _, .nan => .nan
  | .inf a, .inf b => .inf (a != b)
  | .inf a, .fin b m _ => if m = 0 then .nan else .inf (a != b)
  | .fin a m _, .inf b => if m = 0 then .nan else .inf (a != b)
  | .fin a ma ka, .fin b mb kb => .fin (a != b) (ma * mb) (ka + kb)

/-- The quotient of two values, exact but for a sticky last bit far below FP32's rounding position (05 R133). -/
def Val.div : Val → Val → Val
  | .nan, _ => .nan
  | _, .nan => .nan
  | .inf _, .inf _ => .nan
  | .inf a, .fin b _ _ => .inf (a != b)
  | .fin a _ _, .inf b => .fin (a != b) 0 0
  | .fin a ma ka, .fin b mb kb =>
    if mb = 0 then (if ma = 0 then .nan else .inf (a != b))
    else
      let sh := 320 + Nat.log2 mb
      let n := ma * 2 ^ sh
      .fin (a != b) (2 * (n / mb) + (if n % mb = 0 then 0 else 1)) (ka - kb - sh - 1)

/-- The integer square root, bit by bit from bit `i`. -/
def isqrtFrom (n : Nat) : Nat → Nat → Nat
  | 0, acc => acc
  | i + 1, acc => let c := acc + 2 ^ i; isqrtFrom n i (if c * c ≤ n then c else acc)

/-- The square root of a value, exact but for a sticky last bit far below FP32's rounding position (05 R133). -/
def Val.sqrt : Val → Val
  | .nan => .nan
  | .inf neg => if neg then .nan else .inf false
  | .fin neg m k =>
    if m = 0 then .fin neg 0 0
    else if neg then .nan
    else
      let sh := 128 + (k % 2).toNat
      let n := m * 2 ^ sh
      let r := isqrtFrom n (Nat.log2 n / 2 + 1) 0
      .fin false (2 * r + (if r * r = n then 0 else 1)) ((k - sh) / 2 - 1)

/-- a < b over values that are not NaN. -/
def Val.lt : Val → Val → Bool
  | .nan, _ => false
  | _, .nan => false
  | .inf a, .inf b => a && !b
  | .inf a, _ => a
  | _, .inf b => !b
  | .fin na ma ka, .fin nb mb kb =>
    let u := if ka < kb then ka else kb
    decide (Val.units u (.fin na ma ka) < Val.units u (.fin nb mb kb))

/-- Larger (or, for `mn`, smaller) of two FP32 values: NaN wins, +0 wins over −0 (05 R493, R132). -/
def f32MinMax (mn : Bool) (a b : Nat) : Nat :=
  let va := f32Val a
  let vb := f32Val b
  if va = .nan ∨ vb = .nan then fp32.canon
  else if va.isZero && vb.isZero then (if a = b then a else 0)
  else if (if mn then vb.lt va else va.lt vb) then b else a

/-- One FP32 operation's result and flags: overflow_inf only from finite operands (05 R494, 03 R78). -/
def f32Step (operandsFinite : Bool) (v : Val) : Nat × Nat :=
  let r := f32Of v
  match v with
  | .inf _ => (r.1, if operandsFinite then nsOverInf else 0)
  | _ => r

/-- FP32 addition (03 R73). -/
def f32Add (a b : Nat) : Nat × Nat := f32Step ((f32Val a).isFin && (f32Val b).isFin) ((f32Val a).add (f32Val b))
/-- FP32 subtraction. -/
def f32Sub (a b : Nat) : Nat × Nat := f32Step ((f32Val a).isFin && (f32Val b).isFin) ((f32Val a).add (f32Val b).neg)
/-- FP32 multiplication. -/
def f32Mul (a b : Nat) : Nat × Nat := f32Step ((f32Val a).isFin && (f32Val b).isFin) ((f32Val a).mul (f32Val b))
/-- FP32 division. -/
def f32Div (a b : Nat) : Nat × Nat := f32Step ((f32Val a).isFin && (f32Val b).isFin) ((f32Val a).div (f32Val b))
/-- FP32 square root. -/
def f32Sqrt (a : Nat) : Nat × Nat := f32Step (f32Val a).isFin (f32Val a).sqrt

/-- An operand on the float path: its value, and its unbiased exponent of R71 step 1. -/
abbrev FOp := Val × Int

/-- The unit of a chunk register: 2^(p_max − 62) over its nonzero finite products (03 R71 step 2). -/
def chunkUnit : List FOp → Int
  | [] => 0
  | q :: rest => rest.foldl (fun acc p => if acc < p.2 then p.2 else acc) q.2 - 62

/-- A product truncated toward zero at weight 2^u (03 R71 step 2). -/
def truncAt (u : Int) (v : Val) : Int :=
  match v with
  | .fin neg m k =>
    let n : Int := ((if 0 ≤ k - u then m * 2 ^ (k - u).toNat else m / 2 ^ (u - k).toNat : Nat) : Int)
    if neg then -n else n
  | _ => 0

/-- The result of one chunk of operand pairs, its flags, and whether a NaN or an infinity took part; a chunk of fewer than 128 pairs is
filled with +0 products (03 R71, R72). -/
def chunkResult (ps : List (FOp × FOp)) : (Nat × Nat) × Bool :=
  let prods : List FOp := ps.map (fun p => (p.1.1.mul p.2.1, p.1.2 + p.2.2))
  let nanIn := ps.any (fun p => p.1.1 = .nan ∨ p.2.1 = .nan)
  let fl := if nanIn then nsNonfinite else 0
  let infP := prods.any (fun p => p.1 = .inf false)
  let infN := prods.any (fun p => p.1 = .inf true)
  if prods.any (fun p => p.1 = .nan) || (infP && infN) then ((fp32.canon, fl), true)
  else if infP then ((fp32.infBits, fl), true)
  else if infN then ((fp32.signBits true fp32.infBits, fl), true)
  else
    let nz := prods.filter (fun p => !p.1.isZero)
    if nz.isEmpty then
      (((if prods.all (fun p => match p.1 with | .fin neg _ _ => neg | _ => false) && decide (128 ≤ prods.length) then fp32.signBits true 0 else 0), fl), false)
    else
      let u := chunkUnit nz
      let sum := nz.foldl (fun acc p => acc + truncAt u p.1) (0 : Int)
      let r := if sum = 0 then (0, 0) else f32Of (.fin (decide (sum < 0)) sum.natAbs u)
      ((r.1, r.2 ||| fl), false)

/-- One level of the Ductus tree: neighbours added in FP32, an odd last value unchanged (06 R143). -/
def ductusLevel : List Nat → List Nat × Nat
  | a :: b :: t =>
    let r := f32Add a b
    let l := ductusLevel t
    (r.1 :: l.1, r.2 ||| l.2)
  | l => (l, 0)

/-- The Ductus tree over chunk results, at most `n` levels (06 R143). -/
def ductusTree : Nat → List Nat → Nat × Nat
  | _, [] => (0, 0)
  | _, [a] => (a, 0)
  | 0, a :: _ => (a, 0)
  | n + 1, l =>
    let s := ductusLevel l
    let r := ductusTree n s.1
    (r.1, r.2 ||| s.2)

/-- The 96-bit accumulator of an output element with its flags (03 R65 to R70). -/
structure Acc where
  value : Int
  poison : Bool
  sat : Bool
  count : Nat
  /-- Saturated contributions, the group and the sign of the first (R79). -/
  nsat : Nat
  satGroup : Nat
  satNeg : Bool
  deriving DecidableEq, Repr

/-- The empty accumulator. -/
def Acc.zero : Acc := ⟨0, false, false, 0, 0, 0, false⟩

/-- The window bound 2^71 − 1 (03 R67). -/
def windowMax : Int := 2 ^ 71 - 1

/-- One contribution added under the window check; `force` saturates it whatever its size (03 R67, R80). -/
def Acc.add (a : Acc) (c : Int) (group : Nat) (force : Bool) : Acc :=
  let beyond := force || decide (windowMax < c.natAbs)
  let c' := if beyond then (if c < 0 then -windowMax else windowMax) else c
  { a with
    value := a.value + c'
    sat := a.sat || beyond
    count := a.count + 1
    nsat := a.nsat + b2n beyond
    satGroup := if beyond && a.nsat == 0 then group else a.satGroup
    satNeg := if beyond && a.nsat == 0 then decide (c < 0) else a.satNeg }

/-- A group's contribution: S × 2^d, truncated toward zero when d is negative (03 R66). -/
def groupContribution (S : Int) (d : Int) : Int := if 0 ≤ d then S * 2 ^ d.toNat else S.tdiv (2 ^ (-d).toNat)

/-- The 128-bit partial-sum word of an accumulator (03 R70). -/
def Acc.word (a : Acc) : Nat :=
  wrapNat 96 a.value + b2n a.poison * 2 ^ 96 + b2n a.sat * 2 ^ 97 + (min a.count 0xFFFF) * 2 ^ 112

/-- A received partial-sum word added into an accumulator (03 R70). -/
def Acc.addWord (a : Acc) (w : Nat) : Acc :=
  { a with
    value := a.value + signed 96 w
    poison := a.poison || natBit w 96
    sat := a.sat || natBit w 97
    count := a.count + natField w 127 112 }

end Sys2Proof.Machine
end

