-- ==== Sys2Proof/Machine/Program.lean ====
section
/-! DEFINITION. The program image: header, instruction words, tensor-operation descriptors, address-generator programs,
binding entries, scale and rescale descriptors (04 R91, R100; 05 R114 to R121). -/

namespace Sys2Proof.Machine

/-- A Quill instruction (05 R116). -/
inductive QInstr where
  | nop
  | set (dst imm : Nat)
  | alu (sub dst a b : Nat) (useImm : Bool) (imm : Nat)
  | loop (countSc count body : Nat)
  | branch (cond a b : Nat) (useImm : Bool) (imm off : Nat)
  | top (tod : Nat)
  | waitTop
  | semWait (sem count : Nat)
  | semSignal (sem : Nat) (remote : Bool) (count rank dev job : Nat)
  | barrier (scope group : Nat)
  | dma (chan : Nat) (noFail notify : Bool) (statusSc src dst queue : Nat)
  | dmaWait (mask : Nat)
  | atomic (op : Nat) (noFail : Bool) (statusSc dst val cmp agp : Nat)
  | qpush (blocking : Bool) (statusSc src queue : Nat)
  | qpop (blocking : Bool) (statusSc dst queue : Nat)
  | trap (code : Nat)
  | stop
  deriving DecidableEq, Repr

/-- The 128-bit word of a Quill instruction (05 R116). -/
def QInstr.word : QInstr → Nat
  | .nop => 0
  | .set dst imm => 0x01 + dst * 2 ^ 8 + imm * 2 ^ 32
  | .alu sub dst a b ui imm => 0x02 + dst * 2 ^ 8 + a * 2 ^ 12 + b * 2 ^ 16 + b2n ui * 2 ^ 20 + sub * 2 ^ 24 + imm * 2 ^ 32
  | .loop sc c body => 0x04 + sc * 2 ^ 8 + c * 2 ^ 32 + body * 2 ^ 64
  | .branch cond a b ui imm off => 0x05 + a * 2 ^ 12 + b * 2 ^ 16 + b2n ui * 2 ^ 20 + cond * 2 ^ 24 + imm * 2 ^ 32 + off * 2 ^ 64
  | .top tod => 0x10 + tod * 2 ^ 32
  | .waitTop => 0x11
  | .semWait sem c => 0x20 + sem * 2 ^ 8 + c * 2 ^ 32
  | .semSignal sem r c rank dev job => 0x21 + sem * 2 ^ 8 + b2n r * 2 ^ 16 + c * 2 ^ 32 + rank * 2 ^ 48 + dev * 2 ^ 64 + job * 2 ^ 80
  | .barrier scope g => 0x22 + scope * 2 ^ 8 + g * 2 ^ 32
  | .dma ch nf nt sc src dst q =>
    0x30 + ch * 2 ^ 8 + b2n nf * 2 ^ 9 + b2n nt * 2 ^ 10 + sc * 2 ^ 12 + src * 2 ^ 16 + dst * 2 ^ 32 + q * 2 ^ 64
  | .dmaWait m => 0x31 + m * 2 ^ 8
  | .atomic op nf sc dst v c agp => 0x32 + op * 2 ^ 8 + b2n nf * 2 ^ 10 + sc * 2 ^ 12 + dst * 2 ^ 16 + v * 2 ^ 20 + c * 2 ^ 24 + agp * 2 ^ 32
  | .qpush bl sc src q => 0x38 + b2n bl * 2 ^ 8 + sc * 2 ^ 12 + src * 2 ^ 16 + q * 2 ^ 32
  | .qpop bl sc dst q => 0x39 + b2n bl * 2 ^ 8 + sc * 2 ^ 12 + dst * 2 ^ 16 + q * 2 ^ 32
  | .trap code => 0x3E + code * 2 ^ 32
  | .stop => 0x3F

/-- The instruction whose named fields a 128-bit word holds, whatever its reserved bits. -/
def QInstr.fields (n : Nat) : Option QInstr :=
  let f := natField n
  match f 7 0 with
  | 0x00 => some .nop
  | 0x01 => some (.set (f 11 8) (f 63 32))
  | 0x02 => if f 31 24 ≤ 11 then some (.alu (f 31 24) (f 11 8) (f 15 12) (f 19 16) (natBit n 20) (f 63 32)) else none
  | 0x04 => if 1 ≤ f 79 64 ∧ f 79 64 ≤ 4096 then some (.loop (f 11 8) (f 63 32) (f 79 64)) else none
  | 0x05 => if f 31 24 ≤ 5 then some (.branch (f 31 24) (f 15 12) (f 19 16) (natBit n 20) (f 63 32) (f 79 64)) else none
  | 0x10 => some (.top (f 47 32))
  | 0x11 => some .waitTop
  | 0x20 => some (.semWait (f 12 8) (f 47 32))
  | 0x21 => some (.semSignal (f 12 8) (natBit n 16) (f 47 32) (f 63 48) (f 71 64) (f 95 80))
  | 0x22 => some (.barrier (f 8 8) (f 47 32))
  | 0x30 => some (.dma (f 8 8) (natBit n 9) (natBit n 10) (f 15 12) (f 31 16) (f 47 32) (f 83 64))
  | 0x31 => some (.dmaWait (f 9 8))
  | 0x32 => if f 9 8 < 3 then some (.atomic (f 9 8) (natBit n 10) (f 15 12) (f 19 16) (f 23 20) (f 27 24) (f 47 32)) else none
  | 0x38 => some (.qpush (natBit n 8) (f 15 12) (f 31 16) (f 51 32))
  | 0x39 => some (.qpop (natBit n 8) (f 15 12) (f 31 16) (f 51 32))
  | 0x3E => some (.trap (f 63 32))
  | 0x3F => some .stop
  | _ => none

/-- The instruction of a 128-bit word; `none` for an opcode or a reserved field that is not valid (05 R115 item 6, R116). -/
def QInstr.decode (n : Nat) : Option QInstr :=
  match QInstr.fields n with
  | some i => if i.word = n then some i else none
  | none => none

/-- One loop term of an address-generator program (05 R119). -/
structure AgpTerm where
  enable : Bool
  depth : Nat
  stride : Int
  deriving DecidableEq, Repr

/-- An address-generator program (05 R119; padding mode: 08 R199). -/
structure Agp where
  fmt : Nat
  pad : Nat
  binding : Nat
  baseOff : Int
  baseSc : Nat
  /-- Count and stride of each dimension, innermost first. -/
  dims : List (Nat × Int)
  terms : List AgpTerm
  /-- Whether every reserved field is 0 and the dimension count is 1 to 6. -/
  ok : Bool
  deriving DecidableEq, Repr

/-- An address-generator program read from its 64 bytes. -/
def Agp.read (b : List Byte) : Agp :=
  let nd := byteAt b 0 % 8
  let dim := fun i => (let c := leField b (12 + 6 * i) 2; (if c = 0 then 65536 else c, signed 32 (leField b (14 + 6 * i) 4)))
  let term := fun j => (let w := leField b (48 + 4 * j) 4; (⟨natBit w 3, w % 8, signed 24 (w / 256)⟩ : AgpTerm))
  { fmt := byteAt b 1 % 16
    pad := natField (byteAt b 1) 5 4
    binding := leField b 2 2
    baseOff := signed 48 (leField b 4 6)
    baseSc := byteAt b 10 % 16
    dims := (List.range nd).map dim
    terms := (List.range 4).map term
    ok := decide (1 ≤ nd ∧ nd ≤ 6 ∧ byteAt b 0 / 8 = 0 ∧ byteAt b 1 / 64 = 0 ∧ byteAt b 10 / 16 = 0 ∧ byteAt b 11 = 0)
      && (List.range 4).all (fun j => natField (byteAt b (48 + 4 * j)) 7 4 == 0) }

/-- Count of a dimension; a dimension the program lacks counts 1. -/
def Agp.count (a : Agp) (i : Nat) : Nat := match a.dims[i]? with | some d => d.1 | none => 1

/-- Stride of a dimension; 0 for one the program lacks. -/
def Agp.stride (a : Agp) (i : Nat) : Int := match a.dims[i]? with | some d => d.2 | none => 0

/-- How many elements a program enumerates. -/
def Agp.size (a : Agp) : Nat := a.dims.foldl (fun n d => n * d.1) 1

/-- Σ idx_i × stride_i for the n-th element of the remaining dimensions. -/
def agpSum : List (Nat × Int) → Nat → Int
  | [], _ => 0
  | (c, st) :: t, n => ((n % c : Nat) : Int) * st + agpSum t (n / c)

/-- The part of an element's offset that the instruction's issue fixes: base, scalar register, loop terms (05 R119). -/
def Agp.origin (a : Agp) (sc : Nat → Word) (loopIdx : Nat → Nat) : Int :=
  a.baseOff + (if a.baseSc = 0 then 0 else (sc a.baseSc).toInt)
    + a.terms.foldl (fun acc t => if t.enable then acc + (loopIdx t.depth : Int) * t.stride else acc) 0

/-- Element offset of the n-th element from the binding's address (05 R119). -/
def Agp.offset (a : Agp) (sc : Nat → Word) (loopIdx : Nat → Nat) (n : Nat) : Int := a.origin sc loopIdx + agpSum a.dims n

/-- A tensor binding entry (05 R118). -/
structure Binding where
  addr : Nat
  remote : Bool
  readOnly : Bool
  hasScales : Bool
  extent : Nat
  fmt : Nat
  scaleDesc : Nat
  /-- Whether every reserved field is 0 and the format code is not reserved. -/
  ok : Bool
  deriving DecidableEq, Repr

/-- A binding entry read from its 32 bytes. -/
def Binding.read (b : List Byte) : Binding :=
  let fl := byteAt b 7
  { addr := leField b 0 7, remote := natBit fl 0, readOnly := natBit fl 1, hasScales := natBit fl 2
    extent := leField b 8 6, fmt := byteAt b 14 % 16, scaleDesc := leField b 16 6
    ok := decide (fl / 8 = 0 ∧ byteAt b 14 / 16 = 0 ∧ byteAt b 15 = 0 ∧ leField b 22 2 = 0) && !fmtReserved (byteAt b 14 % 16) }

/-- A tensor-operation descriptor (05 R121). -/
structure Tod where
  kind : Nat
  arr : Nat
  fmtA : Nat
  fmtB : Nat
  fmtC : Nat
  accIn : Nat
  accOut : Nat
  transA : Bool
  transB : Bool
  chanN : Bool
  ieee : Bool
  m : Nat
  n : Nat
  k : Nat
  agpA : Nat
  agpB : Nat
  agpC : Nat
  agpCin : Nat
  rescale : Nat
  rescaleEn : Bool
  chunkBase : Nat
  kTotal : Nat
  /-- Bytes 40 to 63. -/
  tail : List Byte
  /-- Whether every reserved field is 0 and every code is valid. -/
  ok : Bool
  deriving DecidableEq, Repr

/-- A descriptor read from its 64 bytes. -/
def Tod.read (b : List Byte) : Tod :=
  let b0 := byteAt b 0
  let b2 := byteAt b 2
  let b3 := byteAt b 3
  let kind := b0 % 16
  { kind := kind, arr := natField b0 6 4
    fmtA := byteAt b 1 % 16, fmtB := byteAt b 1 / 16, fmtC := b2 % 16
    accIn := natField b2 5 4, accOut := natField b2 7 6
    transA := natBit b3 0, transB := natBit b3 1, chanN := natBit b3 2, ieee := natBit b3 3
    m := leField b 4 4, n := leField b 8 4, k := leField b 12 4
    agpA := leField b 16 2, agpB := leField b 18 2, agpC := leField b 20 2, agpCin := leField b 22 2
    rescale := leField b 24 6, rescaleEn := natBit (byteAt b 30) 0
    chunkBase := leField b 32 4, kTotal := leField b 36 4, tail := b.drop 40
    ok := decide (1 ≤ kind ∧ kind ≤ 8 ∧ natField b0 6 4 ≤ 4 ∧ b0 / 128 = 0 ∧ natField b2 5 4 ≤ 1 ∧ natField b2 7 6 ≤ 2
        ∧ b3 / 16 = 0 ∧ byteAt b 30 / 2 = 0 ∧ byteAt b 31 = 0)
      && !fmtReserved (byteAt b 1 % 16) && !fmtReserved (byteAt b 1 / 16) && !fmtReserved (b2 % 16)
      && (kind != 1 || (b.drop 40).all (fun x => x == 0)) }

/-- A scale descriptor (04 R91). -/
structure ScaleDesc where
  group : Nat
  x : Int
  tagBase : Nat
  pitch : Nat
  addr : Nat
  outliers : Nat
  idxAddr : Nat
  valAddr : Nat
  /-- Whether item 1 of R93 holds: reserved fields 0, x not 0x80, scale_addr aligned. -/
  ok : Bool
  deriving DecidableEq, Repr

/-- The operand without a scale descriptor: groups of 128, every scale and exponent 0 (03 R64). -/
def ScaleDesc.plain : ScaleDesc := ⟨0, 0, 0, 0, 0, 0, 0, 0, true⟩

/-- A scale descriptor read from its 32 bytes. -/
def ScaleDesc.read (b : List Byte) : ScaleDesc :=
  let code := byteAt b 0 % 4
  { group := match code with | 1 => 32 | 2 => 64 | 3 => 128 | _ => 0
    x := if code = 0 then 0 else signed 8 (byteAt b 1)
    tagBase := byteAt b 2 % 16, pitch := leField b 4 2, addr := leField b 6 6
    outliers := leField b 12 2, idxAddr := leField b 16 6, valAddr := leField b 24 6
    ok := decide (byteAt b 0 / 4 = 0 ∧ byteAt b 1 ≠ 0x80 ∧ byteAt b 2 / 16 = 0 ∧ byteAt b 3 = 0 ∧ leField b 14 2 = 0
      ∧ leField b 22 2 = 0 ∧ leField b 30 2 = 0 ∧ (code = 0 ∨ leField b 6 6 % 16 = 0)) }

/-- Group size used for grouping: 128 where the operand carries no scales (03 R64). -/
def ScaleDesc.groupSize (d : ScaleDesc) : Nat := if d.group = 0 then 128 else d.group

/-- Super-blocks of a row of K elements (04 R82). -/
def superBlocks (k g : Nat) : Nat := (k + 16 * g - 1) / (16 * g)

/-- A rescale descriptor (04 R100). -/
structure Rescale where
  fmt : Nat
  perChannel : Bool
  bias : Bool
  ieee : Bool
  groupOut : Bool
  group : Nat
  tagBase : Nat
  r : Nat
  biasShift : Nat
  m : Int
  zero : Int
  xOut : Int
  chanAddr : Nat
  biasAddr : Nat
  scaleAddr : Nat
  scalePitch : Nat
  /-- Whether the conditions of R100 hold, but for the pitch against SPR. -/
  ok : Bool
  deriving DecidableEq, Repr

/-- A rescale descriptor read from its 32 bytes. -/
def Rescale.read (b : List Byte) : Rescale :=
  let b0 := byteAt b 0
  let b1 := byteAt b 1
  let f := b0 % 16
  let go := natBit b0 7
  let ieee := natBit b0 6
  let zp := leField b 8 2
  { fmt := f, perChannel := natBit b0 4, bias := natBit b0 5, ieee := ieee, groupOut := go
    group := match b1 % 4 with | 1 => 32 | 2 => 64 | 3 => 128 | _ => 0
    tagBase := natField b1 5 2, r := byteAt b 2 % 128, biasShift := byteAt b 3 % 64
    m := signed 32 (leField b 4 4), zero := signed 16 zp, xOut := signed 8 (byteAt b 10)
    chanAddr := leField b 12 6, biasAddr := leField b 18 6, scaleAddr := leField b 24 6, scalePitch := leField b 30 2
    ok := decide (f ≤ 11 ∧ b1 / 64 = 0 ∧ byteAt b 2 / 128 = 0 ∧ byteAt b 3 / 64 = 0 ∧ byteAt b 11 = 0 ∧ byteAt b 10 ≠ 0x80
        ∧ (zp = 0 ∨ (8 ≤ f ∧ go = false))
        ∧ (go = false ∨ (b1 % 4 ≠ 0 ∧ leField b 24 6 % 16 = 0 ∧ ¬ (f ≤ 2 ∨ f = 9 ∨ f = 8)))
        ∧ (ieee = false ∨ f ≤ 2 ∨ f = 4)) }

/-- One bit of the IEEE 802.3 CRC-32, reflected. -/
def crcBit (c : Nat) : Nat := if c % 2 = 1 then (c / 2) ^^^ 0xEDB88320 else c / 2

/-- The CRC-32 state after one more byte. -/
def crcByte (c : Nat) (b : Byte) : Nat :=
  crcBit (crcBit (crcBit (crcBit (crcBit (crcBit (crcBit (crcBit (c ^^^ b.toNat))))))))

/-- The running CRC-32 over a list of bytes, without the final inversion. -/
def crcRun (c : Nat) (l : List Byte) : Nat := l.foldl crcByte c

/-- CRC-32 as used by IEEE 802.3 (05 R114, 12 R275). -/
def crc32 (l : List Byte) : Nat := crcRun 0xFFFFFFFF l ^^^ 0xFFFFFFFF

/-- A program image's header (05 R114). -/
structure ImgHdr where
  magic : Nat
  version : Nat
  quills : Nat
  bytes : Nat
  instrOff : Nat
  instrCount : Nat
  todOff : Nat
  todCount : Nat
  agpCount : Nat
  agpOff : Nat
  entry : Nat
  needDet : Bool
  bindingMin : Nat
  crc : Nat
  reservedOk : Bool
  deriving DecidableEq, Repr

/-- A header read from the first 64 bytes of an image. -/
def ImgHdr.read (b : List Byte) : ImgHdr :=
  { magic := leField b 0 4, version := leField b 4 2, quills := leField b 6 2, bytes := leField b 8 4
    instrOff := leField b 12 4, instrCount := leField b 16 4, todOff := leField b 20 4, todCount := leField b 24 2
    agpCount := leField b 26 2, agpOff := leField b 28 4, entry := leField b 32 4
    needDet := natBit (byteAt b 36) 0, bindingMin := leField b 38 2, crc := leField b 60 4
    reservedOk := decide (leField b 36 2 / 2 = 0 ∧ leField b 40 20 = 0) }

end Sys2Proof.Machine
end

