-- ==== Sys2Proof/Machine/RegMap.lean ====
section
/-! DEFINITION. The register map: every block class, its register page's registers with their offsets, access codes and
reset values, and its event sources, copied from the register and event tables of spec/ 02 and 05 to 19. -/

namespace Sys2Proof.Machine

/-- A run of registers of one class's page: first and last offset, the bits of each access code of 02 R37, the reset value. -/
structure RegRow where
  /-- Block class (02 R30). -/
  cls : Nat
  /-- Instance that has the register; 255 for every instance. -/
  inst : Nat
  /-- Offset of the first register. -/
  lo : Nat
  /-- Offset of the last register. -/
  hi : Nat
  /-- RW bits. -/
  rw : Nat
  /-- W1C bits. -/
  w1c : Nat
  /-- RC bits. -/
  rc : Nat
  /-- Reset value. -/
  reset : Nat
  deriving DecidableEq, Repr

/-- An event source of a class's page: EVENT_RAW bit, code, whether fault-mode injection provokes the fault (02 R46). -/
structure EvRow where
  cls : Nat
  inst : Nat
  bit : Nat
  code : Nat
  fault : Bool
  deriving DecidableEq, Repr

/-- The registers of every page (02 R42). -/
def regsCommon : List RegRow := [
  ⟨255, 255, 0x000, 0x000, 0x0, 0x0, 0x0, 0x0⟩, -- BLOCK_ID
  ⟨255, 255, 0x004, 0x004, 0x0, 0x0, 0x0, 0x0⟩, -- BLOCK_CAPS
  ⟨255, 255, 0x008, 0x008, 0x1, 0x0, 0x0, 0x0⟩, -- CTRL
  ⟨255, 255, 0x00C, 0x00C, 0x0, 0x0, 0x0, 0x0⟩, -- STATUS
  ⟨255, 255, 0x010, 0x010, 0x0, 0xFFFFFFFF, 0x0, 0x0⟩, -- EVENT_RAW
  ⟨255, 255, 0x014, 0x014, 0xFFFFFFFF, 0x0, 0x0, 0x0⟩, -- EVENT_MASK
  ⟨255, 255, 0x018, 0x018, 0x0, 0x0, 0x0, 0x0⟩, -- EVENT_INJECT
  ⟨255, 255, 0x01C, 0x01C, 0x0, 0x0, 0x0, 0x0⟩ -- EVENT_SEQ
  ]

/-- The registers of class 0x00 (02). -/
def regsGlb : List RegRow := [
  ⟨0, 255, 0x040, 0x040, 0x0, 0x0, 0x0, 0xFF⟩, -- GLB_DEVICE_ID
  ⟨0, 255, 0x044, 0x044, 0x0, 0x3F, 0x0, 0x1⟩, -- GLB_RESET_CAUSE
  ⟨0, 255, 0x048, 0x048, 0x0, 0x0, 0x0, 0x0⟩, -- GLB_STRAPS
  ⟨0, 255, 0x04C, 0x04C, 0x0, 0x0, 0x0, 0x484101⟩, -- GLB_SILICON
  ⟨0, 255, 0x050, 0x050, 0x0, 0x0, 0x0, 0x0⟩, -- GLB_TIME_LO
  ⟨0, 255, 0x054, 0x054, 0x0, 0x0, 0x0, 0x0⟩,
  ⟨0, 255, 0x058, 0x058, 0x0, 0x4, 0x0, 0x0⟩, -- GLB_TIME_STATUS
  ⟨0, 255, 0x060, 0x060, 0xFFFFF, 0x0, 0x0, 0x0⟩, -- GLB_EVENT_QUEUE
  ⟨0, 255, 0x064, 0x064, 0x0, 0x0, 0x0, 0x1⟩, -- GLB_EVENT_SEQ_NEXT
  ⟨0, 255, 0x068, 0x068, 0x0, 0x0, 0xFFFFFFFF, 0x0⟩, -- GLB_EVENT_LOST
  ⟨0, 255, 0x06C, 0x06C, 0x1, 0x0, 0x0, 0x0⟩, -- GLB_INJECT_CTRL
  ⟨0, 255, 0x070, 0x070, 0x0, 0x0, 0x0, 0x0⟩, -- GLB_WARM_RESET
  ⟨0, 255, 0x074, 0x074, 0x1, 0x0, 0x0, 0x1⟩, -- GLB_REMOTE_REG
  ⟨0, 255, 0x078, 0x078, 0x0, 0x0, 0x0, 0x0⟩ -- GLB_FENCE
  ]

/-- The registers of class 0x01 (05). -/
def regsIwl : List RegRow := [
  ⟨1, 255, 0x040, 0x040, 0x0, 0x0, 0x0, 0x0⟩, -- IWL_PROG_AREA
  ⟨1, 255, 0x044, 0x044, 0x0, 0x0, 0x0, 0x0⟩, -- IWL_DMA_STATUS
  ⟨1, 255, 0x048, 0x048, 0x0, 0x0, 0x0, 0x0⟩, -- IWL_RQU_COUNT_LO
  ⟨1, 255, 0x04C, 0x04C, 0x0, 0x0, 0x0, 0x0⟩
  ]

/-- The registers of class 0x02 (05). -/
def regsQl : List RegRow := [
  ⟨2, 255, 0x040, 0x040, 0x0, 0x0, 0x0, 0xFFFF0000⟩, -- QL_STATE
  ⟨2, 255, 0x044, 0x044, 0x0, 0x0, 0x0, 0x0⟩, -- QL_RANK
  ⟨2, 255, 0x048, 0x048, 0x0, 0x0, 0x0, 0x0⟩, -- QL_PC
  ⟨2, 255, 0x04C, 0x04C, 0x0, 0x0, 0x0, 0x0⟩, -- QL_OP_INDEX
  ⟨2, 255, 0x050, 0x050, 0x0, 0x0, 0x0, 0x5DC05DC⟩, -- QL_FREQ
  ⟨2, 255, 0x054, 0x054, 0x0, 0x0, 0x0, 0x0⟩, -- QL_NIB_MAP
  ⟨2, 255, 0x058, 0x058, 0x0, 0x0, 0x0, 0x0⟩, -- QL_NIB_RETIRE
  ⟨2, 255, 0x05C, 0x05C, 0xFFFFFFFF, 0x0, 0x0, 0xF4240⟩, -- QL_WAIT_LIMIT
  ⟨2, 255, 0x060, 0x060, 0x0, 0x0, 0x0, 0x0⟩, -- QL_MAC_LO
  ⟨2, 255, 0x064, 0x064, 0x0, 0x0, 0x0, 0x0⟩,
  ⟨2, 255, 0x068, 0x068, 0x0, 0x0, 0x0, 0x0⟩, -- QL_CAP_LO
  ⟨2, 255, 0x06C, 0x06C, 0x0, 0x0, 0x0, 0x0⟩,
  ⟨2, 255, 0x070, 0x070, 0x0, 0x0, 0x0, 0x0⟩, -- QL_STALL_LO
  ⟨2, 255, 0x074, 0x074, 0x0, 0x0, 0x0, 0x0⟩
  ]

/-- The registers of class 0x03 (09). -/
def regsSpad : List RegRow := [
  ⟨3, 255, 0x040, 0x040, 0x0, 0x0, 0x0, 0x0⟩, -- SPAD_BANK_STATE
  ⟨3, 255, 0x044, 0x044, 0x0, 0x0, 0x0, 0x0⟩, -- SPAD_BANK_CTRL
  ⟨3, 255, 0x048, 0x048, 0x0, 0x0, 0x0, 0x0⟩, -- SPAD_FILL_STATUS
  ⟨3, 255, 0x04C, 0x04C, 0x7F, 0x0, 0x0, 0x0⟩, -- SPAD_WIN_SEL
  ⟨3, 255, 0x050, 0x06C, 0xFFFFFFFF, 0x0, 0x0, 0x0⟩, -- SPAD_WIN_DATA0
  ⟨3, 255, 0x070, 0x070, 0x0, 0x0, 0x0, 0x0⟩, -- SPAD_WIN_CMD
  ⟨3, 255, 0x074, 0x074, 0x3F, 0x0, 0x0, 0x1E⟩, -- SPAD_SCRUB_CTRL
  ⟨3, 255, 0x078, 0x078, 0x0, 0x0, 0x0, 0x0⟩, -- SPAD_SCRUB_STATUS
  ⟨3, 255, 0x07C, 0x07C, 0x0, 0x0, 0xFFFFFFFF, 0x0⟩, -- SPAD_CORRECTED_COUNT
  ⟨3, 255, 0x080, 0x080, 0x0, 0x0, 0xFFFFFFFF, 0x0⟩, -- SPAD_REFUSED_COUNT
  ⟨3, 255, 0x084, 0x090, 0x0, 0x0, 0x0, 0x20202020⟩, -- SPAD_SPARE_LEFT0
  ⟨3, 255, 0x094, 0x094, 0x1, 0x0, 0x0, 0x0⟩ -- SPAD_DEBUG
  ]

/-- The registers of class 0x04 (10). -/
def regsMc : List RegRow := [
  ⟨4, 255, 0x040, 0x040, 0x0, 0x0, 0x0, 0x1⟩, -- MC_CONFIG
  ⟨4, 255, 0x044, 0x044, 0x0, 0x0, 0x0, 0x0⟩, -- MC_TRAIN_STATUS
  ⟨4, 255, 0x048, 0x048, 0x3F, 0x0, 0x0, 0x0⟩, -- MC_SLOT_SEL
  ⟨4, 255, 0x04C, 0x04C, 0x0, 0x0, 0x0, 0xFFFF0000⟩, -- MC_SLOT_OWNER
  ⟨4, 255, 0x050, 0x050, 0x0, 0x0, 0x0, 0x10000⟩, -- MC_REFRESH_STATUS
  ⟨4, 255, 0x054, 0x054, 0x0, 0x0, 0x0, 0x0⟩, -- MC_TEMP
  ⟨4, 255, 0x058, 0x058, 0xFF, 0x0, 0x0, 0x18⟩, -- MC_PATROL_CTRL
  ⟨4, 255, 0x05C, 0x05C, 0x0, 0x0, 0x0, 0x0⟩, -- MC_PATROL_STATUS
  ⟨4, 255, 0x060, 0x060, 0x0, 0x0, 0xFFFFFFFF, 0x0⟩, -- MC_CORRECTED_COUNT
  ⟨4, 255, 0x064, 0x064, 0x0, 0x0, 0xFFFFFFFF, 0x0⟩,
  ⟨4, 255, 0x068, 0x068, 0x0, 0x0, 0xFFFFFFFF, 0x0⟩,
  ⟨4, 255, 0x06C, 0x06C, 0x0, 0x0, 0xFFFF0000, 0x0⟩, -- MC_WB_STATUS
  ⟨4, 255, 0x070, 0x070, 0x0, 0x0, 0x0, 0x0⟩, -- MC_READ_BYTES_LO
  ⟨4, 255, 0x074, 0x074, 0x0, 0x0, 0x0, 0x0⟩,
  ⟨4, 255, 0x078, 0x078, 0x0, 0x0, 0x0, 0x0⟩,
  ⟨4, 255, 0x07C, 0x07C, 0x0, 0x0, 0x0, 0x0⟩,
  ⟨4, 255, 0x080, 0x080, 0x0, 0x0, 0x0, 0x0⟩, -- MC_DEFERRALS_LO
  ⟨4, 255, 0x084, 0x084, 0x0, 0x0, 0x0, 0x0⟩,
  ⟨4, 255, 0x088, 0x088, 0xFFFFFF, 0x0, 0x0, 0x0⟩, -- MC_SPARE_SEL
  ⟨4, 255, 0x08C, 0x08C, 0x0, 0x0, 0x0, 0x0⟩ -- MC_SPARE_STATUS
  ]

/-- The registers of class 0x05 (17). -/
def regsRp : List RegRow := [
  ⟨5, 255, 0x040, 0x040, 0x0, 0x0, 0x0, 0xFF000000⟩, -- RP_LINK_STATE
  ⟨5, 255, 0x044, 0x044, 0x3, 0x0, 0x0, 0x0⟩, -- RP_LINK_CTRL
  ⟨5, 255, 0x048, 0x048, 0xFFFFFF, 0x0, 0x0, 0x1000⟩, -- RP_LANE_CTRL
  ⟨5, 255, 0x04C, 0x04C, 0x0, 0x0, 0xFFFFFFFF, 0x0⟩, -- RP_FEC_COUNT
  ⟨5, 255, 0x050, 0x050, 0x0, 0x0, 0xFFFFFFFF, 0x0⟩,
  ⟨5, 255, 0x054, 0x054, 0x0, 0x0, 0xFFFFFFFF, 0x0⟩,
  ⟨5, 255, 0x058, 0x058, 0x0, 0x0, 0xFFFFFFFF, 0x0⟩,
  ⟨5, 255, 0x05C, 0x05C, 0x0, 0x0, 0x0, 0x0⟩, -- RP_TX_FLITS_LO
  ⟨5, 255, 0x060, 0x060, 0x0, 0x0, 0x0, 0x0⟩,
  ⟨5, 255, 0x064, 0x064, 0x0, 0x0, 0x0, 0x0⟩,
  ⟨5, 255, 0x068, 0x068, 0x0, 0x0, 0x0, 0x0⟩,
  ⟨5, 255, 0x06C, 0x06C, 0x0, 0x0, 0x0, 0x0⟩,
  ⟨5, 255, 0x070, 0x070, 0x0, 0x0, 0x0, 0x0⟩,
  ⟨5, 255, 0x074, 0x074, 0xF, 0x0, 0x0, 0x0⟩, -- RP_DET_SEL
  ⟨5, 255, 0x078, 0x078, 0x80FFFFFF, 0x0, 0x0, 0x0⟩, -- RP_DET_JOB
  ⟨5, 255, 0x07C, 0x07C, 0xFFFFFFFF, 0x0, 0x0, 0x0⟩, -- RP_DET_MASK_LO
  ⟨5, 255, 0x080, 0x080, 0xFFFFFFFF, 0x0, 0x0, 0x0⟩,
  ⟨5, 255, 0x084, 0x084, 0x0, 0x0, 0x0, 0x0⟩, -- RP_TEST
  ⟨5, 255, 0x100, 0x100, 0x0, 0x0, 0x0, 0x0⟩, -- RING_TOPO
  ⟨5, 255, 0x104, 0x104, 0x1, 0x0, 0x0, 0x1⟩, -- RING_ENUM_CTRL
  ⟨5, 255, 0x108, 0x108, 0x0, 0x0, 0x0, 0x0⟩, -- RING_TIME_LO
  ⟨5, 255, 0x10C, 0x10C, 0x0, 0x0, 0x0, 0x0⟩,
  ⟨5, 255, 0x110, 0x110, 0x0, 0x4, 0x0, 0x0⟩, -- RING_TIME_STATUS
  ⟨5, 255, 0x114, 0x114, 0xFFFFFFFF, 0x0, 0x0, 0x64⟩, -- RING_REQ_TIMEOUT
  ⟨5, 255, 0x118, 0x118, 0x800FFFFF, 0x0, 0x0, 0x0⟩, -- RING_FENCE_QUEUE
  ⟨5, 255, 0x11C, 0x11C, 0x0, 0x0, 0x0, 0x0⟩, -- RING_FENCE_CMD
  ⟨5, 255, 0x120, 0x120, 0xFF, 0x0, 0x0, 0x0⟩, -- RING_PEER_SEL
  ⟨5, 255, 0x124, 0x124, 0x0, 0x0, 0x0, 0x0⟩, -- RING_PEER_STATE
  ⟨5, 255, 0x128, 0x128, 0x0, 0x0, 0x0, 0x0⟩ -- RING_DOWN_LINKS
  ]

/-- The registers of class 0x06 (07, 11). -/
def regsQe : List RegRow := [
  ⟨6, 255, 0x400, 0x400, 0x800FFFFF, 0x0, 0x0, 0x0⟩, -- CC_CMD_QUEUE
  ⟨6, 255, 0x404, 0x404, 0xFFFFFFFF, 0x0, 0x0, 0x0⟩, -- CC_CTX_BASE_LO
  ⟨6, 255, 0x408, 0x408, 0xFFFF, 0x0, 0x0, 0x0⟩,
  ⟨6, 255, 0x40C, 0x40C, 0xFFFFFFFF, 0x0, 0x0, 0x0⟩, -- CC_FOLIO_BASE_LO
  ⟨6, 255, 0x410, 0x410, 0xFFFF, 0x0, 0x0, 0x0⟩,
  ⟨6, 255, 0x414, 0x414, 0xFFFFFFFF, 0x0, 0x0, 0x0⟩, -- CC_SLOT_BASE_LO
  ⟨6, 255, 0x418, 0x418, 0xFFFF, 0x0, 0x0, 0x0⟩,
  ⟨6, 255, 0x41C, 0x41C, 0x7FF, 0x0, 0x0, 0x24⟩, -- CC_SLOT_SIZE
  ⟨6, 255, 0x420, 0x420, 0xFFFFFF, 0x0, 0x0, 0x0⟩, -- CC_FOLIO_COUNT
  ⟨6, 255, 0x424, 0x424, 0xFFFFFF, 0x0, 0x0, 0x0⟩,
  ⟨6, 255, 0x428, 0x428, 0x0, 0x0, 0x0, 0x0⟩, -- CC_EPOCH
  ⟨6, 255, 0x42C, 0x42C, 0x0, 0x0, 0x0, 0x0⟩, -- CC_HORIZON
  ⟨6, 255, 0x430, 0x430, 0x0, 0x0, 0x0, 0x0⟩, -- CC_FREE_FOLIOS
  ⟨6, 255, 0x434, 0x434, 0x0, 0x0, 0x0, 0x0⟩,
  ⟨6, 255, 0x438, 0x438, 0x0, 0x0, 0x0, 0x0⟩,
  ⟨6, 255, 0x43C, 0x43C, 0x0, 0x0, 0x0, 0x0⟩,
  ⟨6, 255, 0x440, 0x440, 0x0, 0x0, 0x3FF0000, 0x0⟩, -- CC_TICKETS
  ⟨6, 255, 0x444, 0x444, 0x0, 0x0, 0x0, 0x0⟩, -- CC_CMD_COUNT_LO
  ⟨6, 255, 0x448, 0x448, 0x0, 0x0, 0x0, 0x0⟩,
  ⟨6, 255, 0x44C, 0x44C, 0x0, 0x0, 0x0, 0x0⟩, -- CC_COW_COUNT_LO
  ⟨6, 255, 0x450, 0x450, 0x0, 0x0, 0x0, 0x0⟩,
  ⟨6, 255, 0x454, 0x454, 0xFFFFFF, 0x0, 0x0, 0x400⟩, -- CC_LOW_WATER
  ⟨6, 255, 0x458, 0x458, 0x0, 0x0, 0x0, 0x0⟩, -- CC_STATUS
  ⟨6, 255, 0x040, 0x040, 0xFC000000, 0x0, 0x0, 0x0⟩, -- QE_DESC_BASE_LO
  ⟨6, 255, 0x044, 0x044, 0xFFFF, 0x0, 0x0, 0x0⟩,
  ⟨6, 255, 0x048, 0x048, 0xFFFFF, 0x0, 0x0, 0x0⟩, -- QE_Q_SEL
  ⟨6, 255, 0x04C, 0x088, 0xFFFFFFFF, 0x0, 0x0, 0x0⟩, -- QE_Q_DATA0
  ⟨6, 255, 0x08C, 0x08C, 0x0, 0x0, 0x0, 0x0⟩, -- QE_Q_CMD
  ⟨6, 255, 0x090, 0x090, 0x0, 0x0, 0x0, 0x0⟩, -- QE_Q_RDPTR
  ⟨6, 255, 0x094, 0x094, 0xFFFFFFFF, 0x0, 0x0, 0x64⟩, -- QE_PACKET_LIMIT
  ⟨6, 255, 0x098, 0x098, 0x0, 0x0, 0x0, 0x0⟩, -- QE_CACHE_STATUS
  ⟨6, 255, 0x09C, 0x09C, 0x0, 0x0, 0x0, 0x0⟩, -- QE_STAGING
  ⟨6, 255, 0x0A0, 0x0A0, 0x0, 0x0, 0xFFFFFFFF, 0x0⟩, -- QE_MISS_COUNT
  ⟨6, 255, 0x0A4, 0x0A4, 0x0, 0x0, 0x0, 0x0⟩, -- QE_PUSH_COUNT_LO
  ⟨6, 255, 0x0A8, 0x0A8, 0x0, 0x0, 0x0, 0x0⟩,
  ⟨6, 255, 0x0AC, 0x0AC, 0x0, 0x0, 0x0, 0x0⟩,
  ⟨6, 255, 0x0B0, 0x0B0, 0x0, 0x0, 0x0, 0x0⟩,
  ⟨6, 255, 0x0B4, 0x0B4, 0x0, 0x0, 0xFFFFFFFF, 0x0⟩ -- QE_DROP_COUNT
  ]

/-- The registers of class 0x07 (12). -/
def regsCar : List RegRow := [
  ⟨7, 255, 0x040, 0x040, 0x1F, 0x0, 0x0, 0x0⟩, -- CAR_ST_SEL
  ⟨7, 255, 0x044, 0x070, 0xFFFFFFFF, 0x0, 0x0, 0x0⟩, -- CAR_ST_DATA0
  ⟨7, 255, 0x074, 0x074, 0x0, 0x0, 0x0, 0x0⟩, -- CAR_ST_CMD
  ⟨7, 255, 0x078, 0x078, 0x7, 0x0, 0x0, 0x0⟩, -- CAR_GRP_SEL
  ⟨7, 255, 0x07C, 0x098, 0xFFFFFFFF, 0x0, 0x0, 0x0⟩, -- CAR_GRP_DATA0
  ⟨7, 255, 0x09C, 0x09C, 0x0, 0x0, 0x0, 0x0⟩, -- CAR_GRP_CMD
  ⟨7, 255, 0x0A0, 0x0A0, 0x0, 0x0, 0x0, 0x0⟩, -- CAR_ST_STATE
  ⟨7, 255, 0x0A4, 0x0A4, 0x0, 0x0, 0x0, 0x0⟩, -- CAR_GRP_STATE
  ⟨7, 255, 0x0A8, 0x0A8, 0x0, 0x0, 0x0, 0x0⟩, -- CAR_SAMPLE_COUNT_LO
  ⟨7, 255, 0x0AC, 0x0AC, 0x0, 0x0, 0x0, 0x0⟩,
  ⟨7, 255, 0x0B0, 0x0B0, 0x0, 0x0, 0xFFFFFFFF, 0x0⟩, -- CAR_CORRUPT_COUNT
  ⟨7, 255, 0x0B4, 0x0B4, 0x0, 0x0, 0xFFFFFFFF, 0x0⟩,
  ⟨7, 255, 0x0B8, 0x0B8, 0x0, 0x0, 0xFFFFFFFF, 0x0⟩
  ]

/-- The registers of class 0x08 (12). -/
def regsCam : List RegRow := [
  ⟨8, 255, 0x040, 0x040, 0xFFFF0007, 0x0, 0x0, 0x4⟩, -- CAM_PHY
  ⟨8, 255, 0x044, 0x044, 0xFFFF, 0x0, 0x0, 0x0⟩, -- CAM_VC_ENABLE
  ⟨8, 255, 0x048, 0x048, 0x800FFFFF, 0x0, 0x0, 0x0⟩, -- CAM_FRAME_QUEUE
  ⟨8, 255, 0x04C, 0x04C, 0xFFFF0F01, 0x0, 0x0, 0x301⟩, -- CAM_CHECK
  ⟨8, 255, 0x050, 0x050, 0x0, 0x0, 0x0, 0x0⟩, -- CAM_VC_STATUS
  ⟨8, 255, 0x054, 0x054, 0x0, 0x0, 0xFFFFFFFF, 0x0⟩, -- CAM_PKT_ERR_COUNT
  ⟨8, 255, 0x058, 0x058, 0x0, 0x0, 0xFFFFFFFF, 0x0⟩,
  ⟨8, 255, 0x05C, 0x05C, 0x0, 0x0, 0x0, 0x0⟩, -- CAM_FRAME_COUNT_LO
  ⟨8, 255, 0x060, 0x060, 0x0, 0x0, 0x0, 0x0⟩
  ]

/-- The registers of class 0x09 (08). -/
def regsFn : List RegRow := [
  ⟨9, 255, 0x040, 0x040, 0x800FFFFF, 0x0, 0x0, 0x0⟩, -- FN_CMD_QUEUE
  ⟨9, 255, 0x044, 0x044, 0x0, 0x0, 0x0, 0xFFFF0000⟩, -- FN_STATE
  ⟨9, 255, 0x048, 0x048, 0xFFFFFFFF, 0x0, 0x0, 0x186A0⟩, -- FN_STALL_LIMIT
  ⟨9, 255, 0x04C, 0x04C, 0x0, 0x0, 0x0, 0x0⟩, -- FN_MAC_LO
  ⟨9, 255, 0x050, 0x050, 0x0, 0x0, 0x0, 0x0⟩,
  ⟨9, 255, 0x054, 0x054, 0x0, 0x0, 0x0, 0x0⟩, -- FN_BUSY_LO
  ⟨9, 255, 0x058, 0x058, 0x0, 0x0, 0x0, 0x0⟩,
  ⟨9, 255, 0x05C, 0x05C, 0x0, 0x0, 0x0, 0x0⟩ -- FN_LAYER_COUNT
  ]

/-- The registers of class 0x0A (13). -/
def regsTr : List RegRow := [
  ⟨10, 0, 0x040, 0x040, 0x3F, 0x0, 0x0, 0x0⟩, -- TR_SLOT_SEL
  ⟨10, 0, 0x044, 0x060, 0xFFFFFFFF, 0x0, 0x0, 0x0⟩, -- TR_SLOT_DATA0
  ⟨10, 0, 0x064, 0x064, 0x0, 0x0, 0x0, 0x0⟩, -- TR_SLOT_CMD
  ⟨10, 0, 0x068, 0x068, 0x0, 0x0, 0x0, 0x0⟩, -- TR_SLOT_STATUS
  ⟨10, 0, 0x06C, 0x06C, 0x0, 0x0, 0x0, 0x0⟩, -- TR_SLOT_WCL
  ⟨10, 0, 0x070, 0x070, 0xFFF, 0x0, 0x0, 0x0⟩, -- TR_LAW_ADDR
  ⟨10, 0, 0x074, 0x074, 0x0, 0x0, 0x0, 0x0⟩, -- TR_LAW_DATA
  ⟨10, 0, 0x078, 0x078, 0xFFFFFFFF, 0x0, 0x0, 0x0⟩, -- TR_COEF_VALUE
  ⟨10, 0, 0x07C, 0x07C, 0x0, 0x0, 0x0, 0x0⟩, -- TR_COEF_WRITE
  ⟨10, 0, 0x080, 0x080, 0x0, 0x0, 0x0, 0x0⟩, -- TR_COEF_STATUS
  ⟨10, 0, 0x084, 0x084, 0x3F01, 0x0, 0x0, 0x0⟩, -- TR_BANK_CTRL
  ⟨10, 0, 0x088, 0x0A4, 0xFFFFFFFF, 0x0, 0x0, 0x0⟩, -- TR_SP_WORD0
  ⟨10, 0, 0x0A8, 0x0A8, 0x0, 0x0, 0x0, 0x0⟩, -- TR_SP_COMMIT
  ⟨10, 0, 0x0AC, 0x0AC, 0xFFFFFFFF, 0x0, 0x0, 0x0⟩, -- TR_TEST_CTRL
  ⟨10, 0, 0x0B0, 0x0B0, 0xFFFFFFFF, 0x0, 0x0, 0x0⟩, -- TR_TEST_AMPL
  ⟨10, 0, 0x0B4, 0x0B4, 0x3F07, 0x0, 0x0, 0x0⟩, -- TR_CAP_CTRL
  ⟨10, 0, 0x0B8, 0x0B8, 0xFFFFFFFF, 0x0, 0x0, 0x0⟩, -- TR_CAP_SIG
  ⟨10, 0, 0x0BC, 0x0BC, 0x0, 0x0, 0x0, 0x0⟩, -- TR_CAP_READ
  ⟨10, 0, 0x0C0, 0x0C0, 0x0, 0x0, 0x0, 0x0⟩, -- TR_CAP_TIME_LO
  ⟨10, 0, 0x0C4, 0x0C4, 0x0, 0x0, 0x0, 0x0⟩,
  ⟨10, 0, 0x0C8, 0x0C8, 0x0, 0x0, 0xFFFFFFFF, 0x0⟩, -- TR_OVERRUN_COUNT
  ⟨10, 0, 0x0CC, 0x0CC, 0x0, 0x0, 0x0, 0x0⟩, -- TR_RUN_COUNT_LO
  ⟨10, 0, 0x0D0, 0x0D0, 0x0, 0x0, 0x0, 0x0⟩,
  ⟨10, 1, 0x040, 0x040, 0xF, 0x0, 0x0, 0x0⟩, -- TIO_ENC_SEL
  ⟨10, 1, 0x044, 0x050, 0xFFFFFFFF, 0x0, 0x0, 0x0⟩, -- TIO_ENC_DATA0
  ⟨10, 1, 0x054, 0x054, 0x0, 0x0, 0x0, 0x0⟩, -- TIO_ENC_CMD
  ⟨10, 1, 0x058, 0x058, 0x0, 0x0, 0x0, 0x0⟩, -- TIO_ENC_STATUS
  ⟨10, 1, 0x05C, 0x05C, 0x0, 0x0, 0x0, 0x0⟩, -- TIO_ENC_POS
  ⟨10, 1, 0x060, 0x060, 0x1F, 0x0, 0x0, 0x0⟩, -- TIO_DIN_SEL
  ⟨10, 1, 0x064, 0x068, 0xFFFFFFFF, 0x0, 0x0, 0x0⟩, -- TIO_DIN_DATA0
  ⟨10, 1, 0x06C, 0x06C, 0x0, 0x0, 0x0, 0x0⟩, -- TIO_DIN_CMD
  ⟨10, 1, 0x070, 0x070, 0x0, 0x0, 0x0, 0x0⟩, -- TIO_DIN_LEVEL
  ⟨10, 1, 0x074, 0x074, 0x0, 0x0, 0x0, 0x0⟩,
  ⟨10, 1, 0x078, 0x078, 0x0, 0x0, 0x0, 0x0⟩,
  ⟨10, 1, 0x07C, 0x07C, 0x1F, 0x0, 0x0, 0x0⟩, -- TIO_PWM_SEL
  ⟨10, 1, 0x080, 0x08C, 0xFFFFFFFF, 0x0, 0x0, 0x0⟩, -- TIO_PWM_DATA0
  ⟨10, 1, 0x090, 0x090, 0x0, 0x0, 0x0, 0x0⟩, -- TIO_PWM_CMD
  ⟨10, 1, 0x094, 0x094, 0x0, 0x0, 0x0, 0x0⟩, -- TIO_PWM_STATE
  ⟨10, 1, 0x098, 0x098, 0x3, 0x0, 0x0, 0x0⟩, -- TIO_ADC_SEL
  ⟨10, 1, 0x09C, 0x0B8, 0xFFFFFFFF, 0x0, 0x0, 0x0⟩, -- TIO_ADC_DATA0
  ⟨10, 1, 0x0BC, 0x0BC, 0x0, 0x0, 0x0, 0x0⟩, -- TIO_ADC_CMD
  ⟨10, 1, 0x0C0, 0x0C0, 0x0, 0x0, 0x0, 0x0⟩ -- TIO_BANK_LEVEL
  ]

/-- The registers of class 0x0B (14). -/
def regsCan : List RegRow := [
  ⟨11, 255, 0x040, 0x040, 0x3F, 0x0, 0x0, 0x0⟩, -- CAN_MODE
  ⟨11, 255, 0x044, 0x044, 0x7FFFFFFF, 0x0, 0x0, 0x0⟩, -- CAN_NBT
  ⟨11, 255, 0x048, 0x048, 0x7FFFFFF, 0x0, 0x0, 0x0⟩, -- CAN_FDBT
  ⟨11, 255, 0x04C, 0x04C, 0x7FFFFFF, 0x0, 0x0, 0x0⟩,
  ⟨11, 255, 0x050, 0x050, 0x0, 0x0, 0x0, 0x0⟩, -- CAN_ERR
  ⟨11, 255, 0x054, 0x054, 0xFF, 0x0, 0x0, 0x0⟩, -- CAN_SEL
  ⟨11, 255, 0x058, 0x074, 0xFFFFFFFF, 0x0, 0x0, 0x0⟩, -- CAN_DATA0
  ⟨11, 255, 0x078, 0x078, 0x0, 0x0, 0x0, 0x0⟩, -- CAN_CMD
  ⟨11, 255, 0x07C, 0x07C, 0x0, 0x0, 0x0, 0x0⟩, -- CAN_TB_STATUS
  ⟨11, 255, 0x080, 0x080, 0xFFFFFFFF, 0x0, 0x0, 0x0⟩, -- CAN_TR_MAP
  ⟨11, 255, 0x084, 0x084, 0x800FFFFF, 0x0, 0x0, 0x0⟩, -- CAN_RX_QUEUE0
  ⟨11, 255, 0x088, 0x088, 0x800FFFFF, 0x0, 0x0, 0x0⟩,
  ⟨11, 255, 0x08C, 0x08C, 0x800FFFFF, 0x0, 0x0, 0x0⟩,
  ⟨11, 255, 0x090, 0x090, 0xF, 0x0, 0x0, 0x5⟩, -- CAN_RX_CTRL
  ⟨11, 255, 0x094, 0x094, 0x1FFFF, 0x40000, 0x0, 0x0⟩, -- CAN_STOP
  ⟨11, 255, 0x098, 0x098, 0x0, 0x0, 0xFFFFFFFF, 0x0⟩, -- CAN_TX_COUNT
  ⟨11, 255, 0x09C, 0x09C, 0x0, 0x0, 0xFFFFFFFF, 0x0⟩,
  ⟨11, 255, 0x0A0, 0x0A0, 0x0, 0x0, 0xFFFFFFFF, 0x0⟩,
  ⟨11, 255, 0x0A4, 0x0A4, 0x0, 0x0, 0xFFFFFFFF, 0x0⟩,
  ⟨11, 255, 0x100, 0x13C, 0xFFFFFFFF, 0x0, 0x0, 0x0⟩ -- CAN_TB_PAYLOAD0
  ]

/-- The registers of class 0x0C (15). -/
def regsSn : List RegRow := [
  ⟨12, 255, 0x040, 0x040, 0x0, 0x0, 0x0, 0x0⟩, -- SN_STATE
  ⟨12, 255, 0x044, 0x044, 0x0, 0x0, 0x0, 0x0⟩, -- SN_ARM
  ⟨12, 255, 0x048, 0x048, 0x0, 0x0, 0x0, 0x0⟩, -- SN_TRIP
  ⟨12, 255, 0x04C, 0x04C, 0x800FFFFF, 0x0, 0x0, 0x0⟩, -- SN_SP_QUEUE
  ⟨12, 255, 0x050, 0x050, 0x800FFFFF, 0x0, 0x0, 0x0⟩,
  ⟨12, 255, 0x054, 0x054, 0x800FFFFF, 0x0, 0x0, 0x0⟩,
  ⟨12, 255, 0x058, 0x058, 0x7FF, 0x0, 0x0, 0x0⟩, -- SN_SEL
  ⟨12, 255, 0x05C, 0x068, 0xFFFFFFFF, 0x0, 0x0, 0x0⟩, -- SN_DATA0
  ⟨12, 255, 0x06C, 0x06C, 0x0, 0x0, 0x0, 0x0⟩, -- SN_CMD
  ⟨12, 255, 0x070, 0x070, 0xFFFF, 0x0, 0x0, 0x3E8⟩, -- SN_CMP_CTRL
  ⟨12, 255, 0x074, 0x074, 0x1FF, 0x0, 0x0, 0x13C⟩, -- SN_ST_CTRL
  ⟨12, 255, 0x078, 0x078, 0x0, 0x0, 0x0, 0x0⟩, -- SN_ST_STATUS
  ⟨12, 255, 0x07C, 0x07C, 0x0, 0x0, 0x0, 0x0⟩, -- SN_JUDGED_LO
  ⟨12, 255, 0x080, 0x080, 0x0, 0x0, 0x0, 0x0⟩,
  ⟨12, 255, 0x084, 0x084, 0x0, 0x0, 0xFFFFFFFF, 0x0⟩, -- SN_DISAGREE_COUNT
  ⟨12, 255, 0x088, 0x088, 0x0, 0x0, 0x0, 0x0⟩ -- SN_LOG_READ
  ]

/-- The registers of class 0x0D (16). -/
def regsPwr : List RegRow := [
  ⟨13, 255, 0x040, 0x040, 0xFFFF, 0x0, 0x0, 0x1194⟩, -- PWR_CAP
  ⟨13, 255, 0x044, 0x044, 0xFFFF, 0x0, 0x0, 0x2BC⟩, -- PWR_ALLOWANCE
  ⟨13, 255, 0x048, 0x048, 0x0, 0x0, 0x0, 0x0⟩, -- PWR_MEASURED
  ⟨13, 255, 0x04C, 0x04C, 0x0, 0x0, 0x0, 0x0⟩,
  ⟨13, 255, 0x050, 0x050, 0x0, 0x0, 0x0, 0x40000000⟩, -- PWR_RECON
  ⟨13, 255, 0x054, 0x054, 0xFF, 0x0, 0x0, 0x0⟩, -- PWR_QUILL_SEL
  ⟨13, 255, 0x058, 0x058, 0x0, 0x0, 0x0, 0x5DC0000⟩, -- PWR_QUILL
  ⟨13, 255, 0x05C, 0x05C, 0x0, 0x0, 0x0, 0x0⟩, -- PWR_QUILL_MAX
  ⟨13, 255, 0x060, 0x060, 0x0, 0x0, 0x0, 0x352⟩, -- PWR_VOLT
  ⟨13, 255, 0x064, 0x064, 0xFFFF, 0x0, 0x0, 0x4628⟩, -- PWR_DROOP_CTRL
  ⟨13, 255, 0x068, 0x068, 0xFF, 0x0, 0x0, 0x64⟩, -- PWR_THERM_CTRL
  ⟨13, 255, 0x06C, 0x06C, 0x3F, 0x0, 0x0, 0x0⟩, -- PWR_TEMP_SEL
  ⟨13, 255, 0x070, 0x070, 0x0, 0x0, 0x0, 0x0⟩, -- PWR_TEMP
  ⟨13, 255, 0x074, 0x074, 0x0, 0x0, 0x0, 0x0⟩, -- PWR_TEMP_MAX
  ⟨13, 255, 0x078, 0x078, 0x0, 0x0, 0x0, 0x0⟩, -- PWR_COOL
  ⟨13, 255, 0x07C, 0x07C, 0x0, 0x0, 0x0, 0x0⟩, -- PWR_DOMAIN_CMD
  ⟨13, 255, 0x080, 0x088, 0x0, 0x0, 0x0, 0xFFFFFFFF⟩, -- PWR_DOMAIN_ON0
  ⟨13, 255, 0x08C, 0x08C, 0x0, 0x0, 0x0, 0xFFFF⟩,
  ⟨13, 255, 0x090, 0x090, 0xFFFF0003, 0x0, 0x0, 0x640000⟩, -- PWR_AUTO
  ⟨13, 255, 0x094, 0x094, 0x7, 0x0, 0x0, 0x0⟩, -- PWR_RAIL_SEL
  ⟨13, 255, 0x098, 0x098, 0x0, 0x0, 0x0, 0x0⟩, -- PWR_RAIL
  ⟨13, 255, 0x09C, 0x09C, 0xFFFF, 0x0, 0x0, 0xFFFF⟩, -- PWR_TALLY_SEL
  ⟨13, 255, 0x0A0, 0x0A0, 0x0, 0x0, 0x0, 0x0⟩, -- PWR_TALLY_LO
  ⟨13, 255, 0x0A4, 0x0A4, 0x0, 0x0, 0x0, 0x0⟩,
  ⟨13, 255, 0x0A8, 0x0A8, 0x0, 0x0, 0x0, 0x0⟩, -- PWR_UNATTRIB_LO
  ⟨13, 255, 0x0AC, 0x0AC, 0x0, 0x0, 0x0, 0x0⟩,
  ⟨13, 255, 0x0B0, 0x0B0, 0x0, 0x0, 0xFFFFFFFF, 0x0⟩ -- PWR_EMERG_COUNT
  ]

/-- The registers of class 0x0E (18). -/
def regsHost : List RegRow := [
  ⟨14, 255, 0x040, 0x040, 0x0, 0x0, 0x0, 0x0⟩, -- HOST_LINK_STATE
  ⟨14, 255, 0x044, 0x044, 0x7, 0x0, 0x0, 0x0⟩, -- HOST_LINK_CTRL
  ⟨14, 255, 0x048, 0x048, 0x0, 0x0, 0x0, 0x0⟩, -- HOST_MAC_LO
  ⟨14, 255, 0x04C, 0x04C, 0x0, 0x0, 0x0, 0x0⟩,
  ⟨14, 255, 0x050, 0x050, 0xFFFFFF, 0x0, 0x0, 0x401F40⟩, -- HOST_RATE
  ⟨14, 255, 0x054, 0x054, 0x0, 0x0, 0x0, 0x0⟩, -- HOST_SA_STATUS
  ⟨14, 255, 0x058, 0x058, 0x0, 0x0, 0x0, 0x0⟩, -- HOST_TX_PN
  ⟨14, 255, 0x05C, 0x05C, 0x0, 0x0, 0x0, 0x0⟩, -- HOST_BUF_STATUS
  ⟨14, 255, 0x060, 0x060, 0x0, 0x0, 0xFFFFFFFF, 0x0⟩, -- HOST_RATE_DROP_COUNT
  ⟨14, 255, 0x064, 0x064, 0x0, 0x0, 0xFFFFFFFF, 0x0⟩,
  ⟨14, 255, 0x068, 0x068, 0x0, 0x0, 0xFFFFFFFF, 0x0⟩,
  ⟨14, 255, 0x06C, 0x06C, 0x0, 0x0, 0xFFFFFFFF, 0x0⟩,
  ⟨14, 255, 0x070, 0x070, 0x0, 0x0, 0x0, 0x0⟩, -- HOST_PTP_STATUS
  ⟨14, 255, 0x100, 0x100, 0xFFFFFFFF, 0x0, 0x0, 0x88B5CC50⟩, -- HOST_ENCAP
  ⟨14, 255, 0x104, 0x104, 0xFFFFFFFF, 0x0, 0x0, 0x0⟩, -- HOST_IPV4
  ⟨14, 255, 0x108, 0x108, 0x3FFF, 0x0, 0x0, 0x5DC⟩, -- HOST_MTU
  ⟨14, 255, 0x10C, 0x10C, 0x1, 0x0, 0x0, 0x0⟩, -- HOST_SEC
  ⟨14, 255, 0x110, 0x110, 0x0, 0x0, 0x0, 0x0⟩, -- CCP_SESSION
  ⟨14, 255, 0x114, 0x114, 0x0, 0x0, 0x0, 0x0⟩,
  ⟨14, 255, 0x118, 0x118, 0x0, 0x0, 0x0, 0x0⟩,
  ⟨14, 255, 0x11C, 0x11C, 0x0, 0x0, 0x0, 0x0⟩,
  ⟨14, 255, 0x120, 0x120, 0x1, 0x4, 0x0, 0x1⟩, -- HOST_STOP
  ⟨14, 255, 0x124, 0x124, 0x0, 0x0, 0x0, 0x0⟩, -- HOST_HOLD
  ⟨14, 255, 0x128, 0x128, 0xFFFFFF07, 0x0, 0x0, 0x3E84005⟩ -- HOST_DLV_CTRL
  ]

/-- The registers of class 0x0F (19). -/
def regsMg : List RegRow := [
  ⟨15, 0, 0x040, 0x040, 0x0, 0x0, 0x0, 0x0⟩, -- MG_FW_VERSION
  ⟨15, 0, 0x044, 0x044, 0x0, 0x0, 0x0, 0x0⟩, -- MG_BOOT
  ⟨15, 0, 0x048, 0x048, 0x0, 0x0, 0x0, 0x0⟩, -- MG_UPDATE
  ⟨15, 1, 0x040, 0x040, 0x0, 0x0, 0x0, 0x0⟩, -- SEC_SVN
  ⟨15, 1, 0x044, 0x044, 0x0, 0x0, 0x0, 0x0⟩, -- SEC_OWNER
  ⟨15, 1, 0x048, 0x048, 0x0, 0x0, 0x0, 0x0⟩, -- SEC_ATTEST
  ⟨15, 1, 0x04C, 0x04C, 0x0, 0x0, 0x0, 0xF0⟩, -- SEC_ATTEST_TOKENS
  ⟨15, 1, 0x100, 0x1FC, 0x0, 0x0, 0x0, 0x0⟩, -- SEC_COLOPHON0
  ⟨15, 2, 0x040, 0x040, 0x0, 0x0, 0x0, 0x0⟩, -- FL_STATUS
  ⟨15, 2, 0x044, 0x044, 0x0, 0x0, 0x0, 0x0⟩, -- FL_SETTINGS_FREE
  ⟨15, 3, 0x040, 0x040, 0x0, 0x0, 0x0, 0x0⟩, -- DBG_STATE
  ⟨15, 3, 0x044, 0x044, 0x0, 0x0, 0x0, 0x0⟩ -- DBG_LOCK
  ]

/-- The block-specific registers of a class. -/
def classRegs : Nat → List RegRow
  | 0 => regsGlb
  | 1 => regsIwl
  | 2 => regsQl
  | 3 => regsSpad
  | 4 => regsMc
  | 5 => regsRp
  | 6 => regsQe
  | 7 => regsCar
  | 8 => regsCam
  | 9 => regsFn
  | 10 => regsTr
  | 11 => regsCan
  | 12 => regsSn
  | 13 => regsPwr
  | 14 => regsHost
  | 15 => regsMg
  | _ => []

/-- The event sources of class 0x00. -/
def eventsGlb : List EvRow := [
  ⟨0, 255, 0, 0x7001, false⟩,
  ⟨0, 255, 1, 0x8001, false⟩,
  ⟨0, 255, 2, 0x7005, false⟩,
  ⟨0, 255, 3, 0x7003, false⟩,
  ⟨0, 255, 4, 0x7004, false⟩,
  ⟨0, 255, 5, 0x0001, false⟩, -- EVENTS_LOST
  ⟨0, 255, 6, 0x0002, false⟩ -- TIME_STEP
  ]

/-- The event sources of class 0x01. -/
def eventsIwl : List EvRow := [
  ⟨1, 255, 0, 0x7001, false⟩,
  ⟨1, 255, 1, 0x8001, false⟩,
  ⟨1, 255, 2, 0x7005, false⟩,
  ⟨1, 255, 3, 0x7003, false⟩,
  ⟨1, 255, 4, 0x7004, false⟩,
  ⟨1, 255, 5, 0x3110, true⟩ -- DMA_DATA_ERROR
  ]

/-- The event sources of class 0x02. -/
def eventsQl : List EvRow := [
  ⟨2, 255, 0, 0x0100, true⟩, -- NONFINITE_INPUT
  ⟨2, 255, 1, 0x1100, false⟩, -- NIB_SPARED
  ⟨2, 255, 2, 0x2100, true⟩, -- SEM_TIMEOUT
  ⟨2, 255, 3, 0x3100, true⟩, -- GROUP_OUT_OF_WINDOW
  ⟨2, 255, 4, 0x3101, true⟩, -- SCALE_SKEW
  ⟨2, 255, 5, 0x3102, true⟩, -- NIB_RESIDUE
  ⟨2, 255, 6, 0x3103, false⟩, -- QUILL_WITHDRAWN
  ⟨2, 255, 7, 0x7100, false⟩, -- FORMAT_INVALID
  ⟨2, 255, 8, 0x7101, false⟩, -- PROGRAM_INVALID
  ⟨2, 255, 9, 0x7102, true⟩, -- AG_BOUNDS
  ⟨2, 255, 10, 0x7103, false⟩, -- SEM_OVERFLOW
  ⟨2, 255, 11, 0x7104, false⟩, -- TRAP
  ⟨2, 255, 12, 0x7001, false⟩,
  ⟨2, 255, 13, 0x8001, false⟩,
  ⟨2, 255, 14, 0x7003, false⟩,
  ⟨2, 255, 15, 0x7004, false⟩,
  ⟨2, 255, 16, 0x7005, false⟩
  ]

/-- The event sources of class 0x03. -/
def eventsSpad : List EvRow := [
  ⟨3, 255, 0, 0x7001, false⟩,
  ⟨3, 255, 1, 0x8001, false⟩,
  ⟨3, 255, 2, 0x7005, false⟩,
  ⟨3, 255, 3, 0x7003, false⟩,
  ⟨3, 255, 4, 0x7004, false⟩,
  ⟨3, 255, 5, 0x1400, true⟩, -- SPAD_CORRECTED
  ⟨3, 255, 6, 0x1401, false⟩, -- SPAD_ROW_SPARED
  ⟨3, 255, 7, 0x3400, true⟩, -- SPAD_UNCORRECTABLE
  ⟨3, 255, 8, 0x3401, false⟩, -- SPAD_BANK_RETIRED
  ⟨3, 255, 9, 0x7400, true⟩, -- WINDOW_REFUSED
  ⟨3, 255, 10, 0x7401, false⟩, -- SPAD_CMD_REFUSED
  ⟨3, 255, 11, 0x0400, false⟩, -- SPAD_BANK_STATE
  ⟨3, 255, 12, 0x8400, false⟩ -- SPAD_RESIDUE_ACCESS
  ]

/-- The event sources of class 0x04. -/
def eventsMc : List EvRow := [
  ⟨4, 255, 0, 0x7001, false⟩,
  ⟨4, 255, 1, 0x8001, false⟩,
  ⟨4, 255, 2, 0x7005, false⟩,
  ⟨4, 255, 3, 0x7003, false⟩,
  ⟨4, 255, 4, 0x7004, false⟩,
  ⟨4, 255, 5, 0x1500, true⟩, -- MC_CORRECTED
  ⟨4, 255, 6, 0x1501, false⟩, -- MC_LINK_CORRECTED
  ⟨4, 255, 7, 0x1502, false⟩, -- MC_ROW_SPARED
  ⟨4, 255, 8, 0x0500, false⟩, -- MC_REFRESH_RATE
  ⟨4, 255, 9, 0x0501, false⟩, -- MC_TRAINED
  ⟨4, 255, 10, 0x3500, true⟩, -- MC_UNCORRECTABLE
  ⟨4, 255, 11, 0x3501, false⟩, -- MC_SPARE_EXHAUSTED
  ⟨4, 255, 12, 0x3502, false⟩ -- MC_TRAIN_FAILED
  ]

/-- The event sources of class 0x05. -/
def eventsRp : List EvRow := [
  ⟨5, 0, 12, 0x0901, false⟩, -- ENUM_DONE
  ⟨5, 0, 13, 0x7900, false⟩, -- ENUM_REFUSED
  ⟨5, 0, 14, 0x4900, false⟩, -- DEVICE_FENCED
  ⟨5, 0, 16, 0x2900, true⟩, -- RING_TIME_LOST
  ⟨5, 255, 0, 0x7001, false⟩,
  ⟨5, 255, 1, 0x8001, false⟩,
  ⟨5, 255, 2, 0x7005, false⟩,
  ⟨5, 255, 3, 0x7003, false⟩,
  ⟨5, 255, 4, 0x7004, false⟩,
  ⟨5, 255, 5, 0x1900, false⟩, -- LINK_FEC_CORRECTED
  ⟨5, 255, 6, 0x1901, true⟩, -- LANE_SPARED
  ⟨5, 255, 7, 0x5900, true⟩, -- LINK_RETRY
  ⟨5, 255, 8, 0x5901, true⟩, -- LINK_RETRAIN
  ⟨5, 255, 9, 0x5902, false⟩, -- LINK_DOWN
  ⟨5, 255, 10, 0x0900, false⟩, -- LINK_UP
  ⟨5, 255, 11, 0x5903, true⟩, -- RING_REQ_TIMEOUT
  ⟨5, 255, 15, 0x5904, false⟩, -- PEER_FENCED
  ⟨5, 255, 17, 0x7901, false⟩ -- DET_NO_SLOT
  ]

/-- The event sources of class 0x06. -/
def eventsQe : List EvRow := [
  ⟨6, 255, 0, 0x7001, false⟩,
  ⟨6, 255, 1, 0x8001, false⟩,
  ⟨6, 255, 2, 0x7005, false⟩,
  ⟨6, 255, 3, 0x7003, false⟩,
  ⟨6, 255, 4, 0x7004, false⟩,
  ⟨6, 255, 5, 0x1600, true⟩, -- QD_CORRECTED
  ⟨6, 255, 6, 0x2600, true⟩, -- QUEUE_FULL
  ⟨6, 255, 7, 0x2601, false⟩, -- STAGING_FULL
  ⟨6, 255, 8, 0x3600, false⟩, -- QUEUE_DROP
  ⟨6, 255, 9, 0x3601, true⟩, -- QUEUE_PACKET_ABANDONED
  ⟨6, 255, 10, 0x3602, true⟩, -- QD_UNCORRECTABLE
  ⟨6, 255, 11, 0x7600, false⟩, -- QUEUE_REFUSED
  ⟨6, 255, 24, 0x0200, false⟩, -- EPOCH_HELD
  ⟨6, 255, 25, 0x0201, false⟩, -- POOL_LOW
  ⟨6, 255, 26, 0x2200, false⟩, -- TICKET_WAIT
  ⟨6, 255, 27, 0x3200, true⟩, -- FOLIO_MISSING
  ⟨6, 255, 28, 0x3201, true⟩, -- CACHE_META_ERROR
  ⟨6, 255, 29, 0x7200, false⟩, -- CACHE_CMD_REFUSED
  ⟨6, 255, 30, 0x7201, true⟩, -- POOL_EXHAUSTED
  ⟨6, 255, 31, 0x7202, false⟩ -- ATTN_INPUT_INVALID
  ]

/-- The event sources of class 0x07. -/
def eventsCar : List EvRow := [
  ⟨7, 255, 0, 0x7001, false⟩,
  ⟨7, 255, 1, 0x8001, false⟩,
  ⟨7, 255, 2, 0x7005, false⟩,
  ⟨7, 255, 3, 0x7003, false⟩,
  ⟨7, 255, 4, 0x7004, false⟩,
  ⟨7, 255, 5, 0x1700, true⟩, -- CAR_SRAM_CORRECTED
  ⟨7, 255, 6, 0x2700, false⟩, -- CAR_LOW_WATER
  ⟨7, 255, 7, 0x2701, true⟩, -- CAR_SAMPLE_LATE
  ⟨7, 255, 8, 0x2702, false⟩, -- CAR_NO_BUFFER
  ⟨7, 255, 9, 0x3700, true⟩, -- CAR_SAMPLE_CORRUPT
  ⟨7, 255, 10, 0x3701, true⟩, -- CAR_WRITE_REFUSED
  ⟨7, 255, 11, 0x3702, true⟩, -- CAR_SRAM_ERROR
  ⟨7, 255, 12, 0x7700, false⟩ -- CAR_CONFIG_REFUSED
  ]

/-- The event sources of class 0x08. -/
def eventsCam : List EvRow := [
  ⟨8, 255, 0, 0x7001, false⟩,
  ⟨8, 255, 1, 0x8001, false⟩,
  ⟨8, 255, 2, 0x7005, false⟩,
  ⟨8, 255, 3, 0x7003, false⟩,
  ⟨8, 255, 4, 0x7004, false⟩,
  ⟨8, 255, 5, 0x1800, true⟩, -- CAM_HDR_CORRECTED
  ⟨8, 255, 6, 0x3800, true⟩, -- CAM_PACKET_ERROR
  ⟨8, 255, 7, 0x4800, true⟩, -- CAM_STREAM_FROZEN
  ⟨8, 255, 8, 0x0800, false⟩, -- CAM_STREAM_RECOVERED
  ⟨8, 255, 9, 0x0801, false⟩, -- CAM_FRAME_SKIP
  ⟨8, 255, 10, 0x5800, false⟩ -- CAM_LINK_LOST
  ]

/-- The event sources of class 0x09. -/
def eventsFn : List EvRow := [
  ⟨9, 255, 0, 0x7001, false⟩,
  ⟨9, 255, 1, 0x8001, false⟩,
  ⟨9, 255, 2, 0x7005, false⟩,
  ⟨9, 255, 3, 0x7003, false⟩,
  ⟨9, 255, 4, 0x7004, false⟩,
  ⟨9, 255, 5, 0x1300, true⟩, -- FN_SRAM_CORRECTED
  ⟨9, 255, 6, 0x2300, true⟩, -- FN_SOURCE_STALL
  ⟨9, 255, 7, 0x3300, true⟩, -- FN_WRITE_REFUSED
  ⟨9, 255, 8, 0x3301, true⟩, -- FN_SRAM_ERROR
  ⟨9, 255, 9, 0x0300, false⟩, -- FN_SLOT_SKIPPED
  ⟨9, 255, 10, 0x7300, false⟩ -- FN_DESC_INVALID
  ]

/-- The event sources of class 0x0A. -/
def eventsTr : List EvRow := [
  ⟨10, 0, 0, 0x7001, false⟩,
  ⟨10, 0, 1, 0x8001, false⟩,
  ⟨10, 0, 2, 0x7005, false⟩,
  ⟨10, 0, 3, 0x7003, false⟩,
  ⟨10, 0, 4, 0x7004, false⟩,
  ⟨10, 0, 5, 0x1A00, true⟩, -- TR_SRAM_CORRECTED
  ⟨10, 0, 6, 0x2A00, true⟩, -- TR_OVERRUN
  ⟨10, 0, 7, 0x2A01, false⟩, -- TR_TIME_SKIP
  ⟨10, 0, 8, 0x3A00, true⟩, -- TR_SRAM_ERROR
  ⟨10, 0, 9, 0x4A00, true⟩, -- TR_HOLD_ENTER
  ⟨10, 0, 10, 0x0A00, false⟩, -- TR_HOLD_EXIT
  ⟨10, 0, 11, 0x0A01, false⟩, -- TR_SATURATED
  ⟨10, 0, 12, 0x0A02, false⟩, -- TR_BANK_SWAPPED
  ⟨10, 0, 13, 0x7A00, false⟩, -- TR_CONFIG_REFUSED
  ⟨10, 1, 0, 0x7001, false⟩,
  ⟨10, 1, 1, 0x8001, false⟩,
  ⟨10, 1, 2, 0x7005, false⟩,
  ⟨10, 1, 3, 0x7003, false⟩,
  ⟨10, 1, 4, 0x7004, false⟩,
  ⟨10, 1, 5, 0x3A10, true⟩, -- ENC_INVALID
  ⟨10, 1, 6, 0x0A10, false⟩, -- ENC_REVALIDATED
  ⟨10, 1, 7, 0x3A11, true⟩, -- DIN_OVERRATE
  ⟨10, 1, 8, 0x3A12, true⟩, -- DIN_STUCK
  ⟨10, 1, 9, 0x0A11, false⟩, -- DIN_RECOVERED
  ⟨10, 1, 10, 0x3A13, true⟩, -- ADC_STALE
  ⟨10, 1, 11, 0x7A10, false⟩ -- TIO_CONFIG_REFUSED
  ]

/-- The event sources of class 0x0B. -/
def eventsCan : List EvRow := [
  ⟨11, 255, 0, 0x7001, false⟩,
  ⟨11, 255, 1, 0x8001, false⟩,
  ⟨11, 255, 2, 0x7005, false⟩,
  ⟨11, 255, 3, 0x7003, false⟩,
  ⟨11, 255, 4, 0x7004, false⟩,
  ⟨11, 255, 5, 0x5B00, false⟩, -- CAN_ERROR_PASSIVE
  ⟨11, 255, 6, 0x5B01, true⟩, -- CAN_BUS_OFF
  ⟨11, 255, 7, 0x0B00, false⟩, -- CAN_ERROR_ACTIVE
  ⟨11, 255, 8, 0x5B02, true⟩, -- CAN_TX_ABORTED
  ⟨11, 255, 9, 0x5B03, true⟩, -- CAN_PROTOCOL_ERROR
  ⟨11, 255, 10, 0x3B00, true⟩, -- CAN_RX_DROP
  ⟨11, 255, 11, 0x3B01, true⟩, -- CAN_TX_UNDERRUN
  ⟨11, 255, 12, 0x4B00, true⟩, -- CAN_STOP_RECEIVED
  ⟨11, 255, 13, 0x7B00, false⟩, -- CAN_JOB_TX_REFUSED
  ⟨11, 255, 14, 0x7B01, false⟩ -- CAN_CONFIG_REFUSED
  ]

/-- The event sources of class 0x0C. -/
def eventsSn : List EvRow := [
  ⟨12, 255, 0, 0x7001, false⟩,
  ⟨12, 255, 1, 0x8001, false⟩,
  ⟨12, 255, 2, 0x7005, false⟩,
  ⟨12, 255, 3, 0x7003, false⟩,
  ⟨12, 255, 4, 0x7004, false⟩,
  ⟨12, 255, 5, 0x1C00, true⟩, -- SN_SRAM_CORRECTED
  ⟨12, 255, 6, 0x4C00, true⟩, -- SN_DISAGREE
  ⟨12, 255, 7, 0x4C01, false⟩, -- SN_TRIP
  ⟨12, 255, 8, 0x4C02, false⟩, -- SN_LOCKSTEP
  ⟨12, 255, 9, 0x4C03, true⟩, -- SN_CMP_MISMATCH
  ⟨12, 255, 10, 0x4C04, true⟩, -- SN_ST_FAIL
  ⟨12, 255, 11, 0x4C05, false⟩, -- SN_ST_LATE
  ⟨12, 255, 12, 0x2C00, true⟩, -- SN_ST_ABORT
  ⟨12, 255, 13, 0x2C01, false⟩, -- SN_ST_STARVED
  ⟨12, 255, 14, 0x4C06, true⟩, -- SN_OUT_DISCREPANCY
  ⟨12, 255, 15, 0x0C00, false⟩, -- SN_ARMED
  ⟨12, 255, 16, 0x7C00, false⟩ -- SN_CMD_REFUSED
  ]

/-- The event sources of class 0x0D. -/
def eventsPwr : List EvRow := [
  ⟨13, 255, 0, 0x7001, false⟩,
  ⟨13, 255, 1, 0x8001, false⟩,
  ⟨13, 255, 2, 0x7005, false⟩,
  ⟨13, 255, 3, 0x7003, false⟩,
  ⟨13, 255, 4, 0x7004, false⟩,
  ⟨13, 255, 5, 0x6D00, false⟩, -- RES_EXCEEDED
  ⟨13, 255, 6, 0x6D01, false⟩, -- CAP_EXCEEDED
  ⟨13, 255, 7, 0x6D02, true⟩, -- MODEL_DIVERGENCE
  ⟨13, 255, 8, 0x0D00, false⟩, -- MODEL_RECONCILED
  ⟨13, 255, 9, 0x6D03, true⟩, -- REG_FAULT
  ⟨13, 255, 10, 0x6D04, true⟩, -- DROOP_THROTTLE
  ⟨13, 255, 11, 0x6D05, false⟩, -- THERMAL_THROTTLE
  ⟨13, 255, 12, 0x6D06, true⟩, -- THERMAL_EMERGENCY
  ⟨13, 255, 13, 0x4D00, false⟩, -- COOLANT_LOST
  ⟨13, 255, 14, 0x0D01, false⟩, -- COOLANT_RESTART
  ⟨13, 255, 15, 0x1D00, false⟩, -- FMAX_LOWERED
  ⟨13, 255, 16, 0x7D01, false⟩, -- VOLT_TABLE_INVALID
  ⟨13, 255, 17, 0x7D00, false⟩, -- PWR_CMD_REFUSED
  ⟨13, 255, 18, 0x0D02, false⟩ -- DOMAIN_STATE
  ]

/-- The event sources of class 0x0E. -/
def eventsHost : List EvRow := [
  ⟨14, 255, 0, 0x7001, false⟩,
  ⟨14, 255, 1, 0x8001, false⟩,
  ⟨14, 255, 2, 0x7005, false⟩,
  ⟨14, 255, 3, 0x7003, false⟩,
  ⟨14, 255, 4, 0x7004, false⟩,
  ⟨14, 255, 5, 0x8E00, true⟩, -- MACSEC_ICV_FAIL
  ⟨14, 255, 6, 0x8E01, false⟩, -- MACSEC_PN_LOW
  ⟨14, 255, 7, 0x5E00, true⟩, -- HOST_LINK_DOWN
  ⟨14, 255, 8, 0x0E00, false⟩, -- HOST_LINK_UP
  ⟨14, 255, 9, 0x2E00, true⟩, -- HOST_RATE_DROP
  ⟨14, 255, 10, 0x7E00, false⟩, -- HOST_PRIO_MISUSE
  ⟨14, 255, 11, 0x4E00, true⟩, -- HOST_STOP_RECEIVED
  ⟨14, 255, 12, 0x0E01, false⟩ -- HOST_SYNC
  ]

/-- The event sources of class 0x0F. -/
def eventsMg : List EvRow := [
  ⟨15, 0, 0, 0x7001, false⟩,
  ⟨15, 0, 1, 0x8001, false⟩,
  ⟨15, 0, 2, 0x7005, false⟩,
  ⟨15, 0, 3, 0x7003, false⟩,
  ⟨15, 0, 4, 0x7004, false⟩,
  ⟨15, 0, 5, 0x0F00, false⟩, -- UPDATE_DONE
  ⟨15, 0, 6, 0x7F00, true⟩, -- UPDATE_FAILED
  ⟨15, 0, 7, 0x7F01, false⟩, -- BOOT_FALLBACK
  ⟨15, 0, 8, 0x3F00, false⟩, -- SETTINGS_RECORD_BAD
  ⟨15, 0, 9, 0x1F00, false⟩, -- SETTINGS_COMPACTED
  ⟨15, 0, 10, 0x7F02, false⟩, -- JOB_REFUSED
  ⟨15, 1, 0, 0x7001, false⟩,
  ⟨15, 1, 1, 0x8001, false⟩,
  ⟨15, 1, 2, 0x7005, false⟩,
  ⟨15, 1, 3, 0x7003, false⟩,
  ⟨15, 1, 4, 0x7004, false⟩,
  ⟨15, 1, 5, 0x8F00, false⟩, -- IMAGE_REJECTED
  ⟨15, 1, 6, 0x8F01, false⟩, -- DEBUG_UNLOCKED
  ⟨15, 1, 7, 0x8F02, false⟩, -- DEBUG_LOCKED
  ⟨15, 1, 8, 0x8F03, false⟩, -- UNLOCK_REFUSED
  ⟨15, 1, 9, 0x8F04, false⟩, -- SVN_ADVANCED
  ⟨15, 1, 10, 0x8F05, false⟩, -- ATTEST_STATE
  ⟨15, 2, 0, 0x7001, false⟩,
  ⟨15, 2, 1, 0x8001, false⟩,
  ⟨15, 2, 2, 0x7005, false⟩,
  ⟨15, 2, 3, 0x7003, false⟩,
  ⟨15, 2, 4, 0x7004, false⟩,
  ⟨15, 2, 5, 0x3F10, true⟩, -- FL_ERROR
  ⟨15, 3, 0, 0x7001, false⟩,
  ⟨15, 3, 1, 0x8001, false⟩,
  ⟨15, 3, 2, 0x7005, false⟩,
  ⟨15, 3, 3, 0x7003, false⟩,
  ⟨15, 3, 4, 0x7004, false⟩
  ]

/-- The event sources of a class's pages. -/
def classEvents : Nat → List EvRow
  | 0 => eventsGlb
  | 1 => eventsIwl
  | 2 => eventsQl
  | 3 => eventsSpad
  | 4 => eventsMc
  | 5 => eventsRp
  | 6 => eventsQe
  | 7 => eventsCar
  | 8 => eventsCam
  | 9 => eventsFn
  | 10 => eventsTr
  | 11 => eventsCan
  | 12 => eventsSn
  | 13 => eventsPwr
  | 14 => eventsHost
  | 15 => eventsMg
  | _ => []

/-- How many instances of a block class the P48 has (01, table of blocks). -/
def classInstances : Nat → Nat
  | 0 => 1 | 1 => 48 | 2 => 192 | 3 => 48 | 4 => 8 | 5 => 6 | 6 => 1 | 7 => 1 | 8 => 12 | 9 => 1 | 10 => 2
  | 11 => 8 | 12 => 1 | 13 => 1 | 14 => 2 | 15 => 4 | _ => 0

/-- BLOCK_CAPS.event_count of a page (the event sections of 05 to 19; class 0x00: DEDUCED, log entry 8). -/
def eventCount (cls inst : Nat) : Nat :=
  match cls with
  | 0 => 7 | 1 => 6 | 2 => 17 | 3 => 13 | 4 => 13 | 5 => 18 | 6 => 32 | 7 => 13 | 8 => 11 | 9 => 11
  | 10 => if inst = 0 then 14 else 12
  | 11 => 15 | 12 => 17 | 13 => 19 | 14 => 13
  | 15 => if inst ≤ 1 then 11 else if inst = 2 then 6 else 5
  | _ => 0

/-- BLOCK_CAPS.block_caps of a page, as its chapter gives it; a Quill's is computed from QL_FREQ (05). -/
def blockCaps (cls inst : Nat) : Nat :=
  match cls with
  | 1 => 0x0008 | 3 => 0x0080 | 4 => 0x0040 | 5 => 0x0510 | 6 => 0x1000 | 7 => 0x0820 | 8 => 0x0010 | 9 => 0x000B
  | 10 => if inst = 0 then 0x0040 else 0xFBFF
  | 11 => 0x1040 | 12 => 0x0040 | 13 => 0x4005 | 14 => 0x0100 | _ => 0

/-- Index of the switched power domain that holds a block, 0xFF for the unswitched core (01 R24, 02 R43). -/
def blockDomain (cls inst : Nat) : Nat :=
  match cls with
  | 1 => inst | 2 => inst / 4 | 3 => 48 + inst
  | 4 => 96 + inst | 5 => 104 + inst
  | 7 => 110 | 8 => 110 | 9 => 111
  | _ => 0xFF

/-- The page offset of an instance's registers within the 16 MiB register region (02 R30). -/
def pageKey (cls inst : Nat) : Nat := cls * 0x100000 + inst * 0x1000

/-- The register row at an offset of an instance's page, if the block has a register there. -/
def regRow (cls inst off : Nat) : Option RegRow :=
  if off < 0x40 then regsCommon.find? (fun r => decide (r.lo = off))
  else (classRegs cls).find? (fun r => (r.inst == 255 || r.inst == inst) && decide (r.lo ≤ off) && decide (off ≤ r.hi) && decide (off % 4 = 0)
    && (!((cls == 5 || cls == 14) && decide (0x100 ≤ off)) || inst == 0))

/-- The reset value of the register at a key of the region; 0 where no register stands (02 R37: RSVD reads 0). -/
def regReset (key : Nat) : Word :=
  let cls := key / 0x100000
  let inst := key / 0x1000 % 0x100
  let off := key % 0x1000
  if off = 8 then (if cls = 0 ∨ cls = 15 then 1 else 0)
  else match regRow cls inst off with
    | some r => BitVec.ofNat 32 r.reset
    | none => 0

/-- The event source of a page at a bit, if the block implements one (02 R47). -/
def evRow (cls inst bit : Nat) : Option EvRow :=
  (classEvents cls).find? (fun e => (e.inst == 255 || e.inst == inst) && e.bit == bit)

/-- The bit of a page's source with a given code, 0 where there is none. -/
def evBit (cls inst code : Nat) : Nat :=
  match (classEvents cls).find? (fun e => (e.inst == 255 || e.inst == inst) && e.code == code) with
  | some e => e.bit
  | none => 0

end Sys2Proof.Machine
end

