-- ==== Sys2Proof/Machine/State.lean ====
section
/-! DEFINITION. The state of the P48: every register, table, queue, counter, mode and pin that spec/ gives it, as plain data; the
stops; and the state right after reset. Where a piece stands in spec/ is said at its field; INVENTORY.md lists them all. -/

namespace Sys2Proof.Machine

/-- How device time is being corrected (02 R54). -/
inductive Slew where
  | none | fast | slow
  deriving DecidableEq, Repr

/-- The clocks: model time, device time and the gPTP correction (02 R54, 18 R424). -/
structure TimeState where
  /-- Model time in thirds of a nanosecond; a mesh cycle is 2 (DESIGN CHOICE, log entry 2). -/
  clk : Nat
  /-- Device time in 1/6000 ns (DESIGN CHOICE, log entry 2). -/
  ticks : Nat
  /-- Ring time in 1/6000 ns (17 R405). -/
  ring : Nat
  slew : Slew
  /-- How long the present slew still lasts, thirds of a nanosecond. -/
  slewLeft : Nat
  /-- Last measured device time minus gPTP time, ns. -/
  offset : Int
  locked : Bool
  /-- Whether device time has been stepped to gPTP time since reset (R54: the first lock is always a step). -/
  everLocked : Bool
  /-- Model time of the last Sync. -/
  lastSync : Option Nat
  deriving DecidableEq, Repr

/-- Event bookkeeping (02 R46, R50, R51). -/
structure EvState where
  /-- Next sequence number (R50). -/
  next : Word
  /-- Records lost since the last EVENTS_LOST (R51). -/
  lostPending : Nat
  /-- Armed fault-mode injections: page number × 32 + bit (R46). -/
  armed : List Nat
  /-- Rate limits: model time of the last record of a key. -/
  rate : Tbl Nat
  /-- Occurrences since the last record of a rate-limited key. -/
  held : Tbl Nat
  deriving DecidableEq, Repr

/-- A queue descriptor (11 R252). -/
structure QDesc where
  base : Nat := 0
  sizeLog2 : Nat := 0
  enabled : Bool := false
  fixed : Bool := false
  consumer : Nat := 0
  drop : Bool := false
  pinned : Bool := false
  recordSize : Nat := 0
  wr : Nat := 0
  rd : Nat := 0
  res : Nat := 0
  notices : Nat := 0
  packets : Nat := 0
  jobMatch : Nat := 0
  jobMask : Nat := 0
  devMatch : Nat := 0
  devMask : Nat := 0
  reserve : Nat := 0
  sigJob : Nat := 0
  sigRank : Nat := 0
  sigSem : Nat := 0
  noticeMode : Nat := 0
  dropped : Nat := 0
  deriving DecidableEq, Repr

/-- A packet reserved in a queue and not yet passed by wr_ptr (11 R254 to R257). -/
structure Pkt where
  q : Nat
  /-- Pointer value at which it starts. -/
  ptr : Nat
  stride : Nat
  num : Nat
  pad : Bool
  complete : Bool
  len : Nat
  rtype : Nat
  /-- Producer's job, 0xFFFF for none. -/
  job : Nat
  /-- Producer's device. -/
  dev : Nat
  /-- Model time of the reservation. -/
  born : Nat
  /-- An injection abandons it (11 R271). -/
  doomed : Bool := false
  deriving DecidableEq, Repr

/-- A record in the staging buffer (11 R262, R268). -/
structure Staged where
  q : Nat
  rtype : Nat
  bytes : List Byte
  prio : Bool
  job : Nat
  /-- A job completion record, whose job ID stays in use (R268). -/
  compl : Bool
  deriving DecidableEq, Repr

/-- The producer of a visible record: queue, pointer of its packet, job, device. -/
structure QSrc where
  q : Nat
  ptr : Nat
  job : Nat
  dev : Nat
  deriving DecidableEq, Repr

/-- The queue engine (11). -/
structure QeState where
  /-- On-chip descriptor cache, most recently used first (R253). -/
  cache : List (Nat × QDesc)
  /-- Packets not yet visible, in reservation order. -/
  pkts : List Pkt
  /-- Quills blocked in QPOP: queue, global Quill; oldest first (R258). -/
  popWait : List (Nat × Nat)
  /-- Quills blocked in QPUSH: queue, global Quill; oldest first (R261). -/
  pushWait : List (Nat × Nat)
  staging : List Staged
  /-- STAGING_FULL holds (R262). -/
  stFull : Bool
  /-- Queues whose QUEUE_FULL has been raised and not re-armed (R261). -/
  fullLatch : List Nat
  /-- Producers of the visible records of device engines' queues (11 R252 consumer 4; 15 R346). -/
  srcs : List QSrc
  /-- Queues whose consumer is 3, of which at most 256 may be configured (R266). -/
  adm : List Nat
  deriving DecidableEq, Repr

/-- The states of a job (01, table of job states). -/
inductive JobPhase where
  /-- DONE with a completion record still held in the staging buffer: the ID stays in use (11 R262, R268). -/
  | queued | admitted | running | scrubbing | held
  deriving DecidableEq, Repr

/-- A job descriptor's fields (01 R17, 11 R266). -/
structure JobDesc where
  id : Nat
  prio : Nat
  safety : Bool
  det : Bool
  power : Nat
  memShare : Nat
  prog : Nat
  bindAddr : Nat
  bindCount : Nat
  complQ : Nat
  chainQ : Nat
  chainCount : Nat
  /-- Global Quill indices of quill_mask_a and quill_mask_b, rising. -/
  quillsA : List Nat
  quillsB : List Nat
  deriving DecidableEq, Repr

/-- A job known to the management controller, with its accounts (01, 03 R78, 06 R153, 11 R267, 16 R379). -/
structure JobRec where
  d : JobDesc
  /-- Command queue it came from, and its place among all descriptors read (R19). -/
  cmdQ : Nat
  arrival : Nat
  phase : JobPhase
  /-- Completion status so far (R268). -/
  status : Nat
  numeric : Nat
  timingEx : Bool
  exCause : Nat
  throttleNs : Nat
  refreshDef : Nat
  retryFlits : Nat
  start : Nat
  /-- Tally energy, nJ. -/
  energy : Nat
  unrec : Bool
  chainSample : Nat
  evSeq : Nat
  /-- The copies in every Inkwell are validated (05 R115). -/
  validated : Bool
  /-- Slot positions of a deterministic job (06 R149, 10 R241). -/
  slots : List Nat
  /-- Device times at which the last Quill of copy A and of copy B ended (15 R356). -/
  endA : Option Nat
  endB : Option Nat
  /-- The outputs of the two copies have been compared (15 R356). -/
  compared : Bool
  /-- The program area in each Inkwell: Inkwell, first 4 KiB unit, units (05 R115, 09 R218). -/
  areas : List (Nat × Nat × Nat)
  /-- Where its completion record, staged before, stands in its queue until it has been read: queue, pointer of its packet (11 R268). -/
  heldAt : Option (Nat × Nat) := none
  /-- Partial words that its exact operations have written: copy, binding, the exponent L of their unit (03 R70; DEDUCED, log entry 54). -/
  partials : List (Bool × Nat × Int) := []
  deriving DecidableEq, Repr

/-- A Quill's state (05 QL_STATE). -/
inductive QuillState where
  | free | loading | running | waiting | stopping | withdrawn
  deriving DecidableEq, Repr

/-- A loop being run (05 R115, R116). -/
structure LoopFrame where
  first : Nat
  len : Nat
  total : Nat
  index : Nat
  deriving DecidableEq, Repr

/-- What a finished pass holds for one output element (05 R107). -/
inductive OutVal where
  | acc (a : Acc)
  | f32 (bits : Nat)
  /-- An element already in the output format. -/
  | elem (bits : Nat)
  deriving DecidableEq, Repr

/-- One output element waiting to drain: its element offset in agp_c's binding, channel, row and column. -/
structure OutElem where
  agp : Nat
  off : Int
  chan : Nat
  row : Nat
  col : Nat
  v : OutVal
  deriving DecidableEq, Repr

/-- A tensor operation in flight (05 R123). -/
structure OpRun where
  index : Nat
  /-- Its descriptor's index in the image. -/
  desc : Nat
  tod : Tod
  /-- Loop indices and scalar registers at issue (R119). -/
  loops : List Nat
  scs : List Word
  /-- The passes have run and `outs` waits to drain (R109). -/
  ran : Bool
  outs : List OutElem
  /-- The units 2^L of exact results (03 R65). -/
  unit : Int
  /-- Ticket held by an attention launch (07 R172). -/
  ticket : Option Nat
  /-- Place among everything the Quill issued (R123). -/
  issue : Nat
  /-- Its outputs have been written or sent; it stays until the ring has answered. -/
  drained : Bool
  /-- For the events at its end (03 R79): output elements with a nonfinite input, the Nib of the first; saturated contributions,
  the group, sign and Nib of the first; whether each was injected. -/
  nf : Nat
  nfNib : Nat
  sat : Nat
  satGroup : Nat
  satNeg : Bool
  satNib : Nat
  nfInj : Bool
  satInj : Bool
  deriving DecidableEq, Repr

/-- A semaphore signal not yet released (05 R125): issue number, remote, device, job, rank, semaphore, count. -/
structure Signal where
  issue : Nat
  remote : Bool
  dev : Nat
  job : Nat
  rank : Nat
  sem : Nat
  count : Nat
  deriving DecidableEq, Repr

/-- A Quill: sequencer, scalar registers, semaphores, Nibs (05 R107 to R139). -/
structure Quill where
  job : Nat
  copyB : Bool
  det : Bool
  rank : Nat
  count : Nat
  st : QuillState
  wait : Nat
  waitStart : Nat
  pc : Nat
  loops : List LoopFrame
  sc : Tbl Word
  sem : Tbl Nat
  opIndex : Nat
  ops : List OpRun
  waitLimit : Nat
  ended : Bool
  /-- Set until the wave of R155 starts the Quill: the time of its next issue. -/
  startAt : Option Nat
  /-- MACs per cycle of the operation in progress or the last one, ×16 Nibs (R139). -/
  capRate : Nat
  /-- Fraction of a clock cycle owed to QL_CAP, in 1/6000 cycles. -/
  capRem : Nat
  fmax : Nat
  mhz : Nat
  failed : Nat
  spared : Nat
  nsInUse : Bool
  nsFailed : Bool
  sparePending : Bool
  /-- The Quill is withdrawn (R137). -/
  withdrawn : Bool
  /-- Operations, DMAs and signals issued since the program started (R123, R125). -/
  issued : Nat
  /-- Signals waiting for the Quill's earlier writes (R125). -/
  sigs : List Signal
  /-- The Quill has arrived at the barrier it waits in (R127). -/
  arrived : Bool
  /-- The answer of the remote atomic it waits for: status, old value, event (R490). -/
  atomic : Option (Nat × Nat × Nat)
  /-- Model time at which it last became free (16 R389). -/
  freed : Nat
  /-- Model time at which its job took it (15 R358). -/
  taken : Nat := 0
  /-- It waits, or has waited, for what another party decides: it resumes at a rotation boundary where its job is deterministic (06 R148; 10 R243). -/
  ext : Bool
  /-- For the Quill of rank 0 of copy A: the length of the emergency throttles that its job has run through, thirds of a ns (06 R153; 16 R377). -/
  throttle : Nat
  deriving DecidableEq, Repr

/-- A Quill as reset leaves it. -/
def Quill.init : Quill :=
  { job := 0xFFFF, copyB := false, det := false, rank := 0, count := 0, st := .free, wait := 0, waitStart := 0, pc := 0,
    loops := [], sc := [], sem := [], opIndex := 0, ops := [], waitLimit := 1000000, ended := false, startAt := none,
    capRate := 4096, capRem := 0, fmax := 1500, mhz := 1500, failed := 0, spared := 0, nsInUse := false, nsFailed := false,
    sparePending := false, withdrawn := false, issued := 0, sigs := [], arrived := false, atomic := none, freed := 0, ext := false, throttle := 0 }

/-- A DMA queued on a channel (05 R128). -/
structure DmaReq where
  quill : Nat
  job : Nat
  src : Nat
  dst : Nat
  noFail : Bool
  notify : Bool
  queue : Nat
  statusSc : Nat
  seq : Nat
  loops : List Nat
  scs : List Word
  issue : Nat
  /-- Its remote writes are sent, and their bytes. -/
  sent : Bool
  moved : Nat
  /-- First error the ring has answered: status, cause, destination bytes accepted before it, event. -/
  err : Option (Nat × Nat × Nat × Nat)
  deriving DecidableEq, Repr

/-- A router DMA channel (05 R128). -/
structure DmaChan where
  reqs : List DmaReq
  seq : Nat
  err : Bool
  deriving DecidableEq, Repr

/-- A local barrier instance with arrivals (06 R154): job, copy, arrived Quills, time of the last arrival. -/
structure BarrierInst where
  job : Nat
  copyB : Bool
  /-- 0 local, 1 cross-device. -/
  scope : Nat
  group : Nat
  arrived : List Nat
  last : Nat
  /-- The local arrival has been reported to the group's root (06 R156). -/
  told : Bool
  deriving DecidableEq, Repr

/-- A barrier group entry (06 R157). -/
structure BarrierGroup where
  group : Nat
  root : Nat
  dNs : Nat
  members : List (Nat × Nat)
  /-- At the root: members whose arrivals have come, and the release time once fixed; per copy. -/
  arrivedA : List Nat
  arrivedB : List Nat
  /-- Ring time at which this member releases, per copy (R156). -/
  releaseA : Option Nat
  releaseB : Option Nat
  deriving DecidableEq, Repr

/-- A scratchpad window entry's state (09 R220). -/
inductive WinState where
  | free | opened | closedPower | closed
  deriving DecidableEq, Repr

/-- A scratchpad window entry (09 R220). -/
structure Window where
  base : Nat := 0
  length : Nat := 0
  owner : Nat := 0
  read : Bool := false
  write : Bool := false
  atomic : Bool := false
  state : WinState := .free
  clsJob : Bool := false
  clsHost : Bool := false
  clsScribe : Bool := false
  clsCarousel : Bool := false
  clsFine : Bool := false
  devMatch : Nat := 0
  devMask : Nat := 0
  jobMatch : Nat := 0
  jobMask : Nat := 0
  expiry : Nat := 0
  refused : Nat := 0
  /-- Its owner has left ADMITTED and RUNNING: the entry becomes FREE once that job's lines are filled (R224). -/
  gone : Bool := false
  deriving DecidableEq, Repr

/-- A scratchpad bank's power state (09 R225). -/
inductive BankState where
  | on | draining | off | waking
  deriving DecidableEq, Repr

/-- A scratchpad bank: power state, a held request with its job, time of entry (09 R225). -/
structure Bank where
  st : BankState := .on
  heldOp : Bool := false
  req : Nat := 0xFFFF
  since : Nat := 0
  /-- Scrubber position in words, and passes completed (R231). -/
  pos : Nat := 0
  passes : Nat := 0
  spares : Nat := 32
  retired : Bool := false
  deriving DecidableEq, Repr

/-- An Inkwell's scratchpad controller (09). -/
structure Spad where
  wins : Tbl Window := []
  banks : Tbl Bank := []
  /-- Shares (Quill 0 to 3) awaiting zero-fill, and those whose fill is held (R227, R229). -/
  pendShares : List Nat := []
  heldShares : List Nat := []
  /-- Program units awaiting zero-fill (R227); R229 holds the fill of shares only, so the second list stays empty. -/
  pendUnits : List Nat := []
  heldUnits : List Nat := []
  /-- Words (Inkwell offset) holding a single-bit error with its bit, and words holding a double-bit error (R230). -/
  single : List (Nat × Nat) := []
  double : List Nat := []
  /-- Corrected words waiting for write-back (R230). -/
  wb : List Nat := []
  /-- Rows (bank × 8192 + row) in which a scrub pass corrected an error, with the pass (R232). -/
  rowsHit : List (Nat × Nat) := []
  /-- Rows remapped to a spare (R232). -/
  spared : List Nat := []
  /-- Words whose error an injection put there, so that its events carry payload bit [95] (02 R46). -/
  planted : List Nat := []
  /-- The last write: its mesh cycle, first offset and bytes (R231). -/
  lastWr : Option (Nat × Nat × Nat) := none
  deriving DecidableEq, Repr

/-- An entry of the checker's overflow log (15 R354): a log record or an event record with its sequence number. -/
structure OvfEntry where
  isLog : Bool
  bytes : List Byte
  deriving DecidableEq, Repr

/-- A record of copy B in the twin buffer, or one of copy A waiting for its twin (15 R350). -/
structure Twin where
  job : Nat
  copyB : Bool
  bytes : List Byte
  /-- Model time of its arrival. -/
  born : Nat
  deriving DecidableEq, Repr

/-- What the checker holds of a Tightrope slot (15 R345, R349, R352): last plausible words, which words have one, sequence number last
judged, consecutive disagreements, outcomes of the last judgments, newest first (true: a disagreement). -/
structure SnSlot where
  last : Tbl Word := []
  has : Nat := 0
  lastSeq : Option Nat := none
  consec : Nat := 0
  outcomes : List Bool := []
  deriving DecidableEq, Repr

/-- A record whose twin is still to come and will not be judged (15 R350): slot, seq, the copy that is to come, whether it is logged, and
the model time up to which it is meant. -/
structure GoneTwin where
  slot : Nat
  seq : Nat
  copyB : Bool
  log : Bool
  until_ : Option Nat
  deriving DecidableEq, Repr

/-- The safety checker (15). -/
structure SnState where
  /-- The commanded level of SAFE_OUT: true while permission is given (R339, R340). -/
  safeOut : Bool
  /-- The cores run: neither before their start nor in reset (R341). -/
  up : Bool
  ovf : List OvfEntry
  /-- Words of the overflow log read through SN_LOG_READ (R354). -/
  logPos : Nat
  twins : List Twin
  gone : List GoneTwin
  /-- Tables 0 to 3, by index (R347, R348, R357, R359). -/
  slots : Tbl (List Byte)
  rules : Tbl (List Byte)
  streams : Tbl (List Byte)
  windows : Tbl (List Byte)
  hist : Tbl SnSlot
  /-- The last frames of each stream, newest first: sample ID, fs_time, frozen (R357). -/
  frames : Tbl (List (Nat × Nat × Bool))
  /-- Self-test (R358 to R360): slices left in the cycle, item and unit, in order; model time of the cycle's start; the slice that runs:
  item, unit, start; whether a cycle has passed; cycles in a row in which a slice was skipped, by item × 1,024 + unit. -/
  stLeft : List (Nat × Nat)
  stStart : Nat
  stRun : Option (Nat × Nat × Nat)
  /-- fault_allow was last set by the checker, which clears it at the end of the slice (02 R55). -/
  allowSet : Bool
  stDone : Bool
  skipped : Tbl Nat
  deriving DecidableEq, Repr

/-- The checker as reset leaves it. -/
def SnState.init : SnState :=
  { safeOut := false, up := false, ovf := [], logPos := 0, twins := [], gone := [], slots := [], rules := [], streams := [], windows := [], hist := []
    frames := [], stLeft := [], stStart := 0, stRun := none, allowSet := false, stDone := false, skipped := [] }


/-- A memory controller and its stack (10). -/
structure Mc where
  /-- Self-refresh is active (R250). -/
  selfRef : Bool := false
  /-- The start-up fill of R249 step 4 is running. -/
  filling : Bool := false
  /-- Blocks (address / 64) holding a correctable error with its byte, 64 to 67 for a check byte, and blocks that are uncorrectable (R237, R240). -/
  single : List (Nat × Nat) := []
  bad : List Nat := []
  /-- Write-back buffer: corrected blocks (R239). -/
  wb : List Nat := []
  /-- Rows (bank index × 65,536 + row) in which a patrol pass corrected an error, with the pass (R248). -/
  rowsHit : List (Nat × Nat) := []
  /-- Spare rows left per bank index, and the last row spared (R248). -/
  spares : Tbl Nat := []
  lastRow : Tbl Nat := []
  spared : List Nat := []
  /-- Rows being copied to a spare (R248). -/
  copying : List Nat := []
  /-- Patrol position in units, and passes completed. -/
  patrol : Nat := 0
  /-- Outstanding delay per channel, ns, and postponed refreshes per bank index (R245). -/
  delay : Tbl Nat := []
  postponed : Tbl Nat := []
  /-- The valid training record that the memory settings hold: the stack's serial and its temperature, a signed byte, at training; and whether a
  restore from it has failed since reset (R249). -/
  trainRec : Option (Nat × Nat) := none
  restoreFailed : Bool := false
  /-- Units with an uncorrectable block found, and their blocks not written since (R248). -/
  badRows : List (Nat × List Nat) := []
  /-- Model time of the last refresh by bank index, and the ring time in ns at which it leaves the bank (R245). -/
  refreshed : Tbl Nat := []
  refEnd : Tbl Nat := []
  /-- Start, in ns of ring time, of the last slot of each channel, and the bank indices it used (R245). -/
  lastSlot : Tbl (Nat × List Nat) := []
  /-- Writes of parts of blocks that have been read and wait for the next slot of their owner: owner, address, data (R238). -/
  pend : List (MemWho × Nat × List Byte) := []
  /-- Blocks whose error an injection put there, so that its events carry payload bit [95] (02 R46). -/
  planted : List Nat := []
  /-- Rows whose sparing MC_SPARE_SEL.force asked for and that is not done (R248). -/
  forced : List Nat := []
  /-- Model time at which the last patrol read was due (R248). -/
  patrolAt : Nat := 0
  deriving DecidableEq, Repr

/-- What an outstanding ring request was made for (17 R397). -/
inductive ReqUse where
  /-- A tensor operation of a Quill, by issue number. -/
  | op (q issue : Nat)
  /-- A DMA on a channel, by issue number. -/
  | dma (k issue : Nat)
  /-- A Quill's atomic. -/
  | atomic (q : Nat)
  /-- A semaphore signal, or a queue record's bytes, of a job. -/
  | signal
  /-- A queue operation of a Quill. -/
  | queue (q : Nat)
  /-- A host command: port and command sequence number. -/
  | host (port seq : Nat)
  /-- The small convolution engine's output. -/
  | fine
  /-- A register access that the manager makes for itself. -/
  | manager
  deriving DecidableEq, Repr

/-- A request of R397 that expects a response (17 R407). -/
structure RingReq where
  tag : Nat
  dst : Nat
  /-- Packet opcode of R397. -/
  op : Nat
  job : Nat
  addr : Nat
  len : Nat
  data : List Byte
  use : ReqUse
  /-- Bytes that come before it in its transfer. -/
  pos : Nat
  /-- Model time at which it was sent. -/
  born : Nat
  deriving DecidableEq, Repr

/-- A packet that the device sends on VC 0 or as a link flit: opcode, target, and its words (17 R396, R397). -/
structure SentPkt where
  op : Nat
  dst : Nat
  words : List Nat
  deriving DecidableEq, Repr

/-- A deterministic slot entry of a port (17 R401). -/
structure DetEntry where
  valid : Bool := false
  origin : Nat := 0
  job : Nat := 0
  mask : Nat := 0
  deriving DecidableEq, Repr

/-- A sequenced flit in a replay buffer (17 R394, R402): sequence number, VC, job of its packet. -/
structure Flit where
  seq : Nat
  vc : Nat
  job : Nat
  deriving DecidableEq, Repr

/-- A ring port (17). -/
structure Port where
  /-- Next sequence number to send, and last one received in order. -/
  txSeq : Nat := 0
  rxSeq : Nat := 16383
  /-- The receiver's next flit carries nak (R402). -/
  nak : Bool := false
  replay : List Flit := []
  /-- Flits that wait for a credit, for room in the replay buffer or for the end of a retrain (R396, R402, R403). -/
  waiting : List Flit := []
  /-- Sequence number last asked for by naks, and how many asked without progress (R403). -/
  nakSeq : Nat := 0
  nakCount : Nat := 0
  /-- Model times of the retrains of the last second (R403). -/
  retrains : List Nat := []
  /-- Credits taken and not yet returned, per VC (R396). -/
  used : Tbl Nat := []
  det : Tbl DetEntry := []
  /-- Lane that L4 shadows (R393). -/
  shadow : Nat := 0
  /-- Corrected symbols per lane in the present second, and when it began (R393). -/
  symbols : Tbl Nat := []
  symSince : Nat := 0
  /-- Model time since which L4 shadows its lane (R393). -/
  shadowAt : Nat := 0
  /-- A lane switch awaits the lane-swap flit: lane (R393). -/
  swap : Option Nat := none
  /-- Flits still to drop, to corrupt and to send in swapped order (R416). -/
  drop : Nat := 0
  corrupt : Nat := 0
  reorder : Nat := 0
  /-- One-way delay, ps (R405). -/
  delayPs : Nat := 0
  /-- Peer's die identity (R409). -/
  peerDie : Nat := 0
  deriving DecidableEq, Repr

/-- What the device knows of another device of the torus (17 RING_PEER_STATE). -/
structure Peer where
  present : Bool := false
  fenced : Bool := false
  unreachable : Bool := false
  reason : Nat := 0
  deriving DecidableEq, Repr

/-- A device that answered DISCOVER (17 R409): die identity, manager strap, and for each port link state and peer identity and port. -/
structure Found where
  die : Nat
  manager : Bool
  ports : List (Bool × Nat × Nat)
  deriving DecidableEq, Repr

/-- The ring (17). -/
structure RingState where
  ports : Tbl Port
  reqs : List RingReq
  nextTag : Nat
  /-- Bytes that read responses brought for a request's purpose, by global address. -/
  bufs : List (ReqUse × Tbl Byte)
  /-- Links marked down in the route table: device, port (R404). -/
  down : List (Nat × Nat)
  peers : Tbl Peer
  /-- Packets on VC 0 sent by the device and not answered, newest first; what leaves the device (R396). -/
  sent : List SentPkt
  /-- Enumeration: running on the manager; answers found (R409). -/
  enumOn : Bool
  found : List Found
  /-- Devices placed: die identity and ID (R409, R411). -/
  placed : List (Nat × Nat)
  /-- Model time of the last DISCOVER that the manager sent (R411). -/
  discAt : Nat
  /-- DISCOVER rounds answered, and whether any has come (R408, R409). -/
  discovers : Nat
  /-- Model time at which the first link came up, and whether cause 6 has been raised (R408). -/
  firstUp : Option Nat
  noManager : Bool
  /-- Model time of the last time sync (R407). -/
  lastSync : Option Nat
  /-- A fault beyond sparing waits for DEVICE_FENCE: its reason (R412). -/
  fenceDue : Option Nat
  /-- The event sequence number of DEVICE_FENCED (11 R267). -/
  fenceSeq : Nat
  deriving DecidableEq, Repr

/-- The ring as reset leaves it. -/
def RingState.init : RingState :=
  { ports := [], reqs := [], nextTag := 0, bufs := [], down := [], peers := [], sent := [], enumOn := false, found := [], placed := [], discAt := 0, discovers := 0,
    firstUp := none, noManager := false, lastSync := none, fenceDue := none, fenceSeq := 0 }

/-- A Quill's Nib map, as persistent settings keep it (05 QL_NIB_MAP, R136). -/
structure NibMap where
  failed : Nat
  spared : Nat
  nsInUse : Bool
  nsFailed : Bool
  withdrawn : Bool
  deriving DecidableEq, Repr

/-- What a settings record holds (19 R454). The records whose layout the spec does not give hold their content as data. -/
inductive SetBody where
  /-- A record staged by the host or held since manufacture, byte by byte. -/
  | bytes (l : List Byte)
  /-- Kind 3: a stack is trained, with its serial number and temperature. -/
  | train (mc serial temp : Nat)
  /-- Kind 4: a Quill's Nib map; an Inkwell's spared rows; a controller's spared rows; a port's lane map. -/
  | nibs (q : Nat) (m : NibMap)
  | spadRows (n : Nat) (rows : List Nat)
  | mcRows (n : Nat) (rows : List Nat)
  | lanes (p : Nat) (word : Nat)
  /-- Kind 6: a Quill's fmax, and guard_mv. -/
  | fmax (q mhz : Nat)
  | guard (mv : Nat)
  /-- Kind 8: the boot count. -/
  | boots (n : Nat)
  deriving DecidableEq, Repr

/-- A settings record (19 R453): kind, auth, serial number, body, whether it is committed and its authenticator held when it was last checked. -/
structure SetRec where
  kind : Nat
  auth : Nat
  seq : Nat
  body : SetBody
  valid : Bool
  /-- The whole record as the host staged it; nothing for one that the device makes. -/
  raw : List Byte := []
  /-- The authenticator of one that the device made or that was made with it. -/
  sig : List Byte := []
  deriving DecidableEq, Repr

/-- Persistent settings (19 R453 to R455). -/
structure SetState where
  /-- Records of the current bank, oldest first. -/
  recs : List SetRec
  /-- Records asked for and not yet written, in order. -/
  waiting : List SetRec
  /-- A compaction is in progress. -/
  compacting : Bool
  generation : Nat
  deriving DecidableEq, Repr

/-- Settings of a device as made: none. -/
def SetState.init : SetState := { recs := [], waiting := [], compacting := false, generation := 1 }
/-- What holds an epoch ticket (07 R172): a launch, by the number in its operation; a Re-ink of a Folio to a slot, with its job. -/
inductive TicketUse where
  | launch (n : Nat)
  | reink (folio slot job : Nat)
  deriving DecidableEq, Repr

/-- A snapshot of a context: ID, length, reserved_length (07 R172). -/
structure CtxSnap where
  ctx : Nat
  len : Nat
  reserved : Nat
  /-- The page-table entries below it in the launch's layer: address, Folio, whether that was LIVE or REINK; kept up with copies (R175). -/
  entries : List (Nat × Nat × Bool) := []
  deriving DecidableEq, Repr

/-- An occupied ticket slot (07 R172). -/
structure Ticket where
  use : TicketUse
  epoch : Nat
  snaps : List CtxSnap
  deriving DecidableEq, Repr

/-- The context cache manager (07 R160 to R176, R190). -/
structure CcState where
  /-- Free lists, head first, and limbo lists with stamps. -/
  freeFolios : List Nat
  freeSlots : List Nat
  limboFolios : List (Nat × Nat)
  limboSlots : List (Nat × Nat)
  limboCtxs : List (Nat × Nat)
  tickets : List Ticket
  epoch : Nat
  advance : Bool
  /-- The epoch is held, and EPOCH_HELD has been raised (R174). -/
  held : Bool
  /-- Numbers given to launches. -/
  launches : Nat
  /-- Quills whose launch waits for a ticket (R172). -/
  waiting : List Nat
  /-- Re-inks begun and not ended: Folio and slot (R190). -/
  reinks : List (Nat × Nat)
  deriving DecidableEq, Repr

/-- The manager as reset leaves it. -/
def CcState.init : CcState :=
  { freeFolios := [], freeSlots := [], limboFolios := [], limboSlots := [], limboCtxs := [], tickets := [], epoch := 0, advance := false, held := false,
    launches := 0, waiting := [], reinks := [] }

/-- A frame being received (12 R273 to R277): sample ID, device time of Frame Start, number, lines, running CRCs, corrupt cause, flags. -/
structure CamFrame where
  id : Nat
  fsTime : Nat
  number : Nat
  lines : Nat
  fcrc : Nat
  scrc : Nat
  cause : Nat
  stalled : Bool
  advances : Bool
  skip : Bool
  deriving DecidableEq, Repr

/-- A virtual channel of a receiver (12 R274, R276). -/
structure CamVc where
  cur : Option CamFrame := none
  number : Nat := 0
  crcs : Option (Nat × Nat) := none
  run : Nat := 1
  frozen : Bool := false
  deriving DecidableEq, Repr

/-- A stream entry (12 R278): its 44 configured bytes, whether it runs, frame sequence, running mean. -/
structure CarStream where
  cfg : List Byte := [0, 0, 0, 0, 0, 0, 8] ++ List.replicate 37 0
  running : Bool := false
  seq : Nat := 0
  mean : Nat := 0
  deriving DecidableEq, Repr

/-- A sample in progress (12 R280 to R290). -/
structure CarSample where
  id : Nat
  stream : Nat
  /-- Device time of its start, and its deadline. -/
  start : Nat
  deadline : Option Nat
  /-- Batch number and slot it is assigned to. -/
  slot : Option (Nat × Nat)
  /-- It was overdue and deferred. -/
  late : Bool
  /-- It is missing, and only its frame is still coming (R290). -/
  gone : Bool
  /-- Every source row is there. -/
  ready : Bool
  /-- Source record of a memory sample; rows of a camera sample. -/
  src : List Byte
  rows : List (List Byte)
  deriving DecidableEq, Repr

/-- A slot of a batch (12 R285, R286): sample and stream, status once resolved, cause, whether a substitute may come. -/
structure CarSlot where
  sample : Option (Nat × Nat) := none
  status : Option Nat := none
  cause : Nat := 0
  sub : Bool := false
  deriving DecidableEq, Repr

/-- A batch not yet issued (12 R285). -/
structure CarBatch where
  number : Nat
  buffer : Nat
  slots : List CarSlot
  /-- Device time of its first assignment. -/
  opened : Nat
  /-- It takes no more samples. -/
  closed : Bool
  flags : Nat
  deriving DecidableEq, Repr

/-- A batch group (12 R283): its 32 configured bytes, state (0 STOPPED, 1 RUNNING, 2 HALTED), next batch number, batches, prepared
buffers with their records, whether CAR_LOW_WATER may be raised. -/
structure CarGroup where
  cfg : List Byte := List.replicate 32 0
  st : Nat := 0
  next : Nat := 0
  batches : List CarBatch := []
  prepared : List (Nat × List Byte) := []
  lowArmed : Bool := false
  deriving DecidableEq, Repr

/-- What a stream holds for the small convolution engine (12 R292): sample, whether it is usable, and for each written scale its number,
height, width, channels and codes. -/
structure CarFeed where
  stream : Nat
  id : Nat
  ok : Bool
  scales : List (Nat × Nat × Nat × Nat × List Nat)
  deriving DecidableEq, Repr

/-- Camera receivers and Carousel (12). -/
structure CarState where
  /-- By receiver × 16 + virtual channel. -/
  vcs : Tbl CamVc
  /-- Receivers whose D-PHY clock lane is active. -/
  phy : List Nat
  streams : Tbl CarStream
  groups : Tbl CarGroup
  samples : List CarSample
  feeds : List CarFeed
  deriving DecidableEq, Repr

/-- Carousel as reset leaves it. -/
def CarState.init : CarState := { vcs := [], phy := [], streams := [], groups := [], samples := [], feeds := [] }

/-- A layer in progress in the small convolution engine (08 R211): descriptor, its queue position, producer, start. -/
structure FnRun where
  desc : List Byte
  pos : Nat
  start : Nat
  /-- Model time at which the last source row of its stream arrived, or of its start (08 R215). -/
  rowAt : Nat
  /-- Its outputs are on their way to another device; pixels among them; first refusal the ring answered. -/
  sent : Bool
  pixels : Nat
  refused : Bool
  deriving DecidableEq, Repr

/-- The small convolution engine (08): the layer, and descriptors taken so far. -/
structure FnState where
  cur : Option FnRun
  taken : Nat
  deriving DecidableEq, Repr

/-- The engine as reset leaves it. -/
def FnState.init : FnState := { cur := none, taken := 0 }

/-- The peer of a port, or the sender of a frame (18 R425, R432): MAC address, IPv4 address and UDP port (0 where raw), 802.1Q tag (0: none). -/
structure HostPeer where
  mac : Nat
  ip : Nat
  udp : Nat
  tag : Nat
  deriving DecidableEq, Repr

/-- A PDU that the device sends: port, address, kind, session, seq, opcode, status, orig_status, ack, PCP, payload (18 R426); AN and
PN of a protected frame (R421). An answer to ARP has kind 9, a gPTP frame kind 10. -/
structure HostPdu where
  port : Nat
  dst : HostPeer
  kind : Nat
  session : Nat
  seq : Nat
  op : Nat
  status : Nat
  orig : Nat
  ack : Nat
  pcp : Nat
  payload : List Byte
  sec : Option (Nat × Nat) := none
  deriving DecidableEq, Repr

/-- Delivery of a consumer-1 queue (18 R433): pointer of the next record to deliver, records delivered and not acknowledged, model time
at which the window last moved. -/
structure Dlv where
  ptr : Nat
  count : Nat
  moved : Nat
  deriving DecidableEq, Repr

/-- A CCP command in a receive buffer: port, sender, bytes of its frame, its PDU (18 R420, R426). -/
structure HostCmd where
  port : Nat
  src : HostPeer
  len : Nat
  pdu : List Byte
  deriving DecidableEq, Repr

/-- A port's MACsec state (18 R421, R423): lowest acceptable PN of each installed receive AN, SAKs of receive ANs, the receive AN last seen, SAKs of transmit ANs. -/
structure HostSecY where
  rx : Tbl Nat := []
  keys : Tbl (List Byte) := []
  last : Option Nat := none
  tx : Tbl (List Byte) := []
  deriving DecidableEq, Repr

/-- A port's transmit side (18 R441): frames that wait, in the order in which they will leave, each with its rank and the model time at which it was
formed; the model time at which the line is free. -/
structure HostLine where
  queue : List (Nat × Nat × HostPdu) := []
  free : Nat := 0
  deriving DecidableEq, Repr

/-- The host interface (18). -/
structure HostState where
  peers : Tbl HostPeer
  dlv : Tbl Dlv
  /-- PDUs whose transmission has begun, newest first; what leaves the device. -/
  sent : List HostPdu
  /-- Frames in the priority buffers and in the data FIFOs of both ports, in order of arrival (R420, R428). -/
  prio : List HostCmd
  data : List HostCmd
  /-- Accepted and not executed, the oldest first, with whether it waits for the ring; the last 256 accepted that have executed, newest
  first: number and status (R428, R430). -/
  accepted : List (HostCmd × Bool)
  done : List (Nat × Nat)
  /-- Tokens of a port, in 1/3,000 bit, and the model time at which they were counted; full where none (R440). -/
  tokens : Tbl (Nat × Nat)
  secys : Tbl HostSecY
  lines : Tbl HostLine
  /-- Port of the last CCP register command: the block that received it (02 R31). -/
  regPort : Nat
  deriving DecidableEq, Repr

/-- The host interface as reset leaves it. -/
def HostState.init : HostState :=
  { peers := [], dlv := [], sent := [], prio := [], data := [], accepted := [], done := [], tokens := [], secys := [], lines := [], regPort := 0 }


/-- A rail's latest reading (16 R364): mV, mW, model time; none before the first. -/
structure PwrRail where
  mv : Nat := 0
  mw : Nat := 0
  read : Option Nat := none
  missing : Bool := false
  deriving DecidableEq, Repr

/-- A throttle or emergency episode in progress (16 R376, R384): level (droop 1 or 2; 3 thermal emergency; 4 thermal throttle), start, highest
temperature, model time up to which it was forced by injection, whether it was injected. -/
structure PwrEpisode where
  level : Nat
  start : Nat
  temp : Int
  until_ : Nat
  inj : Bool
  deriving DecidableEq, Repr

/-- The power arbiter (16). -/
structure PwrState where
  rails : Tbl PwrRail
  /-- r of R380 as a fraction; measured and modelled energy of the present window, in 10 nJ, and whether a period in it diverged. -/
  rNum : Nat
  rDen : Nat
  winMeas : Nat
  winModel : Nat
  winDiv : Bool
  /-- Model times at which the present divergence, or the present agreement, began; MODEL_DIVERGENCE is in force (R381). -/
  divSince : Option Nat
  agreeSince : Option Nat
  divergent : Bool
  /-- The injected 20% offset of the model is on (R390). -/
  offset : Bool
  /-- Grant of each throughput job and draw of each job, mW; periods in a row in which a job exceeded its reservation (R366, R369). -/
  grants : Tbl Nat
  draws : Tbl Nat
  excess : Tbl Nat
  /-- Clocks that wait for a higher VDD_Q, by Quill, MHz (R368). -/
  waiting : Tbl Nat
  /-- Throughput Quills are held at 300 MHz (R370). -/
  overpower : Bool
  /-- The verified power record (R371). -/
  record : Option (List Byte)
  /-- Droops by Inkwell, 48 for VDD_C; thermal throttles by Inkwell; thermal emergencies by sensor, 64 to 71 for the stacks (R376, R384). -/
  droops : Tbl PwrEpisode
  hot : Tbl PwrEpisode
  emerg : Tbl PwrEpisode
  /-- Model times of the level-2 droops of the last hour (R374). -/
  deep : List Nat
  /-- Recovery applies up to a model time (R374). -/
  recovery : Option Nat
  /-- Readings of the sensors, °C (R383). -/
  temps : List (Nat × Int)
  /-- Model time at which coolant was lost; since which COOL_FLOW_OK is high (R385, R387). -/
  lostAt : Nat
  flowSince : Nat
  /-- Domains being switched on (R388): domain, model time, whether automatic. -/
  rising : List (Nat × Nat × Bool)
  /-- Model time of the last switch of a domain (R388). -/
  lastSwitch : Nat
  /-- The model's figure for each rail in the last period, mW (R364). -/
  figures : List Nat
  /-- R373 has brought the voltage table, or the values without one, into use. -/
  tableDone : Bool
  deriving DecidableEq, Repr

/-- The arbiter as reset leaves it. -/
def PwrState.init : PwrState :=
  { rails := [], rNum := 1, rDen := 1, winMeas := 0, winModel := 0, winDiv := false, divSince := none, agreeSince := none, divergent := false, offset := false
    grants := [], draws := [], excess := [], waiting := [], overpower := false, record := none, droops := [], hot := [], emerg := [], deep := []
    recovery := none, temps := [], lostAt := 0, flowSince := 0, rising := [], lastSwitch := 0, figures := [], tableDone := false }
/-- A copy of the boot descriptor (19 R446): write count, active slot, pending slot (0xFF: none), tries, version in the active slot, and whether
its magic and MAC hold. -/
structure BootDesc where
  seq : Nat := 0
  active : Nat := 0
  pending : Nat := 0xFF
  tries : Nat := 0
  version : Nat := 0
  mac : List Byte := []
  deriving DecidableEq, Repr

/-- A copy of the signature state (19 R461): sequence number, top index, reserved_next, its HMAC; nothing for a copy never written. -/
structure SigCopy where
  seq : Nat := 0
  top : Nat := 0
  next : Nat := 0
  mac : List Byte := []
  deriving DecidableEq, Repr

/-- An owner slot of OTP (19 R459). -/
structure Owner where
  hash : List Byte
  transport : List Byte
  revoked : Bool
  deriving DecidableEq, Repr

/-- A staging in progress (19 R463): target, its source in LPDDR5X, length, whether an injection makes it fail, the state of MG_UPDATE before
it. -/
structure StageRun where
  target : Nat
  src : Nat
  len : Nat
  fail : Bool
  prev : Nat
  deriving DecidableEq, Repr

/-- Security, boot and update (19). The flash, the copies in it and the fuses outlive every reset. -/
structure SecState where
  /-- Flash bytes by address; an unlisted byte is erased and reads 0xFF (DESIGN CHOICE, log entry 5). -/
  flash : Tbl Byte
  desc0 : BootDesc
  desc1 : BootDesc
  sig0 : SigCopy
  sig1 : SigCopy
  /-- Anti-rollback counters, owner slots, Colophon, attestation fuses burnt (R451, R456, R459, R461). -/
  main : Nat
  recov : Nat
  owners : Tbl Owner
  colophon : List Byte
  fuses : Nat
  /-- The device secret of OTP, 32 bytes, which only key derivation reads (R458). -/
  secret : List Byte
  /-- 0 in reset or booting, 1 a main image runs, 2 only the security block answers SYNC, 3 the recovery image runs (R450). -/
  phase : Nat
  /-- What holds the device in reset: 0 nothing, 1 a thermal trip, 2 a rail, 3 REFCLK (R443; 20 R474, R476). -/
  hold : Nat
  /-- Header of the running image, 4,096 bytes, and its slot: 0 A, 1 B, 2 recovery (R447). -/
  run : List Byte
  slot : Nat
  stage : Option StageRun
  /-- Components that have still to swap, the slot they swap to, whether it is a return (R464, R465). -/
  swaps : List Nat
  swapTo : Nat
  back : Bool
  /-- The slot that ran before the last hand-over (R465). -/
  before : Nat
  /-- The bottom index that the next signature uses (R461). -/
  bottom : Nat
  /-- The next bottom tree: being generated, ready (R461). -/
  treeGen : Bool
  treeReady : Bool
  /-- Model time of the last token (R460). -/
  refill : Nat
  /-- The current debug nonce with the model time at which it ends; the model time at which debug locks (R462). -/
  nonce : Option (List Byte × Nat)
  dbgEnd : Nat
  /-- The host link key that the key record in force carries, 32 bytes, or nothing; the record accepts vendor tokens (R459; DBG_STATE). -/
  linkKey : List Byte
  vendorRec : Bool
  deriving DecidableEq, Repr

/-- The Colophon's bytes that the spec fixes, the least legal fab, and 0 where each part has its own (R456, R457; DESIGN CHOICE, log entry 4). -/
def colophonMade : List Byte :=
  leBytes 4 0x4E4F4C43 ++ leBytes 2 1 ++ leBytes 2 0x48 ++ leBytes 2 0x4101 ++ leBytes 2 1 ++ leBytes 7 (2 ^ 52) ++ List.replicate 237 0

/-- A device as made, before its first boot: flash erased, fuses whole (DESIGN CHOICE, log entry 4). -/
def SecState.init : SecState :=
  { flash := [], desc0 := {}, desc1 := {}, sig0 := {}, sig1 := {}, main := 0, recov := 0, owners := [], colophon := colophonMade, fuses := 0, secret := List.replicate 32 0, phase := 0, hold := 0
    run := [], slot := 0, stage := none, swaps := [], swapTo := 0, back := false, before := 0, bottom := 0, treeGen := false, treeReady := false, refill := 0, nonce := none, dbgEnd := 0, linkKey := []
    vendorRec := false }


/-- The inputs latched with a trigger (13 R299): device time, encoder positions, filtered inputs, ADC readings with their ages in ns; and
which encoders and inputs are invalid, and which readings stale, by bit. -/
structure Snap where
  time : Nat
  encs : List Nat
  encBad : Nat
  dins : Nat
  dinBad : Nat
  adcs : List Nat
  ages : List Nat
  adcBad : Nat
  deriving DecidableEq, Repr

/-- A loop slot (13 R296 to R308). -/
structure TrSlot where
  /-- Its 32-byte entry, and whether one has been configured. -/
  cfg : List Byte := List.replicate 32 0
  conf : Bool := false
  /-- law_cycles, as computed when it was configured (R303). -/
  cycles : Nat := 0
  /-- 0 STOPPED, 1 RUNNING, 2 HOLD. -/
  st : Nat := 0
  cause : Nat := 0
  /-- hold_mode in effect in HOLD. -/
  mode : Nat := 0
  saturated : Bool := false
  /-- s0 to s31. -/
  words : Tbl Word := []
  /-- Committed setpoint words, and the device time of the last accepted commit since the start (R307). -/
  sp : Tbl Word := []
  accepted : Option Nat := none
  /-- A trigger has fired and is not yet taken; a trigger is taken and not yet dispatched: their snapshots. -/
  fired : Option Snap := none
  pend : Option Snap := none
  /-- Encoder positions at the previous latch. -/
  prev : Option (List Nat) := none
  /-- Device time of the last accepted trigger; of the last timer instant, or the start. -/
  lastTrig : Option Nat := none
  timer : Nat := 0
  /-- Its law or coefficients met an uncorrectable memory error (R308 cause 3). -/
  memErr : Bool := false
  deriving DecidableEq, Repr

/-- A law being executed (13 R299 to R301). -/
structure TrRun where
  slot : Nat
  hold : Bool
  pc : Nat
  acc : Int
  snap : Snap
  delta : List Nat
  /-- Setpoint words, shared words and coefficients as the dispatch found them; coefficients as value + 2^32 × shift. -/
  sp : Tbl Word
  shared : Tbl Word
  coef : Tbl Nat
  age : Nat
  /-- Test signal, whether the dispatch carries one, and what OUT adds to a PWM channel. -/
  test : Int
  carries : Bool
  pwm : Option (Nat × Int)
  /-- Buffers that SEND has asked for. -/
  sends : List Nat
  deriving DecidableEq, Repr

/-- The loop engine (13). -/
structure TrState where
  slots : Tbl TrSlot
  /-- Law memory; coefficients by bank × 2,048 + index, as value + 2^32 × shift; shared words g0 to g63. -/
  law : Tbl Word
  coef : Tbl Nat
  shared : Tbl Word
  /-- TR_COEF_VALUE by requester path (R315). -/
  staged : Tbl Word
  /-- Laws dispatched and not ended, the executing one first. -/
  runs : List TrRun
  /-- Test generator: dispatches since it started, and its 15-bit register (R318). -/
  testN : Nat
  lfsr : Nat
  /-- Capture: records with their trigger times, oldest first; words read (R319). -/
  caps : List (Nat × List Byte)
  capPos : Nat
  deriving DecidableEq, Repr

/-- The loop engine as reset leaves it. -/
def TrState.init : TrState :=
  { slots := [], law := [], coef := [], shared := [], staged := [], runs := [], testN := 0, lfsr := 0x7FFF, caps := [], capPos := 0 }

/-- An encoder (13 R309): its 16-byte entry, live count, cause while invalid, whether an index edge has reset the position, whether the
next one will, last valid position, A, B and Z as last sampled, device times of the counts of the last 10 µs. -/
structure TioEnc where
  cfg : List Byte := List.replicate 16 0
  pos : Nat := 0
  cause : Nat := 0
  seen : Bool := false
  zArm : Bool := false
  last : Nat := 0
  ab : Option (Bool × Bool) := none
  z : Bool := false
  counts : List Nat := []
  deriving DecidableEq, Repr

/-- A discrete input (13 R310): its 8-byte entry, raw level and model time of its last change, filtered level before polarity,
rejected pulses in a row, over-rate, stuck, model time since which it reads 1. -/
structure TioDin where
  cfg : List Byte := List.replicate 8 0
  raw : Bool := false
  since : Nat := 0
  level : Bool := false
  rejects : Nat := 0
  fast : Bool := false
  stuck : Bool := false
  active : Option Nat := none
  deriving DecidableEq, Repr

/-- An ADC master (13 R311): its 32-byte entry, whether it runs, device time of its next sequence, and by frame the reading and the
device time at which it was complete. -/
structure TioAdc where
  cfg : List Byte := List.replicate 32 0
  running : Bool := false
  next : Nat := 0
  readings : Tbl (Nat × Nat) := []
  deriving DecidableEq, Repr

/-- A PWM channel (13 R312, R313): its 16-byte entry, whether it is configured; latest and present compare, each with whether it is
the safe_duty of hold_mode 2; whether it drives its compare and not its safe level. -/
structure TioPwm where
  cfg : List Byte := List.replicate 16 0
  conf : Bool := false
  next : Nat := 0
  nextSafe : Bool := false
  act : Nat := 0
  actSafe : Bool := false
  driving : Bool := false
  deriving DecidableEq, Repr

/-- The encoder and discrete I/O block (13). -/
structure TioState where
  encs : Tbl TioEnc
  dins : Tbl TioDin
  adcs : Tbl TioAdc
  pwms : Tbl TioPwm
  /-- STOP_N is low (20 R478: it is pulled low). -/
  stopN : Bool
  deriving DecidableEq, Repr

/-- The block as reset leaves it. -/
def TioState.init : TioState := { encs := [], dins := [], adcs := [], pwms := [], stopN := true }

/-- A transmit buffer (14 R324 to R326): its descriptor and payload; 0 idle, 1 pending, 2 on the bus; attempts; the contents that it
sends and those held, a descriptor and up to 64 payload bytes; an abort waits for the frame's end; device time of the start of frame. -/
structure CanTb where
  desc : List Byte := List.replicate 32 0
  pay : List Byte := List.replicate 64 0
  st : Nat := 0
  attempts : Nat := 0
  cur : List Byte := []
  held : Option (List Byte) := none
  abort : Bool := false
  sof : Nat := 0
  deriving DecidableEq, Repr

/-- A CAN controller (14). -/
structure CanCtl where
  tbs : Tbl CanTb := []
  filters : Tbl (List Byte) := []
  allow : Tbl (List Byte) := []
  tec : Nat := 0
  rxc : Nat := 0
  /-- 0 error-active, 1 error-passive, 2 bus-off; recovery is under way (R336). -/
  st : Nat := 0
  recovering : Bool := false
  lastErr : Nat := 0
  /-- Contents and payload of the frames it has sent, newest first; what leaves the device. -/
  sent : List (List Byte) := []
  deriving DecidableEq, Repr

/-- What the Quills, the mesh routers, the memory controllers and the small convolution engine have counted since the last grant period (16 R378,
R379). -/
structure ActState where
  /-- By Quill × 16 + activity: 0 to 4 MACs of the five rate classes, 5 operand bytes from a bank, 6 active cycles, 7 vector element operations, 8
  idle cycles. -/
  quills : Tbl Nat := []
  /-- By unit × 65,536 + job: DMA bytes of router 0 to 47, 64-byte blocks of controller 48 to 55, MACs of layers 56. -/
  moves : Tbl Nat := []
  deriving DecidableEq, Repr

/-- The state of the P48. -/
structure State where
  /-- Waiting commands, first in, first out (the model's own: DESIGN CHOICE, log entry 1). -/
  pending : List Instr
  /-- Counter that free values are applied to (the model's own: DESIGN CHOICE, log entry 3). -/
  freeCtr : Nat
  time : TimeState
  ev : EvState
  /-- Register file by key of the register region, defaults `regReset` (02 R30). -/
  regs : Tbl Word
  /-- 64-bit counters by key of the _LO register (02 R40). -/
  ctr : Tbl (BitVec 64)
  /-- The shadow of each requester path (02 R40). -/
  shadow : Tbl Word
  /-- Pages in soft reset: page numbers (02 R491). -/
  resetting : List Nat
  /-- LPDDR5X and scratchpad bytes by device address (02 R28); an unlisted byte reads 0 (DESIGN CHOICE, log entry 5). -/
  mem : Tbl Byte
  qe : QeState
  jobs : List JobRec
  /-- Descriptors read so far. -/
  arrivals : Nat
  /-- Round-robin position of admission per priority class: the last queue admitted (01 R19). -/
  rrQueue : Tbl Nat
  quills : Tbl Quill
  /-- DMA channels by Inkwell × 8 + channel. -/
  chans : Tbl DmaChan
  barriers : List BarrierInst
  groups : List BarrierGroup
  spads : Tbl Spad
  mcs : Tbl Mc
  sn : SnState
  ring : RingState
  settings : SetState
  cc : CcState
  host : HostState
  car : CarState
  fn : FnState
  tr : TrState
  tio : TioState
  cans : Tbl CanCtl
  pwr : PwrState
  act : ActState
  sec : SecState
  deriving DecidableEq, Repr

/-- What stops the machine with a fault: nothing does, since every error of the device is an event or a status of the device
(DEDUCED, log entry 7); the one name is here because the interface asks for a type. No command raises it. -/
inductive Fault where
  /-- Raised by no command; safe. -/
  | none
  deriving DecidableEq, Repr

/-- Why a command has no meaning. -/
inductive Refusal where
  /-- Raised by exec's arm of a command that has no meaning yet, which it names; safe. -/
  | notModelled (mnemonic : String)
  deriving DecidableEq, Repr

/-- The machine right after power-on reset, before boot (19 R443), with no command waiting. -/
def State.reset : State :=
  { pending := []
    freeCtr := 0
    time := { clk := 0, ticks := 0, ring := 0, slew := .none, slewLeft := 0, offset := 0, locked := false, everLocked := false, lastSync := none }
    ev := { next := 1, lostPending := 0, armed := [], rate := [], held := [] }
    regs := []
    ctr := []
    shadow := []
    resetting := []
    mem := []
    qe := { cache := [], pkts := [], popWait := [], pushWait := [], staging := [], stFull := false, fullLatch := [], srcs := [], adm := [] }
    jobs := []
    arrivals := 0
    rrQueue := []
    quills := []
    chans := []
    barriers := []
    groups := []
    spads := []
    mcs := []
    sn := SnState.init
    ring := RingState.init
    settings := SetState.init
    cc := CcState.init
    host := HostState.init
    car := CarState.init
    fn := FnState.init
    tr := TrState.init
    tio := TioState.init
    cans := []
    pwr := PwrState.init
    act := {}
    sec := SecState.init }

end Sys2Proof.Machine
end

