-- ==== Sys2Proof/Machine/Ops.lean ====
section
/-! DEFINITION. The shared operations: registers, counters, time, memory, addresses, free values, and the records a block
keeps of its Quills and jobs (01, 02). -/

namespace Sys2Proof.Machine

/-- What a command's meaning answers. -/
abbrev Out := Host.Outcome State Fault Refusal

/-- The value of the register at an offset of an instance's page (02 R30). -/
def rdReg (c i off : Nat) (s : State) : Word := Tbl.get (regReset (pageKey c i + off)) s.regs (pageKey c i + off)

/-- A register's value replaced. -/
def wrReg (c i off : Nat) (v : Word) (s : State) : State :=
  { s with regs := Tbl.set (regReset (pageKey c i + off)) s.regs (pageKey c i + off) v }

/-- A register's field, as a number. -/
def rdField (c i off hi lo : Nat) (s : State) : Nat := (rdReg c i off s).field hi lo

/-- A register's field replaced. -/
def wrField (c i off hi lo v : Nat) (s : State) : State := wrReg c i off ((rdReg c i off s).put hi lo v) s

/-- A 64-bit counter's value, by the offset of its _LO register (02 R40). -/
def rdCtr (c i off : Nat) (s : State) : BitVec 64 := Tbl.get 0 s.ctr (pageKey c i + off)

/-- A 64-bit counter replaced. -/
def wrCtr (c i off : Nat) (v : BitVec 64) (s : State) : State := { s with ctr := Tbl.set 0 s.ctr (pageKey c i + off) v }

/-- A 64-bit counter advanced, wrapping. -/
def addCtr (c i off n : Nat) (s : State) : State := wrCtr c i off (rdCtr c i off s + BitVec.ofNat 64 n) s

/-- A 32-bit count register advanced, saturating (02 R38, R51). -/
def bump (c i off n : Nat) (s : State) : State := wrReg c i off (BitVec.ofNat 32 (min ((rdReg c i off s).toNat + n) 0xFFFFFFFF)) s

/-- A free value and the state with its source advanced (DESIGN CHOICE, log entry 3). -/
def fresh (s : State) : Nat × State := (Config.freeValue s.freeCtr, { s with freeCtr := s.freeCtr + 1 })

/-- Device time in ns (02 R54). -/
def devNow (s : State) : Nat := s.time.ticks / 6000

/-- Device-time ticks that `dt` thirds of a nanosecond bring: 2,000 each, 2,001 or 1,999 while a correction is slewed (02 R54). -/
def TimeState.gain (t : TimeState) (dt : Nat) : Nat :=
  let k := min dt t.slewLeft
  match t.slew with
  | .none => dt * 2000
  | .fast => dt * 2000 + k
  | .slow => dt * 2000 - k

/-- The least time that brings a number of device-time ticks. -/
def TimeState.need (t : TimeState) (d : Nat) : Nat :=
  let l := t.slewLeft
  match t.slew with
  | .none => (d + 1999) / 2000
  | .fast => if d ≤ l * 2001 then (d + 2000) / 2001 else (d - l + 1999) / 2000
  | .slow => if d ≤ l * 1999 then (d + 1998) / 1999 else (d + l + 1999) / 2000

/-- The clocks after a time. -/
def TimeState.after (t : TimeState) (dt : Nat) : TimeState :=
  { t with clk := t.clk + dt, ticks := t.ticks + t.gain dt, ring := t.ring + dt * 2000
           slew := if t.slewLeft ≤ dt then .none else t.slew, slewLeft := t.slewLeft - dt }

/-- A Quill by global index. -/
def quill (q : Nat) (s : State) : Quill := Tbl.get Quill.init s.quills q

/-- A Quill replaced. -/
def setQuill (q : Nat) (v : Quill) (s : State) : State := { s with quills := Tbl.set Quill.init s.quills q v }

/-- Loss of coolant flow is in force (16 R385). -/
def coolantLost (s : State) : Bool := natBit (rdReg 13 0 0x78 s).toNat 0

/-- A Quill's clock in units of 0.5 MHz: stopped while coolant is lost and in the first 32 mesh cycles of a level-2 droop of its Inkwell, at
half rate in the rest of a droop and in a thermal emergency of its Inkwell or of the device (16 R376, R384, R385). -/
def quillRate (q : Nat) (s : State) : Nat :=
  let v := quill q s
  let n := q / 4
  if coolantLost s then 0
  else match Tbl.find? s.pwr.droops n with
    | some d => if d.level = 2 ∧ s.time.clk < d.start + 64 then 0 else v.mhz
    | none => if s.pwr.emerg.any (fun e => e.1 == n || decide (48 ≤ e.1)) then v.mhz else 2 * v.mhz

/-- A Quill's share of QL_CAP over `dt` thirds of a ns: 16 × rate for every cycle of its own clock (05 R139). -/
def capAfter (v : Quill) (rate dt : Nat) : Nat × Quill :=
  let n := v.capRem + dt * rate
  (n / 6000 * v.capRate, { v with capRem := n % 6000 })

/-- The record of a job by its ID, newest first among equals (an ID names at most one job not yet completed: 01 R17). -/
def findJob (id : Nat) (s : State) : Option JobRec := s.jobs.find? (fun j => j.d.id == id)

/-- A job has a Quill in an Inkwell. -/
def JobDesc.reaches (d : JobDesc) (n : Nat) : Bool := (d.quillsA ++ d.quillsB).any (fun q => q / 4 == n)

/-- The droops in force that touch a job: of its Inkwells' VDD_Q, and of VDD_C (16 R376, R377). -/
def droopsOn (d : JobDesc) (s : State) : Nat := (s.pwr.droops.filter (fun e => decide (48 ≤ e.1) || d.reaches e.1)).length

/-- The thermal emergencies in force that touch a job (16 R384). -/
def emergsOn (d : JobDesc) (s : State) : Nat := (s.pwr.emerg.filter (fun e => decide (48 ≤ e.1) || d.reaches e.1)).length

/-- The emergency throttles in force that touch the job of a Quill of rank 0 of copy A while it runs; 0 for another Quill (06 R153; 16 R376, R377,
R384, R385). -/
def episodesOn (v : Quill) (s : State) : Nat :=
  if v.rank ≠ 0 ∨ v.copyB = true ∨ (v.st ≠ .running ∧ v.st ≠ .waiting) then 0
  else match findJob v.job s with
    | some j => b2n (coolantLost s) + droopsOn j.d s + emergsOn j.d s
    | none => 0

/-- A Quill's activity counted: Quill × 16 + activity (16 R378). -/
def noteAct (k n : Nat) (s : State) : State :=
  if n = 0 then s else { s with act := { s.act with quills := Tbl.set 0 s.act.quills k (Tbl.get 0 s.act.quills k + n) } }

/-- What a router, a controller or the small convolution engine moves or computes for a job, counted (16 R378). -/
def noteMove (unit job n : Nat) (s : State) : State :=
  let k := unit * 65536 + job
  if n = 0 then s else { s with act := { s.act with moves := Tbl.set 0 s.act.moves k (Tbl.get 0 s.act.moves k + n) } }

/-- QL_CAP of every owned Quill advanced over `dt` thirds of a ns (05 R139), its active or idle cycles
(16 R378), and the time that its job has run throttled (06 R153). -/
def advanceCaps (dt : Nat) (s : State) : State :=
  s.quills.foldl (fun acc (e : Nat × Quill) =>
    if e.2.job = 0xFFFF then acc
    else
      let r := capAfter e.2 (quillRate e.1 s) dt
      let n := (e.2.capRem + dt * quillRate e.1 s) / 6000
      noteAct (e.1 * 16 + if e.2.ops.isEmpty then 8 else 6) n <| addCtr 2 e.1 0x68 r.1 (setQuill e.1 { r.2 with throttle := r.2.throttle + dt * episodesOn e.2 s } acc)) s

/-- FN_BUSY advanced while a layer is in progress: the 1.0 GHz engine cycles of a time (08 R215, R217). -/
def advanceFine (dt : Nat) (s : State) : State :=
  if s.fn.cur.isSome then addCtr 9 0 0x54 ((s.time.clk + dt) / 3 - s.time.clk / 3) s else s

/-- Time passes: `dt` thirds of a ns on the model clock, device time, the Quill capacity counters and the small convolution engine's
(DESIGN CHOICE, log entry 2; DESIGN CHOICE, log entry 17). -/
def advance (dt : Nat) (s : State) : State :=
  let s1 := advanceFine dt s
  advanceCaps dt { s1 with time := s1.time.after dt }

/-- The clock moved forward to a due time, never back (DESIGN CHOICE, log entry 2). -/
def advanceTo (c : Nat) (s : State) : State := if s.time.clk < c then advance (c - s.time.clk) s else s

/-- The clock moved forward until device time reaches `ns`, never back (DESIGN CHOICE, log entry 2). -/
def advanceToDev (ns : Nat) (s : State) : State :=
  if devNow s < ns then advance (s.time.need (ns * 6000 - s.time.ticks)) s else s

/-- Whether ring time is the device's own: it is not enumerated, or it is the manager, whose device time is ring time (10 R243; 17 R405). -/
def ownTime (s : State) : Bool := let g := Tbl.get (regReset 0x40) s.regs 0x40; !natBit g.toNat 8 || natBit g.toNat 9

/-- Ring time in 1/6000 ns. -/
def ringTicks (s : State) : Nat := if ownTime s then s.time.ticks else s.time.ring

/-- Ring time in ns. -/
def ringNow (s : State) : Nat := ringTicks s / 6000

/-- The clock moved forward until ring time reaches `ns`, never back (DESIGN CHOICE, log entry 2). -/
def advanceToRing (ns : Nat) (s : State) : State :=
  let d := ns * 6000 - ringTicks s
  if ringNow s < ns then advance (if ownTime s then s.time.need d else (d + 1999) / 2000) s else s

/-- The model time at which ring time reaches `ns`. -/
def clkAtRing (ns : Nat) (s : State) : Nat :=
  let d := ns * 6000 - ringTicks s
  s.time.clk + (if ownTime s then s.time.need d else (d + 1999) / 2000)

/-- A memory rotation cycle, ns (10 R241). -/
def rotationNs : Nat := 6528

/-- The first rotation boundary at or after a ring time (10 R243). -/
def rotationAfter (ns : Nat) : Nat := (ns + rotationNs - 1) / rotationNs * rotationNs

/-- One byte of memory. -/
def rdByte (s : State) (a : Nat) : Byte := Tbl.get 0 s.mem a

/-- `n` bytes of memory from an address. -/
def rdBytes (s : State) (a n : Nat) : List Byte := (List.range n).map (fun i => rdByte s (a + i))

/-- A little-endian number of `n` bytes in memory (00 R7). -/
def rdLe (s : State) (a n : Nat) : Nat := leNat (rdBytes s a n)

/-- One byte of a memory written. -/
def memSet (m : Tbl Byte) (a : Nat) (b : Byte) : Tbl Byte := Tbl.set 0 m a b

/-- Bytes of a memory written from an address on. -/
def memSetBytes (m : Tbl Byte) (a : Nat) : List Byte → Tbl Byte
  | [] => m
  | b :: t => memSetBytes (memSet m a b) (a + 1) t

/-- Bytes written from an address on. -/
def wrBytes (a : Nat) (l : List Byte) (s : State) : State := { s with mem := memSetBytes s.mem a l }

/-- `n` bytes set to zero from an address on. -/
def zeroBytes (a n : Nat) (s : State) : State :=
  { s with mem := s.mem.filter (fun e => decide (e.1 < a) || decide (a + n ≤ e.1)) }

/-- The device's ID (02 GLB_DEVICE_ID). -/
def deviceId (s : State) : Nat := rdField 0 0 0x40 7 0 s

/-- Whether the device is enumerated (02 R33). -/
def enumerated (s : State) : Bool := natBit (rdReg 0 0 0x40 s).toNat 8

/-- Whether inline ECC is on (02 R28, 10 R236). -/
def inlineEcc (s : State) : Bool := natBit (rdReg 4 0 0x40 s).toNat 0

/-- First byte above the usable LPDDR5X (02 R28). -/
def lpddrTop (s : State) : Nat := if inlineEcc s then 0x3800000000 else 0x4000000000

/-- First byte of the scratchpad region (02 R29). -/
def spadBase : Nat := 0x100000000000

/-- First byte above the scratchpad region. -/
def spadTop : Nat := 0x100018000000

/-- First byte of the register region (02 R30). -/
def regBase : Nat := 0xF00000000000

/-- What a run of bytes of the device address space touches (02 R28, R31, R36). -/
inductive Region where
  | lpddr | spad | regs | unmapped
  deriving DecidableEq, Repr

/-- The region of an access of `n` bytes: register region if any byte lies in it, else the one region that holds it whole. -/
def regionOf (s : State) (a n : Nat) : Region :=
  if a < regBase + 0x1000000 ∧ regBase < a + n then .regs
  else if a + n ≤ lpddrTop s then .lpddr
  else if spadBase ≤ a ∧ a + n ≤ spadTop then .spad
  else .unmapped

/-- Whether a page exists (02 R30). -/
def pageExists (c i : Nat) : Bool := decide (i < classInstances c)

/-- Whether a switched power domain is on; the unswitched core always is (01 R24, 16 PWR_DOMAIN_ON). -/
def domainOn (d : Nat) (s : State) : Bool :=
  if d < 112 then natBit (rdReg 13 0 (0x80 + 4 * (d / 32)) s).toNat (d % 32) else true

/-- Whether a block's power domain is on. -/
def blockPowered (c i : Nat) (s : State) : Bool := domainOn (blockDomain c i) s

/-- Whether a block accepts work (02 CTRL.enable). -/
def blockEnabled (c i : Nat) (s : State) : Bool := natBit (rdReg c i 8 s).toNat 0

/-- A job's record replaced by a function of it. -/
def updJob (id : Nat) (f : JobRec → JobRec) (s : State) : State :=
  { s with jobs := s.jobs.map (fun j => if j.d.id = id then f j else j) }

/-- A job's record dropped. -/
def dropJob (id : Nat) (s : State) : State := { s with jobs := s.jobs.filter (fun j => j.d.id != id) }

/-- Flags ORed into a job's numeric status (03 R78). -/
def orNumeric (id fl : Nat) (s : State) : State := updJob id (fun j => { j with numeric := j.numeric ||| fl }) s

/-- Every Quill of a job, both copies. -/
def JobRec.quills (j : JobRec) : List Nat := j.d.quillsA ++ j.d.quillsB

/-- The Quills of one copy. -/
def JobRec.copy (j : JobRec) (b : Bool) : List Nat := if b then j.d.quillsB else j.d.quillsA

/-- Whether a job holds its resources: ADMITTED, RUNNING or SCRUBBING (01, job states). -/
def JobRec.holds (j : JobRec) : Bool :=
  match j.phase with
  | .admitted | .running | .scrubbing => true
  | _ => false

/-- Whether a job is ADMITTED or RUNNING. -/
def JobRec.live (j : JobRec) : Bool :=
  match j.phase with
  | .admitted | .running => true
  | _ => false

/-- A DMA channel by Inkwell × 8 + channel. -/
def chan (k : Nat) (s : State) : DmaChan := Tbl.get ⟨[], 0, false⟩ s.chans k

/-- A DMA channel replaced. -/
def setChan (k : Nat) (v : DmaChan) (s : State) : State := { s with chans := Tbl.set ⟨[], 0, false⟩ s.chans k v }

/-- An Inkwell's scratchpad controller. -/
def spad (n : Nat) (s : State) : Spad := Tbl.get {} s.spads n

/-- A scratchpad controller replaced. -/
def setSpad (n : Nat) (v : Spad) (s : State) : State := { s with spads := Tbl.set {} s.spads n v }

/-- A memory controller. -/
def mc (n : Nat) (s : State) : Mc := Tbl.get {} s.mcs n

/-- A memory controller replaced. -/
def setMc (n : Nat) (v : Mc) (s : State) : State := { s with mcs := Tbl.set {} s.mcs n v }

/-- The reason of the fence in force, 0 where there is none (02 GLB_FENCE, 17 R412). -/
def fenceReason (s : State) : Nat := let g := rdReg 0 0 0x78 s; if natBit g.toNat 0 then g.field 7 4 else 0

/-- A fence that leaves the device without its own queues (17 R413). -/
def fenceCloses (s : State) : Bool := decide (1 ≤ fenceReason s ∧ fenceReason s ≤ 3)

/-- Whether LPDDR5X takes requests: it is not in self-refresh, and no fence has closed it (10 R250, 16 R386, 17 R413). -/
def memUp (s : State) : Bool := !(mc 0 s).selfRef && !fenceCloses s

/-- Whether a fault-mode injection is armed for a source, by class, instance and bit (02 R46). -/
def armed (c i bit : Nat) (s : State) : Bool := s.ev.armed.contains ((pageKey c i / 0x1000) * 32 + bit)

/-- An armed injection used up. -/
def disarm (c i bit : Nat) (s : State) : State :=
  { s with ev := { s.ev with armed := s.ev.armed.filter (fun k => k != (pageKey c i / 0x1000) * 32 + bit) } }

/-- The injected flag of an event record's payload (02 R48). -/
def injFlag (b : Bool) : Nat := if b then 2 ^ 95 else 0

end Sys2Proof.Machine
end

