-- ==== Sys2Proof/Machine/Records.lean ====
section
/-! DEFINITION. Queue descriptors and packets, event records and their way to the device event queue, and records pushed by
the device's engines (02 R45 to R53, 11 R252 to R263, 15 R354). -/

namespace Sys2Proof.Machine

/-- The 64 bytes of a descriptor (11 R252). -/
def QDesc.bytes (d : QDesc) : List Byte :=
  leBytes 6 d.base ++ leBytes 1 d.sizeLog2
    ++ leBytes 1 (b2n d.enabled + 2 * b2n d.fixed + 4 * d.consumer + 32 * b2n d.drop + 64 * b2n d.pinned)
    ++ leBytes 3 d.recordSize ++ leBytes 1 0 ++ leBytes 4 d.wr ++ leBytes 4 d.rd ++ leBytes 4 d.res
    ++ leBytes 4 d.notices ++ leBytes 4 d.packets ++ leBytes 2 d.jobMatch ++ leBytes 2 d.jobMask
    ++ leBytes 1 d.devMatch ++ leBytes 1 d.devMask ++ leBytes 2 d.reserve ++ leBytes 2 d.sigJob ++ leBytes 1 d.sigRank
    ++ leBytes 1 (d.sigSem + 32 * d.noticeMode) ++ leBytes 4 d.dropped ++ leBytes 16 0

/-- A descriptor read from its 64 bytes (11 R252). -/
def QDesc.read (b : List Byte) : QDesc :=
  let b7 := byteAt b 7
  { base := leField b 0 6, sizeLog2 := byteAt b 6 % 32, enabled := natBit b7 0, fixed := natBit b7 1
    consumer := natField b7 4 2, drop := natBit b7 5, pinned := natBit b7 6, recordSize := leField b 8 3
    wr := leField b 12 4, rd := leField b 16 4, res := leField b 20 4, notices := leField b 24 4, packets := leField b 28 4
    jobMatch := leField b 32 2, jobMask := leField b 34 2, devMatch := byteAt b 36, devMask := byteAt b 37
    reserve := leField b 38 2, sigJob := leField b 40 2, sigRank := byteAt b 42, sigSem := byteAt b 43 % 32
    noticeMode := natField (byteAt b 43) 6 5, dropped := leField b 44 4 }

/-- QE_DESC_BASE; 0 stands for a base that is not set (11 R264; DEDUCED, log entry 9). -/
def qeBase (s : State) : Nat := (rdReg 6 0 0x40 s).toNat + 2 ^ 32 * (rdReg 6 0 0x44 s).toNat

/-- A queue's live descriptor: from the on-chip cache, else from the table in LPDDR5X (11 R252, R253). -/
def qDesc (q : Nat) (s : State) : QDesc :=
  match s.qe.cache.find? (fun e => e.1 == q) with
  | some e => e.2
  | none => QDesc.read (rdBytes s (qeBase s + 64 * q) 64)

/-- Whether a descriptor is in the on-chip cache. -/
def qCached (q : Nat) (s : State) : Bool := s.qe.cache.any (fun e => e.1 == q)

/-- The last unpinned entry of a cache list. -/
def lruVictim (l : List (Nat × QDesc)) : Option (Nat × QDesc) := (l.filter (fun e => !e.2.pinned)).getLast?

/-- Room made for one descriptor: with 4,096 held, the least recently used unpinned one is written back (11 R253). -/
def qEvict (s : State) : State :=
  if s.qe.cache.length < 4096 then s
  else match lruVictim s.qe.cache with
    | none => s
    | some v =>
      wrBytes (qeBase s + 64 * v.1) v.2.bytes { s with qe := { s.qe with cache := s.qe.cache.filter (fun e => e.1 != v.1) } }

/-- A descriptor brought into the cache, if absent, through a counted miss (11 R253). -/
def qFetch (q : Nat) (s : State) : State :=
  if qCached q s then s
  else
    let d := qDesc q s
    let s1 := qEvict (bump 6 0 0xA0 1 s)
    { s1 with qe := { s1.qe with cache := (q, d) :: s1.qe.cache } }

/-- A descriptor written through the cache, becoming the most recently used. -/
def qPut (q : Nat) (d : QDesc) (s : State) : State :=
  let s1 := qFetch q s
  { s1 with qe := { s1.qe with cache := (q, d) :: s1.qe.cache.filter (fun e => e.1 != q) } }

/-- A descriptor used by an operation: fetched if absent, and the most recently used then (11 R253). -/
def qTouch (q : Nat) (s : State) : State :=
  if qeBase s = 0 ∨ memUp s = false then s
  else
    let s1 := qFetch q s
    match s1.qe.cache.find? (fun e => e.1 == q) with
    | some e => { s1 with qe := { s1.qe with cache := e :: s1.qe.cache.filter (fun x => x.1 != q) } }
    | none => s1

/-- Bytes a packet of a record length takes (11 R254). -/
def stride (len : Nat) : Nat := (8 + len + 7) / 8 * 8

/-- Buffer size in bytes. -/
def QDesc.size (d : QDesc) : Nat := 2 ^ d.sizeLog2

/-- Used space between two pointers (11 R255). -/
def QDesc.dist (d : QDesc) (hi lo : Nat) : Nat := (hi + 2 * d.size - lo % (2 * d.size)) % (2 * d.size)

/-- Used space up to the visible write pointer. -/
def QDesc.used (d : QDesc) : Nat := d.dist d.wr d.rd

/-- Free space behind the reservation pointer. -/
def QDesc.room (d : QDesc) : Nat := d.size - d.dist d.res d.rd

/-- The pad that a record's packet needs before it (11 R254). -/
def QDesc.padFor (d : QDesc) (len : Nat) : Nat :=
  let idx := d.res % d.size
  if d.size < idx + stride len then d.size - idx else 0

/-- Whether a record is admitted (11 R255, R261); `keep` is the bytes that must stay free after it. -/
def QDesc.fits (d : QDesc) (len keep : Nat) : Bool := decide (stride len + d.padFor len + keep ≤ d.room)

/-- Bytes kept free from a record that is not a priority record (11 R261). -/
def QDesc.keep (d : QDesc) (prio : Bool) : Nat := if prio then 0 else d.reserve * stride d.recordSize

/-- A packet reserved, with its pad if any: header with length word 0 and record bytes written, pointers and packet count
advanced (11 R254 to R256); an armed injection dooms it (11 R271). -/
def reserve (q rtype job dev : Nat) (bytes : List Byte) (s : State) : State :=
  let d := qDesc q s
  let M := 2 * d.size
  let len := bytes.length
  let pad := d.padFor len
  let ptr := (d.res + pad) % M
  let s1 := if pad = 0 then s else
    wrBytes (d.base + d.res % d.size) (leBytes 4 (2 ^ 31 + pad) ++ leBytes 4 0xFFFFFFFF) s
  let s2 := wrBytes (d.base + ptr % d.size) (leBytes 4 0 ++ leBytes 4 d.packets ++ bytes ++ List.replicate (stride len - 8 - len) 0) s1
  let now := s.time.clk
  let padPkt : List Pkt := if pad = 0 then [] else
    [{ q := q, ptr := d.res, stride := pad, num := 0xFFFFFFFF, pad := true, complete := true, len := pad, rtype := 0, job := job, dev := dev, born := now }]
  let pkt : Pkt := { q := q, ptr := ptr, stride := stride len, num := d.packets, pad := false, complete := false, len := len, rtype := rtype,
                     job := job, dev := dev, born := now, doomed := armed 6 0 9 s }
  let s3 := qPut q { d with res := (ptr + stride len) % M, packets := (d.packets + 1) % 2 ^ 32 } s2
  disarm 6 0 9 (addCtr 6 0 0xA4 1 { s3 with qe := { s3.qe with pkts := s3.qe.pkts ++ padPkt ++ [pkt] } })

/-- An event to be raised (02 R48). -/
structure Ev where
  c : Nat
  i : Nat
  bit : Nat
  code : Nat
  job : Nat := 0xFFFF
  ctx : Nat := 0
  payload : Nat := 0
  deriving DecidableEq, Repr

/-- The 32 bytes of an event record (02 R48). -/
def Ev.bytes (e : Ev) (seq : Nat) (time : Nat) : List Byte :=
  leBytes 4 seq ++ leBytes 8 time ++ leBytes 2 e.code ++ leBytes 1 e.i ++ leBytes 1 e.c ++ leBytes 2 e.job ++ leBytes 2 e.ctx
    ++ leBytes 12 e.payload

/-- An event of class 4 or 8 (02 R52). -/
def Ev.safety (e : Ev) : Bool := e.code / 0x1000 == 4 || e.code / 0x1000 == 8

/-- The device event queue (02 GLB_EVENT_QUEUE). -/
def eventQueue (s : State) : Nat := rdField 0 0 0x60 19 0 s

/-- The sequence number after one (02 R50: never 0). -/
def seqAfter (w : Word) : Word := if w = 0xFFFFFFFF then 1 else w + 1

/-- A number assigned to a record of a block: EVENT_SEQ and the next number (02 R50). -/
def takeSeq (c i : Nat) (s : State) : State :=
  let n := s.ev.next
  let s1 := wrReg c i 0x1C n s
  wrReg 0 0 0x64 (seqAfter n) { s1 with ev := { s1.ev with next := seqAfter n } }

/-- A record that is dropped or lost (02 R51, 15 R354). -/
def countLost (s : State) : State :=
  let s1 := bump 0 0 0x68 1 s
  { s1 with ev := { s1.ev with lostPending := s1.ev.lostPending + 1 } }

/-- Free 40-byte record slots of the event queue (02 R51, 11 R270). -/
def eventSlots (s : State) : Nat := (qDesc (eventQueue s) s).room / 40

/-- Whether the overflow log holds event records (15 R354). -/
def ovfHasEvents (s : State) : Bool := s.sn.ovf.any (fun e => !e.isLog)

/-- An event record's bytes with the next sequence number (02 R48, R50). -/
def numbered (b : List Byte) (s : State) : List Byte := leBytes 4 s.ev.next.toNat ++ b.drop 4

/-- The next number assigned to an event record, by the block that it names (02 R50). -/
def takeSeqOf (b : List Byte) (s : State) : State := takeSeq (byteAt b 15) (byteAt b 14) s

/-- An event record numbered and stored in the device event queue. -/
def recToQueue (b : List Byte) (s : State) : State := reserve (eventQueue s) 3 0xFFFF (deviceId s) (numbered b s) (takeSeqOf b s)

/-- An event's record numbered and stored in the device event queue. -/
def eventToQueue (e : Ev) (s : State) : State := recToQueue (e.bytes 0 (devNow s)) s

/-- The EVENTS_LOST record (02 R51, R53). -/
def evEventsLost (n : Nat) : Ev := { c := 0, i := 0, bit := 5, code := 0x0001, payload := min n 0x7FFFFFFF * 2 ^ 64 }

/-- EVENTS_LOST written once at least 65 slots are free after losses, ahead of other records (02 R51). -/
def flushLost (s : State) : State :=
  if s.ev.lostPending = 0 ∨ (qDesc (eventQueue s) s).enabled = false ∨ eventSlots s < 65 ∨ ovfHasEvents s = true then s
  else
    let e := evEventsLost s.ev.lostPending
    let s1 := wrReg 0 0 0x10 (rdReg 0 0 0x10 s ||| (1 <<< 5)) { s with ev := { s.ev with lostPending := 0 } }
    if natBit (rdReg 0 0 0x14 s1).toNat 5 then s1 else eventToQueue e s1

/-- QUEUE_FULL's EVENT_RAW bit when the event queue itself refuses its first record; its own record finds no room
either (11 R261, 02 R51). -/
def eventQueueFull (s : State) : State :=
  let q := eventQueue s
  if s.qe.fullLatch.contains q then s
  else
    let s1 := wrReg 6 0 0x10 (rdReg 6 0 0x10 s ||| (1 <<< 6)) { s with qe := { s.qe with fullLatch := q :: s.qe.fullLatch } }
    if natBit (rdReg 6 0 0x14 s1).toNat 6 then s1 else countLost s1

/-- Every PWM channel at its safe level (13 R313). -/
def TioState.halt (t : TioState) : TioState := { t with pwms := t.pwms.map (fun e => (e.1, { e.2 with driving := false })) }

/-- The trip of SAFE_OUT: its bit and slot in SN_TRIP, the commanded level dropped, the PWM channels at their safe levels (15 R342; 13
R313). The first trip's slot stays. -/
def tripBits (bit slot : Nat) (s : State) : State :=
  let old := rdReg 12 0 0x48 s
  let v := (if bit = 0 ∧ natBit old.toNat 0 = false then old.put 21 16 slot else old) ||| (BitVec.ofNat 32 (2 ^ bit))
  wrReg 12 0 0x48 v { s with sn := { s.sn with safeOut := false }, tio := s.tio.halt }

/-- The SN_TRIP event (15 R363). -/
def evTrip (bits slot : Nat) : Ev := { c := 12, i := 0, bit := 7, code := 0x4C01, ctx := slot, payload := bits + slot * 2 ^ 16 }

/-- A record put behind the entries of the overflow log (15 R354). -/
def ovfAppend (e : OvfEntry) (s : State) : State := { s with sn := { s.sn with ovf := s.sn.ovf ++ [e] } }

/-- An event record of class 4 or 8 kept in the overflow log, with its number; lost when 256 entries are held (15 R354). -/
def ovfRecord (b : List Byte) (s : State) : State :=
  if 256 ≤ s.sn.ovf.length then countLost s else ovfAppend ⟨false, numbered b s⟩ (takeSeqOf b s)

/-- An event's record kept in the overflow log (15 R354). -/
def ovfEvent (e : Ev) (s : State) : State := ovfRecord (e.bytes 0 (devNow s)) s

/-- The trip that the 255th entry of the overflow log causes; its SN_TRIP record takes the last entry (15 R342, R354). -/
def ovfTrip (s : State) : State :=
  if s.sn.ovf.length = 255 then
    let s1 := tripBits 9 0 s
    let s2 := wrReg 12 0 0x10 (rdReg 12 0 0x10 s1 ||| (1 <<< 7)) s1
    ovfEvent (evTrip (2 ^ 9) 0) s2
  else s

/-- An event record that reaches an enabled device event queue: stored with its number, kept in the overflow log, dropped or lost; losses
are reported first (02 R50, R51; 15 R354). -/
def placeEvent (safety : Bool) (b : List Byte) (s : State) : State :=
  let d := qDesc (eventQueue s) s
  if ovfHasEvents s then
    if safety then ovfTrip (ovfRecord b s) else eventQueueFull (countLost s)
  else if safety then
    if d.fits 32 0 then recToQueue b s else ovfTrip (ovfRecord b (eventQueueFull s))
  else
    let s1 := flushLost s
    let d1 := qDesc (eventQueue s1) s1
    if decide (65 ≤ eventSlots s1) && d1.fits 32 (d1.keep false) then recToQueue b s1 else eventQueueFull (countLost s1)

/-- STAGING_FULL's EVENT_RAW bit where an event record takes the last entry of the buffer; its own record finds none (11 R262). -/
def stagingTop (s : State) : State :=
  if s.qe.stFull = true ∨ s.qe.staging.length < 2048 then s
  else
    let s1 := wrReg 6 0 0x10 (rdReg 6 0 0x10 s ||| (1 <<< 7)) { s with qe := { s.qe with stFull := true } }
    if natBit (rdReg 6 0 0x14 s1).toNat 7 then s1 else countLost s1

/-- An event record on its way to the device event queue: behind the records of that queue that are staged, staged while the queue is not
enabled or memory is closed, else placed; with every entry taken one of class 4 or 8 goes to the overflow log and another is lost
(02 R50, R51; 11 R252, R262; 15 R354). -/
def storeEvent (e : Ev) (s : State) : State :=
  let q := eventQueue s
  if (qDesc q s).enabled = false ∨ memUp s = false ∨ s.qe.staging.any (fun r => r.q == q) = true then
    if 2048 ≤ s.qe.staging.length then (if e.safety then ovfTrip (ovfEvent e s) else countLost s)
    else
      stagingTop { s with qe := { s.qe with staging := s.qe.staging ++
          [{ q := q, rtype := 3, bytes := e.bytes 0 (devNow s), prio := e.safety, job := 0xFFFF, compl := false }] } }
  else placeEvent e.safety (e.bytes 0 (devNow s)) s

/-- Whether an occurrence writes no record (02 R45, R52). -/
def Ev.masked (e : Ev) (s : State) : Bool := natBit (rdReg e.c e.i 0x14 s).toNat e.bit && !e.safety

/-- EVENT_RAW of an occurrence (02 R45). -/
def rawBit (e : Ev) (s : State) : State := wrReg e.c e.i 0x10 (rdReg e.c e.i 0x10 s ||| BitVec.ofNat 32 (2 ^ e.bit)) s

/-- An occurrence of an event source: EVENT_RAW, and a record unless masked (02 R45). -/
def raise (e : Ev) (s : State) : State := if e.masked s then rawBit e s else storeEvent e (rawBit e s)

/-- An occurrence, with the sequence number its record received, 0 where it received none (02 R50; DEDUCED, log entry 10). -/
def raiseSeq (e : Ev) (s : State) : Nat × State :=
  let s1 := raise e s
  (if s1.ev.next = s.ev.next then 0 else (rdReg e.c e.i 0x1C s1).toNat, s1)

/-- Whether a rate-limited key may write a record. -/
def rateDue (key dt : Nat) (s : State) : Bool := match Tbl.find? s.ev.rate key with | none => true | some t => decide (t + dt ≤ s.time.clk)

/-- An occurrence whose record is written at most once per `dt` thirds of a ns for a key; `held` counts the rest. A masked one counts for
neither (02 R45). -/
def raiseRated (key dt : Nat) (e : Ev) (s : State) : State :=
  if e.masked s then rawBit e s
  else if rateDue key dt s then raise e { s with ev := { s.ev with rate := Tbl.put s.ev.rate key s.time.clk, held := Tbl.erase s.ev.held key } }
  else
    let s1 := rawBit e s
    { s1 with ev := { s1.ev with held := Tbl.set 0 s1.ev.held key (Tbl.get 0 s1.ev.held key + 1) } }

/-- Occurrences held back since the last record of a rate-limited key, this one included. -/
def ratedCount (key : Nat) (s : State) : Nat := Tbl.get 0 s.ev.held key + 1

/-- `n` occurrences of a source whose records, at most one per `dt`, count what came since the last in payload [31:0]. -/
def raiseCount (key dt n : Nat) (e : Ev) (s : State) : State :=
  let total := Tbl.get 0 s.ev.held key + n
  if e.masked s then rawBit e s
  else if rateDue key dt s then raise { e with payload := e.payload + min total 0xFFFFFFFF }
    { s with ev := { s.ev with rate := Tbl.put s.ev.rate key s.time.clk, held := Tbl.erase s.ev.held key } }
  else
    let s1 := rawBit e s
    { s1 with ev := { s1.ev with held := Tbl.set 0 s1.ev.held key total } }

/-- One millisecond in thirds of a ns. -/
def oneMs : Nat := 3000000

/-- One microsecond in thirds of a ns. -/
def oneUs : Nat := 3000

/-- The bit of a common code on a page (02 R53; 05 R140 for the Quill page). -/
def commonBit (c code : Nat) : Nat :=
  match code with
  | 0x7001 => if c = 2 then 12 else 0
  | 0x8001 => if c = 2 then 13 else 1
  | 0x7005 => if c = 2 then 16 else 2
  | 0x7003 => if c = 2 then 14 else 3
  | _ => if c = 2 then 15 else 4

/-- Payload [63:0] of the address events: address, access (1 read, 2 write, 3 atomic), requester, device (02 R53). -/
def addrPayload (addr access req dev : Nat) : Nat := addr % 2 ^ 48 + access * 2 ^ 48 + req * 2 ^ 52 + dev * 2 ^ 56

/-- ADDR_UNMAPPED from a block (02 R31, R53). -/
def evUnmapped (c i addr access req dev job ctx : Nat) : Ev :=
  { c := c, i := i, bit := commonBit c 0x7001, code := 0x7001, job := job, ctx := ctx, payload := addrPayload addr access req dev }

/-- ACCESS_DENIED from a block (02 R36, R53). -/
def evDenied (c i addr access req dev job ctx : Nat) : Ev :=
  { c := c, i := i, bit := commonBit c 0x8001, code := 0x8001, job := job, ctx := ctx, payload := addrPayload addr access req dev }

/-- The queue a queue-engine event names, in context and payload; payload bit [95] stays the injected flag (11 R271, 02 R46). -/
def qeEvent (bit code q job payload : Nat) : Ev :=
  { c := 6, i := 0, bit := bit, code := code, job := job, ctx := q % 0x10000
    payload := payload % 2 ^ 91 + q / 0x10000 * 2 ^ 91 + payload / 2 ^ 95 % 2 * 2 ^ 95 }

/-- QUEUE_FULL raised at a queue's first refusal, and not again until its used space falls below half (11 R261). -/
def queueFull (q job : Nat) (s : State) : State :=
  if s.qe.fullLatch.contains q then s
  else raise (qeEvent 6 0x2600 q 0xFFFF ((qDesc q s).used % 2 ^ 32 + job * 2 ^ 32)) { s with qe := { s.qe with fullLatch := q :: s.qe.fullLatch } }

/-- QUEUE_FULL re-armed once the used space is below half the buffer (11 R261). -/
def queueRearm (q : Nat) (s : State) : State :=
  if 2 * (qDesc q s).used < (qDesc q s).size then { s with qe := { s.qe with fullLatch := s.qe.fullLatch.filter (fun x => x != q) } } else s

/-- A record dropped at a queue whose overflow is 1 (11 R261). -/
def queueDrop (q job : Nat) (s : State) : State :=
  let d := qDesc q s
  let d' := { d with dropped := min (d.dropped + 1) 0xFFFFFFFF }
  raiseRated (0x600000 + q) oneMs (qeEvent 8 0x3600 q job d'.dropped) (bump 6 0 0xB4 1 (qPut q d' s))

/-- QUEUE_REFUSED with a cause other than 16 (11 R271). -/
def evQueueRefused (q cause job : Nat) : Ev := qeEvent 11 0x7600 q 0xFFFF (cause + job * 2 ^ 8)

/-- STAGING_FULL, raised when the 2,048th record is staged (11 R262). -/
def stagingCheck (s : State) : State :=
  let n := s.qe.staging.length
  if s.qe.stFull = false ∧ 2048 ≤ n then
    raise { c := 6, i := 0, bit := 7, code := 0x2601, payload := n } { s with qe := { s.qe with stFull := true } }
  else if s.qe.stFull = true ∧ n < 1536 then { s with qe := { s.qe with stFull := false } }
  else s

/-- A record put into the staging buffer (11 R262). -/
def stage (r : Staged) (s : State) : State := stagingCheck { s with qe := { s.qe with staging := s.qe.staging ++ [r] } }

/-- Whether a queue can take a record of a length now: enabled, the length allowed, room for it (11 R261, R264). -/
def queueTakes (q len : Nat) (prio : Bool) (s : State) : Bool :=
  let d := qDesc q s
  d.enabled && decide (1 ≤ len ∧ len ≤ d.recordSize) && (!d.fixed || len == d.recordSize) && d.fits len (d.keep prio)
    && !(s.qe.staging.any (fun r => r.q == q)) && memUp s

/-- Whether an engine's record can go now: into its queue, dropped at a full drop queue, or into the staging buffer (11 R261, R262). -/
def pushGoes (q len : Nat) (prio : Bool) (s : State) : Bool :=
  queueTakes q len prio s || ((qDesc q s).enabled && (qDesc q s).drop) || (decide (s.qe.staging.length < 2048) && decide (len ≤ 64))

/-- A record from an engine of the device: reserved in its queue, dropped at a drop queue that is full, else staged behind the queue's staged
records; one to `keep` is never dropped. One that no rule holds back and that the buffer cannot take is lost (11 R253, R261, R262, R268;
DESIGN CHOICE, log entry 47). -/
def pushEngine (q rtype job : Nat) (prio keep : Bool) (bytes : List Byte) (s0 : State) : State :=
  let s := qTouch q s0
  let d := qDesc q s
  if queueTakes q bytes.length prio s then reserve q rtype job (deviceId s) bytes s
  else
    let full := d.enabled && decide (1 ≤ bytes.length ∧ bytes.length ≤ d.recordSize) && !d.fits bytes.length (d.keep prio)
    let s1 := if full then queueFull q job s else s
    if full && d.drop && !keep then queueDrop q job s1
    else if 2048 ≤ s.qe.staging.length ∨ 64 < bytes.length then s1
    else stage { q := q, rtype := rtype, bytes := bytes, prio := prio, job := job, compl := false } s1

end Sys2Proof.Machine
end

