-- ==== Sys2Proof/Machine/Access.lean ====
section
/-! DEFINITION. Memory accesses by any requester: the scratchpad's checks and error correction, the LPDDR5X map and its error
correction, and the status an access ends with (02 R31, R36; 09 R218 to R230; 10 R235 to R240; 11 R269). -/

namespace Sys2Proof.Machine

/-- The Inkwell of a scratchpad address (02 R29). -/
def spadOf (a : Nat) : Nat := (a - spadBase) / 0x800000

/-- The offset of a scratchpad address in its Inkwell. -/
def spadOff (a : Nat) : Nat := (a - spadBase) % 0x800000

/-- The first byte of an Inkwell's scratchpad. -/
def spadAddr (n off : Nat) : Nat := spadBase + n * 0x800000 + off

/-- The share of a Quill of an Inkwell: first offset and the offset past its end (09 R218). -/
def shareRange (q : Nat) : Nat × Nat := (q * 0x200000, if q = 3 then 0x7C0000 else (q + 1) * 0x200000)

/-- First offset of the program region (09 R218). -/
def progBase : Nat := 0x7C0000

/-- A bank's record. -/
def Spad.bank (p : Spad) (b : Nat) : Bank := Tbl.get {} p.banks b

/-- A bank's record replaced. -/
def Spad.setBank (p : Spad) (b : Nat) (v : Bank) : Spad := { p with banks := Tbl.set {} p.banks b v }

/-- A window entry. -/
def Spad.win (p : Spad) (w : Nat) : Window := Tbl.get {} p.wins w

/-- A window entry replaced. -/
def Spad.setWin (p : Spad) (w : Nat) (v : Window) : Spad := { p with wins := Tbl.set {} p.wins w v }

/-- Whether every bank that a run of offsets touches is ON. -/
def Spad.banksOn (p : Spad) (off n : Nat) : Bool :=
  (List.range 16).all (fun b => !(decide (b * 0x80000 < off + n) && decide (off < (b + 1) * 0x80000)) || (p.bank b).st == .on)

/-- Whether a run of offsets meets a line awaiting zero-fill, held fills included (09 R227 to R229). -/
def Spad.awaitsFill (p : Spad) (off n : Nat) : Bool :=
  (p.pendShares ++ p.heldShares).any (fun q => decide ((shareRange q).1 < off + n) && decide (off < (shareRange q).2))
    || (p.pendUnits ++ p.heldUnits).any (fun u => decide (progBase + u * 4096 < off + n) && decide (off < progBase + (u + 1) * 4096))

/-- Whether a window covers every byte of a run of offsets. -/
def Window.covers (w : Window) (off n : Nat) : Bool := decide (w.base ≤ off ∧ off + n ≤ w.base + w.length)

/-- Check 4 of R222: the requester's class, and for jobs device and job under the masks. -/
def Window.admits (w : Window) : Who → Bool
  | .job dev id => w.clsJob && ((dev ^^^ w.devMatch) &&& w.devMask) == 0 && ((id ^^^ w.jobMatch) &&& w.jobMask) == 0
  | .fine dev id => w.clsFine && ((dev ^^^ w.devMatch) &&& w.devMask) == 0 && ((id ^^^ w.jobMatch) &&& w.jobMask) == 0
  | .host => w.clsHost
  | .scribe => w.clsScribe
  | .carousel => w.clsCarousel
  | .debug => false

/-- Check 5 of R222. -/
def Window.grants (w : Window) : Acc3 → Bool
  | .read => w.read
  | .write => w.write
  | .atomic => w.atomic

/-- The cause with which one OPEN covering window refuses a request; 0 where checks 4 to 6 pass (09 R222). A window refuses
from the time that equals its expiry on (R224; DEDUCED, log entry 11). -/
def Window.cause (w : Window) (who : Who) (k : Acc3) (now : Nat) : Nat :=
  if w.admits who = false then 4 else if w.grants k = false then 3 else if w.expiry ≠ 0 ∧ w.expiry ≤ now then 5 else 0

/-- The cause (0: accepted) and the window reported (0x7F: none) of a request to an Inkwell; where a bank is not ON, the CLOSED_POWER entry
that covers the request is reported, as step 3 of Example 1 shows (09 R222). -/
def spadCheck (n off len : Nat) (who : Who) (k : Acc3) (s : State) : Nat × Nat :=
  let p := spad n s
  if p.banksOn off len = false then
    (1, ((List.range 128).find? (fun w => (p.win w).covers off len && (p.win w).state == .closedPower)).getD 0x7F)
  else if p.awaitsFill off len then (6, 0x7F)
  else
    let cov := (List.range 128).filter (fun w => (p.win w).covers off len)
    let op := cov.filter (fun w => (p.win w).state == .opened)
    match op with
    | w :: _ =>
      if op.any (fun v => (p.win v).cause who k (devNow s) == 0) then (0, w) else ((p.win w).cause who k (devNow s), w)
    | [] =>
      match cov.filter (fun w => (p.win w).state == .closedPower) with
      | w :: _ => (1, w)
      | [] => (2, 0x7F)

/-- The access field of an address payload (02 R53). -/
def kCode : Acc3 → Nat
  | .read => 1 | .write => 2 | .atomic => 3

/-- The requester field of an address payload (02 R53); an engine of the device counts as Scribe's side (DEDUCED, log entry 12). -/
def whoCode (s : State) : Who → Nat
  | .job dev _ => if dev = deviceId s then 0 else 5
  | .host => 1
  | .scribe => 2
  | .carousel => 2
  | .fine _ _ => 2
  | .debug => 2

/-- The device of a requester. -/
def whoDev (s : State) : Who → Nat
  | .job dev _ => dev
  | .fine dev _ => dev
  | _ => deviceId s

/-- The job of a requester, 0xFFFF for none. -/
def whoJob : Who → Nat
  | .job _ id => id
  | .fine _ id => id
  | _ => 0xFFFF

/-- A refused scratchpad request: counted, reported at most once a microsecond per device, job and cause (09 R224). -/
def spadRefuse (n addr cause w : Nat) (who : Who) (k : Acc3) (inj : Bool) (s : State) : State :=
  let p := spad n s
  let s1 := bump 3 n 0x80 1 s
  let s2 := if w < 128 then setSpad n (p.setWin w { p.win w with refused := min ((p.win w).refused + 1) 0xFFFFFFFF }) s1 else s1
  let pay := addrPayload addr (kCode k) (whoCode s who) (whoDev s who) + cause * 2 ^ 64 + w * 2 ^ 68 + whoJob who * 2 ^ 75 + injFlag inj
  raiseRated (((n * 8 + cause) * 256 + whoDev s who) * 65536 + whoJob who) oneUs
    { c := 3, i := n, bit := 9, code := 0x7400, job := whoJob who, ctx := spadOff addr / 0x80000, payload := pay } s2

/-- The words (Inkwell offsets) of a run of offsets that hold a double-bit error. -/
def Spad.doubles (p : Spad) (off n : Nat) : List Nat := p.double.filter (fun w => decide (w < off + n) && decide (off < w + 8))

/-- The words of a run of offsets that hold a single-bit error, with the bit. -/
def Spad.singles (p : Spad) (off n : Nat) : List (Nat × Nat) := p.single.filter (fun e => decide (e.1 < off + n) && decide (off < e.1 + 8))

/-- The words of an Inkwell that a predicate names hold no error any more (09 R230). -/
def Spad.clean (p : Spad) (f : Nat → Bool) : Spad :=
  { p with single := p.single.filter (fun e => !f e.1), double := p.double.filter (fun w => !f w), wb := p.wb.filter (fun w => !f w)
           planted := p.planted.filter (fun w => !f w) }

/-- SPAD_CORRECTED for a word with its bit, 64 to 71 for a check bit: the payload has 6 bits for it and holds its low 6 (09 R233; DESIGN
CHOICE, log entry 48). -/
def evSpadCorrected (n : Nat) (e : Nat × Nat) (inj : Bool) : Ev :=
  { c := 3, i := n, bit := 5, code := 0x1400, ctx := e.1 / 0x80000, payload := e.1 + e.2 % 64 * 2 ^ 23 + injFlag inj }

/-- SPAD_UNCORRECTABLE for a word (09 R230, R233). -/
def evSpadUncorrectable (n w job : Nat) (inj : Bool) : Ev :=
  { c := 3, i := n, bit := 7, code := 0x3400, ctx := w / 0x80000, payload := w + job * 2 ^ 23 + injFlag inj }

/-- A single-bit error corrected on the read path: counted, reported, queued for write-back in its bank's buffer of 8 (09 R230). -/
def spadCorrect (n : Nat) (e : Nat × Nat) (s : State) : State :=
  let p := spad n s
  let b := e.1 / 0x80000
  let held := (p.wb.filter (fun w => w / 0x80000 == b)).length
  let s1 := if held < 8 ∧ p.wb.contains e.1 = false then setSpad n { p with wb := p.wb ++ [e.1] } s else s
  raise (evSpadCorrected n e (p.planted.contains e.1)) (bump 3 n 0x7C 1 s1)

/-- The error correction of a scratchpad read: status 0, or 4 where a word is uncorrectable; each such word is reported, and each word with a
single-bit error corrected (09 R230). -/
def spadReadEcc (n off len job : Nat) (s : State) : Nat × State :=
  let p := spad n s
  let bad := p.doubles off len
  let s1 := bad.foldl (fun acc w => raise (evSpadUncorrectable n w job (p.planted.contains w)) acc) s
  (if bad.isEmpty then 0 else 4, (p.singles off len).foldl (fun acc e => spadCorrect n e acc) s1)

/-- The words of a run that a write covers whole lose their errors; armed injections put a new one in: of the two, that of two data bits
stands where both are armed, and both are used up (09 R230, R233; DESIGN CHOICE, log entry 48). -/
def spadWriteEcc (n off len : Nat) (s : State) : State :=
  let p := spad n s
  let whole := fun w => decide (off ≤ w) && decide (w + 8 ≤ off + len)
  let p1 := { p.clean whole with lastWr := some (s.time.clk / 2, off, len) }
  let w0 := off / 8 * 8
  let p2 := p1.clean (fun w => w == w0)
  if armed 3 n 7 s then disarm 3 n 5 (disarm 3 n 7 (setSpad n { p2 with double := w0 :: p2.double, planted := w0 :: p2.planted } s))
  else if armed 3 n 5 s then
    disarm 3 n 5 (setSpad n (if p1.double.contains w0 then p1 else { p2 with single := (w0, 64) :: p2.single, planted := w0 :: p2.planted }) s)
  else setSpad n p1 s

/-- Whether the address of a 64-byte aligned run lies in LPDDR5X's stack location: controller, channel, row, rank, bank (10 R235). -/
structure McLoc where
  mc : Nat
  ch : Nat
  row : Nat
  rank : Nat
  bank : Nat
  deriving DecidableEq, Repr

/-- The stack location of a device address (10 R235). -/
def mcLoc (a : Nat) : McLoc :=
  let u := a / 2048
  let f := fun hi lo => natField u hi lo
  let g := f 5 0 ^^^ f 11 6 ^^^ f 17 12 ^^^ f 23 18 ^^^ f 26 24
  let v := u / 64
  let row := v / 32
  { mc := g % 8, ch := g / 8, row := row, rank := v / 16 % 2, bank := (v % 16) ^^^ (row % 16) }

/-- The bank index of MC_SPARE_SEL: channel × 32 + rank × 16 + bank (10). -/
def McLoc.bankIdx (l : McLoc) : Nat := l.ch * 32 + l.rank * 16 + l.bank

/-- The 64-byte blocks that a run of bytes touches, as block numbers. -/
def blocksOf (a n : Nat) : List Nat := if n = 0 then [] else (List.range ((a + n - 1) / 64 + 1 - a / 64)).map (fun i => a / 64 + i)

/-- The context of a controller's events: channel × 2 + rank (10 R251). -/
def McLoc.ctx (l : McLoc) : Nat := l.ch * 2 + l.rank

/-- The key of a row: bank index × 65,536 + row (10 MC_SPARE_SEL). -/
def McLoc.rowKey (l : McLoc) : Nat := l.bankIdx * 65536 + l.row

/-- Where the check bytes of a location's unit lie: bank XOR 8 of the same rank, row 57,344 + row div 16 (10 R237). -/
def McLoc.check (l : McLoc) : McLoc := { l with bank := l.bank ^^^ 8, row := 57344 + l.row / 16 }

/-- The key of the row that holds a byte of a block's 68-byte codeword: 0 to 63 data, 64 to 67 check bytes (10 R237). -/
def McLoc.errRow (l : McLoc) (byte : Nat) : Nat := if byte < 64 then l.rowKey else l.check.rowKey

/-- The blocks that a predicate names hold no error any more (10 R240). -/
def Mc.clean (m : Mc) (f : Nat → Bool) : Mc :=
  { m with single := m.single.filter (fun e => !f e.1), bad := m.bad.filter (fun b => !f b), wb := m.wb.filter (fun b => !f b)
           planted := m.planted.filter (fun b => !f b) }

/-- Bytes that an error the machine does not detect, or cannot correct, has replaced: free values (DESIGN CHOICE, log entry 3). -/
def freeAt (a n : Nat) (s : State) : State :=
  (List.range n).foldl (fun acc k => let r := fresh acc; wrBytes (a + k) [BitVec.ofNat 8 r.1] r.2) s

/-- Spare rows left in a bank (10 R248). -/
def Mc.left (m : Mc) (b : Nat) : Nat := Tbl.get 8 m.spares b

/-- A fault beyond sparing: the device will fence itself; a second cause that arises before the fence leaves the first reason in place (17 R412;
DESIGN CHOICE, log entry 46). -/
def fenceFor (reason : Nat) (s : State) : State :=
  if s.ring.fenceDue.isSome then s else { s with ring := { s.ring with fenceDue := some reason } }

/-- A row put up for sparing, if its bank has a spare left (10 R248). -/
def Mc.toSpare (m : Mc) (key : Nat) : Mc :=
  if m.left (key / 65536) = 0 ∨ m.copying.contains key then m else { m with copying := m.copying ++ [key] }

/-- An uncorrectable block found: its unit is watched until every block is written; with no spare left the device fences itself
(10 R248). -/
def badFound (blk : Nat) (s : State) : State :=
  let l := mcLoc (blk * 64)
  let m := mc l.mc s
  let u := blk / 32
  let s1 := if m.badRows.any (fun e => e.1 == u) then s
    else setMc l.mc { m with badRows := m.badRows ++ [(u, (List.range 32).map (fun k => u * 32 + k))] } s
  if m.left l.bankIdx = 0 then fenceFor 1 s1 else s1

/-- A block of a watched unit written; after the last one the row is spared (10 R248). -/
def Mc.blockWritten (m : Mc) (blk : Nat) : Mc :=
  let l := mcLoc (blk * 64)
  let rows := m.badRows.map (fun e => if e.1 = blk / 32 then (e.1, e.2.filter (fun b => b != blk)) else e)
  let m1 := { m with badRows := rows.filter (fun e => !e.2.isEmpty) }
  if rows.any (fun e => e.2.isEmpty) then m1.toSpare l.rowKey else m1

/-- MC_CORRECTED for a block and the byte in error; the payload's field has 6 bits, and a check byte shows its low 6 (10 R251; DESIGN CHOICE, log
entry 48). -/
def evMcCorrected (blk byte : Nat) (inj : Bool) : Ev :=
  let l := mcLoc (blk * 64)
  { c := 4, i := l.mc, bit := 5, code := 0x1500, ctx := l.ctx, payload := blk * 64 + byte % 64 * 2 ^ 48 + injFlag inj }

/-- MC_UNCORRECTABLE for a block and the requesting job (10 R240, R251). -/
def evMcUncorrectable (blk job : Nat) (inj : Bool) : Ev :=
  let l := mcLoc (blk * 64)
  { c := 4, i := l.mc, bit := 10, code := 0x3500, ctx := l.ctx, payload := blk * 64 + job * 2 ^ 48 + injFlag inj }

/-- A block read with error correction: status 0, or 4 where it is uncorrectable; with inline ECC off nothing is detected (10 R237 to R240, R247). -/
def mcReadBlock (blk job : Nat) (s : State) : Nat × State :=
  let l := mcLoc (blk * 64)
  let m := mc l.mc s
  if inlineEcc s = false then (0, s)
  else if m.bad.contains blk then (4, raise (evMcUncorrectable blk job (m.planted.contains blk)) (bump 4 l.mc 0x68 1 (badFound blk s)))
  else match m.single.find? (fun e => e.1 == blk) with
    | some e =>
      let s1 :=
        if m.wb.contains blk then s
        else if m.wb.length < 32 then setMc l.mc { m with wb := m.wb ++ [blk] } s
        else wrField 4 l.mc 0x6C 31 16 (min (rdField 4 l.mc 0x6C 31 16 s + 1) 0xFFFF) s
      (0, raiseRated (0x400000 + l.mc) oneMs (evMcCorrected blk e.2 (m.planted.contains blk)) (bump 4 l.mc 0x60 1 s1))
    | none => (0, s)

/-- A block written, in full or from what was read of it: its errors are gone. Armed injections put a new one in: bit 5 in byte 0, bit 10 in
bytes 0 and 1, bit 10 where both are armed, and both are used up; with inline ECC off the bytes change and nothing tells (10 R238 to R240, R247,
R251; DESIGN CHOICE, log entry 48). -/
def mcWriteBlock (blk : Nat) (s : State) : State :=
  let l := mcLoc (blk * 64)
  let m1 := ((mc l.mc s).clean (fun b => b == blk)).blockWritten blk
  let two := armed 4 l.mc 10 s
  if two || armed 4 l.mc 5 s then
    let s1 := disarm 4 l.mc 5 (disarm 4 l.mc 10 (setMc l.mc m1 s))
    if inlineEcc s = false then freeAt (blk * 64) (if two then 2 else 1) s1
    else if two then setMc l.mc { m1 with bad := blk :: m1.bad, planted := blk :: m1.planted } s1
    else setMc l.mc { m1 with single := (blk, 0) :: m1.single, planted := blk :: m1.planted } s1
  else setMc l.mc m1 s

/-- Blocks read in order; the first uncorrectable one ends the read. -/
def mcReadBlocks (job : Nat) : List Nat → State → Nat × State
  | [], s => (0, s)
  | b :: t, s =>
    let r := mcReadBlock b job s
    if r.1 = 0 then mcReadBlocks job t r.2 else r

/-- Bytes moved, counted at the controller of each block, and the blocks by requesting job (10 MC_READ_BYTES, MC_WRITE_BYTES; 16 R378). -/
def mcCount (wr : Bool) (a n job : Nat) (s : State) : State :=
  (blocksOf a n).foldl (fun acc b =>
    let lo := max a (b * 64)
    let hi := min (a + n) (b * 64 + 64)
    let m := (mcLoc (b * 64)).mc
    noteMove (48 + m) job 1 (addCtr 4 m (if wr then 0x78 else 0x70) (hi - lo) acc)) s

/-- Whether a controller's training has succeeded (10 R249). -/
def mcTrained (m : Nat) (s : State) : Bool := natBit (rdReg 4 m 0x44 s).toNat 0

/-- Whether the controllers of a run of bytes are powered, out of self-refresh and trained (10 R249; 11 R269 status 5; 16 R386). -/
def mcReady (a n : Nat) (s : State) : Bool :=
  memUp s && (blocksOf a n).all (fun b => domainOn (96 + (mcLoc (b * 64)).mc) s && mcTrained (mcLoc (b * 64)).mc s)

/-- Bytes put into LPDDR5X: every block they touch is written (10 R238). -/
def lpddrPut (a : Nat) (l : List Byte) (job : Nat) (s : State) : State :=
  mcCount true a l.length job ((blocksOf a l.length).foldl (fun acc b => mcWriteBlock b acc) (wrBytes a l s))

/-- Whether two runs of bytes touch a block in common. -/
def blocksMeet (a n b k : Nat) : Bool := decide (0 < n ∧ 0 < k ∧ a / 64 ≤ (b + k - 1) / 64 ∧ b / 64 ≤ (a + n - 1) / 64)

/-- The job of a requester for a slot, 0xFFFF for none. -/
def memJob : MemWho → Nat
  | .job id => id
  | _ => 0xFFFF

/-- The writes of parts of blocks that a request to the same blocks waits for, done (10 R238). -/
def pendFirst (a n : Nat) (s : State) : State :=
  (List.range 8).foldl (fun acc m =>
    ((mc m acc).pend.filter (fun e => blocksMeet e.2.1 e.2.2.length a n)).foldl (fun t e =>
      lpddrPut e.2.1 e.2.2 (memJob e.1) (setMc m { mc m t with pend := (mc m t).pend.filter (fun x => x != e) } t)) acc) s

/-- A read of LPDDR5X: the status of R269, 7 where a fence has closed memory (17 R414). -/
def lpddrRead (a n job : Nat) (s : State) : Nat × State :=
  if mcReady a n s = false then (if fenceCloses s then 7 else 5, s)
  else
    let r := mcReadBlocks job (blocksOf a n) (pendFirst a n s)
    if r.1 = 0 then (0, mcCount false a n job r.2) else r

/-- The blocks of a run of bytes that it covers in part only. -/
def partBlocks (a n : Nat) : List Nat := (blocksOf a n).filter (fun b => !(decide (a ≤ b * 64) && decide (b * 64 + 64 ≤ a + n)))

/-- A write of LPDDR5X: a part of a block is read first (10 R238). -/
def lpddrWrite (a : Nat) (l : List Byte) (job : Nat) (s : State) : Nat × State :=
  let n := l.length
  if mcReady a n s = false then (if fenceCloses s then 7 else 5, s)
  else
    let r := mcReadBlocks job (partBlocks a n) (pendFirst a n s)
    if r.1 ≠ 0 then r else (0, lpddrPut a l job r.2)

/-- How a memory access ended: the status codes of R269 and the refusal cause of R222. -/
structure AccRes where
  status : Nat
  cause : Nat
  deriving DecidableEq, Repr

/-- A local access of `l` bytes (read) or of bytes `l` (write) by a requester, with the block that reports its errors:
region, checks, error correction and effect (02 R31, R36; 09 R222; 10 R238). Data read is taken from memory afterwards. -/
def access (c i ctx : Nat) (who : Who) (k : Acc3) (a n : Nat) (data : List Byte) (s : State) : AccRes × State :=
  match regionOf s a n with
  | .unmapped => (⟨2, 0⟩, raise (evUnmapped c i a (kCode k) (whoCode s who) (whoDev s who) (whoJob who) ctx) s)
  | .regs => (⟨3, 0⟩, raise (evDenied c i a (kCode k) (whoCode s who) (whoDev s who) (whoJob who) ctx) s)
  | .lpddr =>
    match k with
    | .read => let r := lpddrRead a n (whoJob who) s; (⟨r.1, 0⟩, r.2)
    | _ => let r := lpddrWrite a data (whoJob who) s; (⟨r.1, 0⟩, r.2)
  | .spad =>
    let w := spadOf a
    let off := spadOff a
    if armed 3 w 9 s then (⟨1, 1⟩, spadRefuse w a 1 0x7F who k true (disarm 3 w 9 s))
    else
      let ck := spadCheck w off n who k s
      if ck.1 ≠ 0 then (⟨1, ck.1⟩, spadRefuse w a ck.1 ck.2 who k false s)
      else match k with
        | .read => let r := spadReadEcc w off n (whoJob who) s; (⟨r.1, 0⟩, r.2)
        | .write => (⟨0, 0⟩, spadWriteEcc w off n (wrBytes a data s))
        | .atomic =>
          let r := spadReadEcc w off n (whoJob who) s
          if r.1 ≠ 0 then (⟨r.1, 0⟩, r.2) else (⟨0, 0⟩, spadWriteEcc w off n (wrBytes a data r.2))

end Sys2Proof.Machine
end

