-- ==== Sys2Proof/Machine/RingReq.lean ====
section
/-! DEFINITION. Requests that the device sends to others over the ring: coordinates, routes, deterministic slots at the port it
leaves by, outstanding requests (17 R397 to R401, R407). -/

namespace Sys2Proof.Machine

/-- Sizes of the torus (17 RING_TOPO). -/
def torusSizes (s : State) : Nat × Nat × Nat := (rdField 5 0 0x100 3 0 s, rdField 5 0 0x100 7 4 s, rdField 5 0 0x100 11 8 s)

/-- The device ID of coordinates (17 R398). -/
def idOf (s : State) (x y z : Nat) : Nat := let n := torusSizes s; x + n.1 * (y + n.2.1 * z)

/-- The coordinate of a device in a dimension (17 R398). -/
def coordOf (s : State) (id d : Nat) : Nat :=
  let n := torusSizes s
  match d with
  | 0 => id % max n.1 1
  | 1 => id / max n.1 1 % max n.2.1 1
  | _ => id / max n.1 1 / max n.2.1 1

/-- The size of a dimension. -/
def sizeOf (s : State) (d : Nat) : Nat := let n := torusSizes s; match d with | 0 => n.1 | 1 => n.2.1 | _ => n.2.2

/-- The neighbour of a device in a dimension and direction. -/
def neighbour (s : State) (id d : Nat) (pos : Bool) : Nat :=
  let n := max (sizeOf s d) 1
  let c := coordOf s id d
  let c' := if pos then (c + 1) % n else (c + n - 1) % n
  let x := if d = 0 then c' else coordOf s id 0
  let y := if d = 1 then c' else coordOf s id 1
  let z := if d = 2 then c' else coordOf s id 2
  idOf s x y z

/-- The hops of a way round one ring: device and port by which it is left; at most `n` hops. -/
def ringWay (s : State) (d : Nat) (pos : Bool) (goal : Nat) : Nat → Nat → List (Nat × Nat)
  | 0, _ => []
  | n + 1, id =>
    if coordOf s id d = goal then []
    else (id, 2 * d + (if pos then 0 else 1)) :: ringWay s d pos goal n (neighbour s id d pos)

/-- A ring way uses a link that the route table marks down (17 R404). -/
def wayDown (s : State) (w : List (Nat × Nat)) : Bool := w.any (fun h => s.ring.down.contains h)

/-- The way taken in one dimension: the shorter, the positive on a tie, the other where the first holds a down link and the
other does not (17 R399, R404; DEDUCED, log entry 20). -/
def dimWay (s : State) (d src dst : Nat) : List (Nat × Nat) :=
  let n := sizeOf s d
  let goal := coordOf s dst d
  let p := ringWay s d true goal n src
  let m := ringWay s d false goal n src
  let a := if p.length ≤ m.length then p else m
  let b := if p.length ≤ m.length then m else p
  if wayDown s a && !wayDown s b then b else a

/-- The route of a packet: along X, then Y, then Z (17 R399). -/
def route (s : State) (src dst : Nat) : List (Nat × Nat) :=
  let wx := dimWay s 0 src dst
  let ix := idOf s (coordOf s dst 0) (coordOf s src 1) (coordOf s src 2)
  let wy := dimWay s 1 ix dst
  let iy := idOf s (coordOf s dst 0) (coordOf s dst 1) (coordOf s src 2)
  wx ++ wy ++ dimWay s 2 iy dst

/-- A ring port. -/
def port (p : Nat) (s : State) : Port := Tbl.get {} s.ring.ports p

/-- A ring port replaced. -/
def setPort (p : Nat) (v : Port) (s : State) : State := { s with ring := { s.ring with ports := Tbl.set {} s.ring.ports p v } }

/-- Whether a port holds a slot entry for a job of an origin (17 R401). -/
def detEntry (p origin job : Nat) (s : State) : Bool :=
  (List.range 16).any (fun e => let d := Tbl.get {} (port p s).det e; d.valid && d.origin == origin && d.job == job)

/-- DET_NO_SLOT (17 R417). -/
def evDetNoSlot (p origin job : Nat) : Ev := { c := 5, i := p, bit := 17, code := 0x7901, job := job, payload := origin + job * 2 ^ 8 }

/-- RING_REQ_TIMEOUT (17 R417). -/
def evReqTimeout (p dst job tag : Nat) : Ev :=
  { c := 5, i := p, bit := 11, code := 0x5903, job := job, payload := dst + job * 2 ^ 8 + tag * 2 ^ 24 }

/-- The port a packet from a device comes in by; port 0 for one that has no route (17 R399). -/
def inPort (src : Nat) (s : State) : Nat := match (route s src (deviceId s)).getLast? with | some h => h.2 ^^^ 1 | none => 0

/-- The port a packet for a device leaves by; port 0 for one that has no route. -/
def outPort (dst : Nat) (s : State) : Nat := match route s (deviceId s) dst with | h :: _ => h.2 | [] => 0

/-- RP_LINK_STATE.state of a port (17). -/
def linkState (p : Nat) (s : State) : Nat := rdField 5 p 0x40 2 0 s

/-- One waiting flit sent: it takes a sequence number and a credit and enters the replay buffer; RP_TEST may keep it off the line
(17 R395, R396, R402, R416). -/
def sendFlit (p : Nat) (f : Flit) (rest : List Flit) (s : State) : State :=
  let v := port p s
  let v1 := { v with waiting := rest, txSeq := (v.txSeq + 1) % 16384, replay := v.replay ++ [{ f with seq := v.txSeq }]
                     used := if f.vc < 7 then Tbl.set 0 v.used f.vc (Tbl.get 0 v.used f.vc + 1) else v.used
                     drop := v.drop - 1, corrupt := if v.drop = 0 then v.corrupt - 1 else v.corrupt, reorder := v.reorder - 1 }
  let s1 := setPort p v1 s
  if v.drop = 0 then addCtr 5 p 0x5C 1 s1 else s1

/-- Waiting flits sent in order while the link is up, the replay buffer has room and credits are there (17 R396, R402). -/
def pumpPort (p : Nat) : Nat → State → State
  | 0, s => s
  | n + 1, s =>
    match (port p s).waiting with
    | [] => s
    | f :: t =>
      if linkState p s ≠ 2 ∨ 8192 ≤ (port p s).replay.length ∨ (f.vc < 7 ∧ Config.vcCredits f.vc ≤ Tbl.get 0 (port p s).used f.vc) then s
      else pumpPort p n (sendFlit p f t s)

/-- Flits of a packet put at a port; a link that is down discards them (17 R399, R403). -/
def pushFlits (p vc job n : Nat) (s : State) : State :=
  if linkState p s ≠ 2 ∧ linkState p s ≠ 3 then s
  else
    let v := port p s
    let l := v.waiting ++ List.replicate n { seq := 0, vc := vc, job := job }
    pumpPort p l.length (setPort p { v with waiting := l } s)

/-- Flits of a packet with `data` bytes behind its header (17 R397). -/
def pktFlits (data : Nat) : Nat := (16 + data + 55) / 56

/-- Whether the first hop of a packet crosses the wrap link of its ring (17 R400). -/
def wraps (s : State) (p : Nat) : Bool :=
  let c := coordOf s (deviceId s) (p / 2)
  if p % 2 = 0 then c + 1 == sizeOf s (p / 2) else c == 0

/-- The VC of a packet on its first hop: 1 or 2 where it is deterministic, else 3 or 4 for a request and 5 or 6 for a response (17 R396, R400). -/
def dataVc (s : State) (p : Nat) (det resp : Bool) : Nat := (if det then 1 else if resp then 5 else 3) + b2n (wraps s p)

/-- The longest number of requests that tags can tell apart. -/
def maxReqs : Nat := 65536

/-- A request sent over the ring; the status is 0 where it is on its way (17 R397, R401; 02 R33; DESIGN CHOICE, log entry 14). -/
def sendReq (use : ReqUse) (op dst job : Nat) (det : Bool) (addr len : Nat) (data : List Byte) (pos : Nat) (s : State) : Nat × State :=
  let p := outPort dst s
  if enumerated s = false then (7, s)
  else if det && !detEntry p (deviceId s) job s then (3, raise (evDetNoSlot p (deviceId s) job) s)
  else
    let tag := s.ring.nextTag
    let s1 := { s with ring := { s.ring with nextTag := (tag + 1) % maxReqs } }
    if armed 5 p 11 s then
      let e := evReqTimeout p dst job tag
      (7, raise { e with payload := e.payload + injFlag true } (disarm 5 p 11 s1))
    else
      let s2 := { s1 with ring := { s1.ring with reqs := s1.ring.reqs ++
              [{ tag := tag, dst := dst, op := op, job := job, addr := addr, len := len, data := data, use := use, pos := pos, born := s.time.clk }] } }
      (0, pushFlits p (if op = 9 ∨ op = 10 then 0 else dataVc s p det false) job (pktFlits data.length) s2)

/-- A packet of a job that is no request put on VC 0; what it holds besides its header is the spec's only in meaning, and it counts as one
flit (17 R396, R407; DESIGN CHOICE, log entry 38). -/
def sendPktOf (job op dst : Nat) (words : List Nat) (s : State) : State :=
  pushFlits (outPort dst s) 0 job 1 { s with ring := { s.ring with sent := { op := op, dst := dst, words := words } :: s.ring.sent } }

/-- Such a packet of no job. -/
def sendPkt (op dst : Nat) (words : List Nat) (s : State) : State := sendPktOf 0xFFFF op dst words s

/-- A response put at its port: tag, status, cause, data (17 R396, R397). -/
def putResp (op dst job tag : Nat) (det : Bool) (status cause : Nat) (data : List Byte) (s : State) : State :=
  let p := outPort dst s
  pushFlits p (if op = 11 then 0 else dataVc s p det true) job (pktFlits data.length)
    { s with ring := { s.ring with sent := { op := op, dst := dst, words := [tag, status, cause] ++ data.map (fun b => b.toNat) } :: s.ring.sent } }

/-- A response to a request that came over the ring. A deterministic one that finds no slot entry of this device for its job at its port is refused
there: its requester receives status 3, in an ordinary response (17 R396, R397, R401; DEDUCED, log entry 46). -/
def sendResp (op dst job tag : Nat) (det : Bool) (status cause : Nat) (data : List Byte) (s : State) : State :=
  let p := outPort dst s
  if det && !detEntry p (deviceId s) job s then putResp op dst job tag false 3 0 [] (raise (evDetNoSlot p (deviceId s) job) s)
  else putResp op dst job tag det status cause data s

/-- The opcode of the response to a request (17 R397). -/
def respOp (op : Nat) : Nat := if op = 0 ∨ op = 2 then 3 else if op = 9 ∨ op = 10 then 11 else 4

/-- The bytes held for a purpose. -/
def rbuf (u : ReqUse) (s : State) : Tbl Byte := match s.ring.bufs.find? (fun e => e.1 == u) with | some e => e.2 | none => []

/-- Bytes put into a table from an address on. -/
def tblPutBytes (t : Tbl Byte) (a : Nat) : List Byte → Tbl Byte
  | [] => t
  | b :: l => tblPutBytes (Tbl.put t a b) (a + 1) l

/-- Bytes held for a purpose, at a global address. -/
def rbufPut (u : ReqUse) (a : Nat) (l : List Byte) (s : State) : State :=
  { s with ring := { s.ring with bufs := (u, tblPutBytes (rbuf u s) a l) :: s.ring.bufs.filter (fun e => e.1 != u) } }

/-- The bytes of a run of global addresses held for a purpose, if all are. -/
def rbufRead (u : ReqUse) (a n : Nat) (s : State) : Option (List Byte) := (List.range n).mapM (fun i => Tbl.find? (rbuf u s) (a + i))

/-- Where the failure of a read of a global address is held. -/
def farErrAt (ga : Nat) : Nat := 2 ^ 61 + 8 * ga

/-- The failure with which a read that covers a global address was answered for a purpose: status, cause, event (17 R397; 09 R223). -/
def farErr (u : ReqUse) (ga : Nat) (s : State) : Option (Nat × Nat × Nat) :=
  (List.range 256).findSome? (fun i => match rbufRead u (farErrAt (ga - i)) 8 s with
    | some l => if i < leField l 6 2 then some (leField l 0 1, leField l 1 1, leField l 2 4) else none
    | none => none)

/-- A failed read of `n` bytes noted. -/
def noteFar (u : ReqUse) (ga n st cause ev : Nat) (s : State) : State :=
  rbufPut u (farErrAt ga) (leBytes 1 st ++ leBytes 1 cause ++ leBytes 4 ev ++ leBytes 2 n) s

/-- Whether a purpose has requests outstanding. -/
def reqOut (u : ReqUse) (s : State) : Bool := s.ring.reqs.any (fun r => r.use == u)

/-- The bytes held for a purpose dropped; requests of it that are under way stay. -/
def dropBufs (u : ReqUse) (s : State) : State := { s with ring := { s.ring with bufs := s.ring.bufs.filter (fun e => e.1 != u) } }

/-- A purpose ended: its bytes and its requests are dropped; a late response finds none (17 R407). -/
def dropUse (u : ReqUse) (s : State) : State :=
  { s with ring := { s.ring with bufs := s.ring.bufs.filter (fun e => e.1 != u), reqs := s.ring.reqs.filter (fun r => r.use != u) } }

end Sys2Proof.Machine
end

