-- ==== Sys2Proof/Machine/JobOps.lean ====
section
/-! DEFINITION. What happens to a job as a whole: its stop on a kill or a failure, its DMAs' completion records, its own
completion record, and records read from queues (01 R17 to R22; 09 R227; 11 R253 to R269). -/

namespace Sys2Proof.Machine

/-- The wave of a Quill: 2Q + ((x + y) mod 2) (06 R155). -/
def wave (q : Nat) : Nat := let n := q / 4; 2 * (q % 4) + (n % 8 + n / 8) % 2

/-- The Inkwells in which a job holds Quills. -/
def JobRec.inkwells (j : JobRec) : List Nat := (j.quills.map (fun q => q / 4)).eraseDups

/-- The rank of a Quill in its copy, and the copy's Quill of a rank (05 R117). -/
def JobRec.ofRank (j : JobRec) (b : Bool) (r : Nat) : Option Nat := (j.copy b)[r]?

/-- A 16-byte DMA completion record (11 R269; DEDUCED, log entry 47). -/
def dmaRecord (status cause job bytes source seq evSeq : Nat) : List Byte :=
  leBytes 1 status ++ leBytes 1 cause ++ leBytes 2 job ++ leBytes 4 bytes ++ leBytes 2 source ++ leBytes 2 seq ++ leBytes 4 evSeq

/-- The completion of a DMA: status word to sc[status_sc], record to its queue when notify is 1 (05 R128, 11 R269). -/
def dmaFinish (k : Nat) (r : DmaReq) (status cause bytes evSeq : Nat) (s : State) : State :=
  let v := quill r.quill s
  let s1 := noteMove (k / 8) r.job bytes <| if r.statusSc = 0 ∨ v.job ≠ r.job then s else setQuill r.quill { v with sc := Tbl.set 0 v.sc r.statusSc (BitVec.ofNat 32 (status + cause * 256)) } s
  let s2 := if status = 0 then s1 else setChan k { chan k s1 with err := true } s1
  let s3 := if status = 0 then s2 else wrField 1 (k / 8) 0x44 15 8 (rdField 1 (k / 8) 0x44 15 8 s2 ||| 2 ^ (k % 8)) s2
  if r.notify && !v.copyB then pushEngine r.queue 2 r.job false false (dmaRecord status cause r.job bytes k r.seq evSeq) s3 else s3

/-- IWL_DMA_STATUS.busy of a channel, from its queue (05). -/
def chanBusy (k : Nat) (s : State) : State :=
  let b := rdField 1 (k / 8) 0x44 7 0 s
  let bit := 2 ^ (k % 8)
  wrField 1 (k / 8) 0x44 7 0 (if (chan k s).reqs.isEmpty then (if natBit b (k % 8) then b - bit else b) else b ||| bit) s

/-- Every DMA of a job cancelled, each with status 6 and the bytes that its sent writes carry (01 R22, 11 R269). -/
def cancelDmas (id : Nat) (s : State) : State :=
  s.chans.foldl (fun acc (e : Nat × DmaChan) =>
    let gone := e.2.reqs.filter (fun r => r.job == id)
    if gone.isEmpty then acc
    else
      let s1 := setChan e.1 { chan e.1 acc with reqs := e.2.reqs.filter (fun r => r.job != id) } acc
      chanBusy e.1 (gone.foldl (fun a r => dmaFinish e.1 r 6 0 (if r.sent then (match r.err with | some x => x.2.2.1 | none => r.moved) else 0) 0 a) s1)) s

/-- A window closed because its owner left ADMITTED and RUNNING (09 R224). -/
def Window.close (w : Window) : Window :=
  match w.state with
  | .opened | .closedPower | .closed => { w with state := .closed, gone := true }
  | .free => w

/-- Every window a job owns closed. -/
def closeWindows (id : Nat) (s : State) : State :=
  { s with spads := s.spads.map (fun e => (e.1, { e.2 with wins := e.2.wins.map (fun w => (w.1, if w.2.owner = id then w.2.close else w.2)) })) }

/-- Whether SPAD_DEBUG.hold_fill holds fills in an Inkwell (09 R229). -/
def fillHeld (n : Nat) (s : State) : Bool := natBit (rdReg 3 n 0x94 s).toNat 0

/-- A job's shares and program units put up for zero-fill, or held (09 R227, R229). -/
def releaseLines (j : JobRec) (s : State) : State :=
  let s1 := j.quills.foldl (fun acc q =>
    let n := q / 4
    let p := spad n acc
    if fillHeld n acc then setSpad n { p with heldShares := p.heldShares ++ [q % 4] } acc
    else setSpad n { p with pendShares := p.pendShares ++ [q % 4] } acc) s
  j.areas.foldl (fun acc a =>
    let n := a.1
    let p := spad n acc
    let us := (List.range a.2.2).map (fun i => a.2.1 + i)
    setSpad n { p with pendUnits := p.pendUnits ++ us } acc) s1

/-- The Quills of a job stopped, their operations abandoned (05 R130). -/
def stopQuills (j : JobRec) (s : State) : State :=
  j.quills.foldl (fun acc q => let v := quill q acc; setQuill q { v with st := .stopping, wait := 0, ops := [], sigs := [], arrived := false, startAt := none } acc) s

/-- A job taken out of the queues and barriers it waits in, and out of the arrivals that this device has as a barrier's root (06 R158; DEDUCED, log
entry 21). -/
def leaveWaits (j : JobRec) (s : State) : State :=
  { s with
    qe := { s.qe with popWait := s.qe.popWait.filter (fun w => !(j.quills.contains w.2)), pushWait := s.qe.pushWait.filter (fun w => !(j.quills.contains w.2)) }
    barriers := s.barriers.filter (fun b => b.job != j.d.id)
    groups := s.groups.map (fun g =>
      let gone := fun (m : Nat) => g.members[m]? == some (deviceId s, j.d.id)
      { g with arrivedA := g.arrivedA.filter (fun m => !gone m), arrivedB := g.arrivedB.filter (fun m => !gone m) })
    ring := { s.ring with reqs := s.ring.reqs.filter (fun r => r.job != j.d.id) } }

/-- A reserved packet replaced in the list. -/
def setPkt (p v : Pkt) (s : State) : State := { s with qe := { s.qe with pkts := s.qe.pkts.map (fun x => if x = p then v else x) } }

/-- A reserved packet made a pad packet, which wr_ptr passes at the queue's next move (11 R257; DEDUCED, log entry 47): reason 0 limit, 1 kill,
2 cancel, 3 fence. -/
def padPacket (p : Pkt) (reason : Nat) (inj : Bool) (s : State) : State :=
  let d := qDesc p.q s
  let s1 := if memUp s then wrBytes (d.base + p.ptr % d.size) (leBytes 4 (2 ^ 31 + p.stride) ++ leBytes 4 0xFFFFFFFF) s else s
  raise (qeEvent 9 0x3601 p.q p.job (p.num + reason * 2 ^ 32 + p.job * 2 ^ 34 + injFlag inj))
    (setPkt p { p with pad := true, complete := true, len := p.stride } s1)

/-- The open packets of a job's QPUSHes and DMAs made pads at once (11 R257). -/
def padJobPackets (id : Nat) (s : State) : State :=
  (s.qe.pkts.filter (fun p => p.job == id && p.dev == deviceId s && !p.complete && (p.rtype == 0 || p.rtype == 2))).foldl
    (fun acc p => padPacket p (if p.rtype = 0 then 1 else 2) false acc) s

/-- A job that is ADMITTED or RUNNING killed or failed: windows close, DMAs are cancelled, Quills stop, and its lines wait for
the zero-fill; its reserved packets become pads; the status and event of its completion record are set (01, job states; 09 R227; 11 R257). -/
def stopJob (id status evSeq : Nat) (s : State) : State :=
  match findJob id s with
  | some j =>
    if j.live then
      let s1 := updJob id (fun j => { j with phase := .scrubbing, status := status, evSeq := evSeq }) s
      releaseLines j (leaveWaits j (stopQuills j (cancelDmas id (padJobPackets id (closeWindows id s1)))))
    else s
  | none => s

/-- A job that fails, on an event that is raised (01, job states; 11 R267). -/
def failWith (id : Nat) (e : Ev) (s : State) : State :=
  let r := raiseSeq e s
  stopJob id 4 r.1 r.2

/-- A job completion record's 64 bytes (11 R267). -/
def jobRecord (j : JobRec) (dev writer now mac cap : Nat) : List Byte :=
  leBytes 2 j.d.id ++ leBytes 1 j.status
    ++ leBytes 1 (b2n j.timingEx + 2 * j.exCause + 16 * b2n j.unrec + 32 * b2n j.d.safety + 64 * b2n j.d.det)
    ++ leBytes 2 j.numeric ++ leBytes 1 dev ++ leBytes 1 writer ++ leBytes 4 j.evSeq ++ leBytes 4 j.throttleNs
    ++ leBytes 4 j.refreshDef ++ leBytes 4 j.retryFlits ++ leBytes 8 j.start ++ leBytes 8 now ++ leBytes 8 (j.energy / 1000)
    ++ leBytes 8 mac ++ leBytes 8 cap

/-- Partial words of a unit 2^L noted as written to a binding of a job's copy (03 R70). -/
def notePartials (id : Nat) (b : Bool) (bind : Nat) (L : Int) (s : State) : State :=
  updJob id (fun j => { j with partials := ((b, bind, L) :: j.partials).eraseDups }) s

/-- What was noted of a binding forgotten, since something else than an operation writes it. -/
def forgetPartials (id : Nat) (b : Bool) (bind : Nat) (s : State) : State :=
  updJob id (fun j => { j with partials := j.partials.filter (fun e => !(e.1 == b && e.2.1 == bind)) }) s

/-- Whether the partial words that a binding holds all have another unit than 2^L (03 R70). -/
def partialsDiffer (id : Nat) (b : Bool) (bind : Nat) (L : Int) (s : State) : Bool :=
  match findJob id s with
  | some j => let l := j.partials.filter (fun e => e.1 == b && e.2.1 == bind); !l.isEmpty && l.all (fun e => e.2.2 != L)
  | none => false

/-- Sum of a 64-bit counter over Quills. -/
def sumCtr (off : Nat) (qs : List Nat) (s : State) : Nat := qs.foldl (fun n q => n + (rdCtr 2 q off s).toNat) 0

/-- Whether a queue can never take a 64-byte completion record as it stands: disabled, or of the wrong record size (11 R268). -/
def complBad (q : Nat) (s : State) : Bool :=
  let d := qDesc q s
  !d.enabled || (if d.fixed then d.recordSize != 64 else decide (d.recordSize < 64))

/-- Whether a completion record can be written or staged now (11 R262). -/
def complReady (q : Nat) (s : State) : Bool :=
  decide (s.qe.staging.length < 2048) || (!complBad q s && queueTakes q 64 true s)

/-- QUEUE_REFUSED with cause 16, for a completion record held (11 R268, R271). -/
def evHeld (q : Nat) (j : JobRec) : Ev :=
  let b3 := b2n j.timingEx + 2 * j.exCause + 16 * b2n j.unrec + 32 * b2n j.d.safety + 64 * b2n j.d.det
  qeEvent 11 0x7600 q j.d.id (16 + j.status * 2 ^ 8 + b3 * 2 ^ 16 + j.numeric * 2 ^ 24 + j.evSeq * 2 ^ 40)

/-- The device that writes a fenced device's records: the manager, or the lowest-numbered worker with a path from a fenced manager (17 R413). -/
def standIn (s : State) : Option Nat :=
  if deviceId s ≠ 0 then some 0
  else (List.range 256).find? (fun k => decide (k ≠ 0) && (let v := Tbl.get ({} : Peer) s.ring.peers k; v.present && !v.fenced) && !wayDown s (route s 0 k))

/-- A completion record that the device cannot write itself: relayed on VC 0, or not written at all by a device that went dark (17 R413, R415). -/
def relayRecord (bytes : List Byte) (s : State) : State :=
  if fenceReason s = 4 then s
  else match standIn s with
    | some d => sendPkt 13 d (fenceReason s :: bytes.map (fun b => b.toNat)) s
    | none => s

/-- Whether completion records take that way. -/
def relays (s : State) : Bool := decide (1 ≤ fenceReason s ∧ fenceReason s ≤ 4)

/-- throttle_ns of a job: the length of the emergency throttles that it ran through (06 R153; 16 R377). -/
def throttleOf (j : JobRec) (s : State) : Nat :=
  match j.d.quillsA, j.phase with
  | _, .queued | [], _ => 0
  | q :: _, _ => min ((quill q s).throttle / 3) 0xFFFFFFFF

/-- A job's completion record written to its queue, or kept in the staging buffer; the job then leaves the table, or stays
only as an ID in use. A job ended while QUEUED held no Quill: its MAC counts read 0 (11 R261, R262, R267, R268; 17 R413). -/
def complete (j : JobRec) (s : State) : State :=
  let q := j.d.complQ
  let ran := j.phase != .queued
  let rec64 := jobRecord { j with throttleNs := throttleOf j s } (deviceId s) (deviceId s) (devNow s) (if ran then sumCtr 0x60 j.quills s else 0) (if ran then sumCtr 0x68 j.quills s else 0)
  if relays s then dropJob j.d.id (relayRecord rec64 s)
  else if !complBad q s && queueTakes q 64 true s then dropJob j.d.id (reserve q 1 j.d.id (deviceId s) rec64 s)
  else
    let s1 := updJob j.d.id (fun k => { k with phase := .held }) s
    let s2 := if complBad q s1 then raise (evHeld q j) s1 else queueFull q j.d.id s1
    stage { q := q, rtype := 1, bytes := rec64, prio := true, job := j.d.id, compl := true } s2

/-- A QUEUED job ended: its record is written or staged, or it stays at the head of its queue until there is room (01, job states; 11 R262). -/
def endQueued (id status evSeq : Nat) (s : State) : State :=
  let s1 := updJob id (fun k => { k with status := status, evSeq := evSeq }) s
  match findJob id s1 with
  | some j => if complReady j.d.complQ s1 then complete j s1 else s1
  | none => s1

/-- The next record of a queue from a read pointer: its length word's fields, its packet's start; pads are skipped (11 R254). -/
def headAt (d : QDesc) (s : State) : Nat → Nat → Option (Nat × Nat)
  | 0, _ => none
  | n + 1, rd =>
    if rd = d.wr then none
    else
      let w := rdLe s (d.base + rd % d.size) 4
      if natBit w 31 then headAt d s n ((rd + max 8 (w % 2 ^ 24)) % (2 * d.size)) else some (rd, w % 2 ^ 24)

/-- The record at the head of a queue: pointer and length (11 R254, R256). -/
def qHead (q : Nat) (s : State) : Option (Nat × Nat) :=
  let d := qDesc q s
  headAt d s (d.used / 8 + 1) d.rd

/-- The bytes of a record at a packet's pointer. -/
def recBytes (d : QDesc) (ptr len : Nat) (s : State) : List Byte := rdBytes s (d.base + ptr % d.size + 8) len

/-- The length words of the packets that start in the next `left` bytes of a queue overwritten with 0 (11 R260). -/
def clearLens (d : QDesc) : Nat → Nat → Nat → State → State
  | 0, _, _, s => s
  | n + 1, rd, left, s =>
    if left = 0 then s
    else
      let w := rdLe s (d.base + rd % d.size) 4
      let st := if natBit w 31 then max 8 (w % 2 ^ 24) else stride (w % 2 ^ 24)
      clearLens d n ((rd + st) % (2 * d.size)) (left - st) (wrBytes (d.base + rd % d.size) (leBytes 4 0) s)

/-- Whether a record stands in a queue, staged, reserved or visible, and not consumed (11 R254, R262). -/
def queueHolds (q : Nat) (rec : List Byte) (s : State) : Bool :=
  let d := qDesc q s
  let walk := (List.range (d.used / 8 + 1)).foldl (fun (acc : Nat × Bool) _ =>
    if acc.1 = d.wr ∨ acc.2 = true then acc
    else
      let w := rdLe s (d.base + acc.1 % d.size) 4
      let st := if natBit w 31 then max 8 (w % 2 ^ 24) else stride (w % 2 ^ 24)
      ((acc.1 + st) % (2 * d.size), !natBit w 31 && recBytes d acc.1 (w % 2 ^ 24) s == rec)) (d.rd, false)
  s.qe.staging.any (fun r => r.q == q && r.bytes == rec) || walk.2
    || s.qe.pkts.any (fun p => p.q == q && recBytes d p.ptr rec.length s == rec)

/-- CAR_LOW_WATER (12 R294). -/
def evLowWater (g n : Nat) : Ev := { c := 7, i := 0, bit := 6, code := 0x2700, ctx := g, payload := n }

/-- The buffers of a batch group that its consumer has passed become free; too few prepared batches are reported once (12 R285). -/
def carFree (g : Nat) (s : State) : State :=
  let k := Tbl.get {} s.car.groups g
  let q := leField k.cfg 20 3
  let prep := k.prepared.filter (fun e => queueHolds q e.2 s)
  let low := byteAt k.cfg 3
  let fire := k.lowArmed && decide (prep.length < low) && k.st == 1
  let arm := if fire then false else k.lowArmed || decide (low ≤ prep.length)
  let s1 := { s with car := { s.car with groups := Tbl.set {} s.car.groups g { k with prepared := prep, lowArmed := arm } } }
  if fire then raise (evLowWater g prep.length) s1 else s1

/-- The same for every group whose batches go to a queue. -/
def carConsumed (q : Nat) (s : State) : State :=
  s.car.groups.foldl (fun acc (e : Nat × CarGroup) => if leField e.2.cfg 20 3 = q ∧ e.2.prepared ≠ [] then carFree e.1 acc else acc) s

/-- A queue's read pointer moved forward: length words cleared, QUEUE_FULL re-armed, IDs whose held records have been read given up (11 R260, R261,
R268). -/
def advanceRd (q ptr : Nat) (s : State) : State :=
  let d := qDesc q s
  let s1 := clearLens d (d.used / 8 + 1) d.rd (d.dist ptr d.rd) s
  let s2 := { s1 with
    qe := { s1.qe with srcs := s1.qe.srcs.filter (fun e => e.q != q || decide (d.dist ptr d.rd ≤ d.dist e.ptr d.rd)) }
    jobs := s1.jobs.filter (fun j => match j.heldAt with | some (k, p) => k != q || decide (d.dist ptr d.rd ≤ d.dist p d.rd) | none => true) }
  carConsumed q (queueRearm q (qPut q { d with rd := ptr } s2))

/-- The producer of the record at the head of an engine's queue: job and device; the device itself where none is known. -/
def qSource (q : Nat) (s : State) : Nat × Nat :=
  match qHead q s with
  | some h => (match s.qe.srcs.find? (fun e => e.q == q && e.ptr == h.1) with | some e => (e.job, e.dev) | none => (0xFFFF, deviceId s))
  | none => (0xFFFF, deviceId s)

/-- The entry of a descriptor-cache event: which entry holds a queue is the implementation's, a free value (11 R271; DESIGN CHOICE, log entry 3). -/
def qdEvent (bit code q : Nat) (inj : Bool) (s : State) : State :=
  let r := fresh s
  raise (qeEvent bit code q 0xFFFF (r.1 % 4096 + injFlag inj)) r.2

/-- What a queue had in flight forgotten: its reserved packets, its producers' names, the held records that stood in it (11 R263, R271). -/
def forgetQueue (q : Nat) (s : State) : State :=
  { s with
    qe := { s.qe with pkts := s.qe.pkts.filter (fun p => p.q != q), srcs := s.qe.srcs.filter (fun e => e.q != q)
                      fullLatch := s.qe.fullLatch.filter (fun x => x != q) }
    jobs := s.jobs.filter (fun j => match j.heldAt with | some (k, _) => k != q | none => true) }

/-- A descriptor whose pointers and counts are lost: free values (11 R271; DESIGN CHOICE, log entry 3). -/
def QDesc.lost (d : QDesc) (n : Nat) : QDesc :=
  let f := fun k => Config.openValue [3, n, k] % 2 ^ 32
  { d with enabled := false, wr := f 0 % (2 * d.size), rd := f 1 % (2 * d.size), res := f 2 % (2 * d.size), notices := f 3, packets := f 4, dropped := f 5 }

/-- An uncorrectable descriptor: the queue is disabled, its pointers are lost, and every job blocked on it fails (11 R271). -/
def qdBroken (q : Nat) (inj : Bool) (s : State) : State :=
  let r := fresh s
  let s1 := qdEvent 10 0x3602 q inj (forgetQueue q (qPut q ((qDesc q s).lost r.1) r.2))
  let jobs := ((s.qe.popWait ++ s.qe.pushWait).filterMap (fun w => if w.1 = q then some (quill w.2 s).job else none)).eraseDups
  let seq := if s1.ev.next = s.ev.next then 0 else (rdReg 6 0 0x1C s1).toNat
  jobs.foldl (fun acc j => stopJob j 4 seq acc) s1

/-- Whether memory holds an uncorrectable block among a run of bytes (10 R240). -/
def memBad (a n : Nat) (s : State) : Bool := inlineEcc s && (blocksOf a n).any (fun b => (mc (mcLoc (b * 64)).mc s).bad.contains b)

/-- A read of memory by an engine of the device: errors are corrected and reported (10 R239, R240). -/
def engineRead (a n : Nat) (s : State) : State := (mcReadBlocks 0xFFFF (blocksOf a n) s).2

/-- Whether the head record of a queue lies in memory with an uncorrectable block (10 R240). -/
def headBad (q : Nat) (s : State) : Bool :=
  match qHead q s with | some (ptr, len) => memBad ((qDesc q s).base + ptr % (qDesc q s).size) (len + 8) s | none => false

/-- The head record of a queue read by its engine (10 R239, R240). -/
def headRead (q : Nat) (s : State) : State :=
  match qHead q s with | some (ptr, len) => engineRead ((qDesc q s).base + ptr % (qDesc q s).size) (len + 8) s | none => s

/-- A use of a descriptor by an operation: it comes into the cache, and an armed injection shows; one that memory cannot give is as one that the
cache cannot (10 R240; 11 R253, R271; DEDUCED, log entry 48). -/
def qdUse (q : Nat) (s0 : State) : State :=
  let s := qTouch q s0
  if qeBase s = 0 ∨ memUp s = false then s
  else if qCached q s0 = false ∧ memBad (qeBase s + 64 * q) 64 s = true then qdBroken q false (engineRead (qeBase s + 64 * q) 64 s)
  else if armed 6 0 10 s then qdBroken q true (disarm 6 0 10 s)
  else if armed 6 0 5 s then qdEvent 5 0x1600 q true (disarm 6 0 5 s)
  else s

/-- The head record taken from an enabled queue: its bytes (11 R256, R263). -/
def qTake (q : Nat) (s : State) : Option (List Byte × State) :=
  match qHead q s with
  | some (ptr, len) =>
    let d := qDesc q s
    if d.enabled then some (recBytes d ptr len s, advanceRd q ((ptr + stride len) % (2 * d.size)) s) else none
  | none => none

/-- The head record taken by an engine of the device, which uses the descriptor; one that memory cannot give stays where it is (10 R240; 11 R253,
R271; DEDUCED, log entry 48). -/
def engineTake (q : Nat) (s : State) : Option (List Byte × State) :=
  let s1 := qdUse q s
  if headBad q s1 then none else qTake q (headRead q s1)

/-- What an engine that gets no record leaves: an uncorrectable descriptor or record may have stopped it (10 R240; 11 R271). -/
def noTake (q : Nat) (s : State) : State :=
  if (qHead q s).isSome && (armed 6 0 10 s || memBad (qeBase s + 64 * q) 64 s || headBad q s) then (let s1 := qdUse q s; if headBad q s1 then headRead q s1 else s1) else s

/-- The number of the last record assigned between two states, 0 for none (02 R50). -/
def lastSeq (s s' : State) : Nat := if s'.ev.next = s.ev.next then 0 else if s'.ev.next = 1 then 0xFFFFFFFF else s'.ev.next.toNat - 1

/-- A job failed by the event last raised between two states (11 R267). -/
def failSince (id : Nat) (s s' : State) : State := stopJob id 4 (lastSeq s s') s'

/-- A request made for a job has ended with a status: a job that is still live fails if it is not 0 (09 R223, R230; 10 R240). -/
def failOn (id status : Nat) (s s' : State) : State :=
  if status ≠ 0 ∧ (match findJob id s' with | some j => j.live | none => false) = true then failSince id s s' else s'

/-- A settings record asked for, written when Scribe comes to it (19 R455). -/
def askSetting (kind : Nat) (body : SetBody) (s : State) : State :=
  { s with settings := { s.settings with waiting := s.settings.waiting ++ [{ kind := kind, auth := 0, seq := 0, body := body, valid := true }] } }

/-- The map of a Quill written to persistent settings (05 R136). -/
def saveNibs (q : Nat) (s : State) : State :=
  let v := quill q s
  askSetting 4 (.nibs q { failed := v.failed, spared := v.spared, nsInUse := v.nsInUse, nsFailed := v.nsFailed, withdrawn := v.withdrawn }) s

/-- A Quill withdrawn: it takes no job any more (05 R137). -/
def withdrawQuill (q : Nat) (s : State) : State :=
  let v := quill q s
  if v.withdrawn then s
  else
    let s1 := saveNibs q (setQuill q { v with withdrawn := true, sparePending := false, st := if v.st = .free then .withdrawn else v.st } s)
    raise { c := 2, i := q, bit := 6, code := 0x3103, payload := v.failed } s1

/-- A Nib marked failed: logical Nib `nib`, which NS may carry, or NS. One that carries a logical Nib of an owned Quill fails the job; a further failure
with NS in use or failed withdraws the Quill (05 R135 to R137). -/
def markNib (q nib : Nat) (ns : Bool) (evSeq : Nat) (s : State) : State :=
  let v := quill q s
  if ns || (v.nsInUse && v.spared == nib) then
    if v.nsFailed then s
    else
      let s1 := setQuill q { v with nsFailed := true } s
      let s2 := if v.nsInUse && v.job != 0xFFFF then stopJob v.job 4 evSeq s1 else s1
      if v.nsInUse || v.sparePending then withdrawQuill q s2 else saveNibs q s2
  else if natBit v.failed nib then s
  else
    let s1 := setQuill q { v with failed := v.failed + 2 ^ nib } s
    let s2 := if v.job = 0xFFFF then s1 else stopJob v.job 4 evSeq s1
    if v.nsInUse || v.nsFailed || v.sparePending then withdrawQuill q s2 else setQuill q { quill q s2 with sparePending := true } s2

end Sys2Proof.Machine
end

