-- ==== Sys2Proof/Machine/Elems.lean ====
section
/-! DEFINITION. The elements that a Quill's operations read and write: where they lie, the bounds check, local and remote
accesses, and the hazards between operations (03 R59; 05 R118 to R123; 02 R32; 17 R397). -/

namespace Sys2Proof.Machine

/-- What an operation of a Quill works with: its program, its bindings, and the registers as they were at issue (05 R119). -/
structure OpCtx where
  q : Nat
  job : Nat
  copyB : Bool
  dev : Nat
  det : Bool
  /-- Address of the image copy, and its header. -/
  img : Nat
  hdr : ImgHdr
  bindBase : Nat
  loops : List Nat
  scs : List Word
  use : ReqUse
  /-- The block that reports its errors: class, instance, context. -/
  c : Nat
  i : Nat
  ctx : Nat
  deriving DecidableEq, Repr

/-- The image copy of a job in a Quill's Inkwell (05 R115). -/
def imageAt (j : JobRec) (q : Nat) : Option Nat :=
  match j.areas.find? (fun a => a.1 == q / 4) with
  | some a => some (spadAddr a.1 (progBase + a.2.1 * 4096))
  | none => none

/-- An operation's context, reported on the Quill's page. -/
def opCtx (j : JobRec) (q : Nat) (loops : List Nat) (scs : List Word) (use : ReqUse) (s : State) : Option OpCtx :=
  match imageAt j q with
  | some a =>
    let b := (quill q s).copyB
    some { q := q, job := j.d.id, copyB := b, dev := deviceId s, det := j.d.det, img := a, hdr := ImgHdr.read (rdBytes s a 64),
           bindBase := j.d.bindAddr + (if b then 32 * j.d.bindCount else 0), loops := loops, scs := scs, use := use, c := 2, i := q, ctx := 0 }
  | none => none

/-- An address-generator program of the image. -/
def OpCtx.agp (c : OpCtx) (i : Nat) (s : State) : Agp := Agp.read (rdBytes s (c.img + c.hdr.agpOff + 64 * i) 64)

/-- A descriptor of the image. -/
def OpCtx.tod (c : OpCtx) (i : Nat) (s : State) : Tod := Tod.read (rdBytes s (c.img + c.hdr.todOff + 64 * i) 64)

/-- An entry of the copy's binding table (05 R118, 15 R355). -/
def OpCtx.bind (c : OpCtx) (i : Nat) (s : State) : Binding := Binding.read (rdBytes s (c.bindBase + 32 * i) 32)

/-- A scalar register at issue; sc0 reads 0 (05 R117). -/
def OpCtx.sc (c : OpCtx) (r : Nat) : Word := if r = 0 then 0 else match c.scs[r]? with | some w => w | none => 0

/-- A loop index at issue. -/
def OpCtx.loop (c : OpCtx) (d : Nat) : Nat := match c.loops[d]? with | some i => i | none => 0

/-- Element offset of the n-th element of an AGP (05 R119). -/
def OpCtx.offset (c : OpCtx) (a : Agp) (n : Nat) : Int := a.offset c.sc c.loop n

/-- Where an element lies from its binding's address: first byte, first bit in it, bytes touched (03 R59). -/
def elemAt (fmt : Nat) (off : Int) : Int × Nat × Nat :=
  let p := elemPlace fmt off
  let w := fmtWidth fmt
  (p.1 + (p.2 / 8 : Nat), p.2 % 8, (p.2 % 8 + w - 1) / 8 + 1)

/-- Whether a binding lies on another device (02 R32). -/
def OpCtx.far (c : OpCtx) (b : Binding) : Bool := b.remote && b.addr / 2 ^ 48 != c.dev

/-- AG_BOUNDS (05 R120, R140). -/
def OpCtx.evBounds (c : OpCtx) (ai : Nat) (off : Int) (inj : Bool) : Ev :=
  { c := 2, i := c.q, bit := 9, code := 0x7102, job := c.job, payload := wrapNat 48 off + ai % 65536 * 2 ^ 48 + injFlag inj }

/-- The check of an element against the binding's extent, and of a write against read_only (05 R120); an armed injection fails
it (R140). -/
def OpCtx.check (c : OpCtx) (ai : Nat) (b : Binding) (wr : Bool) (off byte : Int) (n : Nat) (s : State) : Bool × State :=
  if armed 2 c.q 9 s then (false, raise (c.evBounds ai off true) (disarm 2 c.q 9 s))
  else if 0 ≤ byte ∧ byte + n ≤ (b.extent : Int) ∧ ¬(wr = true ∧ b.readOnly = true) then (true, s)
  else (false, raise (c.evBounds ai off false) s)

/-- The requester that an operation is for the windows. -/
def OpCtx.who (c : OpCtx) : Who := .job c.dev c.job

/-- Bytes of a binding read, after the check: status of R269 (0xFF: bounds) with the cause, the bytes, and the state. -/
def OpCtx.rdRaw (c : OpCtx) (ai : Nat) (b : Binding) (off byte : Int) (n : Nat) (s : State) : (AccRes × List Byte) × State :=
  let k := c.check ai b false off byte n s
  if k.1 = false then ((⟨0xFF, 0⟩, []), k.2)
  else
    let ga := b.addr + byte.toNat
    if c.far b then
      match rbufRead c.use ga n s with
      | some l => ((⟨0, 0⟩, l), k.2)
      | none => ((match farErr c.use ga s with | some e => ⟨e.1, e.2.1⟩ | none => ⟨7, 0⟩, []), k.2)
    else
      let a := b.addr % 2 ^ 48 + byte.toNat
      let r := access c.c c.i c.ctx c.who .read a n [] k.2
      let fromBank := decide (spadBase ≤ a) && (match c.use with | .op _ _ => true | _ => false)
      ((r.1, if r.1.status = 0 then rdBytes r.2 a n else []), if fromBank && r.1.status == 0 then noteAct (c.q * 16 + 5) n r.2 else r.2)

/-- An element read: its bits where the status is 0. -/
def OpCtx.rdElem (c : OpCtx) (ai : Nat) (a : Agp) (b : Binding) (n : Nat) (s : State) : (AccRes × Nat) × State :=
  let off := c.offset a n
  let p := elemAt a.fmt off
  let r := c.rdRaw ai b off p.1 p.2.2 s
  ((r.1.1, leNat r.1.2 / 2 ^ p.2.1 % 2 ^ fmtWidth a.fmt), r.2)

/-- Bytes of a binding written, after the check; a remote write goes to the ring (02 R32, 17 R397). -/
def OpCtx.wrRaw (c : OpCtx) (ai : Nat) (b : Binding) (off byte : Int) (l : List Byte) (pos : Nat) (s : State) : AccRes × State :=
  let k := c.check ai b true off byte l.length s
  if k.1 = false then (⟨0xFF, 0⟩, k.2)
  else
    let ga := b.addr + byte.toNat
    if c.far b then
      let r := sendReq c.use 1 (b.addr / 2 ^ 48) c.job c.det (ga % 2 ^ 48) l.length l pos (rbufPut c.use ga l k.2)
      (⟨r.1, 0⟩, r.2)
    else access c.c c.i c.ctx c.who .write (b.addr % 2 ^ 48 + byte.toNat) l.length l k.2

/-- The bytes an element is written with: its bits put into the bytes that hold it. -/
def mergeBits (old : Nat) (bit w bits n : Nat) : List Byte :=
  leBytes n (old - old / 2 ^ bit % 2 ^ w * 2 ^ bit + bits % 2 ^ w * 2 ^ bit)

/-- Bytes that lie where an element is written: in memory, or as the ring brought them. -/
def OpCtx.under (c : OpCtx) (b : Binding) (byte : Int) (n : Nat) (s : State) : Nat :=
  if c.far b then (match rbufRead c.use (b.addr + byte.toNat) n s with | some l => leNat l | none => 0)
  else leNat (rdBytes s (b.addr % 2 ^ 48 + byte.toNat) n)

/-- An element written at an element offset; the other bits of its bytes stay. -/
def OpCtx.wrElemAt (c : OpCtx) (ai : Nat) (b : Binding) (fmt : Nat) (off : Int) (bits pos : Nat) (s : State) : AccRes × State :=
  let p := elemAt fmt off
  let w := fmtWidth fmt
  let old := if w % 8 = 0 then 0 else c.under b p.1 p.2.2 s
  c.wrRaw ai b off p.1 (mergeBits old p.2.1 w bits p.2.2) pos s

/-- The n-th element of an AGP written. -/
def OpCtx.wrElem (c : OpCtx) (ai : Nat) (a : Agp) (b : Binding) (n bits pos : Nat) (s : State) : AccRes × State :=
  c.wrElemAt ai b a.fmt (c.offset a n) bits pos s

/-- Where `m` elements of `w` bits from an element offset on lie: first byte, first bit in it, bytes touched (03 R59). -/
def runPlace (w m : Nat) (off : Int) : Int × Nat × Nat :=
  let p := off * (w : Int)
  let bit := (p % 8).toNat
  (p / 8, bit, (bit + m * w + 7) / 8)

/-- Whether `m` elements from an offset on can go in one request: in the extent, at most 256 bytes, in one Inkwell (09 R222; DESIGN CHOICE, log
entry 48). -/
def oneReq (b : Binding) (w m : Nat) (off : Int) : Bool :=
  let p := runPlace w m off
  let a := b.addr + p.1.toNat
  decide (0 ≤ p.1 ∧ p.1 + p.2.2 ≤ (b.extent : Int) ∧ p.2.2 ≤ 256 ∧ a / 0x800000 = (a + p.2.2 - 1) / 0x800000)

/-- How many elements go in a request that begins at an offset: those that follow one another in memory, `m` so far, of the offsets to come. -/
def runLen (b : Binding) (w : Nat) (off : Int) : List Int → Nat → Nat
  | [], m => m
  | o :: t, m => if o = off + (m : Int) ∧ oneReq b w (m + 1) off = true then runLen b w off t (m + 1) else m

/-- Elements read in one request. -/
def OpCtx.rdRun (c : OpCtx) (ai : Nat) (b : Binding) (w m : Nat) (off : Int) (s : State) : (AccRes × List Nat) × State :=
  let p := runPlace w m off
  let r := c.rdRaw ai b off p.1 p.2.2 s
  let v := leNat r.1.2 / 2 ^ p.2.1
  ((r.1.1, (List.range m).map (fun i => v / 2 ^ (w * i) % 2 ^ w)), r.2)

/-- Elements written in one request; other bits of its bytes stay. -/
def OpCtx.wrRun (c : OpCtx) (ai : Nat) (b : Binding) (w : Nat) (off : Int) (codes : List Nat) (pos : Nat) (s : State) : AccRes × State :=
  let m := codes.length
  let p := runPlace w m off
  let old := if p.2.1 = 0 ∧ m * w % 8 = 0 then 0 else c.under b p.1 p.2.2 s
  c.wrRaw ai b off p.1 (mergeBits old p.2.1 (m * w) (codes.foldr (fun x acc => x % 2 ^ w + acc * 2 ^ w) 0) p.2.2) pos s

/-- Elements at offsets read in order, request by request, at most `fuel` requests; the first error ends it. -/
def readRuns (c : OpCtx) (ai : Nat) (b : Binding) (w : Nat) : Nat → List Int → State → (AccRes × List Nat) × State
  | fuel + 1, off :: t, s =>
    let m := runLen b w off t 1
    let r := c.rdRun ai b w m off s
    if r.1.1.status ≠ 0 then ((r.1.1, []), r.2)
    else
      let u := readRuns c ai b w fuel (t.drop (m - 1)) r.2
      ((u.1.1, r.1.2 ++ u.1.2), u.2)
  | _, _, s => ((⟨0, 0⟩, []), s)

/-- Codes written in order at offsets, request by request, the first being the n-th of its operand; the first error ends it. -/
def writeRuns (c : OpCtx) (ai : Nat) (b : Binding) (w : Nat) : Nat → List (Int × Nat) → Nat → State → AccRes × State
  | fuel + 1, e :: t, n, s =>
    let m := runLen b w e.1 (t.map (fun x => x.1)) 1
    let r := c.wrRun ai b w e.1 (((e :: t).take m).map (fun x => x.2)) (n * w / 8) s
    if r.1.status ≠ 0 then r else writeRuns c ai b w fuel (t.drop (m - 1)) (n + m) r.2
  | _, _, _, s => (⟨0, 0⟩, s)

/-- The requests that offsets make, at most `fuel`: first offset and elements. -/
def runsOf (b : Binding) (w : Nat) : Nat → List Int → List (Int × Nat)
  | fuel + 1, off :: t => let m := runLen b w off t 1; (off, m) :: runsOf b w fuel (t.drop (m - 1))
  | _, _ => []

/-- The requests for an AGP's elements on another device: global address and length; those outside the extent left out. -/
def OpCtx.farRuns (c : OpCtx) (ai : Nat) (s : State) : List (Nat × Nat) :=
  let a := c.agp ai s
  let b := c.bind a.binding s
  if c.far b then
    (runsOf b (fmtWidth a.fmt) a.size ((List.range a.size).map (c.offset a))).filterMap (fun r =>
      if oneReq b (fmtWidth a.fmt) r.2 r.1 then
        (let p := runPlace (fmtWidth a.fmt) r.2 r.1; some (b.addr + p.1.toNat, p.2.2)) else none)
  else []

/-- Requests sent for the runs that are missing; the status is that of the first that could not go. -/
def sendReads (c : OpCtx) : List (Nat × Nat) → State → Nat × State
  | [], s => (0, s)
  | (ga, n) :: t, s =>
    let r := sendReq c.use 0 (ga / 2 ^ 48) c.job c.det (ga % 2 ^ 48) n [] 0 s
    if r.1 = 0 then sendReads c t r.2 else r

/-- Remote operands fetched over the ring: `some 0` once all are here, `none` while they are on their way, else the status with
which a request ended (02 R32, 17 R397). -/
def OpCtx.gather (c : OpCtx) (ais : List Nat) (s : State) : Option Nat × State :=
  let need := (ais.flatMap (fun ai => c.farRuns ai s)).eraseDups.filter (fun r => (rbufRead c.use r.1 r.2 s).isNone && (farErr c.use r.1 s).isNone)
  if need.isEmpty then (some 0, s)
  else if reqOut c.use s then (none, s)
  else
    let r := sendReads c (need.take (maxReqs - s.ring.reqs.length)) s
    if r.1 = 0 then (none, r.2) else (some r.1, r.2)

/-- The AGPs that an operation reads, by its kind (05 R121, R133; 07 R177, R191; 08 R198, R207). -/
def Tod.reads (t : Tod) : List Nat :=
  (match t.kind with
    | 4 => [t.agpA, t.agpB, t.agpCin, leField t.tail 16 2, leField t.tail 20 2]
    | 5 => [t.agpA, t.agpB, leField t.tail 18 2]
    | _ => [t.agpA, t.agpB, t.agpCin]).filter (fun a => a != 0xFFFF)

/-- The AGPs that an operation writes. -/
def Tod.writes (t : Tod) : List Nat :=
  (match t.kind with
    | 4 => [t.agpC, leField t.tail 18 2]
    | 5 => [t.agpC, leField t.tail 16 2, leField t.tail 20 2]
    | 8 => [t.agpB, t.agpC, t.agpCin]
    | _ => [t.agpC]).filter (fun a => a != 0xFFFF)

/-- Bindings of a list of AGPs. -/
def OpCtx.bindsOf (c : OpCtx) (ais : List Nat) (s : State) : List Nat := (ais.map (fun ai => (c.agp ai s).binding)).eraseDups

/-- The DMAs of a Quill that have not completed. -/
def quillDmas (q : Nat) (s : State) : List DmaReq :=
  let n := q / 4
  [2 * (q % 4), 2 * (q % 4) + 1].flatMap (fun ch => (chan (n * 8 + ch) s).reqs)

/-- A Quill's writes of a binding that have not completed, of operations issued before a number (05 R123). -/
def writePending (c : OpCtx) (binds : List Nat) (before : Nat) (s : State) : Bool :=
  (quill c.q s).ops.any (fun o => decide (o.issue < before) && (c.bindsOf o.tod.writes s).any (fun b => binds.contains b))
    || (quillDmas c.q s).any (fun r => decide (r.issue < before) && binds.contains (c.agp r.dst s).binding)

/-- A Quill's reads of a binding that have not finished (05 R123). -/
def readPending (c : OpCtx) (binds : List Nat) (s : State) : Bool :=
  (quill c.q s).ops.any (fun o => !o.ran && (c.bindsOf o.tod.reads s).any (fun b => binds.contains b))
    || (quillDmas c.q s).any (fun r => binds.contains (c.agp r.src s).binding)

/-- R123 for an operation about to issue: what it reads has been written, what it writes has been read. -/
def hazard (c : OpCtx) (rd wr : List Nat) (s : State) : Bool :=
  writePending c rd ((quill c.q s).issued + 1) s || readPending c wr s

/-- Whether writes of a Quill's earlier QPOP to another device are outstanding. -/
def popsOut (q : Nat) (s : State) : Bool := s.ring.reqs.any (fun r => r.use == .queue q && r.op == 1)

/-- Every write that a Quill issued before a number has completed at its destination (05 R125, R127). -/
def writesDone (q before : Nat) (s : State) : Bool :=
  (quill q s).ops.all (fun o => decide (before ≤ o.issue)) && (quillDmas q s).all (fun r => decide (before ≤ r.issue)) && !popsOut q s

end Sys2Proof.Machine
end

