-- ==== Sys2Proof/Machine/Sync.lean ====
section
/-! DEFINITION. Semaphores, signals, barriers and pushes to a queue: what Quills, the ring and queue notices do to each other
(05 R125 to R129; 06 R154 to R158; 11 R256 to R264). -/

namespace Sys2Proof.Machine

/-- SEM_OVERFLOW (05 R140). -/
def evSemOverflow (q job sem : Nat) : Ev := { c := 2, i := q, bit := 10, code := 0x7103, job := job, payload := sem }

/-- A semaphore of a Quill advanced; above 0xFFFF it saturates, and the job fails (05 R125). A signal of another party that comes to a Quill waiting
in SEM_WAIT makes the wait external (06 R148). -/
def addSem (q sem count : Nat) (other : Bool) (s : State) : State :=
  let v0 := quill q s
  let v := if other && v0.st == .waiting && v0.wait == 1 then { v0 with ext := true } else v0
  let n := Tbl.get 0 v.sem sem + count
  if n ≤ 0xFFFF then setQuill q { v with sem := Tbl.set 0 v.sem sem n } s
  else failWith v.job (evSemOverflow q v.job sem) (setQuill q { v with sem := Tbl.set 0 v.sem sem 0xFFFF } s)

/-- The Quills of a job that hold a rank: copy A's, and copy B's (05 R126). -/
def rankQuills (j : JobRec) (rank : Nat) : List Nat := (j.ofRank false rank).toList ++ (j.ofRank true rank).toList

/-- Whether a job on this device takes a signal for a rank: RUNNING, and the rank held (05 R126). -/
def takesSignal (id rank : Nat) (s : State) : Bool :=
  match findJob id s with
  | some j => j.phase == .running && !(rankQuills j rank).isEmpty
  | none => false

/-- A signal to a job on this device delivered to each copy that holds the rank (05 R126; DEDUCED, log entry 21). -/
def signalJob (id rank sem count : Nat) (other : Bool) (s : State) : State :=
  match findJob id s with
  | some j => (rankQuills j rank).foldl (fun acc q => addSem q sem count other acc) s
  | none => s

/-- A refused signal on this device: ACCESS_DENIED from the signalling Quill, and its job fails (05 R125, R126). -/
def signalRefused (q : Nat) (s : State) : State :=
  let v := quill q s
  failWith v.job (evDenied 2 q 0 2 0 (deviceId s) v.job 0) s

/-- A released signal delivered (05 R125, R126). -/
def deliver (q : Nat) (g : Signal) (s : State) : State :=
  let v := quill q s
  match findJob v.job s with
  | none => s
  | some j =>
    if g.remote = false then
      match j.ofRank v.copyB g.rank with
      | some t => addSem t g.sem g.count false s
      | none => signalRefused q s
    else if g.dev = deviceId s then
      if takesSignal g.job g.rank s then signalJob g.job g.rank g.sem g.count (g.job != v.job) s else signalRefused q s
    else
      let r := sendReq .signal 5 g.dev v.job j.d.det 0 12 (leBytes 2 g.job ++ leBytes 2 g.rank ++ leBytes 2 g.sem ++ leBytes 2 g.count) 0 s
      if r.1 = 0 then r.2 else failSince v.job s r.2

/-- The signals of a Quill whose earlier writes have completed delivered, in order, at most `n` (05 R125). -/
def releaseSignals (q : Nat) : Nat → State → State
  | 0, s => s
  | n + 1, s =>
    match (quill q s).sigs with
    | [] => s
    | g :: t => if writesDone q g.issue s then releaseSignals q n (deliver q g (setQuill q { quill q s with sigs := t } s)) else s

/-- Every signal of a Quill that can go is delivered. -/
def flushSignals (q : Nat) (s : State) : State := releaseSignals q (quill q s).sigs.length s

/-- The instance of a barrier with a member's arrival (06 R154). -/
def barrierArrive (job : Nat) (copyB : Bool) (scope group q : Nat) (s : State) : State :=
  let same := fun (b : BarrierInst) => b.job == job && b.copyB == copyB && b.scope == scope && b.group == group
  let now := s.time.clk
  if s.barriers.any same then
    { s with barriers := s.barriers.map (fun b => if same b then { b with arrived := b.arrived ++ [q], last := now } else b) }
  else { s with barriers := s.barriers ++ [{ job := job, copyB := copyB, scope := scope, group := group, arrived := [q], last := now, told := false }] }

/-- The unfinished status of a push by a Quill or over the ring, in the codes of R264: 0 admitted, 1 not admitted (full), or the
refusal (11 R259, R261, R264). -/
def pushStatus (q len job dev : Nat) (s : State) : Nat :=
  let d := qDesc q s
  if qeBase s = 0 then 7
  else if d.enabled = false then 5
  else if ((job ^^^ d.jobMatch) &&& d.jobMask) ≠ 0 ∨ ((dev ^^^ d.devMatch) &&& d.devMask) ≠ 0 then 4
  else if len = 0 ∨ d.recordSize < len ∨ (d.fixed = true ∧ len ≠ d.recordSize) then 3
  else if d.fits len (d.keep false) && !armed 6 0 6 s then 0
  else 1

/-- QUEUE_FULL for a refused record; an armed injection is used up by it (11 R261, R271). -/
def refuseFull (q job : Nat) (s : State) : State :=
  if armed 6 0 6 s then
    let e := qeEvent 6 0x2600 q 0xFFFF ((qDesc q s).used % 2 ^ 32 + job * 2 ^ 32)
    raise { e with payload := e.payload + injFlag true } (disarm 6 0 6 s)
  else queueFull q job s

/-- A push's effect but for a wait: its status (8 for a dropped record) and the state; refusals 3 to 7 raise QUEUE_REFUSED
(11 R261, R264). -/
def pushRecord (q job dev : Nat) (bytes : List Byte) (s0 : State) : Nat × State :=
  let s := qdUse q s0
  let st := pushStatus q bytes.length job dev s
  match st with
  | 0 => (0, reserve q 0 job dev bytes s)
  | 1 => if (qDesc q s).drop then (8, queueDrop q job (refuseFull q job s)) else (1, refuseFull q job s)
  | _ => (st, raise (evQueueRefused q st job) s)

end Sys2Proof.Machine
end

