-- ==== Sys2Proof/Machine/Quill.lean ====
section
/-! DEFINITION. The Quill's instructions, its waits, and the completion of its DMAs (05 R116 to R130, R490; 06 R154). -/

namespace Sys2Proof.Machine

/-- The header of the image copy that a Quill runs. -/
def quillHdr (q : Nat) (j : JobRec) (s : State) : Option (Nat × ImgHdr) :=
  match imageAt j q with
  | some a => some (a, ImgHdr.read (rdBytes s a 64))
  | none => none

/-- The instruction at a Quill's pc, fetched from its program area (05 R115). -/
def quillFetch (q : Nat) (s : State) : Option QInstr :=
  match findJob (quill q s).job s with
  | some j =>
    match quillHdr q j s with
    | some (a, h) => if (quill q s).pc < h.instrCount then QInstr.decode (leNat (rdBytes s (a + h.instrOff + 16 * (quill q s).pc) 16)) else none
    | none => none
  | none => none

/-- Whether a Quill may issue: RUNNING or WAITING, its wave come, its clock running, its program not ended. -/
def quillActive (q : Nat) (s : State) : Bool :=
  let v := quill q s
  (v.st == .running || v.st == .waiting) && v.startAt.isNone && !v.ended && quillRate q s != 0

/-- Whether a Quill's next instruction is this one. -/
def quillReady (q : Nat) (i : QInstr) (s : State) : Bool := quillActive q s && quillFetch q s == some i

/-- A Quill instruction's effect where it is that Quill's next, else none (DESIGN CHOICE, log entry 15). -/
def onQuill (q : Nat) (i : QInstr) (f : JobRec → Quill → State → State) (s : State) : State :=
  if quillReady q i s then (match findJob (quill q s).job s with | some j => f j (quill q s) s | none => s) else s

/-- A scalar register; sc0 reads 0 (05 R117). -/
def Quill.rd (v : Quill) (r : Nat) : Word := if r = 0 then 0 else Tbl.get 0 v.sc r

/-- A scalar register written; sc0 ignores writes (05 R117). -/
def Quill.wr (v : Quill) (r : Nat) (w : Word) : Quill := if r = 0 then v else { v with sc := Tbl.set 0 v.sc r w }

/-- The scalar registers as an operation takes them at issue. -/
def Quill.scs (v : Quill) : List Word := (List.range 16).map v.rd

/-- TRAP for a pc that left the instruction stream (05 R117, R140). -/
def evRanPast (q job : Nat) (pc : Int) : Ev :=
  { c := 2, i := q, bit := 11, code := 0x7104, job := job, payload := 0xFFFFFFFF + wrapNat 32 pc * 2 ^ 32 + 2 ^ 64 }

/-- The loops closed and looped back at a pc: a body's end goes back to its start until its count is done (05 R116). -/
def loopBack : List LoopFrame → Nat → List LoopFrame × Nat
  | [], p => ([], p)
  | f :: t, p =>
    if p = f.first + f.len then
      (if f.index + 1 < f.total then ({ f with index := f.index + 1 } :: t, f.first) else loopBack t p)
    else (f :: t, p)

/-- A Quill put at a pc; outside the stream it stops with TRAP and its job fails (05 R117). -/
def jumpTo (q : Nat) (j : JobRec) (pc : Int) (s : State) : State :=
  match quillHdr q j s with
  | none => s
  | some (_, h) =>
    if 0 ≤ pc ∧ pc < (h.instrCount : Int) then
      setQuill q { quill q s with pc := pc.toNat, st := .running, wait := 0, arrived := false } s
    else failWith j.d.id (evRanPast q j.d.id pc) s

/-- An instruction finished: the next one in line, through the ends of loop bodies. -/
def nextPc (q : Nat) (j : JobRec) (p : Nat) (s : State) : State :=
  let v := quill q s
  let r := loopBack v.loops p
  jumpTo q j r.2 (setQuill q { v with loops := r.1 } s)

/-- An instruction finished with the Quill's registers changed. A deterministic job's Quill whose external wait has ended resumes at the next
rotation boundary (10 R243). -/
def retire (q : Nat) (j : JobRec) (v : Quill) (s : State) : State :=
  if v.ext && v.det then
    let t := nextPc q j (v.pc + 1) (setQuill q { v with ext := false } s)
    if (quill q t).st = .running then setQuill q { quill q t with startAt := some (clkAtRing (rotationAfter (ringNow t)) t) } t else t
  else nextPc q j (v.pc + 1) (setQuill q v s)

/-- SEM_TIMEOUT (05 R130, R140). -/
def evSemTimeout (q job pc cause : Nat) (inj : Bool) : Ev :=
  { c := 2, i := q, bit := 2, code := 0x2100, job := job, payload := pc + cause * 2 ^ 32 + injFlag inj }

/-- A Quill that waits with a cause of QL_STATE; an armed injection ends the wait at once (05 R130, R140). -/
def block (q : Nat) (cause : Nat) (s : State) : State :=
  let v := quill q s
  if v.st = .waiting then setQuill q { v with wait := cause } s
  else if armed 2 q 2 s then failWith v.job (evSemTimeout q v.job v.pc cause true) (disarm 2 q 2 s)
  else setQuill q { v with st := .waiting, wait := cause, waitStart := s.time.clk } s

/-- A Quill whose present wait is one that another party ends (06 R148). -/
def setExt (q : Nat) (s : State) : State := setQuill q { quill q s with ext := true } s

/-- NOP (05 R116). -/
def execNop (q : Nat) (s : State) : Out := .next (onQuill q .nop (fun j v t => retire q j v t) s)

/-- SET (05 R116). -/
def execSet (q dst imm : Nat) (s : State) : Out :=
  .next (onQuill q (.set dst imm) (fun j v t => retire q j (v.wr dst (BitVec.ofNat 32 imm)) t) s)

/-- The result of an ALU sub-op on two words, but for sub-op 11 (05 R116). -/
def aluOp (sub : Nat) (a b : Word) : Word :=
  match sub with
  | 0 => a + b
  | 1 => a - b
  | 2 => a * b
  | 3 => a &&& b
  | 4 => a ||| b
  | 5 => a ^^^ b
  | 6 => a <<< b.toNat
  | 7 => a >>> b.toNat
  | 8 => a.sshiftRight b.toNat
  | 9 => if a.toInt ≤ b.toInt then a else b
  | _ => if a.toInt ≤ b.toInt then b else a

/-- The index of a loop depth, 0 the outermost; of a depth with no loop it is a value left open, fixed by the place in the program (05 R116;
06 R141; DESIGN CHOICE, log entry 3). -/
def loopIndex (v : Quill) (depth : Nat) : Nat :=
  match v.loops.reverse[depth]? with
  | some f => f.index
  | none => Config.openValue [2, v.pc, v.opIndex, depth] % 2 ^ 32

/-- ALU (05 R116). -/
def execAlu (q sub dst a b : Nat) (useImm : Bool) (imm : Nat) (s : State) : Out :=
  .next (onQuill q (.alu sub dst a b useImm imm) (fun j v t =>
    if sub = 11 then retire q j (v.wr dst (BitVec.ofNat 32 (loopIndex v imm))) t
    else retire q j (v.wr dst (aluOp sub (v.rd a) (if useImm then BitVec.ofNat 32 imm else v.rd b))) t) s)

/-- LOOP (05 R116, R117). -/
def execLoop (q countSc count body : Nat) (s : State) : Out :=
  .next (onQuill q (.loop countSc count body) (fun j v t =>
    let n := if countSc = 0 then count else (v.rd countSc).toNat
    if n = 0 then nextPc q j (v.pc + 1 + body) t
    else jumpTo q j ((v.pc + 1 : Nat) : Int) (setQuill q { v with loops := ⟨v.pc + 1, body, n, 0⟩ :: v.loops } t)) s)

/-- A branch condition (05 R116). -/
def branchHolds (cond : Nat) (a b : Word) : Bool :=
  match cond with
  | 0 => a == b
  | 1 => a != b
  | 2 => decide (a.toInt < b.toInt)
  | 3 => decide (b.toInt ≤ a.toInt)
  | 4 => decide (a.toNat < b.toNat)
  | _ => decide (b.toNat ≤ a.toNat)

/-- BRANCH (05 R116). -/
def execBranch (q cond a b : Nat) (useImm : Bool) (imm off : Nat) (s : State) : Out :=
  .next (onQuill q (.branch cond a b useImm imm off) (fun j v t =>
    if branchHolds cond (v.rd a) (if useImm then BitVec.ofNat 32 imm else v.rd b) then jumpTo q j ((v.pc : Int) + signed 16 off) t
    else retire q j v t) s)

/-- The loop indices as an operation takes them at issue (05 R119). -/
def loopVals (v : Quill) : List Nat := (List.range 8).map (loopIndex v)

/-- TOP: a tensor operation issued, with at most 2 in flight and after the hazards of R123 (05 R116, R123). -/
def execTop (q tod : Nat) (s : State) : Out :=
  .next (onQuill q (.top tod) (fun j v t =>
    if 2 ≤ v.ops.length then block q 3 t
    else
      let lv := loopVals v
      match opCtx j q lv v.scs (.op q v.issued) t with
      | none => t
      | some c =>
        let d := c.tod tod t
        if hazard c (c.bindsOf d.reads t) (c.bindsOf d.writes t) t then block q 6 t
        else
          let o : OpRun := { index := v.opIndex, desc := tod, tod := d, loops := lv, scs := v.scs, ran := false, outs := [], unit := 0, ticket := none,
                             issue := v.issued, drained := false, nf := 0, nfNib := 0, sat := 0, satGroup := 0, satNeg := false, satNib := 0,
                             nfInj := false, satInj := false }
          retire q j { v with ops := v.ops ++ [o], opIndex := v.opIndex + 1, issued := v.issued + 1 } t) s)

/-- WAIT_TOP (05 R116). -/
def execWaitTop (q : Nat) (s : State) : Out :=
  .next (onQuill q .waitTop (fun j v t => if v.ops.isEmpty then retire q j v t else block q 3 t) s)

/-- SEM_WAIT (05 R125). -/
def execSemWait (q sem count : Nat) (s : State) : Out :=
  .next (onQuill q (.semWait sem count) (fun j v t =>
    let n := Tbl.get 0 v.sem sem
    if count ≤ n then retire q j { v with sem := Tbl.set 0 v.sem sem (n - count) } t else block q 1 t) s)

/-- SEM_SIGNAL: issued at once, delivered once the Quill's earlier writes have completed (05 R125, R126). -/
def execSemSignal (q sem : Nat) (remote : Bool) (count rank dev job : Nat) (s : State) : Out :=
  .next (onQuill q (.semSignal sem remote count rank dev job) (fun j v t =>
    let own := if remote = false ∧ (v.rd 1).toNat = rank then v.rank else rank
    let g : Signal := { issue := v.issued, remote := remote, dev := dev, job := job, rank := own, sem := sem, count := count }
    flushSignals q (retire q j { v with sigs := v.sigs ++ [g], issued := v.issued + 1 } t)) s)

/-- BARRIER: the arrival, once the Quill's earlier writes have completed; the release moves the Quill on (05 R127, 06 R154). -/
def execBarrier (q scope group : Nat) (s : State) : Out :=
  .next (onQuill q (.barrier scope group) (fun j v t =>
    if v.arrived ∨ writesDone q v.issued t = false ∨ v.sigs ≠ [] then block q 2 t
    else
      let t1 := block q 2 t
      if (quill q t1).st = .waiting then
        barrierArrive j.d.id v.copyB scope group q (setQuill q { quill q t1 with arrived := true } t1)
      else t1) s)

/-- The Quills of a barrier instance released at a model time: past the BARRIER, in waves (06 R155). -/
def releaseBarrier (b : BarrierInst) (release : Nat) (s : State) : State :=
  match findJob b.job s with
  | none => s
  | some j =>
    let s1 := { s with barriers := s.barriers.filter (fun x => x != b) }
    b.arrived.foldl (fun acc q =>
      let t := nextPc q j ((quill q acc).pc + 1) acc
      if (quill q t).st = .running then setQuill q { quill q t with startAt := some (release + 2 * 16 * (wave q + 1)) } t else t) s1

/-- Whether every Quill of the copy has arrived at a barrier instance. -/
def barrierFull (b : BarrierInst) (s : State) : Bool :=
  match findJob b.job s with
  | some j => j.phase == .running && (j.copy b.copyB).all (fun q => b.arrived.contains q)
  | none => false

/-- The entry of a barrier group on this device (06 R157). -/
def findGroup (g : Nat) (s : State) : Option BarrierGroup := s.groups.find? (fun e => e.group == g)

/-- The group entries replaced by a function of one. -/
def updGroup (g : Nat) (f : BarrierGroup → BarrierGroup) (s : State) : State :=
  { s with groups := s.groups.map (fun e => if e.group = g then f e else e) }

/-- A member's arrival at the root: once all have come, R is the first rotation boundary at or after now + D, sent to every
member (06 R156). A member is its place in the entry. -/
def rootArrival (g member : Nat) (copyB : Bool) (s : State) : State :=
  let s1 := updGroup g (fun e => if copyB then { e with arrivedB := (member :: e.arrivedB).eraseDups } else { e with arrivedA := (member :: e.arrivedA).eraseDups }) s
  match findGroup g s1 with
  | none => s1
  | some e =>
    let got := if copyB then e.arrivedB else e.arrivedA
    if (List.range e.members.length).all (fun m => got.contains m) then
      let R := rotationAfter (ringNow s1 + e.dNs)
      let s2 := updGroup g (fun e =>
        if copyB then { e with arrivedB := [], releaseB := some R } else { e with arrivedA := [], releaseA := some R }) s1
      e.members.foldl (fun acc m => if m.1 = deviceId acc then acc else sendPktOf m.2 8 m.1 [g, b2n copyB, R] acc) s2
    else s1

/-- LOCAL_BARRIER_RELEASE: 48 mesh cycles after the last arrival a local barrier releases; a cross-device one reports its local
arrival to the group's root (06 R154, R156, R158). -/
def execLocalBarrierRelease (job : Nat) (copyB : Bool) (scope group : Nat) (s : State) : Out :=
  .next (
    match s.barriers.find? (fun b => b.job == job && b.copyB == copyB && b.scope == scope && b.group == group) with
    | none => s
    | some b =>
      if barrierFull b s = false ∨ b.told = true then s
      else
        let s1 := advanceTo (b.last + 96) s
        if scope = 0 then releaseBarrier b (b.last + 96) s1
        else match findGroup group s1 with
          | none => s
          | some e =>
            match e.members.findIdx? (fun m => m == (deviceId s1, job)) with
            | none => s
            | some m =>
              let s2 := { s1 with barriers := s1.barriers.map (fun x => if x = b then { x with told := true } else x) }
              if e.root = deviceId s2 then rootArrival group m copyB s2 else sendPktOf job 7 e.root [group, m, b2n copyB] s2)

/-- BARRIER_RELEASE_TIME: a member's Quills release when ring time reaches R (06 R156). -/
def execBarrierReleaseTime (group : Nat) (copyB : Bool) (s : State) : Out :=
  .next (
    match findGroup group s with
    | none => s
    | some e =>
      match (if copyB then e.releaseB else e.releaseA) with
      | none => s
      | some R =>
        let s1 := advanceToRing R s
        let s2 := updGroup group (fun e => if copyB then { e with releaseB := none } else { e with releaseA := none }) s1
        (s2.barriers.filter (fun b => b.scope == 1 && b.group == group && b.copyB == copyB && b.told)).foldl
          (fun acc b => releaseBarrier b acc.time.clk acc) s2)

/-- The DMA channel of a Quill's channel bit (05 R128). -/
def dmaChan (q ch : Nat) : Nat := q / 4 * 8 + 2 * (q % 4) + ch

/-- DMA: queued on its channel, at most 16, after the hazards of R123 (05 R128). -/
def execDma (q ch : Nat) (noFail notify : Bool) (statusSc src dst queue : Nat) (s : State) : Out :=
  .next (onQuill q (.dma ch noFail notify statusSc src dst queue) (fun j v t =>
    let k := dmaChan q ch
    let lv := loopVals v
    match opCtx j q lv v.scs (.dma k v.issued) t with
    | none => t
    | some c =>
      if 16 ≤ (chan k t).reqs.length ∨ hazard c (c.bindsOf [src] t) (c.bindsOf [dst] t) t = true then block q 6 t
      else
        let h := chan k t
        let r : DmaReq := { quill := q, job := j.d.id, src := src, dst := dst, noFail := noFail, notify := notify, queue := queue,
                            statusSc := statusSc, seq := (h.seq + 1) % 65536, loops := lv, scs := v.scs, issue := v.issued,
                            sent := false, moved := 0, err := none }
        chanBusy k (retire q j { v with issued := v.issued + 1 }
          (setChan k { h with reqs := h.reqs ++ [r], seq := (h.seq + 1) % 65536 } (forgetPartials j.d.id v.copyB (c.agp dst t).binding t)))) s)

/-- DMA_WAIT (05 R116). -/
def execDmaWait (q mask : Nat) (s : State) : Out :=
  .next (onQuill q (.dmaWait mask) (fun j v t =>
    if (List.range 2).all (fun b => !natBit mask b || (chan (dmaChan q b) t).reqs.isEmpty) then retire q j v t else block q 4 t) s)

/-- The elements that a DMA moves in one request from the n-th on: those that follow one another at both ends and, on another device, are here (05
R128; 09 R222). -/
def dmaRun (c : OpCtx) (a b : Agp) (x y : Binding) (n : Nat) (s : State) : Nat :=
  let w := fmtWidth a.fmt
  let next := fun (ag : Agp) => (List.range (min (a.size - (n + 1)) 511)).map (fun i => c.offset ag (n + 1 + i))
  let m := min (runLen x w (c.offset a n) (next a) 1) (runLen y w (c.offset b n) (next b) 1)
  let p := runPlace w m (c.offset a n)
  if c.far x && (rbufRead c.use (x.addr + p.1.toNat) p.2.2 s).isNone then 1 else m

/-- Elements copied in order from the n-th on, at most `fuel` requests: status, cause and elements written before the first error (05 R128,
09 R223). A bounds failure has status 0xFF. -/
def dmaCopy (c : OpCtx) (si di : Nat) (a b : Agp) (x y : Binding) : Nat → Nat → State → (AccRes × Nat) × State
  | 0, n, s => ((⟨0, 0⟩, n), s)
  | fuel + 1, n, s =>
    if a.size ≤ n then ((⟨0, 0⟩, n), s) else
    let w := fmtWidth a.fmt
    let m := dmaRun c a b x y n s
    let inj := armed 1 c.i 5 s && c.ctx == 0
    let s0 := if inj then disarm 1 c.i 5 s else s
    let r := c.rdRun si x w m (c.offset a n) s0
    let st := if inj && r.1.1.status != 0xFF then 4 else r.1.1.status
    if st ≠ 0 then
      let p := elemAt a.fmt (c.offset a n)
      let ev : Ev := { c := 1, i := c.i, bit := 5, code := 0x3110, job := c.job, ctx := c.ctx,
                       payload := addrPayload (x.addr % 2 ^ 48 + p.1.toNat) 1 0 c.dev + injFlag inj }
      ((⟨st, r.1.1.cause⟩, n), if st = 4 then raise ev r.2 else r.2)
    else
      let u := c.wrRun di y w (c.offset b n) r.1.2 (n * w / 8) r.2
      if u.1.status ≠ 0 then ((u.1, n), u.2) else dmaCopy c si di a b x y fuel (n + m) u.2

/-- Whether a DMA's completion record can be written or staged now (11 R262). -/
def dmaRecordReady (r : DmaReq) (s : State) : Bool := !r.notify || pushGoes r.queue 16 false s

/-- A DMA leaves its channel with a status: status word, record, and the job's failure where no_fail is 0 (05 R128, 11 R269). -/
def dmaEnd (k : Nat) (r : DmaReq) (status cause bytes evSeq : Nat) (s : State) : State :=
  let ch := chan k s
  let s1 := chanBusy k (setChan k { ch with reqs := ch.reqs.filter (fun x => x.issue != r.issue || x.quill != r.quill) } s)
  let s2 := flushSignals r.quill (dmaFinish k r status cause bytes evSeq (dropUse (.dma k r.issue) s1))
  if status ≠ 0 ∧ r.noFail = false then stopJob r.job 4 evSeq s2 else s2

/-- DMA_COMPLETE: the DMA at a channel's head runs, finishes or stops at its first error (05 R128, 09 R223, 11 R269). Operands and
results on other devices go over the ring first. -/
def execDmaComplete (k : Nat) (s : State) : Out :=
  .next (
    match (chan k s).reqs with
    | [] => s
    | r :: _ =>
      match findJob r.job s with
      | none => s
      | some j =>
        match opCtx j r.quill r.loops r.scs (.dma k r.issue) s with
        | none => s
        | some c0 =>
          let c := { c0 with c := 1, i := k / 8, ctx := k % 8 }
          let a := c.agp r.src s
          let b := c.agp r.dst s
          let x := c.bind a.binding s
          let y := c.bind b.binding s
          if j.live = false ∨ dmaRecordReady r s = false ∨ writePending c [b.binding] r.issue s = true then s
          else if r.sent then
            if reqOut c.use s then s
            else match r.err with
              | some (st, cause, n, ev) => dmaEnd k r st cause n ev s
              | none => dmaEnd k r 0 0 r.moved 0 s
          else
            let g := c.gather (if fmtWidth b.fmt % 8 = 0 then [r.src] else [r.src, r.dst]) s
            match g.1 with
            | none => g.2
            | some 0 =>
              let m := dmaCopy c r.src r.dst a b x y a.size 0 g.2
              let bytes := (m.1.2 * fmtWidth b.fmt + 7) / 8
              let far := if c.far x then (farErr c.use (x.addr + (elemAt a.fmt (c.offset a m.1.2)).1.toNat) s).map (fun e => e.2.2) else none
              let ev := if m.1.1.status = 0 then 0 else far.getD (lastSeq g.2 m.2)
              if m.1.1.status = 0xFF then failSince r.job g.2 m.2
              else if reqOut c.use m.2 then
                let e := if m.1.1.status = 0 then none else some (m.1.1.status, m.1.1.cause, bytes, ev)
                let ch := chan k m.2
                setChan k { ch with reqs := ch.reqs.map (fun z => if z.issue = r.issue ∧ z.quill = r.quill then { z with sent := true, moved := bytes, err := e } else z) } m.2
              else dmaEnd k r m.1.1.status m.1.1.cause bytes ev m.2
            | some st => dmaEnd k r st 0 0 (lastSeq s g.2) g.2)

/-- The new word of an atomic (05 R490). -/
def atomicWord (op : Nat) (old val cmp : Word) : Word :=
  match op with
  | 0 => val
  | 1 => old + val
  | _ => if old = cmp then val else old

/-- An atomic ended with a status and the old value (05 R490). -/
def atomicEnd (q : Nat) (j : JobRec) (noFail : Bool) (statusSc dst status old evSeq : Nat) (s : State) : State :=
  let v := quill q s
  let v1 := (v.wr statusSc (BitVec.ofNat 32 status)).wr dst (if status = 0 then BitVec.ofNat 32 old else 0)
  if status ≠ 0 ∧ noFail = false then stopJob j.d.id 4 evSeq (setQuill q v1 s)
  else retire q j { v1 with atomic := none } s

/-- ATOMIC (05 R490): local, at the word's controller; on another device, over the ring with wait cause 7. -/
def execAtomic (q op : Nat) (noFail : Bool) (statusSc dst val cmp agp : Nat) (s : State) : Out :=
  .next (onQuill q (.atomic op noFail statusSc dst val cmp agp) (fun j v t =>
    let u : ReqUse := .atomic q
    if reqOut u t then block q 7 t
    else match v.atomic with
    | some (st, old, ev) => atomicEnd q j noFail statusSc dst st old ev t
    | none =>
      let lv := loopVals v
      match opCtx j q lv v.scs u t with
      | none => t
      | some c =>
        let a := c.agp agp t
        let b := c.bind a.binding t
        let off := c.offset a 0
        let p := elemAt a.fmt off
        if hazard c [a.binding] [a.binding] t then block q 6 t
        else
          let k := c.check agp b true off p.1 4 t
          if k.1 = false then failSince j.d.id t k.2
          else if c.far b then
            let r := sendReq u 2 (b.addr / 2 ^ 48) c.job c.det ((b.addr + p.1.toNat) % 2 ^ 48) 12
              (leBytes 4 op ++ leBytes 4 (v.rd val).toNat ++ leBytes 4 (v.rd cmp).toNat) 0 k.2
            if r.1 = 0 then block q 7 r.2 else atomicEnd q j noFail statusSc dst r.1 0 (lastSeq k.2 r.2) r.2
          else
            let addr := b.addr % 2 ^ 48 + p.1.toNat
            let old := rdLe k.2 addr 4
            let new := atomicWord op (BitVec.ofNat 32 old) (v.rd val) (v.rd cmp)
            let r := access 2 q 0 c.who .atomic addr 4 (leBytes 4 new.toNat) k.2
            atomicEnd q j noFail statusSc dst r.1.status old (lastSeq k.2 r.2) r.2) s)

/-- The bytes of packed elements, from the n-th on (03 R59). -/
def packBits (fmt : Nat) (l : List Nat) : List Byte :=
  let w := fmtWidth fmt
  if w = 6 then
    let total := 3 * ((l.length + 3) / 4)
    leBytes total ((List.range l.length).foldl (fun acc i => acc + (match l[i]? with | some x => x | none => 0) * 2 ^ (24 * (i / 4) + 6 * (i % 4))) 0)
  else leBytes ((l.length * w + 7) / 8) (l.foldr (fun x acc => x + acc * 2 ^ w) 0)

/-- The elements of an AGP read in order, `k` from the n-th on; the first error ends it. -/
def readElems (c : OpCtx) (ai : Nat) (a : Agp) (b : Binding) (k n : Nat) (s : State) : (AccRes × List Nat) × State :=
  readRuns c ai b (fmtWidth a.fmt) k ((List.range k).map (fun i => c.offset a (n + i))) s

/-- A Quill taken out of the list of blocked pushers of a queue. -/
def unwaitPush (q : Nat) (s : State) : State := { s with qe := { s.qe with pushWait := s.qe.pushWait.filter (fun w => w.2 != q) } }

/-- Whether a Quill may try its push: no other Quill waits before it in that queue (11 R256). -/
def pushTurn (queue q : Nat) (s : State) : Bool :=
  match s.qe.pushWait.find? (fun w => w.1 == queue) with
  | some w => w.2 == q
  | none => true

/-- A record of copy B of a safety job handed to the checker's twin buffer (15 R350). -/
def twinDeliver (job : Nat) (bytes : List Byte) (s : State) : State :=
  { s with sn := { s.sn with twins := s.sn.twins ++ [{ job := job, copyB := true, bytes := bytes, born := s.time.clk }] } }

/-- The end of a QPUSH or QPOP with a status word; statuses 3, 4, 5 and 7 fail the job (11 R264). -/
def queueEnd (q : Nat) (j : JobRec) (statusSc st len evSeq : Nat) (s : State) : State :=
  let v := (quill q s).wr statusSc (BitVec.ofNat 32 (st + len * 256))
  if st = 3 ∨ st = 4 ∨ st = 5 ∨ st = 7 then stopJob j.d.id 4 evSeq (setQuill q v s) else retire q j v s

/-- QPUSH (05 R129; 11 R259, R261, R264; 15 R350). -/
def execQpush (q : Nat) (blocking : Bool) (statusSc src queue : Nat) (s : State) : Out :=
  .next (onQuill q (.qpush blocking statusSc src queue) (fun j v t =>
    let lv := loopVals v
    match opCtx j q lv v.scs (.queue q) t with
    | none => t
    | some c =>
      let a := c.agp src t
      let b := c.bind a.binding t
      if hazard c [a.binding] [] t then block q 6 t
      else if blocking ∧ pushTurn queue q t = false ∧ v.copyB = false then
        block q 5 (setExt q (if t.qe.pushWait.contains (queue, q) then t else { t with qe := { t.qe with pushWait := t.qe.pushWait ++ [(queue, q)] } }))
      else
        let g := c.gather [src] t
        match g.1 with
        | none => block q 5 g.2
        | some 0 =>
          let r := readElems c src a b a.size 0 g.2
          if r.1.1.status ≠ 0 then failSince j.d.id g.2 r.2
          else
            let rec0 := packBits a.fmt r.1.2
            let done := dropBufs c.use r.2
            if v.copyB then queueEnd q j statusSc 0 0 0 (twinDeliver j.d.id rec0 done)
            else
              let p := pushRecord queue j.d.id (deviceId s) rec0 done
              if p.1 = 1 ∧ blocking = true then
                block q 5 (setExt q (if p.2.qe.pushWait.contains (queue, q) then p.2 else { p.2 with qe := { p.2.qe with pushWait := p.2.qe.pushWait ++ [(queue, q)] } }))
              else queueEnd q j statusSc p.1 0 (lastSeq done p.2) (unwaitPush q p.2)
        | some _ => failSince j.d.id t g.2) s)

/-- The bytes of a record written over the positions that an AGP enumerates, in order; positions past its end stay unwritten
(11 R264). -/
def popWrite (c : OpCtx) (ai : Nat) (a : Agp) (b : Binding) (l : List Byte) (s : State) : AccRes × State :=
  let w := fmtWidth a.fmt
  let k := min a.size (8 * l.length / w)
  let v := leNat l
  let r := writeRuns c ai b w k ((List.range k).map (fun i => (c.offset a i, v / 2 ^ (w * i) % 2 ^ w))) 0 s
  let rest := l.drop (k * w / 8)
  if r.1.status ≠ 0 ∨ w % 8 ≠ 0 ∨ a.size ≤ k ∨ rest.isEmpty = true then r
  else c.wrRaw ai b (c.offset a k) (elemAt a.fmt (c.offset a k)).1 rest (k * w / 8) r.2

/-- The status of a QPOP that may run, in the codes of R264, with the head record's pointer and length (11 R259, R264). -/
def popStatus (queue job dev bytes : Nat) (s : State) : Nat × Nat × Nat :=
  let d := qDesc queue s
  if qeBase s = 0 then (7, 0, 0)
  else if d.enabled = false then (5, 0, 0)
  else if d.consumer ≠ 0 ∨ ((job ^^^ d.jobMatch) &&& d.jobMask) ≠ 0 ∨ ((dev ^^^ d.devMatch) &&& d.devMask) ≠ 0 then (4, 0, 0)
  else match qHead queue s with
    | none => (2, 0, 0)
    | some (ptr, len) => if bytes < len then (6, ptr, len) else (0, ptr, len)

/-- A Quill put behind the others blocked in QPOP on a queue (11 R258). -/
def waitPop (queue q : Nat) (s : State) : State :=
  block q 5 (setExt q (if s.qe.popWait.contains (queue, q) then s else { s with qe := { s.qe with popWait := s.qe.popWait ++ [(queue, q)] } }))

/-- QPOP (05 R129; 11 R258 to R260, R264). -/
def execQpop (q : Nat) (blocking : Bool) (statusSc dst queue : Nat) (s : State) : Out :=
  .next (onQuill q (.qpop blocking statusSc dst queue) (fun j v t =>
    if t.qe.popWait.contains (queue, q) then t
    else
      let lv := loopVals v
      match opCtx j q lv v.scs (.queue q) t with
      | none => t
      | some c =>
        let a := c.agp dst t
        let b := c.bind a.binding t
        if hazard c [a.binding] [a.binding] t then block q 6 t
        else
          let t1 := qdUse queue t
          let st := popStatus queue j.d.id (deviceId s) (a.size * fmtWidth a.fmt / 8) t1
          match st.1 with
          | 2 => if blocking then waitPop queue q t1 else queueEnd q j statusSc 2 0 0 t1
          | 0 =>
            let g := c.gather (if fmtWidth a.fmt % 8 = 0 then [] else [dst]) t1
            match g.1 with
            | none => block q 5 g.2
            | some 0 =>
              let d := qDesc queue g.2
              let m := mcReadBlocks j.d.id (blocksOf (d.base + st.2.1 % d.size) (st.2.2 + 8)) g.2
              if m.1 ≠ 0 then failSince j.d.id g.2 m.2
              else
              let bytes := recBytes d st.2.1 st.2.2 m.2
              let s1 := advanceRd queue ((st.2.1 + stride st.2.2) % (2 * d.size)) (forgetPartials j.d.id v.copyB a.binding m.2)
              let w := popWrite c dst a b bytes s1
              if w.1.status ≠ 0 then failSince j.d.id s1 w.2 else queueEnd q j statusSc 0 st.2.2 0 (dropBufs c.use w.2)
            | some _ => failSince j.d.id t g.2
          | k =>
            let s1 := raise (evQueueRefused queue k j.d.id) t1
            queueEnd q j statusSc k (if k = 6 then st.2.2 else 0) (lastSeq t1 s1) s1) s)

/-- TRAP (05 R116, R140). -/
def execTrap (q code : Nat) (s : State) : Out :=
  .next (onQuill q (.trap code) (fun j v t =>
    failWith j.d.id { c := 2, i := q, bit := 11, code := 0x7104, job := j.d.id, payload := code + v.pc * 2 ^ 32 } t) s)

/-- The end of a copy noted once its last Quill has ended (15 R356). -/
def copyEnded (j : JobRec) (b : Bool) (s : State) : State :=
  if (j.copy b).all (fun q => (quill q s).ended) then
    updJob j.d.id (fun k => if b then { k with endB := some (devNow s) } else { k with endA := some (devNow s) }) s
  else s

/-- END (05 R116, R117). -/
def execEnd (q : Nat) (s : State) : Out :=
  .next (onQuill q .stop (fun j v t => copyEnded j v.copyB (setQuill q { v with ended := true, st := .running, wait := 0 } t)) s)

/-- SEM_TIMEOUT: a wait that exceeds the latched limit fails the job (05 R130). -/
def execSemTimeout (q : Nat) (s : State) : Out :=
  .next (
    let v := quill q s
    if v.st ≠ .waiting ∨ v.waitLimit = 0 then s
    else
      let s1 := advanceTo (v.waitStart + v.waitLimit * oneUs + 1) s
      failWith v.job (evSemTimeout q v.job v.pc v.wait false) s1)

end Sys2Proof.Machine
end

