-- ==== Sys2Proof/Machine/ConvGeo.lean ====
section
/-! DEFINITION. The geometry of convolution, pooling and resize: descriptor fields, layouts, taps, padding positions (08 R193 to
R200, R204, R207, R209). -/

namespace Sys2Proof.Machine

/-- The geometry of a window over an image (08 R194 to R197, R207). -/
structure ConvGeo where
  kh : Nat
  kw : Nat
  sy : Nat
  sx : Nat
  dy : Nat
  dx : Nat
  padTop : Nat
  padLeft : Nat
  padCode : Nat
  padF : Int
  tapFirst : Nat
  tapCount : Nat
  diag : Bool
  groups : Nat
  /-- Address of the correction table. -/
  corr : Nat
  /-- Padding mode of agp_a. -/
  mode : Nat
  /-- Input: block, columns, rows, blocks, images. -/
  b : Nat
  W : Nat
  H : Nat
  CB : Nat
  imgs : Nat
  /-- Output: block, columns, rows, blocks. -/
  bo : Nat
  Wo : Nat
  Ho : Nat
  CBo : Nat
  /-- Input channels per group as padded in the filter, and output channels per group. -/
  Cr : Nat
  Og : Nat
  deriving DecidableEq, Repr

/-- The geometry of a CONV from bytes 40 to 63 and its AGPs (08 R194, R195). -/
def convGeo (tail : List Byte) (a b c : Agp) : ConvGeo :=
  { kh := byteAt tail 0, kw := byteAt tail 1, sy := byteAt tail 2, sx := byteAt tail 3, dy := leField tail 4 2, dx := leField tail 6 2
    padTop := leField tail 8 2, padLeft := leField tail 10 2, padCode := byteAt tail 12, padF := signed 8 (byteAt tail 13)
    tapFirst := leField tail 14 2, tapCount := byteAt tail 16, diag := natBit (byteAt tail 17) 0, groups := leField tail 18 2
    corr := 0x100000000000 + leField tail 20 4, mode := a.pad
    b := a.count 0, W := a.count 1, H := a.count 2, CB := a.count 3, imgs := a.count 4
    bo := c.count 0, Wo := c.count 1, Ho := c.count 2, CBo := c.count 3
    Cr := b.count 0, Og := b.count 3 }

/-- The geometry of a POOL_RESIZE from bytes 40 to 63 and its AGPs (08 R194, R207). -/
def poolGeo (tail : List Byte) (a c : Agp) : ConvGeo :=
  { kh := byteAt tail 1, kw := byteAt tail 2, sy := byteAt tail 3, sx := byteAt tail 4, dy := 1, dx := 1
    padTop := leField tail 6 2, padLeft := leField tail 8 2, padCode := byteAt tail 10, padF := signed 8 (byteAt tail 11)
    tapFirst := 0, tapCount := byteAt tail 1 * byteAt tail 2, diag := false, groups := 1, corr := 0, mode := a.pad
    b := a.count 0, W := a.count 1, H := a.count 2, CB := a.count 3, imgs := a.count 4
    bo := c.count 0, Wo := c.count 1, Ho := c.count 2, CBo := c.count 3, Cr := 0, Og := 0 }

/-- Input channels per group: C_r in the diagonal mapping, else ⌊CB × b / groups⌋, the descriptor naming no C (08 R197; DEDUCED, log entry 24). -/
def ConvGeo.cg (g : ConvGeo) : Nat := if g.diag then g.Cr else g.CB * g.b / max g.groups 1

/-- A number rounded up to a multiple. -/
def roundUp (n u : Nat) : Nat := (n + u - 1) / u * u

/-- The input position of a tap for an output position (08 R196). -/
def ConvGeo.pos (g : ConvGeo) (tap oy ox : Nat) : Int × Int :=
  ((oy * g.sy + tap / max g.kw 1 * g.dy : Nat) - (g.padTop : Int), (ox * g.sx + tap % max g.kw 1 * g.dx : Nat) - (g.padLeft : Int))

/-- Whether an input position is a padding position (08 R196). -/
def ConvGeo.isPad (g : ConvGeo) (p : Int × Int) : Bool := !(decide (0 ≤ p.1 ∧ p.1 < (g.H : Int) ∧ 0 ≤ p.2 ∧ p.2 < (g.W : Int)))

/-- A position clamped into the image (08 R200). -/
def ConvGeo.clamp (g : ConvGeo) (p : Int × Int) : Nat × Nat :=
  ((clampInt 0 ((g.H : Int) - 1) p.1).toNat, (clampInt 0 ((g.W : Int) - 1) p.2).toNat)

/-- Place of an input element in agp_a's enumeration (08 R193, R194). -/
def ConvGeo.inFlat (g : ConvGeo) (n ch iy ix : Nat) : Nat := ch % g.b + g.b * (ix + g.W * (iy + g.H * (ch / g.b + g.CB * n)))

/-- Place of an output element in agp_c's enumeration. -/
def ConvGeo.outFlat (g : ConvGeo) (n o oy ox : Nat) : Nat := o % g.bo + g.bo * (ox + g.Wo * (oy + g.Ho * (o / g.bo + g.CBo * n)))

/-- Place of a weight in agp_b's enumeration. -/
def ConvGeo.wFlat (g : ConvGeo) (c tap o grp : Nat) : Nat :=
  c + g.Cr * (tap % g.kw + g.kw * (tap / g.kw + g.kh * (o + g.Og * grp)))

/-- The ranges of R195 (item 6 of 05 R115). -/
def convRanges (tail : List Byte) (fmtA : Nat) (scaled : Bool) : Bool :=
  let g := fun i => byteAt tail i
  let w := fun i => leField tail i 2
  decide (1 ≤ g 0 ∧ g 0 ≤ 64 ∧ 1 ≤ g 1 ∧ g 1 ≤ 64 ∧ 1 ≤ g 2 ∧ g 2 ≤ 64 ∧ 1 ≤ g 3 ∧ g 3 ≤ 64 ∧ 1 ≤ w 4 ∧ w 4 ≤ 4096 ∧ 1 ≤ w 6 ∧ w 6 ≤ 4096
    ∧ g 12 < 2 ^ fmtWidth fmtA ∧ (g 13 = 0 ∨ scaled = true) ∧ 1 ≤ g 16 ∧ g 16 ≤ 64 ∧ w 14 + g 16 ≤ g 0 * g 1 ∧ g 17 / 2 = 0 ∧ 1 ≤ w 18
    ∧ leField tail 20 4 % 16 = 0)

/-- The ranges of R207 (item 6 of 05 R115). -/
def poolRanges (tail : List Byte) (fmtA : Nat) (scaled : Bool) : Bool :=
  let g := fun i => byteAt tail i
  let fn := g 0 % 8
  decide (fn ≤ 5 ∧ g 0 / 32 = 0 ∧ (3 ≤ fn ∨ (1 ≤ g 1 ∧ 1 ≤ g 2 ∧ 1 ≤ g 3 ∧ 1 ≤ g 4)) ∧ g 5 = 0 ∧ leField tail 6 2 ≤ 255 ∧ leField tail 8 2 ≤ 255
    ∧ g 10 < 2 ^ fmtWidth fmtA ∧ (g 11 = 0 ∨ scaled = true)) && (tail.drop 12).all (fun x => x == 0)

/-- The counts of the image operators' AGPs agree with the geometry (08 R194). -/
def imageShapeOk (g : ConvGeo) (a c : Agp) : Bool :=
  decide ((g.b = 16 ∨ g.b = 32) ∧ (g.bo = 16 ∨ g.bo = 32) ∧ c.count 4 = g.imgs ∧ a.count 5 = 1 ∧ c.count 5 = 1)

/-- R194, R197 and R204 for a CONV, with the group sizes of its operands' scales, 0 for none (item 10 of 05 R115). -/
def convShape (tail : List Byte) (a b c cin : Agp) (fmtA fmtB m n k chunkBase kTotal arr : Nat) (accIn float : Bool) (ga gb : Nat) : Bool :=
  let g := convGeo tail a b c
  let unit := if float ∨ (ga = 0 ∧ gb = 0 ∧ pairHeight fmtA fmtB ≤ 56) then g.b
    else max (if ga = 0 then 128 else ga) (if gb = 0 then 128 else gb)
  let O := g.Og * g.groups
  let py := 15 * g.sy + (g.kh - 1) * g.dy + 1
  let px := 15 * g.sx + (g.kw - 1) * g.dx + 1
  imageShapeOk g a c
    && decide (b.count 1 = g.kw ∧ b.count 2 = g.kh ∧ b.count 4 = g.groups ∧ b.count 5 = 1 ∧ g.CBo = (O + g.bo - 1) / g.bo
      ∧ m = g.Ho * g.Wo ∧ n = g.Og ∧ k = g.tapCount * g.Cr ∧ 1 ≤ g.cg ∧ (g.diag = true ∨ g.Cr = roundUp g.cg unit))
    && (!accIn || (List.range 6).all (fun i => cin.count i == c.count i))
    && (!float || decide (kTotal = g.kh * g.kw * g.Cr ∧ chunkBase * 128 = g.tapFirst * g.Cr))
    && (ga == 0 || g.cg % ga == 0)
    && (!g.diag || decide ((g.Cr = 1 ∨ g.Cr = 2 ∨ g.Cr = 4 ∨ g.Cr = 8) ∧ (g.Og = 1 ∨ g.Og = 2 ∨ g.Og = 4 ∨ g.Og = 8 ∨ g.Og = 16) ∧ g.Cr ≤ g.Og
        ∧ arr = 0 ∧ ga = 0 ∧ py ≤ 64 ∧ px ≤ 64 ∧ g.groups * g.Cr ≤ g.CB * g.b))

/-- R194 for a POOL_RESIZE (item 10 of 05 R115). -/
def poolShape (tail : List Byte) (a c : Agp) : Bool :=
  let g := poolGeo tail a c
  imageShapeOk g a c && decide (g.CBo * g.bo < g.CB * g.b + g.bo ∧ g.CB * g.b < g.CBo * g.bo + g.b)
    && (byteAt tail 0 % 8 != 5 || decide (g.Wo = 1 ∧ g.Ho = 1))

/-- Bytes of the correction table, where a CONV has one: its address and length (08 R202). -/
def corrTable (tail : List Byte) (a b c : Agp) (float : Bool) : Option (Nat × Nat) :=
  let g := convGeo tail a b c
  if g.mode = 2 ∧ float = false then some (g.corr, g.Og * g.groups * g.tapCount * 16) else none

/-- The source row of an output row, nearest (08 R209). -/
def nearestRow (j h ho : Nat) : Nat := min ((2 * j + 1) * h / (2 * max ho 1)) (h - 1)

/-- The two source rows of an output row with their weights, bilinear (08 R209). -/
def bilinearRow (j h ho : Nat) : (Nat × Nat) × (Nat × Nat) :=
  let pos := clampInt 0 (((h - 1) * 65536 : Nat) : Int) ((((2 * j + 1) * h * 65536 / (2 * max ho 1) : Nat) : Int) - 32768)
  let p := pos.toNat
  let i0 := p / 65536
  ((i0, 65536 - p % 65536), (min (i0 + 1) (h - 1), p % 65536))

end Sys2Proof.Machine
end

