-- ==== Sys2Proof/Machine/Validate.lean ====
section
/-! DEFINITION. Validation of a program image and its binding table (05 R115, with the shape rules of R122, R128, R131 to R133,
R490, 06 R144, R145, and of 07 and 08 for their kinds). -/

namespace Sys2Proof.Machine

/-- An image's parts, read once. -/
structure Image where
  hdr : ImgHdr
  /-- Instruction words. -/
  words : List Nat
  tods : List Tod
  agps : List Agp
  binds : List Binding
  deriving DecidableEq, Repr

/-- An image's parts from its bytes and the binding table's bytes (05 R114, R118). -/
def Image.read (img : List Byte) (table : List Byte) (bindCount : Nat) : Image :=
  let h := ImgHdr.read img
  { hdr := h
    words := (List.range h.instrCount).map (fun i => leField img (h.instrOff + 16 * i) 16)
    tods := (List.range h.todCount).map (fun i => Tod.read ((img.drop (h.todOff + 64 * i)).take 64))
    agps := (List.range h.agpCount).map (fun i => Agp.read ((img.drop (h.agpOff + 64 * i)).take 64))
    binds := (List.range bindCount).map (fun i => Binding.read ((table.drop (32 * i)).take 32)) }

/-- image_bytes within its range (05 R114). -/
def ImgHdr.sizeOk (h : ImgHdr) : Bool := decide (64 ≤ h.bytes ∧ h.bytes % 64 = 0 ∧ h.bytes ≤ 262144)

/-- Item 1: magic, version, CRC (05 R115). -/
def ImgHdr.item1 (h : ImgHdr) (img : List Byte) : Bool :=
  decide (h.magic = 0x314E464A ∧ h.version = 1) && (!h.sizeOk || decide (crc32 (img.take 60 ++ leBytes 4 0 ++ img.drop 64) = h.crc))

/-- Item 2: every section within the image. -/
def ImgHdr.item2 (h : ImgHdr) : Bool :=
  decide (h.instrOff + 16 * h.instrCount ≤ h.bytes ∧ h.todOff + 64 * h.todCount ≤ h.bytes ∧ h.agpOff + 64 * h.agpCount ≤ h.bytes)

/-- Item 6 for the header: ranges and alignments of R114. -/
def ImgHdr.item6 (h : ImgHdr) : Bool :=
  h.sizeOk && h.reservedOk && decide (1 ≤ h.quills ∧ h.quills ≤ 192 ∧ 1 ≤ h.instrCount ∧ h.instrCount ≤ 16384 ∧ h.todCount ≤ 4096
    ∧ h.agpCount ≤ 4096 ∧ h.instrOff % 16 = 0 ∧ h.todOff % 64 = 0 ∧ h.agpOff % 64 = 0)

/-- The index of the first entry of a list that fails a check. -/
def firstBad {α : Type} (ok : Nat → α → Bool) : Nat → List α → Option Nat
  | _, [] => none
  | i, x :: t => if ok i x then firstBad ok (i + 1) t else some i

/-- The loops of an instruction list: index of the LOOP, last index of its body. -/
def loopSpans : Nat → List (Option QInstr) → List (Nat × Nat)
  | _, [] => []
  | i, some (.loop _ _ body) :: t => (i, i + body) :: loopSpans (i + 1) t
  | i, _ :: t => loopSpans (i + 1) t

/-- The loops whose body holds an index. -/
def enclosing (spans : List (Nat × Nat)) (i : Nat) : List (Nat × Nat) := spans.filter (fun l => decide (l.1 < i ∧ i ≤ l.2))

/-- Item 7: a loop body inside its enclosing body, at most 8 deep (05 R115). -/
def loopOk (spans : List (Nat × Nat)) (l : Nat × Nat) : Bool :=
  (enclosing spans l.1).all (fun o => decide (l.2 ≤ o.2)) && decide ((enclosing spans l.1).length < 8)

/-- Item 8: a branch stays in the innermost loop body that holds it (05 R115). -/
def branchOk (spans : List (Nat × Nat)) (i : Nat) (off : Nat) : Bool :=
  match (enclosing spans i).getLast? with
  | some l => let t := (i : Int) + signed 16 off; decide ((l.1 : Int) < t ∧ t ≤ l.2)
  | none => true

/-- An AGP index that is absent. -/
def noAgp : Nat := 0xFFFF

/-- Item 9 for an instruction: descriptor and AGP indices in range (05 R115). -/
def instrIndexOk (m : Image) : QInstr → Bool
  | .top t => decide (t < m.tods.length)
  | .dma _ _ _ _ a b _ => decide (a < m.agps.length ∧ b < m.agps.length)
  | .atomic _ _ _ _ _ _ a => decide (a < m.agps.length)
  | .qpush _ _ a _ => decide (a < m.agps.length)
  | .qpop _ _ a _ => decide (a < m.agps.length)
  | _ => true

/-- The AGPs that an attention descriptor names in its kind-specific bytes (07 R177). -/
def Tod.tailAgps (t : Tod) : List Nat := if t.kind = 4 ∨ t.kind = 5 then [leField t.tail 16 2, leField t.tail 18 2, leField t.tail 20 2] else []

/-- Item 9 for a descriptor; attention names three AGPs more (05 R115; 07 R177). -/
def todIndexOk (m : Image) (t : Tod) : Bool :=
  ([t.agpA, t.agpB, t.agpC, t.agpCin] ++ t.tailAgps).all
    (fun a => a == noAgp || decide (a < m.agps.length))

/-- An AGP of the image; an empty one for an index without one. -/
def Image.agp (m : Image) (i : Nat) : Agp :=
  match m.agps[i]? with | some a => a | none => ⟨0, 0, 0, 0, 0, [], [], false⟩

/-- A binding of the image. -/
def Image.bind (m : Image) (i : Nat) : Binding :=
  match m.binds[i]? with | some b => b | none => ⟨0, false, false, false, 0, 0, 0, false⟩

/-- Batch dimensions of an operation: dimension i of each AGP has one count, or count 1 with stride 0 (05 R122). -/
def batchOk (ags : List Agp) : Bool :=
  (List.range 4).all (fun i =>
    let cs := ags.map (fun a => a.count (i + 2))
    let n := cs.foldl max 1
    ags.all (fun a => a.count (i + 2) == n || (a.count (i + 2) == 1 && (a.stride (i + 2) == 0 || decide (a.dims.length ≤ i + 2)))))

/-- Output element count of an AGP's first two dimensions. -/
def dims2 (a : Agp) (x y : Nat) : Bool := a.count 0 == x && a.count 1 == y

/-- Whether the outputs are partial words: acc_out 1. -/
def Tod.partialOut (t : Tod) : Bool := t.accOut == 1

/-- Whether the float path carries an operation: a MATMUL or CONV by its pair, a REDUCE always (03 R61, 05 R132). -/
def Tod.floatPath (t : Tod) : Bool :=
  match t.kind with
  | 1 => pairPath t.fmtA t.fmtB == .float
  | 2 => pairPath t.fmtA t.fmtB == .float
  | 7 => true
  | _ => false

/-- What validation asks of the device besides the image: the group size that a binding's scale descriptor gives, 0 for none, and
whether the job owns a run of scratchpad bytes (08 R197, R202). -/
structure ImageEnv where
  scaleGroup : Binding → Nat
  owns : Nat → Nat → Bool

/-- Item 9 for the correction table of a CONV: in scratchpad lines the job owns (08 R202). -/
def corrOk (m : Image) (env : ImageEnv) (t : Tod) : Bool :=
  if t.kind = 2 ∧ t.agpA ≠ 0xFFFF ∧ t.agpB ≠ 0xFFFF ∧ t.agpC ≠ 0xFFFF then
    match corrTable t.tail (m.agp t.agpA) (m.agp t.agpB) (m.agp t.agpC) t.floatPath with
    | some (a, n) => env.owns a n
    | none => true
  else true

/-- Item 10 for a descriptor: required AGPs present and shapes matching (05 R115, R122, R131 to R133). -/
def todShapeOk (m : Image) (env : ImageEnv) (t : Tod) : Bool :=
  let a := m.agp t.agpA
  let b := m.agp t.agpB
  let c := m.agp t.agpC
  let has := fun i => i != noAgp
  match t.kind with
  | 1 =>
    has t.agpA && has t.agpB && has t.agpC
      && (if t.transA then dims2 a t.m t.k else dims2 a t.k t.m) && (if t.transB then dims2 b t.n t.k else dims2 b t.k t.n)
      && dims2 c t.n t.m && (t.accIn == 0 || !has t.agpCin || dims2 (m.agp t.agpCin) t.n t.m)
      && batchOk ([a, b, c] ++ (if t.accIn == 1 && has t.agpCin then [m.agp t.agpCin] else []))
  | 2 => has t.agpA && has t.agpB && has t.agpC
      && convShape t.tail a b c (m.agp t.agpCin) t.fmtA t.fmtB t.m t.n t.k t.chunkBase t.kTotal t.arr (t.accIn == 1 && has t.agpCin) t.floatPath
          (env.scaleGroup (m.bind a.binding)) (env.scaleGroup (m.bind b.binding))
  | 3 => has t.agpA && has t.agpC && poolShape t.tail a c
  | 4 =>
    let f := byteAt t.tail 0
    let co := natBit f 6
    has t.agpA && has t.agpC && (!natBit f 4 || (has t.agpB && has (leField t.tail 16 2))) && (!natBit f 5 || has (leField t.tail 18 2))
      && (!natBit f 3 || has (leField t.tail 20 2)) && (!co || has t.agpCin) && (co || dims2 a t.n t.m)
      && (t.accOut == 1 || dims2 c t.n t.m)
  | 5 => has t.agpA && has t.agpB && has t.agpC && has (leField t.tail 16 2) && has (leField t.tail 18 2) && has (leField t.tail 20 2)
      && dims2 a t.n t.m && dims2 b t.n t.m && dims2 c t.n t.m
  | 6 =>
    let fn := byteAt t.tail 0
    let bin := decide (fn ≤ 4)
    has t.agpA && has t.agpC && a.size == c.size && (!bin || byteAt t.tail 1 == 1 || (has t.agpB && b.size == a.size))
      && t.m == 0 && t.n == 0 && t.k == 0
  | 7 =>
    has t.agpA && has t.agpC && a.count 0 == t.k && c.size * t.k == a.size && t.m == 0 && t.n == 0
      && (t.accIn == 0 || !has t.agpCin || (m.agp t.agpCin).size == c.size)
  | 8 =>
    has t.agpA && has t.agpB && has t.agpC && has t.agpCin && b.size == a.size && c.size == a.size
      && (m.agp t.agpCin).size == a.size && t.m == 0 && t.n == 0 && t.k == 0
  | _ => true

/-- Chunks of a reduction (06 R143). -/
def chunks (k : Nat) : Nat := (k + 127) / 128

/-- Whether a run of `n` chunks from `b` is the span of a node of a tree of `c` chunks (06 R143, R144). -/
def isNodeSpan (b n c : Nat) : Bool :=
  (List.range 33).any (fun j => b % 2 ^ j == 0 && min (b + 2 ^ j) c == b + n && decide (b < c))

/-- The combining node of R145: the lowest level whose node has the span and whose sibling exists. -/
def siblingLevel (b n c : Nat) : Option Nat :=
  (List.range 33).find? (fun j =>
    b % 2 ^ j == 0 && min (b + 2 ^ j) c == b + n && decide (b < c) &&
      (let i := b / 2 ^ j; let sib := if i % 2 = 0 then i + 1 else i - 1; decide (sib * 2 ^ j < c)))

/-- The Ductus rules of a float-path sum (06 R144, R145). -/
def ductusOk (t : Tod) : Bool :=
  let n := chunks t.k
  let c := chunks t.kTotal
  decide (1 ≤ t.k) && isNodeSpan t.chunkBase n c
    && (t.k % 128 == 0 || (t.chunkBase + n == c && t.chunkBase * 128 + t.k == t.kTotal))
    && (t.accIn == 0 || (siblingLevel t.chunkBase n c).isSome)

/-- The chunk range of an attention launch can be a node span of the token tree, or one that runs to a context's end; `attnRangeAt` holds it to the
context's end when the launch runs (07 R184). -/
def attnRangeOk (t : Tod) : Bool := t.k == 0 || (t.k % 128 == 0 && isNodeSpan t.chunkBase (chunks t.k) 8192) || (List.range 14).any (fun j =>
  decide (chunks t.k ≤ 2 ^ j) && t.chunkBase % 2 ^ j == 0)

/-- The row sums of a backward launch cover a node of their tree: chunk_base and k_total count the rows of one KV head, n_new × g in this launch
(06 R144; 07 R191; DEDUCED, log entry 28). -/
def bwdRowsOk (t : Tod) : Bool :=
  let rows := leField t.tail 14 2 * (byteAt t.tail 1 % 16 + 1)
  let n := chunks rows
  let c := chunks t.kTotal
  isNodeSpan t.chunkBase n c && (rows % 128 == 0 || (t.chunkBase + n == c && t.chunkBase * 128 + rows == t.kTotal))

/-- Item 11: combinations of accumulation and output modes that R121, R131 to R133, R144 and R145 refuse; what depends on the path is not asked of
a pair that no path takes, which FORMAT_INVALID refuses when it runs (03 R79). -/
def todComboOk (t : Tod) : Bool :=
  let known := pairPath t.fmtA t.fmtB == .exact || t.floatPath
  let common := !(t.accOut == 0 && (!t.rescaleEn || t.floatPath)) && !(t.accOut == 2 && known && !t.floatPath)
    && !(t.accIn == 1 && t.agpCin == noAgp) && !(t.accIn == 1 && t.accOut == 1 && t.floatPath)
  let tree := if t.floatPath then ductusOk t else !known || (t.chunkBase == 0 && t.kTotal == 0)
  let bare := t.accIn == 0 && t.accOut == 0 && !t.transA && !t.transB && !t.chanN && t.chunkBase == 0 && t.kTotal == 0
  match t.kind with
  | 1 => common && tree
  | 2 => common && tree
  | 3 => t.accOut == 2
  | 4 => t.accOut != 0 && t.kTotal == 0 && !(t.accIn == 1 && t.agpCin == noAgp) && (!natBit (byteAt t.tail 0) 6 || t.accIn == 1) && attnRangeOk t
  | 5 => t.accOut != 0 && (t.accOut == 1 || t.fmtC == 0 || t.fmtC == 1) && bwdRowsOk t
  | 6 => bare && (t.rescaleEn == (byteAt t.tail 0 == 12))
  | 7 =>
    let mm := byteAt t.tail 0 == 1 || byteAt t.tail 0 == 2
    t.accOut != 0 && !(t.accIn == 1 && t.agpCin == noAgp)
      && (if mm then t.chunkBase == 0 && t.kTotal == 0 else ductusOk t && !(t.accIn == 1 && t.accOut == 1))
  | 8 => bare && !t.rescaleEn
  | _ => true

/-- The kind-specific bytes of a descriptor hold no reserved encoding (05 R131 to R133). -/
def todTailOk (m : Image) (t : Tod) : Bool :=
  let z := fun (lo hi : Nat) => ((t.tail.drop lo).take (hi - lo)).all (fun x => x == 0)
  let scaled := (m.bind (m.agp t.agpA).binding).hasScales
  match t.kind with
  | 2 => convRanges t.tail t.fmtA scaled
  | 3 => poolRanges t.tail t.fmtA scaled
  | 4 =>
    let f := byteAt t.tail 0
    decide (f % 4 ≤ 2 ∧ f / 128 = 0 ∧ byteAt t.tail 1 / 16 = 0) && !(natBit f 2 && natBit f 3) && !(natBit f 6 && (natBit f 4 || natBit f 3 || natBit f 2 || t.k != 0))
      && (if f % 4 = 0 then decide (leField t.tail 8 6 < 2 ^ 18 ∧ 1 ≤ leField t.tail 14 2 ∧ leField t.tail 14 2 ≤ 32)
          else decide (1 ≤ leField t.tail 14 2 ∧ leField t.tail 14 2 ≤ 256))
  | 5 =>
    let f := byteAt t.tail 0
    decide (f % 4 = 0 ∧ f / 128 = 0 ∧ byteAt t.tail 1 / 16 = 0 ∧ t.k = 0 ∧ leField t.tail 8 6 < 2 ^ 18 ∧ 1 ≤ leField t.tail 14 2 ∧ leField t.tail 14 2 ≤ 32)
      && !natBit f 4 && !natBit f 3 && !natBit f 6
  | 6 => decide (byteAt t.tail 0 ≤ 12 ∧ byteAt t.tail 1 ≤ 1) && z 2 4 && z 8 24
  | 7 => decide (byteAt t.tail 0 ≤ 3) && z 1 24
  | 8 => decide (byteAt t.tail 6 ≤ 1) && z 7 24
  | _ => true

/-- Whether a padding mode may stand in an AGP: only agp_a of CONV and POOL_RESIZE, and nothing else (08 R199). -/
def padOk (m : Image) (i : Nat) (a : Agp) : Bool :=
  a.pad == 0 ||
    (m.tods.any (fun t => t.agpA == i && (t.kind == 2 || t.kind == 3))
      && m.tods.all (fun t => !(t.agpB == i || t.agpC == i || t.agpCin == i || t.tailAgps.contains i || (t.agpA == i && t.kind != 2 && t.kind != 3)))
      && m.words.all (fun w => match QInstr.decode w with
          | some (.dma _ _ _ _ x y _) => x != i && y != i
          | some (.atomic _ _ _ _ _ _ x) => x != i
          | some (.qpush _ _ x _) => x != i
          | some (.qpop _ _ x _) => x != i
          | _ => true))

/-- Item 10 for an instruction: DMA AGPs agree (R128), an ATOMIC's AGP is one INT32 element at a multiple of 4 (R490). -/
def instrShapeOk (m : Image) : QInstr → Bool
  | .dma _ _ _ _ a b _ => (m.agp a).fmt == (m.agp b).fmt && (m.agp a).size == (m.agp b).size
  | .atomic _ _ _ _ _ _ a => (m.agp a).size == 1 && (m.bind (m.agp a).binding).fmt == 8 && (m.bind (m.agp a).binding).addr % 4 == 0
  | _ => true

/-- The first fault of a job's image and binding table in the order of R115: cause, index, kind of index (0 instruction,
1 descriptor, 2 AGP, 3 binding entry); the lowest cause is the one reported (DEDUCED, log entry 13). -/
def validate (m : Image) (env : ImageEnv) (img : List Byte) (quillsA bindCount : Nat) (det : Bool) : Option (Nat × Nat × Nat) :=
  let h := m.hdr
  let dec := m.words.map QInstr.decode
  let spans := loopSpans 0 dec
  let onInstr := fun (ok : QInstr → Bool) => firstBad (fun _ (x : Option QInstr) => match x with | some i => ok i | none => true) 0 dec
  if h.item1 img = false then some (1, 0, 0)
  else if h.item2 = false then some (2, 0, 0)
  else if h.quills ≠ quillsA then some (3, 0, 0)
  else if bindCount < h.bindingMin then some (4, 0, 0)
  else if h.needDet = true ∧ det = false then some (5, 0, 0)
  else if h.item6 = false then some (6, 0, 0)
  else match firstBad (fun _ (x : Option QInstr) => x.isSome) 0 dec with
  | some i => some (6, i, 0)
  | none =>
  match firstBad (fun _ (t : Tod) => t.ok && todTailOk m t) 0 m.tods with
  | some i => some (6, i, 1)
  | none =>
  match firstBad (fun i (a : Agp) => a.ok && padOk m i a) 0 m.agps with
  | some i => some (6, i, 2)
  | none =>
  match firstBad (fun _ (b : Binding) => b.ok) 0 m.binds with
  | some i => some (6, i, 3)
  | none =>
  match spans.find? (fun l => !loopOk spans l) with
  | some l => some (7, l.1, 0)
  | none =>
  match firstBad (fun i (x : Option QInstr) => match x with | some (.branch _ _ _ _ _ off) => branchOk spans i off | _ => true) 0 dec with
  | some i => some (8, i, 0)
  | none =>
  if h.instrCount ≤ h.entry then some (9, 0, 0) else
  match onInstr (instrIndexOk m) with
  | some i => some (9, i, 0)
  | none =>
  match firstBad (fun _ (t : Tod) => todIndexOk m t && corrOk m env t) 0 m.tods with
  | some i => some (9, i, 1)
  | none =>
  match firstBad (fun _ (a : Agp) => decide (a.binding < bindCount)) 0 m.agps with
  | some i => some (9, i, 2)
  | none =>
  match firstBad (fun _ (a : Agp) => a.fmt == (m.bind a.binding).fmt) 0 m.agps with
  | some i => some (10, i, 2)
  | none =>
  match onInstr (instrShapeOk m) with
  | some i => some (10, i, 0)
  | none =>
  match firstBad (fun _ (t : Tod) => todShapeOk m env t) 0 m.tods with
  | some i => some (10, i, 1)
  | none =>
  match firstBad (fun _ (t : Tod) => todComboOk t) 0 m.tods with
  | some i => some (11, i, 1)
  | none => none

end Sys2Proof.Machine
end

