-- ==== Sys2Proof/Machine/Tensor.lean ====
section
/-! DEFINITION. Tensor operations: operands with their scales and outliers, the exact path and the float path, one output element
at a time, MATMUL, and the drain through the rescale unit or the partial-sum writer (03 R61 to R80; 04; 05 R107 to R123; 06 R143
to R145). -/

namespace Sys2Proof.Machine

/-- Rows and columns of Nibs of an arrangement (05 R112). -/
def arrDims : Nat → Nat × Nat
  | 0 => (4, 4) | 1 => (2, 8) | 2 => (8, 2) | 3 => (1, 16) | _ => (16, 1)

/-- FORMAT_INVALID (03 R79, 04 R93). -/
def evFormatInvalid (c : OpCtx) (o : OpRun) (cause : Nat) : Ev :=
  { c := 2, i := c.q, bit := 7, code := 0x7100, job := c.job
    payload := o.index % 2 ^ 32 + o.tod.fmtA * 2 ^ 32 + o.tod.fmtB * 2 ^ 36 + cause * 2 ^ 40 }

/-- What stops an operation: nothing yet, or the state in which its job has failed, or in which it waits for the ring. -/
inductive OpStop where
  | failed (s : State)
  | waits (s : State)

/-- An operand's scale stream: descriptor, and the scale blocks read by row and super-block. -/
structure Scales where
  d : ScaleDesc
  /-- Row, super-block; the block's 16 bytes as a number. -/
  blocks : List ((Nat × Nat) × Nat)

/-- A block of a stream; 0 for one not read. -/
def Scales.block (x : Scales) (row sb : Nat) : Nat := match x.blocks.find? (fun e => e.1 == (row, sb)) with | some e => e.2 | none => 0

/-- The effective exponent e + s of the group that holds position `p` of a row; none in an invalid super-block (04 R84, R85, R87). -/
def Scales.exp (x : Scales) (row p : Nat) : Option Int :=
  if x.d.group = 0 then some 0
  else
    let g := p / x.d.group
    let b := x.block row (g / 16)
    if b % 256 = 0x80 then none else some (signed 8 (b % 256) + signed 4 (b / 2 ^ (16 + 4 * (g % 16)) % 16))

/-- A read of the issuing device's memory by an operation, for scales, outliers, tables: bytes, or the state after the error. -/
def opRead (c : OpCtx) (a n : Nat) (s : State) : Option (List Byte) × State :=
  let r := access 2 c.q 0 c.who .read a n [] s
  (if r.1.status = 0 then some (rdBytes r.2 a n) else none, r.2)

/-- The scale descriptor of a binding (04 R91). -/
def readScaleDesc (c : OpCtx) (b : Binding) (s : State) : Option ScaleDesc × State :=
  if b.hasScales = false then (some ScaleDesc.plain, s)
  else match opRead c b.scaleDesc 32 s with
    | (some l, s1) => (some (ScaleDesc.read l), s1)
    | (none, s1) => (none, s1)

/-- Items 1 to 3 of R93 for an operand whose row holds `k` elements. -/
def scaleOk (d : ScaleDesc) (k kOut : Nat) : Bool :=
  d.ok && (d.group == 0 || decide (superBlocks k d.group ≤ d.pitch)) && decide (d.outliers ≤ kOut / 64)

/-- The blocks of a stream read, row by row (04 R88). -/
def readBlocks (c : OpCtx) (d : ScaleDesc) : List (Nat × Nat) → State → Option (List ((Nat × Nat) × Nat)) × State
  | [], s => (some [], s)
  | (row, sb) :: t, s =>
    match opRead c (d.addr + (row * d.pitch + sb) * 16) 16 s with
    | (none, s1) => (none, s1)
    | (some l, s1) =>
      match readBlocks c d t s1 with
      | (some r, s2) => (some (((row, sb), leNat l) :: r), s2)
      | (none, s2) => (none, s2)

/-- The tag that R88 gives a block. -/
def tagOf (d : ScaleDesc) (row sb : Nat) : Nat := (d.tagBase + row * d.pitch + sb) % 16

/-- The outlier index list (04 R91, R93 item 5); none where the read fails. -/
def readOutliers (c : OpCtx) (d : ScaleDesc) (s : State) : Option (List Nat) × State :=
  if d.outliers = 0 then (some [], s)
  else match opRead c d.idxAddr (4 * d.outliers) s with
    | (some l, s1) => (some ((List.range d.outliers).map (fun i => leField l (4 * i) 4)), s1)
    | (none, s1) => (none, s1)

/-- Strictly ascending, and every index below K (04 R93 item 5). -/
def outliersOk (l : List Nat) (k : Nat) : Bool := (l.zip (l.drop 1)).all (fun p => decide (p.1 < p.2)) && l.all (fun i => decide (i < k))

/-- The outlier values of rows read: BF16 bits by row (04 R92). -/
def readOutVals (c : OpCtx) (d : ScaleDesc) : List Nat → State → Option (List (Nat × List Nat)) × State
  | [], s => (some [], s)
  | row :: t, s =>
    match opRead c (d.valAddr + row * ((2 * d.outliers + 15) / 16 * 16)) (2 * d.outliers) s with
    | (none, s1) => (none, s1)
    | (some l, s1) =>
      match readOutVals c d t s1 with
      | (some r, s2) => (some ((row, (List.range d.outliers).map (fun i => leField l (2 * i) 2)) :: r), s2)
      | (none, s2) => (none, s2)

/-- The super-block whose scale block is compared at position `p` of a row: the one that begins there (04 R89). -/
def Scales.begins (d : ScaleDesc) (p : Nat) : Option Nat :=
  if d.group = 0 ∨ p % (16 * d.group) ≠ 0 then none else some (p / (16 * d.group))

/-- What stands at one position of a reduction: nothing (a +0 product), a padding encoding, or an element of the AGP. -/
inductive Sel where
  | zero
  | pad (bits : Nat)
  | elem (i : Nat)
  deriving DecidableEq, Repr

/-- One output element of a matrix operation: where it goes, and what its reduction takes at each position. -/
structure OutSpec where
  /-- Place in agp_c's enumeration, and in agp_cin's. -/
  flat : Nat
  flatIn : Nat
  chan : Nat
  row : Nat
  col : Nat
  nib : Nat
  a : Nat → Sel
  b : Nat → Sel
  /-- Effective exponents at a position. -/
  fa : Nat → Option Int
  fb : Nat → Option Int
  /-- Positions at which neither operand is read: the taps at zero padding (08 R200). -/
  void : Nat → Bool
  /-- Outlier positions with their BF16 bits, and whether operand A holds them. -/
  outl : List (Nat × Nat)
  outA : Bool
  macs : Nat

/-- The bits at a position. -/
def Sel.bits (x : Sel) (els : Nat → Nat) : Option Nat :=
  match x with
  | .zero => none
  | .pad b => some b
  | .elem i => some (els i)

/-- An element on the exact path: its units, and whether it is a NaN or an infinity (03 R62, R69). -/
def exactElt (fmt bits : Nat) : Int × Bool :=
  let v := elemValue fmt bits
  (Val.units (kMin fmt) v, !v.isFin)

/-- One position's product in units of 2^λ, and whether it poisons; an outlier column's element is forced to zero (03 R63, R69;
04 R94; 08 R200). -/
def exactTerm (fa fb : Nat) (o : OutSpec) (ea eb : Nat → Nat) (k : Nat) : Int × Bool :=
  match (o.a k).bits ea, (o.b k).bits eb with
  | some x, some y =>
    let isOut := o.outl.any (fun p => p.1 == k)
    let u := exactElt fa x
    let w := exactElt fb y
    if isOut then (0, false)
    else (if u.2 || w.2 then 0 else u.1 * w.1, u.2 || w.2)
  | _, _ => (0, false)

/-- The value on the exact side of an outlier's product: v × 2^f of the other operand (04 R95). -/
def outlierOther (fa fb : Nat) (o : OutSpec) (ea eb : Nat → Nat) (k : Nat) : Val :=
  let s := if o.outA then o.b k else o.a k
  let f := if o.outA then o.fb k else o.fa k
  let fmt := if o.outA then fb else fa
  match s.bits (if o.outA then eb else ea), f with
  | some x, some f => match elemValue fmt x with | .fin n m e => .fin n m (e + f) | v => v
  | none, _ => .fin false 0 0
  | _, none => .nan

/-- The least significant weight exponent L of A96 (03 R65). -/
def accUnit (xa xb : Int) (fa fb : Nat) : Int := xa + xb + 14 + pairUnit fa fb + pairHeight fa fb - 70

/-- The accumulator of an output element on the exact path: groups, then outliers (03 R64 to R69; 04 R83, R85, R95). A group's exponents
are those of its first position that is read; one that reads none contributes 0 (08 R200). `force` saturates the first group contribution
(03 R80). -/
def exactOutput (fa fb : Nat) (xa xb : Int) (g K : Nat) (ea eb : Nat → Nat) (force : Bool) (o : OutSpec) : Acc :=
  let L := accUnit xa xb fa fb
  let ng := (K + g - 1) / g
  let groups := (List.range ng).foldl (fun (acc : Acc) i =>
    let ks := (List.range (min g (K - i * g))).map (fun j => i * g + j)
    match ks.find? (fun k => !o.void k) with
    | none => acc.add 0 i (force && i == 0)
    | some k0 =>
    match o.fa k0, o.fb k0 with
    | some u, some v =>
      let ts := ks.map (exactTerm fa fb o ea eb)
      let S := ts.foldl (fun n t => n + t.1) (0 : Int)
      let a1 := acc.add (groupContribution S (pairUnit fa fb + u + v - L)) i (force && i == 0)
      { a1 with poison := a1.poison || ts.any (fun t => t.2) }
    | _, _ => { acc.add 0 i (force && i == 0) with poison := true }) Acc.zero
  o.outl.foldl (fun (acc : Acc) p =>
    match (bf16.value p.2).mul (outlierOther fa fb o ea eb p.1), (bf16.value p.2).isFin && (outlierOther fa fb o ea eb p.1).isFin with
    | .fin neg m k, true =>
      let n : Int := (rheScale m (k - L) : Nat)
      acc.add (if neg then -n else n) (p.1 / g) false
    | _, _ => { acc.add 0 (p.1 / g) false with poison := true }) groups

/-- An operand on the float path with its flags: narrow elements widen to BF16 with their scale applied and rounded once (03 R61,
05 R134); a wide element carries its scale as an exact factor, and an element of an invalid super-block is a NaN, as R85 has it on the
exact path (DEDUCED, log entry 22). -/
def floatOp (fmt bits : Nat) (f : Option Int) : FOp × Nat :=
  match f with
  | none => ((.nan, 0), 0)
  | some f =>
    match (if fmt ≤ 2 then fpFmt fmt else none) with
    | some F => ((match F.value bits with | .fin n m k => .fin n m (k + f) | v => v, F.expo bits + f), 0)
    | none =>
      let v := match elemValue fmt bits with | .fin n m k => Val.fin n m (k + f) | w => w
      let r := bf16.convert false v
      ((bf16.value r.1, bf16.expo r.1), r.2)

/-- The operand pair at a position on the float path; an outlier column takes its BF16 value (05 R134). -/
def floatTerm (fa fb : Nat) (o : OutSpec) (ea eb : Nat → Nat) (k : Nat) : (FOp × FOp) × Nat :=
  let z : FOp := (.fin false 0 0, 0)
  let ov := o.outl.find? (fun p => p.1 == k)
  match (o.a k).bits ea, (o.b k).bits eb with
  | some x, some y =>
    let u := match ov with | some p => if o.outA then floatOp 1 p.2 (some 0) else floatOp fa x (o.fa k) | none => floatOp fa x (o.fa k)
    let w := match ov with | some p => if o.outA then floatOp fb y (o.fb k) else floatOp 1 p.2 (some 0) | none => floatOp fb y (o.fb k)
    ((u.1, w.1), u.2 ||| w.2)
  | _, _ => ((z, z), 0)

/-- A list cut into chunks of 128, at most `n` (03 R71). -/
def chunkList {α : Type} : Nat → List α → List (List α)
  | 0, _ => []
  | n + 1, l => if l.isEmpty then [] else l.take 128 :: chunkList n (l.drop 128)

/-- A reduction of operand pairs on the float path: chunks, their Ductus subtree, and the sibling's value if any; bits, flags, and
whether a NaN or an infinity took part (03 R71 to R73; 06 R143 to R145). -/
def floatReduce (ps : List (FOp × FOp)) (sib : Option Nat) : (Nat × Nat) × Bool :=
  let n := chunks ps.length
  let cs := (chunkList n ps).map chunkResult
  let tree := ductusTree n (cs.map (fun c => c.1.1))
  let fl := cs.foldl (fun f c => f ||| c.1.2) tree.2
  let sp := cs.any (fun c => c.2)
  match sib with
  | some v => let r := f32Add tree.1 v; ((r.1, r.2 ||| fl), sp)
  | none => ((tree.1, fl), sp)

/-- An output element on the float path. -/
def floatOutput (fa fb K : Nat) (ea eb : Nat → Nat) (sib : Option Nat) (o : OutSpec) : (Nat × Nat) × Bool :=
  let ts := (List.range K).map (floatTerm fa fb o ea eb)
  let r := floatReduce (ts.map (fun t => t.1)) sib
  ((r.1.1, ts.foldl (fun f t => f ||| t.2) r.1.2), r.2)

/-- The first super-block whose tag differs, in the order of the walk: SCALE_SKEW's operand masks, expected and found tag, offset
in blocks, Nib (04 R89, R90, R97). -/
structure Skew where
  inA : Bool
  inB : Bool
  expect : Nat
  found : Nat
  off : Nat
  nib : Nat

/-- SCALE_SKEW (04 R97). -/
def evSkew (c : OpCtx) (o : OpRun) (k : Skew) (inj : Bool) : Ev :=
  { c := 2, i := c.q, bit := 4, code := 0x3101, job := c.job, ctx := k.nib
    payload := o.index % 2 ^ 32 + b2n k.inA * 2 ^ 32 + b2n k.inB * 2 ^ 33 + k.expect * 2 ^ 34 + k.found * 2 ^ 38 + k.off % 2 ^ 32 * 2 ^ 42 + injFlag inj }

/-- What one output element compares at one step: row and position in A's stream, row and position in B's, Nib. -/
abbrev TagCheck := (Nat × Nat) × (Nat × Nat) × Nat

/-- The expected tag, the tag found and the offset of the block that begins at a position of a row, where the tags differ (04 R89). -/
def Scales.differs (x : Scales) (row p : Nat) : Option (Nat × Nat × Nat) :=
  match Scales.begins x.d p with
  | none => none
  | some sb =>
    let found := x.block row sb / 256 % 16
    if found = tagOf x.d row sb then none else some (tagOf x.d row sb, found, row * x.d.pitch + sb)

/-- The mismatch of one step, in which the rows and columns of a pass block reach the same reduction index together (04 R90, R97;
05 R107, R112). -/
def skewStep (sa sb : Scales) (l : List TagCheck) : Option Skew :=
  let inA := l.findSome? (fun w => (sa.differs w.1.1 w.1.2).map (fun e => (e, w.2.2)))
  let inB := l.findSome? (fun w => (sb.differs w.2.1.1 w.2.1.2).map (fun e => (e, w.2.2)))
  match inA, inB with
  | none, none => none
  | some e, f => some ⟨true, f.isSome, e.1.1, e.1.2.1, e.1.2.2, e.2⟩
  | none, some e => some ⟨false, true, e.1.1, e.1.2.1, e.1.2.2, e.2⟩

/-- The blocks that an operation's steps compare in A's stream, in order, and those in B's: row and super-block. -/
def blocksA (d : ScaleDesc) (steps : List (List TagCheck)) : List (Nat × Nat) :=
  (steps.flatten.filterMap (fun w => (Scales.begins d w.1.2).map (fun sb => (w.1.1, sb)))).eraseDups

/-- The blocks of B's stream. -/
def blocksB (d : ScaleDesc) (steps : List (List TagCheck)) : List (Nat × Nat) :=
  (steps.flatten.filterMap (fun w => (Scales.begins d w.2.1.2).map (fun sb => (w.2.1.1, sb)))).eraseDups

/-- The two scale streams of an operation read and compared in its order; none where a read fails or the tags differ, and the job has
failed (04 R88 to R90). An armed injection flips the low tag bit of the first block of A (04 R98). -/
def readStreams (c : OpCtx) (o : OpRun) (da db : ScaleDesc) (steps : List (List TagCheck)) (s : State) : Option (Scales × Scales) × State :=
  match readBlocks c da (blocksA da steps) s with
  | (none, s1) => (none, failSince c.job s s1)
  | (some ba, s1) =>
    match readBlocks c db (blocksB db steps) s1 with
    | (none, s2) => (none, failSince c.job s1 s2)
    | (some bb, s2) =>
      let inj := armed 2 c.q 4 s2 && !ba.isEmpty
      let ba' := match ba with | e :: r => if inj then (e.1, e.2 ^^^ 256) :: r else ba | [] => []
      let s3 := if inj then disarm 2 c.q 4 s2 else s2
      let sa : Scales := ⟨da, ba'⟩
      let sb : Scales := ⟨db, bb⟩
      match steps.findSome? (skewStep sa sb) with
      | some k => (none, failWith c.job (evSkew c o k inj) s3)
      | none => (some (sa, sb), s3)

/-- Elements of an AGP read by place in its enumeration; the list gives the places in order. -/
def readAt (c : OpCtx) (ai : Nat) (a : Agp) (b : Binding) (l : List Nat) (s : State) : (AccRes × List (Nat × Nat)) × State :=
  let r := readRuns c ai b (fmtWidth a.fmt) l.length (l.map (c.offset a)) s
  ((r.1.1, l.zip r.1.2), r.2)

/-- The element read at a place, 0 for one not read. -/
def eltAt (l : List (Nat × Nat)) (i : Nat) : Nat := match l.find? (fun e => e.1 == i) with | some e => e.2 | none => 0

/-- Partial words or FP32 values read through agp_cin: 16 bytes or 4 bytes at the element's offset (03 R70, 06 R145; DEDUCED, log entry 23). -/
def readWords (c : OpCtx) (ai : Nat) (a : Agp) (b : Binding) (w : Nat) (l : List Nat) (s : State) : (AccRes × List (Nat × Nat)) × State :=
  let r := readRuns c ai b (8 * w) l.length (l.map (c.offset a)) s
  ((r.1.1, l.zip r.1.2), r.2)

/-- The tensor operation of a Quill that runs next. -/
def nextOp (q : Nat) (s : State) : Option OpRun := (quill q s).ops.find? (fun o => !o.ran)

/-- An operation in flight replaced by a function of it, by issue number. -/
def updOp (q issue : Nat) (f : OpRun → OpRun) (s : State) : State :=
  let v := quill q s
  setQuill q { v with ops := v.ops.map (fun o => if o.issue = issue then f o else o) } s

/-- An operation leaves its Quill once the ring has answered its writes (05 R123, R125). -/
def opDone (q issue : Nat) (s : State) : State :=
  if reqOut (.op q issue) s then updOp q issue (fun o => { o with ran := true, drained := true }) s
  else
    let v := quill q s
    flushSignals q (dropUse (.op q issue) (setQuill q { v with ops := v.ops.filter (fun o => o.issue != issue) } s))

/-- Whether a Quill works on its operations: owned by a RUNNING job, its clock running. -/
def quillWorks (q : Nat) (s : State) : Bool :=
  let v := quill q s
  (v.st == .running || v.st == .waiting) && quillRate q s != 0

/-- Runs a tensor operation's body where the Quill's next operation is of a kind, with its context. -/
def onOp (q : Nat) (kind : Nat) (f : OpCtx → OpRun → State → State) (s : State) : State :=
  match nextOp q s, findJob (quill q s).job s with
  | some o, some j =>
    if o.tod.kind = kind ∧ quillWorks q s = true then
      match opCtx j q o.loops o.scs (.op q o.issue) s with
      | some c => f c o s
      | none => s
    else s
  | _, _ => s

/-- A finished pass holds its results for the drain (05 R107, R109). -/
structure PassRes where
  outs : List OutElem
  flags : Nat
  nf : Nat
  nfNib : Nat
  sat : Nat
  satGroup : Nat
  satNeg : Bool
  satNib : Nat

/-- The empty result. -/
def PassRes.zero : PassRes := ⟨[], 0, 0, 0, 0, 0, false, 0⟩

/-- A matrix operation ready to compute: its outputs in the order of the walk, and the operands. -/
structure MatWork where
  outs : List OutSpec
  fa : Nat
  fb : Nat
  xa : Int
  xb : Int
  g : Nat
  K : Nat
  ea : Nat → Nat
  eb : Nat → Nat
  /-- Partial inputs by place in agp_cin. -/
  cin : Option (Nat → Nat)

/-- One output computed and put behind the others (03 R64 to R73; 05 R109). `nan` and `force` are the injections of R140. The flags of a
received partial join the element and are not counted again in this operation's status and records (DESIGN CHOICE, log entry 52). -/
def passOne (c : OpCtx) (o : OpRun) (ac : Agp) (w : MatWork) (nan force : Bool) (first : Bool) (r : PassRes) (x : OutSpec) : PassRes :=
  let off := c.offset ac x.flat
  let sib := match w.cin with | some f => some (f x.flatIn) | none => none
  if o.tod.floatPath then
    let v := floatOutput w.fa w.fb w.K w.ea w.eb sib x
    let hit := v.2 || (nan && first)
    let bits := if nan && first then fp32.canon else v.1.1
    { r with
      outs := { agp := o.tod.agpC, off := off, chan := x.chan, row := x.row, col := x.col, v := .f32 bits } :: r.outs
      flags := r.flags ||| v.1.2 ||| (if nan && first then nsNonfinite else 0)
      nf := r.nf + b2n hit, nfNib := if hit && r.nf == 0 then x.nib else r.nfNib }
  else
    let a0 := exactOutput w.fa w.fb w.xa w.xb w.g w.K w.ea w.eb (force && first) x
    let a1 := { a0 with poison := a0.poison || (nan && first) }
    let a2 := match sib with | some v => a1.addWord v | none => a1
    { outs := { agp := o.tod.agpC, off := off, chan := x.chan, row := x.row, col := x.col, v := .acc a2 } :: r.outs
      flags := r.flags ||| (if a0.sat then nsWindow else 0) ||| (if a1.poison then nsNonfinite else 0)
      nf := r.nf + b2n a1.poison, nfNib := if a1.poison && r.nf == 0 then x.nib else r.nfNib
      sat := r.sat + a0.nsat
      satGroup := if r.sat = 0 ∧ a0.nsat ≠ 0 then a0.satGroup else r.satGroup
      satNeg := if r.sat = 0 ∧ a0.nsat ≠ 0 then a0.satNeg else r.satNeg
      satNib := if r.sat = 0 ∧ a0.nsat ≠ 0 then x.nib else r.satNib }

/-- All outputs computed in order. -/
def passAll (c : OpCtx) (o : OpRun) (ac : Agp) (w : MatWork) (nan force : Bool) : PassRes :=
  match w.outs with
  | [] => PassRes.zero
  | x :: t =>
    let r := t.foldl (passOne c o ac w nan force false) (passOne c o ac w nan force true PassRes.zero x)
    { r with outs := r.outs.reverse }

/-- The results of a matrix operation put into the operation; MAC and capacity counters; numeric flags (03 R78; 05 R139). -/
def holdResults (c : OpCtx) (o : OpRun) (w : MatWork) (s : State) : State :=
  let nan := armed 2 c.q 0 s
  let force := armed 2 c.q 3 s && !o.tod.floatPath
  let s1 := if nan then disarm 2 c.q 0 s else s
  let s2 := if force then disarm 2 c.q 3 s1 else s1
  let r := passAll c o (c.agp o.tod.agpC s2) w nan force
  let macs := w.outs.foldl (fun n x => n + x.macs) 0
  let s3 := noteAct (c.q * 16 + rateClass w.fa w.fb) macs (addCtr 2 c.q 0x60 macs (orNumeric c.job r.flags s2))
  let v := quill c.q s3
  updOp c.q o.issue (fun p => { p with ran := true, outs := r.outs, unit := accUnit w.xa w.xb w.fa w.fb, nf := r.nf, nfNib := r.nfNib,
                                       sat := r.sat, satGroup := r.satGroup, satNeg := r.satNeg, satNib := r.satNib, nfInj := nan, satInj := force })
    (setQuill c.q { v with capRate := 16 * pairRate w.fa w.fb } s3)

/-- The scale and rescale descriptors and the outlier list of a matrix operation, checked before any operand is read: FORMAT_INVALID
cause, or none; `ka`, `kb` are the row lengths that the two streams cover (03 R80; 04 R93). -/
structure MatHead where
  da : ScaleDesc
  db : ScaleDesc
  /-- Outlier columns and whether operand A holds them. -/
  cols : List Nat
  outA : Bool

/-- Reads and checks of a matrix operation's descriptors; partial words of another unit than its own are refused with them (03 R70;
DEDUCED, log entry 54). -/
def matHead (c : OpCtx) (o : OpRun) (ka kb nOut : Nat) (s : State) : (MatHead ⊕ Option Nat) × State :=
  let t := o.tod
  match pairPath t.fmtA t.fmtB with
  | .storage => (.inr (some 0), s)
  | .refused => (.inr (some 1), s)
  | _ =>
    match readScaleDesc c (c.bind (c.agp t.agpA s).binding s) s with
    | (none, s1) => (.inr none, s1)
    | (some da, s1) =>
      match readScaleDesc c (c.bind (c.agp t.agpB s1).binding s1) s1 with
      | (none, s2) => (.inr none, s2)
      | (some db, s2) =>
        let outA := da.outliers != 0
        match readOutliers c (if outA then da else db) s2 with
        | (none, s3) => (.inr none, s3)
        | (some cols, s3) =>
          let g := min da.groupSize db.groupSize
          let rs := Rescale.read (rdBytes s3 t.rescale 32)
          let bad3 := !scaleOk da ka t.k || !scaleOk db kb t.k || (da.outliers != 0 && db.outliers != 0) || !outliersOk cols t.k
            || (t.accOut == 0 && (!rs.ok || (rs.groupOut && decide (rs.scalePitch < superBlocks nOut rs.group))))
            || (t.accIn == 1 && !t.floatPath
              && partialsDiffer c.job c.copyB (c.agp t.agpCin s3).binding (accUnit da.x db.x t.fmtA t.fmtB) s3)
          if bad3 then (.inr (some 3), s3)
          else if t.floatPath = false ∧ 2 ^ 24 - 1 < (t.k + g - 1) / g + cols.length then (.inr (some 2), s3)
          else (.inl ⟨da, db, cols, outA⟩, s3)

/-- The rescale descriptor's 32 bytes checked for their read (04 R93 item 6, R100). -/
def rescaleReadable (c : OpCtx) (o : OpRun) (s : State) : Bool × State :=
  if o.tod.accOut = 0 ∧ o.tod.rescaleEn = true then
    match opRead c o.tod.rescale 32 s with
    | (some _, s1) => (true, s1)
    | (none, s1) => (false, s1)
  else (true, s)

/-- The batch steps of an operation: indices of dimensions 2 to 5, outermost last dimension (05 R122). -/
def batchSteps (ags : List Agp) : List (List Nat) :=
  let cnt := fun i => ags.foldl (fun m a => max m (a.count i)) 1
  (List.range (cnt 2 * cnt 3 * cnt 4 * cnt 5)).map (fun n =>
    -- walked outermost in index order: dimension 2 changes slowest
    [n / (cnt 3 * cnt 4 * cnt 5) % cnt 2, n / (cnt 4 * cnt 5) % cnt 3, n / cnt 5 % cnt 4, n % cnt 5])

/-- A batch step's place among an AGP's own batch indices; a dimension of count 1 broadcasts. -/
def batchFlat (a : Agp) (b : List Nat) : Nat :=
  let go := (List.range 4).foldl (fun (acc : Nat × Nat) i =>
    let c := a.count (i + 2)
    let x := match b[i]? with | some v => v | none => 0
    (acc.1 + (if c = 1 then 0 else x) * acc.2, acc.2 * c)) (0, 1)
  go.1

/-- The pass blocks of an M × N walk in row-major order, each with its outputs and their Nib: blocks of 16r × 16c (05 R112, R113). -/
def passBlocks (m n arr : Nat) : List (List (Nat × Nat × Nat)) :=
  let d := arrDims arr
  let bm := 16 * d.1
  let bn := 16 * d.2
  (List.range ((m + bm - 1) / bm)).flatMap (fun i => (List.range ((n + bn - 1) / bn)).map (fun j =>
    (List.range (min bm (m - i * bm))).flatMap (fun x => (List.range (min bn (n - j * bn))).map (fun y =>
      (i * bm + x, j * bn + y, x / 16 * d.2 + y / 16)))))

/-- Remote operands needed by an operation, with outputs narrower than a byte, which their bytes' other elements need. -/
def opGather (c : OpCtx) (t : Tod) (s : State) : Option Nat × State :=
  c.gather (t.reads ++ (if fmtWidth t.fmtC % 8 = 0 then [] else [t.agpC])) s

/-- Fails an operation's job by a format fault, or by the error of a read since `s0`. -/
def headFail (c : OpCtx) (o : OpRun) (e : Option Nat) (s0 s : State) : State :=
  match e with
  | some cause => failWith c.job (evFormatInvalid c o cause) s
  | none => failSince c.job s0 s

/-- A residue check that fails in a group on a logical Nib: the Nib is marked failed and the job fails (05 R110, R135, R140). -/
def residueFail (c : OpCtx) (o : OpRun) (nib group : Nat) (inj : Bool) (s : State) : State :=
  let r := raiseSeq { c := 2, i := c.q, bit := 5, code := 0x3102, job := c.job, ctx := nib
                      payload := o.index % 2 ^ 32 + group % 65536 * 2 ^ 32 + injFlag inj } s
  markNib c.q nib false r.1 (stopJob c.job 4 r.1 r.2)

/-- The residue check that fails in a matrix operation, if any: Nib, group, injected. An armed injection fails group 0 of Nib 0; `bad` is a
mismatch of the hardware, which counts where the operation's outputs include one of that Nib (05 R110, R140). -/
def residueBad (c : OpCtx) (o : OpRun) (bad : Option (Nat × Nat)) (outs : List OutSpec) (groups : Nat) (s : State) : Option (Nat × Nat × Bool) :=
  if o.tod.floatPath then none
  else if armed 2 c.q 5 s then some (0, 0, true)
  else match bad with
    | some (n, g) => if g < groups ∧ outs.any (fun x => x.nib == n) = true then some (n, g, false) else none
    | none => none

/-- What a matrix operation asks of `runMatrix`: the row lengths that the two scale streams cover and the length of a grouped output
row, the rows of each operand's outlier value table, the outputs, the steps at which scale blocks are compared (those of one pass block
at one reduction index form a step), the elements taken, the offset of an input outside its extent, what is written before the passes,
and a residue mismatch of the hardware: Nib and group. -/
structure MatPlan where
  ka : Nat
  kb : Nat
  nOut : Nat
  rowsA : List Nat
  rowsB : List Nat
  outs : Scales → Scales → List Nat → Bool → (Nat → List Nat) → List OutSpec
  walk : ScaleDesc → ScaleDesc → List (List TagCheck)
  needA : List Nat
  needB : List Nat
  outside : Option Int
  prePass : MatHead → Scales → (Nat → Nat) → State → State
  bad : Option (Nat × Nat)

/-- The outlier values of a row. -/
def rowOutliers (ov : List (Nat × List Nat)) (row : Nat) : List Nat := match ov.find? (fun e => e.1 == row) with | some e => e.2 | none => []

/-- The passes of a matrix operation whose scales and outliers are in: operands, partial inputs, results (05 R107 to R113). -/
def runPasses (c : OpCtx) (o : OpRun) (p : MatPlan) (h : MatHead) (sa sb : Scales) (ov : List (Nat × List Nat)) (s : State) : State :=
  let t := o.tod
  match p.outside with
  | some off => failWith c.job (c.evBounds t.agpA off false) s
  | none =>
    let aA := { c.agp t.agpA s with fmt := t.fmtA }
    let aB := { c.agp t.agpB s with fmt := t.fmtB }
    let ra := readAt c t.agpA aA (c.bind aA.binding s) p.needA s
    if ra.1.1.status ≠ 0 then failSince c.job s ra.2
    else
      let rb := readAt c t.agpB aB (c.bind aB.binding ra.2) p.needB ra.2
      if rb.1.1.status ≠ 0 then failSince c.job ra.2 rb.2
      else
        let la := ra.1.2
        let lb := rb.1.2
        let outs := p.outs sa sb h.cols h.outA (rowOutliers ov)
        let g := min h.da.groupSize h.db.groupSize
        match residueBad c o p.bad outs ((t.k + g - 1) / g) rb.2 with
        | some (n, i, inj) => residueFail c o n i inj (if inj then disarm 2 c.q 5 rb.2 else rb.2)
        | none =>
        let s1 := p.prePass h sb (eltAt lb) rb.2
        let aI := c.agp t.agpCin s1
        let rc := if t.accIn = 0 then ((⟨0, 0⟩, []), s1)
          else readWords c t.agpCin aI (c.bind aI.binding s1) (if t.floatPath then 4 else 16) (outs.map (fun x => x.flatIn)).eraseDups s1
        if rc.1.1.status ≠ 0 then failSince c.job s1 rc.2
        else
          let lc := rc.1.2
          holdResults c o { outs := outs, fa := t.fmtA, fb := t.fmtB, xa := h.da.x, xb := h.db.x, g := g, K := t.k,
                            ea := eltAt la, eb := eltAt lb, cin := if t.accIn = 0 then none else some (eltAt lc) } rc.2

/-- A matrix operation run: head checks, remote operands, scale streams and their tags, outliers, then the passes (04 R88 to R93;
05 R107 to R113). -/
def runMatrix (c : OpCtx) (o : OpRun) (p : MatPlan) (s : State) : State :=
  let t := o.tod
  match matHead c o p.ka p.kb p.nOut s with
  | (.inr e, s1) => headFail c o e s s1
  | (.inl h, s1) =>
    match rescaleReadable c o s1 with
    | (false, s2) => failSince c.job s s2
    | (true, s2) =>
    match opGather c t s2 with
    | (none, s3) => s3
    | (some 0, s3) =>
      match readStreams c o h.da h.db (p.walk h.da h.db) s3 with
      | (none, s4) => s4
      | (some (sa, sb), s6) =>
      match readOutVals c (if h.outA then h.da else h.db) (if h.cols.isEmpty then [] else if h.outA then p.rowsA else p.rowsB) s6 with
      | (none, s7) => failSince c.job s6 s7
      | (some ov, s7) => runPasses c o p h sa sb ov s7
    | (some _, s3) => failSince c.job s2 s3

/-- A matrix product's passes (05 R107 to R113, R122). -/
def matmulRun (bad : Option (Nat × Nat)) (c : OpCtx) (o : OpRun) (s : State) : State :=
  let t := o.tod
  let a := c.agp t.agpA s
  let b := c.agp t.agpB s
  let cc := c.agp t.agpC s
  let ci := c.agp t.agpCin s
  let bs := batchSteps ([a, b, cc] ++ (if t.accIn = 1 then [ci] else []))
  let blocks := bs.flatMap (fun x => (passBlocks t.m t.n t.arr).map (fun l => l.map (fun w => (x, w))))
  let rowA := fun (x : List Nat) (m : Nat) => m + t.m * batchFlat a x
  let rowB := fun (x : List Nat) (n : Nat) => n + t.n * batchFlat b x
  let spec := fun (sa sb : Scales) (cols : List Nat) (outA : Bool) (ov : Nat → List Nat) =>
    blocks.flatten.map (fun e =>
      let x := e.1
      let m := e.2.1
      let n := e.2.2.1
      let ra := rowA x m
      let rb := rowB x n
      ({ flat := n + t.n * (m + t.m * batchFlat cc x), flatIn := n + t.n * (m + t.m * batchFlat ci x), chan := if t.chanN then n else m, row := m + t.m * batchFlat cc x, col := n, nib := e.2.2.2
         a := fun k => .elem (if t.transA then m + t.m * (k + t.k * batchFlat a x) else k + t.k * ra)
         b := fun k => .elem (if t.transB then n + t.n * (k + t.k * batchFlat b x) else k + t.k * rb)
         fa := sa.exp ra, fb := sb.exp rb, void := fun _ => false
         outl := cols.zip (ov (if outA then ra else rb)), outA := outA, macs := t.k } : OutSpec))
  runMatrix c o
    { ka := t.k, kb := t.k, nOut := t.n, rowsA := List.range (a.size / max t.k 1), rowsB := List.range (b.size / max t.k 1)
      outs := spec
      walk := fun _ _ => blocks.flatMap (fun l => (List.range ((t.k + 511) / 512)).map (fun i => l.map (fun e =>
        ((rowA e.1 e.2.1, 512 * i), (rowB e.1 e.2.2.1, 512 * i), e.2.2.2))))
      needA := List.range a.size, needB := List.range b.size, outside := none, prePass := fun _ _ _ s => s, bad := bad } s

/-- MATMUL: the passes of a matrix product run (05 R107 to R113, R122). -/
def execMatmul (x : PassRun) (s : State) : Out := .next (onOp x.quill 1 (matmulRun x.bad) s)

/-- The M and r of an output channel, and its bias (04 R100). -/
structure ChanPar where
  m : Int
  r : Nat
  bias : Int

/-- A channel's parameters read (04 R100). -/
def readChan (c : OpCtx) (d : Rescale) (ch : Nat) (s : State) : Option ChanPar × State :=
  match (if d.perChannel then opRead c (d.chanAddr + 8 * ch) 8 s else (some [], s)) with
  | (none, s1) => (none, s1)
  | (some l, s1) =>
    match (if d.bias then opRead c (d.biasAddr + 4 * ch) 4 s1 else (some [], s1)) with
    | (none, s2) => (none, s2)
    | (some lb, s2) =>
      (some { m := if d.perChannel then signed 32 (leField l 0 4) else d.m, r := if d.perChannel then byteAt l 4 % 128 else d.r
              bias := if d.bias then signed 32 (leNat lb) else 0 }, s2)

/-- P of R101. -/
def rescaleP (d : Rescale) (p : ChanPar) (v : Int) : Int := (v + (if d.bias then p.bias * 2 ^ d.biasShift else 0)) * p.m

/-- A poisoned element's output code (03 R69, R75; 04 R105). -/
def poisonOut (fmt : Nat) : Nat × Nat := convertTo fmt false .nan

/-- An element rescaled with group_out 0 (04 R101 to R103, R105). -/
def rescaleOne (d : Rescale) (p : ChanPar) (L : Int) (a : Acc) : Nat × Nat :=
  if a.poison then poisonOut d.fmt
  else
    let P := rescaleP d p a.value
    if fmtIsInt d.fmt then
      let w := fmtWidth d.fmt
      let q := rheScaleInt P (-(p.r : Int)) + d.zero
      let x := clampInt (-(2 ^ (w - 1) : Nat)) ((2 ^ (w - 1) : Nat) - 1) q
      (wrapNat w x, if x = q then 0 else nsOverSat)
    else convertTo d.fmt d.ieee (.fin (decide (P < 0)) P.natAbs (L - p.r))

/-- An element of a grouped output: its value, or poison; an infinity keeps its sign and takes no part in the scales (04 R104,
05 R494). -/
inductive GVal where
  | poison
  | inf (neg : Bool)
  /-- P and the exponent w. -/
  | fin (neg : Bool) (m : Nat) (w : Int)
  deriving DecidableEq, Repr

/-- The largest finite magnitude of a format as m × 2^k (04 R104). -/
def fmtMax (fmt : Nat) : Nat × Int :=
  match fpFmt fmt with
  | some F => match F.value F.maxBits with | .fin _ m k => (m, k) | _ => (0, 0)
  | none => (2 ^ (fmtWidth fmt - 1) - 1, 0)

/-- Whether m × 2^w ≤ M × 2^n. -/
def leMax (m : Nat) (w : Int) (M : Nat × Int) (n : Int) : Bool :=
  let e := w - (M.2 + n)
  if 0 ≤ e then decide (m * 2 ^ e.toNat ≤ M.1) else decide (m ≤ M.1 * 2 ^ (-e).toNat)

/-- The smallest n with a × 2^w ≤ M × 2^n (04 R104 step 1). -/
def groupN (m : Nat) (w : Int) (M : Nat × Int) : Int :=
  -- log2 places n within 2 of w + log2 m − k − log2 M
  let n0 : Int := w + Nat.log2 m - M.2 - Nat.log2 M.1 - 2
  match (List.range 5).find? (fun (i : Nat) => leMax m w M (n0 + (i : Int))) with
  | some i => n0 + (i : Int)
  | none => n0 + 5

/-- n_g of a group, none for −∞ (04 R104 step 1). -/
def groupNg (M : Nat × Int) (l : List GVal) : Option Int :=
  l.foldl (fun acc v =>
    match v with
    | .fin _ m w => if m = 0 then acc else
        let n := groupN m w M
        (match acc with | some k => some (if k < n then n else k) | none => some n)
    | _ => acc) none

/-- e of a super-block from its groups' n_g (04 R104 step 2). -/
def superE (x : Int) (ns : List (Option Int)) : Int :=
  match ns.filterMap id with
  | [] => -127
  | n :: t =>
    let m := t.foldl (fun a b => if a < b then b else a) n - 7
    let lo := if m < -127 then -127 else m
    if x < lo then x else lo

/-- s_g of a group (04 R104 step 3). -/
def groupS (e : Int) : Option Int → Int
  | none => -8
  | some n => clampInt (-8) 7 (n - e)

/-- An element of a grouped output in its format (04 R104 step 4, R105; 05 R494). -/
def groupElem (fmt : Nat) (ieee : Bool) (f : Int) : GVal → Nat × Nat
  | .poison => poisonOut fmt
  | .inf neg => convertTo fmt ieee (.inf neg)
  | .fin neg m w => convertTo fmt ieee (.fin neg m (w - f))

/-- A super-block of a grouped output: the element codes with their flags, and the scale block's bytes (04 R104, R87). -/
def superBlock (fmt : Nat) (ieee : Bool) (g : Nat) (x : Int) (tag : Nat) (l : List GVal) : List (Nat × Nat) × List Byte :=
  let M := fmtMax fmt
  let ng := (l.length + g - 1) / g
  let ns := (List.range ng).map (fun i => groupNg M ((l.drop (i * g)).take g))
  let e := superE x ns
  let ss := ns.map (groupS e)
  let sAt := fun i => match ss[i]? with | some v => v | none => 0
  let codes := (List.range l.length).map (fun i => match l[i]? with | some v => groupElem fmt ieee (e + sAt (i / g)) v | none => (0, 0))
  let sw := (List.range 16).foldl (fun n i => n + (if i < ng then wrapNat 4 (sAt i) else 0) * 2 ^ (4 * i)) 0
  (codes, leBytes 1 (wrapNat 8 e) ++ leBytes 1 tag ++ leBytes 8 sw ++ leBytes 6 0)

/-- The elements of one output row: columns rising. -/
structure GRow where
  row : Nat
  /-- Element offset and value. -/
  els : List (Int × GVal)

/-- Output codes written in order at element offsets; the first error ends it. -/
def writeCodes (c : OpCtx) (ai : Nat) (b : Binding) (fmt : Nat) (l : List (Int × Nat)) (s : State) : AccRes × State :=
  writeRuns c ai b (fmtWidth fmt) l.length l 0 s

/-- A write of the issuing device's memory by an operation. -/
def opWrite (c : OpCtx) (a : Nat) (l : List Byte) (s : State) : AccRes × State := access 2 c.q 0 c.who .write a l.length l s

/-- Grouped rows written: codes and scale blocks, super-block by super-block (04 R104, R88); the numeric flags. -/
def writeGrouped (c : OpCtx) (ai : Nat) (b : Binding) (fmt : Nat) (ieee : Bool) (d : Rescale) : List (GRow × Nat) → State → (AccRes × Nat) × State
  | [], s => ((⟨0, 0⟩, 0), s)
  | (r, sb) :: t, s =>
    let span := 16 * d.group
    let part := (r.els.drop (sb * span)).take span
    let off := r.row * d.scalePitch + sb
    let x := superBlock fmt ieee d.group d.xOut ((d.tagBase + off) % 16) (part.map (fun e => e.2))
    let fl := x.1.foldl (fun f e => f ||| e.2) 0
    let w := writeCodes c ai b fmt ((part.map (fun e => e.1)).zip (x.1.map (fun e => e.1))) s
    if w.1.status ≠ 0 then ((w.1, fl), w.2)
    else
      let w2 := opWrite c (d.scaleAddr + off * 16) x.2 w.2
      if w2.1.status ≠ 0 then ((w2.1, fl), w2.2)
      else
        let u := writeGrouped c ai b fmt ieee d t w2.2
        ((u.1.1, fl ||| u.1.2), u.2)

/-- The rows of a grouped output with each super-block of theirs. -/
def rowBlocks (rows : List GRow) (g : Nat) : List (GRow × Nat) :=
  rows.flatMap (fun r => (List.range ((r.els.length + 16 * g - 1) / (16 * g))).map (fun i => (r, i)))

/-- Elements gathered into rows, each row's columns rising. -/
def gatherRows (l : List (OutElem × GVal)) : List GRow :=
  (l.map (fun e => e.1.row)).eraseDups.map (fun r =>
    let els := l.filter (fun e => e.1.row == r)
    let cols := (els.map (fun e => e.1.col)).mergeSort (fun a b => decide (a ≤ b))
    { row := r, els := cols.filterMap (fun k => match els.find? (fun e => e.1.col == k) with | some e => some (e.1.off, e.2) | none => none) })

/-- Channel parameters of a list of channels. -/
def readChans (c : OpCtx) (d : Rescale) : List Nat → State → Option (List (Nat × ChanPar)) × State
  | [], s => (some [], s)
  | ch :: t, s =>
    match readChan c d ch s with
    | (none, s1) => (none, s1)
    | (some p, s1) =>
      match readChans c d t s1 with
      | (some l, s2) => (some ((ch, p) :: l), s2)
      | (none, s2) => (none, s2)

/-- A channel's parameters; the descriptor's own where it is not listed. -/
def chanPar (d : Rescale) (l : List (Nat × ChanPar)) (ch : Nat) : ChanPar :=
  match l.find? (fun e => e.1 == ch) with | some e => e.2 | none => ⟨d.m, d.r, 0⟩

/-- The accumulator an output holds. -/
def OutVal.accOf : OutVal → Acc
  | .acc a => a
  | _ => Acc.zero

/-- Partial words written, 16 bytes each, or FP32 values, 4 bytes each (03 R70, 05 R109; DEDUCED, log entry 23). -/
def writePartials (c : OpCtx) (ai : Nat) (b : Binding) (l : List OutElem) (s : State) : AccRes × State :=
  let w := if l.any (fun e => match e.v with | .acc _ => true | _ => false) then 128 else 32
  let code := fun (e : OutElem) => match e.v with | .acc a => a.word | .f32 x => x | .elem x => x
  writeRuns c ai b w l.length (l.map (fun e => (e.off, code e))) 0 s

/-- Float results converted to fmt_c (03 R74, R76; 05 R109). -/
def floatCodes (t : Tod) (l : List OutElem) : List (Int × Nat) × Nat :=
  let r := l.map (fun e => (e.off, convertTo t.fmtC t.ieee (match e.v with | .f32 x => f32Val x | _ => .nan)))
  (r.map (fun e => (e.1, e.2.1)), r.foldl (fun f e => f ||| e.2.2) 0)

/-- The outputs of a finished pass written: status, flags (04 R99 to R106; 05 R109). -/
def drainOuts (c : OpCtx) (o : OpRun) (s : State) : (AccRes × Nat) × State :=
  let t := o.tod
  let a := c.agp t.agpC s
  let b := c.bind a.binding s
  match t.accOut with
  | 1 => let r := writePartials c t.agpC b o.outs s; ((r.1, 0), r.2)
  | 2 => let x := floatCodes t o.outs; let r := writeCodes c t.agpC b t.fmtC x.1 s; ((r.1, x.2), r.2)
  | _ =>
    let d := Rescale.read (rdBytes s t.rescale 32)
    match readChans c d (o.outs.map (fun e => e.chan)).eraseDups s with
    | (none, s1) => ((⟨4, 0⟩, 0), s1)
    | (some ps, s1) =>
      if d.groupOut then
        let vals := o.outs.map (fun e =>
          let acc := e.v.accOf
          let p := chanPar d ps e.chan
          let P := rescaleP d p acc.value
          (e, if acc.poison then GVal.poison else .fin (decide (P < 0)) P.natAbs (o.unit - p.r)))
        writeGrouped c t.agpC b d.fmt d.ieee d (rowBlocks (gatherRows vals) d.group) s1
      else
        let codes := o.outs.map (fun e => (e.off, rescaleOne d (chanPar d ps e.chan) o.unit e.v.accOf))
        let r := writeCodes c t.agpC b d.fmt (codes.map (fun e => (e.1, e.2.1))) s1
        ((r.1, codes.foldl (fun f e => f ||| e.2.2) 0), r.2)

/-- GROUP_OUT_OF_WINDOW (03 R79). -/
def evWindow (c : OpCtx) (o : OpRun) : Ev :=
  { c := 2, i := c.q, bit := 3, code := 0x3100, job := c.job, ctx := o.satNib
    payload := o.index % 2 ^ 32 + min o.sat 0xFFFFFFFF * 2 ^ 32 + o.satGroup % 65536 * 2 ^ 64 + b2n o.satNeg * 2 ^ 80 + injFlag o.satInj }

/-- NONFINITE_INPUT (03 R79). -/
def evNonfinite (c : OpCtx) (o : OpRun) : Ev :=
  { c := 2, i := c.q, bit := 0, code := 0x0100, job := c.job, ctx := o.nfNib
    payload := o.index % 2 ^ 32 + min o.nf 0xFFFFFFFF * 2 ^ 32 + injFlag o.nfInj }

/-- The records of an operation written at its end (03 R79). -/
def endEvents (c : OpCtx) (o : OpRun) (s : State) : State :=
  let s1 := if o.sat = 0 then s else raise (evWindow c o) s
  if o.nf = 0 then s1 else raise (evNonfinite c o) s1

/-- TENSOR_OP_DRAIN: the oldest finished pass of a Quill drains, after the Quill's earlier writes of its output (05 R109, R123). An operation
whose drain is refused writes none of the records of R79 (DESIGN CHOICE, log entry 52). -/
def execTensorOpDrain (q : Nat) (s : State) : Out :=
  .next (
    match (quill q s).ops, findJob (quill q s).job s with
    | o :: _, some j =>
      if o.ran = false ∨ o.drained = true ∨ quillWorks q s = false then s
      else match opCtx j q o.loops o.scs (.op q o.issue) s with
        | none => s
        | some c =>
          if writePending c (c.bindsOf o.tod.writes s) o.issue s then s
          else
            let r := drainOuts c o s
            if r.1.1.status ≠ 0 then failSince c.job s r.2
            else
              let s0 := if o.tod.accOut = 1 ∧ o.tod.floatPath = false ∧ (o.tod.kind = 1 ∨ o.tod.kind = 2) then
                notePartials c.job c.copyB (c.agp o.tod.agpC r.2).binding o.unit r.2 else r.2
              let s1 := endEvents c o (orNumeric c.job r.1.2 s0)
              let s2 := if o.tod.accOut = 1 then s1 else addCtr 1 (q / 4) 0x48 o.outs.length s1
              opDone q o.issue s2
    | _, _ => s)

end Sys2Proof.Machine
end

