-- ==== Sys2Proof/Machine/Cache.lean ====
section
/-! DEFINITION. The context cache manager: contexts, Folios, slots, the cache commands, epochs, tickets and reclaim (07 R160 to
R176, R187, R190, R192). -/

namespace Sys2Proof.Machine

/-- An address that two registers of the queue engine page hold. -/
def ccAddr (lo : Nat) (s : State) : Nat := (rdReg 6 0 lo s).toNat + 2 ^ 32 * (rdField 6 0 (lo + 4) 15 0 s)

/-- CC_CMD_QUEUE.enable (07). -/
def ccOn (s : State) : Bool := natBit (rdReg 6 0 0x400 s).toNat 31

/-- The command queue (07). -/
def ccQueue (s : State) : Nat := rdField 6 0 0x400 19 0 s

/-- The null index of Folios and slots (07 R160). -/
def nullIdx : Nat := 0xFFFFFF

/-- A context descriptor (07 R162). -/
structure CtxDesc where
  state : Nat := 0
  kFmt : Nat := 0
  vFmt : Nat := 0
  heads : Nat := 0
  dim32 : Nat := 0
  layers : Nat := 0
  kvX : Nat := 0
  len : Nat := 0
  reserved : Nat := 0
  pt : Nat := 0
  ptStride : Nat := 0
  stamp : Nat := 0
  gen : Nat := 0
  deriving DecidableEq, Repr

/-- A context descriptor read from its 64 bytes. -/
def CtxDesc.read (b : List Byte) : CtxDesc :=
  { state := byteAt b 0 % 4, kFmt := byteAt b 1 % 16, vFmt := byteAt b 1 / 16, heads := byteAt b 2, dim32 := byteAt b 3 % 16
    layers := leField b 4 2, kvX := byteAt b 6, len := leField b 8 4, reserved := leField b 12 4, pt := leField b 16 6
    ptStride := leField b 24 4, stamp := leField b 28 4, gen := leField b 32 4 }

/-- The 64 bytes of a context descriptor. -/
def CtxDesc.bytes (d : CtxDesc) : List Byte :=
  leBytes 1 d.state ++ leBytes 1 (d.kFmt + 16 * d.vFmt) ++ leBytes 1 d.heads ++ leBytes 1 d.dim32 ++ leBytes 2 d.layers ++ leBytes 1 d.kvX
    ++ leBytes 1 0 ++ leBytes 4 d.len ++ leBytes 4 d.reserved ++ leBytes 6 d.pt ++ leBytes 2 0 ++ leBytes 4 d.ptStride ++ leBytes 4 d.stamp
    ++ leBytes 4 d.gen ++ leBytes 28 0

/-- A Folio descriptor (07 R163). -/
structure FolioDesc where
  slot : Nat := 0
  /-- 0 FREE, 1 LIVE, 2 LIMBO, 3 REINK. -/
  state : Nat := 0
  kFmt : Nat := 0
  vFmt : Nat := 0
  gen : Nat := 0
  refs : Nat := 0
  stamp : Nat := 0
  next : Nat := 0
  deriving DecidableEq, Repr

/-- A Folio descriptor read from its 16 bytes. -/
def FolioDesc.read (b : List Byte) : FolioDesc :=
  { slot := leField b 0 3, state := byteAt b 3 % 4, kFmt := byteAt b 4 % 16, vFmt := byteAt b 4 / 16, gen := byteAt b 5, refs := leField b 6 2
    stamp := leField b 8 4, next := leField b 12 3 }

/-- The 16 bytes of a Folio descriptor. -/
def FolioDesc.bytes (d : FolioDesc) : List Byte :=
  leBytes 3 d.slot ++ leBytes 1 d.state ++ leBytes 1 (d.kFmt + 16 * d.vFmt) ++ leBytes 1 d.gen ++ leBytes 2 d.refs ++ leBytes 4 d.stamp
    ++ leBytes 3 d.next ++ leBytes 1 0

/-- A context. -/
def ctxDesc (i : Nat) (s : State) : CtxDesc := CtxDesc.read (rdBytes s (ccAddr 0x404 s + 64 * i) 64)

/-- A context's descriptor written, its generation incremented (07 R162). -/
def putCtx (i : Nat) (d : CtxDesc) (s : State) : State := wrBytes (ccAddr 0x404 s + 64 * i) { d with gen := (d.gen + 1) % 2 ^ 32 }.bytes s

/-- A Folio. -/
def folio (i : Nat) (s : State) : FolioDesc := FolioDesc.read (rdBytes s (ccAddr 0x40C s + 16 * i) 16)

/-- A Folio's descriptor written, its generation incremented (07 R163). -/
def putFolio (i : Nat) (d : FolioDesc) (s : State) : State := wrBytes (ccAddr 0x40C s + 16 * i) { d with gen := (d.gen + 1) % 256 }.bytes s

/-- Bytes of a slot (07 CC_SLOT_SIZE). -/
def slotBytes (s : State) : Nat := 1024 * rdField 6 0 0x41C 10 0 s

/-- The first byte of a slot. -/
def slotAddr (i : Nat) (s : State) : Nat := ccAddr 0x414 s + slotBytes s * i

/-- The address of a page-table entry (07 R161). -/
def ptAddr (d : CtxDesc) (layer block : Nat) : Nat := d.pt + (layer * d.ptStride + block) * 4

/-- The Folio that a page-table entry names. -/
def ptEntry (d : CtxDesc) (layer block : Nat) (s : State) : Nat := rdLe s (ptAddr d layer block) 3

/-- A page-table entry written. -/
def putPt (d : CtxDesc) (layer block f : Nat) (s : State) : State := wrBytes (ptAddr d layer block) (leBytes 4 f) s

/-- A Folio's format may be BF16, FP16, E4M3, E5M2 or E2M1 (07 R164). -/
def kvFmtOk (f : Nat) : Bool := f == 1 || f == 2 || f == 3 || f == 4 || f == 7

/-- A narrow Folio format carries scale blocks. -/
def kvNarrow (f : Nat) : Bool := f != 1 && f != 2

/-- A slot's regions: offsets of K data, V data, K scales, V scales, and the slot's length (07 R164). -/
structure SlotLayout where
  v : Nat
  ks : Nat
  vs : Nat
  total : Nat
  deriving DecidableEq, Repr

/-- The regions of a slot, each on a 64-byte boundary. -/
def slotLayout (kf vf H D : Nat) : SlotLayout :=
  let up := fun n => (n + 63) / 64 * 64
  let v := up (H * 16 * D * fmtWidth kf / 8)
  let ks := up (v + H * 16 * D * fmtWidth vf / 8)
  let vs := up (ks + (if kvNarrow kf then H * 16 * 16 else 0))
  { v := v, ks := ks, vs := vs, total := vs + (if kvNarrow vf then H * 16 * 16 else 0) }

/-- Epochs compare as serial numbers: a at least b (07 R174). -/
def epochGe (a b : Nat) : Bool := decide ((a + 2 ^ 32 - b) % 2 ^ 32 < 2 ^ 31)

/-- CC_HORIZON: the oldest occupied ticket, or the epoch (07). -/
def horizon (s : State) : Nat :=
  match s.cc.tickets with
  | [] => s.cc.epoch
  | t :: l => l.foldl (fun m x => if epochGe x.epoch m then m else x.epoch) t.epoch

/-- Whether every occupied ticket has reached a stamp (07 R174). -/
def stampReached (stamp : Nat) (s : State) : Bool := s.cc.tickets.all (fun t => epochGe t.epoch stamp)

/-- The stamp of an item that enters LIMBO (07 R173). -/
def newStamp (s : State) : Nat := (s.cc.epoch + 1) % 2 ^ 32

/-- The advance flag set (07 R173). -/
def wantAdvance (s : State) : State := { s with cc := { s.cc with advance := true } }

/-- The last entry of a list links to the entry put behind it (07 R163). -/
def linkTail (l : List Nat) (f : Nat) (s : State) : State :=
  match l.getLast? with
  | some t => putFolio t { folio t s with next := f } s
  | none => s

/-- A slot sent to limbo (07 R170). -/
def slotLimbo (slot : Nat) (s : State) : State :=
  wantAdvance { s with cc := { s.cc with limboSlots := s.cc.limboSlots ++ [(slot, newStamp s)] } }

/-- A Folio, and its slot, sent to limbo (07 R170, R173). -/
def folioLimbo (f : Nat) (s : State) : State :=
  let d := folio f s
  let s1 := putFolio f { d with state := 2, refs := 0, stamp := newStamp s, next := nullIdx } s
  let s2 := linkTail (s1.cc.limboFolios.map (fun e => e.1)) f s1
  slotLimbo d.slot { s2 with cc := { s2.cc with limboFolios := s2.cc.limboFolios ++ [(f, newStamp s)] } }

/-- A page-table entry released (07 R170). -/
def releaseEntry (d : CtxDesc) (layer block : Nat) (s : State) : State :=
  let f := ptEntry d layer block s
  if f = nullIdx then s
  else
    let x := folio f s
    let s1 := if x.refs ≤ 1 then folioLimbo f s else putFolio f { x with refs := x.refs - 1 } s
    putPt d layer block nullIdx s1

/-- The entries of a context's blocks from `lo` to below `hi` released, layer by layer. -/
def releaseBlocks (d : CtxDesc) (lo hi : Nat) (s : State) : State :=
  (List.range d.layers).foldl (fun acc l => (List.range (hi - lo)).foldl (fun a i => releaseEntry d l (lo + i) a) acc) s

/-- Blocks that hold a number of positions. -/
def blocksFor (n : Nat) : Nat := (n + 15) / 16

/-- A Folio and a slot taken from the free lists (07 R169). -/
def allocFolio (kf vf refs : Nat) (s : State) : Option (Nat × State) :=
  match s.cc.freeFolios, s.cc.freeSlots with
  | f :: fs, sl :: ss =>
    let d := folio f s
    some (f, putFolio f { d with slot := sl, state := 1, kFmt := kf, vFmt := vf, refs := refs, stamp := 0, next := nullIdx }
      { s with cc := { s.cc with freeFolios := fs, freeSlots := ss } })
  | _, _ => none

/-- POOL_LOW when the free slots fall below the threshold (07 R192). -/
def poolLow (before : Nat) (s : State) : State :=
  let w := rdField 6 0 0x454 23 0 s
  if w ≤ before ∧ s.cc.freeSlots.length < w then
    raise { c := 6, i := 0, bit := 25, code := 0x0201, payload := s.cc.freeSlots.length + s.cc.freeFolios.length * 2 ^ 24 } s
  else s

/-- An event of the manager that names a context (07 R192). -/
def ccEvent (bit code ctx job payload : Nat) : Ev :=
  { c := 6, i := 0, bit := bit, code := code, job := job, ctx := ctx % 2 ^ 16, payload := payload % 2 ^ 93 + ctx / 2 ^ 16 % 4 * 2 ^ 93 }

/-- A cache command record (07 R166). -/
structure CcCmd where
  op : Nat
  ctx : Nat
  arg0 : Nat
  arg1 : Nat
  complQ : Nat
  cookie : Nat
  b : List Byte
  /-- Whether it has 64 bytes and its reserved fields are 0. -/
  ok : Bool
  job : Nat
  deriving DecidableEq, Repr

/-- A cache command read from its record. -/
def CcCmd.read (b : List Byte) (job : Nat) : CcCmd :=
  { op := byteAt b 0, ctx := leField b 4 4 % 2 ^ 18, arg0 := leField b 8 4, arg1 := leField b 12 4, complQ := leField b 16 3 % 2 ^ 20
    cookie := leField b 20 4, b := b, job := job
    ok := decide (b.length = 64 ∧ leField b 1 3 = 0 ∧ leField b 4 4 < 2 ^ 18 ∧ leField b 16 4 < 2 ^ 20) }

/-- Whether the operand bytes outside some runs are 0 (07 R166). -/
def CcCmd.unused (c : CcCmd) (runs : List (Nat × Nat)) : Bool :=
  (List.range 40).all (fun i => byteAt c.b (24 + i) == 0 || runs.any (fun r => decide (r.1 ≤ 24 + i ∧ 24 + i < r.2)))

/-- The command at the head of the command queue, if the manager takes it: it takes none while the staging buffer is full, and none that memory
cannot give (07 R165; 10 R240; 11 R252, R262). -/
def ccHead (s : State) : Option CcCmd :=
  if ccOn s = false ∨ blockEnabled 6 0 s = false ∨ s.qe.stFull = true ∨ (qDesc (ccQueue s) s).consumer ≠ 4 then none
  else match qHead (ccQueue s) s with
    | none => none
    | some (ptr, len) =>
      if headBad (ccQueue s) s then none else some (CcCmd.read (recBytes (qDesc (ccQueue s) s) ptr len s) (qSource (ccQueue s) s).1)

/-- A command's answer: status, the value field, the Folios and slots that a full pool lacked, and whether an injection emptied it. -/
structure CcAns where
  status : Nat
  value : Nat
  folios : Nat
  slots : Nat
  inj : Bool

/-- A command done with no value. -/
def ccOk : CcAns := ⟨0, 0, 0, 0, false⟩

/-- A command refused. -/
def ccBad (st : Nat) : CcAns := ⟨st, 0, 0, 0, false⟩

/-- A command that found the pool without the Folios and slots it needs. -/
def ccPool (folios slots : Nat) (inj : Bool) : CcAns := ⟨3, 0, folios, slots, inj⟩

/-- POOL_EXHAUSTED (07 R192). -/
def evPoolExhausted (ctx : Nat) (a : CcAns) : Ev :=
  let e := ccEvent 30 0x7201 ctx 0xFFFF (a.folios % 2 ^ 24 + a.slots % 2 ^ 24 * 2 ^ 24)
  { e with payload := e.payload + injFlag a.inj }

/-- A command of the manager's queue ended with an answer: taken from its queue, counted, reported where it failed, its record pushed (07 R168). `s0` is
the state before it. -/
def ccEnd (c : CcCmd) (a : CcAns) (s0 s1 : State) : State :=
  let d := qDesc (ccQueue s1) s1
  let s3 := match qHead (ccQueue s1) s1 with
    | some h => advanceRd (ccQueue s1) ((h.1 + stride h.2) % (2 * d.size)) s1
    | none => s1
  let s4 := addCtr 6 0 0x444 1 s3
  let s5 := if a.status = 1 ∨ a.status = 5 then raise (ccEvent 29 0x7200 c.ctx 0xFFFF (c.op + a.status * 2 ^ 8 + c.cookie * 2 ^ 16)) s4
    else if a.status = 3 then raise (evPoolExhausted c.ctx a) s4 else s4
  let s6 := poolLow s0.cc.freeSlots.length s5
  pushEngine c.complQ 4 0xFFFF false false
    (leBytes 1 c.op ++ leBytes 1 a.status ++ leBytes 2 0 ++ leBytes 4 c.cookie ++ leBytes 4 (ctxDesc c.ctx s6).len ++ leBytes 4 a.value) s6

/-- A command run: the record leaves the queue, its effect happens unless refused, the events and the completion record follow
(07 R165, R167, R192). `f` answers nothing where the command waits. -/
def runCmd (op : Nat) (f : CcCmd → State → Option (CcAns × State)) (s : State) : State :=
  match ccHead s with
  | none => if headBad (ccQueue s) s then headRead (ccQueue s) s else s
  | some c =>
    let valid := c.ok && decide (1 ≤ c.op ∧ c.op ≤ 9)
    if c.op ≠ op ∧ (valid = true ∨ op ≠ 1) then s
    else
      match (if valid then f c s else some (ccBad 1, s)) with
      | none => s
      | some (a, s1) =>
        ccEnd c a s s1

/-- CTX_OPEN's fields hold no bad value, and a Folio of the shape fits a slot (07 R162, R164, R168). -/
def ctxFieldsOk (d : CtxDesc) (s : State) : Bool :=
  kvFmtOk d.kFmt && kvFmtOk d.vFmt && decide (1 ≤ d.heads ∧ d.heads ≤ 32 ∧ 1 ≤ d.dim32 ∧ d.dim32 ≤ 8 ∧ 1 ≤ d.layers ∧ d.layers ≤ 256 ∧ d.kvX ≠ 0x80
    ∧ d.pt % 4 = 0 ∧ 1 ≤ d.ptStride ∧ d.ptStride ≤ 65536) && decide ((slotLayout d.kFmt d.vFmt d.heads (32 * d.dim32)).total ≤ slotBytes s)

/-- CTX_OPEN's checks and effect (07 R168). -/
def ctxOpenRun (c : CcCmd) (s : State) : Option (CcAns × State) :=
  let old := ctxDesc c.ctx s
  let d : CtxDesc := { state := 1, kFmt := byteAt c.b 24 % 16, vFmt := byteAt c.b 24 / 16, heads := byteAt c.b 25, dim32 := byteAt c.b 26, kvX := byteAt c.b 27
                       layers := leField c.b 28 2, pt := leField c.b 32 6, ptStride := leField c.b 40 4, gen := old.gen }
  if old.state ≠ 0 then some (ccBad 2, s)
  else if (c.unused [(24, 30), (32, 38), (40, 44)] && ctxFieldsOk d s) = false then some (ccBad 1, s)
  else some (ccOk, putCtx c.ctx d s)

/-- CTX_OPEN (07 R168). A record with no valid opcode is refused by it (DEDUCED, log entry 25). -/
def execCtxOpen (s : State) : Out :=
  .next (runCmd 1 ctxOpenRun s)

/-- CTX_CLOSE's checks and effect (07 R168, R170, R176). -/
def ctxCloseRun (c : CcCmd) (s : State) : Option (CcAns × State) :=
  let d := ctxDesc c.ctx s
  if d.state ≠ 1 then some (ccBad 2, s)
  else if c.unused [] = false then some (ccBad 1, s)
  else
    let s1 := releaseBlocks d 0 (blocksFor d.reserved) s
    let s2 := putCtx c.ctx { d with state := 2, stamp := newStamp s1 } s1
    some (ccOk, wantAdvance { s2 with cc := { s2.cc with limboCtxs := s2.cc.limboCtxs ++ [(c.ctx, newStamp s1)] } })

/-- CTX_CLOSE (07 R168, R170, R176). -/
def execCtxClose (s : State) : Out :=
  .next (runCmd 2 ctxCloseRun s)

/-- The Folios of a context's entries below a block, all layers. -/
def ctxFolios (d : CtxDesc) (blocks : Nat) (s : State) : List ((Nat × Nat) × Nat) :=
  (List.range d.layers).flatMap (fun l => (List.range blocks).map (fun b => ((l, b), ptEntry d l b s)))

/-- CTX_FORK's checks and effect (07 R168). -/
def ctxForkRun (c : CcCmd) (s : State) : Option (CcAns × State) :=
  let src := ctxDesc c.arg0 s
  let dst := ctxDesc c.ctx s
  let n := c.arg1
  let d := { src with state := 1, len := n, reserved := n, pt := leField c.b 32 6, ptStride := leField c.b 40 4, stamp := 0, gen := dst.gen }
  if 2 ^ 18 ≤ c.arg0 then some (ccBad 1, s)
  else if src.state ≠ 1 ∨ src.reserved ≠ src.len ∨ dst.state ≠ 0 then some (ccBad 2, s)
  else if src.len < n then some (ccBad 5, s)
  else if (c.unused [(32, 38), (40, 44)] && decide (d.pt % 4 = 0 ∧ 1 ≤ d.ptStride ∧ d.ptStride ≤ 65536 ∧ n ≤ d.ptStride * 16)) = false then some (ccBad 1, s)
  else
    let fs := ctxFolios src (blocksFor n) s
    let times := fun f => (fs.filter (fun e => e.2 == f)).length
    if fs.any (fun e => e.2 != nullIdx && decide (65535 < (folio e.2 s).refs + times e.2)) then some (ccBad 4, s)
    else
      let s1 := fs.foldl (fun acc e =>
        let a := putPt d e.1.1 e.1.2 e.2 acc
        if e.2 = nullIdx then a else let x := folio e.2 a; putFolio e.2 { x with refs := x.refs + 1 } a) s
      some (ccOk, putCtx c.ctx d s1)

/-- CTX_FORK (07 R168). -/
def execCtxFork (s : State) : Out :=
  .next (runCmd 3 ctxForkRun s)

/-- The snapshots that name a page-table entry follow its copy, so that a launch reads the same bits before and after it (07 R175). -/
def snapsFollow (addr g : Nat) (s : State) : State :=
  let one := fun (x : CtxSnap) => { x with entries := x.entries.map (fun e => if e.1 = addr then (addr, g, true) else e) }
  { s with cc := { s.cc with tickets := s.cc.tickets.map (fun t => { t with snaps := t.snaps.map one }) } }

/-- A Folio that a context's entry shares copied for it (07 R169). -/
def cow (d : CtxDesc) (layer block : Nat) (s : State) : Option State :=
  let f := ptEntry d layer block s
  let x := folio f s
  if f = nullIdx ∨ x.refs ≤ 1 then some s
  else match allocFolio x.kFmt x.vFmt 1 s with
    | none => none
    | some (g, s1) =>
      let n := slotBytes s1
      let s2 := wrBytes (slotAddr (folio g s1).slot s1) (rdBytes s1 (slotAddr x.slot s1) n) s1
      let s3 := putPt d layer block g s2
      some (addCtr 6 0 0x44C 1 (putFolio f { folio f s3 with refs := x.refs - 1 } (snapsFollow (ptAddr d layer block) g s3)))

/-- One block of one layer made ready for new positions: a fresh Folio, or a copy of a shared one (07 R168). -/
def appendBlock (d : CtxDesc) (layer block : Nat) (s : State) : Option State :=
  if 16 * block < d.reserved ∧ ptEntry d layer block s ≠ nullIdx then cow d layer block s
  else match allocFolio d.kFmt d.vFmt 1 s with
    | none => none
    | some (g, s1) => some (putPt d layer block g s1)

/-- A step over a list that may fail for want of a Folio. -/
def foldSome {α : Type} (f : α → State → Option State) : List α → State → Option State
  | [], s => some s
  | x :: t, s => match f x s with | some s1 => foldSome f t s1 | none => none

/-- APPEND's checks and effect (07 R168, R169). -/
def appendRun (c : CcCmd) (s : State) : Option (CcAns × State) :=
  let d := ctxDesc c.ctx s
  let n := c.arg0
  if d.state ≠ 1 ∨ n = 0 ∨ 4096 < n ∨ c.unused [] = false then some (ccBad 1, s)
  else if d.ptStride * 16 < d.reserved + n then some (ccBad 5, s)
  else
    let lo := d.reserved / 16
    let hi := blocksFor (d.reserved + n)
    let need := d.layers * (hi - lo)
    let inj := armed 6 0 30 s
    let cells := (List.range d.layers).flatMap (fun l => (List.range (hi - lo)).map (fun b => (l, lo + b)))
    if inj = true ∨ s.cc.freeFolios.length < need ∨ s.cc.freeSlots.length < need then some (ccPool need need inj, disarm 6 0 30 s)
    else match foldSome (fun e a => appendBlock d e.1 e.2 a) cells s with
      | none => some (ccPool need need false, s)
      | some s1 => some (ccOk, putCtx c.ctx { d with reserved := d.reserved + n } s1)

/-- APPEND (07 R168, R169). -/
def execAppend (s : State) : Out :=
  .next (runCmd 4 appendRun s)

/-- The bytes of a token in a slot for every head: offset and length of its pieces (07 R164). -/
def tokenParts (kf vf H D t : Nat) : List (Nat × Nat) :=
  let L := slotLayout kf vf H D
  (List.range H).flatMap (fun h =>
    let i := h * 16 + t
    let kb := D * fmtWidth kf / 8
    let vb := D * fmtWidth vf / 8
    [(i * kb, kb), (L.v + i * vb, vb)] ++ (if kvNarrow kf then [(L.ks + i * 16, 16)] else []) ++ (if kvNarrow vf then [(L.vs + i * 16, 16)] else []))

/-- The tag of a scale block that moves to another token of its Folio (07 R164, R88). -/
def retag (part : Nat × Nat) (L : SlotLayout) (t : Nat) (b : List Byte) : List Byte :=
  if L.ks ≤ part.1 ∧ part.2 = 16 then (b.take 1) ++ leBytes 1 (byteAt b 1 / 16 * 16 + t) ++ b.drop 2 else b

/-- A token moved between positions of a context in one layer (07 R187); between Folios of different formats the bytes written are
free values (DESIGN CHOICE, log entries 3, 26). -/
def moveToken (d : CtxDesc) (layer src dst : Nat) (s : State) : State :=
  let x := folio (ptEntry d layer (src / 16) s) s
  let y := folio (ptEntry d layer (dst / 16) s) s
  let H := d.heads
  let D := 32 * d.dim32
  let L := slotLayout y.kFmt y.vFmt H D
  let parts := tokenParts y.kFmt y.vFmt H D (dst % 16)
  if x.kFmt = y.kFmt ∧ x.vFmt = y.vFmt then
    (parts.zip (tokenParts x.kFmt x.vFmt H D (src % 16))).foldl (fun acc p =>
      wrBytes (slotAddr y.slot acc + p.1.1) (retag p.1 L (dst % 16) (rdBytes s (slotAddr x.slot s + p.2.1) p.2.2)) acc) s
  else
    parts.foldl (fun acc p =>
      let n := acc.freeCtr
      wrBytes (slotAddr y.slot acc + p.1) ((List.range p.2).map (fun i => BitVec.ofNat 8 (Config.freeValue (n + i)))) { acc with freeCtr := n + p.2 }) s

/-- COMMIT's checks and effect; that the path ascends is software's to see to (07 R168, R187). -/
def commitRun (c : CcCmd) (s : State) : Option (CcAns × State) :=
  let d := ctxDesc c.ctx s
  let k := c.arg0
  let path := (List.range k).map (fun j => byteAt c.b (24 + j))
  if d.state ≠ 1 ∨ 32 < k ∨ c.unused [(24, 24 + k)] = false then some (ccBad 1, s)
  else if path.any (fun p => decide (d.reserved ≤ d.len + p)) then some (ccBad 5, s)
  else
    let moves := (List.range k).zip path |>.filter (fun m => m.1 != m.2)
    let cells := (List.range d.layers).flatMap (fun l => ((moves.map (fun m => (d.len + m.1) / 16)).eraseDups).map (fun b => (l, b)))
    match foldSome (fun e a => cow d e.1 e.2 a) cells s with
    | none => some (ccPool cells.length cells.length false, s)
    | some s1 =>
      let s2 := moves.foldl (fun acc m => (List.range d.layers).foldl (fun a l => moveToken d l (d.len + m.2) (d.len + m.1) a) acc) s1
      let n := d.len + k
      let s3 := releaseBlocks d (blocksFor n) (blocksFor d.reserved) s2
      some (ccOk, putCtx c.ctx { d with len := n, reserved := n } s3)

/-- COMMIT (07 R168, R187). -/
def execCommit (s : State) : Out :=
  .next (runCmd 5 commitRun s)

/-- TRUNCATE's checks and effect (07 R168). -/
def truncateRun (c : CcCmd) (s : State) : Option (CcAns × State) :=
  let d := ctxDesc c.ctx s
  if d.state ≠ 1 ∨ c.unused [] = false then some (ccBad 1, s)
  else if d.len < c.arg0 then some (ccBad 5, s)
  else
    let s1 := releaseBlocks d (blocksFor c.arg0) (blocksFor d.reserved) s
    some (ccOk, putCtx c.ctx { d with len := c.arg0, reserved := c.arg0 } s1)

/-- TRUNCATE (07 R168). -/
def execTruncate (s : State) : Out :=
  .next (runCmd 6 truncateRun s)

/-- The epoch advanced if an advance is pending, unless that would put it more than 2^30 ahead of the oldest ticket (07 R173, R174). -/
def advanceEpoch (s : State) : State :=
  if s.cc.advance = false then s
  else
    let e := (s.cc.epoch + 1) % 2 ^ 32
    if 2 ^ 30 < (e + 2 ^ 32 - horizon s) % 2 ^ 32 then
      if s.cc.held then s
      else raise { c := 6, i := 0, bit := 24, code := 0x0200, payload := s.cc.epoch + horizon s * 2 ^ 32 } { s with cc := { s.cc with held := true } }
    else { s with cc := { s.cc with epoch := e, advance := false, held := false } }

/-- Most ticket slots occupied, kept in CC_TICKETS.peak (07). -/
def ticketPeak (s : State) : State :=
  if rdField 6 0 0x440 25 16 s < s.cc.tickets.length then wrField 6 0 0x440 25 16 s.cc.tickets.length s else s

/-- A ticket taken: the epoch advances first (07 R172, R173). -/
def takeTicket (u : TicketUse) (snaps : List CtxSnap) (s : State) : State :=
  let s1 := advanceEpoch s
  ticketPeak { s1 with cc := { s1.cc with tickets := s1.cc.tickets ++ [{ use := u, epoch := s1.cc.epoch, snaps := snaps }] } }

/-- A ticket returned (07 R172). -/
def dropTicket (p : TicketUse → Bool) (s : State) : State := { s with cc := { s.cc with tickets := s.cc.tickets.filter (fun t => !p t.use) } }

/-- The ticket of a Re-ink. -/
def isReink (f slot : Nat) : TicketUse → Bool
  | .reink a b _ => a == f && b == slot
  | _ => false

/-- REINK_BEGIN's checks and effect (07 R168, R172, R190). -/
def reinkBeginRun (c : CcCmd) (s : State) : Option (CcAns × State) :=
  let f := c.arg0
  let x := folio f s
  if rdField 6 0 0x420 23 0 s ≤ f ∨ c.unused [] = false then some (ccBad 1, s)
  else if x.state ≠ 1 then some (ccBad 2, s)
  else match s.cc.freeSlots with
    | [] => some (ccPool 0 1 false, s)
    | sl :: ss =>
      if 512 ≤ s.cc.tickets.length then none
      else
        let s1 := putFolio f { x with state := 3 } { s with cc := { s.cc with freeSlots := ss, reinks := s.cc.reinks ++ [(f, sl)] } }
        some ({ ccOk with value := sl + (folio f s1).gen * 2 ^ 24 }, takeTicket (.reink f sl c.job) [] s1)

/-- REINK_BEGIN (07 R168, R172, R190). With every ticket slot occupied the command waits (DEDUCED, log entry 27). -/
def execReinkBegin (s : State) : Out :=
  .next (runCmd 7 reinkBeginRun s)

/-- REINK_END's checks and effect (07 R168, R190). -/
def reinkEndRun (c : CcCmd) (s : State) : Option (CcAns × State) :=
  let f := c.arg0
  let sl := c.arg1
  let kf := byteAt c.b 24 % 16
  let vf := byteAt c.b 24 / 16
  let x := folio f s
  if s.cc.reinks.contains (f, sl) = false ∨ c.unused [(24, 26)] = false ∨ kvFmtOk kf = false ∨ kvFmtOk vf = false then some (ccBad 1, s)
  else
    let s1 := dropTicket (isReink f sl) { s with cc := { s.cc with reinks := s.cc.reinks.filter (fun e => e != (f, sl)) } }
    if x.state ≠ 3 ∨ x.gen ≠ byteAt c.b 25 then
      some (ccBad 6, { s1 with cc := { s1.cc with freeSlots := s1.cc.freeSlots ++ [sl] } })
    else some (ccOk, slotLimbo x.slot (putFolio f { x with slot := sl, kFmt := kf, vFmt := vf, state := 1 } s1))

/-- REINK_END (07 R168, R190). -/
def execReinkEnd (s : State) : Out :=
  .next (runCmd 8 reinkEndRun s)

/-- REINK_ABORT's checks and effect (07 R168, R190). -/
def reinkAbortRun (c : CcCmd) (s : State) : Option (CcAns × State) :=
  let f := c.arg0
  let sl := c.arg1
  let x := folio f s
  if s.cc.reinks.contains (f, sl) = false ∨ c.unused [] = false then some (ccBad 1, s)
  else
    let s1 := dropTicket (isReink f sl) { s with cc := { s.cc with reinks := s.cc.reinks.filter (fun e => e != (f, sl)) } }
    let s2 := if x.state = 3 then putFolio f { x with state := 1 } s1 else s1
    some (ccOk, slotLimbo sl s2)

/-- REINK_ABORT (07 R168, R190). -/
def execReinkAbort (s : State) : Out :=
  .next (runCmd 9 reinkAbortRun s)

/-- Whether a launch's ticket number is still named by an operation in flight. -/
def launchLive (n : Nat) (s : State) : Bool := s.quills.any (fun e => e.2.ops.any (fun o => o.ticket == some n && !o.drained))

/-- Whether a ticket's holder has ended: its launch has completed, failed or been abandoned, or its Re-ink's job has ended (07 R172). -/
def ticketOver (t : Ticket) (s : State) : Bool :=
  match t.use with
  | .launch n => !launchLive n s
  | .reink _ _ job => job != 0xFFFF && !(match findJob job s with | some j => j.live | none => false)

/-- TICKET_RETURN: the tickets of launches and Re-inks that have ended are returned (07 R172). -/
def execTicketReturn (s : State) : Out :=
  .next { s with cc := { s.cc with tickets := s.cc.tickets.filter (fun t => !ticketOver t s) } }

/-- LIMBO_RECLAIM: the oldest limbo item of each kind that every occupied ticket has reached is reused (07 R174). Kind 0 is a Folio,
1 a slot, 2 a context. -/
def execLimboReclaim (kind : Nat) (s : State) : Out :=
  .next (
    match kind with
    | 0 =>
      (match s.cc.limboFolios with
      | (f, st) :: t =>
        if stampReached st s then
          let s1 := linkTail s.cc.freeFolios f (putFolio f { folio f s with state := 0, next := nullIdx } s)
          { s1 with cc := { s1.cc with limboFolios := t, freeFolios := s1.cc.freeFolios ++ [f] } }
        else s
      | [] => s)
    | 1 =>
      (match s.cc.limboSlots with
      | (f, st) :: t => if stampReached st s then { s with cc := { s.cc with limboSlots := t, freeSlots := s.cc.freeSlots ++ [f] } } else s
      | [] => s)
    | _ =>
      (match s.cc.limboCtxs with
      | (c, st) :: t =>
        if stampReached st s then
          let s1 := wrBytes (ccAddr 0x404 s + 64 * c) { ctxDesc c s with state := 0 }.bytes s
          { s1 with cc := { s1.cc with limboCtxs := t } }
        else s
      | [] => s))

/-- The free lists built: every Folio and slot free, in rising order, each Folio linked to the next (07 CC_FOLIO_COUNT). -/
def buildLists (s : State) : State :=
  let n := rdField 6 0 0x420 23 0 s
  let m := rdField 6 0 0x424 23 0 s
  let s1 := (List.range n).foldl (fun acc i =>
    wrBytes (ccAddr 0x40C acc + 16 * i) ({ next := if i + 1 < n then i + 1 else nullIdx } : FolioDesc).bytes acc) s
  { s1 with cc := { s1.cc with freeFolios := List.range n, freeSlots := List.range m, limboFolios := [], limboSlots := [], reinks := [] } }

/-- CC_CMD_QUEUE written: setting enable builds the free lists (07 CC_CMD_QUEUE, CC_FOLIO_COUNT). -/
def wrCmdQueue (v : Word) (s : State) : State :=
  let was := ccOn s
  let s1 := wrReg 6 0 0x400 (v &&& 0x800FFFFF) s
  if natBit v.toNat 31 && !was then buildLists s1 else s1

end Sys2Proof.Machine
end

