-- ==== Sys2Proof/Machine/Transc.lean ====
section
/-! DEFINITION. The values that the transcendental functions of ELTWISE approximate, and the error that R131 allows them (05 R131). The
evaluation is in fixed point with 512 fraction bits; its own error lies far below the bound it serves (DEDUCED, log entry 51). -/

namespace Sys2Proof.Machine

/-- Fraction bits of the fixed-point evaluation. -/
def fxBits : Nat := 512

/-- One. -/
def fxOne : Nat := 2 ^ fxBits

/-- The product of two fixed-point numbers. -/
def fxMul (a b : Nat) : Nat := a * b / fxOne

/-- A magnitude m × 2^k in fixed point. -/
def fxOf (m : Nat) (k : Int) : Nat := if 0 ≤ k + fxBits then m * 2 ^ (k + fxBits).toNat else m / 2 ^ (-(k + fxBits)).toNat

/-- The exponential series of y: the terms from `t` = y^i / i! on, `n` of them. -/
def expTerms (y : Nat) : Nat → Nat → Nat → Nat
  | 0, _, _ => 0
  | n + 1, i, t => t + expTerms y n (i + 1) (fxMul t y / (i + 1))

/-- A number squared n times. -/
def fxSquares : Nat → Nat → Nat
  | 0, x => x
  | n + 1, x => fxSquares n (fxMul x x)

/-- e^x for 0 ≤ x ≤ 128: the series at x / 2^16, squared 16 times. -/
def fxExp (x : Nat) : Nat := fxSquares 16 (expTerms (x / 2 ^ 16) 48 0 fxOne)

/-- √(2/π), from 100 decimals of π. -/
def fxSqrt2Pi : Nat :=
  let pi := 31415926535897932384626433832795028841971693993751058209749445923078164062862089986280348253421170679
  let n := 2 * fxOne * fxOne * 10 ^ 100 / pi
  isqrtFrom n (Nat.log2 n / 2 + 1) 0

/-- The series x + x³/3 + x⁵/15 + … over odd double factorials: the terms from `t` on, `n` of them. -/
def erfTerms (x2 : Nat) : Nat → Nat → Nat → Nat
  | 0, _, _ => 0
  | n + 1, i, t => t + erfTerms x2 n (i + 1) (fxMul t x2 / (2 * i + 3))

/-- erf(x / √2) for 0 ≤ x ≤ 16. -/
def fxErf (x : Nat) : Nat :=
  let x2 := fxMul x x
  fxMul fxSqrt2Pi (erfTerms x2 700 0 x) * fxOne / fxExp (x2 / 2)

/-- A value so small that FP32 rounds it to a zero of its sign. -/
def tinyVal (neg : Bool) : Val := .fin neg 1 (-200)

/-- What a function 6 to 11 approximates at a finite nonzero value: gelu x Φ(x) (PRESUMED, log entry 51), silu x / (1 + e^−x), exp,
reciprocal, rsqrt, tanh (05 R131). -/
def eltExact (fn : Nat) (neg : Bool) (m : Nat) (k : Int) : Val :=
  let v := Val.fin neg m k
  let x := fxOf m k
  let one := Val.fin false 1 0
  match fn with
  | 6 =>
    if 16 * fxOne ≤ x then (if neg then tinyVal true else v)
    else .fin neg (m * (if neg then fxOne - fxErf x else fxOne + fxErf x)) (k - fxBits - 1)
  | 7 =>
    if 128 * fxOne ≤ x then (if neg then tinyVal true else v)
    else let e := fxExp x; .fin neg (m * (if neg then fxOne else e) * fxOne / (e + fxOne)) (k - fxBits)
  | 8 =>
    if 128 * fxOne ≤ x then (if neg then tinyVal false else .fin false 1 200)
    else let e := fxExp x; if neg then .fin false (fxOne * fxOne / e) (-fxBits) else .fin false e (-fxBits)
  | 9 => one.div v
  | 10 => one.div v.sqrt
  | _ =>
    if 64 * fxOne ≤ x then .fin neg (2 ^ 200 - 1) (-200)
    else let e := fxExp (2 * x); .fin neg ((e - fxOne) * fxOne / (e + fxOne)) (-fxBits)

/-- FP32 bits as a value for measuring an error: an infinity counts as 2^128. -/
def errVal (bits : Nat) : Val := match f32Val bits with | .inf n => .fin n 1 128 | v => v

/-- Whether FP32 bits lie within 2 ulp of a value, with its sign (05 R131). -/
def within2Ulp (bits : Nat) (v : Val) : Bool :=
  match errVal bits, v with
  | .fin nc mc kc, .fin nv mv kv =>
    let e := kv + Nat.log2 mv
    let ulp := (if e < -126 then -126 else e) - 23
    let u := min (min kc kv) ulp
    let d := Val.units u (.fin nc mc kc) - Val.units u (.fin nv mv kv)
    nc == nv && decide (d.natAbs ≤ 2 * 2 ^ (ulp - u).toNat)
  | _, _ => false

end Sys2Proof.Machine
end

