-- ==== Sys2Proof/Machine/Vector.lean ====
section
/-! DEFINITION. The vector unit's operations: ELTWISE, REDUCE, OPT_STEP (05 R131 to R133, R493, R494). -/

namespace Sys2Proof.Machine

/-- An element of a vector operand: format, bits, effective exponent; no exponent in an invalid super-block. -/
abbrev VElt := Nat × Nat × Option Int

/-- An element's exact value v × 2^f; a NaN in an invalid super-block (04 R84, R85; 08 R208). -/
def eltVal (e : VElt) : Val :=
  match e.2.2, elemValue e.1 e.2.1 with
  | none, _ => .nan
  | some f, .fin n m k => .fin n m (k + f)
  | _, v => v

/-- An input element widened to FP32; INT32 rounds (05 R131). -/
def widen32 (e : VElt) : Nat := (convertTo 0 true (eltVal e)).1

/-- An FP32 magnitude's infinity. -/
def f32Inf (neg : Bool) : Nat := fp32.signBits neg fp32.infBits

/-- Whether FP32 bits are an infinity. -/
def f32IsInf (b : Nat) : Bool := match f32Val b with | .inf _ => true | _ => false

/-- The functions 6 to 11 at a NaN, an infinity, a zero, and rsqrt of a negative; none where R131 leaves the bits to the unit
(05 R493). -/
def eltSpecial (fn x : Nat) : Option Nat :=
  let neg := natBit x 31
  match f32Val x with
  | .nan => some fp32.canon
  | .inf n =>
    match fn with
    | 6 => some (if n then 0x80000000 else f32Inf false)
    | 7 => some (if n then 0x80000000 else f32Inf false)
    | 8 => some (if n then 0 else f32Inf false)
    | 9 => some (if n then 0x80000000 else 0)
    | 10 => some (if n then fp32.canon else 0)
    | _ => some (if n then 0xBF800000 else 0x3F800000)
  | .fin n m _ =>
    if m = 0 then
      match fn with
      | 8 => some 0x3F800000
      | 9 => some (f32Inf neg)
      | 10 => some (f32Inf neg)
      | _ => some x
    else if fn = 10 ∧ n = true then some fp32.canon
    else none

/-- The result of a function 6 to 11 at a finite nonzero operand: the implementation's bits where they are within 2 ulp, else the rounded
value; which of the values within 2 ulp it is stays open (05 R131; DESIGN CHOICE, log entry 3). -/
def eltOpen (fn x : Nat) : Nat :=
  match f32Val x with
  | .fin n m k =>
    let v := eltExact fn n m k
    let bits := Config.eltwiseBits fn x % 2 ^ 32
    if within2Ulp bits v then bits else (f32Of v).1
  | _ => 0

/-- A function 6 to 11 of FP32 bits: result and flags (05 R131, R493, R494). -/
def eltUnary (fn x : Nat) : Nat × Nat :=
  let r := match eltSpecial fn x with | some v => v | none => eltOpen fn x
  let finite := (f32Val x).isFin
  let fl := (if finite && f32IsInf r then nsOverInf else 0)
    ||| (if finite && !(f32Val x).isZero && (f32Val r).isZero then nsUnder else 0)
  (r, fl)

/-- relu (05 R493). -/
def eltRelu (x : Nat) : Nat :=
  match f32Val x with
  | .nan => fp32.canon
  | .inf n => if n then 0 else x
  | .fin n m _ => if n || m == 0 then 0 else x

/-- One ELTWISE function of FP32 bits: result and flags, without the flag of a NaN input (05 R131, R493, R494). -/
def eltFn (fn x y : Nat) : Nat × Nat :=
  match fn with
  | 0 => f32Add x y
  | 1 => f32Sub x y
  | 2 => f32Mul x y
  | 3 => (f32MinMax false x y, 0)
  | 4 => (f32MinMax true x y, 0)
  | 5 => (eltRelu x, 0)
  | 12 => (x, 0)
  | _ => eltUnary fn x

/-- Whether FP32 bits are a NaN. -/
def f32IsNan (x : Nat) : Bool := f32Val x == .nan

/-- The flag of NaN input elements (05 R494). -/
def nanFlag (l : List Nat) : Nat := if l.any f32IsNan then nsNonfinite else 0

/-- A vector operand: its AGP, format, scale descriptor and outlier columns. Its rows run along dimension 0, and a row's positions are the
reduction indices of its streams and of its columns (05 R132; DESIGN CHOICE for the operations that reduce nothing, log entry 53). -/
structure VecHead where
  ai : Nat
  fmt : Nat
  a : Agp
  d : ScaleDesc
  cols : List Nat

/-- An operand that is not there. -/
def VecHead.absent : VecHead := ⟨0xFFFF, 0, ⟨0, 0, 0, 0, 0, [], [], false⟩, ScaleDesc.plain, []⟩

/-- The row and the position of an element. -/
def VecHead.place (h : VecHead) (i : Nat) : Nat × Nat := (i / max (h.a.count 0) 1, i % max (h.a.count 0) 1)

/-- A vector operand's descriptors read and checked: FORMAT_INVALID cause, or none where a read fails (04 R91, R93). -/
def vecHead (c : OpCtx) (ai fmt : Nat) (s : State) : (VecHead ⊕ Option Nat) × State :=
  let a := { c.agp ai s with fmt := fmt }
  match readScaleDesc c (c.bind a.binding s) s with
  | (none, s1) => (.inr none, s1)
  | (some d, s1) =>
    match readOutliers c d s1 with
    | (none, s2) => (.inr none, s2)
    | (some cols, s2) =>
      if !scaleOk d (a.count 0) (a.count 0) || !outliersOk cols (a.count 0) then (.inr (some 3), s2) else (.inl ⟨ai, fmt, a, d, cols⟩, s2)

/-- The elements of an operand with their scales; at an outlier column the BF16 value stands in their place (04 R84, R94; 05 R134). -/
def VecHead.elts (h : VecHead) (x : Scales) (ov : List (Nat × List Nat)) (bits : List Nat) : List VElt :=
  ((List.range bits.length).zip bits).map (fun e =>
    let p := h.place e.1
    match (h.cols.zip (rowOutliers ov p.1)).find? (fun y => y.1 == p.2) with
    | some y => (1, y.2, some 0)
    | none => (h.fmt, e.2, x.exp p.1 p.2))

/-- The elements of a vector operand read; none where a read fails, and the job has failed. -/
def VecHead.read (h : VecHead) (c : OpCtx) (x : Scales) (s : State) : Option (List VElt) × State :=
  let n := h.a.size
  match readOutVals c h.d (if h.cols.isEmpty then [] else List.range (n / max (h.a.count 0) 1)) s with
  | (none, s1) => (none, failSince c.job s s1)
  | (some ov, s1) =>
    let r := readElems c h.ai h.a (c.bind h.a.binding s1) n 0 s1
    if r.1.1.status ≠ 0 then (none, failSince c.job s1 r.2) else (some (h.elts x ov r.1.2), r.2)

/-- The steps of a vector operation's streams: element by element, in the order in which the operands pair. -/
def vecSteps (ha hb : VecHead) : List (List TagCheck) := (List.range ha.a.size).map (fun i => [(ha.place i, hb.place i, 0)])

/-- The operands of a vector operation whose descriptors are checked: remote operands fetched, streams compared, elements read; none where
the operation waits for the ring or its job has failed (04 R89, R93; 02 R32). -/
def readOperands (c : OpCtx) (o : OpRun) (ha hb : VecHead) (s : State) : Option (List VElt × List VElt) × State :=
  match opGather c o.tod s with
  | (none, s1) => (none, s1)
  | (some 0, s1) =>
    match readStreams c o ha.d hb.d (vecSteps ha hb) s1 with
    | (none, s2) => (none, s2)
    | (some (sa, sb), s2) =>
      match ha.read c sa s2 with
      | (none, s3) => (none, s3)
      | (some xs, s3) =>
        if hb.ai = 0xFFFF then (some (xs, []), s3)
        else match hb.read c sb s3 with
          | (none, s4) => (none, s4)
          | (some ys, s4) => (some (xs, ys), s4)
  | (some _, s1) => (none, failSince c.job s s1)

/-- The operands A and, if any, B of a vector operation: AGP and format of each; none where it waits or its job has failed. -/
def readVec (c : OpCtx) (o : OpRun) (a : Nat × Nat) (b : Option (Nat × Nat)) (s : State) : Option (List VElt × List VElt) × State :=
  match vecHead c a.1 a.2 s with
  | (.inr e, s1) => (none, headFail c o e s s1)
  | (.inl ha, s1) =>
    match (match b with | some x => vecHead c x.1 x.2 s1 | none => (.inl VecHead.absent, s1)) with
    | (.inr e, s2) => (none, headFail c o e s1 s2)
    | (.inl hb, s2) =>
      if ha.d.outliers ≠ 0 ∧ hb.d.outliers ≠ 0 then (none, headFail c o (some 3) s2 s2) else readOperands c o ha hb s2

/-- All elements of an AGP read in order, with a format. -/
def readAll (c : OpCtx) (ai fmt : Nat) (s : State) : (AccRes × List Nat) × State :=
  let a := { c.agp ai s with fmt := fmt }
  readElems c ai a (c.bind a.binding s) a.size 0 s

/-- Whether the next vector operation makes its first output a NaN's (05 R140); the injection is used up. -/
def takeNanInj (c : OpCtx) (s : State) : Bool × State := if armed 2 c.q 0 s then (true, disarm 2 c.q 0 s) else (false, s)

/-- The value of a grouped element from FP32 bits (04 R104, 05 R494). -/
def gOf (x : Nat) : GVal :=
  match f32Val x with
  | .nan => .poison
  | .inf n => .inf n
  | .fin n m k => .fin n m k

/-- Element offsets of an AGP in order. -/
def offsetsOf (c : OpCtx) (ai : Nat) (s : State) : List Int := (List.range (c.agp ai s).size).map (c.offset (c.agp ai s))

/-- Element operations of a vector operation: a REDUCE's input elements, another's output elements (05 R131, R132; 16 R378; what R378 counts as one
element operation is a DESIGN CHOICE, log entry 45). -/
def vecElems (c : OpCtx) (o : OpRun) (s : State) : Nat := (c.agp (if o.tod.kind = 7 then o.tod.agpA else o.tod.agpC) s).size

/-- The end of a vector operation that wrote its outputs. -/
def vectorEnd (c : OpCtx) (o : OpRun) (flags : Nat) (s : State) : State :=
  noteAct (c.q * 16 + 7) (vecElems c o s) (opDone c.q o.issue (orNumeric c.job flags s))

/-- Runs a vector operation at the head of its Quill's operations, after the earlier writes of what it writes (05 R123). -/
def onVector (q kind : Nat) (f : OpCtx → OpRun → State → State) (s : State) : State :=
  onOp q kind (fun c o s => if writePending c (c.bindsOf o.tod.writes s) o.issue s then s else f c o s) s

/-- The rest of an operation once its remote operands are here (02 R32). -/
def whenHere (c : OpCtx) (o : OpRun) (f : State → State) (s : State) : State :=
  match opGather c o.tod s with
  | (none, s1) => s1
  | (some 0, s1) => f s1
  | (some _, s1) => failSince c.job s s1

/-- The results of an ELTWISE over its elements: FP32 bits in order, and flags. -/
def eltAll (fn : Nat) (xs ys : List Nat) : List Nat × Nat :=
  let rs := (xs.zip ys).map (fun p => eltFn fn p.1 p.2)
  (rs.map (fun r => r.1), rs.foldl (fun f r => f ||| r.2) 0)

/-- An element-wise operation (05 R131, R493, R494). -/
def eltwiseRun (c : OpCtx) (o : OpRun) (s : State) : State :=
  let t := o.tod
  let fn := byteAt t.tail 0
  let const := byteAt t.tail 1 == 1
  let d := Rescale.read (rdBytes s t.rescale 32)
  let width := (c.agp t.agpC s).count 0
  let h := rescaleReadable c o s
  if fn = 12 ∧ h.1 = false then failSince c.job s h.2
  else if fn = 12 ∧ (d.ok = false ∨ d.group = 0 ∨ (d.groupOut = true ∧ d.scalePitch < superBlocks width d.group)) then
    failWith c.job (evFormatInvalid c o 3) h.2
  else
    match readVec c o (t.agpA, t.fmtA) (if fn ≤ 4 ∧ const = false then some (t.agpB, t.fmtB) else none) h.2 with
    | (none, s1) => s1
    | (some (as, bs), s1) =>
        let inj := takeNanInj c s1
        let xs0 := as.map widen32
        let xs := match xs0 with | _ :: r => if inj.1 then fp32.canon :: r else xs0 | [] => []
        let ys := if fn ≤ 4 then (if const then xs.map (fun _ => leField t.tail 4 4) else bs.map widen32) else xs.map (fun _ => 0)
        let r := eltAll fn xs ys
        let fl := nanFlag xs ||| (if fn ≤ 4 ∧ const = false then nanFlag ys else 0) ||| r.2
        let offs := offsetsOf c t.agpC inj.2
        let b := c.bind (c.agp t.agpC inj.2).binding inj.2
        if fn = 12 then
          let rows := (List.range ((offs.length + width - 1) / max width 1)).map (fun i =>
            ({ row := i, els := ((offs.zip (r.1.map gOf)).drop (i * width)).take width } : GRow))
          let w := writeGrouped c t.agpC b t.fmtC t.ieee d (rowBlocks rows d.group) inj.2
          if w.1.1.status ≠ 0 then failSince c.job inj.2 w.2 else vectorEnd c o (fl ||| w.1.2) w.2
        else
          let codes := r.1.map (fun x => convertTo t.fmtC t.ieee (f32Val x))
          let w := writeCodes c t.agpC b t.fmtC (offs.zip (codes.map (fun e => e.1))) inj.2
          if w.1.status ≠ 0 then failSince c.job inj.2 w.2 else vectorEnd c o (codes.foldl (fun f e => f ||| e.2) fl) w.2

/-- ELTWISE (05 R131, R493, R494). -/
def execEltwise (q : Nat) (s : State) : Out :=
  .next (onVector q 6 eltwiseRun s)

/-- An element as an operand of a float-path sum, with its flags: wide formats as they are, narrow ones widened to BF16, INT16 and INT32
to FP32 (03 R61; 05 R132, R134). -/
def reduceOp (e : VElt) : FOp × Nat :=
  if e.1 ≤ 2 ∨ fmtNarrow e.1 = true then floatOp e.1 e.2.1 e.2.2
  else let x := widen32 e; ((f32Val x, fp32.expo x), 0)

/-- One. -/
def oneOp : FOp := (.fin false 1 0, 0)

/-- The largest, or smallest, of FP32 values and, if any, the partial input; NaN wins (05 R132). -/
def reduceMinMax (mn : Bool) (l : List Nat) (cin : Option Nat) : Nat :=
  let all := (match cin with | some x => [x] | none => []) ++ l
  match all with
  | [] => 0
  | x :: t => let r := t.foldl (fun a b => f32MinMax mn a b) x; if all.any f32IsNan then fp32.canon else r

/-- One output of a REDUCE: bits, flags, and whether a NaN or an infinity took part; a NaN that agp_cin supplies enters the operation too
(05 R132, R494). -/
def reduceOne (fn : Nat) (l : List VElt) (cin : Option Nat) : (Nat × Nat) × Bool :=
  let fc := match cin with | some x => nanFlag [x] | none => 0
  if fn = 1 ∨ fn = 2 then
    let xs := l.map widen32
    ((reduceMinMax (fn == 2) xs cin, nanFlag xs ||| fc), false)
  else
    let ops := l.map reduceOp
    let r := floatReduce (ops.map (fun v => (v.1, if fn = 3 then v.1 else oneOp))) cin
    ((r.1.1, ops.foldl (fun f v => f ||| v.2) (r.1.2 ||| fc)), r.2)

/-- A reduction (05 R132, R494; 06 R144, R145). -/
def reduceRun (q : Nat) (c : OpCtx) (o : OpRun) (s : State) : State :=
  let t := o.tod
  let fn := byteAt t.tail 0
  match readVec c o (t.agpA, t.fmtA) none s with
  | (none, s0) => s0
  | (some (xs, _), s0) =>
    let n := (c.agp t.agpC s0).size
    let aI := c.agp t.agpCin s0
    let rc := if t.accIn = 0 then ((⟨0, 0⟩, []), s0) else readWords c t.agpCin aI (c.bind aI.binding s0) 4 (List.range n) s0
    if rc.1.1.status ≠ 0 then failSince c.job s0 rc.2
    else
      let inj := takeNanInj c rc.2
      let rs := (List.range n).map (fun i =>
        let r := reduceOne fn ((xs.drop (i * t.k)).take t.k) (if t.accIn = 0 then none else some (eltAt rc.1.2 i))
        if inj.1 && i == 0 then ((fp32.canon, r.1.2 ||| nsNonfinite), true) else r)
      let fl := rs.foldl (fun f r => f ||| r.1.2) 0
      let nf := (rs.filter (fun r => r.2)).length
      let offs := offsetsOf c t.agpC inj.2
      let b := c.bind (c.agp t.agpC inj.2).binding inj.2
      let outs : List OutElem := (offs.zip rs).map (fun e => { agp := t.agpC, off := e.1, chan := 0, row := 0, col := 0, v := .f32 e.2.1.1 })
      let codes := floatCodes t outs
      let w := if t.accOut = 1 then writePartials c t.agpC b outs inj.2 else writeCodes c t.agpC b t.fmtC codes.1 inj.2
      if w.1.status ≠ 0 then failSince c.job inj.2 w.2
      else
        let s1 := endEvents c { o with nf := if fn = 1 ∨ fn = 2 then 0 else nf, nfInj := inj.1 } w.2
        let s2 := if t.accOut = 1 then s1 else addCtr 1 (q / 4) 0x48 n s1
        vectorEnd c o (fl ||| (if t.accOut = 1 then 0 else codes.2)) s2

/-- REDUCE (05 R132, R494; 06 R144, R145). -/
def execReduce (q : Nat) (s : State) : Out :=
  .next (onVector q 7 (reduceRun q) s)

/-- The FP32 values of an optimiser step (05 R133). -/
structure OptPar where
  lr : Nat
  b1 : Nat
  b2 : Nat
  eps : Nat
  wd : Nat
  c1 : Nat
  c2 : Nat

/-- The block of 32 bytes (05 R133). -/
def OptPar.read (l : List Byte) : OptPar :=
  { lr := leField l 0 4, b1 := leField l 4 4, b2 := leField l 8 4, eps := leField l 12 4, wd := leField l 16 4, c1 := leField l 20 4, c2 := leField l 24 4 }

/-- A result put behind a step's flags. -/
def andThen (a : Nat × Nat) (f : Nat → Nat × Nat) : Nat × Nat := let r := f a.1; (r.1, a.2 ||| r.2)

/-- Two results joined by an operation. -/
def join2 (f : Nat → Nat → Nat × Nat) (a b : Nat × Nat) : Nat × Nat := let r := f a.1 b.1; (r.1, a.2 ||| b.2 ||| r.2)

/-- One weight's update: new weight, first and second moment, each with the flags of its steps (05 R133). -/
def optOne (rule1 : Bool) (p : OptPar) (g w m v : Nat) : (Nat × Nat) × (Nat × Nat) × (Nat × Nat) :=
  let k := fun (x : Nat) => (x, (0 : Nat))
  let one : Nat := 0x3F800000
  if rule1 then
    let m' := join2 f32Add (f32Mul p.b1 m) (join2 f32Mul (f32Sub one p.b1) (k g))
    let v' := join2 f32Add (f32Mul p.b2 v) (join2 f32Mul (f32Sub one p.b2) (f32Mul g g))
    let u := join2 f32Div (join2 f32Mul m' (k p.c1)) (join2 f32Add (andThen (join2 f32Mul v' (k p.c2)) f32Sqrt) (k p.eps))
    let w' := join2 f32Sub (k w) (join2 f32Mul (k p.lr) (join2 f32Add u (f32Mul p.wd w)))
    (w', m', v')
  else
    let m' := join2 f32Add (f32Mul p.b1 m) (k g)
    let w' := join2 f32Sub (k w) (join2 f32Mul (k p.lr) (join2 f32Add m' (f32Mul p.wd w)))
    (w', m', k v)

/-- An optimiser step; the moments are read as they stand (05 R133, R494; log entry 53). -/
def optStepRun (c : OpCtx) (o : OpRun) (s : State) : State :=
  let t := o.tod
  let rule1 := byteAt t.tail 6 == 1
  match readVec c o (t.agpA, t.fmtA) (some (t.agpB, 0)) s with
  | (none, s0) => s0
  | (some (ga, wa), s0) =>
  match opRead c (leField t.tail 0 6) 32 s0 with
  | (none, s1) => failSince c.job s0 s1
  | (some blk, s1) =>
        let p := OptPar.read blk
        let rm := readAll c t.agpC 0 s1
        if rm.1.1.status ≠ 0 then failSince c.job s1 rm.2
        else
          let rv := readAll c t.agpCin 0 rm.2
          if rv.1.1.status ≠ 0 then failSince c.job rm.2 rv.2
          else
            let inj := takeNanInj c rv.2
            let gs := ga.map widen32
            let ws := wa.map widen32
            let n := gs.length
            let at' := fun (l : List Nat) i => match l[i]? with | some x => x | none => 0
            let rs0 := (List.range n).map (fun i => optOne rule1 p (at' gs i) (at' ws i) (at' rm.1.2 i) (at' rv.1.2 i))
            let rs := match rs0 with
              | r :: t => if inj.1 then ((fp32.canon, r.1.2 ||| nsNonfinite), r.2) :: t else rs0
              | [] => []
            let fl := rs.foldl (fun f r => f ||| r.1.2 ||| r.2.1.2 ||| r.2.2.2) (nanFlag (gs ++ ws ++ rm.1.2 ++ rv.1.2))
            let put := fun (ai : Nat) (l : List Nat) (st : State) => writeCodes c ai (c.bind (c.agp ai st).binding st) 0 ((offsetsOf c ai st).zip l) st
            let w1 := put t.agpB (rs.map (fun r => r.1.1)) inj.2
            if w1.1.status ≠ 0 then failSince c.job inj.2 w1.2
            else
              let w2 := put t.agpC (rs.map (fun r => r.2.1.1)) w1.2
              if w2.1.status ≠ 0 then failSince c.job w1.2 w2.2
              else
                let w3 := if rule1 then put t.agpCin (rs.map (fun r => r.2.2.1)) w2.2 else (⟨0, 0⟩, w2.2)
                if w3.1.status ≠ 0 then failSince c.job w2.2 w3.2 else vectorEnd c o fl w3.2

/-- OPT_STEP (05 R133, R494). -/
def execOptStep (q : Nat) (s : State) : Out :=
  .next (onVector q 8 optStepRun s)

end Sys2Proof.Machine
end

