-- ==== Sys2Proof/Machine/Attn.lean ====
section
/-! DEFINITION. Attention: tickets and their checks, the forward and the backward launch (07 R172, R177 to R191). -/

namespace Sys2Proof.Machine

/-- Bytes 40 to 63 of an attention descriptor (07 R177). -/
structure AttnPar where
  mode : Nat
  causal : Bool
  tree : Bool
  writeKv : Bool
  stats : Bool
  combine : Bool
  g : Nat
  layer : Nat
  sigma : Nat
  where_ : Nat
  n : Nat
  agpV : Nat
  agpStats : Nat
  agpTree : Nat
  bucket : Nat
  deriving DecidableEq, Repr

/-- The fields of bytes 40 to 63. -/
def AttnPar.read (b : List Byte) : AttnPar :=
  let f := byteAt b 0
  { mode := f % 4, causal := natBit f 2, tree := natBit f 3, writeKv := natBit f 4, stats := natBit f 5, combine := natBit f 6
    g := byteAt b 1 % 16 + 1, layer := leField b 2 2, sigma := leField b 4 4, where_ := leField b 8 6, n := leField b 14 2, agpV := leField b 16 2
    agpStats := leField b 18 2, agpTree := leField b 20 2, bucket := leField b 22 2 }

/-- One context of a launch: ID, first query row, new tokens, rank (07 R188); mode 0 has one, at row 0. -/
structure AttnEntry where
  ctx : Nat
  row : Nat
  nNew : Nat
  rank : Nat
  /-- Whether its reserved bytes are 0 and n_new is 1 to 32. -/
  ok : Bool
  deriving DecidableEq, Repr

/-- An entry of the length table (07 R188). -/
def AttnEntry.read (b : List Byte) : AttnEntry :=
  { ctx := leField b 0 4 % 2 ^ 18, row := leField b 4 4, nNew := byteAt b 8, rank := byteAt b 9
    ok := decide (leField b 0 4 < 2 ^ 18 ∧ 1 ≤ byteAt b 8 ∧ byteAt b 8 ≤ 32 ∧ leField b 10 6 = 0) }

/-- ATTN_INPUT_INVALID (07 R192). -/
def evAttnInvalid (ctx job cause : Nat) : Ev := ccEvent 31 0x7202 ctx job (job + cause * 2 ^ 16)

/-- The contexts of a launch, mode 0's own or the length table's; none where the table's read fails. -/
def attnEntries (c : OpCtx) (p : AttnPar) (s : State) : Option (List AttnEntry) × State :=
  if p.mode = 0 then (some [{ ctx := p.where_ % 2 ^ 18, row := 0, nNew := p.n, rank := 0, ok := true }], s)
  else match opRead c p.where_ (16 * p.n) s with
    | (none, s1) => (none, s1)
    | (some l, s1) => (some ((List.range p.n).map (fun i => AttnEntry.read ((l.drop (16 * i)).take 16))), s1)

/-- The parents of a launch's candidates, in table order; none where a read fails (07 R186; DEDUCED, log entry 28). -/
def attnParents (c : OpCtx) (p : AttnPar) (es : List AttnEntry) (s : State) : Option (List Int) × State :=
  if p.tree = false then (some [], s)
  else
    let a := c.agp p.agpTree s
    let r := readElems c p.agpTree { a with fmt := 10 } (c.bind a.binding s) (es.foldl (fun n e => n + e.nNew) 0) 0 s
    if r.1.1.status ≠ 0 then (none, r.2) else (some (r.1.2.map (signed 8)), r.2)

/-- A context's candidates among the parents of a launch. -/
def entryParents (es : List AttnEntry) (ps : List Int) (i : Nat) : List Int :=
  let skip := (es.take i).foldl (fun n e => n + e.nNew) 0
  match es[i]? with | some e => (ps.drop skip).take e.nNew | none => []

/-- Every parent is −1 or an earlier candidate (07 R186). -/
def parentsOk (ps : List Int) : Bool :=
  (List.range ps.length).all (fun i => match ps[i]? with | some p => decide (-1 ≤ p ∧ p < (i : Int)) | none => true)

/-- The cause for which the manager refuses an entry of a launch, with its context (07 R178, R186, R189). -/
def entryFault (t : Tod) (p : AttnPar) (e : AttnEntry) (ps : List Int) (s : State) : Option Nat :=
  let d := ctxDesc e.ctx s
  if e.ok = false then some 3
  else if d.state ≠ 1 then some 0
  else if 32 * d.dim32 ≠ t.n ∨ (p.mode = 0 ∧ t.m ≠ e.nNew * d.heads * p.g) ∨ d.layers ≤ p.layer ∨ t.m < e.row + e.nNew * d.heads * p.g then some 1
  else if d.reserved < d.len + e.nNew then some 2
  else if p.tree = true ∧ parentsOk ps = false then some 4
  else if p.mode = 2 ∧ p.bucket * 128 < d.reserved then some 5
  else none

/-- The first entry refused: its context and cause. -/
def launchFault (t : Tod) (p : AttnPar) (es : List AttnEntry) (ps : List Int) (s : State) : Option (Nat × Nat) :=
  (List.range es.length).findSome? (fun i =>
    match es[i]? with
    | some e => (match entryFault t p e (entryParents es ps i) s with | some k => some (e.ctx, k) | none => none)
    | none => none)

/-- The launch at the head of a Quill's operations, if it is an attention operation that needs a ticket and has none. -/
def wantsTicket (q : Nat) (s : State) : Option OpRun :=
  match nextOp q s with
  | some o => if (o.tod.kind = 4 ∨ o.tod.kind = 5) ∧ (AttnPar.read o.tod.tail).combine = false ∧ o.ticket = none then some o else none
  | none => none

/-- The page-table entries of a layer below a context's reserved_length, as a ticket holds them (07 R172, R175). -/
def snapEntries (d : CtxDesc) (layer : Nat) (s : State) : List (Nat × Nat × Bool) :=
  (List.range (blocksFor d.reserved)).map (fun b =>
    let f := ptEntry d layer b s
    (ptAddr d layer b, f, f != nullIdx && ((folio f s).state == 1 || (folio f s).state == 3)))

/-- A launch's checks and its ticket (07 R172, R178). -/
def grantTicket (q : Nat) (j : JobRec) (o : OpRun) (s : State) : State :=
  let p := AttnPar.read o.tod.tail
  match opCtx j q o.loops o.scs (.op q o.issue) s with
  | none => s
  | some c =>
    match attnEntries c p s with
    | (none, s1) => failSince c.job s s1
    | (some es, s1) =>
      match attnParents c p es s1 with
      | (none, s2) => failSince c.job s1 s2
      | (some ps, s2) =>
        match launchFault o.tod p es ps s2 with
        | some (ctx, k) => failWith c.job (evAttnInvalid ctx c.job k) s2
        | none =>
          let n := s2.cc.launches
          let snaps := es.map (fun e => let d := ctxDesc e.ctx s2; ({ ctx := e.ctx, len := d.len, reserved := d.reserved, entries := snapEntries d p.layer s2 } : CtxSnap))
          let s3 := takeTicket (.launch n) snaps { s2 with cc := { s2.cc with launches := n + 1, waiting := s2.cc.waiting.filter (fun x => x != q) } }
          updOp q o.issue (fun x => { x with ticket := some n }) s3

/-- TICKET_GRANT: a Quill's attention launch takes its ticket, or waits while all 512 are occupied (07 R172). -/
def execTicketGrant (q : Nat) (s : State) : Out :=
  .next (
    match wantsTicket q s, findJob (quill q s).job s with
    | some o, some j =>
      if ccOn s = false ∨ quillWorks q s = false then s
      else if 512 ≤ s.cc.tickets.length then
        if s.cc.waiting.contains q then s
        else raise (ccEvent 26 0x2200 0 j.d.id j.d.id) { s with cc := { s.cc with waiting := q :: s.cc.waiting } }
      else grantTicket q j o s
    | _, _ => s)

/-- The snapshot that a launch's ticket holds of a context. -/
def snapOf (o : OpRun) (ctx : Nat) (s : State) : CtxSnap :=
  match o.ticket with
  | some n =>
    (match s.cc.tickets.find? (fun t => t.use == .launch n) with
      | some t => (match t.snaps.find? (fun x => x.ctx == ctx) with | some x => x | none => ⟨ctx, 0, 0, []⟩)
      | none => ⟨ctx, 0, 0, []⟩)
  | none => ⟨ctx, 0, 0, []⟩

/-- FOLIO_MISSING (07 R178, R192). -/
def evFolioMissing (ctx job entry layer block : Nat) (inj : Bool) : Ev :=
  let e := ccEvent 27 0x3200 ctx job (entry + layer * 2 ^ 24 + block % 65536 * 2 ^ 40)
  { e with payload := e.payload + injFlag inj }

/-- CACHE_META_ERROR (07 R178, R192). -/
def evMetaError (ctx job f b4 : Nat) (inj : Bool) : Ev :=
  let e := ccEvent 28 0x3201 ctx job (f + b4 * 2 ^ 24)
  { e with payload := e.payload + injFlag inj }

/-- The Folios behind a context's blocks looked up as the launch's ticket holds them: block and descriptor, or the state in which the job has
failed. A Folio that went to LIMBO since is still read (07 R175, R178). -/
def lookUp (c : OpCtx) (ctx layer : Nat) (d : CtxDesc) (sn : CtxSnap) : List Nat → State → Option (List (Nat × FolioDesc)) × State
  | [], s => (some [], s)
  | b :: t, s =>
    let nul := armed 6 0 27 s
    let s1 := if nul then disarm 6 0 27 s else s
    let en := match sn.entries.find? (fun e => e.1 == ptAddr d layer b) with | some e => e.2 | none => (ptEntry d layer b s1, false)
    let e := if nul then nullIdx else en.1
    let x := folio e s1
    let meta_ := armed 6 0 28 s1 && e != nullIdx
    if e = nullIdx ∨ (x.state ≠ 1 ∧ x.state ≠ 3 ∧ ¬(en.2 = true ∧ x.state = 2)) then (none, failWith c.job (evFolioMissing ctx c.job e layer b nul) s1)
    else if meta_ = true ∨ kvFmtOk x.kFmt = false ∨ kvFmtOk x.vFmt = false then
      (none, failWith c.job (evMetaError ctx c.job e (if meta_ then 0xFF else x.kFmt + 16 * x.vFmt) meta_) (if meta_ then disarm 6 0 28 s1 else s1))
    else
      match lookUp c ctx layer d sn t s1 with
      | (some l, s2) => (some ((b, x) :: l), s2)
      | (none, s2) => (none, s2)

/-- One head vector of a Folio as float-path operands (07 R164, R180): `v` for a value, else a key. -/
structure HeadVec where
  ops : List FOp
  /-- The tag found in its scale block, and the tag expected; equal for a wide format. -/
  tag : Nat
  want : Nat

/-- An element of a Folio as a float-path operand: exact, its scale an exponent adjustment (07 R180). -/
def kvOp (fmt bits : Nat) (f : Option Int) : FOp :=
  match f with
  | none => (.nan, 0)
  | some f =>
    if kvNarrow fmt then
      match elemValue fmt bits with
      | .fin n m k => (.fin n m (k + f), k + f + Nat.log2 m)
      | v => (v, 0)
    else (floatOp fmt bits (some 0)).1

/-- A head vector from the bytes of its elements and of its scale block (07 R164, R180; 04 R85). -/
def headVec (fmt D tok : Nat) (els scale : List Byte) : HeadVec :=
  let w := fmtWidth fmt
  let n := leNat els
  let exp := fun i =>
    if kvNarrow fmt then
      (if byteAt scale 0 = 0x80 then none else some (signed 8 (byteAt scale 0) + signed 4 (leField scale 2 8 / 2 ^ (4 * (i / 32)) % 16)))
    else some 0
  { ops := (List.range D).map (fun i => kvOp fmt (n / 2 ^ (w * i) % 2 ^ w) (exp i))
    tag := if kvNarrow fmt then byteAt scale 1 % 16 else tok, want := tok }

/-- A head vector read from a Folio's slot: key or value of a token and head. -/
def readHead (c : OpCtx) (v : Bool) (x : FolioDesc) (H D h tok : Nat) (s : State) : Option HeadVec × State :=
  let L := slotLayout x.kFmt x.vFmt H D
  let fmt := if v then x.vFmt else x.kFmt
  let i := h * 16 + tok
  let n := D * fmtWidth fmt / 8
  let base := slotAddr x.slot s
  match lpddrRead (base + (if v then L.v else 0) + i * n) n c.job s with
  | (0, s1) =>
    let els := rdBytes s1 (base + (if v then L.v else 0) + i * n) n
    if kvNarrow fmt then
      let a := base + (if v then L.vs else L.ks) + i * 16
      match lpddrRead a 16 c.job s1 with
      | (0, s2) => (some (headVec fmt D tok els (rdBytes s2 a 16)), s2)
      | (_, s2) => (none, s2)
    else (some (headVec fmt D tok els []), s1)
  | (_, s1) => (none, s1)

/-- The keys and values of a head at positions, with the first tag that differs; none where a read fails. -/
def readTokens (c : OpCtx) (fs : List (Nat × FolioDesc)) (H D h : Nat) : List Nat → State → Option (List (Nat × HeadVec × HeadVec)) × State
  | [], s => (some [], s)
  | p :: t, s =>
    match fs.find? (fun e => e.1 == p / 16) with
    | none => (none, s)
    | some x =>
      match readHead c false x.2 H D h (p % 16) s with
      | (none, s1) => (none, s1)
      | (some k, s1) =>
        match readHead c true x.2 H D h (p % 16) s1 with
        | (none, s2) => (none, s2)
        | (some v, s2) =>
          match readTokens c fs H D h t s2 with
          | (none, s3) => (none, s3)
          | (some l, s3) => (some ((p, k, v) :: l), s3)

/-- The first head vector whose tag differs, as SCALE_SKEW of operand B; it names Nib 0, since the spec assigns no Folio to a Nib (04 R90, R97;
07 R164; DESIGN CHOICE, log entry 52). -/
def kvSkew (h : Nat) (l : List (Nat × HeadVec × HeadVec)) : Option Skew :=
  l.findSome? (fun e =>
    let bad := fun (x : HeadVec) => if x.tag = x.want then none else some (⟨false, true, x.want, x.tag, h * 16 + e.1 % 16, 0⟩ : Skew)
    match bad e.2.1 with | some k => some k | none => bad e.2.2)

/-- The bytes that one head vector of new keys or values is written with: element bytes and scale block (07 R179; 04 R104). -/
def kvEncode (fmt : Nat) (ieee : Bool) (x : Int) (tok : Nat) (vals : List Val) : (List Byte × List Byte) × Nat :=
  if kvNarrow fmt then
    let b := superBlock fmt ieee 32 x tok (vals.map (fun v => match v with | .nan => GVal.poison | .inf n => .inf n | .fin n m k => .fin n m k))
    ((packBits fmt (b.1.map (fun e => e.1)), b.2), b.1.foldl (fun f e => f ||| e.2) 0)
  else
    let r := vals.map (convertTo fmt ieee)
    ((packBits fmt (r.map (fun e => e.1)), []), r.foldl (fun f e => f ||| e.2) 0)

/-- One head vector of new keys (`v` false) or values written into its Folio; flags, or none where a write fails. -/
def writeHead (c : OpCtx) (v : Bool) (ieee : Bool) (kvX : Int) (x : FolioDesc) (H D h tok : Nat) (vals : List Val) (s : State) : Option Nat × State :=
  let L := slotLayout x.kFmt x.vFmt H D
  let fmt := if v then x.vFmt else x.kFmt
  let i := h * 16 + tok
  let e := kvEncode fmt ieee kvX tok vals
  let base := slotAddr x.slot s
  match lpddrWrite (base + (if v then L.v else 0) + i * (D * fmtWidth fmt / 8)) e.1.1 c.job s with
  | (0, s1) =>
    if e.1.2.isEmpty then (some e.2, s1)
    else
      match lpddrWrite (base + (if v then L.vs else L.ks) + i * 16) e.1.2 c.job s1 with
      | (0, s2) => (some e.2, s2)
      | (_, s2) => (none, s2)
  | (_, s1) => (none, s1)

/-- The new keys or values of one token and head, from the operand's elements. -/
def newVals (fmt D row : Nat) (els : Nat → Nat) : List Val := (List.range D).map (fun i => elemValue fmt (els (row * D + i)))

/-- The new keys and values of a context written at their positions (07 R179); flags, or none where a write fails. Row (i × H + h)
of the new operands is counted from row_offset / g (DEDUCED, log entry 28). -/
def writeKv (c : OpCtx) (t : Tod) (p : AttnPar) (e : AttnEntry) (d : CtxDesc) (p0 : Nat) (fs : List (Nat × FolioDesc)) (kb vb : Nat → Nat) :
    List (Nat × Nat) → Nat → State → Option Nat × State
  | [], fl, s => (some fl, s)
  | (i, h) :: rest, fl, s =>
    let pos := p0 + i
    match fs.find? (fun x => x.1 == pos / 16) with
    | none => (none, s)
    | some x =>
      let row := e.row / p.g + i * d.heads + h
      match writeHead c false t.ieee (signed 8 d.kvX) x.2 d.heads t.n h (pos % 16) (newVals t.fmtB t.n row kb) s with
      | (none, s1) => (none, s1)
      | (some f1, s1) =>
        match writeHead c true t.ieee (signed 8 d.kvX) x.2 d.heads t.n h (pos % 16) (newVals t.fmtB t.n row vb) s1 with
        | (none, s2) => (none, s2)
        | (some f2, s2) => writeKv c t p e d p0 fs kb vb rest (fl ||| f1 ||| f2) s2

/-- Ancestors of a candidate, itself included (07 R186). -/
def ancestors (ps : List Int) : Nat → Int → List Int
  | 0, _ => []
  | n + 1, i => if i < 0 then [] else i :: ancestors ps n (match ps[i.toNat]? with | some p => p | none => -1)

/-- Whether new token i attends to a position (07 R179, R186). -/
def attends (p : AttnPar) (ps : List Int) (p0 nNew i pos : Nat) : Bool :=
  if pos < p0 then true
  else if p0 + nNew ≤ pos then false
  else if p.tree then (ancestors ps (nNew + 1) (i : Int)).contains ((pos - p0 : Nat) : Int)
  else if p.causal then decide (pos ≤ p0 + i)
  else true

/-- −∞ and −0 as FP32. -/
def negInf : Nat := 0xFF800000
/-- −0 as FP32. -/
def negZero : Nat := 0x80000000

/-- A state (m, l, o) of one row as FP32 bits (07 R181). -/
structure AttnSt where
  m : Nat
  l : Nat
  o : List Nat
  deriving DecidableEq, Repr

/-- The state of an empty chunk (07 R181). -/
def AttnSt.empty (D : Nat) : AttnSt := ⟨negInf, negZero, List.replicate D negZero⟩

/-- BF16 of FP32 bits, as an operand with its flags (07 R181); the conversion takes the IEEE mode, since no mode bit reaches it (03 R76;
DESIGN CHOICE, log entry 52). -/
def toBf16Op (x : Nat) : FOp × Nat := let r := bf16.convert true (f32Val x); ((bf16.value r.1, bf16.expo r.1), r.2)

/-- The score z of a query and a key: the float-path sum over D, times sigma, with flags and whether a NaN or an infinity took part
(07 R180). -/
def score (sigma : Nat) (qv k : List FOp) : (Nat × Nat) × Bool :=
  let r := floatReduce (qv.zip k) none
  let z := f32Mul sigma r.1.1
  ((z.1, r.1.2 ||| z.2), r.2)

/-- What an attention computation adds to a row: numeric flags, and the output elements in which R72 applied (03 R79). -/
structure RowFlags where
  fl : Nat
  hit : List Bool

/-- Flags of two parts of a row's computation together. -/
def RowFlags.or (a b : RowFlags) : RowFlags := ⟨a.fl ||| b.fl, (a.hit.zip b.hit).map (fun p => p.1 || p.2)⟩

/-- Flags alone, for a row of D elements; `all` where R72 applied to all of them. -/
def RowFlags.of (D fl : Nat) (all : Bool) : RowFlags := ⟨fl, List.replicate D all⟩

/-- A chunk's state from its scores and values in position order; masked positions have none (07 R181). The FP32 steps of attention set the
flags of R78 as those of the vector unit do (DESIGN CHOICE, log entry 52). -/
def chunkState (D : Nat) (l : List (Option Nat × List FOp)) : AttnSt × RowFlags :=
  let zs := l.filterMap (fun e => e.1)
  match zs with
  | [] => (AttnSt.empty D, RowFlags.of D 0 false)
  | z0 :: zt =>
    let m := if zs.any f32IsNan then fp32.canon else zt.foldl (f32MinMax false) z0
    let zero : FOp := (.fin false 0 0, 0)
    let ps := l.map (fun e => match e.1 with
      | some z => let d := f32Sub z m; let x := eltUnary 8 d.1; let b := toBf16Op x.1; (b.1, d.2 ||| x.2 ||| b.2)
      | none => (zero, 0))
    let pv := (ps.map (fun e => e.1)).zip (l.map (fun e => e.2))
    let lr := chunkResult (pv.map (fun e => (e.1, oneOp)))
    let os := (List.range D).map (fun d => chunkResult (pv.map (fun e => (e.1, e.2.getD d zero))))
    ({ m := m, l := lr.1.1, o := os.map (fun r => r.1.1) },
     ⟨os.foldl (fun f r => f ||| r.1.2) (ps.foldl (fun f e => f ||| e.2) lr.1.2) ||| (if f32IsNan m then nsNonfinite else 0),
      os.map (fun r => r.2 || lr.2)⟩)

/-- A node from its two children (07 R182). -/
def combineSt (a b : AttnSt) : AttnSt × Nat :=
  let m := f32MinMax false a.m b.m
  let w := fun (x : Nat) => if x = negInf then (0, 0) else let d := f32Sub x m; let e := eltUnary 8 d.1; (e.1, d.2 ||| e.2)
  let a1 := w a.m
  let a2 := w b.m
  let mix := fun (x y : Nat) => join2 f32Add (f32Mul x a1.1) (f32Mul y a2.1)
  let l := mix a.l b.l
  let os := (a.o.zip b.o).map (fun e => mix e.1 e.2)
  ({ m := m, l := l.1, o := os.map (fun r => r.1) }, os.foldl (fun f r => f ||| r.2) (a1.2 ||| a2.2 ||| l.2))

/-- One level of the token tree. -/
def attnLevel : List AttnSt → List AttnSt × Nat
  | a :: b :: t => let r := combineSt a b; let l := attnLevel t; (r.1 :: l.1, r.2 ||| l.2)
  | l => (l, 0)

/-- The token tree over chunk states, at most `n` levels (07 R182; 06 R143). -/
def attnTree (D : Nat) : Nat → List AttnSt → AttnSt × Nat
  | _, [] => (AttnSt.empty D, 0)
  | _, [a] => (a, 0)
  | 0, a :: _ => (a, 0)
  | n + 1, l => let x := attnLevel l; let r := attnTree D n x.1; (r.1, x.2 ||| r.2)

/-- The positions that a launch covers of a context with `total` positions (07 R177, R184). -/
def attnSpan (t : Tod) (total : Nat) : List Nat :=
  let lo := t.chunkBase * 128
  let hi := if t.k = 0 then total else min (lo + t.k) total
  (List.range (hi - lo)).map (fun i => lo + i)

/-- One row's node: scores, chunk states, tree (07 R180 to R182). -/
def rowState (p : AttnPar) (D p0 nNew i : Nat) (ps : List Int) (qv : List FOp) (toks : List (Nat × HeadVec × HeadVec)) : AttnSt × RowFlags :=
  let sc := toks.map (fun e => if attends p ps p0 nNew i e.1 then some (score p.sigma qv e.2.1.ops) else none)
  let fl := sc.foldl (fun f e => match e with | some r => f ||| r.1.2 | none => f) 0
  let bad := sc.any (fun e => match e with | some r => r.2 | none => false)
  let l := (sc.map (fun e => match e with | some r => some r.1.1 | none => none)).zip (toks.map (fun e => e.2.2.ops))
  let cs := (chunkList (chunks l.length) l).map (chunkState D)
  let r := attnTree D (cs.length + 1) (cs.map (fun c => c.1))
  (r.1, cs.foldl (fun f c => f.or c.2) (RowFlags.of D (fl ||| r.2) bad))

/-- A row's normalised output (07 R183). -/
def normOut (st : AttnSt) : List Nat × Nat :=
  if f32IsNan st.m then (st.o.map (fun _ => fp32.canon), nsNonfinite)
  else if (f32Val st.l).isZero then (st.o.map (fun _ => 0), 0)
  else let rs := st.o.map (fun x => f32Div x st.l); (rs.map (fun r => r.1), rs.foldl (fun f r => f ||| r.2) 0)

/-- The elements of a row through an AGP: D of them, from the row's first one on (07 R177). -/
def rowOffset (c : OpCtx) (a : Agp) (row : Nat) : Int := c.offset a (row * a.count 0)

/-- The first element of a row's partial state: rows of D + 2 FP32 elements from the AGP's first one on (07 R184). -/
def stateOffset (c : OpCtx) (a : Agp) (D row : Nat) : Int := c.offset a 0 + ((row * (D + 2) : Nat) : Int)

/-- FP32 words written from an element offset on (07 R183, R184). -/
def writeWords (c : OpCtx) (ai : Nat) (off : Int) (ws : List Nat) (s : State) : AccRes × State :=
  writeCodes c ai (c.bind (c.agp ai s).binding s) 0 ((List.range ws.length).map (fun (i : Nat) => (off + (i : Int), ws.getD i 0))) s

/-- FP32 words read from an element offset on. -/
def readRowWords (c : OpCtx) (ai : Nat) (n : Nat) (off : Int) (s : State) : (AccRes × List Nat) × State :=
  readRuns c ai (c.bind (c.agp ai s).binding s) 32 n ((List.range n).map (fun (i : Nat) => off + (i : Int))) s

/-- A partial state read: m, l, then o (07 R184). -/
def readState (c : OpCtx) (ai D row : Nat) (s : State) : (AccRes × AttnSt) × State :=
  let r := readRowWords c ai (D + 2) (stateOffset c (c.agp ai s) D row) s
  ((r.1.1, ⟨r.1.2.getD 0 0, r.1.2.getD 1 0, r.1.2.drop 2⟩), r.2)

/-- A row's state put out: partial state or normalised output, and its statistics (07 R183, R184). -/
def writeState (c : OpCtx) (t : Tod) (stats : Option Nat) (row : Nat) (st : AttnSt) (s : State) : (AccRes × Nat) × State :=
  let w :=
    if t.accOut = 1 then ((writeWords c t.agpC (stateOffset c (c.agp t.agpC s) t.n row) (st.m :: st.l :: st.o) s), 0)
    else
      let n := normOut st
      let a := c.agp t.agpC s
      let codes := n.1.map (fun x => convertTo t.fmtC t.ieee (f32Val x))
      (writeCodes c t.agpC (c.bind a.binding s) t.fmtC ((List.range codes.length).map (fun i => (c.offset a (row * t.n + i), (codes.getD i (0, 0)).1))) s,
       codes.foldl (fun f e => f ||| e.2) n.2)
  if w.1.1.status ≠ 0 then ((w.1.1, w.2), w.1.2)
  else match stats with
    | none => ((w.1.1, w.2), w.1.2)
    | some ai =>
      let r := eltUnary 9 st.l
      let x := writeWords c ai (rowOffset c (c.agp ai w.1.2) row) [st.m, r.1, 0, 0] w.1.2
      ((x.1, w.2 ||| r.2), x.2)

/-- The rows of a launch put out in order, each combined with a sibling's state where acc_in is 1 (07 R184). -/
def putRows (c : OpCtx) (t : Tod) (stats : Option Nat) : List (Nat × AttnSt) → Nat → State → (AccRes × Nat) × State
  | [], fl, s => ((⟨0, 0⟩, fl), s)
  | (row, st) :: rest, fl, s =>
    let sib := if t.accIn = 0 then ((⟨0, 0⟩, AttnSt.empty t.n), s) else readState c t.agpCin t.n row s
    if sib.1.1.status ≠ 0 then ((sib.1.1, fl), sib.2)
    else
      let st1 := if t.accIn = 0 then (st, 0) else combineSt st sib.1.2
      let w := writeState c t stats row st1.1 sib.2
      if w.1.1.status ≠ 0 then ((w.1.1, fl), w.2) else putRows c t stats rest (fl ||| st1.2 ||| w.1.2) w.2

/-- The entries that a Quill of a launch processes, with their place in the table (07 R189). -/
def mine (p : AttnPar) (rank count : Nat) (es : List AttnEntry) : List (Nat × AttnEntry) :=
  ((List.range es.length).zip es).filter (fun e =>
    match p.mode with
    | 0 => true
    | 1 => e.2.rank == rank
    | _ => e.1 % max count 1 == rank)

/-- The MACs of an attention launch for one head: `k` products of D terms for every row and position, in the rate class of the query's format (05 R139;
07 R180, R185; DEDUCED, log entry 28). -/
def attnMacs (c : OpCtx) (o : OpRun) (k rows toks : Nat) (s : State) : State :=
  let n := k * rows * toks * o.tod.n
  noteAct (c.q * 16 + if o.tod.fmtA = 0 then 4 else 3) n (addCtr 2 c.q 0x60 n s)

/-- One context's rows for one KV head: row number, token, member (07 R177). -/
def headRows (e : AttnEntry) (H g h : Nat) : List (Nat × Nat) :=
  (List.range e.nNew).flatMap (fun i => (List.range g).map (fun j => (e.row + (i * H + h) * g + j, i)))

/-- The query of a row as float-path operands. -/
def queryOps (t : Tod) (ea : Nat → Nat) (row : Nat) : List FOp := (List.range t.n).map (fun i => (floatOp t.fmtA (ea (row * t.n + i)) (some 0)).1)

/-- The rows of one context computed, each with the number of its output elements in which R72 applied, head by head; none where a read fails or a tag differs. -/
def ctxRows (c : OpCtx) (o : OpRun) (p : AttnPar) (e : AttnEntry) (H p0 : Nat) (ps : List Int) (fs : List (Nat × FolioDesc)) (span : List Nat) (ea : Nat → Nat) :
    List Nat → State → Option (List (Nat × AttnSt × Nat) × Nat) × State
  | [], s => (some ([], 0), s)
  | h :: t, s =>
    match readTokens c fs H o.tod.n h span s with
    | (none, s1) => (none, failSince c.job s s1)
    | (some toks, s1) =>
      match kvSkew h toks with
      | some k => (none, failWith c.job (evSkew c o k false) s1)
      | none =>
        let rows := (headRows e H p.g h).map (fun r => (r.1, rowState p o.tod.n p0 e.nNew r.2 ps (queryOps o.tod ea r.1) toks))
        match ctxRows c o p e H p0 ps fs span ea t (attnMacs c o 2 rows.length toks.length s1) with
        | (none, s2) => (none, s2)
        | (some l, s2) => (some (rows.map (fun r => (r.1, r.2.1, (r.2.2.hit.filter id).length)) ++ l.1, rows.foldl (fun f r => f ||| r.2.2.fl) l.2), s2)

/-- Whether a launch's chunk range fits a context of `total` positions: a node span of the token tree, or one that runs to the context's end from
a multiple of its own power-of-two size (07 R184; the end is known when the launch runs: DEDUCED, log entry 55). -/
def attnRangeAt (t : Tod) (total : Nat) : Bool :=
  let all := chunks total
  let n := if t.k = 0 then all - t.chunkBase else chunks t.k
  let toEnd := t.k == 0 || decide (total ≤ t.chunkBase * 128 + t.k)
  (t.k != 0 && t.k % 128 == 0 && isNodeSpan t.chunkBase n 8192)
    || (toEnd && (List.range 14).any (fun j => decide (n ≤ 2 ^ j) && t.chunkBase % 2 ^ j == 0))

/-- PROGRAM_INVALID, cause 11, for a launch's descriptor (07 R184; 05 R115, R140). -/
def evRangeInvalid (c : OpCtx) (o : OpRun) : Ev :=
  { c := 2, i := c.q, bit := 8, code := 0x7101, job := c.job, payload := o.desc % 2 ^ 32 + 11 * 2 ^ 32 + 1 * 2 ^ 40 }

/-- One context of a forward launch: range, Folios, new keys and values, rows (07 R178 to R184). -/
def attnEntry (c : OpCtx) (o : OpRun) (p : AttnPar) (e : AttnEntry) (ps : List Int) (ea kb vb : Nat → Nat) (s : State) :
    Option (List (Nat × AttnSt × Nat) × Nat) × State :=
  let d := ctxDesc e.ctx s
  let p0 := (snapOf o e.ctx s).len
  let span := attnSpan o.tod (p0 + e.nNew)
  let fresh := if p.writeKv then (List.range e.nNew).map (fun i => p0 + i) else []
  let blocks := ((span ++ fresh).map (fun x => x / 16)).eraseDups
  if attnRangeAt o.tod (p0 + e.nNew) = false then (none, failWith c.job (evRangeInvalid c o) s)
  else
  match lookUp c e.ctx p.layer d (snapOf o e.ctx s) blocks s with
  | (none, s1) => (none, s1)
  | (some fs, s1) =>
    let cells := if p.writeKv then (List.range e.nNew).flatMap (fun i => (List.range d.heads).map (fun h => (i, h))) else []
    match writeKv c o.tod p e d p0 fs kb vb cells 0 s1 with
    | (none, s2) => (none, failSince c.job s1 s2)
    | (some fl, s2) =>
      match ctxRows c o p e d.heads p0 ps fs span ea (List.range d.heads) s2 with
      | (none, s3) => (none, s3)
      | (some r, s3) => (some (r.1, r.2 ||| fl), s3)

/-- The contexts of a launch in table order. -/
def attnAll (c : OpCtx) (o : OpRun) (p : AttnPar) (es : List AttnEntry) (ps : List Int) (ea kb vb : Nat → Nat) :
    List (Nat × AttnEntry) → State → Option (List (Nat × AttnSt × Nat) × Nat) × State
  | [], s => (some ([], 0), s)
  | e :: t, s =>
    match attnEntry c o p e.2 (entryParents es ps e.1) ea kb vb s with
    | (none, s1) => (none, s1)
    | (some r, s1) =>
      match attnAll c o p es ps ea kb vb t s1 with
      | (none, s2) => (none, s2)
      | (some l, s2) => (some (r.1 ++ l.1, r.2 ||| l.2), s2)

/-- Rows put out at the end of a forward launch, with the number of output elements in which R72 applied (03 R79). An injection makes the first
output element a NaN (05 R140). -/
def attnEnd (c : OpCtx) (o : OpRun) (stats : Option Nat) (rows : List (Nat × AttnSt)) (nf0 fl0 : Nat) (s : State) : State :=
  let inj := takeNanInj c s
  let rows' := match rows with
    | r :: t => if inj.1 then (r.1, { r.2 with o := fp32.canon :: r.2.o.drop 1 }) :: t else rows
    | [] => []
  let fl := if inj.1 then fl0 ||| nsNonfinite else fl0
  let w := putRows c o.tod stats rows' fl inj.2
  if w.1.1.status ≠ 0 then failSince c.job inj.2 w.2
  else
    let nf := if inj.1 then max nf0 1 else nf0
    vectorEnd c o w.1.2 (endEvents c { o with nf := nf, nfInj := inj.1 } w.2)

/-- A launch that combines two partial states (07 R184). -/
def attnCombine (c : OpCtx) (o : OpRun) (stats : Option Nat) : List Nat → List (Nat × AttnSt) → State → State
  | [], acc, s => attnEnd c o stats acc.reverse 0 0 s
  | row :: t, acc, s =>
    let r := readState c o.tod.agpA o.tod.n row s
    if r.1.1.status ≠ 0 then failSince c.job s r.2 else attnCombine c o stats t ((row, r.1.2) :: acc) r.2

/-- A forward launch (07 R177 to R184, R186, R189). -/
def attnFwdRun (c : OpCtx) (o : OpRun) (s : State) : State :=
  let t := o.tod
  let p := AttnPar.read t.tail
  let stats := if p.stats then some p.agpStats else none
  if fmtFloatPath t.fmtA = false ∧ p.combine = false then failWith c.job (evFormatInvalid c o 1) s
  else if p.combine = false ∧ o.ticket = none then s
  else whenHere c o (fun s =>
    if p.combine then attnCombine c o stats (List.range t.m) [] s
    else
    match attnEntries c p s with
    | (none, s1) => failSince c.job s s1
    | (some es, s1) =>
      match attnParents c p es s1 with
      | (none, s2) => failSince c.job s1 s2
      | (some ps, s2) =>
        let ra := readAll c t.agpA t.fmtA s2
        if ra.1.1.status ≠ 0 then failSince c.job s2 ra.2
        else
          let rk := if p.writeKv then readAll c t.agpB t.fmtB ra.2 else ((⟨0, 0⟩, []), ra.2)
          if rk.1.1.status ≠ 0 then failSince c.job ra.2 rk.2
          else
            let rv := if p.writeKv then readAll c p.agpV t.fmtB rk.2 else ((⟨0, 0⟩, []), rk.2)
            if rv.1.1.status ≠ 0 then failSince c.job rk.2 rv.2
            else
              let qa := ra.1.2
              let kb := rk.1.2
              let vb := rv.1.2
              let v := quill c.q rv.2
              match attnAll c o p es ps (fun i => qa.getD i 0) (fun i => kb.getD i 0) (fun i => vb.getD i 0) (mine p v.rank v.count es) rv.2 with
              | (none, s3) => s3
              | (some r, s3) => attnEnd c o stats (r.1.map (fun e => (e.1, e.2.1))) (r.1.foldl (fun n e => n + e.2.2) 0) r.2 s3) s

/-- ATTENTION_FWD (07 R177 to R184, R186, R189). A launch that reads the cache runs once it holds its ticket. -/
def execAttentionFwd (q : Nat) (s : State) : Out :=
  .next (onVector q 4 attnFwdRun s)

/-- What the backward pass recomputes for one row and position: BF16(p) and BF16(dS) as operands, with flags (07 R191). -/
structure BwdCell where
  p : FOp
  ds : FOp
  flags : Nat
  /-- R72 applied in it. -/
  hit : Bool

/-- A row's recomputed values at a position (07 R191). -/
def bwdCell (sigma : Nat) (qv dO : List FOp) (m r delta : Nat) (k v : List FOp) : BwdCell :=
  let z := score sigma qv k
  let e := andThen (f32Sub z.1.1 m) (eltUnary 8)
  let p := join2 f32Mul e (r, 0)
  let dp := floatReduce (dO.zip v) none
  let ds := join2 f32Mul p (f32Sub dp.1.1 delta)
  let pb := toBf16Op p.1
  let db := toBf16Op ds.1
  ⟨pb.1, db.1, z.1.2 ||| p.2 ||| dp.1.2 ||| ds.2 ||| pb.2 ||| db.2, z.2 || dp.2⟩

/-- A cell at a masked position. -/
def BwdCell.masked : BwdCell := ⟨(.fin false 0 0, 0), (.fin false 0 0, 0), 0, false⟩

/-- A row of the backward pass: its number, query and dO operands, and its cells by position. -/
structure BwdRow where
  row : Nat
  qv : List FOp
  dO : List FOp
  cells : List BwdCell

/-- Element d of an operand list. -/
def opAt (l : List FOp) (d : Nat) : FOp := l.getD d (.fin false 0 0, 0)

/-- An element of a gradient: FP32 bits, flags, and whether R72 applied to it. -/
abbrev GradElt := Nat × Nat × Bool

/-- Gradient rows: the row and its elements. -/
abbrev GradRows := List (Nat × List GradElt)

/-- A sum times sigma, where `hit` says that R72 applied in what it sums. -/
def timesSigma (sigma : Nat) (hit : Bool) (r : (Nat × Nat) × Bool) : GradElt := let x := f32Mul sigma r.1.1; (x.1, r.1.2 ||| x.2, hit || r.2)

/-- The gradients of one KV head: dQ by row and element, dK and dV by position and element (07 R191). -/
def headGrads (sigma D : Nat) (toks : List (Nat × HeadVec × HeadVec)) (rows : List BwdRow) : GradRows × GradRows × GradRows :=
  let n := toks.length
  let dq := rows.map (fun r => (r.row, (List.range D).map (fun d =>
    timesSigma sigma (r.cells.any (fun x => x.hit)) (floatReduce ((r.cells.zip toks).map (fun e => (e.1.ds, opAt e.2.2.1.ops d))) none))))
  let cell := fun (r : BwdRow) i => r.cells.getD i BwdCell.masked
  let pos := fun i => (toks.getD i (0, ⟨[], 0, 0⟩, ⟨[], 0, 0⟩)).1
  let hit := fun i => rows.any (fun r => (cell r i).hit)
  let dk := (List.range n).map (fun i => (pos i, (List.range D).map (fun d =>
    timesSigma sigma (hit i) (floatReduce (rows.map (fun r => ((cell r i).ds, opAt r.qv d))) none))))
  let dv := (List.range n).map (fun i => (pos i, (List.range D).map (fun d =>
    let x := floatReduce (rows.map (fun r => ((cell r i).p, opAt r.dO d))) none; (x.1.1, x.1.2, hit i || x.2))))
  (dq, dk, dv)

/-- The gradient elements to which R72 applied. -/
def gradHits (g : GradRows) : Nat := g.foldl (fun n e => n + (e.2.filter (fun x => x.2.2)).length) 0

/-- A gradient row put out: FP32 partials, or converted to fmt_c (07 R191). -/
def writeGrad (c : OpCtx) (t : Tod) (ai row : Nat) (l : List GradElt) (s : State) : (AccRes × Nat) × State :=
  let a := c.agp ai s
  let f := if t.accOut = 1 then 0 else t.fmtC
  let codes := l.map (fun e => let r := convertTo f t.ieee (f32Val e.1); (r.1, e.2.1 ||| (if t.accOut = 1 then 0 else r.2)))
  let w := writeCodes c ai (c.bind a.binding s) f ((List.range codes.length).map (fun i => (c.offset a (row * t.n + i), (codes.getD i (0, 0)).1))) s
  ((w.1, codes.foldl (fun x e => x ||| e.2) 0), w.2)

/-- Gradient rows put out in order. -/
def writeGrads (c : OpCtx) (t : Tod) (ai : Nat) : GradRows → Nat → State → (AccRes × Nat) × State
  | [], fl, s => ((⟨0, 0⟩, fl), s)
  | e :: r, fl, s =>
    let w := writeGrad c t ai e.1 e.2 s
    if w.1.1.status ≠ 0 then ((w.1.1, fl), w.2) else writeGrads c t ai r (fl ||| w.1.2) w.2

/-- The first element of gradient rows made a NaN, as an injection has it (05 R140). -/
def firstNan : GradRows → GradRows
  | (r, _ :: l) :: t => (r, (fp32.canon, nsNonfinite, true) :: l) :: t
  | l => l

/-- The statistics of rows read: m, r, delta (07 R183). -/
def readStats (c : OpCtx) (ai : Nat) : List Nat → State → Option (List (Nat × List Nat)) × State
  | [], s => (some [], s)
  | row :: t, s =>
    let r := readRowWords c ai 4 (rowOffset c (c.agp ai s) row) s
    if r.1.1.status ≠ 0 then (none, r.2)
    else match readStats c ai t r.2 with
      | (some l, s1) => (some ((row, r.1.2) :: l), s1)
      | (none, s1) => (none, s1)

/-- The heads of a backward launch one after another; row (position × H + head) of dK and dV (DEDUCED, log entry 28). The flags come with the
number of gradient elements in which R72 applied. -/
def bwdHeads (c : OpCtx) (o : OpRun) (p : AttnPar) (e : AttnEntry) (H p0 : Nat) (ps : List Int) (fs : List (Nat × FolioDesc)) (span : List Nat) (qa da : Nat → Nat)
    (st : List (Nat × List Nat)) (inj : Bool) : List Nat → Nat × Nat → State → State
  | [], fl, s => vectorEnd c o fl.1 (endEvents c { o with nf := fl.2, nfInj := inj } s)
  | h :: t, fl, s =>
    match readTokens c fs H o.tod.n h span s with
    | (none, s1) => failSince c.job s s1
    | (some toks, s1) =>
      match kvSkew h toks with
      | some k => failWith c.job (evSkew c o k false) s1
      | none =>
        let rows := (headRows e H p.g h).map (fun r =>
          let qv := queryOps o.tod qa r.1
          let dO := (List.range o.tod.n).map (fun i => (floatOp o.tod.fmtB (da (r.1 * o.tod.n + i)) (some 0)).1)
          let x := match st.find? (fun y => y.1 == r.1) with | some y => y.2 | none => []
          ({ row := r.1, qv := qv, dO := dO
             cells := toks.map (fun k => if attends p ps p0 e.nNew r.2 k.1 then
                 bwdCell p.sigma qv dO (x.getD 0 0) (x.getD 1 0) (x.getD 2 0) k.2.1.ops k.2.2.ops else BwdCell.masked) } : BwdRow))
        let gr0 := headGrads p.sigma o.tod.n toks rows
        let hurt := inj && h == 0
        let gr := (if hurt then firstNan gr0.1 else gr0.1, gr0.2)
        let f0 := rows.foldl (fun f r => r.cells.foldl (fun a x => a ||| x.flags) f) (if hurt then fl.1 ||| nsNonfinite else fl.1)
        let nf := fl.2 + gradHits gr.1 + gradHits gr.2.1 + gradHits gr.2.2
        let place := fun (l : GradRows) => l.map (fun x => (x.1 * H + h, x.2))
        let s2 := attnMacs c o 5 rows.length toks.length s1
        let w1 := writeGrads c o.tod o.tod.agpC gr.1 f0 s2
        if w1.1.1.status ≠ 0 then failSince c.job s2 w1.2
        else
          let w2 := writeGrads c o.tod p.agpV (place gr.2.1) w1.1.2 w1.2
          if w2.1.1.status ≠ 0 then failSince c.job w1.2 w2.2
          else
            let w3 := writeGrads c o.tod p.agpTree (place gr.2.2) w2.1.2 w2.2
            if w3.1.1.status ≠ 0 then failSince c.job w2.2 w3.2 else bwdHeads c o p e H p0 ps fs span qa da st inj t (w3.1.2, nf) w3.2

/-- A backward launch (07 R191). -/
def attnBwdRun (c : OpCtx) (o : OpRun) (s : State) : State :=
  let t := o.tod
  let p := AttnPar.read t.tail
  if fmtFloatPath t.fmtA = false then failWith c.job (evFormatInvalid c o 1) s
  else if o.ticket = none then s
  else whenHere c o (fun s =>
    let e : AttnEntry := { ctx := p.where_ % 2 ^ 18, row := 0, nNew := p.n, rank := 0, ok := true }
    let ra := readAll c t.agpA t.fmtA s
    if ra.1.1.status ≠ 0 then failSince c.job s ra.2
    else
      let rd := readAll c t.agpB t.fmtB ra.2
      if rd.1.1.status ≠ 0 then failSince c.job ra.2 rd.2
      else
        match readStats c p.agpStats (List.range t.m) rd.2 with
        | (none, s1) => failSince c.job rd.2 s1
        | (some st, s1) =>
          let d := ctxDesc e.ctx s1
          let p0 := (snapOf o e.ctx s1).len
          let span := attnSpan { t with chunkBase := 0, k := 0 } (p0 + e.nNew)
          match lookUp c e.ctx p.layer d (snapOf o e.ctx s1) ((span.map (fun x => x / 16)).eraseDups) s1 with
          | (none, s2) => s2
          | (some fs, s2) =>
            let qa := ra.1.2
            let da := rd.1.2
            let inj := takeNanInj c s2
            bwdHeads c o p e d.heads p0 [] fs span (fun i => qa.getD i 0) (fun i => da.getD i 0) st inj.1 (List.range d.heads) (0, 0) inj.2) s

/-- ATTENTION_BWD (07 R191). -/
def execAttentionBwd (q : Nat) (s : State) : Out :=
  .next (onVector q 5 attnBwdRun s)

end Sys2Proof.Machine
end

