-- ==== Sys2Proof/Machine/Deliver.lean ====
section
/-! DEFINITION. What the device sends to hosts: PDUs, deliveries of consumer-1 queues and notices (18 R426, R433, R434). -/

namespace Sys2Proof.Machine

/-- HOST_LINK_STATE.state of a port is UP (18). -/
def hostUp (port : Nat) (s : State) : Bool := rdField 14 port 0x40 2 0 s == 2

/-- A protected frame takes a PN; at 0xC000_0000 the port says that PNs run low (18 R423). -/
def takePn (port : Nat) (s : State) : State :=
  if rdField 14 port 0x54 2 2 s = 0 then s
  else
    let pn := (rdReg 14 port 0x58 s).toNat + 1
    let s1 := wrReg 14 port 0x58 (BitVec.ofNat 32 pn) s
    if pn ≠ 0xC0000000 then s1
    else raise { c := 14, i := port, bit := 6, code := 0x8E01, payload := rdField 14 port 0x54 1 0 s + pn * 4 } (wrField 14 port 0x54 8 8 1 s1)

/-- Whether a port may send a frame: its link is up, and PNs are left where a transmit SA is active (18 R423). -/
def maySend (port : Nat) (s : State) : Bool :=
  hostUp port s && !(rdField 14 port 0x54 2 2 s == 1 && rdReg 14 port 0x58 s == 0xFFFFFFFF)

/-- A frame's time on the line: its bytes with header, encapsulation, tag, MACsec, FCS, preamble and gap, at least an Ethernet frame's (18 R418, R422,
R425; the bytes on the wire are Ethernet's: PRESUMED, log entry 16). -/
def frameTime (port : Nat) (p : HostPdu) (s : State) : Nat :=
  let tag := if p.dst.tag = 0 then 0 else 4
  let ip := if p.dst.udp = 0 then 0 else 28
  let sec := if rdField 14 port 0x54 2 2 s = 1 ∧ p.kind ≠ 10 then 32 else 0
  (max 64 (18 + tag + ip + sec + 24 + p.payload.length) + 20) * 24 * 2 ^ (rdField 14 port 0x40 10 8 s - 1) / 10

/-- What waits to leave a port. -/
def lineOf (port : Nat) (s : State) : HostLine := match Tbl.find? s.host.lines port with | some l => l | none => {}

/-- A port's transmit side replaced. -/
def setLine (port : Nat) (l : HostLine) (s : State) : State := { s with host := { s.host with lines := Tbl.put s.host.lines port l } }

/-- A frame leaves: it takes its PN unless it is a gPTP frame, and goes nowhere where no PN is left (18 R422, R423). -/
def leave (port : Nat) (p : HostPdu) (s : State) : State :=
  let go (v : HostPdu) (t : State) : State := { t with host := { t.host with sent := v :: t.host.sent } }
  let sa := if rdField 14 port 0x54 2 2 s = 0 then none else some (rdField 14 port 0x54 1 0 s, (rdReg 14 port 0x58 s).toNat)
  if p.kind = 10 then go p s else if maySend port s then go { p with sec := sa } (takePn port s) else s

/-- The frames whose turn has come by now leave in order, each when the line is free (18 R441). -/
def pumpLine (port : Nat) : Nat → State → State
  | 0, s => s
  | n + 1, s =>
    let l := lineOf port s
    match l.queue with
    | [] => s
    | (_, t, p) :: rest =>
      if s.time.clk < max l.free t then s
      else pumpLine port n (leave port p (setLine port { queue := rest, free := max l.free t + frameTime port p s } s))

/-- A frame takes its place behind every waiting frame of its rank or a more urgent one. -/
def rankIn (r t : Nat) (p : HostPdu) : List (Nat × Nat × HostPdu) → List (Nat × Nat × HostPdu)
  | [] => [(r, t, p)]
  | e :: rest => if r < e.1 then (r, t, p) :: e :: rest else e :: rankIn r t p rest

/-- A PDU formed for a port and an address. While a frame is on the line, others wait by rank: gPTP frames 0, responses to priority commands 1,
deliveries of class 4 and 8 events 2, others 3; within a rank in order of formation (18 R426, R441; DESIGN CHOICE, log entry 16). -/
def sendTo (rank port : Nat) (dst : HostPeer) (kind seq op status orig pcp : Nat) (payload : List Byte) (s : State) : State :=
  if hostUp port s = false then s
  else
    let p : HostPdu := { port := port, dst := dst, kind := kind, session := (rdReg 14 0 0x110 s).toNat, seq := seq, op := op, status := status
                         orig := orig, ack := (rdReg 14 0 0x114 s).toNat, pcp := pcp, payload := payload }
    let s1 := pumpLine port (lineOf port s).queue.length s
    let l := lineOf port s1
    let s2 := setLine port { l with queue := rankIn rank s.time.clk p l.queue } s1
    pumpLine port (lineOf port s2).queue.length s2

/-- Where gPTP frames go: its group address (18 R424; PRESUMED: IEEE 802.1AS, log entry 16). -/
def gptpGroup : HostPeer := { mac := 0x0E0000C28001, ip := 0, udp := 0, tag := 0 }

/-- The PCP of deliveries and notices (18 HOST_DLV_CTRL). -/
def dlvPcp (s : State) : Nat := rdField 14 0 0x128 2 0 s

/-- A PDU sent to the peers of both ports (18 R433). -/
def sendPeers (rank kind seq pcp : Nat) (payload : List Byte) (s : State) : State :=
  s.host.peers.foldl (fun acc (e : Nat × HostPeer) => sendTo rank e.1 e.2 kind seq 0 0 0 pcp payload acc) s

/-- Where a queue's delivery stands: at its read pointer before the first record. -/
def dlvOf (q : Nat) (s : State) : Dlv :=
  match Tbl.find? s.host.dlv q with | some d => d | none => ⟨(qDesc q s).rd, 0, 0⟩

/-- A queue's delivery moved. -/
def setDlv (q : Nat) (v : Dlv) (s : State) : State := { s with host := { s.host with dlv := Tbl.put s.host.dlv q v } }

/-- The number of a record at a packet: its event sequence in queue 0, its packet number elsewhere (18 R433). -/
def recNumber (q : Nat) (d : QDesc) (ptr : Nat) (s : State) : Nat :=
  if q = 0 then rdLe s (d.base + ptr % d.size + 8) 4 else rdLe s (d.base + ptr % d.size + 4) 4

/-- Records delivered one to a PDU while the window has room (18 R433; DESIGN CHOICE, log entry 33). -/
def deliverLoop (q : Nat) : Nat → State → State
  | 0, s => s
  | n + 1, s =>
    let d := qDesc q s
    let v := dlvOf q s
    if v.ptr = d.wr ∨ rdField 14 0 0x128 15 8 s ≤ v.count then s
    else
      let w := rdLe s (d.base + v.ptr % d.size) 4
      let M := 2 * d.size
      if natBit w 31 then deliverLoop q n (setDlv q { v with ptr := (v.ptr + max 8 (w % 2 ^ 24)) % M } s)
      else
        let st := stride (w % 2 ^ 24)
        let pkt := rdBytes s (d.base + v.ptr % d.size) st
        let code := leField pkt 20 2
        let urgent := q = 0 ∧ (code / 0x1000 = 4 ∨ code / 0x1000 = 8)
        let pcp := if urgent then 7 else dlvPcp s
        let s1 := sendPeers (if urgent then 2 else 3) 2 (recNumber q d v.ptr s) pcp (leBytes 4 q ++ leBytes 2 1 ++ leBytes 2 0 ++ pkt) s
        deliverLoop q n (setDlv q { v with ptr := (v.ptr + st) % M, count := v.count + 1
                                           moved := if v.count = 0 then s.time.clk else v.moved } s1)

/-- The records of a consumer-1 queue that may go are delivered (18 R433); nothing goes before a peer is set. -/
def deliverQueue (q : Nat) (s : State) : State :=
  let d := qDesc q s
  if d.consumer ≠ 1 then s else if s.host.peers.isEmpty then setDlv q (dlvOf q s) s else deliverLoop q (d.used / 8 + 1) s

/-- A notice PDU (18 R434). -/
def sendNotice (q : Nat) (s : State) : State := sendPeers 3 3 0 (dlvPcp s) (leBytes 4 q ++ leBytes 4 (qDesc q s).notices) s

end Sys2Proof.Machine
end

