-- ==== Sys2Proof/Machine/RegBase.lean ====
section
/-! DEFINITION. Register accesses: who may reach which page, what refuses them, and a write by field access code (02 R30 to R44). -/

namespace Sys2Proof.Machine

/-- The requester field of an address payload (02 R53). -/
def reqCode : Req → Nat
  | .host => 1 | .scribe => 2 | .checker => 3 | .manager => 4

/-- The block that issued or received a requester's access: class and instance; the host port that the command came by, the ring port that the
manager's packets come by (02 R31; DEDUCED, log entry 29). -/
def reqBlock (r : Req) (s : State) : Nat × Nat :=
  match r with
  | .host => (14, s.host.regPort) | .scribe => (15, 0) | .checker => (12, 0) | .manager => (5, inPort 0 s)

/-- The device that a requester belongs to: the manager has ID 0 (02 R33). -/
def reqDev (s : State) : Req → Nat
  | .manager => 0
  | _ => deviceId s

/-- The class, instance and offset of an address in the register region whose page exists (02 R30). -/
def regPage (addr : Nat) : Option (Nat × Nat × Nat) :=
  if regBase ≤ addr ∧ addr < regBase + 0x1000000 then
    let k := addr - regBase
    let c := k / 0x100000
    let i := k / 0x1000 % 0x100
    if pageExists c i then some (c, i, k % 0x1000) else none
  else none

/-- The address of a register. -/
def regAddr (c i off : Nat) : Nat := regBase + pageKey c i + off

/-- The checker's configuration window is open: SAFE_OUT is deasserted (15 R344). -/
def cfgOpen (s : State) : Bool := !s.sn.safeOut

/-- Debug is unlocked (19 R462). -/
def debugOpen (s : State) : Bool := natBit (rdReg 15 3 0x40 s).toNat 0

/-- TR_SP_WORD0 to TR_SP_WORD7 and TR_SP_COMMIT, which the safety checker alone writes (13 R307). -/
def setpointReg (c i off : Nat) : Bool := c == 10 && i == 0 && decide (0x88 ≤ off ∧ off ≤ 0xA8)

/-- The table of R36, with the limits of R34 on the manager (02). -/
def regAllowed (r : Req) (wr : Bool) (c i off : Nat) (s : State) : Bool :=
  match r with
  | .host => !wr || !((c == 12 && !cfgOpen s) || (c == 15 && (i == 1 || i == 3) && !debugOpen s) || setpointReg c i off)
  | .scribe => !wr || !(c == 12 || (c == 15 && i == 1) || setpointReg c i off)
  | .checker => !wr || c == 12 || c == 10 || (c == 0 && off == 0x6C) || off == 0x18
  | .manager => natBit (rdReg 0 0 0x74 s).toNat 0 && (!wr || !(c == 12 || (c == 15 && i == 1) || (c == 0 && off == 0x74) || setpointReg c i off))

/-- How a register access ended: 0 done, 1 ADDR_UNMAPPED, 2 ACCESS_SIZE, 3 ACCESS_DENIED, 4 DOMAIN_OFF, 5 refused by the register. -/
abbrev RegSt := Nat

/-- ACCESS_SIZE: it has no EVENT_RAW bit, so its record goes out alone (02 R35, R53; DEDUCED, log entry 30). -/
def evAccessSize (c i addr size access : Nat) (r : Req) (s : State) : Ev :=
  { c := c, i := i, bit := 0, code := 0x7002, payload := addrPayload addr access (reqCode r) (reqDev s r) + size % 256 * 2 ^ 64 }

/-- DOMAIN_OFF (02 R39, R53). -/
def evDomainOff (c i addr dom access : Nat) (r : Req) (s : State) : Ev :=
  { c := c, i := i, bit := commonBit c 0x7005, code := 0x7005, payload := addrPayload addr access (reqCode r) (reqDev s r) + dom * 2 ^ 64 }

/-- The access rules at offset `off` of a register page: size and alignment, requester, power; of an access that several of them refuse the first in
this order tells, after that of an unmapped address (02 R31, R34 to R36, R39; DESIGN CHOICE, log entry 57). -/
def regCheckAt (r : Req) (wr : Bool) (c i off size : Nat) (s : State) : RegSt × State :=
  let k := if wr then 2 else 1
  if size ≠ 4 ∨ off % 4 ≠ 0 then (2, storeEvent (evAccessSize c i (regAddr c i off) size k r s) s)
  else if regAllowed r wr c i off s = false then (3, raise (evDenied c i (regAddr c i off) k (reqCode r) (reqDev s r) 0xFFFF 0) s)
  else if wr = true ∧ blockPowered c i s = false then (4, raise (evDomainOff c i (regAddr c i off) (blockDomain c i) k r s) s)
  else (0, s)

/-- An access to an address no register page has (02 R30). -/
def regUnmapped (r : Req) (wr : Bool) (addr : Nat) (s : State) : RegSt × State :=
  (1, raise (evUnmapped (reqBlock r s).1 (reqBlock r s).2 addr (if wr then 2 else 1) (reqCode r) (reqDev s r) 0xFFFF 0) s)

/-- The access rules at an address. -/
def regCheck (r : Req) (wr : Bool) (addr size : Nat) (s : State) : RegSt × State :=
  match regPage addr with
  | none => regUnmapped r wr addr s
  | some (c, i, off) => regCheckAt r wr c i off size s

/-- The access rules for a word access to a register named by its page. -/
def regAt (r : Req) (wr : Bool) (c i off : Nat) (s : State) : RegSt × State :=
  if pageExists c i then regCheckAt r wr c i off 4 s else regUnmapped r wr (regAddr c i off) s

/-- A register write that passes the checks takes an effect, which answers its own status (02 R35 to R39). -/
def regWriteAt (r : Req) (c i off : Nat) (f : State → RegSt × State) (s : State) : RegSt × State :=
  let k := regAt r true c i off s
  if k.1 ≠ 0 then k else f k.2

/-- The state after such a write. -/
def onReg (r : Req) (c i off : Nat) (f : State → State) (s : State) : State := (regWriteAt r c i off (fun t => (0, f t)) s).2

/-- The RW and W1C bits of the register at an offset; none where no register stands (02 R37). -/
def regMasks (c i off : Nat) : Word × Word :=
  match regRow c i off with
  | some r => (BitVec.ofNat 32 r.rw, BitVec.ofNat 32 r.w1c)
  | none => (0, 0)

/-- A write by field access code: RW bits take the value, W1C bits written 1 clear, the others stay (02 R37). -/
def plainWrite (c i off : Nat) (v : Word) (s : State) : State :=
  let m := regMasks c i off
  let old := rdReg c i off s
  wrReg c i off (((old &&& ~~~m.1) ||| (v &&& m.1)) &&& ~~~(v &&& m.2)) s

/-- The event mask's writable bits: those below event_count but for sources of class 4 or 8 (02 BLOCK_CAPS, EVENT_MASK; DEDUCED, log entry 19). -/
def maskBits (c i : Nat) : Word :=
  (List.range 32).foldl (fun m b => match evRow c i b with
    | some e => if e.code / 0x1000 = 4 ∨ e.code / 0x1000 = 8 then m else m ||| BitVec.ofNat 32 (2 ^ b)
    | none => if b < eventCount c i then m ||| BitVec.ofNat 32 (2 ^ b) else m) 0

/-- EVENT_MASK written (02 EVENT_MASK). -/
def wrMask (c i : Nat) (v : Word) (s : State) : State := wrReg c i 0x14 (v &&& maskBits c i) s

/-- Whether an admitted job holds a block (02 R44, STATUS.owned): a Quill of its own; an Inkwell or scratchpad with a Quill of its. -/
def blockOwned (c i : Nat) (s : State) : Bool :=
  match c with
  | 1 => s.jobs.any (fun j => j.holds && j.inkwells.contains i)
  | 2 => s.jobs.any (fun j => j.holds && j.quills.contains i)
  | 3 => s.jobs.any (fun j => j.holds && j.inkwells.contains i)
  | _ => false

/-- Whether R44 refuses a write that sets soft_reset or clears enable (02). -/
def resetRefused (r : Req) (c i : Nat) (s : State) : Bool :=
  blockOwned c i s || (c == 12 && r != .checker) || c == 0

/-- RESET_REFUSED (02 R44, R53). -/
def evResetRefused (c i : Nat) (v : Word) (r : Req) (s : State) : Ev :=
  { c := c, i := i, bit := commonBit c 0x7003, code := 0x7003
    payload := addrPayload (regAddr c i 8) 2 (reqCode r) (reqDev s r) + v.toNat % 4 * 2 ^ 64 }

/-- INJECT_REFUSED (02 R47, R53, R55). A refused GLB_INJECT_CTRL or RP_TEST write has no EVENT_INJECT fields: the payload takes the same bits of the
word written (DESIGN CHOICE, log entry 57). -/
def evInjectRefused (c i off : Nat) (v : Word) (r : Req) (s : State) : Ev :=
  { c := c, i := i, bit := commonBit c 0x7004, code := 0x7004
    payload := addrPayload (regAddr c i off) 2 (reqCode r) (reqDev s r) + v.field 31 16 * 2 ^ 64 + v.field 5 5 * 2 ^ 80 + v.field 4 0 * 2 ^ 81 }

/-- Whether an injection is accepted (02 R47). -/
def injectOk (r : Req) (c i : Nat) (v : Word) (s : State) : Bool :=
  decide (v.field 31 16 = 0x1A7E ∧ v.field 4 0 < eventCount c i) && (evRow c i (v.field 4 0)).isSome
    && (v.field 5 5 == 0 || natBit (rdReg 0 0 0x6C s).toNat 0 || r == .checker)

/-- GLB_INJECT_CTRL written: the host and Scribe may set fault_allow only while SAFE_OUT is deasserted (02 R55). The manager, which R55 does not name, is
refused as the host is (DESIGN CHOICE, log entry 57). -/
def wrInjectCtrl (r : Req) (v : Word) (s : State) : RegSt × State :=
  if natBit v.toNat 0 = true ∧ s.sn.safeOut = true ∧ r ≠ .checker then (5, raise (evInjectRefused 0 0 0x6C v r s) s)
  else (0, wrReg 0 0 0x6C (v &&& 1) { s with sn := { s.sn with allowSet := natBit v.toNat 0 && r == .checker } })

end Sys2Proof.Machine
end

