-- ==== Sys2Proof/Machine/Queue.lean ====
section
/-! DEFINITION. The queue engine's commands: packets complete or abandoned, descriptor fetches, staged records, and the register
commands on queues (11 R252 to R264). -/

namespace Sys2Proof.Machine

/-- One notice of a queue (11 R258). -/
def notice (q : Nat) (s : State) : State :=
  let d := qDesc q s
  let s1 := addCtr 6 0 0xAC 1 (qPut q { d with notices := (d.notices + 1) % 2 ^ 32 } s)
  let s2 := match s1.qe.popWait.find? (fun w => w.1 == q) with
    | some w => { s1 with qe := { s1.qe with popWait := s1.qe.popWait.erase w } }
    | none => s1
  match d.noticeMode with
  | 1 => sendNotice q s2
  | 2 => if takesSignal d.sigJob d.sigRank s2 then signalJob d.sigJob d.sigRank d.sigSem 1 true s2
         else raise (evQueueRefused q 18 d.sigJob) s2
  | _ => s2

/-- wr_ptr moved over the complete packets at the front of a queue, each record raising a notice (11 R256). -/
def advanceWr (q : Nat) : Nat → State → State
  | 0, s => s
  | n + 1, s =>
    match s.qe.pkts.find? (fun p => p.q == q) with
    | none => s
    | some p =>
      if p.complete = false then s
      else
        let d := qDesc q s
        let s1 := qPut q { d with wr := (p.ptr + p.stride) % (2 * d.size) } { s with qe := { s.qe with pkts := s.qe.pkts.erase p } }
        let s2 := if d.consumer = 4 ∧ p.pad = false then { s1 with qe := { s1.qe with srcs := s1.qe.srcs ++ [⟨q, p.ptr, p.job, p.dev⟩] } } else s1
        advanceWr q n (if p.pad then s2 else notice q s2)

/-- A queue's visible records moved on, and delivered where its consumer is the host (11 R256, R258). -/
def settle (q : Nat) (s : State) : State := deliverQueue q (advanceWr q (s.qe.pkts.length + 1) s)

/-- A reserved packet made a pad packet, and wr_ptr moved on (11 R257): reason 0 limit, 1 kill, 2 cancel, 3 fence. -/
def abandonPkt (p : Pkt) (reason : Nat) (inj : Bool) (s : State) : State := settle p.q (padPacket p reason inj s)

/-- A packet of a queue by its number, not yet complete. -/
def openPkt (q num : Nat) (s : State) : Option Pkt := s.qe.pkts.find? (fun p => p.q == q && p.num == num && !p.complete)

/-- PACKET_COMPLETE: the length word is written after every record byte, wr_ptr advances and notices are raised; a packet that an injection marked is
abandoned (11 R254 to R258, R271). -/
def execPacketComplete (q num : Nat) (s : State) : Out :=
  .next (
    match openPkt q num s with
    | none => s
    | some p =>
      if memUp s = false then s
      else if p.doomed then abandonPkt p 0 true s
      else
        let s1 := qdUse q s
        let d := qDesc q s1
        let at_ := d.base + p.ptr % d.size
        let whole := (blocksOf at_ p.stride).filter (fun b => !(partBlocks at_ p.stride).contains b)
        let s2 := whole.foldl (fun acc b => mcWriteBlock b acc) (wrBytes at_ (leBytes 4 (p.len + p.rtype * 2 ^ 24)) s1)
        settle q (setPkt p { p with complete := true } s2))

/-- Why a reserved packet may be abandoned now: its producer's device is fenced, or its time ran out; what a kill, a cancelled DMA or this device's own
fence abandons has become a pad already (11 R257). A device of another ID counts when its fence notice has come (17 R413; DEDUCED, log entry 47). -/
def abandonReason (p : Pkt) (s : State) : Option Nat :=
  if p.dev ≠ deviceId s ∧ (Tbl.get {} s.ring.peers p.dev).fenced = true then some 3
  else if (rdReg 6 0 0x94 s).toNat ≠ 0 then some 0
  else none

/-- PACKET_ABANDON: a reserved packet is turned into a pad, at once or at its limit; wr_ptr moves over pads that a kill left (11 R257). -/
def execPacketAbandon (q num : Nat) (s : State) : Out :=
  .next (
    match openPkt q num s with
    | none => if s.qe.pkts.any (fun p => p.q == q && p.complete) then settle q s else s
    | some p =>
      if memUp s = false then s
      else match abandonReason p s with
        | none => s
        | some 0 => abandonPkt p 0 false (advanceTo (p.born + (rdReg 6 0 0x94 s).toNat * oneUs) s)
        | some r => abandonPkt p r false s)

/-- DESCRIPTOR_FETCH: a descriptor comes into the cache, a victim is written back; `u` is an error of the cache's memory (11 R253, R271). -/
def execDescriptorFetch (q : Nat) (u : Upset) (s : State) : Out :=
  .next (
    if qeBase s = 0 ∨ 2 ^ 20 ≤ q ∨ memUp s = false then s
    else
      let s1 := qdUse q s
      match u with
      | .none => s1
      | .single _ _ => qdEvent 5 0x1600 q false s1
      | .double _ => qdBroken q false s1)

/-- Whether a queue admits a staged record now (11 R261, R262; 02 R51 for the device event queue). -/
def qAdmits (r : Staged) (s : State) : Bool :=
  let d := qDesc r.q s
  let n := r.bytes.length
  d.enabled && decide (1 ≤ n ∧ n ≤ d.recordSize) && (!d.fixed || n == d.recordSize) && memUp s
    && (if r.rtype = 3 ∧ r.prio = false then decide (65 ≤ eventSlots s) && d.fits n (d.keep false) else d.fits n (d.keep r.prio))

/-- A staged event record numbered as it leaves the buffer (02 R50; DEDUCED, log entry 10). -/
def stagedBytesOut (r : Staged) (s : State) : List Byte × State :=
  if r.rtype = 3 then (leBytes 4 s.ev.next.toNat ++ r.bytes.drop 4, takeSeq (byteAt r.bytes 15) (byteAt r.bytes 14) s) else (r.bytes, s)

/-- A held job's record has been written: the job's ID stays in use until the record has been read (11 R268). -/
def heldWritten (q : Nat) (r : Staged) (s : State) : State :=
  match s.qe.pkts.getLast? with
  | some p => { s with jobs := s.jobs.map (fun j => if j.d.id = r.job ∧ j.phase = .held ∧ j.heldAt = none then { j with heldAt := some (q, p.ptr) } else j) }
  | none => s

/-- STAGED_RECORD_RELEASE: the oldest staged record of a queue goes to it. An event record of the device event queue goes the way that it would
have gone at once (02 R50, R51; 11 R262, R268). -/
def execStagedRecordRelease (q : Nat) (s : State) : Out :=
  .next (
    match s.qe.staging.find? (fun r => r.q == q) with
    | none => s
    | some r =>
      if r.rtype = 3 ∧ q = eventQueue s then
        (if (qDesc q s).enabled = false ∨ memUp s = false then s
         else stagingCheck (placeEvent r.prio r.bytes { s with qe := { s.qe with staging := s.qe.staging.erase r } }))
      else if qAdmits r s = false then s
      else
        let b := stagedBytesOut r { s with qe := { s.qe with staging := s.qe.staging.erase r } }
        let s1 := stagingCheck (reserve q r.rtype r.job (deviceId s) b.1 b.2)
        if r.compl then heldWritten q r s1 else s1)

/-- Pinned entries of the cache (11 R253). -/
def pinnedCount (s : State) : Nat := (s.qe.cache.filter (fun e => e.2.pinned)).length

/-- Whether a staged descriptor keeps R252, R253 and R266 for a queue (11 R263). -/
def descOk (q : Nat) (b : List Byte) (s : State) : Bool :=
  let d := QDesc.read b
  decide (byteAt b 6 / 32 = 0 ∧ byteAt b 7 / 128 = 0 ∧ byteAt b 11 = 0 ∧ byteAt b 43 / 128 = 0) && (b.drop 48).all (fun x => x == 0)
    && decide (12 ≤ d.sizeLog2 ∧ d.sizeLog2 ≤ 31 ∧ d.base % d.size = 0 ∧ d.base + d.size ≤ lpddrTop s)
    && decide (1 ≤ d.recordSize ∧ d.recordSize ≤ 65536 ∧ 2 * d.recordSize ≤ d.size ∧ d.consumer ≤ 4 ∧ d.noticeMode ≤ 2)
    && decide (d.reserve * stride d.recordSize ≤ d.size)
    && (!d.pinned || (qDesc q s).pinned || decide (pinnedCount s < 2048))
    && (d.consumer != 3 || s.qe.adm.contains q || decide (s.qe.adm.length < 256))

/-- QE_CONFIG_REFUSED: QUEUE_REFUSED with cause 19 (11 R271). -/
def configRefused (q : Nat) (s : State) : State := raise (evQueueRefused q 19 0xFFFF) s

/-- The open packets of a queue that is configured anew abandoned: the pointers that they stand at go (11 R257, R263; DESIGN CHOICE, log entry 47). -/
def abandonOpen (q : Nat) (s : State) : State :=
  settle q ((s.qe.pkts.filter (fun p => p.q == q && !p.complete)).foldl (fun acc p => padPacket p 0 false acc) s)

/-- A queue configured from the staged words, its pointers and counts 0 (11 R263). -/
def queueConfigure (q : Nat) (s : State) : State :=
  let b := stagedBytes6 s
  if qeBase s = 0 ∨ (qDesc q s).enabled = true ∨ descOk q b s = false then configRefused q s
  else
    let d := { QDesc.read b with wr := 0, rd := 0, res := 0, notices := 0, packets := 0, dropped := 0 }
    let s1 := qPut q d (forgetQueue q (abandonOpen q s))
    { s1 with
      qe := { s1.qe with adm := (if d.consumer = 3 then q :: s1.qe.adm.filter (fun x => x != q) else s1.qe.adm.filter (fun x => x != q)) }
      host := { s1.host with dlv := Tbl.erase s1.host.dlv q } }
where
  /-- The staged descriptor words (11 QE_Q_DATA). -/
  stagedBytes6 (s : State) : List Byte := (List.range 16).flatMap (fun k => leBytes 4 (rdReg 6 0 (0x4C + 4 * k) s).toNat)

/-- A queue enabled (11 QE_Q_CMD). -/
def queueEnable (q : Nat) (s : State) : State :=
  if qeBase s = 0 then configRefused q s else deliverQueue q (qPut q { qDesc q s with enabled := true } s)

/-- A Quill blocked on a queue that is disabled: its QPUSH or QPOP ends with status 5 (11 R263, R264). -/
def wakeDisabled (q w : Nat) (s : State) : State :=
  let v := quill w s
  match quillFetch w s, findJob v.job s with
  | some (.qpush true sc _ _), some j | some (.qpop true sc _ _), some j =>
    if v.st ≠ .waiting ∨ j.live = false then s
    else
      let r := raiseSeq (evQueueRefused q 5 v.job) s
      queueEnd w j sc 5 0 r.1 r.2
  | _, _ => s

/-- A queue disabled: the Quills blocked on it wake with status 5 (11 R263). -/
def queueDisable (q : Nat) (s : State) : State :=
  if qeBase s = 0 then configRefused q s
  else
    let ws := ((s.qe.popWait ++ s.qe.pushWait).filter (fun w => w.1 == q)).map (fun w => w.2)
    let s1 := qPut q { qDesc q s with enabled := false } s
    ws.foldl (fun acc w => wakeDisabled q w acc)
      { s1 with qe := { s1.qe with popWait := s1.qe.popWait.filter (fun w => w.1 != q), pushWait := s1.qe.pushWait.filter (fun w => w.1 != q) } }

/-- A descriptor pinned, up to 2,048 of them (11 R253). -/
def queuePin (q : Nat) (s : State) : State :=
  if qeBase s = 0 ∨ ((qDesc q s).pinned = false ∧ 2048 ≤ pinnedCount s) then configRefused q s else qPut q { qDesc q s with pinned := true } s

/-- A descriptor unpinned (11 R253). -/
def queueUnpin (q : Nat) (s : State) : State := if qeBase s = 0 then configRefused q s else qPut q { qDesc q s with pinned := false } s

/-- QE_Q_CMD written (11). -/
def wrQCmd (v : Word) (s : State) : State :=
  let q := rdField 6 0 0x48 19 0 s
  match v.field 2 0 with
  | 1 => queueConfigure q (qdUse q s)
  | 2 => queueEnable q (qdUse q s)
  | 3 => queueDisable q (qdUse q s)
  | 4 => queuePin q (qdUse q s)
  | 5 => queueUnpin q (qdUse q s)
  | _ => s

/-- QUEUE_CONFIGURE (11 R263). -/
def execQueueConfigure (r : Req) (s : State) : Out := .next (onReg r 6 0 0x8C (wrQCmd 1) s)

/-- QUEUE_ENABLE (11 R252). -/
def execQueueEnable (r : Req) (s : State) : Out := .next (onReg r 6 0 0x8C (wrQCmd 2) s)

/-- QUEUE_DISABLE (11 R263). -/
def execQueueDisable (r : Req) (s : State) : Out := .next (onReg r 6 0 0x8C (wrQCmd 3) s)

/-- QUEUE_PIN (11 R253). -/
def execQueuePin (r : Req) (s : State) : Out := .next (onReg r 6 0 0x8C (wrQCmd 4) s)

/-- QUEUE_UNPIN (11 R253). -/
def execQueueUnpin (r : Req) (s : State) : Out := .next (onReg r 6 0 0x8C (wrQCmd 5) s)

/-- QE_Q_RDPTR written: a consumer-2 queue's read pointer moves forward, never past wr_ptr (11 R260). -/
def wrRdptr (v : Word) (s0 : State) : State :=
  let q := rdField 6 0 0x48 19 0 s0
  let s := qdUse q s0
  let d := qDesc q s
  let n := v.toNat
  if qeBase s = 0 ∨ d.consumer ≠ 2 ∨ 2 * d.size ≤ n ∨ d.used < d.dist n d.rd then raise (evQueueRefused q 17 0xFFFF) s
  else advanceRd q n s

/-- RDPTR_WRITE (11 R260). -/
def execRdptrWrite (r : Req) (v : Nat) (s : State) : Out := .next (onReg r 6 0 0x90 (wrRdptr (BitVec.ofNat 32 v)) s)

/-- Whether the engine refuses a write of QE_Q_CMD or QE_Q_RDPTR (11 R253, R260, R263). -/
def queueRefuses (off : Nat) (v : Word) (s : State) : Bool :=
  let q := rdField 6 0 0x48 19 0 s
  let t := qdUse q s
  let d := qDesc q t
  if off = 0x8C then
    (match v.field 2 0 with
      | 1 => decide (qeBase t = 0) || d.enabled || !descOk q (queueConfigure.stagedBytes6 t) t
      | 2 | 3 | 5 => decide (qeBase t = 0)
      | 4 => decide (qeBase t = 0 ∨ (d.pinned = false ∧ 2048 ≤ pinnedCount t))
      | _ => false)
  else if off = 0x90 then decide (qeBase t = 0 ∨ d.consumer ≠ 2 ∨ 2 * d.size ≤ v.toNat ∨ d.used < d.dist v.toNat d.rd)
  else false

/-- QE_DESC_BASE written, only while the engine is disabled (11). -/
def wrDescBase (off : Nat) (v : Word) (s : State) : State := if blockEnabled 6 0 s then s else plainWrite 6 0 off v s

end Sys2Proof.Machine
end

