-- ==== Sys2Proof/Machine/Trip.lean ====
section
/-! DEFINITION. What takes permission away: trips of SAFE_OUT and the stop conditions (13 R313; 14 R334; 15 R342; 18 R438). -/

namespace Sys2Proof.Machine

/-- A trip: its bit latches, SAFE_OUT drops, and a bit not set before raises SN_TRIP (15 R342, R363). -/
def trip (bit slot : Nat) (s : State) : State :=
  let s1 := tripBits bit slot s
  if natBit (rdReg 12 0 0x48 s).toNat bit then s1 else raise (evTrip (2 ^ bit) (if bit = 0 then slot else 0)) s1

/-- A CAN controller's stop bit is latched (14 CAN_STOP.latched). -/
def canStopped (s : State) : Bool := (List.range 8).any (fun c => natBit (rdReg 11 c 0x94 s).toNat 17)

/-- A stop holds: STOP_N, a stop frame latched on any controller, a host stop latched (13 R313; 14 R335; 18 R438). -/
def deviceStop (s : State) : Bool := s.tio.stopN || canStopped s || natBit (rdReg 14 0 0x120 s).toNat 1

/-- PWM channels may drive their compares (13 R313). -/
def permitted (s : State) : Bool := s.sn.safeOut && !deviceStop s

/-- hold_fill clears itself as debug locks, and the held fills start (09 R229, SPAD_DEBUG). -/
def dropHolds (s : State) : State :=
  (List.range 48).foldl (fun acc n =>
    if natBit (rdReg 3 n 0x94 acc).toNat 0 then
      let p := spad n acc
      wrReg 3 n 0x94 0 (setSpad n { p with pendShares := p.pendShares ++ p.heldShares, heldShares := [], pendUnits := p.pendUnits ++ p.heldUnits, heldUnits := [] } acc)
    else acc) s

/-- Debug locks again, if it was unlocked: 0 by command, 1 at the end of its duration, 2 because SAFE_OUT is asserted (19 R462, R467). -/
def debugLock (cause : Nat) (s : State) : State :=
  if natBit (rdReg 15 3 0x40 s).toNat 0 then
    raise { c := 15, i := 1, bit := 7, code := 0x8F02, payload := cause } (wrReg 15 3 0x40 0 (dropHolds s))
  else s

end Sys2Proof.Machine
end

