-- ==== Sys2Proof/Machine/RingOps.lean ====
section
/-! DEFINITION. The ring's shared operations and register writes: links, routes, enumeration, the fence (17 R391 to R416). -/

namespace Sys2Proof.Machine

/-- One second in thirds of a ns. -/
def oneS : Nat := 1000000 * oneUs

/-- The die identity of the Colophon (19 R457). -/
def dieId (s : State) : Nat := leField s.sec.colophon 12 7

/-- The other end of a link: device and port. -/
def linkPeer (p : Nat) (s : State) : Nat × Nat := (rdField 5 p 0x40 31 24 s, rdField 5 p 0x40 23 21 s)

/-- Both ends of a link, as the route table names them. -/
def linkEnds (s : State) (dev p : Nat) : List (Nat × Nat) := [(dev, p), (neighbour s dev (p / 2) (p % 2 == 0), if p % 2 = 0 then p + 1 else p - 1)]

/-- A link marked down or up in the route table (17 R404). -/
def markLink (dev p : Nat) (down : Bool) (s : State) : State :=
  let e := linkEnds s dev p
  let rest := s.ring.down.filter (fun x => !e.contains x)
  { s with ring := { s.ring with down := if down then rest ++ e.eraseDups else rest } }

/-- The devices that the manager knows, but itself. -/
def others (s : State) : List Nat := (List.range 256).filter (fun k => k != deviceId s && (Tbl.get ({} : Peer) s.ring.peers k).present)

/-- Whether this device is the manager of an enumerated torus (17 R398, R409). -/
def isManager (s : State) : Bool := natBit (rdReg 0 0 0x40 s).toNat 9 && enumerated s

/-- A route change told to every device by the manager (17 R404). -/
def tellRoutes (dev p : Nat) (down : Bool) (s : State) : State :=
  if isManager s then (others s).foldl (fun acc k => sendPkt 14 k [dev, p, b2n down] acc) (markLink dev p down s) else s

/-- LINK_DOWN: both ends stop sending and discard their replay buffers (17 R404, R417). `st` is the state the port goes to. -/
def linkDown (p st : Nat) (s : State) : State :=
  let l := linkState p s
  let s1 := wrField 5 p 0x40 2 0 st (wrField 5 p 0x40 14 10 0 (wrField 5 p 0x44 2 2 0 s))
  let s2 := setPort p { port p s1 with replay := [], waiting := [], swap := none, nak := false, nakCount := 0 } s1
  if l ≠ 2 ∧ l ≠ 3 then s2
  else
    let e := linkPeer p s
    tellRoutes (deviceId s2) p true (raise { c := 5, i := p, bit := 9, code := 0x5902, payload := e.1 + e.2 * 2 ^ 8 } s2)

/-- A retrain begins: 0 naks, 1 a replay error, 2 a command; the third within a second takes the link down (17 R403, R417). -/
def linkRetrain (p cause : Nat) (inj : Bool) (s : State) : State :=
  if linkState p s ≠ 2 then s
  else
    let v := port p s
    let l := (v.retrains.filter (fun t => decide (s.time.clk < t + oneS))) ++ [s.time.clk]
    let s1 := wrField 5 p 0x44 2 2 1 (wrField 5 p 0x40 2 0 3 (bump 5 p 0x58 1 (setPort p { v with retrains := l, nakCount := 0 } s)))
    let s2 := raise { c := 5, i := p, bit := 8, code := 0x5901, payload := cause + injFlag inj } s1
    if 3 ≤ l.length then linkDown p 0 s2 else s2

/-- The flits of the replay buffer resent: counted, and for the job of each (17 R403; 06 R153). -/
def replayAll (p : Nat) (inj : Bool) (s : State) : State :=
  let l := (port p s).replay
  if l.isEmpty then s
  else
    let s1 := addCtr 5 p 0x5C l.length (bump 5 p 0x54 l.length s)
    let s2 := l.foldl (fun acc f => updJob f.job (fun j => { j with retryFlits := min (j.retryFlits + 1) 0xFFFFFFFF }) acc) s1
    raiseCount (0x500000 + p) oneMs l.length { c := 5, i := p, bit := 7, code := 0x5900, payload := injFlag inj } s2

/-- Flits up to an acknowledged sequence number leave the replay buffer (17 R402). -/
def ackTo (p ack : Nat) (s : State) : State :=
  let v := port p s
  match v.replay.findIdx? (fun f => f.seq == ack) with
  | some k => setPort p { v with replay := v.replay.drop (k + 1), nakCount := 0 } s
  | none => s

/-- Whether L4 carries a lane (17 RP_LINK_STATE.spare_in_use). -/
def spareUsed (p : Nat) (s : State) : Bool := natBit (rdReg 5 p 0x40 s).toNat 18

/-- A lane switched to L4: shown, reported, and the lane map saved (17 R393, R417). -/
def switchLane (p lane : Nat) (lock inj : Bool) (s : State) : State :=
  let s1 := wrField 5 p 0x40 18 18 1 (wrField 5 p 0x40 17 15 lane (if lock then wrField 5 p 0x40 (10 + lane) (10 + lane) 0 s else s))
  let s2 := setPort p { port p s1 with swap := none, shadow := lane } s1
  let s3 := raise { c := 5, i := p, bit := 6, code := 0x1901, ctx := lane, payload := lane + 8 * b2n lock + injFlag inj } s2
  askSetting 4 (.lanes p (rdField 5 p 0x40 18 10 s3)) s3

/-- A lane fault: with the spare in use the link goes down; a lane out of lock switches at once; one over the threshold is shadowed, and a
lane-swap flit agrees the boundary (17 R393). -/
def laneFault (p lane : Nat) (lock inj : Bool) (s : State) : State :=
  if spareUsed p s then linkDown p 0 s
  else if lock then switchLane p lane true inj s
  else pushFlits p 7 0xFFFF 1 (setPort p { port p s with swap := some lane, shadow := lane } s)

/-- RP_LINK_CTRL written: a retrain asked for, a mode changed (17 R403, R416). -/
def wrLinkCtrl (p : Nat) (v : Word) (s : State) : State :=
  let old := rdField 5 p 0x44 1 0 s
  let mode := v.field 1 0
  let s1 := wrField 5 p 0x44 1 0 mode s
  let s2 := if mode = old then s1
    else if mode = 1 then linkDown p 4 s1
    else if mode = 0 then linkDown p 1 s1
    else linkDown p 5 s1
  if natBit v.toNat 2 then linkRetrain p 2 false s2 else s2

/-- RP_TEST written: a fault provoked on the transmitter, while fault-mode injection is permitted (17 R416, RP_TEST; 02 R47). -/
def wrRpTest (r : Req) (p : Nat) (v : Word) (s : State) : RegSt × State :=
  if v.field 31 16 ≠ 0x0F1A ∨ v.field 9 8 = 0 then (0, s)
  else if natBit (rdReg 0 0 0x6C s).toNat 0 = false ∧ r ≠ .checker then (5, raise (evInjectRefused 5 p 0x84 v r s) s)
  else
    let n := if v.field 7 0 = 0 then 1 else v.field 7 0
    let k := port p s
    (0, setPort p (match v.field 9 8 with
      | 1 => { k with drop := n }
      | 2 => { k with corrupt := n }
      | _ => { k with reorder := 2 }) s)

/-- RP_DET_JOB and RP_DET_MASK written to the entry that RP_DET_SEL names (17 R401). -/
def wrDet (p off : Nat) (v : Word) (s : State) : State :=
  let k := port p s
  let n := rdField 5 p 0x74 3 0 s
  let d := Tbl.get ({} : DetEntry) k.det n
  let d1 := match off with
    | 0x78 => { d with valid := natBit v.toNat 31, origin := v.field 23 16, job := v.field 15 0 }
    | 0x7C => { d with mask := d.mask / 2 ^ 32 * 2 ^ 32 + v.toNat }
    | _ => { d with mask := d.mask % 2 ^ 32 + v.toNat * 2 ^ 32 }
  setPort p { k with det := Tbl.set {} k.det n d1 } s

/-- The selected entry as RP_DET_JOB and RP_DET_MASK read (17 R401). -/
def detRead (p off : Nat) (s : State) : Word :=
  let d := Tbl.get ({} : DetEntry) (port p s).det (rdField 5 p 0x74 3 0 s)
  match off with
  | 0x78 => BitVec.ofNat 32 (b2n d.valid * 2 ^ 31 + d.origin * 2 ^ 16 + d.job)
  | 0x7C => BitVec.ofNat 32 d.mask
  | _ => BitVec.ofNat 32 (d.mask / 2 ^ 32)

/-- RING_REQ_TIMEOUT written: 10 to 1,000,000 µs, other values ignored (17 RING_REQ_TIMEOUT). -/
def wrReqLimit (v : Word) (s : State) : State := if 10 ≤ v.toNat ∧ v.toNat ≤ 1000000 then wrReg 5 0 0x114 v s else s

/-- RING_FENCE_CMD written: the own ID fences this device, another one from the manager only (17 R412, RING_FENCE_CMD). -/
def wrFenceCmd (r : Req) (v : Word) (s : State) : RegSt × State :=
  let d := v.field 15 8
  if v.field 31 16 ≠ 0xFE0C ∨ natBit v.toNat 0 = false then (0, s)
  else if d = deviceId s then (0, fenceFor 5 s)
  else if isManager s then (0, sendPkt 13 d [6] s)
  else (3, raise (evDenied 5 0 (regAddr 5 0 0x11C) 2 (reqCode r) (reqDev s r) 0xFFFF 0) s)

/-- RING_PEER_STATE of the selected device: unreachable is live from the route table (17 RING_PEER_STATE). -/
def peerState (s : State) : Word :=
  let k := rdField 5 0 0x120 7 0 s
  let v := Tbl.get ({} : Peer) s.ring.peers k
  let lost := v.present && wayDown s (route s (deviceId s) k)
  BitVec.ofNat 32 (b2n v.present + 2 * b2n v.fenced + 4 * b2n lost + 16 * v.reason)

/-- RING_DOWN_LINKS: every link is marked at both ends, one of them a positive port (17 RING_DOWN_LINKS). -/
def downLinks (s : State) : Nat := (s.ring.down.filter (fun e => e.2 % 2 == 0)).length

/-- ENUM_REFUSED (17 R408, R410, R417). -/
def enumRefused (cause die : Nat) (s : State) : State :=
  raise { c := 5, i := 0, bit := 13, code := 0x7900, payload := cause + die * 2 ^ 8 } { s with ring := { s.ring with enumOn := false, found := [] } }

/-- A device as it answers DISCOVER: identity, manager strap, and for each port whether it is up, the peer's identity and port (17 R409). -/
def selfFound (s : State) : Found :=
  { die := dieId s, manager := natBit (rdReg 0 0 0x40 s).toNat 9
    ports := (List.range 6).map (fun p => (linkState p s == 2, (port p s).peerDie, rdField 5 p 0x40 23 21 s)) }

/-- Ports of the device that are up. -/
def upPorts (s : State) : List Nat := (List.range 6).filter (fun p => linkState p s == 2)

/-- The notice of a fence, to the manager and to every neighbour (17 R413). -/
def fenceNotify (reason : Nat) (s : State) : State :=
  let s1 := if deviceId s = 0 ∨ enumerated s = false then s else sendPkt 13 0 [reason] s
  (upPorts s1).foldl (fun acc p => sendPkt 13 (linkPeer p s1).1 [reason] acc) s1

/-- Every port stops transmitting (17 R415). -/
def portsStop (s : State) : State := (List.range 6).foldl (fun acc p => linkDown p 0 acc) s

/-- DEVICE_FENCED (17 R413, R417). -/
def evFenced (reason : Nat) : Ev := { c := 5, i := 0, bit := 14, code := 0x4900, payload := reason }

/-- This device's fence in order; the packets that its producers had reserved before it become pads (17 R413; 11 R257). -/
def fenceNow (reason : Nat) (s : State) : State :=
  let s0 := if reason = 4 then fenceNotify reason s else s
  let s1 := trip 8 0 s0
  let r0 := raiseSeq (evFenced reason) (wrReg 0 0 0x78 (BitVec.ofNat 32 (1 + reason * 16)) s1)
  let r := (r0.1, { r0.2 with ring := { r0.2.ring with fenceSeq := r0.1 } })
  let s2 := (s.qe.pkts.filter (fun p => p.dev == deviceId s && !p.complete)).foldl (fun acc p => settle p.q (padPacket p 3 false acc)) r.2
  let live := r.2.jobs.filter (fun j => j.live)
  let queued := r.2.jobs.filter (fun j => j.phase == .queued)
  let s3 := live.foldl (fun acc j => stopJob j.d.id 5 r.1 acc) s2
  let s4 := queued.foldl (fun acc j => endQueued j.d.id 5 r.1 acc) s3
  if reason = 4 then portsStop s4 else fenceNotify reason s4

/-- A fault of the ring crossbar in a device that is fenced already: its notice, then its ports stop, and reason 4 takes the other's place (17 R412, R415;
DESIGN CHOICE, log entry 46). -/
def goDark (s : State) : State :=
  let s1 := raise (evFenced 4) (wrReg 0 0 0x78 (BitVec.ofNat 32 (1 + 4 * 16)) (fenceNotify 4 s))
  portsStop s1

/-- A fence notice marks its sender and is reported (17 R413, R417). -/
def peerFenced (dev reason : Nat) (lost : Bool) (s : State) : State :=
  let v := Tbl.get ({} : Peer) s.ring.peers dev
  let s1 := { s with ring := { s.ring with peers := Tbl.set ({} : Peer) s.ring.peers dev { v with fenced := true, reason := reason } } }
  if v.fenced && !lost then s1
  else raise { c := 5, i := 0, bit := 15, code := 0x5904, payload := dev + reason * 2 ^ 8 + b2n lost * 2 ^ 12 } s1

end Sys2Proof.Machine
end

