-- ==== Sys2Proof/Machine/EnumOps.lean ====
section
/-! DEFINITION. Enumeration: discovery, the placing of devices, refusals, late devices (17 R408 to R411). -/

namespace Sys2Proof.Machine

/-- The port that a port is cabled to in a torus: PX and NX, PY and NY, PZ and NZ (17 R391). -/
def mate (p : Nat) : Nat := if p % 2 = 0 then p + 1 else p - 1

/-- A found device by its die identity. -/
def foundBy (fs : List Found) (die : Nat) : Option Found := fs.find? (fun f => f.die == die)

/-- The peer on a port of a found device: none where the link is down or the port is looped to itself (17 R391). -/
def Found.peer (f : Found) (p : Nat) : Option (Nat × Nat) :=
  match f.ports[p]? with
  | some (true, d, q) => if d = f.die ∧ q = p then none else some (d, q)
  | _ => none

/-- Every peer of a found device is found too: no answer is still to come (17 R409). -/
def foundAll (fs : List Found) : Bool :=
  fs.all (fun f => (List.range 6).all (fun p => match f.peer p with | some x => (foundBy fs x.1).isSome | none => true))

/-- The devices that follow one in a dimension by its positive or negative ports, up to a down link or back to the start. -/
def follow (fs : List Found) (p start : Nat) : Nat → Nat → List Nat
  | 0, _ => []
  | n + 1, die =>
    match (foundBy fs die).bind (fun f => f.peer p) with
    | some x => if x.1 = start then [] else x.1 :: follow fs p start n x.1
    | none => []

/-- The ring of a device in a dimension, from it on in the positive direction; across a link that is down it is followed the other way (17
R391, R409). -/
def ringFrom (fs : List Found) (d die : Nat) : List Nat :=
  let pos := follow fs (2 * d) die fs.length die
  let last := pos.getLast?.getD die
  let closed := match (foundBy fs last).bind (fun f => f.peer (2 * d)) with | some x => x.1 == die | none => false
  if closed then die :: pos else die :: (pos ++ (follow fs (2 * d + 1) die fs.length die).reverse)

/-- Devices placed at their coordinates, by following PX, PY and PZ from the manager (17 R409). -/
def placeAll (fs : List Found) (root : Nat) : List (Nat × Nat × Nat × Nat) :=
  (ringFrom fs 0 root).zipIdx.flatMap (fun a =>
    (ringFrom fs 1 a.1).zipIdx.flatMap (fun b =>
      (ringFrom fs 2 b.1).zipIdx.map (fun c => (c.1, a.2, b.2, c.2))))

/-- The sizes of the rings through the manager. -/
def sizesOf (fs : List Found) (root : Nat) : Nat × Nat × Nat :=
  ((ringFrom fs 0 root).length, (ringFrom fs 1 root).length, (ringFrom fs 2 root).length)

/-- Why a topology is refused, with the die identity concerned (17 R410); none where it is a torus. -/
def topoFault (fs : List Found) (root : Nat) : Option (Nat × Nat) :=
  let dies := fs.map (fun f => f.die)
  let n := sizesOf fs root
  match fs.find? (fun f => f.manager && f.die != root) with
  | some f => some (1, f.die)
  | none =>
    match fs.find? (fun f => (List.range 6).any (fun p => match f.peer p with | some x => x.2 != mate p | none => false)) with
    | some f => some (2, f.die)
    | none =>
      match dies.find? (fun d => decide (2 ≤ (dies.filter (fun e => e == d)).length)) with
      | some d => some (5, d)
      | none =>
        let placed := (placeAll fs root).map (fun e => e.1)
        match fs.find? (fun f => (ringFrom fs 0 f.die).length != n.1 || (ringFrom fs 1 f.die).length != n.2.1 || (ringFrom fs 2 f.die).length != n.2.2
            || (placed.filter (fun d => d == f.die)).length != 1) with
        | some f => some (3, f.die)
        | none => if 8 < n.1 ∨ 8 < n.2.1 ∨ 4 < n.2.2 ∨ 256 < fs.length then some (4, root) else none

/-- DISCOVER sent out of every port that is up (17 R409). -/
def discoverOut (s : State) : State :=
  (upPorts s).foldl (fun acc p => pushFlits p 0 0xFFFF 1 { acc with ring := { acc.ring with sent := ⟨12, 0xFF, [0, dieId acc, p]⟩ :: acc.ring.sent } }) s

/-- The own ID, sizes and coordinates taken; each port that is up shows its peer's ID (17 R409). -/
def takeId (id : Nat) (sizes coords : Nat × Nat × Nat) (s : State) : State :=
  let topo := sizes.1 + 16 * sizes.2.1 + 256 * sizes.2.2 + 4096 * coords.1 + 32768 * coords.2.1 + 2 ^ 18 * coords.2.2
  let s1 := wrReg 5 0 0x100 (BitVec.ofNat 32 (topo % 2 ^ 20)) (wrField 0 0 0x40 8 8 1 (wrField 0 0 0x40 7 0 id s))
  (upPorts s1).foldl (fun acc p => wrField 5 p 0x40 31 24 (neighbour acc id (p / 2) (p % 2 == 0)) acc) s1

/-- Another device becomes known. -/
def setPeer (id : Nat) (v : Peer) (s : State) : State := { s with ring := { s.ring with peers := Tbl.set ({} : Peer) s.ring.peers id v } }

/-- The ID of coordinates in sizes (17 R398). -/
def idIn (n : Nat × Nat × Nat) (x y z : Nat) : Nat := x + n.1 * (y + n.2.1 * z)

/-- Links of rings of two or more devices that are missing, by device and positive port (17 R391, R404). -/
def missingLinks (fs : List Found) (root : Nat) : List (Nat × Nat) :=
  let n := sizesOf fs root
  (placeAll fs root).flatMap (fun e => (List.range 3).filterMap (fun d =>
    let sz := match d with | 0 => n.1 | 1 => n.2.1 | _ => n.2.2
    if 2 ≤ sz ∧ ((foundBy fs e.1).bind (fun f => f.peer (2 * d))).isNone = true then some (idIn n e.2.1 e.2.2.1 e.2.2.2, 2 * d) else none))

/-- An ASSIGN packet: ID, sizes, coordinates, depth in the time tree (17 R409). -/
def assignTo (id : Nat) (n c : Nat × Nat × Nat) (s : State) : State :=
  sendPkt 12 id [1, id, n.1, n.2.1, n.2.2, c.1, c.2.1, c.2.2, (route s 0 id).length] s

/-- The manager places the devices found, or refuses the topology (17 R409, R410). -/
def enumPlace (s : State) : State :=
  let fs := s.ring.found
  let root := dieId s
  match topoFault fs root with
  | some (c, d) => enumRefused c d s
  | none =>
    let n := sizesOf fs root
    let pl := placeAll fs root
    let ids := pl.map (fun e => (e.1, idIn n e.2.1 e.2.2.1 e.2.2.2))
    let s1 := takeId 0 n (0, 0, 0) { s with ring := { s.ring with placed := ids, down := [], peers := [] } }
    let s2 := ids.foldl (fun acc e => setPeer e.2 { present := true } acc) s1
    let s3 := (missingLinks fs root).foldl (fun acc e => markLink e.1 e.2 true acc) s2
    pl.foldl (fun acc e => if e.1 = root then acc else assignTo (idIn n e.2.1 e.2.2.1 e.2.2.2) n e.2 acc) s3

/-- Placing once no answer is still to come. -/
def enumCheck (s : State) : State := if s.ring.enumOn && s.ring.placed.isEmpty && foundAll s.ring.found then enumPlace s else s

/-- Enumeration starts on the manager (17 R409, RING_ENUM_CTRL.start). -/
def enumStart (s : State) : State :=
  if rdField 0 0 0x40 9 9 s = 0 then s
  else
    let s1 := discoverOut { s with ring := { s.ring with enumOn := true, found := [selfFound s], placed := [], discAt := s.time.clk } }
    enumCheck (wrField 5 0 0x100 20 20 0 s1)

/-- The coordinates that a device found later occupies: beside one that is placed (17 R411). -/
def latePlace (f : Found) (s : State) : Option Nat :=
  (List.range 6).findSome? (fun p =>
    match f.peer p with
    | some x => if x.2 = mate p then (s.ring.placed.find? (fun e => e.1 == x.1)).map (fun e => neighbour s e.2 (p / 2) (p % 2 == 1)) else none
    | none => none)

/-- A device found after enumeration is given the ID of its position, if that is empty or its device is fenced; another is refused (17 R411). -/
def lateFound (f : Found) (s : State) : State :=
  if s.ring.placed.any (fun e => e.1 == f.die) then s
  else match latePlace f s with
    | none => s
    | some id =>
      let v := Tbl.get ({} : Peer) s.ring.peers id
      if v.present ∧ v.fenced = false then enumRefused 4 f.die s
      else
        let s1 := setPeer id { present := true } { s with ring := { s.ring with placed := s.ring.placed.filter (fun e => e.2 != id) ++ [(f.die, id)] } }
        assignTo id (torusSizes s1) (coordOf s1 id 0, coordOf s1 id 1, coordOf s1 id 2) s1

/-- RING_ENUM_CTRL written: start, on the manager only (17 RING_ENUM_CTRL). -/
def wrEnumCtrl (v : Word) (s : State) : State :=
  let s1 := wrField 5 0 0x104 0 0 (v.field 0 0) s
  if natBit v.toNat 1 then enumStart s1 else s1

end Sys2Proof.Machine
end

