-- ==== Sys2Proof/Machine/Banks.lean ====
section
/-! DEFINITION. Scratchpad bank power states (09 R225, R226). -/

namespace Sys2Proof.Machine

/-- The code of a bank state (09 SPAD_BANK_STATE). -/
def BankState.code : BankState → Nat
  | .on => 0 | .draining => 1 | .off => 2 | .waking => 3

/-- A bank put into a state, with SPAD_BANK_STATE raised (09 R233). -/
def bankTo (n b : Nat) (st : BankState) (job : Nat) (s : State) : State :=
  let p := spad n s
  let k := p.bank b
  raise { c := 3, i := n, bit := 11, code := 0x0400, ctx := b, payload := st.code + job * 4 }
    (setSpad n (p.setBank b { k with st := st, heldOp := false, req := job, since := s.time.clk }) s)

/-- A window overlaps a bank. -/
def Window.overlaps (w : Window) (b : Nat) : Bool := decide (w.base < (b + 1) * 0x80000 ∧ b * 0x80000 < w.base + w.length)

/-- Every window that overlaps a bank becomes CLOSED_POWER because the bank leaves ON; a FREE entry is no window (09 R224, R225). -/
def closeBank (n b : Nat) (s : State) : State :=
  let p := spad n s
  setSpad n { p with wins := p.wins.map (fun w => (w.1, if w.2.overlaps b && w.2.state != .free then { w.2 with state := .closedPower } else w.2)) } s

/-- A power-down request taken by a bank (09 R225). -/
def bankDown (n b job : Nat) (s : State) : State :=
  let k := (spad n s).bank b
  match k.st with
  | .on => bankTo n b .draining job (closeBank n b s)
  | .waking => setSpad n ((spad n s).setBank b { k with heldOp := true, req := job }) s
  | _ => s

/-- A wake request taken by a bank (09 R225). -/
def bankWake (n b job : Nat) (s : State) : State :=
  let k := (spad n s).bank b
  match k.st with
  | .off => bankTo n b .waking job s
  | .draining => setSpad n ((spad n s).setBank b { k with heldOp := true, req := job }) s
  | _ => s

/-- The owner of a bank: the job that holds the Quill whose share it belongs to, until its lines are filled; 0xFFFF for none (09 R218). -/
def bankOwner (n b : Nat) (s : State) : Nat := (quill (4 * n + b / 4) s).job

/-- Whether any program unit of an Inkwell is allocated or awaits its fill (09 R226). -/
def unitsHeld (n : Nat) (s : State) : Bool :=
  s.jobs.any (fun j => j.holds && j.areas.any (fun a => a.1 == n)) || !(spad n s).pendUnits.isEmpty || !(spad n s).heldUnits.isEmpty

/-- Whether a power-down or wake request for a bank names its owner and is allowed (09 R226). -/
def bankCmdOk (n b owner : Nat) (down : Bool) (s : State) : Bool :=
  owner == bankOwner n b s && !(down && b == 15 && unitsHeld n s)

end Sys2Proof.Machine
end

