-- ==== Sys2Proof/Machine/PwrOps.lean ====
section
/-! DEFINITION. The power arbiter's shared operations: voltages, clocks, grants, temperatures, emergency episodes (16 R364 to R384). -/

namespace Sys2Proof.Machine

/-- PWR_CMD_REFUSED (16 R390). -/
def pwrRefuse (off : Nat) (v : Word) (s : State) : State :=
  raise { c := 13, i := 0, bit := 17, code := 0x7D00, payload := v.toNat + off / 4 * 2 ^ 32 } s

/-- A rail. -/
def pwrRail (k : Nat) (s : State) : PwrRail := Tbl.get {} s.pwr.rails k

/-- A rail replaced. -/
def setRail (k : Nat) (v : PwrRail) (s : State) : State := { s with pwr := { s.pwr with rails := Tbl.set {} s.pwr.rails k v } }

/-- The present VDD_Q setpoint, mV (16 PWR_VOLT). -/
def vddq (s : State) : Nat := rdField 13 0 0x60 15 0 s

/-- guard_mv in use (16 PWR_VOLT). -/
def guardMv (s : State) : Nat := rdField 13 0 0x60 31 24 s

/-- A temperature term of R372 in 1/5,525 mV: hot_mv at 110 °C up from 25 °C, cold_mv at −40 °C down from it. -/
def tempTerm (r : List Byte) (t : Int) : Nat :=
  if 25 ≤ t then byteAt r 19 * (t - 25).toNat * 65 else byteAt r 18 * (25 - t).toNat * 85

/-- The larger temperature term of the hottest and the coldest Inkwell sensor; 0 where none has been read. -/
def worstTerm (r : List Byte) (s : State) : Nat :=
  ((s.pwr.temps.filter (fun e => decide (e.1 < 48))).map (fun e => tempTerm r e.2)).foldl max 0

/-- V(f) with recovery, rounded up to 5 mV, before the limit of 950 mV (16 R372). -/
def voltageFor (r : List Byte) (mhz recov : Nat) (s : State) : Nat :=
  let k := min ((max mhz 1500 - 1500) / 50) 5
  let a := leField r (4 + 2 * k) 2
  let b := leField r (6 + 2 * k) 2
  let d := max mhz 1500 - 1500 - 50 * k
  let n : Int := ((a : Int) * 50 + ((b : Int) - (a : Nat)) * (d : Nat)) * 5525 + (worstTerm r s : Nat) * 50 + ((guardMv s + recov : Nat) : Int) * 276250
  ((n.toNat + 5 * 276250 - 1) / (5 * 276250)) * 5

/-- recovery_mv while recovery applies (16 R374). -/
def recoveryMv (s : State) : Nat := match s.pwr.record, s.pwr.recovery with | some r, some _ => byteAt r 21 | _, _ => 0

/-- The voltage of a clock: v_boot, 850 mV, without a record (16 R372, R373). -/
def volts (mhz : Nat) (s : State) : Nat := match s.pwr.record with | some r => voltageFor r mhz (recoveryMv s) s | none => 850

/-- A Quill's fmax for a period: the highest step whose voltage is at most 950 mV (16 R372). -/
def fmaxNow (q : Nat) (s : State) : Nat :=
  let f := (quill q s).fmax
  let ok := (List.range ((f - 1500) / 25 + 1)).map (fun k => f - 25 * k) |>.find? (fun m => decide (volts m s ≤ 950))
  ok.getD 1500

/-- PWR_QUILL_MAX, mW (16 R367; DESIGN CHOICE, log entry 3). -/
def quillMax (s : State) : Nat := Config.quillMaxMw (s.pwr.record.getD []) (vddq s) % 65536

/-- Whether a job holds reservations: ADMITTED, RUNNING or SCRUBBING (01 R18). -/
def grantees (s : State) : List JobRec := s.jobs.filter (fun j => j.live)

/-- Reservation of a job, mW (01 R17: in 0.1 W). -/
def JobRec.reserved (j : JobRec) : Nat := j.d.power * 100

/-- The floor of a throughput Quill of a job: the highest 25 MHz step from 300 to 1,500 MHz at which PWR_QUILL_MAX scaled to it fits the
reservation per Quill; 300 MHz where none does (16 R367). -/
def floorMhz (j : JobRec) (s : State) : Nat :=
  let n := max j.quills.length 1
  ((List.range 49).map (fun k => 1500 - 25 * k)).find? (fun m => decide (quillMax s * m * n ≤ j.reserved * 1500)) |>.getD 300

/-- A job's running state marked with an emergency throttle of a cause: 1 droop, 2 temperature, 4 coolant (06 R153). -/
def markEx (cause : Nat) (j : JobRec) : JobRec := { j with timingEx := true, exCause := j.exCause ||| cause }

/-- Jobs that an episode touches: every running one, or those that hold a Quill of an Inkwell (16 R376, R377, R384). -/
def touched (inkwell : Option Nat) (j : JobRec) : Bool :=
  match inkwell with
  | some n => j.holds && j.d.reaches n
  | none => j.phase == .running

/-- An emergency throttle begins for the jobs it touches (06 R153). -/
def episodeOn (inkwell : Option Nat) (cause : Nat) (s : State) : State :=
  { s with jobs := s.jobs.map (fun j => if touched inkwell j then markEx cause j else j) }

/-- The causes of the emergency throttles in force that touch a job (06 R153). -/
def exCauses (d : JobDesc) (s : State) : Nat := b2n (droopsOn d s != 0) + 2 * b2n (emergsOn d s != 0) + 4 * b2n (coolantLost s)

/-- A job that comes to hold its Quills, or starts, while emergency throttles last records them (06 R153; 16 R376, R377, R384, R385). -/
def markNow (id : Nat) (s : State) : State :=
  updJob id (fun j => let c := exCauses j.d s; if c = 0 then j else markEx c j) s

/-- Recovery applies for one second more (16 R374). -/
def startRecovery (s : State) : State := { s with pwr := { s.pwr with recovery := some (s.time.clk + 1000000 * oneUs) } }

/-- guard_mv 5 mV higher, at most 50, and saved (16 R374). -/
def raiseGuard (s : State) : State :=
  let g := min (guardMv s + 5) 50
  if g = guardMv s then s else askSetting 6 (.guard g) (wrField 13 0 0x60 31 24 g s)

/-- The latest readings of the rails that have one (16 R364); a missing one counts at the model's figure. -/
def measured (rails : List Nat) (s : State) : Nat :=
  ((List.range 5).map (fun k => let r := pwrRail k s; if r.missing || r.read.isNone then rails.getD k 0 else r.mw)).sum

/-- Whether any rail's reading is missing (16 R364). -/
def railMissing (s : State) : Bool := (List.range 5).any (fun k => (pwrRail k s).missing)

/-- PWR_RECON's bits put as they stand, and running jobs marked while the device is unreconciled (16 R364, R381, R382). -/
def showRecon (s : State) : State :=
  let unrec := s.pwr.divergent || railMissing s
  let s1 := wrField 13 0 0x50 0 0 (b2n unrec) (wrField 13 0 0x50 2 2 (b2n (railMissing s)) s)
  let s2 := wrField 13 0 0x50 31 16 (min (s.pwr.rNum * 16384 / max s.pwr.rDen 1) 0xFFFF) s1
  if unrec then { s2 with jobs := s2.jobs.map (fun j => if j.phase = .running then { j with unrec := true } else j) } else s2

/-- Power × r (16 R380; DEDUCED, log entry 45). -/
def scaled (mw : Nat) (s : State) : Nat := mw * s.pwr.rNum / max s.pwr.rDen 1

/-- A deterministic job gets no grant; the grants of throughput jobs, class by class (16 R366). `draw` and `demand` are by job ID, mW. -/
def grantClasses (thr : List JobRec) (demand : Nat → Nat) (avail0 : Int) : Tbl Nat :=
  let base : Tbl Nat := thr.foldl (fun t j => Tbl.put t j.d.id j.reserved) []
  ((List.range 4).foldl (fun (acc : Tbl Nat × Int) c =>
    let js := thr.filter (fun j => j.d.prio == c)
    let n := (js.map (fun j => j.quills.length)).sum
    if acc.2 ≤ 0 ∨ n = 0 then acc
    else
      let av := acc.2.toNat
      let give := fun (j : JobRec) => min (av * j.quills.length / n) (demand j.d.id - j.reserved)
      (js.foldl (fun t j => Tbl.put t j.d.id (j.reserved + give j)) acc.1, acc.2 - ((js.map give).sum : Nat))) (base, avail0)).1

/-- Whether a Quill is under a budget: held by a live throughput job. -/
def throughput (q : Nat) (s : State) : Option JobRec :=
  match findJob (quill q s).job s with
  | some j => if j.live && !j.d.det then some j else none
  | none => none

/-- A Quill's clock for the next period: the highest step from its floor to its fmax whose modelled power fits, scaled linearly from its
power at its present clock (16 R366, R370, R384). -/
def nextClock (q mw : Nat) (s : State) : Nat :=
  match throughput q s with
  | none => 1500
  | some j =>
    let v := quill q s
    let lo := floorMhz j s
    let hi := fmaxNow q s
    let n := max j.quills.length 1
    let share := Tbl.get 0 s.pwr.grants j.d.id / n
    let f := ((List.range ((hi - lo) / 25 + 1)).map (fun k => hi - 25 * k)).find? (fun m => decide (mw * m ≤ share * max v.mhz 1)) |>.getD lo
    let f1 := if s.pwr.overpower then 300 else f
    if (Tbl.find? s.pwr.hot (q / 4)).isSome then max 300 (min f1 (v.mhz - 50)) else f1

/-- The temperature of an Inkwell, a sensor or a stack (64 to 71, MC_TEMP) as last read (16 R383). -/
def tempOf (k : Nat) (s : State) : Option Int := (s.pwr.temps.find? (fun e => e.1 == k)).map (fun e => e.2)

/-- The Inkwell an emergency of a sensor is local to; none for the device (16 R384). -/
def sensorInkwell (k : Nat) : Option Nat := if k < 48 then some k else none

/-- THERMAL_EMERGENCY's episode begins (16 R384). -/
def emergOn (k : Nat) (t : Int) (until_ : Nat) (inj : Bool) (s : State) : State :=
  if (Tbl.find? s.pwr.emerg k).isSome then s
  else episodeOn (sensorInkwell k) 2 (bump 13 0 0xB0 1 { s with pwr := { s.pwr with emerg := Tbl.put s.pwr.emerg k ⟨3, s.time.clk, t, until_, inj⟩ } })

/-- It ends, with its record and recovery (16 R374, R384, R390). -/
def emergOff (k : Nat) (s : State) : State :=
  match Tbl.find? s.pwr.emerg k with
  | none => s
  | some e =>
    let s1 := { s with pwr := { s.pwr with emerg := Tbl.erase s.pwr.emerg k } }
    let pay := k % 64 + wrapNat 8 e.temp * 2 ^ 6 + (s.time.clk - e.start) / 3 % 2 ^ 32 * 2 ^ 14 + injFlag e.inj
    startRecovery (raiseRated (0xD10000 + (sensorInkwell k).getD 48) oneMs { c := 13, i := 0, bit := 12, code := 0x6D06, ctx := (sensorInkwell k).getD 0, payload := pay } s1)

/-- The level at which a sensor's emergency begins: 110 °C, 100 °C for a stack (16 R384). -/
def emergLevel (k : Nat) : Int := if 64 ≤ k then 100 else 110

/-- A reading's consequences: throttles and emergencies begin, and end 5 °C below their level (16 R384; DEDUCED, log entry 45). -/
def thermal (k : Nat) (t : Int) (s : State) : State :=
  let lim : Int := (rdField 13 0 0x68 7 0 s : Nat)
  let s1 :=
    if 48 ≤ k then s
    else match Tbl.find? s.pwr.hot k with
      | none => if lim ≤ t then { s with pwr := { s.pwr with hot := Tbl.put s.pwr.hot k ⟨4, s.time.clk, t, 0, false⟩ } } else s
      | some e =>
        if t ≤ lim - 5 then
          raiseRated (0xD20000 + k) oneMs { c := 13, i := 0, bit := 11, code := 0x6D05, ctx := k, payload := wrapNat 8 e.temp }
            { s with pwr := { s.pwr with hot := Tbl.erase s.pwr.hot k } }
        else { s with pwr := { s.pwr with hot := Tbl.put s.pwr.hot k { e with temp := max e.temp t } } }
  match Tbl.find? s1.pwr.emerg k with
  | none => if emergLevel k ≤ t then emergOn k t 0 false s1 else s1
  | some e =>
    if t ≤ emergLevel k - 5 ∧ e.until_ ≤ s1.time.clk then emergOff k s1
    else { s1 with pwr := { s1.pwr with emerg := Tbl.put s1.pwr.emerg k { e with temp := max e.temp t } } }

/-- A droop on an Inkwell's VDD_Q, or on VDD_C (site 48), begins or deepens (16 R376, R377). A deep one stops the Inkwell's Quills for 32 mesh
cycles. -/
def droopOn (site level : Nat) (inj : Bool) (s : State) : State :=
  let inkwell := if site < 48 then some site else none
  match Tbl.find? s.pwr.droops site with
  | some d =>
    if d.level < level then
      let s1 := { s with pwr := { s.pwr with droops := Tbl.put s.pwr.droops site { d with level := level } } }
      if site < 48 then advance 64 s1 else s1
    else s
  | none =>
    let s1 := episodeOn inkwell 1 (bump 13 0 0xB0 1 { s with pwr := { s.pwr with droops := Tbl.put s.pwr.droops site ⟨level, s.time.clk, 0, 0, inj⟩ } })
    if level = 2 ∧ site < 48 then advance 64 s1 else s1

/-- It ends: a deep one on VDD_Q starts recovery, and too many of them raise guard_mv (16 R374,
R376, R377, R390). -/
def droopOff (site : Nat) (s : State) : State :=
  match Tbl.find? s.pwr.droops site with
  | none => s
  | some d =>
    let s1 := { s with pwr := { s.pwr with droops := Tbl.erase s.pwr.droops site } }
    let pay := d.level + 4 * b2n (decide (48 ≤ site)) + (s.time.clk - d.start) / 3 % 2 ^ 32 * 8 + injFlag d.inj
    let s2 := raiseRated (0xD00000 + site) oneMs { c := 13, i := 0, bit := 10, code := 0x6D04, ctx := if site < 48 then site else 0, payload := pay } s1
    if d.level ≠ 2 then s2
    else
      let l := (s2.pwr.deep.filter (fun t => decide (s2.time.clk < t + 3600000000 * oneUs))) ++ [s2.time.clk]
      let s3 := startRecovery { s2 with pwr := { s2.pwr with deep := l } }
      if 16 < l.length then raiseGuard { s3 with pwr := { s3.pwr with deep := [] } } else s3

/-- DOMAIN_STATE (16 R388, R390). -/
def evDomainState (d : Nat) (on auto : Bool) : Ev := { c := 13, i := 0, bit := 18, code := 0x0D02, ctx := d, payload := b2n on + 2 * b2n auto }

/-- A domain's bit in PWR_DOMAIN_ON. -/
def setDomain (d : Nat) (on : Bool) (s : State) : State := wrField 13 0 (0x80 + 4 * (d / 32)) (d % 32) (d % 32) (b2n on) s

/-- The earliest time at which another domain may be switched: 2 µs after the last (16 R388). -/
def switchTime (s : State) : Nat := if s.pwr.lastSwitch = 0 then s.time.clk else max s.time.clk (s.pwr.lastSwitch + 2 * oneUs)

/-- A domain begins to be switched on, in its turn (16 R388). -/
def domainRise (d : Nat) (auto : Bool) (s : State) : State :=
  if domainOn d s ∨ s.pwr.rising.any (fun e => e.1 == d) then s
  else { s with pwr := { s.pwr with rising := s.pwr.rising ++ [(d, switchTime s, auto)], lastSwitch := switchTime s } }

/-- A domain switched off, in its turn (16 R388). -/
def domainFall (d : Nat) (auto : Bool) (s : State) : State :=
  if domainOn d s = false then s
  else
    let s1 := advanceTo (switchTime s) s
    raise (evDomainState d false auto) (setDomain d false { s1 with pwr := { s1.pwr with lastSwitch := s1.time.clk } })

/-- From a domain's switch-on until it is usable, thirds of a ns (16 R388). -/
def domainTime (d : Nat) : Nat :=
  oneUs * (if d < 48 then 20 else if d < 96 then 10 else if d < 104 then 200 else if d < 110 then 50 else if d = 110 then 20 else 10)

end Sys2Proof.Machine
end

