-- ==== Sys2Proof/Machine/Jobs.lean ====
section
/-! DEFINITION. Jobs: descriptors, admission, start, completion, release (01 R17 to R22; 05 R115, R117; 06 R149, R155; 09 R218
to R221, R227, R228; 11 R266). -/

namespace Sys2Proof.Machine

/-- A job descriptor read from its record (11 R266). -/
def JobDesc.read (b : List Byte) : JobDesc :=
  { id := leField b 0 2, prio := byteAt b 2 % 4, safety := natBit (byteAt b 2) 2, det := natBit (byteAt b 2) 3
    power := leField b 4 2, memShare := byteAt b 3 % 64, prog := leField b 8 6, bindAddr := leField b 16 6, bindCount := leField b 6 2
    complQ := leField b 24 3 % 2 ^ 20, chainQ := leField b 28 3 % 2 ^ 20, chainCount := leField b 32 2
    quillsA := bitList 192 (leField b 64 24), quillsB := bitList 192 (leField b 88 24) }

/-- The byte offset of the first reserved encoding of a 128-byte descriptor (11 R266, 02 R49). -/
def descFault (b : List Byte) : Option Nat :=
  let d := JobDesc.read b
  let nz := fun i => byteAt b i != 0
  (List.range 128).find? (fun i =>
    (i == 0 && d.id == 0xFFFF) || (i == 2 && decide (byteAt b 2 / 16 ≠ 0)) || (i == 3 && decide (byteAt b 3 / 64 ≠ 0))
      || ((i == 26 || i == 30) && decide (byteAt b i / 16 ≠ 0))
      || ((i == 14 || i == 15 || i == 22 || i == 23 || i == 27 || i == 31 || (34 ≤ i && i < 64) || 112 ≤ i) && nz i)
      || (i == 64 && d.quillsA.isEmpty) || (i == 88 && !d.safety && !d.quillsB.isEmpty))

/-- JOB_REFUSED (19 R466). -/
def evJobRefused (job status detail cmdQ : Nat) : Ev :=
  { c := 15, i := 0, bit := 10, code := 0x7F02, job := job, payload := job + status * 2 ^ 16 + detail * 2 ^ 24 + cmdQ * 2 ^ 32 }

/-- A fresh job record for a descriptor read from a command queue. -/
def JobRec.make (d : JobDesc) (cmdQ arrival sample : Nat) : JobRec :=
  { d := d, cmdQ := cmdQ, arrival := arrival, phase := .queued, status := 0, numeric := 0, timingEx := false, exCause := 0,
    throttleNs := 0, refreshDef := 0, retryFlits := 0, start := 0, energy := 0, unrec := false, chainSample := sample, evSeq := 0,
    validated := false, slots := [], endA := none, endB := none, compared := false, areas := [] }

/-- The record of a job that never ran: its counters read 0 (11 R267). Held in the staging buffer, it keeps its ID in use, unless another job has
that ID (11 R268). -/
def refuseRecord (d : JobDesc) (cmdQ status evSeq : Nat) (s : State) : State :=
  let j := { JobRec.make d cmdQ 0 0 with phase := .held, status := status, evSeq := evSeq }
  let new := (findJob d.id s).isNone
  let rec64 := jobRecord j (deviceId s) (deviceId s) (devNow s) 0 0
  if relays s then relayRecord rec64 s
  else if !complBad d.complQ s && queueTakes d.complQ 64 true s then reserve d.complQ 1 d.id (deviceId s) rec64 s
  else
    let s1 := if complBad d.complQ s then raise (evHeld d.complQ j) s else queueFull d.complQ d.id s
    stage { q := d.complQ, rtype := 1, bytes := rec64, prio := true, job := d.id, compl := new } (if new then { s1 with jobs := s1.jobs ++ [j] } else s1)

/-- A descriptor refused: JOB_REFUSED, then the completion record (01 R17, R18). -/
def refuseJob (d : JobDesc) (cmdQ status detail : Nat) (s : State) : State :=
  let r := raiseSeq (evJobRefused d.id status detail cmdQ) s
  refuseRecord d cmdQ status r.1 r.2

/-- Conditions 4 to 6 of R18: the first that fails. -/
def conditionFault (d : JobDesc) : Option Nat :=
  if d.safety = true ∧ (d.quillsA.length ≠ d.quillsB.length ∨ d.quillsA.any (fun a => d.quillsB.any (fun b => a / 4 == b / 4)) = true) then some 4
  else if d.safety = true ∧ d.det = false then some 5
  else if d.quillsA.any (fun a => d.quillsB.contains a) then some 6
  else none

/-- Whether a job ID is in use (01 R17, 11 R262, R268). -/
def idInUse (id : Nat) (s : State) : Bool := (findJob id s).isSome

/-- Whether the device is fenced (02 GLB_FENCE). -/
def fenced (s : State) : Bool := natBit (rdReg 0 0 0x78 s).toNat 0

/-- What becomes of a 128-byte descriptor: refusal with status and detail, or none (01 R17, R18; 11 R268; 17 R414). -/
def descVerdict (b : List Byte) (s : State) : Option (Nat × Nat) :=
  let d := JobDesc.read b
  match descFault b with
  | some off => some (6, off)
  | none =>
    if idInUse d.id s then some (7, 0)
    else match conditionFault d with
      | some c => some (1, c)
      | none => none

/-- JOB_DESCRIPTOR: a record read from a consumer-3 queue (01 R17, 11 R266). A refusal whose record finds no room keeps the
descriptor at the head of its queue (11 R262). -/
def execJobDescriptor (q : Nat) (s : State) : Out :=
  .next (
    let dq := qDesc q s
    if dq.enabled = false ∨ dq.consumer ≠ 3 ∨ blockEnabled 15 0 s = false ∨ memUp s = false then s
    else match engineTake q s with
    | none => noTake q s
    | some (b, s1) =>
      let s2 := { s1 with arrivals := s1.arrivals + 1 }
      if b.length ≠ 128 then
        let id := if b.length < 2 then 0xFFFF else leField b 0 2
        if b.length < 27 then raise (evJobRefused id 6 0xFF q) s2
        else if complReady (leField b 24 3 % 2 ^ 20) s then refuseJob { JobDesc.read [] with id := id, complQ := leField b 24 3 % 2 ^ 20 } q 6 0xFF s2
        else s
      else
        let d := JobDesc.read b
        match descVerdict b s with
        | some (st, detail) => if complReady d.complQ s then refuseJob d q st detail s2 else s
        | none =>
          if fenced s then (if complReady d.complQ s then refuseRecord d q 5 s2.ring.fenceSeq s2 else s)
          else { s2 with jobs := s2.jobs ++ [JobRec.make d q s2.arrivals (qDesc d.chainQ s2).notices] })

/-- The image of a job: header bytes give its size in 4 KiB units (05 R115, 09 R218). -/
def imageBytes (d : JobDesc) (s : State) : Nat := (ImgHdr.read (rdBytes s d.prog 64)).bytes

/-- 4 KiB units an image takes; an image of an invalid size takes one unit, whose validation then fails (05 R115). -/
def imageUnits (d : JobDesc) (s : State) : Nat :=
  let n := imageBytes d s
  if 64 ≤ n ∧ n ≤ 262144 then (n + 4095) / 4096 else 1

/-- The program units of an Inkwell that are taken: allocated to a job, or awaiting zero-fill (09 R218). -/
def unitsTaken (n : Nat) (s : State) : List Nat :=
  let p := spad n s
  let held := (s.jobs.filter (fun j => j.holds)).flatMap (fun j => j.areas.flatMap (fun a => if a.1 = n then (List.range a.2.2).map (fun i => a.2.1 + i) else []))
  held ++ p.pendUnits ++ p.heldUnits

/-- The first fit of a run of units in an Inkwell's 64 (09 R218). -/
def fitUnits (n units : Nat) (s : State) : Option Nat :=
  let taken := unitsTaken n s
  (List.range (65 - units)).find? (fun u => (List.range units).all (fun i => !(taken.contains (u + i))))

/-- The binding entries of a job, copy B's after copy A's (05 R118, 15 R355). -/
def jobBindings (d : JobDesc) (s : State) : List Binding :=
  let n := if d.safety then 2 * d.bindCount else d.bindCount
  (List.range n).map (fun i => Binding.read (rdBytes s (d.bindAddr + 32 * i) 32))

/-- The part of a binding in one Inkwell of this device, as offset and length; none when it does not reach there (09 R221). -/
def bindPart (b : Binding) (dev n : Nat) : Option (Nat × Nat) :=
  let a := b.addr % 2 ^ 48
  let lo := max a (spadAddr n 0)
  let hi := min (a + b.extent) (spadAddr n 0x800000)
  if (b.remote = true ∧ b.addr / 2 ^ 48 ≠ dev) ∨ hi ≤ lo then none else some (lo - spadAddr n 0, hi - lo)

/-- Whether a run of offsets of an Inkwell lies within shares of given Quills. -/
def inShares (qs : List Nat) (n off len : Nat) : Bool :=
  let q0 := qs.filter (fun q => q / 4 == n)
  (List.range 4).all (fun k => q0.contains (n * 4 + k) ||
    !(decide ((shareRange k).1 < off + len) && decide (off < (shareRange k).2))) && decide (off + len ≤ progBase)

/-- Condition 7 of R18. -/
def bindingsInShares (d : JobDesc) (s : State) : Bool :=
  (jobBindings d s).all (fun b => (List.range 48).all (fun n =>
    match bindPart b (deviceId s) n with
    | some (off, len) => inShares (d.quillsA ++ d.quillsB) n off len
    | none => true))

/-- Whether a binding lies wholly in LPDDR5X of this device. -/
def bindInLpddr (b : Binding) (s : State) : Bool :=
  decide (b.addr % 2 ^ 48 + b.extent ≤ lpddrTop s) && (!b.remote || b.addr / 2 ^ 48 == deviceId s)

/-- Whether two bindings share a byte. -/
def bindOverlap (x y : Binding) : Bool :=
  let a := x.addr % 2 ^ 48
  let b := y.addr % 2 ^ 48
  decide (a < b + y.extent) && decide (b < a + x.extent)

/-- The conditions of R355 on a safety job: the cause (17 to 20) of the first that fails, with the index of the first binding that
offends, 0xFFFF for the fourth (15 R492). -/
def safetyFault (d : JobDesc) (s : State) : Option (Nat × Nat) :=
  if d.safety = false then none
  else
    let bs := jobBindings d s
    let cmp := ((bs.take d.bindCount).zip (bs.drop d.bindCount)).zipIdx.filter (fun p => !p.1.1.readOnly)
    let first := fun (f : Binding → Binding → Bool) => (cmp.find? (fun p => f p.1.1 p.1.2)).map (fun p => p.2)
    match first (fun x y => !bindInLpddr x s || !bindInLpddr y s) with
    | some i => some (17, i)
    | none => match first (fun x y => x.extent != y.extent || x.fmt != y.fmt) with
      | some i => some (18, i)
      | none => match first (fun x _ => (bs.drop d.bindCount).any (fun b => !b.readOnly && bindOverlap x b)) with
        | some i => some (19, i)
        | none => if (16777216 : Nat) < cmp.foldl (fun (n : Nat) p => n + p.1.1.extent) 0 then some (20, 0xFFFF) else none

/-- SN_CMD_REFUSED (15 R363, R492). -/
def evSnRefused (cause value : Nat) : Ev := { c := 12, i := 0, bit := 16, code := 0x7C00, payload := value + cause * 2 ^ 32 }

/-- Whether a Quill is free under R219 and condition 1 of R18. -/
def quillFree (q : Nat) (s : State) : Bool :=
  let v := quill q s
  let p := spad (q / 4) s
  v.st == .free && v.job == 0xFFFF && !v.sparePending && !v.withdrawn && domainOn (q / 4) s && blockEnabled 2 q s
    && !((p.pendShares ++ p.heldShares).contains (q % 4)) && !(match s.sn.stRun with | some (4, u, _) => u == q | _ => false)

/-- Banks a Quill's share needs ON: its own four (09 R218, R226). -/
def shareBanksOn (q : Nat) (s : State) : Bool := (List.range 4).all (fun i => ((spad (q / 4) s).bank (4 * (q % 4) + i)).st == .on)

/-- The windows that admission opens in an Inkwell for a job: one for each binding part there (09 R221). -/
def bindWindows (d : JobDesc) (n : Nat) (s : State) : List Window :=
  (jobBindings d s).filterMap (fun b =>
    match bindPart b (deviceId s) n with
    | some (off, len) =>
      let lo := off / 64 * 64
      let hi := (off + len + 63) / 64 * 64
      some { base := lo, length := hi - lo, owner := d.id, read := true, write := !b.readOnly, atomic := !b.readOnly, state := .opened,
             clsJob := true, devMatch := deviceId s, devMask := 0xFF, jobMatch := d.id, jobMask := 0xFFFF, expiry := 0, refused := 0 }
    | none => none)

/-- Free window entries of an Inkwell, rising. -/
def freeWins (n : Nat) (s : State) : List Nat := (List.range 128).filter (fun w => ((spad n s).win w).state == .free)

/-- The Inkwells of a descriptor's Quills. -/
def JobDesc.inkwells (d : JobDesc) : List Nat := ((d.quillsA ++ d.quillsB).map (fun q => q / 4)).eraseDups

/-- Power reserved by the jobs that hold resources, 0.1 W (01 R18). -/
def powerReserved (s : State) : Nat := (s.jobs.filter (fun j => j.holds)).foldl (fun n j => n + j.d.power) 0

/-- Slots a deterministic job takes: mem_share, at least one (06 R149). -/
def slotShare (d : JobDesc) : Nat := max d.memShare 1

/-- Slots reserved by the deterministic jobs that hold resources (01 R18). -/
def slotsReserved (s : State) : Nat := (s.jobs.filter (fun j => j.holds && j.d.det)).foldl (fun n j => n + slotShare j.d) 0

/-- Slot positions in use. -/
def slotsTaken (s : State) : List Nat := (s.jobs.filter (fun j => j.holds)).flatMap (fun j => j.slots)

/-- The availability conditions of R18 (1 to 3) and R219. -/
def available (d : JobDesc) (s : State) : Bool :=
  (d.quillsA ++ d.quillsB).all (fun q => quillFree q s && shareBanksOn q s)
    && d.inkwells.all (fun n => (fitUnits n (imageUnits d s) s).isSome && decide ((bindWindows d n s).length ≤ (freeWins n s).length)
        && domainOn (48 + n) s && ((spad n s).bank 15).st == .on)
    && decide (powerReserved s + d.power + rdField 13 0 0x44 15 0 s ≤ rdField 13 0 0x40 15 0 s)
    && (!d.det || decide (slotsReserved s + slotShare d ≤ 56))

/-- The oldest QUEUED job of each command queue. -/
def queueHeads (s : State) : List JobRec :=
  let qd := s.jobs.filter (fun j => j.phase == .queued)
  qd.filter (fun j => qd.all (fun k => k.cmdQ != j.cmdQ || decide (j.arrival ≤ k.arrival)))

/-- The head to act on next: lowest priority class, then round-robin by queue ID after the last one taken (01 R19). -/
def pickHead (l : List JobRec) (s : State) : Option JobRec :=
  let p := l.foldl (fun m j => min m j.d.prio) 4
  let c := l.filter (fun j => j.d.prio == p)
  let last := Tbl.get 0 s.rrQueue p
  let after := c.filter (fun j => decide (last < j.cmdQ))
  let pool := if after.isEmpty then c else after
  pool.find? (fun j => pool.all (fun k => decide (j.cmdQ ≤ k.cmdQ)))

/-- A Quill given to a job: registers as at start, counters cleared, the wait limit latched (05 R117, QL registers). -/
def ownQuill (d : JobDesc) (b : Bool) (rank count q : Nat) (s : State) : State :=
  let v := quill q s
  let sc : Tbl Word := Tbl.set 0 (Tbl.set 0 (Tbl.set 0 [] 1 (BitVec.ofNat 32 rank)) 2 (BitVec.ofNat 32 count)) 3 (BitVec.ofNat 32 (deviceId s))
  let s1 := setQuill q { v with job := d.id, copyB := b, det := d.det, rank := rank, count := count, st := .loading, wait := 0, pc := 0, loops := [],
                                sc := sc, sem := [], opIndex := 0, ops := [], waitLimit := (rdReg 2 q 0x5C s).toNat, ended := false,
                                startAt := none, capRate := 4096, capRem := 0, issued := 0, sigs := [], arrived := false,
                                atomic := none, ext := false, throttle := 0, taken := s.time.clk } { s with pwr := { s.pwr with waiting := Tbl.erase s.pwr.waiting q } }
  wrCtr 2 q 0x60 0 (wrCtr 2 q 0x68 0 (wrCtr 2 q 0x70 0 s1))

/-- The Quills of a copy given to a job, ranks in rising order (05 R117). -/
def ownCopy (d : JobDesc) (b : Bool) (qs : List Nat) (s : State) : State :=
  (List.range qs.length).foldl (fun acc r => match qs[r]? with | some q => ownQuill d b r qs.length q acc | none => acc) s

/-- The channels of a job's Quills start empty with no error (05 R128, IWL_DMA_STATUS). -/
def freshChans (d : JobDesc) (s : State) : State :=
  (d.quillsA ++ d.quillsB).foldl (fun acc q =>
    [2 * (q % 4), 2 * (q % 4) + 1].foldl (fun a c =>
      let k := q / 4 * 8 + c
      let e := rdField 1 (q / 4) 0x44 15 8 a
      wrField 1 (q / 4) 0x44 15 8 (if natBit e c then e - 2 ^ c else e) (setChan k ⟨[], 0, false⟩ a)) acc) s

/-- Windows opened in the lowest free entries of an Inkwell (09 R221; DESIGN CHOICE, log entry 14). -/
def openWindows (n : Nat) (ws : List Window) (s : State) : State :=
  ((freeWins n s).zip ws).foldl (fun acc e => setSpad n ((spad n acc).setWin e.1 e.2) acc) s

/-- A job admitted: reservations taken, program areas allocated, windows opened, Quills loading; emergency throttles that last are recorded (01 R18, job
states; 06 R153). -/
def admitJob (j : JobRec) (s : State) : State :=
  let d := j.d
  let units := imageUnits d s
  let areas := d.inkwells.filterMap (fun n => match fitUnits n units s with | some u => some (n, u, units) | none => none)
  let slots := if d.det then ((List.range 64).filter (fun p => !((slotsTaken s).contains p))).take (slotShare d) else []
  let s1 := d.inkwells.foldl (fun acc n => openWindows n (bindWindows d n s) acc) s
  let s2 := ownCopy d true d.quillsB (ownCopy d false d.quillsA (freshChans d s1))
  let s3 := areas.foldl (fun acc a => wrField 1 a.1 0x40 6 0 a.2.2 (wrField 1 a.1 0x40 31 16 d.id acc)) s2
  markNow d.id (updJob d.id (fun k => { k with phase := .admitted, areas := areas, slots := slots })
    { s3 with rrQueue := Tbl.set 0 s3.rrQueue d.prio j.cmdQ })

/-- Whether HOST_HOLD holds admission (18 R439). -/
def admissionHeld (s : State) : Bool := natBit (rdReg 14 0 0x124 s).toNat 0

/-- The domains and banks that a queued job needs and that are off are switched on for it; it waits for them (16 R389; 09 R226). -/
def wakeFor (d : JobDesc) (s : State) : State :=
  let s1 := d.inkwells.foldl (fun acc n => domainRise (48 + n) true (domainRise n true acc)) s
  let s2 := (d.quillsA ++ d.quillsB).foldl (fun acc q => (List.range 4).foldl (fun a i =>
    if domainOn (48 + q / 4) a then bankWake (q / 4) (4 * (q % 4) + i) 0xFFFF a else a) acc) s1
  d.inkwells.foldl (fun acc n => if domainOn (48 + n) acc then bankWake n 15 0xFFFF acc else acc) s2

/-- Whether a job's only way is to be admitted: condition 7 and R355 do not refuse it. -/
def admissible (j : JobRec) (s : State) : Bool := bindingsInShares j.d s && (safetyFault j.d s).isNone

/-- Jobs may be admitted: a main image runs, memory is trained, and the voltage table or the values without one are in use (19 R450). -/
def bootReady (s : State) : Bool :=
  s.sec.phase == 1 && s.pwr.tableDone && (List.range 8).all (fun m => natBit (rdReg 4 m 0x44 s).toNat 0)

/-- JOB_ADMIT: the head that R19 picks among the queue heads that are refused by condition 7 or R355, or can be admitted. Where a class's round-robin
starts, and that a head refused here moves its pointer too, is the model's (DESIGN CHOICE, log entry 57). -/
def execJobAdmit (s : State) : Out :=
  .next (
    if admissionHeld s ∨ s.qe.stFull ∨ fenced s ∨ blockEnabled 15 0 s = false ∨ bootReady s = false then s
    else
      let ready := (queueHeads s).filter (fun j => j.status == 0 && (!bindingsInShares j.d s || (safetyFault j.d s).isSome || available j.d s))
      match pickHead ready s with
      | none => ((queueHeads s).filter (fun j => j.status == 0 && admissible j s)).foldl (fun acc j => wakeFor j.d acc) s
      | some j =>
        let drop := fun (st : State) => { dropJob j.d.id st with rrQueue := Tbl.set 0 st.rrQueue j.d.prio j.cmdQ }
        if bindingsInShares j.d s = false then (if complReady j.d.complQ s then refuseJob j.d j.cmdQ 1 7 (drop s) else s)
        else match safetyFault j.d s with
          | some c => if complReady j.d.complQ s then refuseJob j.d j.cmdQ 1 0x10 (drop (raise (evSnRefused c.1 (j.d.id + c.2 % 65536 * 65536)) s)) else s
          | none => admitJob j s)

/-- The validated parts of a job's image, from LPDDR5X (05 R115). -/
def jobImage (d : JobDesc) (s : State) : Image :=
  let n := if d.safety then 2 * d.bindCount else d.bindCount
  let sz := imageBytes d s
  Image.read (rdBytes s d.prog (if 64 ≤ sz ∧ sz ≤ 262144 then sz else 64)) (rdBytes s d.bindAddr (32 * n)) n

/-- The queue rule of a safety job's image: QPUSH only to the setpoint queue, no QPOP (15 R355). -/
def safetyImageFault (d : JobDesc) (m : Image) (s : State) : Option Nat :=
  if d.safety = false then none
  else firstBad (fun _ w => match QInstr.decode w with
    | some (.qpush _ _ _ q) => q == rdField 12 0 0x4C 19 0 s
    | some (.qpop ..) => false
    | _ => true) 0 m.words

/-- What validation asks of the device for a job (08 R197, R202). -/
def imageEnv (d : JobDesc) (s : State) : ImageEnv :=
  { scaleGroup := fun b => if b.hasScales then (ScaleDesc.read (rdBytes s b.scaleDesc 32)).group else 0
    owns := fun a n => (List.range 48).any (fun w => decide (spadAddr w 0 ≤ a ∧ a + n ≤ spadAddr w 0x800000)
      && inShares (d.quillsA ++ d.quillsB) w (a - spadAddr w 0) n) }

/-- Validation of a job: cause, index and kind of the fault, or none (05 R115, 15 R355). -/
def jobFault (d : JobDesc) (s : State) : Option (Nat × Nat × Nat) :=
  let m := jobImage d s
  let sz := imageBytes d s
  match validate m (imageEnv d s) (rdBytes s d.prog (if 64 ≤ sz ∧ sz ≤ 262144 then sz else 64)) d.quillsA.length d.bindCount d.det with
  | some (c, i, k) => if c ≤ 5 then some (c, i, k) else match safetyImageFault d m s with | some n => some (6, n, 0) | none => some (c, i, k)
  | none => match safetyImageFault d m s with | some n => some (6, n, 0) | none => none

/-- PROGRAM_INVALID from a Quill (05 R140). -/
def evProgramInvalid (q job : Nat) (f : Nat × Nat × Nat) : Ev :=
  { c := 2, i := q, bit := 8, code := 0x7101, job := job, payload := f.2.1 + f.1 * 2 ^ 32 + f.2.2 * 2 ^ 40 }

/-- The image copied into a job's program area in each Inkwell (05 R115). -/
def copyImage (j : JobRec) (s : State) : State :=
  let img := rdBytes s j.d.prog (imageBytes j.d s)
  j.areas.foldl (fun acc a => wrBytes (spadAddr a.1 (progBase + a.2.1 * 4096)) img acc) s

/-- The start of a Quill after a release at a model time: 16 × (w + 1) mesh cycles; that of a deterministic job runs at 1,500 MHz (05 R138; 06 R147,
R155). -/
def startQuill (release q : Nat) (s : State) : State :=
  let v := quill q s
  setQuill q { v with st := .running, wait := 0, startAt := some (release + 2 * 16 * (wave q + 1)), mhz := if v.det then 1500 else v.mhz } s

/-- The entry of the image copy in a Quill's Inkwell (05 R115). -/
def copiedEntry (j : JobRec) (q : Nat) (s : State) : Nat :=
  match j.areas.find? (fun a => a.1 == q / 4) with
  | some a => (ImgHdr.read (rdBytes s (spadAddr a.1 (progBase + a.2.1 * 4096)) 64)).entry
  | none => 0

/-- Whether a job's chain condition is met (11 R258). -/
def chainMet (j : JobRec) (s : State) : Bool :=
  j.d.chainCount == 0 || decide (j.d.chainCount ≤ ((qDesc j.d.chainQ s).notices + 2 ^ 32 - j.chainSample) % 2 ^ 32)

/-- Where a job's image and its binding table lie in memory: address and length of each (05 R115, R118). -/
def jobReads (d : JobDesc) (s : State) : List (Nat × Nat) :=
  [(d.prog, imageBytes d s), (d.bindAddr, 32 * (if d.safety then 2 * d.bindCount else d.bindCount))]

/-- An uncorrectable block in a job's image or binding table fails the job (01 R22; 10 R240). -/
def jobUnreadable (j : JobRec) (s : State) : State :=
  let s1 := (jobReads j.d s).foldl (fun acc r => (mcReadBlocks j.d.id (blocksOf r.1 r.2) acc).2) s
  stopJob j.d.id 4 (lastSeq s s1) s1

/-- JOB_RUN_START: copies and validation, then the move to RUNNING once the chain condition is met, for a deterministic job at a
rotation boundary (05 R115, R117; 06 R155; 10 R243). -/
def execJobRunStart (id : Nat) (s : State) : Out :=
  .next (
    match findJob id s with
    | none => s
    | some j =>
      if j.phase ≠ .admitted ∨ admissionHeld s = true then s
      else if j.validated = false ∧ (jobReads j.d s).any (fun r => memBad r.1 r.2 s) = true then jobUnreadable j s
      else if j.validated = false ∧ (jobFault j.d s).isSome then
        match jobFault j.d s, j.d.quillsA with
        | some f, q :: _ => failWith id (evProgramInvalid q id f) s
        | _, _ => s
      else
        let s1 := if j.validated then s else updJob id (fun k => { k with validated := true }) (copyImage j s)
        if chainMet j s1 = false then s1
        else
          let s2 := if j.d.det then advanceToRing (rotationAfter (ringNow s1)) s1 else s1
          let s3 := j.quills.foldl (fun acc q => startQuill s2.time.clk q (setQuill q { quill q acc with pc := copiedEntry j q s2 } acc)) s2
          markNow id <| updJob id (fun k => { k with phase := .running, start := devNow s2, unrec := natBit (rdReg 13 0 0x50 s2).toNat 0 }) s3)

/-- WAVE_START: a Quill's wave comes after a release (06 R155). -/
def execWaveStart (q : Nat) (s : State) : Out :=
  .next (
    match (quill q s).startAt with
    | none => s
    | some t =>
      let s1 := advanceTo t s
      setQuill q { quill q s1 with startAt := none } s1)

/-- Whether every operation and DMA of a job has drained (05 R117). -/
def jobDrained (j : JobRec) (s : State) : Bool :=
  j.quills.all (fun q => (quill q s).ended && (quill q s).ops.isEmpty)
    && s.chans.all (fun e => e.2.reqs.all (fun r => r.job != j.d.id))

/-- Whether a job's lines are all filled. -/
def linesFilled (j : JobRec) (s : State) : Bool :=
  j.quills.all (fun q => !((spad (q / 4) s).pendShares.contains (q % 4)) && !((spad (q / 4) s).heldShares.contains (q % 4)))
    && j.areas.all (fun a => (List.range a.2.2).all (fun i => !((spad a.1 s).pendUnits.contains (a.2.1 + i)) && !((spad a.1 s).heldUnits.contains (a.2.1 + i))))

/-- Packets of a job that are reserved and neither complete nor abandoned (11 R257). -/
def jobPackets (id : Nat) (s : State) : Bool := s.qe.pkts.any (fun p => p.job == id && !p.complete && p.rtype == 0)

/-- The small convolution engine has a layer of a job in progress (08 R214). -/
def fineBusy (id : Nat) (s : State) : Bool := match s.fn.cur with | some c => leField c.desc 10 2 == id | none => false

/-- The Quills of a finished job: freed at once if their lines are filled, else STOPPING until then. -/
def releaseQuills (j : JobRec) (s : State) : State :=
  j.quills.foldl (fun acc q =>
    let v := quill q acc
    let pend := (spad (q / 4) acc).pendShares.contains (q % 4) || (spad (q / 4) acc).heldShares.contains (q % 4)
    setQuill q { v with st := if pend then .stopping else if v.withdrawn then .withdrawn else .free,
                        job := if pend then v.job else 0xFFFF, ops := [], startAt := none, freed := acc.time.clk } acc) s

/-- JOB_DONE: the completion record, after the last operation, reserved packet and layer of a job that ended, or after the zero-fill of one that was
killed or failed; that of one ended while QUEUED, once it has room (01 R22; 09 R227; 11 R262, R267). -/
def execJobDone (id : Nat) (s : State) : Out :=
  .next (
    match findJob id s with
    | none => s
    | some j =>
      if complReady j.d.complQ s = false then s
      else match j.phase with
        | .running =>
          if jobDrained j s && !jobPackets id s && !fineBusy id s && (!j.d.safety || j.compared) then
            complete j (releaseQuills j (releaseLines j (closeWindows id (leaveWaits j s))))
          else s
        | .scrubbing => if linesFilled j s && !jobPackets id s && !fineBusy id s then complete j (releaseQuills j s) else s
        | .queued => if j.status = 0 then s else complete j s
        | _ => s)

/-- Whether a window of an Inkwell becomes FREE after the fill: closed, its owner gone, and no share of that owner in the Inkwell held
back from the fill (09 R224, R229). -/
def windowFreed (n : Nat) (w : Window) (s : State) : Bool :=
  (w.state == .closed || w.state == .closedPower) && w.gone
    && !(spad n s).heldShares.any (fun q => (quill (4 * n + q) s).job == w.owner)

/-- The lines of pending shares and units set to zero, those in banks that are not ON skipped (09 R227). -/
def fillLines (n : Nat) (s : State) : State :=
  let p := spad n s
  let s1 := p.pendShares.foldl (fun acc q =>
    (List.range 4).foldl (fun a i =>
      let b := 4 * q + i
      let lo := max (b * 0x80000) (shareRange q).1
      let hi := min ((b + 1) * 0x80000) (shareRange q).2
      if (p.bank b).st == .on then zeroBytes (spadAddr n lo) (hi - lo) a else a) acc) s
  p.pendUnits.foldl (fun acc u => if (p.bank 15).st == .on then zeroBytes (spadAddr n (progBase + u * 4096)) 4096 acc else acc) s1

/-- Whether a fill writes a word: in a line whose fill is pending, in a bank that is ON (09 R227, R229). -/
def Spad.fills (p : Spad) (w : Nat) : Bool := { p with heldShares := [], heldUnits := [] }.awaitsFill w 8 && (p.bank (w / 0x80000)).st == .on

/-- The words of an Inkwell that a fill writes whole lose their errors (09 R230). -/
def fillErrors (p : Spad) : Spad := p.clean p.fills

/-- The rows of an Inkwell with an uncorrectable word that a predicate names: bank × 8,192 + row (09 R232). -/
def Spad.badRows (p : Spad) (f : Nat → Bool) : List Nat := ((p.double.filter f).map (fun w => w / 64)).eraseDups

/-- The rows with an uncorrectable word among the lines being filled: bank × 8,192 + row (09 R232). -/
def filledBadRows (p : Spad) : List Nat := p.badRows p.fills

/-- A row of a bank spared, or its bank retired when no spare is left: row = Inkwell offset / 64 (09 R232). -/
def spareRow (n row : Nat) (s : State) : State :=
  let p := spad n s
  let b := row / 8192
  let k := p.bank b
  if k.spares = 0 then
    if k.retired then s
    else
      let mask := if b = 15 then 15 else 2 ^ (b / 4)
      let s1 := setSpad n (p.setBank b { k with retired := true }) s
      let s2 := raise { c := 3, i := n, bit := 8, code := 0x3401, ctx := b, payload := mask } s1
      (List.range 4).foldl (fun acc q => if natBit mask q then withdrawQuill (n * 4 + q) acc else acc) s2
  else
    let p1 := p.setBank b { k with spares := k.spares - 1 }
    let s1 := setSpad n { p1.clean (fun w => w / 64 == row) with spared := p1.spared ++ [row], rowsHit := p1.rowsHit.filter (fun e => e.1 != row) } s
    let off := 0x84 + 4 * (b / 4)
    let s2 := wrField 3 n off (8 * (b % 4) + 5) (8 * (b % 4)) (k.spares - 1) s1
    askSetting 4 (.spadRows n (p1.spared ++ [row]))
      (raise { c := 3, i := n, bit := 6, code := 0x1401, ctx := b, payload := row % 8192 + (k.spares - 1) * 2 ^ 13 } s2)

/-- IWL_PROG_AREA after a fill: the lowest image still held, or empty (05 IWL_PROG_AREA). -/
def showArea (n : Nat) (s : State) : State :=
  let l := (s.jobs.filter (fun j => j.holds)).filterMap (fun j => match j.areas.find? (fun a => a.1 == n) with | some a => some (a.2.1, j.d.id, a.2.2) | none => none)
  match l.find? (fun x => l.all (fun y => decide (x.1 ≤ y.1))) with
  | some x => wrField 1 n 0x40 6 0 x.2.2 (wrField 1 n 0x40 31 16 x.2.1 s)
  | none => wrReg 1 n 0x40 0 s

/-- ZERO_FILL_DONE: the fill of an Inkwell's pending shares and program units completes; its Quills become free, its closed
windows FREE (09 R219, R224, R227, R228, R232). -/
def execZeroFillDone (n : Nat) (s : State) : Out :=
  .next (
    let p := spad n s
    if p.pendShares.isEmpty && p.pendUnits.isEmpty then s
    else
      let bad := filledBadRows p
      let s1 := fillLines n s
      let p1 := fillErrors (spad n s1)
      let done := p.pendShares
      let p2 := { p1 with pendShares := [], pendUnits := [] }
      let s2 := setSpad n { p2 with wins := p2.wins.map (fun w => (w.1, if windowFreed n w.2 s then { w.2 with state := .free } else w.2)) } s1
      let s3 := done.foldl (fun acc q =>
        let g := n * 4 + q
        let v := quill g acc
        let live := match findJob v.job acc with | some j => j.holds | none => false
        if v.st = .stopping ∧ live = false then
          setQuill g { v with st := if v.withdrawn then .withdrawn else .free, job := 0xFFFF, freed := acc.time.clk } acc
        else acc) s2
      showArea n (bad.foldl (fun acc r => spareRow n r acc) s3))

end Sys2Proof.Machine
end

