-- ==== Sys2Proof/Machine/TrOps.lean ====
section
/-! DEFINITION. The control engine's shared operations: slots, inputs as latched, law words and their checks, holds (13). -/

namespace Sys2Proof.Machine

/-- A slot. -/
def trSlot (n : Nat) (s : State) : TrSlot := Tbl.get {} s.tr.slots n

/-- A slot replaced. -/
def setSlot (n : Nat) (v : TrSlot) (s : State) : State := { s with tr := { s.tr with slots := Tbl.set {} s.tr.slots n v } }

/-- An encoder, an input, an ADC master, a PWM channel; each replaced. -/
def tioEnc (n : Nat) (s : State) : TioEnc := Tbl.get {} s.tio.encs n
def setEnc (n : Nat) (v : TioEnc) (s : State) : State := { s with tio := { s.tio with encs := Tbl.set {} s.tio.encs n v } }
def tioDin (n : Nat) (s : State) : TioDin := Tbl.get {} s.tio.dins n
def setDin (n : Nat) (v : TioDin) (s : State) : State := { s with tio := { s.tio with dins := Tbl.set {} s.tio.dins n v } }
def tioAdc (n : Nat) (s : State) : TioAdc := Tbl.get {} s.tio.adcs n
def setAdc (n : Nat) (v : TioAdc) (s : State) : State := { s with tio := { s.tio with adcs := Tbl.set {} s.tio.adcs n v } }
def tioPwm (n : Nat) (s : State) : TioPwm := Tbl.get {} s.tio.pwms n
def setPwm (n : Nat) (v : TioPwm) (s : State) : State := { s with tio := { s.tio with pwms := Tbl.set {} s.tio.pwms n v } }

/-- A number from bits. -/
def bitsOf (n : Nat) (f : Nat → Bool) : Nat := (List.range n).foldl (fun a i => if f i then a + 2 ^ i else a) 0

/-- What a discrete input reads: its filtered level after polarity (13 R310). -/
def TioDin.reads (d : TioDin) : Bool := d.level != natBit (byteAt d.cfg 2) 0

/-- The inputs as they stand now (13 R299, R309 to R311): an invalid input reads as its last valid value (DEDUCED, log entry 43). -/
def snapNow (s : State) : Snap :=
  let t := devNow s
  let adc := fun n => Tbl.get (0, 0) (tioAdc (n / 8) s).readings (n % 8)
  let age := fun n => t - (adc n).2
  { time := t
    encs := (List.range 16).map (fun n => let e := tioEnc n s; if e.cause = 0 then e.pos else e.last)
    encBad := bitsOf 16 (fun n => decide ((tioEnc n s).cause ≠ 0 ∨ byteAt (tioEnc n s).cfg 0 % 4 = 0))
    dins := bitsOf 32 (fun n => (tioDin n s).reads)
    dinBad := bitsOf 32 (fun n => (tioDin n s).fast || (tioDin n s).stuck)
    adcs := (List.range 32).map (fun n => (adc n).1)
    ages := (List.range 32).map age
    adcBad := bitsOf 32 (fun n => let m := leField (tioAdc (n / 8) s).cfg 12 4; decide (m ≠ 0 ∧ m < age n)) }

/-- A slot's fields (13 R296). -/
def TrSlot.src (v : TrSlot) : Nat := byteAt v.cfg 0 % 8
def TrSlot.arg (v : TrSlot) : Nat := byteAt v.cfg 1
def TrSlot.lawAt (v : TrSlot) : Nat := leField v.cfg 2 2
def TrSlot.holdAt (v : TrSlot) : Nat := leField v.cfg 4 2
def TrSlot.holdMode (v : TrSlot) : Nat := byteAt v.cfg 6 % 4
def TrSlot.period (v : TrSlot) : Nat := leField v.cfg 8 4
def TrSlot.phase (v : TrSlot) : Nat := leField v.cfg 12 4
def TrSlot.encMask (v : TrSlot) : Nat := leField v.cfg 16 2
def TrSlot.ageLimit (v : TrSlot) : Nat := leField v.cfg 18 2
def TrSlot.dinMask (v : TrSlot) : Nat := leField v.cfg 20 4
def TrSlot.adcMask (v : TrSlot) : Nat := leField v.cfg 24 4

/-- A trigger dropped: counted, and reported at most once per millisecond per slot (13 R298). -/
def trOverrun (n : Nat) (inj : Bool) (s : State) : State :=
  let key := 0xA00000 + n
  raiseRated key oneMs { c := 10, i := 0, bit := 6, code := 0x2A00, ctx := n, payload := ratedCount key s + injFlag inj } (bump 10 0 0xC8 1 s)

/-- The triggers of a source fire in every started slot that uses it, with the inputs of the same tick (13 R296, R299). -/
def fireSlots (src arg : Nat) (s : State) : State :=
  let snap := snapNow s
  (List.range 64).foldl (fun acc n =>
    let v := trSlot n acc
    if v.st = 0 ∨ v.src ≠ src ∨ v.arg ≠ arg then acc
    else if v.fired.isSome then trOverrun n false acc
    else setSlot n { v with fired := some snap } acc) s

/-- The first timer instant of a slot after a device time (13 R297). -/
def TrSlot.nextTick (v : TrSlot) (t : Nat) : Nat :=
  if t < v.phase then v.phase % v.period + (t + v.period - v.phase % v.period) / v.period * v.period
  else v.phase + ((t - v.phase) / v.period + 1) * v.period

/-- A forward step of device time fires none of the instants it skips (13 R297; 02 R54). -/
def trTimeSkip (before now : Nat) (s : State) : State :=
  (List.range 64).foldl (fun acc n =>
    let v := trSlot n acc
    if v.st = 0 ∨ v.src ≠ 1 ∨ v.period = 0 then acc
    else
      let first := v.nextTick (max before v.timer)
      if now < first then acc
      else raise { c := 10, i := 0, bit := 7, code := 0x2A01, ctx := n, payload := (now - first) / v.period + 1 } (setSlot n { v with timer := now } acc)) s

/-- The coefficient bank that laws read (13 R317). -/
def trActive (s : State) : Nat := if rdField 10 0 0x84 0 0 s = 1 then rdField 10 0 0x84 1 1 s else 0

/-- A law instruction (13 R301). -/
inductive LawIns where
  | stop
  | mac (clr : Bool) (src coef : Nat)
  | store (dst sh : Nat)
  | limit (dst coef : Nat)
  | move (dst src : Nat)
  | outPwm (src chan : Nat)
  | outBuf (src buf word : Nat)
  | send (buf : Nat)
  | skipif (src cond n : Nat)
  deriving DecidableEq, Repr

/-- The word of an instruction (13 R301). -/
def LawIns.word : LawIns → Nat
  | .stop => 0
  | .mac clr src coef => 2 ^ 28 + b2n clr * 2 ^ 27 + src * 2 ^ 19 + coef * 2 ^ 8
  | .store dst sh => 2 * 2 ^ 28 + dst * 2 ^ 19 + sh * 2 ^ 8
  | .limit dst coef => 3 * 2 ^ 28 + dst * 2 ^ 19 + coef * 2 ^ 8
  | .move dst src => 4 * 2 ^ 28 + dst * 2 ^ 19 + src * 2 ^ 11
  | .outPwm src chan => 5 * 2 ^ 28 + src * 2 ^ 19 + chan * 2 ^ 13
  | .outBuf src buf word => 5 * 2 ^ 28 + src * 2 ^ 19 + 2 ^ 18 + buf * 2 ^ 14 + word * 2 ^ 10
  | .send buf => 6 * 2 ^ 28 + buf * 2 ^ 14
  | .skipif src cond n => 7 * 2 ^ 28 + src * 2 ^ 19 + cond * 2 ^ 17 + n * 2 ^ 8

/-- The fields of a word by its opcode. -/
def LawIns.fields (w : Nat) : Option LawIns :=
  match natField w 31 28 with
  | 0 => some .stop
  | 1 => some (.mac (natBit w 27) (natField w 26 19) (natField w 18 8))
  | 2 => some (.store (natField w 26 19) (natField w 13 8))
  | 3 => some (.limit (natField w 26 19) (natField w 18 8))
  | 4 => some (.move (natField w 26 19) (natField w 18 11))
  | 5 => if natBit w 18 then some (.outBuf (natField w 26 19) (natField w 17 14) (natField w 13 10))
         else some (.outPwm (natField w 26 19) (natField w 17 13))
  | 6 => some (.send (natField w 17 14))
  | 7 => some (.skipif (natField w 26 19) (natField w 18 17) (natField w 12 8))
  | _ => none

/-- The instruction that a word encodes; unnamed bits must be 0, LIMIT's coefficient is at most 2,046, a PWM channel at most 23 and a
skip at least 1 (13 R301). -/
def lawDecode (w : Nat) : Option LawIns :=
  match LawIns.fields w with
  | some i =>
    let ok := match i with
      | .limit _ c => decide (c ≤ 2046)
      | .outPwm _ c => decide (c ≤ 23)
      | .skipif _ _ n => decide (1 ≤ n)
      | _ => true
    if i.word = w ∧ ok = true then some i else none
  | none => none

/-- Signals that an instruction reads, and the one it writes in the slot state or shared words (13 R301). -/
def LawIns.readsOf : LawIns → List Nat
  | .mac _ src _ => [src]
  | .limit dst _ => [dst]
  | .move _ src => [src]
  | .outPwm src _ => [src]
  | .outBuf src _ _ => [src]
  | .skipif src _ _ => [src]
  | _ => []

/-- The signal an instruction writes. -/
def LawIns.writes : LawIns → Option Nat
  | .store dst _ => some dst
  | .limit dst _ => some dst
  | .move dst _ => some dst
  | _ => none

/-- Whether a slot may read a signal (13 R300). -/
def TrSlot.mayRead (v : TrSlot) (a : Nat) : Bool :=
  decide (a ≤ 0x1F) || (decide (0x40 ≤ a ∧ a ≤ 0x5F) && natBit v.encMask (a % 16)) || (decide (0x60 ≤ a ∧ a ≤ 0x7F) && natBit v.dinMask (a - 0x60))
    || (decide (0x80 ≤ a ∧ a ≤ 0x9F) && natBit v.adcMask (a - 0x80)) || decide (0xA0 ≤ a ∧ a ≤ 0xA9) || decide (0xC0 ≤ a ∧ a ≤ 0xFF)

/-- Whether a law may write a signal (13 R300). -/
def lawMayWrite (a : Nat) : Bool := decide (a ≤ 0x1F) || decide (0xC0 ≤ a ∧ a ≤ 0xFF)

/-- The instructions of a law from an index up to its END; none where none ends it in `fuel` words of the memory, or one is undefined
(13 R301, R303). -/
def lawFrom (law : Tbl Word) : Nat → Nat → Option (List LawIns)
  | 0, _ => none
  | fuel + 1, at_ =>
    if 4096 ≤ at_ then none
    else match lawDecode (Tbl.get 0 law at_).toNat with
      | none => none
      | some .stop => some [.stop]
      | some i => (lawFrom law fuel (at_ + 1)).map (fun l => i :: l)

/-- The law at an index (13 R301: at most 256 instructions). -/
def lawAt (at_ : Nat) (s : State) : Option (List LawIns) := lawFrom s.tr.law 256 at_

/-- Whether a law keeps R300 and R303 in a slot: reads in the masks, writes allowed, skips that end within it. -/
def lawOk (v : TrSlot) (l : List LawIns) : Bool :=
  l.zipIdx.all (fun e =>
    e.1.readsOf.all v.mayRead && (match e.1.writes with | some a => lawMayWrite a | none => true)
      && (match e.1 with | .skipif _ _ n => decide (e.2 + 1 + n < l.length) | _ => true))

/-- The stall of an instruction for the one `k` places earlier (13 R303). -/
def stallFor (prev cur : LawIns) (k : Nat) : Nat :=
  let hit := (match prev.writes with | some a => cur.readsOf.contains a | none => false)
    || (match prev, cur with | .mac _ _ _, .store _ _ => true | _, _ => false)
  if hit then 3 - k else 0

/-- law_cycles of one law (13 R303): a cycle for each instruction and its stalls, the two before it given. -/
def cyclesFrom (p1 p2 : Option LawIns) : List LawIns → Nat
  | [] => 0
  | i :: t =>
    let st := max (match p1 with | some p => stallFor p i 1 | none => 0) (match p2 with | some p => stallFor p i 2 | none => 0)
    1 + st + cyclesFrom (some i) p1 t

/-- The laws of a slot: its law, and its hold law with hold_mode 0 (13 R296). -/
def slotLaws (v : TrSlot) (s : State) : List LawIns :=
  (lawAt v.lawAt s).getD [] ++ (if v.holdMode = 0 then (lawAt v.holdAt s).getD [] else [])

/-- law_cycles of a slot's entry as a configure computes it: the larger of its laws' (13 R298, R303, R305). -/
def lawCycles (v : TrSlot) (s : State) : Nat :=
  let a := cyclesFrom none none ((lawAt v.lawAt s).getD [])
  if v.holdMode = 0 then max a (cyclesFrom none none ((lawAt v.holdAt s).getD [])) else a

/-- law_cycles of a configured slot (13 TR_SLOT_STATUS). -/
def slotCycles (v : TrSlot) : Nat := if v.conf then v.cycles else 0

/-- TR_SLOT_WCL of a slot (13 R305). -/
def slotWcl (n : Nat) (s : State) : Nat :=
  let v := trSlot n s
  if v.conf = false then 0
  else 56 + slotCycles v + ((List.range n).map (fun j => let w := trSlot j s; if w.conf then slotCycles w + 24 else 0)).sum

/-- PWM channels and transmit buffers that laws write (13 R303). -/
def pwmsOf (l : List LawIns) : List Nat := l.filterMap (fun i => match i with | .outPwm _ c => some c | _ => none)

/-- Transmit buffers that laws write or send (13 R303). -/
def bufsOf (l : List LawIns) : List Nat := l.filterMap (fun i => match i with | .outBuf _ b _ => some b | .send b => some b | _ => none)

/-- Whether a started slot meets a condition on its laws. -/
def startedUses (f : TrSlot → List LawIns → Bool) (s : State) : Bool :=
  (List.range 64).any (fun n => let v := trSlot n s; decide (v.st ≠ 0) && f v (slotLaws v s))

/-- Whether the entry keeps the table of R296. -/
def slotTableOk (b : List Byte) : Bool :=
  let v : TrSlot := { cfg := b }
  let argMax := match v.src with | 2 => 15 | 3 => 15 | 4 => 15 | 5 => 23 | 6 => 31 | _ => 255
  decide (byteAt b 0 < 7 ∧ byteAt b 6 < 3 ∧ byteAt b 7 = 0 ∧ leField b 28 4 = 0 ∧ v.lawAt ≤ 4095 ∧ v.holdAt ≤ 4095 ∧ v.arg ≤ argMax)
    && (v.src != 1 || decide (5000 ≤ v.period ∧ v.period ≤ 1000000000 ∧ v.phase < v.period))

/-- TR_CONFIG_REFUSED; the causes 1 to 5 stand for R296, R298, R303, R308, R317 in that order (13 R320). -/
def trRefuse (value cause n : Nat) (s : State) : State :=
  raise { c := 10, i := 0, bit := 13, code := 0x7A00, ctx := n, payload := value % 2 ^ 32 + cause * 2 ^ 32 } s

/-- Signed 32-bit value of a word. -/
def wordInt (w : Word) : Int := signed 32 w.toNat

/-- A value saturated to INT32. -/
def sat32 (i : Int) : Int := clampInt (-(2 ^ 31)) (2 ^ 31 - 1) i

/-- An integer as a word, wrapping. -/
def wordOf (i : Int) : Word := BitVec.ofNat 32 (wrapNat 32 i)

/-- What a signal address reads as in a run (13 R300). -/
def sigRead (r : TrRun) (a : Nat) (s : State) : Int :=
  if a ≤ 0x1F then wordInt (Tbl.get 0 (trSlot r.slot s).words a)
  else if 0x40 ≤ a ∧ a ≤ 0x4F then signed 32 (r.snap.encs.getD (a - 0x40) 0)
  else if 0x50 ≤ a ∧ a ≤ 0x5F then signed 32 (r.delta.getD (a - 0x50) 0)
  else if 0x60 ≤ a ∧ a ≤ 0x7F then (b2n (natBit r.snap.dins (a - 0x60)) : Nat)
  else if 0x80 ≤ a ∧ a ≤ 0x9F then signed 32 (r.snap.adcs.getD (a - 0x80) 0)
  else if 0xA0 ≤ a ∧ a ≤ 0xA7 then wordInt (Tbl.get 0 r.sp (a - 0xA0))
  else if a = 0xA8 then r.test
  else if a = 0xA9 then (r.age : Nat)
  else if 0xC0 ≤ a ∧ a ≤ 0xFF then wordInt (Tbl.get 0 r.shared (a - 0xC0))
  else 0

/-- The executing run replaced. -/
def setRun (r : TrRun) (s : State) : State := { s with tr := { s.tr with runs := r :: s.tr.runs.drop 1 } }

/-- A signal written by the executing run: slot state, or a shared word that later dispatches read (13 R299, R300). -/
def sigWrite (r : TrRun) (a : Nat) (i : Int) (s : State) : State :=
  let w := wordOf i
  if a ≤ 0x1F then let v := trSlot r.slot s; setRun r (setSlot r.slot { v with words := Tbl.set 0 v.words a w } s)
  else
    let s1 := { s with tr := { s.tr with shared := Tbl.set 0 s.tr.shared (a - 0xC0) w } }
    setRun { r with shared := Tbl.set 0 r.shared (a - 0xC0) w } s1

/-- The compare of a Q2.30 value in a channel (13 R312). -/
def pwmCompare (cfg : List Byte) (v : Int) : Nat :=
  let p := leField cfg 4 4
  (clampInt 0 (p : Nat) (rheScaleInt (v * (p : Nat)) (-30))).toNat

/-- A channel's latest compare, which its next period start takes (13 R312). -/
def pwmOut (c : Nat) (v : Int) (safe : Bool) (s : State) : State :=
  let p := tioPwm c s
  setPwm c { p with next := pwmCompare p.cfg v, nextSafe := safe } s

/-- The channels of a slot in HOLD with hold_mode 2 take their safe_duty (13 R308). -/
def safeDuties (v : TrSlot) (s : State) : State :=
  (pwmsOf (slotLaws v s)).foldl (fun acc c => pwmOut c (signed 32 (leField (tioPwm c acc).cfg 8 4)) true acc) s

/-- Cause 1 of R308 for a snapshot: an input in the masks is invalid; the first, encoders then inputs then readings by signal number
(13 R308). -/
def firstInvalid (v : TrSlot) (p : Snap) : Option Nat :=
  ((List.range 16).map (fun n => (0x40 + n, natBit (v.encMask &&& p.encBad) n))
    ++ (List.range 32).map (fun n => (0x60 + n, natBit (v.dinMask &&& p.dinBad) n))
    ++ (List.range 32).map (fun n => (0x80 + n, natBit (v.adcMask &&& p.adcBad) n))).findSome? (fun (e : Nat × Bool) => if e.2 then some e.1 else none)

/-- Cause 2 of R308: no commit accepted since the start, or one too old (13 R308). -/
def spAged (v : TrSlot) (now : Nat) : Bool :=
  v.ageLimit != 0 && (match v.accepted with | none => true | some t => decide (v.ageLimit * 1000 < now - t))

/-- A setpoint commit to a slot: all eight words, and with an accepted one its time (13 R307). -/
def spCommit (n : Nat) (words : List Word) (held : Bool) (s : State) : State :=
  let v := trSlot n s
  if v.ageLimit = 0 then s
  else
    let sp := words.zipIdx.foldl (fun (t : Tbl Word) e => Tbl.set 0 t e.2 e.1) v.sp
    setSlot n { v with sp := sp, accepted := if held then v.accepted else some (devNow s) } s

end Sys2Proof.Machine
end

