-- ==== Sys2Proof/Machine/Checker.lean ====
section
/-! DEFINITION. The safety checker's commands: arming, tables, judgments, comparisons, lockstep faults, overflow log, self-test (15). -/

namespace Sys2Proof.Machine

/-- A slot's entry of table 0; its reset value has k_consec 2, m_count 3, n_window 16, paired_job 0xFFFF (15 R347). -/
def snDefault : List Byte := [0, 2, 3, 16, 0xFF, 0xFF, 0, 0, 0, 0, 0, 0, 0, 0, 0, 0]
def snSlotCfg (n : Nat) (s : State) : List Byte := Tbl.get snDefault s.sn.slots n

/-- A word rule of table 1 (15 R348). -/
def snRule (n : Nat) (s : State) : List Byte := Tbl.get (List.replicate 16 0) s.sn.rules n

/-- A stream's action: 1 at reset (15 R357). -/
def snStream (n : Nat) (s : State) : List Byte := Tbl.get (1 :: List.replicate 15 0) s.sn.streams n

/-- A safety window of table 3 (15 R359). -/
def snWindow (n : Nat) (s : State) : List Byte := Tbl.get (List.replicate 16 0) s.sn.windows n

/-- What the checker holds of a slot. -/
def snHist (n : Nat) (s : State) : SnSlot := Tbl.get {} s.sn.hist n

/-- The same replaced. -/
def setHist (n : Nat) (v : SnSlot) (s : State) : State := { s with sn := { s.sn with hist := Tbl.set {} s.sn.hist n v } }

/-- A stream's newest frame was frozen (15 R357). -/
def snFrozen (k : Nat) (s : State) : Bool := match Tbl.get [] s.sn.frames k with | f :: _ => f.2.2 | [] => false

/-- The slices of a self-test cycle, item and unit (15 R358). -/
def stSlices : List (Nat × Nat) :=
  (List.range 7).flatMap (fun i => (List.range (match i with | 1 => 512 | 4 => 192 | 5 => 24 | 6 => 16 | _ => 1)).map (fun u => (i, u)))

/-- A slice's length, µs (15 R358). -/
def stLength : Nat → Nat
  | 0 => 2 | 1 => 8 | 2 => 5 | 3 => 3 | 4 => 30 | 5 => 4 | _ => 10

/-- A self-test cycle begins (15 R360). -/
def stBegin (s : State) : State := { s with sn := { s.sn with stLeft := stSlices, stStart := s.time.clk, stRun := none } }

/-- The checker starts: its histories and self-test progress are empty, and inline ECC that is off trips (15 R341, R342). -/
def snStart (s : State) : State :=
  let s1 := stBegin { s with sn := { s.sn with up := true, twins := [], gone := [], hist := [], stDone := false, skipped := [] } }
  if inlineEcc s1 then s1 else trip 11 0 s1

/-- A slice ends: fault_allow clears where the checker set it for the slice (02 R55). -/
def allowEnd (s : State) : State :=
  if s.sn.allowSet then wrField 0 0 0x6C 0 0 0 { s with sn := { s.sn with allowSet := false } } else s

/-- A fault of the checker cores: SAFE_OUT drops, SN_LOCKSTEP is raised, the cores reset; what they held of slots and self-test is lost
(15 R341). -/
def snFault (kind : Nat) (s : State) : State :=
  let s := allowEnd s
  raise { c := 12, i := 0, bit := 8, code := 0x4C02, payload := kind }
    (trip 1 0 { s with sn := { s.sn with safeOut := false, up := false, twins := [], gone := [], hist := [], stLeft := [], stRun := none,
                                         stDone := false, skipped := [] } })

/-- The queue a checker register names, if enabled (15 SN_SP_QUEUE and its like). -/
def snQueue (off : Nat) (s : State) : Option Nat := let w := rdReg 12 0 off s; if natBit w.toNat 31 then some (w.field 19 0) else none

/-- Condition 5 of R344: the three queues are configured under R346 and R357. -/
def snQueuesOk (s : State) : Bool :=
  let q := fun off (f : QDesc → Bool) => match snQueue off s with | some k => let d := qDesc k s; d.enabled && d.pinned && f d | none => false
  q 0x4C (fun d => d.fixed && d.recordSize == 48 && d.consumer == 4 && !d.drop) && q 0x50 (fun d => d.fixed && d.recordSize == 88 && d.drop)
    && q 0x54 (fun d => d.consumer == 4)

/-- No loss of coolant flow is in force and the pin is high (15 R344). -/
def coolOk (s : State) : Bool := rdField 13 0 0x78 0 0 s == 0 && rdField 13 0 0x78 1 1 s == 1

/-- A host stop is latched (18 R438). -/
def hostStopped (s : State) : Bool := natBit (rdReg 14 0 0x120 s).toNat 1

/-- Whether the condition behind a bit of SN_TRIP still holds (15 R342, R344). -/
def tripHolds (s : State) : Nat → Bool
  | 1 => !s.sn.up
  | 2 => s.tio.stopN || hostStopped s
  | 3 => canStopped s
  | 4 => !coolOk s
  | 7 => (List.range 32).any (fun k => snFrozen k s && byteAt (snStream k s) 0 == 2)
  | 8 => fenced s
  | 9 => decide (255 ≤ s.sn.ovf.length)
  | 11 => !inlineEcc s
  | _ => false

/-- The first condition of R344 that an arm request fails; 0 for none. -/
def armFault (v : Word) (s : State) : Nat :=
  let bits := bitList 12 (rdField 12 0 0x48 11 0 s)
  if !bits.isEmpty && !(natBit v.toNat 1 && bits.all (fun b => !tripHolds s b)) then 1
  else if s.tio.stopN || canStopped s || hostStopped s || !coolOk s then 2
  else if !inlineEcc s || fenced s then 3
  else if !s.sn.stDone then 4
  else if !snQueuesOk s then 5
  else 0

/-- SN_ARM written; debug locks as SAFE_OUT is asserted; the recovery image never arms, nor does a checker that is not running (15 R341, R344, R345; 02
R55; 19 R450, R462). -/
def wrSnArm (v : Word) (s : State) : State :=
  if v.field 31 16 ≠ 0x0A4D ∨ natBit v.toNat 0 = false ∨ s.sec.phase ≠ 1 ∨ s.sn.up = false then s
  else
    let k := armFault v s
    if k ≠ 0 then raise (evSnRefused k v.toNat) s
    else
      let was := rdField 12 0 0x48 11 0 s
      let s1 := wrReg 0 0 0x6C 0 (wrReg 12 0 0x48 0 s)
      let hist := s1.sn.hist.map (fun e => (e.1, { e.2 with consec := 0, outcomes := [] }))
      raise { c := 12, i := 0, bit := 15, code := 0x0C00, payload := was } (debugLock 2 { s1 with sn := { s1.sn with safeOut := true, hist := hist } })

/-- ARM_REQUEST (15 R344). -/
def execArmRequest (r : Req) (clear : Bool) (s : State) : Out :=
  .next (onReg r 12 0 0x44 (wrSnArm (BitVec.ofNat 32 (0x0A4D0001 + 2 * b2n clear))) s)

/-- Whether a staged entry is in range for its table, and the index in the table (15 R347, R348, R357, R359). -/
def snEntryOk (tbl idx : Nat) (b : List Byte) : Bool :=
  match tbl with
  | 0 => decide (idx < 64 ∧ byteAt b 0 < 8 ∧ 1 ≤ byteAt b 1 ∧ byteAt b 1 ≤ 15 ∧ 1 ≤ byteAt b 2 ∧ byteAt b 2 ≤ byteAt b 3 ∧ byteAt b 3 ≤ 32 ∧ 1 ≤ leField b 6 2
      ∧ leField b 12 4 = 0) && (!natBit (byteAt b 0) 2 || leField b 4 2 != 0xFFFF)
  | 1 => decide (idx < 512 ∧ byteAt b 12 < 4 ∧ leField b 13 3 = 0)
  | 2 => decide (idx < 32 ∧ byteAt b 0 ≤ 2) && (b.drop 1).all (fun x => x == 0)
  | _ => decide (idx < 16 ∧ leField b 0 4 ≤ 1000000 ∧ (leField b 0 4 = 0 ∨ leField b 8 4 < leField b 0 4) ∧ leField b 12 4 = 0)

/-- An entry of a checker table written (15 R347, R348, R357, R359). -/
def snPut (tbl idx : Nat) (b : List Byte) (s : State) : State :=
  match tbl with
  | 0 => { s with sn := { s.sn with slots := Tbl.set snDefault s.sn.slots idx b } }
  | 1 => { s with sn := { s.sn with rules := Tbl.set (List.replicate 16 0) s.sn.rules idx b } }
  | 2 => { s with sn := { s.sn with streams := Tbl.set (1 :: List.replicate 15 0) s.sn.streams idx b } }
  | _ => { s with sn := { s.sn with windows := Tbl.set (List.replicate 16 0) s.sn.windows idx b } }

/-- An entry of a checker table as it stands. -/
def snGet (tbl idx : Nat) (s : State) : List Byte :=
  match tbl with
  | 0 => snSlotCfg idx s
  | 1 => snRule idx s
  | 2 => snStream idx s
  | _ => snWindow idx s

/-- SN_CMD written (15 SN_CMD). -/
def wrSnCmd (v : Word) (s : State) : State :=
  let tbl := rdField 12 0 0x58 10 9 s
  let idx := rdField 12 0 0x58 8 0 s
  let b := (List.range 4).flatMap (fun k => leBytes 4 (rdReg 12 0 (0x5C + 4 * k) s).toNat)
  if natBit v.toNat 0 = false then s
  else if snEntryOk tbl idx b then snPut tbl idx b s
  else raise (evSnRefused 24 (rdReg 12 0 0x58 s).toNat) s

/-- SN_CMD written by a requester: one to which the window is closed is refused here too, beside ACCESS_DENIED (02 R36; 15 R343, R492). -/
def snCmdWrite (r : Req) (v : Word) (s : State) : RegSt × State :=
  let k := regWriteAt r 12 0 0x6C (fun t => (0, wrSnCmd v t)) s
  if k.1 = 3 ∧ natBit v.toNat 0 = true then (3, raise (evSnRefused 24 (rdReg 12 0 0x58 k.2).toNat) k.2) else k

/-- SN_CONFIGURE (15 R347). -/
def execSnConfigure (r : Req) (s : State) : Out := .next (snCmdWrite r 1 s).2

/-- A log record for the safety log queue, or the overflow log (15 R353, R354). -/
def snLog (bytes : List Byte) (s : State) : State :=
  match snQueue 0x50 s with
  | some q =>
    if queueTakes q 88 true s && !(s.sn.ovf.any (fun e => e.isLog)) then reserve q 0x60 0xFFFF (deviceId s) bytes s
    else if 256 ≤ s.sn.ovf.length then qPut q { qDesc q s with dropped := min ((qDesc q s).dropped + 1) 0xFFFFFFFF } s
    else ovfTrip (ovfAppend ⟨true, bytes⟩ s)
  | none => if 256 ≤ s.sn.ovf.length then s else ovfTrip (ovfAppend ⟨true, bytes⟩ s)

/-- The eight words last committed to a slot, or zeros. -/
def heldWords (h : SnSlot) : List Word := if h.has = 0 then List.replicate 8 0 else (List.range 8).map (fun k => Tbl.get 0 h.last k)

/-- A disagreement: history, SN_DISAGREE, a log record, and the trip of the policy; a twin that comes too late (`count` false) is logged and no
disagreement, since nothing judges it (15 R350, R352, R353; DEDUCED, log entry 44). -/
def disagree (slot cause job word : Nat) (rcd : List Byte) (count inj : Bool) (held : List Word) (s : State) : State :=
  let cfg := snSlotCfg slot s
  let h := snHist slot s
  let h1 := if count then { h with consec := h.consec + 1, outcomes := (true :: h.outcomes).take (byteAt cfg 3) } else h
  let n := (h1.outcomes.filter (fun b => b)).length
  let now := count && (decide (byteAt cfg 1 ≤ h1.consec) || decide (byteAt cfg 2 ≤ n)) && !natBit (rdReg 12 0 0x48 s).toNat 0
  let s1 := if count then bump 12 0 0x84 1 (setHist slot h1 s) else s
  let frame := leField rcd 4 4
  let seq := leField rcd 8 4
  let s2 :=
    if count then raise { c := 12, i := 0, bit := 6, code := 0x4C00, job := job, ctx := slot, payload := cause + frame * 16 + seq * 2 ^ 36 + injFlag inj } s1
    else s1
  let prop := (List.range 32).map (fun k => rcd.getD (16 + k) 0)
  let bytes := leBytes 1 slot ++ leBytes 1 cause ++ leBytes 2 job ++ leBytes 4 frame ++ leBytes 4 seq ++ leBytes 1 word
    ++ leBytes 1 (b2n now + 2 * b2n (h.has == 0)) ++ leBytes 1 (min h1.consec 255) ++ leBytes 1 n ++ leBytes 8 (devNow s2) ++ prop
    ++ (held ++ List.replicate (8 - held.length) 0).flatMap (fun (w : Word) => leBytes 4 w.toNat)
  let s3 := snLog bytes s2
  if now then trip 0 slot s3 else s3

/-- Checks 1 and 2 of R349: cause 11, 9 or 0. -/
def snCheck12 (cfg rcd : List Byte) (job : Nat) : Nat :=
  let wc := byteAt rcd 1
  if rcd.length ≠ 48 ∨ wc = 0 ∨ 8 < wc ∨ 64 ≤ byteAt rcd 0 ∨ leField rcd 2 2 ≠ 0 ∨ leField rcd 12 4 ≠ 0 then 11
  else if leField cfg 4 2 ≠ 0xFFFF ∧ job ≠ leField cfg 4 2 then 9
  else 0

/-- Check 5 of R349: cause 4, 5 or 0. -/
def snCheck5 (cfg rcd : List Byte) (s : State) : Nat :=
  if natBit (byteAt cfg 0) 1 = false then 0
  else
    let id := leField rcd 4 4
    match (Tbl.get [] s.sn.frames (id / 2 ^ 27)).find? (fun f => f.1 == id) with
    | none => 4
    | some f => if leField cfg 6 2 * 1000 < devNow s - f.2.1 then 5 else 0

/-- Check 7 of R349: the cause and the word of the first rule that fails. -/
def snCheck7 (slot : Nat) (rcd : List Byte) (h : SnSlot) (s : State) : Option (Nat × Nat) :=
  (List.range (byteAt rcd 1)).findSome? (fun w =>
    let r := snRule (slot * 8 + w) s
    let v := signed 32 (leField rcd (16 + 4 * w) 4)
    if natBit (byteAt r 12) 0 = true ∧ (v < signed 32 (leField r 0 4) ∨ signed 32 (leField r 4 4) < v) then some (1, w)
    else if natBit (byteAt r 12) 1 = true ∧ natBit h.has w = true ∧ leField r 8 4 < (v - wordInt (Tbl.get 0 h.last w)).natAbs then some (2, w)
    else none)

/-- A record judged, `pre` being a cause that pairing or checks 1 and 2 have already given: the words committed or the last plausible ones
held, the history, the log (15 R349, R352). -/
def judge (slot job pre : Nat) (rcd : List Byte) (s : State) : State :=
  let cfg := snSlotCfg slot s
  let inj := armed 12 0 6 s
  let s0 := if inj then disarm 12 0 6 s else s
  let s1 := addCtr 12 0 0x7C 1 s0
  let s2 := if armed 12 0 5 s1 then raise { c := 12, i := 0, bit := 5, code := 0x1C00, payload := injFlag true } (disarm 12 0 5 s1) else s1
  let h0 := snHist slot s2
  let seq := leField rcd 8 4
  let reach4 := decide (pre = 0) && !inj
  let late := match h0.lastSeq with | some l => decide (signed 32 (wrapNat 32 ((seq : Int) - (l : Nat))) ≤ 0) | none => false
  let h := if reach4 then { h0 with lastSeq := some seq } else h0
  let s3 := setHist slot h s2
  let c : Nat × Nat :=
    if inj then (1, 0)
    else if pre ≠ 0 then (pre, 0xFF)
    else if late then (3, 0xFF)
    else if snCheck5 cfg rcd s3 ≠ 0 then (snCheck5 cfg rcd s3, 0xFF)
    else if (List.range 32).any (fun k => natBit (leField cfg 8 4) k && snFrozen k s3 && byteAt (snStream k s3) 0 == 1) then (6, 0xFF)
    else (snCheck7 slot rcd h s3).getD (0, 0xFF)
  if c.1 = 0 then
    let n := byteAt rcd 1
    let last := (List.range n).foldl (fun (t : Tbl Word) w => Tbl.set 0 t w (BitVec.ofNat 32 (leField rcd (16 + 4 * w) 4))) h.last
    let h1 : SnSlot := { h with last := last, has := h.has ||| (2 ^ n - 1), consec := 0, outcomes := (false :: h.outcomes).take (byteAt cfg 3) }
    spCommit slot (heldWords h1) false (setHist slot h1 s3)
  else
    let held := if h.has = 0 then [] else heldWords h
    let s4 := if h.has = 0 then s3 else spCommit slot held true s3
    disagree slot c.1 job c.2 rcd true inj held s4

/-- Whether a record is the twin that will not be judged (15 R350). -/
def GoneTwin.meets (g : GoneTwin) (slot seq : Nat) (copyB : Bool) (now : Nat) : Bool :=
  g.slot == slot && g.seq == seq && g.copyB == copyB && (match g.until_ with | some t => decide (now ≤ t) | none => true)

/-- A record and its pair: held until its twin comes, compared with it, or discarded (15 R349, R350; DEDUCED, log entry 44). -/
def arrive (rcd : List Byte) (job : Nat) (copyB : Bool) (s : State) : State :=
  let slot := byteAt rcd 0 % 64
  let seq := leField rcd 8 4
  let cfg := snSlotCfg slot s
  let mine := fun (t : Twin) => byteAt t.bytes 0 % 64 == slot && leField t.bytes 8 4 == seq && t.copyB != copyB
  if natBit (byteAt cfg 0) 0 = false ∨ (trSlot slot s).ageLimit = 0 then raise { evSnRefused 16 (job + slot * 2 ^ 16) with ctx := slot } s
  else if natBit (byteAt cfg 0) 2 = false then (if copyB then s else judge slot job (snCheck12 cfg rcd job) rcd s)
  else match s.sn.gone.find? (fun g => g.meets slot seq copyB s.time.clk) with
    | some g =>
      let s1 := { s with sn := { s.sn with gone := s.sn.gone.erase g } }
      if g.log then disagree slot 8 job 0xFF rcd false false [] s1 else s1
    | none =>
      let pre := snCheck12 cfg rcd job
      let twin := s.sn.twins.find? mine
      let drop := fun (t : Twin) => { s with sn := { s.sn with twins := s.sn.twins.erase t } }
      if pre ≠ 0 then
        match twin with
        | some t => judge slot job pre rcd (drop t)
        | none => judge slot job pre rcd { s with sn := { s.sn with gone := s.sn.gone ++ [⟨slot, seq, !copyB, false, some (s.time.clk + 4200)⟩] } }
      else match twin with
        | some t =>
          let a := if copyB then t.bytes else rcd
          judge slot job (if t.bytes = rcd then 0 else 7) a (drop t)
        | none => { s with sn := { s.sn with twins := s.sn.twins ++ [{ job := job, copyB := copyB, bytes := rcd, born := s.time.clk }] } }

/-- The oldest record of copy B in the twin buffer that is not simply waiting for its twin: one for a slot without twin, one that fails
check 1 or 2, one whose pair has ended, one whose twin of copy A is held (15 R350). -/
def twinReady (s : State) : Option Twin :=
  s.sn.twins.find? (fun t =>
    let slot := byteAt t.bytes 0 % 64
    let cfg := snSlotCfg slot s
    t.copyB && (!natBit (byteAt cfg 0) 0 || (trSlot slot s).ageLimit == 0 || !natBit (byteAt cfg 0) 2 || snCheck12 cfg t.bytes t.job != 0
      || s.sn.gone.any (fun g => g.meets slot (leField t.bytes 8 4) true s.time.clk)
      || s.sn.twins.any (fun a => !a.copyB && byteAt a.bytes 0 % 64 == slot && leField a.bytes 8 4 == leField t.bytes 8 4)))

/-- SETPOINT_RECORD: the checker takes a record of the twin buffer that ends or completes a pair, else the next of the setpoint queue (15
R346 to R352). `u` is an error of its data memory. -/
def execSetpointRecord (u : Upset) (s : State) : Out :=
  .next (
    if s.sn.up = false then s
    else match u with
      | .double _ => snFault 2 s
      | _ =>
        let s0 := match u with
          | .single a _ => raise { c := 12, i := 0, bit := 5, code := 0x1C00, payload := a % 2 ^ 18 } s
          | _ => s
        match twinReady s0 with
        | some t => arrive t.bytes t.job true { s0 with sn := { s0.sn with twins := s0.sn.twins.erase t } }
        | none =>
          match snQueue 0x4C s0 with
          | none => s0
          | some q =>
            let job := (qSource q s0).1
            match engineTake q s0 with
            | none => noTake q s0
            | some (rcd, s1) => arrive rcd job false s1)

/-- TWIN_HOLD_EXPIRY: 1.4 µs after its arrival the oldest held record is judged with cause 8 if it is copy A's, and discarded if it is copy
B's (15 R350). -/
def execTwinHoldExpiry (s : State) : Out :=
  .next (
    match s.sn.twins with
    | [] => s
    | t :: rest =>
      if s.sn.up = false then s
      else
        let s1 := advanceTo (t.born + 4200) s
        let slot := byteAt t.bytes 0 % 64
        let s2 := { s1 with sn := { s1.sn with twins := rest, gone := s1.sn.gone ++ [⟨slot, leField t.bytes 8 4, !t.copyB, true, none⟩] } }
        if t.copyB then s2 else judge slot t.job 8 t.bytes s2)

/-- FRAME_RECORD: the checker takes a frame record; a frozen stream with action 2 trips (15 R357). -/
def execFrameRecord (s : State) : Out :=
  .next (
    if s.sn.up = false then s
    else match snQueue 0x54 s with
      | none => s
      | some q => match engineTake q s with
        | none => noTake q s
        | some (rcd, s1) =>
          let id := leField rcd 0 4
          let k := id / 2 ^ 27
          let fz := natBit (byteAt rcd 5) 2
          let l := ((id, leField rcd 20 8, fz) :: Tbl.get [] s1.sn.frames k).take 64
          let s2 := { s1 with sn := { s1.sn with frames := Tbl.set [] s1.sn.frames k l } }
          if fz = true ∧ byteAt (snStream k s2) 0 = 2 then trip 7 0 s2 else s2)

/-- The first compared binding of a safety job whose copies differ, with the byte (15 R356). -/
def firstDiff (d : JobDesc) (s : State) : Option (Nat × Nat) :=
  let bs := jobBindings d s
  (((bs.take d.bindCount).zip (bs.drop d.bindCount)).zipIdx).findSome? (fun (p : (Binding × Binding) × Nat) =>
    if p.1.1.readOnly then none
    else ((List.range p.1.1.extent).find? (fun k => rdByte s (p.1.1.addr % 2 ^ 48 + k) != rdByte s (p.1.2.addr % 2 ^ 48 + k))).map (fun k => (p.2, k)))

/-- A mismatch: SN_CMP_MISMATCH, status mismatch, a disagreement on every slot paired with the job (15 R356). -/
def cmpMismatch (j : JobRec) (idx off : Nat) (late inj : Bool) (s : State) : State :=
  let id := j.d.id
  let r := raiseSeq { c := 12, i := 0, bit := 9, code := 0x4C03, job := id, payload := id + idx % 65536 * 2 ^ 16 + off % 2 ^ 48 * 2 ^ 32 + b2n late * 2 ^ 80 + injFlag inj } s
  let s1 := updJob id (fun k => { k with compared := true, status := 3, evSeq := r.1 }) r.2
  (List.range 64).foldl (fun acc n => if leField (snSlotCfg n acc) 4 2 = id then disagree n 10 id 0xFF [] true false [] acc else acc) s1

/-- SN_CMP_CTRL.window_us, ns (15 R356). -/
def cmpWindow (s : State) : Nat := rdField 12 0 0x70 15 0 s * 1000

/-- The comparison's reads of both copies' compared bindings, up to the first byte that differs (15 R356). -/
def cmpReads (d : JobDesc) (upTo : Option (Nat × Nat)) (s : State) : State :=
  let bs := jobBindings d s
  let rd := fun (x : Binding) (n : Nat) (t : State) => if n = 0 then t else (lpddrRead (x.addr % 2 ^ 48) n d.id t).2
  (((bs.take d.bindCount).zip (bs.drop d.bindCount)).zipIdx).foldl (fun acc (p : (Binding × Binding) × Nat) =>
    let n := match upTo with
      | none => p.1.1.extent
      | some (i, k) => if p.2 < i then p.1.1.extent else if p.2 = i then k + 1 else 0
    if p.1.1.readOnly then acc else rd p.1.2 n (rd p.1.1 n acc)) s

/-- OUTPUT_COMPARISON (15 R356). -/
def execOutputComparison (id : Nat) (s : State) : Out :=
  .next (
    match findJob id s with
    | none => s
    | some j =>
      match j.endA, j.endB with
      | some a, some b =>
        if j.phase ≠ .running ∨ j.d.safety = false ∨ j.compared = true ∨ jobDrained j s = false ∨ cmpWindow s < max a b - min a b then s
        else
          let bs := jobBindings j.d s
          let s1 := cmpReads j.d (firstDiff j.d s) s
          if armed 12 0 9 s1 = true ∧ (bs.take j.d.bindCount).any (fun x => !x.readOnly) = true then
            cmpMismatch j (((bs.take j.d.bindCount).findIdx? (fun x => !x.readOnly)).getD 0) 0 false true (disarm 12 0 9 s1)
          else match firstDiff j.d s1 with
            | some (i, k) => cmpMismatch j i k false false s1
            | none => updJob id (fun k => { k with compared := true }) s1
      | _, _ => s)

/-- CMP_WINDOW_EXPIRY: the later copy has not ended within window_us of the earlier one (15 R356). -/
def execCmpWindowExpiry (id : Nat) (s : State) : Out :=
  .next (
    match findJob id s with
    | none => s
    | some j =>
      if j.phase ≠ .running ∨ j.d.safety = false ∨ j.compared = true then s
      else match j.endA, j.endB with
        | none, none => s
        | some a, some b => if cmpWindow s < max a b - min a b then cmpMismatch j 0 0 true false s else s
        | some a, none => cmpMismatch j 0 0 true false (advanceToDev (a + cmpWindow s + 1) s)
        | none, some b => cmpMismatch j 0 0 true false (advanceToDev (b + cmpWindow s + 1) s))

/-- LOCKSTEP_MISMATCH: kind 0 a comparator mismatch, 1 the clock, 2 memory (15 R341). -/
def execLockstepMismatch (kind : Nat) (s : State) : Out := .next (if s.sn.up = false ∨ 2 < kind then s else snFault kind s)

/-- CHECKER_WATCHDOG (15 R341). -/
def execCheckerWatchdog (s : State) : Out := .next (if s.sn.up = false then s else snFault 3 s)

/-- CHECKER_RELOAD_DONE (15 R341). -/
def execCheckerReloadDone (s : State) : Out := .next (if s.sn.up then s else snStart s)

/-- A channel of SAFE_OUT has disagreed for 10 µs (15 R340). -/
def outDiscrepancy (chans : Nat) (inj : Bool) (s : State) : State :=
  trip 5 0 (raise { c := 12, i := 0, bit := 14, code := 0x4C06, payload := chans % 4 + injFlag inj } s)

/-- CHANNEL_DISCREPANCY (15 R340). -/
def execChannelDiscrepancy (chans : Nat) (s : State) : Out := .next (if chans % 4 = 0 then s else outDiscrepancy chans false s)

/-- An overflow log entry's words (15 SN_LOG_READ). -/
def OvfEntry.words (e : OvfEntry) : Nat := e.bytes.length / 4

/-- The queue of an overflow log entry, if it admits it (15 R354). -/
def ovfAdmits (e : OvfEntry) (s : State) : Option Nat :=
  if e.isLog then match snQueue 0x50 s with | some q => if queueTakes q 88 true s then some q else none | none => none
  else
    let d := qDesc (eventQueue s) s
    if d.enabled && d.fits 32 0 && memUp s then some (eventQueue s) else none

/-- OVERFLOW_LOG_DRAIN: the oldest entry whose queue has space leaves the log (15 R354). -/
def execOverflowLogDrain (s : State) : Out :=
  .next (
    match s.sn.ovf.findIdx? (fun e => (ovfAdmits e s).isSome) with
    | none => s
    | some k =>
      match s.sn.ovf[k]? with
      | none => s
      | some e =>
        match ovfAdmits e s with
        | none => s
        | some q =>
          let start := ((s.sn.ovf.take k).map OvfEntry.words).sum
          let pos := if start + e.words ≤ s.sn.logPos then s.sn.logPos - e.words else min s.sn.logPos start
          reserve q (if e.isLog then 0x60 else 3) 0xFFFF (deviceId s) e.bytes { s with sn := { s.sn with ovf := s.sn.ovf.eraseIdx k, logPos := pos } })

/-- The word that SN_LOG_READ reads next (15 R354). -/
def logWord (s : State) : Word := BitVec.ofNat 32 (leField (s.sn.ovf.flatMap (fun e => e.bytes)) (4 * s.sn.logPos) 4)

/-- A read of SN_LOG_READ advances. -/
def logAdvance (s : State) : State :=
  if (s.sn.ovf.map OvfEntry.words).sum ≤ s.sn.logPos then s else { s with sn := { s.sn with logPos := s.sn.logPos + 1 } }

/-- LOG_READ (15 R354). -/
def execLogRead (r : Req) (s : State) : Out := .next (let k := regAt r false 12 0 0x88 s; if k.1 ≠ 0 then k.2 else logAdvance k.2)

/-- Whether a slice's resource is free: a Quill for the Nib arrays (15 R358). -/
def stFree (x : Nat × Nat) (s : State) : Bool := if x.1 = 4 then quillFree x.2 s else true

/-- A slice's resource has been owned throughout the cycle so far, or is no resource at all (a Quill withdrawn or without power) (15 R358). -/
def stOwned (x : Nat × Nat) (s : State) : Bool :=
  !stFree x s && (let v := quill x.2 s; v.job == 0xFFFF || decide (v.taken ≤ s.sn.stStart))

/-- Whether a slice of `us` may start at a device time: no window open, and its end with 5 µs to spare before the next (15 R359; DEDUCED, log entry 44). -/
def stFits (us t : Nat) (s : State) : Bool :=
  (List.range 16).all (fun k =>
    let w := snWindow k s
    let p := leField w 0 4 * 1000
    if p = 0 then true
    else
      let ph := wrapInt p ((t : Int) - (leField w 4 4 * 1000 : Nat))
      decide (leField w 8 4 * 1000 ≤ ph ∧ ph + (us + 5) * 1000 ≤ p))
where
  /-- An integer reduced modulo a number. -/
  wrapInt (p : Nat) (i : Int) : Nat := (i % (p : Nat)).toNat

/-- The slices left, whose resource was owned throughout the cycle, are skipped; one skipped in 16 cycles is reported (15 R358). -/
def stSkip (s : State) : State :=
  let s1 := { s with sn := { s.sn with stLeft := [] } }
  s.sn.stLeft.foldl (fun acc x =>
    let key := x.1 * 1024 + x.2
    let n := Tbl.get 0 acc.sn.skipped key + 1
    let acc1 := { acc with sn := { acc.sn with skipped := Tbl.set 0 acc.sn.skipped key (if n = 16 then 0 else n) } }
    if n = 16 then raise { c := 12, i := 0, bit := 13, code := 0x2C01, ctx := x.1, payload := x.1 + x.2 * 256 } acc1 else acc1) s1

/-- A cycle complete: counted, and the next begins (15 R360). -/
def stCycleEnd (s : State) : State :=
  let s1 := wrField 12 0 0x78 31 16 (rdField 12 0 0x78 31 16 s + 1) s
  stBegin { s1 with sn := { s1.sn with stDone := true } }

/-- SELF_TEST_SLICE: the next slice whose resource is free starts, outside every safety window; where the resource of all that are left
was owned throughout the cycle they are skipped and the cycle is complete (15 R358 to R360). -/
def execSelfTestSlice (s : State) : Out :=
  .next (
    if s.sn.up = false ∨ s.sn.stRun.isSome = true ∨ s.sn.stLeft = [] then s
    else match s.sn.stLeft.find? (fun x => stFree x s) with
      | none => if s.sn.stLeft.all (fun x => stOwned x s) then stCycleEnd (stSkip s) else s
      | some x =>
        if stFits (stLength x.1) (devNow s) s then { s with sn := { s.sn with stLeft := s.sn.stLeft.erase x, stRun := some (x.1, x.2, s.time.clk) } } else s)

/-- A slice ended before its result: discarded, its Quill's share zero-filled, the slice at the back of the queue (15 R359). -/
def stAbort (item unit : Nat) (inj : Bool) (s : State) : State :=
  let s1 := allowEnd { s with sn := { s.sn with stRun := none, stLeft := s.sn.stLeft ++ [(item, unit)] } }
  let s2 :=
    if item ≠ 4 then s1
    else
      let p := spad (unit / 4) s1
      setQuill unit { quill unit s1 with st := .stopping } (setSpad (unit / 4) { p with pendShares := p.pendShares ++ [unit % 4] } s1)
  raise { c := 12, i := 0, bit := 12, code := 0x2C00, ctx := item, payload := item + unit * 256 + injFlag inj } s2

/-- The slots that use 256 words of the law memory, or of the coefficients (15 R358). -/
def crcSlots (unit : Nat) (s : State) : List Nat :=
  (List.range 64).filter (fun n =>
    let v := trSlot n s
    let hit := fun at_ => let l := ((lawAt at_ s).getD []); decide (at_ < (unit + 1) * 256 ∧ unit * 256 < at_ + l.length)
    let coefs := (slotLaws v s).any (fun i => match i with | .mac _ _ c => c / 256 == unit - 16 | .limit _ c => c / 256 == unit - 16 || (c + 1) / 256 == unit - 16 | _ => false)
    v.conf && (if unit < 16 then hit v.lawAt || (decide (v.holdMode = 0) && hit v.holdAt) else coefs))

/-- A slice that failed (15 R358): SN_ST_FAIL and the item's action; `nib` is the failed Nib of a Nib slice, 16 for NS. -/
def stFail (item unit nib : Nat) (inj : Bool) (s : State) : State :=
  let r := raiseSeq { c := 12, i := 0, bit := 10, code := 0x4C04, ctx := item, payload := item + unit * 256 + injFlag inj } s
  match item with
  | 4 => markNib unit (nib % 16) (decide (16 ≤ nib)) r.1 r.2
  | 5 => (crcSlots unit r.2).foldl (fun acc n => setSlot n { trSlot n acc with memErr := true } acc) r.2
  | 6 => r.2
  | _ => trip 6 0 r.2

/-- SLICE_DONE: a slice completes within its length, in success or not; the last of a cycle completes it (15 R358, R360). -/
def execSliceDone (ok : Bool) (nib : Nat) (s : State) : Out :=
  .next (
    match s.sn.stRun with
    | none => s
    | some (item, unit, start) =>
      if start + stLength item * oneUs < s.time.clk then s
      else if armed 12 0 12 s then stAbort item unit true (disarm 12 0 12 s)
      else
        let forced := armed 12 0 10 s && item == 4
        let s1 := if forced then disarm 12 0 10 s else s
        let s2 := allowEnd { s1 with sn := { s1.sn with stRun := none, skipped := Tbl.erase s1.sn.skipped (item * 1024 + unit) } }
        let s3 := if ok && !forced then s2 else stFail item unit nib forced s2
        if s3.sn.stLeft.isEmpty then stCycleEnd s3 else s3)

/-- SLICE_ABORT: the timer ends a slice at its length (15 R359). -/
def execSliceAbort (s : State) : Out :=
  .next (
    match s.sn.stRun with
    | none => s
    | some (item, unit, start) => stAbort item unit false (advanceTo (start + stLength item * oneUs) s))

/-- SELF_TEST_LATE: a cycle has not completed within cycle_s, and the next one starts (15 R360). -/
def execSelfTestLate (s : State) : Out :=
  .next (
    let sec := rdField 12 0 0x74 7 0 s
    if s.sn.up = false ∨ sec = 0 then s
    else
      let s1 := allowEnd (advanceTo (s.sn.stStart + sec * 1000000 * oneUs) s)
      let s2 := raise { c := 12, i := 0, bit := 11, code := 0x4C05, payload := (s1.time.clk - s1.sn.stStart) / oneMs % 2 ^ 32 } s1
      stBegin (if rdField 12 0 0x74 8 8 s2 = 1 then trip 6 0 s2 else s2))

/-- SN_ST_CTRL written: a cycle of 0 s is ignored (15 SN_ST_CTRL). -/
def wrStCtrl (v : Word) (s : State) : State := plainWrite 12 0 0x74 (if v.field 7 0 = 0 then v.put 7 0 (rdField 12 0 0x74 7 0 s) else v) s

/-- SN_STATE as read (15). -/
def snStateReg (s : State) : Word :=
  BitVec.ofNat 32 (b2n s.sn.safeOut + 2 * b2n (decide (rdField 12 0 0x48 11 0 s ≠ 0)) + 4 * b2n (s.sn.up && cfgOpen s) + 8 * b2n s.sn.stDone)

end Sys2Proof.Machine
end

