-- ==== Sys2Proof/Machine/Jpeg.lean ====
section
/-! DEFINITION. The JPEG decoder: baseline sequential DCT, 8-bit samples, Huffman coding, 1 or 3 components, sampling 4:4:4, 4:2:2 and
4:2:0, restart markers (00 R6, 12 R279). The marker and entropy syntax is that of ISO/IEC 10918-1, which R6 names (PRESUMED, log entry 56).
A decoder answers a cause of R289: 5 a syntax error, 6 a feature outside R6, 7 a size outside the stream's. -/

namespace Sys2Proof.Machine

/-- A Huffman table: how many codes each length from 1 to 16 has, and the values in order of code. -/
structure HuffTab where
  counts : List Nat
  vals : List Nat
  deriving DecidableEq, Repr

/-- A component of a frame: identifier, sampling factors, quantisation table. -/
structure JpegComp where
  id : Nat
  h : Nat
  v : Nat
  tq : Nat
  deriving DecidableEq, Repr

/-- A frame header: size and components. -/
structure JpegFrame where
  w : Nat
  h : Nat
  comps : List JpegComp
  deriving DecidableEq, Repr

/-- A decoded block: component, block row and column, dequantised coefficients by zigzag position. -/
structure JpegBlock where
  comp : Nat
  by_ : Nat
  bx : Nat
  coefs : List (Nat × Int)
  deriving DecidableEq, Repr

/-- What a decoder holds between segments. -/
structure Jpeg where
  qts : Tbl (List Nat) := []
  dcs : Tbl HuffTab := []
  acs : Tbl HuffTab := []
  ri : Nat := 0
  frame : Option JpegFrame := none
  /-- Components whose scan has been decoded. -/
  done : List Nat := []
  blocks : List JpegBlock := []
  deriving DecidableEq, Repr

/-- The bits of a byte, most significant first. -/
def byteBits (b : Nat) : List Bool := [natBit b 7, natBit b 6, natBit b 5, natBit b 4, natBit b 3, natBit b 2, natBit b 1, natBit b 0]

/-- A number of bits taken, most significant first; none where too few are left. -/
def takeBits : Nat → Nat → List Bool → Option (Nat × List Bool)
  | 0, acc, bs => some (acc, bs)
  | _ + 1, _, [] => none
  | n + 1, acc, b :: bs => takeBits n (2 * acc + b2n b) bs

/-- A number of `n` bits as the signed difference or coefficient it codes. -/
def jpegExtend (n v : Nat) : Int := if n = 0 then 0 else if v < 2 ^ (n - 1) then (v : Int) - ((2 ^ n : Nat) : Int) + 1 else v

/-- The value of the next Huffman code: `code` bits so far, first code and index of the present length. -/
def huffNext (vals : List Nat) : List Nat → Nat → Nat → Nat → List Bool → Option (Nat × List Bool)
  | [], _, _, _, _ => none
  | _ :: _, _, _, _, [] => none
  | n :: t, code, first, idx, b :: bs =>
    let c := 2 * code + b2n b
    let f := 2 * first
    if c < f + n then (match vals[idx + (c - f)]? with | some v => some (v, bs) | none => none)
    else huffNext vals t c (f + n) (idx + n) bs

/-- Whether a table's counts leave no code over. -/
def huffFits : List Nat → Nat → Bool
  | [], _ => true
  | n :: t, left => decide (n ≤ 2 * left) && huffFits t (2 * left - n)

/-- The AC coefficients of a block from zigzag position `k` on. -/
def jpegAc (t : HuffTab) (q : List Nat) : Nat → Nat → List (Nat × Int) → List Bool → Option (List (Nat × Int) × List Bool)
  | 0, _, _, _ => none
  | fuel + 1, k, acc, bs =>
    if 64 ≤ k then some (acc, bs)
    else match huffNext t.vals t.counts 0 0 0 bs with
      | none => none
      | some (rs, b1) =>
        let r := rs / 16
        let n := rs % 16
        if n = 0 then (if r = 15 then (if 48 ≤ k then none else jpegAc t q fuel (k + 16) acc b1) else if r = 0 then some (acc, b1) else none)
        else if 10 < n ∨ 64 ≤ k + r then none
        else match takeBits n 0 b1 with
          | none => none
          | some (v, b2) => jpegAc t q fuel (k + r + 1) (acc ++ [(k + r, jpegExtend n v * (q.getD (k + r) 0 : Nat))]) b2

/-- One block: the new DC prediction, its dequantised coefficients and the rest of the bits. -/
def jpegBlock (dc ac : HuffTab) (q : List Nat) (pred : Int) (bs : List Bool) : Option (Int × List (Nat × Int) × List Bool) :=
  match huffNext dc.vals dc.counts 0 0 0 bs with
  | none => none
  | some (n, b1) =>
    if 11 < n then none
    else match takeBits n 0 b1 with
      | none => none
      | some (v, b2) =>
        let p := pred + jpegExtend n v
        match jpegAc ac q 65 1 [(0, p * (q.getD 0 0 : Nat))] b2 with
        | some (cs, b3) => some (p, cs, b3)
        | none => none

/-- A component of a scan: its place in the frame, its tables, quantisation. -/
structure ScanComp where
  comp : Nat
  dc : HuffTab
  ac : HuffTab
  q : List Nat
  deriving DecidableEq, Repr

/-- The blocks of one restart interval decoded in order; less than a byte of padding may be left. -/
def jpegInterval (cs : List ScanComp) : List (Nat × Nat × Nat) → Tbl Int → List Bool → List JpegBlock → Option (List JpegBlock)
  | [], _, bs, acc => if bs.length < 8 then some acc else none
  | (c, y, x) :: t, preds, bs, acc =>
    match cs.find? (fun e => e.comp == c) with
    | none => none
    | some e =>
      match jpegBlock e.dc e.ac e.q (Tbl.get 0 preds c) bs with
      | none => none
      | some (p, coefs, b1) => jpegInterval cs t (Tbl.set 0 preds c p) b1 (acc ++ [{ comp := c, by_ := y, bx := x, coefs := coefs }])

/-- The coded bytes of a scan by restart interval, stuffing taken out, and what follows it from its marker on; `ff`: the byte before was FF. -/
def jpegEntropy : List Nat → Bool → List Nat → List (List Nat) → Option (List (List Nat) × List Nat)
  | [], _, _, _ => none
  | d :: t, true, cur, done =>
    if d = 255 then jpegEntropy t true cur done
    else if d = 0 then jpegEntropy t false (cur ++ [255]) done
    else if 0xD0 ≤ d ∧ d ≤ 0xD7 then (if d - 0xD0 = done.length % 8 then jpegEntropy t false [] (done ++ [cur]) else none)
    else some (done ++ [cur], 255 :: d :: t)
  | d :: t, false, cur, done => if d = 255 then jpegEntropy t true cur done else jpegEntropy t false (cur ++ [d]) done

/-- A list cut into pieces of a length. -/
def chunksOf {α : Type} (k : Nat) : Nat → List α → List (List α)
  | 0, _ => []
  | n + 1, l => if l.isEmpty then [] else l.take k :: chunksOf k n (l.drop k)

/-- Largest sampling factors of a frame. -/
def JpegFrame.hMax (f : JpegFrame) : Nat := f.comps.foldl (fun n c => max n c.h) 1
def JpegFrame.vMax (f : JpegFrame) : Nat := f.comps.foldl (fun n c => max n c.v) 1

/-- The blocks of a scan, one list per MCU: one block where the scan has one component, else its components' blocks in order. -/
def jpegUnits (f : JpegFrame) (cs : List Nat) : List (List (Nat × Nat × Nat)) :=
  let up := fun (a b : Nat) => (a + b - 1) / b
  let comp := fun (k : Nat) => f.comps.getD k ⟨0, 1, 1, 0⟩
  match cs with
  | [k] =>
    let nx := up (up (f.w * (comp k).h) f.hMax) 8
    (List.range (up (up (f.h * (comp k).v) f.vMax) 8)).flatMap (fun y => (List.range nx).map (fun x => [(k, y, x)]))
  | _ =>
    let nx := up f.w (8 * f.hMax)
    (List.range (up f.h (8 * f.vMax))).flatMap (fun my => (List.range nx).map (fun mx =>
      cs.flatMap (fun k => (List.range (comp k).v).flatMap (fun y => (List.range (comp k).h).map (fun x =>
        (k, my * (comp k).v + y, mx * (comp k).h + x))))))

/-- A big-endian number of two bytes at a place. -/
def be2 (l : List Nat) (i : Nat) : Nat := l.getD i 0 * 256 + l.getD (i + 1) 0

/-- The quantisation tables of a DQT segment. -/
def jpegDqt : Nat → List Nat → Jpeg → Nat ⊕ Jpeg
  | 0, _, _ => .inl 5
  | fuel + 1, l, j =>
    match l with
    | [] => .inr j
    | b :: t =>
      if b / 16 = 1 then .inl 6
      else if 3 < b ∨ t.length < 64 then .inl 5
      else jpegDqt fuel (t.drop 64) { j with qts := Tbl.put j.qts b (t.take 64) }

/-- The Huffman tables of a DHT segment. -/
def jpegDht : Nat → List Nat → Jpeg → Nat ⊕ Jpeg
  | 0, _, _ => .inl 5
  | fuel + 1, l, j =>
    match l with
    | [] => .inr j
    | b :: t =>
      let counts := t.take 16
      let n := counts.foldl (fun a x => a + x) 0
      let rest := t.drop 16
      if b % 16 = 2 ∨ b % 16 = 3 then .inl 6
      else if 1 < b / 16 ∨ 3 < b % 16 ∨ t.length < 16 + n ∨ 256 < n ∨ huffFits counts 1 = false then .inl 5
      else
        let h : HuffTab := { counts := counts, vals := rest.take n }
        jpegDht fuel (rest.drop n) (if b / 16 = 0 then { j with dcs := Tbl.put j.dcs (b % 16) h } else { j with acs := Tbl.put j.acs (b % 16) h })

/-- A frame header (SOF0). -/
def jpegSof (maxW maxH : Nat) (l : List Nat) (j : Jpeg) : Nat ⊕ Jpeg :=
  let n := l.getD 5 0
  let comps := (List.range n).map (fun i =>
    let b := 6 + 3 * i
    (⟨l.getD b 0, l.getD (b + 1) 0 / 16, l.getD (b + 1) 0 % 16, l.getD (b + 2) 0⟩ : JpegComp))
  let f : JpegFrame := { w := be2 l 3, h := be2 l 1, comps := comps }
  let fs : List (Nat × Nat) := comps.map (fun c => (c.h, c.v))
  if j.frame.isSome ∨ l.length ≠ 6 + 3 * n then .inl 5
  else if l.getD 0 0 ≠ 8 ∨ (n ≠ 1 ∧ n ≠ 3) then .inl 6
  else if f.w = 0 ∨ comps.any (fun c => decide (c.h = 0 ∨ 4 < c.h ∨ c.v = 0 ∨ 4 < c.v ∨ 3 < c.tq)) = true ∨ ¬ (comps.map (·.id)).Nodup then .inl 5
  else if f.h = 0 ∨ (n = 3 ∧ fs ≠ [(1, 1), (1, 1), (1, 1)] ∧ fs ≠ [(2, 1), (1, 1), (1, 1)] ∧ fs ≠ [(2, 2), (1, 1), (1, 1)]) then .inl 6
  else if maxW < f.w ∨ maxH < f.h then .inl 7
  else .inr { j with frame := some f }

/-- A scan (SOS): its header and its coded bytes; the state and what follows it. -/
def jpegSos (l rest : List Nat) (j : Jpeg) : Nat ⊕ (Jpeg × List Nat) :=
  let n := l.getD 0 0
  match j.frame with
  | none => .inl 5
  | some f =>
    let pick := fun (i : Nat) =>
      let id := l.getD (1 + 2 * i) 0
      let ts := l.getD (2 + 2 * i) 0
      match (List.range f.comps.length).find? (fun k => (f.comps.getD k ⟨0, 1, 1, 0⟩).id == id), Tbl.find? j.dcs (ts / 16), Tbl.find? j.acs (ts % 16) with
      | some k, some dc, some ac =>
        (match Tbl.find? j.qts (f.comps.getD k ⟨0, 1, 1, 0⟩).tq with
        | some q => some ({ comp := k, dc := dc, ac := ac, q := q } : ScanComp)
        | none => none)
      | _, _, _ => none
    let cs := (List.range n).filterMap pick
    let ks := cs.map (·.comp)
    if n = 0 ∨ 4 < n ∨ l.length ≠ 4 + 2 * n ∨ l.drop (1 + 2 * n) ≠ [0, 63, 0] ∨ cs.length ≠ n ∨ ¬ ks.Nodup ∨ ks.any (fun k => j.done.contains k) = true then .inl 5
    else match jpegEntropy rest false [] [] with
      | none => .inl 5
      | some (parts, after) =>
        let mcus := jpegUnits f ks
        let groups := (if j.ri = 0 then [mcus] else chunksOf j.ri mcus.length mcus).map (fun g => g.flatMap id)
        if groups.length ≠ parts.length then .inl 5
        else
          let go := fun (acc : Option (List JpegBlock)) (e : List (Nat × Nat × Nat) × List Nat) =>
            match acc with
            | none => none
            | some bl => (match jpegInterval cs e.1 [] (e.2.flatMap byteBits) [] with | some b => some (bl ++ b) | none => none)
          match (groups.zip parts).foldl go (some []) with
          | none => .inl 5
          | some bl => .inr ({ j with done := j.done ++ ks, blocks := j.blocks ++ bl }, after)

/-- The segments from a marker on, up to EOI. -/
def jpegSegs (maxW maxH : Nat) : Nat → List Nat → Jpeg → Nat ⊕ Jpeg
  | 0, _, _ => .inl 5
  | fuel + 1, l, j =>
    match l with
    | 255 :: m :: t =>
      if m = 255 then jpegSegs maxW maxH fuel (255 :: t) j
      else if m = 0xD9 then (match j.frame with | some f => if j.done.length = f.comps.length then .inr j else .inl 5 | none => .inl 5)
      else
        let n := be2 t 0
        let body := (t.take n).drop 2
        let rest := t.drop n
        if t.length < n ∨ n < 2 then .inl 5
        else if m = 0xC0 then (match jpegSof maxW maxH body j with | .inr k => jpegSegs maxW maxH fuel rest k | .inl e => .inl e)
        else if m = 0xC4 then (match jpegDht (body.length + 1) body j with | .inr k => jpegSegs maxW maxH fuel rest k | .inl e => .inl e)
        else if m = 0xDB then (match jpegDqt (body.length + 1) body j with | .inr k => jpegSegs maxW maxH fuel rest k | .inl e => .inl e)
        else if m = 0xDD then (if n = 4 then jpegSegs maxW maxH fuel rest { j with ri := be2 body 0 } else .inl 5)
        else if m = 0xDA then (match jpegSos body rest j with | .inr (k, after) => jpegSegs maxW maxH fuel after k | .inl e => .inl e)
        else if (0xC1 ≤ m ∧ m ≤ 0xCF ∧ m ≠ 0xC8) ∨ m = 0xDC ∨ m = 0xDE ∨ m = 0xDF then .inl 6
        else if (0xE0 ≤ m ∧ m ≤ 0xEF) ∨ m = 0xFE then jpegSegs maxW maxH fuel rest j
        else .inl 5
    | _ => .inl 5

/-- A coded image read up to its coefficients: the frame and its blocks, or the cause of its corruption. -/
def jpegRead (maxW maxH : Nat) (b : List Byte) : Nat ⊕ Jpeg :=
  match b.map (·.toNat) with
  | 255 :: 0xD8 :: t => jpegSegs maxW maxH (t.length + 1) t {}
  | _ => .inl 5

/-- The zigzag order: the natural position (8 × row + column) of each zigzag position. -/
def zigzag : List Nat :=
  [0, 1, 8, 16, 9, 2, 3, 10, 17, 24, 32, 25, 18, 11, 4, 5, 12, 19, 26, 33, 40, 48, 41, 34, 27, 20, 13, 6, 7, 14, 21, 28]
    ++ [35, 42, 49, 56, 57, 50, 43, 36, 29, 22, 15, 23, 30, 37, 44, 51, 58, 59, 52, 45, 38, 31, 39, 46, 53, 60, 61, 54, 47, 55, 62, 63]

/-- cos(kπ/16) with 30 fraction bits. -/
def cos16 (k : Nat) : Int :=
  let c := fun (i : Nat) => ([1073741824, 1053110176, 992008094, 892783698, 759250125, 596538995, 410903207, 209476638, 0] : List Int).getD i 0
  let m := k % 32
  if m ≤ 8 then c m else if m ≤ 16 then - c (16 - m) else if m ≤ 24 then - c (m - 16) else c (32 - m)

/-- The inverse DCT at a row and column, 62 fraction bits: a quarter of the sum over the coefficients (ISO/IEC 10918-1, A.3.3). -/
def idctExact (coefs : List (Nat × Int)) (y x : Nat) : Int :=
  let norm := fun (u : Nat) => if u = 0 then cos16 4 else (2 ^ 30 : Int)
  coefs.foldl (fun n e =>
    let p := zigzag.getD e.1 0
    let v := p / 8
    let u := p % 8
    n + e.2 * (norm u * norm v / 2 ^ 30) * (cos16 ((2 * x + 1) * u) * cos16 ((2 * y + 1) * v) / 2 ^ 30)) 0

/-- A sample of a block, 0 to 255. The transform is a fixed integer one whose bits no rule gives: what it proposes is taken where it lies
within 1 of the exact transform, as the accuracy requirements ask (12 R279; PRESUMED, log entry 56), and is the exact one's rounding else. -/
def jpegSample (coefs : List (Nat × Int)) (y x : Nat) : Nat :=
  let exact := rheScaleInt (idctExact coefs y x) (-62)
  let v := Config.idct coefs y x
  (clampInt 0 255 ((if (v - exact).natAbs ≤ 1 then v else exact) + 128)).toNat

/-- Value of a component at a pixel; subsampled chroma is replicated (12 R279). -/
def Jpeg.value (j : Jpeg) (f : JpegFrame) (k y x : Nat) : Nat :=
  let c := f.comps.getD k ⟨0, 1, 1, 0⟩
  let sy := y * c.v / f.vMax
  let sx := x * c.h / f.hMax
  match j.blocks.find? (fun b => b.comp == k && b.by_ == sy / 8 && b.bx == sx / 8) with
  | some b => jpegSample b.coefs (sy % 8) (sx % 8)
  | none => 0

end Sys2Proof.Machine
end

