-- ==== Sys2Proof/Machine/Image.lean ====
section
/-! DEFINITION. A sample's way from source bytes to written scales: pixels, crop, debayer, colour, pyramid, normalisation, layout
(12 R272, R278 to R281; layouts of 08 R193). -/

namespace Sys2Proof.Machine

/-- An image: size, channels, and the value of a channel at a row and column. -/
structure Img where
  h : Nat
  w : Nat
  ch : Nat
  px : Nat → Nat → Nat → Nat

/-- Bits of a pixel on a line, by CSI-2 data type (12 R272). -/
def csiBits : Nat → Nat
  | 0x2B => 10 | 0x2C => 12 | 0x2E => 16 | 0x1E => 16 | _ => 0

/-- Bytes of a line of `w` pixels. -/
def csiLine (dt w : Nat) : Nat := (w * csiBits dt + 7) / 8

/-- The raw value of a pixel of a line: its Y byte for YUV422 (12 R275; the packings of CSI-2, PRESUMED, log entry 34). -/
def csiPix (dt : Nat) (b : List Byte) (x : Nat) : Nat :=
  match dt with
  | 0x2B => byteAt b (5 * (x / 4) + x % 4) * 4 + byteAt b (5 * (x / 4) + 4) / 4 ^ (x % 4) % 4
  | 0x2C => byteAt b (3 * (x / 2) + x % 2) * 16 + byteAt b (3 * (x / 2) + 2) / 16 ^ (x % 2) % 16
  | 0x2E => byteAt b (2 * x) * 256 + byteAt b (2 * x + 1)
  | _ => byteAt b (2 * x + 1)

/-- The bytes of the sampled pixels that a line carries, in order of i, then j (12 R275). -/
def sampledBytes (dt H W line : Nat) (b : List Byte) : List Byte :=
  (List.range 64).flatMap (fun i => if (2 * i + 1) * H / 128 = line then
    (List.range 64).flatMap (fun j => leBytes 2 (csiPix dt b ((2 * j + 1) * W / 128))) else [])

/-- The fields of a stream entry (12 R278). -/
structure StreamCfg where
  source : Nat
  fnFeed : Bool
  substitute : Bool
  missing : Bool
  csi : Nat
  vc : Nat
  dt : Nat
  bayer : Nat
  mono : Bool
  toRgb : Bool
  scales : Nat
  fmt : Nat
  factor : Nat
  group : Nat
  cx : Nat
  cy : Nat
  cw : Nat
  chh : Nat
  black : Nat
  gains : List Nat
  zero : Int
  queue : Nat
  initMean : Nat
  width : Nat
  height : Nat
  deriving DecidableEq, Repr

/-- A stream entry read from its bytes (12 R278). -/
def StreamCfg.read (b : List Byte) : StreamCfg :=
  let b0 := byteAt b 0
  let b3 := byteAt b 3
  { source := b0 % 4, fnFeed := natBit b0 2, substitute := natBit b0 3, missing := natBit b0 4, csi := byteAt b 1 % 16, vc := byteAt b 1 / 16
    dt := byteAt b 2, bayer := b3 % 4, mono := natBit b3 2, toRgb := natBit b3 3, scales := byteAt b 4 % 64, fmt := byteAt b 5 % 16
    factor := byteAt b 6, group := byteAt b 7 % 8, cx := leField b 8 2, cy := leField b 10 2, cw := leField b 12 2, chh := leField b 14 2
    black := leField b 16 2, gains := [leField b 18 2, leField b 20 2, leField b 22 2], zero := signed 16 (leField b 24 2)
    queue := leField b 28 3 % 2 ^ 20, initMean := leField b 32 4, width := leField b 36 2, height := leField b 38 2 }

/-- Whether a camera stream carries a Bayer mosaic. -/
def StreamCfg.isBayer (c : StreamCfg) : Bool := c.source == 0 && c.dt != 0x1E

/-- Whether every field of a stream entry is in its range (12 R278, R292). -/
def streamOk (b : List Byte) : Bool :=
  let c := StreamCfg.read b
  decide (byteAt b 0 / 32 = 0 ∧ c.source ≤ 2 ∧ byteAt b 3 / 16 = 0 ∧ byteAt b 4 / 64 = 0 ∧ c.scales % 2 = 1 ∧ byteAt b 5 / 16 = 0
      ∧ (c.fmt = 0xA ∨ c.fmt = 1) ∧ byteAt b 7 / 8 = 0 ∧ leField b 26 2 = 0 ∧ leField b 28 3 < 2 ^ 20 ∧ byteAt b 31 = 0 ∧ leField b 40 4 = 0
      ∧ 16 ≤ c.width ∧ c.width ≤ 8192 ∧ 16 ≤ c.height ∧ c.height ≤ 8192)
    && (c.source != 0 || (decide (c.csi < 12) && csiBits c.dt != 0))
    && (!c.isBayer || decide (c.cx % 2 = 0 ∧ c.cy % 2 = 0))
    && (!c.fnFeed || decide ((if c.cw = 0 then c.width else c.cw) ≤ 4096))

/-- A source record's fields (12 R279). -/
structure SrcRec where
  id : Nat
  kind : Nat
  check : Bool
  addr : Nat
  bytes : Nat
  w : Nat
  h : Nat
  three : Bool
  wide : Bool
  mosaic : Bool
  crc : Nat
  /-- Whether every reserved field is 0. -/
  ok : Bool
  deriving DecidableEq, Repr

/-- A source record read from its 32 bytes (12 R279). -/
def SrcRec.read (b : List Byte) : SrcRec :=
  { id := leField b 0 4, kind := byteAt b 4, check := natBit (byteAt b 5) 0, addr := leField b 8 6, bytes := leField b 16 4
    w := leField b 20 2, h := leField b 22 2, three := natBit (byteAt b 24) 0, wide := natBit (byteAt b 24) 1, mosaic := natBit (byteAt b 24) 2
    crc := leField b 28 4
    ok := decide (b.length = 32 ∧ byteAt b 5 / 2 = 0 ∧ leField b 6 2 = 0 ∧ leField b 14 2 = 0 ∧ byteAt b 24 / 8 = 0 ∧ leField b 25 3 = 0) }

/-- Input bit depth (12 R280). -/
def bitDepth (c : StreamCfg) (r : SrcRec) : Nat :=
  match c.source with
  | 0 => (match c.dt with | 0x2B => 10 | 0x2C => 12 | 0x2E => 16 | _ => 8)
  | 1 => 8
  | _ => if r.wide then 16 else 8

/-- A camera sample's image before crop: one plane, or Y, Cb, Cr with chroma replicated over a pair (12 R280 step 2). -/
def cameraImg (c : StreamCfg) (rows : List (List Byte)) : Img :=
  let row := fun y => rows.getD y []
  if c.dt = 0x1E then
    { h := c.height, w := c.width, ch := if c.mono then 1 else 3
      px := fun k y x => match k with
        | 0 => byteAt (row y) (2 * x + 1)
        | 1 => byteAt (row y) (4 * (x / 2))
        | _ => byteAt (row y) (4 * (x / 2) + 2) }
  else { h := c.height, w := c.width, ch := 1, px := fun _ y x => csiPix c.dt (row y) x }

/-- A tensor sample's image from its source bytes; of three channels a stream with mono 1 takes the first (12 R278, R279, R281; DESIGN CHOICE,
log entry 56). -/
def tensorImg (c : StreamCfg) (r : SrcRec) (b : List Byte) : Img :=
  let n := if r.three then 3 else 1
  let e := if r.wide then 2 else 1
  { h := r.h, w := r.w, ch := if c.mono then 1 else n, px := fun k y x => leField b (((y * r.w + x) * n + k) * e) e }

/-- A JPEG sample's image, or the cause of its corruption (12 R279, R289). A one-component image on a stream with mono 0 has neutral chroma,
128 (DESIGN CHOICE, log entry 56). -/
def jpegImg (c : StreamCfg) (b : List Byte) : Nat ⊕ Img :=
  match jpegRead c.width c.height b with
  | .inl cause => .inl cause
  | .inr j =>
    match j.frame with
    | none => .inl 5
    | some f => .inr { h := f.h, w := f.w, ch := if c.mono then 1 else 3, px := fun k y x => if k < f.comps.length then j.value f k y x else 128 }

/-- An image cropped (12 R280 step 1). -/
def Img.crop (m : Img) (x0 y0 w h : Nat) : Img := { m with h := h, w := w, px := fun k y x => m.px k (y + y0) (x + x0) }

/-- The colour of a mosaic position: 0 R, 1 G, 2 B (12 R278 bayer). -/
def bayerColour (code y x : Nat) : Nat :=
  let p := 2 * (y % 2) + x % 2
  match code with
  | 0 => [0, 1, 1, 2].getD p 0
  | 1 => [1, 0, 2, 1].getD p 0
  | 2 => [1, 2, 0, 1].getD p 0
  | _ => [2, 1, 1, 0].getD p 0

/-- A coordinate one step outside reflected across the edge: −1 is read as 1 (12 R280 step 2). -/
def reflectIdx (n i d : Nat) : Nat :=
  let j : Int := (i : Int) + d - 1
  let k := if j < 0 then -j else if (n : Int) ≤ j then 2 * ((n : Int) - 1) - j else j
  (clampInt 0 ((n : Int) - 1) k).toNat

/-- The mosaic debayered: a missing colour is the mean of its 2 or 4 nearest neighbours (12 R280 step 2). -/
def Img.debayer (m : Img) (code : Nat) : Img :=
  { m with
    ch := 3
    px := fun k y x =>
      if bayerColour code y x = k then m.px 0 y x
      else
        let orth := [(0, 1), (1, 0), (1, 2), (2, 1)].filter (fun d => bayerColour code (y + d.1 + 1) (x + d.2 + 1) == k)
        let diag := [(0, 0), (0, 2), (2, 0), (2, 2)].filter (fun d => bayerColour code (y + d.1 + 1) (x + d.2 + 1) == k)
        let ns := if orth.isEmpty then diag else orth
        rheDiv (ns.foldl (fun n d => n + m.px 0 (reflectIdx m.h y d.1) (reflectIdx m.w x d.2)) 0) ns.length }

/-- Y, Cb, Cr converted to RGB (12 R280 step 3). -/
def Img.rgb (m : Img) : Img :=
  { m with px := fun k y x =>
      let l : Int := m.px 0 y x
      let cb : Int := (m.px 1 y x : Int) - 128
      let cr : Int := (m.px 2 y x : Int) - 128
      let v := match k with
        | 0 => l + rheScaleInt (91881 * cr) (-16)
        | 1 => l - rheScaleInt (22554 * cb + 46802 * cr) (-16)
        | _ => l + rheScaleInt (116130 * cb) (-16)
      (clampInt 0 255 v).toNat }

/-- The next scale of the pyramid (12 R280 step 4). -/
def Img.half (m : Img) : Img :=
  { m with
    h := (m.h + 1) / 2
    w := (m.w + 1) / 2
    px := fun k y x =>
      let at_ := fun dy dx => m.px k (min (2 * y + dy) (m.h - 1)) (min (2 * x + dx) (m.w - 1))
      rheDiv (at_ 0 0 + at_ 0 1 + at_ 1 0 + at_ 1 1) 4 }

/-- A scale of the pyramid. -/
def Img.scale (m : Img) : Nat → Img
  | 0 => m
  | n + 1 => (m.scale n).half

/-- The crop window of a stream for an image of a size: none where it leaves the image (12 R280 step 1). -/
def cropWindow (c : StreamCfg) (w h : Nat) : Option (Nat × Nat × Nat × Nat) :=
  let cw := if c.cw = 0 then w else c.cw
  let ch := if c.chh = 0 then h else c.chh
  if c.cx + cw ≤ w ∧ c.cy + ch ≤ h ∧ 0 < cw ∧ 0 < ch then some (c.cx, c.cy, cw, ch) else none

/-- An image through steps 1 to 3 of R280 (12). -/
def prepare (c : StreamCfg) (mosaic ycc : Bool) (m : Img) : Option Img :=
  match cropWindow c m.w m.h with
  | none => none
  | some (x, y, w, h) =>
    let k := m.crop x y w h
    some (if mosaic && !c.mono then k.debayer c.bayer else if ycc && c.toRgb && k.ch == 3 then k.rgb else k)

/-- A value normalised to an output code (12 R281). -/
def normalise (c : StreamCfg) (n k p : Nat) : Nat :=
  let d : Int := (p : Int) - c.black
  let m := c.gains.getD k 0
  if c.fmt = 0xA then wrapNat 8 (clampInt (-128) 127 (rheScaleInt (d * m) (-(6 + (n : Int))) + c.zero))
  else (convertTo 1 false (.fin (decide (d < 0)) (d.natAbs * m) (-(14 + (n : Int))))).1

/-- Bytes of an output element. -/
def StreamCfg.esize (c : StreamCfg) : Nat := if c.fmt = 0xA then 1 else 2

/-- The codes of a scale in order of row, column, channel. -/
def scaleCodes (c : StreamCfg) (n : Nat) (m : Img) : List Nat :=
  (List.range m.h).flatMap (fun y => (List.range m.w).flatMap (fun x => (List.range m.ch).map (fun k => normalise c n k (m.px k y x))))

/-- The bytes of a written scale: NC16HW with one block of 16 channels, those past the image's zero (12 R281, 08 R193). -/
def scaleBytes (c : StreamCfg) (ch : Nat) (codes : List Nat) : List Byte :=
  (List.range (codes.length / max ch 1)).flatMap (fun i => (List.range 16).flatMap (fun k =>
    leBytes c.esize (if k < ch then codes.getD (i * ch + k) 0 else 0)))

/-- The written scales of a stream, rising. -/
def StreamCfg.written (c : StreamCfg) : List Nat := bitList 6 c.scales

/-- Size of an image halved `n` times. -/
def halved : Nat → Nat → Nat
  | x, 0 => x
  | x, n + 1 => halved ((x + 1) / 2) n

/-- Bytes that the written scales of an image of a size take in a slot (12 R284). -/
def imgSlotBytes (c : StreamCfg) (w h : Nat) : Nat :=
  c.written.foldl (fun n s => (n + 63) / 64 * 64 + halved w s * halved h s * 16 * c.esize) 0

/-- A group entry's fields (12 R283). -/
structure GroupCfg where
  perMember : Bool
  slots : Nat
  nBuf : Nat
  low : Nat
  members : List Nat
  dest : Nat
  stride : Nat
  queue : Nat
  window : Nat
  deriving DecidableEq, Repr

/-- A group entry read from its bytes (12 R283). -/
def GroupCfg.read (b : List Byte) : GroupCfg :=
  { perMember := natBit (byteAt b 0) 0, slots := byteAt b 1, nBuf := byteAt b 2, low := byteAt b 3, members := bitList 32 (leField b 4 4)
    dest := leField b 8 6, stride := leField b 16 4, queue := leField b 20 3 % 2 ^ 20, window := leField b 24 4 }

end Sys2Proof.Machine
end

