-- ==== Sys2Proof/Machine/Carousel.lean ====
section
/-! DEFINITION. Carousel: streams, batch groups, samples from start to their slots, batches issued (12 R278 to R294). -/

namespace Sys2Proof.Machine

/-- A stream. -/
def stream (n : Nat) (s : State) : CarStream := Tbl.get {} s.car.streams n

/-- A stream replaced. -/
def setStream (n : Nat) (v : CarStream) (s : State) : State := { s with car := { s.car with streams := Tbl.set {} s.car.streams n v } }

/-- A batch group. -/
def grp (g : Nat) (s : State) : CarGroup := Tbl.get {} s.car.groups g

/-- A batch group replaced. -/
def setGrp (g : Nat) (v : CarGroup) (s : State) : State := { s with car := { s.car with groups := Tbl.set {} s.car.groups g v } }

/-- A stream's entry. -/
def streamCfg (n : Nat) (s : State) : StreamCfg := StreamCfg.read (stream n s).cfg

/-- A group's entry. -/
def grpCfg (g : Nat) (s : State) : GroupCfg := GroupCfg.read (grp g s).cfg

/-- A sample in progress by stream and ID. -/
def findSample (st id : Nat) (s : State) : Option CarSample := s.car.samples.find? (fun x => x.stream == st && x.id == id)

/-- A sample taken off the list. -/
def dropSample (st id : Nat) (s : State) : State :=
  { s with car := { s.car with samples := s.car.samples.filter (fun x => !(x.stream == st && x.id == id)) } }

/-- A sample replaced. -/
def updSample (st id : Nat) (f : CarSample → CarSample) (s : State) : State :=
  { s with car := { s.car with samples := s.car.samples.map (fun x => if x.stream = st ∧ x.id = id then f x else x) } }

/-- Whether Carousel runs: its block enabled and domain 110 on (12). -/
def carRuns (s : State) : Bool := blockEnabled 7 0 s && domainOn 110 s && !s.resetting.contains (pageKey 7 0 / 0x1000)

/-- A slot of a batch of a group changed. -/
def updSlot (g num j : Nat) (f : CarSlot → CarSlot) (s : State) : State :=
  let k := grp g s
  setGrp g { k with batches := k.batches.map (fun b => if b.number = num then
    { b with slots := (List.range b.slots.length).map (fun i => let x := b.slots.getD i {}; if i = j then f x else x) } else b) } s

/-- The first slot of a batch that no sample holds. -/
def CarBatch.free (b : CarBatch) : Option Nat := (List.range b.slots.length).find? (fun i => let x := b.slots.getD i {}; x.sample.isNone && x.status.isNone)

/-- The lowest buffer of a group that no batch uses and no consumer still holds (12 R285). -/
def freeBuffer (g : Nat) (s : State) : Option Nat :=
  let k := grp g s
  (List.range (grpCfg g s).nBuf).find? (fun i => !(k.batches.any (fun b => b.buffer == i)) && !(k.prepared.any (fun e => e.1 == i)))

/-- A batch opened on a free buffer (12 R285). -/
def openBatch (g : Nat) (s : State) : Option (Nat × State) :=
  match freeBuffer g s with
  | none => none
  | some i =>
    let k := grp g s
    some (k.next, setGrp g { k with next := (k.next + 1) % 2 ^ 32
                                    batches := k.batches ++ [{ number := k.next, buffer := i, slots := List.replicate (grpCfg g s).slots {}
                                                               opened := devNow s, closed := false, flags := 0 }] } s)

/-- The place of a stream among a group's members. -/
def memberSlot (c : GroupCfg) (st : Nat) : Nat := (c.members.filter (fun m => m < st)).length

/-- The slot that a sample of a stream takes when it starts: batch number and slot (12 R285). -/
def takeSlot (g st : Nat) (s : State) : Option ((Nat × Nat) × State) :=
  let c := grpCfg g s
  let k := grp g s
  if c.perMember then
    let j := memberSlot c st
    match k.batches.find? (fun b => !b.closed && (b.slots.getD j {}).sample.isNone && (b.slots.getD j {}).status.isNone
        && decide (devNow s ≤ b.opened + c.window * 1000)) with
    | some b => some ((b.number, j), s)
    | none => (match openBatch g s with | some (n, s1) => some ((n, j), s1) | none => none)
  else
    match k.batches.findSome? (fun b => if b.closed then none else (match b.free with | some j => some (b.number, j) | none => none)) with
    | some x => some (x, s)
    | none => (match openBatch g s with | some (n, s1) => some ((n, 0), s1) | none => none)

/-- CAR_SAMPLE_CORRUPT (12 R294). -/
def evSampleCorrupt (st id cause : Nat) (missing : Bool) (sub : Nat) (inj : Bool) : Ev :=
  { c := 7, i := 0, bit := 9, code := 0x3700, ctx := st, payload := id + cause * 2 ^ 32 + b2n missing * 2 ^ 40 + sub * 2 ^ 41 + injFlag inj }

/-- What the small convolution engine will find of a sample of a stream that feeds it (12 R292). -/
def pushFeed (st id : Nat) (ok : Bool) (scales : List (Nat × Nat × Nat × Nat × List Nat)) (s : State) : State :=
  if (streamCfg st s).fnFeed then { s with car := { s.car with feeds := s.car.feeds ++ [⟨st, id, ok, scales⟩] } } else s

/-- A source row of a stream has arrived: the small convolution engine's wait begins anew (08 R215). -/
def fnRow (st : Nat) (s : State) : State :=
  { s with fn := { s.fn with cur := s.fn.cur.map (fun r => if !natBit (byteAt r.desc 0) 0 && byteAt r.desc 12 == st then { r with rowAt := s.time.clk } else r) } }

/-- The record of a batch (12 R286). -/
def batchRecord (g : Nat) (b : CarBatch) (now : Nat) : List Byte :=
  let st := fun (x : CarSlot) => x.status.getD 4
  let mask := fun (p : CarSlot → Bool) => (List.range b.slots.length).foldl (fun n i => if p (b.slots.getD i {}) then n + 2 ^ i else n) 0
  leBytes 4 b.number ++ leBytes 1 g ++ leBytes 1 b.slots.length ++ leBytes 1 b.buffer ++ leBytes 1 b.flags
    ++ leBytes 8 (mask (fun x => st x == 0 || st x == 3 || st x == 5)) ++ leBytes 8 (mask (fun x => st x == 2)) ++ leBytes 8 (mask (fun x => st x == 3))
    ++ leBytes 8 now
    ++ b.slots.flatMap (fun x =>
      let i := x.sample.getD (0xFFFFFFFF, 0)
      leBytes 4 i.1 ++ leBytes 1 i.2 ++ leBytes 1 (st x) ++ leBytes 1 (if st x = 1 then x.cause else 0) ++ leBytes 1 0)

/-- Whether a batch's record can go to its queue: admitted there, dropped there, or short enough for the staging buffer (11 R261, R262). -/
def batchGoes (q len : Nat) (s : State) : Bool := pushGoes q len false s

/-- A resolved batch issued: events of corrupt samples without a substitute, the record, the buffer prepared (12 R285, R289). -/
def issueBatch (g : Nat) (b : CarBatch) (s : State) : State :=
  let q := (grpCfg g s).queue
  let s1 := b.slots.foldl (fun acc x => if x.sub then
    (match x.sample with | some i => raise (evSampleCorrupt i.2 i.1 x.cause false 0xFFFFFFFF false) acc | none => acc) else acc) s
  let rcd := batchRecord g b (devNow s1)
  let k := grp g s1
  let s2 := setGrp g { k with batches := k.batches.filter (fun x => x.number != b.number), prepared := k.prepared ++ [(b.buffer, rcd)] } s1
  carFree g (pushEngine q 0x40 0xFFFF false false rcd s2)

/-- Every batch of a group whose slots are all resolved issued, oldest first (12 R285). -/
def settleGroup (g : Nat) (s : State) : State :=
  (grp g s).batches.foldl (fun acc b =>
    if b.slots.all (fun x => x.status.isSome) && batchGoes (grpCfg g acc).queue (40 + 8 * b.slots.length) acc then issueBatch g b acc else acc) s

/-- A sample found corrupt: dropped, its slot kept for a substitute or invalid (12 R289, R290). -/
def corruptSample (st id cause : Nat) (inj : Bool) (s : State) : State :=
  match findSample st id s with
  | none => s
  | some x =>
    let c := streamCfg st s
    let s1 := bump 7 0 0xB0 1 s
    if x.gone then raise (evSampleCorrupt st id cause true 0xFFFFFFFF inj) (dropSample st id s1)
    else
      let wait := c.substitute && x.slot.isSome && !(grpCfg c.group s).perMember
      let s2 := pushFeed st id false [] (dropSample st id s1)
      let s3 := match x.slot with
        | some (n, j) => updSlot c.group n j (fun y => { y with status := some 1, cause := cause, sub := wait }) s2
        | none => s2
      settleGroup c.group (if wait then s3 else raise (evSampleCorrupt st id cause false 0xFFFFFFFF inj) s3)

/-- The running mean after a duration (12 R287). -/
def meanAfter (mean t : Nat) : Nat := ((mean : Int) + rheScaleInt ((t : Int) - mean) (-4)).toNat

/-- A sample's stream taught a duration. -/
def teachMean (st t : Nat) (s : State) : State := let v := stream st s; setStream st { v with mean := meanAfter v.mean t } s

/-- CAR_SAMPLE_LATE (12 R294). -/
def evSampleLate (st id : Nat) (missing : Bool) (mean : Nat) (inj : Bool) : Ev :=
  { c := 7, i := 0, bit := 7, code := 0x2701, ctx := st, payload := id + b2n missing * 2 ^ 32 + mean * 2 ^ 40 + injFlag inj }

/-- A sample overdue: missing, or deferred in fill composition (12 R287, R288). -/
def overdue (st id : Nat) (inj : Bool) (s : State) : State :=
  match findSample st id s with
  | none => s
  | some x =>
    let c := streamCfg st s
    let miss := c.missing || (grpCfg c.group s).perMember
    let mean := (stream st s).mean
    let s1 := teachMean st (2 * mean) (raise (evSampleLate st id miss mean inj) (bump 7 0 0xB4 1 s))
    match x.slot with
    | none => s1
    | some (n, j) =>
      if miss then
        let s2 := updSlot c.group n j (fun y => { y with status := some 2 }) s1
        let s3 := if c.source = 0 ∧ x.ready = false then updSample st id (fun y => { y with gone := true, slot := none, deadline := none }) s2 else dropSample st id s2
        settleGroup c.group (pushFeed st id false [] s3)
      else
        updSample st id (fun y => { y with slot := none, late := true, deadline := none }) (updSlot c.group n j (fun _ => {}) s1)

/-- A sample started in a slot: counted, its deadline fixed (12 R285, R287; DEDUCED, log entry 50). -/
def startSample (st id : Nat) (src : List Byte) (ready : Bool) (s : State) : Option State :=
  let c := streamCfg st s
  match takeSlot c.group st s with
  | none => none
  | some ((n, j), s1) =>
    let v := stream st s1
    let s2 := updSlot c.group n j (fun y => { y with sample := some (id, st) }) (addCtr 7 0 0xA8 1 s1)
    let s3 := { s2 with car := { s2.car with samples := s2.car.samples ++ [
      { id := id, stream := st, start := devNow s, deadline := if c.factor = 0 then none else some (devNow s + c.factor * v.mean)
        slot := some (n, j), late := false, gone := false, ready := ready, src := src, rows := [] }] } }
    some (if armed 7 0 7 s3 then overdue st id true (disarm 7 0 7 s3) else s3)

/-- Whether a stream's group takes samples now. -/
def grpTakes (st : Nat) (s : State) : Bool :=
  let g := (streamCfg st s).group
  (grp g s).st == 1 && (grpCfg g s).members.contains st

/-- SOURCE_RECORD: a memory stream takes the next record of its queue and starts the sample (12 R279, R285). A record that breaks R279
makes a sample with cause 7 (DEDUCED, log entry 35). -/
def execSourceRecord (st : Nat) (s : State) : Out :=
  .next (
    let c := streamCfg st s
    if carRuns s = false ∨ (stream st s).running = false ∨ c.source = 0 ∨ grpTakes st s = false ∨ (qDesc c.queue s).consumer ≠ 4 then s
    else if (takeSlot c.group st s).isNone then s
    else match engineTake c.queue s with
      | none => noTake c.queue s
      | some (b, s1) =>
        let r := SrcRec.read b
        match startSample st r.id b true s1 with
        | none => s
        | some s2 =>
          if r.ok = false ∨ r.kind + 1 ≠ c.source ∨ (c.source = 2 ∧ (c.width < r.w ∨ c.height < r.h)) then corruptSample st r.id 7 false s2 else s2)

/-- The source bytes of a memory sample: status 0, or the cause 8 or 9 of R289 (12). -/
def readSource (r : SrcRec) (s : State) : Nat × List Byte × State :=
  let a := access 7 0 0 .carousel .read r.addr r.bytes [] s
  if a.1.status ≠ 0 then (8, [], a.2)
  else
    let b := rdBytes a.2 r.addr r.bytes
    if r.check && crc32 b != r.crc then (9, b, a.2) else (0, b, a.2)

/-- The image of a sample after steps 1 to 3, or the cause of its corruption (12 R280, R289). -/
def sampleImg (c : StreamCfg) (x : CarSample) (s : State) : (Nat ⊕ Img) × State :=
  let fin := fun (o : Option Img) => match o with | some m => Sum.inr m | none => Sum.inl 7
  if c.source = 0 then (fin (prepare c c.isBayer (c.dt == 0x1E) (cameraImg c x.rows)), s)
  else
    let r := SrcRec.read x.src
    match readSource r s with
    | (0, b, s1) =>
      if c.source = 1 then
        match jpegImg c b with
        | .inl cause => (.inl cause, s1)
        | .inr m => (fin (prepare c false true m), s1)
      else (fin (prepare c r.mosaic false (tensorImg c r b)), s1)
    | (n, _, s1) => (.inl n, s1)

/-- A camera row that finds no room in the line buffer: the sample is corrupt with cause 10, and where the small convolution engine waits for it as
its next sample, the remaining rows are supplied as zeros (12 R292). -/
def overrunSample (st id : Nat) (s : State) : State :=
  let c := streamCfg st s
  let waits := match s.fn.cur with
    | some r => !natBit (byteAt r.desc 0) 0 && byteAt r.desc 12 == st && !s.car.feeds.any (fun f => f.stream == st)
    | none => false
  let s1 := corruptSample st id 10 false s
  match findSample st id s with
  | some x =>
    if waits = false ∨ c.fnFeed = false then s1
    else
      let rows := x.rows ++ List.replicate (c.height - x.rows.length) (List.replicate (csiLine c.dt c.width) 0)
      (match (sampleImg c { x with rows := rows } s).1 with
      | .inr m =>
        let scales := c.written.map (fun z => let i := m.scale z; (z, i.h, i.w, i.ch, scaleCodes c (bitDepth c (SrcRec.read x.src)) i))
        { s1 with car := { s1.car with feeds := s1.car.feeds.map (fun f => if f.stream = st ∧ f.id = id then { f with ok := true, scales := scales } else f) } }
      | .inl _ => s1)
  | none => s1

/-- Bytes written through Carousel's windows in runs of at most 256; the result with the address of a refused run (12 R291; 09 R222). -/
def carWrite (g : Nat) : Nat → Nat → List Byte → State → (AccRes × Nat) × State
  | 0, _, _, s => ((⟨0, 0⟩, 0), s)
  | fuel + 1, a, l, s =>
    if l.isEmpty then ((⟨0, 0⟩, 0), s)
    else
      let n := 256 - a % 256
      let r := access 7 0 g .carousel .write a (l.take n).length (l.take n) s
      if r.1.status ≠ 0 then ((r.1, a), r.2) else carWrite g fuel (a + (l.take n).length) (l.drop n) r.2

/-- The scales of a sample written to its slot, each from a 64-byte boundary (12 R284). -/
def writeScales (g a : Nat) (c : StreamCfg) : List (Nat × Nat × Nat × Nat × List Nat) → State → (AccRes × Nat) × State
  | [], s => ((⟨0, 0⟩, 0), s)
  | (_, _, _, ch, codes) :: t, s =>
    let b := scaleBytes c ch codes
    let r := carWrite g (b.length / 256 + 2) a b s
    if r.1.1.status ≠ 0 then r else writeScales g ((a + b.length + 63) / 64 * 64) c t r.2

/-- A refused write: the samples of its buffer are corrupt with cause 11, its batch is issued and the group halts (12 R291). -/
def haltGroup (g num a cause : Nat) (inj : Bool) (s : State) : State :=
  let s0 := raise { c := 7, i := 0, bit := 10, code := 0x3701, ctx := g, payload := addrPayload a 2 2 (deviceId s) + cause * 2 ^ 64 + injFlag inj } s
  match (grp g s0).batches.find? (fun b => b.number == num) with
  | none => s0
  | some b =>
    let k := grp g s0
    let s1 := setGrp g { k with
      st := 2
      batches := k.batches.map (fun x => if x.number = num then
        { x with closed := true, slots := x.slots.map (fun y => if y.sample.isNone ∧ y.status.isNone then { y with status := some 4 } else { y with sub := false }) } else x) } s0
    let live := b.slots.filterMap (fun y => if y.status.isNone then y.sample else none)
    let s2 := live.foldl (fun acc i =>
      match findSample i.2 i.1 acc with
      | some x =>
        let acc1 := pushFeed i.2 i.1 false [] (dropSample i.2 i.1 (bump 7 0 0xB0 1 acc))
        let acc2 := match x.slot with | some (n, j) => updSlot g n j (fun y => { y with status := some 1, cause := 11 }) acc1 | none => acc1
        raise (evSampleCorrupt i.2 i.1 11 false 0xFFFFFFFF false) acc2
      | none => acc) s1
    settleGroup g s2

/-- The oldest slot of a group that waits for a substitute, older than a batch if one is given (12 R289; DEDUCED, log entry 36). -/
def subSlot (g : Nat) (before : Option Nat) (s : State) : Option (Nat × Nat) :=
  let bs := (grp g s).batches
  let older : List CarBatch := match before with | some n => bs.takeWhile (fun (b : CarBatch) => b.number != n) | none => bs
  older.findSome? (fun b => (List.range b.slots.length).findSome? (fun j => if (b.slots.getD j {}).sub then some (b.number, j) else none))

/-- Where a sample that completes goes: batch, slot and status; its own slot, a substitution, or for a deferred one the next slot
(12 R288 to R290). -/
def placeSample (g : Nat) (x : CarSample) (s : State) : Option ((Nat × Nat × Nat) × State) :=
  match subSlot g (x.slot.map (fun p => p.1)) s with
  | some (n, j) =>
    let old := match ((grp g s).batches.find? (fun b => b.number == n)) with | some b => b.slots.getD j {} | none => {}
    let s1 := match old.sample with | some i => raise (evSampleCorrupt i.2 i.1 old.cause false x.id false) s | none => s
    let s2 := match x.slot with | some (m, k) => updSlot g m k (fun _ => {}) s1 | none => s1
    some ((n, j, 3), s2)
  | none =>
    match x.slot with
    | some (n, j) => some ((n, j, 0), s)
    | none => (match takeSlot g x.stream s with | some ((n, j), s1) => some ((n, j, 5), s1) | none => none)

/-- SAMPLE_COMPLETE: a sample whose source is whole is processed and written; its slot resolves, the mean is taught, a resolved batch is
issued (12 R280 to R290). -/
def execSampleComplete (st id : Nat) (s : State) : Out :=
  .next (
    match findSample st id s with
    | none => s
    | some x =>
      let c := streamCfg st s
      let g := c.group
      if carRuns s = false ∨ x.ready = false ∨ x.gone = true then s
      else if armed 7 0 9 s then corruptSample st id 2 true (disarm 7 0 9 s)
      else match sampleImg c x s with
        | (.inl cause, s1) => corruptSample st id cause false s1
        | (.inr m, s1) =>
          match placeSample g x s1 with
          | none => s
          | some ((n, j, status), s2) =>
            let k := grpCfg g s2
            let buf := match (grp g s2).batches.find? (fun b => b.number == n) with | some b => b.buffer | none => 0
            let a := k.dest + (buf * k.slots + j) * k.stride
            let depth := bitDepth c (SrcRec.read x.src)
            let scales : List (Nat × Nat × Nat × Nat × List Nat) := c.written.map (fun z => let i := m.scale z; (z, i.h, i.w, i.ch, scaleCodes c depth i))
            let s3 := updSample st id (fun y => { y with slot := some (n, j) })
              (updSlot g n j (fun y => { y with sample := some (id, st), status := none, sub := false }) s2)
            let w := if armed 7 0 10 s3 then (((⟨1, 1⟩ : AccRes), a), disarm 7 0 10 s3) else writeScales g a c scales s3
            if w.1.1.status ≠ 0 then haltGroup g n w.1.2 w.1.1.cause (armed 7 0 10 s3) w.2
            else
              let s4 := updSlot g n j (fun y => { y with status := some status, cause := 0 }) (pushFeed st id true scales (dropSample st id w.2))
              settleGroup g (if x.late then s4 else teachMean st (devNow s4 - x.start) s4))

/-- SAMPLE_LATE: a sample's deadline comes (12 R288). -/
def execSampleLate (st id : Nat) (s : State) : Out :=
  .next (
    match findSample st id s with
    | some x =>
      (match x.deadline with
      | some d => if carRuns s then overdue st id false (advanceToDev d s) else s
      | none => s)
    | none => s)

/-- MEMORY_SAMPLE_CORRUPT: a JPEG syntax or feature error (5, 6), a failed source read (8) or a CRC mismatch (9), where the sample's source has
it (12 R289). -/
def execMemorySampleCorrupt (st id cause : Nat) (s : State) : Out :=
  .next (
    match findSample st id s with
    | none => s
    | some x =>
      let c := streamCfg st s
      if carRuns s = false ∨ c.source = 0 ∨ x.gone = true then s
      else
        let r := readSource (SrcRec.read x.src) s
        let found := if r.1 = 0 ∧ c.source = 1 then (match jpegImg c r.2.1 with | .inl e => e | .inr _ => 0) else r.1
        if found = cause ∧ cause ≠ 0 then corruptSample st id cause false r.2.2 else s)

/-- BATCH_WINDOW_EXPIRY: the window of a group's oldest open batch ends: its unassigned slots are empty, or missing in per-member
composition, and it takes no more samples (12 R285). -/
def execBatchWindowExpiry (g : Nat) (s : State) : Out :=
  .next (
    let c := grpCfg g s
    match (grp g s).batches.find? (fun b => !b.closed) with
    | none => s
    | some b =>
      if carRuns s = false ∨ (c.perMember = false ∧ c.window = 0) then s
      else
        let s1 := advanceToDev (b.opened + c.window * 1000) s
        let k := grp g s1
        settleGroup g (setGrp g { k with batches := k.batches.map (fun x => if x.number = b.number then
          { x with
            closed := true
            flags := if x.slots.any (fun y => y.sample.isNone && y.status.isNone) then x.flags ||| 1 else x.flags
            slots := x.slots.map (fun y => if y.sample.isNone ∧ y.status.isNone then { y with status := some (if c.perMember then 2 else 4) } else y) }
          else x) } s1))

/-- CAR_CONFIG_REFUSED (12 R294). -/
def carRefused (ctx value group : Nat) (s : State) : State :=
  raise { c := 7, i := 0, bit := 12, code := 0x7700, ctx := ctx, payload := value + group * 2 ^ 32 } s

/-- The staged bytes of a stream entry; bytes 44 to 47 are ignored (12 R278). -/
def stagedStream (s : State) : List Byte := (stagedBytes7 0x44 11 s)
where
  /-- Carousel's registers from an offset on, as bytes. -/
  stagedBytes7 (off words : Nat) (s : State) : List Byte := (List.range words).flatMap (fun k => leBytes 4 (rdReg 7 0 (off + 4 * k) s).toNat)

/-- The samples of a stream in progress cancelled, their slots missing (12 R290). -/
def cancelStream (st : Nat) (s : State) : State :=
  let g := (streamCfg st s).group
  let mine := s.car.samples.filter (fun x => x.stream == st)
  let s1 := mine.foldl (fun acc x =>
    let a := dropSample st x.id acc
    let b := if x.gone then a else pushFeed st x.id false [] a
    match x.slot with | some (n, j) => updSlot g n j (fun y => { y with status := some 2 }) b | none => b) s
  settleGroup g s1

/-- CAR_ST_CMD written (12 R278, R287, R290). -/
def wrStCmd (v : Word) (s : State) : State :=
  let n := rdField 7 0 0x40 4 0 s
  let k := stream n s
  match v.field 2 0 with
  | 1 =>
    let b := stagedStream s
    let c := StreamCfg.read b
    if k.running ∨ streamOk b = false ∨ (c.substitute = true ∧ (grpCfg c.group s).perMember = true) then carRefused n v.toNat 0 s
    else setStream n { k with cfg := b, mean := c.initMean } s
  | 2 => if k.running then s else setStream n { k with running := true, seq := 0 } s
  | 3 => if k.running then setStream n { stream n (cancelStream n s) with running := false } (cancelStream n s) else s
  | 4 => setStream n { k with mean := (StreamCfg.read k.cfg).initMean } s
  | _ => s

/-- STREAM_CONFIGURE (12 R278). -/
def execStreamConfigure (r : Req) (s : State) : Out := .next (onReg r 7 0 0x74 (wrStCmd 1) s)
/-- STREAM_START (12 R278). -/
def execStreamStart (r : Req) (s : State) : Out := .next (onReg r 7 0 0x74 (wrStCmd 2) s)
/-- STREAM_STOP (12 R290). -/
def execStreamStop (r : Req) (s : State) : Out := .next (onReg r 7 0 0x74 (wrStCmd 3) s)
/-- MEAN_RESET (12 R287). -/
def execMeanReset (r : Req) (s : State) : Out := .next (onReg r 7 0 0x74 (wrStCmd 4) s)

/-- Whether every field of a staged group entry is in its range, and its queue has consumer 0 or 2 and is pinned (12 R283). -/
def grpOk (g : Nat) (b : List Byte) (s : State) : Bool :=
  let c := GroupCfg.read b
  let n := c.nBuf * c.slots * c.stride
  decide (byteAt b 0 / 2 = 0 ∧ 1 ≤ c.slots ∧ c.slots ≤ 64 ∧ 1 ≤ c.nBuf ∧ c.nBuf ≤ 16 ∧ c.low ≤ c.nBuf ∧ c.dest % 64 = 0 ∧ leField b 14 2 = 0
      ∧ c.stride % 64 = 0 ∧ leField b 20 3 < 2 ^ 20 ∧ byteAt b 23 = 0 ∧ leField b 28 4 = 0)
    && (regionOf s c.dest (max n 1) == .lpddr || regionOf s c.dest (max n 1) == .spad)
    && (!c.perMember || decide (c.slots = c.members.length))
    && ((qDesc c.queue s).consumer == 0 || (qDesc c.queue s).consumer == 2) && (qDesc c.queue s).pinned
    && c.members.all (fun m => decide ((streamCfg m s).group = g) && !(c.perMember && (streamCfg m s).substitute))

/-- Whether every member's largest sample fits a slot (12 R283). -/
def grpFits (g : Nat) (s : State) : Bool :=
  let c := grpCfg g s
  c.members.all (fun m =>
    let k := streamCfg m s
    match cropWindow k k.width k.height with
    | some (_, _, w, h) => decide (imgSlotBytes k w h ≤ c.stride)
    | none => decide (imgSlotBytes k (if k.cw = 0 then k.width else k.cw) (if k.chh = 0 then k.height else k.chh) ≤ c.stride))

/-- A group stopped: samples in progress are missing, unassigned slots empty, open batches issued (12 R290). -/
def stopGroup (g : Nat) (s : State) : State :=
  let c := grpCfg g s
  let s1 := (c.members.filter (fun m => (streamCfg m s).group == g)).foldl (fun acc m =>
    (acc.car.samples.filter (fun x => x.stream == m)).foldl (fun a x =>
      let a1 := pushFeed m x.id false [] (dropSample m x.id a)
      match x.slot with | some (n, j) => updSlot g n j (fun y => { y with status := some 2 }) a1 | none => a1) acc) s
  let k := grp g s1
  settleGroup g (setGrp g { k with
    st := 0
    batches := k.batches.map (fun x =>
      let unres := x.slots.any (fun y => y.status.isNone) || !x.closed
      { x with closed := true, flags := if unres then x.flags ||| 2 else x.flags,
               slots := x.slots.map (fun y => if y.status.isNone then { y with status := some (if y.sample.isSome then 2 else 4) } else y) }) } s1)

/-- CAR_GRP_CMD written (12 R283, R290). -/
def wrGrpCmd (v : Word) (s : State) : State :=
  let g := rdField 7 0 0x78 2 0 s
  let k := grp g s
  match v.field 1 0 with
  | 1 =>
    let b := (List.range 8).flatMap (fun i => leBytes 4 (rdReg 7 0 (0x7C + 4 * i) s).toNat)
    if k.st ≠ 0 ∨ grpOk g b s = false then carRefused g v.toNat 1 s else setGrp g { k with cfg := b } s
  | 2 => if k.st ≠ 0 ∨ grpFits g s = false ∨ (grpCfg g s).slots = 0 then carRefused g v.toNat 1 s
         else setGrp g { k with st := 1, next := 0, lowArmed := false } s
  | 3 => if k.st = 0 then s else stopGroup g s
  | _ => s

/-- GROUP_CONFIGURE (12 R283). -/
def execGroupConfigure (r : Req) (s : State) : Out := .next (onReg r 7 0 0x9C (wrGrpCmd 1) s)
/-- GROUP_START (12 R283). -/
def execGroupStart (r : Req) (s : State) : Out := .next (onReg r 7 0 0x9C (wrGrpCmd 2) s)
/-- GROUP_STOP (12 R290). -/
def execGroupStop (r : Req) (s : State) : Out := .next (onReg r 7 0 0x9C (wrGrpCmd 3) s)

end Sys2Proof.Machine
end

