-- ==== Sys2Proof/Machine/Camera.lean ====
section
/-! DEFINITION. The camera receivers: packets, frames, hashes, frozen streams, link state (12 R272 to R277, R295). -/

namespace Sys2Proof.Machine

/-- The key of a virtual channel. -/
def vcKey (csi vc : Nat) : Nat := csi * 16 + vc

/-- A virtual channel's state. -/
def camVc (csi vc : Nat) (s : State) : CamVc := Tbl.get {} s.car.vcs (vcKey csi vc)

/-- A virtual channel's state replaced. -/
def setVc (csi vc : Nat) (v : CamVc) (s : State) : State := { s with car := { s.car with vcs := Tbl.set {} s.car.vcs (vcKey csi vc) v } }

/-- The running camera stream of a virtual channel (12 R278). -/
def vcStream (csi vc : Nat) (s : State) : Option Nat :=
  (List.range 32).find? (fun n => (stream n s).running && (streamCfg n s).source == 0 && (streamCfg n s).csi == csi && (streamCfg n s).vc == vc)

/-- The configuration that a virtual channel's frames are held to: its running stream's, else that of the first stopped stream configured for
it (12 R273, R275). -/
def vcCfg (csi vc : Nat) (s : State) : Option StreamCfg :=
  match vcStream csi vc s with
  | some n => some (streamCfg n s)
  | none => ((List.range 32).map (fun n => streamCfg n s)).find? (fun c => decide (16 ≤ c.width) && c.source == 0 && c.csi == csi && c.vc == vc)

/-- Whether a receiver receives a virtual channel: enabled, in a powered domain (12 R272). -/
def camRuns (csi vc : Nat) (s : State) : Bool :=
  decide (csi < 12 ∧ vc < 16) && blockEnabled 8 csi s && domainOn 110 s && natBit (rdReg 8 csi 0x44 s).toNat vc

/-- A receiver's D-PHY clock lane is active (12 R295). -/
def phyUp (csi : Nat) (s : State) : State := if s.car.phy.contains csi then s else { s with car := { s.car with phy := s.car.phy ++ [csi] } }

/-- The frame in progress made corrupt: the first cause stays, its sample is dropped (12 R273, R289). -/
def frameCorrupt (csi vc cause : Nat) (inj : Bool) (s : State) : State :=
  let v := camVc csi vc s
  let id := match v.cur with | some f => f.id | none => 0xFFFFFFFF
  let s1 := raise { c := 8, i := csi, bit := 6, code := 0x3800, ctx := vc, payload := id + cause * 2 ^ 32 + injFlag inj } (bump 8 csi 0x54 1 s)
  match v.cur with
  | none => s1
  | some f =>
    let s2 := setVc csi vc { v with cur := some { f with cause := if f.cause = 0 then cause else f.cause } } s1
    match vcStream csi vc s2 with
    | some n => if f.cause = 0 then corruptSample n f.id cause false s2 else s2
    | none => s2

/-- A header with a single-bit error corrected (12 R273). -/
def hdrCorrected (csi vc hdr : Nat) (inj : Bool) (s : State) : State :=
  raise { c := 8, i := csi, bit := 5, code := 0x1800, ctx := vc, payload := hdr % 2 ^ 32 + injFlag inj } (bump 8 csi 0x58 1 s)

/-- A long packet's bytes taken into the frame: hashes, and for image data a line of the sample (12 R273, R275). -/
def packetIn (csi vc dt : Nat) (b : List Byte) (full : Bool) (s : State) : State :=
  let v := camVc csi vc s
  match v.cur with
  | none => s
  | some f =>
    let st := vcStream csi vc s
    let c := vcCfg csi vc s
    let image := decide (dt ≠ 0x12)
    let sb := match c with | some c => if image then sampledBytes dt c.height c.width f.lines b else [] | none => []
    let s1 := setVc csi vc { v with cur := some { f with fcrc := crcRun f.fcrc b, scrc := crcRun f.scrc sb, lines := if image then f.lines + 1 else f.lines } } s
    match c with
    | none => s1
    | some c =>
      if image = false then s1
      else if b.length ≠ csiLine c.dt c.width ∨ dt ≠ c.dt then frameCorrupt csi vc 3 false s1
      else match st with
        | none => s1
        | some n => if full then overrunSample n f.id s1 else fnRow n (updSample n f.id (fun x => { x with rows := x.rows ++ [b] }) s1)

/-- A packet's header word checked: `bad` is what its ECC finds (0 none, 1 corrected, 2 uncorrectable); whether the packet is lost, and the
state (12 R273). -/
def csiHeader (csi vc hdr bad : Nat) (s : State) : Bool × State :=
  if bad = 2 then (true, frameCorrupt csi vc 1 false s)
  else if bad = 1 then (false, hdrCorrected csi vc hdr false s)
  else if armed 8 csi 5 s then (false, hdrCorrected csi vc hdr true (disarm 8 csi 5 s)) else (false, s)

/-- CSI_PACKET: a long packet. `hdr` is its header word and `bad` what its ECC finds (0 none, 1 corrected, 2 uncorrectable), `crcOk` its
payload checksum; `full`: the line buffer has no room for the row; `mem` is an error of the line buffer (12 R272, R273, R292, R294). -/
def execCsiPacket (csi vc dt hdr bad : Nat) (payload : List Byte) (crcOk full : Bool) (mem : Upset) (s : State) : Out :=
  .next (
    if camRuns csi vc s = false then s
    else
      let h := csiHeader csi vc hdr bad (phyUp csi s)
      let s1 := h.2
      if h.1 then s1
      else if csiBits dt = 0 ∧ dt ≠ 0x12 then s1
      else
        let inj6 := armed 8 csi 6 s1
        let s2 := if inj6 then disarm 8 csi 6 s1 else s1
        let word := fun (u : Nat) => u % 2 ^ 18
        let inj11 := armed 7 0 11 s2 && dt != 0x12
        let inj5c := armed 7 0 5 s2 && dt != 0x12
        let s3 := match mem, inj11, inj5c with
          | .double a, _, _ => raise { c := 7, i := 0, bit := 11, code := 0x3702, payload := word a } s2
          | _, true, _ => raise { c := 7, i := 0, bit := 11, code := 0x3702, payload := injFlag true } (disarm 7 0 11 s2)
          | .single a _, _, _ => raise { c := 7, i := 0, bit := 5, code := 0x1700, payload := word a } s2
          | _, _, true => raise { c := 7, i := 0, bit := 5, code := 0x1700, payload := injFlag true } (disarm 7 0 5 s2)
          | _, _, _ => s2
        let broken := match mem with | .double _ => true | _ => inj11
        let feeds := match vcStream csi vc s3 with | some n => (streamCfg n s3).fnFeed | none => false
        let s4 := packetIn csi vc dt payload (broken || (full && feeds)) s3
        if crcOk = false ∨ inj6 = true then frameCorrupt csi vc 2 inj6 s4 else s4)

/-- The largest frame number before the wrap (12 R274). -/
def fnMax (csi : Nat) (s : State) : Nat := let n := rdField 8 csi 0x4C 31 16 s; if n = 0 then 65535 else n

/-- CAM_STREAM_FROZEN (12 R295). -/
def evFrozen (csi vc id run : Nat) (stalled inj : Bool) : Ev :=
  { c := 8, i := csi, bit := 7, code := 0x4800, ctx := vc, payload := id + run * 2 ^ 32 + b2n stalled * 2 ^ 40 + injFlag inj }

/-- A frame ended: hashes, run, frozen flag, record (12 R275 to R277). -/
def frameDone (csi vc : Nat) (s : State) : State :=
  let v := camVc csi vc s
  match v.cur with
  | none => s
  | some f =>
    let inj := armed 8 csi 7 s && v.crcs.isSome
    let s0 := if inj then disarm 8 csi 7 s else s
    let own := (f.fcrc ^^^ 0xFFFFFFFF, f.scrc ^^^ 0xFFFFFFFF)
    let crcs := if inj then v.crcs.getD own else own
    let rep := match v.crcs with | some p => p.1 == crcs.1 || p.2 == crcs.2 | none => false
    let run := if rep then v.run + 1 else 1
    let stalled := f.stalled
    let hit := decide (rdField 8 csi 0x4C 11 8 s0 ≤ run) || stalled
    let frozen := if hit then true else if v.frozen && !rep && f.advances then false else v.frozen
    let s1 := setVc csi vc { v with cur := none, crcs := some crcs, run := run, frozen := frozen } s0
    let s2 := if frozen && !v.frozen then raise (evFrozen csi vc f.id (min run 255) stalled inj) s1
      else if v.frozen && !frozen then raise { c := 8, i := csi, bit := 8, code := 0x0800, ctx := vc, payload := f.id } s1 else s1
    let now := devNow s2
    let rcd := leBytes 4 f.id ++ leBytes 1 (csi + vc * 16)
      ++ leBytes 1 (b2n stalled + 2 * b2n rep + 4 * b2n frozen + 8 * b2n (f.cause != 0) + 16 * b2n f.skip + 32 * f.cause)
      ++ leBytes 1 (min run 255) ++ leBytes 1 0 ++ leBytes 2 f.number ++ leBytes 2 f.lines ++ leBytes 4 crcs.1 ++ leBytes 4 crcs.2
      ++ leBytes 8 f.fsTime ++ leBytes 4 (min (now - f.fsTime) 0xFFFFFFFF)
    if natBit (rdReg 8 csi 0x48 s2).toNat 31 then pushEngine (rdField 8 csi 0x48 19 0 s2) 0x41 0xFFFF false false rcd s2 else s2

/-- A camera sample's frame has ended: its rows are whole; one that was missing is forgotten (12 R290). -/
def frameSample (n id : Nat) (s : State) : State :=
  match findSample n id s with
  | some x => if x.gone then dropSample n id s else updSample n id (fun y => { y with ready := true }) s
  | none => s

/-- FRAME_START: the frame number is checked and a sample starts in a slot (12 R273, R274, R282, R285;
DESIGN CHOICE, log entry 50). -/
def execFrameStart (csi : Nat) (p : CsiShort) (number : Nat) (s : State) : Out :=
  .next (
    let vc := p.vc
    if camRuns csi vc s = false then s
    else if (csiHeader csi vc p.hdr p.bad (phyUp csi s)).1 then (csiHeader csi vc p.hdr p.bad (phyUp csi s)).2
    else
      let s0 := (csiHeader csi vc p.hdr p.bad (phyUp csi s)).2
      let s1 := if (camVc csi vc s0).cur.isSome then
          (let id := match (camVc csi vc s0).cur with | some f => f.id | none => 0
           let a := frameDone csi vc (frameCorrupt csi vc 4 false s0)
           match vcStream csi vc s0 with | some n => dropSample n id a | none => a) else s0
      let v := camVc csi vc s1
      let prev := v.number
      let adv := number != 0 && (v.crcs.isNone || number != prev)
      let next := if prev = fnMax csi s1 then 1 else prev + 1
      let skip := adv && v.crcs.isSome && number != next
      let stalled := !adv && natBit (rdReg 8 csi 0x4C s1).toNat 0
      let s2 := addCtr 8 csi 0x5C 1 (if skip then raise { c := 8, i := csi, bit := 9, code := 0x0801, ctx := vc, payload := prev + number * 2 ^ 16 } s1 else s1)
      let fr := fun (id : Nat) (t : State) => setVc csi vc { camVc csi vc t with
        number := number
        cur := some { id := id, fsTime := devNow t, number := number, lines := 0, fcrc := 0xFFFFFFFF, scrc := 0xFFFFFFFF, cause := 0
                      stalled := stalled, advances := adv, skip := skip } } t
      match vcStream csi vc s2 with
      | none => let r := fresh s2; fr (r.1 % 2 ^ 32) r.2
      | some n =>
        let k := stream n s2
        let id := n * 2 ^ 27 + k.seq
        let s3 := fr id (setStream n { k with seq := (k.seq + 1) % 2 ^ 27 } s2)
        if carRuns s3 = false ∨ grpTakes n s3 = false then s3
        else match startSample n id [] false s3 with
          | some s4 => s4
          | none => raise { c := 7, i := 0, bit := 8, code := 0x2702, ctx := n, payload := id } (bump 7 0 0xB8 1 s3))

/-- FRAME_END: the line count is checked, hashes and flags are final, the record goes out (12 R273 to R277). -/
def execFrameEnd (csi : Nat) (p : CsiShort) (s : State) : Out :=
  .next (
    let vc := p.vc
    if camRuns csi vc s = false then s
    else
      let h := csiHeader csi vc p.hdr p.bad (phyUp csi s)
      if h.1 then h.2
      else match (camVc csi vc h.2).cur with
        | none => h.2
        | some f =>
          let s1 := match vcCfg csi vc h.2 with | some c => if f.lines ≠ c.height then frameCorrupt csi vc 3 false h.2 else h.2 | none => h.2
          match vcStream csi vc s1 with
          | none => frameDone csi vc s1
          | some n => frameDone csi vc (frameSample n f.id s1))

/-- CAM_LINK_LOST: no D-PHY clock for 1 ms while a virtual channel is enabled (12 R295). -/
def execCamLinkLost (csi lanes : Nat) (s : State) : Out :=
  .next (
    if 12 ≤ csi ∨ rdField 8 csi 0x44 15 0 s = 0 ∨ blockEnabled 8 csi s = false ∨ domainOn 110 s = false ∨ s.car.phy.contains csi = false then s
    else raise { c := 8, i := csi, bit := 10, code := 0x5800, payload := lanes % 16 } { s with car := { s.car with phy := s.car.phy.filter (fun x => x != csi) } })

/-- DPHY_CLOCK_RETURN: the clock lane is active again (12 R295). -/
def execDphyClockReturn (csi : Nat) (s : State) : Out := .next (if csi < 12 then phyUp csi s else s)

/-- CAM_PHY written: other lane counts are refused on the Carousel page (12 CAM_PHY). -/
def wrCamPhy (csi : Nat) (v : Word) (s : State) : State :=
  let n := v.field 2 0
  if n = 1 ∨ n = 2 ∨ n = 4 then wrReg 8 csi 0x40 (v &&& 0xFFFF0007) s else carRefused 0 v.toNat 0 s

/-- CAM_CHECK written: freeze_n outside 2 to 15 is ignored (12 CAM_CHECK). -/
def wrCamCheck (csi : Nat) (v : Word) (s : State) : State :=
  let old := rdReg 8 csi 0x4C s
  let n := if 2 ≤ v.field 11 8 then v.field 11 8 else old.field 11 8
  wrReg 8 csi 0x4C ((v &&& 0xFFFF0001).put 11 8 n) s

/-- CAM_VC_STATUS as read (12). -/
def camVcStatus (csi : Nat) (s : State) : Word :=
  BitVec.ofNat 32 ((List.range 16).foldl (fun n v => n + b2n (camVc csi v s).frozen * 2 ^ v + b2n (camVc csi v s).cur.isSome * 2 ^ (16 + v)) 0)

end Sys2Proof.Machine
end

