-- ==== Sys2Proof/Machine/CanOps.lean ====
section
/-! DEFINITION. The CAN controllers' shared operations: buffers and requests, aborts, fault confinement, received frames (14). -/

namespace Sys2Proof.Machine

/-- A controller. -/
def canCtl (c : Nat) (s : State) : CanCtl := Tbl.get {} s.cans c

/-- A controller replaced. -/
def setCan (c : Nat) (v : CanCtl) (s : State) : State := { s with cans := Tbl.set {} s.cans c v }

/-- A transmit buffer. -/
def CanCtl.tb (v : CanCtl) (b : Nat) : CanTb := Tbl.get {} v.tbs b

/-- A transmit buffer replaced. -/
def setTb (c b : Nat) (t : CanTb) (s : State) : State := let v := canCtl c s; setCan c { v with tbs := Tbl.set {} v.tbs b t } s

/-- A descriptor's fields (14 R324). -/
def cdId (d : List Byte) : Nat := natField (leField d 0 4) 28 0
def cdIde (d : List Byte) : Bool := natBit (leField d 0 4) 29
def cdRtr (d : List Byte) : Bool := natBit (leField d 0 4) 30
def cdFmt (d : List Byte) : Nat := byteAt d 4 % 4
def cdReport (d : List Byte) : Bool := natBit (byteAt d 4) 3
def cdLimit (d : List Byte) : Nat := byteAt d 5 % 16
def cdLen (d : List Byte) : Nat := leField d 6 2
def cdExt (d : List Byte) : Nat := leField d 16 6

/-- CAN_CONFIG_REFUSED (14 R337): the value written and the register's offset ÷ 4; context, the entry selected. -/
def canRefuse (c off value : Nat) (s : State) : State :=
  raise { c := 11, i := c, bit := 14, code := 0x7B01, ctx := rdField 11 c 0x54 5 0 s, payload := value % 2 ^ 32 + off / 4 * 2 ^ 32 } s

/-- CAN_TX_ABORTED, and the buffer idle (14 R326, R327). -/
def canAbort (c b cause : Nat) (inj : Bool) (s : State) : State :=
  let t := (canCtl c s).tb b
  raise { c := 11, i := c, bit := 8, code := 0x5B02, ctx := b, payload := cause + cdId t.cur * 4 + t.attempts % 16 * 2 ^ 31 + injFlag inj }
    (setTb c b { t with st := 0, held := none, abort := false } s)

/-- A request with its contents, a descriptor and a payload (14 R325). -/
def canRequest (c b : Nat) (contents : List Byte) (s : State) : State :=
  let t := (canCtl c s).tb b
  if t.st = 2 then setTb c b { t with held := some contents, abort := false } s
  else setTb c b { t with st := 1, attempts := 0, cur := contents, held := none, abort := false } s

/-- A byte of CAN_TR_MAP: the Tightrope buffer mapped to TB(12 + k) (14 R328). -/
def trMapped (w k : Nat) : Option Nat := let b := natField w (8 * k + 7) (8 * k); if natBit b 7 then some (b % 16) else none

/-- The controller and transmit buffer that a Tightrope buffer is mapped to (14 R328). -/
def tbOf (buf : Nat) (s : State) : Option (Nat × Nat) :=
  (List.range 32).findSome? (fun n => if trMapped (rdReg 11 (n / 4) 0x80 s).toNat (n % 4) = some buf then some (n / 4, 12 + n % 4) else none)

/-- A buffer that a Tightrope slot in HOLD with hold_mode 2 sends is not sent: a request made before waits (13 R308; DESIGN CHOICE, log entry 42). -/
def tbHeld (c b : Nat) (s : State) : Bool :=
  match (if b < 12 then none else trMapped (rdReg 11 c 0x80 s).toNat (b - 12)) with
  | none => false
  | some k => (List.range 64).any (fun n => let v := trSlot n s; decide (v.st = 2 ∧ v.mode = 2) && (bufsOf (slotLaws v s)).contains k)

/-- A payload word written by OUT; a buffer that is mapped nowhere has no payload (13 R314; 14 R328). -/
def trBufWrite (buf word : Nat) (w : Word) (s : State) : State :=
  match tbOf buf s with
  | none => s
  | some (c, b) => let t := (canCtl c s).tb b; setTb c b { t with pay := t.pay.take (4 * word) ++ leBytes 4 w.toNat ++ t.pay.drop (4 * word + 4) } s

/-- SEND's request for a buffer, with its words as they stand (13 R314). -/
def trBufSend (buf : Nat) (s : State) : State :=
  match tbOf buf s with
  | none => s
  | some (c, b) => let t := (canCtl c s).tb b; canRequest c b (t.desc ++ t.pay) s

/-- Entry to bus-off: the buffers with a limit are aborted, and recovery starts by itself with auto_recover (14 R326, R336). -/
def canBusOff (c : Nat) (inj : Bool) (s : State) : State :=
  let v := canCtl c s
  let gone := (List.range 16).filter (fun b => decide ((v.tb b).st = 1 ∧ cdLimit (v.tb b).cur ≠ 0))
  let s1 := setCan c { v with st := 2, recovering := natBit (rdReg 11 c 0x40 s).toNat 5 } s
  let s2 := raise { c := 11, i := c, bit := 6, code := 0x5B01, payload := bitsOf 16 (fun b => gone.contains b) + injFlag inj } s1
  gone.foldl (fun acc b => canAbort c b 1 false acc) s2

/-- The confinement state after the counters have moved (14 R336). -/
def canConfine (c : Nat) (s : State) : State :=
  let v := canCtl c s
  if v.st = 2 then s
  else if 255 < v.tec then canBusOff c false s
  else if v.st = 0 ∧ (128 ≤ v.tec ∨ 128 ≤ v.rxc) then
    raise { c := 11, i := c, bit := 5, code := 0x5B00, payload := v.tec + min v.rxc 255 * 256 } (setCan c { v with st := 1 } s)
  else if v.st = 1 ∧ v.tec < 128 ∧ v.rxc < 128 then raise { c := 11, i := c, bit := 7, code := 0x0B00, payload := v.tec } (setCan c { v with st := 0 } s)
  else s

/-- A bus error: counted, its type kept, reported at most once per millisecond (14 R336). -/
def canError (c type : Nat) (tx inj : Bool) (s : State) : State :=
  let s1 := bump 11 c 0xA4 1 (setCan c { canCtl c s with lastErr := type % 8 } s)
  raiseRated (0xB00000 + c) oneMs { c := 11, i := c, bit := 9, code := 0x5B03, payload := type % 8 + 8 * b2n tx + injFlag inj } s1

/-- A record that is not written: counted, reported at most once per millisecond (14 R331, R334). -/
def canDrop (c f : Nat) (inj : Bool) (s : State) : State :=
  let key := 0xB10000 + c
  raiseRated key oneMs { c := 11, i := c, bit := 10, code := 0x3B00, ctx := f, payload := ratedCount key s + injFlag inj } (bump 11 c 0xA0 1 s)

/-- The 24-byte header of a record (14 R331). -/
def canHeader (f : CanFrame) (echo : Bool) (filter time tb : Nat) : List Byte :=
  leBytes 4 (f.id + b2n f.ide * 2 ^ 29 + b2n f.rtr * 2 ^ 30)
    ++ leBytes 1 (f.fmt + 4 * b2n f.brs + 8 * b2n f.esi + 16 * b2n echo) ++ leBytes 1 filter ++ leBytes 2 f.len ++ leBytes 8 time
    ++ leBytes 1 f.sdt ++ leBytes 1 f.vcid ++ leBytes 1 (b2n f.sec) ++ leBytes 1 tb ++ leBytes 4 f.af

/-- The frame that a buffer's contents make (14 R324). -/
def canFrameOf (cur : List Byte) (ago : Nat) : CanFrame :=
  let x := cdFmt cur == 2
  { id := if cdIde cur && !x then cdId cur else cdId cur % 2048, ide := cdIde cur && !x, rtr := cdRtr cur, fmt := cdFmt cur, brs := natBit (byteAt cur 4) 2
    esi := false, len := cdLen cur, sdt := if x then byteAt cur 8 else 0, vcid := if x then byteAt cur 9 else 0
    sec := x && natBit (byteAt cur 10) 0, af := if x then leField cur 12 4 else 0
    data := if cdRtr cur then [] else (cur.drop 32).take (cdLen cur), ago := ago }

/-- A record to one of the receive queues; it is never staged (14 R331). -/
def canRecord (c qReg rtype f : Nat) (bytes : List Byte) (s : State) : State :=
  if armed 11 c 10 s then canDrop c f true (disarm 11 c 10 s)
  else
    let w := rdReg 11 c qReg s
    let q := w.field 19 0
    let d := qDesc q s
    if natBit w.toNat 31 = false then canDrop c f false s
    else if queueTakes q bytes.length false s then reserve q rtype 0xFFFF (deviceId s) bytes s
    else
      let full := d.enabled && decide (bytes.length ≤ d.recordSize) && memUp s
      let s1 := if full then queueFull q 0xFFFF s else s
      canDrop c f false (if full && d.drop then queueDrop q 0xFFFF s1 else s1)

/-- A record begun for a frame that failed or overran the FIFO: its packet, reserved when the frame began, becomes a pad, and it is counted (14 R331; 11
R257). A packet that the queue would not have taken was never begun. -/
def canGone (c qReg len : Nat) (s : State) : State :=
  let w := rdReg 11 c qReg s
  let q := w.field 19 0
  if natBit w.toNat 31 = false ∨ queueTakes q len false s = false then s
  else
    let s1 := reserve q 0x50 0xFFFF (deviceId s) (List.replicate len 0) s
    let s2 := match s1.qe.pkts.getLast? with | some p => padPacket p 0 false s1 | none => s1
    bump 11 c 0xA0 1 s2

/-- The identifier that filters and allow entries match: ide in [29]; XL frames on their priority ID (14 R329, R330). -/
def canKey (f : CanFrame) : Nat := if f.fmt = 2 then f.id % 2048 else if f.ide then f.id % 2 ^ 29 + 2 ^ 29 else f.id % 2048

/-- Whether a filter entry matches a frame (14 R330). -/
def filterHits (e : List Byte) (f : CanFrame) : Bool :=
  decide (byteAt e 9 ≠ 0) && natBit (byteAt e 8) f.fmt && (canKey f ^^^ leField e 0 4) &&& leField e 4 4 == 0

/-- The stop of R334: latched, reported, permission gone. -/
def canStop (c f : Nat) (fr : CanFrame) (inj : Bool) (s : State) : State :=
  let s1 := wrReg 11 c 0x94 (rdReg 11 c 0x94 s ||| 0x20000) s
  trip 3 0 (raise { c := 11, i := c, bit := 12, code := 0x4B00, ctx := f, payload := fr.id % 2 ^ 29 + leField fr.data 0 4 * 2 ^ 32 + injFlag inj } s1)

/-- Whether a frame that matches a stop filter is a stop frame for this device (14 R334). -/
def stopFrame (c : Nat) (f : CanFrame) (s : State) : Bool :=
  let w := rdReg 11 c 0x94 s
  natBit w.toNat 16 && decide (4 ≤ f.data.length ∧ leField f.data 0 2 = w.field 15 0)
    && ((byteAt f.data 3 == 1 && byteAt f.data 2 == deviceId s) || byteAt f.data 3 == 2)

/-- A frame goes where the first filter that it matches sends it, or to the default destination; `ovr`: its payload overran the FIFO (14 R330 to
R334). -/
def canReceive (c : Nat) (f : CanFrame) (echo ovr : Bool) (s : State) : State :=
  let v := canCtl c s
  let hit := (List.range 64).find? (fun n => filterHits (Tbl.get [] v.filters n) f)
  let e := match hit with | some n => Tbl.get [] v.filters n | none => []
  let idx := hit.getD 0xFF
  let ctx := hit.getD 0
  let s1 := bump 11 c 0x9C 1 s
  let rcd := canHeader f echo idx (devNow s1 - f.ago) 0 ++ f.data
  match (match hit with | some _ => byteAt e 9 | none => rdField 11 c 0x90 2 0 s1) with
  | 1 => if ovr then canGone c 0x84 rcd.length s1 else canRecord c 0x84 0x50 ctx rcd s1
  | 2 => if ovr then canGone c 0x88 rcd.length s1 else canRecord c 0x88 0x50 ctx rcd s1
  | 3 =>
    let g := byteAt e 11 % 64
    let sh := (List.range (byteAt e 12 % 8)).foldl (fun (t : Tbl Word) k => Tbl.set 0 t (g + k) (BitVec.ofNat 32 (leField f.data (4 * k) 4))) s1.tr.shared
    fireSlots 4 (byteAt e 10 % 16) { s1 with tr := { s1.tr with shared := sh } }
  | 4 => if stopFrame c f s1 then canStop c ctx f false s1 else canDrop c ctx false s1
  | _ => s1

end Sys2Proof.Machine
end

