-- ==== Sys2Proof/Machine/Can.lean ====
section
/-! DEFINITION. The CAN controllers' commands: buffers, filters, job requests, frames sent and received, errors, the stop (14 R322 to
R337). -/

namespace Sys2Proof.Machine

/-- Whether a descriptor keeps the table of R324 in a buffer. -/
def tbTableOk (b : Nat) (d : List Byte) : Bool :=
  let f := cdFmt d
  let n := cdLen d
  let lenOk := match f with
    | 0 => decide (n ≤ 8)
    | 1 => [0, 1, 2, 3, 4, 5, 6, 7, 8, 12, 16, 20, 24, 32, 48, 64].contains n
    | 2 => decide (1 ≤ n ∧ n ≤ 2048)
    | _ => false
  lenOk && decide (leField d 0 4 < 2 ^ 31 ∧ byteAt d 4 < 16 ∧ byteAt d 5 < 16 ∧ byteAt d 10 < 2 ∧ byteAt d 11 = 0) && (d.drop 22).all (fun x => x == 0)
    && (cdLimit d == 0 || decide (12 ≤ b)) && (!cdRtr d || f == 0) && (decide (64 < n) || cdExt d == 0)

/-- Whether a filter entry keeps the table of R330. -/
def filterTableOk (e : List Byte) : Bool :=
  decide (leField e 0 4 < 2 ^ 30 ∧ leField e 4 4 < 2 ^ 30 ∧ byteAt e 8 < 8 ∧ byteAt e 9 ≤ 5 ∧ byteAt e 10 < 16 ∧ byteAt e 11 < 64 ∧ byteAt e 12 ≤ 4
    ∧ byteAt e 11 + byteAt e 12 ≤ 64 ∧ leField e 13 3 = 0)

/-- Whether an allow entry keeps the table of R329. -/
def allowTableOk (e : List Byte) : Bool :=
  decide (leField e 4 4 < 2 ^ 30 ∧ leField e 8 4 < 2 ^ 30 ∧ leField e 12 2 < 2 ^ 12 ∧ byteAt e 14 < 2 ∧ byteAt e 15 = 0)

/-- The selected entry configured from the staged words (14 R324, R329, R330). -/
def canConfigure (c : Nat) (s : State) : State :=
  let k := rdField 11 c 0x54 5 0 s
  let b := (List.range 8).flatMap (fun j => leBytes 4 (rdReg 11 c (0x58 + 4 * j) s).toNat)
  let v := canCtl c s
  match rdField 11 c 0x54 7 6 s with
  | 0 =>
    let t := v.tb k
    if 16 ≤ k ∨ t.st ≠ 0 ∨ tbTableOk k b = false then canRefuse c 0x78 1 s else setTb c k { t with desc := b } s
  | 1 => if filterTableOk (b.take 16) then setCan c { v with filters := Tbl.set [] v.filters k (b.take 16) } s else canRefuse c 0x78 1 s
  | 2 => if decide (k < 8) && allowTableOk (b.take 16) then setCan c { v with allow := Tbl.set [] v.allow k (b.take 16) } s else canRefuse c 0x78 1 s
  | _ => canRefuse c 0x78 1 s

/-- CAN_CMD written (14). -/
def wrCanCmd (c : Nat) (v : Word) (s : State) : State :=
  let k := rdField 11 c 0x54 5 0 s
  let isTb := rdField 11 c 0x54 7 6 s == 0 && decide (k < 16)
  let t := (canCtl c s).tb k
  match v.field 2 0 with
  | 1 => canConfigure c s
  | 2 => if isTb then canRequest c k (t.desc ++ t.pay) s else s
  | 3 =>
    if isTb = false then s
    else if t.st = 1 then canAbort c k 2 false s
    else if t.st = 2 then setTb c k { t with abort := true } s
    else s
  | 4 => let w := canCtl c s; if w.st = 2 then setCan c { w with recovering := true } s else s
  | _ => s

/-- CAN_ENTRY_CONFIGURE (14 R324). -/
def execCanEntryConfigure (r : Req) (c : Nat) (s : State) : Out := .next (onReg r 11 c 0x78 (wrCanCmd c 1) s)

/-- TB_REQUEST (14 R325). -/
def execTbRequest (r : Req) (c : Nat) (s : State) : Out := .next (onReg r 11 c 0x78 (wrCanCmd c 2) s)

/-- TB_ABORT (14 R326). -/
def execTbAbort (r : Req) (c : Nat) (s : State) : Out := .next (onReg r 11 c 0x78 (wrCanCmd c 3) s)

/-- BUS_OFF_RECOVER (14 R336). -/
def execBusOffRecover (r : Req) (c : Nat) (s : State) : Out := .next (onReg r 11 c 0x78 (wrCanCmd c 4) s)

/-- CAN_TR_MAP written: no Tightrope buffer twice, none that a started slot writes changed (14 R328). -/
def wrTrMap (c : Nat) (v : Word) (s : State) : State :=
  let old := (rdReg 11 c 0x80 s).toNat
  let new := (v &&& 0x8F8F8F8F).toNat
  let mine := (List.range 4).filterMap (trMapped new)
  let others := (List.range 32).filterMap (fun n => if n / 4 = c then none else trMapped (rdReg 11 (n / 4) 0x80 s).toNat (n % 4))
  let moved := (List.range 4).flatMap (fun k => if trMapped old k = trMapped new k then [] else (trMapped old k).toList ++ (trMapped new k).toList)
  if decide mine.Nodup = false ∨ mine.any (fun b => others.contains b) = true ∨ startedUses (fun _ l => (bufsOf l).any (fun b => moved.contains b)) s = true then
    canRefuse c 0x80 v.toNat s
  else wrReg 11 c 0x80 (BitVec.ofNat 32 new) s

/-- TR_MAP_WRITE (14 R328). -/
def execTrMapWrite (r : Req) (c v : Nat) (s : State) : Out := .next (onReg r 11 c 0x80 (wrTrMap c (BitVec.ofNat 32 v)) s)

/-- CAN_MODE written: modes above 4 are refused (14 CAN_MODE). -/
def wrCanMode (c : Nat) (v : Word) (s : State) : State := if 4 < v.field 2 0 then canRefuse c 0x40 v.toNat s else plainWrite 11 c 0x40 v s

/-- A bit timing register written: only in mode 0; a data phase has at least 4 quanta to the bit (14 R323). -/
def wrCanTiming (c off : Nat) (v : Word) (s : State) : State :=
  if rdField 11 c 0x40 2 0 s ≠ 0 ∨ (off ≠ 0x44 ∧ v.field 9 5 + v.field 13 10 + 3 < 4) then canRefuse c off v.toNat s else plainWrite 11 c off v s

/-- CAN_RX_CTRL written: default_dest is 1, 2 or 5 (14 CAN_RX_CTRL). -/
def wrCanRxCtrl (c : Nat) (v : Word) (s : State) : State :=
  let d := v.field 2 0
  if d = 1 ∨ d = 2 ∨ d = 5 then plainWrite 11 c 0x90 v s else canRefuse c 0x90 v.toNat s

/-- CAN_STOP written: pattern and enable; clear clears the latched bit (14 R335). -/
def wrCanStop (c : Nat) (v : Word) (s : State) : State :=
  let old := rdReg 11 c 0x94 s
  let l := if natBit v.toNat 18 then 0 else old.field 17 17
  wrReg 11 c 0x94 ((v &&& 0x1FFFF).put 17 17 l) s

/-- CAN_STOP_CLEAR (14 R335). -/
def execCanStopClear (r : Req) (c : Nat) (s : State) : Out :=
  .next (onReg r 11 c 0x94 (fun t => wrCanStop c ((rdReg 11 c 0x94 t).put 18 18 1) t) s)

/-- A payload word of the selected buffer written, unless Tightrope writes it (14 R328). -/
def wrTbPayload (c word : Nat) (v : Word) (s : State) : State :=
  let k := rdField 11 c 0x54 5 0 s
  if 16 ≤ k then s
  else if 12 ≤ k ∧ (trMapped (rdReg 11 c 0x80 s).toNat (k - 12)).isSome = true then canRefuse c (0x100 + 4 * word) v.toNat s
  else let t := (canCtl c s).tb k; setTb c k { t with pay := t.pay.take (4 * word) ++ leBytes 4 v.toNat ++ t.pay.drop (4 * word + 4) } s

/-- Whether an allow entry lets a job send an identifier from a buffer (14 R329). -/
def allowHits (e : List Byte) (job b id : Nat) : Bool :=
  natBit (byteAt e 14) 0 && (job ^^^ leField e 0 2) &&& leField e 2 2 == 0 && (id ^^^ leField e 4 4) &&& leField e 8 4 == 0 && natBit (leField e 12 2) b

/-- Whether Scribe accepts a job's request record (14 R329; 18 R439). -/
def jobTxOk (c job : Nat) (rcd : List Byte) (s : State) : Bool :=
  let d := (rcd.drop 16).take 32
  let b := byteAt rcd 0
  decide (b ≤ 11 ∧ rcd.length = 112 ∧ leField rcd 1 15 = 0 ∧ cdLen d ≤ 64 ∧ cdExt d = 0 ∧ cdLimit d = 0) && tbTableOk b d
    && (List.range 8).any (fun k => allowHits (Tbl.get [] (canCtl c s).allow k) job b (leField d 0 4 % 2 ^ 30))
    && !natBit (rdReg 14 0 0x124 s).toNat 1

/-- JOB_TX_REQUEST: Scribe takes the next request of a controller's job queue (14 R329). -/
def execJobTxRequest (c : Nat) (s : State) : Out :=
  .next (
    let w := rdReg 11 c 0x8C s
    let q := w.field 19 0
    if 8 ≤ c ∨ natBit w.toNat 31 = false ∨ (qDesc q s).consumer ≠ 4 ∨ (qDesc q s).recordSize ≠ 112 then s
    else
      let job := (qSource q s).1
      match engineTake q s with
      | none => noTake q s
      | some (rcd, s1) =>
        let b := byteAt rcd 0
        let d := (rcd.drop 16).take 32
        if jobTxOk c job rcd s1 then canRequest c b (rcd.drop 16) s1
        else raise { c := 11, i := c, bit := 13, code := 0x7B00, ctx := b, payload := job + b % 16 * 2 ^ 16 + cdId d * 2 ^ 20 } s1)

/-- The place of contents in arbitration: a lower number wins (14 R325; ISO 11898-1: identifier, remote, extended, from the first bit on). -/
def arbKey (cur : List Byte) : Nat :=
  let id := cdId cur
  if cdIde cur && cdFmt cur != 2 then id / 2 ^ 18 * 2 ^ 21 + 3 * 2 ^ 19 + id % 2 ^ 18 * 2 + b2n (cdRtr cur) else id % 2 ^ 11 * 2 ^ 21 + b2n (cdRtr cur) * 2 ^ 20

/-- Whether a controller sends a format (14 CAN_MODE). -/
def fmtOn (c f : Nat) (s : State) : Bool := f == 0 || (f == 1 && natBit (rdReg 11 c 0x40 s).toNat 3) || (f == 2 && natBit (rdReg 11 c 0x40 s).toNat 4)

/-- The pending buffer that goes next: lowest identifier, then lowest number (14 R325). -/
def arbWinner (c : Nat) (s : State) : Option Nat :=
  let v := canCtl c s
  (List.range 16).foldl (fun (best : Option Nat) b =>
    let t := v.tb b
    if t.st ≠ 1 ∨ fmtOn c (cdFmt t.cur) s = false ∨ tbHeld c b s = true then best
    else match best with
      | none => some b
      | some k => if arbKey t.cur < arbKey (v.tb k).cur then some b else best) none

/-- The buffer on the bus. -/
def onBus (c : Nat) (s : State) : Option Nat := (List.range 16).find? (fun b => ((canCtl c s).tb b).st == 2)

/-- CAN_ARBITRATION: the buffer with the lowest identifier goes on the bus; a long payload is read first (14 R325, R327). -/
def execCanArbitration (c : Nat) (s : State) : Out :=
  .next (
    let m := rdField 11 c 0x40 2 0 s
    let v := canCtl c s
    if 8 ≤ c ∨ (m ≠ 1 ∧ m ≠ 4) ∨ v.st = 2 ∨ (onBus c s).isSome = true ∨ blockEnabled 11 c s = false then s
    else match arbWinner c s with
      | none => s
      | some b =>
        let t := v.tb b
        if armed 11 c 8 s = true ∧ cdLimit t.cur ≠ 0 then canAbort c b 0 true (disarm 11 c 8 s)
        else if cdLen t.cur ≤ 64 then setTb c b { t with st := 2, sof := devNow s } s
        else
          let a := access 11 c b .scribe .read (cdExt t.cur) (cdLen t.cur) [] s
          if a.1.status ≠ 0 then canAbort c b 3 false a.2
          else setTb c b { t with st := 2, sof := devNow s, cur := t.cur.take 32 ++ rdBytes a.2 (cdExt t.cur) (cdLen t.cur) } a.2)

/-- ARBITRATION_LOST: the buffer is pending again, and no attempt is counted (14 R325). Contents held meanwhile replace the old. -/
def execArbitrationLost (c : Nat) (s : State) : Out :=
  .next (
    match onBus c s with
    | none => s
    | some b =>
      let t := (canCtl c s).tb b
      if t.abort then canAbort c b 2 false s
      else match t.held with
        | some h => setTb c b { t with st := 1, cur := h, held := none, attempts := 0 } s
        | none => setTb c b { t with st := 1 } s)

/-- The failure of the frame on the bus (14 R326, R327, R336): `type` of the error, `dry` where the prefetch ran dry. -/
def canTxFail (c b type : Nat) (dry inj : Bool) (s : State) : State :=
  let v := canCtl c s
  let t := v.tb b
  let s1 := setCan c { v with tec := if v.st = 1 ∧ type = 3 then v.tec else v.tec + 8 } s
  let s2 := canError c type true (inj && !dry) s1
  let s3 := if dry then raise { c := 11, i := c, bit := 11, code := 0x3B01, ctx := b, payload := cdExt t.cur + injFlag inj } s2 else s2
  let n := t.attempts + 1
  let s4 :=
    if t.abort then canAbort c b 2 false (setTb c b { t with attempts := n } s3)
    else match t.held with
      | some h => setTb c b { t with st := 1, cur := h, held := none, attempts := 0 } s3
      | none =>
        let s5 := setTb c b { t with st := 1, attempts := n } s3
        if cdLimit t.cur ≠ 0 ∧ cdLimit t.cur ≤ n then canAbort c b 0 false s5 else s5
  canConfine c s4

/-- CAN_ERROR_FRAME (14 R326, R336). -/
def execCanErrorFrame (c type : Nat) (dry : Bool) (s : State) : Out :=
  .next (
    match onBus c s with
    | none => s
    | some b => canTxFail c b type (dry && decide (64 < cdLen ((canCtl c s).tb b).cur)) false s)

/-- CAN_FRAME_TRANSMITTED: the frame ends in success (14 R325, R330, R331, R336). -/
def execCanFrameTransmitted (c : Nat) (s : State) : Out :=
  .next (
    match onBus c s with
    | none => s
    | some b =>
      let v := canCtl c s
      let t := v.tb b
      let long := decide (64 < cdLen t.cur)
      if armed 11 c 11 s && long then canTxFail c b 0 true true (disarm 11 c 11 s)
      else if armed 11 c 9 s then canTxFail c b 0 false true (disarm 11 c 9 s)
      else
        let f := { canFrameOf t.cur (devNow s - t.sof) with esi := v.st == 1 }
        let t1 := match t.held with
          | some h => { t with st := 1, cur := h, held := none, attempts := 0, abort := false }
          | none => { t with st := 0, abort := false }
        let s1 := bump 11 c 0x98 1 (setTb c b t1 (setCan c { v with tec := v.tec - 1, sent := t.cur :: v.sent } s))
        let s2 := canConfine c s1
        let s3 := if cdReport t.cur then canRecord c 0x84 0x51 b (canHeader f false 0xFF t.sof b ++ f.data) s2 else s2
        if natBit (rdReg 11 c 0x90 s3).toNat 3 then canReceive c f true false s3 else s3)

/-- REC after a frame received in success (14 R336, ISO 11898-1): one less, or from above 127 a value from 119 to 127 that is the
implementation's (DESIGN CHOICE, log entry 3). -/
def recGood (c : Nat) (s : State) : State :=
  let v := canCtl c s
  if 127 < v.rxc then let r := fresh s; setCan c { v with rxc := 119 + r.1 % 9 } r.2 else setCan c { v with rxc := v.rxc - 1 } s

/-- CAN_FRAME_RECEIVED (14 R330 to R334). -/
def execCanFrameReceived (c : Nat) (r : CanRx) (s : State) : Out :=
  .next (
    let m := rdField 11 c 0x40 2 0 s
    if 8 ≤ c ∨ m = 0 ∨ 3 < m ∨ (canCtl c s).st = 2 ∨ fmtOn c r.frame.fmt s = false ∨ blockEnabled 11 c s = false then s
    else canReceive c r.frame false r.ovr (canConfine c (recGood c s)))

/-- CAN_RX_ERROR: an error while receiving (14 R331, R336). -/
def execCanRxError (c type : Nat) (e : CanRxErr) (s : State) : Out :=
  .next (
    let m := rdField 11 c 0x40 2 0 s
    let v := canCtl c s
    if 8 ≤ c ∨ m = 0 ∨ 3 < m ∨ v.st = 2 ∨ blockEnabled 11 c s = false then s
    else
      let s1 := setCan c { v with rxc := min 255 (v.rxc + (if e.eight then 8 else 1)) } s
      let s2 := canConfine c (canError c type false false s1)
      match e.begun with | some (second, n) => canGone c (if second then 0x88 else 0x84) n s2 | none => s2)

/-- CAN_RECOVERY_DONE: 128 × 11 recessive bits have been counted (14 R336). -/
def execCanRecoveryDone (c : Nat) (s : State) : Out :=
  .next (
    let v := canCtl c s
    if v.recovering = false then s
    else raise { c := 11, i := c, bit := 7, code := 0x0B00, payload := 0 } (setCan c { v with st := 0, recovering := false, tec := 0, rxc := 0 } s))

/-- CAN_ERR as read (14). -/
def canErrReg (c : Nat) (s : State) : Word :=
  let v := canCtl c s
  BitVec.ofNat 32 (min v.tec 255 + min v.rxc 255 * 256 + v.st * 2 ^ 16 + b2n v.recovering * 2 ^ 18 + v.lastErr * 2 ^ 20)

/-- CAN_TB_STATUS as read (14). -/
def canTbStatus (c : Nat) (s : State) : Word :=
  let v := canCtl c s
  BitVec.ofNat 32 (bitsOf 16 (fun b => decide ((v.tb b).st ≠ 0)) + bitsOf 16 (fun b => (v.tb b).held.isSome) * 2 ^ 16)

/-- The live selected entry (14 CAN_DATA). -/
def canEntry (c : Nat) (s : State) : List Byte :=
  let k := rdField 11 c 0x54 5 0 s
  let v := canCtl c s
  match rdField 11 c 0x54 7 6 s with
  | 0 => if k < 16 then (v.tb k).desc else []
  | 1 => Tbl.get [] v.filters k
  | 2 => Tbl.get [] v.allow k
  | _ => []

end Sys2Proof.Machine
end

