-- ==== Sys2Proof/Machine/Conv.lean ====
section
/-! DEFINITION. CONV and POOL_RESIZE: convolution as a gathered matrix product, pooling and resize (08 R193 to R210). -/

namespace Sys2Proof.Machine

/-- One output of a CONV: image, group, output channel within the group, output row and column, Nib, and how many taps its pass
block computes. -/
structure ConvOut where
  n : Nat
  grp : Nat
  o : Nat
  oy : Nat
  ox : Nat
  nib : Nat
  kept : Nat
  deriving DecidableEq, Repr

/-- The taps that a pass block over some output pixels computes (08 R201). -/
def ConvGeo.kept (g : ConvGeo) (float : Bool) (pix : List (Nat × Nat)) : Nat :=
  let skips := g.mode == 1 || (g.mode == 2 && !float)
  ((List.range g.tapCount).filter (fun t => !(skips && pix.all (fun p => g.isPad (g.pos (g.tapFirst + t) p.1 p.2))))).length

/-- The pass blocks of the standard mapping, groups then images outermost, each in the walk of R113 (08 R198, R203). -/
def ConvGeo.standard (g : ConvGeo) (arr : Nat) (float : Bool) : List (List ConvOut) :=
  let m := g.Ho * g.Wo
  let bm := 16 * (arrDims arr).1
  let pix := fun i => (i / max g.Wo 1, i % max g.Wo 1)
  let kept := (List.range ((m + bm - 1) / bm)).map (fun b => g.kept float ((List.range (min bm (m - b * bm))).map (fun x => pix (b * bm + x))))
  let walk := passBlocks m g.Og arr
  (List.range g.groups).flatMap (fun grp => (List.range g.imgs).flatMap (fun n => walk.map (fun l => l.map (fun w =>
    { n := n, grp := grp, o := w.2.1, oy := (pix w.1).1, ox := (pix w.1).2, nib := w.2.2, kept := kept.getD (w.1 / bm) 0 }))))

/-- The pass blocks of the diagonal mapping: blocks of 16 × 16 pixels by 16 channels; Nib (i, j) takes rows 4i and columns 4j on (08 R204). -/
def ConvGeo.diagonal (g : ConvGeo) (float : Bool) : List (List ConvOut) :=
  let cut := fun n b => (List.range (min 16 (n - 16 * b))).map (fun x => 16 * b + x)
  let O := g.Og * g.groups
  (List.range g.imgs).flatMap (fun n => (List.range ((g.Ho + 15) / 16)).flatMap (fun by_ => (List.range ((g.Wo + 15) / 16)).flatMap (fun bx =>
    let pix := (cut g.Ho by_).flatMap (fun y => (cut g.Wo bx).map (fun x => (y, x)))
    let kept := g.kept float pix
    (List.range ((O + 15) / 16)).map (fun bo => pix.flatMap (fun p => (cut O bo).map (fun o =>
      { n := n, grp := o / max g.Og 1, o := o % max g.Og 1, oy := p.1, ox := p.2, nib := p.1 % 16 / 4 * 4 + p.2 % 16 / 4, kept := kept }))))))

/-- The pass blocks of a CONV in the order of its walk. -/
def ConvGeo.blocks (g : ConvGeo) (arr : Nat) (float : Bool) : List (List ConvOut) := if g.diag then g.diagonal float else g.standard arr float

/-- The tap and the channel within the group of a reduction index (08 R197). -/
def ConvGeo.tapChan (g : ConvGeo) (k : Nat) : Nat × Nat := (g.tapFirst + k / max g.Cr 1, k % max g.Cr 1)

/-- The output channel counted across groups. -/
def ConvGeo.outChan (g : ConvGeo) (x : ConvOut) : Nat := x.grp * g.Og + x.o

/-- Where the input of a reduction index lies: image position inside the input; none at a padding position that reads none
(08 R196, R200). -/
def ConvGeo.source (g : ConvGeo) (x : ConvOut) (k : Nat) : Option (Nat × Nat) :=
  let p := g.pos (g.tapChan k).1 x.oy x.ox
  if g.isPad p = false then some (p.1.toNat, p.2.toNat) else if g.mode = 3 then some (g.clamp p) else none

/-- What a CONV takes from its input at a reduction index (08 R197, R200). -/
def ConvGeo.selA (g : ConvGeo) (x : ConvOut) (k : Nat) : Sel :=
  let c := (g.tapChan k).2
  if g.cg ≤ c then .zero
  else match g.source x k with
    | some p => .elem (g.inFlat x.n (x.grp * g.cg + c) p.1 p.2)
    | none => if g.mode = 2 then .pad g.padCode else .zero

/-- What a CONV takes from its filter at a reduction index. -/
def ConvGeo.selB (g : ConvGeo) (x : ConvOut) (k : Nat) : Sel :=
  let tc := g.tapChan k
  if g.cg ≤ tc.2 then .zero else .elem (g.wFlat tc.2 tc.1 x.o x.grp)

/-- The scale row of an input pixel (08 R197). -/
def ConvGeo.inRow (g : ConvGeo) (n : Nat) (p : Nat × Nat) : Nat := (n * g.H + p.1) * g.W + p.2

/-- The effective exponent of the input at a reduction index: pad_f at constant padding, none taken at zero padding (08 R200). -/
def ConvGeo.expA (g : ConvGeo) (sa : Scales) (x : ConvOut) (k : Nat) : Option Int :=
  let c := (g.tapChan k).2
  if g.cg ≤ c then some 0
  else match g.source x k with
    | some p => sa.exp (g.inRow x.n p) (x.grp * g.cg + c)
    | none => if g.mode = 2 then some g.padF else some 0

/-- The effective exponent of the filter at a reduction index. -/
def ConvGeo.expB (g : ConvGeo) (sb : Scales) (x : ConvOut) (k : Nat) : Option Int := sb.exp (g.outChan x) (g.tapFirst * g.Cr + k)

/-- Whether a reduction index lies at a zero padding position, which forms no product and sets no poison (08 R200). -/
def ConvGeo.voidAt (g : ConvGeo) (x : ConvOut) (k : Nat) : Bool := (g.source x k).isNone && g.mode != 2

/-- A position of a stream moved to the start of its super-block, at the first position of a run or at a super-block's start; else
one at which nothing is compared. -/
def superStart (d : ScaleDesc) (first : Bool) (p : Nat) : Nat :=
  let n := 16 * d.group
  if first || p % n == 0 then p / n * n else 1

/-- The steps at which a CONV compares scale blocks: pass block by pass block, each block's outputs together along the reduction (04 R89;
08 R206). -/
def ConvGeo.walk (g : ConvGeo) (blocks : List (List ConvOut)) (K : Nat) (sa sb : ScaleDesc) : List (List TagCheck) :=
  if sa.group = 0 ∧ sb.group = 0 then []
  else
    let ks := (List.range K).filter (fun k => k % 32 == 0 || k % max g.Cr 1 == 0 || (g.tapFirst * g.Cr + k) % 512 == 0)
    blocks.flatMap (fun l => ks.map (fun k => l.map (fun x =>
      let tc := g.tapChan k
      let pa := match g.source x k with
        | some p => if g.cg ≤ tc.2 then (0, 1) else (g.inRow x.n p, superStart sa (tc.2 == 0) (x.grp * g.cg + tc.2))
        | none => (0, 1)
      (pa, (g.outChan x, superStart sb (k == 0) (g.tapFirst * g.Cr + k)), x.nib))))

/-- The first element outside the input that mode 0 asks for: its element offset (08 R199). -/
def ConvGeo.outside (g : ConvGeo) (c : OpCtx) (a : Agp) (outs : List ConvOut) : Option Int :=
  if g.mode ≠ 0 then none
  else outs.findSome? (fun x => (List.range g.tapCount).findSome? (fun t =>
    let p := g.pos (g.tapFirst + t) x.oy x.ox
    if g.isPad p then
      let ch := x.grp * g.cg
      some (c.offset a (g.inFlat x.n ch 0 0) + p.2 * a.stride 1 + p.1 * a.stride 2)
    else none))

/-- The places that reduction selectors name. -/
def selPlaces (sel : ConvOut → Nat → Sel) (outs : List ConvOut) (K : Nat) : List Nat :=
  (outs.flatMap (fun x => (List.range K).filterMap (fun k => match sel x k with | .elem i => some i | _ => none))).eraseDups

/-- The correction table of R202 written: for every output channel and tap, the partial word of a tap that reads the padding constant. -/
def ConvGeo.table (g : ConvGeo) (t : Tod) (h : MatHead) (sb : Scales) (eb : Nat → Nat) (s : State) : State :=
  if g.mode ≠ 2 ∨ t.floatPath = true then s
  else
    let gs := min h.da.groupSize h.db.groupSize
    (List.range (g.Og * g.groups)).foldl (fun acc o => (List.range g.tapCount).foldl (fun acc ti =>
      let x : ConvOut := { n := 0, grp := o / max g.Og 1, o := o % max g.Og 1, oy := 0, ox := 0, nib := 0, kept := 0 }
      let k0 := ti * g.Cr
      let a := exactOutput t.fmtA t.fmtB h.da.x h.db.x gs g.Cr (fun _ => 0) eb false
        { flat := 0, flatIn := 0, chan := o, row := 0, col := 0, nib := 0
          a := fun k => if g.cg ≤ k ∨ h.cols.contains (k0 + k) = true then .zero else .pad g.padCode
          b := fun k => g.selB x (k0 + k)
          fa := fun k => if g.cg ≤ k then some 0 else some g.padF
          fb := fun k => sb.exp o (g.tapFirst * g.Cr + k0 + k)
          void := fun _ => false
          outl := [], outA := false, macs := 0 }
      let addr := g.corr + (o * g.tapCount + ti) * 16
      spadWriteEcc (spadOf addr) (spadOff addr) 16 (wrBytes addr (leBytes 16 a.word) acc)) acc) s

/-- A convolution's passes (08 R195 to R206). A row of operand A's outlier value table is an output pixel, (n × Ho + oy) × Wo + ox, the row of
the matrix product that the reduction indices count in (DESIGN CHOICE, log entry 53). -/
def convRun (bad : Option (Nat × Nat)) (c : OpCtx) (o : OpRun) (s : State) : State :=
  let t := o.tod
  let a := c.agp t.agpA s
  let b := c.agp t.agpB s
  let g := convGeo t.tail a b (c.agp t.agpC s)
  let blocks := g.blocks t.arr t.floatPath
  let outs := blocks.flatten
  let spec := fun (sa sb : Scales) (cols : List Nat) (outA : Bool) (ov : Nat → List Nat) =>
    outs.map (fun x =>
      let ch := g.outChan x
      let row := (x.n * g.Ho + x.oy) * g.Wo + x.ox
      ({ flat := g.outFlat x.n ch x.oy x.ox, flatIn := g.outFlat x.n ch x.oy x.ox, chan := ch, row := row, col := ch, nib := x.nib
         a := g.selA x, b := g.selB x, fa := g.expA sa x, fb := g.expB sb x, void := g.voidAt x
         outl := (cols.zip (ov (if outA then row else ch))).filter (fun e => g.selA x e.1 != .zero)
         outA := outA, macs := x.kept * g.cg } : OutSpec))
  runMatrix c o
    { ka := g.groups * g.cg, kb := g.kh * g.kw * g.Cr, nOut := g.Og * g.groups
      rowsA := List.range (g.imgs * g.Ho * g.Wo), rowsB := List.range (g.Og * g.groups)
      outs := spec
      walk := g.walk blocks t.k, needA := selPlaces g.selA outs t.k, needB := selPlaces g.selB outs t.k
      outside := g.outside c a outs, prePass := g.table t, bad := bad } s

/-- CONV: the passes of a convolution run (08 R195 to R206; 05 R110). -/
def execConv (x : PassRun) (s : State) : Out := .next (onOp x.quill 2 (convRun x.bad) s)

/-- A pooled value on its way to the output: exact, or FP32 bits with the flags of the float path and whether a NaN or an infinity
took part. -/
abbrev Pooled := Val × Nat × Bool

/-- The largest of two exact values: NaN wins, +0 where zeros of both signs tie (08 R208). -/
def Val.max2 : Val → Val → Val
  | .nan, _ => .nan
  | _, .nan => .nan
  | a, b =>
    if a.isZero && b.isZero then (match a, b with | .fin true _ _, .fin true _ _ => a | _, _ => .fin false 0 0)
    else if a.lt b then b else a

/-- The largest of a list; +0 of an empty one. -/
def maxVal : List Val → Val
  | [] => .fin false 0 0
  | v :: t => t.foldl Val.max2 v

/-- The sum of a window's elements: exact, or the chunk sum of the float path (08 R208; 03 R71; 06 R143). -/
def sumVal (fmt : Nat) (l : List VElt) : Pooled :=
  if l.isEmpty then (.fin false 0 0, 0, false)
  else if fmt ≤ 2 then
    let r := floatReduce (l.map (fun e => ((floatOp e.1 e.2.1 e.2.2).1, oneOp))) none
    (f32Val r.1.1, r.1.2, r.2)
  else
    let vs := l.map eltVal
    let bad := vs.any (fun x => !x.isFin)
    match vs with
    | [] => (.fin false 0 0, 0, false)
    | v :: t => (t.foldl Val.add v, if bad then nsNonfinite else 0, bad)

/-- What a pooled output takes from the input: a place with its scale row and channel, or the padding constant. -/
inductive PoolIn where
  | elem (flat row ch : Nat)
  | pad
  deriving DecidableEq, Repr

/-- What a pooling takes its elements from: format, scales, outlier columns with the values of their rows, bits by place. -/
structure PoolSrc where
  fmt : Nat
  sa : Scales
  cols : List Nat
  ov : List (Nat × List Nat)
  ea : Nat → Nat

/-- One input of a pooling function; an outlier column is a channel, and its row an input pixel (08 R208; DESIGN CHOICE, log entry 53). -/
def ConvGeo.poolGet (g : ConvGeo) (x : PoolSrc) : PoolIn → VElt
  | .elem i row ch =>
    match (x.cols.zip (rowOutliers x.ov row)).find? (fun e => e.1 == ch) with
    | some e => (1, e.2, some 0)
    | none => (x.fmt, x.ea i, x.sa.exp row ch)
  | .pad => if g.mode = 2 then (x.fmt, g.padCode, some g.padF) else (x.fmt, 0, some 0)

/-- The inputs of a window output in window order, padding left out unless it counts (08 R207, R208). -/
def ConvGeo.window (g : ConvGeo) (incl : Bool) (n ch oy ox : Nat) : List PoolIn :=
  (List.range (g.kh * g.kw)).filterMap (fun t =>
    let p := g.pos t oy ox
    if g.isPad p = false then some (.elem (g.inFlat n ch p.1.toNat p.2.toNat) (g.inRow n (p.1.toNat, p.2.toNat)) ch)
    else if incl = false then none
    else if g.mode = 3 then some (.elem (g.inFlat n ch (g.clamp p).1 (g.clamp p).2) (g.inRow n (g.clamp p)) ch)
    else some .pad)

/-- The inputs of an output of each function with their weights: 1 outside bilinear resize (08 R208, R209). -/
def ConvGeo.poolIns (g : ConvGeo) (fn : Nat) (incl : Bool) (n ch oy ox : Nat) : List (PoolIn × Nat) :=
  let el := fun y x => PoolIn.elem (g.inFlat n ch y x) (g.inRow n (y, x)) ch
  match fn with
  | 3 => [(el (nearestRow oy g.H g.Ho) (nearestRow ox g.W g.Wo), 1)]
  | 4 =>
    let r := bilinearRow oy g.H g.Ho
    let k := bilinearRow ox g.W g.Wo
    [(el r.1.1 k.1.1, r.1.2 * k.1.2), (el r.1.1 k.2.1, r.1.2 * k.2.2), (el r.2.1 k.1.1, r.2.2 * k.1.2), (el r.2.1 k.2.1, r.2.2 * k.2.2)]
  | 5 => (List.range (g.H * g.W)).map (fun i => (el (i / max g.W 1) (i % max g.W 1), 1))
  | _ => (g.window incl n ch oy ox).map (fun p => (p, 1))

/-- Whether a bilinear term has no stated value: an infinity at weight 0; the output is then a free value of the operands (06 R141; DESIGN
CHOICE, log entry 3). -/
def openTerm (v : Val) (w : Nat) : Bool := match v with | .inf _ => w == 0 | _ => false

/-- The bilinear sum divided by 2^32 (08 R209). -/
def bilinearVal (l : List (Val × Nat)) : Val :=
  let ts := l.map (fun e => if e.2 = 0 then Val.fin false 0 0 else e.1.mul (.fin false e.2 (-32)))
  match ts with
  | [] => .fin false 0 0
  | v :: t => if l.any (fun e => e.1 == .nan) then .nan else t.foldl Val.add v

/-- One pooled output (08 R208, R209). -/
def ConvGeo.poolOne (g : ConvGeo) (fn : Nat) (x : PoolSrc) (ins : List (PoolIn × Nat)) : Pooled :=
  let xs := ins.map (fun e => g.poolGet x e.1)
  let vs := xs.map eltVal
  let ws := ins.map (fun e => e.2)
  let bad := vs.any (fun v => v == .nan)
  let fl := if bad then nsNonfinite else 0
  match fn with
  | 0 => (maxVal vs, fl, bad)
  | 1 => let r := sumVal x.fmt xs; (if xs.isEmpty then .fin false 0 0 else r.1.div (.fin false xs.length 0), r.2.1, r.2.2)
  | 2 => sumVal x.fmt xs
  | 3 => ((match vs with | v :: _ => v | [] => .fin false 0 0), fl, bad)
  | 4 =>
    if (vs.zip ws).any (fun e => openTerm e.1 e.2) then
      (f32Val (Config.openValue (1 :: x.fmt :: xs.map (fun e => e.2.1) ++ ws) % 2 ^ 32), fl, bad)
    else (bilinearVal (vs.zip ws), fl, bad)
  | _ => let r := sumVal x.fmt xs; (r.1.div (.fin false (g.H * g.W) 0), r.2.1, r.2.2)

/-- A value of a grouped output. -/
def gOfVal : Val → GVal
  | .nan => .poison
  | .inf n => .inf n
  | .fin n m k => .fin n m k

/-- The outputs of a POOL_RESIZE in order: image, channel, row, column. -/
def ConvGeo.poolOuts (g : ConvGeo) : List (Nat × Nat × Nat × Nat) :=
  (List.range g.imgs).flatMap (fun n => (List.range g.CBo).flatMap (fun cb => (List.range g.Ho).flatMap (fun y => (List.range g.Wo).flatMap (fun x =>
    (List.range g.bo).filterMap (fun c => if cb * g.bo + c < g.CB * g.b then some (n, cb * g.bo + c, y, x) else none)))))

/-- POOL_RESIZE with its scale blocks and elements in: results, conversion, writes (08 R208; 04 R104; DEDUCED, log entry 49). -/
def poolRun (c : OpCtx) (o : OpRun) (g : ConvGeo) (d : Rescale) (x : PoolSrc) (ins : List ((Nat × Nat × Nat × Nat) × List (PoolIn × Nat)))
    (s : State) : State :=
  let t := o.tod
  let fn := byteAt t.tail 0 % 8
  let a := c.agp t.agpC s
  let b := c.bind a.binding s
  let inj := takeNanInj c s
  let res0 : List ((Int × Nat × Nat) × Pooled) := ins.map (fun e =>
    let p := e.1
    ((c.offset a (g.outFlat p.1 p.2.1 p.2.2.1 p.2.2.2), (p.1 * g.Ho + p.2.2.1) * g.Wo + p.2.2.2, p.2.1), g.poolOne fn x e.2))
  let res : List ((Int × Nat × Nat) × Pooled) := match res0 with
    | r :: l => if inj.1 then (r.1, (Val.nan, r.2.2.1 ||| nsNonfinite, true)) :: l else res0
    | [] => []
  let n := res.length
  let s1 := inj.2
  let flags := res.foldl (fun f r => f ||| r.2.2.1) 0
  let nf := (res.filter (fun r => r.2.2.2)).length
  if natBit (byteAt t.tail 0) 4 then
    let vals := res.map (fun r => (({ agp := t.agpC, off := r.1.1, chan := 0, row := r.1.2.1, col := r.1.2.2, v := .elem 0 } : OutElem), gOfVal r.2.1))
    let w := writeGrouped c t.agpC b t.fmtC t.ieee d (rowBlocks (gatherRows vals) d.group) s1
    if w.1.1.status ≠ 0 then failSince c.job s1 w.2
    else vectorEnd c o (flags ||| w.1.2) (addCtr 1 (c.q / 4) 0x48 n (endEvents c { o with nf := nf, nfInj := inj.1 } w.2))
  else
    let codes := res.map (fun r => (r.1.1, convertTo t.fmtC t.ieee r.2.1))
    let w := writeCodes c t.agpC b t.fmtC (codes.map (fun e => (e.1, e.2.1))) s1
    if w.1.status ≠ 0 then failSince c.job s1 w.2
    else vectorEnd c o (codes.foldl (fun f e => f ||| e.2.2) flags) (addCtr 1 (c.q / 4) 0x48 n (endEvents c { o with nf := nf, nfInj := inj.1 } w.2))

/-- The steps at which a pooling compares scale blocks: input by input, in the order in which the outputs take them (04 R89). -/
def poolSteps (d : ScaleDesc) (ins : List ((Nat × Nat × Nat × Nat) × List (PoolIn × Nat))) : List (List TagCheck) :=
  ins.flatMap (fun e => e.2.filterMap (fun i =>
    match i.1 with
    | .elem _ row ch => some [((row, superStart d true ch), (0, 1), 0)]
    | .pad => none))

/-- A pooling or resize (08 R207 to R210). -/
def poolResizeRun (c : OpCtx) (o : OpRun) (s : State) : State :=
  let t := o.tod
  let a := { c.agp t.agpA s with fmt := t.fmtA }
  let g := poolGeo t.tail a (c.agp t.agpC s)
  let b0 := byteAt t.tail 0
  let fn := b0 % 8
  let grp := natBit b0 4
  let d := Rescale.read (rdBytes s t.rescale 32)
  let C := g.CB * g.b
  let pad := if fn ≤ 2 ∧ g.mode = 0 then
      g.poolOuts.findSome? (fun p => (List.range (g.kh * g.kw)).findSome? (fun k =>
        let x := g.pos k p.2.2.1 p.2.2.2
        if g.isPad x then some (c.offset a (g.inFlat p.1 p.2.1 0 0) + x.2 * a.stride 1 + x.1 * a.stride 2) else none))
    else none
  let h := if grp then opRead c t.rescale 32 s else (some [], s)
  match h.1 with
  | none => failSince c.job s h.2
  | some _ =>
    match readScaleDesc c (c.bind a.binding h.2) h.2 with
    | (none, s1) => failSince c.job h.2 s1
    | (some ds, s0) =>
      match readOutliers c ds s0 with
      | (none, s1) => failSince c.job s0 s1
      | (some cols, s1) =>
      if t.fmtA = 12 then failWith c.job (evFormatInvalid c o 0) s1
      else if !scaleOk ds C C || !outliersOk cols C || (grp && (!d.ok || d.group == 0 || decide (d.scalePitch < superBlocks (g.CBo * g.bo) d.group))) then
        failWith c.job (evFormatInvalid c o 3) s1
      else match pad with
      | some off => failWith c.job (c.evBounds t.agpA off false) s1
      | none =>
        whenHere c o (fun s2 =>
          let ins := g.poolOuts.map (fun p => (p, g.poolIns fn (natBit b0 3) p.1 p.2.1 p.2.2.1 p.2.2.2))
          match readStreams c o ds ScaleDesc.plain (poolSteps ds ins) s2 with
          | (none, s3) => s3
          | (some (sa, _), s3) =>
          match readOutVals c ds (if cols.isEmpty then [] else List.range (g.imgs * g.H * g.W)) s3 with
          | (none, s4) => failSince c.job s3 s4
          | (some ov, s4) =>
            let need := (ins.flatMap (fun e => e.2.filterMap (fun i => match i.1 with | .elem f _ _ => some f | .pad => none))).eraseDups
            let r := readAt c t.agpA a (c.bind a.binding s4) need s4
            if r.1.1.status ≠ 0 then failSince c.job s4 r.2
            else
              let la := r.1.2
              poolRun c o g d ⟨t.fmtA, sa, cols, ov, eltAt la⟩ ins r.2) s1

/-- POOL_RESIZE (08 R207 to R210). -/
def execPoolResize (q : Nat) (s : State) : Out :=
  .next (onVector q 3 poolResizeRun s)

end Sys2Proof.Machine
end

