-- ==== Sys2Proof/Machine/Fine.lean ====
section
/-! DEFINITION. The small convolution engine: layer descriptors, layers, completion records (08 R211 to R217). -/

namespace Sys2Proof.Machine

/-- A layer descriptor (08 R212). -/
structure FnDesc where
  last : Bool
  bf16 : Bool
  pad : Nat
  inB : Nat
  outB : Nat
  kh : Nat
  kw : Nat
  sy : Nat
  sx : Nat
  cIn : Nat
  cOut : Nat
  padCode : Nat
  padTop : Nat
  padLeft : Nat
  job : Nat
  stream : Nat
  scale : Nat
  source : Nat
  inH : Nat
  inW : Nat
  weights : Nat
  rescale : Nat
  fmt : Nat
  ieee : Bool
  out : Nat
  outH : Nat
  outW : Nat
  queue : Nat
  deriving DecidableEq, Repr

/-- A layer descriptor read from its 64 bytes (08 R212). -/
def FnDesc.read (b : List Byte) : FnDesc :=
  let b0 := byteAt b 0
  { last := natBit b0 0, bf16 := natBit b0 1, pad := natField b0 3 2, inB := if natBit b0 4 then 32 else 16, outB := if natBit b0 5 then 32 else 16
    kh := byteAt b 1, kw := byteAt b 2, sy := byteAt b 3 % 16, sx := byteAt b 3 / 16, cIn := leField b 4 2, cOut := byteAt b 6, padCode := byteAt b 7
    padTop := byteAt b 8 % 16, padLeft := byteAt b 8 / 16, job := leField b 10 2, stream := byteAt b 12, scale := byteAt b 13 % 8
    source := leField b 16 6, inH := leField b 22 2, inW := leField b 24 2, weights := leField b 26 6, rescale := leField b 32 6
    fmt := byteAt b 38 % 16, ieee := natBit (byteAt b 38) 4, out := leField b 40 7, outH := leField b 48 2, outW := leField b 50 2
    queue := leField b 52 3 % 2 ^ 20 }

/-- Operand format code. -/
def FnDesc.opFmt (d : FnDesc) : Nat := if d.bf16 then 1 else 0xA

/-- The size of the input: the layer's own, or a scale of its stream's crop (08 R211, R212). -/
def FnDesc.inSize (d : FnDesc) (s : State) : Nat × Nat :=
  if d.last then (d.inH, d.inW)
  else
    let c := streamCfg d.stream s
    (halved (if c.chh = 0 then c.height else c.chh) d.scale, halved (if c.cw = 0 then c.width else c.cw) d.scale)

/-- The geometry of the Quill CONV that a layer equals (08 R213). -/
def FnDesc.geo (d : FnDesc) (h w : Nat) : ConvGeo :=
  let b := if d.last then d.inB else 16
  { kh := d.kh, kw := d.kw, sy := d.sy, sx := d.sx, dy := 1, dx := 1, padTop := d.padTop, padLeft := d.padLeft, padCode := d.padCode, padF := 0
    tapFirst := 0, tapCount := d.kh * d.kw, diag := false, groups := 1, corr := 0, mode := d.pad, b := b, W := w, H := h
    CB := (d.cIn + b - 1) / b, imgs := 1, bo := d.outB, Wo := d.outW, Ho := d.outH, CBo := (d.cOut + d.outB - 1) / d.outB
    Cr := roundUp d.cIn b, Og := d.cOut }

/-- A padding position is asked for although the padding mode is none (08 R199). -/
def FnDesc.padAsked (d : FnDesc) (g : ConvGeo) : Bool :=
  let far := g.pos (g.tapCount - 1) (d.outH - 1) (d.outW - 1)
  g.isPad (g.pos 0 0 0) || g.isPad far

/-- The byte offset of the first field of a descriptor that breaks R211 or R212 (08). -/
def FnDesc.bad (d : FnDesc) (b : List Byte) (s : State) : Option Nat :=
  let c := streamCfg d.stream s
  let hw := d.inSize s
  let checks : List (Nat × Bool) := [
    (0, byteAt b 0 / 64 == 0 && !(d.bf16 && d.pad == 2) && !(d.pad == 0 && d.padAsked (d.geo hw.1 hw.2))),
    (1, decide (1 ≤ d.kh ∧ d.kh ≤ 11)), (2, decide (1 ≤ d.kw ∧ d.kw ≤ 11)),
    (3, decide (1 ≤ d.sy ∧ d.sy ≤ 8 ∧ 1 ≤ d.sx ∧ d.sx ≤ 8)),
    (4, decide (1 ≤ d.cIn ∧ d.cIn ≤ (if d.last then 4096 else 4) ∧ d.kh * d.kw * d.cIn * d.cOut * (if d.bf16 then 2 else 1) ≤ 196608)),
    (6, decide (1 ≤ d.cOut ∧ d.cOut ≤ (if d.last then 8 else 64))),
    (8, decide (d.padTop ≤ 10 ∧ d.padLeft ≤ 10)), (9, byteAt b 9 == 0),
    (12, d.last || (decide (d.stream < 32) && c.fnFeed && decide (c.fmt = d.opFmt))),
    (13, decide (byteAt b 13 / 8 = 0) && (d.last || (decide (d.scale ≤ 5) && natBit c.scales d.scale))),
    (14, leField b 14 2 == 0), (22, !d.last || d.inH != 0), (24, !d.last || d.inW != 0),
    (38, decide (byteAt b 38 / 32 = 0) && (!d.bf16 || (!fmtReserved d.fmt && decide (d.fmt ≠ 12) && (!d.ieee || decide (d.fmt ≤ 2 ∨ d.fmt = 4))))),
    (39, byteAt b 39 == 0), (47, byteAt b 47 == 0), (48, d.outH != 0), (50, d.outW != 0), (52, decide (leField b 52 3 < 2 ^ 20)),
    (55, byteAt b 55 == 0), (60, leField b 60 4 == 0)]
  match checks.find? (fun e => !e.2) with | some e => some e.1 | none => none

/-- A layer's completion record (08 R216). -/
def fnRecord (b : List Byte) (status pixels seq : Nat) : List Byte :=
  leBytes 1 status ++ leBytes 1 0 ++ leBytes 2 (leField b 10 2) ++ leBytes 4 (leField b 56 4) ++ leBytes 4 pixels ++ leBytes 4 seq

/-- A layer ended: its record goes to its completion queue (08 R216). -/
def fnEnd (b : List Byte) (status pixels seq : Nat) (s : State) : State :=
  let d := FnDesc.read b
  let s1 := wrReg 9 0 0x5C (rdReg 9 0 0x5C s + 1) s
  pushEngine d.queue 5 d.job false false (fnRecord b status pixels seq) { s1 with fn := { s1.fn with cur := none } }

/-- A layer ended on an event. -/
def fnFail (b : List Byte) (status pixels : Nat) (e : Ev) (s : State) : State := let r := raiseSeq e s; fnEnd b status pixels r.1 r.2

/-- FN_DESC_INVALID (08 R217). -/
def evDescInvalid (job off : Nat) : Ev := { c := 9, i := 0, bit := 10, code := 0x7300, job := job, payload := off }

/-- Whether the engine takes descriptors (08 R211; 11 R262). -/
def fnTakes (s : State) : Bool :=
  natBit (rdReg 9 0 0x40 s).toNat 31 && blockEnabled 9 0 s && domainOn 111 s && s.fn.cur.isNone && !s.qe.stFull
    && (qDesc (rdField 9 0 0x40 19 0 s) s).consumer == 4

/-- FN_LAYER: the engine takes the next descriptor and starts its layer (08 R211, R212, R214; DEDUCED, log entry 41). -/
def execFnLayer (s : State) : Out :=
  .next (
    if fnTakes s = false then s
    else match engineTake (rdField 9 0 0x40 19 0 s) s with
      | none => noTake (rdField 9 0 0x40 19 0 s) s
      | some (b, s0) =>
        let s1 := { s0 with fn := { s0.fn with taken := s0.fn.taken + 1 } }
        let d := FnDesc.read b
        if b.length ≠ 64 then
          let r := raiseSeq (evDescInvalid d.job 0) s1
          if 55 ≤ b.length then fnEnd b 1 0 r.1 r.2 else r.2
        else match d.bad b s1 with
          | some off => fnFail b 1 0 (evDescInvalid d.job off) s1
          | none =>
            if (match findJob d.job s1 with | some j => j.phase == .running | none => false) = false then fnEnd b 2 0 0 s1
            else { s1 with fn := { s1.fn with cur := some { desc := b, pos := s0.fn.taken % 65536, start := s1.time.clk, rowAt := s1.time.clk, sent := false, pixels := 0, refused := false } } })

/-- The first sample that a stream holds for the engine. -/
def fnFeedOf (st : Nat) (s : State) : Option CarFeed := s.car.feeds.find? (fun f => f.stream == st)

/-- FN_SOURCE_STALL: no row for FN_STALL_LIMIT since the last one, or since the layer's start (08 R215, R217). -/
def execFnSourceStall (s : State) : Out :=
  .next (
    match s.fn.cur with
    | none => s
    | some r =>
      let d := FnDesc.read r.desc
      let limit := (rdReg 9 0 0x48 s).toNat
      let inj := armed 9 0 6 s
      if d.last ∨ (fnFeedOf d.stream s).isSome ∨ (limit = 0 ∧ inj = false) ∨ pushGoes d.queue 16 false s = false then s
      else
        let s1 := if inj then disarm 9 0 6 s else advanceTo (r.rowAt + limit * oneUs) s
        let id := match s.car.samples.find? (fun x => x.stream == d.stream) with | some x => x.id | none => d.stream * 2 ^ 27 + (stream d.stream s).seq
        fnFail r.desc 4 0 { c := 9, i := 0, bit := 6, code := 0x2300, job := d.job, ctx := r.pos, payload := d.stream + id * 2 ^ 8 + injFlag inj } s1)

/-- Bytes read for a layer in runs of at most 256 (09 R222). -/
def fnRead (who : Who) : Nat → Nat → Nat → State → AccRes × State
  | 0, _, _, s => (⟨0, 0⟩, s)
  | fuel + 1, a, n, s =>
    if n = 0 then (⟨0, 0⟩, s)
    else
      let k := min n (256 - a % 256)
      let r := access 9 0 0 who .read a k [] s
      if r.1.status ≠ 0 then r else fnRead who fuel (a + k) (n - k) r.2

/-- The channel parameters of a layer's rescale descriptor (04 R100). -/
def fnChan (who : Who) (d : Rescale) (ch : Nat) (s : State) : (AccRes × ChanPar) × State :=
  let a := if d.perChannel then access 9 0 0 who .read (d.chanAddr + 8 * ch) 8 [] s else (⟨0, 0⟩, s)
  let b := if d.bias ∧ a.1.status = 0 then access 9 0 0 who .read (d.biasAddr + 4 * ch) 4 [] a.2 else (a.1, a.2)
  let l := rdBytes b.2 (d.chanAddr + 8 * ch) 8
  ((b.1, { m := if d.perChannel then signed 32 (leField l 0 4) else d.m, r := if d.perChannel then byteAt l 4 % 128 else d.r
           bias := if d.bias then signed 32 (leNat (rdBytes b.2 (d.biasAddr + 4 * ch) 4)) else 0 }), b.2)

/-- The channel parameters of every output channel; the first error ends it. -/
def fnChans (who : Who) (d : Rescale) : List Nat → State → (AccRes × List (Nat × ChanPar)) × State
  | [], s => ((⟨0, 0⟩, []), s)
  | ch :: t, s =>
    let r := fnChan who d ch s
    if r.1.1.status ≠ 0 then ((r.1.1, []), r.2)
    else let u := fnChans who d t r.2; ((u.1.1, (ch, r.1.2) :: u.1.2), u.2)

/-- One write of a layer: an element's code at its element offset, or a scale block (08 R214). -/
structure FnWrite where
  addr : Nat
  bytes : Nat
  bit : Nat
  width : Nat
  code : Nat
  /-- A pixel is complete with it. -/
  pixel : Bool
  deriving DecidableEq, Repr

/-- The write of an output element. -/
def fnElem (base fmt : Nat) (off code : Nat) (pixel : Bool) : FnWrite :=
  let p := elemAt fmt (off : Int)
  { addr := base + p.1.toNat, bytes := p.2.2, bit := p.2.1, width := fmtWidth fmt, code := code, pixel := pixel }

/-- The write of a scale block. -/
def fnBlock (addr : Nat) (b : List Byte) : FnWrite := { addr := addr, bytes := b.length, bit := 0, width := 8 * b.length, code := leNat b, pixel := false }

/-- What a layer's arithmetic needs: input and weight codes by place. -/
structure FnOps where
  ea : Nat → Nat
  eb : Nat → Nat

/-- The outputs of a layer as a Quill CONV computes them: the codes of each pixel's channels (08 R213). -/
def fnPixel (d : FnDesc) (g : ConvGeo) (r : Rescale) (ps : List (Nat × ChanPar)) (e : FnOps) (oy ox : Nat) : List FnWrite :=
  let K := g.tapCount * g.Cr
  let spec := fun (o : Nat) =>
    let x : ConvOut := { n := 0, grp := 0, o := o, oy := oy, ox := ox, nib := 0, kept := 0 }
    ({ flat := g.outFlat 0 o oy ox, flatIn := g.outFlat 0 o oy ox, void := g.voidAt x, chan := o, row := 0, col := 0, nib := 0, a := g.selA x
       b := fun k => let tc := g.tapChan k; if d.cIn ≤ tc.2 then .zero else .elem ((o * g.tapCount + tc.1) * d.cIn + tc.2)
       fa := fun _ => some 0, fb := fun _ => some 0, outl := [], outA := false, macs := 0 } : OutSpec)
  let chans := List.range d.cOut
  let out := d.out % 2 ^ 48
  if d.bf16 then
    chans.map (fun o =>
      let v := floatOutput 1 1 K e.ea e.eb none (spec o)
      fnElem out d.fmt (spec o).flat (convertTo d.fmt d.ieee (f32Val v.1.1)).1 (o + 1 == d.cOut))
  else
    let L := accUnit 0 0 0xA 0xA
    let acc := fun o => exactOutput 0xA 0xA 0 0 128 K e.ea e.eb false (spec o)
    if r.groupOut then
      let vals := chans.map (fun o =>
        let p := chanPar r ps o
        let P := rescaleP r p (acc o).value
        if (acc o).poison then GVal.poison else .fin (decide (P < 0)) P.natAbs (L - p.r))
      let span := 16 * r.group
      (List.range ((d.cOut + span - 1) / max span 1)).flatMap (fun sb =>
        let part := (vals.drop (sb * span)).take span
        let off := (oy * d.outW + ox) * r.scalePitch + sb
        let x := superBlock r.fmt r.ieee r.group r.xOut ((r.tagBase + off) % 16) part
        (List.range part.length).map (fun i => fnElem out r.fmt (g.outFlat 0 (sb * span + i) oy ox) (x.1.getD i (0, 0)).1 (sb * span + i + 1 == d.cOut))
          ++ [fnBlock (r.scaleAddr + off * 16) x.2])
    else chans.map (fun o => fnElem out r.fmt (spec o).flat (rescaleOne r (chanPar r ps o) L (acc o)).1 (o + 1 == d.cOut))

/-- A layer's writes made on this device; how many pixels are complete, and the address of a refused one (08 R214). -/
def fnWrites (who : Who) : List FnWrite → Nat → State → (AccRes × Nat × Nat) × State
  | [], n, s => ((⟨0, 0⟩, n, 0), s)
  | w :: t, n, s =>
    let l := mergeBits (rdLe s w.addr w.bytes) w.bit w.width w.code w.bytes
    let r := access 9 0 0 who .write w.addr w.bytes l s
    if r.1.status ≠ 0 then ((r.1, n, w.addr), r.2) else fnWrites who t (if w.pixel then n + 1 else n) r.2

/-- A layer's writes sent to another device; codes narrower than a byte carry 0 beside them. -/
def fnSend (job dst : Nat) : List FnWrite → Nat → State → Nat × State
  | [], _, s => (0, s)
  | w :: t, pos, s =>
    let r := sendReq .fine 1 dst job false w.addr w.bytes (mergeBits 0 w.bit w.width w.code w.bytes) pos s
    if r.1 ≠ 0 then r else fnSend job dst t (pos + w.bytes) r.2

/-- FN_WRITE_REFUSED (08 R217). -/
def evFnRefused (r : FnRun) (job addr : Nat) (inj : Bool) (s : State) : Ev :=
  { c := 9, i := 0, bit := 7, code := 0x3300, job := job, ctx := r.pos, payload := addrPayload addr 2 2 (deviceId s) + injFlag inj }

/-- Multiply-accumulates a layer performs: padded channels and zero-padding taps are skipped (08 R213). -/
def fnMacs (d : FnDesc) (g : ConvGeo) : Nat :=
  d.cIn * d.cOut * ((List.range d.outH).foldl (fun n oy => (List.range d.outW).foldl (fun m ox =>
    m + ((List.range g.tapCount).filter (fun t => g.mode != 1 || !g.isPad (g.pos t oy ox))).length) n) 0)

/-- A layer whose input is there: weights, rescale parameters, arithmetic, writes (08 R211 to R216). -/
def fnRun (r : FnRun) (d : FnDesc) (g : ConvGeo) (ea : State → Nat → Nat) (s : State) : State :=
  let who : Who := .fine (deviceId s) d.job
  let stop := fun (a : AccRes) (t : State) => fnEnd r.desc (if a.status = 4 then 5 else 1) 0 (lastSeq s t) t
  let es := if d.bf16 then 2 else 1
  let n := d.kh * d.kw * d.cIn * d.cOut * es
  let w := fnRead who (n / 256 + 2) d.weights n s
  if w.1.status ≠ 0 then stop w.1 w.2
  else
    let q := if d.bf16 then ((⟨0, 0⟩ : AccRes), w.2) else access 9 0 0 who .read d.rescale 32 [] w.2
    if q.1.status ≠ 0 then stop q.1 q.2
    else
      let rs := Rescale.read (rdBytes q.2 d.rescale 32)
      if d.bf16 = false ∧ (rs.ok = false ∨ (rs.groupOut = true ∧ rs.scalePitch < superBlocks d.cOut rs.group)) then
        fnFail r.desc 1 0 (evDescInvalid d.job 32) q.2
      else
        let ps := if d.bf16 then ((⟨0, 0⟩, []), q.2) else fnChans who rs (List.range d.cOut) q.2
        if ps.1.1.status ≠ 0 then stop ps.1.1 ps.2
        else
          let s1 := noteMove 56 d.job (fnMacs d g) (addCtr 9 0 0x4C (fnMacs d g) ps.2)
          let e : FnOps := { ea := ea s1, eb := fun i => rdLe s1 (d.weights + i * es) es }
          let ws := (List.range d.outH).flatMap (fun oy => (List.range d.outW).flatMap (fun ox => fnPixel d g rs ps.1.2 e oy ox))
          let dst := d.out / 2 ^ 48
          if armed 9 0 7 s1 then fnFail r.desc 3 0 (evFnRefused r d.job (d.out % 2 ^ 48) true s1) (disarm 9 0 7 s1)
          else if dst ≠ deviceId s1 then
            let k := fnSend d.job dst ws 0 s1
            if k.1 ≠ 0 then fnFail r.desc 3 0 (evFnRefused r d.job d.out false k.2) (dropUse .fine k.2)
            else { k.2 with fn := { k.2.fn with cur := some { r with sent := true, pixels := d.outH * d.outW } } }
          else
            let k := fnWrites who ws 0 s1
            if k.1.1.status ≠ 0 then fnFail r.desc 3 k.1.2.1 (evFnRefused r d.job k.1.2.2 false k.2) k.2
            else fnEnd r.desc 0 k.1.2.1 0 k.2

/-- FN_SRAM_ERROR and FN_SRAM_CORRECTED (08 R217). -/
def evFnSram (r : FnRun) (fatal : Bool) (word : Nat) (inj : Bool) : Ev :=
  if fatal then { c := 9, i := 0, bit := 8, code := 0x3301, job := leField r.desc 10 2, ctx := r.pos, payload := word % 2 ^ 18 + injFlag inj }
  else { c := 9, i := 0, bit := 5, code := 0x1300, payload := word % 2 ^ 18 + injFlag inj }

/-- FN_LAYER_COMPLETE: the layer in progress ends: killed with its job, ended by an SRAM error, skipped with its sample, or run; outputs on
another device end it once all are answered. `u` is an error of the SRAM (08 R211 to R217). -/
def execFnLayerComplete (u : Upset) (s : State) : Out :=
  .next (
    match s.fn.cur with
    | none => s
    | some r =>
      let d := FnDesc.read r.desc
      if pushGoes d.queue 16 false s = false then s
      else if (match findJob d.job s with | some j => j.phase == .running | none => false) = false then fnEnd r.desc 6 0 0 (dropUse .fine s)
      else if r.sent then
        if reqOut .fine s then s
        else if r.refused then fnFail r.desc 3 0 (evFnRefused r d.job d.out false s) s else fnEnd r.desc 0 r.pixels 0 s
      else if blockEnabled 9 0 s = false ∨ domainOn 111 s = false ∨ coolantLost s = true then s
      else if armed 9 0 8 s then fnFail r.desc 5 0 (evFnSram r true 0 true) (disarm 9 0 8 s)
      else match u with
        | .double a => fnFail r.desc 5 0 (evFnSram r true a false) s
        | _ =>
          let s1 := if armed 9 0 5 s then raise (evFnSram r false 0 true) (disarm 9 0 5 s)
            else match u with | .single a _ => raise (evFnSram r false a false) s | _ => s
          if d.last then
            let g := d.geo d.inH d.inW
            let es := if d.bf16 then 2 else 1
            let n := g.CB * g.H * g.W * g.b * es
            let k := fnRead (.fine (deviceId s1) d.job) (n / 256 + 2) d.source n s1
            if k.1.status ≠ 0 then fnEnd r.desc (if k.1.status = 4 then 5 else 1) 0 (lastSeq s1 k.2) k.2
            else fnRun r d g (fun t i => rdLe t (d.source + i * es) es) k.2
          else match fnFeedOf d.stream s1 with
            | none => s1
            | some f =>
              let s2 := { s1 with car := { s1.car with feeds := s1.car.feeds.erase f } }
              match f.ok, f.scales.find? (fun z => z.1 == d.scale) with
              | true, some (_, h, w, ch, codes) =>
                fnRun r d (d.geo h w) (fun _ i => let c := i % 16; if ch ≤ c then 0 else codes.getD (i / 16 * ch + c) 0) s2
              | _, _ => fnEnd r.desc 0 0 0 (raise { c := 9, i := 0, bit := 9, code := 0x0300, payload := f.id } s2))

/-- FN_STATE.state: LOADING at the model time at which a layer starts, since no rule says how long its weights take; WAITING for its stream's
rows; DRAINING with outputs on the ring; RUNNING else (08 FN_STATE; DESIGN CHOICE, log entry 41). -/
def fnCode (s : State) : Nat :=
  match s.fn.cur with
  | none => 0
  | some r =>
    let d := FnDesc.read r.desc
    if r.sent then 4 else if s.time.clk = r.start then 1 else if d.last = false ∧ (fnFeedOf d.stream s).isNone = true then 3 else 2

end Sys2Proof.Machine
end

