-- ==== Sys2Proof/Machine/Mem.lean ====
section
/-! DEFINITION. The memory controllers' commands: slots, refresh, patrol scrub, spare rows, training and start-up (10 R241 to R251). -/

namespace Sys2Proof.Machine

/-- What the stack gives an access: a new error in one block. A second byte in error makes the block uncorrectable; with inline ECC off the bytes
change and nothing tells (10 R237, R247; DEDUCED, log entry 48). -/
def mcUpset (u : Upset) (s : State) : State :=
  let put := fun (a : Nat) (k : Nat) (f : Mc → Nat → Mc) =>
    if lpddrTop s ≤ a then s
    else if inlineEcc s then setMc (mcLoc a).mc (f (mc (mcLoc a).mc s) (a / 64)) s
    else freeAt a k s
  match u with
  | .none => s
  | .single a b => if 68 ≤ b then s else put a 1 (fun m k =>
      if m.bad.contains k || m.single.contains (k, b) then m
      else if m.single.any (fun e => e.1 == k) then { m with bad := m.bad ++ [k], single := m.single.filter (fun e => e.1 != k) }
      else { m with single := m.single ++ [(k, b)] })
  | .double a => put a 2 (fun m k => if m.bad.contains k then m else { m with bad := m.bad ++ [k], single := m.single.filter (fun e => e.1 != k) })

/-- Whether a controller runs its schedule: powered, trained and out of self-refresh (10 R241, R249, R250). -/
def mcRuns (m : Nat) (s : State) : Bool := decide (m < 8) && domainOn (96 + m) s && !(mc m s).selfRef && mcTrained m s

/-- The owner of a slot position, if it is reserved (10 R242; 06 R149). -/
def slotOwner (pos : Nat) (s : State) : Option Nat :=
  match s.jobs.find? (fun j => j.holds && j.slots.contains pos) with | some j => some j.d.id | none => none

/-- The ring time of the next start of a position's slot, on a given channel if one is asked for (10 R241): frame number and ns. -/
def nextSlot (pos : Nat) (chan : Option Nat) (ns : Nat) : Nat × Nat :=
  let at0 := 102 * (pos / 8)
  let f0 := (ns + 815 - at0 % 816) / 816
  let f := match chan with
    | none => f0
    | some c => f0 + (c + 8 - (pos + f0) % 8) % 8
  (f, f * 816 + at0)

/-- The pending write-backs of a channel written (10 R239). -/
def mcWriteBacks (m ch : Nat) (s : State) : State :=
  let k := mc m s
  setMc m (k.clean (fun b => k.wb.contains b && (mcLoc (b * 64)).ch == ch)) s

/-- MC_REFRESH_STATUS from the delays and postponements (10). -/
def mcRefreshReg (m : Nat) (s : State) : State :=
  let k := mc m s
  wrField 4 m 0x50 15 0 (min (k.delay.foldl (fun n e => max n e.2) 0) 255 * 256 + min (k.postponed.foldl (fun n e => max n e.2) 0) 255) s

/-- Who makes a request for a slot. -/
def askWho : MemAsk → MemWho
  | .read w _ _ => w
  | .write w _ _ => w

/-- The address of a request. -/
def askAddr : MemAsk → Nat
  | .read _ a _ => a
  | .write _ a _ => a

/-- The bytes of a request. -/
def askLen : MemAsk → Nat
  | .read _ _ n => n
  | .write _ _ d => d.length

/-- Whether a requester may use a slot position: the owner in a reserved one; in an unreserved one every requester but a deterministic job, a job
being one that holds its resources (10 R242, R244; 01 R21). -/
def slotAllows (pos : Nat) (w : MemWho) (s : State) : Bool :=
  match slotOwner pos s, w with
  | some o, .job id => o == id
  | some _, _ => false
  | none, .job id => (match findJob id s with | some j => j.holds && !j.d.det | none => false)
  | none, _ => true

/-- The rank of a requester in an unreserved slot: a job's priority class; Carousel and the queue engine rank with class 1, and the host, which
the rule gives no class, comes after class 3 (01 R21; DESIGN CHOICE, log entry 48). -/
def memRank (w : MemWho) (s : State) : Nat :=
  match w with
  | .job id => (match findJob id s with | some j => j.d.prio | none => 3)
  | .carousel => 1
  | .queueEngine => 1
  | .host => 4

/-- The rows that a request opens: its unit's, and with inline ECC on that of the check bytes (10 R237, R238, R246). -/
def slotRows (a : Nat) (s : State) : List Nat :=
  if inlineEcc s then [(mcLoc a).rowKey, (mcLoc a).check.rowKey] else [(mcLoc a).rowKey]

/-- A bank's refresh ends so late that a command to it cannot issue in the slot at a time: 140 ns, of which a command waits at most 38 (10 R245). -/
def bankShut (m at_ row : Nat) (s : State) : Bool :=
  let e := Tbl.get 0 (mc m s).refEnd (row / 65536)
  decide (at_ + 38 < e ∧ e ≤ at_ + 140)

/-- How long a command to a row waits for the refresh of its bank, in ns (10 R245). -/
def bankWait (m at_ row : Nat) (s : State) : Nat :=
  let e := Tbl.get 0 (mc m s).refEnd (row / 65536)
  if e ≤ at_ + 140 then min (e - at_) 38 else 0

/-- Whether a request can be served by a controller in the next slot at a position that serves its channel (10 R242, R244). -/
def askOk (m pos : Nat) (q : MemAsk) (s : State) : Bool :=
  decide ((mcLoc (askAddr q)).mc = m ∧ 1 ≤ (askLen q) ∧ (askAddr q) % 2048 + (askLen q) ≤ 2048 ∧ (askAddr q) + (askLen q) ≤ lpddrTop s) && slotAllows pos (askWho q) s
    && !(slotRows (askAddr q) s).any (fun r => bankShut m (nextSlot pos (some (mcLoc (askAddr q)).ch) (ringNow s)).2 r s)
    && !(mc m s).pend.any (fun e => blocksMeet e.2.1 e.2.2.length (askAddr q) (askLen q))

/-- The requests that may take a slot, in order of arbitration: by class, within a class in the order in which they wait (01 R21). -/
def slotQueue (m pos : Nat) (asks : List MemAsk) (s : State) : List MemAsk :=
  (List.range 5).flatMap (fun c => asks.filter (fun q => memRank (askWho q) s == c && askOk m pos q s))

/-- What an unreserved slot carries of a list of commands: up to 8 rows and 32 blocks; a command to a block that a partial write before it reads
waits (10 R238, R244). -/
def slotPick (s : State) : List (Bool × MemAsk) → List Nat → Nat → List (Bool × MemAsk) → List (Bool × MemAsk)
  | [], _, _, got => got
  | q :: t, rows, n, got =>
    let rows1 := (rows ++ slotRows (askAddr q.2) s).eraseDups
    let n1 := n + (blocksOf (askAddr q.2) (askLen q.2)).length
    if 8 < rows1.length ∨ 32 < n1 ∨ got.any (fun g => blocksMeet (askAddr g.2) (askLen g.2) (askAddr q.2) (askLen q.2) && !(partBlocks (askAddr g.2) (askLen g.2)).isEmpty) = true then
      slotPick s t rows n got
    else slotPick s t rows1 n1 (got ++ [q])

/-- The commands of a slot on a channel: the second halves of partial writes of those who may use it, marked true, come first; a reserved slot
carries one (10 R238, R242, R244). -/
def slotWork (m pos ch at_ : Nat) (cand : List MemAsk) (s : State) : List (Bool × MemAsk) :=
  let old := ((mc m s).pend.filter (fun e => (mcLoc e.2.1).ch == ch && slotAllows pos e.1 s && !(slotRows e.2.1 s).any (fun r => bankShut m at_ r s))).map
    (fun e => (true, MemAsk.write e.1 e.2.1 e.2.2))
  let all := old ++ (cand.filter (fun q => (mcLoc (askAddr q)).ch == ch)).map (fun q => (false, q))
  if (slotOwner pos s).isSome then all.take 1 else slotPick s all [] 0 []

/-- MC_LINK_CORRECTED (10 R247, R251). -/
def linkCorrected (m a : Nat) (s : State) : State :=
  let l := mcLoc a
  raiseRated (0x410000 + m) oneMs { c := 4, i := m, bit := 6, code := 0x1501, ctx := l.ctx, payload := a } (bump 4 m 0x64 1 s)

/-- A slot of a channel starts with a delay then outstanding: an unreserved one has absorbed what was outstanding and makes the pending
write-backs; the banks it uses are noted (10 R239, R245). -/
def slotOpen (m ch at_ delay : Nat) (own : Bool) (rows : List Nat) (s : State) : State :=
  let s1 := if own then s else mcWriteBacks m ch s
  let k := mc m s1
  mcRefreshReg m (setMc m { k with delay := if delay = 0 then Tbl.erase k.delay ch else Tbl.set 0 k.delay ch delay
                                   lastSlot := Tbl.set (0, []) k.lastSlot ch (at_, rows.map (fun r => r / 65536)) } s1)

/-- A read error that link ECC cannot correct, put on the block of an address for the time of one read (10 R247). -/
def linkUpset (e : LinkErr) (a : Nat) (s : State) : State :=
  if inlineEcc s then (match e with | .one b => mcUpset (.single a b) s | .many => mcUpset (.double a) s | _ => s) else s

/-- A controller's errors as they were before a read that a link error disturbed (10 R247). -/
def linkDone (m : Nat) (k : Mc) (s : State) : State := setMc m { mc m s with single := k.single, bad := k.bad } s

/-- A read in a slot: what is uncorrectable fails the request, and the job that made it (10 R240, R247). -/
def slotRead (m : Nat) (w : MemWho) (a n : Nat) (link : LinkErr) (s : State) : State :=
  let r := lpddrRead a n (memJob w) (linkUpset link a s)
  failOn (memJob w) r.1 s (linkDone m (mc m s) r.2)

/-- A write in a slot: one of whole blocks is done; one that covers part of a block reads it now, and waits for the next slot of its owner (10
R238). -/
def slotWrite (m : Nat) (w : MemWho) (a : Nat) (d : List Byte) (s : State) : State :=
  let part := partBlocks a d.length
  if part.isEmpty then (let r := lpddrWrite a d (memJob w) s; failOn (memJob w) r.1 s r.2)
  else if mcReady a d.length s = false then failOn (memJob w) (if fenceCloses s then 7 else 5) s s
  else
    let r := mcReadBlocks (memJob w) part s
    if r.1 ≠ 0 then failOn (memJob w) r.1 s r.2 else setMc m { mc m r.2 with pend := (mc m r.2).pend ++ [(w, a, d)] } r.2

/-- One command of a slot; the link error meets it, and a corrected one is reported (10 R238, R247). -/
def slotServe (m : Nat) (link : LinkErr) (q : Bool × MemAsk) (s : State) : State :=
  let s1 := if link = .fixed then linkCorrected m (askAddr q.2) s else s
  match q with
  | (true, .write w a d) => lpddrPut a d (memJob w) (setMc m { mc m s1 with pend := (mc m s1).pend.filter (fun e => e != (w, a, d)) } s1)
  | (_, .write w a d) => slotWrite m w a d s1
  | (_, .read w a n) => slotRead m w a n link s1

/-- The commands of a slot, in order; the link error meets the first. -/
def slotRun (m : Nat) (link : LinkErr) : List (Bool × MemAsk) → State → State
  | [], s => s
  | q :: t, s => slotRun m .ok t (slotServe m link q s)

/-- A reserved command that a refresh delays: counted once for its job and at the controller (10 R245). -/
def deferred (m job : Nat) (s : State) : State := updJob job (fun j => { j with refreshDef := j.refreshDef + 1 }) (addCtr 4 m 0x80 1 s)

/-- MEMORY_SLOT: the next slot at a position, on the channel of the request that wins it, starts and carries what its owner, or in an unreserved
one the requesters in order of class, ask for; `link` is what the link does to the first transfer, `u` what the stack gives (10 R241 to R247). -/
def execMemorySlot (m pos : Nat) (asks : List MemAsk) (link : LinkErr) (u : Upset) (s : State) : Out :=
  .next (
    if mcRuns m s = false ∨ 64 ≤ pos then s
    else
      let cand := slotQueue m pos asks s
      let t := nextSlot pos (cand.head?.map (fun q => (mcLoc (askAddr q)).ch)) (ringNow s)
      let ch := (pos + t.1) % 8
      let work := slotWork m pos ch t.2 cand s
      let rows := work.flatMap (fun q => slotRows (askAddr q.2) s)
      let own := slotOwner pos s
      let wait := rows.foldl (fun x r => max x (bankWait m t.2 r s)) 0
      let d := if own.isSome then max wait (Tbl.get 0 (mc m s).delay ch) else wait
      let s1 := mcUpset u (slotOpen m ch t.2 d own.isSome rows (advanceToRing (t.2 + d) s))
      let s2 := match own with
        | some j => if work.isEmpty || d == 0 then s1 else deferred m j s1
        | none => s1
      slotRun m link work s2)

/-- The refresh interval of a bank in thirds of a ns (10 R245). -/
def refreshInterval (m : Nat) (s : State) : Nat := if rdField 4 m 0x50 17 16 s = 2 then 1953 * 3 else 3906 * 3

/-- REFRESH: the refresh of a channel's bank (16 times its rank and its bank) falls due. While a delay is outstanding on the channel it is postponed, as far as the stacks allow; otherwise it is
issued at the start of a slot that does not use the bank, unless a write waits for the channel's next slot there (10 R245). -/
def execRefresh (m ch b : Nat) (s : State) : Out :=
  .next (
    if mcRuns m s = false ∨ 8 ≤ ch ∨ 32 ≤ b then s
    else
      let k := mc m s
      let bank := ch * 32 + b
      let post := Tbl.get 0 k.postponed bank
      let due := Tbl.get 0 k.refreshed bank + refreshInterval m s
      if Tbl.get 0 k.delay ch ≠ 0 ∧ post < Config.maxPostponed then
        let s1 := advanceTo due s
        mcRefreshReg m (setMc m { mc m s1 with postponed := Tbl.set 0 k.postponed bank (post + 1), refreshed := Tbl.set 0 k.refreshed bank due } s1)
      else if k.pend.any (fun e => (slotRows e.2.1 s).any (fun r => r / 65536 == bank)) then s
      else
        let s1 := if post = 0 then advanceTo due s else s
        let at0 := (ringNow s1 + 101) / 102 * 102
        let used := Tbl.get (0, []) k.lastSlot ch
        let at_ := if used.1 = at0 ∧ used.2.contains bank = true then at0 + 102 else at0
        let s2 := advanceToRing at_ s1
        let k1 := mc m s2
        mcRefreshReg m (setMc m { k1 with postponed := Tbl.set 0 k1.postponed bank (post - 1)
                                          refreshed := if post = 0 then Tbl.set 0 k1.refreshed bank due else k1.refreshed
                                          refEnd := Tbl.set 0 k1.refEnd bank (at_ + 140) } s2))

/-- REFRESH_RATE_CHANGE: the stack temperature, a signed byte, is read; the rate doubles above 85 °C and returns below 82 °C (10 R245). -/
def execRefreshRateChange (m temp : Nat) (s : State) : Out :=
  .next (
    if 8 ≤ m then s
    else
      let s1 := wrField 4 m 0x54 7 0 temp s
      let t := signed 8 temp
      let rate := rdField 4 m 0x50 17 16 s
      let new := if 85 < t then 2 else if t < 82 then 1 else rate
      if new = rate then s1
      else raise { c := 4, i := m, bit := 8, code := 0x0500, payload := new + temp % 256 * 4 } (wrField 4 m 0x50 17 16 new s1))

/-- Units of usable memory on one controller (10 R236). -/
def mcUnits (s : State) : Nat := 8 * (if inlineEcc s then 1835008 else 2097152)

/-- The first address of a controller's unit number `p`: channel p mod 8, channel unit p div 8 (10 R235). -/
def mcUnitAddr (m p : Nat) : Nat :=
  let v := p / 8
  let g := m + 8 * (p % 8)
  let x := g ^^^ natField v 5 0 ^^^ natField v 11 6 ^^^ natField v 17 12 ^^^ natField v 20 18
  (v * 64 + x) * 2048

/-- A patrol read of one block: a corrected error notes the row that holds the byte, and a second pass spares it (10 R248). -/
def patrolBlock (pass blk : Nat) (s : State) : State :=
  let l := mcLoc (blk * 64)
  let hit := (mc l.mc s).single.find? (fun e => e.1 == blk)
  let s1 := (mcReadBlock blk 0xFFFF s).2
  let m := mc l.mc s1
  match hit with
  | some e =>
    let key := l.errRow e.2
    if m.bad.contains blk || !inlineEcc s then s1
    else if m.rowsHit.any (fun x => x.1 == key && x.2 != pass) then setMc l.mc (m.toSpare key) s1
    else if m.rowsHit.any (fun x => x.1 == key) then s1
    else setMc l.mc { m with rowsHit := m.rowsHit ++ [(key, pass)] } s1
  | none => s1

/-- The next unreserved slot that serves a channel: its start in ns of ring time (10 R241, R248). -/
def nextFree (ch ns : Nat) (s : State) : Option Nat :=
  (List.range 64).foldl (fun (best : Option Nat) pos =>
    let t := (nextSlot pos (some ch) ns).2
    if (slotOwner pos s).isSome then best
    else match best with | some b => if t < b then some t else best | none => some t) none

/-- From one patrol read to the next, in thirds of a ns: the period of MC_PATROL_CTRL over the units of the stack (10 R248). -/
def patrolEvery (m : Nat) (s : State) : Nat := rdField 4 m 0x58 7 0 s * 10800000000000 / mcUnits s

/-- PATROL_SCRUB: the scrubber reads its next unit when it is due, in the next unreserved slot of the unit's channel (10 R248; MC_PATROL_STATUS). -/
def execPatrolScrub (m : Nat) (u : Upset) (s : State) : Out :=
  .next (
    if mcRuns m s = false ∨ (mc m s).filling = true then s
    else
      let p := (mc m s).patrol
      let n := mcUnits s
      let pass := rdField 4 m 0x5C 31 16 s
      let b := mcUnitAddr m p / 64
      let due := (mc m s).patrolAt + patrolEvery m s
      let s0 := advanceTo due s
      match nextFree (p % 8) (ringNow s0) s0 with
      | none => s
      | some at_ =>
        let rows := slotRows (b * 64) s0
        let d := rows.foldl (fun x r => max x (bankWait m at_ r s0)) 0
        let s1 := mcUpset u (slotOpen m (p % 8) at_ d false rows (advanceToRing (at_ + d) s0))
        let s2 := (List.range 32).foldl (fun acc k => patrolBlock pass (b + k) acc) s1
        let p1 := if n ≤ p + 1 then 0 else p + 1
        let s3 := setMc m { mc m s2 with patrol := p1, patrolAt := max due s.time.clk } s2
        wrReg 4 m 0x5C (BitVec.ofNat 32 ((if p1 = 0 then (pass + 1) % 65536 else pass) * 65536 + p1 * 65536 / n)) s3)

/-- MC_SPARE_SEL written; force starts sparing the row; a force that is not done stands (10 R248; W1S). -/
def wrSpareSel (m : Nat) (v : Word) (s : State) : State :=
  let bank := v.field 7 0
  let key := bank * 65536 + v.field 23 8
  let k := mc m s
  let go := natBit v.toNat 31 && decide (k.left bank ≠ 0)
  let f := if go && !k.forced.contains key then k.forced ++ [key] else k.forced
  wrReg 4 m 0x88 ((v &&& 0x00FFFFFF) ||| (if f.isEmpty then 0 else 0x80000000)) (setMc m { (if go then k.toSpare key else k) with forced := f } s)

/-- ROW_SPARE_FORCE (10 R248). -/
def execRowSpareForce (r : Req) (m bank row : Nat) (s : State) : Out :=
  .next (onReg r 4 m 0x88 (wrSpareSel m (BitVec.ofNat 32 (2 ^ 31 + row % 65536 * 256 + bank % 256))) s)

/-- The unit that a row of a bank holds: its first block number (10 R235). -/
def rowUnitBlock (m bank row : Nat) : Nat :=
  let k := natField bank 3 0 ^^^ (row % 16)
  let v := row * 32 + natField bank 4 4 * 16 + k
  mcUnitAddr m (v * 8 + bank / 32) / 64

/-- A controller after the copy of a row to a spare: errors in the row are gone, the row's force is done (10 R248). -/
def Mc.rowSpared (k : Mc) (bank row unit left : Nat) : Mc :=
  let key := bank * 65536 + row
  let blks := (List.range 32).map (fun i => unit * 32 + i)
  let inRow := fun (e : Nat × Nat) => (mcLoc (e.1 * 64)).errRow e.2 == key
  let k1 := k.clean (fun x => blks.contains x && k.bad.contains x)
  { k1 with copying := k.copying.filter (fun x => x != key), spares := Tbl.set 8 k.spares bank left, lastRow := Tbl.set 0 k.lastRow bank row
            spared := k.spared ++ [key], single := k1.single.filter (fun e => !inRow e)
            wb := k1.wb.filter (fun x => !(k1.single.any (fun e => e.1 == x && inRow e)))
            planted := k1.planted.filter (fun x => !(k1.single.any (fun e => e.1 == x && inRow e)))
            rowsHit := k.rowsHit.filter (fun e => e.1 != key), badRows := k.badRows.filter (fun e => e.1 != unit), forced := k.forced.filter (fun x => x != key) }

/-- ROW_SPARE_DONE: the copy to the spare row completes and the remap takes effect; the map is saved (10 R248, R251). -/
def execRowSpareDone (m bank row : Nat) (s : State) : Out :=
  .next (
    let key := bank * 65536 + row
    let k := mc m s
    if k.copying.contains key = false ∨ k.left bank = 0 then s
    else
      let unit := rowUnitBlock m bank row / 32
      let left := k.left bank - 1
      let lost := ((List.range 32).map (fun i => unit * 32 + i)).filter (fun x => k.bad.contains x)
      let s1 := lost.foldl (fun acc x => freeAt (x * 64) 64 acc) s
      let s2 := setMc m (k.rowSpared bank row unit left) s1
      let ctx := bank / 16
      let s3 := wrField 4 m 0x88 31 31 (b2n (!(mc m s2).forced.isEmpty)) s2
      let s4 := raise { c := 4, i := m, bit := 7, code := 0x1502, ctx := ctx, payload := row + bank % 16 * 2 ^ 16 + left * 2 ^ 20 } s3
      let s5 := if left = 0 then raise { c := 4, i := m, bit := 11, code := 0x3501, ctx := ctx, payload := bank % 16 } s4 else s4
      askSetting 4 (.mcRows m (mc m s5).spared) s5)

/-- Every byte of a controller's stack set to zero and its errors gone: what the start-up fill leaves (10 R249). -/
def mcZero (m : Nat) (s : State) : State :=
  setMc m { mc m s with single := [], bad := [], wb := [], badRows := [], planted := [] }
    { s with mem := s.mem.filter (fun e => decide (lpddrTop s ≤ e.1) || (mcLoc e.1).mc != m) }

/-- The serial of the stack at a controller (19 R456). -/
def stackSerial (m : Nat) (s : State) : Nat := leField s.sec.colophon (20 + 4 * m) 4

/-- Whether a controller restores its training record: it is valid, is of this stack, was taken within 30 °C of the present temperature, and no
restore from it has failed (10 R249). -/
def canRestore (m : Nat) (s : State) : Bool :=
  match (mc m s).trainRec with
  | some (serial, temp) =>
    serial == stackSerial m s && decide ((signed 8 temp - signed 8 (rdField 4 m 0x54 7 0 s)).natAbs ≤ 30) && !(mc m s).restoreFailed
  | none => false

/-- MC_TRAINED: a controller that is being brought up ends a restore, where its record serves, or else full training; a restore whose verification
fails leaves full training to do. The start-up fill's zeros are in place from its start, since a request for a unit not yet filled waits for it (10
R249; DEDUCED, log entry 32). -/
def execMcTrained (m : Nat) (full ok : Bool) (ms stage : Nat) (s : State) : Out :=
  .next (
    if 8 ≤ m ∨ rdField 4 m 0x44 1 0 s ≠ 0 ∨ canRestore m s = full then s
    else if ok then
      let src := if full then 2 else 1
      let s1 := wrReg 4 m 0x44 (BitVec.ofNat 32 (1 + src * 4 + ms % 65536 * 65536)) s
      let s2 := raise { c := 4, i := m, bit := 9, code := 0x0501, payload := src + ms % 65536 * 4 } s1
      let rec_ := (stackSerial m s2, rdField 4 m 0x54 7 0 s2)
      let s3 := if full then askSetting 3 (.train m rec_.1 rec_.2) (setMc m { mc m s2 with trainRec := some rec_ } s2) else s2
      if inlineEcc s3 then (let s4 := mcZero m s3; setMc m { mc m s4 with filling := true } s4) else s3
    else if full then
      let s1 := wrReg 4 m 0x44 (BitVec.ofNat 32 (2 + ms % 65536 * 65536)) s
      fenceFor 2 (raise { c := 4, i := m, bit := 12, code := 0x3502, payload := stage % 256 } s1)
    else setMc m { mc m s with restoreFailed := true } s)

/-- ECC_FILL_DONE: the start-up fill of a controller ends (10 R249). -/
def execEccFillDone (m : Nat) (s : State) : Out := .next (if (mc m s).filling then setMc m { mc m s with filling := false } s else s)

/-- MC_PATROL_CTRL written: a period outside 1 to 168 is ignored (10). -/
def wrPatrolCtrl (m : Nat) (v : Word) (s : State) : State := if 1 ≤ v.field 7 0 ∧ v.field 7 0 ≤ 168 then wrReg 4 m 0x58 (v &&& 0xFF) s else s

/-- MC_SLOT_OWNER as read (10). -/
def mcSlotOwner (m : Nat) (s : State) : Word :=
  match slotOwner (rdField 4 m 0x48 5 0 s) s with
  | some j => BitVec.ofNat 32 (j * 65536 + 1)
  | none => 0xFFFF0000

/-- MC_SPARE_STATUS as read (10). -/
def mcSpareStatus (m : Nat) (s : State) : Word :=
  let b := rdField 4 m 0x88 7 0 s
  BitVec.ofNat 32 ((mc m s).left b + Tbl.get 0 (mc m s).lastRow b * 16)

end Sys2Proof.Machine
end

