-- ==== Sys2Proof/Machine/Hash.lean ====
section
/-! DEFINITION. SHA-256 and HMAC (19 R446 to R448, R458), LMS and HSS signatures with keys made from a seed (19 R449, R458, R460): FIPS 180-4,
RFC 2104 and RFC 8554, which 00 R6 and 19 R449 name. -/

namespace Sys2Proof.Machine

/-- The low `n` bytes of a number, most significant first. -/
def beBytes (n v : Nat) : List Byte := (leBytes n v).reverse

/-- The number that bytes spell, most significant first. -/
def beNat (l : List Byte) : Nat := leNat l.reverse

/-- The round constants of SHA-256, the first half. -/
def shaK0 : List Word :=
  [0x428a2f98, 0x71374491, 0xb5c0fbcf, 0xe9b5dba5, 0x3956c25b, 0x59f111f1, 0x923f82a4, 0xab1c5ed5] ++
  [0xd807aa98, 0x12835b01, 0x243185be, 0x550c7dc3, 0x72be5d74, 0x80deb1fe, 0x9bdc06a7, 0xc19bf174] ++
  [0xe49b69c1, 0xefbe4786, 0x0fc19dc6, 0x240ca1cc, 0x2de92c6f, 0x4a7484aa, 0x5cb0a9dc, 0x76f988da] ++
  [0x983e5152, 0xa831c66d, 0xb00327c8, 0xbf597fc7, 0xc6e00bf3, 0xd5a79147, 0x06ca6351, 0x14292967]

/-- The round constants, the second half. -/
def shaK1 : List Word :=
  [0x27b70a85, 0x2e1b2138, 0x4d2c6dfc, 0x53380d13, 0x650a7354, 0x766a0abb, 0x81c2c92e, 0x92722c85] ++
  [0xa2bfe8a1, 0xa81a664b, 0xc24b8b70, 0xc76c51a3, 0xd192e819, 0xd6990624, 0xf40e3585, 0x106aa070] ++
  [0x19a4c116, 0x1e376c08, 0x2748774c, 0x34b0bcb5, 0x391c0cb3, 0x4ed8aa4a, 0x5b9cca4f, 0x682e6ff3] ++
  [0x748f82ee, 0x78a5636f, 0x84c87814, 0x8cc70208, 0x90befffa, 0xa4506ceb, 0xbef9a3f7, 0xc67178f2]

/-- The eight working words. -/
structure ShaSt where
  a : Word
  b : Word
  c : Word
  d : Word
  e : Word
  f : Word
  g : Word
  h : Word
  deriving DecidableEq, Repr

/-- The initial hash value. -/
def shaStart : ShaSt := ⟨0x6a09e667, 0xbb67ae85, 0x3c6ef372, 0xa54ff53a, 0x510e527f, 0x9b05688c, 0x1f83d9ab, 0x5be0cd19⟩

/-- A rotation right. -/
def rotr (n : Nat) (x : Word) : Word := (x >>> n) ||| (x <<< (32 - n))

/-- The message schedule behind the words so far, newest first. -/
def shaSchedule : Nat → List Word → List Word
  | 0, w => w
  | n + 1, w =>
    let at_ := fun (i : Nat) => w.getD i 0
    let s0 := rotr 7 (at_ 14) ^^^ rotr 18 (at_ 14) ^^^ (at_ 14 >>> 3)
    let s1 := rotr 17 (at_ 1) ^^^ rotr 19 (at_ 1) ^^^ (at_ 1 >>> 10)
    shaSchedule n ((at_ 15 + s0 + at_ 6 + s1) :: w)

/-- A round, with its constant and its word of the schedule. -/
def shaRound (v : ShaSt) (e : Word × Word) : ShaSt :=
  let s1 := rotr 6 v.e ^^^ rotr 11 v.e ^^^ rotr 25 v.e
  let t1 := v.h + s1 + ((v.e &&& v.f) ^^^ (~~~v.e &&& v.g)) + e.1 + e.2
  let s0 := rotr 2 v.a ^^^ rotr 13 v.a ^^^ rotr 22 v.a
  let t2 := s0 + ((v.a &&& v.b) ^^^ (v.a &&& v.c) ^^^ (v.b &&& v.c))
  ⟨t1 + t2, v.a, v.b, v.c, v.d + t1, v.e, v.f, v.g⟩

/-- A block of 64 bytes taken in. -/
def shaBlock (v : ShaSt) (b : List Byte) : ShaSt :=
  let w := (List.range 16).map (fun i => BitVec.ofNat 32 (beNat ((b.drop (4 * i)).take 4)))
  let r := ((shaK0 ++ shaK1).zip (shaSchedule 48 w.reverse).reverse).foldl shaRound v
  ⟨v.a + r.a, v.b + r.b, v.c + r.c, v.d + r.d, v.e + r.e, v.f + r.f, v.g + r.g, v.h + r.h⟩

/-- A message's blocks taken in, one after another. -/
def shaBlocks : Nat → List Byte → ShaSt → ShaSt
  | 0, _, v => v
  | n + 1, l, v => shaBlocks n (l.drop 64) (shaBlock v (l.take 64))

/-- SHA-256 of a byte string, 32 bytes. -/
def sha256 (m : List Byte) : List Byte :=
  let p := m ++ [0x80] ++ List.replicate ((119 - m.length % 64) % 64) 0 ++ beBytes 8 (8 * m.length)
  let v := shaBlocks (p.length / 64) p shaStart
  [v.a, v.b, v.c, v.d, v.e, v.f, v.g, v.h].flatMap (fun x => beBytes 4 x.toNat)

/-- HMAC-SHA-256 of a message under a key of at most 64 bytes (19 R446, R453, R458). -/
def hmac (key m : List Byte) : List Byte :=
  let k := key.take 64 ++ List.replicate (64 - key.length) 0
  sha256 (k.map (fun b => b ^^^ 0x5C) ++ sha256 (k.map (fun b => b ^^^ 0x36) ++ m))

/-- A LM-OTS typecode: bits of a digit, chains, shift of the checksum; those of R449 (RFC 8554 table 1). -/
def otsParams : Nat → Option (Nat × Nat × Nat)
  | 3 => some (4, 67, 4)
  | 4 => some (8, 34, 0)
  | _ => none

/-- An LMS typecode: the tree's height; those of R449 (RFC 8554 table 2). -/
def lmsHeight : Nat → Option Nat
  | 6 => some 10
  | 7 => some 15
  | _ => none

/-- The digits of a hash with its checksum, `p` of `w` bits (RFC 8554 sections 3.1.3, 4.4). -/
def otsDigits (w p ls : Nat) (q : List Byte) : List Nat :=
  let digits := fun (n v : Nat) => (List.range (8 * n / w)).map (fun i => v / 2 ^ (8 * n - w * (i + 1)) % 2 ^ w)
  let qs := digits 32 (beNat q)
  (qs ++ digits 2 ((qs.map (fun d => 2 ^ w - 1 - d)).sum * 2 ^ ls)).take p

/-- A chain of hashes, `n` steps on from step `j` (RFC 8554 section 4). -/
def otsChain (pre : List Byte) : Nat → Nat → List Byte → List Byte
  | 0, _, x => x
  | n + 1, j, x => otsChain pre n (j + 1) (sha256 (pre ++ beBytes 1 j ++ x))

/-- What every hash about key `q` of a tree begins with: its identifier and the number (RFC 8554 section 4). -/
def otsPre (i : List Byte) (q : Nat) : List Byte := i ++ beBytes 4 q

/-- The LM-OTS public key that a signature of a message stands for: typecode, randomizer and chains (RFC 8554 section 4.6). -/
def otsCandidate (i : List Byte) (q ty : Nat) (msg sig : List Byte) : Option (List Byte) :=
  match otsParams ty with
  | none => none
  | some (w, p, ls) =>
    let h := sha256 (otsPre i q ++ [0x81, 0x81] ++ (sig.drop 4).take 32 ++ msg)
    let y := fun (k : Nat) => (sig.drop (36 + 32 * k)).take 32
    let z := ((List.range p).zip (otsDigits w p ls h)).flatMap (fun e => otsChain (otsPre i q ++ beBytes 2 e.1) (2 ^ w - 1 - e.2) e.2 (y e.1))
    if beNat (sig.take 4) ≠ ty then none else some (sha256 (otsPre i q ++ [0x80, 0x80] ++ z))

/-- The root that a leaf's value and its path give (RFC 8554 section 5.4.2). -/
def lmsRoot (i : List Byte) : Nat → List (List Byte) → List Byte → List Byte
  | _, [], x => x
  | node, p :: t, x => lmsRoot i (node / 2) t (sha256 (i ++ beBytes 4 (node / 2) ++ [0x83, 0x83] ++ if node % 2 = 1 then p ++ x else x ++ p))

/-- Bytes of an LMS signature under a pair of typecodes: number, LM-OTS signature, typecode, path (RFC 8554 section 5.4). -/
def lmsSigLen (lms ots : Nat) : Nat :=
  match lmsHeight lms, otsParams ots with
  | some h, some (_, p, _) => 4 + (36 + 32 * p) + 4 + 32 * h
  | _, _ => 0

/-- Whether an LMS signature of a message verifies under a public key of 56 bytes: typecodes, identifier, root (RFC 8554 section 5.4.2). -/
def lmsOk (pub msg sig : List Byte) : Bool :=
  let lms := beNat (pub.take 4)
  let ots := beNat ((pub.drop 4).take 4)
  let i := (pub.drop 8).take 16
  let q := beNat (sig.take 4)
  match lmsHeight lms, otsParams ots with
  | some h, some (_, p, _) =>
    let n := 4 + 36 + 32 * p
    if sig.length ≠ lmsSigLen lms ots ∨ 2 ^ h ≤ q ∨ beNat ((sig.drop n).take 4) ≠ lms then false
    else match otsCandidate i q ots msg (sig.drop 4) with
      | none => false
      | some k =>
        let leaf := sha256 (i ++ beBytes 4 (2 ^ h + q) ++ [0x82, 0x82] ++ k)
        lmsRoot i (2 ^ h + q) ((List.range h).map (fun j => (sig.drop (n + 4 + 32 * j)).take 32)) leaf == (pub.drop 24).take 32
  | _, _ => false

/-- The levels of an HSS signature below the first: each key signs the next, the last the message (RFC 8554 section 6.3). -/
def hssLevels : Nat → List Byte → List Byte → List Byte → Bool
  | 0, pub, msg, sig => lmsOk pub msg sig
  | n + 1, pub, msg, sig =>
    let k := lmsSigLen (beNat (pub.take 4)) (beNat ((pub.drop 4).take 4))
    let next := (sig.drop k).take 56
    lmsOk pub next (sig.take k) && hssLevels n next msg (sig.drop (k + 56))

/-- Whether an HSS signature verifies under a public key of 60 bytes, of one level or two (19 R449; RFC 8554 section 6.3). What follows it is padding
(19 R453). -/
def hssOk (pub msg sig : List Byte) : Bool :=
  let l := beNat (pub.take 4)
  let k := fun (p : List Byte) => lmsSigLen (beNat (p.take 4)) (beNat ((p.drop 4).take 4))
  let top := (pub.drop 4).take 56
  let n := if l = 1 then 4 + k top else 4 + k top + 56 + k ((sig.drop (4 + k top)).take 56)
  decide (pub.length = 60 ∧ (l = 1 ∨ l = 2) ∧ beNat (sig.take 4) + 1 = l ∧ n ≤ sig.length ∧ sig.length < n + 4) && hssLevels (l - 1) top msg ((sig.take n).drop 4)

/-- Chain start `k` of key `q` of a tree, made from a seed (RFC 8554 Appendix A; 19 R458). -/
def otsSecret (i seed : List Byte) (q k : Nat) : List Byte := sha256 (otsPre i q ++ beBytes 2 k ++ [0xFF] ++ seed)

/-- The LM-OTS public key `q` of a tree made from a seed (RFC 8554 section 4.3). -/
def otsPublic (i seed : List Byte) (w p q : Nat) : List Byte :=
  sha256 (otsPre i q ++ [0x80, 0x80] ++ (List.range p).flatMap (fun k => otsChain (otsPre i q ++ beBytes 2 k) (2 ^ w - 1) 0 (otsSecret i seed q k)))

/-- A node of a tree of height `h` made from a seed, `up` levels above the leaves (RFC 8554 section 5.3). -/
def lmsNode (i seed : List Byte) (w p h : Nat) : Nat → Nat → List Byte
  | 0, node => sha256 (i ++ beBytes 4 node ++ [0x82, 0x82] ++ otsPublic i seed w p (node - 2 ^ h))
  | up + 1, node => sha256 (i ++ beBytes 4 node ++ [0x83, 0x83] ++ lmsNode i seed w p h up (2 * node) ++ lmsNode i seed w p h up (2 * node + 1))

/-- The LMS public key of a tree made from a seed (RFC 8554 section 5.3). -/
def lmsPublic (lms ots : Nat) (i seed : List Byte) : List Byte :=
  match lmsHeight lms, otsParams ots with
  | some h, some (w, p, _) => beBytes 4 lms ++ beBytes 4 ots ++ i ++ lmsNode i seed w p h h 1
  | _, _ => []

/-- A message signed with key `q` of a tree made from a seed, with a randomizer (RFC 8554 section 5.4.1). -/
def lmsSign (lms ots : Nat) (i seed c : List Byte) (q : Nat) (msg : List Byte) : List Byte :=
  match lmsHeight lms, otsParams ots with
  | some h, some (w, p, ls) =>
    let d := sha256 (otsPre i q ++ [0x81, 0x81] ++ c ++ msg)
    let y := ((List.range p).zip (otsDigits w p ls d)).flatMap (fun e => otsChain (otsPre i q ++ beBytes 2 e.1) e.2 0 (otsSecret i seed q e.1))
    beBytes 4 q ++ beBytes 4 ots ++ c ++ y ++ beBytes 4 lms
      ++ (List.range h).flatMap (fun j => lmsNode i seed w p h j (let n := (2 ^ h + q) / 2 ^ j; if n % 2 = 1 then n - 1 else n + 1))
  | _, _ => []

end Sys2Proof.Machine
end

