-- ==== Sys2Proof/Machine/Aes.lean ====
section
/-! DEFINITION. AES-256, AES key wrap and GCM (18 R421, R422; 19 R459): FIPS 197, RFC 3394 and NIST SP 800-38D, which those rules and 00 R6 name. -/

namespace Sys2Proof.Machine

/-- A byte times x in AES's field (FIPS 197). -/
def xtime (a : Byte) : Byte := (a <<< 1) ^^^ if a.msb then 0x1B else 0

/-- A product in AES's field, by the bits of the second factor, of which `n` are left. -/
def gfMul : Nat → Byte → Byte → Byte
  | 0, _, _ => 0
  | n + 1, a, b => (if b.getLsbD 0 then a else 0) ^^^ gfMul n (xtime a) (b >>> 1)

/-- A byte's inverse in AES's field, 0 for 0: its 254th power. -/
def gfInv (a : Byte) : Byte := ((List.range 6).foldl (fun (acc : Byte × Byte) _ => let q := gfMul 8 acc.1 acc.1; (q, gfMul 8 acc.2 q)) (gfMul 8 a a, gfMul 8 a a)).2

/-- AES's substitution (FIPS 197). -/
def aesSub (a : Byte) : Byte :=
  let b := gfInv a
  let rl := fun (n : Nat) => (b <<< n) ||| (b >>> (8 - n))
  b ^^^ rl 1 ^^^ rl 2 ^^^ rl 3 ^^^ rl 4 ^^^ 0x63

/-- Its inverse. -/
def aesUnsub (a : Byte) : Byte :=
  let rl := fun (n : Nat) => (a <<< n) ||| (a >>> (8 - n))
  gfInv (rl 1 ^^^ rl 3 ^^^ rl 6 ^^^ 0x05)

/-- Two byte strings added bit by bit. -/
def xorBytes (a b : List Byte) : List Byte := (a.zip b).map (fun e => e.1 ^^^ e.2)

/-- The words of the key schedule behind those so far, newest first (FIPS 197, 256-bit keys). -/
def aesSchedule : Nat → List (List Byte) → List (List Byte)
  | 0, w => w
  | n + 1, w =>
    let t := w.getD 0 []
    let i := w.length
    let t1 :=
      if i % 8 = 0 then xorBytes ((t.drop 1 ++ t.take 1).map aesSub) [(List.range (i / 8 - 1)).foldl (fun a _ => xtime a) 1, 0, 0, 0]
      else if i % 8 = 4 then t.map aesSub else t
    aesSchedule n (xorBytes (w.getD 7 []) t1 :: w)

/-- The fifteen round keys, 16 bytes each. -/
def aesKeys (k : List Byte) : List (List Byte) :=
  let w := (aesSchedule 52 ((List.range 8).map (fun i => (k.drop (4 * i)).take 4)).reverse).reverse
  (List.range 15).map (fun r => ((w.drop (4 * r)).take 4).flatten)

/-- Rows shifted; `back` the other way. -/
def aesShift (back : Bool) (x : List Byte) : List Byte :=
  (List.range 16).map (fun i => x.getD (i % 4 + 4 * ((i / 4 + if back then 4 - i % 4 else i % 4) % 4)) 0)

/-- Columns multiplied by a circulant matrix. -/
def aesMix (m : List Byte) (x : List Byte) : List Byte :=
  (List.range 16).map (fun i => (List.range 4).foldl (fun a j => a ^^^ gfMul 8 (x.getD (i / 4 * 4 + j) 0) (m.getD ((j + 4 - i % 4) % 4) 0)) 0)

/-- A block encrypted under a 256-bit key (FIPS 197). -/
def aesEnc (k x : List Byte) : List Byte :=
  let ks := aesKeys k
  let mid := ((ks.drop 1).take 13).foldl (fun a r => xorBytes (aesMix [2, 3, 1, 1] (aesShift false (a.map aesSub))) r) (xorBytes x (ks.getD 0 []))
  xorBytes (aesShift false (mid.map aesSub)) (ks.getD 14 [])

/-- A block decrypted under a 256-bit key (FIPS 197). -/
def aesDec (k x : List Byte) : List Byte :=
  let ks := aesKeys k
  let mid := ((ks.drop 1).take 13).reverse.foldl (fun a r => aesMix [14, 11, 13, 9] (xorBytes ((aesShift true a).map aesUnsub) r)) (xorBytes x (ks.getD 14 []))
  xorBytes ((aesShift true mid).map aesUnsub) (ks.getD 0 [])

/-- The steps of an unwrap, from step `t` down: the check value and the blocks (RFC 3394 section 2.2.2). -/
def unwrapSteps (k : List Byte) : Nat → List Byte → List (List Byte) → List Byte × List (List Byte)
  | 0, a, r => (a, r)
  | t + 1, a, r =>
    let i := t % r.length
    let b := aesDec k (xorBytes a (beBytes 8 (t + 1)) ++ r.getD i [])
    unwrapSteps k t (b.take 8) (r.set i (b.drop 8))

/-- A key unwrapped under a wrapping key; none where the check fails (18 R421, 19 R459; RFC 3394). -/
def unwrapKey (k w : List Byte) : Option (List Byte) :=
  let n := w.length / 8 - 1
  let r := unwrapSteps k (6 * n) (w.take 8) ((List.range n).map (fun i => (w.drop (8 * (i + 1))).take 8))
  if k.length = 32 ∧ 2 ≤ n ∧ w.length % 8 = 0 ∧ r.1 = List.replicate 8 0xA6 then some r.2.flatten else none

/-- A product in GCM's field, by the bits of the first factor, of which `n` are left, the most significant first (SP 800-38D). -/
def ghMul (x : Nat) : Nat → Nat → Nat
  | 0, _ => 0
  | n + 1, v => (if natBit x n then v else 0) ^^^ ghMul x n ((v / 2) ^^^ if natBit v 0 then 0xE1 * 2 ^ 120 else 0)

/-- Blocks of 16 bytes hashed, the last filled with zeros (SP 800-38D). -/
def ghash (h : Nat) : Nat → List Byte → Nat → Nat
  | 0, _, y => y
  | n + 1, l, y => ghash h n (l.drop 16) (ghMul (y ^^^ beNat (l.take 16 ++ List.replicate (16 - l.length) 0)) 128 h)

/-- The key stream of `n` blocks from a counter on. -/
def gcmStream (k iv : List Byte) (n c : Nat) : List Byte := (List.range n).flatMap (fun i => aesEnc k (iv ++ beBytes 4 (c + i)))

/-- GCM-AES-256's authentication tag of data that it encrypts, under a key and an IV of 12 bytes, with data only authenticated (18 R421; SP 800-38D). -/
def gcmTag (k iv aad plain : List Byte) : List Byte :=
  let n := (plain.length + 15) / 16
  let c := xorBytes plain (gcmStream k iv n 2)
  let h := beNat (aesEnc k (List.replicate 16 0))
  let y := ghash h n c (ghash h ((aad.length + 15) / 16) aad 0)
  xorBytes (beBytes 16 (ghMul (y ^^^ (8 * aad.length * 2 ^ 64 + 8 * c.length)) 128 h)) (gcmStream k iv 1 1)

end Sys2Proof.Machine
end

