-- ==== Sys2Proof/Machine/Reset.lean ====
section
/-! DEFINITION. Resets: of one block (02 R491), of a switched power domain (16 R388), of the whole device (19 R443). -/

namespace Sys2Proof.Machine

/-- The newest valid settings record of whose body a function answers (19 R454: the one with the highest seq, which is the last appended). -/
def newest {α : Type} (f : SetBody → Option α) (s : State) : Option α :=
  (s.settings.recs.filter (fun r => r.valid)).reverse.findSome? (fun r => f r.body)

/-- A 32-bit serial number is not behind another (19 R446, R453). -/
def serialGe (a b : Nat) : Bool := decide ((a + 2 ^ 32 - b % 2 ^ 32) % 2 ^ 32 < 2 ^ 31)

/-- The record in force of a kind that the host staged or that was made with the device: the valid one with the highest seq (19 R454). -/
def inForce (kind : Nat) (s : State) : Option SetRec :=
  (s.settings.recs.filter (fun r => r.valid && r.kind == kind)).foldl (fun (best : Option SetRec) r =>
    match best with | some b => if serialGe r.seq b.seq then some r else best | none => some r) none

/-- Its body. -/
def newestKind (kind : Nat) (s : State) : Option (List Byte) := (inForce kind s).bind (fun r => match r.body with | .bytes l => some l | _ => none)

/-- An entry of the record in force of a kind that the host stages (19 R454). -/
def settingEntry (kind item : Nat) (s : State) : Option Nat := (newestKind kind s).bind (Config.settingEntry kind item)

/-- Keys of a page, but EVENT_SEQ, which a soft reset keeps (02 R44, R491). -/
def onPage (c i k : Nat) : Bool := decide (pageKey c i ≤ k ∧ k < pageKey c i + 0x1000)

/-- Registers that show a state which a soft reset of their block does not touch: EVENT_SEQ; the switched domains, the coolant and guard_mv of
the arbiter; a stack's configuration; the running image and the boot's result (02 R491). -/
def keptReg (c i off : Nat) : Bool :=
  off == 0x1C || (c == 13 && (off == 0x78 || off == 0x60 || decide (0x80 ≤ off ∧ off ≤ 0x8C))) || (c == 4 && off == 0x40)
    || (c == 15 && i == 0 && (off == 0x40 || off == 0x44))

/-- A page's registers and counters at their reset values, its armed injections dropped (02 R46, R491). -/
def erasePage (c i : Nat) (s : State) : State :=
  { s with regs := s.regs.filter (fun e => !onPage c i e.1 || keptReg c i (e.1 - pageKey c i))
           ctr := s.ctr.filter (fun e => !onPage c i e.1)
           ev := { s.ev with armed := s.ev.armed.filter (fun k => k / 32 != pageKey c i / 0x1000) } }

/-- A Quill's fmax: as persistent settings hold it, else as the power record has it; 1,500 MHz while no record is in use (16 R371, R373; 19
R454). -/
def loadFmax (q : Nat) (s : State) : Nat :=
  match s.pwr.record with
  | none => 1500
  | some r => (newest (fun b => match b with | .fmax p m => if p = q then some m else none | _ => none) s).getD (1500 + 25 * byteAt r (24 + q))

/-- A Quill as after power-on, with its Nib map and fmax loaded (02 R491; 05 R136). -/
def freshQuill (q : Nat) (s : State) : Quill :=
  let v : Quill := { Quill.init with fmax := loadFmax q s, freed := s.time.clk }
  match newest (fun b => match b with | .nibs p m => if p = q then some m else none | _ => none) s with
  | some m => { v with failed := m.failed, spared := m.spared, nsInUse := m.nsInUse, nsFailed := m.nsFailed, withdrawn := m.withdrawn
                       st := if m.withdrawn then .withdrawn else .free }
  | none => v

/-- A bank of a scratchpad as a soft reset leaves it: power state and spare rows stay (02 R491). -/
def Bank.soft (b : Bank) : Bank := { b with heldOp := false, req := 0xFFFF, pos := 0, passes := 0 }

/-- A scratchpad controller after a soft reset: no window; lines that await their fill still await it, held ones too, since hold_fill is 0;
errors in the arrays stay (02 R491; 09 R227, R229). -/
def Spad.soft (p : Spad) : Spad :=
  { p with wins := [], banks := p.banks.map (fun e => (e.1, e.2.soft)), pendShares := p.pendShares ++ p.heldShares, heldShares := []
           pendUnits := p.pendUnits ++ p.heldUnits, heldUnits := [], wb := [], rowsHit := [] }

/-- A memory controller after a soft reset: errors in the array, spared rows and the training record stay (02 R491). -/
def Mc.soft (m : Mc) : Mc :=
  { m with selfRef := false, filling := false, wb := [], rowsHit := [], patrol := 0, delay := [], postponed := [], refreshed := [], badRows := []
           restoreFailed := false, refEnd := [], lastSlot := [], pend := [], forced := [], patrolAt := 0 }

/-- The queue engine's cached descriptors written back to their table (02 R491). -/
def qeFlush (s : State) : State := if qeBase s = 0 then s else s.qe.cache.foldl (fun acc e => wrBytes (qeBase s + 64 * e.1) e.2.bytes acc) s

/-- Everything a block holds besides its registers, as after power-on with its domain on; instance 0 of the ring ports holds the ring-wide state,
and instance 0 of the host ports the session (02 R491; 17, 18: the register pages). -/
def resetTables (c i : Nat) (s : State) : State :=
  match c with
  | 1 => { s with chans := s.chans.filter (fun e => e.1 / 8 != i) }
  | 2 => setQuill i (freshQuill i s) s
  | 3 => setSpad i (spad i s).soft s
  | 4 => setMc i (mc i s).soft s
  | 5 =>
    let r := { s.ring with ports := Tbl.erase s.ring.ports i }
    if i ≠ 0 then { s with ring := r }
    else
      { s with time := { s.time with ring := 0 }
               ring := { r with peers := [], down := [], enumOn := false, found := [], placed := [], discAt := 0, discovers := 0
                                firstUp := r.firstUp.map (fun _ => s.time.clk), noManager := false, lastSync := none } }
  | 6 => { s with qe := State.reset.qe, cc := CcState.init }
  | 7 => { s with car := { s.car with streams := [], groups := [], samples := [], feeds := [] } }
  | 8 => { s with car := { s.car with vcs := s.car.vcs.filter (fun e => e.1 / 16 != i), phy := s.car.phy.filter (fun k => k != i) } }
  | 9 => { s with fn := FnState.init }
  | 10 => if i = 0 then { s with tr := TrState.init } else { s with tio := { TioState.init with stopN := s.tio.stopN } }
  | 11 => { s with cans := Tbl.erase s.cans i }
  | 12 => { s with sn := SnState.init }
  | 13 => { s with pwr := { PwrState.init with record := s.pwr.record, lostAt := s.pwr.lostAt, flowSince := s.pwr.flowSince, tableDone := s.pwr.tableDone } }
  | 14 =>
    let h := s.host
    let h1 := { h with peers := Tbl.erase h.peers i, prio := h.prio.filter (fun c => c.port != i), data := h.data.filter (fun c => c.port != i)
                       tokens := Tbl.erase h.tokens i, secys := Tbl.erase h.secys i, lines := Tbl.erase h.lines i }
    { s with host := if i = 0 then { h1 with dlv := [], accepted := [], done := [] } else h1 }
  | 15 => (match i with
    | 0 => { s with sec := { s.sec with stage := none, swaps := [] } }
    | 1 => { s with sec := { s.sec with treeGen := false, nonce := none } }
    | 2 => { s with settings := { s.settings with compacting := false } }
    | _ => s)
  | _ => s

/-- A block reset: the queue engine writes its descriptors back first (02 R491). -/
def resetBlock (c i : Nat) (s : State) : State := erasePage c i (resetTables c i (if c = 6 then qeFlush s else s))

/-- The blocks of a switched domain: class and instance (01 R24, 02 R43). -/
def domainBlocks (d : Nat) : List (Nat × Nat) :=
  if d < 48 then (1, d) :: (List.range 4).map (fun k => (2, 4 * d + k))
  else if d < 96 then [(3, d - 48)]
  else if d < 104 then [(4, d - 96)]
  else if d < 110 then [(5, d - 104)]
  else if d = 110 then (7, 0) :: (List.range 12).map (fun k => (8, k))
  else [(9, 0)]

/-- The spare rows of a scratchpad as persistent settings hold them; a bank with none left whose Quill was withdrawn is retired (09 R232; 19
R454; DEDUCED, log entry 48). -/
def loadSpad (n : Nat) (s : State) : State :=
  match newest (fun b => match b with | .spadRows m l => if m = n then some l else none | _ => none) s with
  | some l =>
    let bank := fun b =>
      let left := 32 - (l.filter (fun r => r / 8192 == b)).length
      ({ spares := left, retired := left == 0 && (quill (4 * n + b / 4) s).withdrawn } : Bank)
    setSpad n { spad n s with spared := l, banks := (List.range 16).map (fun b => (b, bank b)) |>.filter (fun e => decide (e.2 ≠ ({} : Bank))) } s
  | none => s

/-- A domain that has come on starts from reset; the banks of a scratchpad then wake (16 R388). -/
def domainReset (d : Nat) (s : State) : State :=
  let s1 := (domainBlocks d).foldl (fun acc b => resetBlock b.1 b.2 acc) s
  if 48 ≤ d ∧ d < 96 then
    let n := d - 48
    let p := spad n s1
    loadSpad n (setSpad n { p.soft with banks := [], pendShares := [], pendUnits := [], single := [], double := [], planted := [], lastWr := none } s1)
  else s1

/-- A device's fixed parts and what persistent settings load at power-on: repair maps, training records, fmax, inline_ecc (02 R491; 19 R454). -/
def loadMaps (s : State) : State :=
  let s1 := (List.range 192).foldl (fun acc q => let v := freshQuill q acc; setQuill q { v with freed := 0 } acc) s
  let s2 := (List.range 48).foldl (fun acc n => loadSpad n acc) s1
  let mrows := fun (n : Nat) => newest (fun b => match b with | .mcRows m l => if m = n then some l else none | _ => none) s
  let s3 := (List.range 8).foldl (fun acc n => match mrows n with
    | some l => setMc n { mc n acc with spared := l
                                        spares := l.foldl (fun t k => Tbl.set 8 t (k / 65536) (Tbl.get 8 t (k / 65536) - 1)) [] } acc
    | none => acc) s2
  let trained := fun (n : Nat) => newest (fun b => match b with | .train m serial temp => if m = n then some (serial, temp) else none | _ => none) s
  let s4 := (List.range 8).foldl (fun acc n => setMc n { mc n acc with trainRec := trained n } acc) s3
  let ecc := ((settingEntry 2 0 s).getD 1) % 2
  let s5 := (List.range 8).foldl (fun acc n => wrField 4 n 0x40 0 0 ecc acc) s4
  let guard := (newest (fun b => match b with | .guard g => some g | _ => none) s).getD 0
  wrField 13 0 0x60 31 24 guard s5

/-- A label of key derivation, distinct for each key (19 R458). -/
def keyLabel (n : Nat) : List Byte := BitVec.ofNat 8 n :: Config.labelRest n

/-- The settings key (19 R458). -/
def settingsKey (x : SecState) : List Byte := hmac x.secret (keyLabel 0)

/-- The attestation seed (19 R458). -/
def attestSeed (x : SecState) : List Byte := hmac x.secret (keyLabel 1)

/-- The HMAC of a copy of the signature state; its place in the bytes is the model's (19 R461; DESIGN CHOICE, log entry 6). -/
def sigMac (x : SecState) (c : SigCopy) : List Byte := hmac (settingsKey x) (leBytes 4 c.seq ++ leBytes 4 c.top ++ leBytes 4 c.next)

/-- Whether a copy is valid: one was written, and its HMAC holds (19 R461). -/
def sigValid (x : SecState) (c : SigCopy) : Bool := !c.mac.isEmpty && c.mac == sigMac x c

/-- The signature state in force: the valid copy with the higher sequence number (19 R461). -/
def sigInForce (x : SecState) : Option SigCopy :=
  if sigValid x x.sig0 && (!sigValid x x.sig1 || serialGe x.sig0.seq x.sig1.seq) then some x.sig0 else if sigValid x x.sig1 then some x.sig1 else none

/-- What outlives every reset: the flash, the copies in it, and the fuses (19 R445, R451, R459, R461). -/
def SecState.cold (x : SecState) (clk : Nat) : SecState :=
  { SecState.init with flash := x.flash, desc0 := x.desc0, desc1 := x.desc1, sig0 := x.sig0, sig1 := x.sig1, main := x.main, recov := x.recov
                       owners := x.owners, colophon := x.colophon, fuses := x.fuses, secret := x.secret, refill := clk
                       bottom := (match sigInForce x with | some c => c.next | none => 0) }

/-- Registers that a reset other than the pin's keeps: the straps and the bank levels latched at RESET_N release, and the level of the
coolant pin (02 GLB_STRAPS; 13 TIO_BANK_LEVEL; 16 PWR_COOL). -/
def latched (s : State) (t : State) : State :=
  wrField 13 0 0x78 1 1 (rdField 13 0 0x78 1 1 s)
    (wrReg 10 1 0xC0 (rdReg 10 1 0xC0 s) (wrField 0 0 0x40 9 9 (rdField 0 0 0x40 9 9 s) (wrReg 0 0 0x48 (rdReg 0 0 0x48 s) t)))

/-- The whole device reset with a cause bit, after SAFE_OUT has dropped and the PWM pins are at their safe levels: every block at its reset
values, LPDDR5X not kept (DESIGN CHOICE, log entry 5), causes accumulated unless it is a power-on reset (02 GLB_RESET_CAUSE; 19 R443). Commands that wait
stay, and so does model time. -/
def resetDevice (bit hold : Nat) (s : State) : State :=
  let causes : Word := if bit = 0 then 1 else rdReg 0 0 0x44 s ||| BitVec.ofNat 32 (2 ^ bit)
  let t : State :=
    { State.reset with
      pending := s.pending
      freeCtr := s.freeCtr
      time := { State.reset.time with clk := s.time.clk }
      settings := { s.settings with waiting := [], compacting := false }
      sec := { s.sec.cold s.time.clk with hold := hold }
      tio := { TioState.init with stopN := s.tio.stopN }
      pwr := { PwrState.init with flowSince := s.pwr.flowSince, temps := if hold = 1 then s.pwr.temps else [] } }
  loadMaps (wrReg 0 0 0x44 causes (latched s t))

end Sys2Proof.Machine
end

