-- ==== Sys2Proof/Machine/Power.lean ====
section
/-! DEFINITION. The power arbiter's commands: grants, rails, reconciliation, droop, temperature, coolant, domains (16). -/

namespace Sys2Proof.Machine

/-- Modelled powers of a period, in mW: of each Quill, of each job's DMA bytes, memory blocks and layers, of everything else, and of each rail. -/
structure PwrFig where
  quills : List (Nat × Nat)
  jobs : List (Nat × Nat)
  rest : Nat
  rails : List Nat
  deriving DecidableEq, Repr

/-- The energy of one event of an activity at v_ref, in fJ: e_coef[k] of the power record for activity k. The spec lists nine activities, taken
in their order as 0 to 8, and gives the other coefficients no activity: 9 is taken for a DMA byte, 10 for an idle cycle, 11 for a MAC of a layer.
Without a record the typical figures stand (16 R371, R378; DESIGN CHOICE, log entry 45). -/
def coefFj (s : State) (k : Nat) : Nat :=
  match s.pwr.record with
  | some r => leField r (216 + 2 * k) 2
  | none => ([140, 250, 450, 900, 3200, 800, 130000, 1500, 2000000] : List Nat).getD k 0

/-- v_ref, in mV: 750 (16 R371). -/
def vRef (s : State) : Nat := match s.pwr.record with | some r => max 1 (leField r 2 2) | none => 750

/-- An energy in fJ at v_ref over a period of 10 µs as a power in mW at the present VDD_Q, by the square of the voltage (16 R378; DEDUCED, log
entry 45). -/
def fjToMw (fj : Nat) (s : State) : Nat := fj * vddq s ^ 2 / (vRef s ^ 2 * 10000000)

/-- An Inkwell's leakage, in mW: leak[] between its values at 25 and 110 °C at the Inkwell's temperature, by the cube of the voltage; none without a
record or while the Inkwell's logic is off, and 25 °C while its sensor has not been read (16 R378; DESIGN CHOICE, log entry 45). -/
def leakMw (n : Nat) (s : State) : Nat :=
  match s.pwr.record with
  | none => 0
  | some r =>
    if domainOn n s = false then 0
    else
      let a : Int := leField r (256 + 4 * n) 2
      let b : Int := leField r (258 + 4 * n) 2
      let t := (tempOf n s).getD 25
      ((a * 85 + (b - a) * (t - 25)).toNat * vddq s ^ 3) / (85 * vRef s ^ 3)

/-- The coefficient of what a unit moves for a job. -/
def moveCoef (unit : Nat) : Nat := if unit < 48 then 9 else if unit < 56 then 8 else 11

/-- The modelled energy of a Quill's counts, in fJ (16 R378). -/
def quillFj (q : Nat) (s : State) : Nat :=
  ((s.act.quills.filter (fun e => e.1 / 16 == q)).map (fun e => e.2 * coefFj s (if e.1 % 16 = 8 then 10 else e.1 % 16))).sum

/-- The modelled energy of what was moved or computed for a job, in fJ (16 R378, R379). -/
def jobFj (id : Nat) (s : State) : Nat :=
  ((s.act.moves.filter (fun e => e.1 % 65536 == id)).map (fun e => e.2 * coefFj s (moveCoef (e.1 / 65536)))).sum

/-- The model's powers of the period just ended: from the counts, the coefficients and the voltage, and each Inkwell's leakage, which is no job's
(16 R378, R379). -/
def figures (a : PwrAct) (s : State) : PwrFig :=
  let qs := (s.act.quills.map (fun e => e.1 / 16)).eraseDups
  let ids := ((s.act.moves.map (fun e => e.1 % 65536)).eraseDups).filter (fun id => id != 0xFFFF)
  { quills := qs.map (fun q => (q, fjToMw (quillFj q s) s)), jobs := ids.map (fun id => (id, fjToMw (jobFj id s) s))
    rest := a.rest + fjToMw (jobFj 0xFFFF s) s + ((List.range 48).map (fun n => leakMw n s)).sum, rails := a.rails }

/-- The model with the injected offset of 20% in place (16 R390). -/
def offsetAct (a : PwrFig) (s : State) : PwrFig :=
  if s.pwr.offset = false then a
  else
    let up := fun (n : Nat) => n * 6 / 5
    { quills := a.quills.map (fun e => (e.1, up e.2)), jobs := a.jobs.map (fun e => (e.1, up e.2)), rest := up a.rest, rails := a.rails.map up }

/-- Modelled power of a Quill in a period, mW. -/
def actQuill (a : PwrFig) (q : Nat) : Nat := ((a.quills.filter (fun e => e.1 == q)).map (fun e => e.2)).sum

/-- Modelled power of a job's DMAs, memory blocks and layers, mW. -/
def actMoved (a : PwrFig) (id : Nat) : Nat := ((a.jobs.filter (fun e => e.1 == id)).map (fun e => e.2)).sum

/-- Modelled power of all Quills, and of the device, mW. -/
def actQuills (a : PwrFig) : Nat := (a.quills.map (fun e => e.2)).sum

/-- The device's modelled power, mW. -/
def actTotal (a : PwrFig) : Nat := actQuills a + (a.jobs.map (fun e => e.2)).sum + a.rest

/-- A job's modelled power: its Quills of both copies and what its requests move (16 R379). -/
def actJob (a : PwrFig) (j : JobRec) : Nat := (j.quills.map (actQuill a)).sum + actMoved a j.d.id

/-- Tallies and draws of a period: 1 mW for 10 µs is 10 nJ (16 R379, R380). -/
def tally (a : PwrFig) (s : State) : State :=
  let live := s.jobs.filter (fun j => j.holds)
  let mine := (live.map (actJob a)).sum
  let s1 := { s with jobs := s.jobs.map (fun j => if j.holds then { j with energy := j.energy + scaled (10 * actJob a j) s } else j)
                     pwr := { s.pwr with draws := live.map (fun j => (j.d.id, scaled (actJob a j) s)) } }
  addCtr 13 0 0xA8 (scaled (10 * (actTotal a - mine)) s) s1

/-- Divergence and agreement of a period, with their events (16 R381). -/
def diverge (m x : Nat) (s : State) : State :=
  let big := max m x
  let bad := decide (15 * big < 100 * (max m x - min m x))
  let from_ := s.time.clk - 10 * oneUs
  let p := { s.pwr with divSince := if bad then some (s.pwr.divSince.getD from_) else none
                        agreeSince := if bad then none else some (s.pwr.agreeSince.getD from_)
                        winMeas := s.pwr.winMeas + x, winModel := s.pwr.winModel + m, winDiv := s.pwr.winDiv || bad }
  let s1 := wrField 13 0 0x50 1 1 (b2n bad) (wrField 13 0 0x50 15 8 (if big = 0 then 0 else min ((max m x - min m x) * 100 / big) 255) { s with pwr := p })
  let held : Option Nat → Bool := fun o => match o with | some t => decide (t + oneMs < s.time.clk) | none => false
  if p.divergent = false ∧ held p.divSince = true then
    raise { c := 13, i := 0, bit := 7, code := 0x6D02, payload := min (m / 100) 0xFFFF + min (x / 100) 0xFFFF * 2 ^ 16 + injFlag s.pwr.offset }
      { s1 with pwr := { p with divergent := true } }
  else if p.divergent = true ∧ held p.agreeSince = true then
    raise { c := 13, i := 0, bit := 8, code := 0x0D00, payload := min (s.pwr.rNum * 16384 / max s.pwr.rDen 1) 0xFFFF } { s1 with pwr := { p with divergent := false } }
  else s1

/-- A deterministic job's draw against its reservation: ten periods in a row raise RES_EXCEEDED, at most once a millisecond (16 R369). -/
def checkReserve (j : JobRec) (s : State) : State :=
  let draw := Tbl.get 0 s.pwr.draws j.d.id
  let n := if j.reserved < draw then Tbl.get 0 s.pwr.excess j.d.id + 1 else 0
  let s1 := { s with pwr := { s.pwr with excess := Tbl.set 0 s.pwr.excess j.d.id (min n 10) } }
  if n < 10 then s1
  else raiseRated (0xD300000 + j.d.id) oneMs
    { c := 13, i := 0, bit := 5, code := 0x6D00, job := j.d.id, payload := j.d.id + min (draw / 100) 0xFFFF * 2 ^ 16 + j.d.power * 2 ^ 32 } s1

/-- Grants for the next period (16 R366). -/
def newGrants (a : PwrFig) (dev : Nat) (s : State) : Tbl Nat :=
  let live := s.jobs.filter (fun j => j.live)
  let thr := live.filter (fun j => !j.d.det)
  let det := live.filter (fun j => j.d.det)
  let platform := dev - scaled (actQuills a) s
  let cap := rdField 13 0 0x40 15 0 s * 100
  let avail : Int := (cap : Int) - (max (rdField 13 0 0x44 15 0 s * 100) platform : Nat)
    - ((det.map (fun j => max j.reserved (Tbl.get 0 s.pwr.draws j.d.id))).sum : Nat) - ((thr.map (fun j => j.reserved)).sum : Nat)
  let demand := fun (id : Nat) => match thr.find? (fun j => j.d.id == id) with
    | some j => (j.quills.map (fun q => scaled (actQuill a q) s * fmaxNow q s / max (quill q s).mhz 1)).sum
    | none => 0
  grantClasses thr demand avail

/-- VDD_Q's setpoint and its source (16 R372, PWR_VOLT). -/
def setVddq (mv : Nat) (s : State) : State :=
  wrField 13 0 0x60 17 16 (if s.pwr.record.isNone then 0 else if s.pwr.recovery.isSome then 2 else 1) (wrField 13 0 0x60 15 0 mv s)

/-- The clocks of the next period, and the voltage they need: clocks that fall fall first; those that rise wait for a voltage that must rise
(16 R366, R368, R372). -/
def newClocks (a : PwrFig) (s : State) : State :=
  let want : List (Nat × Nat) := (List.range 192).map (fun q => (q, nextClock q (scaled (actQuill a q) s) s))
  let top := want.foldl (fun m e => max m e.2) 1500
  let need := if s.pwr.record.isNone then vddq s else min (volts top s) 950
  let set := fun (l : List (Nat × Nat)) (t : State) => l.foldl (fun acc e =>
    if (quill e.1 acc).mhz = e.2 then acc else setQuill e.1 { quill e.1 acc with mhz := e.2 } acc) t
  if vddq s < need then
    let up := want.filter (fun e => decide ((quill e.1 s).mhz < e.2))
    let s1 := set (want.filter (fun e => decide (e.2 < (quill e.1 s).mhz))) s
    setVddq need { s1 with pwr := { s1.pwr with waiting := up } }
  else setVddq need (set want { s with pwr := { s.pwr with waiting := [] } })

/-- CAP_EXCEEDED: the device is above its cap with every throughput job down to its reservation (16 R369). -/
def checkCap (dev : Nat) (s : State) : State :=
  let thr := s.jobs.filter (fun j => j.live && !j.d.det)
  let cap := rdField 13 0 0x40 15 0 s * 100
  if dev ≤ cap ∨ thr.any (fun j => decide (j.reserved < Tbl.get j.reserved s.pwr.grants j.d.id)) = true then s
  else raiseRated 0xD40000 oneMs { c := 13, i := 0, bit := 6, code := 0x6D01, payload := min (dev / 100) 0xFFFF } s

/-- GRANT_PERIOD: a period of 10 µs ends, and its counts are taken (16 R366, R369, R370, R378, R379, R381). -/
def execGrantPeriod (act : PwrAct) (s : State) : Out :=
  .next (
    if blockEnabled 13 0 s = false then s
    else
      let s0 := advanceToDev ((devNow s / 10000 + 1) * 10000) s
      let a := offsetAct (figures act s0) s0
      let m := actTotal a
      let x := measured a.rails s0
      let s1 := diverge m x (tally a { s0 with pwr := { s0.pwr with figures := a.rails }, act := {} })
      let dev := if s1.pwr.divergent then max m x else scaled m s1
      let s2 := { s1 with pwr := { s1.pwr with overpower := s1.pwr.overpower && decide (580000 ≤ x) } }
      let s3 := checkCap dev ((s2.jobs.filter (fun j => j.live && j.d.det)).foldl (fun acc j => checkReserve j acc) s2)
      let s4 := newClocks a { s3 with pwr := { s3.pwr with grants := newGrants a dev s3 } }
      let pair := fun (hi lo : Nat) => BitVec.ofNat 32 (min (hi / 100) 0xFFFF * 65536 + min (lo / 100) 0xFFFF)
      showRecon (wrReg 13 0 0x48 (pair (x - scaled (actQuills a) s4) x) (wrReg 13 0 0x4C (pair (actQuills a) m) s4)))

/-- VOLTAGE_REACHED: the regulator reports VDD_Q at its setpoint, and the clocks that waited rise (16 R368). -/
def execVoltageReached (s : State) : Out :=
  .next (s.pwr.waiting.foldl (fun acc e => setQuill e.1 { quill e.1 acc with mhz := e.2 } acc) { s with pwr := { s.pwr with waiting := [] } })

/-- REG_FAULT (16 R364, R390). -/
def railFault (k : Nat) (pmbus inj : Bool) (s : State) : State :=
  showRecon (raise { c := 13, i := 0, bit := 9, code := 0x6D03, ctx := k, payload := k + 8 * b2n pmbus + injFlag inj }
    (setRail k { pwrRail k s with missing := true } s))

/-- RAIL_READING: a regulator's readback; an armed injection makes the next one of VDD_M missing (16 R364, R390). -/
def execRailReading (k mv mw : Nat) (s : State) : Out :=
  .next (
    if 5 ≤ k then s
    else if k = 2 ∧ armed 13 0 9 s = true then railFault 2 false true (disarm 13 0 9 s)
    else showRecon (setRail k { mv := mv % 65536, mw := mw, read := some s.time.clk, missing := false } s))

/-- RAIL_TIMEOUT: a rail's reading becomes older than 1 ms (16 R364). -/
def execRailTimeout (k : Nat) (pmbus : Bool) (s : State) : Out :=
  .next (
    let r := pwrRail k s
    if 5 ≤ k ∨ r.missing = true then s else railFault k pmbus false (advanceTo (r.read.getD 0 + oneMs) s))

/-- RECON_WINDOW: a window of 1 ms of device time ends; r follows from it unless a period in it diverged or a rail is missing (16 R380). -/
def execReconWindow (s : State) : Out :=
  .next (
    let s1 := advanceToDev ((devNow s / 1000000 + 1) * 1000000) s
    let p := s1.pwr
    let ok := !p.winDiv && !railMissing s1 && decide (p.winModel ≠ 0)
    showRecon { s1 with pwr := { p with rNum := if ok then p.winMeas else p.rNum, rDen := if ok then p.winModel else p.rDen
                                        winMeas := 0, winModel := 0, winDiv := false } })

/-- PWR_CAP written: 150.0 to 600.0 W, and at least the allowance and the reservations (16 R365). -/
def wrCap (v : Word) (s : State) : State :=
  let n := v.field 15 0
  if 1500 ≤ n ∧ n ≤ 6000 ∧ rdField 13 0 0x44 15 0 s + powerReserved s ≤ n then plainWrite 13 0 0x40 v s else pwrRefuse 0x40 v s

/-- PWR_ALLOWANCE written: 30.0 to 200.0 W, with the same bound on the cap (16 R365). -/
def wrAllowance (v : Word) (s : State) : State :=
  let n := v.field 15 0
  if 300 ≤ n ∧ n ≤ 2000 ∧ n + powerReserved s ≤ rdField 13 0 0x40 15 0 s then plainWrite 13 0 0x44 v s else pwrRefuse 0x44 v s

/-- PWR_DROOP_CTRL written: l1_mv 20 to 100, l2_mv l1_mv + 10 to 150 (16 PWR_DROOP_CTRL). -/
def wrDroopCtrl (v : Word) (s : State) : State :=
  if 20 ≤ v.field 7 0 ∧ v.field 7 0 ≤ 100 ∧ v.field 7 0 + 10 ≤ v.field 15 8 ∧ v.field 15 8 ≤ 150 then plainWrite 13 0 0x64 v s else pwrRefuse 0x64 v s

/-- PWR_THERM_CTRL written: throttle_c 85 to 105; another value is refused as one out of range (16 R384; DEDUCED, log entry 37). -/
def wrThermCtrl (v : Word) (s : State) : State := if 85 ≤ v.field 7 0 ∧ v.field 7 0 ≤ 105 then plainWrite 13 0 0x68 v s else pwrRefuse 0x68 v s

/-- CAP_WRITE (16 R365). -/
def execCapWrite (r : Req) (v : Nat) (s : State) : Out := .next (onReg r 13 0 0x40 (wrCap (BitVec.ofNat 32 v)) s)

/-- ALLOWANCE_WRITE (16 R365). -/
def execAllowanceWrite (r : Req) (v : Nat) (s : State) : Out := .next (onReg r 13 0 0x44 (wrAllowance (BitVec.ofNat 32 v)) s)

/-- OVERPOWER: more than 600 W measured for 100 µs holds throughput Quills at 300 MHz (16 R370). -/
def execOverpower (s : State) : Out :=
  .next (
    if measured s.pwr.figures s ≤ 600000 then s
    else
      let s1 := advance (100 * oneUs) s
      (List.range 192).foldl (fun acc q => if (throughput q acc).isSome ∧ 300 < (quill q acc).mhz then setQuill q { quill q acc with mhz := 300 } acc else acc)
        { s1 with pwr := { s1.pwr with overpower := true, waiting := s1.pwr.waiting.filter (fun e => (throughput e.1 s1).isNone) } })

/-- DROOP_DETECT: a detector of an Inkwell, or of VDD_C (site 48), crosses its level-1 or level-2 threshold (16 R376, R377). -/
def execDroopDetect (site level : Nat) (s : State) : Out := .next (if 48 < site ∨ level = 0 ∨ 2 < level then s else droopOn site level false s)

/-- DROOP_END: 64 mesh cycles after the rail rose above the level-1 threshold (16 R376). -/
def execDroopEnd (site : Nat) (s : State) : Out :=
  .next (match Tbl.find? s.pwr.droops site with | some d => droopOff site (advanceTo (d.start + 128) s) | none => s)

/-- A sensor's reading put among the latest. -/
def setTemp (k : Nat) (t : Int) (s : State) : State := { s with pwr := { s.pwr with temps := Tbl.put s.pwr.temps k t } }

/-- TEMP_READING: junction sensor 0 to 63, or stack 64 to 71, in °C. A device that a thermal trip holds in reset watches its trip comparators
only, and leaves the hold when each reads below 100 °C (16 R383, R384). -/
def execTempReading (k temp : Nat) (s : State) : Out :=
  .next (
    let t := signed 8 temp
    if 72 ≤ k then s
    else if s.sec.hold = 1 then
      let s1 := setTemp k t s
      if s1.pwr.temps.all (fun e => decide (64 ≤ e.1) || decide (e.2 < 100)) then { s1 with sec := { s1.sec with hold := 0 } } else s1
    else
      let s1 := setTemp k t s
      thermal k t (if 64 ≤ k then wrField 4 (k - 64) 0x54 7 0 (temp % 256) s1 else s1))

/-- THERMAL_TRIP: SAFE_OUT drops first, then the device resets and stays in reset (16 R384; 15 R342; 19 R443). -/
def execThermalTrip (k temp : Nat) (s : State) : Out :=
  .next (if 64 ≤ k ∨ signed 8 temp < 120 then s else resetDevice 5 1 (setTemp k (signed 8 temp) (trip 10 0 s)))

/-- RECOVERY_END: one second after the last cause (16 R374). -/
def execRecoveryEnd (s : State) : Out :=
  .next (match s.pwr.recovery with | some t => let s1 := advanceTo t s; { s1 with pwr := { s1.pwr with recovery := none } } | none => s)

/-- Memory enters or leaves self-refresh on every stack; the writes already accepted complete first (10 R250). -/
def setSelfRef (on : Bool) (s : State) : State :=
  (List.range 8).foldl (fun acc m =>
    let t := (mc m acc).pend.foldl (fun u e => lpddrPut e.2.1 e.2.2 (memJob e.1) u) acc
    setMc m { mc m t with selfRef := on, pend := [] } t) s

/-- COOLANT_LOSS: COOL_FLOW_OK has been low for 50 µs. Quill clocks are gated, SAFE_OUT drops, COOLANT_LOST is written, memory enters
self-refresh (16 R385). -/
def execCoolantLoss (s : State) : Out :=
  .next (
    let s1 := wrField 13 0 0x78 1 1 0 s
    if coolantLost s then s1
    else
      let n := (s1.jobs.filter (fun j => j.phase == .running)).length
      let s2 := wrField 13 0 0x78 0 0 1 (episodeOn none 4 (bump 13 0 0xB0 1 { s1 with pwr := { s1.pwr with lostAt := s1.time.clk } }))
      setSelfRef true (raise { c := 13, i := 0, bit := 13, code := 0x4D00, payload := n } (trip 4 0 s2)))

/-- COOL_FLOW_RESTORED: the pin reads high again (16 R387, PWR_COOL). -/
def execCoolFlowRestored (s : State) : Out :=
  .next (if rdField 13 0 0x78 1 1 s = 1 then s else wrField 13 0 0x78 1 1 1 { s with pwr := { s.pwr with flowSince := s.time.clk } })

/-- Restart is allowed: COOL_FLOW_OK high for a second, and every sensor's reading below throttle_c (16 R387). -/
def restartOk (s : State) : Bool :=
  rdField 13 0 0x78 1 1 s == 1 && decide (s.pwr.flowSince + 1000000 * oneUs ≤ s.time.clk)
    && s.pwr.temps.all (fun e => decide (64 ≤ e.1) || decide (e.2 < (rdField 13 0 0x68 7 0 s : Nat)))

/-- Quills ungated at a rotation boundary, wave by wave; waits and packet limits do not count the time (16 R386, R387). -/
def ungate (gated : Nat) (s : State) : State :=
  let qs := s.quills.map (fun e =>
    (e.1, if e.2.job = 0xFFFF then e.2
          else { e.2 with waitStart := e.2.waitStart + gated
                          startAt := match e.2.st with | .running | .waiting => some (s.time.clk + 2 * 16 * (wave e.1 + 1)) | _ => e.2.startAt }))
  { s with quills := qs, qe := { s.qe with pkts := s.qe.pkts.map (fun p => { p with born := p.born + gated }) } }

/-- PWR_COOL written: restart with the key, when coolant is lost (16 R387; 10 R250). -/
def wrCool (v : Word) (s : State) : State :=
  if v.field 31 16 ≠ 0xC001 ∨ natBit v.toNat 2 = false then s
  else if restartOk s = false then pwrRefuse 0x78 v s
  else if coolantLost s = false then s
  else
    let s1 := advanceToRing (rotationAfter (ringNow s)) (setSelfRef false s)
    let s2 := (List.range 8).foldl (fun acc m => if natBit (rdReg 4 m 0x44 acc).toNat 0 then wrField 4 m 0x44 3 2 1 acc else acc) s1
    let gated := s2.time.clk - s2.pwr.lostAt
    let s3 := ungate gated (wrField 13 0 0x78 0 0 0 s2)
    startRecovery (raise { c := 13, i := 0, bit := 14, code := 0x0D01, payload := min (gated / oneUs) 0xFFFFFFFF } s3)

/-- COOLANT_RESTART (16 R387). -/
def execCoolantRestart (r : Req) (v : Nat) (s : State) : Out := .next (onReg r 13 0 0x78 (wrCool (BitVec.ofNat 32 v)) s)

/-- Whether a domain's switch-off is refused (16 R388). -/
def offRefused (d : Nat) (s : State) : Bool :=
  if d < 48 then (List.range 4).any (fun k => (quill (4 * d + k) s).job != 0xFFFF || (match s.sn.stRun with | some (4, u, _) => u == 4 * d + k | _ => false))
  else if d < 96 then (List.range 16).any (fun b => ((spad (d - 48) s).bank b).st != .off)
  else if d < 104 then true
  else if d < 110 then rdField 5 (d - 104) 0x40 2 0 s == 2
  else if d = 110 then s.car.streams.any (fun e => e.2.running) || s.car.groups.any (fun e => e.2.st == 1)
  else natBit (rdReg 9 0 0x40 s).toNat 31

/-- PWR_DOMAIN_CMD written (16 R388). -/
def wrDomainCmd (v : Word) (s : State) : State :=
  let d := v.field 6 0
  if 112 ≤ d then pwrRefuse 0x7C v s
  else if natBit v.toNat 8 then domainRise d false s
  else if offRefused d s then pwrRefuse 0x7C v s
  else domainFall d false s

/-- DOMAIN_ON: op 1 (16 R388). -/
def execDomainOn (r : Req) (d : Nat) (s : State) : Out := .next (onReg r 13 0 0x7C (wrDomainCmd (BitVec.ofNat 32 (256 + d % 128))) s)

/-- DOMAIN_OFF_CMD: op 0 (16 R388). -/
def execDomainOffCmd (r : Req) (d : Nat) (s : State) : Out := .next (onReg r 13 0 0x7C (wrDomainCmd (BitVec.ofNat 32 (d % 128))) s)

/-- The banks of a scratchpad whose domain has come on wake (16 R388; 09 R225). -/
def wakeBanks (n : Nat) (s : State) : State := (List.range 16).foldl (fun acc b => bankTo n b .waking 0xFFFF acc) s

/-- DOMAIN_USABLE: a domain's on time has passed; its blocks start from reset (16 R388). -/
def execDomainUsable (d : Nat) (s : State) : Out :=
  .next (
    match s.pwr.rising.find? (fun e => e.1 == d) with
    | none => s
    | some e =>
      let s1 := advanceTo (e.2.1 + domainTime d) s
      let s2 := domainReset d (setDomain d true { s1 with pwr := { s1.pwr with rising := s1.pwr.rising.filter (fun x => x.1 != d) } })
      raise (evDomainState d true e.2.2) (if 48 ≤ d ∧ d < 96 then wakeBanks (d - 48) s2 else s2))

/-- AUTO_POWER_DOWN: an Inkwell logic domain, or a bank, idle for idle_ms (16 R389; 09 R226). -/
def execAutoPowerDown (bank : Option Nat) (n : Nat) (s : State) : Out :=
  .next (
    let idle := rdField 13 0 0x90 31 16 s * oneMs
    if 48 ≤ n then s
    else match bank with
    | none =>
      let qs := (List.range 4).map (fun k => quill (4 * n + k) s)
      if natBit (rdReg 13 0 0x90 s).toNat 0 = false ∨ domainOn n s = false ∨ offRefused n s = true then s
      else domainFall n true (advanceTo (qs.foldl (fun m v => max m v.freed) 0 + idle) s)
    | some b =>
      let k := (spad n s).bank b
      let p := spad n s
      if natBit (rdReg 13 0 0x90 s).toNat 1 = false ∨ 16 ≤ b ∨ k.st ≠ .on ∨ bankOwner n b s ≠ 0xFFFF ∨ (p.pendShares ++ p.heldShares).contains (b / 4) = true
        ∨ bankCmdOk n b 0xFFFF true s = false then s
      else bankDown n b 0xFFFF (advanceTo (max k.since (quill (4 * n + b / 4) s).freed + idle) s))

end Sys2Proof.Machine
end

