-- ==== Sys2Proof/Machine/Spad.lean ====
section
/-! DEFINITION. The scratchpad controller's commands: requests, windows, banks, held fills, scrubbing (09 R218 to R233). -/

namespace Sys2Proof.Machine

/-- What the array gives an access: a new error in a word it covers; a second bit in error makes the word uncorrectable (09 R230; DEDUCED, log
entry 48). -/
def spadUpset (n : Nat) (u : Upset) (s : State) : State :=
  let p := spad n s
  match u with
  | .none => s
  | .single a b =>
    let w := a / 8 * 8
    if p.double.contains w ∨ p.single.contains (w, b) = true ∨ 72 ≤ b ∨ 0x800000 ≤ a then s
    else if p.single.any (fun e => e.1 == w) then
      setSpad n { p with double := p.double ++ [w], single := p.single.filter (fun e => e.1 != w) } s
    else setSpad n { p with single := p.single ++ [(w, b)] } s
  | .double a => if p.double.contains (a / 8 * 8) ∨ 0x800000 ≤ a then s
      else setSpad n { p with double := p.double ++ [a / 8 * 8], single := p.single.filter (fun e => e.1 != a / 8 * 8) } s

/-- Whether a run of at most 256 bytes lies in shares whose fill is held (09 R229). -/
def Spad.inHeld (p : Spad) (off n : Nat) : Bool :=
  let h := { p with pendShares := [], pendUnits := [] }
  h.awaitsFill off 1 && h.awaitsFill (off + n - 1) 1

/-- SPAD_RESIDUE_ACCESS (09 R229, R233). -/
def evResidue (n off : Nat) : Ev := { c := 3, i := n, bit := 12, code := 0x8400, ctx := off / 0x80000, payload := off }

/-- What becomes of the requester whose access ended with a status: a live job of this device fails (09 R223, R230). -/
def requestEnd (w : Who) (status : Nat) (s s1 : State) : State :=
  match w with
  | .job dev id => if dev = deviceId s then failOn id status s s1 else s1
  | _ => s1

/-- SPAD_REQUEST: a read, write or atomic of at most 256 bytes in one Inkwell by a requester; for a write and an atomic `data` is
what is stored; a job of this device whose request is refused or meets an uncorrectable word fails (09 R222, R223, R228 to R230). The debug
port reads held shares in banks that are ON while debug is unlocked for it. -/
def execSpadRequest (w : Who) (k : Acc3) (addr len : Nat) (data : List Byte) (u : Upset) (s : State) : Out :=
  .next (
    if addr < spadBase ∨ spadTop < addr + len ∨ len = 0 ∨ 256 < len ∨ 0x800000 < spadOff addr + len ∨ (k ≠ .read ∧ data.length ≠ len) then s
    else
      let n := spadOf addr
      let off := spadOff addr
      let s1 := spadUpset n u s
      if w = .debug ∧ k = .read ∧ debugOpen s1 = true ∧ natBit (rdReg 15 3 0x40 s1).toNat 2 = true ∧ (spad n s1).inHeld off len = true
          ∧ (spad n s1).banksOn off len = true ∧ armed 3 n 9 s1 = false then
        (spadReadEcc n off len 0xFFFF (raise (evResidue n off) s1)).2
      else
        let r := access 3 n (off / 0x80000) w k addr len data s1
        requestEnd w r.1.status s1 r.2)

/-- WINDOW_EXPIRY: the time at which a window expires comes; it stays OPEN and refuses (09 R222, R224). -/
def execWindowExpiry (n w : Nat) (s : State) : Out :=
  .next (
    let x := (spad n s).win w
    if x.state = .opened ∧ x.expiry ≠ 0 then advanceToDev x.expiry s else s)

/-- A window entry from its 32 bytes (09 R220). -/
def windowOf (b : List Byte) : Window :=
  let f := byteAt b 10
  let g := byteAt b 12
  { base := leField b 0 3, length := leField b 4 3, owner := leField b 8 2, read := natBit f 0, write := natBit f 1, atomic := natBit f 2
    state := match byteAt b 11 % 4 with | 1 => .opened | 2 => .closedPower | 3 => .closed | _ => .free
    clsJob := natBit g 0, clsHost := natBit g 1, clsScribe := natBit g 2, clsCarousel := natBit g 3, clsFine := natBit g 4
    devMatch := byteAt b 13, devMask := byteAt b 14, jobMatch := leField b 16 2, jobMask := leField b 18 2, expiry := leField b 20 8
    refused := leField b 28 4 }

/-- The code of a window state (09 R220). -/
def WinState.code : WinState → Nat
  | .free => 0 | .opened => 1 | .closedPower => 2 | .closed => 3

/-- The 32 bytes of a window entry (09 R220). -/
def Window.bytes (w : Window) : List Byte :=
  leBytes 3 w.base ++ leBytes 1 0 ++ leBytes 3 w.length ++ leBytes 1 0 ++ leBytes 2 w.owner
    ++ leBytes 1 (b2n w.read + 2 * b2n w.write + 4 * b2n w.atomic) ++ leBytes 1 w.state.code
    ++ leBytes 1 (b2n w.clsJob + 2 * b2n w.clsHost + 4 * b2n w.clsScribe + 8 * b2n w.clsCarousel + 16 * b2n w.clsFine)
    ++ leBytes 1 w.devMatch ++ leBytes 1 w.devMask ++ leBytes 1 0 ++ leBytes 2 w.jobMatch ++ leBytes 2 w.jobMask ++ leBytes 8 w.expiry
    ++ leBytes 4 w.refused

/-- Registers of a page from an offset on, as bytes: the staged words of a table entry. -/
def stagedBytes (c i off words : Nat) (s : State) : List Byte := (List.range words).flatMap (fun k => leBytes 4 (rdReg c i (off + 4 * k) s).toNat)

/-- Whether the reserved fields of a staged window entry are 0, and base and length as R220 says (09). -/
def windowStagedOk (b : List Byte) : Bool :=
  let w := windowOf b
  decide (byteAt b 3 = 0 ∧ byteAt b 7 = 0 ∧ byteAt b 10 / 8 = 0 ∧ byteAt b 11 / 4 = 0 ∧ byteAt b 12 / 32 = 0 ∧ byteAt b 15 = 0
    ∧ w.base < 2 ^ 23 ∧ w.base % 64 = 0 ∧ w.length % 64 = 0 ∧ 64 ≤ w.length ∧ w.length ≤ 0x800000)

/-- The lines of an Inkwell that a job owns, as first offset and offset past the end: its shares and its program units (09 R218). -/
def JobRec.lines (j : JobRec) (n : Nat) : List (Nat × Nat) :=
  (j.quills.filter (fun q => q / 4 == n)).map (fun q => shareRange (q % 4))
    ++ (j.areas.filter (fun a => a.1 == n)).map (fun a => (progBase + a.2.1 * 4096, progBase + (a.2.1 + a.2.2) * 4096))

/-- How far the ranges of a list reach without a gap from an offset on, one range further. -/
def reachOne (l : List (Nat × Nat)) (pos : Nat) : Nat := l.foldl (fun p r => if r.1 ≤ p then max p r.2 else p) pos

/-- Whether every byte of a range of offsets lies in a job's shares or program units of an Inkwell (09 R220). -/
def inLines (j : JobRec) (n off len : Nat) : Bool :=
  let l := j.lines n
  decide (off + len ≤ (List.range l.length).foldl (fun p _ => reachOne l p) off)

/-- Whether an open of the selected entry from a staged one is accepted (09 SPAD_WIN_CMD). -/
def windowOpenOk (n idx : Nat) (b : List Byte) (s : State) : Bool :=
  let w := windowOf b
  (match ((spad n s).win idx).state with | .opened => false | _ => true) && windowStagedOk b
    && (match findJob w.owner s with | some j => j.live && inLines j n w.base w.length | none => false)
    && (List.range 16).all (fun k => !w.overlaps k || ((spad n s).bank k).st == .on)

/-- SPAD_CMD_REFUSED (09 R226, R233): register 0 BANK_CTRL, 1 WIN_CMD, 2 DEBUG. -/
def evSpadRefused (n : Nat) (v : Word) (reg ctx : Nat) : Ev :=
  { c := 3, i := n, bit := 10, code := 0x7401, ctx := ctx, payload := v.toNat + reg * 2 ^ 32 }

/-- SPAD_WIN_CMD written (09): 1 opens the selected entry from the staged words, 2 closes it. -/
def wrWinCmd (n : Nat) (v : Word) (s : State) : State :=
  let idx := rdField 3 n 0x4C 6 0 s
  let b := stagedBytes 3 n 0x50 8 s
  let p := spad n s
  match v.field 1 0 with
  | 1 => if windowOpenOk n idx b s then setSpad n (p.setWin idx { windowOf b with state := .opened, refused := 0 }) s
         else raise (evSpadRefused n v 1 0) s
  | 2 => if (p.win idx).state = .opened then setSpad n (p.setWin idx { p.win idx with state := .closed }) s
         else raise (evSpadRefused n v 1 0) s
  | _ => s

/-- WINDOW_OPEN (09 R220, R221). -/
def execWindowOpen (r : Req) (n : Nat) (s : State) : Out := .next (onReg r 3 n 0x70 (wrWinCmd n 1) s)

/-- WINDOW_CLOSE (09 R224). -/
def execWindowClose (r : Req) (n : Nat) (s : State) : Out := .next (onReg r 3 n 0x70 (wrWinCmd n 2) s)

/-- SPAD_BANK_CTRL written (09 R225, R226). -/
def wrBankCtrl (n : Nat) (v : Word) (s : State) : State :=
  let b := v.field 3 0
  let job := v.field 31 16
  let down := v.field 8 8 == 0
  if bankCmdOk n b job down s = false then raise (evSpadRefused n v 0 b) s
  else if down then bankDown n b job s else bankWake n b job s

/-- SPAD_BANK_CTRL's value for a request. -/
def bankCtrl (wake : Bool) (bank owner : Nat) : Word := BitVec.ofNat 32 (owner % 65536 * 65536 + b2n wake * 256 + bank % 16)

/-- BANK_POWER_DOWN (09 R225, R226). -/
def execBankPowerDown (r : Req) (n bank owner : Nat) (s : State) : Out := .next (onReg r 3 n 0x44 (wrBankCtrl n (bankCtrl false bank owner)) s)

/-- BANK_WAKE (09 R225, R226). -/
def execBankWake (r : Req) (n bank owner : Nat) (s : State) : Out := .next (onReg r 3 n 0x44 (wrBankCtrl n (bankCtrl true bank owner)) s)

/-- BANK_DRAINED: a draining bank's last request completes, and after 16 cycles of gating it is OFF; a held wake follows (09 R225). -/
def execBankDrained (n b : Nat) (s : State) : Out :=
  .next (
    let k := (spad n s).bank b
    if k.st ≠ .draining then s
    else
      let s1 := bankTo n b .off k.req (advanceTo (k.since + 2 * 16) s)
      if k.heldOp then bankWake n b k.req s1 else s1)

/-- BANK_WAKE_DONE: power-up and zero-fill end 9,692 mesh cycles after the wake; rows with an uncorrectable word are
spared, and the bank is ON and holds zeros (09 R225, R232). -/
def execBankWakeDone (n b : Nat) (s : State) : Out :=
  .next (
    let k := (spad n s).bank b
    if k.st ≠ .waking then s
    else
      let s1 := zeroBytes (spadAddr n (b * 0x80000)) 0x80000 (advanceTo (k.since + 2 * 9692) s)
      let p := spad n s1
      let inB := fun w => w / 0x80000 == b
      let s2 := (p.badRows inB).foldl (fun acc r => spareRow n r acc) (setSpad n (p.clean inB) s1)
      let s3 := bankTo n b .on k.req s2
      if k.heldOp then bankDown n b k.req s3 else s3)

/-- Held fills started (09 R229). -/
def releaseHeld (n : Nat) (s : State) : State :=
  let p := spad n s
  setSpad n { p with pendShares := p.pendShares ++ p.heldShares, heldShares := [], pendUnits := p.pendUnits ++ p.heldUnits, heldUnits := [] } s

/-- SPAD_DEBUG written (09 R229). -/
def wrSpadDebug (n : Nat) (v : Word) (s : State) : State :=
  if natBit v.toNat 0 then
    if debugOpen s then wrReg 3 n 0x94 1 s else raise (evSpadRefused n v 2 0) s
  else releaseHeld n (wrReg 3 n 0x94 0 s)

/-- HOLD_FILL (09 R229). -/
def execHoldFill (r : Req) (n : Nat) (hold : Bool) (s : State) : Out := .next (onReg r 3 n 0x94 (wrSpadDebug n (BitVec.ofNat 32 (b2n hold))) s)

/-- The words of a bank's write-back buffer written back (09 R230; DEDUCED, log entry 31). -/
def spadWriteBack (n b : Nat) (s : State) : State :=
  let p := spad n s
  let mine := p.wb.filter (fun w => w / 0x80000 == b)
  setSpad n (p.clean (fun w => mine.contains w)) s

/-- Whether a window that is not FREE covers any byte of a row. -/
def rowCovered (n row : Nat) (s : State) : Bool :=
  (spad n s).wins.any (fun e => e.2.state != .free && decide (e.2.base < row * 64 + 64 ∧ row * 64 < e.2.base + e.2.length))

/-- What a scrub read of a word finds and does: corrects, notes the row, spares it on a second pass; an uncorrectable word's row is
spared at once if no window covers it (09 R231, R232). -/
def scrubWord (n b w : Nat) (s : State) : State :=
  let p := spad n s
  let row := w / 64
  if p.double.contains w then
    let s1 := raise (evSpadUncorrectable n w 0xFFFF (p.planted.contains w)) s
    if rowCovered n row s1 then s1 else spareRow n row s1
  else match p.single.find? (fun e => e.1 == w) with
    | none => s
    | some e =>
      let pass := (p.bank b).passes
      let s1 := raise (evSpadCorrected n e (p.planted.contains w)) (bump 3 n 0x7C 1 s)
      let p1 := spad n s1
      let s2 := setSpad n (p1.clean (fun x => x == w)) s1
      if p1.rowsHit.any (fun x => x.1 == row && x.2 != pass) then spareRow n row s2
      else if p1.rowsHit.any (fun x => x.1 == row) then s2
      else setSpad n { spad n s2 with rowsHit := p1.rowsHit ++ [(row, pass)] } s2

/-- Whether a word was written in the present mesh cycle: a maintenance read then discards any error it finds (09 R231; DEDUCED, log entry
48). -/
def Spad.writtenNow (p : Spad) (w clk : Nat) : Bool :=
  match p.lastWr with | some (c, off, len) => c == clk / 2 && decide (w < off + len ∧ off < w + 8) | none => false

/-- SCRUB_STEP: the scrubber reads the next word of a bank that is ON or DRAINING through the maintenance port (09 R231, R232). -/
def execScrubStep (n b : Nat) (u : Upset) (s : State) : Out :=
  .next (
    let k := (spad n s).bank b
    if (k.st ≠ .on ∧ k.st ≠ .draining) ∨ 16 ≤ b then s
    else
      let w := b * 0x80000 + k.pos * 8
      let s0 := spadUpset n u (spadWriteBack n b s)
      let s1 := if (spad n s0).writtenNow w s0.time.clk then s0 else scrubWord n b w s0
      let p := spad n s1
      let q := p.bank b
      setSpad n (p.setBank b { q with pos := (q.pos + 1) % 65536, passes := if q.pos + 1 = 65536 then q.passes + 1 else q.passes }) s1)

end Sys2Proof.Machine
end

