-- ==== Sys2Proof/Machine/Tightrope.lean ====
section
/-! DEFINITION. The control engine's commands: triggers, dispatches, law instructions, slots, coefficients, setpoints, tests and captures
(13 R296 to R320). -/

namespace Sys2Proof.Machine

/-- Stale readings of a latch reported, at most once per millisecond per master (13 R311). -/
def adcStale (mask : Nat) (p : Snap) (inj : Bool) (s : State) : State :=
  (List.range 4).foldl (fun acc m =>
    match (List.range 8).find? (fun f => natBit (mask &&& p.adcBad) (8 * m + f)) with
    | none => acc
    | some f => raiseRated (0xA20000 + m) oneMs
        { c := 10, i := 1, bit := 10, code := 0x3A13, ctx := m, payload := f + p.ages.getD (8 * m + f) 0 % 2 ^ 32 * 8 + injFlag inj } acc) s

/-- A trigger with its snapshot: the slot becomes pending, or the trigger is dropped (13 R298, R299). -/
def takeTrigger (n : Nat) (p : Snap) (s : State) : State :=
  let v := trSlot n s
  if armed 10 0 6 s then trOverrun n true (disarm 10 0 6 s)
  else if v.pend.isSome ∨ s.tr.runs.any (fun r => r.slot == n) = true ∨ (match v.lastTrig with | some t => decide (p.time < t + 5000) | none => false) = true then
    trOverrun n false s
  else
    let inj := armed 10 1 10 s && v.adcMask != 0
    let p1 := if inj then { p with adcBad := p.adcBad ||| v.adcMask } else p
    let s1 := if inj then disarm 10 1 10 s else s
    adcStale v.adcMask p1 inj (setSlot n { v with pend := some p1, lastTrig := some p.time } s1)

/-- SLOT_TRIGGER: a timer's next instant comes, or a trigger that has fired is taken (13 R297 to R299). -/
def execSlotTrigger (n : Nat) (s : State) : Out :=
  .next (
    let v := trSlot n s
    if 64 ≤ n ∨ v.st = 0 ∨ blockEnabled 10 0 s = false then s
    else if v.src = 1 then
      if v.period = 0 then s
      else
        let t := v.nextTick v.timer
        let s1 := advanceToDev t s
        takeTrigger n { snapNow s1 with time := t } (setSlot n { trSlot n s1 with timer := t } s1)
    else match v.fired with
      | none => s
      | some p => takeTrigger n p (setSlot n { v with fired := none } s))

/-- The banks swap: the inactive one is active, and is copied back (13 R317). -/
def bankSwap (s : State) : State :=
  let a := 1 - rdField 10 0 0x84 1 1 s
  raise { c := 10, i := 0, bit := 12, code := 0x0A02, payload := a } (wrField 10 0 0x84 4 1 (a + 8) s)

/-- Whether a swap waits (13 R317). -/
def swapPending (s : State) : Bool := natBit (rdReg 10 0 0x84 s).toNat 3

/-- The test generator's value at a dispatch of a slot, if a test runs (13 R318). -/
def testValue (n : Nat) (s : State) : Option Int :=
  let w := rdReg 10 0 0xAC s
  let tgt := w.field 7 6
  if natBit w.toNat 15 = false ∨ w.field 14 13 = 0 ∨ w.field 5 0 ≠ n ∨ ((tgt = 1 ∨ tgt = 2) ∧ natBit w.toNat 16 = false) then none
  else
    let a := wordInt (rdReg 10 0 0xB0 s)
    let plus := match w.field 14 13 with
      | 1 => true
      | 2 => s.tr.testN / w.field 31 17 % 2 == 0
      | _ => natBit s.tr.lfsr 14
    some (if plus then a else sat32 (-a))

/-- The generator after a dispatch that carries its value (13 R318). -/
def testAdvance (s : State) : State :=
  let l := s.tr.lfsr
  let fb := (l / 2 ^ 14 + l / 2 ^ 13) % 2
  { s with tr := { s.tr with testN := s.tr.testN + 1, lfsr := (2 * l + fb) % 2 ^ 15 } }

/-- A law started with what its dispatch finds (13 R299 to R301, R318). -/
def startLaw (n : Nat) (hold : Bool) (p : Snap) (delta : List Nat) (test : Option Int) (s : State) : State :=
  let v := trSlot n s
  let w := rdReg 10 0 0xAC s
  let bank := trActive s
  let sp := match test with
    | some t => if w.field 7 6 = 1 ∧ w.field 12 8 < 8 then Tbl.set 0 v.sp (w.field 12 8) (wordOf (sat32 (wordInt (Tbl.get 0 v.sp (w.field 12 8)) + t))) else v.sp
    | none => v.sp
  let r : TrRun :=
    { slot := n, hold := hold, pc := if hold then v.holdAt else v.lawAt, acc := 0, snap := p, delta := delta, sp := sp, shared := s.tr.shared
      coef := (s.tr.coef.filter (fun e => e.1 / 2048 == bank)).map (fun e => (e.1 % 2048, e.2))
      age := match v.accepted with | some t => min ((devNow s - t) / 1000) 0x7FFFFFFF | none => 0x7FFFFFFF
      test := test.getD 0, carries := test.isSome
      pwm := match test with | some t => if w.field 7 6 = 2 then some (w.field 12 8, t) else none | none => none
      sends := [] }
  { s with tr := { s.tr with runs := r :: s.tr.runs } }

/-- TR_SRAM_ERROR or TR_SRAM_CORRECTED (13 R320). -/
def trSram (bad : Bool) (n addr : Nat) (inj : Bool) (s : State) : State :=
  raise { c := 10, i := 0, bit := if bad then 8 else 5, code := if bad then 0x3A00 else 0x1A00, ctx := n, payload := addr % 2 ^ 16 + injFlag inj } s

/-- The fetch of a law at its dispatch: an error that cannot be corrected is cause 3 of R308. -/
def lawFetch (n : Nat) (u : Upset) (s : State) : State :=
  let v := trSlot n s
  let bad := fun a inj t => trSram true n a inj (setSlot n { trSlot n t with memErr := true } t)
  if armed 10 0 8 s then bad v.lawAt true (disarm 10 0 8 s)
  else match u with
    | .double a => bad a false s
    | .single a _ => trSram false n a false s
    | .none => s

/-- The hold decision of a dispatch, and the law that runs after it (13 R308). -/
def holdAndRun (n : Nat) (p : Snap) (delta : List Nat) (test : Option Int) (s : State) : State :=
  let v := trSlot n s
  let inj := armed 10 0 9 s
  let s0 := if inj then disarm 10 0 9 s else s
  let inv := firstInvalid v p
  let cause := if v.memErr then 3 else if inv.isSome || inj then 1 else if spAged v (devNow s0) then 2 else 0
  if cause = 0 then
    if v.st = 2 then
      if v.mode = 2 then s0
      else startLaw n false p delta test (raise { c := 10, i := 0, bit := 10, code := 0x0A00, ctx := n, payload := v.mode } (setSlot n { v with st := 1, cause := 0 } s0))
    else startLaw n false p delta test s0
  else
    let mode := if cause = 3 then 2 else v.holdMode
    let s1 :=
      if v.st = 2 then
        if cause = 3 ∧ v.mode ≠ 2 then safeDuties v (setSlot n { v with cause := 3, mode := 2 } s0) else s0
      else
        let s2 := raise { c := 10, i := 0, bit := 9, code := 0x4A00, ctx := n, payload := cause + (inv.getD 0) * 8 + injFlag (inj && cause == 1) }
          (setSlot n { v with st := 2, cause := cause, mode := mode } s0)
        if mode = 2 then safeDuties v s2 else s2
    if (trSlot n s1).mode = 0 then startLaw n true p delta test s1 else s1

/-- The lowest-numbered pending slot (13 R299). -/
def nextPending (s : State) : Option Nat := (List.range 64).find? (fun n => (trSlot n s).pend.isSome)

/-- LAW_DISPATCH: the pending slot of the highest priority is dispatched, over a law of a lower priority if one executes (13 R299, R308,
R317). `u` is an error of the law memory at the fetch. -/
def execLawDispatch (u : Upset) (s : State) : Out :=
  .next (
    match nextPending s with
    | none => s
    | some n =>
      let v := trSlot n s
      match v.pend with
      | none => s
      | some p =>
        if blockEnabled 10 0 s = false ∨ (match s.tr.runs with | r :: _ => decide (r.slot ≤ n) | [] => false) = true then s
        else
          let delta := (List.range 16).map (fun k => match v.prev with | some q => wrapNat 32 ((p.encs.getD k 0 : Int) - (q.getD k 0 : Nat)) | none => 0)
          let s1 := setSlot n { v with pend := none, prev := some p.encs } s
          let s2 := if swapPending s1 && rdField 10 0 0x84 13 8 s1 == n then bankSwap s1 else s1
          let s3 := lawFetch n u s2
          let test := testValue n s3
          let s4 := holdAndRun n p delta test s3
          if test.isSome then testAdvance s4 else s4)

/-- A law instruction of the executing law: what it does to its run, whose next instruction is already the one after it (13 R301). -/
def lawStep (i : LawIns) (f : TrRun → State → State) (s : State) : State :=
  match s.tr.runs with
  | r :: _ => if lawDecode (Tbl.get 0 s.tr.law r.pc).toNat = some i then f { r with pc := r.pc + 1 } s else s
  | [] => s

/-- A coefficient read by the executing law, with an error of its memory; none where the read is uncorrectable: the law ends there and
cause 3 holds from its next dispatch (13 R308, R320). -/
def coefRead (r : TrRun) (k : Nat) (u : Upset) (s : State) : Option Nat × State :=
  let w := Tbl.get 0 r.coef k
  if armed 10 0 5 s then (some w, trSram false r.slot (4096 + trActive s * 2048 + k) true (disarm 10 0 5 s))
  else match u with
    | .none => (some w, s)
    | .single a _ => (some w, trSram false r.slot a false s)
    | .double a =>
      let s1 := trSram true r.slot a false (setSlot r.slot { trSlot r.slot s with memErr := true } s)
      (none, { s1 with tr := { s1.tr with runs := s1.tr.runs.drop 1 } })

/-- A coefficient's value and shift. -/
def coefValue (w : Nat) : Int := signed 32 w

/-- MAC (13 R301, R302). -/
def execMac (clr : Bool) (src coef : Nat) (u : Upset) (s : State) : Out :=
  .next (lawStep (.mac clr src coef) (fun r s =>
    let c := coefRead r coef u s
    match c.1 with
    | none => c.2
    | some w =>
      let term := rheScaleInt (sigRead r src c.2 * coefValue w) (-((w / 2 ^ 32 : Nat) : Int))
      setRun { r with acc := if clr then term else r.acc + term } c.2) s)

/-- STORE: the accumulator rounded and saturated (13 R301). -/
def execLawStore (dst sh : Nat) (s : State) : Out :=
  .next (lawStep (.store dst sh) (fun r s =>
    let x := rheScaleInt r.acc (-(sh : Int))
    let y := sat32 x
    let s1 := sigWrite r dst y s
    if x = y then s1
    else raiseRated (0xA10000 + r.slot) oneMs { c := 10, i := 0, bit := 11, code := 0x0A01, ctx := r.slot, payload := dst }
      (setSlot r.slot { trSlot r.slot s1 with saturated := true } s1)) s)

/-- LIMIT (13 R301): where the low limit exceeds the high, the result is the high. -/
def execLimit (dst coef : Nat) (u : Upset) (s : State) : Out :=
  .next (lawStep (.limit dst coef) (fun r s =>
    let c := coefRead r coef u s
    match c.1 with
    | none => c.2
    | some w => sigWrite r dst (min (max (sigRead r dst c.2) (coefValue w)) (coefValue (Tbl.get 0 r.coef (coef + 1)))) c.2) s)

/-- MOVE (13 R301). -/
def execLawMove (dst src : Nat) (s : State) : Out :=
  .next (lawStep (.move dst src) (fun r s => sigWrite r dst (sigRead r src s) s) s)

/-- OUT: a PWM compare, with a test's value where one is injected, or a word of a transmit buffer (13 R301, R312, R318). -/
def execLawOut (src : Nat) (buf : Bool) (n word : Nat) (s : State) : Out :=
  .next (
    if buf then lawStep (.outBuf src n word) (fun r s => trBufWrite n word (wordOf (sigRead r src s)) (setRun r s)) s
    else lawStep (.outPwm src n) (fun r s =>
      let v := sigRead r src s
      let v1 := match r.pwm with | some (c, t) => if c = n then sat32 (v + t) else v | none => v
      pwmOut n v1 false (setRun r s)) s)

/-- SEND: the buffer is asked for, and queued at the law's end (13 R314). -/
def execLawSend (buf : Nat) (s : State) : Out :=
  .next (lawStep (.send buf) (fun r s => setRun { r with sends := r.sends ++ [buf] } s) s)

/-- SKIPIF (13 R301). -/
def execSkipif (src cond n : Nat) (s : State) : Out :=
  .next (lawStep (.skipif src cond n) (fun r s =>
    let v := sigRead r src s
    let hit := match cond with | 0 => decide (v < 0) | 1 => decide (v = 0) | 2 => decide (0 < v) | _ => decide (v ≠ 0)
    setRun { r with pc := if hit then r.pc + n else r.pc } s) s)

/-- TR_CAP_TIME: the trigger time of the first record held (13 R319). -/
def capTime (s : State) : State :=
  match s.tr.caps with
  | (t, _) :: _ => wrCtr 10 0 0xC0 (BitVec.ofNat 64 t) s
  | [] => wrCtr 10 0 0xC0 0 s

/-- A capture record at the end of a law (13 R319; DEDUCED, log entry 42). -/
def capRecord (r : TrRun) (s : State) : State :=
  let w := rdReg 10 0 0xB4 s
  if natBit w.toNat 0 = false ∨ w.field 13 8 ≠ r.slot ∨ (s.tr.caps = [] ∧ natBit w.toNat 2 = true ∧ r.carries = false) then s
  else
    let sig := rdReg 10 0 0xB8 s
    let rcd := (List.range 4).flatMap (fun k => leBytes 4 (wordOf (sigRead r (sig.field (8 * k + 7) (8 * k)) s)).toNat)
    let l := (if 1024 ≤ s.tr.caps.length then s.tr.caps.drop 1 else s.tr.caps) ++ [(r.snap.time, rcd)]
    let s1 := capTime { s with tr := { s.tr with caps := l } }
    if l.length = 1024 ∧ natBit w.toNat 1 = false then wrField 10 0 0xB4 0 0 0 s1 else s1

/-- LAW_END: the law ends; a capture is taken, buffers asked for are queued, a law below it resumes (13 R299, R301, R314, R319). -/
def execLawEnd (s : State) : Out :=
  .next (lawStep .stop (fun r s =>
    let s1 := capRecord r s
    let s2 := addCtr 10 0 0xCC 1 { s1 with tr := { s1.tr with runs := s1.tr.runs.drop 1 } }
    r.sends.foldl (fun acc b => trBufSend b acc) s2) s)

/-- The staged entry's bytes (13 TR_SLOT_DATA). -/
def slotStaged (s : State) : List Byte := (List.range 8).flatMap (fun k => leBytes 4 (rdReg 10 0 (0x44 + 4 * k) s).toNat)

/-- Why an entry is refused for a slot: 0 not, 1 the table, 3 the laws (13 R296, R303; DEDUCED, log entry 42). -/
def slotRefusal (n : Nat) (b : List Byte) (s : State) : Nat :=
  let v : TrSlot := { cfg := b, conf := true }
  if (trSlot n s).st ≠ 0 ∨ slotTableOk b = false then 1
  else
    let hold := decide (v.holdMode = 0)
    let ok := match lawAt v.lawAt s with | some l => lawOk v l | none => false
    let okH := !hold || (match lawAt v.holdAt s with | some l => lawOk v l | none => false)
    let mine := slotLaws v s
    let clash := (List.range 64).any (fun j =>
      let w := trSlot j s
      let other := slotLaws w s
      decide (j ≠ n) && w.conf && ((pwmsOf mine).any (fun c => (pwmsOf other).contains c) || (bufsOf mine).any (fun c => (bufsOf other).contains c)))
    if ok && okH && !clash then 0 else 3

/-- An accepted entry in force, with its law_cycles (13 R296, R303). -/
def setEntry (n : Nat) (b : List Byte) (s : State) : State := setSlot n { trSlot n s with cfg := b, conf := true, cycles := lawCycles { cfg := b } s } s

/-- A slot configured (13 R296). -/
def slotConfigure (n : Nat) (s : State) : State :=
  let b := slotStaged s
  let k := slotRefusal n b s
  if k ≠ 0 then trRefuse 1 k n s else setEntry n b s

/-- The load of started slots, as a fraction: Σ rate × (law_cycles + 24) (13 R298). -/
def trLoad (ns : List Nat) (s : State) : Nat × Nat :=
  ns.foldl (fun a n =>
    let v := trSlot n s
    let c := slotCycles v + 24
    if v.src = 1 then (a.1 * v.period + 1000000000 * c * a.2, a.2 * v.period) else (a.1 + 200000 * c * a.2, a.2)) (0, 1)

/-- A slot started: state words 0, no setpoint accepted, no latch before (13 R298, R300, R308); the recovery image starts none (19 R450). -/
def slotStart (n : Nat) (s : State) : State :=
  let v := trSlot n s
  if v.st ≠ 0 ∨ s.sec.phase = 3 then s
  else if v.conf = false then trRefuse 2 1 n s
  else
    let l := trLoad ((List.range 64).filter (fun j => j == n || decide ((trSlot j s).st ≠ 0))) s
    if 640000000 * l.2 < l.1 then trRefuse 2 2 n s
    else setSlot n { v with st := 1, cause := 0, saturated := false, words := [], accepted := none, fired := none, pend := none, prev := none
                            lastTrig := none, timer := devNow s, memErr := false } s

/-- A slot stopped: what is pending or executes for it ends, and a test of it stops (13 R296, R318). -/
def slotStop (n : Nat) (s : State) : State :=
  let v := trSlot n s
  if v.st = 0 then s
  else
    let s1 := setSlot n { v with st := 0, cause := 0, fired := none, pend := none } s
    let s2 := { s1 with tr := { s1.tr with runs := s1.tr.runs.filter (fun r => r.slot != n) } }
    if rdField 10 0 0xAC 5 0 s2 = n then wrField 10 0 0xAC 15 15 0 s2 else s2

/-- A slot held with hold_mode 2 resumed, unless a cause persists (13 R308). -/
def slotResume (n : Nat) (s : State) : State :=
  let v := trSlot n s
  if v.st ≠ 2 ∨ v.mode ≠ 2 then s
  else if v.memErr = true ∨ (firstInvalid v (snapNow s)).isSome = true ∨ spAged v (devNow s) = true then trRefuse 4 4 n s
  else raise { c := 10, i := 0, bit := 10, code := 0x0A00, ctx := n, payload := v.mode } (setSlot n { v with st := 1, cause := 0 } s)

/-- TR_SLOT_CMD written (13). -/
def wrSlotCmd (v : Word) (s : State) : State :=
  let n := rdField 10 0 0x40 5 0 s
  match v.field 2 0 with
  | 1 => slotConfigure n s
  | 2 => slotStart n s
  | 3 => slotStop n s
  | 4 => slotResume n s
  | _ => s

/-- SLOT_CONFIGURE (13 R296, R303). -/
def execSlotConfigure (r : Req) (s : State) : Out := .next (onReg r 10 0 0x64 (wrSlotCmd 1) s)

/-- SLOT_START (13 R298). -/
def execSlotStart (r : Req) (s : State) : Out := .next (onReg r 10 0 0x64 (wrSlotCmd 2) s)

/-- SLOT_STOP (13 R296). -/
def execSlotStop (r : Req) (s : State) : Out := .next (onReg r 10 0 0x64 (wrSlotCmd 3) s)

/-- SLOT_RESUME (13 R308). -/
def execSlotResume (r : Req) (s : State) : Out := .next (onReg r 10 0 0x64 (wrSlotCmd 4) s)

/-- Whether a law of a started slot covers an index of the law memory (13 TR_LAW_DATA). -/
def lawCovered (k : Nat) (s : State) : Bool :=
  (List.range 64).any (fun n =>
    let v := trSlot n s
    let inLaw := fun at_ => decide (at_ ≤ k ∧ k < at_ + ((lawAt at_ s).getD []).length)
    decide (v.st ≠ 0) && (inLaw v.lawAt || (decide (v.holdMode = 0) && inLaw v.holdAt)))

/-- TR_LAW_DATA written: the word, and the index after it (13 R301). -/
def wrLawData (v : Word) (s : State) : State :=
  let k := rdField 10 0 0x70 11 0 s
  if lawCovered k s then trRefuse v.toNat 3 0 s
  else wrField 10 0 0x70 11 0 (k + 1) { s with tr := { s.tr with law := Tbl.set 0 s.tr.law k v } }

/-- LAW_DATA_WRITE (13 R301). -/
def execLawDataWrite (r : Req) (v : Nat) (s : State) : Out := .next (onReg r 10 0 0x74 (wrLawData (BitVec.ofNat 32 v)) s)

/-- TR_COEF_VALUE written: one staged value per requester path (13 R315). -/
def wrCoefValue (r : Req) (v : Word) (s : State) : State := { s with tr := { s.tr with staged := Tbl.set 0 s.tr.staged (reqCode r) v } }

/-- TR_COEF_WRITE written (13 R315, R317). -/
def wrCoefWrite (r : Req) (v : Word) (s : State) : State :=
  let bank := v.field 31 31
  let want := if rdField 10 0 0x84 0 0 s = 1 then 1 - rdField 10 0 0x84 1 1 s else 0
  if bank ≠ want ∨ v.field 21 16 = 63 ∨ rdField 10 0 0x84 4 4 s = 1 then trRefuse v.toNat 5 0 s
  else
    let w := (Tbl.get 0 s.tr.staged (reqCode r)).toNat + v.field 21 16 * 2 ^ 32
    wrField 10 0 0x80 15 0 (rdField 10 0 0x80 15 0 s + 1) { s with tr := { s.tr with coef := Tbl.set 0 s.tr.coef (bank * 2048 + v.field 10 0) w } }

/-- COEF_WRITE (13 R315). -/
def execCoefWrite (r : Req) (v : Nat) (s : State) : Out := .next (onReg r 10 0 0x7C (wrCoefWrite r (BitVec.ofNat 32 v)) s)

/-- TR_BANK_CTRL written: the mode only while every slot is STOPPED; a swap only in bank-swap mode with none pending (13 R317). -/
def wrCoefBank (v : Word) (s : State) : State :=
  let stopped := (List.range 64).all (fun n => (trSlot n s).st == 0)
  let swap := natBit v.toNat 2
  if (v.field 0 0 ≠ rdField 10 0 0x84 0 0 s ∧ stopped = false) ∨ (swap = true ∧ (swapPending s = true ∨ v.field 0 0 = 0)) then trRefuse v.toNat 5 0 s
  else
    let s1 := wrField 10 0 0x84 13 8 (v.field 13 8) (wrField 10 0 0x84 0 0 (v.field 0 0) s)
    if swap = false then s1
    else if (trSlot (v.field 13 8) s1).st = 0 then bankSwap s1
    else wrField 10 0 0x84 3 2 3 s1

/-- BANK_SWAP (13 R317). -/
def execBankSwap (r : Req) (slot : Nat) (s : State) : Out :=
  .next (onReg r 10 0 0x84 (fun t => wrCoefBank (((rdReg 10 0 0x84 t).put 13 8 slot) ||| 4) t) s)

/-- COEF_COPY_DONE: the inactive bank holds what the active one does (13 R317). -/
def execCoefCopyDone (s : State) : Out :=
  .next (
    if rdField 10 0 0x84 4 4 s = 0 then s
    else
      let a := rdField 10 0 0x84 1 1 s
      let from_ := s.tr.coef.filter (fun e => e.1 / 2048 == a)
      let l := from_.foldl (fun (t : Tbl Nat) e => Tbl.set 0 t ((1 - a) * 2048 + e.1 % 2048) e.2) from_
      wrField 10 0 0x84 4 4 0 { s with tr := { s.tr with coef := l } })

/-- TR_SP_COMMIT written by the checker (13 R307). -/
def wrSpCommit (v : Word) (s : State) : State :=
  spCommit (v.field 5 0) ((List.range 8).map (fun k => rdReg 10 0 (0x88 + 4 * k) s)) (natBit v.toNat 8) s

/-- SP_COMMIT (13 R307). -/
def execSpCommit (r : Req) (v : Nat) (s : State) : Out := .next (onReg r 10 0 0xA8 (wrSpCommit (BitVec.ofNat 32 v)) s)

/-- TR_TEST_CTRL written: permit by the checker alone; a test starts with its first dispatch (13 R318). -/
def wrTestCtrl (r : Req) (v : Word) (s : State) : State :=
  let old := rdReg 10 0 0xAC s
  let w := if r = .checker then v else v.put 16 16 (old.field 16 16)
  let s1 := wrReg 10 0 0xAC w s
  if natBit w.toNat 15 = true ∧ (natBit old.toNat 15 = false ∨ w.field 14 13 ≠ old.field 14 13 ∨ w.field 5 0 ≠ old.field 5 0) then
    { s1 with tr := { s1.tr with testN := 0, lfsr := 0x7FFF } }
  else s1

/-- TEST_GENERATOR (13 R318). -/
def execTestGenerator (r : Req) (v : Nat) (s : State) : Out := .next (onReg r 10 0 0xAC (wrTestCtrl r (BitVec.ofNat 32 v)) s)

/-- TR_CAP_CTRL written: a capture that starts holds no records (13 R319). -/
def wrCapCtrl (v : Word) (s : State) : State :=
  let on := natBit (rdReg 10 0 0xB4 s).toNat 0
  let s1 := plainWrite 10 0 0xB4 v s
  if natBit v.toNat 0 = true ∧ on = false then capTime { s1 with tr := { s1.tr with caps := [], capPos := 0 } } else s1

/-- The word that TR_CAP_READ reads next: 0 past the end and while a capture runs (13 TR_CAP_READ). -/
def capWord (s : State) : Word :=
  if natBit (rdReg 10 0 0xB4 s).toNat 0 then 0
  else match s.tr.caps[s.tr.capPos / 4]? with
    | some e => BitVec.ofNat 32 (leField e.2 (s.tr.capPos % 4 * 4) 4)
    | none => 0

/-- A read of TR_CAP_READ advances. -/
def capAdvance (s : State) : State :=
  if natBit (rdReg 10 0 0xB4 s).toNat 0 = true ∨ 4 * s.tr.caps.length ≤ s.tr.capPos then s
  else { s with tr := { s.tr with capPos := s.tr.capPos + 1 } }

/-- CAPTURE_READ (13 R319). -/
def execCaptureRead (r : Req) (s : State) : Out :=
  .next (let k := regAt r false 10 0 0xBC s; if k.1 ≠ 0 then k.2 else capAdvance k.2)

end Sys2Proof.Machine
end

