-- ==== Sys2Proof/Machine/Tio.lean ====
section
/-! DEFINITION. The encoder and discrete I/O block's commands: encoders, discrete inputs, ADC masters, PWM channels, STOP_N (13 R309 to
R313). -/

namespace Sys2Proof.Machine

/-- One I/O tick of 5 ns, in thirds of a nanosecond. -/
def tioTick : Nat := 15

/-- TIO_CONFIG_REFUSED (13 R321). -/
def tioRefuse (value n : Nat) (s : State) : State := raise { c := 10, i := 1, bit := 11, code := 0x7A10, ctx := n, payload := value } s

/-- A staged entry of `k` words from an offset (13 TIO_ENC_DATA and its like). -/
def tioStaged (off k : Nat) (s : State) : List Byte := (List.range k).flatMap (fun j => leBytes 4 (rdReg 10 1 (off + 4 * j) s).toNat)

/-- An encoder's fields (13 R309). -/
def TioEnc.mode (e : TioEnc) : Nat := byteAt e.cfg 0 % 4
def TioEnc.invert (e : TioEnc) : Bool := natBit (byteAt e.cfg 0) 2
def TioEnc.zReset (e : TioEnc) : Bool := natBit (byteAt e.cfg 0) 3
def TioEnc.compare (e : TioEnc) : Nat := leField e.cfg 8 4

/-- Whether an encoder entry keeps the table of R309. -/
def encTableOk (b : List Byte) : Bool :=
  let m := byteAt b 0 % 4
  decide (m ≤ 2 ∧ byteAt b 2 < 4 ∧ leField b 12 4 = 0) && (m != 1 || decide (1 ≤ byteAt b 0 / 16))
    && (m != 2 || decide (8 ≤ byteAt b 1 ∧ byteAt b 1 ≤ 32 ∧ 9 ≤ byteAt b 3))

/-- An encoder configured, unless a running slot reads it. Causes 1 and 2 stay until it is revalidated; causes 3 and 4 go with the entry they were found
under (13 R309; DEDUCED, log entry 43). -/
def encConfigure (n : Nat) (s : State) : State :=
  let b := tioStaged 0x44 4 s
  if encTableOk b = false ∨ startedUses (fun v _ => natBit v.encMask n) s = true then tioRefuse 1 n s
  else
    let c := (tioEnc n s).cause
    let e : TioEnc := { tioEnc n s with cfg := b, cause := if c ≤ 2 then c else 0, seen := false, ab := none, counts := [] }
    setEnc n { e with zArm := e.zReset && e.mode == 1 } s

/-- An encoder counts as valid again; causes 3 and 4 clear only at a good read (13 R309). -/
def encRevalidate (n : Nat) (s : State) : State :=
  let e := tioEnc n s
  if e.mode = 0 ∨ 3 ≤ e.cause then s
  else
    let s1 := setEnc n { e with cause := 0, last := e.pos, zArm := e.zReset && e.mode == 1, counts := [] } s
    if e.cause = 0 then s1 else raise { c := 10, i := 1, bit := 6, code := 0x0A10, ctx := n, payload := e.pos } s1

/-- TIO_ENC_CMD written (13). -/
def wrEncCmd (v : Word) (s : State) : State :=
  let n := rdField 10 1 0x40 3 0 s
  match v.field 1 0 with
  | 1 => encConfigure n s
  | 2 => encRevalidate n s
  | _ => s

/-- ENC_CONFIGURE (13 R309). -/
def execEncConfigure (r : Req) (s : State) : Out := .next (onReg r 10 1 0x54 (wrEncCmd 1) s)

/-- ENC_REVALIDATE (13 R309). -/
def execEncRevalidate (r : Req) (s : State) : Out := .next (onReg r 10 1 0x54 (wrEncCmd 2) s)

/-- Whether a position is crossed by a move: from `a` to `b` the shorter way round, `a` itself left out (13 R309 compare). -/
def crossed (a b c : Nat) : Bool :=
  let d := signed 32 (wrapNat 32 ((b : Int) - (a : Nat)))
  let e := signed 32 (wrapNat 32 ((c : Int) - (a : Nat)))
  decide ((0 < e ∧ e ≤ d) ∨ (d ≤ e ∧ e < 0))

/-- An encoder invalid for a cause: raised when it was valid (13 R309). -/
def encInvalid (n cause : Nat) (inj : Bool) (s : State) : State :=
  let e := tioEnc n s
  if e.cause ≠ 0 then (if 3 ≤ e.cause then setEnc n { e with cause := cause } s else s)
  else raise { c := 10, i := 1, bit := 5, code := 0x3A10, ctx := n, payload := cause + e.last * 8 + injFlag inj } (setEnc n { e with cause := cause } s)

/-- A new position: kept as the last valid one while valid, compare triggers fired (13 R296, R309). -/
def encMove (n pos : Nat) (s : State) : State :=
  let e := tioEnc n s
  let hit := crossed e.pos pos e.compare
  let s1 := setEnc n { e with pos := pos, last := if e.cause = 0 then pos else e.last } s
  if hit then fireSlots 3 n s1 else s1

/-- A quadrature sample: a count for one change of A or B, cause 1 for two, cause 2 for too many counts in 10 µs, the index (13 R309; PRESUMED, log entry 43). -/
def encQuad (n : Nat) (a b z : Bool) (s : State) : State :=
  let e := tioEnc n s
  let now := devNow s
  let first := e.ab.isNone
  let o := e.ab.getD (a, b)
  let s1 := setEnc n { e with ab := some (a, b), z := z } s
  let s2 :=
    if o.1 ≠ a ∧ o.2 ≠ b then encInvalid n 1 false s1
    else if o.1 = a ∧ o.2 = b then s1
    else
      let lead := if o.1 ≠ a then a != b else b == a
      let up := lead != e.invert
      let cs := (e.counts.filter (fun t => decide (now < t + 10000))) ++ [now]
      let rate := let m := leField e.cfg 4 4; if m = 0 then 50000000 else m
      let s3 := setEnc n { tioEnc n s1 with counts := cs } s1
      let s4 := encMove n (wrapNat 32 ((e.pos : Int) + (if up then 1 else -1))) s3
      if rate < cs.length * 100000 then encInvalid n 2 false s4 else s4
  if z = true ∧ e.z = false ∧ first = false then
    let e2 := tioEnc n s2
    let s5 := if e2.zArm then setEnc n { e2 with pos := 0, last := if e2.cause = 0 then 0 else e2.last, zArm := false, seen := true } s2 else s2
    fireSlots 2 n s5
  else s2

/-- The binary number of a Gray code. -/
def grayToBin (n v : Nat) : Nat := (List.range n).foldl (fun a k => a ^^^ (v / 2 ^ k)) 0

/-- A serial read (13 R309). -/
def encSerial (n data : Nat) (par start : Bool) (s : State) : State :=
  let e := tioEnc n s
  let bits := byteAt e.cfg 1
  let d := data % 2 ^ bits
  if start = false then encInvalid n 4 false s
  else if natBit (byteAt e.cfg 2) 1 = true ∧ (popCount bits d + b2n par) % 2 = 1 then encInvalid n 3 false s
  else
    let v := if natBit (byteAt e.cfg 2) 0 then grayToBin bits d else d
    let pos := if e.invert then wrapNat 32 (-(v : Int)) else v
    let s1 := setEnc n { e with cause := if e.cause ≤ 2 then e.cause else 0 } s
    let s2 := encMove n pos s1
    if e.cause ≤ 2 then s2 else raise { c := 10, i := 1, bit := 6, code := 0x0A10, ctx := n, payload := pos } s2

/-- ENC_SAMPLE (13 R309). -/
def execEncSample (n : Nat) (x : EncIn) (s : State) : Out :=
  .next (
    let e := tioEnc n s
    if 16 ≤ n ∨ blockEnabled 10 1 s = false then s
    else match x with
      | .quad a b z => if e.mode ≠ 1 then s else if armed 10 1 5 s then encInvalid n 1 true (disarm 10 1 5 s) else encQuad n a b z s
      | .serial d p st => if e.mode ≠ 2 then s else if armed 10 1 5 s then encInvalid n 1 true (disarm 10 1 5 s) else encSerial n d p st s)

/-- A discrete input's fields (13 R310). -/
def TioDin.minPulse (d : TioDin) : Nat := leField d.cfg 0 2
def TioDin.trigFalling (d : TioDin) : Bool := natBit (byteAt d.cfg 2) 1
def TioDin.maxActive (d : TioDin) : Nat := leField d.cfg 4 4

/-- DIN_RECOVERED (13 R321). -/
def dinRecovered (n : Nat) (stuck : Bool) (s : State) : State :=
  raise { c := 10, i := 1, bit := 9, code := 0x0A11, ctx := n, payload := b2n stuck } s

/-- The filtered level of an input changes: triggers fire, an active time starts or a stuck input recovers (13 R296, R310). -/
def dinSet (n : Nat) (lvl : Bool) (s : State) : State :=
  let d := tioDin n s
  if d.level = lvl then s
  else
    let d1 := { d with level := lvl, rejects := 0 }
    let d2 := { d1 with active := if d1.reads then some s.time.clk else none, stuck := d1.stuck && d1.reads }
    let s1 := setDin n d2 s
    let s2 := if d.stuck && !d2.reads then dinRecovered n true s1 else s1
    if d2.reads = !d2.trigFalling then fireSlots 6 n s2 else s2

/-- DIN_OVERRATE: the input reads its last stable level (13 R310, R321). -/
def dinFast (n : Nat) (inj : Bool) (s : State) : State :=
  let d := tioDin n s
  if d.fast then s
  else raise { c := 10, i := 1, bit := 7, code := 0x3A11, ctx := n, payload := b2n d.reads + injFlag inj } (setDin n { d with fast := true, rejects := 0 } s)

/-- DIN_STUCK: the input keeps reading 1 (13 R310, R321). -/
def dinStuck (n us : Nat) (inj : Bool) (s : State) : State :=
  let d := tioDin n s
  if d.stuck then s
  else raise { c := 10, i := 1, bit := 8, code := 0x3A12, ctx := n, payload := us % 2 ^ 32 + injFlag inj } (setDin n { d with stuck := true } s)

/-- A raw level that has stood for min_pulse is the filtered one (13 R310). -/
def dinSettle (n : Nat) (s : State) : State :=
  let d := tioDin n s
  if d.fast then
    if d.since + 16 * d.minPulse * tioTick ≤ s.time.clk then dinSet n d.raw (dinRecovered n false (setDin n { d with fast := false, rejects := 0 } s)) else s
  else if d.raw ≠ d.level ∧ d.since + d.minPulse * tioTick ≤ s.time.clk then dinSet n d.raw s
  else s

/-- The armed injections of the inputs, on the input that next changes (13 R321). -/
def dinInject (n : Nat) (s : State) : State :=
  let s1 := if armed 10 1 7 s then dinFast n true (disarm 10 1 7 s) else s
  if armed 10 1 8 s1 then
    let d := tioDin n s1
    dinStuck n (match d.active with | some t => (s1.time.clk - t) / oneUs | none => 0) true (disarm 10 1 8 s1)
  else s1

/-- DIN_EDGE: the raw level changes; a level shorter than min_pulse is rejected, and four in a row make the input over-rate (13 R310). -/
def execDinEdge (n : Nat) (s : State) : Out :=
  .next (
    if 32 ≤ n ∨ blockEnabled 10 1 s = false then s
    else
      let s1 := dinInject n (dinSettle n s)
      let d := tioDin n s1
      let short := d.raw != d.level && !d.fast
      let s2 := setDin n { d with raw := !d.raw, since := s1.time.clk, rejects := if short then d.rejects + 1 else d.rejects } s1
      if short && decide (4 ≤ d.rejects + 1) then dinFast n false s2 else s2)

/-- DIN_LEVEL_STABLE: the raw level has stood for min_pulse, or 16 times it after over-rate (13 R310). -/
def execDinLevelStable (n : Nat) (s : State) : Out :=
  .next (
    let d := tioDin n s
    if 32 ≤ n ∨ blockEnabled 10 1 s = false then s
    else if d.fast then dinSettle n (advanceTo (d.since + 16 * d.minPulse * tioTick) s)
    else if d.raw ≠ d.level then dinSettle n (advanceTo (d.since + d.minPulse * tioTick) s)
    else s)

/-- DIN_STUCK: a filtered 1 has been held longer than max_active_us (13 R310). -/
def execDinStuck (n : Nat) (s : State) : Out :=
  .next (
    let d := tioDin n s
    match d.active with
    | none => s
    | some t =>
      if 32 ≤ n ∨ d.maxActive = 0 ∨ d.stuck = true then s
      else let s1 := advanceTo (t + d.maxActive * oneUs + 1) s; dinStuck n ((s1.time.clk - t) / oneUs) false s1)

/-- TIO_DIN_CMD written (13 R310). -/
def wrDinCmd (v : Word) (s : State) : State :=
  let n := rdField 10 1 0x60 4 0 s
  let b := tioStaged 0x64 2 s
  if v.field 0 0 = 0 then s
  else if leField b 0 2 = 0 ∨ 4 ≤ byteAt b 2 ∨ byteAt b 3 ≠ 0 then tioRefuse v.toNat n s
  else
    let d := { tioDin n s with cfg := b, rejects := 0 }
    setDin n { d with active := if d.reads then some s.time.clk else none, stuck := d.stuck && d.reads } s

/-- DIN_CONFIGURE (13 R310). -/
def execDinConfigure (r : Req) (s : State) : Out := .next (onReg r 10 1 0x6C (wrDinCmd 1) s)

/-- Whether an ADC entry keeps the table of R311. -/
def adcTableOk (b : List Byte) : Bool :=
  decide (byteAt b 0 < 32 ∧ 16 ≤ byteAt b 1 ∧ byteAt b 1 ≤ 32 ∧ byteAt b 3 / 32 % 4 = 0 ∧ 8 ≤ byteAt b 3 % 32 ∧ byteAt b 3 % 32 ≤ 24 ∧ 1 ≤ byteAt b 4
    ∧ leField b 5 3 = 0 ∧ 1000 ≤ leField b 8 4 ∧ leField b 8 4 ≤ 1000000)

/-- Whether a started slot reads an ADC master (13 TIO_ADC_CMD). -/
def adcUsed (m : Nat) (s : State) : Bool := startedUses (fun v _ => v.adcMask / 2 ^ (8 * m) % 256 != 0) s

/-- TIO_ADC_CMD written (13 R311). -/
def wrAdcCmd (v : Word) (s : State) : State :=
  let m := rdField 10 1 0x98 1 0 s
  let b := tioStaged 0x9C 8 s
  match v.field 1 0 with
  | 1 => if adcTableOk b = false ∨ adcUsed m s = true then tioRefuse v.toNat m s else setAdc m { tioAdc m s with cfg := b } s
  | 2 => setAdc m { tioAdc m s with running := true, next := devNow s + leField (tioAdc m s).cfg 8 4 } s
  | 3 => if adcUsed m s then tioRefuse v.toNat m s else setAdc m { tioAdc m s with running := false } s
  | _ => s

/-- ADC_CONFIGURE (13 R311). -/
def execAdcConfigure (r : Req) (s : State) : Out := .next (onReg r 10 1 0xBC (wrAdcCmd 1) s)

/-- ADC_START (13 R311). -/
def execAdcStart (r : Req) (s : State) : Out := .next (onReg r 10 1 0xBC (wrAdcCmd 2) s)

/-- ADC_STOP (13 R311). -/
def execAdcStop (r : Req) (s : State) : Out := .next (onReg r 10 1 0xBC (wrAdcCmd 3) s)

/-- The reading in a frame: a field of it, extended (13 R311). -/
def adcReading (cfg : List Byte) (frame : Nat) : Nat :=
  let w := byteAt cfg 3 % 32
  let v := frame % 2 ^ (byteAt cfg 1) / 2 ^ (byteAt cfg 2) % 2 ^ w
  if natBit (byteAt cfg 3) 7 then wrapNat 32 (signed w v) else v

/-- ADC_SEQUENCE: the period expires and the frames of a sequence are read (13 R311). -/
def execAdcSequence (m : Nat) (frames : List Nat) (s : State) : Out :=
  .next (
    let a := tioAdc m s
    if 4 ≤ m ∨ a.running = false ∨ blockEnabled 10 1 s = false then s
    else
      let s1 := advanceToDev a.next s
      let n := byteAt a.cfg 0 % 8 + 1
      let rd := ((frames.take n).zipIdx).foldl (fun (t : Tbl (Nat × Nat)) e => Tbl.set (0, 0) t e.2 (adcReading a.cfg e.1, devNow s1)) a.readings
      setAdc m { a with readings := rd, next := a.next + leField a.cfg 8 4 } s1)

/-- Whether a PWM entry keeps the table of R312. -/
def pwmTableOk (n : Nat) (b : List Byte) : Bool :=
  decide (byteAt b 0 < 32 ∧ byteAt b 0 / 8 % 4 ≠ 3 ∧ leField b 2 2 = 0 ∧ 20 ≤ leField b 4 4 ∧ leField b 4 4 ≤ 1000000)
    && (n % 2 == 0 || !natBit (byteAt b 0) 1)

/-- TIO_PWM_CMD written; both operations are refused for a channel that a started slot writes (13 R312). -/
def wrPwmCmd (v : Word) (s : State) : State :=
  let n := rdField 10 1 0x7C 4 0 s
  let op := v.field 1 0
  let used := startedUses (fun _ l => (pwmsOf l).contains n) s
  let b := tioStaged 0x80 4 s
  match op with
  | 1 => if 24 ≤ n ∨ used = true ∨ pwmTableOk n b = false then tioRefuse v.toNat n s
         else setPwm n { tioPwm n s with cfg := b, conf := true, driving := permitted s } s
  | 2 => if 24 ≤ n ∨ used = true then tioRefuse v.toNat n s else setPwm n { tioPwm n s with conf := false, driving := false } s
  | _ => s

/-- PWM_CONFIGURE (13 R312). -/
def execPwmConfigure (r : Req) (s : State) : Out := .next (onReg r 10 1 0x90 (wrPwmCmd 1) s)

/-- PWM_RELEASE (13 R312). -/
def execPwmRelease (r : Req) (s : State) : Out := .next (onReg r 10 1 0x90 (wrPwmCmd 2) s)

/-- The next device time, in ns, at which a channel's period starts, after `t` (13 R312). -/
def pwmNext (cfg : List Byte) (t : Nat) : Nat :=
  let p := leField cfg 4 4
  let ph := leField cfg 12 4 % p
  let k := t / 5 + 1
  (k + (p + ph - k % p) % p) * 5

/-- PWM_PERIOD_START: the latest compare takes effect, a channel that may drive again does, and triggers fire (13 R296, R312, R313). -/
def execPwmPeriodStart (n : Nat) (s : State) : Out :=
  .next (
    let p := tioPwm n s
    if 24 ≤ n ∨ p.conf = false then s
    else
      let s1 := advanceToDev (pwmNext p.cfg (devNow s)) s
      fireSlots 5 n (setPwm n { p with act := p.next, actSafe := p.nextSafe, driving := permitted s1 } s1))

/-- The channel whose entry a pin follows: its own, or that of the even channel it is paired with (13 R312). -/
def pwmLead (n : Nat) (s : State) : Nat :=
  if n % 2 = 1 ∧ (tioPwm (n - 1) s).conf = true ∧ natBit (byteAt (tioPwm (n - 1) s).cfg 0) 1 = true then n - 1 else n

/-- TIO_PWM_STATE: the configured channels that drive a safe level or safe_duty (13). -/
def pwmState (s : State) : Nat :=
  bitsOf 24 (fun n => let p := tioPwm (pwmLead n s) s; p.conf && (!p.driving || p.actSafe))

/-- STOP_N_ASSERT: SAFE_OUT drops and the PWM channels go to their safe levels (13 R313; 15 R342). -/
def execStopNAssert (s : State) : Out :=
  .next (trip 2 0 { s with tio := { s.tio with stopN := true } })

/-- STOP_N_RELEASE: channels resume at their next period start once nothing stops them (13 R313). -/
def execStopNRelease (s : State) : Out := .next { s with tio := { s.tio with stopN := false } }

end Sys2Proof.Machine
end

