-- ==== Sys2Proof/Machine/RegRead.lean ====
section
/-! DEFINITION. What a register reads as, and what a read does (02 R37, R39 to R44; the register pages of 05 and 07 to 19). -/

namespace Sys2Proof.Machine

/-- Word k of a list of bytes. -/
def wordAt (b : List Byte) (k : Nat) : Word := BitVec.ofNat 32 (leField b (4 * k) 4)

/-- A signed number saturated to a field of `n` bits. -/
def satField (n : Nat) (i : Int) : Nat := wrapNat n (clampInt (-(2 ^ (n - 1) - 1 : Nat)) (2 ^ (n - 1) - 1 : Nat) i)

/-- Whether NS of a Quill is neither in use nor failed (05 BLOCK_CAPS.ns_available). -/
def nsAvailable (q : Nat) (s : State) : Bool := let v := quill q s; !v.nsInUse && !v.nsFailed

/-- BLOCK_CAPS of a page (02). -/
def capsReg (c i : Nat) (s : State) : Nat :=
  let hi := if c = 2 then (quill i s).fmax % 2048 + 2048 * b2n (nsAvailable i s) else blockCaps c i
  hi * 65536 + blockDomain c i * 256 + eventCount c i

/-- The code of a Quill's state (05 QL_STATE). -/
def QuillState.code : QuillState → Nat
  | .free => 0 | .loading => 1 | .running => 2 | .waiting => 3 | .stopping => 4 | .withdrawn => 5

/-- The banks that are not ON. -/
def banksOff (n : Nat) (s : State) : Nat := bitsOf 16 (fun b => ((spad n s).bank b).st != .on)

/-- STATUS.block_status of a page, at its place in the register (02 STATUS; the register pages of 05 and 07 to 19). -/
def blockStatus (c i : Nat) (s : State) : Nat :=
  match c with
  | 2 => (quill i s).st.code * 256
  | 3 => banksOff i s * 256
  | 4 => b2n (mc i s).selfRef * 256 + b2n (mc i s).filling * 512
  | 5 => linkState i s * 256
  | 6 => b2n s.qe.stFull * 256
  | 7 => b2n ((List.range 8).any (fun g => (grp g s).st == 2)) * 256
  | 8 => b2n (s.car.phy.contains i) * 256
  | 9 => fnCode s * 256
  | 10 => if i = 0 then b2n ((List.range 64).any (fun n => (trSlot n s).st == 2)) * 256 + rdField 10 0 0x84 0 0 s * 512
          else b2n (!permitted s) * 256
  | 11 => (canCtl i s).st * 256
  | 12 => b2n s.sn.safeOut * 256 + b2n (s.sn.up && cfgOpen s) * 512
  | 13 => b2n (coolantLost s) * 256 + b2n (!s.pwr.droops.isEmpty || !s.pwr.emerg.isEmpty || coolantLost s) * 512 + rdField 13 0 0x50 0 0 s * 1024
  | 14 => rdField 14 i 0x40 2 0 s * 256
  | _ => 0

/-- STATUS of a page (02 STATUS). -/
def statusReg (c i : Nat) (s : State) : Nat :=
  blockStatus c i s + 8 * b2n (blockOwned c i s) + 4 * b2n (blockPowered c i s) + 2 * b2n (s.resetting.contains (pageKey c i / 0x1000))
    + b2n (blockEnabled c i s)

/-- QL_STATE to QL_NIB_MAP of a Quill (05). -/
def quillReg (q off : Nat) (s : State) : Nat :=
  let v := quill q s
  match off with
  | 0x40 => v.job * 65536 + b2n v.copyB * 1024 + b2n v.det * 512 + v.wait * 16 + v.st.code
  | 0x44 => v.count * 256 + v.rank
  | 0x48 => v.loops.length * 16384 + v.pc % 16384
  | 0x4C => v.opIndex
  | 0x50 => v.fmax * 65536 + v.mhz
  | _ => b2n v.sparePending * 2 ^ 23 + b2n v.withdrawn * 2 ^ 22 + b2n v.nsFailed * 2 ^ 21 + b2n v.nsInUse * 2 ^ 20 + v.spared * 65536 + v.failed

/-- The banks of the lines that await a fill which is not held (09 SPAD_FILL_STATUS). -/
def fillBanks (p : Spad) : Nat :=
  bitsOf 16 (fun b => p.pendShares.any (fun q => b / 4 == q) || (b == 15 && !p.pendUnits.isEmpty))

/-- The live registers of a scratchpad page (09). -/
def spadReg (n off : Nat) (s : State) : Nat :=
  let p := spad n s
  let bk := fun b => p.bank b
  match off with
  | 0x40 => ((List.range 16).map (fun b => (bk b).st.code * 4 ^ b)).sum
  | 0x48 => b2n (!p.heldShares.isEmpty || !p.heldUnits.isEmpty) * 2 ^ 21 + b2n (!(p.pendUnits ++ p.heldUnits).isEmpty) * 2 ^ 20
      + bitsOf 4 (fun q => (p.pendShares ++ p.heldShares).contains q) * 65536 + fillBanks p
  | 0x78 => ((List.range 16).foldl (fun m b => min m (bk b).passes) (bk 0).passes) % 65536 * 65536 + (bk 0).pos % 65536
  | _ => let k := (off - 0x84) / 4; ((List.range 4).map (fun i => (bk (4 * k + i)).spares % 64 * 256 ^ i)).sum

/-- The live registers of a memory controller's page (10). -/
def mcReg (m off : Nat) (s : State) : Nat :=
  let k := mc m s
  match off with
  | 0x4C => (match slotOwner (rdField 4 m 0x48 5 0 s) s with | some j => j * 65536 + 1 | none => 0xFFFF0000)
  | 0x6C => rdField 4 m 0x6C 31 16 s * 65536 + min k.wb.length 32
  | _ => let b := rdField 4 m 0x88 7 0 s; Tbl.get 0 k.lastRow b % 65536 * 16 + k.left b

/-- A count of a manager's list. -/
def count24 {α : Type} (l : List α) : Nat := min l.length 0xFFFFFF

/-- The live registers of the queue engine's and the cache manager's page (07, 11). -/
def qeReg (off : Nat) (s : State) : Nat :=
  if 0x4C ≤ off ∧ off ≤ 0x88 then
    if qeBase s = 0 then 0 else (wordAt (qDesc (rdField 6 0 0x48 19 0 s) s).bytes ((off - 0x4C) / 4)).toNat
  else
    let n := s.qe.cache.length
    let pin := (s.qe.cache.filter (fun e => e.2.pinned)).length
    match off with
    | 0x98 => min n 4095 * 65536 + b2n (decide (4096 ≤ n)) * 32768 + pin % 2048
    | 0x9C => b2n s.qe.stFull * 65536 + b2n (decide (2048 ≤ pin)) * 32768 + (if 2048 ≤ s.qe.staging.length then 0 else s.qe.staging.length)
    | 0x428 => s.cc.epoch
    | 0x42C => horizon s
    | 0x430 => count24 s.cc.freeFolios
    | 0x434 => count24 s.cc.freeSlots
    | 0x438 => count24 s.cc.limboFolios
    | 0x43C => count24 s.cc.limboSlots
    | 0x440 => rdField 6 0 0x440 25 16 s * 65536 + s.cc.tickets.length
    | _ => b2n s.cc.advance * 4 + b2n s.cc.held * 2

/-- The live registers of the control engine's page (13). -/
def trReg (r : Req) (off : Nat) (s : State) : Nat :=
  let n := rdField 10 0 0x40 5 0 s
  let v := trSlot n s
  if 0x44 ≤ off ∧ off ≤ 0x60 then (wordAt v.cfg ((off - 0x44) / 4)).toNat
  else match off with
    | 0x68 => slotCycles v % 2048 * 256 + b2n v.saturated * 128 + (if v.st = 2 then v.cause * 16 else 0) + v.st
    | 0x6C => slotWcl n s % 2 ^ 20
    | 0x78 => (Tbl.get 0 s.tr.staged (reqCode r)).toNat
    | 0xB4 => (rdReg 10 0 0xB4 s).toNat % 65536 + min s.tr.caps.length 1024 * 65536
    | _ => (capWord s).toNat

/-- The live registers of the I/O block's page (13). -/
def tioReg (off : Nat) (s : State) : Nat :=
  let e := tioEnc (rdField 10 1 0x40 3 0 s) s
  if 0x44 ≤ off ∧ off ≤ 0x50 then (wordAt e.cfg ((off - 0x44) / 4)).toNat
  else if off = 0x64 ∨ off = 0x68 then (wordAt (tioDin (rdField 10 1 0x60 4 0 s) s).cfg ((off - 0x64) / 4)).toNat
  else if 0x80 ≤ off ∧ off ≤ 0x8C then (wordAt (tioPwm (rdField 10 1 0x7C 4 0 s) s).cfg ((off - 0x80) / 4)).toNat
  else if 0x9C ≤ off ∧ off ≤ 0xB8 then (wordAt (tioAdc (rdField 10 1 0x98 1 0 s) s).cfg ((off - 0x9C) / 4)).toNat
  else match off with
    | 0x58 => b2n e.seen * 16 + e.cause * 2 + b2n (decide (e.cause = 0 ∧ byteAt e.cfg 0 % 4 ≠ 0))
    | 0x5C => e.pos
    | 0x70 => bitsOf 32 (fun n => (tioDin n s).level)
    | 0x74 => bitsOf 32 (fun n => (tioDin n s).fast)
    | 0x78 => bitsOf 32 (fun n => (tioDin n s).stuck)
    | _ => pwmState s

/-- The live registers of a CAN controller's page (14). -/
def canReg (c off : Nat) (s : State) : Nat :=
  let v := canCtl c s
  let k := rdField 11 c 0x54 5 0 s
  if 0x58 ≤ off ∧ off ≤ 0x74 then
    let b := match rdField 11 c 0x54 7 6 s with | 0 => (v.tb k).desc | 1 => Tbl.get [] v.filters k | 2 => Tbl.get [] v.allow k | _ => []
    (wordAt b ((off - 0x58) / 4)).toNat
  else if 0x100 ≤ off then (if 16 ≤ k then 0 else (wordAt (v.tb k).pay ((off - 0x100) / 4)).toNat)
  else match off with
    | 0x50 => v.lastErr % 8 * 2 ^ 20 + b2n v.recovering * 2 ^ 18 + v.st * 65536 + min v.rxc 255 * 256 + min v.tec 255
    | _ => bitsOf 16 (fun b => (v.tb b).held.isSome) * 65536 + bitsOf 16 (fun b => decide ((v.tb b).st ≠ 0))

/-- The live registers of the checker's page (15). -/
def snReg (off : Nat) (s : State) : Nat :=
  match off with
  | 0x40 => (snStateReg s).toNat
  | 0x78 => rdField 12 0 0x78 31 16 s * 65536 + min s.sn.stLeft.length 65535
  | 0x88 => (logWord s).toNat
  | _ => (wordAt (snGet (rdField 12 0 0x58 10 9 s) (rdField 12 0 0x58 8 0 s) s) ((off - 0x5C) / 4)).toNat

/-- PWR_QUILL of the selected Quill (16). -/
def pwrQuillReg (q : Nat) (s : State) : Nat :=
  if 192 ≤ q then 0
  else
    let r := quillRate q s
    let gated := r == 0 || !domainOn (q / 4) s
    let job := findJob (quill q s).job s
    let det := match job with | some j => j.live && j.d.det | none => false
    let t := throughput q s
    b2n gated * 2 ^ 29 + b2n (!gated && r != 2 * (quill q s).mhz) * 2 ^ 28 + b2n det * 2 ^ 27
      + (match t with | some j => floorMhz j s | none => 1500) * 65536
      + (match t with | some j => min (Tbl.get 0 s.pwr.grants j.d.id / max j.quills.length 1) 65535 | none => 0)

/-- The hottest junction sensor read, and its temperature (16 PWR_TEMP_MAX). -/
def hottest (s : State) : Option (Nat × Int) :=
  (s.pwr.temps.filter (fun e => decide (e.1 < 64))).foldl (fun m e => match m with | some x => if x.2 < e.2 then some e else m | none => some e) none

/-- The live registers of the arbiter's page (16). -/
def pwrReg (off : Nat) (s : State) : Nat :=
  match off with
  | 0x58 => pwrQuillReg (rdField 13 0 0x54 7 0 s) s
  | 0x5C => quillMax s
  | 0x70 => (match tempOf (rdField 13 0 0x6C 5 0 s) s with | some t => 256 + wrapNat 8 t | none => 0)
  | 0x74 => (match hottest s with | some e => e.1 * 256 + wrapNat 8 e.2 | none => 0)
  | _ => let r := pwrRail (rdField 13 0 0x94 2 0 s) s; r.mv * 65536 + (if r.missing then 0 else min (r.mw / 100) 65535)

/-- Bytes that frames of a port take in a buffer, by a unit. -/
def bufUnits (l : List HostCmd) (p unit : Nat) : Nat := ((l.filter (fun f => f.port == p)).map (fun f => (f.len + unit - 1) / unit)).sum

/-- The live registers of a host port's page (18). -/
def hostReg (p off : Nat) (s : State) : Nat :=
  match off with
  | 0x40 => (rdReg 14 p 0x40 s).toNat % 2048 + 16 * b2n ((Tbl.find? s.host.peers p).isSome && !natBit (rdReg 14 p 0x40 s).toNat 4)
  | 0x48 => leField s.sec.colophon 52 4
  | 0x4C => leField s.sec.colophon 56 2 + p * 256
  | _ => ((s.host.data.filter (fun f => f.port == p)).map (fun f => f.len)).sum / 1024 % 256 * 65536 + min (bufUnits s.host.prio p 64) 256

/-- The current owner slot: the lowest one written and not revoked (19 R459). -/
def ownerSlot (s : State) : Option (Nat × Owner) :=
  [0, 1, 2, 3].findSome? (fun n => match Tbl.find? s.sec.owners n with | some o => if o.revoked then none else some (n, o) | none => none)

/-- Vendor tokens are accepted (19 DBG_STATE.vendor_allowed). -/
def vendorAllowed (s : State) : Bool := s.sec.owners.isEmpty || s.sec.vendorRec

/-- What a body holds, as numbers. -/
def SetBody.nums : SetBody → List Nat
  | .bytes l => l.map BitVec.toNat
  | .train m serial temp => [m, serial, temp]
  | .nibs q m => [q, m.failed, m.spared, b2n m.nsInUse, b2n m.nsFailed, b2n m.withdrawn]
  | .spadRows n rows | .mcRows n rows => n :: rows
  | .lanes p w => [p, w]
  | .fmax q mhz => [q, mhz]
  | .guard mv => [mv]
  | .boots n => [n]

/-- A body's bytes, a multiple of 4 and at most 65,536 (19 R453, R454): those of the kinds that the device makes are laid out in `Config`, but the boot
count's. -/
def SetBody.layout (kind : Nat) (b : SetBody) : List Byte :=
  match b with
  | .bytes l => l
  | .boots n => leBytes 4 n
  | _ => let l := (Config.bodyLayout kind b.nums).take 65536; l ++ List.replicate ((4 - l.length % 4) % 4) 0

/-- Bytes of a settings record (19 R453): an authenticator of 32 bytes for auth 0, of an HSS signature for the others. -/
def SetRec.size (r : SetRec) : Nat :=
  match r.body with
  | .bytes l => if r.raw = [] then 32 + l.length + (if r.auth = 0 then 32 else 2964) else r.raw.length
  | b => 32 + (b.layout r.kind).length + 32

/-- Bytes left in the current settings bank of 8 MiB, behind its header of 64 bytes (19 R445, R455). -/
def settingsFree (s : State) : Nat := 0x800000 - 64 - (s.settings.recs.map SetRec.size).sum

/-- The live registers of the management and security pages (19). -/
def mgReg (i off : Nat) (s : State) : Nat :=
  match i, off with
  | 1, 0x40 => s.sec.recov % 32 * 256 + s.sec.main % 128
  | 1, 0x44 => bitsOf 4 (fun n => match Tbl.find? s.sec.owners n with | some o => o.revoked | none => false) * 16
      + 8 * b2n (Tbl.find? s.sec.owners 0).isSome + (match ownerSlot s with | some e => e.1 % 4 | none => 0)
  | 1, 0x48 => b2n (decide (1024 ≤ s.sec.fuses)) * 2 ^ 26 + b2n s.sec.treeGen * 2 ^ 25
      + s.sec.bottom % 32768 * 1024 + s.sec.fuses % 1024
  | 2, 0x40 => (s.settings.generation + 1) % 2 * 1024 + b2n s.settings.compacting * 512 + b2n s.sec.stage.isSome * 256 + Config.flashDensity % 3
  | 2, _ => settingsFree s / 1024
  | 3, _ => (if debugOpen s then min ((s.sec.dbgEnd - s.time.clk) / 3000000000) 65535 * 65536 else 0) + b2n (vendorAllowed s) * 64 + (rdReg 15 3 0x40 s).toNat % 64
  | _, _ => leField s.sec.colophon (off - 0x100) 4

/-- The value of a register with a state of its own behind it; none where it reads as it is held (02 R37). -/
def liveReg (r : Req) (c i off : Nat) (s : State) : Option Nat :=
  let pick := fun (l : List Nat) (v : Nat) => if l.contains off then some v else none
  let span := fun (a b : Nat) (v : Nat) => if a ≤ off ∧ off ≤ b then some v else none
  match off with
  | 0x00 => some (c * 2 ^ 24 + i * 65536 + 0x4101)
  | 0x04 => some (capsReg c i s)
  | 0x0C => some (statusReg c i s)
  | _ =>
    match c with
    | 0 => pick [0x58] (satField 16 s.time.offset * 65536 + (rdReg 0 0 0x58 s).toNat % 8 / 4 * 4 + 2 * b2n (s.time.slew == .slow) + b2n s.time.locked)
    | 2 => span 0x40 0x54 (quillReg i off s)
    | 3 => if 0x50 ≤ off ∧ off ≤ 0x6C then some (wordAt ((spad i s).win (rdField 3 i 0x4C 6 0 s)).bytes ((off - 0x50) / 4)).toNat
           else if 0x84 ≤ off ∧ off ≤ 0x90 then some (spadReg i off s) else pick [0x40, 0x48, 0x78] (spadReg i off s)
    | 4 => pick [0x4C, 0x6C, 0x8C] (mcReg i off s)
    | 5 => if 0x78 ≤ off ∧ off ≤ 0x80 then some (detRead i off s).toNat
           else if i = 0 ∧ off = 0x124 then some (peerState s).toNat else if i = 0 ∧ off = 0x128 then some (downLinks s) else none
    | 6 => if 0x4C ≤ off ∧ off ≤ 0x88 then some (qeReg off s) else if 0x428 ≤ off ∧ off ≤ 0x440 then some (qeReg off s) else pick [0x98, 0x9C, 0x458] (qeReg off s)
    | 7 => if off = 0x70 then some (stream (rdField 7 0 0x40 4 0 s) s).mean
           else if 0x44 ≤ off ∧ off ≤ 0x6C then some (wordAt (stream (rdField 7 0 0x40 4 0 s) s).cfg ((off - 0x44) / 4)).toNat
           else if 0x7C ≤ off ∧ off ≤ 0x98 then some (wordAt (grp (rdField 7 0 0x78 2 0 s) s).cfg ((off - 0x7C) / 4)).toNat
           else if off = 0xA0 then some (bitsOf 32 (fun n => (stream n s).running))
           else if off = 0xA4 then some (((List.range 8).map (fun g => (grp g s).st * 4 ^ g)).sum) else none
    | 8 => pick [0x50] (camVcStatus i s).toNat
    | 9 => pick [0x44] ((match s.fn.cur with | some f => (FnDesc.read f.desc).job | none => 0xFFFF) * 65536 + fnCode s)
    | 10 => if i = 0 then (if 0x44 ≤ off ∧ off ≤ 0x60 then some (trReg r off s) else pick [0x68, 0x6C, 0x78, 0xB4, 0xBC] (trReg r off s))
            else if 0x44 ≤ off ∧ off ≤ 0x50 ∨ 0x80 ≤ off ∧ off ≤ 0x8C ∨ 0x9C ≤ off ∧ off ≤ 0xB8 then some (tioReg off s)
            else pick [0x58, 0x5C, 0x64, 0x68, 0x70, 0x74, 0x78, 0x94] (tioReg off s)
    | 11 => if 0x58 ≤ off ∧ off ≤ 0x74 ∨ 0x100 ≤ off ∧ off ≤ 0x13C then some (canReg i off s) else pick [0x50, 0x7C] (canReg i off s)
    | 12 => if 0x5C ≤ off ∧ off ≤ 0x68 then some (snReg off s) else pick [0x40, 0x78, 0x88] (snReg off s)
    | 13 => pick [0x58, 0x5C, 0x70, 0x74, 0x98] (pwrReg off s)
    | 14 => pick [0x40, 0x48, 0x4C, 0x5C] (hostReg i off s)
    | 15 => if i = 1 ∧ 0x100 ≤ off ∧ off ≤ 0x1FC then some (mgReg i off s)
            else if (i = 1 ∧ (off = 0x40 ∨ off = 0x44 ∨ off = 0x48)) ∨ (i = 2 ∧ (off = 0x40 ∨ off = 0x44)) ∨ (i = 3 ∧ off = 0x40) then some (mgReg i off s) else none
    | _ => none

/-- The _LO registers of the 64-bit counters (02 R40). -/
def counterLos (c i : Nat) : List Nat :=
  match c with
  | 0 => [0x50]
  | 1 => [0x48]
  | 2 => [0x60, 0x68, 0x70]
  | 4 => [0x70, 0x78, 0x80]
  | 5 => if i = 0 then [0x5C, 0x64, 0x6C, 0x108] else [0x5C, 0x64, 0x6C]
  | 6 => [0xA4, 0xAC, 0x444, 0x44C]
  | 7 => [0xA8]
  | 8 => [0x5C]
  | 9 => [0x4C, 0x54]
  | 10 => if i = 0 then [0xC0, 0xCC] else []
  | 12 => [0x7C]
  | 13 => [0xA0, 0xA8]
  | _ => []

/-- A 64-bit counter's value: device time, ring time and the selected Tally are live (02 R40; 16 PWR_TALLY; 17 RING_TIME). -/
def counterVal (c i lo : Nat) (s : State) : BitVec 64 :=
  if c = 0 ∧ lo = 0x50 then BitVec.ofNat 64 (devNow s)
  else if c = 5 ∧ lo = 0x108 then BitVec.ofNat 64 (ringNow s)
  else if c = 13 ∧ lo = 0xA0 then
    (match findJob (rdField 13 0 0x9C 15 0 s) s with | some j => if j.holds then BitVec.ofNat 64 j.energy else 0 | none => 0)
  else rdCtr c i lo s

/-- The key of a requester path's one shadow (02 R40). -/
def shadowKey (r : Req) : Nat := reqCode r

/-- A read of a _LO register latches the high half (02 R40). -/
def latchHi (r : Req) (c i lo : Nat) (s : State) : State :=
  { s with shadow := Tbl.set 0 s.shadow (shadowKey r) (BitVec.ofNat 32 ((counterVal c i lo s).toNat / 2 ^ 32)) }

/-- RC fields cleared by a read (02 R37). -/
def clearRc (c i off : Nat) (s : State) : State :=
  match regRow c i off with
  | some k => if k.rc = 0 then s else wrReg c i off (rdReg c i off s &&& ~~~(BitVec.ofNat 32 k.rc)) s
  | none => s

/-- What a register of a page reads as (02 R37, R39, R40). -/
def regValue (r : Req) (c i off : Nat) (s : State) : Word :=
  if blockPowered c i s = false ∧ off ≠ 0 ∧ off ≠ 4 ∧ off ≠ 0xC then 0
  else if (counterLos c i).contains off then BitVec.ofNat 32 (counterVal c i off s).toNat
  else if 4 ≤ off ∧ (counterLos c i).contains (off - 4) = true then Tbl.get 0 s.shadow (shadowKey r)
  else match regRow c i off with
    | some _ => (match liveReg r c i off s with | some v => BitVec.ofNat 32 v | none => rdReg c i off s)
    | none => 0

/-- What a read of a register does: latches a shadow, clears RC fields, moves a read port on (02 R37, R40; 13 TR_CAP_READ; 15 SN_LOG_READ). -/
def regReadEffect (r : Req) (c i off : Nat) (s : State) : State :=
  if blockPowered c i s = false then s
  else if (counterLos c i).contains off then latchHi r c i off s
  else if c = 10 ∧ i = 0 ∧ off = 0xBC then capAdvance s
  else if c = 12 ∧ off = 0x88 then logAdvance s
  else clearRc c i off s

/-- A register read by a requester: status, value, state (02 R30 to R40). -/
def readReg (r : Req) (addr size : Nat) (s : State) : RegSt × Word × State :=
  let k := regCheck r false addr size s
  if k.1 ≠ 0 then (k.1, 0, k.2)
  else match regPage addr with
    | some (c, i, off) => (0, regValue r c i off k.2, regReadEffect r c i off k.2)
    | none => (1, 0, k.2)

end Sys2Proof.Machine
end

