-- ==== Sys2Proof/Machine/Inject.lean ====
section
/-! DEFINITION. Event injection, and what the host ports do of themselves: a link lost, a stop latched (02 R46, R47; 18 R438, R442). -/

namespace Sys2Proof.Machine

/-- A host port's link is lost, and goes to a state; frames that wait for its line are lost with it (18 HOST_LINK_STATE, R442; DESIGN CHOICE, log
entry 16). -/
def hostDown (p st : Nat) (inj : Bool) (s : State) : State :=
  let l := rdField 14 p 0x40 2 0 s
  let rate := rdField 14 p 0x40 10 8 s
  let s0 := { s with host := { s.host with lines := Tbl.erase s.host.lines p } }
  let s1 := wrField 14 p 0x40 10 8 0 (wrField 14 p 0x40 2 0 st (wrField 14 p 0x70 1 0 0 s0))
  if l ≠ 2 then s1 else raise { c := 14, i := p, bit := 7, code := 0x5E00, payload := rate % 4 + injFlag inj } s1

/-- A stop latched: the device stop condition, with the effects of STOP_N (18 R438; 13 R313; 15 R342). -/
def latchStop (s : State) : State := trip 2 0 (wrField 14 0 0x120 1 1 1 { s with tio := s.tio.halt })

/-- HOST_STOP_RECEIVED (18 R438, R442). -/
def evStop (p target mac : Nat) : Ev := { c := 14, i := p, bit := 11, code := 0x4E00, payload := target % 256 + mac % 2 ^ 48 * 256 }

/-- A fault-mode injection used up by the next occurrence (02 R46). -/
def arm (c i bit : Nat) (s : State) : State :=
  if armed c i bit s then s else { s with ev := { s.ev with armed := s.ev.armed ++ [(pageKey c i / 0x1000) * 32 + bit] } }

/-- A report-only occurrence; the rest of its record's payload and its context are not laid down (02 R46; DESIGN CHOICE, log entry 3). -/
def reportOnly (c i bit code : Nat) (s : State) : State :=
  let n := fresh s
  raise { c := c, i := i, bit := bit, code := code, ctx := n.1 / 2 ^ 95 % 65536, payload := n.1 % 2 ^ 95 + injFlag true } n.2

/-- A stop frame for this device, as if received; its identifier is not laid down (14 R334, R337; DESIGN CHOICE, log entry 3). -/
def provokeStop (c : Nat) (s : State) : State :=
  let n := fresh s
  let d := leBytes 2 (rdField 11 c 0x94 15 0 s) ++ leBytes 1 (deviceId s) ++ leBytes 1 1
  canStop c 0 { id := n.1 % 2 ^ 29, ide := true, rtr := false, fmt := 0, brs := false, esi := false, len := 4, sdt := 0, vcid := 0, sec := false
                af := 0, data := d, ago := 0 } true n.2

/-- A fault provoked (02 R46; the event tables of 05 and 07 to 19): some act at once, the others at the next occurrence. -/
def provoke (c i bit : Nat) (s : State) : State :=
  match c, bit with
  | 5, 6 => laneFault i 0 false true s
  | 5, 7 => arm 5 i 7 (setPort i { port i s with corrupt := 1 } s)
  | 5, 8 => linkRetrain i 2 true s
  | 11, 6 => canBusOff i true s
  | 11, 12 => provokeStop i s
  | 12, 14 => outDiscrepancy 1 true s
  | 13, 7 => { s with pwr := { s.pwr with offset := true } }
  | 13, 10 => droopOn 0 1 true s
  | 13, 12 => let k := rdField 13 0 0x6C 5 0 s; emergOn k ((tempOf k s).getD 0) (s.time.clk + oneMs) true s
  | 14, 7 => hostDown i 0 true s
  | 14, 11 => let e := evStop i (deviceId s) 0; raise { e with payload := e.payload + injFlag true } (latchStop s)
  | _, _ => arm c i bit s

/-- EVENT_INJECT written (02 R46, R47, R53). A report-only injection of MODEL_DIVERGENCE ends the provoked one (16 R390). -/
def wrInject (r : Req) (c i : Nat) (v : Word) (s : State) : RegSt × State :=
  if injectOk r c i v s = false then (5, raise (evInjectRefused c i 0x18 v r s) s)
  else
    let bit := v.field 4 0
    match evRow c i bit with
    | none => (0, s)
    | some e =>
      if natBit v.toNat 5 && e.fault then (0, provoke c i bit s)
      else
        let s1 := if c = 13 ∧ bit = 7 then { s with pwr := { s.pwr with offset := false } } else s
        (0, reportOnly c i bit e.code s1)

end Sys2Proof.Machine
end

