-- ==== Sys2Proof/Machine/Settings.lean ====
section
/-! DEFINITION. What settings records bring into effect: device, safety and Tightrope configuration, boot count (19 R454). Which entry of a
record's body is which is not laid down, so the entries come from Config (DESIGN CHOICE, log entry 3). -/

namespace Sys2Proof.Machine

/-- The boot count in force; 0 where none has been written (19 R454). -/
def bootCount (s : State) : Nat := (newest (fun b => match b with | .boots n => some n | _ => none) s).getD 0

/-- HOST_MTU written: 1,500 to 9,000, other values ignored (18 HOST_MTU). -/
def wrMtu (v : Word) (s : State) : State := if 1500 ≤ v.field 13 0 ∧ v.field 13 0 ≤ 9000 then wrReg 14 0 0x108 (v &&& 0x3FFF) s else s

/-- HOST_SEC written: only while SAFE_OUT is deasserted (18 HOST_SEC). -/
def wrHostSec (v : Word) (s : State) : State := if s.sn.safeOut then s else wrReg 14 0 0x10C (v &&& 1) s

/-- Queue 0 configured from the record: a fixed queue of 32-byte records with overflow 1, reserve 64, consumer 1, pinned (11 R252; DEDUCED, log entry 47). -/
def loadQueue0 (s : State) : State :=
  match settingEntry 1 0 s with
  | none => s
  | some n =>
    if (qDesc 0 s).enabled then s
    else
      let d := QDesc.read (leBytes 64 n)
      let d1 := { d with fixed := true, recordSize := 32, drop := true, reserve := 64, consumer := 1, pinned := true, wr := 0, rd := 0, res := 0
                         notices := 0, packets := 0, dropped := 0 }
      if 12 ≤ d1.sizeLog2 ∧ d1.base % d1.size = 0 ∧ d1.base + d1.size ≤ lpddrTop s then deliverQueue 0 (qPut 0 d1 s) else s

/-- Device configuration, kind 1, each register under its own rule (19 R454). -/
def applyDevice (s : State) : State :=
  let put := fun (k : Nat) (f : Word → State → State) (t : State) => match settingEntry 1 k t with | some n => f (BitVec.ofNat 32 n) t | none => t
  put 5 (fun v t => wrField 5 0 0x104 0 0 (v.field 0 0) t)
    (put 4 wrMtu (put 3 (wrReg 14 0 0x104) (put 2 (wrReg 14 0 0x100) (put 1 wrHostSec (loadQueue0 s)))))

/-- The registers of a page whose reset value persistent settings hold, loaded (18 HOST_SEC, CCP_SESSION; 17 RING_ENUM_CTRL). -/
def loadPage (c i : Nat) (s : State) : State :=
  match c, i with
  | 14, 0 => wrReg 14 0 0x110 (BitVec.ofNat 32 (bootCount s)) (wrReg 14 0 0x10C (BitVec.ofNat 32 ((settingEntry 1 1 s).getD 0 % 2)) s)
  | 5, 0 => wrField 5 0 0x104 0 0 ((settingEntry 1 5 s).getD 1) s
  | _, _ => s

/-- The entries of one of the checker's tables 0 to 3 that the safety settings hold, each under the table's own rule (15 R347; 19 R454). -/
def putSafety (tbl n : Nat) (s : State) : State :=
  (List.range n).foldl (fun acc i => match settingEntry 7 (tbl * 512 + i) acc with
    | some v => if snEntryOk tbl i (leBytes 16 v) then snPut tbl i (leBytes 16 v) acc else acc
    | none => acc) s

/-- A checker register that the safety settings hold. -/
def putSafetyReg (k off : Nat) (s : State) : State :=
  match settingEntry 7 (2048 + k) s with | some v => plainWrite 12 0 off (BitVec.ofNat 32 v) s | none => s

/-- SN_ST_CTRL as the safety settings hold it. -/
def putStCtrl (s : State) : State := match settingEntry 7 2048 s with | some v => wrStCtrl (BitVec.ofNat 32 v) s | none => s

/-- Safety settings, kind 7: tables 0 to 3, then SN_ST_CTRL, SN_CMP_CTRL and the queue registers. A changed slot keeps its last plausible setpoint
and its history (15 R343; 19 R454). -/
def applySafety (s : State) : State :=
  putSafetyReg 4 0x54 (putSafetyReg 3 0x50 (putSafetyReg 2 0x4C (putSafetyReg 1 0x70
    (putStCtrl (putSafety 3 16 (putSafety 2 32 (putSafety 1 512 (putSafety 0 64 s))))))))

/-- Tightrope configuration, kind 10, before any slot starts: law, coefficients, inputs and outputs, then slots (19 R454). -/
def applyTightrope (s : State) : State :=
  let each := fun (base n : Nat) (f : Nat → Nat → State → State) (acc : State) => (List.range n).foldl (fun a i =>
    match settingEntry 10 (base + i) a with | some v => f i v a | none => a) acc
  let law := each 0 4096 (fun i v a => { a with tr := { a.tr with law := Tbl.set 0 a.tr.law i (BitVec.ofNat 32 v) } }) s
  let coef := each 4096 2048 (fun i v a => { a with tr := { a.tr with coef := Tbl.set 0 a.tr.coef i (v % 2 ^ 38) } }) law
  let encs := each 8192 16 (fun i v a => if encTableOk (leBytes 16 v) then setEnc i { tioEnc i a with cfg := leBytes 16 v } a else a) coef
  let dins := each 8448 32 (fun i v a => setDin i { tioDin i a with cfg := leBytes 8 v } a) encs
  let adcs := each 8704 4 (fun i v a => if adcTableOk (leBytes 32 v) then setAdc i { tioAdc i a with cfg := leBytes 32 v } a else a) dins
  let pwms := each 8960 24 (fun i v a => if pwmTableOk i (leBytes 16 v) then setPwm i { tioPwm i a with cfg := leBytes 16 v, conf := true } a else a) adcs
  each 9216 64 (fun i v a => if slotRefusal i (leBytes 32 v) a = 0 then setEntry i (leBytes 32 v) a else a) pwms

/-- A record of a kind comes into force (19 R454). -/
def applyKind (kind : Nat) (s : State) : State :=
  match kind with
  | 1 => applyDevice s
  | 7 => applySafety s
  | _ => s

end Sys2Proof.Machine
end

