-- ==== Sys2Proof/Machine/RegWrite.lean ====
section
/-! DEFINITION. What a register write does, register by register (02 R35 to R39, R42 to R47, R491; the register pages of 05 and 07 to 19). -/

namespace Sys2Proof.Machine

/-- A page in soft reset, by number. -/
def pageNo (c i : Nat) : Nat := pageKey c i / 0x1000

/-- CTRL.soft_reset: the block as after power-on at once; the bit and reset_busy show it until the reset is complete (02 R491). The outputs a block
drives follow (DEDUCED, log entry 18). -/
def softReset (c i : Nat) (s : State) : State :=
  let s1 := if c = 15 ∧ i = 3 then debugLock 0 s else if c = 12 then { s with tio := s.tio.halt } else s
  let s2 := loadPage c i (resetBlock c i s1)
  wrField c i 8 1 1 1 { s2 with resetting := s2.resetting.filter (fun k => k != pageNo c i) ++ [pageNo c i] }

/-- CTRL written: refused whole where R44 says so (02 CTRL, R44). Enabling the control engine clears the shared words (13 R300). -/
def wrCtrl (r : Req) (c i : Nat) (v : Word) (s : State) : RegSt × State :=
  let en := natBit v.toNat 0
  let sr := natBit v.toNat 1
  if (sr || (blockEnabled c i s && !en)) && resetRefused r c i s then (5, raise (evResetRefused c i v r s) s)
  else if sr then (0, softReset c i s)
  else
    let s1 := if c = 10 ∧ i = 0 ∧ en = true ∧ blockEnabled 10 0 s = false then { s with tr := { s.tr with shared := [] } } else s
    (0, wrField c i 8 0 0 (b2n en) s1)

/-- QL_NIB_RETIRE written with its key (05 R135). -/
def wrNibRetire (q : Nat) (v : Word) (s : State) : State :=
  if v.field 31 16 = 0x7E71 then markNib q (v.field 3 0) (natBit v.toNat 4) 0 s else s

/-- A register whose field keeps its value where the written one is out of a range (09 SPAD_SCRUB_CTRL, 16 PWR_AUTO, 18 HOST_RATE and their like; DESIGN CHOICE, log entry 19). -/
def ranged (c i off hi lo a b : Nat) (v : Word) (s : State) : State :=
  if a ≤ v.field hi lo ∧ v.field hi lo ≤ b then plainWrite c i off v s else plainWrite c i off (v.put hi lo (rdField c i off hi lo s)) s

/-- A register of the cache manager's tables: fixed while the manager is enabled (07 CC_CMD_QUEUE; DEDUCED, log entry 25). -/
def wrCcTable (off : Nat) (v : Word) (s : State) : State :=
  if ccOn s then s
  else match off with
    | 0x404 | 0x40C | 0x414 => wrReg 6 0 off (v &&& 0xFFFFF000) s
    | 0x41C => if 4 ≤ v.field 10 0 ∧ v.field 10 0 ≤ 1024 then wrReg 6 0 off (v &&& 0x7FF) s else s
    | _ => plainWrite 6 0 off v s

/-- HOST_LINK_CTRL written: disable holds the link down (18 HOST_LINK_CTRL). -/
def wrHostLink (p : Nat) (v : Word) (s : State) : State :=
  let s1 := plainWrite 14 p 0x44 v s
  if natBit v.toNat 2 then hostDown p 3 false s1 else if rdField 14 p 0x40 2 0 s1 = 3 then wrField 14 p 0x40 2 0 1 s1 else s1

/-- HOST_STOP written: enable; clear clears the latch (18 R438, HOST_STOP). -/
def wrHostStop (v : Word) (s : State) : State :=
  let s1 := wrField 14 0 0x120 0 0 (v.field 0 0) s
  if natBit v.toNat 2 then wrField 14 0 0x120 1 1 0 s1 else s1

/-- DBG_LOCK written with its key; held fills start (19 R462, DBG_LOCK; 09 SPAD_DEBUG). -/
def wrDbgLock (v : Word) (s : State) : State := if v.field 31 16 = 0xDB6C then debugLock 0 s else s

/-- GLB_WARM_RESET written with its key: SAFE_OUT drops first, then the device resets (02 GLB_WARM_RESET; 15 R342; 19 R443). -/
def wrWarmReset (v : Word) (s : State) : State :=
  if v.field 15 0 = 0x5AFE then resetDevice 2 0 (trip 10 0 s) else s

/-- A write to a block-specific register of the global, Quill, scratchpad, memory or ring page. -/
def writeA (r : Req) (c i off : Nat) (v : Word) (s : State) : RegSt × State :=
  match c, off with
  | 0, 0x6C => wrInjectCtrl r v s
  | 0, 0x70 => (0, wrWarmReset v s)
  | 2, 0x58 => (0, wrNibRetire i v s)
  | 3, 0x44 => (0, wrBankCtrl i v s)
  | 3, 0x70 => (0, wrWinCmd i v s)
  | 3, 0x74 => (0, ranged 3 i off 5 0 1 60 v s)
  | 3, 0x94 => (0, wrSpadDebug i v s)
  | 4, 0x58 => (0, wrPatrolCtrl i v s)
  | 4, 0x88 => (0, wrSpareSel i v s)
  | 5, 0x44 => (0, wrLinkCtrl i v s)
  | 5, 0x78 => (0, wrDet i off v s)
  | 5, 0x7C => (0, wrDet i off v s)
  | 5, 0x80 => (0, wrDet i off v s)
  | 5, 0x84 => wrRpTest r i v s
  | 5, 0x104 => (0, wrEnumCtrl v s)
  | 5, 0x114 => (0, wrReqLimit v s)
  | 5, 0x11C => wrFenceCmd r v s
  | _, _ => (0, plainWrite c i off v s)

/-- A write to a block-specific register of the queue engine, Carousel, camera or small convolution engine page. -/
def writeB (c i off : Nat) (v : Word) (s : State) : State :=
  match c, off with
  | 6, 0x40 => wrDescBase off (v &&& 0xFC000000) s
  | 6, 0x44 => wrDescBase off v s
  | 6, 0x8C => wrQCmd v s
  | 6, 0x90 => wrRdptr v s
  | 6, 0x400 => wrCmdQueue v s
  | 7, 0x74 => wrStCmd v s
  | 7, 0x9C => wrGrpCmd v s
  | 8, 0x40 => wrCamPhy i v s
  | 8, 0x4C => wrCamCheck i v s
  | _, _ => if c = 6 ∧ 0x404 ≤ off ∧ off ≤ 0x424 then wrCcTable off v s else plainWrite c i off v s

/-- A write to a block-specific register of the control engine, I/O or CAN page. -/
def writeC (r : Req) (c i off : Nat) (v : Word) (s : State) : State :=
  if c = 11 then
    (if 0x100 ≤ off then wrTbPayload i ((off - 0x100) / 4) v s
     else match off with
      | 0x40 => wrCanMode i v s
      | 0x44 | 0x48 | 0x4C => wrCanTiming i off v s
      | 0x78 => wrCanCmd i v s
      | 0x80 => wrTrMap i v s
      | 0x90 => wrCanRxCtrl i v s
      | 0x94 => wrCanStop i v s
      | _ => plainWrite 11 i off v s)
  else if i = 0 then
    (match off with
      | 0x64 => wrSlotCmd v s
      | 0x74 => wrLawData v s
      | 0x78 => wrCoefValue r v s
      | 0x7C => wrCoefWrite r v s
      | 0x84 => wrCoefBank v s
      | 0xA8 => wrSpCommit v s
      | 0xAC => wrTestCtrl r v s
      | 0xB4 => wrCapCtrl v s
      | _ => plainWrite 10 0 off v s)
  else
    (match off with
      | 0x54 => wrEncCmd v s
      | 0x6C => wrDinCmd v s
      | 0x90 => wrPwmCmd v s
      | 0xBC => wrAdcCmd v s
      | _ => plainWrite 10 1 off v s)

/-- A write to a block-specific register of the checker, arbiter, host or security page. -/
def writeD (c i off : Nat) (v : Word) (s : State) : State :=
  match c, off with
  | 12, 0x44 => wrSnArm v s
  | 12, 0x6C => wrSnCmd v s
  | 12, 0x70 => ranged 12 0 off 15 0 1 65535 v s
  | 12, 0x74 => wrStCtrl v s
  | 13, 0x40 => wrCap v s
  | 13, 0x44 => wrAllowance v s
  | 13, 0x64 => wrDroopCtrl v s
  | 13, 0x68 => wrThermCtrl v s
  | 13, 0x78 => wrCool v s
  | 13, 0x7C => wrDomainCmd v s
  | 13, 0x90 => ranged 13 0 off 31 16 1 65535 v s
  | 14, 0x44 => wrHostLink i v s
  | 14, 0x50 => if 1 ≤ v.field 23 16 ∧ v.field 23 16 ≤ 240 then ranged 14 i off 15 0 1 10000 v s
                else ranged 14 i off 15 0 1 10000 (v.put 23 16 (rdField 14 i off 23 16 s)) s
  | 14, 0x108 => wrMtu v s
  | 14, 0x10C => wrHostSec v s
  | 14, 0x120 => wrHostStop v s
  | 14, 0x128 => if v.field 31 16 = 0 then ranged 14 0 off 15 8 1 255 (v.put 31 16 (rdField 14 0 off 31 16 s)) s else ranged 14 0 off 15 8 1 255 v s
  | 15, 0x44 => if i = 3 then wrDbgLock v s else plainWrite 15 i off v s
  | _, _ => plainWrite c i off v s

/-- The effect of a write that has passed the access checks (02 R37, R42). -/
def regEffect (r : Req) (c i off : Nat) (v : Word) (s : State) : RegSt × State :=
  if (regRow c i off).isNone then (0, s)
  else match off with
    | 0x08 => wrCtrl r c i v s
    | 0x14 => (0, wrMask c i v s)
    | 0x18 => wrInject r c i v s
    | _ =>
      if off < 0x40 then (0, plainWrite c i off v s)
      else if c ≤ 5 then writeA r c i off v s
      else if c ≤ 9 then (0, writeB c i off v s)
      else if c ≤ 11 then (0, writeC r c i off v s)
      else (0, writeD c i off v s)

/-- A register written by a requester: its status and the state after it (02 R30 to R39). A configure of the checker's tables by one to whom the
window is closed is refused by the checker too (15 R492). -/
def writeReg (r : Req) (addr size : Nat) (v : Word) (s : State) : RegSt × State :=
  match regPage addr with
  | some (12, _, 0x6C) => if size = 4 then snCmdWrite r v s else regCheck r true addr size s
  | some (c, i, off) => let k := regCheck r true addr size s; if k.1 ≠ 0 then k else regEffect r c i off v k.2
  | none => regCheck r true addr size s

end Sys2Proof.Machine
end

