-- ==== Sys2Proof/Machine/HostOps.lean ====
section
/-! DEFINITION. The command protocol's shared operations: frames received, sessions and sequences, commands accepted and answered, accesses by the host
(18 R418 to R440). -/

namespace Sys2Proof.Machine

/-- The header fields of a command (18 R426). -/
def HostCmd.op (c : HostCmd) : Nat := leField c.pdu 12 2

/-- A command's number. -/
def HostCmd.seq (c : HostCmd) : Nat := leField c.pdu 8 4

/-- A command's session. -/
def HostCmd.session (c : HostCmd) : Nat := leField c.pdu 4 4

/-- A command's acknowledgement of queue 0. -/
def HostCmd.ack (c : HostCmd) : Nat := leField c.pdu 16 4

/-- A command's payload; bytes after the PDU's length are ignored (18 R425). -/
def HostCmd.payload (c : HostCmd) : List Byte := (c.pdu.take (leField c.pdu 2 2)).drop 24

/-- Whether a reserved field of the header is not 0 (18 R426). -/
def HostCmd.reserved (c : HostCmd) : Bool := leField c.pdu 20 4 != 0

/-- The status and payload with which a command ends, none while it waits for the ring; and the state. -/
abbrev CcpRes := Option (Nat × List Byte) × State

/-- Whether the opcode is one of the update commands (18 R435; 19 R463). -/
def updateOp (op : Nat) : Bool := decide (0x100 ≤ op ∧ op ≤ 0x1FF)

/-- The opcodes that have a meaning (18 R435; 19 R463). -/
def knownOps : List Nat := [0x1, 0x2, 0x10, 0x11, 0x20, 0x21, 0x30, 0x40, 0x41, 0x50, 0xF0, 0xF1, 0xF2, 0xF3, 0x100, 0x101, 0x102, 0x103, 0x110, 0x111,
  0x112, 0x113]

/-- The opcodes of the priority path (18 R437). -/
def prioOp (op : Nat) : Bool := [0xF0, 0xF1, 0xF2, 0xF3].contains op

/-- What the image that runs serves: a main image everything, the recovery image register, bulk and update commands, SYNC and STOP; without an image
only SYNC is answered (19 R450). -/
def served (op : Nat) (s : State) : Bool :=
  match s.sec.phase with
  | 1 => true
  | 3 => [0x1, 0x10, 0x11, 0x20, 0x21, 0xF0].contains op || updateOp op
  | 2 => op == 0x1
  | _ => false

/-- A response to a command, to the port and the address it came from, with its PCP; one to a priority command goes before other frames (18 R426,
R428, R441; DESIGN CHOICE, log entry 40). -/
def reply (c : HostCmd) (st orig : Nat) (payload : List Byte) (s : State) : State :=
  sendTo (if prioOp c.op then 1 else 3) c.port c.src 1 c.seq c.op st orig (c.src.tag / 8192 % 8) payload s

/-- The key of an executed command: numbers of the priority sequence are kept apart. -/
def doneKey (prio : Bool) (seq : Nat) : Nat := if prio then seq + 2 ^ 32 else seq

/-- An executed command's status kept, of the last 256 of its sequence (18 R430). -/
def noteDone (prio : Bool) (seq st : Nat) (s : State) : State :=
  let mine := s.host.done.filter (fun e => (decide (2 ^ 32 ≤ e.1) == prio) && e.1 != doneKey prio seq)
  let others := s.host.done.filter (fun e => decide (2 ^ 32 ≤ e.1) != prio)
  { s with host := { s.host with done := (doneKey prio seq, st) :: mine.take 255 ++ others } }

/-- Serial difference of 32-bit numbers (18 R428). -/
def serial (a b : Nat) : Nat := (a + 2 ^ 32 - b % 2 ^ 32) % 2 ^ 32

/-- The answer to a duplicate (18 R430). -/
def replyDup (c : HostCmd) (s : State) : State :=
  let prio := prioOp c.op
  let last := (rdReg 14 0 0x114 s).toNat
  let orig :=
    if s.host.accepted.any (fun e => e.1.seq == c.seq) && !prio then 0xFE
    else match s.host.done.find? (fun e => e.1 == doneKey prio c.seq) with
      | some e => if prio = false ∧ 256 ≤ serial last c.seq then 0xFF else e.2
      | none => 0xFF
  reply c 1 orig [] s

/-- A command's response formed: last_executed advances and the response goes out (18 R428 to R430). -/
def hostFinish (c : HostCmd) (st : Nat) (payload : List Byte) (s : State) : State :=
  let s1 := { s with host := { s.host with accepted := s.host.accepted.filter (fun e => e.1.seq != c.seq) } }
  reply c st 0 payload (noteDone false c.seq st (wrReg 14 0 0x118 (BitVec.ofNat 32 c.seq) s1))

/-- An accepted command executed: malformed where a reserved field is not 0, denied where the image does not serve it (18 R426; 19 R450). -/
def hostRun (c : HostCmd) (run : HostCmd → State → CcpRes) (s : State) : State :=
  if c.reserved then hostFinish c 5 [] s
  else if served c.op s = false then hostFinish c 6 [] s
  else
    let r := run c s
    match r.1 with
    | some x => hostFinish c x.1 x.2 r.2
    | none => { r.2 with host := { r.2.host with accepted := r.2.host.accepted.map (fun e => if e.1.seq = c.seq then (e.1, true) else e) } }

/-- The failed response's payload: the status word of R269 and the event's number (18 R426). -/
def failPay (st cause ev : Nat) : List Byte := leBytes 4 (st + cause * 256) ++ leBytes 4 ev

/-- The number that the next undelivered record of a queue has, or will have (18 R433). -/
def nextNumber (q : Nat) (s : State) : Nat :=
  let d := qDesc q s
  let v := dlvOf q s
  let w := rdLe s (d.base + v.ptr % d.size) 4
  let skip := if v.ptr ≠ d.wr ∧ natBit w 31 = true then (v.ptr + max 8 (w % 2 ^ 24)) % (2 * d.size) else v.ptr
  if skip = d.wr then (if q = 0 then s.ev.next.toNat else d.packets) else recNumber q d skip s

/-- The pointer past the delivered records numbered up to `n`, from a pointer on, and how many they are; at most `fuel` packets (18 R433). -/
def ackWalk (q n : Nat) (d : QDesc) (goal : Nat) (s : State) : Nat → Nat → Nat → Nat × Nat
  | 0, ptr, k => (ptr, k)
  | fuel + 1, ptr, k =>
    if ptr = goal then (ptr, k)
    else
      let w := rdLe s (d.base + ptr % d.size) 4
      let M := 2 * d.size
      if natBit w 31 then ackWalk q n d goal s fuel ((ptr + max 8 (w % 2 ^ 24)) % M) k
      else if serial n (recNumber q d ptr s) < 2 ^ 31 then ackWalk q n d goal s fuel ((ptr + stride (w % 2 ^ 24)) % M) (k + 1)
      else (ptr, k)

/-- A queue acknowledged up to record `n`; none where that record has not been delivered (18 R433). -/
def ackQueue (q n : Nat) (s : State) : Option State :=
  let d := qDesc q s
  if d.consumer ≠ 1 ∨ (qeBase s = 0 ∧ qCached q s = false) ∨ memUp s = false ∨ serial n (nextNumber q s) < 2 ^ 31 then none
  else
    let v := dlvOf q s
    let r := ackWalk q n d v.ptr s (d.used / 8 + 1) d.rd 0
    if r.2 = 0 then some s
    else some (deliverQueue q (setDlv q { v with count := v.count - r.2, moved := s.time.clk } (advanceRd q r.1 s)))

/-- The acknowledgement in a command's header; one of a record not yet delivered changes nothing, and its command goes on (18 R433; DESIGN CHOICE, log entry
40). -/
def headerAck (c : HostCmd) (s : State) : State :=
  if c.ack = 0 ∨ c.session ≠ (rdReg 14 0 0x110 s).toNat then s else (ackQueue 0 c.ack s).getD s

/-- A command of the ordinary sequence taken from its buffer: session, number, and execution if nothing accepted is ahead (18 R427, R428). -/
def takeCmd (c : HostCmd) (run : HostCmd → State → CcpRes) (s0 : State) : State :=
  let s := headerAck c s0
  if c.session ≠ (rdReg 14 0 0x110 s).toNat then reply c 4 0 [] s
  else
    let d := serial c.seq (rdReg 14 0 0x114 s).toNat
    if d = 0 ∨ 2 ^ 31 ≤ d then replyDup c s
    else if d ≠ 1 then reply c 2 0 [] s
    else if 64 ≤ s.host.accepted.length then reply c 3 0 [] s
    else
      let s1 := wrReg 14 0 0x114 (BitVec.ofNat 32 c.seq) { s with host := { s.host with accepted := s.host.accepted ++ [(c, false)] } }
      if s.host.accepted.isEmpty then hostRun c run s1 else s1

/-- A command of the priority sequence taken: executed whatever gap there is (18 R431). -/
def takePrio (c : HostCmd) (run : HostCmd → State → Nat × List Byte × State) (s0 : State) : State :=
  let s := headerAck c s0
  if c.session ≠ (rdReg 14 0 0x110 s).toNat then reply c 4 0 [] s
  else
    let d := serial c.seq (rdReg 14 0 0x11C s).toNat
    if d = 0 ∨ 2 ^ 31 ≤ d then replyDup c s
    else
      let s1 := wrReg 14 0 0x11C (BitVec.ofNat 32 c.seq) s
      let r := if c.reserved then (5, [], s1) else if served c.op s = false then (6, [], s1) else run c s1
      reply c r.1 0 r.2.1 (noteDone true c.seq r.1 r.2.2)

/-- The frame that Scribe takes next, if its opcode is the one asked for: the priority buffer comes first (18 R439). -/
def nextFrame (op : Nat) (s : State) : Option (HostCmd × State) :=
  match s.host.prio with
  | c :: t => if c.op = op then some (c, { s with host := { s.host with prio := t } }) else none
  | [] =>
    match s.host.data with
    | c :: t => if c.op = op then some (c, { s with host := { s.host with data := t } }) else none
    | [] => none

/-- A command with no meaning is answered malformed (18 R435). -/
def runUnknown (_ : HostCmd) (s : State) : CcpRes := (some (5, []), s)

/-- One unknown command handled: accepted and next to execute, or at the head of the data FIFO; none where neither stands (DESIGN CHOICE, log entry 40). -/
def settleOne (s : State) : Option State :=
  match s.host.accepted.head?.filter (fun e => !e.2 && !knownOps.contains e.1.op) with
  | some e => some (hostRun e.1 runUnknown s)
  | none =>
    match s.host.prio, s.host.data with
    | [], c :: t => if knownOps.contains c.op then none else some (takeCmd c runUnknown { s with host := { s.host with data := t } })
    | _, _ => none

/-- Unknown commands at the front handled; at most `fuel` of them. -/
def hostSettle : Nat → State → State
  | 0, s => s
  | n + 1, s => match settleOne s with | some t => hostSettle n t | none => s

/-- What remains of a step once unknown commands are handled. -/
def settleHost (s : State) : State := hostSettle (s.host.accepted.length + s.host.data.length + 1) s

/-- A command row: the oldest accepted command with that opcode, if it is the first to execute; else the next frame with that opcode is taken (18
R428). -/
def ccp (op : Nat) (run : HostCmd → State → CcpRes) (s : State) : State :=
  let front := match s.host.accepted with | (c, false) :: _ => if c.op = op then some c else none | _ => none
  match front with
  | some c => settleHost (hostRun c run s)
  | none =>
    match nextFrame op s with
    | some (c, s1) => settleHost (takeCmd c run s1)
    | none => s

/-- A row of the priority sequence (18 R431). -/
def ccpPrio (op : Nat) (run : HostCmd → State → Nat × List Byte × State) (s : State) : State :=
  match nextFrame op s with
  | some (c, s1) => settleHost (takePrio c run s1)
  | none => s

/-- A command's global address is on this device (02 R32). -/
def hostLocal (addr : Nat) (s : State) : Bool := addr / 2 ^ 48 == deviceId s

/-- The first failure among a command's requests over the ring: status, cause, and what came before it (17 R397). -/
def hostErrAt : Nat := 2 ^ 60

/-- The failure held for a purpose, if any. -/
def hostErr (u : ReqUse) (s : State) : Option (Nat × Nat × Nat) :=
  (rbufRead u hostErrAt 10 s).map (fun l => (leField l 0 1, leField l 1 1, leField l 2 8))

/-- A failure noted, unless one before it is known. -/
def noteErr (u : ReqUse) (st cause pos : Nat) (s : State) : State :=
  match hostErr u s with
  | some e => if e.2.2 ≤ pos then s else rbufPut u hostErrAt (leBytes 1 st ++ leBytes 1 cause ++ leBytes 8 pos) s
  | none => rbufPut u hostErrAt (leBytes 1 st ++ leBytes 1 cause ++ leBytes 8 pos) s

/-- Pieces of at most 256 bytes, none across a multiple of 256; at most `fuel` of them. -/
def piecesOf : Nat → Nat → Nat → List (Nat × Nat)
  | 0, _, _ => []
  | f + 1, a, n =>
    if n = 0 then []
    else
      let m := min n (256 - a % 256)
      (a, m) :: piecesOf f (a + m) (n - m)

/-- A run of bytes in pieces. -/
def pieces (a n : Nat) : List (Nat × Nat) := piecesOf (n / 256 + 2) a n

/-- Local memory read by the host; the first error ends it (18 R436; 09 R222). -/
def hostRead (p : Nat) : List (Nat × Nat) → State → AccRes × State
  | [], s => (⟨0, 0⟩, s)
  | (a, n) :: t, s =>
    let r := access 14 p 0 .host .read a n [] s
    if r.1.status = 0 then hostRead p t r.2 else r

/-- Local memory written by the host: how it ended and the bytes accepted before the first refusal (18 R436; 09 R223). -/
def hostWrite (p : Nat) (data : List Byte) : List (Nat × Nat) → Nat → State → (AccRes × Nat) × State
  | [], k, s => ((⟨0, 0⟩, k), s)
  | (a, n) :: t, k, s =>
    let r := access 14 p 0 .host .write a n ((data.drop k).take n) s
    if r.1.status = 0 then hostWrite p data t (k + n) r.2 else ((r.1, k), r.2)

/-- Requests for the pieces of a command sent over the ring; one that cannot go is a failure of its piece (17 R397; 18 R436). -/
def hostSend (u : ReqUse) (op dst : Nat) (data : List Byte) : List (Nat × Nat) → Nat → State → State
  | [], _, s => s
  | (a, n) :: t, k, s =>
    let r := sendReq u op dst 0xFFFF false a n (if op = 1 ∨ op = 10 then (data.drop k).take n else []) k s
    if r.1 = 0 then hostSend u op dst data t (k + n) r.2 else noteErr u r.1 0 k r.2

/-- The R269 code of a refused register access (11 R269; 02 R31 to R39). -/
def regStatus (st : RegSt) : Nat := match st with | 0 => 0 | 1 => 2 | 4 => 5 | _ => 3

/-- Register words read by a requester from an address on, until one is refused: status, words (02 R35, R36). -/
def readWordsAt (r : Req) : Nat → Nat → State → Nat × List Byte × State
  | 0, _, s => (0, [], s)
  | n + 1, a, s =>
    let x := readReg r a 4 s
    if x.1 ≠ 0 then (regStatus x.1, [], x.2.2)
    else
      let t := readWordsAt r n (a + 4) x.2.2
      (t.1, leBytes 4 x.2.1.toNat ++ t.2.1, t.2.2)

/-- The event source by which a page's block refuses a write of its own registers: class, instance, bit (09, 12 to 16). -/
def refusalBit (c i : Nat) : Option (Nat × Nat × Nat) :=
  match c with
  | 3 => some (3, i, 10)
  | 7 | 8 => some (7, 0, 12)
  | 10 => if i = 0 then some (10, 0, 13) else some (10, 1, 11)
  | 11 => some (11, i, 14)
  | 12 => some (12, 0, 16)
  | 13 => some (13, 0, 17)
  | _ => none

/-- A write of a block-specific register that its block refused answers 6 in place of 0: the queue engine's by its own conditions, another block's
where the write raised the block's refusal event (18 R436; DESIGN CHOICE, log entry 19). -/
def refusedWrite (r : Req) (a : Nat) (v : Word) (s : State) : RegSt × State :=
  match regPage a with
  | none => writeReg r a 4 v s
  | some (c, i, off) =>
    if off < 0x40 then writeReg r a 4 v s
    else if c = 6 then
      let x := writeReg r a 4 v s
      if x.1 = 0 ∧ queueRefuses off v s = true then (6, x.2) else x
    else match refusalBit c i with
      | none => writeReg r a 4 v s
      | some (rc, ri, rb) =>
        let raw := rdReg rc ri 0x10 s
        let one := BitVec.ofNat 32 (2 ^ rb)
        let x := writeReg r a 4 v (wrReg rc ri 0x10 (raw &&& ~~~one) s)
        if natBit (rdReg rc ri 0x10 x.2).toNat rb then (if x.1 = 0 then 6 else x.1, x.2)
        else (x.1, wrReg rc ri 0x10 (rdReg rc ri 0x10 x.2 ||| (raw &&& one)) x.2)

/-- Register words written by a requester from an address on, until one is refused: status, words written (02 R35, R36; 18 R436). -/
def writeWordsAt (r : Req) : List Word → Nat → Nat → State → Nat × Nat × State
  | [], _, k, s => (0, k, s)
  | v :: t, a, k, s =>
    let x := refusedWrite r a v s
    if x.1 ≠ 0 then (regStatus x.1, k, x.2) else writeWordsAt r t (a + 4) (k + 1) x.2

/-- The words of a payload. -/
def wordsOf (l : List Byte) (n : Nat) : List Word := (List.range n).map (fun i => wordAt l i)

/-- What a command that waited for the ring answers (18 R435, R436). -/
def ringAnswer (c : HostCmd) (u : ReqUse) (s : State) : Nat × List Byte :=
  let p := c.payload
  let a := leField p 0 8
  match hostErr u s with
  | some (st, cause, pos) =>
    let tail := match c.op with
      | 0x11 => leBytes 2 (pos / 4)
      | 0x21 => leBytes 4 pos
      | 0x41 => leBytes 2 (pos / 16)
      | _ => []
    (7, failPay st cause 0 ++ tail)
  | none =>
    match c.op with
    | 0x10 => (0, (rbufRead u a (4 * leField p 8 2) s).getD [])
    | 0x11 => (0, leBytes 2 (leField p 8 2))
    | 0x20 => (0, (rbufRead u a (leField p 8 4) s).getD [])
    | 0x21 => (0, leBytes 4 (leField p 8 4))
    | _ => (0, leBytes 2 (p.length / 16))

/-- A command whose last request over the ring has been answered ends (18 R428, R436). -/
def hostDone (port seq : Nat) (s : State) : State :=
  let u : ReqUse := .host port seq
  match s.host.accepted.find? (fun e => e.1.port == port && e.1.seq == seq && e.2) with
  | none => s
  | some e =>
    if reqOut u s then s
    else
      let r := ringAnswer e.1 u s
      settleHost (hostFinish e.1 r.1 r.2 (dropUse u s))

end Sys2Proof.Machine
end

