-- ==== Sys2Proof/Machine/SecOps.lean ====
section
/-! DEFINITION. The shared operations of boot, update and security: flash, boot descriptor, images, settings records, attestation indices (19
R445 to R461). -/

namespace Sys2Proof.Machine

/-- A flash byte; an erased one reads 0xFF (19 R445; DESIGN CHOICE, log entry 5). -/
def flashByte (a : Nat) (s : State) : Byte := Tbl.get 0xFF s.sec.flash a

/-- `n` flash bytes from an address. -/
def flashBytes (a n : Nat) (s : State) : List Byte := (List.range n).map (fun i => flashByte (a + i) s)

/-- A run of flash erased. -/
def flashErase (a n : Nat) (s : State) : State :=
  { s with sec := { s.sec with flash := s.sec.flash.filter (fun e => decide (e.1 < a) || decide (a + n ≤ e.1)) } }

/-- Bytes programmed into a table of flash from an address on. -/
def flashPut (a : Nat) : List Byte → Tbl Byte → Tbl Byte
  | [], t => t
  | b :: l, t => flashPut (a + 1) l (Tbl.set 0xFF t a b)

/-- Bytes programmed from an address on. -/
def flashProgram (a : Nat) (l : List Byte) (s : State) : State := { s with sec := { s.sec with flash := flashPut a l s.sec.flash } }

/-- FL_ERROR: an operation, 0 program, 1 erase, 2 read, failed at a flash offset (19 R467; the numbers are the model's: DESIGN CHOICE, log entry 39). -/
def flashError (off op : Nat) (inj : Bool) (s : State) : State :=
  raise { c := 15, i := 2, bit := 5, code := 0x3F10, payload := off % 2 ^ 32 + op % 4 * 2 ^ 32 + injFlag inj } s

/-- A program that an armed injection makes fail: reported, and done again by whoever asked for it (19 R467; DESIGN CHOICE, log entry 39). -/
def programRetry (off : Nat) (s : State) : State := if armed 15 2 5 s then flashError off 0 true (disarm 15 2 5 s) else s

/-- Whether an HSS signature of a message verifies under the key whose SHA-256 a number spells; the vendor's has its one set of parameters (19 R449). -/
def signatureOk (vendor : Bool) (k : Nat) (msg sig : List Byte) : Bool :=
  leNat (sha256 (Config.publicKey k)) == k && hssOk (Config.publicKey k) msg sig && (!vendor || decide (2964 ≤ sig.length ∧ sig.length < 2968))

/-- Bytes 0 to 31 of a descriptor copy (19 R446). -/
def descBytes (d : BootDesc) : List Byte :=
  leBytes 4 0x43534431 ++ leBytes 4 d.seq ++ leBytes 1 d.active ++ leBytes 1 d.pending ++ leBytes 1 d.tries ++ leBytes 1 0 ++ leBytes 4 d.version ++ leBytes 16 0

/-- Whether a copy is valid: one was written, and its MAC is right (19 R446). -/
def descValid (s : State) (d : BootDesc) : Bool := !d.mac.isEmpty && d.mac == hmac (settingsKey s.sec) (descBytes d)

/-- The boot descriptor in force: the valid copy with the higher seq; slot A, none pending, where no copy is valid (19 R446; DESIGN CHOICE, log entry 39). -/
def descriptor (s : State) : BootDesc :=
  let a := s.sec.desc0
  let b := s.sec.desc1
  if descValid s a && (!descValid s b || serialGe a.seq b.seq) then a else if descValid s b then b else {}

/-- A changed descriptor written to the copy not in force, with seq + 1 (19 R446). -/
def writeDescriptor (d : BootDesc) (s : State) : State :=
  let old := descriptor s
  let w := { d with seq := (old.seq + 1) % 2 ^ 32 }
  let v := { w with mac := hmac (settingsKey s.sec) (descBytes w) }
  let first := descValid s s.sec.desc0 && s.sec.desc0 == old
  let s1 := programRetry (if first then 0x1000 else 0) s
  if first then { s1 with sec := { s1.sec with desc1 := v } } else { s1 with sec := { s1.sec with desc0 := v } }

/-- Flash address and size of a slot: 0 A, 1 B, 2 recovery (19 R445). -/
def slotBase : Nat → Nat
  | 0 => 0x840000 | 1 => 0x1840000 | _ => 0x440000

/-- A slot's size. -/
def slotSize (k : Nat) : Nat := if k < 2 then 0x1000000 else 0x400000

/-- The vendor image key, by the number that its SHA-256 spells (19 R449). -/
def vendorKey (s : State) : Nat := leField s.sec.colophon 128 32

/-- The current owner key, by the number that its SHA-256 spells (19 R449, R459). -/
def ownerKey (s : State) : Option Nat := (ownerSlot s).map (fun e => leNat e.2.hash)

/-- The fields of an image header (19 R447). -/
def imgVersion (h : List Byte) : Nat := leField h 4 4

/-- Security version. -/
def imgSvn (h : List Byte) : Nat := byteAt h 8

/-- The oldest version that hands service over to the image. -/
def imgLiveFrom (h : List Byte) : Nat := leField h 12 4

/-- A component entry: id, offset in the slot, length, SHA-256 (19 R447). -/
def imgComp (h : List Byte) (n : Nat) : Nat × Nat × Nat × List Byte :=
  let b := (h.drop (32 + 48 * n)).take 48
  (byteAt b 0, leField b 4 4, leField b 8 4, (b.drop 16).take 32)

/-- The component entries of a header. -/
def imgComps (h : List Byte) : List (Nat × Nat × Nat × List Byte) := (List.range (leField h 10 2)).map (imgComp h)

/-- Whether a header is laid out as R447 and R448 say, for an image of `size` bytes (19). -/
def imgFormatOk (recov : Bool) (size : Nat) (h : List Byte) : Bool :=
  let cs := imgComps h
  let ids : List Nat := cs.map (fun c => c.1)
  let need := if recov then [1, 2] else [1, 2, 3, 4]
  decide (h.length = 4096 ∧ leField h 0 4 = 0x474D4950 ∧ byteAt h 9 = b2n recov ∧ imgSvn h ≤ (if recov = true then 31 else 127) ∧ 1 ≤ leField h 10 2
      ∧ leField h 10 2 ≤ 16 ∧ ids.eraseDups.length = ids.length ∧ leNat ((h.drop 16).take 16) = 0 ∧ leNat ((h.drop 800).take 224) = 0 ∧ leNat ((h.drop 3988).take 108) = 0)
    && ids.all (fun i => need.contains i) && need.all (fun i => ids.contains i)
    && cs.all (fun c => decide (4096 ≤ c.2.1 ∧ c.2.1 + c.2.2.1 ≤ size ∧ (c.1 = 3 → c.2.2.1 ≤ 0x20000)))

/-- The counter that an image's svn is held against (19 R451). -/
def svnCounter (recov : Bool) (s : State) : Nat := if recov then s.sec.recov else s.sec.main

/-- Why an image of `size` bytes is not acceptable, by the causes of UPDATE_FAILED: 1 signature, 2 digest, 3 rollback, 6 format; none where it is
acceptable. `rd` reads its bytes (19 R448, R449; the order is the model's: DESIGN CHOICE, log entry 39). -/
def imageCause (recov : Bool) (size : Nat) (rd : Nat → Nat → List Byte) (s : State) : Option Nat :=
  let h := rd 0 4096
  if signatureOk true (vendorKey s) (h.take 1024) ((h.drop 1024).take 2964) = false then some 1
  else if imgFormatOk recov size h = false then some 6
  else if imgSvn h < svnCounter recov s then some 3
  else if (imgComps h).all (fun c => sha256 (rd c.2.1 c.2.2.1) == c.2.2.2) then none else some 2

/-- Why the image in a slot is not acceptable. -/
def slotCause (k : Nat) (s : State) : Option Nat :=
  imageCause (decide (k = 2)) (slotSize k) (fun off n => flashBytes (slotBase k + off) n s) s

/-- IMAGE_REJECTED; its causes do not name a format error, whose code is a free value (19 R467; DESIGN CHOICE, log entry 3). -/
def imageRejected (slot cause : Nat) (s : State) : State :=
  let put := fun (k : Nat) (t : State) => raise { c := 15, i := 1, bit := 5, code := 0x8F00, payload := slot % 4 + k % 4 * 4 } t
  match cause with
  | 1 => put 0 s
  | 2 => put 1 s
  | 3 => put 2 s
  | _ => let f := fresh s; put f.1 f.2

/-- MG_UPDATE.state (19 MG_UPDATE). -/
def updState (s : State) : Nat := rdField 15 0 0x48 2 0 s

/-- MG_UPDATE.state set. -/
def setUpd (v : Nat) (s : State) : State := wrField 15 0 0x48 2 0 v s

/-- UPDATE_DONE, which clears last_cause (19 R466, MG_UPDATE). -/
def evUpdateDone (op version : Nat) (s : State) : State :=
  raise { c := 15, i := 0, bit := 5, code := 0x0F00, payload := op % 256 + version % 2 ^ 32 * 256 } (wrField 15 0 0x48 15 8 0 s)

/-- UPDATE_FAILED with its cause, and the number of its record (19 R466, MG_UPDATE). -/
def evUpdateFailed (op cause : Nat) (inj : Bool) (s : State) : Nat × State :=
  raiseSeq { c := 15, i := 0, bit := 6, code := 0x7F00, payload := op % 256 + cause * 256 + injFlag inj } (wrField 15 0 0x48 15 8 cause s)

/-- The response failed with an event's number; which status word it carries is left open (18 R426; DESIGN CHOICE, log entry 3). -/
def ccpFail (ev : Nat) (s : State) : CcpRes :=
  let f := fresh s
  (some (7, leBytes 4 f.1 ++ leBytes 4 ev), f.2)

/-- The kinds of settings record that the host may stage (19 R454). -/
def stagedKinds : List Nat := [1, 2, 7, 9, 10]

/-- Body bytes of a settings record (19 R453). -/
def recBody (b : List Byte) : List Byte := (b.drop 32).take (leField b 8 4)

/-- Why a staged settings record is refused: 6 format, 7 auth kind, 1 signature; none where it is accepted (19 R453, R454, R466). -/
def recordCause (b : List Byte) (s : State) : Option Nat :=
  let n := leField b 8 4
  if b.length < 32 ∨ leField b 0 4 ≠ 0x53455452 ∨ n % 4 ≠ 0 ∨ 65536 < n ∨ b.length < 32 + n ∨ b.length % 4 ≠ 0 ∨ byteAt b 7 ≠ 0 ∨ leField b 23 5 ≠ 0
      ∨ (leField b 16 7 ≠ 0 ∧ leField b 16 7 ≠ dieId s) then some 6
  else if byteAt b 6 ≠ 1 ∨ stagedKinds.contains (leField b 4 2) = false then some 7
  else match ownerKey s with
    | none => some 1
    | some k => if signatureOk false k (b.take 28 ++ recBody b) (b.drop (32 + n)) then none else some 1

/-- A staged record as Scribe keeps it (19 R453). -/
def recordOf (b : List Byte) : SetRec := { kind := leField b 4 2, auth := byteAt b 6, seq := leField b 12 4, body := .bytes (recBody b), valid := true, raw := b }

/-- The serial number after the last of a kind (19 R453). -/
def nextRecSeq (kind : Nat) (s : State) : Nat :=
  match (s.settings.recs.filter (fun r => r.kind == kind)).getLast? with
  | some r => (r.seq + 1) % 2 ^ 32
  | none => 1

/-- Flash offset of the record at an index of the current bank (19 R445, R455). -/
def recOffset (k : Nat) (s : State) : Nat :=
  (if s.settings.generation % 2 = 1 then 0x2840000 else 0x3040000) + 64 + ((s.settings.recs.take k).map SetRec.size).sum

/-- What a record is the newest of: its kind, and the unit it is about. -/
def recUnit (r : SetRec) : Nat × Nat × Nat :=
  match r.body with
  | .bytes _ => (r.kind, 0, 0)
  | .train m _ _ => (r.kind, 1, m)
  | .nibs q _ => (r.kind, 2, q)
  | .spadRows n _ => (r.kind, 3, n)
  | .mcRows n _ => (r.kind, 4, n)
  | .lanes p _ => (r.kind, 5, p)
  | .fmax q _ => (r.kind, 6, q)
  | .guard _ => (r.kind, 7, 0)
  | .boots _ => (r.kind, 8, 0)

/-- The newest record of each kind, of each unit where a kind has several, in their order (19 R455). -/
def newestEach : List SetRec → List SetRec
  | [] => []
  | r :: t => if t.any (fun x => recUnit x == recUnit r && x.valid && serialGe x.seq r.seq) then newestEach t else r :: newestEach t

/-- A compaction completes: the newest of each kind stands in the other bank under generation + 1 (19 R455). -/
def compact (s : State) : State :=
  let s1 := programRetry (if s.settings.generation % 2 = 1 then 0x3040000 else 0x2840000) s
  let g := s1.settings.generation + 1
  raise { c := 15, i := 0, bit := 9, code := 0x1F00, payload := g % 2 ^ 32 }
    { s1 with settings := { s1.settings with recs := newestEach (s1.settings.recs.filter (fun r => r.valid)), generation := g, compacting := false } }

/-- A key that the key record in force carries, 0 the link key, 1 a next owner key hash, 2 its transport key, unwrapped under a transport key (19 R459). -/
def recordKey (item : Nat) (transport : List Byte) (s : State) : Option (List Byte) :=
  (settingEntry 9 item s).bind (fun v => unwrapKey transport (leBytes 40 v))

/-- The host link key that the key record in force carries, if it unwraps under the current transport key, and whether it accepts vendor tokens (19
R459, DBG_STATE). -/
def loadKey (s : State) : State :=
  let key := (ownerSlot s).bind (fun e => recordKey 0 e.2.transport s)
  { s with sec := { s.sec with linkKey := key.getD [], vendorRec := (settingEntry 9 3 s).getD 0 % 2 == 1 } }

/-- A key record comes into force: the link key, if it unwraps under the current transport key; a next owner's slot is written and the current one
revoked, if both its keys unwrap (19 R459; the old link key stays where the record's does not unwrap: DESIGN CHOICE, log entry 39). -/
def applyKey (s : State) : State :=
  match ownerSlot s with
  | none => s
  | some (n, o) =>
    let s1 := if (recordKey 0 o.transport s).isSome then loadKey s
      else { s with sec := { s.sec with vendorRec := (settingEntry 9 3 s).getD 0 % 2 == 1 } }
    match recordKey 1 o.transport s, recordKey 2 o.transport s with
    | some h, some t =>
      if 3 ≤ n ∨ (Tbl.find? s.sec.owners (n + 1)).isSome = true then s1
      else { s1 with sec := { s1.sec with owners := Tbl.put (Tbl.put s1.sec.owners (n + 1) ⟨h, t, false⟩) n { o with revoked := true } } }
    | _, _ => s1

/-- Bytes 0 to 27 of a record that the device made or that was made with it (19 R453). -/
def recHead (r : SetRec) (s : State) : List Byte :=
  leBytes 4 0x53455452 ++ leBytes 2 r.kind ++ leBytes 1 r.auth ++ leBytes 1 0 ++ leBytes 4 (r.body.layout r.kind).length ++ leBytes 4 r.seq ++ leBytes 7 (dieId s) ++ leBytes 5 0

/-- Whether a record's authenticator holds: the settings key's HMAC, the current owner's signature, the vendor's (19 R449, R453). -/
def recAuthOk (r : SetRec) (s : State) : Bool :=
  let msg := recHead r s ++ r.body.layout r.kind
  match r.auth with
  | 0 => r.sig == hmac (settingsKey s.sec) msg
  | 1 => match ownerKey s with
    | none => false
    | some k => if r.raw = [] then signatureOk false k msg r.sig else signatureOk false k (r.raw.take 28 ++ recBody r.raw) (r.raw.drop (32 + leField r.raw 8 4))
  | _ => signatureOk true (vendorKey s) msg r.sig

/-- A record as the device writes it: its serial number, its HMAC under the settings key (19 R453). -/
def sealRecord (r : SetRec) (s : State) : SetRec :=
  let v := { r with seq := nextRecSeq r.kind s }
  { v with sig := hmac (settingsKey s.sec) (recHead v s ++ v.body.layout v.kind) }

/-- A record appended, and in force at once where R454 says so (19 R454, R455). -/
def appendRecord (r0 : SetRec) (s : State) : State :=
  let r := if r0.raw = [] then sealRecord r0 s else r0
  let s1 := { s with settings := { s.settings with recs := s.settings.recs ++ [r] } }
  if r.raw = [] ∨ inForce r.kind s1 ≠ some r then s1 else if r.kind = 9 then applyKey s1 else applyKind r.kind s1

/-- ATTEST_STATE: 0 new bottom tree, 1 copies invalid, 2 exhausted (19 R461, R467). -/
def evAttestState (cause : Nat) (s : State) : State :=
  raise { c := 15, i := 1, bit := 10, code := 0x8F05, payload := cause + s.sec.fuses % 1024 * 4 } s

/-- The older copy of the signature state written with a reserved_next (19 R461). -/
def writeSig (next : Nat) (s : State) : State :=
  let seq := match sigInForce s.sec with | some c => c.seq + 1 | none => 1
  let w : SigCopy := { seq := seq % 2 ^ 32, top := s.sec.fuses, next := next }
  let v := { w with mac := sigMac s.sec w }
  let first := sigValid s.sec s.sec.sig0 && sigInForce s.sec == some s.sec.sig0
  let s1 := programRetry (if first then 0x21000 else 0x20000) s
  if first then { s1 with sec := { s1.sec with sig1 := v } } else { s1 with sec := { s1.sec with sig0 := v } }

/-- The next top fuse burnt, a fresh bottom tree from index 0; with the last fuse the key is exhausted (19 R461). -/
def burnTop (cause : Nat) (s : State) : State :=
  if 1024 ≤ s.sec.fuses then s
  else
    let s1 := evAttestState cause (writeSig 0 { s with sec := { s.sec with fuses := s.sec.fuses + 1, bottom := 0, treeGen := false, treeReady := false } })
    if 1024 ≤ s1.sec.fuses then evAttestState 2 s1 else s1

/-- The next bottom tree's generation begins past index 28,672; at 32,768 the key changes to that tree, if it is ready (19 R461). -/
def turnTree (s : State) : State :=
  let s1 := if 28672 < s.sec.bottom ∧ s.sec.treeReady = false then { s with sec := { s.sec with treeGen := true } } else s
  if 32768 ≤ s1.sec.bottom ∧ s1.sec.treeReady = true then burnTop 0 s1 else s1

/-- Bytes that Scribe or the security block reads from memory: none where a piece fails. -/
def fetchPieces : List (Nat × Nat) → State → Nat × State
  | [], s => (0, s)
  | (a, n) :: t, s =>
    let r := access 15 0 0 .scribe .read a n [] s
    if r.1.status = 0 then fetchPieces t r.2 else (r.1.status, r.2)

/-- A run of this device's LPDDR5X named by a command is read: its status, and the state (19 R460, R462, R463). Data is taken from memory afterwards.
An address outside fails as an unmapped one. -/
def fetchMem (addr n : Nat) (s : State) : Nat × State :=
  if hostLocal addr s = false ∨ regionOf s (addr % 2 ^ 48) n ≠ .lpddr then (2, s) else fetchPieces (pieces (addr % 2 ^ 48) n) s

end Sys2Proof.Machine
end

