-- ==== Sys2Proof/Machine/Boot.lean ====
section
/-! DEFINITION. Resets and boot (16 R373; 19 R443, R444, R450, R455, R461; 20 R474, R476). -/

namespace Sys2Proof.Machine

/-- A Quill's failure in the start-up test: its fmax falls by 25 MHz; at 1,500 MHz guard_mv rises and the test restarts, and after the fourth
restart the Quill is withdrawn (16 R373 steps 4, 5). `acc.2` counts restarts. -/
def marginFail (acc : State × Nat) (q : Nat) : State × Nat :=
  let s := acc.1
  let v := quill q s
  if v.withdrawn = true ∨ 192 ≤ q then acc
  else if 1500 < v.fmax then
    let m := v.fmax - 25
    (raise { c := 13, i := 0, bit := 15, code := 0x1D00, payload := q + m * 256 } (askSetting 6 (.fmax q m) (setQuill q { v with fmax := m } s)), acc.2)
  else if acc.2 < 4 then (raiseGuard s, acc.2 + 1)
  else (withdrawQuill q s, acc.2)

/-- The reason why no power record can be used: 0 absent, 1 signature, 2 range; none where one can (16 R371, R373, R390). -/
def recordBad (s : State) : Option Nat :=
  match inForce 5 s with
  | none => some (b2n (s.settings.recs.any (fun r => r.kind == 5)))
  | some r =>
    match r.body with
    | .bytes l =>
      if l.length = 512 ∧ 650 ≤ leField l 4 2 ∧ byteAt l 20 ≤ 50 ∧ (List.range 192).all (fun q => decide (byteAt l (24 + q) ≤ 12)) = true then none else some 2
    | _ => some 2

/-- The voltage table brought into use, or the values without one; `fails` are the Quills that fail the test, in order (16 R373). -/
def startTable (fails : List Nat) (s : State) : State :=
  let done := fun (t : State) => { t with pwr := { t.pwr with tableDone := true } }
  match recordBad s with
  | some k => done (raise { c := 13, i := 0, bit := 16, code := 0x7D01, payload := k } s)
  | none =>
    let s1 := { s with pwr := { s.pwr with record := newestKind 5 s } }
    let s2 := wrField 13 0 0x60 31 24 (max (guardMv s1) (byteAt ((newestKind 5 s).getD []) 20)) s1
    let s3 := (List.range 192).foldl (fun acc q => setQuill q { quill q acc with fmax := loadFmax q acc } acc) s2
    let s4 := (fails.foldl marginFail (s3, 0)).1
    done (setVddq (min (volts 1500 s4) 950) s4)

/-- What a main image starts besides Scribe: safety settings and checker, Tightrope configuration, voltage table (15 R341; 16 R373; 19 R450, R454). -/
def mainStart (fails : List Nat) (s : State) : State := startTable fails (applyTightrope (snStart (applySafety s)))

/-- The settings banks scanned: a record whose authenticator fails is reported and ignored (19 R455). -/
def scanSettings (s : State) : State :=
  let recs := s.settings.recs.map (fun r => { r with valid := recAuthOk r s })
  (List.range recs.length).foldl (fun acc k =>
    match recs[k]? with
    | some r => if r.valid then acc
      else raise { c := 15, i := 0, bit := 8, code := 0x3F00, payload := recOffset k s % 2 ^ 32 + r.kind % 2 ^ 16 * 2 ^ 32 } acc
    | none => acc) { s with settings := { s.settings with recs := recs } }

/-- The new boot count written: the previous value + 1, 0 skipped (19 R450 step 6, R454). -/
def writeBoots (s : State) : State :=
  let n := (bootCount s + 1) % 2 ^ 32
  let s1 := if settingsFree s < 68 then compact s else s
  appendRecord { kind := 8, auth := 0, seq := 0, body := .boots (if n = 0 then 1 else n), valid := true } (programRetry (recOffset s1.settings.recs.length s1) s1)

/-- The attestation key at boot: where no copy of the signature state is valid, the next top fuse (19 R461). -/
def startKey (s : State) : State := if (sigInForce s.sec).isNone then burnTop 1 s else turnTree s

/-- Both host pages accept work. -/
def openHost (s : State) : State := wrField 14 0 8 0 0 1 (wrField 14 1 8 0 0 1 s)

/-- Steps 5 to 7 of R450 with the image of a slot; SAFE_OUT is deasserted until it is armed (15 R341; 19). -/
def startImage (slot reason : Nat) (fails : List Nat) (s : State) : State :=
  let h := flashBytes (slotBase slot) 4096 s
  let trial := decide (slot < 2) && (descriptor s).pending == slot
  let s1 := { s with sn := { s.sn with safeOut := false }
                     sec := { s.sec with run := h, slot := slot, before := 1 - slot, phase := if slot < 2 then 1 else 3, hold := 0 } }
  let s2 := wrReg 15 0 0x40 (BitVec.ofNat 32 (imgVersion h)) (wrReg 15 0 0x44 (BitVec.ofNat 32 (slot + b2n trial * 4 + reason * 16)) s1)
  let s3 := startKey (if trial then setUpd 4 s2 else s2)
  let s4 := openHost (loadKey (applyDevice (loadPage 5 0 (loadPage 14 0 (writeBoots (scanSettings s3))))))
  if slot < 2 then mainStart fails s4 else s4

/-- BOOT_FALLBACK (19 R450 step 5, R466). -/
def evFallback (slot reason : Nat) (s : State) : State := raise { c := 15, i := 0, bit := 7, code := 0x7F01, payload := slot + reason * 4 } s

/-- The recovery image taken; where it is not acceptable either, only SYNC is answered (19 R450 step 4). -/
def bootRecovery (reason : Nat) (fallback : Bool) (fails : List Nat) (s : State) : State :=
  match slotCause 2 s with
  | none => startImage 2 reason fails (if fallback then evFallback 2 reason s else s)
  | some k =>
    let s1 := imageRejected 2 k s
    openHost { s1 with sn := { s1.sn with safeOut := false }, sec := { s1.sec with phase := 2, hold := 0 } }

/-- The reason, as MG_BOOT names it, for which a slot's image was not taken (19 MG_BOOT). -/
def bootReason (cause : Nat) : Nat := if cause = 3 then 3 else 2

/-- Steps 1 to 7 of R450 (19). -/
def bootDevice (fails : List Nat) (s : State) : State :=
  if natBit (rdReg 0 0 0x48 s).toNat 1 then bootRecovery 4 false fails s
  else
    let d := descriptor s
    let trial := decide (d.pending < 2)
    let first := if trial = true ∧ 0 < d.tries then d.pending else d.active % 2
    let reason := if trial = true ∧ d.tries = 0 then 1 else 0
    let s1 := if trial = true ∧ 0 < d.tries then writeDescriptor { d with tries := d.tries - 1 } s else s
    match slotCause first s1 with
    | none => startImage first reason fails s1
    | some k =>
      let s2 := imageRejected first k s1
      match slotCause (1 - first) s2 with
      | none => startImage (1 - first) (bootReason k) fails (evFallback (1 - first) (bootReason k) s2)
      | some k2 => bootRecovery (bootReason k) true fails (imageRejected (1 - first) k2 s2)

/-- BOOT: a device that is not held, or whose rails have all come back, boots; `fails` are the Quills that fail the start-up test (19 R450; 20 R474). -/
def execBoot (fails : List Nat) (s : State) : Out :=
  .next (if s.sec.phase ≠ 0 ∨ (s.sec.hold ≠ 0 ∧ s.sec.hold ≠ 2) then s else bootDevice fails s)

/-- The straps and the bank levels as RESET_N is released: [0] MANAGER_SEL, [1] SAFE_BOOT; a bit per bank at 3.3 V (13 TIO_BANK_LEVEL; 19 R444). -/
def latchPins (straps banks : Nat) (s : State) : State :=
  wrField 0 0 0x40 9 9 (straps % 2) (wrReg 0 0 0x48 (BitVec.ofNat 32 (straps % 4)) (wrReg 10 1 0xC0 (BitVec.ofNat 32 (banks % 16)) s))

/-- POWER_ON_RESET (19 R443, R444). -/
def execPowerOnReset (straps banks : Nat) (s : State) : Out := .next (latchPins straps banks (resetDevice 0 0 s))

/-- RESET_PIN: RESET_N held low for 10 µs or more and released (19 R443, R444). What holds the device keeps holding it. -/
def execResetPin (straps banks : Nat) (s : State) : Out := .next (latchPins straps banks (resetDevice 1 s.sec.hold s))

/-- MGMT_WATCHDOG: Scribe's firmware has not serviced it for 100 ms (19 R443). -/
def execMgmtWatchdog (s : State) : Out := .next (if s.sec.phase = 1 ∨ s.sec.phase = 3 then resetDevice 3 0 s else s)

/-- Whether a rail is past its trip threshold: 0 VDD_Q, 1 VDD_C, 2 VDD_M, 3 VDD_L, 4 VDD_IO18, 5 to 8 the supplies of the I/O banks (20 R474). -/
def railTrips (rail mv : Nat) (s : State) : Bool :=
  match rail with
  | 0 => decide (mv < 600)
  | 1 => decide (mv < 690)
  | 2 => decide (mv < 960)
  | 3 => decide (mv < 800)
  | 4 => decide (mv < 1620)
  | 5 | 6 | 7 | 8 => if natBit (rdReg 10 1 0xC0 s).toNat (rail - 5) then decide (mv < 2970 ∨ 3630 < mv) else decide (mv < 1620 ∨ 1980 < mv)
  | _ => false

/-- RAIL_UNDERVOLTAGE: a rail past its threshold for 1 µs (20 R474). -/
def execRailUndervoltage (rail mv : Nat) (s : State) : Out := .next (if railTrips rail mv s then resetDevice 0 2 s else s)

/-- REFCLK_LOSS: the clock monitor acts, then the device is held in reset (15 R341; 20 R476). -/
def execRefclkLoss (s : State) : Out := .next (if s.sec.hold = 3 then s else resetDevice 4 (if s.sec.hold = 0 then 3 else s.sec.hold) (snFault 1 s))

/-- REFCLK_RETURN: the hold ends 100 µs later (20 R476). -/
def execRefclkReturn (s : State) : Out :=
  .next (if s.sec.hold = 3 then let t := advance (100 * oneUs) s; { t with sec := { t.sec with hold := 0 } } else s)

end Sys2Proof.Machine
end

