-- ==== Sys2Proof/Machine/Host.lean ====
section
/-! DEFINITION. The host ports and the command protocol's commands (18 R418 to R442; 06 R157, R158; 17 R401). -/

namespace Sys2Proof.Machine

/-- The MAC address of a port, as a little-endian number: the Colophon's base plus p in its last octet (18 R419). -/
def portMac (p : Nat) (s : State) : Nat := leField s.sec.colophon 52 6 + p * 2 ^ 40

/-- The broadcast MAC address. -/
def macAll : Nat := 2 ^ 48 - 1

/-- The IPv4 address of the device. -/
def hostIpv4 (s : State) : Nat := (rdReg 14 0 0x104 s).toNat

/-- Whether the addresses of a frame are accepted: unicast to the port, or a broadcast ARP request for HOST_IPV4; gPTP frames are GPTP_SYNC's (18
R419). -/
def frameForMe (p : Nat) (f : HostFrame) (s : State) : Bool :=
  f.dst == portMac p s || (f.dst == macAll && hostIpv4 s != 0 && f.arp == some (hostIpv4 s))

/-- Whether a frame carries a CCP PDU (18 R425). -/
def carriesCcp (f : HostFrame) (s : State) : Bool :=
  f.arp.isNone && (match f.ip with
    | none => f.ethertype == rdField 14 0 0x100 31 16 s
    | some h => hostIpv4 s != 0 && h.dst == hostIpv4 s && h.dport == rdField 14 0 0x100 15 0 s && h.plain && h.sumOk)

/-- The opcode of a frame's PDU. -/
def frameOp (f : HostFrame) : Nat := leField f.pdu 12 2

/-- Whether a frame passes HOST_SEC.require unprotected: SYNC, MACSEC_KEY and STOP (18 R422). -/
def openCmd (f : HostFrame) (s : State) : Bool := carriesCcp f s && [0x1, 0x50, 0xF0].contains (frameOp f)

/-- A port's MACsec state. -/
def secY (p : Nat) (s : State) : HostSecY := Tbl.get {} s.host.secys p

/-- A port's MACsec state replaced; the installed receive ANs show (18 HOST_SA_STATUS.rx_valid). -/
def setSecY (p : Nat) (v : HostSecY) (s : State) : State :=
  wrField 14 p 0x54 7 4 ((List.range 4).foldl (fun n a => n + (if (Tbl.find? v.rx a).isSome then 2 ^ a else 0)) 0)
    { s with host := { s.host with secys := Tbl.set {} s.host.secys p v } }

/-- A failed ICV: counted, reported at most once per millisecond per port (18 R422, R442). -/
def icvFailed (p : Nat) (inj : Bool) (s : State) : State :=
  raiseCount (0xE00000 + p) oneMs 1 { c := 14, i := p, bit := 5, code := 0x8E00, payload := injFlag inj } (bump 14 p 0x68 1 s)

/-- What a protected frame encrypts: all that follows its addresses, the tag too (18 R421; PRESUMED: IEEE 802.1AE, log entry 40). -/
def plainBytes (f : HostFrame) : List Byte :=
  let net := match f.ip, f.arp with
    | some h, _ => Config.netHeader [0, h.dst, h.src, h.dport, h.sport, b2n h.sumOk, b2n h.plain, f.pdu.length]
    | none, some a => Config.netHeader [1, a]
    | none, none => []
  (match f.tag with | some t => beBytes 2 0x8100 ++ beBytes 2 t | none => []) ++ beBytes 2 f.ethertype ++ net ++ f.pdu

/-- Whether a frame's ICV holds under a SAK: GCM-AES-256 over the addresses, the SecTAG with the sender's SCI, and what is encrypted (18 R421, R422;
PRESUMED: the SecTAG is IEEE 802.1AE's, and the sender's port identifier is 1 as the P48's is: log entry 40). -/
def icvOk (sak : List Byte) (t : SecTag) (f : HostFrame) : Bool :=
  let plain := plainBytes f
  let sci := leBytes 6 f.src ++ beBytes 2 1
  let aad := leBytes 6 f.dst ++ leBytes 6 f.src ++ beBytes 2 0x88E5 ++ beBytes 1 (0x2C + t.an % 4) ++ beBytes 1 (if plain.length < 48 then plain.length else 0)
    ++ beBytes 4 t.pn ++ sci
  t.icv == gcmTag sak (sci ++ beBytes 4 t.pn) aad plain

/-- MACsec verify: whether a frame goes on, and the state (18 R421 to R423). Replay protection is strict: a PN below the next one is dropped. -/
def macsecPass (p : Nat) (f : HostFrame) (s : State) : Bool × State :=
  match f.sec with
  | none => (rdField 14 0 0x10C 0 0 s == 0 || openCmd f s, s)
  | some t =>
    let y := secY p s
    match Tbl.find? y.rx t.an with
    | none => (false, s)
    | some low =>
      if t.pn < low then (false, s)
      else if armed 14 p 5 s then (false, icvFailed p true (disarm 14 p 5 s))
      else if icvOk (Tbl.get [] y.keys t.an) t f = false then (false, icvFailed p false s)
      else
        let rx := match y.last with
          | some o => if o = t.an then y.rx else Tbl.erase y.rx o
          | none => y.rx
        (true, setSecY p { y with rx := Tbl.put rx t.an (t.pn + 1), last := some t.an } s)

/-- The sender of a frame, as responses and SYNC take it (18 R428, R432). -/
def frameSender (f : HostFrame) : HostPeer :=
  { mac := f.src, ip := match f.ip with | some h => h.src | none => 0, udp := match f.ip with | some h => h.sport | none => 0
    tag := match f.tag with | some t => 65536 + t % 65536 | none => 0 }

/-- Whether a PDU's header is right: version, and a length that the frame holds (18 R426). -/
def pduOk (f : HostFrame) : Bool :=
  decide (24 ≤ f.pdu.length ∧ byteAt f.pdu 0 = 1 ∧ 24 ≤ leField f.pdu 2 2 ∧ leField f.pdu 2 2 ≤ f.pdu.length)

/-- A frame misusing PCP 7, or one that finds the priority buffer full (18 R437, R442). -/
def prioDrop (p op : Nat) (full : Bool) (s : State) : State :=
  raise { c := 14, i := p, bit := 10, code := 0x7E00, payload := op % 65536 + b2n full * 65536 } (bump 14 p 0x6C 1 s)

/-- Whether a frame is metered (18 R440). -/
def meteredOp (op : Nat) : Bool := [0x20, 0x21, 0x30].contains op || updateOp op

/-- Tokens of a port now, in 1/3,000 bit, at most burst_kib of them (18 R440). -/
def tokensNow (p : Nat) (s : State) : Nat :=
  let cap := rdField 14 p 0x50 23 16 s * 1024 * 8 * 3000
  match Tbl.find? s.host.tokens p with
  | some t => min cap (t.1 + (s.time.clk - t.2) * rdField 14 p 0x50 15 0 s)
  | none => cap

/-- A metered frame dropped: counted, reported at most once per millisecond per port (18 R440, R442). -/
def rateDrop (p : Nat) (inj : Bool) (s : State) : State :=
  raiseCount (0xE00010 + p) oneMs 1 { c := 14, i := p, bit := 9, code := 0x2E00, payload := injFlag inj } (bump 14 p 0x60 1 s)

/-- A frame of the data path: metered, then kept in the data FIFO if there is room (18 R420, R440). -/
def toData (p : Nat) (f : HostFrame) (c : HostCmd) (s : State) : State :=
  let put := fun (t : State) =>
    if 240 * 1024 < ((t.host.data.filter (fun e => e.port == p)).map (fun e => e.len)).sum + f.len then bump 14 p 0x64 1 t
    else { t with host := { t.host with data := t.host.data ++ [c] } }
  if meteredOp (frameOp f) = false then put s
  else if armed 14 p 9 s then rateDrop p true (disarm 14 p 9 s)
  else
    let k := tokensNow p s
    let cost := f.len * 8 * 3000
    if k < cost then rateDrop p false { s with host := { s.host with tokens := Tbl.put s.host.tokens p (k, s.time.clk) } }
    else put { s with host := { s.host with tokens := Tbl.put s.host.tokens p (k - cost, s.time.clk) } }

/-- A frame that has passed MACsec: ARP is answered, a PDU goes to its buffer, other frames are dropped (18 R419, R425, R426, R437; DESIGN CHOICE, log entry 40). -/
def rxFrame (p : Nat) (f : HostFrame) (s : State) : State :=
  let pcp := match f.tag with | some t => t / 8192 % 8 | none => 0
  let isCcp := carriesCcp f s
  if isCcp && !pduOk f then bump 14 p 0x64 1 s
  else if pcp = 7 then
    if isCcp && byteAt f.pdu 1 == 0 && prioOp (frameOp f) && decide (leField f.pdu 2 2 ≤ 128) then
      if 256 < bufUnits s.host.prio p 64 + (f.len + 63) / 64 then prioDrop p (frameOp f) true s
      else { s with host := { s.host with prio := s.host.prio ++ [{ port := p, src := frameSender f, len := f.len, pdu := f.pdu }] } }
    else prioDrop p (if isCcp then (frameOp f) else 0) false s
  else if f.arp.isSome then sendTo 3 p (frameSender f) 9 0 0 0 0 0 [] s
  else if isCcp = false ∨ byteAt f.pdu 1 ≠ 0 then s
  else toData p f { port := p, src := frameSender f, len := f.len, pdu := f.pdu } s

/-- HOST_FRAME: a frame passes MAC, MACsec and the priority filter (18 R420). A frame of a port that no image serves is dropped, but a SYNC that the
security block answers (19 R450). -/
def execHostFrame (p : Nat) (f : HostFrame) (s : State) : Out :=
  .next (
    if 2 ≤ p ∨ hostUp p s = false ∨ blockEnabled 14 p s = false ∨ f.fcsOk = false then s
    else if rdField 14 0 0x108 13 0 s < f.len then bump 14 p 0x64 1 s
    else if frameForMe p f s = false then s
    else
      let m := macsecPass p f s
      if m.1 = false ∨ (s.sec.phase = 2 ∧ (carriesCcp f s = false ∨ (frameOp f) ≠ 1)) then m.2 else settleHost (rxFrame p f m.2))

/-- HOST_LINK_UP: a port's link trains at a rate: 1 10 Gb/s, 2 5 Gb/s, 3 2.5 Gb/s (18 R418). -/
def execHostLinkUp (p rate : Nat) (s : State) : Out :=
  .next (
    let st := rdField 14 p 0x40 2 0 s
    let want := rdField 14 p 0x44 1 0 s
    if 2 ≤ p ∨ 2 ≤ st ∨ rate = 0 ∨ 4 ≤ rate ∨ (want ≠ 0 ∧ want ≠ rate) then s
    else raise { c := 14, i := p, bit := 8, code := 0x0E00, payload := rate } (wrField 14 p 0x40 10 8 rate (wrField 14 p 0x40 2 0 2 s)))

/-- HOST_LINK_DOWN: a port's link is lost (18 R418, R442). -/
def execHostLinkDown (p : Nat) (s : State) : Out := .next (if 2 ≤ p ∨ hostUp p s = false then s else hostDown p 0 false s)

/-- The event record numbers that SYNC returns: last assigned, and of the unacknowledged records of queue 0 the oldest and how many (18 R432). -/
def syncEvents (s : State) : Nat × Nat × Nat :=
  let d := qDesc 0 s
  let nums := recNums d s (d.used / 8 + 1) d.rd
  (s.ev.next.toNat - 1, nums.head?.getD 0, nums.length)
where
  /-- Event numbers of the records from a pointer on. -/
  recNums (d : QDesc) (s : State) : Nat → Nat → List Nat
    | 0, _ => []
    | n + 1, ptr =>
      if ptr = d.wr then []
      else
        let w := rdLe s (d.base + ptr % d.size) 4
        if natBit w 31 then recNums d s n ((ptr + max 8 (w % 2 ^ 24)) % (2 * d.size))
        else recNumber 0 d ptr s :: recNums d s n ((ptr + stride (w % 2 ^ 24)) % (2 * d.size))

/-- Delivery of a queue restarts from its oldest unacknowledged record (18 R432, R433). -/
def restartQueue (q : Nat) (s : State) : State := setDlv q ⟨(qDesc q s).rd, 0, s.time.clk⟩ s

/-- SYNC's effect: the port's peer is set, the response formed, deliveries go on or restart (18 R432). -/
def runSync (c : HostCmd) (s0 : State) : State :=
  let s := headerAck c s0
  let p := c.payload
  let resend := natBit (byteAt p 0) 0
  if c.reserved ∨ 2 ≤ byteAt p 0 ∨ (p.drop 1).any (fun b => b != 0) = true then reply c 5 0 [] s
  else
    let s1 := { s with host := { s.host with peers := Tbl.put s.host.peers c.port c.src } }
    let e := syncEvents s1
    let w := fun off => leBytes 4 (rdReg 14 0 off s1).toNat
    let depth := if (qDesc 0 s1).enabled then e.2.2 else 0
    let body := w 0x110 ++ w 0x114 ++ w 0x118 ++ w 0x11C ++ leBytes 4 e.1 ++ leBytes 4 depth
      ++ leBytes 4 (if depth = 0 then 0 else e.2.1) ++ leBytes 4 (rdReg 0 0 0x68 s1).toNat
    let s2 := reply c 0 0 body s1
    let s3 := raise { c := 14, i := c.port, bit := 12, code := 0x0E01, payload := (rdReg 14 0 0x114 s1).toNat + b2n resend * 2 ^ 32 } s2
    let qs := s3.host.dlv.map (fun e => e.1)
    let s4 := if resend then qs.foldl (fun acc q => restartQueue q acc) s3 else s3
    qs.foldl (fun acc q => deliverQueue q acc) s4

/-- SYNC (18 R432). -/
def execSync (s : State) : Out := .next (match nextFrame 0x1 s with | some (c, s1) => settleHost (runSync c s1) | none => s)

/-- QACK's effect; the status word of a refused acknowledgement is not laid down (18 R433; DESIGN CHOICE, log entry 3). -/
def runQack (c : HostCmd) (s : State) : CcpRes :=
  let p := c.payload
  if p.length < 8 ∨ 2 ^ 20 ≤ leField p 0 4 then (some (5, []), s)
  else match ackQueue (leField p 0 4) (leField p 4 4) s with
    | some t => (some (0, []), t)
    | none => let n := fresh s; (some (7, leBytes 4 n.1 ++ leBytes 4 0), n.2)

/-- QACK (18 R433). -/
def execQack (s : State) : Out := .next (ccp 0x2 runQack s)

/-- Whether a register command's head is right: address below 2^56, 1 to 64 words (18 R435). -/
def regHeadOk (p : List Byte) : Bool := decide (10 ≤ p.length ∧ byteAt p 7 = 0 ∧ 1 ≤ leField p 8 2 ∧ leField p 8 2 ≤ 64)

/-- A command that needs the ring waits for it; one whose every request failed at once ends (18 R436). -/
def ringWait (c : HostCmd) (u : ReqUse) (s : State) : CcpRes := if reqOut u s then (none, s) else (some (ringAnswer c u s), dropUse u s)

/-- A register access on another device, by the manager only (02 R34; 18 R436). -/
def remoteReg (c : HostCmd) (op n : Nat) (data : List Byte) (s : State) : CcpRes :=
  let a := leField c.payload 0 8
  let u : ReqUse := .host c.port c.seq
  if isManager s = false then
    let e := raiseSeq (evDenied 14 c.port (a % 2 ^ 48) (if op = 9 then 1 else 2) 1 (deviceId s) 0xFFFF 0) s
    (some (7, failPay 3 0 e.1 ++ (if op = 9 then [] else leBytes 2 0)), e.2)
  else ringWait c u (hostSend u op (a / 2 ^ 48) data [(a % 2 ^ 48, n)] 0 s)

/-- REG_READ's effect (18 R435, R436). -/
def runRegRead (c : HostCmd) (s : State) : CcpRes :=
  let p := c.payload
  let a := leField p 0 8
  let n := leField p 8 2
  if regHeadOk p = false then (some (5, []), s)
  else if hostLocal a s = false then remoteReg c 9 (4 * n) [] s
  else
    let r := readWordsAt .host n (a % 2 ^ 48) { s with host := { s.host with regPort := c.port } }
    if r.1 = 0 then (some (0, r.2.1), r.2.2) else (some (7, failPay r.1 0 (lastSeq s r.2.2)), r.2.2)

/-- REG_READ (18 R436). -/
def execRegRead (s : State) : Out := .next (ccp 0x10 runRegRead s)

/-- REG_WRITE's effect: the words in order, up to the first refusal (18 R436). -/
def runRegWrite (c : HostCmd) (s : State) : CcpRes :=
  let p := c.payload
  let a := leField p 0 8
  let n := leField p 8 2
  if regHeadOk p = false ∨ p.length < 10 + 4 * n then (some (5, []), s)
  else if hostLocal a s = false then remoteReg c 10 (4 * n) (p.drop 10) s
  else
    let r := writeWordsAt .host (wordsOf (p.drop 10) n) (a % 2 ^ 48) 0 { s with host := { s.host with regPort := c.port } }
    if r.1 = 0 then (some (0, leBytes 2 r.2.1), r.2.2) else (some (7, failPay r.1 0 (lastSeq s r.2.2) ++ leBytes 2 r.2.1), r.2.2)

/-- REG_WRITE (18 R436). -/
def execRegWrite (s : State) : Out := .next (ccp 0x11 runRegWrite s)

/-- Whether an access has a byte in the register region, which refuses it whole (18 R436; 02 R36). -/
def touchesRegs (a n : Nat) : Bool := decide (a < regBase + 0x1000000 ∧ regBase < a + n)

/-- MEM_READ's effect (18 R436). -/
def runMemRead (c : HostCmd) (s : State) : CcpRes :=
  let p := c.payload
  let a := leField p 0 8
  let n := leField p 8 4
  if p.length < 12 ∨ byteAt p 7 ≠ 0 ∨ n = 0 ∨ rdField 14 0 0x108 13 0 s < n + 64 then (some (5, []), s)
  else if hostLocal a s = false ∧ touchesRegs (a % 2 ^ 48) n = false then
    let u : ReqUse := .host c.port c.seq
    ringWait c u (hostSend u 0 (a / 2 ^ 48) [] (pieces (a % 2 ^ 48) n) 0 s)
  else
    let b := a % 2 ^ 48
    let r := if touchesRegs b n then access 14 c.port 0 .host .read b n [] s else hostRead c.port (pieces b n) s
    if r.1.status = 0 then (some (0, rdBytes r.2 b n), r.2) else (some (7, failPay r.1.status r.1.cause (lastSeq s r.2)), r.2)

/-- MEM_READ (18 R436). -/
def execMemRead (s : State) : Out := .next (ccp 0x20 runMemRead s)

/-- MEM_WRITE's effect: a refusal answers with the bytes accepted before it (18 R436; 09 R223). -/
def runMemWrite (c : HostCmd) (s : State) : CcpRes :=
  let p := c.payload
  let a := leField p 0 8
  let n := leField p 8 4
  if p.length < 12 + n ∨ p.length < 12 ∨ byteAt p 7 ≠ 0 ∨ n = 0 then (some (5, []), s)
  else if hostLocal a s = false ∧ touchesRegs (a % 2 ^ 48) n = false then
    let u : ReqUse := .host c.port c.seq
    ringWait c u (hostSend u 1 (a / 2 ^ 48) (p.drop 12) (pieces (a % 2 ^ 48) n) 0 s)
  else
    let b := a % 2 ^ 48
    let data := (p.drop 12).take n
    let r := if touchesRegs b n then (let x := access 14 c.port 0 .host .write b n data s; ((x.1, 0), x.2)) else hostWrite c.port data (pieces b n) 0 s
    if r.1.1.status = 0 then (some (0, leBytes 4 r.1.2), r.2)
    else (some (7, failPay r.1.1.status r.1.1.cause (lastSeq s r.2) ++ leBytes 4 r.1.2), r.2)

/-- MEM_WRITE (18 R436). -/
def execMemWrite (s : State) : Out := .next (ccp 0x21 runMemWrite s)

/-- A record pushed by the host: it is not matched against job_match or dev_match (11 R259, R261, R264). -/
def hostPush (q rtype : Nat) (bytes : List Byte) (s0 : State) : Nat × State :=
  let s := qdUse q s0
  let d := qDesc q s
  let n := bytes.length
  let st := if qeBase s = 0 then 7 else if d.enabled = false then 5
    else if n = 0 ∨ d.recordSize < n ∨ (d.fixed = true ∧ n ≠ d.recordSize) then 3
    else if d.fits n (d.keep false) && !armed 6 0 6 s then 0 else 1
  match st with
  | 0 => (0, reserve q rtype 0xFFFF (deviceId s) bytes s)
  | 1 => if d.drop then (8, queueDrop q 0xFFFF (refuseFull q 0xFFFF s)) else (1, refuseFull q 0xFFFF s)
  | _ => (st, raise (evQueueRefused q st 0xFFFF) s)

/-- QUEUE_PUSH's effect (18 R435, R436). Queues lie in LPDDR5X: where that is closed the command fails (11 R269). -/
def runQueuePush (c : HostCmd) (s : State) : CcpRes :=
  let p := c.payload
  if p.length < 8 ∨ 2 ^ 20 ≤ leField p 0 4 ∨ 128 ≤ byteAt p 4 ∨ leField p 5 3 ≠ 0 then (some (5, []), s)
  else if memUp s = false then (some (7, failPay (if fenceCloses s then 7 else 5) 0 0), s)
  else
    let r := hostPush (leField p 0 4) (byteAt p 4) (p.drop 8) s
    (some (0, leBytes 4 r.1), r.2)

/-- QUEUE_PUSH (18 R436). -/
def execQueuePush (s : State) : Out := .next (ccp 0x30 runQueuePush s)

/-- Member devices and jobs of a group entry (06 R157). -/
def groupMembers (b : List Byte) : List (Nat × Nat) :=
  let n := if byteAt b 2 = 0 then 256 else byteAt b 2
  (List.range n).map (fun k => (byteAt b (8 + 4 * k), leField b (10 + 4 * k) 2))

/-- Whether a group entry is well formed (06 R157). -/
def groupOk (b : List Byte) : Bool :=
  let n := if byteAt b 2 = 0 then 256 else byteAt b 2
  b.length == 8 + 4 * n && leField b 6 2 == 0 && (List.range n).all (fun k => byteAt b (9 + 4 * k) == 0)

/-- A group entry taken by this device; refused while a member job of the entry it replaces is RUNNING here, or where 64 entries are held (06 R157,
R158). -/
def takeGroup (b : List Byte) (d : Nat) (s : State) : Option State :=
  let g := leField b 0 2
  let busy := (s.groups.filter (fun e => e.group == g)).any (fun e => e.members.any (fun m =>
    m.1 == deviceId s && (match findJob m.2 s with | some j => j.phase == .running | none => false)))
  let rest := s.groups.filter (fun e => e.group != g)
  if busy ∨ 64 ≤ rest.length then none
  else some { s with groups := rest ++ [{ group := g, root := byteAt b 3, dNs := d, members := groupMembers b, arrivedA := [], arrivedB := [],
                                          releaseA := none, releaseB := none }] }

/-- D of R156: 300 ns and 120 ns for each hop of the longest way from the root to a member (06). -/
def groupD (b : List Byte) (s : State) : Nat :=
  300 + 120 * (groupMembers b).foldl (fun m e => max m (route s (byteAt b 3) e.1).length) 0

/-- BARRIER_GROUP's effect on the manager: the entry, with D computed, is copied to every member and to the root (06 R157). -/
def runBarrierGroup (c : HostCmd) (s : State) : CcpRes :=
  let p := c.payload
  if isManager s = false then (some (6, []), s)
  else if p.length < 8 ∨ groupOk p = false then (some (5, []), s)
  else
    let b := p.take 4 ++ leBytes 2 (groupD p s) ++ p.drop 6
    let devs := (byteAt p 3 :: (groupMembers p).map (fun e => e.1)).eraseDups
    let own := if devs.contains (deviceId s) then takeGroup b (groupD p s) s else some s
    match own with
    | none => (some (6, []), s)
    | some t =>
      (some (0, []), (devs.filter (fun d => d != deviceId s)).foldl (fun acc d => sendPkt 10 d (b.map (fun x => x.toNat)) acc) t)

/-- BARRIER_GROUP: the host's command, or the copy that the manager sends to this device (06 R157; DESIGN CHOICE, log entry 38). -/
def execBarrierGroup (copy : Option (List Byte)) (s : State) : Out :=
  .next (match copy with
    | none => ccp 0x40 runBarrierGroup s
    | some b => if enumerated s = false ∨ groupOk b = false ∨ b.length < 8 then s else (takeGroup b (leField b 4 2) s).getD s)

/-- One 16-byte entry of DET_SLOTS: device, port, slot entry, and what it holds (18 R435; 17 R401). -/
structure DetCmd where
  dev : Nat
  p : Nat
  n : Nat
  e : DetEntry
  deriving DecidableEq, Repr

/-- The k-th entry of a DET_SLOTS payload. -/
def detCmd (b : List Byte) (k : Nat) : DetCmd :=
  let a := 16 * k
  { dev := byteAt b a, p := byteAt b (a + 1), n := byteAt b (a + 2)
    e := { valid := true, origin := byteAt b (a + 3), job := leField b (a + 4) 2, mask := leField b (a + 8) 8 } }

/-- Whether a DET_SLOTS payload is well formed. -/
def detOk (b : List Byte) : Bool :=
  let n := b.length / 16
  b.length % 16 == 0 && decide (n ≤ 32) && (List.range n).all (fun k =>
    let e := detCmd b k
    decide (e.p < 6 ∧ e.n < 16) && leField b (16 * k + 6) 2 == 0)

/-- RP_DET_SEL, RP_DET_JOB and RP_DET_MASK as a register write of four words carries them (17). -/
def DetCmd.words (e : DetCmd) : List Byte := leBytes 4 e.n ++ leBytes 4 (2 ^ 31 + e.e.origin * 2 ^ 16 + e.e.job) ++ leBytes 8 e.e.mask

/-- A slot entry written: here, or by a register write over VC 0 (17 R401; 18 R436). -/
def putDet (u : ReqUse) (b : List Byte) (k : Nat) (s : State) : State :=
  let e := detCmd b k
  if e.dev = deviceId s then setPort e.p { port e.p s with det := Tbl.set {} (port e.p s).det e.n e.e } s
  else
    let r := sendReq u 10 e.dev 0xFFFF false (regAddr 5 e.p 0x74) 16 e.words (16 * k) s
    if r.1 = 0 then r.2 else noteErr u r.1 0 (16 * k) r.2

/-- DET_SLOTS' effect, on the manager only (17 R401; 18 R436). -/
def runDetSlots (c : HostCmd) (s : State) : CcpRes :=
  let p := c.payload
  let u : ReqUse := .host c.port c.seq
  if isManager s = false then (some (6, []), s)
  else if detOk p = false then (some (5, []), s)
  else ringWait c u ((List.range (p.length / 16)).foldl (fun acc k => putDet u p k acc) s)

/-- DET_SLOTS (17 R401). -/
def execDetSlots (s : State) : Out := .next (ccp 0x41 runDetSlots s)

/-- A SAK installed on a port; activated, transmission switches to it, its PNs from 1 (18 R421, R423; the first PN is PRESUMED, IEEE 802.1AE, log entry 40). -/
def installKey (tx act : Bool) (sak : List Byte) (an p : Nat) (s : State) : State :=
  let y := secY p s
  if tx = false then setSecY p { y with rx := Tbl.put y.rx an 1, keys := Tbl.put y.keys an sak } s
  else
    let s1 := setSecY p { y with tx := Tbl.put y.tx an sak } s
    if act then wrReg 14 p 0x58 1 (wrField 14 p 0x54 8 8 0 (wrField 14 p 0x54 2 0 (4 + an) s1)) else s1

/-- MACSEC_KEY's effect (18 R421, R423). -/
def runMacsecKey (c : HostCmd) (s : State) : CcpRes :=
  let p := c.payload
  if p.length < 44 ∨ 4 ≤ byteAt p 0 ∨ 4 ≤ byteAt p 1 ∨ 4 ≤ byteAt p 2 ∨ byteAt p 3 ≠ 0 then (some (5, []), s)
  else match unwrapKey s.sec.linkKey ((p.drop 4).take 40) with
    | none => (some (6, []), s)
    | some sak =>
      let tx := natBit (byteAt p 1) 0
      let act := natBit (byteAt p 1) 1
      (some (0, []), (bitList 2 (byteAt p 0)).foldl (fun acc k => installKey tx act sak (byteAt p 2) k acc) s)

/-- MACSEC_KEY (18 R421). -/
def execMacsecKey (s : State) : Out := .next (ccp 0x50 runMacsecKey s)

/-- Whether a STOP names this device (18 R438). -/
def stopsMe (target : Nat) (all : Bool) (s : State) : Bool := all || target == deviceId s || (target == 0xFF && !enumerated s)

/-- STOP's effect: exempt from session and sequence, reported, denied while HOST_STOP.enable is 0 (18 R431, R438; DEDUCED, log entry 40). -/
def runStop (c : HostCmd) (s0 : State) : State :=
  let s := headerAck c s0
  let p := c.payload
  let s1 := raise (evStop c.port (byteAt p 0) c.src.mac) s
  if p.length < 2 then reply c 5 0 [] s1
  else if rdField 14 0 0x120 0 0 s = 0 then reply c 6 0 [] s1
  else
    let s2 := if stopsMe (byteAt p 0) (natBit (byteAt p 1) 0) s1 ∧ rdField 14 0 0x120 1 1 s1 = 0 then latchStop s1 else s1
    let bad := c.reserved || decide (2 ≤ byteAt p 1) || leField p 2 2 != 0
    reply c (if bad then 5 else 0) 0 [] s2

/-- The STOP that the stop engine takes next: the first in the priority buffer, else one at the head of the data FIFO (18 R420, R437). -/
def nextStop (s : State) : Option (HostCmd × State) :=
  match s.host.prio.find? (fun c => c.op == 0xF0) with
  | some c => some (c, { s with host := { s.host with prio := s.host.prio.erase c } })
  | none =>
    match s.host.data with
    | c :: t => if c.op = 0xF0 then some (c, { s with host := { s.host with data := t } }) else none
    | [] => none

/-- STOP (18 R438). -/
def execHostStop (s : State) : Out := .next (match nextStop s with | some (c, s1) => settleHost (runStop c s1) | none => s)

/-- A job killed by the host: one that is QUEUED ends at once, one that is ADMITTED or RUNNING is stopped (01, job states; 18 R439). -/
def killJob (id : Nat) (s : State) : State :=
  match findJob id s with
  | some j => if j.phase = .queued then (if j.status = 0 then endQueued id 2 0 s else s) else stopJob id 2 0 s
  | none => s

/-- KILL's effect (18 R435, R439). -/
def runKill (c : HostCmd) (s : State) : Nat × List Byte × State :=
  let p := c.payload
  let n := byteAt p 0
  if p.length < 2 ∨ byteAt p 1 ≠ 0 ∨ n = 0 ∨ (8 < n ∧ n ≠ 0xFF) ∨ (n ≠ 0xFF ∧ p.length < 2 + 2 * n) then (5, [], s)
  else
    let live := (s.jobs.filter (fun j => j.phase != .held)).map (fun j => j.d.id)
    let ids := if n = 0xFF then live else ((List.range n).map (fun k => leField p (2 + 2 * k) 2)).eraseDups.filter (fun i => live.contains i)
    (0, leBytes 1 (min ids.length 255), ids.foldl (fun acc i => killJob i acc) s)

/-- KILL (18 R439). -/
def execKill (s : State) : Out := .next (ccpPrio 0xF1 runKill s)

/-- HOLD's and RELEASE's effect on the named scopes (18 R439). -/
def runHold (on : Bool) (c : HostCmd) (s : State) : Nat × List Byte × State :=
  let p := c.payload
  let b := byteAt p 0
  if p.length < 1 ∨ 4 ≤ b then (5, [], s)
  else
    let old := rdReg 14 0 0x124 s
    let m := BitVec.ofNat 32 b
    (0, [], wrReg 14 0 0x124 (if on then old ||| m else old &&& ~~~m) s)

/-- HOLD (18 R439). -/
def execHostHold (s : State) : Out := .next (ccpPrio 0xF2 (runHold true) s)

/-- RELEASE (18 R439). -/
def execHostRelease (s : State) : Out := .next (ccpPrio 0xF3 (runHold false) s)

/-- HOST_STOP_CLEAR: HOST_STOP written with clear, enable as it stands (18 R438, HOST_STOP). -/
def execHostStopClear (r : Req) (s : State) : Out :=
  .next (onReg r 14 0 0x120 (fun t => wrHostStop (BitVec.ofNat 32 (4 + rdField 14 0 0x120 0 0 t)) t) s)

/-- DELIVERY_RESEND: the unacknowledged records of a queue are sent again once the window has not moved for resend_us (18 R433). -/
def execDeliveryResend (q : Nat) (s : State) : Out :=
  .next (
    match Tbl.find? s.host.dlv q with
    | none => s
    | some v =>
      if v.count = 0 ∨ s.host.peers.isEmpty then s
      else
        let s1 := advanceTo (v.moved + rdField 14 0 0x128 31 16 s * oneUs) s
        deliverQueue q (restartQueue q s1))

end Sys2Proof.Machine
end

