-- ==== Sys2Proof/Machine/Regs.lean ====
section
/-! DEFINITION. The common register commands: writes, reads, soft resets, injections, lost events; gPTP time; Nib sparing (02 R37 to R55, R491; 05
R135, R136; 18 R424). -/

namespace Sys2Proof.Machine

/-- NIB_RETIRE (05 R135). -/
def execNibRetire (r : Req) (q v : Nat) (s : State) : Out := .next (onReg r 2 q 0x58 (wrNibRetire q (BitVec.ofNat 32 v)) s)

/-- The physical index of a Quill's NS in the device (01 R27; 05 NIB_SPARED). -/
def nsIndex (q : Nat) : Nat := q * 17 + 16

/-- NIB_SPARED: while the Quill is free, NS takes a failed Nib's logical index, and the map is saved (05 R136). -/
def execNibSpared (q : Nat) (s : State) : Out :=
  .next (
    let v := quill q s
    match (bitList 16 v.failed).head? with
    | some n =>
      if 192 ≤ q ∨ v.sparePending = false ∨ v.st ≠ .free then s
      else
        let s1 := setQuill q { v with spared := n, nsInUse := true, sparePending := false } s
        saveNibs q (raise { c := 2, i := q, bit := 1, code := 0x1100, ctx := n, payload := n + nsIndex q % 512 * 16 + 2 ^ 13 } s1)
    | none => s)

/-- REGISTER_WRITE: a write of `size` bytes at an address of the register region (02 R30 to R39). -/
def execRegisterWrite (r : Req) (addr size v : Nat) (s : State) : Out := .next (writeReg r addr size (BitVec.ofNat 32 v) s).2

/-- READ_CLEAR: a read, which clears RC fields (02 R37). -/
def execReadClear (r : Req) (addr size : Nat) (s : State) : Out := .next (readReg r addr size s).2.2

/-- COUNTER_LO_READ: a read of a _LO register, which latches the high half on the requester's path (02 R40). -/
def execCounterLoRead (r : Req) (c i lo : Nat) (s : State) : Out :=
  .next (if (counterLos c i).contains lo then (let k := regAt r false c i lo s; if k.1 ≠ 0 then k.2 else regReadEffect r c i lo k.2) else s)

/-- SOFT_RESET (02 R44, R491). -/
def execSoftReset (r : Req) (c i : Nat) (s : State) : Out :=
  .next (regWriteAt r c i 8 (fun t => wrCtrl r c i (BitVec.ofNat 32 (2 + b2n (blockEnabled c i t))) t) s).2

/-- SOFT_RESET_DONE: soft_reset and reset_busy clear (02 CTRL, R491). -/
def execSoftResetDone (c i : Nat) (s : State) : Out :=
  .next (
    if s.resetting.contains (pageNo c i) then wrField c i 8 1 1 0 { s with resetting := s.resetting.filter (fun k => k != pageNo c i) } else s)

/-- BLOCK_DISABLE: CTRL.enable cleared (02 CTRL, R44). -/
def execBlockDisable (r : Req) (c i : Nat) (s : State) : Out := .next (regWriteAt r c i 8 (wrCtrl r c i 0) s).2

/-- EVENT_INJECT (02 R46, R47). -/
def execEventInject (r : Req) (c i v : Nat) (s : State) : Out := .next (regWriteAt r c i 0x18 (wrInject r c i (BitVec.ofNat 32 v)) s).2

/-- INJECT_ALLOW_WRITE (02 R55). -/
def execInjectAllowWrite (r : Req) (allow : Bool) (s : State) : Out :=
  .next (regWriteAt r 0 0 0x6C (wrInjectCtrl r (BitVec.ofNat 32 (b2n allow))) s).2

/-- EVENTS_LOST: one record once at least 65 slots are free after losses (02 R51). -/
def execEventsLost (s : State) : Out := .next (if memUp s then flushLost s else s)

/-- WARM_RESET (02 GLB_WARM_RESET; 19 R443). -/
def execWarmReset (r : Req) (v : Nat) (s : State) : Out := .next (onReg r 0 0 0x70 (wrWarmReset (BitVec.ofNat 32 v)) s)

/-- TIME_STEP (02 R53, R54). -/
def evTimeStep (ns : Nat) : Ev := { c := 0, i := 0, bit := 6, code := 0x0002, payload := ns % 2 ^ 64 }

/-- Device time stepped forward to gPTP time; timer instants skipped are reported (02 R54; 13 R297). -/
def timeStep (ns : Nat) (s : State) : State :=
  let d := devNow s
  let s1 := { s with time := { s.time with ticks := ns * 6000, slew := .none, slewLeft := 0, offset := 0, locked := true, everLocked := true } }
  trTimeSkip d ns (raise (evTimeStep (ns - d)) (wrField 0 0 0x58 2 2 1 s1))

/-- GPTP_SYNC: a Sync on the port that the best master clock algorithm chose gives gPTP time. Device time steps forward by more than 1 ms, or at the
first lock; other forward offsets are slewed, and a backward one until it is within 1 µs (02 R54; 18 R424). -/
def execGptpSync (p ns : Nat) (s : State) : Out :=
  .next (
    if 2 ≤ p ∨ hostUp p s = false then s
    else
      let s1 := wrField 14 (1 - p) 0x70 1 1 0 (wrField 14 p 0x70 1 1 1 { s with time := { s.time with lastSync := some s.time.clk } })
      let d := devNow s1
      if d < ns ∧ (1000000 < ns - d ∨ s1.time.everLocked = false) then timeStep ns s1
      else
        let off : Int := (d : Int) - (ns : Nat)
        let k := off.natAbs
        let slew : Slew := if k = 0 then .none else if off < 0 then .fast else if k ≤ 1000 then .none else .slow
        { s1 with time := { s1.time with offset := off, locked := decide (k ≤ 1000), everLocked := s1.time.everLocked || decide (k ≤ 1000)
                                         slew := slew, slewLeft := if off < 0 then k * 6000 else (k - 1000) * 6000 } })

/-- GPTP_SYNC_TIMEOUT: no Sync for 3 s (18 R424). -/
def execGptpSyncTimeout (s : State) : Out :=
  .next (
    match s.time.lastSync with
    | none => s
    | some t =>
      let s1 := advanceTo (t + 3000000 * oneUs) s
      wrField 14 0 0x70 1 1 0 (wrField 14 1 0x70 1 1 0 { s1 with time := { s1.time with locked := false, slew := .none, slewLeft := 0, lastSync := none } }))

/-- PDELAY_MEASURE: a port measures its path delay, in ns; none where the peer does not answer (18 R424, HOST_PTP_STATUS). -/
def execPdelayMeasure (p : Nat) (ns : Option Nat) (s : State) : Out :=
  .next (
    if 2 ≤ p ∨ hostUp p s = false then s
    else match ns with
      | some n => wrField 14 p 0x70 31 16 (min n 0xFFFF) (wrField 14 p 0x70 0 0 1 (sendTo 0 p gptpGroup 10 0 0 0 0 0 [] s))
      | none => wrField 14 p 0x70 0 0 0 (sendTo 0 p gptpGroup 10 0 0 0 0 0 [] s))

/-- CC_ENABLE: CC_CMD_QUEUE.enable set with a queue (07 CC_CMD_QUEUE). -/
def execCcEnable (r : Req) (q : Nat) (s : State) : Out := .next (onReg r 6 0 0x400 (wrCmdQueue (BitVec.ofNat 32 (2 ^ 31 + q % 2 ^ 20))) s)

end Sys2Proof.Machine
end

