-- ==== Sys2Proof/Machine/Ring.lean ====
section
/-! DEFINITION. The ring's commands: flits and links, requests that arrive, responses, barriers, enumeration, ring time, the fence (17 R391 to R417; 02
R33, R34; 05 R126, R490; 06 R156). -/

namespace Sys2Proof.Machine

/-- Corrected symbols of a flit counted: since the last read, per lane in the present second, and reported (17 R392, R393, R417). -/
def fecCount (p : Nat) (fec : List Nat) (s : State) : State :=
  if fec.sum = 0 then s
  else
    let k := port p s
    let fresh1 := decide (k.symSince + oneS ≤ s.time.clk)
    let old := if fresh1 then [] else k.symbols
    let sym := fec.zipIdx.foldl (fun t (e : Nat × Nat) => Tbl.set 0 t e.2 (Tbl.get 0 t e.2 + e.1)) old
    let s1 := setPort p { k with symbols := sym, symSince := if fresh1 then s.time.clk else k.symSince } (bump 5 p 0x4C fec.sum s)
    raiseCount (0x500010 + p) oneMs fec.sum { c := 5, i := p, bit := 5, code := 0x1900 } s1

/-- Whether a flit is sequenced: on VCs 0 to 6, and the credit returns and lane swaps of VC 7 (17 R395). -/
def flitSequenced (f : FlitIn) : Bool := decide (f.vc ≤ 6) || f.kind == 1 || f.kind == 3

/-- A transit flit put at the port it leaves by; a packet with det 1 that finds no slot entry for its job there is refused, and its requester
receives status 3 (17 R399, R400, R401). -/
def forward (t : Option Transit) (s : State) : State :=
  let pass := fun (o vc : Nat) => if o < 6 ∧ (linkState o s = 2 ∨ linkState o s = 3) then addCtr 5 o 0x6C 1 (pushFlits o vc 0xFFFF 1 s) else s
  match t with
  | some ⟨o, vc, some (op, src, job, tag)⟩ =>
    if o < 6 ∧ detEntry o src job s = false then
      let s1 := raise (evDetNoSlot o src job) s
      if op = 3 ∨ op = 4 then s1 else putResp (respOp op) src job tag false 3 0 [] s1
    else pass o vc
  | some ⟨o, vc, none⟩ => pass o vc
  | none => s

/-- FLIT_RECEIVED: CRC-checked, then accepted in sequence order or discarded; a failure or a gap asks for replay (17 R395, R402; DEDUCED, log entry 46). -/
def execFlitReceived (p : Nat) (f : FlitIn) (s : State) : Out :=
  .next (
    if 6 ≤ p ∨ (linkState p s ≠ 2 ∧ linkState p s ≠ 5) then s
    else
      let s1 := fecCount p f.fec s
      if f.crcOk = false then setPort p { port p s1 with nak := true } (bump 5 p 0x50 1 s1)
      else
        let s2 := ackTo p f.ack (addCtr 5 p 0x64 1 s1)
        let v := port p s2
        let ahead := (f.seq + 16384 - (v.rxSeq + 1) % 16384) % 16384
        let s3 :=
          if flitSequenced f = false then s2
          else if ahead = 0 then forward f.transit (setPort p { v with rxSeq := f.seq, nak := false } s2)
          else if ahead < 8192 then setPort p { v with nak := true } s2
          else s2
        pumpPort p (port p s3).waiting.length s3)

/-- NAK_RECEIVED: the flits from ack + 1 on are resent; the eighth nak for one number starts a retrain, which absorbs naks (17 R402, R403). -/
def execNakReceived (p ack : Nat) (s : State) : Out :=
  .next (
    if 6 ≤ p ∨ linkState p s ≠ 2 then s
    else
      let s1 := ackTo p ack s
      let v := port p s1
      let n := if v.nakSeq = ack then v.nakCount + 1 else 1
      let s2 := setPort p { v with nakSeq := ack, nakCount := n } s1
      if 8 ≤ n then linkRetrain p 0 false s2
      else if armed 5 p 7 s2 then replayAll p true (disarm 5 p 7 s2)
      else replayAll p false s2)

/-- LINK_RETRAIN (17 R403). -/
def execLinkRetrain (p cause : Nat) (s : State) : Out := .next (if 6 ≤ p then s else linkRetrain p cause false s)

/-- RETRAIN_DONE: the held flits are replayed, and waiting ones go (17 R403). -/
def execRetrainDone (p : Nat) (s : State) : Out :=
  .next (
    if 6 ≤ p ∨ linkState p s ≠ 3 then s
    else
      let s1 := replayAll p false (wrField 5 p 0x44 2 2 0 (wrField 5 p 0x40 2 0 2 s))
      pumpPort p (port p s1).waiting.length s1)

/-- LINK_DOWN (17 R404). -/
def execLinkDown (p : Nat) (s : State) : Out :=
  .next (if 6 ≤ p ∨ (linkState p s ≠ 2 ∧ linkState p s ≠ 3) then s else linkDown p 0 s)

/-- A port's saved lane map: spare_in_use and spare_for (17 R393; 19 R454). -/
def savedLanes (p : Nat) (s : State) : Nat :=
  (newest (fun b => match b with | .lanes q w => if q = p then some w else none | _ => none) s).getD 0

/-- LINK_UP: a link has trained: the ends know each other, the sequence starts anew, routes are restored (17 R404, R409). -/
def execLinkUp (p die dev q delayPs lanes : Nat) (s : State) : Out :=
  .next (
    if 6 ≤ p ∨ 2 ≤ linkState p s ∨ rdField 5 p 0x44 1 0 s ≠ 0 ∨ blockPowered 5 p s = false ∨ fenceReason s = 4 then s
    else
      let k := port p s
      let s1 := setPort p { det := k.det, retrains := k.retrains, delayPs := delayPs, peerDie := die, symSince := s.time.clk, shadowAt := s.time.clk } s
      let w := savedLanes p s
      let v := dev % 256 * 2 ^ 24 + q % 8 * 2 ^ 21 + w / 32 % 16 * 2 ^ 15 + lanes % 32 * 2 ^ 10 + 2
      let s2 := wrReg 5 p 0x40 (BitVec.ofNat 32 v) s1
      let s3 := { s2 with ring := { s2.ring with firstUp := if s2.ring.firstUp.isSome then s2.ring.firstUp else some s.time.clk } }
      tellRoutes (deviceId s3) p false (raise { c := 5, i := p, bit := 10, code := 0x0900, payload := dev % 256 + q % 8 * 2 ^ 8 } s3))

/-- LANE_SPARED: a lane out of lock, or over the threshold of corrected symbols in a second (17 R393). -/
def execLaneSpared (p lane : Nat) (lock : Bool) (s : State) : Out :=
  .next (
    if 6 ≤ p ∨ 4 ≤ lane ∨ linkState p s ≠ 2 ∨ (lock = false ∧ Tbl.get 0 (port p s).symbols lane ≤ rdField 5 p 0x48 23 0 s) then s
    else laneFault p lane lock false s)

/-- LANE_SWAP_FLIT: both ends switch the lane at the boundary it agrees; the peer may have asked first (17 R393). -/
def execLaneSwapFlit (p lane : Nat) (s : State) : Out :=
  .next (
    if 6 ≤ p ∨ linkState p s ≠ 2 then s
    else match (port p s).swap with
      | some l => switchLane p l false false s
      | none => if lane < 4 ∧ spareUsed p s = false then switchLane p lane false false s else s)

/-- SPARE_SHADOW_ROTATE: after 100 ms L4 shadows the next lane (17 R393). -/
def execSpareShadowRotate (p : Nat) (s : State) : Out :=
  .next (
    if 6 ≤ p ∨ linkState p s ≠ 2 ∨ spareUsed p s = true ∨ (port p s).swap.isSome then s
    else
      let s1 := advanceTo ((port p s).shadowAt + 100 * oneMs) s
      let k := port p s1
      setPort p { k with shadow := (k.shadow + 1) % 4, shadowAt := s1.time.clk } s1)

/-- CREDIT_RETURN: credits of a VC come back, and waiting flits go (17 R395, R396). -/
def execCreditReturn (p vc n : Nat) (s : State) : Out :=
  .next (
    if 6 ≤ p ∨ 7 ≤ vc then s
    else
      let k := port p s
      let s1 := setPort p { k with used := Tbl.set 0 k.used vc (Tbl.get 0 k.used vc - n) } s
      pumpPort p (port p s1).waiting.length s1)

/-- The ports by which this device passes ring time on: those by which the tree from the manager reaches a neighbour (17 R405). -/
def timeChildren (s : State) : List Nat :=
  (upPorts s).filter (fun q => (route s 0 (linkPeer q s).1).getLast? == some (deviceId s, q))

/-- TIME_SYNC: ring time corrected, never backward, and passed on down the tree (17 R405, R406). An armed injection suppresses it (R417). -/
def execTimeSync (p ps depth : Nat) (s : State) : Out :=
  .next (
    if 6 ≤ p ∨ linkState p s ≠ 2 ∨ enumerated s = false ∨ ownTime s = true ∨ armed 5 0 16 s = true then s
    else
      let new := max s.time.ring (ps * 6)
      let corr : Int := ((new - s.time.ring) / 6 : Nat)
      let s1 := { s with time := { s.time with ring := new }, ring := { s.ring with lastSync := some s.time.clk } }
      let old := (rdReg 5 0 0x110 s).toNat
      let s2 := wrReg 5 0 0x110 (BitVec.ofNat 32 (satField 16 corr * 65536 + depth % 256 * 256 + old / 4 % 2 * 4 + 1)) s1
      (timeChildren s2).foldl (fun acc q => addCtr 5 q 0x5C 1 acc) s2)

/-- The lowest-numbered worker that still has a path, as this device knows it (17 R407). -/
def timeHeir (s : State) : Option Nat :=
  (List.range 256).find? (fun k => decide (k ≠ 0) && (k == deviceId s ||
    ((Tbl.get ({} : Peer) s.ring.peers k).present && !(Tbl.get ({} : Peer) s.ring.peers k).fenced && !wayDown s (route s (deviceId s) k))))

/-- RING_TIME_LOST: no time sync for 10 µs; where the manager has stopped sending, the lowest-numbered worker becomes the source (17 R407). -/
def execRingTimeLost (managerGone : Bool) (s : State) : Out :=
  .next (
    if enumerated s = false ∨ ownTime s = true ∨ rdField 5 0 0x110 1 1 s = 1 then s
    else
      let s1 := advanceTo (s.ring.lastSync.getD 0 + 10 * oneUs) s
      let inj := armed 5 0 16 s1
      let s2 := wrField 5 0 0x110 2 2 1 (wrField 5 0 0x110 0 0 0 (disarm 5 0 16 s1))
      let s3 := raise { c := 5, i := 0, bit := 16, code := 0x2900, payload := injFlag inj } s2
      if managerGone ∧ timeHeir s3 = some (deviceId s3) then wrField 5 0 0x110 15 8 0 (wrField 5 0 0x110 1 1 1 s3) else s3)

/-- Whether the device takes requests from the ring: it is enumerated and not fenced (02 R33; 17 R414). -/
def takesRing (s : State) : Bool := enumerated s && !fenced s

/-- RING_READ: performed at its target, checked by the windows, answered with data and status (17 R397; 02 R34). -/
def execRingRead (src job tag : Nat) (det : Bool) (addr len : Nat) (s : State) : Out :=
  .next (
    if takesRing s = false then sendResp 3 src job tag det 7 0 [] s
    else
      let r := access 5 (inPort src s) 0 (.job src job) .read addr len [] s
      sendResp 3 src job tag det r.1.status r.1.cause (if r.1.status = 0 then rdBytes r.2 addr len else []) r.2)

/-- RING_WRITE (17 R397; 02 R34). -/
def execRingWrite (src job tag : Nat) (det : Bool) (addr : Nat) (data : List Byte) (s : State) : Out :=
  .next (
    if takesRing s = false then sendResp 4 src job tag det 7 0 [] s
    else
      let r := access 5 (inPort src s) 0 (.job src job) .write addr data.length data s
      sendResp 4 src job tag det r.1.status r.1.cause [] r.2)

/-- RING_ATOMIC: performed at its target, the old value returned in a read response (05 R490). -/
def execRingAtomic (src job tag : Nat) (det : Bool) (addr op val cmp : Nat) (s : State) : Out :=
  .next (
    if takesRing s = false then sendResp 3 src job tag det 7 0 [] s
    else
      let old := rdLe s addr 4
      let new := atomicWord op (BitVec.ofNat 32 old) (BitVec.ofNat 32 val) (BitVec.ofNat 32 cmp)
      let r := access 5 (inPort src s) 0 (.job src job) .atomic addr 4 (leBytes 4 new.toNat) s
      sendResp 3 src job tag det r.1.status r.1.cause (if r.1.status = 0 then leBytes 4 old else []) r.2)

/-- A failed answer to a tensor operation's request: its job fails; data is kept for it, and an operation whose outputs are all answered leaves (05
R123, R125; 09 R223). -/
def answerOp (q issue : Nat) (r : RingReq) (st ev : Nat) (data : List Byte) (s : State) : State :=
  let u : ReqUse := .op q issue
  if st ≠ 0 then stopJob r.job 4 ev (dropUse u s)
  else
    let s1 := if r.op = 0 then rbufPut u (r.dst * 2 ^ 48 + r.addr) data s else s
    if reqOut u s1 = false ∧ (quill q s1).ops.any (fun o => o.issue == issue && o.drained) = true then opDone q issue s1 else s1

/-- The answer to a DMA's request: data or the failure of a read is kept, of failed writes the first in issue order (09 R223; 11 R269). -/
def answerDma (k issue : Nat) (r : RingReq) (st cause ev : Nat) (data : List Byte) (s : State) : State :=
  let u : ReqUse := .dma k issue
  if r.op = 0 then
    if st = 0 then rbufPut u (r.dst * 2 ^ 48 + r.addr) data s else noteFar u (r.dst * 2 ^ 48 + r.addr) r.len st cause ev s
  else if st = 0 then s
  else
    let ch := chan k s
    setChan k { ch with reqs := ch.reqs.map (fun z =>
      if z.issue = issue ∧ z.job = r.job then
        (match z.err with
          | some e => if e.2.2.1 ≤ r.pos then z else { z with err := some (st, cause, r.pos, ev) }
          | none => { z with err := some (st, cause, r.pos, ev) })
      else z) } s

/-- The answer to a host command's request (18 R436). -/
def answerHost (port seq : Nat) (r : RingReq) (st cause : Nat) (data : List Byte) (s : State) : State :=
  let u : ReqUse := .host port seq
  let s1 := if st ≠ 0 then noteErr u st cause (r.pos + (if r.op = 10 then 4 * leField data 0 2 else 0)) s
    else if r.op = 0 ∨ r.op = 9 then rbufPut u (r.dst * 2 ^ 48 + r.addr) data s
    else s
  hostDone port seq s1

/-- An answer, or the timeout, of a request takes its effect on what the request was made for (17 R397, R407). -/
def answer (r : RingReq) (st cause ev : Nat) (data : List Byte) (s0 : State) : State :=
  let s := { s0 with ring := { s0.ring with reqs := s0.ring.reqs.filter (fun x => x.tag != r.tag) } }
  match r.use with
  | .op q issue => answerOp q issue r st ev data s
  | .dma k issue => answerDma k issue r st cause ev data s
  | .atomic q => setQuill q { quill q s with atomic := some (st, leField data 0 4, ev) } s
  | .signal => if st = 0 then s else stopJob r.job 4 ev s
  | .queue q => if st ≠ 0 then stopJob r.job 4 ev (dropUse (.queue q) s) else if r.op = 0 then rbufPut r.use (r.dst * 2 ^ 48 + r.addr) data s else flushSignals q s
  | .host p seq => answerHost p seq r st cause data s
  | .fine => if st = 0 then s else { s with fn := { s.fn with cur := s.fn.cur.map (fun c => { c with refused := true }) } }
  | .manager => s

/-- A response matched to its request by tag; one with no request is discarded (17 R397, R407). -/
def respond (ops : List Nat) (tag st cause : Nat) (data : List Byte) (s : State) : State :=
  match s.ring.reqs.find? (fun r => r.tag == tag && ops.contains r.op) with
  | some r => if st = 0 ∧ r.op ≠ 1 ∧ r.op ≠ 10 ∧ data.length < (if r.op = 2 then 4 else r.len) then s else answer r st cause 0 data s
  | none => s

/-- READ_RESPONSE (17 R397; 05 R490). -/
def execReadResponse (tag status cause : Nat) (data : List Byte) (s : State) : Out := .next (respond [0, 2] tag status cause data s)

/-- WRITE_RESPONSE: it answers writes, and semaphore signals and queue pushes too (17 R397; DESIGN CHOICE, log entry 38). -/
def execWriteResponse (tag status cause : Nat) (s : State) : Out := .next (respond [1, 5, 6] tag status cause (List.replicate 256 0) s)

/-- REGISTER_RESPONSE (17 R397). -/
def execRegisterResponse (tag status : Nat) (data : List Byte) (s : State) : Out := .next (respond [9, 10] tag status 0 data s)

/-- RING_SEM_SIGNAL: delivered where the job is RUNNING and holds the rank, else refused with ACCESS_DENIED (05 R126; 17 R414). -/
def execRingSemSignal (src job tag : Nat) (det : Bool) (target rank sem count : Nat) (s : State) : Out :=
  .next (
    if enumerated s = false then sendResp 4 src job tag det 7 0 [] s
    else if !fenced s && takesSignal target rank s then sendResp 4 src job tag det 0 0 [] (signalJob target rank sem count true s)
    else sendResp 4 src job tag det 3 0 [] (raise (evDenied 5 (inPort src s) 0 2 5 src job 0) s))

/-- The R269 code that a push's R264 status travels as (11 R264, R269; DESIGN CHOICE, log entry 38). -/
def pushCode (st : Nat) : Nat := match st with | 0 | 1 | 8 => 0 | 7 => 2 | _ => 3

/-- RING_QUEUE_PUSH: matched and reserved as a push of the requesting job (11 R259, R261, R264). -/
def execRingQueuePush (src job tag : Nat) (det : Bool) (q : Nat) (data : List Byte) (s : State) : Out :=
  .next (
    if takesRing s = false then sendResp 4 src job tag det 7 0 [] s
    else if memUp s = false then sendResp 4 src job tag det (if fenceCloses s then 7 else 5) 0 [] s
    else
      let r := pushRecord q job src data s
      sendResp 4 src job tag det (pushCode r.1) 0 (leBytes 1 r.1) r.2)

/-- BARRIER_ARRIVAL: a member's arrival at the root (06 R156). -/
def execBarrierArrival (group member : Nat) (copyB : Bool) (s : State) : Out :=
  .next (
    match findGroup group s with
    | some e => if enumerated s = true ∧ e.root = deviceId s ∧ member < e.members.length then rootArrival group member copyB s else s
    | none => s)

/-- BARRIER_RELEASE: the release time comes to a member; one that has passed is replaced by the next rotation boundary (06 R156). -/
def execBarrierRelease (group : Nat) (copyB : Bool) (R : Nat) (s : State) : Out :=
  .next (
    if (findGroup group s).isNone ∨ enumerated s = false then s
    else
      let t := if R < ringNow s then rotationAfter (ringNow s) else R
      updGroup group (fun e => if copyB then { e with releaseB := some t } else { e with releaseA := some t }) s)

/-- RING_REG_ACCESS: the manager's register read or write, or another device's refused one; a fenced device serves it too (02 R34; 17 R397, R414). -/
def execRingRegAccess (src tag : Nat) (wr : Bool) (addr n : Nat) (data : List Byte) (s : State) : Out :=
  .next (
    if enumerated s = false then sendResp 11 src 0xFFFF tag false 7 0 [] s
    else if src ≠ 0 then
      sendResp 11 src 0xFFFF tag false 3 0 (if wr then leBytes 2 0 else []) (raise (evDenied 5 (inPort src s) addr (if wr then 2 else 1) 5 src 0xFFFF 0) s)
    else if wr then
      let r := writeWordsAt .manager (wordsOf data n) addr 0 s
      sendResp 11 src 0xFFFF tag false r.1 0 (leBytes 2 r.2.1) r.2.2
    else
      let r := readWordsAt .manager n addr s
      sendResp 11 src 0xFFFF tag false r.1 0 (if r.1 = 0 then r.2.1 else []) r.2.2)

/-- RING_REQ_TIMEOUT: a request without a response within the limit ends with status 7 (17 R407). -/
def execRingReqTimeout (tag : Nat) (s : State) : Out :=
  .next (
    match s.ring.reqs.find? (fun r => r.tag == tag) with
    | none => s
    | some r =>
      let s1 := advanceTo (r.born + (rdReg 5 0 0x114 s).toNat * oneUs) s
      let e := raiseSeq (evReqTimeout (outPort r.dst s1) r.dst r.job tag) s1
      answer r 7 0 e.1 [] e.2)

/-- ENUM_START: RING_ENUM_CTRL.start written, or the start at boot when auto is 1 (17 R409). -/
def execEnumStart (r : Option Req) (s : State) : Out :=
  .next (
    match r with
    | some k => onReg k 5 0 0x104 (fun t => wrEnumCtrl (BitVec.ofNat 32 (2 + rdField 5 0 0x104 0 0 t)) t) s
    | none => if s.sec.phase ≠ 1 ∨ rdField 5 0 0x104 0 0 s = 0 ∨ s.ring.enumOn = true ∨ enumerated s = true then s else enumStart s)

/-- DISCOVER: a worker answers each round once and forwards it; a manager that hears another refuses to enumerate (17 R408, R409). -/
def execDiscover (p origin round : Nat) (s : State) : Out :=
  .next (
    if 6 ≤ p ∨ linkState p s ≠ 2 ∨ origin = dieId s then s
    else if rdField 0 0 0x40 9 9 s = 1 then enumRefused 1 origin s
    else if s.ring.discovers = round then s
    else
      let f := selfFound s
      let words := [2, f.die] ++ f.ports.flatMap (fun (e : Bool × Nat × Nat) => [b2n e.1, e.2.1, e.2.2])
      let s1 := pushFlits p 0 0xFFFF 1 { s with ring := { s.ring with discovers := round, sent := ⟨12, 0, words⟩ :: s.ring.sent } }
      ((upPorts s1).filter (fun k => k != p)).foldl (fun acc k => pushFlits k 0 0xFFFF 1 acc) s1)

/-- DISCOVER_REPLY: the manager hears of a device: placed with the others once all have answered, or as a late one (17 R409 to R411). -/
def execDiscoverReply (die : Nat) (manager : Bool) (ports : List (Bool × Nat × Nat)) (s : State) : Out :=
  .next (
    let f : Found := { die := die, manager := manager, ports := ports }
    if rdField 0 0 0x40 9 9 s = 0 then s
    else if s.ring.enumOn && s.ring.placed.isEmpty then enumCheck { s with ring := { s.ring with found := s.ring.found ++ [f] } }
    else if rdField 5 0 0x100 20 20 s = 1 then (if manager then enumRefused 1 die s else lateFound f s)
    else s)

/-- ASSIGN: a worker takes its ID, the sizes, its coordinates, the route table and its place in the time tree, and acknowledges (17 R409). -/
def execAssign (id sx sy sz x y z depth : Nat) (down : List (Nat × Nat)) (s : State) : Out :=
  .next (
    if rdField 0 0 0x40 9 9 s = 1 ∨ s.ring.discovers = 0 ∨ sx = 0 ∨ sy = 0 ∨ sz = 0 ∨ 8 < sx ∨ 8 < sy ∨ 4 < sz ∨ sx ≤ x ∨ sy ≤ y ∨ sz ≤ z
      ∨ id ≠ idIn (sx, sy, sz) x y z then s
    else
      let s1 := takeId id (sx, sy, sz) (x, y, z) s
      let s2 := (List.range (sx * sy * sz)).foldl (fun acc k => setPeer k { Tbl.get ({} : Peer) acc.ring.peers k with present := true } acc)
        { s1 with ring := { s1.ring with down := down, lastSync := some s.time.clk } }
      sendPkt 12 0 [3, id] (wrField 5 0 0x110 15 8 depth s2))

/-- ENUM_DONE: every device has acknowledged; the manager sets done and becomes the source of ring time (17 R409). -/
def execEnumDone (s : State) : Out :=
  .next (
    if s.ring.enumOn = false ∨ s.ring.placed.isEmpty then s
    else
      let n := torusSizes s
      let s1 := { s with ring := { s.ring with enumOn := false, found := [], discAt := s.time.clk } }
      let s2 := wrField 5 0 0x110 1 0 3 (wrField 5 0 0x100 20 20 1 s1)
      raise { c := 5, i := 0, bit := 12, code := 0x0901, payload := n.1 + 16 * n.2.1 + 256 * n.2.2 + s.ring.placed.length * 4096 } s2)

/-- DISCOVER_REPEAT: every 100 ms after ENUM_DONE the manager asks again (17 R411). -/
def execDiscoverRepeat (s : State) : Out :=
  .next (
    if rdField 0 0 0x40 9 9 s = 0 ∨ rdField 5 0 0x100 20 20 s = 0 then s
    else
      let s1 := advanceTo (s.ring.discAt + 100 * oneMs) s
      discoverOut { s1 with ring := { s1.ring with discAt := s1.time.clk } })

/-- ENUM_WAIT_TIMEOUT: a worker with a port up hears no DISCOVER within 1 s of its first link, and says so once (17 R408). -/
def execEnumWaitTimeout (s : State) : Out :=
  .next (
    match s.ring.firstUp with
    | none => s
    | some t =>
      if rdField 0 0 0x40 9 9 s = 1 ∨ s.ring.discovers ≠ 0 ∨ s.ring.noManager = true ∨ (upPorts s).isEmpty then s
      else
        let s1 := advanceTo (t + oneS) s
        enumRefused 6 (dieId s1) { s1 with ring := { s1.ring with noManager := true } })

/-- ROUTE_UPDATE: links marked down or up; the manager passes the change on to every device (17 R404). -/
def execRouteUpdate (dev p : Nat) (down : Bool) (s : State) : Out :=
  .next (if enumerated s = false ∨ 6 ≤ p then s else if isManager s then tellRoutes dev p down s else markLink dev p down s)

/-- FENCE_CMD: RING_FENCE_CMD written with its key (17 R412). -/
def execFenceCmd (r : Req) (target : Nat) (s : State) : Out :=
  .next (regWriteAt r 5 0 0x11C (wrFenceCmd r (BitVec.ofNat 32 (0xFE0C0001 + target % 256 * 256))) s).2

/-- DEVICE_FENCE: the fence that is due, or one for a fault in the management controller's memory (3) or the ring crossbar (4). A crossbar fault goes
before a reason that is due, and makes a device that is fenced already go dark (00 R3; 17 R412, R413, R415; DESIGN CHOICE, log entry 46). -/
def execDeviceFence (fault : Option Nat) (s : State) : Out :=
  .next (
    let due := if fault = some 4 then fault else match s.ring.fenceDue with | some r => some r | none => fault
    let s1 := { s with ring := { s.ring with fenceDue := none } }
    match due with
    | none => s1
    | some r => if fenced s1 = false then fenceNow r s1 else if r = 4 ∧ fenceReason s1 ≠ 4 then goDark s1 else s1)

/-- A relayed completion record written by this device: writer_id becomes its own ID (17 R413; 11 R267). -/
def relayTo (q : Nat) (b : List Byte) (s : State) : State :=
  pushEngine q 1 0xFFFF true false (b.take 7 ++ leBytes 1 (deviceId s) ++ b.drop 8) s

/-- FENCE_NOTICE: the sender is marked and reported, its completion records are written; the manager's notice with reason 6 fences this device (17 R412,
R413). -/
def execFenceNotice (dev reason : Nat) (records : List (List Byte)) (s : State) : Out :=
  .next (
    if enumerated s = false then s
    else if dev = deviceId s then (if reason = 6 then fenceFor 6 s else s)
    else
      let on := natBit (rdReg 5 0 0x118 s).toNat 31
      let s1 := peerFenced dev reason (!on && !records.isEmpty) s
      if on then records.foldl (fun acc b => relayTo (rdField 5 0 0x118 19 0 s) b acc) s1 else s1)

/-- LINK_RETRAIN_CMD: RP_LINK_CTRL.retrain set, the mode as it stands (17 R403). -/
def execLinkRetrainCmd (r : Req) (p : Nat) (s : State) : Out :=
  .next (onReg r 5 p 0x44 (fun t => wrLinkCtrl p (BitVec.ofNat 32 (4 + rdField 5 p 0x44 1 0 t)) t) s)

/-- LINK_MODE_WRITE (17 R416, RP_LINK_CTRL). -/
def execLinkModeWrite (r : Req) (p mode : Nat) (s : State) : Out := .next (onReg r 5 p 0x44 (wrLinkCtrl p (BitVec.ofNat 32 (mode % 4))) s)

/-- RP_TEST with its key, an action and a count (17 RP_TEST). -/
def testWord (action n : Nat) : Word := BitVec.ofNat 32 (0x0F1A0000 + action * 256 + n % 256)

/-- LINK_TEST_DROP (17 R416). -/
def execLinkTestDrop (r : Req) (p n : Nat) (s : State) : Out := .next (regWriteAt r 5 p 0x84 (wrRpTest r p (testWord 1 n)) s).2

/-- LINK_TEST_CORRUPT (17 R416). -/
def execLinkTestCorrupt (r : Req) (p n : Nat) (s : State) : Out := .next (regWriteAt r 5 p 0x84 (wrRpTest r p (testWord 2 n)) s).2

/-- LINK_TEST_REORDER (17 R416). -/
def execLinkTestReorder (r : Req) (p : Nat) (s : State) : Out := .next (regWriteAt r 5 p 0x84 (wrRpTest r p (testWord 3 0)) s).2

end Sys2Proof.Machine
end

