-- ==== Sys2Proof/Machine/Security.lean ====
section
/-! DEFINITION. Attestation, debug unlock, provisioning (19 R459 to R462). -/

namespace Sys2Proof.Machine

/-- Signing tokens (19 SEC_ATTEST_TOKENS). -/
def attestTokens (s : State) : Nat := rdField 15 1 0x4C 7 0 s

/-- A record's bytes as the attestation digests them, with its commit word programmed (19 R453, R460). -/
def attestBytes (s : State) (r : SetRec) : List Byte :=
  if r.raw = [] then recHead r s ++ leBytes 4 0 ++ r.body.layout r.kind ++ r.sig else r.raw.take 28 ++ leBytes 4 0 ++ r.raw.drop 32

/-- Bytes 0 to 143 of an attestation record signed with an index (19 R460). -/
def attestHead (nonce : List Byte) (bottom : Nat) (s : State) : List Byte :=
  let recs := [1, 2, 7, 9, 10].flatMap (fun k => match inForce k s with | some r => attestBytes s r | none => [])
  let fix := fun (n : Nat) (l : List Byte) => l.take n ++ List.replicate (n - l.length) 0
  leBytes 4 0x54415441 ++ leBytes 4 5380 ++ fix 32 nonce ++ leBytes 7 (dieId s) ++ leBytes 1 0 ++ leBytes 8 (devNow s) ++ leBytes 4 (bootCount s)
    ++ leBytes 4 (rdReg 15 0 0x40 s).toNat ++ leBytes 1 s.sec.main ++ leBytes 1 s.sec.recov ++ leBytes 1 (rdField 15 0 0x44 1 0 s)
    ++ leBytes 1 (mgReg 3 0x40 s) ++ sha256 (s.sec.run.take 1024) ++ sha256 recs ++ leBytes 4 (s.sec.fuses % 1024)
    ++ leBytes 4 bottom ++ leBytes 4 0

/-- A bottom tree's identifier and seed (19 R461). -/
def bottomOf (top : Nat) (s : State) : List Byte × List Byte :=
  let b := Config.bottomTree (attestSeed s.sec) top
  let l := b ++ List.replicate 48 0
  (l.take 16, (l.drop 16).take 32)

/-- The HSS signature of a message by the attestation key: the top tree, made from the attestation seed under the identifier in att_pub, signs the
bottom tree's public key, and that tree signs the message (19 R449, R456, R458, R460). -/
def attestSign (top bottom : Nat) (msg : List Byte) (s : State) : List Byte :=
  let r := fun (k q : Nat) (m : List Byte) => (Config.randomizer k q m ++ List.replicate 32 0).take 32
  let b := bottomOf top s
  let pub := lmsPublic 7 3 b.1 b.2
  beBytes 4 1 ++ lmsSign 6 3 ((s.sec.colophon.drop 76).take 16) (attestSeed s.sec) (r 0 top pub) top pub ++ pub ++ lmsSign 7 3 b.1 b.2 (r 1 bottom msg) bottom msg

/-- The attestation record, 5,380 bytes (19 R460). -/
def attestRecord (nonce : List Byte) (bottom : Nat) (s : State) : List Byte :=
  let h := attestHead nonce bottom s
  let g := attestSign (s.sec.fuses % 1024) bottom h s
  h ++ g.take 5236 ++ List.replicate (5236 - g.length) 0

/-- A bottom index reserved before it is used: at reserved_next the older copy is written with 64 more (19 R461). -/
def reserveIndex (s : State) : State :=
  match sigInForce s.sec with
  | some c => if c.next = s.sec.bottom then writeSig (s.sec.bottom + 64) s else s
  | none => s

/-- ATTEST's effect: refused for good when the key is exhausted, busy without a token or an index (19 R460, R461). -/
def runAttest (c : HostCmd) (s : State) : CcpRes :=
  let p := c.payload
  let addr := leField p 32 8
  let k := attestTokens s
  if p.length < 40 then (some (5, []), s)
  else if 1024 ≤ s.sec.fuses then (some (6, []), s)
  else if k = 0 ∨ 32768 ≤ s.sec.bottom then (some (3, []), s)
  else if hostLocal addr s = false ∨ regionOf s (addr % 2 ^ 48) 5380 ≠ .lpddr then (some (7, failPay 2 0 0), s)
  else
    let s1 := reserveIndex (wrField 15 1 0x4C 7 0 (k - 1) (if k = 240 then { s with sec := { s.sec with refill := s.time.clk } } else s))
    let rec_ := attestRecord (p.take 32) s.sec.bottom s1
    let w := access 15 1 0 .scribe .write (addr % 2 ^ 48) 5380 rec_ { s1 with sec := { s1.sec with bottom := s1.sec.bottom + 1 } }
    let s2 := turnTree w.2
    if w.1.status = 0 then (some (0, leBytes 4 5380), s2) else (some (7, failPay w.1.status w.1.cause 0), s2)

/-- ATTEST (19 R460). -/
def execAttest (s : State) : Out := .next (ccp 0x110 runAttest s)

/-- BOTTOM_TREE_READY (19 R461). -/
def execBottomTreeReady (s : State) : Out :=
  .next (if s.sec.treeGen then turnTree { s with sec := { s.sec with treeGen := false, treeReady := true } } else s)

/-- ATTEST_TOKEN_REFILL: a token every 15 s, up to 240 (19 R460). -/
def execAttestTokenRefill (s : State) : Out :=
  .next (
    if 240 ≤ attestTokens s then s
    else
      let s1 := advanceTo (s.sec.refill + 15000000 * oneUs) s
      wrField 15 1 0x4C 7 0 (attestTokens s + 1) { s1 with sec := { s1.sec with refill := s.sec.refill + 15000000 * oneUs } })

/-- DEBUG_CHALLENGE's effect: the nonce is a free value (19 R462; DESIGN CHOICE, log entry 3). -/
def runDebugChallenge (_ : HostCmd) (s : State) : CcpRes :=
  let f := fresh s
  let n := leBytes 32 f.1
  (some (0, n), { f.2 with sec := { f.2.sec with nonce := some (n, s.time.clk + 300000000 * oneUs) } })

/-- DEBUG_CHALLENGE (19 R462). -/
def execDebugChallenge (s : State) : Out := .next (ccp 0x111 runDebugChallenge s)

/-- The current nonce is the one given, and still valid (19 R462). -/
def nonceOk (n : List Byte) (s : State) : Bool := match s.sec.nonce with | some (m, t) => m == n && decide (s.time.clk < t) | none => false

/-- UNLOCK_REFUSED, answered denied (19 R462, R467). -/
def unlockRefused (cause : Nat) (s : State) : CcpRes := (some (6, []), raise { c := 15, i := 1, bit := 8, code := 0x8F03, payload := cause } s)

/-- The key under which a token of an issuer verifies; none where it is not accepted (19 R462). -/
def issuerKey (issuer : Nat) (s : State) : Option Nat :=
  match issuer with
  | 0 => ownerKey s
  | 1 => if vendorAllowed s then some (vendorKey s) else none
  | _ => none

/-- A token checked: SAFE_OUT, nonce, die, issuer, signature (19 R462). -/
def checkToken (t : List Byte) (s : State) : CcpRes :=
  let n := (t.drop 16).take 32
  if s.sn.safeOut then unlockRefused 0 s
  else if nonceOk n s = false then unlockRefused 1 s
  else
    let s1 := { s with sec := { s.sec with nonce := none } }
    if leField t 8 7 ≠ dieId s then unlockRefused 2 s1
    else match issuerKey (byteAt t 4) s with
      | none => unlockRefused 4 s1
      | some k =>
        if leField t 0 4 ≠ 0x4B434E55 ∨ signatureOk (byteAt t 4 == 1) k (t.take 64) (t.drop 64) = false then unlockRefused 3 s1
        else
          let issuer := byteAt t 4
          let scope := byteAt t 5 % 16
          let dur := leField t 48 4
          let s2 := wrReg 15 3 0x40 (BitVec.ofNat 32 (1 + issuer * 2 + scope * 4)) { s1 with sec := { s1.sec with dbgEnd := s1.time.clk + dur * (1000000 * oneUs) } }
          (some (0, []), raise { c := 15, i := 1, bit := 6, code := 0x8F01, payload := issuer + scope * 2 + dur * 32 } s2)

/-- DEBUG_UNLOCK's effect (19 R462). -/
def runDebugUnlock (c : HostCmd) (s : State) : CcpRes :=
  let p := c.payload
  let addr := leField p 0 8
  let n := leField p 8 4
  if p.length < 12 ∨ n < 64 then (some (5, []), s)
  else
    let m := fetchMem addr n s
    if m.1 ≠ 0 then (some (7, failPay m.1 0 0), m.2) else checkToken (rdBytes m.2 (addr % 2 ^ 48) n) m.2

/-- DEBUG_UNLOCK (19 R462). -/
def execDebugUnlock (s : State) : Out := .next (ccp 0x112 runDebugUnlock s)

/-- DEBUG_LOCK: DBG_LOCK written with its key (19 R462, DBG_LOCK). -/
def execDebugLock (r : Req) (s : State) : Out := .next (onReg r 15 3 0x44 (wrDbgLock 0xDB6C0000) s)

/-- DEBUG_EXPIRY: the unlock's duration ends (19 R462). -/
def execDebugExpiry (s : State) : Out := .next (if debugOpen s then debugLock 1 (advanceTo s.sec.dbgEnd s) else s)

/-- PROVISION's effect: slot 0, once, while SAFE_OUT is deasserted (19 R459). -/
def runProvision (c : HostCmd) (s : State) : CcpRes :=
  let p := c.payload
  if p.length < 64 then (some (5, []), s)
  else if s.sec.owners.isEmpty = false ∨ s.sn.safeOut = true then (some (6, []), s)
  else (some (0, []), { s with sec := { s.sec with owners := [(0, ⟨p.take 32, (p.drop 32).take 32, false⟩)] } })

/-- PROVISION (19 R459). -/
def execProvision (s : State) : Out := .next (ccp 0x113 runProvision s)

end Sys2Proof.Machine
end

