-- ==== Sys2Proof/Machine/Update.lean ====
section
/-! DEFINITION. Live update and persistent settings (19 R455, R463 to R465). -/

namespace Sys2Proof.Machine

/-- The slot that a staging with target 0 writes: the main slot that neither runs nor, under the recovery image, is active (19 R463). -/
def inactiveSlot (s : State) : Nat := if s.sec.slot < 2 then 1 - s.sec.slot else 1 - (descriptor s).active % 2

/-- The slot of a staging's target. -/
def targetSlot (target : Nat) (s : State) : Nat := if target = 0 then inactiveSlot s else 2

/-- UPDATE_STAGE's effect: it answers ok once it has started (19 R463). -/
def runUpdateStage (c : HostCmd) (s : State) : CcpRes :=
  let p := c.payload
  let target := byteAt p 0
  if p.length < 20 ∨ 2 < target ∨ leField p 1 7 ≠ 0 then (some (5, []), s)
  else if s.sec.stage.isSome = true ∨ updState s = 3 ∨ (target = 0 ∧ updState s = 4) then (some (3, []), s)
  else
    let inj := armed 15 0 6 s
    let s1 := if inj then disarm 15 0 6 s else s
    let run : StageRun := { target := target, src := leField p 8 8, len := leField p 16 4, fail := inj, prev := if target = 0 then 0 else updState s }
    (some (0, []), setUpd 1 (wrField 15 0 0x48 31 16 0 { s1 with sec := { s1.sec with stage := some run } }))

/-- UPDATE_STAGE (19 R463). -/
def execUpdateStage (s : State) : Out := .next (ccp 0x100 runUpdateStage s)

/-- A staging that fails with a cause. -/
def stageFail (r : StageRun) (cause : Nat) (inj : Bool) (s : State) : State := setUpd r.prev (evUpdateFailed 0 cause inj s).2

/-- A settings record staged: appended when Scribe comes to it (19 R455, R463). -/
def stageRecord (r : StageRun) (b : List Byte) (s : State) : State :=
  match recordCause b s with
  | some k => stageFail r k false s
  | none => evUpdateDone 0 (leField b 12 4) (setUpd r.prev { s with settings := { s.settings with waiting := s.settings.waiting ++ [recordOf b] } })

/-- An image staged: checked, the slot erased and written, checked again; `bad` is an operation of the flash that failed (19 R463). -/
def stageImage (r : StageRun) (b : List Byte) (bad : Option Nat) (s : State) : State :=
  let k := targetSlot r.target s
  let rd := fun (off n : Nat) => (b.drop off).take n
  let reject := fun (cause : Nat) (t : State) => stageFail r cause false (imageRejected k cause t)
  if slotSize k < r.len then reject 6 s
  else match imageCause (decide (k = 2)) r.len rd s with
    | some cause => reject cause s
    | none =>
      let s1 := flashErase (slotBase k) (slotSize k) s
      if armed 15 2 5 s1 then stageFail r 5 false (flashError (slotBase k) 0 true (disarm 15 2 5 s1))
      else match bad with
        | some op => stageFail r 5 false (flashError (slotBase k) op false s1)
        | none =>
          let s2 := wrField 15 0 0x48 31 16 ((r.len + 0xFFFF) / 0x10000) (flashProgram (slotBase k) b s1)
          match slotCause k s2 with
          | some cause => reject cause s2
          | none => evUpdateDone 0 (imgVersion b) (setUpd (if r.target = 0 then 2 else r.prev) s2)

/-- UPDATE_DONE: a staging has been read, checked and written; `bad` is 0 program, 1 erase, 2 read where the flash failed (19 R463, R466). -/
def execUpdateDone (bad : Option Nat) (s : State) : Out :=
  .next (
    match s.sec.stage with
    | none => s
    | some r =>
      let s1 := { s with sec := { s.sec with stage := none } }
      if r.fail then stageFail r 5 true s1
      else
        let m := fetchMem r.src r.len s1
        if m.1 ≠ 0 then stageFail r 6 false m.2
        else
          let b := rdBytes m.2 (r.src % 2 ^ 48) r.len
          if r.target = 2 then stageRecord r b m.2 else stageImage r b bad m.2)

/-- Whether a hand-over between two images is accepted, as an upgrade or as a return (19 R464). -/
def liveOk (run new : List Byte) : Bool := decide (imgLiveFrom new ≤ imgVersion run ∨ imgLiveFrom run ≤ imgVersion new)

/-- UPDATE_ACTIVATE's effect (19 R451, R463, R464). -/
def runUpdateActivate (_ : HostCmd) (s : State) : CcpRes :=
  if updState s = 1 ∨ updState s = 3 then (some (3, []), s)
  else if updState s ≠ 2 then (some (6, []), s)
  else
    let k := inactiveSlot s
    let h := flashBytes (slotBase k) 4096 s
    let fail := fun (cause : Nat) (t : State) => let e := evUpdateFailed 1 cause false t; ccpFail e.1 e.2
    if imgSvn h < s.sec.main then fail 3 s
    else if liveOk s.sec.run h = false then fail 4 s
    else (some (0, []), setUpd 3 { s with sec := { s.sec with swaps := [1, 2, 3, 4], swapTo := k, back := false } })

/-- UPDATE_ACTIVATE (19 R464). -/
def execUpdateActivate (s : State) : Out := .next (ccp 0x101 runUpdateActivate s)

/-- A component's swap point: 3 the checker between judgments with no slice running, 4 the Ringmaster at a grant-period boundary, 2 the security block
with nothing to verify or sign, 1 Scribe with its priority buffer empty, between two commands (19 R464). -/
def swapPoint (id : Nat) (s : State) : Bool :=
  match id with
  | 3 => s.sn.stRun.isNone
  | 2 => s.sec.stage.isNone
  | 1 => s.host.prio.isEmpty && !s.host.accepted.any (fun e => e.2)
  | _ => true

/-- The recovery image runs no checker: SAFE_OUT is deasserted (19 R450). -/
def dropChecker (s : State) : State := { s with sn := { s.sn with up := false, safeOut := false }, tio := s.tio.halt }

/-- The image of the slot swapped to runs (19 R464, R465). -/
def swapDone (s : State) : State :=
  let k := s.sec.swapTo
  let h := flashBytes (slotBase k) 4096 s
  let d := descriptor s
  let first := decide (s.sec.phase = 3)
  let s0 := if k < 2 then s else dropChecker s
  let s1 := wrReg 15 0 0x40 (BitVec.ofNat 32 (imgVersion h))
    { s0 with sec := { s0.sec with run := h, slot := k, before := s.sec.slot, phase := if k < 2 then 1 else 3 } }
  if s.sec.back then
    evUpdateDone 3 (imgVersion h) (setUpd 0 (wrField 15 0 0x44 2 2 0 (if d.pending < 2 then writeDescriptor { d with pending := 0xFF } s1 else s1)))
  else
    let s2 := evUpdateDone 1 (imgVersion h) (setUpd 4 (wrField 15 0 0x44 2 2 1 (writeDescriptor { d with pending := k, tries := 3 } s1)))
    if first then mainStart [] s2 else s2

/-- COMPONENT_SWAP: a component switches to its new code; with the last one the hand-over is complete (19 R464). -/
def execComponentSwap (id : Nat) (s : State) : Out :=
  .next (
    if s.sec.swaps.contains id = false ∨ swapPoint id s = false then s
    else
      let s1 := { s with sec := { s.sec with swaps := s.sec.swaps.erase id } }
      if s1.sec.swaps.isEmpty then swapDone s1 else s1)

/-- UPDATE_COMMIT's effect (19 R451, R465). -/
def runUpdateCommit (c : HostCmd) (s : State) : CcpRes :=
  let p := c.payload
  let d := descriptor s
  if p.length < 1 ∨ 2 ≤ byteAt p 0 then (some (5, []), s)
  else if updState s = 3 then (some (3, []), s)
  else if 2 ≤ d.pending ∨ s.sec.slot ≠ d.pending then (some (6, []), s)
  else
    let s1 := writeDescriptor { d with active := d.pending, pending := 0xFF, tries := 0, version := imgVersion s.sec.run } s
    let s2 := wrField 15 0 0x44 2 2 0 (if updState s1 = 4 then setUpd 0 s1 else
      { s1 with sec := { s1.sec with stage := s1.sec.stage.map (fun r => { r with prev := 0 }) } })
    let s3 := if byteAt p 0 = 0 then s2
      else
        let t := { s2 with sec := { s2.sec with main := max s2.sec.main (imgSvn s2.sec.run) } }
        raise { c := 15, i := 1, bit := 9, code := 0x8F04, payload := t.sec.main % 128 + t.sec.recov % 32 * 256 } t
    (some (0, []), evUpdateDone 2 (imgVersion s.sec.run) s3)

/-- UPDATE_COMMIT (19 R465). -/
def execUpdateCommit (s : State) : Out := .next (ccp 0x102 runUpdateCommit s)

/-- UPDATE_ABORT's effect: a staging is discarded; after activation the components swap back, which R464 accepts as it accepted the way here (19
R465). -/
def runUpdateAbort (_ : HostCmd) (s : State) : CcpRes :=
  match updState s with
  | 1 =>
    let prev := match s.sec.stage with | some r => r.prev | none => 0
    (some (0, []), evUpdateDone 3 (imgVersion s.sec.run) (setUpd prev { s with sec := { s.sec with stage := none } }))
  | 2 => (some (0, []), evUpdateDone 3 (imgVersion s.sec.run) (setUpd 0 s))
  | 3 =>
    if s.sec.back then (some (3, []), s)
    else
      let swapped := [1, 2, 3, 4].filter (fun i => !s.sec.swaps.contains i)
      if swapped.isEmpty then (some (0, []), evUpdateDone 3 (imgVersion s.sec.run) (setUpd 0 { s with sec := { s.sec with swaps := [] } }))
      else (some (0, []), { s with sec := { s.sec with swaps := swapped, swapTo := s.sec.slot, back := true } })
  | 4 => (some (0, []), setUpd 3 { s with sec := { s.sec with swaps := [1, 2, 3, 4], swapTo := s.sec.before, back := true } })
  | _ => (some (6, []), s)

/-- UPDATE_ABORT (19 R465). -/
def execUpdateAbort (s : State) : Out := .next (ccp 0x103 runUpdateAbort s)

/-- SETTINGS_RECORD_APPEND: the oldest record asked for is appended; one that does not fit starts a compaction; `bad`: the flash failed, and the
record is written again (19 R455; DESIGN CHOICE, log entry 39). -/
def execSettingsRecordAppend (bad : Bool) (s : State) : Out :=
  .next (
    match s.settings.waiting with
    | [] => s
    | r :: t =>
      let off := recOffset s.settings.recs.length s
      if s.settings.compacting then s
      else if settingsFree s < r.size then { s with settings := { s.settings with compacting := true } }
      else if armed 15 2 5 s then flashError off 0 true (disarm 15 2 5 s)
      else if bad then flashError off 0 false s
      else appendRecord r { s with settings := { s.settings with waiting := t } })

/-- SETTINGS_COMPACTION (19 R455). -/
def execSettingsCompaction (s : State) : Out := .next (if s.settings.compacting then compact s else s)

end Sys2Proof.Machine
end

