-- ==== Sys2Proof/Machine/Dispatch.lean ====
section
/-! DEFINITION. The one dispatch: each command's meaning, one arm per constructor. -/

namespace Sys2Proof.Machine

def exec (i : Instr) (s : State) : Host.Outcome State Fault Refusal :=
  match i with
  | .jobDescriptor q => Sys2Proof.Machine.execJobDescriptor q s
  | .jobAdmit => Sys2Proof.Machine.execJobAdmit s
  | .jobRunStart id => Sys2Proof.Machine.execJobRunStart id s
  | .waveStart q => Sys2Proof.Machine.execWaveStart q s
  | .jobDone id => Sys2Proof.Machine.execJobDone id s
  | .zeroFillDone n => Sys2Proof.Machine.execZeroFillDone n s
  | .nop q => Sys2Proof.Machine.execNop q s
  | .quillSet q dst imm => Sys2Proof.Machine.execSet q dst imm s
  | .alu q sub dst a b useImm imm => Sys2Proof.Machine.execAlu q sub dst a b useImm imm s
  | .loop q countSc count body => Sys2Proof.Machine.execLoop q countSc count body s
  | .branch q cond a b useImm imm off => Sys2Proof.Machine.execBranch q cond a b useImm imm off s
  | .top q tod => Sys2Proof.Machine.execTop q tod s
  | .waitTop q => Sys2Proof.Machine.execWaitTop q s
  | .semWait q sem count => Sys2Proof.Machine.execSemWait q sem count s
  | .semSignal q sem remote count rank dev job => Sys2Proof.Machine.execSemSignal q sem remote count rank dev job s
  | .barrier q scope group => Sys2Proof.Machine.execBarrier q scope group s
  | .localBarrierRelease job copyB scope group => Sys2Proof.Machine.execLocalBarrierRelease job copyB scope group s
  | .barrierReleaseTime group copyB => Sys2Proof.Machine.execBarrierReleaseTime group copyB s
  | .dma q ch noFail notify statusSc src dst queue => Sys2Proof.Machine.execDma q ch noFail notify statusSc src dst queue s
  | .dmaWait q mask => Sys2Proof.Machine.execDmaWait q mask s
  | .dmaComplete k => Sys2Proof.Machine.execDmaComplete k s
  | .atomic q op noFail statusSc dst val cmp agp => Sys2Proof.Machine.execAtomic q op noFail statusSc dst val cmp agp s
  | .qpush q blocking statusSc src queue => Sys2Proof.Machine.execQpush q blocking statusSc src queue s
  | .qpop q blocking statusSc dst queue => Sys2Proof.Machine.execQpop q blocking statusSc dst queue s
  | .trap q code => Sys2Proof.Machine.execTrap q code s
  | .quillEnd q => Sys2Proof.Machine.execEnd q s
  | .semTimeout q => Sys2Proof.Machine.execSemTimeout q s
  | .matmul x => Sys2Proof.Machine.execMatmul x s
  | .conv x => Sys2Proof.Machine.execConv x s
  | .poolResize q => Sys2Proof.Machine.execPoolResize q s
  | .attentionFwd q => Sys2Proof.Machine.execAttentionFwd q s
  | .attentionBwd q => Sys2Proof.Machine.execAttentionBwd q s
  | .eltwise q => Sys2Proof.Machine.execEltwise q s
  | .reduce q => Sys2Proof.Machine.execReduce q s
  | .optStep q => Sys2Proof.Machine.execOptStep q s
  | .tensorOpDrain q => Sys2Proof.Machine.execTensorOpDrain q s
  | .nibRetire r q v => Sys2Proof.Machine.execNibRetire r q v s
  | .nibSpared q => Sys2Proof.Machine.execNibSpared q s
  | .registerWrite r addr size v => Sys2Proof.Machine.execRegisterWrite r addr size v s
  | .readClear r addr size => Sys2Proof.Machine.execReadClear r addr size s
  | .counterLoRead r c inst lo => Sys2Proof.Machine.execCounterLoRead r c inst lo s
  | .softReset r c inst => Sys2Proof.Machine.execSoftReset r c inst s
  | .softResetDone c inst => Sys2Proof.Machine.execSoftResetDone c inst s
  | .blockDisable r c inst => Sys2Proof.Machine.execBlockDisable r c inst s
  | .eventInject r c inst v => Sys2Proof.Machine.execEventInject r c inst v s
  | .injectAllowWrite r allow => Sys2Proof.Machine.execInjectAllowWrite r allow s
  | .eventsLost => Sys2Proof.Machine.execEventsLost s
  | .warmReset r v => Sys2Proof.Machine.execWarmReset r v s
  | .gptpSync p ns => Sys2Proof.Machine.execGptpSync p ns s
  | .gptpSyncTimeout => Sys2Proof.Machine.execGptpSyncTimeout s
  | .pdelayMeasure p ns => Sys2Proof.Machine.execPdelayMeasure p ns s
  | .spadRequest w k addr len data u => Sys2Proof.Machine.execSpadRequest w k addr len data u s
  | .windowExpiry n w => Sys2Proof.Machine.execWindowExpiry n w s
  | .windowOpen r n => Sys2Proof.Machine.execWindowOpen r n s
  | .windowClose r n => Sys2Proof.Machine.execWindowClose r n s
  | .bankPowerDown r n bank owner => Sys2Proof.Machine.execBankPowerDown r n bank owner s
  | .bankWake r n bank owner => Sys2Proof.Machine.execBankWake r n bank owner s
  | .bankDrained n b => Sys2Proof.Machine.execBankDrained n b s
  | .bankWakeDone n b => Sys2Proof.Machine.execBankWakeDone n b s
  | .holdFill r n hold => Sys2Proof.Machine.execHoldFill r n hold s
  | .scrubStep n b u => Sys2Proof.Machine.execScrubStep n b u s
  | .memorySlot m pos asks link u => Sys2Proof.Machine.execMemorySlot m pos asks link u s
  | .refresh m ch bank => Sys2Proof.Machine.execRefresh m ch bank s
  | .refreshRateChange m temp => Sys2Proof.Machine.execRefreshRateChange m temp s
  | .patrolScrub m u => Sys2Proof.Machine.execPatrolScrub m u s
  | .rowSpareForce r m bank row => Sys2Proof.Machine.execRowSpareForce r m bank row s
  | .rowSpareDone m bank row => Sys2Proof.Machine.execRowSpareDone m bank row s
  | .mcTrained m full ok ms stage => Sys2Proof.Machine.execMcTrained m full ok ms stage s
  | .eccFillDone m => Sys2Proof.Machine.execEccFillDone m s
  | .packetComplete q num => Sys2Proof.Machine.execPacketComplete q num s
  | .packetAbandon q num => Sys2Proof.Machine.execPacketAbandon q num s
  | .descriptorFetch q u => Sys2Proof.Machine.execDescriptorFetch q u s
  | .stagedRecordRelease q => Sys2Proof.Machine.execStagedRecordRelease q s
  | .queueConfigure r => Sys2Proof.Machine.execQueueConfigure r s
  | .queueEnable r => Sys2Proof.Machine.execQueueEnable r s
  | .queueDisable r => Sys2Proof.Machine.execQueueDisable r s
  | .queuePin r => Sys2Proof.Machine.execQueuePin r s
  | .queueUnpin r => Sys2Proof.Machine.execQueueUnpin r s
  | .rdptrWrite r v => Sys2Proof.Machine.execRdptrWrite r v s
  | .ctxOpen => Sys2Proof.Machine.execCtxOpen s
  | .ctxClose => Sys2Proof.Machine.execCtxClose s
  | .ctxFork => Sys2Proof.Machine.execCtxFork s
  | .append => Sys2Proof.Machine.execAppend s
  | .commit => Sys2Proof.Machine.execCommit s
  | .truncate => Sys2Proof.Machine.execTruncate s
  | .reinkBegin => Sys2Proof.Machine.execReinkBegin s
  | .reinkEnd => Sys2Proof.Machine.execReinkEnd s
  | .reinkAbort => Sys2Proof.Machine.execReinkAbort s
  | .ticketGrant q => Sys2Proof.Machine.execTicketGrant q s
  | .ticketReturn => Sys2Proof.Machine.execTicketReturn s
  | .limboReclaim kind => Sys2Proof.Machine.execLimboReclaim kind s
  | .ccEnable r q => Sys2Proof.Machine.execCcEnable r q s
  | .fnLayer => Sys2Proof.Machine.execFnLayer s
  | .fnSourceStall => Sys2Proof.Machine.execFnSourceStall s
  | .fnLayerComplete u => Sys2Proof.Machine.execFnLayerComplete u s
  | .csiPacket csi vc dt hdr bad payload crcOk full mem => Sys2Proof.Machine.execCsiPacket csi vc dt hdr bad payload crcOk full mem s
  | .frameStart csi p number => Sys2Proof.Machine.execFrameStart csi p number s
  | .frameEnd csi p => Sys2Proof.Machine.execFrameEnd csi p s
  | .camLinkLost csi lanes => Sys2Proof.Machine.execCamLinkLost csi lanes s
  | .sourceRecord st => Sys2Proof.Machine.execSourceRecord st s
  | .sampleComplete st id => Sys2Proof.Machine.execSampleComplete st id s
  | .sampleLate st id => Sys2Proof.Machine.execSampleLate st id s
  | .batchWindowExpiry g => Sys2Proof.Machine.execBatchWindowExpiry g s
  | .streamConfigure r => Sys2Proof.Machine.execStreamConfigure r s
  | .streamStart r => Sys2Proof.Machine.execStreamStart r s
  | .streamStop r => Sys2Proof.Machine.execStreamStop r s
  | .meanReset r => Sys2Proof.Machine.execMeanReset r s
  | .groupConfigure r => Sys2Proof.Machine.execGroupConfigure r s
  | .groupStart r => Sys2Proof.Machine.execGroupStart r s
  | .groupStop r => Sys2Proof.Machine.execGroupStop r s
  | .slotTrigger slot => Sys2Proof.Machine.execSlotTrigger slot s
  | .lawDispatch u => Sys2Proof.Machine.execLawDispatch u s
  | .mac clr src coef u => Sys2Proof.Machine.execMac clr src coef u s
  | .lawStore dst sh => Sys2Proof.Machine.execLawStore dst sh s
  | .limit dst coef u => Sys2Proof.Machine.execLimit dst coef u s
  | .lawMove dst src => Sys2Proof.Machine.execLawMove dst src s
  | .lawOut src buf n word => Sys2Proof.Machine.execLawOut src buf n word s
  | .lawSend buf => Sys2Proof.Machine.execLawSend buf s
  | .skipif src cond n => Sys2Proof.Machine.execSkipif src cond n s
  | .lawEnd => Sys2Proof.Machine.execLawEnd s
  | .slotConfigure r => Sys2Proof.Machine.execSlotConfigure r s
  | .slotStart r => Sys2Proof.Machine.execSlotStart r s
  | .slotStop r => Sys2Proof.Machine.execSlotStop r s
  | .slotResume r => Sys2Proof.Machine.execSlotResume r s
  | .lawDataWrite r v => Sys2Proof.Machine.execLawDataWrite r v s
  | .coefWrite r v => Sys2Proof.Machine.execCoefWrite r v s
  | .bankSwap r slot => Sys2Proof.Machine.execBankSwap r slot s
  | .coefCopyDone => Sys2Proof.Machine.execCoefCopyDone s
  | .spCommit r v => Sys2Proof.Machine.execSpCommit r v s
  | .testGenerator r v => Sys2Proof.Machine.execTestGenerator r v s
  | .captureRead r => Sys2Proof.Machine.execCaptureRead r s
  | .encConfigure r => Sys2Proof.Machine.execEncConfigure r s
  | .encRevalidate r => Sys2Proof.Machine.execEncRevalidate r s
  | .encSample enc x => Sys2Proof.Machine.execEncSample enc x s
  | .dinConfigure r => Sys2Proof.Machine.execDinConfigure r s
  | .dinEdge din => Sys2Proof.Machine.execDinEdge din s
  | .dinStuck din => Sys2Proof.Machine.execDinStuck din s
  | .adcConfigure r => Sys2Proof.Machine.execAdcConfigure r s
  | .adcStart r => Sys2Proof.Machine.execAdcStart r s
  | .adcStop r => Sys2Proof.Machine.execAdcStop r s
  | .adcSequence adc frames => Sys2Proof.Machine.execAdcSequence adc frames s
  | .pwmConfigure r => Sys2Proof.Machine.execPwmConfigure r s
  | .pwmRelease r => Sys2Proof.Machine.execPwmRelease r s
  | .pwmPeriodStart pwm => Sys2Proof.Machine.execPwmPeriodStart pwm s
  | .stopNAssert => Sys2Proof.Machine.execStopNAssert s
  | .stopNRelease => Sys2Proof.Machine.execStopNRelease s
  | .canEntryConfigure r can => Sys2Proof.Machine.execCanEntryConfigure r can s
  | .tbRequest r can => Sys2Proof.Machine.execTbRequest r can s
  | .tbAbort r can => Sys2Proof.Machine.execTbAbort r can s
  | .busOffRecover r can => Sys2Proof.Machine.execBusOffRecover r can s
  | .trMapWrite r can v => Sys2Proof.Machine.execTrMapWrite r can v s
  | .jobTxRequest can => Sys2Proof.Machine.execJobTxRequest can s
  | .canFrameReceived can r => Sys2Proof.Machine.execCanFrameReceived can r s
  | .canFrameTransmitted can => Sys2Proof.Machine.execCanFrameTransmitted can s
  | .canErrorFrame can type dry => Sys2Proof.Machine.execCanErrorFrame can type dry s
  | .canRecoveryDone can => Sys2Proof.Machine.execCanRecoveryDone can s
  | .canStopClear r can => Sys2Proof.Machine.execCanStopClear r can s
  | .armRequest r clear => Sys2Proof.Machine.execArmRequest r clear s
  | .snConfigure r => Sys2Proof.Machine.execSnConfigure r s
  | .setpointRecord u => Sys2Proof.Machine.execSetpointRecord u s
  | .twinHoldExpiry => Sys2Proof.Machine.execTwinHoldExpiry s
  | .frameRecord => Sys2Proof.Machine.execFrameRecord s
  | .outputComparison job => Sys2Proof.Machine.execOutputComparison job s
  | .cmpWindowExpiry job => Sys2Proof.Machine.execCmpWindowExpiry job s
  | .lockstepMismatch kind => Sys2Proof.Machine.execLockstepMismatch kind s
  | .checkerWatchdog => Sys2Proof.Machine.execCheckerWatchdog s
  | .channelDiscrepancy chans => Sys2Proof.Machine.execChannelDiscrepancy chans s
  | .overflowLogDrain => Sys2Proof.Machine.execOverflowLogDrain s
  | .logRead r => Sys2Proof.Machine.execLogRead r s
  | .selfTestSlice => Sys2Proof.Machine.execSelfTestSlice s
  | .sliceDone ok nib => Sys2Proof.Machine.execSliceDone ok nib s
  | .sliceAbort => Sys2Proof.Machine.execSliceAbort s
  | .selfTestLate => Sys2Proof.Machine.execSelfTestLate s
  | .grantPeriod act => Sys2Proof.Machine.execGrantPeriod act s
  | .voltageReached => Sys2Proof.Machine.execVoltageReached s
  | .railReading rail mv mw => Sys2Proof.Machine.execRailReading rail mv mw s
  | .railTimeout rail pmbus => Sys2Proof.Machine.execRailTimeout rail pmbus s
  | .reconWindow => Sys2Proof.Machine.execReconWindow s
  | .capWrite r v => Sys2Proof.Machine.execCapWrite r v s
  | .allowanceWrite r v => Sys2Proof.Machine.execAllowanceWrite r v s
  | .overpower => Sys2Proof.Machine.execOverpower s
  | .droopDetect site level => Sys2Proof.Machine.execDroopDetect site level s
  | .droopEnd site => Sys2Proof.Machine.execDroopEnd site s
  | .tempReading sensor temp => Sys2Proof.Machine.execTempReading sensor temp s
  | .thermalTrip sensor temp => Sys2Proof.Machine.execThermalTrip sensor temp s
  | .recoveryEnd => Sys2Proof.Machine.execRecoveryEnd s
  | .coolantLoss => Sys2Proof.Machine.execCoolantLoss s
  | .coolantRestart r v => Sys2Proof.Machine.execCoolantRestart r v s
  | .domainOn r d => Sys2Proof.Machine.execDomainOn r d s
  | .domainOffCmd r d => Sys2Proof.Machine.execDomainOffCmd r d s
  | .domainUsable d => Sys2Proof.Machine.execDomainUsable d s
  | .autoPowerDown bank n => Sys2Proof.Machine.execAutoPowerDown bank n s
  | .flitReceived p f => Sys2Proof.Machine.execFlitReceived p f s
  | .nakReceived p ack => Sys2Proof.Machine.execNakReceived p ack s
  | .linkRetrain p cause => Sys2Proof.Machine.execLinkRetrain p cause s
  | .retrainDone p => Sys2Proof.Machine.execRetrainDone p s
  | .linkDown p => Sys2Proof.Machine.execLinkDown p s
  | .linkUp p die dev q delayPs lanes => Sys2Proof.Machine.execLinkUp p die dev q delayPs lanes s
  | .laneSpared p lane lock => Sys2Proof.Machine.execLaneSpared p lane lock s
  | .laneSwapFlit p lane => Sys2Proof.Machine.execLaneSwapFlit p lane s
  | .spareShadowRotate p => Sys2Proof.Machine.execSpareShadowRotate p s
  | .creditReturn p vc n => Sys2Proof.Machine.execCreditReturn p vc n s
  | .timeSync p ps depth => Sys2Proof.Machine.execTimeSync p ps depth s
  | .ringTimeLost managerGone => Sys2Proof.Machine.execRingTimeLost managerGone s
  | .ringRead src job tag det addr len => Sys2Proof.Machine.execRingRead src job tag det addr len s
  | .ringWrite src job tag det addr data => Sys2Proof.Machine.execRingWrite src job tag det addr data s
  | .ringAtomic src job tag det addr op val cmp => Sys2Proof.Machine.execRingAtomic src job tag det addr op val cmp s
  | .readResponse tag status cause data => Sys2Proof.Machine.execReadResponse tag status cause data s
  | .writeResponse tag status cause => Sys2Proof.Machine.execWriteResponse tag status cause s
  | .ringSemSignal src job tag det target rank sem count => Sys2Proof.Machine.execRingSemSignal src job tag det target rank sem count s
  | .ringQueuePush src job tag det q data => Sys2Proof.Machine.execRingQueuePush src job tag det q data s
  | .barrierArrival group member copyB => Sys2Proof.Machine.execBarrierArrival group member copyB s
  | .barrierRelease group copyB R => Sys2Proof.Machine.execBarrierRelease group copyB R s
  | .ringRegAccess src tag wr addr n data => Sys2Proof.Machine.execRingRegAccess src tag wr addr n data s
  | .registerResponse tag status data => Sys2Proof.Machine.execRegisterResponse tag status data s
  | .ringReqTimeout tag => Sys2Proof.Machine.execRingReqTimeout tag s
  | .enumStart r => Sys2Proof.Machine.execEnumStart r s
  | .discover p origin round => Sys2Proof.Machine.execDiscover p origin round s
  | .discoverReply die manager ports => Sys2Proof.Machine.execDiscoverReply die manager ports s
  | .assign id sx sy sz x y z depth down => Sys2Proof.Machine.execAssign id sx sy sz x y z depth down s
  | .enumDone => Sys2Proof.Machine.execEnumDone s
  | .discoverRepeat => Sys2Proof.Machine.execDiscoverRepeat s
  | .enumWaitTimeout => Sys2Proof.Machine.execEnumWaitTimeout s
  | .routeUpdate dev p down => Sys2Proof.Machine.execRouteUpdate dev p down s
  | .fenceCmd r target => Sys2Proof.Machine.execFenceCmd r target s
  | .deviceFence fault => Sys2Proof.Machine.execDeviceFence fault s
  | .fenceNotice dev reason records => Sys2Proof.Machine.execFenceNotice dev reason records s
  | .linkRetrainCmd r p => Sys2Proof.Machine.execLinkRetrainCmd r p s
  | .linkModeWrite r p mode => Sys2Proof.Machine.execLinkModeWrite r p mode s
  | .linkTestDrop r p n => Sys2Proof.Machine.execLinkTestDrop r p n s
  | .linkTestCorrupt r p n => Sys2Proof.Machine.execLinkTestCorrupt r p n s
  | .linkTestReorder r p => Sys2Proof.Machine.execLinkTestReorder r p s
  | .hostFrame p f => Sys2Proof.Machine.execHostFrame p f s
  | .hostLinkUp p rate => Sys2Proof.Machine.execHostLinkUp p rate s
  | .hostLinkDown p => Sys2Proof.Machine.execHostLinkDown p s
  | .sync => Sys2Proof.Machine.execSync s
  | .qack => Sys2Proof.Machine.execQack s
  | .regRead => Sys2Proof.Machine.execRegRead s
  | .regWrite => Sys2Proof.Machine.execRegWrite s
  | .memRead => Sys2Proof.Machine.execMemRead s
  | .memWrite => Sys2Proof.Machine.execMemWrite s
  | .queuePush => Sys2Proof.Machine.execQueuePush s
  | .barrierGroup copy => Sys2Proof.Machine.execBarrierGroup copy s
  | .detSlots => Sys2Proof.Machine.execDetSlots s
  | .macsecKey => Sys2Proof.Machine.execMacsecKey s
  | .hostStop => Sys2Proof.Machine.execHostStop s
  | .kill => Sys2Proof.Machine.execKill s
  | .hostHold => Sys2Proof.Machine.execHostHold s
  | .hostRelease => Sys2Proof.Machine.execHostRelease s
  | .hostStopClear r => Sys2Proof.Machine.execHostStopClear r s
  | .deliveryResend q => Sys2Proof.Machine.execDeliveryResend q s
  | .updateStage => Sys2Proof.Machine.execUpdateStage s
  | .updateDone bad => Sys2Proof.Machine.execUpdateDone bad s
  | .updateActivate => Sys2Proof.Machine.execUpdateActivate s
  | .componentSwap id => Sys2Proof.Machine.execComponentSwap id s
  | .updateCommit => Sys2Proof.Machine.execUpdateCommit s
  | .updateAbort => Sys2Proof.Machine.execUpdateAbort s
  | .attest => Sys2Proof.Machine.execAttest s
  | .bottomTreeReady => Sys2Proof.Machine.execBottomTreeReady s
  | .debugChallenge => Sys2Proof.Machine.execDebugChallenge s
  | .debugUnlock => Sys2Proof.Machine.execDebugUnlock s
  | .debugLock r => Sys2Proof.Machine.execDebugLock r s
  | .debugExpiry => Sys2Proof.Machine.execDebugExpiry s
  | .provision => Sys2Proof.Machine.execProvision s
  | .settingsRecordAppend bad => Sys2Proof.Machine.execSettingsRecordAppend bad s
  | .settingsCompaction => Sys2Proof.Machine.execSettingsCompaction s
  | .powerOnReset straps banks => Sys2Proof.Machine.execPowerOnReset straps banks s
  | .resetPin straps banks => Sys2Proof.Machine.execResetPin straps banks s
  | .mgmtWatchdog => Sys2Proof.Machine.execMgmtWatchdog s
  | .railUndervoltage rail mv => Sys2Proof.Machine.execRailUndervoltage rail mv s
  | .refclkLoss => Sys2Proof.Machine.execRefclkLoss s
  | .refclkReturn => Sys2Proof.Machine.execRefclkReturn s
  | .boot fails => Sys2Proof.Machine.execBoot fails s
  | .canArbitration can => Sys2Proof.Machine.execCanArbitration can s
  | .arbitrationLost can => Sys2Proof.Machine.execArbitrationLost can s
  | .canRxError can type e => Sys2Proof.Machine.execCanRxError can type e s
  | .memorySampleCorrupt st id cause => Sys2Proof.Machine.execMemorySampleCorrupt st id cause s
  | .coolFlowRestored => Sys2Proof.Machine.execCoolFlowRestored s
  | .dinLevelStable din => Sys2Proof.Machine.execDinLevelStable din s
  | .dphyClockReturn csi => Sys2Proof.Machine.execDphyClockReturn csi s
  | .attestTokenRefill => Sys2Proof.Machine.execAttestTokenRefill s
  | .checkerReloadDone => Sys2Proof.Machine.execCheckerReloadDone s

end Sys2Proof.Machine
end

