-- ==== Sys2Proof/Machine/Step.lean ====
section
/-! DEFINITION. One step of the block: the command at the front of the queue runs; on an empty queue a mesh cycle passes. -/

namespace Sys2Proof.Machine

/-- One mesh cycle, in thirds of a nanosecond (01 R13; DESIGN CHOICE, log entry 2). -/
def meshCycle : Nat := 2

/-- The step: the waiting command at the front with the queue's rest; with none waiting, one mesh cycle passes (DESIGN CHOICE, log entry 1). -/
def step (s : State) : Host.Outcome State Fault Refusal :=
  match s.pending with
  | [] => .next (advance meshCycle s)
  | c :: rest => exec c { s with pending := rest }

/-- The state with the command that a table word spells put in front; the table spells none (DESIGN CHOICE, log entry 1). -/
def State.withFetchWord (s : State) (nbits w : Nat) : State :=
  match Sys2Proof.decodeTableWord nbits w with
  | some c => { s with pending := c :: s.pending }
  | none => s

end Sys2Proof.Machine
end

