-- ==== Sys2Proof/Safety.lean ====
section
/-! DEFINITION. What holds in every safe run: memory in its canonical form, fuses never unburnt, SAFE_OUT asserted only under a running checker. -/

namespace Sys2Proof.Machine

/-- The canonical form of memory: addresses strictly rising, no entry at the value an unlisted byte reads as (DESIGN CHOICE, log entry 5). -/
def Memory.wf (m : Tbl Byte) : Bool := Tbl.wf (fun _ => 0) m

/-- The flash in its canonical form; an unlisted byte reads 0xFF (DESIGN CHOICE, log entry 5). -/
def Flash.wf (m : Tbl Byte) : Bool := Tbl.wf (fun _ => 0xFF) m

/-- Memory and flash are in their canonical form. -/
def memInv (s : State) : Prop := Memory.wf s.mem = true ∧ Flash.wf s.sec.flash = true

/-- SAFE_OUT is asserted only while the checker runs, under a main image (15 R341; 19 R450). -/
def armedInv (s : State) : Prop := s.sn.safeOut = true → s.sn.up = true ∧ s.sec.phase = 1

/-- What one-time-programmable memory holds after a step, beside what it held before: the Colophon as it was, counters and fuses not fallen, every
owner slot written as it was, revoked or not, and none unrevoked (19 R451, R456, R459, R461). -/
def otpKept (s t : State) : Prop :=
  t.sec.colophon = s.sec.colophon ∧ s.sec.main ≤ t.sec.main ∧ s.sec.recov ≤ t.sec.recov ∧ s.sec.fuses ≤ t.sec.fuses
    ∧ ∀ n o, Tbl.find? s.sec.owners n = some o → ∃ p, Tbl.find? t.sec.owners n = some p ∧ p.hash = o.hash ∧ p.transport = o.transport
      ∧ (o.revoked = true → p.revoked = true)

/-- Which parts of the state an operation may change, beside registers, counters, events, time, the activity counts and the free values' counter: memory, the queue engine, the jobs and their order of admission, the Quills, the DMA channels, the barriers and their groups, the scratchpads, the memory controllers, the safety checker, the ring, the settings log, the cache, the host sessions, the input pipeline and the fine Nibs, the control engine, its timed I/O, the CAN controllers, power and temperature, boot and security. `arms`: it may assert SAFE_OUT. -/
structure Foot where
  arms : Bool := false
  mem : Bool := false
  qe : Bool := false
  jobs : Bool := false
  quills : Bool := false
  chans : Bool := false
  barriers : Bool := false
  spads : Bool := false
  mcs : Bool := false
  sn : Bool := false
  ring : Bool := false
  settings : Bool := false
  cc : Bool := false
  host : Bool := false
  car : Bool := false
  tr : Bool := false
  tio : Bool := false
  cans : Bool := false
  pwr : Bool := false
  sec : Bool := false
  deriving DecidableEq, Repr

/-- Everything outside a footprint is unchanged from one state to another. -/
structure Within (F : Foot) (s t : State) : Prop where
  arms : F.arms = false → s.sn.safeOut = false → t.sn.safeOut = false
  mem : F.mem = false → t.mem = s.mem
  qe : F.qe = false → t.qe = s.qe
  jobs : F.jobs = false → t.jobs = s.jobs
  arrivals : F.jobs = false → t.arrivals = s.arrivals
  rrQueue : F.jobs = false → t.rrQueue = s.rrQueue
  quills : F.quills = false → t.quills = s.quills
  chans : F.chans = false → t.chans = s.chans
  barriers : F.barriers = false → t.barriers = s.barriers
  groups : F.barriers = false → t.groups = s.groups
  spads : F.spads = false → t.spads = s.spads
  mcs : F.mcs = false → t.mcs = s.mcs
  sn : F.sn = false → t.sn = s.sn
  ring : F.ring = false → t.ring = s.ring
  settings : F.settings = false → t.settings = s.settings
  cc : F.cc = false → t.cc = s.cc
  host : F.host = false → t.host = s.host
  car : F.car = false → t.car = s.car
  fn : F.car = false → t.fn = s.fn
  tr : F.tr = false → t.tr = s.tr
  tio : F.tio = false → t.tio = s.tio
  cans : F.cans = false → t.cans = s.cans
  pwr : F.pwr = false → t.pwr = s.pwr
  sec : F.sec = false → t.sec = s.sec

/-- The parts that raising an event may change: its record goes to the device event queue, and one too many for the overflow log trips SAFE_OUT and
halts the PWM channels (02 R50; 13 R313; 15 R354). -/
def Foot.event : Foot := { mem := true, qe := true, sn := true, tio := true }

/-- The footprint of each command: outside it the command changes nothing (registers, counters, events, time, activity counts and free values apart). -/
def footprint : Instr → Foot
  | .jobDescriptor .. => { Foot.event with jobs := true, quills := true, chans := true, barriers := true, spads := true, mcs := true, ring := true, car := true }
  | .jobAdmit => { Foot.event with jobs := true, quills := true, chans := true, spads := true, ring := true, pwr := true }
  | .jobRunStart .. => { Foot.event with jobs := true, quills := true, chans := true, barriers := true, spads := true, mcs := true, ring := true }
  | .waveStart .. => { quills := true }
  | .jobDone .. => { Foot.event with jobs := true, quills := true, barriers := true, spads := true, ring := true }
  | .zeroFillDone .. => { Foot.event with quills := true, spads := true, settings := true }
  | .nop .. => { Foot.event with jobs := true, quills := true, chans := true, barriers := true, spads := true, ring := true }
  | .quillSet .. => { Foot.event with jobs := true, quills := true, chans := true, barriers := true, spads := true, ring := true }
  | .alu .. => { Foot.event with jobs := true, quills := true, chans := true, barriers := true, spads := true, ring := true }
  | .loop .. => { Foot.event with jobs := true, quills := true, chans := true, barriers := true, spads := true, ring := true }
  | .branch .. => { Foot.event with jobs := true, quills := true, chans := true, barriers := true, spads := true, ring := true }
  | .top .. => { Foot.event with jobs := true, quills := true, chans := true, barriers := true, spads := true, ring := true }
  | .waitTop .. => { Foot.event with jobs := true, quills := true, chans := true, barriers := true, spads := true, ring := true }
  | .semWait .. => { Foot.event with jobs := true, quills := true, chans := true, barriers := true, spads := true, ring := true }
  | .semSignal .. => { Foot.event with jobs := true, quills := true, chans := true, barriers := true, spads := true, ring := true }
  | .barrier .. => { Foot.event with jobs := true, quills := true, chans := true, barriers := true, spads := true, ring := true }
  | .localBarrierRelease .. => { Foot.event with jobs := true, quills := true, chans := true, barriers := true, spads := true, ring := true }
  | .barrierReleaseTime .. => { Foot.event with jobs := true, quills := true, chans := true, barriers := true, spads := true, ring := true }
  | .dma .. => { Foot.event with jobs := true, quills := true, chans := true, barriers := true, spads := true, ring := true }
  | .dmaWait .. => { Foot.event with jobs := true, quills := true, chans := true, barriers := true, spads := true, ring := true }
  | .dmaComplete .. => { Foot.event with jobs := true, quills := true, chans := true, barriers := true, spads := true, mcs := true, ring := true }
  | .atomic .. => { Foot.event with jobs := true, quills := true, chans := true, barriers := true, spads := true, mcs := true, ring := true }
  | .qpush .. => { Foot.event with jobs := true, quills := true, chans := true, barriers := true, spads := true, mcs := true, ring := true }
  | .qpop .. => { Foot.event with jobs := true, quills := true, chans := true, barriers := true, spads := true, mcs := true, ring := true, car := true }
  | .trap .. => { Foot.event with jobs := true, quills := true, chans := true, barriers := true, spads := true, ring := true }
  | .quillEnd .. => { jobs := true, quills := true }
  | .semTimeout .. => { Foot.event with jobs := true, quills := true, chans := true, barriers := true, spads := true, ring := true }
  | .matmul .. => { Foot.event with jobs := true, quills := true, chans := true, barriers := true, spads := true, mcs := true, ring := true, settings := true }
  | .conv .. => { Foot.event with jobs := true, quills := true, chans := true, barriers := true, spads := true, mcs := true, ring := true, settings := true }
  | .poolResize .. => { Foot.event with jobs := true, quills := true, chans := true, barriers := true, spads := true, mcs := true, ring := true }
  | .attentionFwd .. => { Foot.event with jobs := true, quills := true, chans := true, barriers := true, spads := true, mcs := true, ring := true }
  | .attentionBwd .. => { Foot.event with jobs := true, quills := true, chans := true, barriers := true, spads := true, mcs := true, ring := true }
  | .eltwise .. => { Foot.event with jobs := true, quills := true, chans := true, barriers := true, spads := true, mcs := true, ring := true }
  | .reduce .. => { Foot.event with jobs := true, quills := true, chans := true, barriers := true, spads := true, mcs := true, ring := true }
  | .optStep .. => { Foot.event with jobs := true, quills := true, chans := true, barriers := true, spads := true, mcs := true, ring := true }
  | .tensorOpDrain .. => { Foot.event with jobs := true, quills := true, chans := true, barriers := true, spads := true, mcs := true, ring := true }
  | .nibRetire .. => { Foot.event with jobs := true, quills := true, chans := true, barriers := true, spads := true, ring := true, settings := true }
  | .nibSpared .. => { Foot.event with quills := true, settings := true }
  | .registerWrite .. => ⟨true, true, true, true, true, true, true, true, true, true, true, true, true, true, true, true, true, true, true, true⟩
  | .readClear .. => { Foot.event with tr := true }
  | .counterLoRead .. => { Foot.event with tr := true }
  | .softReset .. => { Foot.event with quills := true, chans := true, spads := true, mcs := true, ring := true, settings := true, cc := true, host := true, car := true, tr := true, cans := true, pwr := true, sec := true }
  | .softResetDone .. => {}
  | .blockDisable .. => { Foot.event with quills := true, chans := true, spads := true, mcs := true, ring := true, settings := true, cc := true, host := true, car := true, tr := true, cans := true, pwr := true, sec := true }
  | .eventInject .. => { Foot.event with jobs := true, quills := true, ring := true, settings := true, host := true, cans := true, pwr := true }
  | .injectAllowWrite .. => .event
  | .eventsLost => { mem := true, qe := true }
  | .warmReset .. => { Foot.event with jobs := true, quills := true, chans := true, barriers := true, spads := true, mcs := true, ring := true, settings := true, cc := true, host := true, car := true, tr := true, cans := true, pwr := true, sec := true }
  | .gptpSync .. => { Foot.event with tr := true }
  | .gptpSyncTimeout => { quills := true }
  | .pdelayMeasure .. => { Foot.event with host := true }
  | .spadRequest .. => { Foot.event with jobs := true, quills := true, chans := true, barriers := true, spads := true, mcs := true, ring := true }
  | .windowExpiry .. => { quills := true }
  | .windowOpen .. => { Foot.event with spads := true }
  | .windowClose .. => { Foot.event with spads := true }
  | .bankPowerDown .. => { Foot.event with spads := true }
  | .bankWake .. => { Foot.event with spads := true }
  | .bankDrained .. => { Foot.event with quills := true, spads := true }
  | .bankWakeDone .. => { Foot.event with quills := true, spads := true, settings := true }
  | .holdFill .. => { Foot.event with spads := true }
  | .scrubStep .. => { Foot.event with quills := true, spads := true, settings := true }
  | .memorySlot .. => { Foot.event with jobs := true, quills := true, chans := true, barriers := true, spads := true, mcs := true, ring := true }
  | .refresh .. => { quills := true, mcs := true }
  | .refreshRateChange .. => .event
  | .patrolScrub .. => { Foot.event with quills := true, mcs := true, ring := true }
  | .rowSpareForce .. => { Foot.event with mcs := true }
  | .rowSpareDone .. => { Foot.event with mcs := true, settings := true }
  | .mcTrained .. => { Foot.event with mcs := true, ring := true, settings := true }
  | .eccFillDone .. => { mcs := true }
  | .packetComplete .. => { Foot.event with jobs := true, quills := true, chans := true, barriers := true, spads := true, mcs := true, ring := true, host := true }
  | .packetAbandon .. => { Foot.event with jobs := true, quills := true, chans := true, barriers := true, spads := true, ring := true, host := true }
  | .descriptorFetch .. => { Foot.event with jobs := true, quills := true, chans := true, barriers := true, spads := true, mcs := true, ring := true }
  | .stagedRecordRelease .. => { Foot.event with jobs := true }
  | .queueConfigure .. => { Foot.event with jobs := true, quills := true, chans := true, barriers := true, spads := true, mcs := true, ring := true, host := true }
  | .queueEnable .. => { Foot.event with jobs := true, quills := true, chans := true, barriers := true, spads := true, mcs := true, ring := true, host := true }
  | .queueDisable .. => { Foot.event with jobs := true, quills := true, chans := true, barriers := true, spads := true, mcs := true, ring := true, host := true }
  | .queuePin .. => { Foot.event with jobs := true, quills := true, chans := true, barriers := true, spads := true, mcs := true, ring := true, host := true }
  | .queueUnpin .. => { Foot.event with jobs := true, quills := true, chans := true, barriers := true, spads := true, mcs := true, ring := true, host := true }
  | .rdptrWrite .. => { Foot.event with jobs := true, quills := true, chans := true, barriers := true, spads := true, mcs := true, ring := true, car := true }
  | .ctxOpen => { Foot.event with jobs := true, mcs := true, ring := true, car := true }
  | .ctxClose => { Foot.event with jobs := true, mcs := true, ring := true, cc := true, car := true }
  | .ctxFork => { Foot.event with jobs := true, mcs := true, ring := true, car := true }
  | .append => { Foot.event with jobs := true, mcs := true, ring := true, cc := true, car := true }
  | .commit => { Foot.event with jobs := true, mcs := true, ring := true, cc := true, car := true }
  | .truncate => { Foot.event with jobs := true, mcs := true, ring := true, cc := true, car := true }
  | .reinkBegin => { Foot.event with jobs := true, mcs := true, ring := true, cc := true, car := true }
  | .reinkEnd => { Foot.event with jobs := true, mcs := true, ring := true, cc := true, car := true }
  | .reinkAbort => { Foot.event with jobs := true, mcs := true, ring := true, cc := true, car := true }
  | .ticketGrant .. => { Foot.event with jobs := true, quills := true, chans := true, barriers := true, spads := true, mcs := true, ring := true, cc := true }
  | .ticketReturn => { cc := true }
  | .limboReclaim .. => { mem := true, cc := true }
  | .ccEnable .. => { Foot.event with cc := true }
  | .fnLayer => { Foot.event with jobs := true, quills := true, chans := true, barriers := true, spads := true, mcs := true, ring := true, car := true }
  | .fnSourceStall => { Foot.event with quills := true, car := true }
  | .fnLayerComplete .. => { Foot.event with spads := true, mcs := true, ring := true, car := true }
  | .csiPacket .. => { Foot.event with spads := true, mcs := true, ring := true, car := true }
  | .frameStart .. => { Foot.event with car := true }
  | .frameEnd .. => { Foot.event with car := true }
  | .camLinkLost .. => { Foot.event with car := true }
  | .sourceRecord .. => { Foot.event with jobs := true, quills := true, chans := true, barriers := true, spads := true, mcs := true, ring := true, car := true }
  | .sampleComplete .. => { Foot.event with spads := true, mcs := true, ring := true, car := true }
  | .sampleLate .. => { Foot.event with quills := true, car := true }
  | .batchWindowExpiry .. => { Foot.event with quills := true, car := true }
  | .streamConfigure .. => { Foot.event with car := true }
  | .streamStart .. => { Foot.event with car := true }
  | .streamStop .. => { Foot.event with car := true }
  | .meanReset .. => { Foot.event with car := true }
  | .groupConfigure .. => { Foot.event with car := true }
  | .groupStart .. => { Foot.event with car := true }
  | .groupStop .. => { Foot.event with car := true }
  | .slotTrigger .. => { Foot.event with quills := true, tr := true }
  | .lawDispatch .. => { Foot.event with tr := true }
  | .mac .. => { Foot.event with tr := true }
  | .lawStore .. => { Foot.event with tr := true }
  | .limit .. => { Foot.event with tr := true }
  | .lawMove .. => { tr := true }
  | .lawOut .. => { tr := true, tio := true, cans := true }
  | .lawSend .. => { tr := true }
  | .skipif .. => { tr := true }
  | .lawEnd => { tr := true, cans := true }
  | .slotConfigure .. => { Foot.event with tr := true }
  | .slotStart .. => { Foot.event with tr := true }
  | .slotStop .. => { Foot.event with tr := true }
  | .slotResume .. => { Foot.event with tr := true }
  | .lawDataWrite .. => { Foot.event with tr := true }
  | .coefWrite .. => { Foot.event with tr := true }
  | .bankSwap .. => .event
  | .coefCopyDone => { tr := true }
  | .spCommit .. => { Foot.event with tr := true }
  | .testGenerator .. => { Foot.event with tr := true }
  | .captureRead .. => { Foot.event with tr := true }
  | .encConfigure .. => .event
  | .encRevalidate .. => .event
  | .encSample .. => { Foot.event with tr := true }
  | .dinConfigure .. => .event
  | .dinEdge .. => { Foot.event with tr := true }
  | .dinStuck .. => { Foot.event with quills := true }
  | .adcConfigure .. => .event
  | .adcStart .. => .event
  | .adcStop .. => .event
  | .adcSequence .. => { quills := true, tio := true }
  | .pwmConfigure .. => .event
  | .pwmRelease .. => .event
  | .pwmPeriodStart .. => { Foot.event with quills := true, tr := true }
  | .stopNAssert => .event
  | .stopNRelease => { tio := true }
  | .canEntryConfigure .. => { Foot.event with cans := true }
  | .tbRequest .. => { Foot.event with cans := true }
  | .tbAbort .. => { Foot.event with cans := true }
  | .busOffRecover .. => { Foot.event with cans := true }
  | .trMapWrite .. => .event
  | .jobTxRequest .. => { Foot.event with jobs := true, quills := true, chans := true, barriers := true, spads := true, mcs := true, ring := true, car := true, cans := true }
  | .canFrameReceived .. => { Foot.event with tr := true, cans := true }
  | .canFrameTransmitted .. => { Foot.event with tr := true, cans := true }
  | .canErrorFrame .. => { Foot.event with cans := true }
  | .canRecoveryDone .. => { Foot.event with cans := true }
  | .canStopClear .. => .event
  | .armRequest .. => { Foot.event with arms := true, spads := true }
  | .snConfigure .. => .event
  | .setpointRecord .. => { Foot.event with jobs := true, quills := true, chans := true, barriers := true, spads := true, mcs := true, ring := true, car := true, tr := true }
  | .twinHoldExpiry => { Foot.event with quills := true, tr := true }
  | .frameRecord => { Foot.event with jobs := true, quills := true, chans := true, barriers := true, spads := true, mcs := true, ring := true, car := true }
  | .outputComparison .. => { Foot.event with jobs := true, mcs := true, ring := true }
  | .cmpWindowExpiry .. => { Foot.event with jobs := true, quills := true }
  | .lockstepMismatch .. => .event
  | .checkerWatchdog => .event
  | .channelDiscrepancy .. => .event
  | .overflowLogDrain => { mem := true, qe := true, sn := true }
  | .logRead .. => .event
  | .selfTestSlice => .event
  | .sliceDone .. => { Foot.event with jobs := true, quills := true, chans := true, barriers := true, spads := true, ring := true, settings := true, tr := true }
  | .sliceAbort => { Foot.event with quills := true, spads := true }
  | .selfTestLate => { Foot.event with quills := true }
  | .grantPeriod .. => { Foot.event with jobs := true, quills := true, pwr := true }
  | .voltageReached => { quills := true, pwr := true }
  | .railReading .. => { Foot.event with jobs := true, pwr := true }
  | .railTimeout .. => { Foot.event with jobs := true, quills := true, pwr := true }
  | .reconWindow => { jobs := true, quills := true, pwr := true }
  | .capWrite .. => .event
  | .allowanceWrite .. => .event
  | .overpower => { quills := true, pwr := true }
  | .droopDetect .. => { jobs := true, quills := true, pwr := true }
  | .droopEnd .. => { Foot.event with quills := true, settings := true, pwr := true }
  | .tempReading .. => { Foot.event with jobs := true, pwr := true, sec := true }
  | .thermalTrip .. => { Foot.event with jobs := true, quills := true, chans := true, barriers := true, spads := true, mcs := true, ring := true, settings := true, cc := true, host := true, car := true, tr := true, cans := true, pwr := true, sec := true }
  | .recoveryEnd => { quills := true, pwr := true }
  | .coolantLoss => { Foot.event with jobs := true, mcs := true, pwr := true }
  | .coolantRestart .. => { Foot.event with quills := true, mcs := true, pwr := true }
  | .domainOn .. => { Foot.event with quills := true, pwr := true }
  | .domainOffCmd .. => { Foot.event with quills := true, pwr := true }
  | .domainUsable .. => { Foot.event with quills := true, chans := true, spads := true, mcs := true, ring := true, settings := true, cc := true, host := true, car := true, tr := true, cans := true, pwr := true, sec := true }
  | .autoPowerDown .. => { Foot.event with quills := true, spads := true, pwr := true }
  | .flitReceived .. => { Foot.event with ring := true }
  | .nakReceived .. => { Foot.event with jobs := true, ring := true }
  | .linkRetrain .. => { Foot.event with ring := true }
  | .retrainDone .. => { Foot.event with jobs := true, ring := true }
  | .linkDown .. => { Foot.event with ring := true }
  | .linkUp .. => { Foot.event with ring := true }
  | .laneSpared .. => { Foot.event with ring := true, settings := true }
  | .laneSwapFlit .. => { Foot.event with ring := true, settings := true }
  | .spareShadowRotate .. => { quills := true, ring := true }
  | .creditReturn .. => { ring := true }
  | .timeSync .. => { ring := true }
  | .ringTimeLost .. => { Foot.event with quills := true }
  | .ringRead .. => { Foot.event with spads := true, mcs := true, ring := true }
  | .ringWrite .. => { Foot.event with spads := true, mcs := true, ring := true }
  | .ringAtomic .. => { Foot.event with spads := true, mcs := true, ring := true }
  | .readResponse .. => { Foot.event with jobs := true, quills := true, chans := true, barriers := true, spads := true, ring := true, host := true, car := true }
  | .writeResponse .. => { Foot.event with jobs := true, quills := true, chans := true, barriers := true, spads := true, ring := true, host := true, car := true }
  | .ringSemSignal .. => { Foot.event with jobs := true, quills := true, chans := true, barriers := true, spads := true, ring := true }
  | .ringQueuePush .. => { Foot.event with jobs := true, quills := true, chans := true, barriers := true, spads := true, mcs := true, ring := true }
  | .barrierArrival .. => { barriers := true, ring := true }
  | .barrierRelease .. => { barriers := true }
  | .ringRegAccess .. => ⟨true, true, true, true, true, true, true, true, true, true, true, true, true, true, true, true, true, true, true, true⟩
  | .registerResponse .. => { Foot.event with jobs := true, quills := true, chans := true, barriers := true, spads := true, ring := true, host := true, car := true }
  | .ringReqTimeout .. => { Foot.event with jobs := true, quills := true, chans := true, barriers := true, spads := true, ring := true, host := true, car := true }
  | .enumStart .. => { Foot.event with ring := true }
  | .discover .. => { Foot.event with ring := true }
  | .discoverReply .. => { Foot.event with ring := true }
  | .assign .. => { ring := true }
  | .enumDone => { Foot.event with ring := true }
  | .discoverRepeat => { quills := true, ring := true }
  | .enumWaitTimeout => { Foot.event with quills := true, ring := true }
  | .routeUpdate .. => { ring := true }
  | .fenceCmd .. => { Foot.event with ring := true }
  | .deviceFence .. => { Foot.event with jobs := true, quills := true, chans := true, barriers := true, spads := true, ring := true, host := true }
  | .fenceNotice .. => { Foot.event with ring := true }
  | .linkRetrainCmd .. => { Foot.event with ring := true }
  | .linkModeWrite .. => { Foot.event with ring := true }
  | .linkTestDrop .. => { Foot.event with ring := true }
  | .linkTestCorrupt .. => { Foot.event with ring := true }
  | .linkTestReorder .. => { Foot.event with ring := true }
  | .hostFrame .. => { Foot.event with jobs := true, host := true, car := true }
  | .hostLinkUp .. => .event
  | .hostLinkDown .. => { Foot.event with host := true }
  | .sync => { Foot.event with jobs := true, host := true, car := true }
  | .qack => { Foot.event with jobs := true, host := true, car := true }
  | .regRead => { Foot.event with jobs := true, ring := true, host := true, car := true, tr := true }
  | .regWrite => ⟨true, true, true, true, true, true, true, true, true, true, true, true, true, true, true, true, true, true, true, true⟩
  | .memRead => { Foot.event with jobs := true, spads := true, mcs := true, ring := true, host := true, car := true }
  | .memWrite => { Foot.event with jobs := true, spads := true, mcs := true, ring := true, host := true, car := true }
  | .queuePush => { Foot.event with jobs := true, quills := true, chans := true, barriers := true, spads := true, mcs := true, ring := true, host := true, car := true }
  | .barrierGroup .. => { Foot.event with jobs := true, barriers := true, ring := true, host := true, car := true }
  | .detSlots => { Foot.event with jobs := true, ring := true, host := true, car := true }
  | .macsecKey => { Foot.event with jobs := true, host := true, car := true }
  | .hostStop => { Foot.event with jobs := true, host := true, car := true }
  | .kill => { Foot.event with jobs := true, quills := true, chans := true, barriers := true, spads := true, ring := true, host := true, car := true }
  | .hostHold => { Foot.event with jobs := true, host := true, car := true }
  | .hostRelease => { Foot.event with jobs := true, host := true, car := true }
  | .hostStopClear .. => .event
  | .deliveryResend .. => { Foot.event with quills := true, host := true }
  | .updateStage => { Foot.event with jobs := true, host := true, car := true, sec := true }
  | .updateDone .. => { Foot.event with spads := true, mcs := true, ring := true, settings := true, sec := true }
  | .updateActivate => { Foot.event with jobs := true, host := true, car := true, sec := true }
  | .componentSwap .. => { Foot.event with quills := true, settings := true, tr := true, pwr := true, sec := true }
  | .updateCommit => { Foot.event with jobs := true, host := true, car := true, sec := true }
  | .updateAbort => { Foot.event with jobs := true, host := true, car := true, sec := true }
  | .attest => { Foot.event with jobs := true, spads := true, mcs := true, ring := true, host := true, car := true, sec := true }
  | .bottomTreeReady => { Foot.event with sec := true }
  | .debugChallenge => { Foot.event with jobs := true, host := true, car := true, sec := true }
  | .debugUnlock => { Foot.event with jobs := true, spads := true, mcs := true, ring := true, host := true, car := true, sec := true }
  | .debugLock .. => { Foot.event with spads := true }
  | .debugExpiry => { Foot.event with quills := true, spads := true }
  | .provision => { Foot.event with jobs := true, host := true, car := true, sec := true }
  | .settingsRecordAppend .. => { Foot.event with settings := true, host := true, sec := true }
  | .settingsCompaction => { Foot.event with settings := true }
  | .powerOnReset .. => { Foot.event with jobs := true, quills := true, chans := true, barriers := true, spads := true, mcs := true, ring := true, settings := true, cc := true, host := true, car := true, tr := true, cans := true, pwr := true, sec := true }
  | .resetPin .. => { Foot.event with jobs := true, quills := true, chans := true, barriers := true, spads := true, mcs := true, ring := true, settings := true, cc := true, host := true, car := true, tr := true, cans := true, pwr := true, sec := true }
  | .mgmtWatchdog => { Foot.event with jobs := true, quills := true, chans := true, barriers := true, spads := true, mcs := true, ring := true, settings := true, cc := true, host := true, car := true, tr := true, cans := true, pwr := true, sec := true }
  | .railUndervoltage .. => { Foot.event with jobs := true, quills := true, chans := true, barriers := true, spads := true, mcs := true, ring := true, settings := true, cc := true, host := true, car := true, tr := true, cans := true, pwr := true, sec := true }
  | .refclkLoss => { Foot.event with jobs := true, quills := true, chans := true, barriers := true, spads := true, mcs := true, ring := true, settings := true, cc := true, host := true, car := true, tr := true, cans := true, pwr := true, sec := true }
  | .refclkReturn => { quills := true, sec := true }
  | .boot .. => { Foot.event with quills := true, settings := true, host := true, tr := true, pwr := true, sec := true }
  | .canArbitration .. => { Foot.event with spads := true, mcs := true, ring := true, cans := true }
  | .arbitrationLost .. => { Foot.event with cans := true }
  | .canRxError .. => { Foot.event with cans := true }
  | .memorySampleCorrupt .. => { Foot.event with spads := true, mcs := true, ring := true, car := true }
  | .coolFlowRestored => { pwr := true }
  | .dinLevelStable .. => { Foot.event with quills := true, tr := true }
  | .dphyClockReturn .. => { car := true }
  | .attestTokenRefill => { quills := true, sec := true }
  | .checkerReloadDone => .event

/-- `c` is the host command that runs next: accepted and at the front, with no reserved byte set, and its opcode served (18 R428, R431; 19 R450). -/
def hostNext (c : HostCmd) (op : Nat) (s : State) : Prop :=
  (∃ l, s.host.accepted = (c, false) :: l) ∧ c.op = op ∧ c.reserved = false ∧ served op s = true

/-- `c` is the priority command that is taken next, new in its session, with no reserved byte set and its opcode served; `t` is the state once it is
out of the priority buffer and its acknowledgement and number are taken (18 R428 to R430). -/
def prioNext (c : HostCmd) (op : Nat) (s t : State) : Prop :=
  ∃ u, nextFrame op s = some (c, u) ∧ c.op = op ∧ c.session = (rdReg 14 0 0x110 (headerAck c u)).toNat
    ∧ serial c.seq (rdReg 14 0 0x11C (headerAck c u)).toNat ≠ 0 ∧ serial c.seq (rdReg 14 0 0x11C (headerAck c u)).toNat < 2 ^ 31
    ∧ c.reserved = false ∧ served op (headerAck c u) = true ∧ t = wrReg 14 0 0x11C (BitVec.ofNat 32 c.seq) (headerAck c u)

end Sys2Proof.Machine
end

