-- ==== Sys2Proof/WellFormed.lean ====
section
/-! DEFINITION. Well-formed commands: operands within the widths and the numbers of units that the spec gives them. Every command has a meaning
whether it is well formed or not; an operand out of its width names nothing a P48 can be sent. -/

namespace Sys2Proof

/-- A number of `n` bits. -/
def bits (n v : Nat) : Bool := decide (v < 2 ^ n)

/-- A Quill, 0 to 191 (01, blocks). -/
def isQuill (q : Nat) : Bool := decide (q < 192)

/-- An Inkwell, 0 to 47. -/
def isInkwell (n : Nat) : Bool := decide (n < 48)

/-- A memory controller, 0 to 7. -/
def isMc (m : Nat) : Bool := decide (m < 8)

/-- A ring port, 0 to 5. -/
def isPort (p : Nat) : Bool := decide (p < 6)

/-- A host port. -/
def isHostPort (p : Nat) : Bool := decide (p < 2)

/-- A CSI-2 receiver, 0 to 11. -/
def isCsi (c : Nat) : Bool := decide (c < 12)

/-- A stream, 0 to 31 (12 R278). -/
def isStream (n : Nat) : Bool := decide (n < 32)

/-- A class and instance of the register region (02 R30). -/
def isPage (c i : Nat) : Bool := decide (c < 16) && decide (i < 256)

/-- A requester: device and job IDs in their widths. -/
def whoOk : Who → Bool
  | .job d k | .fine d k => bits 8 d && bits 16 k
  | .host | .scribe | .carousel | .debug => true

/-- An upset names a byte address and a bit of its codeword. -/
def upsetOk : Upset → Bool
  | .none => true
  | .single a b => bits 56 a && bits 10 b
  | .double a => bits 56 a

/-- Who asks for a memory slot. -/
def memWhoOk : MemWho → Bool
  | .job id => bits 16 id
  | _ => true

/-- A request for a memory slot is of at most one unit. -/
def memAskOk : MemAsk → Bool
  | .read w a n => memWhoOk w && bits 56 a && decide (n ≤ 2048)
  | .write w a l => memWhoOk w && bits 56 a && decide (l.length ≤ 2048)

/-- A link error's byte lies in the 68-byte codeword (10 R237). -/
def linkErrOk : LinkErr → Bool
  | .one b => decide (b < 68)
  | _ => true

/-- A CAN frame: an identifier of 29 bits, a format, at most 2,048 data bytes (14 R330). -/
def canFrameOk (f : CanFrame) : Bool :=
  bits 29 f.id && decide (f.fmt < 3) && decide (f.data.length ≤ 2048) && bits 8 f.sdt && bits 8 f.vcid && bits 32 f.af

/-- What a grant period's counters give: Quills and jobs in range, five rails. -/
def actOk (a : PwrAct) : Bool := decide (a.rails.length ≤ 5)

/-- An Inkwell's bank, if one is named. -/
def bankOk : Option Nat → Bool
  | some b => bits 4 b
  | none => true

/-- A Nib of a Quill with a group's number, if one is named. -/
def badNib : Option (Nat × Nat) → Bool
  | some (n, _) => bits 4 n
  | none => true

/-- A short packet: a virtual channel of 4 bits, a header word of 32 (12 R273). -/
def csiShortOk (p : CsiShort) : Bool := bits 4 p.vc && bits 32 p.hdr && decide (p.bad ≤ 2)

/-- A flit: sequence numbers of 14 bits, a virtual channel (17 R394). -/
def flitOk (f : FlitIn) : Bool := bits 14 f.seq && bits 14 f.ack && bits 3 f.vc

/-- A frame on a host port: addresses of 48 bits, an EtherType, at most 9,018 bytes with its PDU inside them (18 R418). -/
def hostFrameOk (f : HostFrame) : Bool :=
  bits 48 f.dst && bits 48 f.src && bits 16 f.ethertype
    && (match f.sec with | some t => decide (t.an < 4 ∧ t.icv.length = 16) && bits 32 t.pn | none => true) && decide (f.len ≤ 16383) && decide (f.pdu.length ≤ f.len)

/-- Whether a command is well formed. -/
def Instr.wellFormed : Instr → Bool
  | .jobDescriptor q => bits 20 q
  | .jobAdmit => true
  | .jobRunStart id => bits 16 id
  | .waveStart q => isQuill q
  | .jobDone id => bits 16 id
  | .zeroFillDone n => isInkwell n
  | .nop q => isQuill q
  | .quillSet q dst imm => isQuill q && bits 4 dst && bits 32 imm
  | .alu q sub dst a b _ imm => isQuill q && decide (sub ≤ 11) && bits 4 dst && bits 4 a && bits 4 b && bits 32 imm
  | .loop q countSc count body => isQuill q && bits 4 countSc && bits 32 count && decide (1 ≤ body ∧ body ≤ 4096)
  | .branch q cond a b _ imm off => isQuill q && decide (cond ≤ 5) && bits 4 a && bits 4 b && bits 32 imm && bits 16 off
  | .top q tod => isQuill q && bits 16 tod
  | .waitTop q => isQuill q
  | .semWait q sem count => isQuill q && bits 5 sem && bits 16 count
  | .semSignal q sem _ count rank dev job => isQuill q && bits 5 sem && bits 16 count && bits 16 rank && bits 8 dev && bits 16 job
  | .barrier q scope group => isQuill q && bits 1 scope && bits 16 group
  | .localBarrierRelease job _ scope group => bits 16 job && bits 1 scope && bits 16 group
  | .barrierReleaseTime group _ => bits 10 group
  | .dma q ch _ _ statusSc src dst queue => isQuill q && bits 1 ch && bits 4 statusSc && bits 16 src && bits 16 dst && bits 20 queue
  | .dmaWait q mask => isQuill q && bits 2 mask
  | .dmaComplete k => decide (k < 384)
  | .atomic q op _ statusSc dst val cmp agp => isQuill q && decide (op < 3) && bits 4 statusSc && bits 4 dst && bits 4 val && bits 4 cmp && bits 16 agp
  | .qpush q _ statusSc src queue => isQuill q && bits 4 statusSc && bits 16 src && bits 20 queue
  | .qpop q _ statusSc dst queue => isQuill q && bits 4 statusSc && bits 16 dst && bits 20 queue
  | .trap q code => isQuill q && bits 32 code
  | .quillEnd q => isQuill q
  | .semTimeout q => isQuill q
  | .matmul x => isQuill x.quill && badNib x.bad
  | .conv x => isQuill x.quill && badNib x.bad
  | .poolResize q => isQuill q
  | .attentionFwd q => isQuill q
  | .attentionBwd q => isQuill q
  | .eltwise q => isQuill q
  | .reduce q => isQuill q
  | .optStep q => isQuill q
  | .tensorOpDrain q => isQuill q
  | .nibRetire _ q v => isQuill q && bits 32 v
  | .nibSpared q => isQuill q
  | .registerWrite _ addr size v => bits 56 addr && bits 8 size && bits 32 v
  | .readClear _ addr size => bits 56 addr && bits 8 size
  | .counterLoRead _ c i lo => isPage c i && bits 12 lo
  | .softReset _ c i => isPage c i
  | .softResetDone c i => isPage c i
  | .blockDisable _ c i => isPage c i
  | .eventInject _ c i v => isPage c i && bits 32 v
  | .injectAllowWrite _ _ => true
  | .eventsLost => true
  | .warmReset _ v => bits 32 v
  | .gptpSync p ns => isHostPort p && bits 64 ns
  | .gptpSyncTimeout => true
  | .pdelayMeasure p _ => isHostPort p
  | .spadRequest w _ addr len data u => bits 56 addr && decide (len ≤ 4096) && decide (data.length ≤ 4096) && whoOk w && upsetOk u
  | .windowExpiry n w => isInkwell n && bits 6 w
  | .windowOpen _ n => isInkwell n
  | .windowClose _ n => isInkwell n
  | .bankPowerDown _ n bank owner => isInkwell n && bits 4 bank && bits 16 owner
  | .bankWake _ n bank owner => isInkwell n && bits 4 bank && bits 16 owner
  | .bankDrained n b => isInkwell n && bits 4 b
  | .bankWakeDone n b => isInkwell n && bits 4 b
  | .holdFill _ n _ => isInkwell n
  | .scrubStep n b u => isInkwell n && bits 4 b && upsetOk u
  | .memorySlot m pos asks link u => isMc m && decide (pos < 64) && decide (asks.length ≤ 64) && asks.all memAskOk && linkErrOk link && upsetOk u
  | .refresh m ch bank => isMc m && bits 3 ch && bits 5 bank
  | .refreshRateChange m temp => isMc m && bits 8 temp
  | .patrolScrub m u => isMc m && upsetOk u
  | .rowSpareForce _ m bank row => isMc m && bits 8 bank && bits 16 row
  | .rowSpareDone m bank row => isMc m && bits 8 bank && bits 16 row
  | .mcTrained m _ _ ms stage => isMc m && bits 16 ms && bits 8 stage
  | .eccFillDone m => isMc m
  | .packetComplete q num => bits 20 q && bits 32 num
  | .packetAbandon q num => bits 20 q && bits 32 num
  | .descriptorFetch q u => bits 20 q && upsetOk u
  | .stagedRecordRelease q => bits 20 q
  | .queueConfigure _ => true
  | .queueEnable _ => true
  | .queueDisable _ => true
  | .queuePin _ => true
  | .queueUnpin _ => true
  | .rdptrWrite _ v => bits 32 v
  | .ctxOpen => true
  | .ctxClose => true
  | .ctxFork => true
  | .append => true
  | .commit => true
  | .truncate => true
  | .reinkBegin => true
  | .reinkEnd => true
  | .reinkAbort => true
  | .ticketGrant q => isQuill q
  | .ticketReturn => true
  | .limboReclaim kind => decide (kind < 3)
  | .ccEnable _ q => bits 20 q
  | .fnLayer => true
  | .fnSourceStall => true
  | .fnLayerComplete u => upsetOk u
  | .csiPacket csi vc dt hdr _ payload _ _ _ => isCsi csi && bits 4 vc && bits 6 dt && bits 2 hdr && decide (payload.length ≤ 65535)
  | .frameStart csi p number => isCsi csi && csiShortOk p && bits 16 number
  | .frameEnd csi p => isCsi csi && csiShortOk p
  | .camLinkLost csi lanes => isCsi csi && bits 4 lanes
  | .sourceRecord st => isStream st
  | .sampleComplete st id => isStream st && bits 32 id
  | .sampleLate st id => isStream st && bits 32 id
  | .batchWindowExpiry g => bits 3 g
  | .streamConfigure _ => true
  | .streamStart _ => true
  | .streamStop _ => true
  | .meanReset _ => true
  | .groupConfigure _ => true
  | .groupStart _ => true
  | .groupStop _ => true
  | .slotTrigger slot => bits 6 slot
  | .lawDispatch u => upsetOk u
  | .mac _ src coef u => bits 8 src && bits 11 coef && upsetOk u
  | .lawStore dst sh => bits 8 dst && bits 6 sh
  | .limit dst coef u => bits 8 dst && bits 11 coef && upsetOk u
  | .lawMove dst src => bits 8 dst && bits 8 src
  | .lawOut src _ n word => bits 8 src && bits 5 n && bits 4 word
  | .lawSend buf => bits 4 buf
  | .skipif src cond n => bits 8 src && bits 2 cond && bits 5 n
  | .lawEnd => true
  | .slotConfigure _ => true
  | .slotStart _ => true
  | .slotStop _ => true
  | .slotResume _ => true
  | .lawDataWrite _ v => bits 32 v
  | .coefWrite _ v => bits 32 v
  | .bankSwap _ slot => bits 6 slot
  | .coefCopyDone => true
  | .spCommit _ v => bits 32 v
  | .testGenerator _ v => bits 32 v
  | .captureRead _ => true
  | .encConfigure _ => true
  | .encRevalidate _ => true
  | .encSample enc _ => bits 4 enc
  | .dinConfigure _ => true
  | .dinEdge din => bits 5 din
  | .dinStuck din => bits 5 din
  | .adcConfigure _ => true
  | .adcStart _ => true
  | .adcStop _ => true
  | .adcSequence adc frames => bits 2 adc && decide (frames.length ≤ 16)
  | .pwmConfigure _ => true
  | .pwmRelease _ => true
  | .pwmPeriodStart pwm => decide (pwm < 24)
  | .stopNAssert => true
  | .stopNRelease => true
  | .canEntryConfigure _ can => bits 3 can
  | .tbRequest _ can => bits 3 can
  | .tbAbort _ can => bits 3 can
  | .busOffRecover _ can => bits 3 can
  | .trMapWrite _ can v => bits 3 can && bits 32 v
  | .jobTxRequest can => bits 3 can
  | .canFrameReceived can r => bits 3 can && canFrameOk r.frame
  | .canFrameTransmitted can => bits 3 can
  | .canErrorFrame can type _ => bits 3 can && bits 3 type
  | .canRecoveryDone can => bits 3 can
  | .canStopClear _ can => bits 3 can
  | .armRequest _ _ => true
  | .snConfigure _ => true
  | .setpointRecord u => upsetOk u
  | .twinHoldExpiry => true
  | .frameRecord => true
  | .outputComparison job => bits 16 job
  | .cmpWindowExpiry job => bits 16 job
  | .lockstepMismatch kind => decide (kind < 3)
  | .checkerWatchdog => true
  | .channelDiscrepancy chans => bits 2 chans
  | .overflowLogDrain => true
  | .logRead _ => true
  | .selfTestSlice => true
  | .sliceDone _ nib => bits 5 nib
  | .sliceAbort => true
  | .selfTestLate => true
  | .grantPeriod act => actOk act
  | .voltageReached => true
  | .railReading rail mv mw => decide (rail < 5) && bits 16 mv && bits 32 mw
  | .railTimeout rail _ => decide (rail < 5)
  | .reconWindow => true
  | .capWrite _ v => bits 32 v
  | .allowanceWrite _ v => bits 32 v
  | .overpower => true
  | .droopDetect site level => decide (site < 49) && decide (level = 1 ∨ level = 2)
  | .droopEnd site => decide (site < 49)
  | .tempReading sensor temp => decide (sensor < 72) && bits 8 temp
  | .thermalTrip sensor temp => decide (sensor < 72) && bits 8 temp
  | .recoveryEnd => true
  | .coolantLoss => true
  | .coolantRestart _ v => bits 32 v
  | .domainOn _ d => decide (d < 112)
  | .domainOffCmd _ d => decide (d < 112)
  | .domainUsable d => decide (d < 112)
  | .autoPowerDown bank n => bankOk bank && decide (n < 112)
  | .flitReceived p f => isPort p && flitOk f
  | .nakReceived p ack => isPort p && bits 10 ack
  | .linkRetrain p cause => isPort p && bits 4 cause
  | .retrainDone p => isPort p
  | .linkDown p => isPort p
  | .linkUp p die dev q _ lanes => isPort p && bits 56 die && bits 8 dev && bits 3 q && bits 5 lanes
  | .laneSpared p lane _ => isPort p && bits 2 lane
  | .laneSwapFlit p lane => isPort p && bits 2 lane
  | .spareShadowRotate p => isPort p
  | .creditReturn p vc _ => isPort p && bits 3 vc
  | .timeSync p _ depth => isPort p && bits 8 depth
  | .ringTimeLost _ => true
  | .ringRead src job tag _ addr len => bits 8 src && bits 16 job && bits 16 tag && bits 56 addr && decide (len ≤ 256)
  | .ringWrite src job tag _ addr data => bits 8 src && bits 16 job && bits 16 tag && bits 56 addr && decide (data.length ≤ 256)
  | .ringAtomic src job tag _ addr op val cmp => bits 8 src && bits 16 job && bits 16 tag && bits 56 addr && bits 2 op && bits 32 val && bits 32 cmp
  | .readResponse tag status cause data => bits 16 tag && bits 8 status && bits 8 cause && decide (data.length ≤ 256)
  | .writeResponse tag status cause => bits 16 tag && bits 8 status && bits 8 cause
  | .ringSemSignal src job tag _ target rank sem count => bits 8 src && bits 16 job && bits 16 tag && bits 16 target && bits 8 rank && bits 5 sem && bits 16 count
  | .ringQueuePush src job tag _ q data => bits 8 src && bits 16 job && bits 16 tag && bits 20 q && decide (data.length ≤ 4096)
  | .barrierArrival group member _ => bits 10 group && bits 8 member
  | .barrierRelease group _ R => bits 10 group && bits 64 R
  | .ringRegAccess src tag _ addr n data => bits 8 src && bits 16 tag && bits 56 addr && decide (n ≤ 64) && decide (data.length ≤ 256)
  | .registerResponse tag status data => bits 16 tag && bits 8 status && decide (data.length ≤ 256)
  | .ringReqTimeout tag => bits 16 tag
  | .enumStart _ => true
  | .discover p origin round => isPort p && bits 56 origin && bits 8 round
  | .discoverReply die _ ports => bits 56 die && decide (ports.length ≤ 6)
  | .assign id sx sy sz x y z depth _ => bits 8 id && bits 4 sx && bits 4 sy && bits 4 sz && bits 4 x && bits 4 y && bits 4 z && bits 8 depth
  | .enumDone => true
  | .discoverRepeat => true
  | .enumWaitTimeout => true
  | .routeUpdate dev p _ => bits 8 dev && isPort p
  | .fenceCmd _ target => bits 8 target
  | .deviceFence fault => (match fault with | some k => bits 4 k | none => true)
  | .fenceNotice dev reason _ => bits 8 dev && bits 4 reason
  | .linkRetrainCmd _ p => isPort p
  | .linkModeWrite _ p mode => isPort p && bits 2 mode
  | .linkTestDrop _ p n => isPort p && bits 8 n
  | .linkTestCorrupt _ p n => isPort p && bits 8 n
  | .linkTestReorder _ p => isPort p
  | .hostFrame p f => isHostPort p && hostFrameOk f
  | .hostLinkUp p rate => isHostPort p && decide (1 ≤ rate ∧ rate ≤ 3)
  | .hostLinkDown p => isHostPort p
  | .sync => true
  | .qack => true
  | .regRead => true
  | .regWrite => true
  | .memRead => true
  | .memWrite => true
  | .queuePush => true
  | .barrierGroup _ => true
  | .detSlots => true
  | .macsecKey => true
  | .hostStop => true
  | .kill => true
  | .hostHold => true
  | .hostRelease => true
  | .hostStopClear _ => true
  | .deliveryResend q => bits 20 q
  | .updateStage => true
  | .updateDone bad => (match bad with | some k => decide (k < 3) | none => true)
  | .updateActivate => true
  | .componentSwap id => decide (1 ≤ id ∧ id ≤ 4)
  | .updateCommit => true
  | .updateAbort => true
  | .attest => true
  | .bottomTreeReady => true
  | .debugChallenge => true
  | .debugUnlock => true
  | .debugLock _ => true
  | .debugExpiry => true
  | .provision => true
  | .settingsRecordAppend _ => true
  | .settingsCompaction => true
  | .powerOnReset straps banks => bits 2 straps && bits 4 banks
  | .resetPin straps banks => bits 2 straps && bits 4 banks
  | .mgmtWatchdog => true
  | .railUndervoltage rail mv => decide (rail < 9) && bits 16 mv
  | .refclkLoss => true
  | .refclkReturn => true
  | .boot fails => fails.all isQuill
  | .canArbitration can => bits 3 can
  | .arbitrationLost can => bits 3 can
  | .canRxError can type e =>
    bits 3 can && bits 3 type && (match e.begun with | some (_, n) => decide (24 ≤ n ∧ n ≤ 24 + 2048) | none => true)
  | .memorySampleCorrupt st id cause => isStream st && bits 32 id && bits 4 cause
  | .coolFlowRestored => true
  | .dinLevelStable din => bits 5 din
  | .dphyClockReturn csi => isCsi csi
  | .attestTokenRefill => true
  | .checkerReloadDone => true

end Sys2Proof
end

