-- ==== Sys2Proof/Certificates/Slice0/Obligations.lean ====
section
/-! DEFINITION. The statements for the provers. -/

open Sys2Proof Sys2Proof.Machine

/-- The block's step: what is at the front of the queue runs on the state with the queue's rest. On an empty queue one mesh cycle passes, which is the model's
choice (log entry 1). -/
def Obligations.StepRunsFrontCommand : Prop :=
  (∀ (c : Instr) (rest : List Instr) (s : State), s.pending = c :: rest → step s = exec c { s with pending := rest })
  ∧ (∀ s : State, s.pending = [] → step s = .next (advance meshCycle s))

/-- The scalar instructions of R116, for a Quill that may issue and whose fetched word decodes to the instruction. -/
def Obligations.ScalarInstructionsRetire : Prop :=
  (∀ (q : Nat) (s : State) (j : JobRec), quillReady q .nop s = true → findJob (quill q s).job s = some j →
      exec (.nop q) s = .next (retire q j (quill q s) s))
  ∧ (∀ (q dst imm : Nat) (s : State) (j : JobRec), quillReady q (.set dst imm) s = true → findJob (quill q s).job s = some j →
      exec (.quillSet q dst imm) s = .next (retire q j ((quill q s).wr dst (BitVec.ofNat 32 imm)) s))
  ∧ (∀ (q sub dst a b : Nat) (ui : Bool) (imm : Nat) (s : State) (j : JobRec), quillReady q (.alu sub dst a b ui imm) s = true →
      findJob (quill q s).job s = some j → sub < 11 →
      exec (.alu q sub dst a b ui imm) s
        = .next (retire q j ((quill q s).wr dst (aluOp sub ((quill q s).rd a) (if ui then BitVec.ofNat 32 imm else (quill q s).rd b))) s))
  ∧ (∀ (q dst a b : Nat) (ui : Bool) (imm : Nat) (s : State) (j : JobRec) (f : LoopFrame), quillReady q (.alu 11 dst a b ui imm) s = true →
      findJob (quill q s).job s = some j → (quill q s).loops.reverse[imm]? = some f →
      exec (.alu q 11 dst a b ui imm) s = .next (retire q j ((quill q s).wr dst (BitVec.ofNat 32 f.index)) s))
  ∧ (∀ (q : Nat) (s : State) (j : JobRec), quillReady q .waitTop s = true → findJob (quill q s).job s = some j → (quill q s).ops = [] →
      exec (.waitTop q) s = .next (retire q j (quill q s) s))

/-- The register file of a Quill, register by register. -/
def Obligations.ScalarRegisterFile : Prop :=
  ∀ (v : Quill) (r k : Nat) (w : Word),
    v.rd 0 = 0 ∧ v.wr 0 w = v ∧ (r ≠ 0 → (v.wr r w).rd r = w) ∧ (k ≠ r → (v.wr r w).rd k = v.rd k) ∧ { v.wr r w with sc := v.sc } = v

/-- What ending an instruction does to the whole state, through the ends of loop bodies. -/
def Obligations.QuillRetireFrame : Prop :=
  ∀ (q : Nat) (j : JobRec) (v : Quill) (s : State) (a : Nat) (h : ImgHdr), quillHdr q j s = some (a, h) →
    (loopBack v.loops (v.pc + 1)).2 < h.instrCount →
    quill q (retire q j v s)
        = { v with pc := (loopBack v.loops (v.pc + 1)).2, loops := (loopBack v.loops (v.pc + 1)).1, st := .running, wait := 0, arrived := false,
                   ext := v.ext && !v.det,
                   startAt := if v.ext && v.det then some (clkAtRing (rotationAfter (ringNow s)) s) else v.startAt }
      ∧ (∀ p, p ≠ q → quill p (retire q j v s) = quill p s)
      ∧ { retire q j v s with quills := s.quills } = s
      ∧ (v.loops = [] → (quill q (retire q j v s)).pc = v.pc + 1)

/-- The control instructions of R116. -/
def Obligations.LoopAndBranch : Prop :=
  (∀ (q countSc count body n : Nat) (s : State) (j : JobRec), quillReady q (.loop countSc count body) s = true → findJob (quill q s).job s = some j →
      n = (if countSc = 0 then count else ((quill q s).rd countSc).toNat) →
      exec (.loop q countSc count body) s = .next (if n = 0 then nextPc q j ((quill q s).pc + 1 + body) s
        else jumpTo q j (((quill q s).pc + 1 : Nat) : Int)
          (setQuill q { quill q s with loops := ⟨(quill q s).pc + 1, body, n, 0⟩ :: (quill q s).loops } s)))
  ∧ (∀ (q cond a b : Nat) (ui : Bool) (imm off : Nat) (s : State) (j : JobRec), quillReady q (.branch cond a b ui imm off) s = true →
      findJob (quill q s).job s = some j →
      exec (.branch q cond a b ui imm off) s
        = .next (if branchHolds cond ((quill q s).rd a) (if ui then BitVec.ofNat 32 imm else (quill q s).rd b)
                 then jumpTo q j (((quill q s).pc : Int) + signed 16 off) s else retire q j (quill q s) s))

/-- The issue of a tensor operation. -/
def Obligations.TensorOperationIssues : Prop :=
  ∀ (q tod : Nat) (s : State) (j : JobRec) (c : OpCtx), quillReady q (.top tod) s = true → findJob (quill q s).job s = some j →
    (quill q s).ops.length < 2 → opCtx j q (loopVals (quill q s)) (quill q s).scs (.op q (quill q s).issued) s = some c →
    hazard c (c.bindsOf (c.tod tod s).reads s) (c.bindsOf (c.tod tod s).writes s) s = false →
    ∃ o : OpRun, o.desc = tod ∧ o.tod = c.tod tod s ∧ o.index = (quill q s).opIndex ∧ o.issue = (quill q s).issued ∧ o.loops = (loopVals (quill q s))
      ∧ o.scs = (quill q s).scs ∧ o.ran = false ∧ o.drained = false ∧ o.outs = [] ∧ o.ticket = none
      ∧ exec (.top q tod) s = .next (retire q j { quill q s with ops := (quill q s).ops ++ [o], opIndex := (quill q s).opIndex + 1,
                                                                 issued := (quill q s).issued + 1 } s)

/-- The synchronising instructions of a Quill where they take effect. -/
def Obligations.QuillSynchronisation : Prop :=
  (∀ (q sem count : Nat) (s : State) (j : JobRec), quillReady q (.semWait sem count) s = true → findJob (quill q s).job s = some j →
      count ≤ Tbl.get 0 (quill q s).sem sem →
      exec (.semWait q sem count) s
        = .next (retire q j { quill q s with sem := Tbl.set 0 (quill q s).sem sem (Tbl.get 0 (quill q s).sem sem - count) } s))
  ∧ (∀ (q sem : Nat) (remote : Bool) (count rank dev job : Nat) (s : State) (j : JobRec),
      quillReady q (.semSignal sem remote count rank dev job) s = true → findJob (quill q s).job s = some j →
      ∃ g : Signal, g.sem = sem ∧ g.count = count ∧ g.remote = remote ∧ g.dev = dev ∧ g.job = job ∧ g.issue = (quill q s).issued
        ∧ g.rank = (if remote = false ∧ ((quill q s).rd 1).toNat = rank then (quill q s).rank else rank)
        ∧ exec (.semSignal q sem remote count rank dev job) s
          = .next (flushSignals q (retire q j { quill q s with sigs := (quill q s).sigs ++ [g], issued := (quill q s).issued + 1 } s)))
  ∧ (∀ (q scope group : Nat) (s : State) (j : JobRec), quillReady q (.barrier scope group) s = true → findJob (quill q s).job s = some j →
      (quill q s).arrived = false → writesDone q (quill q s).issued s = true → (quill q s).sigs = [] → (quill q s).st = .waiting ∨ armed 2 q 2 s = false →
      exec (.barrier q scope group) s
        = .next (barrierArrive j.d.id (quill q s).copyB scope group q
            (setQuill q { quill q (block q 2 s) with arrived := true } (block q 2 s))))
  ∧ (∀ (q mask : Nat) (s : State) (j : JobRec), quillReady q (.dmaWait mask) s = true → findJob (quill q s).job s = some j →
      (∀ b, b < 2 → natBit mask b = true → (chan (dmaChan q b) s).reqs = []) →
      exec (.dmaWait q mask) s = .next (retire q j (quill q s) s))

/-- The instructions of a Quill that move data, in the forms that go through at once and on this device. -/
def Obligations.QuillDataMovement : Prop :=
  (∀ (q ch : Nat) (nf nt : Bool) (sc src dst queue : Nat) (s : State) (j : JobRec) (c : OpCtx),
      quillReady q (.dma ch nf nt sc src dst queue) s = true → findJob (quill q s).job s = some j →
      opCtx j q (loopVals (quill q s)) (quill q s).scs (.dma (dmaChan q ch) (quill q s).issued) s = some c →
      (chan (dmaChan q ch) s).reqs.length < 16 → hazard c (c.bindsOf [src] s) (c.bindsOf [dst] s) s = false →
      ∃ r : DmaReq, r.loops = loopVals (quill q s) ∧ r.scs = (quill q s).scs ∧ r.quill = q ∧ r.job = j.d.id ∧ r.src = src ∧ r.dst = dst ∧ r.noFail = nf ∧ r.notify = nt ∧ r.queue = queue ∧ r.statusSc = sc
        ∧ r.seq = ((chan (dmaChan q ch) s).seq + 1) % 65536 ∧ r.issue = (quill q s).issued ∧ r.sent = false ∧ r.moved = 0
        ∧ exec (.dma q ch nf nt sc src dst queue) s
          = .next (chanBusy (dmaChan q ch) (retire q j { quill q s with issued := (quill q s).issued + 1 }
              (setChan (dmaChan q ch) { chan (dmaChan q ch) s with reqs := (chan (dmaChan q ch) s).reqs ++ [r], seq := r.seq }
                (forgetPartials j.d.id (quill q s).copyB (c.agp dst s).binding s)))))
  ∧ (∀ (q op : Nat) (nf : Bool) (sc dst val cmp agp old : Nat) (s t : State) (j : JobRec) (c : OpCtx) (a : Agp) (b : Binding),
      quillReady q (.atomic op nf sc dst val cmp agp) s = true → findJob (quill q s).job s = some j → (quill q s).atomic = none →
      reqOut (.atomic q) s = false → opCtx j q (loopVals (quill q s)) (quill q s).scs (.atomic q) s = some c → a = c.agp agp s →
      b = c.bind a.binding s → hazard c [a.binding] [a.binding] s = false →
      c.check agp b true (c.offset a 0) (elemAt a.fmt (c.offset a 0)).1 4 s = (true, t) → c.far b = false →
      old = rdLe t (b.addr % 2 ^ 48 + (elemAt a.fmt (c.offset a 0)).1.toNat) 4 →
      exec (.atomic q op nf sc dst val cmp agp) s
        = .next (let r := access 2 q 0 c.who .atomic (b.addr % 2 ^ 48 + (elemAt a.fmt (c.offset a 0)).1.toNat) 4
                   (leBytes 4 (atomicWord op (BitVec.ofNat 32 old) ((quill q s).rd val) ((quill q s).rd cmp)).toNat) t
                 atomicEnd q j nf sc dst r.1.status old (lastSeq t r.2) r.2))
  ∧ (∀ (q : Nat) (bl : Bool) (sc src queue : Nat) (s t u : State) (j : JobRec) (c : OpCtx) (l : List Nat),
      quillReady q (.qpush bl sc src queue) s = true → findJob (quill q s).job s = some j → (quill q s).copyB = false →
      opCtx j q (loopVals (quill q s)) (quill q s).scs (.queue q) s = some c → hazard c [(c.agp src s).binding] [] s = false →
      (bl = true → pushTurn queue q s = true) → c.gather [src] s = (some 0, t) →
      readElems c src (c.agp src s) (c.bind (c.agp src s).binding s) (c.agp src s).size 0 t
        = ((⟨0, 0⟩, l), u) →
      (bl = true → (pushRecord queue j.d.id (deviceId s) (packBits (c.agp src s).fmt l) (dropBufs c.use u)).1 ≠ 1) →
      exec (.qpush q bl sc src queue) s
        = .next (let p := pushRecord queue j.d.id (deviceId s) (packBits (c.agp src s).fmt l) (dropBufs c.use u)
                 queueEnd q j sc p.1 0 (lastSeq (dropBufs c.use u) p.2) (unwaitPush q p.2)))
  ∧ (∀ (q : Nat) (bl : Bool) (sc dst queue ptr len : Nat) (s t u w : State) (j : JobRec) (c : OpCtx) (a : Agp) (d : QDesc),
      quillReady q (.qpop bl sc dst queue) s = true → findJob (quill q s).job s = some j → s.qe.popWait.contains (queue, q) = false →
      opCtx j q (loopVals (quill q s)) (quill q s).scs (.queue q) s = some c → a = c.agp dst s → hazard c [a.binding] [a.binding] s = false →
      popStatus queue j.d.id (deviceId s) (a.size * fmtWidth a.fmt / 8) (qdUse queue s) = (0, ptr, len) →
      c.gather (if fmtWidth a.fmt % 8 = 0 then [] else [dst]) (qdUse queue s) = (some 0, t) → d = qDesc queue t →
      mcReadBlocks j.d.id (blocksOf (d.base + ptr % d.size) (len + 8)) t = (0, w) →
      popWrite c dst a (c.bind a.binding s) (recBytes d ptr len w)
          (advanceRd queue ((ptr + stride len) % (2 * d.size)) (forgetPartials j.d.id (quill q s).copyB a.binding w)) = (⟨0, 0⟩, u) →
      exec (.qpop q bl sc dst queue) s = .next (queueEnd q j sc 0 len 0 (dropBufs c.use u)))

/-- How a Quill's program ends. -/
def Obligations.QuillProgramEnds : Prop :=
  (∀ (q code : Nat) (s : State) (j : JobRec), quillReady q (.trap code) s = true → findJob (quill q s).job s = some j →
      exec (.trap q code) s
        = .next (failWith j.d.id { c := 2, i := q, bit := 11, code := 0x7104, job := j.d.id, payload := code + (quill q s).pc * 2 ^ 32 } s))
  ∧ (∀ (q : Nat) (s : State) (j : JobRec), quillReady q .stop s = true → findJob (quill q s).job s = some j →
      exec (.quillEnd q) s = .next (copyEnded j (quill q s).copyB (setQuill q { quill q s with ended := true, st := .running, wait := 0 } s)))
  ∧ (∀ (q : Nat) (s : State), (quill q s).st = .waiting → (quill q s).waitLimit ≠ 0 →
      exec (.semTimeout q) s
        = .next (failWith (quill q s).job
            { c := 2, i := q, bit := 2, code := 0x2100, job := (quill q s).job, payload := (quill q s).pc + (quill q s).wait * 2 ^ 32 }
            (advanceTo ((quill q s).waitStart + (quill q s).waitLimit * oneUs + 1) s)))

/-- What lets waiting Quills go on. -/
def Obligations.BarriersAndDmasComplete : Prop :=
  (∀ (job : Nat) (copyB : Bool) (group : Nat) (s : State) (b : BarrierInst),
      s.barriers.find? (fun b => b.job == job && b.copyB == copyB && b.scope == 0 && b.group == group) = some b → barrierFull b s = true → b.told = false →
      exec (.localBarrierRelease job copyB 0 group) s = .next (releaseBarrier b (b.last + 96) (advanceTo (b.last + 96) s)))
  ∧ (∀ (job : Nat) (copyB : Bool) (scope group m : Nat) (s : State) (b : BarrierInst) (e : BarrierGroup), scope ≠ 0 →
      s.barriers.find? (fun b => b.job == job && b.copyB == copyB && b.scope == scope && b.group == group) = some b → barrierFull b s = true → b.told = false →
      findGroup group (advanceTo (b.last + 96) s) = some e → e.members.findIdx? (fun x => x == (deviceId (advanceTo (b.last + 96) s), job)) = some m →
      exec (.localBarrierRelease job copyB scope group) s
        = .next (let t := { advanceTo (b.last + 96) s with
                     barriers := (advanceTo (b.last + 96) s).barriers.map (fun x => if x = b then { x with told := true } else x) }
                 if e.root = deviceId t then rootArrival group m copyB t else sendPktOf job 7 e.root [group, m, b2n copyB] t))
  ∧ (∀ (group R : Nat) (copyB : Bool) (s : State) (e : BarrierGroup), findGroup group s = some e → (if copyB then e.releaseB else e.releaseA) = some R →
      exec (.barrierReleaseTime group copyB) s
        = .next (let t := updGroup group (fun e => if copyB then { e with releaseB := none } else { e with releaseA := none }) (advanceToRing R s)
                 (t.barriers.filter (fun b => b.scope == 1 && b.group == group && b.copyB == copyB && b.told)).foldl
                   (fun acc b => releaseBarrier b acc.time.clk acc) t))
  ∧ (∀ (k n : Nat) (s t u : State) (r : DmaReq) (rest : List DmaReq) (j : JobRec) (c0 c : OpCtx) (a b : Agp), (chan k s).reqs = r :: rest →
      findJob r.job s = some j → opCtx j r.quill r.loops r.scs (.dma k r.issue) s = some c0 → c = { c0 with c := 1, i := k / 8, ctx := k % 8 } →
      a = c.agp r.src s → b = c.agp r.dst s → j.live = true → dmaRecordReady r s = true → writePending c [b.binding] r.issue s = false → r.sent = false →
      c.gather (if fmtWidth b.fmt % 8 = 0 then [r.src] else [r.src, r.dst]) s = (some 0, t) →
      dmaCopy c r.src r.dst a b (c.bind a.binding s) (c.bind b.binding s) a.size 0 t = ((⟨0, 0⟩, n), u) → reqOut c.use u = false →
      exec (.dmaComplete k) s = .next (dmaEnd k r 0 0 ((n * fmtWidth b.fmt + 7) / 8) 0 u))

/-- The rows of the tensor operations, by kind. -/
def Obligations.TensorOperationsRun : Prop :=
  (∀ (q : Nat) (bad : Option (Nat × Nat)) (s : State) (o : OpRun) (j : JobRec) (c : OpCtx), nextOp q s = some o → findJob (quill q s).job s = some j →
      quillWorks q s = true → opCtx j q o.loops o.scs (.op q o.issue) s = some c →
      (o.tod.kind = 1 → exec (.matmul ⟨q, bad⟩) s = .next (matmulRun bad c o s)) ∧ (o.tod.kind = 2 → exec (.conv ⟨q, bad⟩) s = .next (convRun bad c o s)))
  ∧ (∀ (q : Nat) (s : State) (o : OpRun) (j : JobRec) (c : OpCtx), nextOp q s = some o → findJob (quill q s).job s = some j → quillWorks q s = true →
      opCtx j q o.loops o.scs (.op q o.issue) s = some c → writePending c (c.bindsOf o.tod.writes s) o.issue s = false →
      (o.tod.kind = 3 → exec (.poolResize q) s = .next (poolResizeRun c o s)) ∧ (o.tod.kind = 4 → exec (.attentionFwd q) s = .next (attnFwdRun c o s))
        ∧ (o.tod.kind = 5 → exec (.attentionBwd q) s = .next (attnBwdRun c o s)) ∧ (o.tod.kind = 6 → exec (.eltwise q) s = .next (eltwiseRun c o s))
        ∧ (o.tod.kind = 7 → exec (.reduce q) s = .next (reduceRun q c o s)) ∧ (o.tod.kind = 8 → exec (.optStep q) s = .next (optStepRun c o s)))
  ∧ (∀ (q fl : Nat) (s t : State) (o : OpRun) (rest : List OpRun) (j : JobRec) (c : OpCtx), (quill q s).ops = o :: rest → findJob (quill q s).job s = some j →
      o.ran = true → o.drained = false → quillWorks q s = true → opCtx j q o.loops o.scs (.op q o.issue) s = some c →
      writePending c (c.bindsOf o.tod.writes s) o.issue s = false → drainOuts c o s = ((⟨0, 0⟩, fl), t) →
      exec (.tensorOpDrain q) s
        = .next (let t1 := if o.tod.accOut = 1 ∧ o.tod.floatPath = false ∧ (o.tod.kind = 1 ∨ o.tod.kind = 2)
                           then notePartials c.job c.copyB (c.agp o.tod.agpC t).binding o.unit t else t
                 let u := endEvents c o (orNumeric c.job fl t1)
                 opDone q o.issue (if o.tod.accOut = 1 then u else addCtr 1 (q / 4) 0x48 o.outs.length u)))

/-- The rows of the job lifecycle, each where it moves its job on. -/
def Obligations.JobsMoveOn : Prop :=
  (∀ (q : Nat) (b : List Byte) (s s1 : State), (qDesc q s).enabled = true → (qDesc q s).consumer = 3 → blockEnabled 15 0 s = true → memUp s = true →
      engineTake q s = some (b, s1) → b.length = 128 → descVerdict b s = none → fenced s = false →
      exec (.jobDescriptor q) s
        = .next (let t := { s1 with arrivals := s1.arrivals + 1 }
                 { t with jobs := t.jobs ++ [JobRec.make (JobDesc.read b) q t.arrivals (qDesc (JobDesc.read b).chainQ t).notices] }))
  ∧ (∀ (s : State) (j : JobRec), admissionHeld s = false → s.qe.stFull = false → fenced s = false → blockEnabled 15 0 s = true → bootReady s = true →
      pickHead ((queueHeads s).filter (fun j => j.status == 0 && (!bindingsInShares j.d s || (safetyFault j.d s).isSome || available j.d s))) s = some j →
      bindingsInShares j.d s = true → safetyFault j.d s = none →
      exec .jobAdmit s = .next (admitJob j s))
  ∧ (∀ (id : Nat) (s : State) (j : JobRec), findJob id s = some j → j.phase = .admitted → admissionHeld s = false → j.validated = true → chainMet j s = true →
      exec (.jobRunStart id) s
        = .next (let t := if j.d.det then advanceToRing (rotationAfter (ringNow s)) s else s
                 let u := j.quills.foldl (fun acc q => startQuill t.time.clk q
                   (setQuill q { quill q acc with pc := copiedEntry j q t } acc)) t
                 markNow id (updJob id (fun k => { k with phase := .running, start := devNow t, unrec := natBit (rdReg 13 0 0x50 t).toNat 0 }) u)))
  ∧ (∀ (q t : Nat) (s : State), (quill q s).startAt = some t →
      exec (.waveStart q) s = .next (setQuill q { quill q (advanceTo t s) with startAt := none } (advanceTo t s)))
  ∧ (∀ (n : Nat) (s : State), (spad n s).pendShares = [] → (spad n s).pendUnits ≠ [] →
      exec (.zeroFillDone n) s
        = .next (let p := { fillErrors (spad n (fillLines n s)) with pendShares := [], pendUnits := [] }
                 showArea n ((filledBadRows (spad n s)).foldl (fun acc r => spareRow n r acc)
                   (setSpad n { p with wins := p.wins.map (fun w => (w.1, if windowFreed n w.2 s then { w.2 with state := .free } else w.2)) } (fillLines n s)))))
  ∧ (∀ (id : Nat) (s : State) (j : JobRec), findJob id s = some j → complReady j.d.complQ s = true → j.phase = .running → jobDrained j s = true →
      jobPackets id s = false → fineBusy id s = false → (j.d.safety = true → j.compared = true) →
      exec (.jobDone id) s = .next (complete j (releaseQuills j (releaseLines j (closeWindows id (leaveWaits j s))))))
  ∧ (∀ (id : Nat) (s : State) (j : JobRec), findJob id s = some j → complReady j.d.complQ s = true → j.phase = .scrubbing → linesFilled j s = true →
      jobPackets id s = false → fineBusy id s = false →
      exec (.jobDone id) s = .next (complete j (releaseQuills j s)))

/-- The cache commands of opcodes 1 to 6, in their successful forms. -/
def Obligations.CacheContextCommands : Prop :=
  (∀ (s : State) (c : CcCmd) (d : CtxDesc), ccHead s = some c → c.ok = true → c.op = 1 → (ctxDesc c.ctx s).state = 0 →
      d = { state := 1, kFmt := byteAt c.b 24 % 16, vFmt := byteAt c.b 24 / 16, heads := byteAt c.b 25, dim32 := byteAt c.b 26, kvX := byteAt c.b 27,
            layers := leField c.b 28 2, pt := leField c.b 32 6, ptStride := leField c.b 40 4, gen := (ctxDesc c.ctx s).gen } →
      c.unused [(24, 30), (32, 38), (40, 44)] = true → ctxFieldsOk d s = true →
      exec .ctxOpen s = .next (ccEnd c ccOk s (putCtx c.ctx d s)))
  ∧ (∀ (s : State) (c : CcCmd), ccHead s = some c → c.ok = true → c.op = 2 → (ctxDesc c.ctx s).state = 1 → c.unused [] = true →
      exec .ctxClose s
        = .next (ccEnd c ccOk s (
            let d := ctxDesc c.ctx s
            let s1 := releaseBlocks d 0 (blocksFor d.reserved) s
            let s2 := putCtx c.ctx { d with state := 2, stamp := newStamp s1 } s1
            wantAdvance { s2 with cc := { s2.cc with limboCtxs := s2.cc.limboCtxs ++ [(c.ctx, newStamp s1)] } })))
  ∧ (∀ (s : State) (c : CcCmd) (d : CtxDesc) (fs : List ((Nat × Nat) × Nat)), ccHead s = some c → c.ok = true → c.op = 3 → c.arg0 < 2 ^ 18 →
      (ctxDesc c.arg0 s).state = 1 → (ctxDesc c.arg0 s).reserved = (ctxDesc c.arg0 s).len → (ctxDesc c.ctx s).state = 0 → c.arg1 ≤ (ctxDesc c.arg0 s).len →
      d = { ctxDesc c.arg0 s with state := 1, len := c.arg1, reserved := c.arg1, pt := leField c.b 32 6, ptStride := leField c.b 40 4, stamp := 0,
                                  gen := (ctxDesc c.ctx s).gen } →
      c.unused [(32, 38), (40, 44)] = true → d.pt % 4 = 0 → 1 ≤ d.ptStride → d.ptStride ≤ 65536 → c.arg1 ≤ d.ptStride * 16 →
      fs = ctxFolios (ctxDesc c.arg0 s) (blocksFor c.arg1) s →
      (∀ e ∈ fs, e.2 ≠ nullIdx → (folio e.2 s).refs + (fs.filter (fun x => x.2 == e.2)).length ≤ 65535) →
      exec .ctxFork s
        = .next (ccEnd c ccOk s (putCtx c.ctx d (fs.foldl (fun acc e =>
            let a := putPt d e.1.1 e.1.2 e.2 acc
            if e.2 = nullIdx then a else let x := folio e.2 a; putFolio e.2 { x with refs := x.refs + 1 } a) s))))
  ∧ (∀ (s t : State) (c : CcCmd) (d : CtxDesc) (lo hi : Nat), ccHead s = some c → c.ok = true → c.op = 4 → d = ctxDesc c.ctx s → d.state = 1 → 1 ≤ c.arg0 →
      c.arg0 ≤ 4096 → c.unused [] = true → d.reserved + c.arg0 ≤ d.ptStride * 16 → lo = d.reserved / 16 → hi = blocksFor (d.reserved + c.arg0) →
      armed 6 0 30 s = false → d.layers * (hi - lo) ≤ s.cc.freeFolios.length → d.layers * (hi - lo) ≤ s.cc.freeSlots.length →
      foldSome (fun e a => appendBlock d e.1 e.2 a)
        ((List.range d.layers).flatMap (fun l => (List.range (hi - lo)).map (fun b => (l, lo + b)))) s = some t →
      exec .append s = .next (ccEnd c ccOk s (putCtx c.ctx { d with reserved := d.reserved + c.arg0 } t)))
  ∧ (∀ (s t : State) (c : CcCmd) (d : CtxDesc) (path : List Nat) (moves : List (Nat × Nat)), ccHead s = some c → c.ok = true → c.op = 5 →
      d = ctxDesc c.ctx s → d.state = 1 → c.arg0 ≤ 32 → c.unused [(24, 24 + c.arg0)] = true →
      path = (List.range c.arg0).map (fun j => byteAt c.b (24 + j)) →
      (∀ p ∈ path, d.len + p < d.reserved) → moves = ((List.range c.arg0).zip path).filter (fun m => m.1 != m.2) →
      foldSome (fun e a => cow d e.1 e.2 a)
        ((List.range d.layers).flatMap (fun l => ((moves.map (fun m => (d.len + m.1) / 16)).eraseDups).map (fun b => (l, b)))) s = some t →
      exec .commit s
        = .next (ccEnd c ccOk s (putCtx c.ctx { d with len := d.len + c.arg0, reserved := d.len + c.arg0 }
            (releaseBlocks d (blocksFor (d.len + c.arg0)) (blocksFor d.reserved)
              (moves.foldl (fun acc m => (List.range d.layers).foldl (fun a l => moveToken d l (d.len + m.2) (d.len + m.1) a) acc) t)))))
  ∧ (∀ (s : State) (c : CcCmd) (d : CtxDesc), ccHead s = some c → c.ok = true → c.op = 6 → d = ctxDesc c.ctx s → d.state = 1 → c.unused [] = true →
      c.arg0 ≤ d.len →
      exec .truncate s
        = .next (ccEnd c ccOk s (putCtx c.ctx { d with len := c.arg0, reserved := c.arg0 } (releaseBlocks d (blocksFor c.arg0) (blocksFor d.reserved) s))))

/-- The cache's Folio life cycle. -/
def Obligations.CacheFoliosAndTickets : Prop :=
  (∀ (s : State) (c : CcCmd) (sl : Nat) (ss : List Nat), ccHead s = some c → c.ok = true → c.op = 7 → c.arg0 < rdField 6 0 0x420 23 0 s → c.unused [] = true →
      (folio c.arg0 s).state = 1 → s.cc.freeSlots = sl :: ss → s.cc.tickets.length < 512 →
      exec .reinkBegin s
        = .next (let t := putFolio c.arg0 { folio c.arg0 s with state := 3 }
                   { s with cc := { s.cc with freeSlots := ss, reinks := s.cc.reinks ++ [(c.arg0, sl)] } }
                 ccEnd c { ccOk with value := sl + (folio c.arg0 t).gen * 2 ^ 24 } s (takeTicket (.reink c.arg0 sl c.job) [] t)))
  ∧ (∀ (s : State) (c : CcCmd) (x : FolioDesc), ccHead s = some c → c.ok = true → c.op = 8 → s.cc.reinks.contains (c.arg0, c.arg1) = true → c.unused [(24, 26)] = true →
      kvFmtOk (byteAt c.b 24 % 16) = true → kvFmtOk (byteAt c.b 24 / 16) = true → x = folio c.arg0 s → x.state = 3 → x.gen = byteAt c.b 25 →
      exec .reinkEnd s
        = .next (ccEnd c ccOk s (slotLimbo x.slot
            (putFolio c.arg0 { x with slot := c.arg1, kFmt := byteAt c.b 24 % 16, vFmt := byteAt c.b 24 / 16, state := 1 }
              (dropTicket (isReink c.arg0 c.arg1) { s with cc := { s.cc with reinks := s.cc.reinks.filter (fun e => e != (c.arg0, c.arg1)) } })))))
  ∧ (∀ (s : State) (c : CcCmd), ccHead s = some c → c.ok = true → c.op = 9 → s.cc.reinks.contains (c.arg0, c.arg1) = true → c.unused [] = true →
      exec .reinkAbort s
        = .next (ccEnd c ccOk s (slotLimbo c.arg1 (
            let t := dropTicket (isReink c.arg0 c.arg1) { s with cc := { s.cc with reinks := s.cc.reinks.filter (fun e => e != (c.arg0, c.arg1)) } }
            if (folio c.arg0 s).state = 3 then putFolio c.arg0 { folio c.arg0 s with state := 1 } t else t))))
  ∧ (∀ (q : Nat) (s t u : State) (o : OpRun) (j : JobRec) (c : OpCtx) (es : List AttnEntry) (ps : List Int), wantsTicket q s = some o →
      findJob (quill q s).job s = some j → ccOn s = true → quillWorks q s = true → s.cc.tickets.length < 512 →
      opCtx j q o.loops o.scs (.op q o.issue) s = some c → attnEntries c (AttnPar.read o.tod.tail) s = (some es, t) →
      attnParents c (AttnPar.read o.tod.tail) es t = (some ps, u) → launchFault o.tod (AttnPar.read o.tod.tail) es ps u = none →
      exec (.ticketGrant q) s
        = .next (updOp q o.issue (fun x => { x with ticket := some u.cc.launches })
            (takeTicket (.launch u.cc.launches)
              (es.map (fun e => { ctx := e.ctx, len := (ctxDesc e.ctx u).len, reserved := (ctxDesc e.ctx u).reserved,
                                  entries := snapEntries (ctxDesc e.ctx u) (AttnPar.read o.tod.tail).layer u }))
              { u with cc := { u.cc with launches := u.cc.launches + 1, waiting := u.cc.waiting.filter (fun x => x != q) } })))
  ∧ (∀ s : State, exec .ticketReturn s = .next { s with cc := { s.cc with tickets := s.cc.tickets.filter (fun t => !ticketOver t s) } })
  ∧ (∀ (s : State) (f st : Nat) (r : List (Nat × Nat)), s.cc.limboFolios = (f, st) :: r → stampReached st s = true →
      exec (.limboReclaim 0) s
        = .next (let t := linkTail s.cc.freeFolios f (putFolio f { folio f s with state := 0, next := nullIdx } s)
                 { t with cc := { t.cc with limboFolios := r, freeFolios := t.cc.freeFolios ++ [f] } }))
  ∧ (∀ (s : State) (f st : Nat) (r : List (Nat × Nat)), s.cc.limboSlots = (f, st) :: r → stampReached st s = true →
      exec (.limboReclaim 1) s = .next { s with cc := { s.cc with limboSlots := r, freeSlots := s.cc.freeSlots ++ [f] } })
  ∧ (∀ (s : State) (c st : Nat) (r : List (Nat × Nat)), s.cc.limboCtxs = (c, st) :: r → stampReached st s = true →
      exec (.limboReclaim 2) s
        = .next (let t := wrBytes (ccAddr 0x404 s + 64 * c) { ctxDesc c s with state := 0 }.bytes s
                 { t with cc := { t.cc with limboCtxs := r } }))

/-- The register rows, each through regCheck or regAt, which hold every access rule. -/
def Obligations.RegisterCommandsTakeEffect : Prop :=
  (∀ (r : Req) (addr size v c i off : Nat) (s : State), regPage addr = some (c, i, off) → ¬(c = 12 ∧ off = 0x6C) → regCheck r true addr size s = (0, s) →
      exec (.registerWrite r addr size v) s = .next (regEffect r c i off (BitVec.ofNat 32 v) s).2)
  ∧ (∀ (r : Req) (addr v i : Nat) (s : State), regPage addr = some (12, i, 0x6C) →
      exec (.registerWrite r addr 4 v) s = .next (snCmdWrite r (BitVec.ofNat 32 v) s).2)
  ∧ (∀ (r : Req) (addr size c i off : Nat) (s : State), regPage addr = some (c, i, off) → regCheck r false addr size s = (0, s) →
      exec (.readClear r addr size) s = .next (regReadEffect r c i off s))
  ∧ (∀ (r : Req) (c i lo : Nat) (s : State), (counterLos c i).contains lo = true → regAt r false c i lo s = (0, s) →
      exec (.counterLoRead r c i lo) s = .next (regReadEffect r c i lo s))
  ∧ (∀ (r : Req) (c i : Nat) (s : State), regAt r true c i 8 s = (0, s) → resetRefused r c i s = false →
      exec (.softReset r c i) s = .next (softReset c i s))
  ∧ (∀ (c i : Nat) (s : State), s.resetting.contains (pageNo c i) = true →
      exec (.softResetDone c i) s = .next (wrField c i 8 1 1 0 { s with resetting := s.resetting.filter (fun k => k != pageNo c i) }))
  ∧ (∀ (r : Req) (c i : Nat) (s : State), regAt r true c i 8 s = (0, s) → (blockEnabled c i s = true → resetRefused r c i s = false) →
      exec (.blockDisable r c i) s = .next (wrField c i 8 0 0 0 s))
  ∧ (∀ (r : Req) (c i v b : Nat) (s : State) (e : EvRow), regAt r true c i 0x18 s = (0, s) → injectOk r c i (BitVec.ofNat 32 v) s = true →
      b = Word.field (BitVec.ofNat 32 v) 4 0 → evRow c i b = some e → ¬(c = 13 ∧ b = 7) →
      exec (.eventInject r c i v) s
        = .next (if natBit (BitVec.ofNat 32 v).toNat 5 = true ∧ e.fault = true then provoke c i b s else reportOnly c i b e.code s))
  ∧ (∀ (r : Req) (allow : Bool) (s : State), regAt r true 0 0 0x6C s = (0, s) → (allow = true → s.sn.safeOut = true → r = .checker) →
      exec (.injectAllowWrite r allow) s
        = .next (wrReg 0 0 0x6C (if allow then 1 else 0) { s with sn := { s.sn with allowSet := allow && r == .checker } }))
  ∧ (∀ (r : Req) (q v : Nat) (s : State), regAt r true 2 q 0x58 s = (0, s) → Word.field (BitVec.ofNat 32 v) 31 16 = 0x7E71 →
      exec (.nibRetire r q v) s = .next (markNib q (Word.field (BitVec.ofNat 32 v) 3 0) (natBit (BitVec.ofNat 32 v).toNat 4) 0 s))
  ∧ (∀ (q n : Nat) (s : State), q < 192 → (quill q s).sparePending = true → (quill q s).st = .free → (bitList 16 (quill q s).failed).head? = some n →
      exec (.nibSpared q) s
        = .next (saveNibs q (raise { c := 2, i := q, bit := 1, code := 0x1100, ctx := n, payload := n + nsIndex q % 512 * 16 + 2 ^ 13 }
            (setQuill q { quill q s with spared := n, nsInUse := true, sparePending := false } s))))

/-- The rows of gPTP. Each clause concludes that the command completes, in the state that the rules give. The cut of the path delay at the register's width and
the frame that measures it are the model's choice (log entries 16 and 17). -/
def Obligations.GptpMovesDeviceTime : Prop :=
  (∀ (p ns : Nat) (s t : State), p < 2 → hostUp p s = true →
      t = wrField 14 (1 - p) 0x70 1 1 0 (wrField 14 p 0x70 1 1 1 { s with time := { s.time with lastSync := some s.time.clk } }) →
      (devNow t < ns → 1000000 < ns - devNow t ∨ t.time.everLocked = false → exec (.gptpSync p ns) s = .next (timeStep ns t))
      ∧ (devNow t < ns → ns - devNow t ≤ 1000000 → t.time.everLocked = true →
          exec (.gptpSync p ns) s
            = .next { t with time := { t.time with offset := (devNow t : Int) - (ns : Int), locked := decide (ns - devNow t ≤ 1000), slew := .fast,
                                                   slewLeft := (ns - devNow t) * 6000 } })
      ∧ (ns ≤ devNow t → devNow t - ns ≤ 1000 →
          exec (.gptpSync p ns) s
            = .next { t with time := { t.time with offset := (devNow t : Int) - (ns : Int), locked := true, everLocked := true, slew := .none,
                                                   slewLeft := 0 } })
      ∧ (ns + 1000 < devNow t →
          exec (.gptpSync p ns) s
            = .next { t with time := { t.time with offset := (devNow t : Int) - (ns : Int), locked := false, slew := .slow,
                                                   slewLeft := (devNow t - ns - 1000) * 6000 } }))
  ∧ (∀ (s : State) (k : Nat), s.time.lastSync = some k →
      exec .gptpSyncTimeout s
        = .next (let t := advanceTo (k + 3000000 * oneUs) s
                 wrField 14 0 0x70 1 1 0 (wrField 14 1 0x70 1 1 0
                   { t with time := { t.time with locked := false, slew := .none, slewLeft := 0, lastSync := none } })))
  ∧ (∀ (p ns : Nat) (s : State), p < 2 → hostUp p s = true →
      exec (.pdelayMeasure p (some ns)) s
          = .next (wrField 14 p 0x70 31 16 (min ns 0xFFFF) (wrField 14 p 0x70 0 0 1 (sendTo 0 p gptpGroup 10 0 0 0 0 0 [] s)))
      ∧ exec (.pdelayMeasure p none) s = .next (wrField 14 p 0x70 0 0 0 (sendTo 0 p gptpGroup 10 0 0 0 0 0 [] s)))

/-- Three commands on the device-wide state. Each clause concludes that the command completes, in the state that the rules give. -/
def Obligations.WarmResetLostEventsAndCacheEnable : Prop :=
  (∀ (r : Req) (v : Nat) (s : State), regAt r true 0 0 0x70 s = (0, s) → Word.field (BitVec.ofNat 32 v) 15 0 = 0x5AFE →
      exec (.warmReset r v) s = .next (resetDevice 2 0 (trip 10 0 s)))
  ∧ (∀ s t : State, memUp s = true → 0 < s.ev.lostPending → (qDesc (eventQueue s) s).enabled = true → 65 ≤ eventSlots s → ovfHasEvents s = false →
      t = wrReg 0 0 0x10 (rdReg 0 0 0x10 s ||| (1 <<< 5)) { s with ev := { s.ev with lostPending := 0 } } →
      natBit (rdReg 0 0 0x14 t).toNat 5 = false →
      exec .eventsLost s
        = .next (eventToQueue { c := 0, i := 0, bit := 5, code := 0x0001, payload := min s.ev.lostPending 0x7FFFFFFF * 2 ^ 64 } t))
  ∧ (∀ (r : Req) (q : Nat) (s : State), regAt r true 6 0 0x400 s = (0, s) → ccOn s = false →
      exec (.ccEnable r q) s = .next (buildLists (wrReg 6 0 0x400 (BitVec.ofNat 32 (2 ^ 31 + q % 2 ^ 20) &&& 0x800FFFFF) s)))

/-- The rows of the scratchpads. -/
def Obligations.InkwellCommands : Prop :=
  (∀ (w : Who) (k : Acc3) (addr len : Nat) (data : List Byte) (u : Upset) (s : State), spadBase ≤ addr → addr + len ≤ spadTop → 1 ≤ len → len ≤ 256 →
      spadOff addr + len ≤ 0x800000 → (k ≠ .read → data.length = len) → w ≠ .debug →
      exec (.spadRequest w k addr len data u) s
        = .next (let t := spadUpset (spadOf addr) u s
                 let a := access 3 (spadOf addr) (spadOff addr / 0x80000) w k addr len data t
                 requestEnd w a.1.status t a.2))
  ∧ (∀ (r : Req) (n idx : Nat) (s : State), regAt r true 3 n 0x70 s = (0, s) → idx = rdField 3 n 0x4C 6 0 s →
      (windowOpenOk n idx (stagedBytes 3 n 0x50 8 s) s = true →
        exec (.windowOpen r n) s
          = .next (setSpad n ((spad n s).setWin idx { windowOf (stagedBytes 3 n 0x50 8 s) with state := .opened, refused := 0 }) s))
      ∧ (((spad n s).win idx).state = .opened →
        exec (.windowClose r n) s = .next (setSpad n ((spad n s).setWin idx { (spad n s).win idx with state := .closed }) s)))
  ∧ (∀ (n w : Nat) (s : State), ((spad n s).win w).state = .opened → ((spad n s).win w).expiry ≠ 0 →
      exec (.windowExpiry n w) s = .next (advanceToDev ((spad n s).win w).expiry s))
  ∧ (∀ (r : Req) (n b owner : Nat) (s : State), regAt r true 3 n 0x44 s = (0, s) → b < 16 → owner < 65536 →
      (bankCmdOk n b owner true s = true → ((spad n s).bank b).st = .on →
        exec (.bankPowerDown r n b owner) s = .next (bankTo n b .draining owner (closeBank n b s)))
      ∧ (bankCmdOk n b owner false s = true → ((spad n s).bank b).st = .off → exec (.bankWake r n b owner) s = .next (bankTo n b .waking owner s)))
  ∧ (∀ (n b : Nat) (s : State), ((spad n s).bank b).st = .draining → ((spad n s).bank b).heldOp = false →
      exec (.bankDrained n b) s = .next (bankTo n b .off ((spad n s).bank b).req (advanceTo (((spad n s).bank b).since + 2 * 16) s)))
  ∧ (∀ (n b : Nat) (s : State), ((spad n s).bank b).st = .waking → ((spad n s).bank b).heldOp = false →
      exec (.bankWakeDone n b) s
        = .next (let t := zeroBytes (spadAddr n (b * 0x80000)) 0x80000 (advanceTo (((spad n s).bank b).since + 2 * 9692) s)
                 let inB := fun w => w / 0x80000 == b
                 bankTo n b .on ((spad n s).bank b).req
                   (((spad n t).badRows inB).foldl (fun acc r => spareRow n r acc) (setSpad n ((spad n t).clean inB) t))))
  ∧ (∀ (r : Req) (n : Nat) (s : State), regAt r true 3 n 0x94 s = (0, s) →
      (debugOpen s = true → exec (.holdFill r n true) s = .next (wrReg 3 n 0x94 1 s))
      ∧ exec (.holdFill r n false) s = .next (releaseHeld n (wrReg 3 n 0x94 0 s)))
  ∧ (∀ (n b w : Nat) (u : Upset) (s t v : State), b < 16 → ((spad n s).bank b).st = .on ∨ ((spad n s).bank b).st = .draining →
      w = b * 0x80000 + ((spad n s).bank b).pos * 8 → t = spadUpset n u (spadWriteBack n b s) →
      v = (if (spad n t).writtenNow w t.time.clk then t else scrubWord n b w t) →
      exec (.scrubStep n b u) s
        = .next (setSpad n ((spad n v).setBank b { (spad n v).bank b with
            pos := (((spad n v).bank b).pos + 1) % 65536,
            passes := if ((spad n v).bank b).pos + 1 = 65536 then ((spad n v).bank b).passes + 1 else ((spad n v).bank b).passes }) v))

/-- The rows of the memory controllers. -/
def Obligations.MemoryControllerCommands : Prop :=
  (∀ (m pos ch start wait d : Nat) (asks cand : List MemAsk) (work : List (Bool × MemAsk)) (rows : List Nat) (link : LinkErr) (u : Upset) (s : State),
      mcRuns m s = true → pos < 64 → cand = slotQueue m pos asks s →
      start = (nextSlot pos (cand.head?.map (fun q => (mcLoc (askAddr q)).ch)) (ringNow s)).2 →
      ch = (pos + (nextSlot pos (cand.head?.map (fun q => (mcLoc (askAddr q)).ch)) (ringNow s)).1) % 8 → work = slotWork m pos ch start cand s →
      rows = work.flatMap (fun q => slotRows (askAddr q.2) s) → wait = rows.foldl (fun x r => max x (bankWait m start r s)) 0 →
      (∀ j, slotOwner pos s = some j → d = max wait (Tbl.get 0 (mc m s).delay ch) → work ≠ [] → d ≠ 0 →
        exec (.memorySlot m pos asks link u) s
          = .next (slotRun m link work (deferred m j (mcUpset u (slotOpen m ch start d true rows (advanceToRing (start + d) s))))))
      ∧ (∀ j, slotOwner pos s = some j → d = max wait (Tbl.get 0 (mc m s).delay ch) → work = [] ∨ d = 0 →
        exec (.memorySlot m pos asks link u) s
          = .next (slotRun m link work (mcUpset u (slotOpen m ch start d true rows (advanceToRing (start + d) s)))))
      ∧ (slotOwner pos s = none →
        exec (.memorySlot m pos asks link u) s
          = .next (slotRun m link work (mcUpset u (slotOpen m ch start wait false rows (advanceToRing (start + wait) s))))))
  ∧ (∀ (m ch b bank due post : Nat) (s : State), mcRuns m s = true → ch < 8 → b < 32 → bank = ch * 32 + b → due = Tbl.get 0 (mc m s).refreshed bank + refreshInterval m s →
      post = Tbl.get 0 (mc m s).postponed bank →
      (∀ t, Tbl.get 0 (mc m s).delay ch ≠ 0 → post < Config.maxPostponed → t = advanceTo due s →
        exec (.refresh m ch b) s
          = .next (mcRefreshReg m (setMc m { mc m t with postponed := Tbl.set 0 (mc m s).postponed bank (post + 1),
                                                         refreshed := Tbl.set 0 (mc m s).refreshed bank due } t)))
      ∧ (∀ (t u : State) (at0 start : Nat), Tbl.get 0 (mc m s).delay ch = 0 ∨ Config.maxPostponed ≤ post →
        (mc m s).pend.any (fun e => (slotRows e.2.1 s).any (fun r => r / 65536 == bank)) = false → t = (if post = 0 then advanceTo due s else s) →
        at0 = (ringNow t + 101) / 102 * 102 →
        start = (if (Tbl.get (0, []) (mc m s).lastSlot ch).1 = at0 ∧ (Tbl.get (0, []) (mc m s).lastSlot ch).2.contains bank = true
                 then at0 + 102 else at0) →
        u = advanceToRing start t →
        exec (.refresh m ch b) s
          = .next (mcRefreshReg m (setMc m { mc m u with postponed := Tbl.set 0 (mc m u).postponed bank (post - 1),
                                                         refreshed := if post = 0 then Tbl.set 0 (mc m u).refreshed bank due else (mc m u).refreshed,
                                                         refEnd := Tbl.set 0 (mc m u).refEnd bank (start + 140) } u))))
  ∧ (∀ (m temp : Nat) (s : State), m < 8 →
      (85 < signed 8 temp → rdField 4 m 0x50 17 16 s ≠ 2 →
        exec (.refreshRateChange m temp) s
          = .next (raise { c := 4, i := m, bit := 8, code := 0x0500, payload := 2 + temp % 256 * 4 } (wrField 4 m 0x50 17 16 2 (wrField 4 m 0x54 7 0 temp s))))
      ∧ (signed 8 temp < 82 → rdField 4 m 0x50 17 16 s ≠ 1 →
        exec (.refreshRateChange m temp) s
          = .next (raise { c := 4, i := m, bit := 8, code := 0x0500, payload := 1 + temp % 256 * 4 } (wrField 4 m 0x50 17 16 1 (wrField 4 m 0x54 7 0 temp s))))
      ∧ (82 ≤ signed 8 temp → signed 8 temp ≤ 85 → exec (.refreshRateChange m temp) s = .next (wrField 4 m 0x54 7 0 temp s)))
  ∧ (∀ (m p start d due : Nat) (rows : List Nat) (u : Upset) (s v t : State), mcRuns m s = true → (mc m s).filling = false → p = (mc m s).patrol →
      p + 1 < mcUnits s → due = (mc m s).patrolAt + patrolEvery m s → v = advanceTo due s → nextFree (p % 8) (ringNow v) v = some start →
      rows = slotRows (mcUnitAddr m p / 64 * 64) v → d = rows.foldl (fun x r => max x (bankWait m start r v)) 0 →
      t = (List.range 32).foldl (fun acc k => patrolBlock (rdField 4 m 0x5C 31 16 s) (mcUnitAddr m p / 64 + k) acc)
            (mcUpset u (slotOpen m (p % 8) start d false rows (advanceToRing (start + d) v))) →
      exec (.patrolScrub m u) s
        = .next (wrReg 4 m 0x5C (BitVec.ofNat 32 (rdField 4 m 0x5C 31 16 s * 65536 + (p + 1) * 65536 / mcUnits s))
            (setMc m { mc m t with patrol := p + 1, patrolAt := max due s.time.clk } t)))
  ∧ (∀ (r : Req) (m bank row : Nat) (s : State), regAt r true 4 m 0x88 s = (0, s) →
      exec (.rowSpareForce r m bank row) s = .next (wrSpareSel m (BitVec.ofNat 32 (2 ^ 31 + row % 65536 * 256 + bank % 256)) s))
  ∧ (∀ (m bank row left : Nat) (s t u : State), (mc m s).copying.contains (bank * 65536 + row) = true → (mc m s).left bank = left + 1 →
      t = setMc m ((mc m s).rowSpared bank row (rowUnitBlock m bank row / 32) left)
            ((((List.range 32).map (fun i => rowUnitBlock m bank row / 32 * 32 + i)).filter (fun x => (mc m s).bad.contains x)).foldl
              (fun acc x => freeAt (x * 64) 64 acc) s) →
      u = raise { c := 4, i := m, bit := 7, code := 0x1502, ctx := bank / 16, payload := row + bank % 16 * 2 ^ 16 + left * 2 ^ 20 }
            (wrField 4 m 0x88 31 31 (b2n (!(mc m t).forced.isEmpty)) t) →
      left ≠ 0 →
      exec (.rowSpareDone m bank row) s = .next (askSetting 4 (.mcRows m (mc m u).spared) u))
  ∧ (∀ (m ms stage : Nat) (s t : State), m < 8 → rdField 4 m 0x44 1 0 s = 0 →
      (canRestore m s = true → inlineEcc t = false →
        t = raise { c := 4, i := m, bit := 9, code := 0x0501, payload := 1 + ms % 65536 * 4 }
              (wrReg 4 m 0x44 (BitVec.ofNat 32 (1 + 1 * 4 + ms % 65536 * 65536)) s) →
        exec (.mcTrained m false true ms stage) s = .next t)
      ∧ (canRestore m s = true → exec (.mcTrained m false false ms stage) s = .next (setMc m { mc m s with restoreFailed := true } s))
      ∧ (canRestore m s = false → inlineEcc (askSetting 3 (.train m (stackSerial m t) (rdField 4 m 0x54 7 0 t))
            (setMc m { mc m t with trainRec := some (stackSerial m t, rdField 4 m 0x54 7 0 t) } t)) = false →
        t = raise { c := 4, i := m, bit := 9, code := 0x0501, payload := 2 + ms % 65536 * 4 }
              (wrReg 4 m 0x44 (BitVec.ofNat 32 (1 + 2 * 4 + ms % 65536 * 65536)) s) →
        exec (.mcTrained m true true ms stage) s
          = .next (askSetting 3 (.train m (stackSerial m t) (rdField 4 m 0x54 7 0 t))
              (setMc m { mc m t with trainRec := some (stackSerial m t, rdField 4 m 0x54 7 0 t) } t)))
      ∧ (canRestore m s = false →
        t = fenceFor 2 (raise { c := 4, i := m, bit := 12, code := 0x3502, payload := stage % 256 } (wrReg 4 m 0x44 (BitVec.ofNat 32 (2 + ms % 65536 * 65536)) s)) →
        exec (.mcTrained m true false ms stage) s = .next t))
  ∧ (∀ (m : Nat) (s : State), (mc m s).filling = true → exec (.eccFillDone m) s = .next (setMc m { mc m s with filling := false } s))

/-- The rows of the Queue Engine. -/
def Obligations.QueueCommands : Prop :=
  (∀ (q num start : Nat) (s t : State) (p : Pkt), openPkt q num s = some p → memUp s = true →
      (p.doomed = false → t = qdUse q s → start = (qDesc q t).base + p.ptr % (qDesc q t).size →
        exec (.packetComplete q num) s
          = .next (settle q (setPkt p { p with complete := true }
              (((blocksOf start p.stride).filter (fun b => !(partBlocks start p.stride).contains b)).foldl (fun acc b => mcWriteBlock b acc)
                (wrBytes start (leBytes 4 (p.len + p.rtype * 2 ^ 24)) t)))))
      ∧ (p.doomed = true → exec (.packetComplete q num) s = .next (abandonPkt p 0 true s)))
  ∧ (∀ (q num : Nat) (s : State) (p : Pkt), openPkt q num s = some p → memUp s = true →
      (abandonReason p s = some 0 → exec (.packetAbandon q num) s = .next (abandonPkt p 0 false (advanceTo (p.born + (rdReg 6 0 0x94 s).toNat * oneUs) s)))
      ∧ (abandonReason p s = some 3 → exec (.packetAbandon q num) s = .next (abandonPkt p 3 false s)))
  ∧ (∀ (q : Nat) (s : State), qeBase s ≠ 0 → q < 2 ^ 20 → memUp s = true →
      exec (.descriptorFetch q .none) s = .next (qdUse q s)
      ∧ (∀ a b, exec (.descriptorFetch q (.single a b)) s = .next (qdEvent 5 0x1600 q false (qdUse q s)))
      ∧ (∀ a, exec (.descriptorFetch q (.double a)) s = .next (qdBroken q false (qdUse q s))))
  ∧ (∀ (q : Nat) (s : State) (r : Staged) (b : List Byte × State), s.qe.staging.find? (fun r => r.q == q) = some r →
      (r.rtype ≠ 3 ∨ q ≠ eventQueue s → qAdmits r s = true → b = stagedBytesOut r { s with qe := { s.qe with staging := s.qe.staging.erase r } } →
        exec (.stagedRecordRelease q) s
          = .next (let t := stagingCheck (reserve q r.rtype r.job (deviceId s) b.1 b.2)
                   if r.compl then heldWritten q r t else t))
      ∧ (r.rtype = 3 → q = eventQueue s → (qDesc q s).enabled = true → memUp s = true →
        exec (.stagedRecordRelease q) s
          = .next (stagingCheck (placeEvent r.prio r.bytes { s with qe := { s.qe with staging := s.qe.staging.erase r } }))))
  ∧ (∀ (r : Req) (q : Nat) (s : State), regAt r true 6 0 0x8C s = (0, s) → q = rdField 6 0 0x48 19 0 s → qeBase (qdUse q s) ≠ 0 →
      exec (.queueEnable r) s = .next (deliverQueue q (qPut q { qDesc q (qdUse q s) with enabled := true } (qdUse q s)))
      ∧ (∀ t : State, t = qPut q { qDesc q (qdUse q s) with enabled := false } (qdUse q s) →
          exec (.queueDisable r) s
            = .next ((((qdUse q s).qe.popWait ++ (qdUse q s).qe.pushWait).filter (fun w => w.1 == q)).foldl (fun acc w => wakeDisabled q w.2 acc)
                { t with qe := { t.qe with popWait := t.qe.popWait.filter (fun w => w.1 != q), pushWait := t.qe.pushWait.filter (fun w => w.1 != q) } }))
      ∧ ((qDesc q (qdUse q s)).pinned = true ∨ pinnedCount (qdUse q s) < 2048 →
          exec (.queuePin r) s = .next (qPut q { qDesc q (qdUse q s) with pinned := true } (qdUse q s)))
      ∧ exec (.queueUnpin r) s = .next (qPut q { qDesc q (qdUse q s) with pinned := false } (qdUse q s)))
  ∧ (∀ (r : Req) (q : Nat) (s u t : State) (b : List Byte) (d : QDesc), regAt r true 6 0 0x8C s = (0, s) → q = rdField 6 0 0x48 19 0 s → u = qdUse q s →
      qeBase u ≠ 0 → (qDesc q u).enabled = false → b = queueConfigure.stagedBytes6 u → descOk q b u = true →
      d = { QDesc.read b with wr := 0, rd := 0, res := 0, notices := 0, packets := 0, dropped := 0 } → t = qPut q d (forgetQueue q (abandonOpen q u)) →
      exec (.queueConfigure r) s
        = .next { t with
                  qe := { t.qe with adm := (if d.consumer = 3 then q :: t.qe.adm.filter (fun x => x != q) else t.qe.adm.filter (fun x => x != q)) },
                  host := { t.host with dlv := Tbl.erase t.host.dlv q } })
  ∧ (∀ (r : Req) (v q : Nat) (s t : State), regAt r true 6 0 0x90 s = (0, s) → v < 2 ^ 32 → q = rdField 6 0 0x48 19 0 s → t = qdUse q s → qeBase t ≠ 0 →
      (qDesc q t).consumer = 2 → v < 2 * (qDesc q t).size → (qDesc q t).dist v (qDesc q t).rd ≤ (qDesc q t).used →
      exec (.rdptrWrite r v) s = .next (advanceRd q v t))

/-- The rows of the Fine Nibs and of the cameras. -/
def Obligations.FineNibsAndCameras : Prop :=
  (∀ (s t : State) (b : List Byte), fnTakes s = true → engineTake (rdField 9 0 0x40 19 0 s) s = some (b, t) → b.length = 64 →
      (FnDesc.read b).bad b { t with fn := { t.fn with taken := t.fn.taken + 1 } } = none →
      (∃ j, findJob (FnDesc.read b).job t = some j ∧ j.phase = .running) →
      exec .fnLayer s
        = .next { t with fn := { t.fn with taken := t.fn.taken + 1, cur := some { desc := b, pos := t.fn.taken % 65536, start := t.time.clk, rowAt := t.time.clk, sent := false, pixels := 0, refused := false } } })
  ∧ (∀ (s : State) (r : FnRun), s.fn.cur = some r → (FnDesc.read r.desc).last = false → fnFeedOf (FnDesc.read r.desc).stream s = none →
      (rdReg 9 0 0x48 s).toNat ≠ 0 → armed 9 0 6 s = false → s.car.samples = [] → pushGoes (FnDesc.read r.desc).queue 16 false s = true →
      exec .fnSourceStall s
        = .next (let d := FnDesc.read r.desc
                 fnFail r.desc 4 0 { c := 9, i := 0, bit := 6, code := 0x2300, job := d.job, ctx := r.pos, payload := d.stream + (d.stream * 2 ^ 27 + (stream d.stream s).seq) * 2 ^ 8 + injFlag false }
                   (advanceTo (r.rowAt + (rdReg 9 0 0x48 s).toNat * oneUs) s)))
  ∧ (∀ (u : Upset) (s : State) (r : FnRun) (j : JobRec), s.fn.cur = some r → findJob (FnDesc.read r.desc).job s = some j → j.phase = .running →
      pushGoes (FnDesc.read r.desc).queue 16 false s = true → (r.sent = true → reqOut .fine s = false → r.refused = false → exec (.fnLayerComplete u) s = .next (fnEnd r.desc 0 r.pixels 0 s)))
  ∧ (∀ (s t : State) (r : FnRun) (j : JobRec) (d : FnDesc) (g : ConvGeo) (n es : Nat), s.fn.cur = some r → d = FnDesc.read r.desc → findJob d.job s = some j →
      j.phase = .running → r.sent = false → pushGoes d.queue 16 false s = true → blockEnabled 9 0 s = true → domainOn 111 s = true → coolantLost s = false → armed 9 0 8 s = false →
      armed 9 0 5 s = false → d.last = true → g = d.geo d.inH d.inW → es = (if d.bf16 then 2 else 1) → n = g.CB * g.H * g.W * g.b * es →
      fnRead (.fine (deviceId s) d.job) (n / 256 + 2) d.source n s = (⟨0, 0⟩, t) →
      exec (.fnLayerComplete .none) s = .next (fnRun r d g (fun t i => rdLe t (d.source + i * es) es) t))
  ∧ (∀ (csi vc dt hdr bad : Nat) (p : List Byte) (s t : State), camRuns csi vc s = true → csiHeader csi vc hdr bad (phyUp csi s) = (false, t) →
      (csiBits dt ≠ 0 ∨ dt = 0x12) → armed 8 csi 6 t = false → armed 7 0 11 t = false → armed 7 0 5 t = false →
      exec (.csiPacket csi vc dt hdr bad p true false .none) s = .next (packetIn csi vc dt p false t))
  ∧ (∀ (csi vc number hdr bad n : Nat) (s t u : State), camRuns csi vc s = true → csiHeader csi vc hdr bad (phyUp csi s) = (false, t) →
      (camVc csi vc t).cur = none → (camVc csi vc t).crcs = none → number ≠ 0 → vcStream csi vc (addCtr 8 csi 0x5C 1 t) = some n →
      u = setStream n { stream n (addCtr 8 csi 0x5C 1 t) with seq := ((stream n (addCtr 8 csi 0x5C 1 t)).seq + 1) % 2 ^ 27 } (addCtr 8 csi 0x5C 1 t) →
      exec (.frameStart csi ⟨vc, hdr, bad⟩ number) s
        = .next (let id := n * 2 ^ 27 + (stream n (addCtr 8 csi 0x5C 1 t)).seq
                 let f := setVc csi vc { camVc csi vc u with
                   number := number,
                   cur := some { id := id, fsTime := devNow u, number := number, lines := 0, fcrc := 0xFFFFFFFF, scrc := 0xFFFFFFFF, cause := 0, stalled := false, advances := true, skip := false } } u
                 if carRuns f = false ∨ grpTakes n f = false then f
                 else match startSample n id [] false f with
                   | some x => x
                   | none => raise { c := 7, i := 0, bit := 8, code := 0x2702, ctx := n, payload := id } (bump 7 0 0xB8 1 f)))
  ∧ (∀ (csi vc hdr bad n : Nat) (s t : State) (f : CamFrame) (c : StreamCfg), camRuns csi vc s = true → csiHeader csi vc hdr bad (phyUp csi s) = (false, t) →
      (camVc csi vc t).cur = some f → vcCfg csi vc t = some c → f.lines = c.height → vcStream csi vc t = some n →
      exec (.frameEnd csi ⟨vc, hdr, bad⟩) s = .next (frameDone csi vc (frameSample n f.id t)))
  ∧ (∀ (csi lanes : Nat) (s : State), csi < 12 → rdField 8 csi 0x44 15 0 s ≠ 0 → blockEnabled 8 csi s = true → domainOn 110 s = true →
      s.car.phy.contains csi = true →
      exec (.camLinkLost csi lanes) s
        = .next (raise { c := 8, i := csi, bit := 10, code := 0x5800, payload := lanes % 16 }
            { s with car := { s.car with phy := s.car.phy.filter (fun x => x != csi) } }))
  ∧ (∀ (csi : Nat) (s : State), csi < 12 → exec (.dphyClockReturn csi) s = .next (phyUp csi s))

/-- The rows of the Carousel. -/
def Obligations.CarouselCommands : Prop :=
  (∀ (st : Nat) (s t u : State) (b : List Byte) (c : StreamCfg) (p : (Nat × Nat) × State), c = streamCfg st s → carRuns s = true → (stream st s).running = true → c.source ≠ 0 →
      grpTakes st s = true → (qDesc c.queue s).consumer = 4 → takeSlot c.group st s = some p → engineTake c.queue s = some (b, t) →
      startSample st (SrcRec.read b).id b true t = some u → (SrcRec.read b).ok = true → (SrcRec.read b).kind + 1 = c.source →
      (c.source = 2 → (SrcRec.read b).w ≤ c.width ∧ (SrcRec.read b).h ≤ c.height) →
      exec (.sourceRecord st) s = .next u)
  ∧ (∀ (st id n j status a e : Nat) (s t u v w : State) (x : CarSample) (c : StreamCfg) (m : Img) (scales : List (Nat × Nat × Nat × Nat × List Nat)),
      findSample st id s = some x → c = streamCfg st s → carRuns s = true → x.ready = true → x.gone = false → armed 7 0 9 s = false →
      sampleImg c x s = (.inr m, t) → placeSample c.group x t = some ((n, j, status), u) →
      scales = c.written.map (fun z => (z, (m.scale z).h, (m.scale z).w, (m.scale z).ch, scaleCodes c (bitDepth c (SrcRec.read x.src)) (m.scale z))) →
      a = (grpCfg c.group u).dest + ((match (grp c.group u).batches.find? (fun b => b.number == n) with | some b => b.buffer | none => 0)
            * (grpCfg c.group u).slots + j) * (grpCfg c.group u).stride →
      v = updSample st id (fun y => { y with slot := some (n, j) })
            (updSlot c.group n j (fun y => { y with sample := some (id, st), status := none, sub := false }) u) →
      armed 7 0 10 v = false → writeScales c.group a c scales v = ((⟨0, 0⟩, e), w) →
      exec (.sampleComplete st id) s
        = .next (let z := updSlot c.group n j (fun y => { y with status := some status, cause := 0 }) (pushFeed st id true scales (dropSample st id w))
                 settleGroup c.group (if x.late then z else teachMean st (devNow z - x.start) z)))
  ∧ (∀ (st id d : Nat) (s : State) (x : CarSample), findSample st id s = some x → x.deadline = some d → carRuns s = true →
      exec (.sampleLate st id) s = .next (overdue st id false (advanceToDev d s)))
  ∧ (∀ (st id cause : Nat) (s : State) (x : CarSample), findSample st id s = some x → carRuns s = true → (streamCfg st s).source ≠ 0 → x.gone = false →
      (∀ (l : List Byte) (t : State), cause ≠ 0 → readSource (SrcRec.read x.src) s = (cause, l, t) →
          exec (.memorySampleCorrupt st id cause) s = .next (corruptSample st id cause false t))
      ∧ (∀ (l : List Byte) (t : State), (streamCfg st s).source = 1 → cause ≠ 0 → readSource (SrcRec.read x.src) s = (0, l, t) →
          jpegImg (streamCfg st s) l = .inl cause →
          exec (.memorySampleCorrupt st id cause) s = .next (corruptSample st id cause false t)))
  ∧ (∀ (g : Nat) (s t : State) (b : CarBatch), (grp g s).batches.find? (fun b => !b.closed) = some b → carRuns s = true →
      ((grpCfg g s).perMember = true ∨ (grpCfg g s).window ≠ 0) → t = advanceToDev (b.opened + (grpCfg g s).window * 1000) s →
      exec (.batchWindowExpiry g) s
        = .next (settleGroup g (setGrp g { grp g t with batches := (grp g t).batches.map (fun x => if x.number = b.number then
                                                          { x with closed := true, flags := if x.slots.any (fun y => y.sample.isNone && y.status.isNone) then x.flags ||| 1 else x.flags,
                                                                   slots := x.slots.map (fun y => if y.sample.isNone ∧ y.status.isNone then
                                                                     { y with status := some (if (grpCfg g s).perMember then 2 else 4) } else y) } else x) } t)))
  ∧ (∀ (r : Req) (n : Nat) (s : State) (b : List Byte), regAt r true 7 0 0x74 s = (0, s) → n = rdField 7 0 0x40 4 0 s → b = stagedStream s →
      ((stream n s).running = false → streamOk b = true →
          ((StreamCfg.read b).substitute = true → (grpCfg (StreamCfg.read b).group s).perMember = false) →
        exec (.streamConfigure r) s = .next (setStream n { stream n s with cfg := b, mean := (StreamCfg.read b).initMean } s))
      ∧ ((stream n s).running = false → exec (.streamStart r) s = .next (setStream n { stream n s with running := true, seq := 0 } s))
      ∧ ((stream n s).running = true → exec (.streamStop r) s = .next (setStream n { stream n (cancelStream n s) with running := false } (cancelStream n s)))
      ∧ exec (.meanReset r) s = .next (setStream n { stream n s with mean := (StreamCfg.read (stream n s).cfg).initMean } s))
  ∧ (∀ (r : Req) (g : Nat) (s : State) (b : List Byte), regAt r true 7 0 0x9C s = (0, s) → g = rdField 7 0 0x78 2 0 s →
      b = (List.range 8).flatMap (fun i => leBytes 4 (rdReg 7 0 (0x7C + 4 * i) s).toNat) →
      ((grp g s).st = 0 → grpOk g b s = true → exec (.groupConfigure r) s = .next (setGrp g { grp g s with cfg := b } s))
      ∧ ((grp g s).st = 0 → grpFits g s = true → (grpCfg g s).slots ≠ 0 →
        exec (.groupStart r) s = .next (setGrp g { grp g s with st := 1, next := 0, lowArmed := false } s))
      ∧ ((grp g s).st ≠ 0 → exec (.groupStop r) s = .next (stopGroup g s)))

/-- The rows of the control laws. -/
def Obligations.ControlLawCommands : Prop :=
  (∀ (n : Nat) (s : State), n < 64 → (trSlot n s).st ≠ 0 → blockEnabled 10 0 s = true →
      ((trSlot n s).src = 1 → (trSlot n s).period ≠ 0 →
        exec (.slotTrigger n) s
          = .next (let t := (trSlot n s).nextTick (trSlot n s).timer
                   let u := advanceToDev t s
                   takeTrigger n { snapNow u with time := t } (setSlot n { trSlot n u with timer := t } u)))
      ∧ (∀ p, (trSlot n s).src ≠ 1 → (trSlot n s).fired = some p → exec (.slotTrigger n) s = .next (takeTrigger n p (setSlot n { trSlot n s with fired := none } s))))
  ∧ (∀ (n : Nat) (u : Upset) (s t : State) (p : Snap), nextPending s = some n → (trSlot n s).pend = some p → blockEnabled 10 0 s = true →
      (∀ r, s.tr.runs.head? = some r → n < r.slot) → swapPending (setSlot n { trSlot n s with pend := none, prev := some p.encs } s) = false →
      t = lawFetch n u (setSlot n { trSlot n s with pend := none, prev := some p.encs } s) → testValue n t = none →
      exec (.lawDispatch u) s
        = .next (holdAndRun n p ((List.range 16).map (fun k => match (trSlot n s).prev with
            | some q => wrapNat 32 ((p.encs.getD k 0 : Int) - (q.getD k 0 : Nat)) | none => 0)) none t))
  ∧ (∀ (s : State) (r0 r : TrRun) (l : List TrRun) (i : Option LawIns), s.tr.runs = r0 :: l → i = lawDecode (Tbl.get 0 s.tr.law r0.pc).toNat →
      r = { r0 with pc := r0.pc + 1 } →
      (∀ (clr : Bool) (src coef w : Nat) (u : Upset) (t : State), i = some (.mac clr src coef) → coefRead r coef u s = (some w, t) →
        exec (.mac clr src coef u) s
          = .next (let term := rheScaleInt (sigRead r src t * coefValue w) (-((w / 2 ^ 32 : Nat) : Int))
                   setRun { r with acc := if clr then term else r.acc + term } t))
      ∧ (∀ (dst sh : Nat), i = some (.store dst sh) → sat32 (rheScaleInt r.acc (-(sh : Int))) = rheScaleInt r.acc (-(sh : Int)) →
        exec (.lawStore dst sh) s = .next (sigWrite r dst (rheScaleInt r.acc (-(sh : Int))) s))
      ∧ (∀ (dst coef w : Nat) (u : Upset) (t : State), i = some (.limit dst coef) → coefRead r coef u s = (some w, t) →
        exec (.limit dst coef u) s = .next (sigWrite r dst (min (max (sigRead r dst t) (coefValue w)) (coefValue (Tbl.get 0 r.coef (coef + 1)))) t))
      ∧ (∀ (dst src : Nat), i = some (.move dst src) → exec (.lawMove dst src) s = .next (sigWrite r dst (sigRead r src s) s))
      ∧ (∀ (src n word : Nat), i = some (.outBuf src n word) →
        exec (.lawOut src true n word) s = .next (trBufWrite n word (wordOf (sigRead r src s)) (setRun r s)))
      ∧ (∀ (src n word : Nat), i = some (.outPwm src n) → r.pwm = none → exec (.lawOut src false n word) s = .next (pwmOut n (sigRead r src s) false (setRun r s)))
      ∧ (∀ (buf : Nat), i = some (.send buf) → exec (.lawSend buf) s = .next (setRun { r with sends := r.sends ++ [buf] } s))
      ∧ (∀ (src cond n : Nat), i = some (.skipif src cond n) → cond < 4 →
        exec (.skipif src cond n) s
          = .next (setRun { r with pc := if (cond = 0 ∧ sigRead r src s < 0) ∨ (cond = 1 ∧ sigRead r src s = 0) ∨ (cond = 2 ∧ 0 < sigRead r src s)
                                     ∨ (cond = 3 ∧ sigRead r src s ≠ 0) then r.pc + n else r.pc } s))
      ∧ (i = some .stop →
        exec .lawEnd s
          = .next (let t := capRecord r s
                   r.sends.foldl (fun acc b => trBufSend b acc) (addCtr 10 0 0xCC 1 { t with tr := { t.tr with runs := t.tr.runs.drop 1 } }))))

/-- The register rows of Tightrope. -/
def Obligations.TightropeRegisterCommands : Prop :=
  (∀ (r : Req) (n : Nat) (s : State), regAt r true 10 0 0x64 s = (0, s) → n = rdField 10 0 0x40 5 0 s →
      (slotRefusal n (slotStaged s) s = 0 → exec (.slotConfigure r) s = .next (setEntry n (slotStaged s) s))
      ∧ (∀ (l : Nat × Nat), (trSlot n s).st = 0 → s.sec.phase ≠ 3 → (trSlot n s).conf = true →
          l = trLoad ((List.range 64).filter (fun j => j == n || decide ((trSlot j s).st ≠ 0))) s → l.1 ≤ 640000000 * l.2 →
        exec (.slotStart r) s
          = .next (setSlot n { trSlot n s with st := 1, cause := 0, saturated := false, words := [], accepted := none, fired := none, pend := none, prev := none,
                                               lastTrig := none, timer := devNow s, memErr := false } s))
      ∧ ((trSlot n s).st ≠ 0 →
        exec (.slotStop r) s
          = .next (let t := setSlot n { trSlot n s with st := 0, cause := 0, fired := none, pend := none } s
                   let u := { t with tr := { t.tr with runs := t.tr.runs.filter (fun r => r.slot != n) } }
                   if rdField 10 0 0xAC 5 0 u = n then wrField 10 0 0xAC 15 15 0 u else u))
      ∧ ((trSlot n s).st = 2 → (trSlot n s).mode = 2 → (trSlot n s).memErr = false → firstInvalid (trSlot n s) (snapNow s) = none →
          spAged (trSlot n s) (devNow s) = false →
        exec (.slotResume r) s
          = .next (raise { c := 10, i := 0, bit := 10, code := 0x0A00, ctx := n, payload := 2 } (setSlot n { trSlot n s with st := 1, cause := 0 } s))))
  ∧ (∀ (r : Req) (v : Nat) (s : State), regAt r true 10 0 0x74 s = (0, s) → lawCovered (rdField 10 0 0x70 11 0 s) s = false →
      exec (.lawDataWrite r v) s
        = .next (wrField 10 0 0x70 11 0 (rdField 10 0 0x70 11 0 s + 1)
            { s with tr := { s.tr with law := Tbl.set 0 s.tr.law (rdField 10 0 0x70 11 0 s) (BitVec.ofNat 32 v) } }))
  ∧ (∀ (r : Req) (v : Nat) (w : Word) (s : State), regAt r true 10 0 0x7C s = (0, s) → w = BitVec.ofNat 32 v →
      Word.field w 31 31 = (if rdField 10 0 0x84 0 0 s = 1 then 1 - rdField 10 0 0x84 1 1 s else 0) → Word.field w 21 16 ≠ 63 → rdField 10 0 0x84 4 4 s = 0 →
      exec (.coefWrite r v) s
        = .next (wrField 10 0 0x80 15 0 (rdField 10 0 0x80 15 0 s + 1)
            { s with tr := { s.tr with coef := Tbl.set 0 s.tr.coef (Word.field w 31 31 * 2048 + Word.field w 10 0) ((Tbl.get 0 s.tr.staged (reqCode r)).toNat + Word.field w 21 16 * 2 ^ 32) } }))
  ∧ (∀ (r : Req) (slot : Nat) (w : Word) (s t : State), regAt r true 10 0 0x84 s = (0, s) → w = (rdReg 10 0 0x84 s).put 13 8 slot ||| 4 →
      Word.field w 0 0 = 1 → rdField 10 0 0x84 0 0 s = 1 → natBit w.toNat 2 = true → swapPending s = false →
      t = wrField 10 0 0x84 13 8 (Word.field w 13 8) (wrField 10 0 0x84 0 0 1 s) → (trSlot (Word.field w 13 8) t).st = 0 →
      exec (.bankSwap r slot) s = .next (bankSwap t))
  ∧ (∀ (s : State) (a : Nat), a = rdField 10 0 0x84 1 1 s → rdField 10 0 0x84 4 4 s ≠ 0 →
      exec .coefCopyDone s
        = .next (wrField 10 0 0x84 4 4 0 { s with tr := { s.tr with
            coef := (s.tr.coef.filter (fun e => e.1 / 2048 == a)).foldl (fun (t : Tbl Nat) e => Tbl.set 0 t ((1 - a) * 2048 + e.1 % 2048) e.2)
              (s.tr.coef.filter (fun e => e.1 / 2048 == a)) } }))
  ∧ (∀ (r : Req) (v n : Nat) (held : Bool) (s : State), regAt r true 10 0 0xA8 s = (0, s) → n = Word.field (BitVec.ofNat 32 v) 5 0 →
      held = natBit (BitVec.ofNat 32 v).toNat 8 → (trSlot n s).ageLimit ≠ 0 →
      exec (.spCommit r v) s
        = .next (setSlot n { trSlot n s with
            sp := ((List.range 8).map (fun k => rdReg 10 0 (0x88 + 4 * k) s)).zipIdx.foldl (fun (t : Tbl Word) e => Tbl.set 0 t e.2 e.1) (trSlot n s).sp,
            accepted := if held then (trSlot n s).accepted else some (devNow s) } s))
  ∧ (∀ (v : Nat) (w : Word) (s : State), regAt .checker true 10 0 0xAC s = (0, s) → w = BitVec.ofNat 32 v → natBit w.toNat 15 = true →
      natBit (rdReg 10 0 0xAC s).toNat 15 = false →
      exec (.testGenerator .checker v) s
        = .next { wrReg 10 0 0xAC w s with tr := { (wrReg 10 0 0xAC w s).tr with testN := 0, lfsr := 0x7FFF } })
  ∧ (∀ (r : Req) (s : State), regAt r false 10 0 0xBC s = (0, s) → natBit (rdReg 10 0 0xB4 s).toNat 0 = false → s.tr.capPos < 4 * s.tr.caps.length →
      exec (.captureRead r) s = .next { s with tr := { s.tr with capPos := s.tr.capPos + 1 } })

/-- The rows of the timed I/O. -/
def Obligations.TimedIoCommands : Prop :=
  (∀ (r : Req) (n : Nat) (s : State) (e : TioEnc), regAt r true 10 1 0x54 s = (0, s) → n = rdField 10 1 0x40 3 0 s →
      (encTableOk (tioStaged 0x44 4 s) = true → startedUses (fun v _ => natBit v.encMask n) s = false →
        e = { tioEnc n s with cfg := tioStaged 0x44 4 s, cause := if (tioEnc n s).cause ≤ 2 then (tioEnc n s).cause else 0, seen := false, ab := none, counts := [] } →
        exec (.encConfigure r) s = .next (setEnc n { e with zArm := e.zReset && e.mode == 1 } s))
      ∧ (∀ u : State, e = tioEnc n s → e.mode ≠ 0 → e.cause < 3 →
          u = setEnc n { e with cause := 0, last := e.pos, zArm := e.zReset && e.mode == 1, counts := [] } s →
        (e.cause ≠ 0 → exec (.encRevalidate r) s = .next (raise { c := 10, i := 1, bit := 6, code := 0x0A10, ctx := n, payload := e.pos } u))
        ∧ (e.cause = 0 → exec (.encRevalidate r) s = .next u)))
  ∧ (∀ (n : Nat) (s : State), n < 16 → blockEnabled 10 1 s = true → armed 10 1 5 s = false →
      (∀ a b z, (tioEnc n s).mode = 1 → exec (.encSample n (.quad a b z)) s = .next (encQuad n a b z s))
      ∧ (∀ d p t, (tioEnc n s).mode = 2 → exec (.encSample n (.serial d p t)) s = .next (encSerial n d p t s)))
  ∧ (∀ (r : Req) (n : Nat) (s : State) (d : TioDin), regAt r true 10 1 0x6C s = (0, s) → n = rdField 10 1 0x60 4 0 s →
      leField (tioStaged 0x64 2 s) 0 2 ≠ 0 → byteAt (tioStaged 0x64 2 s) 2 < 4 → byteAt (tioStaged 0x64 2 s) 3 = 0 →
      d = { tioDin n s with cfg := tioStaged 0x64 2 s, rejects := 0 } →
      exec (.dinConfigure r) s = .next (setDin n { d with active := if d.reads then some s.time.clk else none, stuck := d.stuck && d.reads } s))
  ∧ (∀ (n : Nat) (s t : State), n < 32 → blockEnabled 10 1 s = true →
      (t = dinInject n (dinSettle n s) → ((tioDin n t).raw = (tioDin n t).level ∨ (tioDin n t).fast = true) →
        exec (.dinEdge n) s = .next (setDin n { tioDin n t with raw := !(tioDin n t).raw, since := t.time.clk } t))
      ∧ ((tioDin n s).fast = false → (tioDin n s).raw ≠ (tioDin n s).level →
        exec (.dinLevelStable n) s = .next (dinSettle n (advanceTo ((tioDin n s).since + (tioDin n s).minPulse * tioTick) s)))
      ∧ ((tioDin n s).fast = true →
        exec (.dinLevelStable n) s = .next (dinSettle n (advanceTo ((tioDin n s).since + 16 * (tioDin n s).minPulse * tioTick) s))))
  ∧ (∀ (n k : Nat) (s : State), n < 32 → (tioDin n s).active = some k → (tioDin n s).maxActive ≠ 0 → (tioDin n s).stuck = false →
      exec (.dinStuck n) s
        = .next (let t := advanceTo (k + (tioDin n s).maxActive * oneUs + 1) s
                 dinStuck n ((t.time.clk - k) / oneUs) false t))
  ∧ (∀ (r : Req) (m : Nat) (s : State), regAt r true 10 1 0xBC s = (0, s) → m = rdField 10 1 0x98 1 0 s →
      (adcTableOk (tioStaged 0x9C 8 s) = true → adcUsed m s = false → exec (.adcConfigure r) s = .next (setAdc m { tioAdc m s with cfg := tioStaged 0x9C 8 s } s))
      ∧ exec (.adcStart r) s = .next (setAdc m { tioAdc m s with running := true, next := devNow s + leField (tioAdc m s).cfg 8 4 } s)
      ∧ (adcUsed m s = false → exec (.adcStop r) s = .next (setAdc m { tioAdc m s with running := false } s)))
  ∧ (∀ (m : Nat) (frames : List Nat) (s t : State) (a : TioAdc), m < 4 → a = tioAdc m s → a.running = true → blockEnabled 10 1 s = true →
      t = advanceToDev a.next s →
      exec (.adcSequence m frames) s
        = .next (setAdc m { a with next := a.next + leField a.cfg 8 4,
                                   readings := ((frames.take (byteAt a.cfg 0 % 8 + 1)).zipIdx).foldl
                                     (fun (l : Tbl (Nat × Nat)) e => Tbl.set (0, 0) l e.2 (adcReading a.cfg e.1, devNow t)) a.readings } t))
  ∧ (∀ (r : Req) (n : Nat) (s : State), regAt r true 10 1 0x90 s = (0, s) → n = rdField 10 1 0x7C 4 0 s → n < 24 →
      startedUses (fun _ l => (pwmsOf l).contains n) s = false →
      (pwmTableOk n (tioStaged 0x80 4 s) = true →
        exec (.pwmConfigure r) s = .next (setPwm n { tioPwm n s with cfg := tioStaged 0x80 4 s, conf := true, driving := permitted s } s))
      ∧ exec (.pwmRelease r) s = .next (setPwm n { tioPwm n s with conf := false, driving := false } s))
  ∧ (∀ (n : Nat) (s t : State), n < 24 → (tioPwm n s).conf = true → t = advanceToDev (pwmNext (tioPwm n s).cfg (devNow s)) s →
      exec (.pwmPeriodStart n) s
        = .next (fireSlots 5 n (setPwm n { tioPwm n s with act := (tioPwm n s).next, actSafe := (tioPwm n s).nextSafe, driving := permitted t } t)))
  ∧ (∀ s : State, exec .stopNAssert s = .next (trip 2 0 { s with tio := { s.tio with stopN := true } })
      ∧ exec .stopNRelease s = .next { s with tio := { s.tio with stopN := false } })

/-- The rows of the CAN controllers. -/
def Obligations.CanCommands : Prop :=
  (∀ (r : Req) (c k : Nat) (s : State) (b : List Byte), regAt r true 11 c 0x78 s = (0, s) → k = rdField 11 c 0x54 5 0 s →
      b = (List.range 8).flatMap (fun j => leBytes 4 (rdReg 11 c (0x58 + 4 * j) s).toNat) →
      (rdField 11 c 0x54 7 6 s = 0 → k < 16 → ((canCtl c s).tb k).st = 0 → tbTableOk k b = true →
          exec (.canEntryConfigure r c) s = .next (setTb c k { (canCtl c s).tb k with desc := b } s))
      ∧ (rdField 11 c 0x54 7 6 s = 1 → filterTableOk (b.take 16) = true →
          exec (.canEntryConfigure r c) s = .next (setCan c { canCtl c s with filters := Tbl.set [] (canCtl c s).filters k (b.take 16) } s))
      ∧ (rdField 11 c 0x54 7 6 s = 2 → k < 8 → allowTableOk (b.take 16) = true →
          exec (.canEntryConfigure r c) s = .next (setCan c { canCtl c s with allow := Tbl.set [] (canCtl c s).allow k (b.take 16) } s))
      ∧ (k < 16 → rdField 11 c 0x54 7 6 s = 0 →
          exec (.tbRequest r c) s = .next (canRequest c k (((canCtl c s).tb k).desc ++ ((canCtl c s).tb k).pay) s)
          ∧ (((canCtl c s).tb k).st = 1 → exec (.tbAbort r c) s = .next (canAbort c k 2 false s))
          ∧ (((canCtl c s).tb k).st = 2 → exec (.tbAbort r c) s = .next (setTb c k { (canCtl c s).tb k with abort := true } s)))
      ∧ ((canCtl c s).st = 2 → exec (.busOffRecover r c) s = .next (setCan c { canCtl c s with recovering := true } s)))
  ∧ (∀ (r : Req) (c v old new : Nat) (s : State), regAt r true 11 c 0x80 s = (0, s) → old = (rdReg 11 c 0x80 s).toNat →
      new = (BitVec.ofNat 32 v &&& 0x8F8F8F8F).toNat → ((List.range 4).filterMap (trMapped new)).Nodup →
      (∀ n < 32, n / 4 ≠ c → ∀ b, trMapped (rdReg 11 (n / 4) 0x80 s).toNat (n % 4) = some b → b ∉ (List.range 4).filterMap (trMapped new)) →
      startedUses (fun _ l => (bufsOf l).any (fun b => ((List.range 4).flatMap (fun k => if trMapped old k = trMapped new k then []
        else (trMapped old k).toList ++ (trMapped new k).toList)).contains b)) s = false →
      exec (.trMapWrite r c v) s = .next (wrReg 11 c 0x80 (BitVec.ofNat 32 new) s))
  ∧ (∀ (r : Req) (c : Nat) (s : State), regAt r true 11 c 0x94 s = (0, s) →
      exec (.canStopClear r c) s = .next (wrCanStop c ((rdReg 11 c 0x94 s).put 18 18 1) s))
  ∧ (∀ (c q : Nat) (s t : State) (b : List Byte), c < 8 → natBit (rdReg 11 c 0x8C s).toNat 31 = true → q = Word.field (rdReg 11 c 0x8C s) 19 0 →
      (qDesc q s).consumer = 4 → (qDesc q s).recordSize = 112 → engineTake q s = some (b, t) → jobTxOk c (qSource q s).1 b t = true →
      exec (.jobTxRequest c) s = .next (canRequest c (byteAt b 0) (b.drop 16) t))
  ∧ (∀ (c b : Nat) (s : State), c < 8 → (rdField 11 c 0x40 2 0 s = 1 ∨ rdField 11 c 0x40 2 0 s = 4) → (canCtl c s).st ≠ 2 → onBus c s = none →
      blockEnabled 11 c s = true → arbWinner c s = some b → armed 11 c 8 s = false →
      (cdLen ((canCtl c s).tb b).cur ≤ 64 → exec (.canArbitration c) s = .next (setTb c b { (canCtl c s).tb b with st := 2, sof := devNow s } s))
      ∧ (∀ t : State, 64 < cdLen ((canCtl c s).tb b).cur →
          access 11 c b .scribe .read (cdExt ((canCtl c s).tb b).cur) (cdLen ((canCtl c s).tb b).cur) [] s = (⟨0, 0⟩, t) →
          exec (.canArbitration c) s
            = .next (setTb c b { (canCtl c s).tb b with st := 2, sof := devNow s, cur := ((canCtl c s).tb b).cur.take 32
                                                          ++ rdBytes t (cdExt ((canCtl c s).tb b).cur) (cdLen ((canCtl c s).tb b).cur) } t)))
  ∧ (∀ (c b : Nat) (s : State), onBus c s = some b → ((canCtl c s).tb b).abort = false →
      (((canCtl c s).tb b).held = none → exec (.arbitrationLost c) s = .next (setTb c b { (canCtl c s).tb b with st := 1 } s))
      ∧ (∀ h, ((canCtl c s).tb b).held = some h →
          exec (.arbitrationLost c) s = .next (setTb c b { (canCtl c s).tb b with st := 1, cur := h, held := none, attempts := 0 } s)))
  ∧ (∀ (c b type : Nat) (dry : Bool) (s : State), onBus c s = some b →
      exec (.canErrorFrame c type dry) s = .next (canTxFail c b type (dry && decide (64 < cdLen ((canCtl c s).tb b).cur)) false s))
  ∧ (∀ (c b : Nat) (s t u : State) (v : CanCtl), onBus c s = some b → armed 11 c 11 s = false → armed 11 c 9 s = false → v = canCtl c s → (v.tb b).held = none →
      t = canConfine c (bump 11 c 0x98 1 (setTb c b { v.tb b with st := 0, abort := false } (setCan c { v with tec := v.tec - 1, sent := (v.tb b).cur :: v.sent } s))) →
      u = (if cdReport (v.tb b).cur then canRecord c 0x84 0x51 b
              (canHeader { canFrameOf (v.tb b).cur (devNow s - (v.tb b).sof) with esi := v.st == 1 } false 0xFF (v.tb b).sof b
                ++ (canFrameOf (v.tb b).cur (devNow s - (v.tb b).sof)).data) t else t) →
      natBit (rdReg 11 c 0x90 u).toNat 3 = false →
      exec (.canFrameTransmitted c) s = .next u)
  ∧ (∀ (c m : Nat) (s : State), c < 8 → m = rdField 11 c 0x40 2 0 s → 1 ≤ m → m ≤ 3 → (canCtl c s).st ≠ 2 → blockEnabled 11 c s = true →
      (∀ (f : CanFrame) (ovr : Bool), fmtOn c f.fmt s = true →
          exec (.canFrameReceived c ⟨f, ovr⟩) s = .next (canReceive c f false ovr (canConfine c (recGood c s))))
      ∧ (∀ (type : Nat) (eight : Bool) (t : State),
          t = canConfine c (canError c type false false (setCan c { canCtl c s with rxc := min 255 ((canCtl c s).rxc + (if eight then 8 else 1)) } s)) →
          exec (.canRxError c type ⟨eight, none⟩) s = .next t
          ∧ (∀ (second : Bool) (n : Nat), exec (.canRxError c type ⟨eight, some (second, n)⟩) s = .next (canGone c (if second then 0x88 else 0x84) n t))))
  ∧ (∀ (c : Nat) (s : State), (canCtl c s).recovering = true →
      exec (.canRecoveryDone c) s
        = .next (raise { c := 11, i := c, bit := 7, code := 0x0B00, payload := 0 }
            (setCan c { canCtl c s with st := 0, recovering := false, tec := 0, rxc := 0 } s)))

/-- The rows by which the checker judges. -/
def Obligations.CheckerJudges : Prop :=
  (∀ (r : Req) (clear : Bool) (v : Word) (s t : State), regAt r true 12 0 0x44 s = (0, s) → s.sec.phase = 1 → s.sn.up = true →
      v = BitVec.ofNat 32 (0x0A4D0001 + 2 * b2n clear) → armFault v s = 0 → t = wrReg 0 0 0x6C 0 (wrReg 12 0 0x48 0 s) →
      exec (.armRequest r clear) s
        = .next (raise { c := 12, i := 0, bit := 15, code := 0x0C00, payload := rdField 12 0 0x48 11 0 s }
            (debugLock 2 { t with sn := { t.sn with safeOut := true, hist := t.sn.hist.map (fun e => (e.1, { e.2 with consec := 0, outcomes := [] })) } })))
  ∧ (∀ (r : Req) (tbl idx : Nat) (b : List Byte) (s : State), regAt r true 12 0 0x6C s = (0, s) → tbl = rdField 12 0 0x58 10 9 s → idx = rdField 12 0 0x58 8 0 s →
      b = (List.range 4).flatMap (fun k => leBytes 4 (rdReg 12 0 (0x5C + 4 * k) s).toNat) → snEntryOk tbl idx b = true →
      exec (.snConfigure r) s = .next (snPut tbl idx b s))
  ∧ (∀ (s : State), s.sn.up = true →
      (∀ t : Twin, twinReady s = some t → exec (.setpointRecord .none) s = .next (arrive t.bytes t.job true { s with sn := { s.sn with twins := s.sn.twins.erase t } }))
      ∧ (∀ (q : Nat) (b : List Byte) (t : State), twinReady s = none → snQueue 0x4C s = some q → engineTake q s = some (b, t) →
          exec (.setpointRecord .none) s = .next (arrive b (qSource q s).1 false t)))
  ∧ (∀ (s u : State) (t : Twin) (rest : List Twin), s.sn.twins = t :: rest → s.sn.up = true →
      u = { advanceTo (t.born + 4200) s with sn := { (advanceTo (t.born + 4200) s).sn with twins := rest, gone := (advanceTo (t.born + 4200) s).sn.gone
                                                                                             ++ [⟨byteAt t.bytes 0 % 64, leField t.bytes 8 4, !t.copyB, true, none⟩] } } →
      exec .twinHoldExpiry s = .next (if t.copyB then u else judge (byteAt t.bytes 0 % 64) t.job 8 t.bytes u))
  ∧ (∀ (s t : State) (q id k : Nat) (b : List Byte) (fz : Bool) (l : List (Nat × Nat × Bool)), s.sn.up = true → snQueue 0x54 s = some q → engineTake q s = some (b, t) →
      id = leField b 0 4 → k = id / 2 ^ 27 → fz = natBit (byteAt b 5) 2 → l = ((id, leField b 20 8, fz) :: Tbl.get [] t.sn.frames k).take 64 →
      exec .frameRecord s
        = .next (let u := { t with sn := { t.sn with frames := Tbl.set [] t.sn.frames k l } }
                 if fz = true ∧ byteAt (snStream k u) 0 = 2 then trip 7 0 u else u))
  ∧ (∀ (id a b : Nat) (s t : State) (j : JobRec), findJob id s = some j → j.endA = some a → j.endB = some b → j.phase = .running → j.d.safety = true →
      j.compared = false →
      (jobDrained j s = true → max a b - min a b ≤ cmpWindow s →
        t = cmpReads j.d (firstDiff j.d s) s → armed 12 0 9 t = false →
        (firstDiff j.d t = none → exec (.outputComparison id) s = .next (updJob id (fun k => { k with compared := true }) t))
        ∧ (∀ i k, firstDiff j.d t = some (i, k) → exec (.outputComparison id) s = .next (cmpMismatch j i k false false t)))
      ∧ (cmpWindow s < max a b - min a b → exec (.cmpWindowExpiry id) s = .next (cmpMismatch j 0 0 true false s)))

/-- The rows by which the checker is checked. -/
def Obligations.CheckerWatchesItself : Prop :=
  (∀ s : State, s.sn.up = true →
      (∀ k, k ≤ 2 → exec (.lockstepMismatch k) s = .next (snFault k s)) ∧ exec .checkerWatchdog s = .next (snFault 3 s))
  ∧ (∀ s : State, s.sn.up = false → exec .checkerReloadDone s = .next (snStart s))
  ∧ (∀ (k : Nat) (s : State), k % 4 ≠ 0 → exec (.channelDiscrepancy k) s = .next (outDiscrepancy k false s))
  ∧ (∀ (k q : Nat) (e : OvfEntry) (s : State), s.sn.ovf.findIdx? (fun e => (ovfAdmits e s).isSome) = some k → s.sn.ovf[k]? = some e → ovfAdmits e s = some q →
      exec .overflowLogDrain s
        = .next (let start := ((s.sn.ovf.take k).map OvfEntry.words).sum
                 reserve q (if e.isLog then 0x60 else 3) 0xFFFF (deviceId s) e.bytes { s with sn := { s.sn with ovf := s.sn.ovf.eraseIdx k,
                                                                                                                logPos := if start + e.words ≤ s.sn.logPos then s.sn.logPos - e.words else min s.sn.logPos start } }))
  ∧ (∀ (r : Req) (s : State), regAt r false 12 0 0x88 s = (0, s) → s.sn.logPos < (s.sn.ovf.map OvfEntry.words).sum →
      exec (.logRead r) s = .next { s with sn := { s.sn with logPos := s.sn.logPos + 1 } })
  ∧ (∀ (x : Nat × Nat) (s : State), s.sn.up = true → s.sn.stRun = none → s.sn.stLeft.find? (fun x => stFree x s) = some x →
      stFits (stLength x.1) (devNow s) s = true →
      exec .selfTestSlice s = .next { s with sn := { s.sn with stLeft := s.sn.stLeft.erase x, stRun := some (x.1, x.2, s.time.clk) } })
  ∧ (∀ (item unit start nib : Nat) (s t : State), s.sn.stRun = some (item, unit, start) →
      (s.time.clk ≤ start + stLength item * oneUs → armed 12 0 12 s = false → armed 12 0 10 s = false →
        t = allowEnd { s with sn := { s.sn with stRun := none, skipped := Tbl.erase s.sn.skipped (item * 1024 + unit) } } →
        exec (.sliceDone true nib) s = .next (if t.sn.stLeft.isEmpty then stCycleEnd t else t))
      ∧ exec .sliceAbort s = .next (stAbort item unit false (advanceTo (start + stLength item * oneUs) s)))
  ∧ (∀ (sec : Nat) (s t u : State), s.sn.up = true → sec = rdField 12 0 0x74 7 0 s → sec ≠ 0 → t = allowEnd (advanceTo (s.sn.stStart + sec * 1000000 * oneUs) s) →
      u = raise { c := 12, i := 0, bit := 11, code := 0x4C05, payload := (t.time.clk - t.sn.stStart) / oneMs % 2 ^ 32 } t →
      exec .selfTestLate s = .next (stBegin (if rdField 12 0 0x74 8 8 u = 1 then trip 6 0 u else u)))

/-- The rows of the power manager. -/
def Obligations.PowerCommands : Prop :=
  (∀ (act : PwrAct) (a : PwrFig) (m x dev : Nat) (s s0 s1 s2 s3 s4 : State), blockEnabled 13 0 s = true → s0 = advanceToDev ((devNow s / 10000 + 1) * 10000) s →
      a = offsetAct (figures act s0) s0 → m = actTotal a → x = measured a.rails s0 → s1 = diverge m x (tally a { s0 with pwr := { s0.pwr with figures := a.rails }, act := {} }) →
      dev = (if s1.pwr.divergent then max m x else scaled m s1) →
      s2 = { s1 with pwr := { s1.pwr with overpower := s1.pwr.overpower && decide (580000 ≤ x) } } →
      s3 = checkCap dev ((s2.jobs.filter (fun j => j.live && j.d.det)).foldl (fun acc j => checkReserve j acc) s2) →
      s4 = newClocks a { s3 with pwr := { s3.pwr with grants := newGrants a dev s3 } } →
      exec (.grantPeriod act) s
        = .next (let pair := fun (hi lo : Nat) => BitVec.ofNat 32 (min (hi / 100) 0xFFFF * 65536 + min (lo / 100) 0xFFFF)
                 showRecon (wrReg 13 0 0x48 (pair (x - scaled (actQuills a) s4) x) (wrReg 13 0 0x4C (pair (actQuills a) m) s4))))
  ∧ (∀ s : State,
      exec .voltageReached s
        = .next (s.pwr.waiting.foldl (fun acc e => setQuill e.1 { quill e.1 acc with mhz := e.2 } acc) { s with pwr := { s.pwr with waiting := [] } }))
  ∧ (∀ (k mv mw : Nat) (pmbus : Bool) (s : State), k < 5 →
      ((k = 2 → armed 13 0 9 s = false) →
        exec (.railReading k mv mw) s = .next (showRecon (setRail k { mv := mv % 65536, mw := mw, read := some s.time.clk, missing := false } s)))
      ∧ ((pwrRail k s).missing = false →
        exec (.railTimeout k pmbus) s = .next (railFault k pmbus false (advanceTo ((pwrRail k s).read.getD 0 + oneMs) s))))
  ∧ (∀ (s t : State), t = advanceToDev ((devNow s / 1000000 + 1) * 1000000) s → t.pwr.winDiv = false → railMissing t = false → t.pwr.winModel ≠ 0 →
      exec .reconWindow s
        = .next (showRecon { t with pwr := { t.pwr with rNum := t.pwr.winMeas, rDen := t.pwr.winModel, winMeas := 0, winModel := 0, winDiv := false } }))
  ∧ (∀ (r : Req) (v n : Nat) (s : State), n = Word.field (BitVec.ofNat 32 v) 15 0 →
      (regAt r true 13 0 0x40 s = (0, s) → 1500 ≤ n → n ≤ 6000 → rdField 13 0 0x44 15 0 s + powerReserved s ≤ n →
        exec (.capWrite r v) s = .next (plainWrite 13 0 0x40 (BitVec.ofNat 32 v) s))
      ∧ (regAt r true 13 0 0x44 s = (0, s) → 300 ≤ n → n ≤ 2000 → n + powerReserved s ≤ rdField 13 0 0x40 15 0 s →
        exec (.allowanceWrite r v) s = .next (plainWrite 13 0 0x44 (BitVec.ofNat 32 v) s)))
  ∧ (∀ (s t : State), 600000 < measured s.pwr.figures s → t = advance (100 * oneUs) s →
      exec .overpower s
        = .next ((List.range 192).foldl (fun acc q => if (throughput q acc).isSome ∧ 300 < (quill q acc).mhz then setQuill q { quill q acc with mhz := 300 } acc
              else acc)
            { t with pwr := { t.pwr with overpower := true, waiting := t.pwr.waiting.filter (fun e => (throughput e.1 t).isNone) } }))
  ∧ (∀ (site level : Nat) (s : State), site ≤ 48 → 1 ≤ level → level ≤ 2 → exec (.droopDetect site level) s = .next (droopOn site level false s))
  ∧ (∀ (site : Nat) (s : State) (d : PwrEpisode), Tbl.find? s.pwr.droops site = some d →
      exec (.droopEnd site) s = .next (droopOff site (advanceTo (d.start + 128) s)))

/-- The thermal rows and those of the power domains. -/
def Obligations.ThermalAndDomainCommands : Prop :=
  (∀ (k temp : Nat) (s : State), k < 72 →
      (s.sec.hold ≠ 1 →
        exec (.tempReading k temp) s
          = .next (thermal k (signed 8 temp) (if 64 ≤ k then wrField 4 (k - 64) 0x54 7 0 (temp % 256) (setTemp k (signed 8 temp) s) else setTemp k (signed 8 temp) s)))
      ∧ (∀ t : State, s.sec.hold = 1 → t = setTemp k (signed 8 temp) s → (∀ e ∈ t.pwr.temps, 64 ≤ e.1 ∨ e.2 < 100) →
        exec (.tempReading k temp) s = .next { t with sec := { t.sec with hold := 0 } }))
  ∧ (∀ (k temp : Nat) (s : State), k < 64 → 120 ≤ signed 8 temp →
      exec (.thermalTrip k temp) s = .next (resetDevice 5 1 (setTemp k (signed 8 temp) (trip 10 0 s))))
  ∧ (∀ (t : Nat) (s : State), s.pwr.recovery = some t →
      exec .recoveryEnd s = .next { advanceTo t s with pwr := { (advanceTo t s).pwr with recovery := none } })
  ∧ (∀ (s t : State), coolantLost s = false → t = wrField 13 0 0x78 1 1 0 s →
      exec .coolantLoss s
        = .next (setSelfRef true (raise { c := 13, i := 0, bit := 13, code := 0x4D00, payload := (t.jobs.filter (fun j => j.phase == .running)).length }
            (trip 4 0 (wrField 13 0 0x78 0 0 1 (episodeOn none 4 (bump 13 0 0xB0 1 { t with pwr := { t.pwr with lostAt := t.time.clk } })))))))
  ∧ (∀ s : State, rdField 13 0 0x78 1 1 s ≠ 1 →
      exec .coolFlowRestored s = .next (wrField 13 0 0x78 1 1 1 { s with pwr := { s.pwr with flowSince := s.time.clk } }))
  ∧ (∀ (r : Req) (v : Nat) (s t : State), regAt r true 13 0 0x78 s = (0, s) → Word.field (BitVec.ofNat 32 v) 31 16 = 0xC001 →
      natBit (BitVec.ofNat 32 v).toNat 2 = true → restartOk s = true → coolantLost s = true →
      t = (List.range 8).foldl (fun acc m => if natBit (rdReg 4 m 0x44 acc).toNat 0 then wrField 4 m 0x44 3 2 1 acc else acc)
            (advanceToRing (rotationAfter (ringNow s)) (setSelfRef false s)) →
      exec (.coolantRestart r v) s
        = .next (startRecovery (raise { c := 13, i := 0, bit := 14, code := 0x0D01, payload := min ((t.time.clk - t.pwr.lostAt) / oneUs) 0xFFFFFFFF }
            (ungate (t.time.clk - t.pwr.lostAt) (wrField 13 0 0x78 0 0 0 t)))))
  ∧ (∀ (r : Req) (d : Nat) (s : State), regAt r true 13 0 0x7C s = (0, s) → d < 112 →
      exec (.domainOn r d) s = .next (domainRise d false s) ∧ (offRefused d s = false → exec (.domainOffCmd r d) s = .next (domainFall d false s)))
  ∧ (∀ (d : Nat) (s t : State) (e : Nat × Nat × Bool), s.pwr.rising.find? (fun e => e.1 == d) = some e → t = advanceTo (e.2.1 + domainTime d) s →
      exec (.domainUsable d) s
        = .next (let u := domainReset d (setDomain d true { t with pwr := { t.pwr with rising := t.pwr.rising.filter (fun x => x.1 != d) } })
                 raise (evDomainState d true e.2.2) (if 48 ≤ d ∧ d < 96 then wakeBanks (d - 48) u else u)))
  ∧ (∀ (n : Nat) (s : State), n < 48 →
      (natBit (rdReg 13 0 0x90 s).toNat 0 = true → domainOn n s = true → offRefused n s = false →
        exec (.autoPowerDown none n) s
          = .next (domainFall n true (advanceTo (((List.range 4).map (fun k => quill (4 * n + k) s)).foldl (fun m v => max m v.freed) 0
              + rdField 13 0 0x90 31 16 s * oneMs) s)))
      ∧ (∀ b, natBit (rdReg 13 0 0x90 s).toNat 1 = true → b < 16 → ((spad n s).bank b).st = .on → bankOwner n b s = 0xFFFF →
          ((spad n s).pendShares ++ (spad n s).heldShares).contains (b / 4) = false → bankCmdOk n b 0xFFFF true s = true →
        exec (.autoPowerDown (some b) n) s
          = .next (bankDown n b 0xFFFF (advanceTo (max ((spad n s).bank b).since (quill (4 * n + b / 4) s).freed + rdField 13 0 0x90 31 16 s * oneMs) s))))

/-- The rows of a ring port. -/
def Obligations.RingLinkCommands : Prop :=
  (∀ (p : Nat) (f : FlitIn) (s t : State), p < 6 → linkState p s = 2 →
      (f.crcOk = false → exec (.flitReceived p f) s = .next (setPort p { port p (fecCount p f.fec s) with nak := true } (bump 5 p 0x50 1 (fecCount p f.fec s))))
      ∧ (f.crcOk = true → flitSequenced f = true → t = ackTo p f.ack (addCtr 5 p 0x64 1 (fecCount p f.fec s)) → f.seq < 16384 →
          ((port p t).rxSeq + 1) % 16384 = f.seq →
          exec (.flitReceived p f) s
            = .next (let u := forward f.transit (setPort p { port p t with rxSeq := f.seq, nak := false } t)
                     pumpPort p (port p u).waiting.length u)))
  ∧ (∀ (p ack n : Nat) (s t : State), p < 6 → linkState p s = 2 → t = ackTo p ack s → n = (if (port p t).nakSeq = ack then (port p t).nakCount + 1 else 1) →
      (8 ≤ n → exec (.nakReceived p ack) s = .next (linkRetrain p 0 false (setPort p { port p t with nakSeq := ack, nakCount := n } t)))
      ∧ (n < 8 → armed 5 p 7 (setPort p { port p t with nakSeq := ack, nakCount := n } t) = false →
          exec (.nakReceived p ack) s = .next (replayAll p false (setPort p { port p t with nakSeq := ack, nakCount := n } t))))
  ∧ (∀ (p cause : Nat) (s t : State), p < 6 → linkState p s = 2 → ((port p s).retrains.filter (fun t => decide (s.time.clk < t + oneS))).length < 2 →
      t = setPort p { port p s with retrains := (port p s).retrains.filter (fun t => decide (s.time.clk < t + oneS)) ++ [s.time.clk], nakCount := 0 } s →
      exec (.linkRetrain p cause) s
        = .next (raise { c := 5, i := p, bit := 8, code := 0x5901, payload := cause + injFlag false } (wrField 5 p 0x44 2 2 1 (wrField 5 p 0x40 2 0 3 (bump 5 p 0x58 1 t)))))
  ∧ (∀ (p : Nat) (s : State), p < 6 →
      (linkState p s = 3 →
        exec (.retrainDone p) s
          = .next (let t := replayAll p false (wrField 5 p 0x44 2 2 0 (wrField 5 p 0x40 2 0 2 s))
                   pumpPort p (port p t).waiting.length t))
      ∧ (linkState p s = 2 → exec (.linkDown p) s = .next (linkDown p 0 s)))
  ∧ (∀ (p die dev q d lanes : Nat) (s t u : State), p < 6 → linkState p s < 2 → rdField 5 p 0x44 1 0 s = 0 → blockPowered 5 p s = true → fenceReason s ≠ 4 →
      t = setPort p { det := (port p s).det, retrains := (port p s).retrains, delayPs := d, peerDie := die, symSince := s.time.clk, shadowAt := s.time.clk } s →
      u = wrReg 5 p 0x40 (BitVec.ofNat 32 (dev % 256 * 2 ^ 24 + q % 8 * 2 ^ 21 + savedLanes p s / 32 % 16 * 2 ^ 15 + lanes % 32 * 2 ^ 10 + 2)) t →
      exec (.linkUp p die dev q d lanes) s
        = .next (let w := { u with ring := { u.ring with firstUp := if u.ring.firstUp.isSome then u.ring.firstUp else some s.time.clk } }
                 tellRoutes (deviceId w) p false (raise { c := 5, i := p, bit := 10, code := 0x0900, payload := dev % 256 + q % 8 * 2 ^ 8 } w)))
  ∧ (∀ (p lane : Nat) (s : State), p < 6 → lane < 4 → linkState p s = 2 →
      exec (.laneSpared p lane true) s = .next (laneFault p lane true false s)
      ∧ (rdField 5 p 0x48 23 0 s < Tbl.get 0 (port p s).symbols lane → exec (.laneSpared p lane false) s = .next (laneFault p lane false false s))
      ∧ ((port p s).swap = some lane → exec (.laneSwapFlit p lane) s = .next (switchLane p lane false false s))
      ∧ (∀ t : State, spareUsed p s = false → (port p s).swap = none → t = advanceTo ((port p s).shadowAt + 100 * oneMs) s →
          exec (.spareShadowRotate p) s = .next (setPort p { port p t with shadow := ((port p t).shadow + 1) % 4, shadowAt := t.time.clk } t)))
  ∧ (∀ (p vc n : Nat) (s t : State), p < 6 → vc < 7 → t = setPort p { port p s with used := Tbl.set 0 (port p s).used vc (Tbl.get 0 (port p s).used vc - n) } s →
      exec (.creditReturn p vc n) s = .next (pumpPort p (port p t).waiting.length t))
  ∧ (∀ (r : Req) (p mode : Nat) (s : State), regAt r true 5 p 0x44 s = (0, s) →
      exec (.linkRetrainCmd r p) s = .next (linkRetrain p 2 false (wrField 5 p 0x44 1 0 (rdField 5 p 0x44 1 0 s) s))
      ∧ (mode = 1 → rdField 5 p 0x44 1 0 s ≠ 1 → exec (.linkModeWrite r p mode) s = .next (linkDown p 4 (wrField 5 p 0x44 1 0 1 s)))
      ∧ (mode = 0 → rdField 5 p 0x44 1 0 s ≠ 0 → exec (.linkModeWrite r p mode) s = .next (linkDown p 1 (wrField 5 p 0x44 1 0 0 s))))
  ∧ (∀ (r : Req) (p n : Nat) (s : State), regAt r true 5 p 0x84 s = (0, s) → 1 ≤ n → n < 256 → natBit (rdReg 0 0 0x6C s).toNat 0 = true →
      exec (.linkTestDrop r p n) s = .next (setPort p { port p s with drop := n } s)
      ∧ exec (.linkTestCorrupt r p n) s = .next (setPort p { port p s with corrupt := n } s)
      ∧ exec (.linkTestReorder r p) s = .next (setPort p { port p s with reorder := 2 } s))

/-- The rows of the ring's requests. -/
def Obligations.RingRequests : Prop :=
  (∀ (src job tag addr len : Nat) (det : Bool) (s : State), takesRing s = false →
      exec (.ringRead src job tag det addr len) s = .next (sendResp 3 src job tag det 7 0 [] s)
      ∧ (∀ data, exec (.ringWrite src job tag det addr data) s = .next (sendResp 4 src job tag det 7 0 [] s))
      ∧ (∀ op val cmp, exec (.ringAtomic src job tag det addr op val cmp) s = .next (sendResp 3 src job tag det 7 0 [] s)))
  ∧ (∀ (src job tag addr len : Nat) (det : Bool) (s : State), takesRing s = true →
      exec (.ringRead src job tag det addr len) s
        = .next (let r := access 5 (inPort src s) 0 (.job src job) .read addr len [] s
                 sendResp 3 src job tag det r.1.status r.1.cause (if r.1.status = 0 then rdBytes r.2 addr len else []) r.2)
      ∧ (∀ data, exec (.ringWrite src job tag det addr data) s
          = .next (let r := access 5 (inPort src s) 0 (.job src job) .write addr data.length data s
                   sendResp 4 src job tag det r.1.status r.1.cause [] r.2))
      ∧ (∀ op val cmp, exec (.ringAtomic src job tag det addr op val cmp) s
          = .next (let old := rdLe s addr 4
                   let r := access 5 (inPort src s) 0 (.job src job) .atomic addr 4
                     (leBytes 4 (atomicWord op (BitVec.ofNat 32 old) (BitVec.ofNat 32 val) (BitVec.ofNat 32 cmp)).toNat) s
                   sendResp 3 src job tag det r.1.status r.1.cause (if r.1.status = 0 then leBytes 4 old else []) r.2)))
  ∧ (∀ (src job tag target rank sem count : Nat) (det : Bool) (s : State), enumerated s = true → fenced s = false → takesSignal target rank s = true →
      exec (.ringSemSignal src job tag det target rank sem count) s = .next (sendResp 4 src job tag det 0 0 [] (signalJob target rank sem count true s)))
  ∧ (∀ (src job tag q : Nat) (det : Bool) (data : List Byte) (s : State), takesRing s = true → memUp s = true →
      exec (.ringQueuePush src job tag det q data) s
        = .next (let r := pushRecord q job src data s
                 sendResp 4 src job tag det (pushCode r.1) 0 (leBytes 1 r.1) r.2))
  ∧ (∀ (tag addr n : Nat) (data : List Byte) (s : State), enumerated s = true →
      exec (.ringRegAccess 0 tag true addr n data) s
        = .next (let r := writeWordsAt .manager (wordsOf data n) addr 0 s
                 sendResp 11 0 0xFFFF tag false r.1 0 (leBytes 2 r.2.1) r.2.2)
      ∧ exec (.ringRegAccess 0 tag false addr n data) s
        = .next (let r := readWordsAt .manager n addr s
                 sendResp 11 0 0xFFFF tag false r.1 0 (if r.1 = 0 then r.2.1 else []) r.2.2))
  ∧ (∀ (tag st cause : Nat) (data : List Byte) (s : State) (r : RingReq),
      (s.ring.reqs.find? (fun r => r.tag == tag && [0, 2].contains r.op) = some r → (if r.op = 2 then 4 else r.len) ≤ data.length → r.op ≠ 1 → r.op ≠ 10 →
        exec (.readResponse tag st cause data) s = .next (answer r st cause 0 data s))
      ∧ (s.ring.reqs.find? (fun r => r.tag == tag && [1, 5, 6].contains r.op) = some r → (r.op = 1 ∨ r.len ≤ 256) → r.op ≠ 2 →
        exec (.writeResponse tag st cause) s = .next (answer r st cause 0 (List.replicate 256 0) s))
      ∧ (s.ring.reqs.find? (fun r => r.tag == tag && [9, 10].contains r.op) = some r → (r.op = 10 ∨ r.len ≤ data.length) → r.op ≠ 2 →
        exec (.registerResponse tag st data) s = .next (answer r st 0 0 data s)))
  ∧ (∀ (tag : Nat) (s : State) (r : RingReq), s.ring.reqs.find? (fun r => r.tag == tag) = some r →
      exec (.ringReqTimeout tag) s
        = .next (let t := advanceTo (r.born + (rdReg 5 0 0x114 s).toNat * oneUs) s
                 let e := raiseSeq (evReqTimeout (outPort r.dst t) r.dst r.job tag) t
                 answer r 7 0 e.1 [] e.2))
  ∧ (∀ (group member R : Nat) (copyB : Bool) (s : State) (e : BarrierGroup), findGroup group s = some e → enumerated s = true →
      (e.root = deviceId s → member < e.members.length → exec (.barrierArrival group member copyB) s = .next (rootArrival group member copyB s))
      ∧ (ringNow s ≤ R →
        exec (.barrierRelease group copyB R) s
          = .next (updGroup group (fun e => if copyB then { e with releaseB := some R } else { e with releaseA := some R }) s)))

/-- The rows of the ring as a whole. -/
def Obligations.RingDeviceCommands : Prop :=
  (∀ (p ps depth : Nat) (s t : State), p < 6 → linkState p s = 2 → enumerated s = true → ownTime s = false → armed 5 0 16 s = false →
      t = { s with time := { s.time with ring := max s.time.ring (ps * 6) }, ring := { s.ring with lastSync := some s.time.clk } } →
      exec (.timeSync p ps depth) s
        = .next (let u := wrReg 5 0 0x110 (BitVec.ofNat 32 (satField 16 ((max s.time.ring (ps * 6) - s.time.ring) / 6 : Nat) * 65536 + depth % 256 * 256
                   + (rdReg 5 0 0x110 s).toNat / 4 % 2 * 4 + 1)) t
                 (timeChildren u).foldl (fun acc q => addCtr 5 q 0x5C 1 acc) u))
  ∧ (∀ (s t : State), enumerated s = true → ownTime s = false → rdField 5 0 0x110 1 1 s ≠ 1 → t = advanceTo (s.ring.lastSync.getD 0 + 10 * oneUs) s →
      exec (.ringTimeLost false) s
        = .next (raise { c := 5, i := 0, bit := 16, code := 0x2900, payload := injFlag (armed 5 0 16 t) }
            (wrField 5 0 0x110 2 2 1 (wrField 5 0 0x110 0 0 0 (disarm 5 0 16 t)))))
  ∧ (∀ (s : State), s.sec.phase = 1 → rdField 5 0 0x104 0 0 s ≠ 0 → s.ring.enumOn = false → enumerated s = false → rdField 0 0 0x40 9 9 s = 1 →
      exec (.enumStart none) s
        = .next (enumCheck (wrField 5 0 0x100 20 20 0 (discoverOut
            { s with ring := { s.ring with enumOn := true, found := [selfFound s], placed := [], discAt := s.time.clk } }))))
  ∧ (∀ (p origin round : Nat) (s t : State), p < 6 → linkState p s = 2 → origin ≠ dieId s → rdField 0 0 0x40 9 9 s ≠ 1 → s.ring.discovers ≠ round →
      t = pushFlits p 0 0xFFFF 1 { s with ring := { s.ring with discovers := round,
                                                                sent := ⟨12, 0, [2, (selfFound s).die] ++ (selfFound s).ports.flatMap (fun (e : Bool × Nat × Nat) => [b2n e.1, e.2.1, e.2.2])⟩ :: s.ring.sent } } →
      exec (.discover p origin round) s = .next (((upPorts t).filter (fun k => k != p)).foldl (fun acc k => pushFlits k 0 0xFFFF 1 acc) t))
  ∧ (∀ (die : Nat) (manager : Bool) (ports : List (Bool × Nat × Nat)) (s : State), rdField 0 0 0x40 9 9 s ≠ 0 →
      (s.ring.enumOn = true → s.ring.placed = [] →
        exec (.discoverReply die manager ports) s
          = .next (enumCheck { s with ring := { s.ring with found := s.ring.found ++ [{ die := die, manager := manager, ports := ports }] } }))
      ∧ (s.ring.enumOn = false → rdField 5 0 0x100 20 20 s = 1 →
        exec (.discoverReply die false ports) s = .next (lateFound { die := die, manager := false, ports := ports } s)))
  ∧ (∀ (sx sy sz x y z depth : Nat) (down : List (Nat × Nat)) (s t : State), rdField 0 0 0x40 9 9 s ≠ 1 → s.ring.discovers ≠ 0 → 1 ≤ sx → sx ≤ 8 → 1 ≤ sy →
      sy ≤ 8 → 1 ≤ sz → sz ≤ 4 → x < sx → y < sy → z < sz → t = takeId (idIn (sx, sy, sz) x y z) (sx, sy, sz) (x, y, z) s →
      exec (.assign (idIn (sx, sy, sz) x y z) sx sy sz x y z depth down) s
        = .next (sendPkt 12 0 [3, idIn (sx, sy, sz) x y z] (wrField 5 0 0x110 15 8 depth
            ((List.range (sx * sy * sz)).foldl (fun acc k => setPeer k { Tbl.get ({} : Peer) acc.ring.peers k with present := true } acc)
              { t with ring := { t.ring with down := down, lastSync := some s.time.clk } }))))
  ∧ (∀ (s : State), s.ring.enumOn = true → s.ring.placed ≠ [] →
      exec .enumDone s
        = .next (raise { c := 5, i := 0, bit := 12, code := 0x0901,
                         payload := (torusSizes s).1 + 16 * (torusSizes s).2.1 + 256 * (torusSizes s).2.2 + s.ring.placed.length * 4096 }
            (wrField 5 0 0x110 1 0 3 (wrField 5 0 0x100 20 20 1 { s with ring := { s.ring with enumOn := false, found := [], discAt := s.time.clk } }))))
  ∧ (∀ (s t : State), rdField 0 0 0x40 9 9 s ≠ 0 → rdField 5 0 0x100 20 20 s ≠ 0 → t = advanceTo (s.ring.discAt + 100 * oneMs) s →
      exec .discoverRepeat s = .next (discoverOut { t with ring := { t.ring with discAt := t.time.clk } }))
  ∧ (∀ (k : Nat) (s t : State), s.ring.firstUp = some k → rdField 0 0 0x40 9 9 s ≠ 1 → s.ring.discovers = 0 → s.ring.noManager = false → upPorts s ≠ [] →
      t = advanceTo (k + oneS) s →
      exec .enumWaitTimeout s = .next (enumRefused 6 (dieId t) { t with ring := { t.ring with noManager := true } }))
  ∧ (∀ (dev p : Nat) (down : Bool) (s : State), enumerated s = true → p < 6 →
      (isManager s = true → exec (.routeUpdate dev p down) s = .next (tellRoutes dev p down s))
      ∧ (isManager s = false → exec (.routeUpdate dev p down) s = .next (markLink dev p down s)))
  ∧ (∀ (r : Req) (d : Nat) (s : State), regAt r true 5 0 0x11C s = (0, s) → d < 256 →
      (d = deviceId s → exec (.fenceCmd r d) s = .next (fenceFor 5 s))
      ∧ (d ≠ deviceId s → isManager s = true → exec (.fenceCmd r d) s = .next (sendPkt 13 d [6] s)))
  ∧ (∀ (f : Option Nat) (s t : State), t = { s with ring := { s.ring with fenceDue := none } } →
      (∀ r, s.ring.fenceDue = some r → f ≠ some 4 → fenced t = false → exec (.deviceFence f) s = .next (fenceNow r t))
      ∧ (∀ r, s.ring.fenceDue = none → f = some r → fenced t = false → exec (.deviceFence f) s = .next (fenceNow r t))
      ∧ (f = some 4 → fenced t = false → exec (.deviceFence f) s = .next (fenceNow 4 t))
      ∧ (f = some 4 → fenced t = true → fenceReason t ≠ 4 → exec (.deviceFence f) s = .next (goDark t)))
  ∧ (∀ (dev reason : Nat) (l : List (List Byte)) (s : State), enumerated s = true → dev ≠ deviceId s →
      exec (.fenceNotice dev reason l) s
        = .next (let on := natBit (rdReg 5 0 0x118 s).toNat 31
                 let t := peerFenced dev reason (!on && !l.isEmpty) s
                 if on then l.foldl (fun acc b => relayTo (rdField 5 0 0x118 19 0 s) b acc) t else t))

/-- The rows of the host ports below the command layer. -/
def Obligations.HostPortCommands : Prop :=
  (∀ (p : Nat) (f : HostFrame) (s : State), p < 2 → hostUp p s = true → blockEnabled 14 p s = true → f.fcsOk = true → f.len ≤ rdField 14 0 0x108 13 0 s →
      frameForMe p f s = true → (macsecPass p f s).1 = true → s.sec.phase ≠ 2 →
      exec (.hostFrame p f) s = .next (settleHost (rxFrame p f (macsecPass p f s).2)))
  ∧ (∀ (p rate : Nat) (s : State), p < 2 → rdField 14 p 0x40 2 0 s < 2 → 1 ≤ rate → rate < 4 → (rdField 14 p 0x44 1 0 s = 0 ∨ rdField 14 p 0x44 1 0 s = rate) →
      exec (.hostLinkUp p rate) s
        = .next (raise { c := 14, i := p, bit := 8, code := 0x0E00, payload := rate } (wrField 14 p 0x40 10 8 rate (wrField 14 p 0x40 2 0 2 s))))
  ∧ (∀ (p : Nat) (s : State), p < 2 → hostUp p s = true → exec (.hostLinkDown p) s = .next (hostDown p 0 false s))
  ∧ (∀ (s t : State) (c : HostCmd), nextFrame 0x1 s = some (c, t) → exec .sync s = .next (settleHost (runSync c t)))
  ∧ (∀ (s t u : State) (c : HostCmd) (e : Nat × Nat × Nat), t = headerAck c s → c.reserved = false → byteAt c.payload 0 < 2 →
      (c.payload.drop 1).any (fun b => b != 0) = false → u = { t with host := { t.host with peers := Tbl.put t.host.peers c.port c.src } } → e = syncEvents u →
      (qDesc 0 u).enabled = false → byteAt c.payload 0 = 0 →
      runSync c s
        = (let w := fun off => leBytes 4 (rdReg 14 0 off u).toNat
           let x := raise { c := 14, i := c.port, bit := 12, code := 0x0E01, payload := (rdReg 14 0 0x114 u).toNat + 0 * 2 ^ 32 }
             (reply c 0 0 (w 0x110 ++ w 0x114 ++ w 0x118 ++ w 0x11C ++ leBytes 4 e.1 ++ leBytes 4 0 ++ leBytes 4 0 ++ leBytes 4 (rdReg 0 0 0x68 u).toNat) u)
           (x.host.dlv.map (fun e => e.1)).foldl (fun acc q => deliverQueue q acc) x))
  ∧ (∀ (q : Nat) (s : State) (v : Dlv), Tbl.find? s.host.dlv q = some v → v.count ≠ 0 → s.host.peers ≠ [] →
      exec (.deliveryResend q) s = .next (deliverQueue q (restartQueue q (advanceTo (v.moved + rdField 14 0 0x128 31 16 s * oneUs) s))))
  ∧ (∀ (r : Req) (s : State), regAt r true 14 0 0x120 s = (0, s) →
      exec (.hostStopClear r) s = .next (wrField 14 0 0x120 1 1 0 (wrField 14 0 0x120 0 0 (rdField 14 0 0x120 0 0 s) s)))

/-- The rows of the ordinary host commands, each run to its end on this device. -/
def Obligations.HostDataCommands : Prop :=
  (∀ (c : HostCmd) (s t : State), hostNext c 0x2 s → 8 ≤ c.payload.length → leField c.payload 0 4 < 2 ^ 20 →
      ackQueue (leField c.payload 0 4) (leField c.payload 4 4) s = some t →
      exec .qack s = .next (settleHost (hostFinish c 0 [] t)))
  ∧ (∀ (c : HostCmd) (s t : State) (w : List Byte), hostNext c 0x10 s → regHeadOk c.payload = true → hostLocal (leField c.payload 0 8) s = true →
      readWordsAt .host (leField c.payload 8 2) (leField c.payload 0 8 % 2 ^ 48) { s with host := { s.host with regPort := c.port } } = (0, w, t) →
      exec .regRead s = .next (settleHost (hostFinish c 0 w t)))
  ∧ (∀ (c : HostCmd) (n : Nat) (s t : State), hostNext c 0x11 s → regHeadOk c.payload = true → 10 + 4 * leField c.payload 8 2 ≤ c.payload.length →
      hostLocal (leField c.payload 0 8) s = true →
      writeWordsAt .host (wordsOf (c.payload.drop 10) (leField c.payload 8 2)) (leField c.payload 0 8 % 2 ^ 48) 0
          { s with host := { s.host with regPort := c.port } } = (0, n, t) →
      exec .regWrite s = .next (settleHost (hostFinish c 0 (leBytes 2 n) t)))
  ∧ (∀ (c : HostCmd) (b n : Nat) (s t : State), hostNext c 0x20 s → b = leField c.payload 0 8 % 2 ^ 48 → n = leField c.payload 8 4 → 12 ≤ c.payload.length →
      byteAt c.payload 7 = 0 → 1 ≤ n → n + 64 ≤ rdField 14 0 0x108 13 0 s → hostLocal (leField c.payload 0 8) s = true → touchesRegs b n = false →
      hostRead c.port (pieces b n) s = (⟨0, 0⟩, t) →
      exec .memRead s = .next (settleHost (hostFinish c 0 (rdBytes t b n) t)))
  ∧ (∀ (c : HostCmd) (b n k : Nat) (s t : State), hostNext c 0x21 s → b = leField c.payload 0 8 % 2 ^ 48 → n = leField c.payload 8 4 →
      12 + n ≤ c.payload.length → byteAt c.payload 7 = 0 → 1 ≤ n → hostLocal (leField c.payload 0 8) s = true → touchesRegs b n = false →
      hostWrite c.port ((c.payload.drop 12).take n) (pieces b n) 0 s = ((⟨0, 0⟩, k), t) →
      exec .memWrite s = .next (settleHost (hostFinish c 0 (leBytes 4 k) t)))
  ∧ (∀ (c : HostCmd) (s : State), hostNext c 0x30 s → 8 ≤ c.payload.length → leField c.payload 0 4 < 2 ^ 20 → byteAt c.payload 4 < 128 →
      leField c.payload 5 3 = 0 → memUp s = true →
      exec .queuePush s
        = .next (let r := hostPush (leField c.payload 0 4) (byteAt c.payload 4) (c.payload.drop 8) s
                 settleHost (hostFinish c 0 (leBytes 4 r.1) r.2)))
  ∧ (∀ (c : HostCmd) (b : List Byte) (devs : List Nat) (s t : State), hostNext c 0x40 s → isManager s = true → 8 ≤ c.payload.length → groupOk c.payload = true →
      b = c.payload.take 4 ++ leBytes 2 (groupD c.payload s) ++ c.payload.drop 6 → devs = (byteAt c.payload 3 :: (groupMembers c.payload).map (fun e => e.1)).eraseDups →
      devs.contains (deviceId s) = true → takeGroup b (groupD c.payload s) s = some t →
      exec (.barrierGroup none) s
        = .next (settleHost (hostFinish c 0 [] ((devs.filter (fun d => d != deviceId s)).foldl (fun acc d => sendPkt 10 d (b.map (fun x => x.toNat)) acc) t))))
  ∧ (∀ (b : List Byte) (s t : State), enumerated s = true → groupOk b = true → 8 ≤ b.length → takeGroup b (leField b 4 2) s = some t →
      exec (.barrierGroup (some b)) s = .next t)
  ∧ (∀ (c : HostCmd) (u : ReqUse) (s t : State), hostNext c 0x41 s → u = .host c.port c.seq → isManager s = true → detOk c.payload = true →
      t = (List.range (c.payload.length / 16)).foldl (fun acc k => putDet u c.payload k acc) s → reqOut u t = false →
      exec .detSlots s = .next (settleHost (hostFinish c (ringAnswer c u t).1 (ringAnswer c u t).2 (dropUse u t))))
  ∧ (∀ (c : HostCmd) (s : State), hostNext c 0x50 s → 44 ≤ c.payload.length → byteAt c.payload 0 < 4 → byteAt c.payload 1 < 4 → byteAt c.payload 2 < 4 →
      byteAt c.payload 3 = 0 →
      exec .macsecKey s
        = .next (settleHost (match unwrapKey s.sec.linkKey ((c.payload.drop 4).take 40) with
            | some sak => hostFinish c 0 [] ((bitList 2 (byteAt c.payload 0)).foldl
                (fun acc k => installKey (natBit (byteAt c.payload 1) 0) (natBit (byteAt c.payload 1) 1) sak (byteAt c.payload 2) k acc) s)
            | none => hostFinish c 6 [] s)))

/-- The rows of the priority commands. -/
def Obligations.HostPriorityCommands : Prop :=
  (∀ (c : HostCmd) (s t u : State), nextStop s = some (c, t) → 2 ≤ c.payload.length → rdField 14 0 0x120 0 0 (headerAck c t) ≠ 0 →
      u = raise (evStop c.port (byteAt c.payload 0) c.src.mac) (headerAck c t) → stopsMe (byteAt c.payload 0) (natBit (byteAt c.payload 1) 0) u = true →
      rdField 14 0 0x120 1 1 u = 0 → c.reserved = false → byteAt c.payload 1 < 2 → leField c.payload 2 2 = 0 →
      exec .hostStop s = .next (settleHost (reply c 0 0 [] (latchStop u))))
  ∧ (∀ (c : HostCmd) (n : Nat) (s t : State), prioNext c 0xF1 s t → n = byteAt c.payload 0 → 2 ≤ c.payload.length → byteAt c.payload 1 = 0 →
      (n = 0xFF → exec .kill s
        = .next (let ids := (t.jobs.filter (fun j => j.phase != .held)).map (fun j => j.d.id)
                 settleHost (reply c 0 0 (leBytes 1 (min ids.length 255)) (noteDone true c.seq 0 (ids.foldl (fun acc i => killJob i acc) t)))))
      ∧ (1 ≤ n → n ≤ 8 → 2 + 2 * n ≤ c.payload.length → exec .kill s
        = .next (let live := (t.jobs.filter (fun j => j.phase != .held)).map (fun j => j.d.id)
                 let ids := ((List.range n).map (fun k => leField c.payload (2 + 2 * k) 2)).eraseDups.filter (fun i => live.contains i)
                 settleHost (reply c 0 0 (leBytes 1 (min ids.length 255)) (noteDone true c.seq 0 (ids.foldl (fun acc i => killJob i acc) t))))))
  ∧ (∀ (c : HostCmd) (s t : State), 1 ≤ c.payload.length → byteAt c.payload 0 < 4 →
      (prioNext c 0xF2 s t → exec .hostHold s
        = .next (settleHost (reply c 0 0 [] (noteDone true c.seq 0 (wrReg 14 0 0x124 (rdReg 14 0 0x124 t ||| BitVec.ofNat 32 (byteAt c.payload 0)) t)))))
      ∧ (prioNext c 0xF3 s t → exec .hostRelease s
        = .next (settleHost (reply c 0 0 [] (noteDone true c.seq 0 (wrReg 14 0 0x124 (rdReg 14 0 0x124 t &&& ~~~(BitVec.ofNat 32 (byteAt c.payload 0))) t))))))

/-- The rows of updates and settings. -/
def Obligations.UpdateCommands : Prop :=
  (∀ (c : HostCmd) (s : State), hostNext c 0x100 s → 20 ≤ c.payload.length → byteAt c.payload 0 ≤ 2 → leField c.payload 1 7 = 0 → s.sec.stage = none →
      updState s ≠ 3 → (byteAt c.payload 0 = 0 → updState s ≠ 4) → armed 15 0 6 s = false →
      exec .updateStage s
        = .next (settleHost (hostFinish c 0 [] (setUpd 1 (wrField 15 0 0x48 31 16 0 { s with sec := { s.sec with stage :=
                                                                                                                   some { target := byteAt c.payload 0, src := leField c.payload 8 8, len := leField c.payload 16 4, fail := false,
                                                                                                                          prev := if byteAt c.payload 0 = 0 then 0 else updState s } } })))))
  ∧ (∀ (bad : Option Nat) (s t u : State) (r : StageRun), s.sec.stage = some r → r.fail = false → t = { s with sec := { s.sec with stage := none } } →
      fetchMem r.src r.len t = (0, u) →
      (r.target = 2 →
        exec (.updateDone bad) s
          = .next (let b := rdBytes u (r.src % 2 ^ 48) r.len
                   match recordCause b u with
                   | some k => stageFail r k false u
                   | none => evUpdateDone 0 (leField b 12 4) (setUpd r.prev { u with settings := { u.settings with waiting := u.settings.waiting ++ [recordOf b] } })))
      ∧ (r.target ≠ 2 → exec (.updateDone bad) s = .next (stageImage r (rdBytes u (r.src % 2 ^ 48) r.len) bad u)))
  ∧ (∀ (c : HostCmd) (h : List Byte) (s : State), hostNext c 0x101 s → updState s = 2 → h = flashBytes (slotBase (inactiveSlot s)) 4096 s →
      s.sec.main ≤ imgSvn h → liveOk s.sec.run h = true →
      exec .updateActivate s
        = .next (settleHost (hostFinish c 0 [] (setUpd 3 { s with sec := { s.sec with swaps := [1, 2, 3, 4], swapTo := inactiveSlot s, back := false } }))))
  ∧ (∀ (id : Nat) (s t : State), s.sec.swaps.contains id = true → swapPoint id s = true → t = { s with sec := { s.sec with swaps := s.sec.swaps.erase id } } →
      exec (.componentSwap id) s = .next (if t.sec.swaps.isEmpty then swapDone t else t))
  ∧ (∀ (c : HostCmd) (d : BootDesc) (s t : State), hostNext c 0x102 s → d = descriptor s → 1 ≤ c.payload.length → byteAt c.payload 0 = 0 → updState s = 4 →
      d.pending < 2 → s.sec.slot = d.pending →
      t = writeDescriptor { d with active := d.pending, pending := 0xFF, tries := 0, version := imgVersion s.sec.run } s → updState t = 4 →
      exec .updateCommit s
        = .next (let e := evUpdateDone 2 (imgVersion s.sec.run) (wrField 15 0 0x44 2 2 0 (setUpd 0 t))
                 settleHost (hostFinish c 0 [] e)))
  ∧ (∀ (c : HostCmd) (s : State), hostNext c 0x103 s →
      (updState s = 2 → exec .updateAbort s = .next (settleHost (hostFinish c 0 [] (evUpdateDone 3 (imgVersion s.sec.run) (setUpd 0 s)))))
      ∧ (updState s = 4 → exec .updateAbort s
          = .next (settleHost (hostFinish c 0 [] (setUpd 3 { s with sec := { s.sec with swaps := [1, 2, 3, 4], swapTo := s.sec.before, back := true } })))))
  ∧ (∀ (s : State) (r : SetRec) (l : List SetRec), s.settings.waiting = r :: l → s.settings.compacting = false → r.size ≤ settingsFree s → armed 15 2 5 s = false →
      exec (.settingsRecordAppend false) s = .next (appendRecord r { s with settings := { s.settings with waiting := l } }))
  ∧ (∀ (s : State), s.settings.compacting = true → exec .settingsCompaction s = .next (compact s))

/-- The rows of the security block. -/
def Obligations.SecurityCommands : Prop :=
  (∀ (c : HostCmd) (a k : Nat) (s t u : State), hostNext c 0x110 s → a = leField c.payload 32 8 → k = attestTokens s → 40 ≤ c.payload.length → s.sec.fuses < 1024 →
      1 ≤ k → k ≠ 240 → s.sec.bottom < 32768 → hostLocal a s = true → regionOf s (a % 2 ^ 48) 5380 = .lpddr → t = reserveIndex (wrField 15 1 0x4C 7 0 (k - 1) s) →
      access 15 1 0 .scribe .write (a % 2 ^ 48) 5380 (attestRecord (c.payload.take 32) s.sec.bottom t) { t with sec := { t.sec with bottom := t.sec.bottom + 1 } }
        = (⟨0, 0⟩, u) →
      exec .attest s = .next (settleHost (hostFinish c 0 (leBytes 4 5380) (turnTree u))))
  ∧ (∀ (s : State), s.sec.treeGen = true →
      exec .bottomTreeReady s = .next (turnTree { s with sec := { s.sec with treeGen := false, treeReady := true } }))
  ∧ (∀ (s t : State), attestTokens s < 240 → t = advanceTo (s.sec.refill + 15000000 * oneUs) s →
      exec .attestTokenRefill s
        = .next (wrField 15 1 0x4C 7 0 (attestTokens s + 1) { t with sec := { t.sec with refill := s.sec.refill + 15000000 * oneUs } }))
  ∧ (∀ (c : HostCmd) (s : State), hostNext c 0x111 s →
      exec .debugChallenge s
        = .next (settleHost (hostFinish c 0 (leBytes 32 (fresh s).1)
            { (fresh s).2 with sec := { (fresh s).2.sec with nonce := some (leBytes 32 (fresh s).1, (fresh s).2.time.clk + 300000000 * oneUs) } })))
  ∧ (∀ (c : HostCmd) (b : List Byte) (k : Nat) (s t u : State), hostNext c 0x112 s → 12 ≤ c.payload.length → 64 ≤ leField c.payload 8 4 →
      fetchMem (leField c.payload 0 8) (leField c.payload 8 4) s = (0, t) → b = rdBytes t (leField c.payload 0 8 % 2 ^ 48) (leField c.payload 8 4) →
      t.sn.safeOut = false → nonceOk ((b.drop 16).take 32) t = true → u = { t with sec := { t.sec with nonce := none } } → leField b 8 7 = dieId u →
      issuerKey (byteAt b 4) u = some k → leField b 0 4 = 0x4B434E55 →
      exec .debugUnlock s
        = .next (settleHost (if signatureOk (byteAt b 4 == 1) k (b.take 64) (b.drop 64) = true
            then hostFinish c 0 [] (raise { c := 15, i := 1, bit := 6, code := 0x8F01, payload := byteAt b 4 + byteAt b 5 % 16 * 2 + leField b 48 4 * 32 }
              (wrReg 15 3 0x40 (BitVec.ofNat 32 (1 + byteAt b 4 * 2 + byteAt b 5 % 16 * 4))
                { u with sec := { u.sec with dbgEnd := u.time.clk + leField b 48 4 * (1000000 * oneUs) } }))
            else hostFinish c 6 [] (unlockRefused 3 u).2)))
  ∧ (∀ (r : Req) (s : State), debugOpen s = true →
      (regAt r true 15 3 0x44 s = (0, s) → exec (.debugLock r) s = .next (debugLock 0 s)) ∧ exec .debugExpiry s = .next (debugLock 1 (advanceTo s.sec.dbgEnd s)))
  ∧ (∀ (c : HostCmd) (s : State), hostNext c 0x113 s → 64 ≤ c.payload.length → s.sec.owners = [] → s.sn.safeOut = false →
      exec .provision s
        = .next (settleHost (hostFinish c 0 [] { s with sec := { s.sec with owners := [(0, ⟨c.payload.take 32, (c.payload.drop 32).take 32, false⟩)] } })))

/-- The rows of reset and boot. -/
def Obligations.ResetAndBootCommands : Prop :=
  (∀ (straps banks : Nat) (s : State), exec (.powerOnReset straps banks) s = .next (latchPins straps banks (resetDevice 0 0 s))
      ∧ exec (.resetPin straps banks) s = .next (latchPins straps banks (resetDevice 1 s.sec.hold s)))
  ∧ (∀ s : State, (s.sec.phase = 1 ∨ s.sec.phase = 3) → exec .mgmtWatchdog s = .next (resetDevice 3 0 s))
  ∧ (∀ (rail mv : Nat) (s : State), railTrips rail mv s = true → exec (.railUndervoltage rail mv) s = .next (resetDevice 0 2 s))
  ∧ (∀ s : State, s.sec.hold = 0 → exec .refclkLoss s = .next (resetDevice 4 3 (snFault 1 s)))
  ∧ (∀ s : State, s.sec.hold = 3 → exec .refclkReturn s = .next { advance (100 * oneUs) s with sec := { (advance (100 * oneUs) s).sec with hold := 0 } })
  ∧ (∀ (fails : List Nat) (s : State), s.sec.phase = 0 → (s.sec.hold = 0 ∨ s.sec.hold = 2) → natBit (rdReg 0 0 0x48 s).toNat 1 = false → 2 ≤ (descriptor s).pending →
      exec (.boot fails) s
        = .next (let a := (descriptor s).active % 2
                 match slotCause a s with
                 | none => startImage a 0 fails s
                 | some k =>
                   let t := imageRejected a k s
                   match slotCause (1 - a) t with
                   | none => startImage (1 - a) (bootReason k) fails (evFallback (1 - a) (bootReason k) t)
                   | some k2 => bootRecovery (bootReason k) true fails (imageRejected (1 - a) k2 t)))

/-- The canonical forms of memory and of the flash are kept by every step; the forms themselves are the model's (log entry 5). -/
def Obligations.StepKeepsCanonicalForms : Prop := ∀ s t : State, memInv s → step s = .next t → memInv t

/-- SAFE_OUT asserted means that the checker is up and a main image runs: no step breaks it. -/
def Obligations.StepKeepsSafeOutLegal : Prop := ∀ s t : State, armedInv s → step s = .next t → armedInv t

/-- Fuses do not heal: what otpKept says, for every step. -/
def Obligations.StepKeepsOneTimeMemory : Prop := ∀ s t : State, step s = .next t → otpKept s t

/-- The queue, the model clock and the event numbers, over every step. -/
def Obligations.StepKeepsQueueClockAndNumbers : Prop :=
  ∀ s t : State, step s = .next t → t.pending = s.pending.tail ∧ s.time.clk ≤ t.time.clk ∧ (s.ev.next ≠ 0 → t.ev.next ≠ 0)

/-- The frame of every command, part by part; `footprint` lists for each command what it may change. -/
def Obligations.CommandsStayInFootprint : Prop := ∀ (c : Instr) (s t : State), exec c s = .next t → Within (footprint c) s t

/-- The base of the invariants that every step keeps. -/
def Obligations.ResetMeetsInvariants : Prop :=
  memInv State.reset ∧ armedInv State.reset ∧ State.reset.sn.safeOut = false ∧ State.reset.ev.next = 1 ∧ State.reset.pending = []

/-- R75 over every NaN encoding, every destination format (codes 0 to 12) and both overflow modes. -/
def Obligations.NanConversion : Prop :=
  ∀ (src bits : Nat) (F : FpFmt) (ieee : Bool), fpFmt src = some F → F.value bits = .nan →
    convertTo 0 ieee (F.value bits) = (0x7FC00000, 0) ∧ convertTo 1 ieee (F.value bits) = (0x7FC0, 0)
    ∧ convertTo 2 ieee (F.value bits) = (0x7E00, 0) ∧ convertTo 3 ieee (F.value bits) = (0x7F, 0)
    ∧ convertTo 4 ieee (F.value bits) = (0x7E, 0)
    ∧ (∀ fmt, 5 ≤ fmt → fmt ≤ 12 → convertTo fmt ieee (F.value bits) = (0, nsNanToZero))
    ∧ (∀ f, toQ f (F.value bits) = (0, nsNanToZero))

/-- Decoding and encoding of every float format agree. -/
def Obligations.FloatEncodingsRoundTrip : Prop :=
  ∀ (fmt bits : Nat) (F : FpFmt), fpFmt fmt = some F → bits < 2 ^ F.width → F.value bits ≠ .nan →
    convertTo fmt true (F.value bits) = (bits, 0)

/-- R345: the moment of assertion is a write of SN_ARM that the checker accepts; the trip is every cause's own operation. -/
def Obligations.ArmingClearsHistory : Prop :=
  (∀ (v : Word) (s : State) (k : Nat), s.sn.safeOut = false → (wrSnArm v s).sn.safeOut = true →
    snHist k (wrSnArm v s) = { snHist k s with consec := 0, outcomes := [] })
  ∧ (∀ (bit slot : Nat) (s : State) (k : Nat), (trip bit slot s).sn.safeOut = false ∧ snHist k (trip bit slot s) = snHist k s)

/-- R49, from the queue's head to the refusal. -/
def Obligations.ReservedJobIdRefused : Prop :=
  ∀ (q : Nat) (s t : State) (b : List Byte), (qDesc q s).enabled = true → (qDesc q s).consumer = 3 → blockEnabled 15 0 s = true → memUp s = true →
    engineTake q s = some (b, t) → b.length = 128 → leField b 0 2 = 0xFFFF → complReady (JobDesc.read b).complQ s = true →
    exec (.jobDescriptor q) s = .next (refuseJob (JobDesc.read b) q 6 0 { t with arrivals := t.arrivals + 1 })
    ∧ (refuseJob (JobDesc.read b) q 6 0 { t with arrivals := t.arrivals + 1 }).jobs = t.jobs

/-- R39 for every requester that may access the page. -/
def Obligations.UnpoweredBlockAnswers : Prop :=
  ∀ (r : Req) (c i off : Nat) (s : State), pageExists c i = true → off < 0x1000 → off % 4 = 0 → blockPowered c i s = false →
    (regAllowed r false c i off s = true → ∃ w : Word, readReg r (regAddr c i off) 4 s = (0, w, s)
      ∧ (off = 0 → w = BitVec.ofNat 32 (c * 2 ^ 24 + i * 65536 + 0x4101)) ∧ (off = 4 → w = BitVec.ofNat 32 (capsReg c i s))
      ∧ (off = 0xC → natBit w.toNat 2 = false) ∧ (off ≠ 0 → off ≠ 4 → off ≠ 0xC → w = 0))
    ∧ (regAllowed r true c i off s = true → ∀ v : Word,
        writeReg r (regAddr c i off) 4 v s = (4, raise (evDomainOff c i (regAddr c i off) (blockDomain c i) 2 r s) s)
        ∧ ∀ d, domainOn d (writeReg r (regAddr c i off) 4 v s).2 = domainOn d s)

/-- R398, both ways. -/
def Obligations.DeviceIdsAndCoordinates : Prop :=
  ∀ (s : State) (x y z sx sy sz : Nat), torusSizes s = (sx, sy, sz) → x < sx → y < sy → z < sz →
    idOf s x y z = x + sx * (y + sy * z) ∧ idOf s x y z < sx * sy * sz
    ∧ coordOf s (idOf s x y z) 0 = x ∧ coordOf s (idOf s x y z) 1 = y ∧ coordOf s (idOf s x y z) 2 = z
    ∧ idOf s 0 0 0 = 0

/-- The address map of main memory is one-to-one on units. -/
def Obligations.MainMemoryMapOneToOne : Prop :=
  (∀ a b : Nat, mcLoc a = mcLoc b → a / 2048 = b / 2048)
  ∧ (∀ a : Nat, (mcLoc a).mc < 8 ∧ (mcLoc a).ch < 8 ∧ (mcLoc a).rank < 2 ∧ (mcLoc a).bank < 16
      ∧ (a < 2 ^ 38 → (mcLoc a).row < 65536) ∧ (a < 0x3800000000 → (mcLoc a).row < 57344))
  ∧ mcLoc 0x1234567800 = ⟨7, 3, 18641, 0, 10⟩

/-- The read-back and the frame of memory. -/
def Obligations.MemoryBytesReadBack : Prop :=
  (∀ (a : Nat) (l : List Byte) (s : State),
    rdBytes (wrBytes a l s) a l.length = l
    ∧ (∀ x, x < a ∨ a + l.length ≤ x → rdByte (wrBytes a l s) x = rdByte s x)
    ∧ { wrBytes a l s with mem := s.mem } = s)
  ∧ (∀ (a n : Nat) (s : State),
    (∀ x, rdByte (zeroBytes a n s) x = if a ≤ x ∧ x < a + n then 0 else rdByte s x)
    ∧ { zeroBytes a n s with mem := s.mem } = s)

/-- The 128-bit partial-sum word, both ways. -/
def Obligations.PartialSumWord : Prop :=
  (∀ a : Acc, -(2 ^ 95 : Int) ≤ a.value → a.value < (2 ^ 95 : Int) →
    a.word < 2 ^ 128 ∧ (Acc.zero.addWord a.word).value = a.value ∧ (Acc.zero.addWord a.word).poison = a.poison
    ∧ (Acc.zero.addWord a.word).sat = a.sat ∧ (Acc.zero.addWord a.word).count = min a.count 0xFFFF)
  ∧ (∀ (a : Acc) (w x : Nat), (a.addWord w).addWord x = (a.addWord x).addWord w)

/-- The window and the order-freedom of the exact path, over lists of contributions (size, group, forced saturation). -/
def Obligations.ExactSumsBoundedAndOrderFree : Prop :=
  (∀ l : List (Int × Nat × Bool), l.length ≤ 2 ^ 24 - 1 →
    (l.foldl (fun a c => a.add c.1 c.2.1 c.2.2) Acc.zero).value.natAbs < 2 ^ 95)
  ∧ (∀ (a : Acc) (c : Int) (g : Nat), c.natAbs ≤ 2 ^ 71 - 1 → (a.add c g false).value = a.value + c ∧ (a.add c g false).sat = a.sat)
  ∧ (∀ (l m : List (Int × Nat × Bool)) (a : Acc), l.Perm m →
      (l.foldl (fun a c => a.add c.1 c.2.1 c.2.2) a).value = (m.foldl (fun a c => a.add c.1 c.2.1 c.2.2) a).value
      ∧ (l.foldl (fun a c => a.add c.1 c.2.1 c.2.2) a).sat = (m.foldl (fun a c => a.add c.1 c.2.1 c.2.2) a).sat
      ∧ (l.foldl (fun a c => a.add c.1 c.2.1 c.2.2) a).count = (m.foldl (fun a c => a.add c.1 c.2.1 c.2.2) a).count)

/-- The descriptors' layouts, both ways, with every field at every value its width admits. -/
def Obligations.DescriptorsRoundTrip : Prop :=
  (∀ d : QDesc, d.base < 2 ^ 48 → d.sizeLog2 < 32 → d.consumer < 8 → d.recordSize < 2 ^ 24 → d.wr < 2 ^ 32 → d.rd < 2 ^ 32 → d.res < 2 ^ 32 →
    d.notices < 2 ^ 32 → d.packets < 2 ^ 32 → d.jobMatch < 2 ^ 16 → d.jobMask < 2 ^ 16 → d.devMatch < 256 → d.devMask < 256 → d.reserve < 2 ^ 16 →
    d.sigJob < 2 ^ 16 → d.sigRank < 256 → d.sigSem < 32 → d.noticeMode < 4 → d.dropped < 2 ^ 32 →
    d.bytes.length = 64 ∧ QDesc.read d.bytes = d)
  ∧ (∀ d : CtxDesc, d.state < 4 → d.kFmt < 16 → d.vFmt < 16 → d.heads < 256 → d.dim32 < 16 → d.layers < 2 ^ 16 → d.kvX < 256 → d.len < 2 ^ 32 →
    d.reserved < 2 ^ 32 → d.pt < 2 ^ 48 → d.ptStride < 2 ^ 32 → d.stamp < 2 ^ 32 → d.gen < 2 ^ 32 →
    d.bytes.length = 64 ∧ CtxDesc.read d.bytes = d)
  ∧ (∀ d : FolioDesc, d.slot < 2 ^ 24 → d.state < 4 → d.kFmt < 16 → d.vFmt < 16 → d.gen < 256 → d.refs < 2 ^ 16 → d.stamp < 2 ^ 32 → d.next < 2 ^ 24 →
    d.bytes.length = 16 ∧ FolioDesc.read d.bytes = d)

/-- What raising an event leaves, whatever the event queue does with its record. -/
def Obligations.RaisedEventsStayVisible : Prop :=
  ∀ (e : Ev) (s : State), e.c < 16 → e.i < 256 → e.bit < 32 →
    natBit (rdReg e.c e.i 0x10 (raise e s)).toNat e.bit = true
    ∧ (∀ c i k, c < 16 → i < 256 → natBit (rdReg c i 0x10 s).toNat k = true → natBit (rdReg c i 0x10 (raise e s)).toNat k = true)
    ∧ (e.safety = false → natBit (rdReg e.c e.i 0x14 s).toNat e.bit = true →
        raise e s = wrReg e.c e.i 0x10 (rdReg e.c e.i 0x10 s ||| BitVec.ofNat 32 (2 ^ e.bit)) s)
    ∧ (s.sn.safeOut = false → (raise e s).sn.safeOut = false) ∧ (raise e s).sn.hist = s.sn.hist
    ∧ (raise e s).jobs = s.jobs ∧ (raise e s).quills = s.quills
end

