-- ==== Sys2Proof/Laws/Tbl.lean ====
section
/-! SUPPORT. Laws of the sparse tables: reading back, other keys, the canonical form. -/

set_option Elab.async false

namespace Sys2Proof

variable {α : Type}

@[simp] theorem Tbl.get_nil (d : α) (k : Nat) : Tbl.get d [] k = d := rfl

theorem Tbl.get_erase_self (d : α) (t : Tbl α) (k : Nat) : Tbl.get d (Tbl.erase t k) k = d := by
  induction t with
  | nil => rfl
  | cons e t ih =>
    obtain ⟨j, v⟩ := e
    by_cases h : j = k <;> simp [Tbl.erase, Tbl.get, h, ih]

theorem Tbl.get_erase_ne (d : α) (t : Tbl α) {k i : Nat} (h : i ≠ k) : Tbl.get d (Tbl.erase t k) i = Tbl.get d t i := by
  induction t with
  | nil => rfl
  | cons e t ih =>
    obtain ⟨j, v⟩ := e
    by_cases hj : j = k
    · have : j ≠ i := fun e => h (e ▸ hj)
      simp [Tbl.erase, Tbl.get, hj, ih, hj ▸ this]
    · simp [Tbl.erase, Tbl.get, hj, ih]

/-- A key that no entry has. -/
def Tbl.absent (t : Tbl α) (k : Nat) : Prop := ∀ e ∈ t, e.1 ≠ k

theorem Tbl.absent_erase (t : Tbl α) (k : Nat) : Tbl.absent (Tbl.erase t k) k := by
  induction t with
  | nil => intro e he; cases he
  | cons e t ih =>
    obtain ⟨j, v⟩ := e
    by_cases h : j = k
    · simpa [Tbl.erase, h] using ih
    · intro x hx
      simp only [Tbl.erase, h, if_false, List.mem_cons] at hx
      rcases hx with rfl | hx
      · exact h
      · exact ih x hx

theorem Tbl.get_insert_self (d : α) (t : Tbl α) (k : Nat) (v : α) (h : Tbl.absent t k) : Tbl.get d (Tbl.insert t k v) k = v := by
  induction t with
  | nil => simp [Tbl.insert, Tbl.get]
  | cons e t ih =>
    obtain ⟨j, u⟩ := e
    have hj : j ≠ k := h (j, u) (by simp)
    by_cases hk : k < j
    · simp [Tbl.insert, Tbl.get, hk]
    · simp [Tbl.insert, Tbl.get, hk, hj, ih (fun x hx => h x (by simp [hx]))]

theorem Tbl.get_insert_ne (d : α) (t : Tbl α) {k i : Nat} (v : α) (h : i ≠ k) : Tbl.get d (Tbl.insert t k v) i = Tbl.get d t i := by
  induction t with
  | nil => simp [Tbl.insert, Tbl.get, h.symm]
  | cons e t ih =>
    obtain ⟨j, u⟩ := e
    by_cases hk : k < j
    · simp [Tbl.insert, Tbl.get, hk, h.symm]
    · simp [Tbl.insert, Tbl.get, hk, ih]

theorem Tbl.add_eq [DecidableEq α] (d : α) (t : Tbl α) (k : Nat) (v : α) : Tbl.add d t k v = if v = d then t else Tbl.insert t k v := by
  cases t <;> rfl

theorem Tbl.set_eq [DecidableEq α] (d : α) (t : Tbl α) (k : Nat) (v : α) :
    Tbl.set d t k v = if v = d then Tbl.erase t k else Tbl.insert (Tbl.erase t k) k v := Tbl.add_eq d _ k v

/-- A table reads back what was put at a key. -/
@[simp] theorem Tbl.get_set_self [DecidableEq α] (d : α) (t : Tbl α) (k : Nat) (v : α) : Tbl.get d (Tbl.set d t k v) k = v := by
  rw [Tbl.set_eq]
  split
  · next h => rw [h, Tbl.get_erase_self]
  · exact Tbl.get_insert_self d _ k v (Tbl.absent_erase t k)

/-- And its other keys as before. -/
theorem Tbl.get_set_ne [DecidableEq α] (d : α) (t : Tbl α) {k i : Nat} (v : α) (h : i ≠ k) : Tbl.get d (Tbl.set d t k v) i = Tbl.get d t i := by
  rw [Tbl.set_eq]
  split
  · exact Tbl.get_erase_ne d t h
  · rw [Tbl.get_insert_ne d _ v h, Tbl.get_erase_ne d t h]

/-- Another key's default may be another. -/
theorem Tbl.get_set_other [DecidableEq α] (d d' : α) (t : Tbl α) {k i : Nat} (v : α) (h : i ≠ k) : Tbl.get d' (Tbl.set d t k v) i = Tbl.get d' t i := by
  rw [Tbl.set_eq]
  split
  · exact Tbl.get_erase_ne d' t h
  · rw [Tbl.get_insert_ne d' _ v h, Tbl.get_erase_ne d' t h]

theorem Tbl.get_set [DecidableEq α] (d : α) (t : Tbl α) (k i : Nat) (v : α) :
    Tbl.get d (Tbl.set d t k v) i = if i = k then v else Tbl.get d t i := by
  by_cases h : i = k
  · subst h; simp
  · simp [h, Tbl.get_set_ne d t v h]

theorem Tbl.find?_erase_ne (t : Tbl α) {k i : Nat} (h : i ≠ k) : Tbl.find? (Tbl.erase t k) i = Tbl.find? t i := by
  induction t with
  | nil => rfl
  | cons e t ih =>
    obtain ⟨j, v⟩ := e
    by_cases hj : j = k
    · have : j ≠ i := fun e => h (e ▸ hj)
      simp [Tbl.erase, Tbl.find?, hj, ih, hj ▸ this]
    · simp [Tbl.erase, Tbl.find?, hj, ih]

theorem Tbl.find?_insert_self (t : Tbl α) (k : Nat) (v : α) (h : Tbl.absent t k) : Tbl.find? (Tbl.insert t k v) k = some v := by
  induction t with
  | nil => simp [Tbl.insert, Tbl.find?]
  | cons e t ih =>
    obtain ⟨j, u⟩ := e
    have hj : j ≠ k := h (j, u) (by simp)
    by_cases hk : k < j
    · simp [Tbl.insert, Tbl.find?, hk]
    · simp [Tbl.insert, Tbl.find?, hk, hj, ih (fun x hx => h x (by simp [hx]))]

theorem Tbl.find?_insert_ne (t : Tbl α) {k i : Nat} (v : α) (h : i ≠ k) : Tbl.find? (Tbl.insert t k v) i = Tbl.find? t i := by
  induction t with
  | nil => simp [Tbl.insert, Tbl.find?, h.symm]
  | cons e t ih =>
    obtain ⟨j, u⟩ := e
    by_cases hk : k < j
    · simp [Tbl.insert, Tbl.find?, hk, h.symm]
    · simp [Tbl.insert, Tbl.find?, hk, ih]

/-- An entry that was put is found. -/
@[simp] theorem Tbl.find?_put_self (t : Tbl α) (k : Nat) (v : α) : Tbl.find? (Tbl.put t k v) k = some v :=
  Tbl.find?_insert_self _ k v (Tbl.absent_erase t k)

/-- And the other entries are found as before. -/
theorem Tbl.find?_put_ne (t : Tbl α) {k i : Nat} (v : α) (h : i ≠ k) : Tbl.find? (Tbl.put t k v) i = Tbl.find? t i := by
  rw [Tbl.put, Tbl.find?_insert_ne _ v h, Tbl.find?_erase_ne t h]

variable [DecidableEq α]

theorem Tbl.wfFrom_mono {d : Nat → α} {t : Tbl α} {lo hi : Nat} (h : lo ≤ hi) : Tbl.wfFrom d hi t = true → Tbl.wfFrom d lo t = true := by
  cases t with
  | nil => simp [Tbl.wfFrom]
  | cons e t =>
    obtain ⟨k, v⟩ := e
    simp only [Tbl.wfFrom, Bool.and_eq_true, decide_eq_true_eq]
    rintro ⟨⟨h1, h2⟩, h3⟩
    exact ⟨⟨by omega, h2⟩, h3⟩

theorem Tbl.wfFrom_erase {d : Nat → α} (t : Tbl α) (lo k : Nat) : Tbl.wfFrom d lo t = true → Tbl.wfFrom d lo (Tbl.erase t k) = true := by
  induction t generalizing lo with
  | nil => simp [Tbl.erase]
  | cons e t ih =>
    obtain ⟨j, v⟩ := e
    simp only [Tbl.wfFrom, Bool.and_eq_true, decide_eq_true_eq]
    rintro ⟨⟨h1, h2⟩, h3⟩
    by_cases hj : j = k
    · simp only [Tbl.erase, hj, if_true]
      exact Tbl.wfFrom_mono (by omega) (ih _ h3)
    · simp [Tbl.erase, hj, Tbl.wfFrom, h1, h2, ih _ h3]

theorem Tbl.wfFrom_insert {d : Nat → α} (t : Tbl α) (lo k : Nat) (v : α) (hlo : lo ≤ k) (hv : v ≠ d k) (ha : Tbl.absent t k) :
    Tbl.wfFrom d lo t = true → Tbl.wfFrom d lo (Tbl.insert t k v) = true := by
  induction t generalizing lo with
  | nil => simp [Tbl.insert, Tbl.wfFrom, hlo, hv]
  | cons e t ih =>
    obtain ⟨j, u⟩ := e
    have hj : j ≠ k := ha (j, u) (by simp)
    simp only [Tbl.wfFrom, Bool.and_eq_true, decide_eq_true_eq]
    rintro ⟨⟨h1, h2⟩, h3⟩
    by_cases hk : k < j
    · simp [Tbl.insert, hk, Tbl.wfFrom, hlo, hv, h2, h3]
    · simp only [Tbl.insert, hk, if_false, Tbl.wfFrom, Bool.and_eq_true, decide_eq_true_eq]
      exact ⟨⟨h1, h2⟩, ih _ (by omega) (fun x hx => ha x (by simp [hx])) h3⟩

/-- A write keeps a table's canonical form. -/
theorem Tbl.wf_set {d : α} (t : Tbl α) (k : Nat) (v : α) (h : Tbl.wf (fun _ => d) t = true) : Tbl.wf (fun _ => d) (Tbl.set d t k v) = true := by
  rw [Tbl.set_eq]
  unfold Tbl.wf at *
  split
  · exact Tbl.wfFrom_erase t 0 k h
  · next hv => exact Tbl.wfFrom_insert _ 0 k v (Nat.zero_le k) hv (Tbl.absent_erase t k) (Tbl.wfFrom_erase t 0 k h)

/-- So does a filter. -/
theorem Tbl.wfFrom_filter {d : Nat → α} (p : Nat × α → Bool) (t : Tbl α) (lo : Nat) : Tbl.wfFrom d lo t = true → Tbl.wfFrom d lo (t.filter p) = true := by
  induction t generalizing lo with
  | nil => simp
  | cons e t ih =>
    obtain ⟨k, v⟩ := e
    simp only [Tbl.wfFrom, Bool.and_eq_true, decide_eq_true_eq, List.filter_cons]
    rintro ⟨⟨h1, h2⟩, h3⟩
    split
    · simp [Tbl.wfFrom, h1, h2, ih _ h3]
    · exact Tbl.wfFrom_mono (by omega) (ih _ h3)

theorem Tbl.wf_filter {d : Nat → α} (p : Nat × α → Bool) (t : Tbl α) (h : Tbl.wf d t = true) : Tbl.wf d (t.filter p) = true := Tbl.wfFrom_filter p t 0 h

end Sys2Proof
end

