-- ==== Sys2Proof/Laws/State.lean ====
section
/-! SUPPORT. One lemma per field of State per named update: each update leaves every field but its own. And what each update's own table reads back. -/

set_option Elab.async false

namespace Sys2Proof.Machine

variable (s : State)

@[simp] theorem wrReg_pending (c i off : Nat) (v : Word) : (wrReg c i off v s).pending = s.pending := rfl
@[simp] theorem wrReg_freeCtr (c i off : Nat) (v : Word) : (wrReg c i off v s).freeCtr = s.freeCtr := rfl
@[simp] theorem wrReg_act (c i off : Nat) (v : Word) : (wrReg c i off v s).act = s.act := rfl
@[simp] theorem wrReg_time (c i off : Nat) (v : Word) : (wrReg c i off v s).time = s.time := rfl
@[simp] theorem wrReg_ev (c i off : Nat) (v : Word) : (wrReg c i off v s).ev = s.ev := rfl
@[simp] theorem wrReg_ctr (c i off : Nat) (v : Word) : (wrReg c i off v s).ctr = s.ctr := rfl
@[simp] theorem wrReg_shadow (c i off : Nat) (v : Word) : (wrReg c i off v s).shadow = s.shadow := rfl
@[simp] theorem wrReg_resetting (c i off : Nat) (v : Word) : (wrReg c i off v s).resetting = s.resetting := rfl
@[simp] theorem wrReg_mem (c i off : Nat) (v : Word) : (wrReg c i off v s).mem = s.mem := rfl
@[simp] theorem wrReg_qe (c i off : Nat) (v : Word) : (wrReg c i off v s).qe = s.qe := rfl
@[simp] theorem wrReg_jobs (c i off : Nat) (v : Word) : (wrReg c i off v s).jobs = s.jobs := rfl
@[simp] theorem wrReg_arrivals (c i off : Nat) (v : Word) : (wrReg c i off v s).arrivals = s.arrivals := rfl
@[simp] theorem wrReg_rrQueue (c i off : Nat) (v : Word) : (wrReg c i off v s).rrQueue = s.rrQueue := rfl
@[simp] theorem wrReg_quills (c i off : Nat) (v : Word) : (wrReg c i off v s).quills = s.quills := rfl
@[simp] theorem wrReg_chans (c i off : Nat) (v : Word) : (wrReg c i off v s).chans = s.chans := rfl
@[simp] theorem wrReg_barriers (c i off : Nat) (v : Word) : (wrReg c i off v s).barriers = s.barriers := rfl
@[simp] theorem wrReg_groups (c i off : Nat) (v : Word) : (wrReg c i off v s).groups = s.groups := rfl
@[simp] theorem wrReg_spads (c i off : Nat) (v : Word) : (wrReg c i off v s).spads = s.spads := rfl
@[simp] theorem wrReg_mcs (c i off : Nat) (v : Word) : (wrReg c i off v s).mcs = s.mcs := rfl
@[simp] theorem wrReg_sn (c i off : Nat) (v : Word) : (wrReg c i off v s).sn = s.sn := rfl
@[simp] theorem wrReg_ring (c i off : Nat) (v : Word) : (wrReg c i off v s).ring = s.ring := rfl
@[simp] theorem wrReg_settings (c i off : Nat) (v : Word) : (wrReg c i off v s).settings = s.settings := rfl
@[simp] theorem wrReg_cc (c i off : Nat) (v : Word) : (wrReg c i off v s).cc = s.cc := rfl
@[simp] theorem wrReg_host (c i off : Nat) (v : Word) : (wrReg c i off v s).host = s.host := rfl
@[simp] theorem wrReg_car (c i off : Nat) (v : Word) : (wrReg c i off v s).car = s.car := rfl
@[simp] theorem wrReg_fn (c i off : Nat) (v : Word) : (wrReg c i off v s).fn = s.fn := rfl
@[simp] theorem wrReg_tr (c i off : Nat) (v : Word) : (wrReg c i off v s).tr = s.tr := rfl
@[simp] theorem wrReg_tio (c i off : Nat) (v : Word) : (wrReg c i off v s).tio = s.tio := rfl
@[simp] theorem wrReg_cans (c i off : Nat) (v : Word) : (wrReg c i off v s).cans = s.cans := rfl
@[simp] theorem wrReg_pwr (c i off : Nat) (v : Word) : (wrReg c i off v s).pwr = s.pwr := rfl
@[simp] theorem wrReg_sec (c i off : Nat) (v : Word) : (wrReg c i off v s).sec = s.sec := rfl

@[simp] theorem wrField_pending (c i off hi lo v : Nat) : (wrField c i off hi lo v s).pending = s.pending := rfl
@[simp] theorem wrField_freeCtr (c i off hi lo v : Nat) : (wrField c i off hi lo v s).freeCtr = s.freeCtr := rfl
@[simp] theorem wrField_act (c i off hi lo v : Nat) : (wrField c i off hi lo v s).act = s.act := rfl
@[simp] theorem wrField_time (c i off hi lo v : Nat) : (wrField c i off hi lo v s).time = s.time := rfl
@[simp] theorem wrField_ev (c i off hi lo v : Nat) : (wrField c i off hi lo v s).ev = s.ev := rfl
@[simp] theorem wrField_ctr (c i off hi lo v : Nat) : (wrField c i off hi lo v s).ctr = s.ctr := rfl
@[simp] theorem wrField_shadow (c i off hi lo v : Nat) : (wrField c i off hi lo v s).shadow = s.shadow := rfl
@[simp] theorem wrField_resetting (c i off hi lo v : Nat) : (wrField c i off hi lo v s).resetting = s.resetting := rfl
@[simp] theorem wrField_mem (c i off hi lo v : Nat) : (wrField c i off hi lo v s).mem = s.mem := rfl
@[simp] theorem wrField_qe (c i off hi lo v : Nat) : (wrField c i off hi lo v s).qe = s.qe := rfl
@[simp] theorem wrField_jobs (c i off hi lo v : Nat) : (wrField c i off hi lo v s).jobs = s.jobs := rfl
@[simp] theorem wrField_arrivals (c i off hi lo v : Nat) : (wrField c i off hi lo v s).arrivals = s.arrivals := rfl
@[simp] theorem wrField_rrQueue (c i off hi lo v : Nat) : (wrField c i off hi lo v s).rrQueue = s.rrQueue := rfl
@[simp] theorem wrField_quills (c i off hi lo v : Nat) : (wrField c i off hi lo v s).quills = s.quills := rfl
@[simp] theorem wrField_chans (c i off hi lo v : Nat) : (wrField c i off hi lo v s).chans = s.chans := rfl
@[simp] theorem wrField_barriers (c i off hi lo v : Nat) : (wrField c i off hi lo v s).barriers = s.barriers := rfl
@[simp] theorem wrField_groups (c i off hi lo v : Nat) : (wrField c i off hi lo v s).groups = s.groups := rfl
@[simp] theorem wrField_spads (c i off hi lo v : Nat) : (wrField c i off hi lo v s).spads = s.spads := rfl
@[simp] theorem wrField_mcs (c i off hi lo v : Nat) : (wrField c i off hi lo v s).mcs = s.mcs := rfl
@[simp] theorem wrField_sn (c i off hi lo v : Nat) : (wrField c i off hi lo v s).sn = s.sn := rfl
@[simp] theorem wrField_ring (c i off hi lo v : Nat) : (wrField c i off hi lo v s).ring = s.ring := rfl
@[simp] theorem wrField_settings (c i off hi lo v : Nat) : (wrField c i off hi lo v s).settings = s.settings := rfl
@[simp] theorem wrField_cc (c i off hi lo v : Nat) : (wrField c i off hi lo v s).cc = s.cc := rfl
@[simp] theorem wrField_host (c i off hi lo v : Nat) : (wrField c i off hi lo v s).host = s.host := rfl
@[simp] theorem wrField_car (c i off hi lo v : Nat) : (wrField c i off hi lo v s).car = s.car := rfl
@[simp] theorem wrField_fn (c i off hi lo v : Nat) : (wrField c i off hi lo v s).fn = s.fn := rfl
@[simp] theorem wrField_tr (c i off hi lo v : Nat) : (wrField c i off hi lo v s).tr = s.tr := rfl
@[simp] theorem wrField_tio (c i off hi lo v : Nat) : (wrField c i off hi lo v s).tio = s.tio := rfl
@[simp] theorem wrField_cans (c i off hi lo v : Nat) : (wrField c i off hi lo v s).cans = s.cans := rfl
@[simp] theorem wrField_pwr (c i off hi lo v : Nat) : (wrField c i off hi lo v s).pwr = s.pwr := rfl
@[simp] theorem wrField_sec (c i off hi lo v : Nat) : (wrField c i off hi lo v s).sec = s.sec := rfl

@[simp] theorem bump_pending (c i off n : Nat) : (bump c i off n s).pending = s.pending := rfl
@[simp] theorem bump_freeCtr (c i off n : Nat) : (bump c i off n s).freeCtr = s.freeCtr := rfl
@[simp] theorem bump_act (c i off n : Nat) : (bump c i off n s).act = s.act := rfl
@[simp] theorem bump_time (c i off n : Nat) : (bump c i off n s).time = s.time := rfl
@[simp] theorem bump_ev (c i off n : Nat) : (bump c i off n s).ev = s.ev := rfl
@[simp] theorem bump_ctr (c i off n : Nat) : (bump c i off n s).ctr = s.ctr := rfl
@[simp] theorem bump_shadow (c i off n : Nat) : (bump c i off n s).shadow = s.shadow := rfl
@[simp] theorem bump_resetting (c i off n : Nat) : (bump c i off n s).resetting = s.resetting := rfl
@[simp] theorem bump_mem (c i off n : Nat) : (bump c i off n s).mem = s.mem := rfl
@[simp] theorem bump_qe (c i off n : Nat) : (bump c i off n s).qe = s.qe := rfl
@[simp] theorem bump_jobs (c i off n : Nat) : (bump c i off n s).jobs = s.jobs := rfl
@[simp] theorem bump_arrivals (c i off n : Nat) : (bump c i off n s).arrivals = s.arrivals := rfl
@[simp] theorem bump_rrQueue (c i off n : Nat) : (bump c i off n s).rrQueue = s.rrQueue := rfl
@[simp] theorem bump_quills (c i off n : Nat) : (bump c i off n s).quills = s.quills := rfl
@[simp] theorem bump_chans (c i off n : Nat) : (bump c i off n s).chans = s.chans := rfl
@[simp] theorem bump_barriers (c i off n : Nat) : (bump c i off n s).barriers = s.barriers := rfl
@[simp] theorem bump_groups (c i off n : Nat) : (bump c i off n s).groups = s.groups := rfl
@[simp] theorem bump_spads (c i off n : Nat) : (bump c i off n s).spads = s.spads := rfl
@[simp] theorem bump_mcs (c i off n : Nat) : (bump c i off n s).mcs = s.mcs := rfl
@[simp] theorem bump_sn (c i off n : Nat) : (bump c i off n s).sn = s.sn := rfl
@[simp] theorem bump_ring (c i off n : Nat) : (bump c i off n s).ring = s.ring := rfl
@[simp] theorem bump_settings (c i off n : Nat) : (bump c i off n s).settings = s.settings := rfl
@[simp] theorem bump_cc (c i off n : Nat) : (bump c i off n s).cc = s.cc := rfl
@[simp] theorem bump_host (c i off n : Nat) : (bump c i off n s).host = s.host := rfl
@[simp] theorem bump_car (c i off n : Nat) : (bump c i off n s).car = s.car := rfl
@[simp] theorem bump_fn (c i off n : Nat) : (bump c i off n s).fn = s.fn := rfl
@[simp] theorem bump_tr (c i off n : Nat) : (bump c i off n s).tr = s.tr := rfl
@[simp] theorem bump_tio (c i off n : Nat) : (bump c i off n s).tio = s.tio := rfl
@[simp] theorem bump_cans (c i off n : Nat) : (bump c i off n s).cans = s.cans := rfl
@[simp] theorem bump_pwr (c i off n : Nat) : (bump c i off n s).pwr = s.pwr := rfl
@[simp] theorem bump_sec (c i off n : Nat) : (bump c i off n s).sec = s.sec := rfl

@[simp] theorem wrCtr_pending (c i off : Nat) (v : BitVec 64) : (wrCtr c i off v s).pending = s.pending := rfl
@[simp] theorem wrCtr_freeCtr (c i off : Nat) (v : BitVec 64) : (wrCtr c i off v s).freeCtr = s.freeCtr := rfl
@[simp] theorem wrCtr_act (c i off : Nat) (v : BitVec 64) : (wrCtr c i off v s).act = s.act := rfl
@[simp] theorem wrCtr_time (c i off : Nat) (v : BitVec 64) : (wrCtr c i off v s).time = s.time := rfl
@[simp] theorem wrCtr_ev (c i off : Nat) (v : BitVec 64) : (wrCtr c i off v s).ev = s.ev := rfl
@[simp] theorem wrCtr_regs (c i off : Nat) (v : BitVec 64) : (wrCtr c i off v s).regs = s.regs := rfl
@[simp] theorem wrCtr_shadow (c i off : Nat) (v : BitVec 64) : (wrCtr c i off v s).shadow = s.shadow := rfl
@[simp] theorem wrCtr_resetting (c i off : Nat) (v : BitVec 64) : (wrCtr c i off v s).resetting = s.resetting := rfl
@[simp] theorem wrCtr_mem (c i off : Nat) (v : BitVec 64) : (wrCtr c i off v s).mem = s.mem := rfl
@[simp] theorem wrCtr_qe (c i off : Nat) (v : BitVec 64) : (wrCtr c i off v s).qe = s.qe := rfl
@[simp] theorem wrCtr_jobs (c i off : Nat) (v : BitVec 64) : (wrCtr c i off v s).jobs = s.jobs := rfl
@[simp] theorem wrCtr_arrivals (c i off : Nat) (v : BitVec 64) : (wrCtr c i off v s).arrivals = s.arrivals := rfl
@[simp] theorem wrCtr_rrQueue (c i off : Nat) (v : BitVec 64) : (wrCtr c i off v s).rrQueue = s.rrQueue := rfl
@[simp] theorem wrCtr_quills (c i off : Nat) (v : BitVec 64) : (wrCtr c i off v s).quills = s.quills := rfl
@[simp] theorem wrCtr_chans (c i off : Nat) (v : BitVec 64) : (wrCtr c i off v s).chans = s.chans := rfl
@[simp] theorem wrCtr_barriers (c i off : Nat) (v : BitVec 64) : (wrCtr c i off v s).barriers = s.barriers := rfl
@[simp] theorem wrCtr_groups (c i off : Nat) (v : BitVec 64) : (wrCtr c i off v s).groups = s.groups := rfl
@[simp] theorem wrCtr_spads (c i off : Nat) (v : BitVec 64) : (wrCtr c i off v s).spads = s.spads := rfl
@[simp] theorem wrCtr_mcs (c i off : Nat) (v : BitVec 64) : (wrCtr c i off v s).mcs = s.mcs := rfl
@[simp] theorem wrCtr_sn (c i off : Nat) (v : BitVec 64) : (wrCtr c i off v s).sn = s.sn := rfl
@[simp] theorem wrCtr_ring (c i off : Nat) (v : BitVec 64) : (wrCtr c i off v s).ring = s.ring := rfl
@[simp] theorem wrCtr_settings (c i off : Nat) (v : BitVec 64) : (wrCtr c i off v s).settings = s.settings := rfl
@[simp] theorem wrCtr_cc (c i off : Nat) (v : BitVec 64) : (wrCtr c i off v s).cc = s.cc := rfl
@[simp] theorem wrCtr_host (c i off : Nat) (v : BitVec 64) : (wrCtr c i off v s).host = s.host := rfl
@[simp] theorem wrCtr_car (c i off : Nat) (v : BitVec 64) : (wrCtr c i off v s).car = s.car := rfl
@[simp] theorem wrCtr_fn (c i off : Nat) (v : BitVec 64) : (wrCtr c i off v s).fn = s.fn := rfl
@[simp] theorem wrCtr_tr (c i off : Nat) (v : BitVec 64) : (wrCtr c i off v s).tr = s.tr := rfl
@[simp] theorem wrCtr_tio (c i off : Nat) (v : BitVec 64) : (wrCtr c i off v s).tio = s.tio := rfl
@[simp] theorem wrCtr_cans (c i off : Nat) (v : BitVec 64) : (wrCtr c i off v s).cans = s.cans := rfl
@[simp] theorem wrCtr_pwr (c i off : Nat) (v : BitVec 64) : (wrCtr c i off v s).pwr = s.pwr := rfl
@[simp] theorem wrCtr_sec (c i off : Nat) (v : BitVec 64) : (wrCtr c i off v s).sec = s.sec := rfl

@[simp] theorem addCtr_pending (c i off n : Nat) : (addCtr c i off n s).pending = s.pending := rfl
@[simp] theorem addCtr_freeCtr (c i off n : Nat) : (addCtr c i off n s).freeCtr = s.freeCtr := rfl
@[simp] theorem addCtr_act (c i off n : Nat) : (addCtr c i off n s).act = s.act := rfl
@[simp] theorem addCtr_time (c i off n : Nat) : (addCtr c i off n s).time = s.time := rfl
@[simp] theorem addCtr_ev (c i off n : Nat) : (addCtr c i off n s).ev = s.ev := rfl
@[simp] theorem addCtr_regs (c i off n : Nat) : (addCtr c i off n s).regs = s.regs := rfl
@[simp] theorem addCtr_shadow (c i off n : Nat) : (addCtr c i off n s).shadow = s.shadow := rfl
@[simp] theorem addCtr_resetting (c i off n : Nat) : (addCtr c i off n s).resetting = s.resetting := rfl
@[simp] theorem addCtr_mem (c i off n : Nat) : (addCtr c i off n s).mem = s.mem := rfl
@[simp] theorem addCtr_qe (c i off n : Nat) : (addCtr c i off n s).qe = s.qe := rfl
@[simp] theorem addCtr_jobs (c i off n : Nat) : (addCtr c i off n s).jobs = s.jobs := rfl
@[simp] theorem addCtr_arrivals (c i off n : Nat) : (addCtr c i off n s).arrivals = s.arrivals := rfl
@[simp] theorem addCtr_rrQueue (c i off n : Nat) : (addCtr c i off n s).rrQueue = s.rrQueue := rfl
@[simp] theorem addCtr_quills (c i off n : Nat) : (addCtr c i off n s).quills = s.quills := rfl
@[simp] theorem addCtr_chans (c i off n : Nat) : (addCtr c i off n s).chans = s.chans := rfl
@[simp] theorem addCtr_barriers (c i off n : Nat) : (addCtr c i off n s).barriers = s.barriers := rfl
@[simp] theorem addCtr_groups (c i off n : Nat) : (addCtr c i off n s).groups = s.groups := rfl
@[simp] theorem addCtr_spads (c i off n : Nat) : (addCtr c i off n s).spads = s.spads := rfl
@[simp] theorem addCtr_mcs (c i off n : Nat) : (addCtr c i off n s).mcs = s.mcs := rfl
@[simp] theorem addCtr_sn (c i off n : Nat) : (addCtr c i off n s).sn = s.sn := rfl
@[simp] theorem addCtr_ring (c i off n : Nat) : (addCtr c i off n s).ring = s.ring := rfl
@[simp] theorem addCtr_settings (c i off n : Nat) : (addCtr c i off n s).settings = s.settings := rfl
@[simp] theorem addCtr_cc (c i off n : Nat) : (addCtr c i off n s).cc = s.cc := rfl
@[simp] theorem addCtr_host (c i off n : Nat) : (addCtr c i off n s).host = s.host := rfl
@[simp] theorem addCtr_car (c i off n : Nat) : (addCtr c i off n s).car = s.car := rfl
@[simp] theorem addCtr_fn (c i off n : Nat) : (addCtr c i off n s).fn = s.fn := rfl
@[simp] theorem addCtr_tr (c i off n : Nat) : (addCtr c i off n s).tr = s.tr := rfl
@[simp] theorem addCtr_tio (c i off n : Nat) : (addCtr c i off n s).tio = s.tio := rfl
@[simp] theorem addCtr_cans (c i off n : Nat) : (addCtr c i off n s).cans = s.cans := rfl
@[simp] theorem addCtr_pwr (c i off n : Nat) : (addCtr c i off n s).pwr = s.pwr := rfl
@[simp] theorem addCtr_sec (c i off n : Nat) : (addCtr c i off n s).sec = s.sec := rfl

@[simp] theorem setQuill_pending (q : Nat) (v : Quill) : (setQuill q v s).pending = s.pending := rfl
@[simp] theorem setQuill_freeCtr (q : Nat) (v : Quill) : (setQuill q v s).freeCtr = s.freeCtr := rfl
@[simp] theorem setQuill_act (q : Nat) (v : Quill) : (setQuill q v s).act = s.act := rfl
@[simp] theorem setQuill_time (q : Nat) (v : Quill) : (setQuill q v s).time = s.time := rfl
@[simp] theorem setQuill_ev (q : Nat) (v : Quill) : (setQuill q v s).ev = s.ev := rfl
@[simp] theorem setQuill_regs (q : Nat) (v : Quill) : (setQuill q v s).regs = s.regs := rfl
@[simp] theorem setQuill_ctr (q : Nat) (v : Quill) : (setQuill q v s).ctr = s.ctr := rfl
@[simp] theorem setQuill_shadow (q : Nat) (v : Quill) : (setQuill q v s).shadow = s.shadow := rfl
@[simp] theorem setQuill_resetting (q : Nat) (v : Quill) : (setQuill q v s).resetting = s.resetting := rfl
@[simp] theorem setQuill_mem (q : Nat) (v : Quill) : (setQuill q v s).mem = s.mem := rfl
@[simp] theorem setQuill_qe (q : Nat) (v : Quill) : (setQuill q v s).qe = s.qe := rfl
@[simp] theorem setQuill_jobs (q : Nat) (v : Quill) : (setQuill q v s).jobs = s.jobs := rfl
@[simp] theorem setQuill_arrivals (q : Nat) (v : Quill) : (setQuill q v s).arrivals = s.arrivals := rfl
@[simp] theorem setQuill_rrQueue (q : Nat) (v : Quill) : (setQuill q v s).rrQueue = s.rrQueue := rfl
@[simp] theorem setQuill_chans (q : Nat) (v : Quill) : (setQuill q v s).chans = s.chans := rfl
@[simp] theorem setQuill_barriers (q : Nat) (v : Quill) : (setQuill q v s).barriers = s.barriers := rfl
@[simp] theorem setQuill_groups (q : Nat) (v : Quill) : (setQuill q v s).groups = s.groups := rfl
@[simp] theorem setQuill_spads (q : Nat) (v : Quill) : (setQuill q v s).spads = s.spads := rfl
@[simp] theorem setQuill_mcs (q : Nat) (v : Quill) : (setQuill q v s).mcs = s.mcs := rfl
@[simp] theorem setQuill_sn (q : Nat) (v : Quill) : (setQuill q v s).sn = s.sn := rfl
@[simp] theorem setQuill_ring (q : Nat) (v : Quill) : (setQuill q v s).ring = s.ring := rfl
@[simp] theorem setQuill_settings (q : Nat) (v : Quill) : (setQuill q v s).settings = s.settings := rfl
@[simp] theorem setQuill_cc (q : Nat) (v : Quill) : (setQuill q v s).cc = s.cc := rfl
@[simp] theorem setQuill_host (q : Nat) (v : Quill) : (setQuill q v s).host = s.host := rfl
@[simp] theorem setQuill_car (q : Nat) (v : Quill) : (setQuill q v s).car = s.car := rfl
@[simp] theorem setQuill_fn (q : Nat) (v : Quill) : (setQuill q v s).fn = s.fn := rfl
@[simp] theorem setQuill_tr (q : Nat) (v : Quill) : (setQuill q v s).tr = s.tr := rfl
@[simp] theorem setQuill_tio (q : Nat) (v : Quill) : (setQuill q v s).tio = s.tio := rfl
@[simp] theorem setQuill_cans (q : Nat) (v : Quill) : (setQuill q v s).cans = s.cans := rfl
@[simp] theorem setQuill_pwr (q : Nat) (v : Quill) : (setQuill q v s).pwr = s.pwr := rfl
@[simp] theorem setQuill_sec (q : Nat) (v : Quill) : (setQuill q v s).sec = s.sec := rfl

@[simp] theorem updJob_pending (id : Nat) (f : JobRec → JobRec) : (updJob id f s).pending = s.pending := rfl
@[simp] theorem updJob_freeCtr (id : Nat) (f : JobRec → JobRec) : (updJob id f s).freeCtr = s.freeCtr := rfl
@[simp] theorem updJob_act (id : Nat) (f : JobRec → JobRec) : (updJob id f s).act = s.act := rfl
@[simp] theorem updJob_time (id : Nat) (f : JobRec → JobRec) : (updJob id f s).time = s.time := rfl
@[simp] theorem updJob_ev (id : Nat) (f : JobRec → JobRec) : (updJob id f s).ev = s.ev := rfl
@[simp] theorem updJob_regs (id : Nat) (f : JobRec → JobRec) : (updJob id f s).regs = s.regs := rfl
@[simp] theorem updJob_ctr (id : Nat) (f : JobRec → JobRec) : (updJob id f s).ctr = s.ctr := rfl
@[simp] theorem updJob_shadow (id : Nat) (f : JobRec → JobRec) : (updJob id f s).shadow = s.shadow := rfl
@[simp] theorem updJob_resetting (id : Nat) (f : JobRec → JobRec) : (updJob id f s).resetting = s.resetting := rfl
@[simp] theorem updJob_mem (id : Nat) (f : JobRec → JobRec) : (updJob id f s).mem = s.mem := rfl
@[simp] theorem updJob_qe (id : Nat) (f : JobRec → JobRec) : (updJob id f s).qe = s.qe := rfl
@[simp] theorem updJob_arrivals (id : Nat) (f : JobRec → JobRec) : (updJob id f s).arrivals = s.arrivals := rfl
@[simp] theorem updJob_rrQueue (id : Nat) (f : JobRec → JobRec) : (updJob id f s).rrQueue = s.rrQueue := rfl
@[simp] theorem updJob_quills (id : Nat) (f : JobRec → JobRec) : (updJob id f s).quills = s.quills := rfl
@[simp] theorem updJob_chans (id : Nat) (f : JobRec → JobRec) : (updJob id f s).chans = s.chans := rfl
@[simp] theorem updJob_barriers (id : Nat) (f : JobRec → JobRec) : (updJob id f s).barriers = s.barriers := rfl
@[simp] theorem updJob_groups (id : Nat) (f : JobRec → JobRec) : (updJob id f s).groups = s.groups := rfl
@[simp] theorem updJob_spads (id : Nat) (f : JobRec → JobRec) : (updJob id f s).spads = s.spads := rfl
@[simp] theorem updJob_mcs (id : Nat) (f : JobRec → JobRec) : (updJob id f s).mcs = s.mcs := rfl
@[simp] theorem updJob_sn (id : Nat) (f : JobRec → JobRec) : (updJob id f s).sn = s.sn := rfl
@[simp] theorem updJob_ring (id : Nat) (f : JobRec → JobRec) : (updJob id f s).ring = s.ring := rfl
@[simp] theorem updJob_settings (id : Nat) (f : JobRec → JobRec) : (updJob id f s).settings = s.settings := rfl
@[simp] theorem updJob_cc (id : Nat) (f : JobRec → JobRec) : (updJob id f s).cc = s.cc := rfl
@[simp] theorem updJob_host (id : Nat) (f : JobRec → JobRec) : (updJob id f s).host = s.host := rfl
@[simp] theorem updJob_car (id : Nat) (f : JobRec → JobRec) : (updJob id f s).car = s.car := rfl
@[simp] theorem updJob_fn (id : Nat) (f : JobRec → JobRec) : (updJob id f s).fn = s.fn := rfl
@[simp] theorem updJob_tr (id : Nat) (f : JobRec → JobRec) : (updJob id f s).tr = s.tr := rfl
@[simp] theorem updJob_tio (id : Nat) (f : JobRec → JobRec) : (updJob id f s).tio = s.tio := rfl
@[simp] theorem updJob_cans (id : Nat) (f : JobRec → JobRec) : (updJob id f s).cans = s.cans := rfl
@[simp] theorem updJob_pwr (id : Nat) (f : JobRec → JobRec) : (updJob id f s).pwr = s.pwr := rfl
@[simp] theorem updJob_sec (id : Nat) (f : JobRec → JobRec) : (updJob id f s).sec = s.sec := rfl

@[simp] theorem dropJob_pending (id : Nat) : (dropJob id s).pending = s.pending := rfl
@[simp] theorem dropJob_freeCtr (id : Nat) : (dropJob id s).freeCtr = s.freeCtr := rfl
@[simp] theorem dropJob_act (id : Nat) : (dropJob id s).act = s.act := rfl
@[simp] theorem dropJob_time (id : Nat) : (dropJob id s).time = s.time := rfl
@[simp] theorem dropJob_ev (id : Nat) : (dropJob id s).ev = s.ev := rfl
@[simp] theorem dropJob_regs (id : Nat) : (dropJob id s).regs = s.regs := rfl
@[simp] theorem dropJob_ctr (id : Nat) : (dropJob id s).ctr = s.ctr := rfl
@[simp] theorem dropJob_shadow (id : Nat) : (dropJob id s).shadow = s.shadow := rfl
@[simp] theorem dropJob_resetting (id : Nat) : (dropJob id s).resetting = s.resetting := rfl
@[simp] theorem dropJob_mem (id : Nat) : (dropJob id s).mem = s.mem := rfl
@[simp] theorem dropJob_qe (id : Nat) : (dropJob id s).qe = s.qe := rfl
@[simp] theorem dropJob_arrivals (id : Nat) : (dropJob id s).arrivals = s.arrivals := rfl
@[simp] theorem dropJob_rrQueue (id : Nat) : (dropJob id s).rrQueue = s.rrQueue := rfl
@[simp] theorem dropJob_quills (id : Nat) : (dropJob id s).quills = s.quills := rfl
@[simp] theorem dropJob_chans (id : Nat) : (dropJob id s).chans = s.chans := rfl
@[simp] theorem dropJob_barriers (id : Nat) : (dropJob id s).barriers = s.barriers := rfl
@[simp] theorem dropJob_groups (id : Nat) : (dropJob id s).groups = s.groups := rfl
@[simp] theorem dropJob_spads (id : Nat) : (dropJob id s).spads = s.spads := rfl
@[simp] theorem dropJob_mcs (id : Nat) : (dropJob id s).mcs = s.mcs := rfl
@[simp] theorem dropJob_sn (id : Nat) : (dropJob id s).sn = s.sn := rfl
@[simp] theorem dropJob_ring (id : Nat) : (dropJob id s).ring = s.ring := rfl
@[simp] theorem dropJob_settings (id : Nat) : (dropJob id s).settings = s.settings := rfl
@[simp] theorem dropJob_cc (id : Nat) : (dropJob id s).cc = s.cc := rfl
@[simp] theorem dropJob_host (id : Nat) : (dropJob id s).host = s.host := rfl
@[simp] theorem dropJob_car (id : Nat) : (dropJob id s).car = s.car := rfl
@[simp] theorem dropJob_fn (id : Nat) : (dropJob id s).fn = s.fn := rfl
@[simp] theorem dropJob_tr (id : Nat) : (dropJob id s).tr = s.tr := rfl
@[simp] theorem dropJob_tio (id : Nat) : (dropJob id s).tio = s.tio := rfl
@[simp] theorem dropJob_cans (id : Nat) : (dropJob id s).cans = s.cans := rfl
@[simp] theorem dropJob_pwr (id : Nat) : (dropJob id s).pwr = s.pwr := rfl
@[simp] theorem dropJob_sec (id : Nat) : (dropJob id s).sec = s.sec := rfl

@[simp] theorem orNumeric_pending (id fl : Nat) : (orNumeric id fl s).pending = s.pending := rfl
@[simp] theorem orNumeric_freeCtr (id fl : Nat) : (orNumeric id fl s).freeCtr = s.freeCtr := rfl
@[simp] theorem orNumeric_act (id fl : Nat) : (orNumeric id fl s).act = s.act := rfl
@[simp] theorem orNumeric_time (id fl : Nat) : (orNumeric id fl s).time = s.time := rfl
@[simp] theorem orNumeric_ev (id fl : Nat) : (orNumeric id fl s).ev = s.ev := rfl
@[simp] theorem orNumeric_regs (id fl : Nat) : (orNumeric id fl s).regs = s.regs := rfl
@[simp] theorem orNumeric_ctr (id fl : Nat) : (orNumeric id fl s).ctr = s.ctr := rfl
@[simp] theorem orNumeric_shadow (id fl : Nat) : (orNumeric id fl s).shadow = s.shadow := rfl
@[simp] theorem orNumeric_resetting (id fl : Nat) : (orNumeric id fl s).resetting = s.resetting := rfl
@[simp] theorem orNumeric_mem (id fl : Nat) : (orNumeric id fl s).mem = s.mem := rfl
@[simp] theorem orNumeric_qe (id fl : Nat) : (orNumeric id fl s).qe = s.qe := rfl
@[simp] theorem orNumeric_arrivals (id fl : Nat) : (orNumeric id fl s).arrivals = s.arrivals := rfl
@[simp] theorem orNumeric_rrQueue (id fl : Nat) : (orNumeric id fl s).rrQueue = s.rrQueue := rfl
@[simp] theorem orNumeric_quills (id fl : Nat) : (orNumeric id fl s).quills = s.quills := rfl
@[simp] theorem orNumeric_chans (id fl : Nat) : (orNumeric id fl s).chans = s.chans := rfl
@[simp] theorem orNumeric_barriers (id fl : Nat) : (orNumeric id fl s).barriers = s.barriers := rfl
@[simp] theorem orNumeric_groups (id fl : Nat) : (orNumeric id fl s).groups = s.groups := rfl
@[simp] theorem orNumeric_spads (id fl : Nat) : (orNumeric id fl s).spads = s.spads := rfl
@[simp] theorem orNumeric_mcs (id fl : Nat) : (orNumeric id fl s).mcs = s.mcs := rfl
@[simp] theorem orNumeric_sn (id fl : Nat) : (orNumeric id fl s).sn = s.sn := rfl
@[simp] theorem orNumeric_ring (id fl : Nat) : (orNumeric id fl s).ring = s.ring := rfl
@[simp] theorem orNumeric_settings (id fl : Nat) : (orNumeric id fl s).settings = s.settings := rfl
@[simp] theorem orNumeric_cc (id fl : Nat) : (orNumeric id fl s).cc = s.cc := rfl
@[simp] theorem orNumeric_host (id fl : Nat) : (orNumeric id fl s).host = s.host := rfl
@[simp] theorem orNumeric_car (id fl : Nat) : (orNumeric id fl s).car = s.car := rfl
@[simp] theorem orNumeric_fn (id fl : Nat) : (orNumeric id fl s).fn = s.fn := rfl
@[simp] theorem orNumeric_tr (id fl : Nat) : (orNumeric id fl s).tr = s.tr := rfl
@[simp] theorem orNumeric_tio (id fl : Nat) : (orNumeric id fl s).tio = s.tio := rfl
@[simp] theorem orNumeric_cans (id fl : Nat) : (orNumeric id fl s).cans = s.cans := rfl
@[simp] theorem orNumeric_pwr (id fl : Nat) : (orNumeric id fl s).pwr = s.pwr := rfl
@[simp] theorem orNumeric_sec (id fl : Nat) : (orNumeric id fl s).sec = s.sec := rfl

@[simp] theorem setChan_pending (k : Nat) (v : DmaChan) : (setChan k v s).pending = s.pending := rfl
@[simp] theorem setChan_freeCtr (k : Nat) (v : DmaChan) : (setChan k v s).freeCtr = s.freeCtr := rfl
@[simp] theorem setChan_act (k : Nat) (v : DmaChan) : (setChan k v s).act = s.act := rfl
@[simp] theorem setChan_time (k : Nat) (v : DmaChan) : (setChan k v s).time = s.time := rfl
@[simp] theorem setChan_ev (k : Nat) (v : DmaChan) : (setChan k v s).ev = s.ev := rfl
@[simp] theorem setChan_regs (k : Nat) (v : DmaChan) : (setChan k v s).regs = s.regs := rfl
@[simp] theorem setChan_ctr (k : Nat) (v : DmaChan) : (setChan k v s).ctr = s.ctr := rfl
@[simp] theorem setChan_shadow (k : Nat) (v : DmaChan) : (setChan k v s).shadow = s.shadow := rfl
@[simp] theorem setChan_resetting (k : Nat) (v : DmaChan) : (setChan k v s).resetting = s.resetting := rfl
@[simp] theorem setChan_mem (k : Nat) (v : DmaChan) : (setChan k v s).mem = s.mem := rfl
@[simp] theorem setChan_qe (k : Nat) (v : DmaChan) : (setChan k v s).qe = s.qe := rfl
@[simp] theorem setChan_jobs (k : Nat) (v : DmaChan) : (setChan k v s).jobs = s.jobs := rfl
@[simp] theorem setChan_arrivals (k : Nat) (v : DmaChan) : (setChan k v s).arrivals = s.arrivals := rfl
@[simp] theorem setChan_rrQueue (k : Nat) (v : DmaChan) : (setChan k v s).rrQueue = s.rrQueue := rfl
@[simp] theorem setChan_quills (k : Nat) (v : DmaChan) : (setChan k v s).quills = s.quills := rfl
@[simp] theorem setChan_barriers (k : Nat) (v : DmaChan) : (setChan k v s).barriers = s.barriers := rfl
@[simp] theorem setChan_groups (k : Nat) (v : DmaChan) : (setChan k v s).groups = s.groups := rfl
@[simp] theorem setChan_spads (k : Nat) (v : DmaChan) : (setChan k v s).spads = s.spads := rfl
@[simp] theorem setChan_mcs (k : Nat) (v : DmaChan) : (setChan k v s).mcs = s.mcs := rfl
@[simp] theorem setChan_sn (k : Nat) (v : DmaChan) : (setChan k v s).sn = s.sn := rfl
@[simp] theorem setChan_ring (k : Nat) (v : DmaChan) : (setChan k v s).ring = s.ring := rfl
@[simp] theorem setChan_settings (k : Nat) (v : DmaChan) : (setChan k v s).settings = s.settings := rfl
@[simp] theorem setChan_cc (k : Nat) (v : DmaChan) : (setChan k v s).cc = s.cc := rfl
@[simp] theorem setChan_host (k : Nat) (v : DmaChan) : (setChan k v s).host = s.host := rfl
@[simp] theorem setChan_car (k : Nat) (v : DmaChan) : (setChan k v s).car = s.car := rfl
@[simp] theorem setChan_fn (k : Nat) (v : DmaChan) : (setChan k v s).fn = s.fn := rfl
@[simp] theorem setChan_tr (k : Nat) (v : DmaChan) : (setChan k v s).tr = s.tr := rfl
@[simp] theorem setChan_tio (k : Nat) (v : DmaChan) : (setChan k v s).tio = s.tio := rfl
@[simp] theorem setChan_cans (k : Nat) (v : DmaChan) : (setChan k v s).cans = s.cans := rfl
@[simp] theorem setChan_pwr (k : Nat) (v : DmaChan) : (setChan k v s).pwr = s.pwr := rfl
@[simp] theorem setChan_sec (k : Nat) (v : DmaChan) : (setChan k v s).sec = s.sec := rfl

@[simp] theorem setSpad_pending (n : Nat) (v : Spad) : (setSpad n v s).pending = s.pending := rfl
@[simp] theorem setSpad_freeCtr (n : Nat) (v : Spad) : (setSpad n v s).freeCtr = s.freeCtr := rfl
@[simp] theorem setSpad_act (n : Nat) (v : Spad) : (setSpad n v s).act = s.act := rfl
@[simp] theorem setSpad_time (n : Nat) (v : Spad) : (setSpad n v s).time = s.time := rfl
@[simp] theorem setSpad_ev (n : Nat) (v : Spad) : (setSpad n v s).ev = s.ev := rfl
@[simp] theorem setSpad_regs (n : Nat) (v : Spad) : (setSpad n v s).regs = s.regs := rfl
@[simp] theorem setSpad_ctr (n : Nat) (v : Spad) : (setSpad n v s).ctr = s.ctr := rfl
@[simp] theorem setSpad_shadow (n : Nat) (v : Spad) : (setSpad n v s).shadow = s.shadow := rfl
@[simp] theorem setSpad_resetting (n : Nat) (v : Spad) : (setSpad n v s).resetting = s.resetting := rfl
@[simp] theorem setSpad_mem (n : Nat) (v : Spad) : (setSpad n v s).mem = s.mem := rfl
@[simp] theorem setSpad_qe (n : Nat) (v : Spad) : (setSpad n v s).qe = s.qe := rfl
@[simp] theorem setSpad_jobs (n : Nat) (v : Spad) : (setSpad n v s).jobs = s.jobs := rfl
@[simp] theorem setSpad_arrivals (n : Nat) (v : Spad) : (setSpad n v s).arrivals = s.arrivals := rfl
@[simp] theorem setSpad_rrQueue (n : Nat) (v : Spad) : (setSpad n v s).rrQueue = s.rrQueue := rfl
@[simp] theorem setSpad_quills (n : Nat) (v : Spad) : (setSpad n v s).quills = s.quills := rfl
@[simp] theorem setSpad_chans (n : Nat) (v : Spad) : (setSpad n v s).chans = s.chans := rfl
@[simp] theorem setSpad_barriers (n : Nat) (v : Spad) : (setSpad n v s).barriers = s.barriers := rfl
@[simp] theorem setSpad_groups (n : Nat) (v : Spad) : (setSpad n v s).groups = s.groups := rfl
@[simp] theorem setSpad_mcs (n : Nat) (v : Spad) : (setSpad n v s).mcs = s.mcs := rfl
@[simp] theorem setSpad_sn (n : Nat) (v : Spad) : (setSpad n v s).sn = s.sn := rfl
@[simp] theorem setSpad_ring (n : Nat) (v : Spad) : (setSpad n v s).ring = s.ring := rfl
@[simp] theorem setSpad_settings (n : Nat) (v : Spad) : (setSpad n v s).settings = s.settings := rfl
@[simp] theorem setSpad_cc (n : Nat) (v : Spad) : (setSpad n v s).cc = s.cc := rfl
@[simp] theorem setSpad_host (n : Nat) (v : Spad) : (setSpad n v s).host = s.host := rfl
@[simp] theorem setSpad_car (n : Nat) (v : Spad) : (setSpad n v s).car = s.car := rfl
@[simp] theorem setSpad_fn (n : Nat) (v : Spad) : (setSpad n v s).fn = s.fn := rfl
@[simp] theorem setSpad_tr (n : Nat) (v : Spad) : (setSpad n v s).tr = s.tr := rfl
@[simp] theorem setSpad_tio (n : Nat) (v : Spad) : (setSpad n v s).tio = s.tio := rfl
@[simp] theorem setSpad_cans (n : Nat) (v : Spad) : (setSpad n v s).cans = s.cans := rfl
@[simp] theorem setSpad_pwr (n : Nat) (v : Spad) : (setSpad n v s).pwr = s.pwr := rfl
@[simp] theorem setSpad_sec (n : Nat) (v : Spad) : (setSpad n v s).sec = s.sec := rfl

@[simp] theorem setMc_pending (n : Nat) (v : Mc) : (setMc n v s).pending = s.pending := rfl
@[simp] theorem setMc_freeCtr (n : Nat) (v : Mc) : (setMc n v s).freeCtr = s.freeCtr := rfl
@[simp] theorem setMc_act (n : Nat) (v : Mc) : (setMc n v s).act = s.act := rfl
@[simp] theorem setMc_time (n : Nat) (v : Mc) : (setMc n v s).time = s.time := rfl
@[simp] theorem setMc_ev (n : Nat) (v : Mc) : (setMc n v s).ev = s.ev := rfl
@[simp] theorem setMc_regs (n : Nat) (v : Mc) : (setMc n v s).regs = s.regs := rfl
@[simp] theorem setMc_ctr (n : Nat) (v : Mc) : (setMc n v s).ctr = s.ctr := rfl
@[simp] theorem setMc_shadow (n : Nat) (v : Mc) : (setMc n v s).shadow = s.shadow := rfl
@[simp] theorem setMc_resetting (n : Nat) (v : Mc) : (setMc n v s).resetting = s.resetting := rfl
@[simp] theorem setMc_mem (n : Nat) (v : Mc) : (setMc n v s).mem = s.mem := rfl
@[simp] theorem setMc_qe (n : Nat) (v : Mc) : (setMc n v s).qe = s.qe := rfl
@[simp] theorem setMc_jobs (n : Nat) (v : Mc) : (setMc n v s).jobs = s.jobs := rfl
@[simp] theorem setMc_arrivals (n : Nat) (v : Mc) : (setMc n v s).arrivals = s.arrivals := rfl
@[simp] theorem setMc_rrQueue (n : Nat) (v : Mc) : (setMc n v s).rrQueue = s.rrQueue := rfl
@[simp] theorem setMc_quills (n : Nat) (v : Mc) : (setMc n v s).quills = s.quills := rfl
@[simp] theorem setMc_chans (n : Nat) (v : Mc) : (setMc n v s).chans = s.chans := rfl
@[simp] theorem setMc_barriers (n : Nat) (v : Mc) : (setMc n v s).barriers = s.barriers := rfl
@[simp] theorem setMc_groups (n : Nat) (v : Mc) : (setMc n v s).groups = s.groups := rfl
@[simp] theorem setMc_spads (n : Nat) (v : Mc) : (setMc n v s).spads = s.spads := rfl
@[simp] theorem setMc_sn (n : Nat) (v : Mc) : (setMc n v s).sn = s.sn := rfl
@[simp] theorem setMc_ring (n : Nat) (v : Mc) : (setMc n v s).ring = s.ring := rfl
@[simp] theorem setMc_settings (n : Nat) (v : Mc) : (setMc n v s).settings = s.settings := rfl
@[simp] theorem setMc_cc (n : Nat) (v : Mc) : (setMc n v s).cc = s.cc := rfl
@[simp] theorem setMc_host (n : Nat) (v : Mc) : (setMc n v s).host = s.host := rfl
@[simp] theorem setMc_car (n : Nat) (v : Mc) : (setMc n v s).car = s.car := rfl
@[simp] theorem setMc_fn (n : Nat) (v : Mc) : (setMc n v s).fn = s.fn := rfl
@[simp] theorem setMc_tr (n : Nat) (v : Mc) : (setMc n v s).tr = s.tr := rfl
@[simp] theorem setMc_tio (n : Nat) (v : Mc) : (setMc n v s).tio = s.tio := rfl
@[simp] theorem setMc_cans (n : Nat) (v : Mc) : (setMc n v s).cans = s.cans := rfl
@[simp] theorem setMc_pwr (n : Nat) (v : Mc) : (setMc n v s).pwr = s.pwr := rfl
@[simp] theorem setMc_sec (n : Nat) (v : Mc) : (setMc n v s).sec = s.sec := rfl

@[simp] theorem wrBytes_pending (a : Nat) (l : List Byte) : (wrBytes a l s).pending = s.pending := rfl
@[simp] theorem wrBytes_freeCtr (a : Nat) (l : List Byte) : (wrBytes a l s).freeCtr = s.freeCtr := rfl
@[simp] theorem wrBytes_act (a : Nat) (l : List Byte) : (wrBytes a l s).act = s.act := rfl
@[simp] theorem wrBytes_time (a : Nat) (l : List Byte) : (wrBytes a l s).time = s.time := rfl
@[simp] theorem wrBytes_ev (a : Nat) (l : List Byte) : (wrBytes a l s).ev = s.ev := rfl
@[simp] theorem wrBytes_regs (a : Nat) (l : List Byte) : (wrBytes a l s).regs = s.regs := rfl
@[simp] theorem wrBytes_ctr (a : Nat) (l : List Byte) : (wrBytes a l s).ctr = s.ctr := rfl
@[simp] theorem wrBytes_shadow (a : Nat) (l : List Byte) : (wrBytes a l s).shadow = s.shadow := rfl
@[simp] theorem wrBytes_resetting (a : Nat) (l : List Byte) : (wrBytes a l s).resetting = s.resetting := rfl
@[simp] theorem wrBytes_qe (a : Nat) (l : List Byte) : (wrBytes a l s).qe = s.qe := rfl
@[simp] theorem wrBytes_jobs (a : Nat) (l : List Byte) : (wrBytes a l s).jobs = s.jobs := rfl
@[simp] theorem wrBytes_arrivals (a : Nat) (l : List Byte) : (wrBytes a l s).arrivals = s.arrivals := rfl
@[simp] theorem wrBytes_rrQueue (a : Nat) (l : List Byte) : (wrBytes a l s).rrQueue = s.rrQueue := rfl
@[simp] theorem wrBytes_quills (a : Nat) (l : List Byte) : (wrBytes a l s).quills = s.quills := rfl
@[simp] theorem wrBytes_chans (a : Nat) (l : List Byte) : (wrBytes a l s).chans = s.chans := rfl
@[simp] theorem wrBytes_barriers (a : Nat) (l : List Byte) : (wrBytes a l s).barriers = s.barriers := rfl
@[simp] theorem wrBytes_groups (a : Nat) (l : List Byte) : (wrBytes a l s).groups = s.groups := rfl
@[simp] theorem wrBytes_spads (a : Nat) (l : List Byte) : (wrBytes a l s).spads = s.spads := rfl
@[simp] theorem wrBytes_mcs (a : Nat) (l : List Byte) : (wrBytes a l s).mcs = s.mcs := rfl
@[simp] theorem wrBytes_sn (a : Nat) (l : List Byte) : (wrBytes a l s).sn = s.sn := rfl
@[simp] theorem wrBytes_ring (a : Nat) (l : List Byte) : (wrBytes a l s).ring = s.ring := rfl
@[simp] theorem wrBytes_settings (a : Nat) (l : List Byte) : (wrBytes a l s).settings = s.settings := rfl
@[simp] theorem wrBytes_cc (a : Nat) (l : List Byte) : (wrBytes a l s).cc = s.cc := rfl
@[simp] theorem wrBytes_host (a : Nat) (l : List Byte) : (wrBytes a l s).host = s.host := rfl
@[simp] theorem wrBytes_car (a : Nat) (l : List Byte) : (wrBytes a l s).car = s.car := rfl
@[simp] theorem wrBytes_fn (a : Nat) (l : List Byte) : (wrBytes a l s).fn = s.fn := rfl
@[simp] theorem wrBytes_tr (a : Nat) (l : List Byte) : (wrBytes a l s).tr = s.tr := rfl
@[simp] theorem wrBytes_tio (a : Nat) (l : List Byte) : (wrBytes a l s).tio = s.tio := rfl
@[simp] theorem wrBytes_cans (a : Nat) (l : List Byte) : (wrBytes a l s).cans = s.cans := rfl
@[simp] theorem wrBytes_pwr (a : Nat) (l : List Byte) : (wrBytes a l s).pwr = s.pwr := rfl
@[simp] theorem wrBytes_sec (a : Nat) (l : List Byte) : (wrBytes a l s).sec = s.sec := rfl

@[simp] theorem zeroBytes_pending (a n : Nat) : (zeroBytes a n s).pending = s.pending := rfl
@[simp] theorem zeroBytes_freeCtr (a n : Nat) : (zeroBytes a n s).freeCtr = s.freeCtr := rfl
@[simp] theorem zeroBytes_act (a n : Nat) : (zeroBytes a n s).act = s.act := rfl
@[simp] theorem zeroBytes_time (a n : Nat) : (zeroBytes a n s).time = s.time := rfl
@[simp] theorem zeroBytes_ev (a n : Nat) : (zeroBytes a n s).ev = s.ev := rfl
@[simp] theorem zeroBytes_regs (a n : Nat) : (zeroBytes a n s).regs = s.regs := rfl
@[simp] theorem zeroBytes_ctr (a n : Nat) : (zeroBytes a n s).ctr = s.ctr := rfl
@[simp] theorem zeroBytes_shadow (a n : Nat) : (zeroBytes a n s).shadow = s.shadow := rfl
@[simp] theorem zeroBytes_resetting (a n : Nat) : (zeroBytes a n s).resetting = s.resetting := rfl
@[simp] theorem zeroBytes_qe (a n : Nat) : (zeroBytes a n s).qe = s.qe := rfl
@[simp] theorem zeroBytes_jobs (a n : Nat) : (zeroBytes a n s).jobs = s.jobs := rfl
@[simp] theorem zeroBytes_arrivals (a n : Nat) : (zeroBytes a n s).arrivals = s.arrivals := rfl
@[simp] theorem zeroBytes_rrQueue (a n : Nat) : (zeroBytes a n s).rrQueue = s.rrQueue := rfl
@[simp] theorem zeroBytes_quills (a n : Nat) : (zeroBytes a n s).quills = s.quills := rfl
@[simp] theorem zeroBytes_chans (a n : Nat) : (zeroBytes a n s).chans = s.chans := rfl
@[simp] theorem zeroBytes_barriers (a n : Nat) : (zeroBytes a n s).barriers = s.barriers := rfl
@[simp] theorem zeroBytes_groups (a n : Nat) : (zeroBytes a n s).groups = s.groups := rfl
@[simp] theorem zeroBytes_spads (a n : Nat) : (zeroBytes a n s).spads = s.spads := rfl
@[simp] theorem zeroBytes_mcs (a n : Nat) : (zeroBytes a n s).mcs = s.mcs := rfl
@[simp] theorem zeroBytes_sn (a n : Nat) : (zeroBytes a n s).sn = s.sn := rfl
@[simp] theorem zeroBytes_ring (a n : Nat) : (zeroBytes a n s).ring = s.ring := rfl
@[simp] theorem zeroBytes_settings (a n : Nat) : (zeroBytes a n s).settings = s.settings := rfl
@[simp] theorem zeroBytes_cc (a n : Nat) : (zeroBytes a n s).cc = s.cc := rfl
@[simp] theorem zeroBytes_host (a n : Nat) : (zeroBytes a n s).host = s.host := rfl
@[simp] theorem zeroBytes_car (a n : Nat) : (zeroBytes a n s).car = s.car := rfl
@[simp] theorem zeroBytes_fn (a n : Nat) : (zeroBytes a n s).fn = s.fn := rfl
@[simp] theorem zeroBytes_tr (a n : Nat) : (zeroBytes a n s).tr = s.tr := rfl
@[simp] theorem zeroBytes_tio (a n : Nat) : (zeroBytes a n s).tio = s.tio := rfl
@[simp] theorem zeroBytes_cans (a n : Nat) : (zeroBytes a n s).cans = s.cans := rfl
@[simp] theorem zeroBytes_pwr (a n : Nat) : (zeroBytes a n s).pwr = s.pwr := rfl
@[simp] theorem zeroBytes_sec (a n : Nat) : (zeroBytes a n s).sec = s.sec := rfl

@[simp] theorem disarm_pending (c i bit : Nat) : (disarm c i bit s).pending = s.pending := rfl
@[simp] theorem disarm_freeCtr (c i bit : Nat) : (disarm c i bit s).freeCtr = s.freeCtr := rfl
@[simp] theorem disarm_act (c i bit : Nat) : (disarm c i bit s).act = s.act := rfl
@[simp] theorem disarm_time (c i bit : Nat) : (disarm c i bit s).time = s.time := rfl
@[simp] theorem disarm_regs (c i bit : Nat) : (disarm c i bit s).regs = s.regs := rfl
@[simp] theorem disarm_ctr (c i bit : Nat) : (disarm c i bit s).ctr = s.ctr := rfl
@[simp] theorem disarm_shadow (c i bit : Nat) : (disarm c i bit s).shadow = s.shadow := rfl
@[simp] theorem disarm_resetting (c i bit : Nat) : (disarm c i bit s).resetting = s.resetting := rfl
@[simp] theorem disarm_mem (c i bit : Nat) : (disarm c i bit s).mem = s.mem := rfl
@[simp] theorem disarm_qe (c i bit : Nat) : (disarm c i bit s).qe = s.qe := rfl
@[simp] theorem disarm_jobs (c i bit : Nat) : (disarm c i bit s).jobs = s.jobs := rfl
@[simp] theorem disarm_arrivals (c i bit : Nat) : (disarm c i bit s).arrivals = s.arrivals := rfl
@[simp] theorem disarm_rrQueue (c i bit : Nat) : (disarm c i bit s).rrQueue = s.rrQueue := rfl
@[simp] theorem disarm_quills (c i bit : Nat) : (disarm c i bit s).quills = s.quills := rfl
@[simp] theorem disarm_chans (c i bit : Nat) : (disarm c i bit s).chans = s.chans := rfl
@[simp] theorem disarm_barriers (c i bit : Nat) : (disarm c i bit s).barriers = s.barriers := rfl
@[simp] theorem disarm_groups (c i bit : Nat) : (disarm c i bit s).groups = s.groups := rfl
@[simp] theorem disarm_spads (c i bit : Nat) : (disarm c i bit s).spads = s.spads := rfl
@[simp] theorem disarm_mcs (c i bit : Nat) : (disarm c i bit s).mcs = s.mcs := rfl
@[simp] theorem disarm_sn (c i bit : Nat) : (disarm c i bit s).sn = s.sn := rfl
@[simp] theorem disarm_ring (c i bit : Nat) : (disarm c i bit s).ring = s.ring := rfl
@[simp] theorem disarm_settings (c i bit : Nat) : (disarm c i bit s).settings = s.settings := rfl
@[simp] theorem disarm_cc (c i bit : Nat) : (disarm c i bit s).cc = s.cc := rfl
@[simp] theorem disarm_host (c i bit : Nat) : (disarm c i bit s).host = s.host := rfl
@[simp] theorem disarm_car (c i bit : Nat) : (disarm c i bit s).car = s.car := rfl
@[simp] theorem disarm_fn (c i bit : Nat) : (disarm c i bit s).fn = s.fn := rfl
@[simp] theorem disarm_tr (c i bit : Nat) : (disarm c i bit s).tr = s.tr := rfl
@[simp] theorem disarm_tio (c i bit : Nat) : (disarm c i bit s).tio = s.tio := rfl
@[simp] theorem disarm_cans (c i bit : Nat) : (disarm c i bit s).cans = s.cans := rfl
@[simp] theorem disarm_pwr (c i bit : Nat) : (disarm c i bit s).pwr = s.pwr := rfl
@[simp] theorem disarm_sec (c i bit : Nat) : (disarm c i bit s).sec = s.sec := rfl

@[simp] theorem setRail_pending (k : Nat) (v : PwrRail) : (setRail k v s).pending = s.pending := rfl
@[simp] theorem setRail_freeCtr (k : Nat) (v : PwrRail) : (setRail k v s).freeCtr = s.freeCtr := rfl
@[simp] theorem setRail_act (k : Nat) (v : PwrRail) : (setRail k v s).act = s.act := rfl
@[simp] theorem setRail_time (k : Nat) (v : PwrRail) : (setRail k v s).time = s.time := rfl
@[simp] theorem setRail_ev (k : Nat) (v : PwrRail) : (setRail k v s).ev = s.ev := rfl
@[simp] theorem setRail_regs (k : Nat) (v : PwrRail) : (setRail k v s).regs = s.regs := rfl
@[simp] theorem setRail_ctr (k : Nat) (v : PwrRail) : (setRail k v s).ctr = s.ctr := rfl
@[simp] theorem setRail_shadow (k : Nat) (v : PwrRail) : (setRail k v s).shadow = s.shadow := rfl
@[simp] theorem setRail_resetting (k : Nat) (v : PwrRail) : (setRail k v s).resetting = s.resetting := rfl
@[simp] theorem setRail_mem (k : Nat) (v : PwrRail) : (setRail k v s).mem = s.mem := rfl
@[simp] theorem setRail_qe (k : Nat) (v : PwrRail) : (setRail k v s).qe = s.qe := rfl
@[simp] theorem setRail_jobs (k : Nat) (v : PwrRail) : (setRail k v s).jobs = s.jobs := rfl
@[simp] theorem setRail_arrivals (k : Nat) (v : PwrRail) : (setRail k v s).arrivals = s.arrivals := rfl
@[simp] theorem setRail_rrQueue (k : Nat) (v : PwrRail) : (setRail k v s).rrQueue = s.rrQueue := rfl
@[simp] theorem setRail_quills (k : Nat) (v : PwrRail) : (setRail k v s).quills = s.quills := rfl
@[simp] theorem setRail_chans (k : Nat) (v : PwrRail) : (setRail k v s).chans = s.chans := rfl
@[simp] theorem setRail_barriers (k : Nat) (v : PwrRail) : (setRail k v s).barriers = s.barriers := rfl
@[simp] theorem setRail_groups (k : Nat) (v : PwrRail) : (setRail k v s).groups = s.groups := rfl
@[simp] theorem setRail_spads (k : Nat) (v : PwrRail) : (setRail k v s).spads = s.spads := rfl
@[simp] theorem setRail_mcs (k : Nat) (v : PwrRail) : (setRail k v s).mcs = s.mcs := rfl
@[simp] theorem setRail_sn (k : Nat) (v : PwrRail) : (setRail k v s).sn = s.sn := rfl
@[simp] theorem setRail_ring (k : Nat) (v : PwrRail) : (setRail k v s).ring = s.ring := rfl
@[simp] theorem setRail_settings (k : Nat) (v : PwrRail) : (setRail k v s).settings = s.settings := rfl
@[simp] theorem setRail_cc (k : Nat) (v : PwrRail) : (setRail k v s).cc = s.cc := rfl
@[simp] theorem setRail_host (k : Nat) (v : PwrRail) : (setRail k v s).host = s.host := rfl
@[simp] theorem setRail_car (k : Nat) (v : PwrRail) : (setRail k v s).car = s.car := rfl
@[simp] theorem setRail_fn (k : Nat) (v : PwrRail) : (setRail k v s).fn = s.fn := rfl
@[simp] theorem setRail_tr (k : Nat) (v : PwrRail) : (setRail k v s).tr = s.tr := rfl
@[simp] theorem setRail_tio (k : Nat) (v : PwrRail) : (setRail k v s).tio = s.tio := rfl
@[simp] theorem setRail_cans (k : Nat) (v : PwrRail) : (setRail k v s).cans = s.cans := rfl
@[simp] theorem setRail_sec (k : Nat) (v : PwrRail) : (setRail k v s).sec = s.sec := rfl

@[simp] theorem setTemp_pending (k : Nat) (t : Int) : (setTemp k t s).pending = s.pending := rfl
@[simp] theorem setTemp_freeCtr (k : Nat) (t : Int) : (setTemp k t s).freeCtr = s.freeCtr := rfl
@[simp] theorem setTemp_act (k : Nat) (t : Int) : (setTemp k t s).act = s.act := rfl
@[simp] theorem setTemp_time (k : Nat) (t : Int) : (setTemp k t s).time = s.time := rfl
@[simp] theorem setTemp_ev (k : Nat) (t : Int) : (setTemp k t s).ev = s.ev := rfl
@[simp] theorem setTemp_regs (k : Nat) (t : Int) : (setTemp k t s).regs = s.regs := rfl
@[simp] theorem setTemp_ctr (k : Nat) (t : Int) : (setTemp k t s).ctr = s.ctr := rfl
@[simp] theorem setTemp_shadow (k : Nat) (t : Int) : (setTemp k t s).shadow = s.shadow := rfl
@[simp] theorem setTemp_resetting (k : Nat) (t : Int) : (setTemp k t s).resetting = s.resetting := rfl
@[simp] theorem setTemp_mem (k : Nat) (t : Int) : (setTemp k t s).mem = s.mem := rfl
@[simp] theorem setTemp_qe (k : Nat) (t : Int) : (setTemp k t s).qe = s.qe := rfl
@[simp] theorem setTemp_jobs (k : Nat) (t : Int) : (setTemp k t s).jobs = s.jobs := rfl
@[simp] theorem setTemp_arrivals (k : Nat) (t : Int) : (setTemp k t s).arrivals = s.arrivals := rfl
@[simp] theorem setTemp_rrQueue (k : Nat) (t : Int) : (setTemp k t s).rrQueue = s.rrQueue := rfl
@[simp] theorem setTemp_quills (k : Nat) (t : Int) : (setTemp k t s).quills = s.quills := rfl
@[simp] theorem setTemp_chans (k : Nat) (t : Int) : (setTemp k t s).chans = s.chans := rfl
@[simp] theorem setTemp_barriers (k : Nat) (t : Int) : (setTemp k t s).barriers = s.barriers := rfl
@[simp] theorem setTemp_groups (k : Nat) (t : Int) : (setTemp k t s).groups = s.groups := rfl
@[simp] theorem setTemp_spads (k : Nat) (t : Int) : (setTemp k t s).spads = s.spads := rfl
@[simp] theorem setTemp_mcs (k : Nat) (t : Int) : (setTemp k t s).mcs = s.mcs := rfl
@[simp] theorem setTemp_sn (k : Nat) (t : Int) : (setTemp k t s).sn = s.sn := rfl
@[simp] theorem setTemp_ring (k : Nat) (t : Int) : (setTemp k t s).ring = s.ring := rfl
@[simp] theorem setTemp_settings (k : Nat) (t : Int) : (setTemp k t s).settings = s.settings := rfl
@[simp] theorem setTemp_cc (k : Nat) (t : Int) : (setTemp k t s).cc = s.cc := rfl
@[simp] theorem setTemp_host (k : Nat) (t : Int) : (setTemp k t s).host = s.host := rfl
@[simp] theorem setTemp_car (k : Nat) (t : Int) : (setTemp k t s).car = s.car := rfl
@[simp] theorem setTemp_fn (k : Nat) (t : Int) : (setTemp k t s).fn = s.fn := rfl
@[simp] theorem setTemp_tr (k : Nat) (t : Int) : (setTemp k t s).tr = s.tr := rfl
@[simp] theorem setTemp_tio (k : Nat) (t : Int) : (setTemp k t s).tio = s.tio := rfl
@[simp] theorem setTemp_cans (k : Nat) (t : Int) : (setTemp k t s).cans = s.cans := rfl
@[simp] theorem setTemp_sec (k : Nat) (t : Int) : (setTemp k t s).sec = s.sec := rfl

@[simp] theorem setCan_pending (c : Nat) (v : CanCtl) : (setCan c v s).pending = s.pending := rfl
@[simp] theorem setCan_freeCtr (c : Nat) (v : CanCtl) : (setCan c v s).freeCtr = s.freeCtr := rfl
@[simp] theorem setCan_act (c : Nat) (v : CanCtl) : (setCan c v s).act = s.act := rfl
@[simp] theorem setCan_time (c : Nat) (v : CanCtl) : (setCan c v s).time = s.time := rfl
@[simp] theorem setCan_ev (c : Nat) (v : CanCtl) : (setCan c v s).ev = s.ev := rfl
@[simp] theorem setCan_regs (c : Nat) (v : CanCtl) : (setCan c v s).regs = s.regs := rfl
@[simp] theorem setCan_ctr (c : Nat) (v : CanCtl) : (setCan c v s).ctr = s.ctr := rfl
@[simp] theorem setCan_shadow (c : Nat) (v : CanCtl) : (setCan c v s).shadow = s.shadow := rfl
@[simp] theorem setCan_resetting (c : Nat) (v : CanCtl) : (setCan c v s).resetting = s.resetting := rfl
@[simp] theorem setCan_mem (c : Nat) (v : CanCtl) : (setCan c v s).mem = s.mem := rfl
@[simp] theorem setCan_qe (c : Nat) (v : CanCtl) : (setCan c v s).qe = s.qe := rfl
@[simp] theorem setCan_jobs (c : Nat) (v : CanCtl) : (setCan c v s).jobs = s.jobs := rfl
@[simp] theorem setCan_arrivals (c : Nat) (v : CanCtl) : (setCan c v s).arrivals = s.arrivals := rfl
@[simp] theorem setCan_rrQueue (c : Nat) (v : CanCtl) : (setCan c v s).rrQueue = s.rrQueue := rfl
@[simp] theorem setCan_quills (c : Nat) (v : CanCtl) : (setCan c v s).quills = s.quills := rfl
@[simp] theorem setCan_chans (c : Nat) (v : CanCtl) : (setCan c v s).chans = s.chans := rfl
@[simp] theorem setCan_barriers (c : Nat) (v : CanCtl) : (setCan c v s).barriers = s.barriers := rfl
@[simp] theorem setCan_groups (c : Nat) (v : CanCtl) : (setCan c v s).groups = s.groups := rfl
@[simp] theorem setCan_spads (c : Nat) (v : CanCtl) : (setCan c v s).spads = s.spads := rfl
@[simp] theorem setCan_mcs (c : Nat) (v : CanCtl) : (setCan c v s).mcs = s.mcs := rfl
@[simp] theorem setCan_sn (c : Nat) (v : CanCtl) : (setCan c v s).sn = s.sn := rfl
@[simp] theorem setCan_ring (c : Nat) (v : CanCtl) : (setCan c v s).ring = s.ring := rfl
@[simp] theorem setCan_settings (c : Nat) (v : CanCtl) : (setCan c v s).settings = s.settings := rfl
@[simp] theorem setCan_cc (c : Nat) (v : CanCtl) : (setCan c v s).cc = s.cc := rfl
@[simp] theorem setCan_host (c : Nat) (v : CanCtl) : (setCan c v s).host = s.host := rfl
@[simp] theorem setCan_car (c : Nat) (v : CanCtl) : (setCan c v s).car = s.car := rfl
@[simp] theorem setCan_fn (c : Nat) (v : CanCtl) : (setCan c v s).fn = s.fn := rfl
@[simp] theorem setCan_tr (c : Nat) (v : CanCtl) : (setCan c v s).tr = s.tr := rfl
@[simp] theorem setCan_tio (c : Nat) (v : CanCtl) : (setCan c v s).tio = s.tio := rfl
@[simp] theorem setCan_pwr (c : Nat) (v : CanCtl) : (setCan c v s).pwr = s.pwr := rfl
@[simp] theorem setCan_sec (c : Nat) (v : CanCtl) : (setCan c v s).sec = s.sec := rfl

@[simp] theorem setPort_pending (p : Nat) (v : Port) : (setPort p v s).pending = s.pending := rfl
@[simp] theorem setPort_freeCtr (p : Nat) (v : Port) : (setPort p v s).freeCtr = s.freeCtr := rfl
@[simp] theorem setPort_act (p : Nat) (v : Port) : (setPort p v s).act = s.act := rfl
@[simp] theorem setPort_time (p : Nat) (v : Port) : (setPort p v s).time = s.time := rfl
@[simp] theorem setPort_ev (p : Nat) (v : Port) : (setPort p v s).ev = s.ev := rfl
@[simp] theorem setPort_regs (p : Nat) (v : Port) : (setPort p v s).regs = s.regs := rfl
@[simp] theorem setPort_ctr (p : Nat) (v : Port) : (setPort p v s).ctr = s.ctr := rfl
@[simp] theorem setPort_shadow (p : Nat) (v : Port) : (setPort p v s).shadow = s.shadow := rfl
@[simp] theorem setPort_resetting (p : Nat) (v : Port) : (setPort p v s).resetting = s.resetting := rfl
@[simp] theorem setPort_mem (p : Nat) (v : Port) : (setPort p v s).mem = s.mem := rfl
@[simp] theorem setPort_qe (p : Nat) (v : Port) : (setPort p v s).qe = s.qe := rfl
@[simp] theorem setPort_jobs (p : Nat) (v : Port) : (setPort p v s).jobs = s.jobs := rfl
@[simp] theorem setPort_arrivals (p : Nat) (v : Port) : (setPort p v s).arrivals = s.arrivals := rfl
@[simp] theorem setPort_rrQueue (p : Nat) (v : Port) : (setPort p v s).rrQueue = s.rrQueue := rfl
@[simp] theorem setPort_quills (p : Nat) (v : Port) : (setPort p v s).quills = s.quills := rfl
@[simp] theorem setPort_chans (p : Nat) (v : Port) : (setPort p v s).chans = s.chans := rfl
@[simp] theorem setPort_barriers (p : Nat) (v : Port) : (setPort p v s).barriers = s.barriers := rfl
@[simp] theorem setPort_groups (p : Nat) (v : Port) : (setPort p v s).groups = s.groups := rfl
@[simp] theorem setPort_spads (p : Nat) (v : Port) : (setPort p v s).spads = s.spads := rfl
@[simp] theorem setPort_mcs (p : Nat) (v : Port) : (setPort p v s).mcs = s.mcs := rfl
@[simp] theorem setPort_sn (p : Nat) (v : Port) : (setPort p v s).sn = s.sn := rfl
@[simp] theorem setPort_settings (p : Nat) (v : Port) : (setPort p v s).settings = s.settings := rfl
@[simp] theorem setPort_cc (p : Nat) (v : Port) : (setPort p v s).cc = s.cc := rfl
@[simp] theorem setPort_host (p : Nat) (v : Port) : (setPort p v s).host = s.host := rfl
@[simp] theorem setPort_car (p : Nat) (v : Port) : (setPort p v s).car = s.car := rfl
@[simp] theorem setPort_fn (p : Nat) (v : Port) : (setPort p v s).fn = s.fn := rfl
@[simp] theorem setPort_tr (p : Nat) (v : Port) : (setPort p v s).tr = s.tr := rfl
@[simp] theorem setPort_tio (p : Nat) (v : Port) : (setPort p v s).tio = s.tio := rfl
@[simp] theorem setPort_cans (p : Nat) (v : Port) : (setPort p v s).cans = s.cans := rfl
@[simp] theorem setPort_pwr (p : Nat) (v : Port) : (setPort p v s).pwr = s.pwr := rfl
@[simp] theorem setPort_sec (p : Nat) (v : Port) : (setPort p v s).sec = s.sec := rfl

@[simp] theorem setPeer_pending (id : Nat) (v : Peer) : (setPeer id v s).pending = s.pending := rfl
@[simp] theorem setPeer_freeCtr (id : Nat) (v : Peer) : (setPeer id v s).freeCtr = s.freeCtr := rfl
@[simp] theorem setPeer_act (id : Nat) (v : Peer) : (setPeer id v s).act = s.act := rfl
@[simp] theorem setPeer_time (id : Nat) (v : Peer) : (setPeer id v s).time = s.time := rfl
@[simp] theorem setPeer_ev (id : Nat) (v : Peer) : (setPeer id v s).ev = s.ev := rfl
@[simp] theorem setPeer_regs (id : Nat) (v : Peer) : (setPeer id v s).regs = s.regs := rfl
@[simp] theorem setPeer_ctr (id : Nat) (v : Peer) : (setPeer id v s).ctr = s.ctr := rfl
@[simp] theorem setPeer_shadow (id : Nat) (v : Peer) : (setPeer id v s).shadow = s.shadow := rfl
@[simp] theorem setPeer_resetting (id : Nat) (v : Peer) : (setPeer id v s).resetting = s.resetting := rfl
@[simp] theorem setPeer_mem (id : Nat) (v : Peer) : (setPeer id v s).mem = s.mem := rfl
@[simp] theorem setPeer_qe (id : Nat) (v : Peer) : (setPeer id v s).qe = s.qe := rfl
@[simp] theorem setPeer_jobs (id : Nat) (v : Peer) : (setPeer id v s).jobs = s.jobs := rfl
@[simp] theorem setPeer_arrivals (id : Nat) (v : Peer) : (setPeer id v s).arrivals = s.arrivals := rfl
@[simp] theorem setPeer_rrQueue (id : Nat) (v : Peer) : (setPeer id v s).rrQueue = s.rrQueue := rfl
@[simp] theorem setPeer_quills (id : Nat) (v : Peer) : (setPeer id v s).quills = s.quills := rfl
@[simp] theorem setPeer_chans (id : Nat) (v : Peer) : (setPeer id v s).chans = s.chans := rfl
@[simp] theorem setPeer_barriers (id : Nat) (v : Peer) : (setPeer id v s).barriers = s.barriers := rfl
@[simp] theorem setPeer_groups (id : Nat) (v : Peer) : (setPeer id v s).groups = s.groups := rfl
@[simp] theorem setPeer_spads (id : Nat) (v : Peer) : (setPeer id v s).spads = s.spads := rfl
@[simp] theorem setPeer_mcs (id : Nat) (v : Peer) : (setPeer id v s).mcs = s.mcs := rfl
@[simp] theorem setPeer_sn (id : Nat) (v : Peer) : (setPeer id v s).sn = s.sn := rfl
@[simp] theorem setPeer_settings (id : Nat) (v : Peer) : (setPeer id v s).settings = s.settings := rfl
@[simp] theorem setPeer_cc (id : Nat) (v : Peer) : (setPeer id v s).cc = s.cc := rfl
@[simp] theorem setPeer_host (id : Nat) (v : Peer) : (setPeer id v s).host = s.host := rfl
@[simp] theorem setPeer_car (id : Nat) (v : Peer) : (setPeer id v s).car = s.car := rfl
@[simp] theorem setPeer_fn (id : Nat) (v : Peer) : (setPeer id v s).fn = s.fn := rfl
@[simp] theorem setPeer_tr (id : Nat) (v : Peer) : (setPeer id v s).tr = s.tr := rfl
@[simp] theorem setPeer_tio (id : Nat) (v : Peer) : (setPeer id v s).tio = s.tio := rfl
@[simp] theorem setPeer_cans (id : Nat) (v : Peer) : (setPeer id v s).cans = s.cans := rfl
@[simp] theorem setPeer_pwr (id : Nat) (v : Peer) : (setPeer id v s).pwr = s.pwr := rfl
@[simp] theorem setPeer_sec (id : Nat) (v : Peer) : (setPeer id v s).sec = s.sec := rfl

@[simp] theorem setPkt_pending (p v : Pkt) : (setPkt p v s).pending = s.pending := rfl
@[simp] theorem setPkt_freeCtr (p v : Pkt) : (setPkt p v s).freeCtr = s.freeCtr := rfl
@[simp] theorem setPkt_act (p v : Pkt) : (setPkt p v s).act = s.act := rfl
@[simp] theorem setPkt_time (p v : Pkt) : (setPkt p v s).time = s.time := rfl
@[simp] theorem setPkt_ev (p v : Pkt) : (setPkt p v s).ev = s.ev := rfl
@[simp] theorem setPkt_regs (p v : Pkt) : (setPkt p v s).regs = s.regs := rfl
@[simp] theorem setPkt_ctr (p v : Pkt) : (setPkt p v s).ctr = s.ctr := rfl
@[simp] theorem setPkt_shadow (p v : Pkt) : (setPkt p v s).shadow = s.shadow := rfl
@[simp] theorem setPkt_resetting (p v : Pkt) : (setPkt p v s).resetting = s.resetting := rfl
@[simp] theorem setPkt_mem (p v : Pkt) : (setPkt p v s).mem = s.mem := rfl
@[simp] theorem setPkt_jobs (p v : Pkt) : (setPkt p v s).jobs = s.jobs := rfl
@[simp] theorem setPkt_arrivals (p v : Pkt) : (setPkt p v s).arrivals = s.arrivals := rfl
@[simp] theorem setPkt_rrQueue (p v : Pkt) : (setPkt p v s).rrQueue = s.rrQueue := rfl
@[simp] theorem setPkt_quills (p v : Pkt) : (setPkt p v s).quills = s.quills := rfl
@[simp] theorem setPkt_chans (p v : Pkt) : (setPkt p v s).chans = s.chans := rfl
@[simp] theorem setPkt_barriers (p v : Pkt) : (setPkt p v s).barriers = s.barriers := rfl
@[simp] theorem setPkt_groups (p v : Pkt) : (setPkt p v s).groups = s.groups := rfl
@[simp] theorem setPkt_spads (p v : Pkt) : (setPkt p v s).spads = s.spads := rfl
@[simp] theorem setPkt_mcs (p v : Pkt) : (setPkt p v s).mcs = s.mcs := rfl
@[simp] theorem setPkt_sn (p v : Pkt) : (setPkt p v s).sn = s.sn := rfl
@[simp] theorem setPkt_ring (p v : Pkt) : (setPkt p v s).ring = s.ring := rfl
@[simp] theorem setPkt_settings (p v : Pkt) : (setPkt p v s).settings = s.settings := rfl
@[simp] theorem setPkt_cc (p v : Pkt) : (setPkt p v s).cc = s.cc := rfl
@[simp] theorem setPkt_host (p v : Pkt) : (setPkt p v s).host = s.host := rfl
@[simp] theorem setPkt_car (p v : Pkt) : (setPkt p v s).car = s.car := rfl
@[simp] theorem setPkt_fn (p v : Pkt) : (setPkt p v s).fn = s.fn := rfl
@[simp] theorem setPkt_tr (p v : Pkt) : (setPkt p v s).tr = s.tr := rfl
@[simp] theorem setPkt_tio (p v : Pkt) : (setPkt p v s).tio = s.tio := rfl
@[simp] theorem setPkt_cans (p v : Pkt) : (setPkt p v s).cans = s.cans := rfl
@[simp] theorem setPkt_pwr (p v : Pkt) : (setPkt p v s).pwr = s.pwr := rfl
@[simp] theorem setPkt_sec (p v : Pkt) : (setPkt p v s).sec = s.sec := rfl

@[simp] theorem setSlot_pending (n : Nat) (v : TrSlot) : (setSlot n v s).pending = s.pending := rfl
@[simp] theorem setSlot_freeCtr (n : Nat) (v : TrSlot) : (setSlot n v s).freeCtr = s.freeCtr := rfl
@[simp] theorem setSlot_act (n : Nat) (v : TrSlot) : (setSlot n v s).act = s.act := rfl
@[simp] theorem setSlot_time (n : Nat) (v : TrSlot) : (setSlot n v s).time = s.time := rfl
@[simp] theorem setSlot_ev (n : Nat) (v : TrSlot) : (setSlot n v s).ev = s.ev := rfl
@[simp] theorem setSlot_regs (n : Nat) (v : TrSlot) : (setSlot n v s).regs = s.regs := rfl
@[simp] theorem setSlot_ctr (n : Nat) (v : TrSlot) : (setSlot n v s).ctr = s.ctr := rfl
@[simp] theorem setSlot_shadow (n : Nat) (v : TrSlot) : (setSlot n v s).shadow = s.shadow := rfl
@[simp] theorem setSlot_resetting (n : Nat) (v : TrSlot) : (setSlot n v s).resetting = s.resetting := rfl
@[simp] theorem setSlot_mem (n : Nat) (v : TrSlot) : (setSlot n v s).mem = s.mem := rfl
@[simp] theorem setSlot_qe (n : Nat) (v : TrSlot) : (setSlot n v s).qe = s.qe := rfl
@[simp] theorem setSlot_jobs (n : Nat) (v : TrSlot) : (setSlot n v s).jobs = s.jobs := rfl
@[simp] theorem setSlot_arrivals (n : Nat) (v : TrSlot) : (setSlot n v s).arrivals = s.arrivals := rfl
@[simp] theorem setSlot_rrQueue (n : Nat) (v : TrSlot) : (setSlot n v s).rrQueue = s.rrQueue := rfl
@[simp] theorem setSlot_quills (n : Nat) (v : TrSlot) : (setSlot n v s).quills = s.quills := rfl
@[simp] theorem setSlot_chans (n : Nat) (v : TrSlot) : (setSlot n v s).chans = s.chans := rfl
@[simp] theorem setSlot_barriers (n : Nat) (v : TrSlot) : (setSlot n v s).barriers = s.barriers := rfl
@[simp] theorem setSlot_groups (n : Nat) (v : TrSlot) : (setSlot n v s).groups = s.groups := rfl
@[simp] theorem setSlot_spads (n : Nat) (v : TrSlot) : (setSlot n v s).spads = s.spads := rfl
@[simp] theorem setSlot_mcs (n : Nat) (v : TrSlot) : (setSlot n v s).mcs = s.mcs := rfl
@[simp] theorem setSlot_sn (n : Nat) (v : TrSlot) : (setSlot n v s).sn = s.sn := rfl
@[simp] theorem setSlot_ring (n : Nat) (v : TrSlot) : (setSlot n v s).ring = s.ring := rfl
@[simp] theorem setSlot_settings (n : Nat) (v : TrSlot) : (setSlot n v s).settings = s.settings := rfl
@[simp] theorem setSlot_cc (n : Nat) (v : TrSlot) : (setSlot n v s).cc = s.cc := rfl
@[simp] theorem setSlot_host (n : Nat) (v : TrSlot) : (setSlot n v s).host = s.host := rfl
@[simp] theorem setSlot_car (n : Nat) (v : TrSlot) : (setSlot n v s).car = s.car := rfl
@[simp] theorem setSlot_fn (n : Nat) (v : TrSlot) : (setSlot n v s).fn = s.fn := rfl
@[simp] theorem setSlot_tio (n : Nat) (v : TrSlot) : (setSlot n v s).tio = s.tio := rfl
@[simp] theorem setSlot_cans (n : Nat) (v : TrSlot) : (setSlot n v s).cans = s.cans := rfl
@[simp] theorem setSlot_pwr (n : Nat) (v : TrSlot) : (setSlot n v s).pwr = s.pwr := rfl
@[simp] theorem setSlot_sec (n : Nat) (v : TrSlot) : (setSlot n v s).sec = s.sec := rfl

@[simp] theorem setRun_pending (r : TrRun) : (setRun r s).pending = s.pending := rfl
@[simp] theorem setRun_freeCtr (r : TrRun) : (setRun r s).freeCtr = s.freeCtr := rfl
@[simp] theorem setRun_act (r : TrRun) : (setRun r s).act = s.act := rfl
@[simp] theorem setRun_time (r : TrRun) : (setRun r s).time = s.time := rfl
@[simp] theorem setRun_ev (r : TrRun) : (setRun r s).ev = s.ev := rfl
@[simp] theorem setRun_regs (r : TrRun) : (setRun r s).regs = s.regs := rfl
@[simp] theorem setRun_ctr (r : TrRun) : (setRun r s).ctr = s.ctr := rfl
@[simp] theorem setRun_shadow (r : TrRun) : (setRun r s).shadow = s.shadow := rfl
@[simp] theorem setRun_resetting (r : TrRun) : (setRun r s).resetting = s.resetting := rfl
@[simp] theorem setRun_mem (r : TrRun) : (setRun r s).mem = s.mem := rfl
@[simp] theorem setRun_qe (r : TrRun) : (setRun r s).qe = s.qe := rfl
@[simp] theorem setRun_jobs (r : TrRun) : (setRun r s).jobs = s.jobs := rfl
@[simp] theorem setRun_arrivals (r : TrRun) : (setRun r s).arrivals = s.arrivals := rfl
@[simp] theorem setRun_rrQueue (r : TrRun) : (setRun r s).rrQueue = s.rrQueue := rfl
@[simp] theorem setRun_quills (r : TrRun) : (setRun r s).quills = s.quills := rfl
@[simp] theorem setRun_chans (r : TrRun) : (setRun r s).chans = s.chans := rfl
@[simp] theorem setRun_barriers (r : TrRun) : (setRun r s).barriers = s.barriers := rfl
@[simp] theorem setRun_groups (r : TrRun) : (setRun r s).groups = s.groups := rfl
@[simp] theorem setRun_spads (r : TrRun) : (setRun r s).spads = s.spads := rfl
@[simp] theorem setRun_mcs (r : TrRun) : (setRun r s).mcs = s.mcs := rfl
@[simp] theorem setRun_sn (r : TrRun) : (setRun r s).sn = s.sn := rfl
@[simp] theorem setRun_ring (r : TrRun) : (setRun r s).ring = s.ring := rfl
@[simp] theorem setRun_settings (r : TrRun) : (setRun r s).settings = s.settings := rfl
@[simp] theorem setRun_cc (r : TrRun) : (setRun r s).cc = s.cc := rfl
@[simp] theorem setRun_host (r : TrRun) : (setRun r s).host = s.host := rfl
@[simp] theorem setRun_car (r : TrRun) : (setRun r s).car = s.car := rfl
@[simp] theorem setRun_fn (r : TrRun) : (setRun r s).fn = s.fn := rfl
@[simp] theorem setRun_tio (r : TrRun) : (setRun r s).tio = s.tio := rfl
@[simp] theorem setRun_cans (r : TrRun) : (setRun r s).cans = s.cans := rfl
@[simp] theorem setRun_pwr (r : TrRun) : (setRun r s).pwr = s.pwr := rfl
@[simp] theorem setRun_sec (r : TrRun) : (setRun r s).sec = s.sec := rfl

@[simp] theorem setEnc_pending (n : Nat) (v : TioEnc) : (setEnc n v s).pending = s.pending := rfl
@[simp] theorem setEnc_freeCtr (n : Nat) (v : TioEnc) : (setEnc n v s).freeCtr = s.freeCtr := rfl
@[simp] theorem setEnc_act (n : Nat) (v : TioEnc) : (setEnc n v s).act = s.act := rfl
@[simp] theorem setEnc_time (n : Nat) (v : TioEnc) : (setEnc n v s).time = s.time := rfl
@[simp] theorem setEnc_ev (n : Nat) (v : TioEnc) : (setEnc n v s).ev = s.ev := rfl
@[simp] theorem setEnc_regs (n : Nat) (v : TioEnc) : (setEnc n v s).regs = s.regs := rfl
@[simp] theorem setEnc_ctr (n : Nat) (v : TioEnc) : (setEnc n v s).ctr = s.ctr := rfl
@[simp] theorem setEnc_shadow (n : Nat) (v : TioEnc) : (setEnc n v s).shadow = s.shadow := rfl
@[simp] theorem setEnc_resetting (n : Nat) (v : TioEnc) : (setEnc n v s).resetting = s.resetting := rfl
@[simp] theorem setEnc_mem (n : Nat) (v : TioEnc) : (setEnc n v s).mem = s.mem := rfl
@[simp] theorem setEnc_qe (n : Nat) (v : TioEnc) : (setEnc n v s).qe = s.qe := rfl
@[simp] theorem setEnc_jobs (n : Nat) (v : TioEnc) : (setEnc n v s).jobs = s.jobs := rfl
@[simp] theorem setEnc_arrivals (n : Nat) (v : TioEnc) : (setEnc n v s).arrivals = s.arrivals := rfl
@[simp] theorem setEnc_rrQueue (n : Nat) (v : TioEnc) : (setEnc n v s).rrQueue = s.rrQueue := rfl
@[simp] theorem setEnc_quills (n : Nat) (v : TioEnc) : (setEnc n v s).quills = s.quills := rfl
@[simp] theorem setEnc_chans (n : Nat) (v : TioEnc) : (setEnc n v s).chans = s.chans := rfl
@[simp] theorem setEnc_barriers (n : Nat) (v : TioEnc) : (setEnc n v s).barriers = s.barriers := rfl
@[simp] theorem setEnc_groups (n : Nat) (v : TioEnc) : (setEnc n v s).groups = s.groups := rfl
@[simp] theorem setEnc_spads (n : Nat) (v : TioEnc) : (setEnc n v s).spads = s.spads := rfl
@[simp] theorem setEnc_mcs (n : Nat) (v : TioEnc) : (setEnc n v s).mcs = s.mcs := rfl
@[simp] theorem setEnc_sn (n : Nat) (v : TioEnc) : (setEnc n v s).sn = s.sn := rfl
@[simp] theorem setEnc_ring (n : Nat) (v : TioEnc) : (setEnc n v s).ring = s.ring := rfl
@[simp] theorem setEnc_settings (n : Nat) (v : TioEnc) : (setEnc n v s).settings = s.settings := rfl
@[simp] theorem setEnc_cc (n : Nat) (v : TioEnc) : (setEnc n v s).cc = s.cc := rfl
@[simp] theorem setEnc_host (n : Nat) (v : TioEnc) : (setEnc n v s).host = s.host := rfl
@[simp] theorem setEnc_car (n : Nat) (v : TioEnc) : (setEnc n v s).car = s.car := rfl
@[simp] theorem setEnc_fn (n : Nat) (v : TioEnc) : (setEnc n v s).fn = s.fn := rfl
@[simp] theorem setEnc_tr (n : Nat) (v : TioEnc) : (setEnc n v s).tr = s.tr := rfl
@[simp] theorem setEnc_cans (n : Nat) (v : TioEnc) : (setEnc n v s).cans = s.cans := rfl
@[simp] theorem setEnc_pwr (n : Nat) (v : TioEnc) : (setEnc n v s).pwr = s.pwr := rfl
@[simp] theorem setEnc_sec (n : Nat) (v : TioEnc) : (setEnc n v s).sec = s.sec := rfl

@[simp] theorem setDin_pending (n : Nat) (v : TioDin) : (setDin n v s).pending = s.pending := rfl
@[simp] theorem setDin_freeCtr (n : Nat) (v : TioDin) : (setDin n v s).freeCtr = s.freeCtr := rfl
@[simp] theorem setDin_act (n : Nat) (v : TioDin) : (setDin n v s).act = s.act := rfl
@[simp] theorem setDin_time (n : Nat) (v : TioDin) : (setDin n v s).time = s.time := rfl
@[simp] theorem setDin_ev (n : Nat) (v : TioDin) : (setDin n v s).ev = s.ev := rfl
@[simp] theorem setDin_regs (n : Nat) (v : TioDin) : (setDin n v s).regs = s.regs := rfl
@[simp] theorem setDin_ctr (n : Nat) (v : TioDin) : (setDin n v s).ctr = s.ctr := rfl
@[simp] theorem setDin_shadow (n : Nat) (v : TioDin) : (setDin n v s).shadow = s.shadow := rfl
@[simp] theorem setDin_resetting (n : Nat) (v : TioDin) : (setDin n v s).resetting = s.resetting := rfl
@[simp] theorem setDin_mem (n : Nat) (v : TioDin) : (setDin n v s).mem = s.mem := rfl
@[simp] theorem setDin_qe (n : Nat) (v : TioDin) : (setDin n v s).qe = s.qe := rfl
@[simp] theorem setDin_jobs (n : Nat) (v : TioDin) : (setDin n v s).jobs = s.jobs := rfl
@[simp] theorem setDin_arrivals (n : Nat) (v : TioDin) : (setDin n v s).arrivals = s.arrivals := rfl
@[simp] theorem setDin_rrQueue (n : Nat) (v : TioDin) : (setDin n v s).rrQueue = s.rrQueue := rfl
@[simp] theorem setDin_quills (n : Nat) (v : TioDin) : (setDin n v s).quills = s.quills := rfl
@[simp] theorem setDin_chans (n : Nat) (v : TioDin) : (setDin n v s).chans = s.chans := rfl
@[simp] theorem setDin_barriers (n : Nat) (v : TioDin) : (setDin n v s).barriers = s.barriers := rfl
@[simp] theorem setDin_groups (n : Nat) (v : TioDin) : (setDin n v s).groups = s.groups := rfl
@[simp] theorem setDin_spads (n : Nat) (v : TioDin) : (setDin n v s).spads = s.spads := rfl
@[simp] theorem setDin_mcs (n : Nat) (v : TioDin) : (setDin n v s).mcs = s.mcs := rfl
@[simp] theorem setDin_sn (n : Nat) (v : TioDin) : (setDin n v s).sn = s.sn := rfl
@[simp] theorem setDin_ring (n : Nat) (v : TioDin) : (setDin n v s).ring = s.ring := rfl
@[simp] theorem setDin_settings (n : Nat) (v : TioDin) : (setDin n v s).settings = s.settings := rfl
@[simp] theorem setDin_cc (n : Nat) (v : TioDin) : (setDin n v s).cc = s.cc := rfl
@[simp] theorem setDin_host (n : Nat) (v : TioDin) : (setDin n v s).host = s.host := rfl
@[simp] theorem setDin_car (n : Nat) (v : TioDin) : (setDin n v s).car = s.car := rfl
@[simp] theorem setDin_fn (n : Nat) (v : TioDin) : (setDin n v s).fn = s.fn := rfl
@[simp] theorem setDin_tr (n : Nat) (v : TioDin) : (setDin n v s).tr = s.tr := rfl
@[simp] theorem setDin_cans (n : Nat) (v : TioDin) : (setDin n v s).cans = s.cans := rfl
@[simp] theorem setDin_pwr (n : Nat) (v : TioDin) : (setDin n v s).pwr = s.pwr := rfl
@[simp] theorem setDin_sec (n : Nat) (v : TioDin) : (setDin n v s).sec = s.sec := rfl

@[simp] theorem setAdc_pending (n : Nat) (v : TioAdc) : (setAdc n v s).pending = s.pending := rfl
@[simp] theorem setAdc_freeCtr (n : Nat) (v : TioAdc) : (setAdc n v s).freeCtr = s.freeCtr := rfl
@[simp] theorem setAdc_act (n : Nat) (v : TioAdc) : (setAdc n v s).act = s.act := rfl
@[simp] theorem setAdc_time (n : Nat) (v : TioAdc) : (setAdc n v s).time = s.time := rfl
@[simp] theorem setAdc_ev (n : Nat) (v : TioAdc) : (setAdc n v s).ev = s.ev := rfl
@[simp] theorem setAdc_regs (n : Nat) (v : TioAdc) : (setAdc n v s).regs = s.regs := rfl
@[simp] theorem setAdc_ctr (n : Nat) (v : TioAdc) : (setAdc n v s).ctr = s.ctr := rfl
@[simp] theorem setAdc_shadow (n : Nat) (v : TioAdc) : (setAdc n v s).shadow = s.shadow := rfl
@[simp] theorem setAdc_resetting (n : Nat) (v : TioAdc) : (setAdc n v s).resetting = s.resetting := rfl
@[simp] theorem setAdc_mem (n : Nat) (v : TioAdc) : (setAdc n v s).mem = s.mem := rfl
@[simp] theorem setAdc_qe (n : Nat) (v : TioAdc) : (setAdc n v s).qe = s.qe := rfl
@[simp] theorem setAdc_jobs (n : Nat) (v : TioAdc) : (setAdc n v s).jobs = s.jobs := rfl
@[simp] theorem setAdc_arrivals (n : Nat) (v : TioAdc) : (setAdc n v s).arrivals = s.arrivals := rfl
@[simp] theorem setAdc_rrQueue (n : Nat) (v : TioAdc) : (setAdc n v s).rrQueue = s.rrQueue := rfl
@[simp] theorem setAdc_quills (n : Nat) (v : TioAdc) : (setAdc n v s).quills = s.quills := rfl
@[simp] theorem setAdc_chans (n : Nat) (v : TioAdc) : (setAdc n v s).chans = s.chans := rfl
@[simp] theorem setAdc_barriers (n : Nat) (v : TioAdc) : (setAdc n v s).barriers = s.barriers := rfl
@[simp] theorem setAdc_groups (n : Nat) (v : TioAdc) : (setAdc n v s).groups = s.groups := rfl
@[simp] theorem setAdc_spads (n : Nat) (v : TioAdc) : (setAdc n v s).spads = s.spads := rfl
@[simp] theorem setAdc_mcs (n : Nat) (v : TioAdc) : (setAdc n v s).mcs = s.mcs := rfl
@[simp] theorem setAdc_sn (n : Nat) (v : TioAdc) : (setAdc n v s).sn = s.sn := rfl
@[simp] theorem setAdc_ring (n : Nat) (v : TioAdc) : (setAdc n v s).ring = s.ring := rfl
@[simp] theorem setAdc_settings (n : Nat) (v : TioAdc) : (setAdc n v s).settings = s.settings := rfl
@[simp] theorem setAdc_cc (n : Nat) (v : TioAdc) : (setAdc n v s).cc = s.cc := rfl
@[simp] theorem setAdc_host (n : Nat) (v : TioAdc) : (setAdc n v s).host = s.host := rfl
@[simp] theorem setAdc_car (n : Nat) (v : TioAdc) : (setAdc n v s).car = s.car := rfl
@[simp] theorem setAdc_fn (n : Nat) (v : TioAdc) : (setAdc n v s).fn = s.fn := rfl
@[simp] theorem setAdc_tr (n : Nat) (v : TioAdc) : (setAdc n v s).tr = s.tr := rfl
@[simp] theorem setAdc_cans (n : Nat) (v : TioAdc) : (setAdc n v s).cans = s.cans := rfl
@[simp] theorem setAdc_pwr (n : Nat) (v : TioAdc) : (setAdc n v s).pwr = s.pwr := rfl
@[simp] theorem setAdc_sec (n : Nat) (v : TioAdc) : (setAdc n v s).sec = s.sec := rfl

@[simp] theorem setPwm_pending (n : Nat) (v : TioPwm) : (setPwm n v s).pending = s.pending := rfl
@[simp] theorem setPwm_freeCtr (n : Nat) (v : TioPwm) : (setPwm n v s).freeCtr = s.freeCtr := rfl
@[simp] theorem setPwm_act (n : Nat) (v : TioPwm) : (setPwm n v s).act = s.act := rfl
@[simp] theorem setPwm_time (n : Nat) (v : TioPwm) : (setPwm n v s).time = s.time := rfl
@[simp] theorem setPwm_ev (n : Nat) (v : TioPwm) : (setPwm n v s).ev = s.ev := rfl
@[simp] theorem setPwm_regs (n : Nat) (v : TioPwm) : (setPwm n v s).regs = s.regs := rfl
@[simp] theorem setPwm_ctr (n : Nat) (v : TioPwm) : (setPwm n v s).ctr = s.ctr := rfl
@[simp] theorem setPwm_shadow (n : Nat) (v : TioPwm) : (setPwm n v s).shadow = s.shadow := rfl
@[simp] theorem setPwm_resetting (n : Nat) (v : TioPwm) : (setPwm n v s).resetting = s.resetting := rfl
@[simp] theorem setPwm_mem (n : Nat) (v : TioPwm) : (setPwm n v s).mem = s.mem := rfl
@[simp] theorem setPwm_qe (n : Nat) (v : TioPwm) : (setPwm n v s).qe = s.qe := rfl
@[simp] theorem setPwm_jobs (n : Nat) (v : TioPwm) : (setPwm n v s).jobs = s.jobs := rfl
@[simp] theorem setPwm_arrivals (n : Nat) (v : TioPwm) : (setPwm n v s).arrivals = s.arrivals := rfl
@[simp] theorem setPwm_rrQueue (n : Nat) (v : TioPwm) : (setPwm n v s).rrQueue = s.rrQueue := rfl
@[simp] theorem setPwm_quills (n : Nat) (v : TioPwm) : (setPwm n v s).quills = s.quills := rfl
@[simp] theorem setPwm_chans (n : Nat) (v : TioPwm) : (setPwm n v s).chans = s.chans := rfl
@[simp] theorem setPwm_barriers (n : Nat) (v : TioPwm) : (setPwm n v s).barriers = s.barriers := rfl
@[simp] theorem setPwm_groups (n : Nat) (v : TioPwm) : (setPwm n v s).groups = s.groups := rfl
@[simp] theorem setPwm_spads (n : Nat) (v : TioPwm) : (setPwm n v s).spads = s.spads := rfl
@[simp] theorem setPwm_mcs (n : Nat) (v : TioPwm) : (setPwm n v s).mcs = s.mcs := rfl
@[simp] theorem setPwm_sn (n : Nat) (v : TioPwm) : (setPwm n v s).sn = s.sn := rfl
@[simp] theorem setPwm_ring (n : Nat) (v : TioPwm) : (setPwm n v s).ring = s.ring := rfl
@[simp] theorem setPwm_settings (n : Nat) (v : TioPwm) : (setPwm n v s).settings = s.settings := rfl
@[simp] theorem setPwm_cc (n : Nat) (v : TioPwm) : (setPwm n v s).cc = s.cc := rfl
@[simp] theorem setPwm_host (n : Nat) (v : TioPwm) : (setPwm n v s).host = s.host := rfl
@[simp] theorem setPwm_car (n : Nat) (v : TioPwm) : (setPwm n v s).car = s.car := rfl
@[simp] theorem setPwm_fn (n : Nat) (v : TioPwm) : (setPwm n v s).fn = s.fn := rfl
@[simp] theorem setPwm_tr (n : Nat) (v : TioPwm) : (setPwm n v s).tr = s.tr := rfl
@[simp] theorem setPwm_cans (n : Nat) (v : TioPwm) : (setPwm n v s).cans = s.cans := rfl
@[simp] theorem setPwm_pwr (n : Nat) (v : TioPwm) : (setPwm n v s).pwr = s.pwr := rfl
@[simp] theorem setPwm_sec (n : Nat) (v : TioPwm) : (setPwm n v s).sec = s.sec := rfl

@[simp] theorem setStream_pending (n : Nat) (v : CarStream) : (setStream n v s).pending = s.pending := rfl
@[simp] theorem setStream_freeCtr (n : Nat) (v : CarStream) : (setStream n v s).freeCtr = s.freeCtr := rfl
@[simp] theorem setStream_act (n : Nat) (v : CarStream) : (setStream n v s).act = s.act := rfl
@[simp] theorem setStream_time (n : Nat) (v : CarStream) : (setStream n v s).time = s.time := rfl
@[simp] theorem setStream_ev (n : Nat) (v : CarStream) : (setStream n v s).ev = s.ev := rfl
@[simp] theorem setStream_regs (n : Nat) (v : CarStream) : (setStream n v s).regs = s.regs := rfl
@[simp] theorem setStream_ctr (n : Nat) (v : CarStream) : (setStream n v s).ctr = s.ctr := rfl
@[simp] theorem setStream_shadow (n : Nat) (v : CarStream) : (setStream n v s).shadow = s.shadow := rfl
@[simp] theorem setStream_resetting (n : Nat) (v : CarStream) : (setStream n v s).resetting = s.resetting := rfl
@[simp] theorem setStream_mem (n : Nat) (v : CarStream) : (setStream n v s).mem = s.mem := rfl
@[simp] theorem setStream_qe (n : Nat) (v : CarStream) : (setStream n v s).qe = s.qe := rfl
@[simp] theorem setStream_jobs (n : Nat) (v : CarStream) : (setStream n v s).jobs = s.jobs := rfl
@[simp] theorem setStream_arrivals (n : Nat) (v : CarStream) : (setStream n v s).arrivals = s.arrivals := rfl
@[simp] theorem setStream_rrQueue (n : Nat) (v : CarStream) : (setStream n v s).rrQueue = s.rrQueue := rfl
@[simp] theorem setStream_quills (n : Nat) (v : CarStream) : (setStream n v s).quills = s.quills := rfl
@[simp] theorem setStream_chans (n : Nat) (v : CarStream) : (setStream n v s).chans = s.chans := rfl
@[simp] theorem setStream_barriers (n : Nat) (v : CarStream) : (setStream n v s).barriers = s.barriers := rfl
@[simp] theorem setStream_groups (n : Nat) (v : CarStream) : (setStream n v s).groups = s.groups := rfl
@[simp] theorem setStream_spads (n : Nat) (v : CarStream) : (setStream n v s).spads = s.spads := rfl
@[simp] theorem setStream_mcs (n : Nat) (v : CarStream) : (setStream n v s).mcs = s.mcs := rfl
@[simp] theorem setStream_sn (n : Nat) (v : CarStream) : (setStream n v s).sn = s.sn := rfl
@[simp] theorem setStream_ring (n : Nat) (v : CarStream) : (setStream n v s).ring = s.ring := rfl
@[simp] theorem setStream_settings (n : Nat) (v : CarStream) : (setStream n v s).settings = s.settings := rfl
@[simp] theorem setStream_cc (n : Nat) (v : CarStream) : (setStream n v s).cc = s.cc := rfl
@[simp] theorem setStream_host (n : Nat) (v : CarStream) : (setStream n v s).host = s.host := rfl
@[simp] theorem setStream_fn (n : Nat) (v : CarStream) : (setStream n v s).fn = s.fn := rfl
@[simp] theorem setStream_tr (n : Nat) (v : CarStream) : (setStream n v s).tr = s.tr := rfl
@[simp] theorem setStream_tio (n : Nat) (v : CarStream) : (setStream n v s).tio = s.tio := rfl
@[simp] theorem setStream_cans (n : Nat) (v : CarStream) : (setStream n v s).cans = s.cans := rfl
@[simp] theorem setStream_pwr (n : Nat) (v : CarStream) : (setStream n v s).pwr = s.pwr := rfl
@[simp] theorem setStream_sec (n : Nat) (v : CarStream) : (setStream n v s).sec = s.sec := rfl

@[simp] theorem setGrp_pending (g : Nat) (v : CarGroup) : (setGrp g v s).pending = s.pending := rfl
@[simp] theorem setGrp_freeCtr (g : Nat) (v : CarGroup) : (setGrp g v s).freeCtr = s.freeCtr := rfl
@[simp] theorem setGrp_act (g : Nat) (v : CarGroup) : (setGrp g v s).act = s.act := rfl
@[simp] theorem setGrp_time (g : Nat) (v : CarGroup) : (setGrp g v s).time = s.time := rfl
@[simp] theorem setGrp_ev (g : Nat) (v : CarGroup) : (setGrp g v s).ev = s.ev := rfl
@[simp] theorem setGrp_regs (g : Nat) (v : CarGroup) : (setGrp g v s).regs = s.regs := rfl
@[simp] theorem setGrp_ctr (g : Nat) (v : CarGroup) : (setGrp g v s).ctr = s.ctr := rfl
@[simp] theorem setGrp_shadow (g : Nat) (v : CarGroup) : (setGrp g v s).shadow = s.shadow := rfl
@[simp] theorem setGrp_resetting (g : Nat) (v : CarGroup) : (setGrp g v s).resetting = s.resetting := rfl
@[simp] theorem setGrp_mem (g : Nat) (v : CarGroup) : (setGrp g v s).mem = s.mem := rfl
@[simp] theorem setGrp_qe (g : Nat) (v : CarGroup) : (setGrp g v s).qe = s.qe := rfl
@[simp] theorem setGrp_jobs (g : Nat) (v : CarGroup) : (setGrp g v s).jobs = s.jobs := rfl
@[simp] theorem setGrp_arrivals (g : Nat) (v : CarGroup) : (setGrp g v s).arrivals = s.arrivals := rfl
@[simp] theorem setGrp_rrQueue (g : Nat) (v : CarGroup) : (setGrp g v s).rrQueue = s.rrQueue := rfl
@[simp] theorem setGrp_quills (g : Nat) (v : CarGroup) : (setGrp g v s).quills = s.quills := rfl
@[simp] theorem setGrp_chans (g : Nat) (v : CarGroup) : (setGrp g v s).chans = s.chans := rfl
@[simp] theorem setGrp_barriers (g : Nat) (v : CarGroup) : (setGrp g v s).barriers = s.barriers := rfl
@[simp] theorem setGrp_groups (g : Nat) (v : CarGroup) : (setGrp g v s).groups = s.groups := rfl
@[simp] theorem setGrp_spads (g : Nat) (v : CarGroup) : (setGrp g v s).spads = s.spads := rfl
@[simp] theorem setGrp_mcs (g : Nat) (v : CarGroup) : (setGrp g v s).mcs = s.mcs := rfl
@[simp] theorem setGrp_sn (g : Nat) (v : CarGroup) : (setGrp g v s).sn = s.sn := rfl
@[simp] theorem setGrp_ring (g : Nat) (v : CarGroup) : (setGrp g v s).ring = s.ring := rfl
@[simp] theorem setGrp_settings (g : Nat) (v : CarGroup) : (setGrp g v s).settings = s.settings := rfl
@[simp] theorem setGrp_cc (g : Nat) (v : CarGroup) : (setGrp g v s).cc = s.cc := rfl
@[simp] theorem setGrp_host (g : Nat) (v : CarGroup) : (setGrp g v s).host = s.host := rfl
@[simp] theorem setGrp_fn (g : Nat) (v : CarGroup) : (setGrp g v s).fn = s.fn := rfl
@[simp] theorem setGrp_tr (g : Nat) (v : CarGroup) : (setGrp g v s).tr = s.tr := rfl
@[simp] theorem setGrp_tio (g : Nat) (v : CarGroup) : (setGrp g v s).tio = s.tio := rfl
@[simp] theorem setGrp_cans (g : Nat) (v : CarGroup) : (setGrp g v s).cans = s.cans := rfl
@[simp] theorem setGrp_pwr (g : Nat) (v : CarGroup) : (setGrp g v s).pwr = s.pwr := rfl
@[simp] theorem setGrp_sec (g : Nat) (v : CarGroup) : (setGrp g v s).sec = s.sec := rfl

@[simp] theorem setVc_pending (csi vc : Nat) (v : CamVc) : (setVc csi vc v s).pending = s.pending := rfl
@[simp] theorem setVc_freeCtr (csi vc : Nat) (v : CamVc) : (setVc csi vc v s).freeCtr = s.freeCtr := rfl
@[simp] theorem setVc_act (csi vc : Nat) (v : CamVc) : (setVc csi vc v s).act = s.act := rfl
@[simp] theorem setVc_time (csi vc : Nat) (v : CamVc) : (setVc csi vc v s).time = s.time := rfl
@[simp] theorem setVc_ev (csi vc : Nat) (v : CamVc) : (setVc csi vc v s).ev = s.ev := rfl
@[simp] theorem setVc_regs (csi vc : Nat) (v : CamVc) : (setVc csi vc v s).regs = s.regs := rfl
@[simp] theorem setVc_ctr (csi vc : Nat) (v : CamVc) : (setVc csi vc v s).ctr = s.ctr := rfl
@[simp] theorem setVc_shadow (csi vc : Nat) (v : CamVc) : (setVc csi vc v s).shadow = s.shadow := rfl
@[simp] theorem setVc_resetting (csi vc : Nat) (v : CamVc) : (setVc csi vc v s).resetting = s.resetting := rfl
@[simp] theorem setVc_mem (csi vc : Nat) (v : CamVc) : (setVc csi vc v s).mem = s.mem := rfl
@[simp] theorem setVc_qe (csi vc : Nat) (v : CamVc) : (setVc csi vc v s).qe = s.qe := rfl
@[simp] theorem setVc_jobs (csi vc : Nat) (v : CamVc) : (setVc csi vc v s).jobs = s.jobs := rfl
@[simp] theorem setVc_arrivals (csi vc : Nat) (v : CamVc) : (setVc csi vc v s).arrivals = s.arrivals := rfl
@[simp] theorem setVc_rrQueue (csi vc : Nat) (v : CamVc) : (setVc csi vc v s).rrQueue = s.rrQueue := rfl
@[simp] theorem setVc_quills (csi vc : Nat) (v : CamVc) : (setVc csi vc v s).quills = s.quills := rfl
@[simp] theorem setVc_chans (csi vc : Nat) (v : CamVc) : (setVc csi vc v s).chans = s.chans := rfl
@[simp] theorem setVc_barriers (csi vc : Nat) (v : CamVc) : (setVc csi vc v s).barriers = s.barriers := rfl
@[simp] theorem setVc_groups (csi vc : Nat) (v : CamVc) : (setVc csi vc v s).groups = s.groups := rfl
@[simp] theorem setVc_spads (csi vc : Nat) (v : CamVc) : (setVc csi vc v s).spads = s.spads := rfl
@[simp] theorem setVc_mcs (csi vc : Nat) (v : CamVc) : (setVc csi vc v s).mcs = s.mcs := rfl
@[simp] theorem setVc_sn (csi vc : Nat) (v : CamVc) : (setVc csi vc v s).sn = s.sn := rfl
@[simp] theorem setVc_ring (csi vc : Nat) (v : CamVc) : (setVc csi vc v s).ring = s.ring := rfl
@[simp] theorem setVc_settings (csi vc : Nat) (v : CamVc) : (setVc csi vc v s).settings = s.settings := rfl
@[simp] theorem setVc_cc (csi vc : Nat) (v : CamVc) : (setVc csi vc v s).cc = s.cc := rfl
@[simp] theorem setVc_host (csi vc : Nat) (v : CamVc) : (setVc csi vc v s).host = s.host := rfl
@[simp] theorem setVc_fn (csi vc : Nat) (v : CamVc) : (setVc csi vc v s).fn = s.fn := rfl
@[simp] theorem setVc_tr (csi vc : Nat) (v : CamVc) : (setVc csi vc v s).tr = s.tr := rfl
@[simp] theorem setVc_tio (csi vc : Nat) (v : CamVc) : (setVc csi vc v s).tio = s.tio := rfl
@[simp] theorem setVc_cans (csi vc : Nat) (v : CamVc) : (setVc csi vc v s).cans = s.cans := rfl
@[simp] theorem setVc_pwr (csi vc : Nat) (v : CamVc) : (setVc csi vc v s).pwr = s.pwr := rfl
@[simp] theorem setVc_sec (csi vc : Nat) (v : CamVc) : (setVc csi vc v s).sec = s.sec := rfl

@[simp] theorem setHist_pending (n : Nat) (v : SnSlot) : (setHist n v s).pending = s.pending := rfl
@[simp] theorem setHist_freeCtr (n : Nat) (v : SnSlot) : (setHist n v s).freeCtr = s.freeCtr := rfl
@[simp] theorem setHist_act (n : Nat) (v : SnSlot) : (setHist n v s).act = s.act := rfl
@[simp] theorem setHist_time (n : Nat) (v : SnSlot) : (setHist n v s).time = s.time := rfl
@[simp] theorem setHist_ev (n : Nat) (v : SnSlot) : (setHist n v s).ev = s.ev := rfl
@[simp] theorem setHist_regs (n : Nat) (v : SnSlot) : (setHist n v s).regs = s.regs := rfl
@[simp] theorem setHist_ctr (n : Nat) (v : SnSlot) : (setHist n v s).ctr = s.ctr := rfl
@[simp] theorem setHist_shadow (n : Nat) (v : SnSlot) : (setHist n v s).shadow = s.shadow := rfl
@[simp] theorem setHist_resetting (n : Nat) (v : SnSlot) : (setHist n v s).resetting = s.resetting := rfl
@[simp] theorem setHist_mem (n : Nat) (v : SnSlot) : (setHist n v s).mem = s.mem := rfl
@[simp] theorem setHist_qe (n : Nat) (v : SnSlot) : (setHist n v s).qe = s.qe := rfl
@[simp] theorem setHist_jobs (n : Nat) (v : SnSlot) : (setHist n v s).jobs = s.jobs := rfl
@[simp] theorem setHist_arrivals (n : Nat) (v : SnSlot) : (setHist n v s).arrivals = s.arrivals := rfl
@[simp] theorem setHist_rrQueue (n : Nat) (v : SnSlot) : (setHist n v s).rrQueue = s.rrQueue := rfl
@[simp] theorem setHist_quills (n : Nat) (v : SnSlot) : (setHist n v s).quills = s.quills := rfl
@[simp] theorem setHist_chans (n : Nat) (v : SnSlot) : (setHist n v s).chans = s.chans := rfl
@[simp] theorem setHist_barriers (n : Nat) (v : SnSlot) : (setHist n v s).barriers = s.barriers := rfl
@[simp] theorem setHist_groups (n : Nat) (v : SnSlot) : (setHist n v s).groups = s.groups := rfl
@[simp] theorem setHist_spads (n : Nat) (v : SnSlot) : (setHist n v s).spads = s.spads := rfl
@[simp] theorem setHist_mcs (n : Nat) (v : SnSlot) : (setHist n v s).mcs = s.mcs := rfl
@[simp] theorem setHist_ring (n : Nat) (v : SnSlot) : (setHist n v s).ring = s.ring := rfl
@[simp] theorem setHist_settings (n : Nat) (v : SnSlot) : (setHist n v s).settings = s.settings := rfl
@[simp] theorem setHist_cc (n : Nat) (v : SnSlot) : (setHist n v s).cc = s.cc := rfl
@[simp] theorem setHist_host (n : Nat) (v : SnSlot) : (setHist n v s).host = s.host := rfl
@[simp] theorem setHist_car (n : Nat) (v : SnSlot) : (setHist n v s).car = s.car := rfl
@[simp] theorem setHist_fn (n : Nat) (v : SnSlot) : (setHist n v s).fn = s.fn := rfl
@[simp] theorem setHist_tr (n : Nat) (v : SnSlot) : (setHist n v s).tr = s.tr := rfl
@[simp] theorem setHist_tio (n : Nat) (v : SnSlot) : (setHist n v s).tio = s.tio := rfl
@[simp] theorem setHist_cans (n : Nat) (v : SnSlot) : (setHist n v s).cans = s.cans := rfl
@[simp] theorem setHist_pwr (n : Nat) (v : SnSlot) : (setHist n v s).pwr = s.pwr := rfl
@[simp] theorem setHist_sec (n : Nat) (v : SnSlot) : (setHist n v s).sec = s.sec := rfl

@[simp] theorem setDlv_pending (q : Nat) (v : Dlv) : (setDlv q v s).pending = s.pending := rfl
@[simp] theorem setDlv_freeCtr (q : Nat) (v : Dlv) : (setDlv q v s).freeCtr = s.freeCtr := rfl
@[simp] theorem setDlv_act (q : Nat) (v : Dlv) : (setDlv q v s).act = s.act := rfl
@[simp] theorem setDlv_time (q : Nat) (v : Dlv) : (setDlv q v s).time = s.time := rfl
@[simp] theorem setDlv_ev (q : Nat) (v : Dlv) : (setDlv q v s).ev = s.ev := rfl
@[simp] theorem setDlv_regs (q : Nat) (v : Dlv) : (setDlv q v s).regs = s.regs := rfl
@[simp] theorem setDlv_ctr (q : Nat) (v : Dlv) : (setDlv q v s).ctr = s.ctr := rfl
@[simp] theorem setDlv_shadow (q : Nat) (v : Dlv) : (setDlv q v s).shadow = s.shadow := rfl
@[simp] theorem setDlv_resetting (q : Nat) (v : Dlv) : (setDlv q v s).resetting = s.resetting := rfl
@[simp] theorem setDlv_mem (q : Nat) (v : Dlv) : (setDlv q v s).mem = s.mem := rfl
@[simp] theorem setDlv_qe (q : Nat) (v : Dlv) : (setDlv q v s).qe = s.qe := rfl
@[simp] theorem setDlv_jobs (q : Nat) (v : Dlv) : (setDlv q v s).jobs = s.jobs := rfl
@[simp] theorem setDlv_arrivals (q : Nat) (v : Dlv) : (setDlv q v s).arrivals = s.arrivals := rfl
@[simp] theorem setDlv_rrQueue (q : Nat) (v : Dlv) : (setDlv q v s).rrQueue = s.rrQueue := rfl
@[simp] theorem setDlv_quills (q : Nat) (v : Dlv) : (setDlv q v s).quills = s.quills := rfl
@[simp] theorem setDlv_chans (q : Nat) (v : Dlv) : (setDlv q v s).chans = s.chans := rfl
@[simp] theorem setDlv_barriers (q : Nat) (v : Dlv) : (setDlv q v s).barriers = s.barriers := rfl
@[simp] theorem setDlv_groups (q : Nat) (v : Dlv) : (setDlv q v s).groups = s.groups := rfl
@[simp] theorem setDlv_spads (q : Nat) (v : Dlv) : (setDlv q v s).spads = s.spads := rfl
@[simp] theorem setDlv_mcs (q : Nat) (v : Dlv) : (setDlv q v s).mcs = s.mcs := rfl
@[simp] theorem setDlv_sn (q : Nat) (v : Dlv) : (setDlv q v s).sn = s.sn := rfl
@[simp] theorem setDlv_ring (q : Nat) (v : Dlv) : (setDlv q v s).ring = s.ring := rfl
@[simp] theorem setDlv_settings (q : Nat) (v : Dlv) : (setDlv q v s).settings = s.settings := rfl
@[simp] theorem setDlv_cc (q : Nat) (v : Dlv) : (setDlv q v s).cc = s.cc := rfl
@[simp] theorem setDlv_car (q : Nat) (v : Dlv) : (setDlv q v s).car = s.car := rfl
@[simp] theorem setDlv_fn (q : Nat) (v : Dlv) : (setDlv q v s).fn = s.fn := rfl
@[simp] theorem setDlv_tr (q : Nat) (v : Dlv) : (setDlv q v s).tr = s.tr := rfl
@[simp] theorem setDlv_tio (q : Nat) (v : Dlv) : (setDlv q v s).tio = s.tio := rfl
@[simp] theorem setDlv_cans (q : Nat) (v : Dlv) : (setDlv q v s).cans = s.cans := rfl
@[simp] theorem setDlv_pwr (q : Nat) (v : Dlv) : (setDlv q v s).pwr = s.pwr := rfl
@[simp] theorem setDlv_sec (q : Nat) (v : Dlv) : (setDlv q v s).sec = s.sec := rfl

@[simp] theorem ovfAppend_pending (e : OvfEntry) : (ovfAppend e s).pending = s.pending := rfl
@[simp] theorem ovfAppend_freeCtr (e : OvfEntry) : (ovfAppend e s).freeCtr = s.freeCtr := rfl
@[simp] theorem ovfAppend_act (e : OvfEntry) : (ovfAppend e s).act = s.act := rfl
@[simp] theorem ovfAppend_time (e : OvfEntry) : (ovfAppend e s).time = s.time := rfl
@[simp] theorem ovfAppend_ev (e : OvfEntry) : (ovfAppend e s).ev = s.ev := rfl
@[simp] theorem ovfAppend_regs (e : OvfEntry) : (ovfAppend e s).regs = s.regs := rfl
@[simp] theorem ovfAppend_ctr (e : OvfEntry) : (ovfAppend e s).ctr = s.ctr := rfl
@[simp] theorem ovfAppend_shadow (e : OvfEntry) : (ovfAppend e s).shadow = s.shadow := rfl
@[simp] theorem ovfAppend_resetting (e : OvfEntry) : (ovfAppend e s).resetting = s.resetting := rfl
@[simp] theorem ovfAppend_mem (e : OvfEntry) : (ovfAppend e s).mem = s.mem := rfl
@[simp] theorem ovfAppend_qe (e : OvfEntry) : (ovfAppend e s).qe = s.qe := rfl
@[simp] theorem ovfAppend_jobs (e : OvfEntry) : (ovfAppend e s).jobs = s.jobs := rfl
@[simp] theorem ovfAppend_arrivals (e : OvfEntry) : (ovfAppend e s).arrivals = s.arrivals := rfl
@[simp] theorem ovfAppend_rrQueue (e : OvfEntry) : (ovfAppend e s).rrQueue = s.rrQueue := rfl
@[simp] theorem ovfAppend_quills (e : OvfEntry) : (ovfAppend e s).quills = s.quills := rfl
@[simp] theorem ovfAppend_chans (e : OvfEntry) : (ovfAppend e s).chans = s.chans := rfl
@[simp] theorem ovfAppend_barriers (e : OvfEntry) : (ovfAppend e s).barriers = s.barriers := rfl
@[simp] theorem ovfAppend_groups (e : OvfEntry) : (ovfAppend e s).groups = s.groups := rfl
@[simp] theorem ovfAppend_spads (e : OvfEntry) : (ovfAppend e s).spads = s.spads := rfl
@[simp] theorem ovfAppend_mcs (e : OvfEntry) : (ovfAppend e s).mcs = s.mcs := rfl
@[simp] theorem ovfAppend_ring (e : OvfEntry) : (ovfAppend e s).ring = s.ring := rfl
@[simp] theorem ovfAppend_settings (e : OvfEntry) : (ovfAppend e s).settings = s.settings := rfl
@[simp] theorem ovfAppend_cc (e : OvfEntry) : (ovfAppend e s).cc = s.cc := rfl
@[simp] theorem ovfAppend_host (e : OvfEntry) : (ovfAppend e s).host = s.host := rfl
@[simp] theorem ovfAppend_car (e : OvfEntry) : (ovfAppend e s).car = s.car := rfl
@[simp] theorem ovfAppend_fn (e : OvfEntry) : (ovfAppend e s).fn = s.fn := rfl
@[simp] theorem ovfAppend_tr (e : OvfEntry) : (ovfAppend e s).tr = s.tr := rfl
@[simp] theorem ovfAppend_tio (e : OvfEntry) : (ovfAppend e s).tio = s.tio := rfl
@[simp] theorem ovfAppend_cans (e : OvfEntry) : (ovfAppend e s).cans = s.cans := rfl
@[simp] theorem ovfAppend_pwr (e : OvfEntry) : (ovfAppend e s).pwr = s.pwr := rfl
@[simp] theorem ovfAppend_sec (e : OvfEntry) : (ovfAppend e s).sec = s.sec := rfl

@[simp] theorem setUpd_pending (v : Nat) : (setUpd v s).pending = s.pending := rfl
@[simp] theorem setUpd_freeCtr (v : Nat) : (setUpd v s).freeCtr = s.freeCtr := rfl
@[simp] theorem setUpd_act (v : Nat) : (setUpd v s).act = s.act := rfl
@[simp] theorem setUpd_time (v : Nat) : (setUpd v s).time = s.time := rfl
@[simp] theorem setUpd_ev (v : Nat) : (setUpd v s).ev = s.ev := rfl
@[simp] theorem setUpd_ctr (v : Nat) : (setUpd v s).ctr = s.ctr := rfl
@[simp] theorem setUpd_shadow (v : Nat) : (setUpd v s).shadow = s.shadow := rfl
@[simp] theorem setUpd_resetting (v : Nat) : (setUpd v s).resetting = s.resetting := rfl
@[simp] theorem setUpd_mem (v : Nat) : (setUpd v s).mem = s.mem := rfl
@[simp] theorem setUpd_qe (v : Nat) : (setUpd v s).qe = s.qe := rfl
@[simp] theorem setUpd_jobs (v : Nat) : (setUpd v s).jobs = s.jobs := rfl
@[simp] theorem setUpd_arrivals (v : Nat) : (setUpd v s).arrivals = s.arrivals := rfl
@[simp] theorem setUpd_rrQueue (v : Nat) : (setUpd v s).rrQueue = s.rrQueue := rfl
@[simp] theorem setUpd_quills (v : Nat) : (setUpd v s).quills = s.quills := rfl
@[simp] theorem setUpd_chans (v : Nat) : (setUpd v s).chans = s.chans := rfl
@[simp] theorem setUpd_barriers (v : Nat) : (setUpd v s).barriers = s.barriers := rfl
@[simp] theorem setUpd_groups (v : Nat) : (setUpd v s).groups = s.groups := rfl
@[simp] theorem setUpd_spads (v : Nat) : (setUpd v s).spads = s.spads := rfl
@[simp] theorem setUpd_mcs (v : Nat) : (setUpd v s).mcs = s.mcs := rfl
@[simp] theorem setUpd_sn (v : Nat) : (setUpd v s).sn = s.sn := rfl
@[simp] theorem setUpd_ring (v : Nat) : (setUpd v s).ring = s.ring := rfl
@[simp] theorem setUpd_settings (v : Nat) : (setUpd v s).settings = s.settings := rfl
@[simp] theorem setUpd_cc (v : Nat) : (setUpd v s).cc = s.cc := rfl
@[simp] theorem setUpd_host (v : Nat) : (setUpd v s).host = s.host := rfl
@[simp] theorem setUpd_car (v : Nat) : (setUpd v s).car = s.car := rfl
@[simp] theorem setUpd_fn (v : Nat) : (setUpd v s).fn = s.fn := rfl
@[simp] theorem setUpd_tr (v : Nat) : (setUpd v s).tr = s.tr := rfl
@[simp] theorem setUpd_tio (v : Nat) : (setUpd v s).tio = s.tio := rfl
@[simp] theorem setUpd_cans (v : Nat) : (setUpd v s).cans = s.cans := rfl
@[simp] theorem setUpd_pwr (v : Nat) : (setUpd v s).pwr = s.pwr := rfl
@[simp] theorem setUpd_sec (v : Nat) : (setUpd v s).sec = s.sec := rfl

@[simp] theorem setLine_pending (port : Nat) (l : HostLine) : (setLine port l s).pending = s.pending := rfl
@[simp] theorem setLine_freeCtr (port : Nat) (l : HostLine) : (setLine port l s).freeCtr = s.freeCtr := rfl
@[simp] theorem setLine_time (port : Nat) (l : HostLine) : (setLine port l s).time = s.time := rfl
@[simp] theorem setLine_ev (port : Nat) (l : HostLine) : (setLine port l s).ev = s.ev := rfl
@[simp] theorem setLine_regs (port : Nat) (l : HostLine) : (setLine port l s).regs = s.regs := rfl
@[simp] theorem setLine_ctr (port : Nat) (l : HostLine) : (setLine port l s).ctr = s.ctr := rfl
@[simp] theorem setLine_shadow (port : Nat) (l : HostLine) : (setLine port l s).shadow = s.shadow := rfl
@[simp] theorem setLine_resetting (port : Nat) (l : HostLine) : (setLine port l s).resetting = s.resetting := rfl
@[simp] theorem setLine_mem (port : Nat) (l : HostLine) : (setLine port l s).mem = s.mem := rfl
@[simp] theorem setLine_qe (port : Nat) (l : HostLine) : (setLine port l s).qe = s.qe := rfl
@[simp] theorem setLine_jobs (port : Nat) (l : HostLine) : (setLine port l s).jobs = s.jobs := rfl
@[simp] theorem setLine_arrivals (port : Nat) (l : HostLine) : (setLine port l s).arrivals = s.arrivals := rfl
@[simp] theorem setLine_rrQueue (port : Nat) (l : HostLine) : (setLine port l s).rrQueue = s.rrQueue := rfl
@[simp] theorem setLine_quills (port : Nat) (l : HostLine) : (setLine port l s).quills = s.quills := rfl
@[simp] theorem setLine_chans (port : Nat) (l : HostLine) : (setLine port l s).chans = s.chans := rfl
@[simp] theorem setLine_barriers (port : Nat) (l : HostLine) : (setLine port l s).barriers = s.barriers := rfl
@[simp] theorem setLine_groups (port : Nat) (l : HostLine) : (setLine port l s).groups = s.groups := rfl
@[simp] theorem setLine_spads (port : Nat) (l : HostLine) : (setLine port l s).spads = s.spads := rfl
@[simp] theorem setLine_mcs (port : Nat) (l : HostLine) : (setLine port l s).mcs = s.mcs := rfl
@[simp] theorem setLine_sn (port : Nat) (l : HostLine) : (setLine port l s).sn = s.sn := rfl
@[simp] theorem setLine_ring (port : Nat) (l : HostLine) : (setLine port l s).ring = s.ring := rfl
@[simp] theorem setLine_settings (port : Nat) (l : HostLine) : (setLine port l s).settings = s.settings := rfl
@[simp] theorem setLine_cc (port : Nat) (l : HostLine) : (setLine port l s).cc = s.cc := rfl
@[simp] theorem setLine_car (port : Nat) (l : HostLine) : (setLine port l s).car = s.car := rfl
@[simp] theorem setLine_fn (port : Nat) (l : HostLine) : (setLine port l s).fn = s.fn := rfl
@[simp] theorem setLine_tr (port : Nat) (l : HostLine) : (setLine port l s).tr = s.tr := rfl
@[simp] theorem setLine_tio (port : Nat) (l : HostLine) : (setLine port l s).tio = s.tio := rfl
@[simp] theorem setLine_cans (port : Nat) (l : HostLine) : (setLine port l s).cans = s.cans := rfl
@[simp] theorem setLine_pwr (port : Nat) (l : HostLine) : (setLine port l s).pwr = s.pwr := rfl
@[simp] theorem setLine_act (port : Nat) (l : HostLine) : (setLine port l s).act = s.act := rfl
@[simp] theorem setLine_sec (port : Nat) (l : HostLine) : (setLine port l s).sec = s.sec := rfl

@[simp] theorem quill_setQuill_self (q : Nat) (v : Quill) : quill q (setQuill q v s) = v := by simp [quill, setQuill]
theorem quill_setQuill_ne {q m : Nat} (v : Quill) (h : m ≠ q) : quill m (setQuill q v s) = quill m s := by simp [quill, setQuill, Tbl.get_set_ne _ _ _ h]
@[simp] theorem chan_setChan_self (k : Nat) (v : DmaChan) : chan k (setChan k v s) = v := by simp [chan, setChan]
theorem chan_setChan_ne {k m : Nat} (v : DmaChan) (h : m ≠ k) : chan m (setChan k v s) = chan m s := by simp [chan, setChan, Tbl.get_set_ne _ _ _ h]
@[simp] theorem spad_setSpad_self (n : Nat) (v : Spad) : spad n (setSpad n v s) = v := by simp [spad, setSpad]
theorem spad_setSpad_ne {n m : Nat} (v : Spad) (h : m ≠ n) : spad m (setSpad n v s) = spad m s := by simp [spad, setSpad, Tbl.get_set_ne _ _ _ h]
@[simp] theorem mc_setMc_self (n : Nat) (v : Mc) : mc n (setMc n v s) = v := by simp [mc, setMc]
theorem mc_setMc_ne {n m : Nat} (v : Mc) (h : m ≠ n) : mc m (setMc n v s) = mc m s := by simp [mc, setMc, Tbl.get_set_ne _ _ _ h]
@[simp] theorem canCtl_setCan_self (c : Nat) (v : CanCtl) : canCtl c (setCan c v s) = v := by simp [canCtl, setCan]
theorem canCtl_setCan_ne {c m : Nat} (v : CanCtl) (h : m ≠ c) : canCtl m (setCan c v s) = canCtl m s := by simp [canCtl, setCan, Tbl.get_set_ne _ _ _ h]
@[simp] theorem port_setPort_self (p : Nat) (v : Port) : port p (setPort p v s) = v := by simp [port, setPort]
theorem port_setPort_ne {p m : Nat} (v : Port) (h : m ≠ p) : port m (setPort p v s) = port m s := by simp [port, setPort, Tbl.get_set_ne _ _ _ h]
@[simp] theorem trSlot_setSlot_self (n : Nat) (v : TrSlot) : trSlot n (setSlot n v s) = v := by simp [trSlot, setSlot]
theorem trSlot_setSlot_ne {n m : Nat} (v : TrSlot) (h : m ≠ n) : trSlot m (setSlot n v s) = trSlot m s := by simp [trSlot, setSlot, Tbl.get_set_ne _ _ _ h]
@[simp] theorem tioEnc_setEnc_self (n : Nat) (v : TioEnc) : tioEnc n (setEnc n v s) = v := by simp [tioEnc, setEnc]
theorem tioEnc_setEnc_ne {n m : Nat} (v : TioEnc) (h : m ≠ n) : tioEnc m (setEnc n v s) = tioEnc m s := by simp [tioEnc, setEnc, Tbl.get_set_ne _ _ _ h]
@[simp] theorem tioDin_setDin_self (n : Nat) (v : TioDin) : tioDin n (setDin n v s) = v := by simp [tioDin, setDin]
theorem tioDin_setDin_ne {n m : Nat} (v : TioDin) (h : m ≠ n) : tioDin m (setDin n v s) = tioDin m s := by simp [tioDin, setDin, Tbl.get_set_ne _ _ _ h]
@[simp] theorem tioAdc_setAdc_self (n : Nat) (v : TioAdc) : tioAdc n (setAdc n v s) = v := by simp [tioAdc, setAdc]
theorem tioAdc_setAdc_ne {n m : Nat} (v : TioAdc) (h : m ≠ n) : tioAdc m (setAdc n v s) = tioAdc m s := by simp [tioAdc, setAdc, Tbl.get_set_ne _ _ _ h]
@[simp] theorem tioPwm_setPwm_self (n : Nat) (v : TioPwm) : tioPwm n (setPwm n v s) = v := by simp [tioPwm, setPwm]
theorem tioPwm_setPwm_ne {n m : Nat} (v : TioPwm) (h : m ≠ n) : tioPwm m (setPwm n v s) = tioPwm m s := by simp [tioPwm, setPwm, Tbl.get_set_ne _ _ _ h]
@[simp] theorem pwrRail_setRail_self (k : Nat) (v : PwrRail) : pwrRail k (setRail k v s) = v := by simp [pwrRail, setRail]
theorem pwrRail_setRail_ne {k m : Nat} (v : PwrRail) (h : m ≠ k) : pwrRail m (setRail k v s) = pwrRail m s := by simp [pwrRail, setRail, Tbl.get_set_ne _ _ _ h]

@[simp] theorem rdReg_wrReg_self (c i off : Nat) (v : Word) : rdReg c i off (wrReg c i off v s) = v := by simp [rdReg, wrReg]
theorem rdReg_wrReg_ne {c i off d j k : Nat} (v : Word) (h : pageKey d j + k ≠ pageKey c i + off) : rdReg d j k (wrReg c i off v s) = rdReg d j k s := by
  simp [rdReg, wrReg, Tbl.get_set_other _ _ _ _ h]
@[simp] theorem rdCtr_wrCtr_self (c i off : Nat) (v : BitVec 64) : rdCtr c i off (wrCtr c i off v s) = v := by simp [rdCtr, wrCtr]

end Sys2Proof.Machine
end

