-- ==== Sys2Proof/Laws/Events.lean ====
section
/-! SUPPORT. Which registers the raising of an event may write: EVENT_RAW and EVENT_SEQ of blocks, GLB_EVENT_NEXT, GLB_EVENT_LOST, SN_TRIP and the
descriptor-cache miss counter, and no other (02 R45, R50, R51; 15 R342). -/

set_option Elab.async false

namespace Sys2Proof.Machine

/-- One register after another is written. -/
theorem rdReg_wrReg (c i o c' i' o' : Nat) (v : Word) (s : State) :
    rdReg c i o (wrReg c' i' o' v s) = if pageKey c i + o = pageKey c' i' + o' then v else rdReg c i o s := by
  unfold rdReg wrReg
  by_cases h : pageKey c i + o = pageKey c' i' + o'
  · rw [if_pos h, h]; exact Tbl.get_set_self _ _ _ _
  · rw [if_neg h]; exact Tbl.get_set_other _ _ _ _ h

/-- Registers of existing pages have one key each. -/
theorem pageKey_inj {c i o c' i' o' : Nat} (h2 : i < 256) (h3 : o < 0x1000) (h5 : i' < 256) (h6 : o' < 0x1000)
    (h : pageKey c i + o = pageKey c' i' + o') : c = c' ∧ i = i' ∧ o = o' := by
  simp only [pageKey] at h; omega

/-- Only registers that an event may write differ. -/
def EventRegs (s t : State) : Prop :=
  ∀ c i off, c < 16 → i < 256 → off < 0x1000 → off ≠ 0x10 → off ≠ 0x1C → (c = 0 → i = 0 → off ≠ 0x64 ∧ off ≠ 0x68) →
    (c = 12 → i = 0 → off ≠ 0x48) → (c = 6 → off ≠ 0xA0) → rdReg c i off t = rdReg c i off s

theorem EventRegs.refl (s : State) : EventRegs s s := fun _ _ _ _ _ _ _ _ _ _ _ => rfl

theorem EventRegs.trans {s t u : State} (a : EventRegs s t) (b : EventRegs t u) : EventRegs s u :=
  fun c i o h1 h2 h3 h4 h5 h6 h7 h8 => (b c i o h1 h2 h3 h4 h5 h6 h7 h8).trans (a c i o h1 h2 h3 h4 h5 h6 h7 h8)

theorem EventRegs.same {s t : State} (h : t.regs = s.regs) : EventRegs s t := fun c i o _ _ _ _ _ _ _ _ => by simp only [rdReg, h]

theorem EventRegs.to {s t u : State} (a : EventRegs s t) (h : u.regs = t.regs) : EventRegs s u := a.trans (EventRegs.same h)

theorem EventRegs.wr {c i o : Nat} {v : Word} {s : State} (hi : i < 256)
    (h : o = 0x10 ∨ o = 0x1C ∨ (c = 0 ∧ i = 0 ∧ (o = 0x64 ∨ o = 0x68)) ∨ (c = 12 ∧ i = 0 ∧ o = 0x48) ∨ (c = 6 ∧ o = 0xA0)) :
    EventRegs s (wrReg c i o v s) := by
  intro c' i' o' _ h2 h3 h4 h5 h6 h7 h8
  rw [rdReg_wrReg, if_neg]
  intro e
  have := pageKey_inj h2 h3 hi (by omega) e
  omega

theorem qEvict_regs (s : State) : EventRegs s (qEvict s) := by
  unfold qEvict; split
  · exact EventRegs.refl s
  · split
    · exact EventRegs.refl s
    · refine EventRegs.same ?_; simp only [wrBytes]

theorem qFetch_regs (q : Nat) (s : State) : EventRegs s (qFetch q s) := by
  unfold qFetch; split
  · exact EventRegs.refl s
  · have h : EventRegs s (bump 6 0 0xA0 1 s) := EventRegs.wr (by omega) (by omega)
    have h2 := h.trans (qEvict_regs _)
    exact h2.to rfl

theorem qPut_regs (q : Nat) (d : QDesc) (s : State) : EventRegs s (qPut q d s) := by
  have h := qFetch_regs q s
  unfold qPut; exact h.to rfl

theorem reserve_regs (q rtype job dev : Nat) (l : List Byte) (s : State) : EventRegs s (reserve q rtype job dev l s) := by
  unfold reserve; extract_lets +onlyGivenNames d M len pad ptr s1
  have h1 : EventRegs s s1 := by unfold s1; split; exact EventRegs.refl s; exact EventRegs.same rfl
  clear_value s1
  extract_lets +onlyGivenNames s2
  have h2 : EventRegs s s2 := h1.trans (EventRegs.same rfl)
  clear_value s2
  extract_lets +onlyGivenNames now pp pk s3
  have h3 : EventRegs s s3 := h2.trans (qPut_regs _ _ _)
  clear_value s3
  exact h3.to rfl

theorem takeSeq_regs (c i : Nat) (s : State) (hi : i < 256) : EventRegs s (takeSeq c i s) := by
  have h : EventRegs s (wrReg c i 0x1C s.ev.next s) := EventRegs.wr hi (by omega)
  unfold takeSeq
  refine EventRegs.trans (h.to ?_) (EventRegs.wr (by omega) (by omega)); rfl

/-- A byte of a record is below 256, a missing one too. -/
theorem byteAt_lt (l : List Byte) (i : Nat) : byteAt l i < 256 := by
  unfold byteAt; split
  · exact BitVec.isLt _
  · decide

theorem takeSeqOf_regs (b : List Byte) (s : State) : EventRegs s (takeSeqOf b s) := takeSeq_regs _ _ s (byteAt_lt b 14)

theorem recToQueue_regs (b : List Byte) (s : State) : EventRegs s (recToQueue b s) := (takeSeqOf_regs b s).trans (reserve_regs _ _ _ _ _ _)

theorem countLost_regs (s : State) : EventRegs s (countLost s) := by
  have h : EventRegs s (bump 0 0 0x68 1 s) := EventRegs.wr (by omega) (by omega)
  unfold countLost; exact h.to rfl

theorem eventQueueFull_regs (s : State) : EventRegs s (eventQueueFull s) := by
  unfold eventQueueFull; extract_lets +onlyGivenNames q
  split; exact EventRegs.refl s
  extract_lets +onlyGivenNames x1
  extract_lets +onlyGivenNames s1
  have h1 : EventRegs s s1 := (EventRegs.same rfl : EventRegs s { s with qe := { s.qe with fullLatch := q :: s.qe.fullLatch } }).trans
    (EventRegs.wr (by omega) (by omega))
  clear_value s1
  split; exact h1
  exact h1.trans (countLost_regs _)

theorem flushLost_regs (s : State) : EventRegs s (flushLost s) := by
  unfold flushLost; split; exact EventRegs.refl s
  extract_lets +onlyGivenNames e x1
  extract_lets +onlyGivenNames s1
  have h1 : EventRegs s s1 := (EventRegs.same rfl : EventRegs s { s with ev := { s.ev with lostPending := 0 } }).trans
    (EventRegs.wr (by omega) (by omega))
  split; exact h1
  exact h1.trans (recToQueue_regs _ _)

theorem ovfRecord_regs (b : List Byte) (s : State) : EventRegs s (ovfRecord b s) := by
  unfold ovfRecord; split; exact countLost_regs s
  exact (takeSeqOf_regs b s).to rfl

theorem tripBits_regs (b k : Nat) (s : State) : EventRegs s (tripBits b k s) := by
  unfold tripBits; extract_lets +onlyGivenNames old v
  exact (EventRegs.same rfl : EventRegs s { s with sn := { s.sn with safeOut := false }, tio := s.tio.halt }).trans
    (EventRegs.wr (by omega) (by omega))

theorem ovfTrip_regs (s : State) : EventRegs s (ovfTrip s) := by
  unfold ovfTrip; split
  · extract_lets +onlyGivenNames s1 s2
    exact ((tripBits_regs 9 0 s).trans (EventRegs.wr (by omega) (by omega) : EventRegs s1 s2)).trans (ovfRecord_regs _ _)
  · exact EventRegs.refl s

theorem placeEvent_regs (safety : Bool) (b : List Byte) (s : State) : EventRegs s (placeEvent safety b s) := by
  unfold placeEvent; extract_lets +onlyGivenNames d
  split
  · split
    · exact (ovfRecord_regs b s).trans (ovfTrip_regs _)
    · exact (countLost_regs s).trans (eventQueueFull_regs _)
  split
  · split
    · exact recToQueue_regs b s
    · exact ((eventQueueFull_regs s).trans (ovfRecord_regs b _)).trans (ovfTrip_regs _)
  · extract_lets +onlyGivenNames s1 d1
    have h : EventRegs s s1 := flushLost_regs s
    clear_value s1
    split
    · exact h.trans (recToQueue_regs b _)
    · exact (h.trans (countLost_regs _)).trans (eventQueueFull_regs _)

theorem stagingTop_regs (s : State) : EventRegs s (stagingTop s) := by
  unfold stagingTop; split; exact EventRegs.refl s
  extract_lets +onlyGivenNames x1
  extract_lets +onlyGivenNames s1
  have h1 : EventRegs s s1 := (EventRegs.same rfl : EventRegs s { s with qe := { s.qe with stFull := true } }).trans (EventRegs.wr (by omega) (by omega))
  split; exact h1
  exact h1.trans (countLost_regs _)

theorem storeEvent_regs (e : Ev) (s : State) : EventRegs s (storeEvent e s) := by
  unfold storeEvent; extract_lets +onlyGivenNames q
  split
  · split
    · split
      · exact (ovfRecord_regs _ s).trans (ovfTrip_regs _)
      · exact countLost_regs s
    · exact (EventRegs.same rfl).trans (stagingTop_regs _)
  · exact placeEvent_regs _ _ s

/-- What an event may do to the registers, whatever becomes of its record. -/
theorem raise_regs (e : Ev) (s : State) (hi : e.i < 256) : EventRegs s (raise e s) := by
  have h : EventRegs s (rawBit e s) := EventRegs.wr hi (by omega)
  unfold raise
  split; exact h
  exact h.trans (storeEvent_regs e _)

/-- An event switches no power domain. -/
theorem raise_domainOn (e : Ev) (s : State) (d : Nat) (hi : e.i < 256) : domainOn d (raise e s) = domainOn d s := by
  unfold domainOn; split
  · rw [raise_regs e s hi 13 0 _ (by omega) (by omega) (by omega) (by omega) (by omega) (by omega) (by omega) (by omega)]
  · rfl

end Sys2Proof.Machine
end

