-- ==== Sys2Proof/Laws/Keeps.lean ====
section
/-! SUPPORT. What no operation of the model breaks, in one relation between the state before and the state after: the commands that wait, the model
clock, the event numbers, the canonical forms, one-time-programmable memory, SAFE_OUT. One lemma per operation says that it keeps them. -/

set_option Elab.async false

namespace Sys2Proof.Machine

/-- What every operation keeps, from one state to a later one. `F` is the operation's footprint. -/
structure Keeps (F : Foot) (s t : State) : Prop where
  queue : t.pending = s.pending
  clock : s.time.clk ≤ t.time.clk
  number : s.ev.next ≠ 0 → t.ev.next ≠ 0
  mem : Memory.wf s.mem = true → Memory.wf t.mem = true
  flash : Flash.wf s.sec.flash = true → Flash.wf t.sec.flash = true
  otp : otpKept s t
  arm : armedInv s → armedInv t
  within : Within F s t

variable {F : Foot} {z0 s t : State}

theorem otpKept_refl (s : State) : otpKept s s :=
  ⟨rfl, Nat.le_refl _, Nat.le_refl _, Nat.le_refl _, fun _ o h => ⟨o, h, rfl, rfl, id⟩⟩

theorem otpKept_trans {u : State} (h : otpKept s t) (k : otpKept t u) : otpKept s u := by
  refine ⟨k.1.trans h.1, h.2.1.trans k.2.1, h.2.2.1.trans k.2.2.1, h.2.2.2.1.trans k.2.2.2.1, fun n o e => ?_⟩
  obtain ⟨p, e1, e2, e3, e4⟩ := h.2.2.2.2 n o e
  obtain ⟨q, f1, f2, f3, f4⟩ := k.2.2.2.2 n p e1
  exact ⟨q, f1, f2.trans e2, f3.trans e3, fun r => f4 (e4 r)⟩

theorem Within.refl (F : Foot) (s : State) : Within F s s := by constructor <;> first | exact fun _ h => h | exact fun _ => rfl

theorem Within.trans {u : State} (h : Within F s t) (k : Within F t u) : Within F s u :=
  ⟨fun a e => k.arms a (h.arms a e), fun a => (k.mem a).trans (h.mem a), fun a => (k.qe a).trans (h.qe a), fun a => (k.jobs a).trans (h.jobs a), fun a => (k.arrivals a).trans (h.arrivals a), fun a => (k.rrQueue a).trans (h.rrQueue a), fun a => (k.quills a).trans (h.quills a), fun a => (k.chans a).trans (h.chans a), fun a => (k.barriers a).trans (h.barriers a), fun a => (k.groups a).trans (h.groups a), fun a => (k.spads a).trans (h.spads a), fun a => (k.mcs a).trans (h.mcs a), fun a => (k.sn a).trans (h.sn a), fun a => (k.ring a).trans (h.ring a), fun a => (k.settings a).trans (h.settings a), fun a => (k.cc a).trans (h.cc a), fun a => (k.host a).trans (h.host a), fun a => (k.car a).trans (h.car a), fun a => (k.fn a).trans (h.fn a), fun a => (k.tr a).trans (h.tr a), fun a => (k.tio a).trans (h.tio a), fun a => (k.cans a).trans (h.cans a), fun a => (k.pwr a).trans (h.pwr a), fun a => (k.sec a).trans (h.sec a)⟩

theorem Keeps.refl (s : State) : Keeps F s s := ⟨rfl, Nat.le_refl _, id, id, id, otpKept_refl s, id, Within.refl F s⟩

theorem Keeps.trans {u : State} (h : Keeps F s t) (k : Keeps F t u) : Keeps F s u :=
  ⟨k.queue.trans h.queue, h.clock.trans k.clock, fun e => k.number (h.number e), fun e => k.mem (h.mem e), fun e => k.flash (h.flash e),
    otpKept_trans h.otp k.otp, fun e => k.arm (h.arm e), h.within.trans k.within⟩

/-- One step more: what it does to each thing that the relation reads. -/
theorem Keeps.step (h : Keeps F z0 s) (e1 : t.pending = s.pending) (e2 : s.time.clk ≤ t.time.clk) (e3 : s.ev.next ≠ 0 → t.ev.next ≠ 0)
    (e4 : Memory.wf s.mem = true → Memory.wf t.mem = true) (e5 : Flash.wf s.sec.flash = true → Flash.wf t.sec.flash = true) (e6 : otpKept s t)
    (e7 : armedInv s → armedInv t)
    (w : Within F s t := by constructor <;> first | (intro e; cases e; done) | exact fun _ h => h | exact fun _ => rfl | exact fun _ _ => rfl) :
    Keeps F z0 t := h.trans ⟨e1, e2, e3, e4, e5, e6, e7, w⟩

/-- A state that agrees with a kept one on all that the relation reads, and outside the footprint, is kept. -/
theorem Keeps.of {p tm ev m sn sec a1 a2 a3 a4 a5 a6 a7 a8 a9 a10 a11 a12 a13 a14 a15 a16 a17 a18 a19 a20 a21 a22 a23 a24 a25 a26} (h : Keeps F z0 s) (e1 : p = s.pending) (e2 : tm.clk = s.time.clk := by rfl)
    (e3 : ev.next = s.ev.next := by rfl) (e4 : m = s.mem := by rfl) (e5 : sec.flash = s.sec.flash := by rfl)
    (e6 : sec.colophon = s.sec.colophon := by rfl) (e7 : sec.main = s.sec.main := by rfl) (e8 : sec.recov = s.sec.recov := by rfl)
    (e9 : sec.fuses = s.sec.fuses := by rfl) (e10 : sec.owners = s.sec.owners := by rfl) (e11 : sec.phase = s.sec.phase := by rfl)
    (e12 : sn.safeOut = s.sn.safeOut := by rfl) (e13 : sn.up = s.sn.up := by rfl)
    (w : Within F s (State.mk p a1 tm ev a2 a3 a4 a5 m a6 a7 a8 a9 a10 a11 a12 a13 a14 a15 sn a16 a17 a18 a19 a20 a21 a22 a23 a24 a25 a26 sec) := by constructor <;> first | (intro e; cases e; done) | exact fun _ h => h | exact fun _ => rfl) :
    Keeps F z0 (State.mk p a1 tm ev a2 a3 a4 a5 m a6 a7 a8 a9 a10 a11 a12 a13 a14 a15 sn a16 a17 a18 a19 a20 a21 a22 a23 a24 a25 a26 sec) := by
  obtain ⟨h1, h2, h3, h4, h5, h6, h7, h8⟩ := h
  refine ⟨?_, ?_, ?_, ?_, ?_, ?_, ?_, h8.trans w⟩ <;> (try simp only [otpKept, armedInv] at *)
  · rw [e1]; exact h1
  · rw [e2]; exact h2
  · rw [e3]; exact h3
  · rw [e4]; exact h4
  · rw [e5]; exact h5
  · rw [e6, e7, e8, e9, e10]; exact h6
  · rw [e11, e12, e13]; exact h7

/-- What an answer that may be missing leaves. -/
def Held {α : Type} (P : α → Prop) (o : Option α) : Prop := ∀ v, o = some v → P v

theorem Held.none {α : Type} {P : α → Prop} : Held P (Option.none : Option α) := fun _ h => nomatch h
theorem Held.some {α : Type} {P : α → Prop} {v : α} (h : P v) : Held P (Option.some v) := fun _ e => Option.some.inj e ▸ h
theorem Held.get {α : Type} {P : α → Prop} {o : Option α} {v : α} (h : Held P o) (e : o = Option.some v) : P v := h v e

/-- The state of an answer that was taken apart. -/
theorem Keeps.of_pair {α : Type} {p : α × State} {a : α} (h : Keeps F z0 p.2) (e : p = (a, t)) : Keeps F z0 t := by subst e; exact h
theorem Keeps.of_triple {α β : Type} {p : α × β × State} {a : α} {b : β} (h : Keeps F z0 p.2.2) (e : p = (a, b, t)) : Keeps F z0 t := by subst e; exact h
theorem Held.state {o : Option State} (h : Held (fun v => Keeps F z0 v) o) (e : o = Option.some t) : Keeps F z0 t := h t e
theorem Held.of_pair {α : Type} {o : Option (α × State)} {a : α} (h : Held (fun v => Keeps F z0 v.2) o) (e : o = Option.some (a, t)) : Keeps F z0 t := h _ e
theorem Held.pair {α : Type} {o : Option (α × State)} {v : α × State} (h : Held (fun v => Keeps F z0 v.2) o) (e : o = Option.some v) : Keeps F z0 v.2 := h _ e

theorem Held.getD {o : Option State} (h : Held (fun v => Keeps F z0 v) o) (k : Keeps F z0 t) : Keeps F z0 (o.getD t) := by
  cases o with
  | none => exact k
  | some v => exact h v rfl

/-- What a command's next state keeps. -/
def Kept (F : Foot) (s : State) (o : Out) : Prop := ∀ t, o = .next t → Keeps F s t

theorem Kept.next (h : Keeps F z0 t) : Kept F z0 (.next t) := fun _ e => Host.Outcome.next.inj e ▸ h
theorem Kept.refused (r : Refusal) : Kept F z0 (.refused r) := fun _ h => nomatch h

/-- A fold keeps what each of its turns keeps. -/
theorem Keeps.foldl {α : Type} {f : State → α → State} (l : List α) (h : Keeps F z0 s) (hf : ∀ t a, Keeps F z0 t → Keeps F z0 (f t a)) :
    Keeps F z0 (l.foldl f s) := by
  induction l generalizing s with
  | nil => exact h
  | cons a l ih => exact ih (hf s a h)

/-- The same for a fold that carries a result beside the state. -/
theorem Keeps.foldl_snd {α β : Type} {f : β × State → α → β × State} (l : List α) {x : β × State} (h : Keeps F z0 x.2)
    (hf : ∀ t a, Keeps F z0 t.2 → Keeps F z0 (f t a).2) : Keeps F z0 (l.foldl f x).2 := by
  induction l generalizing x with
  | nil => exact h
  | cons a l ih => exact ih (hf x a h)

theorem Keeps.foldl_fst {α β : Type} {f : State × β → α → State × β} (l : List α) {x : State × β} (h : Keeps F z0 x.1)
    (hf : ∀ t a, Keeps F z0 t.1 → Keeps F z0 (f t a).1) : Keeps F z0 (l.foldl f x).1 := by
  induction l generalizing x with
  | nil => exact h
  | cons a l ih => exact ih (hf x a h)

end Sys2Proof.Machine
end

