-- ==== Sys2Proof/Laws/KeepsCore.lean ====
section
/-! SUPPORT. Each operation keeps what Keeps names: the shared operations: registers, time, memory, events, jobs, elements, signals. -/

set_option Elab.async false

namespace Sys2Proof.Machine

variable {φ0 φ1 φ2 φ3 φ4 φ5 φ6 φ7 φ8 φ9 φ10 φ11 φ12 φ13 φ14 φ15 φ16 φ17 φ18 φ19 : Bool} {z0 : State}

theorem memSetBytes_wf (m : Tbl Byte) (a : Nat) (l : List Byte) (h : Memory.wf m = true) : Memory.wf (memSetBytes m a l) = true := by
  induction l generalizing m a with
  | nil => exact h
  | cons b l ih => exact ih _ _ (Tbl.wf_set m a b h)

theorem wrReg_keeps {c i off : Nat} {v : Word} {s : State} (hz : Keeps ⟨φ0, φ1, φ2, φ3, φ4, φ5, φ6, φ7, φ8, φ9, φ10, φ11, φ12, φ13, φ14, φ15, φ16, φ17, φ18, φ19⟩ z0 s) : Keeps ⟨φ0, φ1, φ2, φ3, φ4, φ5, φ6, φ7, φ8, φ9, φ10, φ11, φ12, φ13, φ14, φ15, φ16, φ17, φ18, φ19⟩ z0 (wrReg c i off v s) := by
  unfold wrReg
  exact Keeps.of hz rfl

theorem wrField_keeps {c i off hi lo v : Nat} {s : State} (hz : Keeps ⟨φ0, φ1, φ2, φ3, φ4, φ5, φ6, φ7, φ8, φ9, φ10, φ11, φ12, φ13, φ14, φ15, φ16, φ17, φ18, φ19⟩ z0 s) : Keeps ⟨φ0, φ1, φ2, φ3, φ4, φ5, φ6, φ7, φ8, φ9, φ10, φ11, φ12, φ13, φ14, φ15, φ16, φ17, φ18, φ19⟩ z0 (wrField c i off hi lo v s) := by
  unfold wrField
  exact wrReg_keeps hz

theorem wrCtr_keeps {c i off : Nat} {v : BitVec 64} {s : State} (hz : Keeps ⟨φ0, φ1, φ2, φ3, φ4, φ5, φ6, φ7, φ8, φ9, φ10, φ11, φ12, φ13, φ14, φ15, φ16, φ17, φ18, φ19⟩ z0 s) : Keeps ⟨φ0, φ1, φ2, φ3, φ4, φ5, φ6, φ7, φ8, φ9, φ10, φ11, φ12, φ13, φ14, φ15, φ16, φ17, φ18, φ19⟩ z0 (wrCtr c i off v s) := by
  unfold wrCtr
  exact Keeps.of hz rfl

theorem addCtr_keeps {c i off n : Nat} {s : State} (hz : Keeps ⟨φ0, φ1, φ2, φ3, φ4, φ5, φ6, φ7, φ8, φ9, φ10, φ11, φ12, φ13, φ14, φ15, φ16, φ17, φ18, φ19⟩ z0 s) : Keeps ⟨φ0, φ1, φ2, φ3, φ4, φ5, φ6, φ7, φ8, φ9, φ10, φ11, φ12, φ13, φ14, φ15, φ16, φ17, φ18, φ19⟩ z0 (addCtr c i off n s) := by
  unfold addCtr
  exact wrCtr_keeps hz

theorem bump_keeps {c i off n : Nat} {s : State} (hz : Keeps ⟨φ0, φ1, φ2, φ3, φ4, φ5, φ6, φ7, φ8, φ9, φ10, φ11, φ12, φ13, φ14, φ15, φ16, φ17, φ18, φ19⟩ z0 s) : Keeps ⟨φ0, φ1, φ2, φ3, φ4, φ5, φ6, φ7, φ8, φ9, φ10, φ11, φ12, φ13, φ14, φ15, φ16, φ17, φ18, φ19⟩ z0 (bump c i off n s) := by
  unfold bump
  exact wrReg_keeps hz

theorem fresh_keeps {s : State} (hz : Keeps ⟨φ0, φ1, φ2, φ3, φ4, φ5, φ6, φ7, φ8, φ9, φ10, φ11, φ12, φ13, φ14, φ15, φ16, φ17, φ18, φ19⟩ z0 s) : Keeps ⟨φ0, φ1, φ2, φ3, φ4, φ5, φ6, φ7, φ8, φ9, φ10, φ11, φ12, φ13, φ14, φ15, φ16, φ17, φ18, φ19⟩ z0 (fresh s).2 := by
  unfold fresh
  dsimp only
  exact Keeps.of hz rfl

theorem setQuill_keeps {q : Nat} {v : Quill} {s : State} (hz : Keeps ⟨φ0, φ1, φ2, φ3, true, φ5, φ6, φ7, φ8, φ9, φ10, φ11, φ12, φ13, φ14, φ15, φ16, φ17, φ18, φ19⟩ z0 s) : Keeps ⟨φ0, φ1, φ2, φ3, true, φ5, φ6, φ7, φ8, φ9, φ10, φ11, φ12, φ13, φ14, φ15, φ16, φ17, φ18, φ19⟩ z0 (setQuill q v s) := by
  unfold setQuill
  exact Keeps.of hz rfl

theorem noteAct_keeps {k n : Nat} {s : State} (hz : Keeps ⟨φ0, φ1, φ2, φ3, φ4, φ5, φ6, φ7, φ8, φ9, φ10, φ11, φ12, φ13, φ14, φ15, φ16, φ17, φ18, φ19⟩ z0 s) : Keeps ⟨φ0, φ1, φ2, φ3, φ4, φ5, φ6, φ7, φ8, φ9, φ10, φ11, φ12, φ13, φ14, φ15, φ16, φ17, φ18, φ19⟩ z0 (noteAct k n s) := by
  unfold noteAct
  split
  · exact hz
  · exact Keeps.of hz rfl

theorem noteMove_keeps {unit job n : Nat} {s : State} (hz : Keeps ⟨φ0, φ1, φ2, φ3, φ4, φ5, φ6, φ7, φ8, φ9, φ10, φ11, φ12, φ13, φ14, φ15, φ16, φ17, φ18, φ19⟩ z0 s) : Keeps ⟨φ0, φ1, φ2, φ3, φ4, φ5, φ6, φ7, φ8, φ9, φ10, φ11, φ12, φ13, φ14, φ15, φ16, φ17, φ18, φ19⟩ z0 (noteMove unit job n s) := by
  unfold noteMove
  extract_lets +onlyGivenNames k_1
  split
  · exact hz
  · exact Keeps.of hz rfl

theorem advanceCaps_keeps {dt : Nat} {s : State} (hz : Keeps ⟨φ0, φ1, φ2, φ3, true, φ5, φ6, φ7, φ8, φ9, φ10, φ11, φ12, φ13, φ14, φ15, φ16, φ17, φ18, φ19⟩ z0 s) : Keeps ⟨φ0, φ1, φ2, φ3, true, φ5, φ6, φ7, φ8, φ9, φ10, φ11, φ12, φ13, φ14, φ15, φ16, φ17, φ18, φ19⟩ z0 (advanceCaps dt s) := by
  unfold advanceCaps
  apply Keeps.foldl
  · exact hz
  · intro _ _ k1
    split
    · exact k1
    · extract_lets +onlyGivenNames r_2 n_3
      exact noteAct_keeps (addCtr_keeps (setQuill_keeps k1))

theorem advanceFine_keeps {dt : Nat} {s : State} (hz : Keeps ⟨φ0, φ1, φ2, φ3, φ4, φ5, φ6, φ7, φ8, φ9, φ10, φ11, φ12, φ13, φ14, φ15, φ16, φ17, φ18, φ19⟩ z0 s) : Keeps ⟨φ0, φ1, φ2, φ3, φ4, φ5, φ6, φ7, φ8, φ9, φ10, φ11, φ12, φ13, φ14, φ15, φ16, φ17, φ18, φ19⟩ z0 (advanceFine dt s) := by
  unfold advanceFine
  split
  · exact addCtr_keeps hz
  · exact hz

theorem advance_keeps {dt : Nat} {s : State} (hz : Keeps ⟨φ0, φ1, φ2, φ3, true, φ5, φ6, φ7, φ8, φ9, φ10, φ11, φ12, φ13, φ14, φ15, φ16, φ17, φ18, φ19⟩ z0 s) : Keeps ⟨φ0, φ1, φ2, φ3, true, φ5, φ6, φ7, φ8, φ9, φ10, φ11, φ12, φ13, φ14, φ15, φ16, φ17, φ18, φ19⟩ z0 (advance dt s) := by
  unfold advance
  apply advanceCaps_keeps
  have h1 := advanceFine_keeps (dt := dt) hz
  exact Keeps.step h1 rfl (Nat.le_add_right _ _) id id id (otpKept_refl _) id

theorem advanceTo_keeps {c : Nat} {s : State} (hz : Keeps ⟨φ0, φ1, φ2, φ3, true, φ5, φ6, φ7, φ8, φ9, φ10, φ11, φ12, φ13, φ14, φ15, φ16, φ17, φ18, φ19⟩ z0 s) : Keeps ⟨φ0, φ1, φ2, φ3, true, φ5, φ6, φ7, φ8, φ9, φ10, φ11, φ12, φ13, φ14, φ15, φ16, φ17, φ18, φ19⟩ z0 (advanceTo c s) := by
  unfold advanceTo
  split
  · exact advance_keeps hz
  · exact hz

theorem advanceToDev_keeps {ns : Nat} {s : State} (hz : Keeps ⟨φ0, φ1, φ2, φ3, true, φ5, φ6, φ7, φ8, φ9, φ10, φ11, φ12, φ13, φ14, φ15, φ16, φ17, φ18, φ19⟩ z0 s) : Keeps ⟨φ0, φ1, φ2, φ3, true, φ5, φ6, φ7, φ8, φ9, φ10, φ11, φ12, φ13, φ14, φ15, φ16, φ17, φ18, φ19⟩ z0 (advanceToDev ns s) := by
  unfold advanceToDev
  split
  · exact advance_keeps hz
  · exact hz

theorem advanceToRing_keeps {ns : Nat} {s : State} (hz : Keeps ⟨φ0, φ1, φ2, φ3, true, φ5, φ6, φ7, φ8, φ9, φ10, φ11, φ12, φ13, φ14, φ15, φ16, φ17, φ18, φ19⟩ z0 s) : Keeps ⟨φ0, φ1, φ2, φ3, true, φ5, φ6, φ7, φ8, φ9, φ10, φ11, φ12, φ13, φ14, φ15, φ16, φ17, φ18, φ19⟩ z0 (advanceToRing ns s) := by
  unfold advanceToRing
  extract_lets +onlyGivenNames d_1
  split
  · exact advance_keeps hz
  · exact hz

theorem wrBytes_keeps {a : Nat} {l : List Byte} {s : State} (hz : Keeps ⟨φ0, true, φ2, φ3, φ4, φ5, φ6, φ7, φ8, φ9, φ10, φ11, φ12, φ13, φ14, φ15, φ16, φ17, φ18, φ19⟩ z0 s) : Keeps ⟨φ0, true, φ2, φ3, φ4, φ5, φ6, φ7, φ8, φ9, φ10, φ11, φ12, φ13, φ14, φ15, φ16, φ17, φ18, φ19⟩ z0 (wrBytes a l s) :=
  Keeps.step hz rfl (Nat.le_refl _) id (fun m => memSetBytes_wf _ _ _ m) id (otpKept_refl s) id

theorem zeroBytes_keeps {a n : Nat} {s : State} (hz : Keeps ⟨φ0, true, φ2, φ3, φ4, φ5, φ6, φ7, φ8, φ9, φ10, φ11, φ12, φ13, φ14, φ15, φ16, φ17, φ18, φ19⟩ z0 s) : Keeps ⟨φ0, true, φ2, φ3, φ4, φ5, φ6, φ7, φ8, φ9, φ10, φ11, φ12, φ13, φ14, φ15, φ16, φ17, φ18, φ19⟩ z0 (zeroBytes a n s) :=
  Keeps.step hz rfl (Nat.le_refl _) id (fun m => Tbl.wf_filter _ _ m) id (otpKept_refl s) id

theorem updJob_keeps {id : Nat} {f : JobRec → JobRec} {s : State} (hz : Keeps ⟨φ0, φ1, φ2, true, φ4, φ5, φ6, φ7, φ8, φ9, φ10, φ11, φ12, φ13, φ14, φ15, φ16, φ17, φ18, φ19⟩ z0 s) : Keeps ⟨φ0, φ1, φ2, true, φ4, φ5, φ6, φ7, φ8, φ9, φ10, φ11, φ12, φ13, φ14, φ15, φ16, φ17, φ18, φ19⟩ z0 (updJob id f s) := by
  unfold updJob
  exact Keeps.of hz rfl

theorem dropJob_keeps {id : Nat} {s : State} (hz : Keeps ⟨φ0, φ1, φ2, true, φ4, φ5, φ6, φ7, φ8, φ9, φ10, φ11, φ12, φ13, φ14, φ15, φ16, φ17, φ18, φ19⟩ z0 s) : Keeps ⟨φ0, φ1, φ2, true, φ4, φ5, φ6, φ7, φ8, φ9, φ10, φ11, φ12, φ13, φ14, φ15, φ16, φ17, φ18, φ19⟩ z0 (dropJob id s) := by
  unfold dropJob
  exact Keeps.of hz rfl

theorem orNumeric_keeps {id fl : Nat} {s : State} (hz : Keeps ⟨φ0, φ1, φ2, true, φ4, φ5, φ6, φ7, φ8, φ9, φ10, φ11, φ12, φ13, φ14, φ15, φ16, φ17, φ18, φ19⟩ z0 s) : Keeps ⟨φ0, φ1, φ2, true, φ4, φ5, φ6, φ7, φ8, φ9, φ10, φ11, φ12, φ13, φ14, φ15, φ16, φ17, φ18, φ19⟩ z0 (orNumeric id fl s) := by
  unfold orNumeric
  exact updJob_keeps hz

theorem setChan_keeps {k : Nat} {v : DmaChan} {s : State} (hz : Keeps ⟨φ0, φ1, φ2, φ3, φ4, true, φ6, φ7, φ8, φ9, φ10, φ11, φ12, φ13, φ14, φ15, φ16, φ17, φ18, φ19⟩ z0 s) : Keeps ⟨φ0, φ1, φ2, φ3, φ4, true, φ6, φ7, φ8, φ9, φ10, φ11, φ12, φ13, φ14, φ15, φ16, φ17, φ18, φ19⟩ z0 (setChan k v s) := by
  unfold setChan
  exact Keeps.of hz rfl

theorem setSpad_keeps {n : Nat} {v : Spad} {s : State} (hz : Keeps ⟨φ0, φ1, φ2, φ3, φ4, φ5, φ6, true, φ8, φ9, φ10, φ11, φ12, φ13, φ14, φ15, φ16, φ17, φ18, φ19⟩ z0 s) : Keeps ⟨φ0, φ1, φ2, φ3, φ4, φ5, φ6, true, φ8, φ9, φ10, φ11, φ12, φ13, φ14, φ15, φ16, φ17, φ18, φ19⟩ z0 (setSpad n v s) := by
  unfold setSpad
  exact Keeps.of hz rfl

theorem setMc_keeps {n : Nat} {v : Mc} {s : State} (hz : Keeps ⟨φ0, φ1, φ2, φ3, φ4, φ5, φ6, φ7, true, φ9, φ10, φ11, φ12, φ13, φ14, φ15, φ16, φ17, φ18, φ19⟩ z0 s) : Keeps ⟨φ0, φ1, φ2, φ3, φ4, φ5, φ6, φ7, true, φ9, φ10, φ11, φ12, φ13, φ14, φ15, φ16, φ17, φ18, φ19⟩ z0 (setMc n v s) := by
  unfold setMc
  exact Keeps.of hz rfl

theorem disarm_keeps {c i bit : Nat} {s : State} (hz : Keeps ⟨φ0, φ1, φ2, φ3, φ4, φ5, φ6, φ7, φ8, φ9, φ10, φ11, φ12, φ13, φ14, φ15, φ16, φ17, φ18, φ19⟩ z0 s) : Keeps ⟨φ0, φ1, φ2, φ3, φ4, φ5, φ6, φ7, φ8, φ9, φ10, φ11, φ12, φ13, φ14, φ15, φ16, φ17, φ18, φ19⟩ z0 (disarm c i bit s) := by
  unfold disarm
  exact Keeps.of hz rfl

theorem qEvict_keeps {s : State} (hz : Keeps ⟨φ0, true, true, φ3, φ4, φ5, φ6, φ7, φ8, φ9, φ10, φ11, φ12, φ13, φ14, φ15, φ16, φ17, φ18, φ19⟩ z0 s) : Keeps ⟨φ0, true, true, φ3, φ4, φ5, φ6, φ7, φ8, φ9, φ10, φ11, φ12, φ13, φ14, φ15, φ16, φ17, φ18, φ19⟩ z0 (qEvict s) := by
  unfold qEvict
  split
  · exact hz
  · split
    · exact hz
    · apply wrBytes_keeps
      exact Keeps.of hz rfl

theorem qFetch_keeps {q : Nat} {s : State} (hz : Keeps ⟨φ0, true, true, φ3, φ4, φ5, φ6, φ7, φ8, φ9, φ10, φ11, φ12, φ13, φ14, φ15, φ16, φ17, φ18, φ19⟩ z0 s) : Keeps ⟨φ0, true, true, φ3, φ4, φ5, φ6, φ7, φ8, φ9, φ10, φ11, φ12, φ13, φ14, φ15, φ16, φ17, φ18, φ19⟩ z0 (qFetch q s) := by
  unfold qFetch
  split
  · exact hz
  · extract_lets +onlyGivenNames d_1 s1_2
    have k_s1_2 : Keeps ⟨φ0, true, true, φ3, φ4, φ5, φ6, φ7, φ8, φ9, φ10, φ11, φ12, φ13, φ14, φ15, φ16, φ17, φ18, φ19⟩ z0 s1_2 := qEvict_keeps (bump_keeps hz)
    clear_value s1_2
    exact Keeps.of k_s1_2 rfl

theorem qPut_keeps {q : Nat} {d : QDesc} {s : State} (hz : Keeps ⟨φ0, true, true, φ3, φ4, φ5, φ6, φ7, φ8, φ9, φ10, φ11, φ12, φ13, φ14, φ15, φ16, φ17, φ18, φ19⟩ z0 s) : Keeps ⟨φ0, true, true, φ3, φ4, φ5, φ6, φ7, φ8, φ9, φ10, φ11, φ12, φ13, φ14, φ15, φ16, φ17, φ18, φ19⟩ z0 (qPut q d s) := by
  unfold qPut
  extract_lets +onlyGivenNames s1_1
  have k_s1_1 : Keeps ⟨φ0, true, true, φ3, φ4, φ5, φ6, φ7, φ8, φ9, φ10, φ11, φ12, φ13, φ14, φ15, φ16, φ17, φ18, φ19⟩ z0 s1_1 := qFetch_keeps hz
  clear_value s1_1
  exact Keeps.of k_s1_1 rfl

theorem qTouch_keeps {q : Nat} {s : State} (hz : Keeps ⟨φ0, true, true, φ3, φ4, φ5, φ6, φ7, φ8, φ9, φ10, φ11, φ12, φ13, φ14, φ15, φ16, φ17, φ18, φ19⟩ z0 s) : Keeps ⟨φ0, true, true, φ3, φ4, φ5, φ6, φ7, φ8, φ9, φ10, φ11, φ12, φ13, φ14, φ15, φ16, φ17, φ18, φ19⟩ z0 (qTouch q s) := by
  unfold qTouch
  split
  · exact hz
  · extract_lets +onlyGivenNames s1_1
    have k_s1_1 : Keeps ⟨φ0, true, true, φ3, φ4, φ5, φ6, φ7, φ8, φ9, φ10, φ11, φ12, φ13, φ14, φ15, φ16, φ17, φ18, φ19⟩ z0 s1_1 := qFetch_keeps hz
    clear_value s1_1
    split
    · exact Keeps.of k_s1_1 rfl
    · exact k_s1_1

theorem reserve_keeps {q rtype job dev : Nat} {bytes : List Byte} {s : State} (hz : Keeps ⟨φ0, true, true, φ3, φ4, φ5, φ6, φ7, φ8, φ9, φ10, φ11, φ12, φ13, φ14, φ15, φ16, φ17, φ18, φ19⟩ z0 s) : Keeps ⟨φ0, true, true, φ3, φ4, φ5, φ6, φ7, φ8, φ9, φ10, φ11, φ12, φ13, φ14, φ15, φ16, φ17, φ18, φ19⟩ z0 (reserve q rtype job dev bytes s) := by
  unfold reserve
  extract_lets +onlyGivenNames d_1 M_2 len_3 pad_4 ptr_5 s1_6 s2_7 now_8 padPkt_9 pkt_10 s3_11
  have k_s1_6 : Keeps ⟨φ0, true, true, φ3, φ4, φ5, φ6, φ7, φ8, φ9, φ10, φ11, φ12, φ13, φ14, φ15, φ16, φ17, φ18, φ19⟩ z0 s1_6 := by
    subst s1_6
    split
    · exact hz
    · exact wrBytes_keeps hz
  have k_s2_7 : Keeps ⟨φ0, true, true, φ3, φ4, φ5, φ6, φ7, φ8, φ9, φ10, φ11, φ12, φ13, φ14, φ15, φ16, φ17, φ18, φ19⟩ z0 s2_7 := wrBytes_keeps k_s1_6
  have k_s3_11 : Keeps ⟨φ0, true, true, φ3, φ4, φ5, φ6, φ7, φ8, φ9, φ10, φ11, φ12, φ13, φ14, φ15, φ16, φ17, φ18, φ19⟩ z0 s3_11 := qPut_keeps k_s2_7
  clear_value s1_6 s2_7 s3_11
  apply disarm_keeps
  apply addCtr_keeps
  exact Keeps.of k_s3_11 rfl

theorem takeSeq_keeps {c i : Nat} {s : State} (hz : Keeps ⟨φ0, φ1, φ2, φ3, φ4, φ5, φ6, φ7, φ8, φ9, φ10, φ11, φ12, φ13, φ14, φ15, φ16, φ17, φ18, φ19⟩ z0 s) : Keeps ⟨φ0, φ1, φ2, φ3, φ4, φ5, φ6, φ7, φ8, φ9, φ10, φ11, φ12, φ13, φ14, φ15, φ16, φ17, φ18, φ19⟩ z0 (takeSeq c i s) := by
  unfold takeSeq
  extract_lets n s1
  have k : Keeps ⟨φ0, φ1, φ2, φ3, φ4, φ5, φ6, φ7, φ8, φ9, φ10, φ11, φ12, φ13, φ14, φ15, φ16, φ17, φ18, φ19⟩ z0 s1 := wrReg_keeps hz
  apply wrReg_keeps
  refine Keeps.step k rfl (Nat.le_refl _) (fun _ => ?_) id id (otpKept_refl s1) id
  show seqAfter n ≠ 0
  unfold seqAfter
  split
  · decide
  · intro e; simp at e; bv_omega

theorem countLost_keeps {s : State} (hz : Keeps ⟨φ0, φ1, φ2, φ3, φ4, φ5, φ6, φ7, φ8, φ9, φ10, φ11, φ12, φ13, φ14, φ15, φ16, φ17, φ18, φ19⟩ z0 s) : Keeps ⟨φ0, φ1, φ2, φ3, φ4, φ5, φ6, φ7, φ8, φ9, φ10, φ11, φ12, φ13, φ14, φ15, φ16, φ17, φ18, φ19⟩ z0 (countLost s) := by
  unfold countLost
  extract_lets +onlyGivenNames s1_1
  have k_s1_1 : Keeps ⟨φ0, φ1, φ2, φ3, φ4, φ5, φ6, φ7, φ8, φ9, φ10, φ11, φ12, φ13, φ14, φ15, φ16, φ17, φ18, φ19⟩ z0 s1_1 := bump_keeps hz
  clear_value s1_1
  exact Keeps.of k_s1_1 rfl

theorem takeSeqOf_keeps {b : List Byte} {s : State} (hz : Keeps ⟨φ0, φ1, φ2, φ3, φ4, φ5, φ6, φ7, φ8, φ9, φ10, φ11, φ12, φ13, φ14, φ15, φ16, φ17, φ18, φ19⟩ z0 s) : Keeps ⟨φ0, φ1, φ2, φ3, φ4, φ5, φ6, φ7, φ8, φ9, φ10, φ11, φ12, φ13, φ14, φ15, φ16, φ17, φ18, φ19⟩ z0 (takeSeqOf b s) := by
  unfold takeSeqOf
  exact takeSeq_keeps hz

theorem recToQueue_keeps {b : List Byte} {s : State} (hz : Keeps ⟨φ0, true, true, φ3, φ4, φ5, φ6, φ7, φ8, φ9, φ10, φ11, φ12, φ13, φ14, φ15, φ16, φ17, φ18, φ19⟩ z0 s) : Keeps ⟨φ0, true, true, φ3, φ4, φ5, φ6, φ7, φ8, φ9, φ10, φ11, φ12, φ13, φ14, φ15, φ16, φ17, φ18, φ19⟩ z0 (recToQueue b s) := by
  unfold recToQueue
  exact reserve_keeps (takeSeqOf_keeps hz)

theorem eventToQueue_keeps {e : Ev} {s : State} (hz : Keeps ⟨φ0, true, true, φ3, φ4, φ5, φ6, φ7, φ8, φ9, φ10, φ11, φ12, φ13, φ14, φ15, φ16, φ17, φ18, φ19⟩ z0 s) : Keeps ⟨φ0, true, true, φ3, φ4, φ5, φ6, φ7, φ8, φ9, φ10, φ11, φ12, φ13, φ14, φ15, φ16, φ17, φ18, φ19⟩ z0 (eventToQueue e s) := by
  unfold eventToQueue
  exact recToQueue_keeps hz

theorem flushLost_keeps {s : State} (hz : Keeps ⟨φ0, true, true, φ3, φ4, φ5, φ6, φ7, φ8, φ9, φ10, φ11, φ12, φ13, φ14, φ15, φ16, φ17, φ18, φ19⟩ z0 s) : Keeps ⟨φ0, true, true, φ3, φ4, φ5, φ6, φ7, φ8, φ9, φ10, φ11, φ12, φ13, φ14, φ15, φ16, φ17, φ18, φ19⟩ z0 (flushLost s) := by
  unfold flushLost
  split
  · exact hz
  · extract_lets +onlyGivenNames e_1 s1_2
    extract_lets +onlyGivenNames s1_3
    have k_s1_3 : Keeps ⟨φ0, true, true, φ3, φ4, φ5, φ6, φ7, φ8, φ9, φ10, φ11, φ12, φ13, φ14, φ15, φ16, φ17, φ18, φ19⟩ z0 s1_3 := by
      subst s1_3
      apply wrReg_keeps
      exact Keeps.of hz rfl
    clear_value s1_3
    split
    · exact k_s1_3
    · exact eventToQueue_keeps k_s1_3

theorem eventQueueFull_keeps {s : State} (hz : Keeps ⟨φ0, φ1, true, φ3, φ4, φ5, φ6, φ7, φ8, φ9, φ10, φ11, φ12, φ13, φ14, φ15, φ16, φ17, φ18, φ19⟩ z0 s) : Keeps ⟨φ0, φ1, true, φ3, φ4, φ5, φ6, φ7, φ8, φ9, φ10, φ11, φ12, φ13, φ14, φ15, φ16, φ17, φ18, φ19⟩ z0 (eventQueueFull s) := by
  unfold eventQueueFull
  extract_lets +onlyGivenNames q_1
  split
  · exact hz
  · extract_lets +onlyGivenNames s1_2
    extract_lets +onlyGivenNames s1_3
    have k_s1_3 : Keeps ⟨φ0, φ1, true, φ3, φ4, φ5, φ6, φ7, φ8, φ9, φ10, φ11, φ12, φ13, φ14, φ15, φ16, φ17, φ18, φ19⟩ z0 s1_3 := by
      subst s1_3
      apply wrReg_keeps
      exact Keeps.of hz rfl
    clear_value s1_3
    split
    · exact k_s1_3
    · exact countLost_keeps k_s1_3

theorem tripBits_keeps {bit slot : Nat} {s : State} (hz : Keeps ⟨φ0, φ1, φ2, φ3, φ4, φ5, φ6, φ7, φ8, true, φ10, φ11, φ12, φ13, φ14, φ15, true, φ17, φ18, φ19⟩ z0 s) : Keeps ⟨φ0, φ1, φ2, φ3, φ4, φ5, φ6, φ7, φ8, true, φ10, φ11, φ12, φ13, φ14, φ15, true, φ17, φ18, φ19⟩ z0 (tripBits bit slot s) := by
  unfold tripBits
  extract_lets old v
  apply wrReg_keeps
  exact Keeps.step hz rfl (Nat.le_refl _) id id id (otpKept_refl s) (fun _ e => (nomatch e))

theorem ovfAppend_keeps {e : OvfEntry} {s : State} (hz : Keeps ⟨φ0, φ1, φ2, φ3, φ4, φ5, φ6, φ7, φ8, true, φ10, φ11, φ12, φ13, φ14, φ15, φ16, φ17, φ18, φ19⟩ z0 s) : Keeps ⟨φ0, φ1, φ2, φ3, φ4, φ5, φ6, φ7, φ8, true, φ10, φ11, φ12, φ13, φ14, φ15, φ16, φ17, φ18, φ19⟩ z0 (ovfAppend e s) := by
  unfold ovfAppend
  exact Keeps.of hz rfl

theorem ovfRecord_keeps {b : List Byte} {s : State} (hz : Keeps ⟨φ0, φ1, φ2, φ3, φ4, φ5, φ6, φ7, φ8, true, φ10, φ11, φ12, φ13, φ14, φ15, φ16, φ17, φ18, φ19⟩ z0 s) : Keeps ⟨φ0, φ1, φ2, φ3, φ4, φ5, φ6, φ7, φ8, true, φ10, φ11, φ12, φ13, φ14, φ15, φ16, φ17, φ18, φ19⟩ z0 (ovfRecord b s) := by
  unfold ovfRecord
  split
  · exact countLost_keeps hz
  · exact ovfAppend_keeps (takeSeqOf_keeps hz)

theorem ovfEvent_keeps {e : Ev} {s : State} (hz : Keeps ⟨φ0, φ1, φ2, φ3, φ4, φ5, φ6, φ7, φ8, true, φ10, φ11, φ12, φ13, φ14, φ15, φ16, φ17, φ18, φ19⟩ z0 s) : Keeps ⟨φ0, φ1, φ2, φ3, φ4, φ5, φ6, φ7, φ8, true, φ10, φ11, φ12, φ13, φ14, φ15, φ16, φ17, φ18, φ19⟩ z0 (ovfEvent e s) := by
  unfold ovfEvent
  exact ovfRecord_keeps hz

theorem ovfTrip_keeps {s : State} (hz : Keeps ⟨φ0, φ1, φ2, φ3, φ4, φ5, φ6, φ7, φ8, true, φ10, φ11, φ12, φ13, φ14, φ15, true, φ17, φ18, φ19⟩ z0 s) : Keeps ⟨φ0, φ1, φ2, φ3, φ4, φ5, φ6, φ7, φ8, true, φ10, φ11, φ12, φ13, φ14, φ15, true, φ17, φ18, φ19⟩ z0 (ovfTrip s) := by
  unfold ovfTrip
  split
  · extract_lets +onlyGivenNames s1_1 s2_2
    have k_s1_1 : Keeps ⟨φ0, φ1, φ2, φ3, φ4, φ5, φ6, φ7, φ8, true, φ10, φ11, φ12, φ13, φ14, φ15, true, φ17, φ18, φ19⟩ z0 s1_1 := tripBits_keeps hz
    have k_s2_2 : Keeps ⟨φ0, φ1, φ2, φ3, φ4, φ5, φ6, φ7, φ8, true, φ10, φ11, φ12, φ13, φ14, φ15, true, φ17, φ18, φ19⟩ z0 s2_2 := wrReg_keeps k_s1_1
    clear_value s1_1 s2_2
    exact ovfEvent_keeps k_s2_2
  · exact hz

theorem placeEvent_keeps {safety : Bool} {b : List Byte} {s : State} (hz : Keeps ⟨φ0, true, true, φ3, φ4, φ5, φ6, φ7, φ8, true, φ10, φ11, φ12, φ13, φ14, φ15, true, φ17, φ18, φ19⟩ z0 s) : Keeps ⟨φ0, true, true, φ3, φ4, φ5, φ6, φ7, φ8, true, φ10, φ11, φ12, φ13, φ14, φ15, true, φ17, φ18, φ19⟩ z0 (placeEvent safety b s) := by
  unfold placeEvent
  extract_lets +onlyGivenNames d_1
  split
  · split
    · exact ovfTrip_keeps (ovfRecord_keeps hz)
    · exact eventQueueFull_keeps (countLost_keeps hz)
  · split
    · split
      · exact recToQueue_keeps hz
      · exact ovfTrip_keeps (ovfRecord_keeps (eventQueueFull_keeps hz))
    · extract_lets +onlyGivenNames s1_2 d1_3
      have k_s1_2 : Keeps ⟨φ0, true, true, φ3, φ4, φ5, φ6, φ7, φ8, true, φ10, φ11, φ12, φ13, φ14, φ15, true, φ17, φ18, φ19⟩ z0 s1_2 := flushLost_keeps hz
      clear_value s1_2
      split
      · exact recToQueue_keeps k_s1_2
      · exact eventQueueFull_keeps (countLost_keeps k_s1_2)

theorem stagingTop_keeps {s : State} (hz : Keeps ⟨φ0, φ1, true, φ3, φ4, φ5, φ6, φ7, φ8, φ9, φ10, φ11, φ12, φ13, φ14, φ15, φ16, φ17, φ18, φ19⟩ z0 s) : Keeps ⟨φ0, φ1, true, φ3, φ4, φ5, φ6, φ7, φ8, φ9, φ10, φ11, φ12, φ13, φ14, φ15, φ16, φ17, φ18, φ19⟩ z0 (stagingTop s) := by
  unfold stagingTop
  split
  · exact hz
  · extract_lets +onlyGivenNames s1_1
    extract_lets +onlyGivenNames s1_2
    have k_s1_2 : Keeps ⟨φ0, φ1, true, φ3, φ4, φ5, φ6, φ7, φ8, φ9, φ10, φ11, φ12, φ13, φ14, φ15, φ16, φ17, φ18, φ19⟩ z0 s1_2 := by
      subst s1_2
      apply wrReg_keeps
      exact Keeps.of hz rfl
    clear_value s1_2
    split
    · exact k_s1_2
    · exact countLost_keeps k_s1_2

theorem storeEvent_keeps {e : Ev} {s : State} (hz : Keeps ⟨φ0, true, true, φ3, φ4, φ5, φ6, φ7, φ8, true, φ10, φ11, φ12, φ13, φ14, φ15, true, φ17, φ18, φ19⟩ z0 s) : Keeps ⟨φ0, true, true, φ3, φ4, φ5, φ6, φ7, φ8, true, φ10, φ11, φ12, φ13, φ14, φ15, true, φ17, φ18, φ19⟩ z0 (storeEvent e s) := by
  unfold storeEvent
  extract_lets +onlyGivenNames q_1
  split
  · split
    · split
      · exact ovfTrip_keeps (ovfEvent_keeps hz)
      · exact countLost_keeps hz
    · apply stagingTop_keeps
      exact Keeps.of hz rfl
  · exact placeEvent_keeps hz

theorem rawBit_keeps {e : Ev} {s : State} (hz : Keeps ⟨φ0, φ1, φ2, φ3, φ4, φ5, φ6, φ7, φ8, φ9, φ10, φ11, φ12, φ13, φ14, φ15, φ16, φ17, φ18, φ19⟩ z0 s) : Keeps ⟨φ0, φ1, φ2, φ3, φ4, φ5, φ6, φ7, φ8, φ9, φ10, φ11, φ12, φ13, φ14, φ15, φ16, φ17, φ18, φ19⟩ z0 (rawBit e s) := by
  unfold rawBit
  exact wrReg_keeps hz

theorem raise_keeps {e : Ev} {s : State} (hz : Keeps ⟨φ0, true, true, φ3, φ4, φ5, φ6, φ7, φ8, true, φ10, φ11, φ12, φ13, φ14, φ15, true, φ17, φ18, φ19⟩ z0 s) : Keeps ⟨φ0, true, true, φ3, φ4, φ5, φ6, φ7, φ8, true, φ10, φ11, φ12, φ13, φ14, φ15, true, φ17, φ18, φ19⟩ z0 (raise e s) := by
  unfold raise
  split
  · exact rawBit_keeps hz
  · exact storeEvent_keeps (rawBit_keeps hz)

theorem raiseSeq_keeps {e : Ev} {s : State} (hz : Keeps ⟨φ0, true, true, φ3, φ4, φ5, φ6, φ7, φ8, true, φ10, φ11, φ12, φ13, φ14, φ15, true, φ17, φ18, φ19⟩ z0 s) : Keeps ⟨φ0, true, true, φ3, φ4, φ5, φ6, φ7, φ8, true, φ10, φ11, φ12, φ13, φ14, φ15, true, φ17, φ18, φ19⟩ z0 (raiseSeq e s).2 := by
  unfold raiseSeq
  dsimp only
  exact raise_keeps hz

theorem raiseRated_keeps {key dt : Nat} {e : Ev} {s : State} (hz : Keeps ⟨φ0, true, true, φ3, φ4, φ5, φ6, φ7, φ8, true, φ10, φ11, φ12, φ13, φ14, φ15, true, φ17, φ18, φ19⟩ z0 s) : Keeps ⟨φ0, true, true, φ3, φ4, φ5, φ6, φ7, φ8, true, φ10, φ11, φ12, φ13, φ14, φ15, true, φ17, φ18, φ19⟩ z0 (raiseRated key dt e s) := by
  unfold raiseRated
  split
  · exact rawBit_keeps hz
  · split
    · apply raise_keeps
      exact Keeps.of hz rfl
    · extract_lets +onlyGivenNames s1_1
      have k_s1_1 : Keeps ⟨φ0, true, true, φ3, φ4, φ5, φ6, φ7, φ8, true, φ10, φ11, φ12, φ13, φ14, φ15, true, φ17, φ18, φ19⟩ z0 s1_1 := rawBit_keeps hz
      clear_value s1_1
      exact Keeps.of k_s1_1 rfl

theorem raiseCount_keeps {key dt n : Nat} {e : Ev} {s : State} (hz : Keeps ⟨φ0, true, true, φ3, φ4, φ5, φ6, φ7, φ8, true, φ10, φ11, φ12, φ13, φ14, φ15, true, φ17, φ18, φ19⟩ z0 s) : Keeps ⟨φ0, true, true, φ3, φ4, φ5, φ6, φ7, φ8, true, φ10, φ11, φ12, φ13, φ14, φ15, true, φ17, φ18, φ19⟩ z0 (raiseCount key dt n e s) := by
  unfold raiseCount
  extract_lets +onlyGivenNames total_1
  split
  · exact rawBit_keeps hz
  · split
    · apply raise_keeps
      exact Keeps.of hz rfl
    · extract_lets +onlyGivenNames s1_2
      have k_s1_2 : Keeps ⟨φ0, true, true, φ3, φ4, φ5, φ6, φ7, φ8, true, φ10, φ11, φ12, φ13, φ14, φ15, true, φ17, φ18, φ19⟩ z0 s1_2 := rawBit_keeps hz
      clear_value s1_2
      exact Keeps.of k_s1_2 rfl

theorem queueFull_keeps {q job : Nat} {s : State} (hz : Keeps ⟨φ0, true, true, φ3, φ4, φ5, φ6, φ7, φ8, true, φ10, φ11, φ12, φ13, φ14, φ15, true, φ17, φ18, φ19⟩ z0 s) : Keeps ⟨φ0, true, true, φ3, φ4, φ5, φ6, φ7, φ8, true, φ10, φ11, φ12, φ13, φ14, φ15, true, φ17, φ18, φ19⟩ z0 (queueFull q job s) := by
  unfold queueFull
  split
  · exact hz
  · apply raise_keeps
    exact Keeps.of hz rfl

theorem queueRearm_keeps {q : Nat} {s : State} (hz : Keeps ⟨φ0, φ1, true, φ3, φ4, φ5, φ6, φ7, φ8, φ9, φ10, φ11, φ12, φ13, φ14, φ15, φ16, φ17, φ18, φ19⟩ z0 s) : Keeps ⟨φ0, φ1, true, φ3, φ4, φ5, φ6, φ7, φ8, φ9, φ10, φ11, φ12, φ13, φ14, φ15, φ16, φ17, φ18, φ19⟩ z0 (queueRearm q s) := by
  unfold queueRearm
  split
  · exact Keeps.of hz rfl
  · exact hz

theorem queueDrop_keeps {q job : Nat} {s : State} (hz : Keeps ⟨φ0, true, true, φ3, φ4, φ5, φ6, φ7, φ8, true, φ10, φ11, φ12, φ13, φ14, φ15, true, φ17, φ18, φ19⟩ z0 s) : Keeps ⟨φ0, true, true, φ3, φ4, φ5, φ6, φ7, φ8, true, φ10, φ11, φ12, φ13, φ14, φ15, true, φ17, φ18, φ19⟩ z0 (queueDrop q job s) := by
  unfold queueDrop
  extract_lets +onlyGivenNames d_1 d'_2
  exact raiseRated_keeps (bump_keeps (qPut_keeps hz))

theorem stagingCheck_keeps {s : State} (hz : Keeps ⟨φ0, true, true, φ3, φ4, φ5, φ6, φ7, φ8, true, φ10, φ11, φ12, φ13, φ14, φ15, true, φ17, φ18, φ19⟩ z0 s) : Keeps ⟨φ0, true, true, φ3, φ4, φ5, φ6, φ7, φ8, true, φ10, φ11, φ12, φ13, φ14, φ15, true, φ17, φ18, φ19⟩ z0 (stagingCheck s) := by
  unfold stagingCheck
  extract_lets +onlyGivenNames n_1
  split
  · apply raise_keeps
    exact Keeps.of hz rfl
  · split
    · exact Keeps.of hz rfl
    · exact hz

theorem stage_keeps {r : Staged} {s : State} (hz : Keeps ⟨φ0, true, true, φ3, φ4, φ5, φ6, φ7, φ8, true, φ10, φ11, φ12, φ13, φ14, φ15, true, φ17, φ18, φ19⟩ z0 s) : Keeps ⟨φ0, true, true, φ3, φ4, φ5, φ6, φ7, φ8, true, φ10, φ11, φ12, φ13, φ14, φ15, true, φ17, φ18, φ19⟩ z0 (stage r s) := by
  unfold stage
  apply stagingCheck_keeps
  exact Keeps.of hz rfl

theorem pushEngine_keeps {q rtype job : Nat} {prio keep : Bool} {bytes : List Byte} {s0 : State} (hz : Keeps ⟨φ0, true, true, φ3, φ4, φ5, φ6, φ7, φ8, true, φ10, φ11, φ12, φ13, φ14, φ15, true, φ17, φ18, φ19⟩ z0 s0) : Keeps ⟨φ0, true, true, φ3, φ4, φ5, φ6, φ7, φ8, true, φ10, φ11, φ12, φ13, φ14, φ15, true, φ17, φ18, φ19⟩ z0 (pushEngine q rtype job prio keep bytes s0) := by
  unfold pushEngine
  extract_lets +onlyGivenNames s_1 d_2
  have k_s_1 : Keeps ⟨φ0, true, true, φ3, φ4, φ5, φ6, φ7, φ8, true, φ10, φ11, φ12, φ13, φ14, φ15, true, φ17, φ18, φ19⟩ z0 s_1 := qTouch_keeps hz
  clear_value s_1
  split
  · exact reserve_keeps k_s_1
  · extract_lets +onlyGivenNames full_3 s1_4
    have k_s1_4 : Keeps ⟨φ0, true, true, φ3, φ4, φ5, φ6, φ7, φ8, true, φ10, φ11, φ12, φ13, φ14, φ15, true, φ17, φ18, φ19⟩ z0 s1_4 := by
      subst s1_4
      split
      · exact queueFull_keeps k_s_1
      · exact k_s_1
    clear_value s1_4
    split
    · exact queueDrop_keeps k_s1_4
    · split
      · exact k_s1_4
      · exact stage_keeps k_s1_4

theorem spadRefuse_keeps {n addr cause w : Nat} {who : Who} {k : Acc3} {inj : Bool} {s : State} (hz : Keeps ⟨φ0, true, true, φ3, φ4, φ5, φ6, true, φ8, true, φ10, φ11, φ12, φ13, φ14, φ15, true, φ17, φ18, φ19⟩ z0 s) : Keeps ⟨φ0, true, true, φ3, φ4, φ5, φ6, true, φ8, true, φ10, φ11, φ12, φ13, φ14, φ15, true, φ17, φ18, φ19⟩ z0 (spadRefuse n addr cause w who k inj s) := by
  unfold spadRefuse
  extract_lets +onlyGivenNames p_1 s1_2 s2_3 pay_4
  have k_s1_2 : Keeps ⟨φ0, true, true, φ3, φ4, φ5, φ6, true, φ8, true, φ10, φ11, φ12, φ13, φ14, φ15, true, φ17, φ18, φ19⟩ z0 s1_2 := bump_keeps hz
  have k_pay_4 : Keeps ⟨φ0, true, true, φ3, φ4, φ5, φ6, true, φ8, true, φ10, φ11, φ12, φ13, φ14, φ15, true, φ17, φ18, φ19⟩ z0 pay_4 := by
    subst pay_4
    split
    · exact setSpad_keeps k_s1_2
    · exact k_s1_2
  clear_value s1_2 pay_4
  extract_lets +onlyGivenNames pay_5
  exact raiseRated_keeps k_pay_4

theorem spadCorrect_keeps {n : Nat} {e : Nat × Nat} {s : State} (hz : Keeps ⟨φ0, true, true, φ3, φ4, φ5, φ6, true, φ8, true, φ10, φ11, φ12, φ13, φ14, φ15, true, φ17, φ18, φ19⟩ z0 s) : Keeps ⟨φ0, true, true, φ3, φ4, φ5, φ6, true, φ8, true, φ10, φ11, φ12, φ13, φ14, φ15, true, φ17, φ18, φ19⟩ z0 (spadCorrect n e s) := by
  unfold spadCorrect
  extract_lets +onlyGivenNames p_1 b_2 held_3 s1_4
  have k_s1_4 : Keeps ⟨φ0, true, true, φ3, φ4, φ5, φ6, true, φ8, true, φ10, φ11, φ12, φ13, φ14, φ15, true, φ17, φ18, φ19⟩ z0 s1_4 := by
    subst s1_4
    split
    · exact setSpad_keeps hz
    · exact hz
  clear_value s1_4
  exact raise_keeps (bump_keeps k_s1_4)

theorem spadReadEcc_keeps {n off len job : Nat} {s : State} (hz : Keeps ⟨φ0, true, true, φ3, φ4, φ5, φ6, true, φ8, true, φ10, φ11, φ12, φ13, φ14, φ15, true, φ17, φ18, φ19⟩ z0 s) : Keeps ⟨φ0, true, true, φ3, φ4, φ5, φ6, true, φ8, true, φ10, φ11, φ12, φ13, φ14, φ15, true, φ17, φ18, φ19⟩ z0 (spadReadEcc n off len job s).2 := by
  unfold spadReadEcc
  dsimp only
  apply Keeps.foldl
  · apply Keeps.foldl
    · exact hz
    · intro _ _ k1
      exact raise_keeps k1
  · intro _ _ k2
    exact spadCorrect_keeps k2

theorem spadWriteEcc_keeps {n off len : Nat} {s : State} (hz : Keeps ⟨φ0, φ1, φ2, φ3, φ4, φ5, φ6, true, φ8, φ9, φ10, φ11, φ12, φ13, φ14, φ15, φ16, φ17, φ18, φ19⟩ z0 s) : Keeps ⟨φ0, φ1, φ2, φ3, φ4, φ5, φ6, true, φ8, φ9, φ10, φ11, φ12, φ13, φ14, φ15, φ16, φ17, φ18, φ19⟩ z0 (spadWriteEcc n off len s) := by
  unfold spadWriteEcc
  extract_lets +onlyGivenNames p_1 whole_2 p1_3 w0_4 p2_5
  extract_lets +onlyGivenNames p2_6
  split
  · exact disarm_keeps (disarm_keeps (setSpad_keeps hz))
  · split
    · exact disarm_keeps (setSpad_keeps hz)
    · exact setSpad_keeps hz

theorem freeAt_keeps {a n : Nat} {s : State} (hz : Keeps ⟨φ0, true, φ2, φ3, φ4, φ5, φ6, φ7, φ8, φ9, φ10, φ11, φ12, φ13, φ14, φ15, φ16, φ17, φ18, φ19⟩ z0 s) : Keeps ⟨φ0, true, φ2, φ3, φ4, φ5, φ6, φ7, φ8, φ9, φ10, φ11, φ12, φ13, φ14, φ15, φ16, φ17, φ18, φ19⟩ z0 (freeAt a n s) := by
  unfold freeAt
  apply Keeps.foldl
  · exact hz
  · intro _ _ k1
    extract_lets +onlyGivenNames r_2
    have k_r_2 : Keeps ⟨φ0, true, φ2, φ3, φ4, φ5, φ6, φ7, φ8, φ9, φ10, φ11, φ12, φ13, φ14, φ15, φ16, φ17, φ18, φ19⟩ z0 r_2.2 := fresh_keeps k1
    clear_value r_2
    exact wrBytes_keeps k_r_2

theorem fenceFor_keeps {reason : Nat} {s : State} (hz : Keeps ⟨φ0, φ1, φ2, φ3, φ4, φ5, φ6, φ7, φ8, φ9, true, φ11, φ12, φ13, φ14, φ15, φ16, φ17, φ18, φ19⟩ z0 s) : Keeps ⟨φ0, φ1, φ2, φ3, φ4, φ5, φ6, φ7, φ8, φ9, true, φ11, φ12, φ13, φ14, φ15, φ16, φ17, φ18, φ19⟩ z0 (fenceFor reason s) := by
  unfold fenceFor
  split
  · exact hz
  · exact Keeps.of hz rfl

theorem badFound_keeps {blk : Nat} {s : State} (hz : Keeps ⟨φ0, φ1, φ2, φ3, φ4, φ5, φ6, φ7, true, φ9, true, φ11, φ12, φ13, φ14, φ15, φ16, φ17, φ18, φ19⟩ z0 s) : Keeps ⟨φ0, φ1, φ2, φ3, φ4, φ5, φ6, φ7, true, φ9, true, φ11, φ12, φ13, φ14, φ15, φ16, φ17, φ18, φ19⟩ z0 (badFound blk s) := by
  unfold badFound
  extract_lets +onlyGivenNames l_1 m_2 u_3 s1_4
  have k_s1_4 : Keeps ⟨φ0, φ1, φ2, φ3, φ4, φ5, φ6, φ7, true, φ9, true, φ11, φ12, φ13, φ14, φ15, φ16, φ17, φ18, φ19⟩ z0 s1_4 := by
    subst s1_4
    split
    · exact hz
    · exact setMc_keeps hz
  clear_value s1_4
  split
  · exact fenceFor_keeps k_s1_4
  · exact k_s1_4

theorem mcReadBlock_keeps {blk job : Nat} {s : State} (hz : Keeps ⟨φ0, true, true, φ3, φ4, φ5, φ6, φ7, true, true, true, φ11, φ12, φ13, φ14, φ15, true, φ17, φ18, φ19⟩ z0 s) : Keeps ⟨φ0, true, true, φ3, φ4, φ5, φ6, φ7, true, true, true, φ11, φ12, φ13, φ14, φ15, true, φ17, φ18, φ19⟩ z0 (mcReadBlock blk job s).2 := by
  unfold mcReadBlock
  dsimp only
  split
  · exact hz
  · split
    · dsimp only
      exact raise_keeps (bump_keeps (badFound_keeps hz))
    · split
      · dsimp only
        apply raiseRated_keeps
        apply bump_keeps
        split
        · exact hz
        · split
          · exact setMc_keeps hz
          · exact wrField_keeps hz
      · exact hz

theorem mcWriteBlock_keeps {blk : Nat} {s : State} (hz : Keeps ⟨φ0, true, φ2, φ3, φ4, φ5, φ6, φ7, true, φ9, φ10, φ11, φ12, φ13, φ14, φ15, φ16, φ17, φ18, φ19⟩ z0 s) : Keeps ⟨φ0, true, φ2, φ3, φ4, φ5, φ6, φ7, true, φ9, φ10, φ11, φ12, φ13, φ14, φ15, φ16, φ17, φ18, φ19⟩ z0 (mcWriteBlock blk s) := by
  unfold mcWriteBlock
  extract_lets +onlyGivenNames l_1 m1_2 two_3
  split
  · extract_lets +onlyGivenNames s1_4
    have k_s1_4 : Keeps ⟨φ0, true, φ2, φ3, φ4, φ5, φ6, φ7, true, φ9, φ10, φ11, φ12, φ13, φ14, φ15, φ16, φ17, φ18, φ19⟩ z0 s1_4 := disarm_keeps (disarm_keeps (setMc_keeps hz))
    clear_value s1_4
    split
    · exact freeAt_keeps k_s1_4
    · split
      · exact setMc_keeps k_s1_4
      · exact setMc_keeps k_s1_4
  · exact setMc_keeps hz

theorem mcReadBlocks_keeps {job : Nat} {x1 : List Nat} {x2 : State} (hz : Keeps ⟨φ0, true, true, φ3, φ4, φ5, φ6, φ7, true, true, true, φ11, φ12, φ13, φ14, φ15, true, φ17, φ18, φ19⟩ z0 x2) : Keeps ⟨φ0, true, true, φ3, φ4, φ5, φ6, φ7, true, true, true, φ11, φ12, φ13, φ14, φ15, true, φ17, φ18, φ19⟩ z0 (mcReadBlocks job x1 x2).2 := by
  induction x1 generalizing job x2 with
  | nil =>
    unfold mcReadBlocks
    exact hz
  | cons a l ih =>
    unfold mcReadBlocks
    dsimp only
    split
    · exact ih (mcReadBlock_keeps hz)
    · exact mcReadBlock_keeps hz

theorem mcCount_keeps {wr : Bool} {a n job : Nat} {s : State} (hz : Keeps ⟨φ0, φ1, φ2, φ3, φ4, φ5, φ6, φ7, φ8, φ9, φ10, φ11, φ12, φ13, φ14, φ15, φ16, φ17, φ18, φ19⟩ z0 s) : Keeps ⟨φ0, φ1, φ2, φ3, φ4, φ5, φ6, φ7, φ8, φ9, φ10, φ11, φ12, φ13, φ14, φ15, φ16, φ17, φ18, φ19⟩ z0 (mcCount wr a n job s) := by
  unfold mcCount
  apply Keeps.foldl
  · exact hz
  · intro _ _ k1
    extract_lets +onlyGivenNames lo_2 hi_3 m_4
    exact noteMove_keeps (addCtr_keeps k1)

theorem lpddrPut_keeps {a : Nat} {l : List Byte} {job : Nat} {s : State} (hz : Keeps ⟨φ0, true, φ2, φ3, φ4, φ5, φ6, φ7, true, φ9, φ10, φ11, φ12, φ13, φ14, φ15, φ16, φ17, φ18, φ19⟩ z0 s) : Keeps ⟨φ0, true, φ2, φ3, φ4, φ5, φ6, φ7, true, φ9, φ10, φ11, φ12, φ13, φ14, φ15, φ16, φ17, φ18, φ19⟩ z0 (lpddrPut a l job s) := by
  unfold lpddrPut
  apply mcCount_keeps
  apply Keeps.foldl
  · exact wrBytes_keeps hz
  · intro _ _ k1
    exact mcWriteBlock_keeps k1

theorem pendFirst_keeps {a n : Nat} {s : State} (hz : Keeps ⟨φ0, true, φ2, φ3, φ4, φ5, φ6, φ7, true, φ9, φ10, φ11, φ12, φ13, φ14, φ15, φ16, φ17, φ18, φ19⟩ z0 s) : Keeps ⟨φ0, true, φ2, φ3, φ4, φ5, φ6, φ7, true, φ9, φ10, φ11, φ12, φ13, φ14, φ15, φ16, φ17, φ18, φ19⟩ z0 (pendFirst a n s) := by
  unfold pendFirst
  apply Keeps.foldl
  · exact hz
  · intro _ _ k1
    apply Keeps.foldl
    · exact k1
    · intro _ _ k2
      exact lpddrPut_keeps (setMc_keeps k2)

theorem lpddrRead_keeps {a n job : Nat} {s : State} (hz : Keeps ⟨φ0, true, true, φ3, φ4, φ5, φ6, φ7, true, true, true, φ11, φ12, φ13, φ14, φ15, true, φ17, φ18, φ19⟩ z0 s) : Keeps ⟨φ0, true, true, φ3, φ4, φ5, φ6, φ7, true, true, true, φ11, φ12, φ13, φ14, φ15, true, φ17, φ18, φ19⟩ z0 (lpddrRead a n job s).2 := by
  unfold lpddrRead
  split
  · exact hz
  · dsimp only
    split
    · dsimp only
      exact mcCount_keeps (mcReadBlocks_keeps (pendFirst_keeps hz))
    · exact mcReadBlocks_keeps (pendFirst_keeps hz)

theorem lpddrWrite_keeps {a : Nat} {l : List Byte} {job : Nat} {s : State} (hz : Keeps ⟨φ0, true, true, φ3, φ4, φ5, φ6, φ7, true, true, true, φ11, φ12, φ13, φ14, φ15, true, φ17, φ18, φ19⟩ z0 s) : Keeps ⟨φ0, true, true, φ3, φ4, φ5, φ6, φ7, true, true, true, φ11, φ12, φ13, φ14, φ15, true, φ17, φ18, φ19⟩ z0 (lpddrWrite a l job s).2 := by
  unfold lpddrWrite
  dsimp only
  split
  · exact hz
  · split
    · exact mcReadBlocks_keeps (pendFirst_keeps hz)
    · dsimp only
      exact lpddrPut_keeps (mcReadBlocks_keeps (pendFirst_keeps hz))

theorem access_keeps {c i ctx : Nat} {who : Who} {k : Acc3} {a n : Nat} {data : List Byte} {s : State} (hz : Keeps ⟨φ0, true, true, φ3, φ4, φ5, φ6, true, true, true, true, φ11, φ12, φ13, φ14, φ15, true, φ17, φ18, φ19⟩ z0 s) : Keeps ⟨φ0, true, true, φ3, φ4, φ5, φ6, true, true, true, true, φ11, φ12, φ13, φ14, φ15, true, φ17, φ18, φ19⟩ z0 (access c i ctx who k a n data s).2 := by
  unfold access
  split
  · dsimp only
    exact raise_keeps hz
  · dsimp only
    exact raise_keeps hz
  · split
    · dsimp only
      exact lpddrRead_keeps hz
    · dsimp only
      exact lpddrWrite_keeps hz
  · dsimp only
    split
    · dsimp only
      exact spadRefuse_keeps (disarm_keeps hz)
    · split
      · dsimp only
        exact spadRefuse_keeps hz
      · split
        · dsimp only
          exact spadReadEcc_keeps hz
        · dsimp only
          exact spadWriteEcc_keeps (wrBytes_keeps hz)
        · split
          · dsimp only
            exact spadReadEcc_keeps hz
          · dsimp only
            exact spadWriteEcc_keeps (wrBytes_keeps (spadReadEcc_keeps hz))

theorem setPort_keeps {p : Nat} {v : Port} {s : State} (hz : Keeps ⟨φ0, φ1, φ2, φ3, φ4, φ5, φ6, φ7, φ8, φ9, true, φ11, φ12, φ13, φ14, φ15, φ16, φ17, φ18, φ19⟩ z0 s) : Keeps ⟨φ0, φ1, φ2, φ3, φ4, φ5, φ6, φ7, φ8, φ9, true, φ11, φ12, φ13, φ14, φ15, φ16, φ17, φ18, φ19⟩ z0 (setPort p v s) := by
  unfold setPort
  exact Keeps.of hz rfl

theorem sendFlit_keeps {p : Nat} {f : Flit} {rest : List Flit} {s : State} (hz : Keeps ⟨φ0, φ1, φ2, φ3, φ4, φ5, φ6, φ7, φ8, φ9, true, φ11, φ12, φ13, φ14, φ15, φ16, φ17, φ18, φ19⟩ z0 s) : Keeps ⟨φ0, φ1, φ2, φ3, φ4, φ5, φ6, φ7, φ8, φ9, true, φ11, φ12, φ13, φ14, φ15, φ16, φ17, φ18, φ19⟩ z0 (sendFlit p f rest s) := by
  unfold sendFlit
  extract_lets +onlyGivenNames v_1 v1_2 s1_3
  have k_s1_3 : Keeps ⟨φ0, φ1, φ2, φ3, φ4, φ5, φ6, φ7, φ8, φ9, true, φ11, φ12, φ13, φ14, φ15, φ16, φ17, φ18, φ19⟩ z0 s1_3 := setPort_keeps hz
  clear_value s1_3
  split
  · exact addCtr_keeps k_s1_3
  · exact k_s1_3

theorem pumpPort_keeps {p x1 : Nat} {x2 : State} (hz : Keeps ⟨φ0, φ1, φ2, φ3, φ4, φ5, φ6, φ7, φ8, φ9, true, φ11, φ12, φ13, φ14, φ15, φ16, φ17, φ18, φ19⟩ z0 x2) : Keeps ⟨φ0, φ1, φ2, φ3, φ4, φ5, φ6, φ7, φ8, φ9, true, φ11, φ12, φ13, φ14, φ15, φ16, φ17, φ18, φ19⟩ z0 (pumpPort p x1 x2) := by
  induction x1 generalizing p x2 with
  | zero =>
    unfold pumpPort
    exact hz
  | succ n ih =>
    unfold pumpPort
    split
    · exact hz
    · split
      · exact hz
      · exact ih (sendFlit_keeps hz)

theorem pushFlits_keeps {p vc job n : Nat} {s : State} (hz : Keeps ⟨φ0, φ1, φ2, φ3, φ4, φ5, φ6, φ7, φ8, φ9, true, φ11, φ12, φ13, φ14, φ15, φ16, φ17, φ18, φ19⟩ z0 s) : Keeps ⟨φ0, φ1, φ2, φ3, φ4, φ5, φ6, φ7, φ8, φ9, true, φ11, φ12, φ13, φ14, φ15, φ16, φ17, φ18, φ19⟩ z0 (pushFlits p vc job n s) := by
  unfold pushFlits
  split
  · exact hz
  · extract_lets +onlyGivenNames v_1 l_2
    exact pumpPort_keeps (setPort_keeps hz)

theorem sendReq_keeps {use : ReqUse} {op dst job : Nat} {det : Bool} {addr len : Nat} {data : List Byte} {pos : Nat} {s : State} (hz : Keeps ⟨φ0, true, true, φ3, φ4, φ5, φ6, φ7, φ8, true, true, φ11, φ12, φ13, φ14, φ15, true, φ17, φ18, φ19⟩ z0 s) : Keeps ⟨φ0, true, true, φ3, φ4, φ5, φ6, φ7, φ8, true, true, φ11, φ12, φ13, φ14, φ15, true, φ17, φ18, φ19⟩ z0 (sendReq use op dst job det addr len data pos s).2 := by
  unfold sendReq
  dsimp only
  split
  · exact hz
  · split
    · dsimp only
      exact raise_keeps hz
    · split
      · dsimp only
        apply raise_keeps
        apply disarm_keeps
        exact Keeps.of hz rfl
      · dsimp only
        apply pushFlits_keeps
        exact Keeps.of hz rfl

theorem sendPktOf_keeps {job op dst : Nat} {words : List Nat} {s : State} (hz : Keeps ⟨φ0, φ1, φ2, φ3, φ4, φ5, φ6, φ7, φ8, φ9, true, φ11, φ12, φ13, φ14, φ15, φ16, φ17, φ18, φ19⟩ z0 s) : Keeps ⟨φ0, φ1, φ2, φ3, φ4, φ5, φ6, φ7, φ8, φ9, true, φ11, φ12, φ13, φ14, φ15, φ16, φ17, φ18, φ19⟩ z0 (sendPktOf job op dst words s) := by
  unfold sendPktOf
  apply pushFlits_keeps
  exact Keeps.of hz rfl

theorem sendPkt_keeps {op dst : Nat} {words : List Nat} {s : State} (hz : Keeps ⟨φ0, φ1, φ2, φ3, φ4, φ5, φ6, φ7, φ8, φ9, true, φ11, φ12, φ13, φ14, φ15, φ16, φ17, φ18, φ19⟩ z0 s) : Keeps ⟨φ0, φ1, φ2, φ3, φ4, φ5, φ6, φ7, φ8, φ9, true, φ11, φ12, φ13, φ14, φ15, φ16, φ17, φ18, φ19⟩ z0 (sendPkt op dst words s) := by
  unfold sendPkt
  exact sendPktOf_keeps hz

theorem putResp_keeps {op dst job tag : Nat} {det : Bool} {status cause : Nat} {data : List Byte} {s : State} (hz : Keeps ⟨φ0, φ1, φ2, φ3, φ4, φ5, φ6, φ7, φ8, φ9, true, φ11, φ12, φ13, φ14, φ15, φ16, φ17, φ18, φ19⟩ z0 s) : Keeps ⟨φ0, φ1, φ2, φ3, φ4, φ5, φ6, φ7, φ8, φ9, true, φ11, φ12, φ13, φ14, φ15, φ16, φ17, φ18, φ19⟩ z0 (putResp op dst job tag det status cause data s) := by
  unfold putResp
  extract_lets +onlyGivenNames p_1
  apply pushFlits_keeps
  exact Keeps.of hz rfl

theorem sendResp_keeps {op dst job tag : Nat} {det : Bool} {status cause : Nat} {data : List Byte} {s : State} (hz : Keeps ⟨φ0, true, true, φ3, φ4, φ5, φ6, φ7, φ8, true, true, φ11, φ12, φ13, φ14, φ15, true, φ17, φ18, φ19⟩ z0 s) : Keeps ⟨φ0, true, true, φ3, φ4, φ5, φ6, φ7, φ8, true, true, φ11, φ12, φ13, φ14, φ15, true, φ17, φ18, φ19⟩ z0 (sendResp op dst job tag det status cause data s) := by
  unfold sendResp
  extract_lets +onlyGivenNames p_1
  split
  · exact putResp_keeps (raise_keeps hz)
  · exact putResp_keeps hz

theorem rbufPut_keeps {u : ReqUse} {a : Nat} {l : List Byte} {s : State} (hz : Keeps ⟨φ0, φ1, φ2, φ3, φ4, φ5, φ6, φ7, φ8, φ9, true, φ11, φ12, φ13, φ14, φ15, φ16, φ17, φ18, φ19⟩ z0 s) : Keeps ⟨φ0, φ1, φ2, φ3, φ4, φ5, φ6, φ7, φ8, φ9, true, φ11, φ12, φ13, φ14, φ15, φ16, φ17, φ18, φ19⟩ z0 (rbufPut u a l s) := by
  unfold rbufPut
  exact Keeps.of hz rfl

theorem noteFar_keeps {u : ReqUse} {ga n st cause ev : Nat} {s : State} (hz : Keeps ⟨φ0, φ1, φ2, φ3, φ4, φ5, φ6, φ7, φ8, φ9, true, φ11, φ12, φ13, φ14, φ15, φ16, φ17, φ18, φ19⟩ z0 s) : Keeps ⟨φ0, φ1, φ2, φ3, φ4, φ5, φ6, φ7, φ8, φ9, true, φ11, φ12, φ13, φ14, φ15, φ16, φ17, φ18, φ19⟩ z0 (noteFar u ga n st cause ev s) := by
  unfold noteFar
  exact rbufPut_keeps hz

theorem dropBufs_keeps {u : ReqUse} {s : State} (hz : Keeps ⟨φ0, φ1, φ2, φ3, φ4, φ5, φ6, φ7, φ8, φ9, true, φ11, φ12, φ13, φ14, φ15, φ16, φ17, φ18, φ19⟩ z0 s) : Keeps ⟨φ0, φ1, φ2, φ3, φ4, φ5, φ6, φ7, φ8, φ9, true, φ11, φ12, φ13, φ14, φ15, φ16, φ17, φ18, φ19⟩ z0 (dropBufs u s) := by
  unfold dropBufs
  exact Keeps.of hz rfl

theorem dropUse_keeps {u : ReqUse} {s : State} (hz : Keeps ⟨φ0, φ1, φ2, φ3, φ4, φ5, φ6, φ7, φ8, φ9, true, φ11, φ12, φ13, φ14, φ15, φ16, φ17, φ18, φ19⟩ z0 s) : Keeps ⟨φ0, φ1, φ2, φ3, φ4, φ5, φ6, φ7, φ8, φ9, true, φ11, φ12, φ13, φ14, φ15, φ16, φ17, φ18, φ19⟩ z0 (dropUse u s) := by
  unfold dropUse
  exact Keeps.of hz rfl

theorem dmaFinish_keeps {k : Nat} {r : DmaReq} {status cause bytes evSeq : Nat} {s : State} (hz : Keeps ⟨φ0, true, true, φ3, true, true, φ6, φ7, φ8, true, φ10, φ11, φ12, φ13, φ14, φ15, true, φ17, φ18, φ19⟩ z0 s) : Keeps ⟨φ0, true, true, φ3, true, true, φ6, φ7, φ8, true, φ10, φ11, φ12, φ13, φ14, φ15, true, φ17, φ18, φ19⟩ z0 (dmaFinish k r status cause bytes evSeq s) := by
  unfold dmaFinish
  extract_lets +onlyGivenNames v_1 s1_2 s2_3 s3_4
  have k_s1_2 : Keeps ⟨φ0, true, true, φ3, true, true, φ6, φ7, φ8, true, φ10, φ11, φ12, φ13, φ14, φ15, true, φ17, φ18, φ19⟩ z0 s1_2 := by
    subst s1_2
    apply noteMove_keeps
    split
    · exact hz
    · exact setQuill_keeps hz
  have k_s3_4 : Keeps ⟨φ0, true, true, φ3, true, true, φ6, φ7, φ8, true, φ10, φ11, φ12, φ13, φ14, φ15, true, φ17, φ18, φ19⟩ z0 s3_4 := by
    subst s3_4
    split
    · exact k_s1_2
    · exact setChan_keeps k_s1_2
  clear_value s1_2 s3_4
  extract_lets +onlyGivenNames s3_5
  have k_s3_5 : Keeps ⟨φ0, true, true, φ3, true, true, φ6, φ7, φ8, true, φ10, φ11, φ12, φ13, φ14, φ15, true, φ17, φ18, φ19⟩ z0 s3_5 := by
    subst s3_5
    split
    · exact k_s3_4
    · exact wrField_keeps k_s3_4
  clear_value s3_5
  split
  · exact pushEngine_keeps k_s3_5
  · exact k_s3_5

theorem chanBusy_keeps {k : Nat} {s : State} (hz : Keeps ⟨φ0, φ1, φ2, φ3, φ4, φ5, φ6, φ7, φ8, φ9, φ10, φ11, φ12, φ13, φ14, φ15, φ16, φ17, φ18, φ19⟩ z0 s) : Keeps ⟨φ0, φ1, φ2, φ3, φ4, φ5, φ6, φ7, φ8, φ9, φ10, φ11, φ12, φ13, φ14, φ15, φ16, φ17, φ18, φ19⟩ z0 (chanBusy k s) := by
  unfold chanBusy
  extract_lets +onlyGivenNames b_1 bit_2
  exact wrField_keeps hz

theorem cancelDmas_keeps {id : Nat} {s : State} (hz : Keeps ⟨φ0, true, true, φ3, true, true, φ6, φ7, φ8, true, φ10, φ11, φ12, φ13, φ14, φ15, true, φ17, φ18, φ19⟩ z0 s) : Keeps ⟨φ0, true, true, φ3, true, true, φ6, φ7, φ8, true, φ10, φ11, φ12, φ13, φ14, φ15, true, φ17, φ18, φ19⟩ z0 (cancelDmas id s) := by
  unfold cancelDmas
  apply Keeps.foldl
  · exact hz
  · intro _ _ k1
    extract_lets +onlyGivenNames gone_2
    split
    · exact k1
    · extract_lets +onlyGivenNames s1_3
      extract_lets +onlyGivenNames s1_4
      have k_s1_4 : Keeps ⟨φ0, true, true, φ3, true, true, φ6, φ7, φ8, true, φ10, φ11, φ12, φ13, φ14, φ15, true, φ17, φ18, φ19⟩ z0 s1_4 := setChan_keeps k1
      clear_value s1_4
      apply chanBusy_keeps
      apply Keeps.foldl
      · exact k_s1_4
      · intro _ _ k5
        exact dmaFinish_keeps k5

theorem closeWindows_keeps {id : Nat} {s : State} (hz : Keeps ⟨φ0, φ1, φ2, φ3, φ4, φ5, φ6, true, φ8, φ9, φ10, φ11, φ12, φ13, φ14, φ15, φ16, φ17, φ18, φ19⟩ z0 s) : Keeps ⟨φ0, φ1, φ2, φ3, φ4, φ5, φ6, true, φ8, φ9, φ10, φ11, φ12, φ13, φ14, φ15, φ16, φ17, φ18, φ19⟩ z0 (closeWindows id s) := by
  unfold closeWindows
  exact Keeps.of hz rfl

theorem releaseLines_keeps {j : JobRec} {s : State} (hz : Keeps ⟨φ0, φ1, φ2, φ3, φ4, φ5, φ6, true, φ8, φ9, φ10, φ11, φ12, φ13, φ14, φ15, φ16, φ17, φ18, φ19⟩ z0 s) : Keeps ⟨φ0, φ1, φ2, φ3, φ4, φ5, φ6, true, φ8, φ9, φ10, φ11, φ12, φ13, φ14, φ15, φ16, φ17, φ18, φ19⟩ z0 (releaseLines j s) := by
  unfold releaseLines
  extract_lets +onlyGivenNames s1_1
  have k_s1_1 : Keeps ⟨φ0, φ1, φ2, φ3, φ4, φ5, φ6, true, φ8, φ9, φ10, φ11, φ12, φ13, φ14, φ15, φ16, φ17, φ18, φ19⟩ z0 s1_1 := by
    subst s1_1
    apply Keeps.foldl
    · exact hz
    · intro _ _ k2
      extract_lets +onlyGivenNames n_3 p_4
      split
      · exact setSpad_keeps k2
      · exact setSpad_keeps k2
  clear_value s1_1
  apply Keeps.foldl
  · exact k_s1_1
  · intro _ _ k5
    extract_lets +onlyGivenNames n_6 p_7 us_8
    exact setSpad_keeps k5

theorem stopQuills_keeps {j : JobRec} {s : State} (hz : Keeps ⟨φ0, φ1, φ2, φ3, true, φ5, φ6, φ7, φ8, φ9, φ10, φ11, φ12, φ13, φ14, φ15, φ16, φ17, φ18, φ19⟩ z0 s) : Keeps ⟨φ0, φ1, φ2, φ3, true, φ5, φ6, φ7, φ8, φ9, φ10, φ11, φ12, φ13, φ14, φ15, φ16, φ17, φ18, φ19⟩ z0 (stopQuills j s) := by
  unfold stopQuills
  apply Keeps.foldl
  · exact hz
  · intro _ _ k1
    extract_lets +onlyGivenNames v_2
    exact setQuill_keeps k1

theorem leaveWaits_keeps {j : JobRec} {s : State} (hz : Keeps ⟨φ0, φ1, true, φ3, φ4, φ5, true, φ7, φ8, φ9, true, φ11, φ12, φ13, φ14, φ15, φ16, φ17, φ18, φ19⟩ z0 s) : Keeps ⟨φ0, φ1, true, φ3, φ4, φ5, true, φ7, φ8, φ9, true, φ11, φ12, φ13, φ14, φ15, φ16, φ17, φ18, φ19⟩ z0 (leaveWaits j s) := by
  unfold leaveWaits
  exact Keeps.of hz rfl

theorem setPkt_keeps {p v : Pkt} {s : State} (hz : Keeps ⟨φ0, φ1, true, φ3, φ4, φ5, φ6, φ7, φ8, φ9, φ10, φ11, φ12, φ13, φ14, φ15, φ16, φ17, φ18, φ19⟩ z0 s) : Keeps ⟨φ0, φ1, true, φ3, φ4, φ5, φ6, φ7, φ8, φ9, φ10, φ11, φ12, φ13, φ14, φ15, φ16, φ17, φ18, φ19⟩ z0 (setPkt p v s) := by
  unfold setPkt
  exact Keeps.of hz rfl

theorem padPacket_keeps {p : Pkt} {reason : Nat} {inj : Bool} {s : State} (hz : Keeps ⟨φ0, true, true, φ3, φ4, φ5, φ6, φ7, φ8, true, φ10, φ11, φ12, φ13, φ14, φ15, true, φ17, φ18, φ19⟩ z0 s) : Keeps ⟨φ0, true, true, φ3, φ4, φ5, φ6, φ7, φ8, true, φ10, φ11, φ12, φ13, φ14, φ15, true, φ17, φ18, φ19⟩ z0 (padPacket p reason inj s) := by
  unfold padPacket
  extract_lets +onlyGivenNames d_1 s1_2
  have k_s1_2 : Keeps ⟨φ0, true, true, φ3, φ4, φ5, φ6, φ7, φ8, true, φ10, φ11, φ12, φ13, φ14, φ15, true, φ17, φ18, φ19⟩ z0 s1_2 := by
    subst s1_2
    split
    · exact wrBytes_keeps hz
    · exact hz
  clear_value s1_2
  exact raise_keeps (setPkt_keeps k_s1_2)

theorem padJobPackets_keeps {id : Nat} {s : State} (hz : Keeps ⟨φ0, true, true, φ3, φ4, φ5, φ6, φ7, φ8, true, φ10, φ11, φ12, φ13, φ14, φ15, true, φ17, φ18, φ19⟩ z0 s) : Keeps ⟨φ0, true, true, φ3, φ4, φ5, φ6, φ7, φ8, true, φ10, φ11, φ12, φ13, φ14, φ15, true, φ17, φ18, φ19⟩ z0 (padJobPackets id s) := by
  unfold padJobPackets
  apply Keeps.foldl
  · exact hz
  · intro _ _ k1
    exact padPacket_keeps k1

theorem stopJob_keeps {id status evSeq : Nat} {s : State} (hz : Keeps ⟨φ0, true, true, true, true, true, true, true, φ8, true, true, φ11, φ12, φ13, φ14, φ15, true, φ17, φ18, φ19⟩ z0 s) : Keeps ⟨φ0, true, true, true, true, true, true, true, φ8, true, true, φ11, φ12, φ13, φ14, φ15, true, φ17, φ18, φ19⟩ z0 (stopJob id status evSeq s) := by
  unfold stopJob
  split
  · split
    · extract_lets +onlyGivenNames s1_1
      have k_s1_1 : Keeps ⟨φ0, true, true, true, true, true, true, true, φ8, true, true, φ11, φ12, φ13, φ14, φ15, true, φ17, φ18, φ19⟩ z0 s1_1 := updJob_keeps hz
      clear_value s1_1
      exact releaseLines_keeps (leaveWaits_keeps (stopQuills_keeps (cancelDmas_keeps (padJobPackets_keeps (closeWindows_keeps k_s1_1)))))
    · exact hz
  · exact hz

theorem failWith_keeps {id : Nat} {e : Ev} {s : State} (hz : Keeps ⟨φ0, true, true, true, true, true, true, true, φ8, true, true, φ11, φ12, φ13, φ14, φ15, true, φ17, φ18, φ19⟩ z0 s) : Keeps ⟨φ0, true, true, true, true, true, true, true, φ8, true, true, φ11, φ12, φ13, φ14, φ15, true, φ17, φ18, φ19⟩ z0 (failWith id e s) := by
  unfold failWith
  extract_lets +onlyGivenNames r_1
  have k_r_1 : Keeps ⟨φ0, true, true, true, true, true, true, true, φ8, true, true, φ11, φ12, φ13, φ14, φ15, true, φ17, φ18, φ19⟩ z0 r_1.2 := raiseSeq_keeps hz
  clear_value r_1
  exact stopJob_keeps k_r_1

theorem notePartials_keeps {id : Nat} {b : Bool} {bind : Nat} {L : Int} {s : State} (hz : Keeps ⟨φ0, φ1, φ2, true, φ4, φ5, φ6, φ7, φ8, φ9, φ10, φ11, φ12, φ13, φ14, φ15, φ16, φ17, φ18, φ19⟩ z0 s) : Keeps ⟨φ0, φ1, φ2, true, φ4, φ5, φ6, φ7, φ8, φ9, φ10, φ11, φ12, φ13, φ14, φ15, φ16, φ17, φ18, φ19⟩ z0 (notePartials id b bind L s) := by
  unfold notePartials
  exact updJob_keeps hz

theorem forgetPartials_keeps {id : Nat} {b : Bool} {bind : Nat} {s : State} (hz : Keeps ⟨φ0, φ1, φ2, true, φ4, φ5, φ6, φ7, φ8, φ9, φ10, φ11, φ12, φ13, φ14, φ15, φ16, φ17, φ18, φ19⟩ z0 s) : Keeps ⟨φ0, φ1, φ2, true, φ4, φ5, φ6, φ7, φ8, φ9, φ10, φ11, φ12, φ13, φ14, φ15, φ16, φ17, φ18, φ19⟩ z0 (forgetPartials id b bind s) := by
  unfold forgetPartials
  exact updJob_keeps hz

theorem relayRecord_keeps {bytes : List Byte} {s : State} (hz : Keeps ⟨φ0, φ1, φ2, φ3, φ4, φ5, φ6, φ7, φ8, φ9, true, φ11, φ12, φ13, φ14, φ15, φ16, φ17, φ18, φ19⟩ z0 s) : Keeps ⟨φ0, φ1, φ2, φ3, φ4, φ5, φ6, φ7, φ8, φ9, true, φ11, φ12, φ13, φ14, φ15, φ16, φ17, φ18, φ19⟩ z0 (relayRecord bytes s) := by
  unfold relayRecord
  split
  · exact hz
  · split
    · exact sendPkt_keeps hz
    · exact hz

theorem complete_keeps {j : JobRec} {s : State} (hz : Keeps ⟨φ0, true, true, true, φ4, φ5, φ6, φ7, φ8, true, true, φ11, φ12, φ13, φ14, φ15, true, φ17, φ18, φ19⟩ z0 s) : Keeps ⟨φ0, true, true, true, φ4, φ5, φ6, φ7, φ8, true, true, φ11, φ12, φ13, φ14, φ15, true, φ17, φ18, φ19⟩ z0 (complete j s) := by
  unfold complete
  extract_lets +onlyGivenNames q_1 ran_2 rec64_3
  split
  · exact dropJob_keeps (relayRecord_keeps hz)
  · split
    · exact dropJob_keeps (reserve_keeps hz)
    · extract_lets +onlyGivenNames s1_4 s2_5
      have k_s1_4 : Keeps ⟨φ0, true, true, true, φ4, φ5, φ6, φ7, φ8, true, true, φ11, φ12, φ13, φ14, φ15, true, φ17, φ18, φ19⟩ z0 s1_4 := updJob_keeps hz
      have k_s2_5 : Keeps ⟨φ0, true, true, true, φ4, φ5, φ6, φ7, φ8, true, true, φ11, φ12, φ13, φ14, φ15, true, φ17, φ18, φ19⟩ z0 s2_5 := by
        subst s2_5
        split
        · exact raise_keeps k_s1_4
        · exact queueFull_keeps k_s1_4
      clear_value s1_4 s2_5
      exact stage_keeps k_s2_5

theorem endQueued_keeps {id status evSeq : Nat} {s : State} (hz : Keeps ⟨φ0, true, true, true, φ4, φ5, φ6, φ7, φ8, true, true, φ11, φ12, φ13, φ14, φ15, true, φ17, φ18, φ19⟩ z0 s) : Keeps ⟨φ0, true, true, true, φ4, φ5, φ6, φ7, φ8, true, true, φ11, φ12, φ13, φ14, φ15, true, φ17, φ18, φ19⟩ z0 (endQueued id status evSeq s) := by
  unfold endQueued
  extract_lets +onlyGivenNames s1_1
  have k_s1_1 : Keeps ⟨φ0, true, true, true, φ4, φ5, φ6, φ7, φ8, true, true, φ11, φ12, φ13, φ14, φ15, true, φ17, φ18, φ19⟩ z0 s1_1 := updJob_keeps hz
  clear_value s1_1
  split
  · split
    · exact complete_keeps k_s1_1
    · exact k_s1_1
  · exact k_s1_1

theorem clearLens_keeps {d : QDesc} {x1 x2 x3 : Nat} {x4 : State} (hz : Keeps ⟨φ0, true, φ2, φ3, φ4, φ5, φ6, φ7, φ8, φ9, φ10, φ11, φ12, φ13, φ14, φ15, φ16, φ17, φ18, φ19⟩ z0 x4) : Keeps ⟨φ0, true, φ2, φ3, φ4, φ5, φ6, φ7, φ8, φ9, φ10, φ11, φ12, φ13, φ14, φ15, φ16, φ17, φ18, φ19⟩ z0 (clearLens d x1 x2 x3 x4) := by
  induction x1 generalizing d x2 x3 x4 with
  | zero =>
    unfold clearLens
    exact hz
  | succ n ih =>
    unfold clearLens
    split
    · exact hz
    · extract_lets +onlyGivenNames w_1 st_2
      exact ih (wrBytes_keeps hz)

theorem carFree_keeps {g : Nat} {s : State} (hz : Keeps ⟨φ0, true, true, φ3, φ4, φ5, φ6, φ7, φ8, true, φ10, φ11, φ12, φ13, true, φ15, true, φ17, φ18, φ19⟩ z0 s) : Keeps ⟨φ0, true, true, φ3, φ4, φ5, φ6, φ7, φ8, true, φ10, φ11, φ12, φ13, true, φ15, true, φ17, φ18, φ19⟩ z0 (carFree g s) := by
  unfold carFree
  extract_lets +onlyGivenNames k_1 q_2 prep_3 low_4 fire_5 arm_6 s1_7
  extract_lets +onlyGivenNames s1_8
  have k_s1_8 : Keeps ⟨φ0, true, true, φ3, φ4, φ5, φ6, φ7, φ8, true, φ10, φ11, φ12, φ13, true, φ15, true, φ17, φ18, φ19⟩ z0 s1_8 := Keeps.of hz rfl
  clear_value s1_8
  split
  · exact raise_keeps k_s1_8
  · exact k_s1_8

theorem carConsumed_keeps {q : Nat} {s : State} (hz : Keeps ⟨φ0, true, true, φ3, φ4, φ5, φ6, φ7, φ8, true, φ10, φ11, φ12, φ13, true, φ15, true, φ17, φ18, φ19⟩ z0 s) : Keeps ⟨φ0, true, true, φ3, φ4, φ5, φ6, φ7, φ8, true, φ10, φ11, φ12, φ13, true, φ15, true, φ17, φ18, φ19⟩ z0 (carConsumed q s) := by
  unfold carConsumed
  apply Keeps.foldl
  · exact hz
  · intro _ _ k1
    split
    · exact carFree_keeps k1
    · exact k1

theorem advanceRd_keeps {q ptr : Nat} {s : State} (hz : Keeps ⟨φ0, true, true, true, φ4, φ5, φ6, φ7, φ8, true, φ10, φ11, φ12, φ13, true, φ15, true, φ17, φ18, φ19⟩ z0 s) : Keeps ⟨φ0, true, true, true, φ4, φ5, φ6, φ7, φ8, true, φ10, φ11, φ12, φ13, true, φ15, true, φ17, φ18, φ19⟩ z0 (advanceRd q ptr s) := by
  unfold advanceRd
  extract_lets +onlyGivenNames d_1 s1_2 s2_3
  have k_s1_2 : Keeps ⟨φ0, true, true, true, φ4, φ5, φ6, φ7, φ8, true, φ10, φ11, φ12, φ13, true, φ15, true, φ17, φ18, φ19⟩ z0 s1_2 := clearLens_keeps hz
  clear_value s1_2
  extract_lets +onlyGivenNames s2_4
  have k_s2_4 : Keeps ⟨φ0, true, true, true, φ4, φ5, φ6, φ7, φ8, true, φ10, φ11, φ12, φ13, true, φ15, true, φ17, φ18, φ19⟩ z0 s2_4 := Keeps.of k_s1_2 rfl
  clear_value s2_4
  exact carConsumed_keeps (queueRearm_keeps (qPut_keeps k_s2_4))

theorem qdEvent_keeps {bit code q : Nat} {inj : Bool} {s : State} (hz : Keeps ⟨φ0, true, true, φ3, φ4, φ5, φ6, φ7, φ8, true, φ10, φ11, φ12, φ13, φ14, φ15, true, φ17, φ18, φ19⟩ z0 s) : Keeps ⟨φ0, true, true, φ3, φ4, φ5, φ6, φ7, φ8, true, φ10, φ11, φ12, φ13, φ14, φ15, true, φ17, φ18, φ19⟩ z0 (qdEvent bit code q inj s) := by
  unfold qdEvent
  extract_lets +onlyGivenNames r_1
  have k_r_1 : Keeps ⟨φ0, true, true, φ3, φ4, φ5, φ6, φ7, φ8, true, φ10, φ11, φ12, φ13, φ14, φ15, true, φ17, φ18, φ19⟩ z0 r_1.2 := fresh_keeps hz
  clear_value r_1
  exact raise_keeps k_r_1

theorem forgetQueue_keeps {q : Nat} {s : State} (hz : Keeps ⟨φ0, φ1, true, true, φ4, φ5, φ6, φ7, φ8, φ9, φ10, φ11, φ12, φ13, φ14, φ15, φ16, φ17, φ18, φ19⟩ z0 s) : Keeps ⟨φ0, φ1, true, true, φ4, φ5, φ6, φ7, φ8, φ9, φ10, φ11, φ12, φ13, φ14, φ15, φ16, φ17, φ18, φ19⟩ z0 (forgetQueue q s) := by
  unfold forgetQueue
  exact Keeps.of hz rfl

theorem qdBroken_keeps {q : Nat} {inj : Bool} {s : State} (hz : Keeps ⟨φ0, true, true, true, true, true, true, true, φ8, true, true, φ11, φ12, φ13, φ14, φ15, true, φ17, φ18, φ19⟩ z0 s) : Keeps ⟨φ0, true, true, true, true, true, true, true, φ8, true, true, φ11, φ12, φ13, φ14, φ15, true, φ17, φ18, φ19⟩ z0 (qdBroken q inj s) := by
  unfold qdBroken
  extract_lets +onlyGivenNames r_1 s1_2 jobs_3 seq_4
  have k_r_1 : Keeps ⟨φ0, true, true, true, true, true, true, true, φ8, true, true, φ11, φ12, φ13, φ14, φ15, true, φ17, φ18, φ19⟩ z0 r_1.2 := fresh_keeps hz
  have k_s1_2 : Keeps ⟨φ0, true, true, true, true, true, true, true, φ8, true, true, φ11, φ12, φ13, φ14, φ15, true, φ17, φ18, φ19⟩ z0 s1_2 := qdEvent_keeps (forgetQueue_keeps (qPut_keeps k_r_1))
  clear_value r_1 s1_2
  apply Keeps.foldl
  · exact k_s1_2
  · intro _ _ k5
    exact stopJob_keeps k5

theorem engineRead_keeps {a n : Nat} {s : State} (hz : Keeps ⟨φ0, true, true, φ3, φ4, φ5, φ6, φ7, true, true, true, φ11, φ12, φ13, φ14, φ15, true, φ17, φ18, φ19⟩ z0 s) : Keeps ⟨φ0, true, true, φ3, φ4, φ5, φ6, φ7, true, true, true, φ11, φ12, φ13, φ14, φ15, true, φ17, φ18, φ19⟩ z0 (engineRead a n s) := by
  unfold engineRead
  exact mcReadBlocks_keeps hz

theorem headRead_keeps {q : Nat} {s : State} (hz : Keeps ⟨φ0, true, true, φ3, φ4, φ5, φ6, φ7, true, true, true, φ11, φ12, φ13, φ14, φ15, true, φ17, φ18, φ19⟩ z0 s) : Keeps ⟨φ0, true, true, φ3, φ4, φ5, φ6, φ7, true, true, true, φ11, φ12, φ13, φ14, φ15, true, φ17, φ18, φ19⟩ z0 (headRead q s) := by
  unfold headRead
  split
  · exact engineRead_keeps hz
  · exact hz

theorem qdUse_keeps {q : Nat} {s0 : State} (hz : Keeps ⟨φ0, true, true, true, true, true, true, true, true, true, true, φ11, φ12, φ13, φ14, φ15, true, φ17, φ18, φ19⟩ z0 s0) : Keeps ⟨φ0, true, true, true, true, true, true, true, true, true, true, φ11, φ12, φ13, φ14, φ15, true, φ17, φ18, φ19⟩ z0 (qdUse q s0) := by
  unfold qdUse
  extract_lets +onlyGivenNames s_1
  have k_s_1 : Keeps ⟨φ0, true, true, true, true, true, true, true, true, true, true, φ11, φ12, φ13, φ14, φ15, true, φ17, φ18, φ19⟩ z0 s_1 := qTouch_keeps hz
  clear_value s_1
  split
  · exact k_s_1
  · split
    · exact qdBroken_keeps (engineRead_keeps k_s_1)
    · split
      · exact qdBroken_keeps (disarm_keeps k_s_1)
      · split
        · exact qdEvent_keeps (disarm_keeps k_s_1)
        · exact k_s_1

theorem qTake_keeps {q : Nat} {s : State} (hz : Keeps ⟨φ0, true, true, true, φ4, φ5, φ6, φ7, φ8, true, φ10, φ11, φ12, φ13, true, φ15, true, φ17, φ18, φ19⟩ z0 s) : Held (fun v => Keeps ⟨φ0, true, true, true, φ4, φ5, φ6, φ7, φ8, true, φ10, φ11, φ12, φ13, true, φ15, true, φ17, φ18, φ19⟩ z0 v.2) (qTake q s) := by
  unfold qTake
  split
  · extract_lets +onlyGivenNames d_1
    split
    · refine Held.some ?_
      try dsimp only
      exact advanceRd_keeps hz
    · exact Held.none
  · exact Held.none

theorem engineTake_keeps {q : Nat} {s : State} (hz : Keeps ⟨φ0, true, true, true, true, true, true, true, true, true, true, φ11, φ12, φ13, true, φ15, true, φ17, φ18, φ19⟩ z0 s) : Held (fun v => Keeps ⟨φ0, true, true, true, true, true, true, true, true, true, true, φ11, φ12, φ13, true, φ15, true, φ17, φ18, φ19⟩ z0 v.2) (engineTake q s) := by
  unfold engineTake
  extract_lets +onlyGivenNames s1_1
  have k_s1_1 : Keeps ⟨φ0, true, true, true, true, true, true, true, true, true, true, φ11, φ12, φ13, true, φ15, true, φ17, φ18, φ19⟩ z0 s1_1 := qdUse_keeps hz
  clear_value s1_1
  split
  · exact Held.none
  · exact qTake_keeps (headRead_keeps k_s1_1)

theorem noTake_keeps {q : Nat} {s : State} (hz : Keeps ⟨φ0, true, true, true, true, true, true, true, true, true, true, φ11, φ12, φ13, φ14, φ15, true, φ17, φ18, φ19⟩ z0 s) : Keeps ⟨φ0, true, true, true, true, true, true, true, true, true, true, φ11, φ12, φ13, φ14, φ15, true, φ17, φ18, φ19⟩ z0 (noTake q s) := by
  unfold noTake
  split
  · extract_lets +onlyGivenNames s1_1
    have k_s1_1 : Keeps ⟨φ0, true, true, true, true, true, true, true, true, true, true, φ11, φ12, φ13, φ14, φ15, true, φ17, φ18, φ19⟩ z0 s1_1 := qdUse_keeps hz
    clear_value s1_1
    split
    · exact headRead_keeps k_s1_1
    · exact k_s1_1
  · exact hz

theorem failSince_keeps {id : Nat} {s s' : State} (hz : Keeps ⟨φ0, true, true, true, true, true, true, true, φ8, true, true, φ11, φ12, φ13, φ14, φ15, true, φ17, φ18, φ19⟩ z0 s') : Keeps ⟨φ0, true, true, true, true, true, true, true, φ8, true, true, φ11, φ12, φ13, φ14, φ15, true, φ17, φ18, φ19⟩ z0 (failSince id s s') := by
  unfold failSince
  exact stopJob_keeps hz

theorem failOn_keeps {id status : Nat} {s s' : State} (hz : Keeps ⟨φ0, true, true, true, true, true, true, true, φ8, true, true, φ11, φ12, φ13, φ14, φ15, true, φ17, φ18, φ19⟩ z0 s') : Keeps ⟨φ0, true, true, true, true, true, true, true, φ8, true, true, φ11, φ12, φ13, φ14, φ15, true, φ17, φ18, φ19⟩ z0 (failOn id status s s') := by
  unfold failOn
  split
  · split
    · exact failSince_keeps hz
    · exact hz
  · split
    · exact failSince_keeps hz
    · exact hz

theorem askSetting_keeps {kind : Nat} {body : SetBody} {s : State} (hz : Keeps ⟨φ0, φ1, φ2, φ3, φ4, φ5, φ6, φ7, φ8, φ9, φ10, true, φ12, φ13, φ14, φ15, φ16, φ17, φ18, φ19⟩ z0 s) : Keeps ⟨φ0, φ1, φ2, φ3, φ4, φ5, φ6, φ7, φ8, φ9, φ10, true, φ12, φ13, φ14, φ15, φ16, φ17, φ18, φ19⟩ z0 (askSetting kind body s) := by
  unfold askSetting
  exact Keeps.of hz rfl

theorem saveNibs_keeps {q : Nat} {s : State} (hz : Keeps ⟨φ0, φ1, φ2, φ3, φ4, φ5, φ6, φ7, φ8, φ9, φ10, true, φ12, φ13, φ14, φ15, φ16, φ17, φ18, φ19⟩ z0 s) : Keeps ⟨φ0, φ1, φ2, φ3, φ4, φ5, φ6, φ7, φ8, φ9, φ10, true, φ12, φ13, φ14, φ15, φ16, φ17, φ18, φ19⟩ z0 (saveNibs q s) := by
  unfold saveNibs
  extract_lets +onlyGivenNames v_1
  exact askSetting_keeps hz

theorem withdrawQuill_keeps {q : Nat} {s : State} (hz : Keeps ⟨φ0, true, true, φ3, true, φ5, φ6, φ7, φ8, true, φ10, true, φ12, φ13, φ14, φ15, true, φ17, φ18, φ19⟩ z0 s) : Keeps ⟨φ0, true, true, φ3, true, φ5, φ6, φ7, φ8, true, φ10, true, φ12, φ13, φ14, φ15, true, φ17, φ18, φ19⟩ z0 (withdrawQuill q s) := by
  unfold withdrawQuill
  extract_lets +onlyGivenNames v_1
  split
  · exact hz
  · extract_lets +onlyGivenNames s1_2
    have k_s1_2 : Keeps ⟨φ0, true, true, φ3, true, φ5, φ6, φ7, φ8, true, φ10, true, φ12, φ13, φ14, φ15, true, φ17, φ18, φ19⟩ z0 s1_2 := saveNibs_keeps (setQuill_keeps hz)
    clear_value s1_2
    exact raise_keeps k_s1_2

theorem markNib_keeps {q nib : Nat} {ns : Bool} {evSeq : Nat} {s : State} (hz : Keeps ⟨φ0, true, true, true, true, true, true, true, φ8, true, true, true, φ12, φ13, φ14, φ15, true, φ17, φ18, φ19⟩ z0 s) : Keeps ⟨φ0, true, true, true, true, true, true, true, φ8, true, true, true, φ12, φ13, φ14, φ15, true, φ17, φ18, φ19⟩ z0 (markNib q nib ns evSeq s) := by
  unfold markNib
  extract_lets +onlyGivenNames v_1
  split
  · split
    · exact hz
    · extract_lets +onlyGivenNames s1_2 s2_3
      have k_s1_2 : Keeps ⟨φ0, true, true, true, true, true, true, true, φ8, true, true, true, φ12, φ13, φ14, φ15, true, φ17, φ18, φ19⟩ z0 s1_2 := setQuill_keeps hz
      have k_s2_3 : Keeps ⟨φ0, true, true, true, true, true, true, true, φ8, true, true, true, φ12, φ13, φ14, φ15, true, φ17, φ18, φ19⟩ z0 s2_3 := by
        subst s2_3
        split
        · exact stopJob_keeps k_s1_2
        · exact k_s1_2
      clear_value s1_2 s2_3
      split
      · exact withdrawQuill_keeps k_s2_3
      · exact saveNibs_keeps k_s2_3
  · split
    · exact hz
    · extract_lets +onlyGivenNames s1_4 s2_5
      have k_s1_4 : Keeps ⟨φ0, true, true, true, true, true, true, true, φ8, true, true, true, φ12, φ13, φ14, φ15, true, φ17, φ18, φ19⟩ z0 s1_4 := setQuill_keeps hz
      have k_s2_5 : Keeps ⟨φ0, true, true, true, true, true, true, true, φ8, true, true, true, φ12, φ13, φ14, φ15, true, φ17, φ18, φ19⟩ z0 s2_5 := by
        subst s2_5
        split
        · exact k_s1_4
        · exact stopJob_keeps k_s1_4
      clear_value s1_4 s2_5
      split
      · exact withdrawQuill_keeps k_s2_5
      · exact setQuill_keeps k_s2_5

theorem OpCtx.check_keeps {c : OpCtx} {ai : Nat} {b : Binding} {wr : Bool} {off byte : Int} {n : Nat} {s : State} (hz : Keeps ⟨φ0, true, true, φ3, φ4, φ5, φ6, φ7, φ8, true, φ10, φ11, φ12, φ13, φ14, φ15, true, φ17, φ18, φ19⟩ z0 s) : Keeps ⟨φ0, true, true, φ3, φ4, φ5, φ6, φ7, φ8, true, φ10, φ11, φ12, φ13, φ14, φ15, true, φ17, φ18, φ19⟩ z0 (OpCtx.check c ai b wr off byte n s).2 := by
  unfold OpCtx.check
  split
  · dsimp only
    exact raise_keeps (disarm_keeps hz)
  · split
    · exact hz
    · dsimp only
      exact raise_keeps hz

theorem OpCtx.rdRaw_keeps {c : OpCtx} {ai : Nat} {b : Binding} {off byte : Int} {n : Nat} {s : State} (hz : Keeps ⟨φ0, true, true, φ3, φ4, φ5, φ6, true, true, true, true, φ11, φ12, φ13, φ14, φ15, true, φ17, φ18, φ19⟩ z0 s) : Keeps ⟨φ0, true, true, φ3, φ4, φ5, φ6, true, true, true, true, φ11, φ12, φ13, φ14, φ15, true, φ17, φ18, φ19⟩ z0 (OpCtx.rdRaw c ai b off byte n s).2 := by
  unfold OpCtx.rdRaw
  dsimp only
  split
  · dsimp only
    exact OpCtx.check_keeps hz
  · split
    · split
      · dsimp only
        exact OpCtx.check_keeps hz
      · dsimp only
        exact OpCtx.check_keeps hz
    · dsimp only
      split
      · split
        · exact noteAct_keeps (access_keeps (OpCtx.check_keeps hz))
        · exact access_keeps (OpCtx.check_keeps hz)
      · split
        · exact noteAct_keeps (access_keeps (OpCtx.check_keeps hz))
        · exact access_keeps (OpCtx.check_keeps hz)

theorem OpCtx.rdElem_keeps {c : OpCtx} {ai : Nat} {a : Agp} {b : Binding} {n : Nat} {s : State} (hz : Keeps ⟨φ0, true, true, φ3, φ4, φ5, φ6, true, true, true, true, φ11, φ12, φ13, φ14, φ15, true, φ17, φ18, φ19⟩ z0 s) : Keeps ⟨φ0, true, true, φ3, φ4, φ5, φ6, true, true, true, true, φ11, φ12, φ13, φ14, φ15, true, φ17, φ18, φ19⟩ z0 (OpCtx.rdElem c ai a b n s).2 := by
  unfold OpCtx.rdElem
  dsimp only
  exact OpCtx.rdRaw_keeps hz

theorem OpCtx.wrRaw_keeps {c : OpCtx} {ai : Nat} {b : Binding} {off byte : Int} {l : List Byte} {pos : Nat} {s : State} (hz : Keeps ⟨φ0, true, true, φ3, φ4, φ5, φ6, true, true, true, true, φ11, φ12, φ13, φ14, φ15, true, φ17, φ18, φ19⟩ z0 s) : Keeps ⟨φ0, true, true, φ3, φ4, φ5, φ6, true, true, true, true, φ11, φ12, φ13, φ14, φ15, true, φ17, φ18, φ19⟩ z0 (OpCtx.wrRaw c ai b off byte l pos s).2 := by
  unfold OpCtx.wrRaw
  dsimp only
  split
  · dsimp only
    exact OpCtx.check_keeps hz
  · split
    · dsimp only
      exact sendReq_keeps (rbufPut_keeps (OpCtx.check_keeps hz))
    · exact access_keeps (OpCtx.check_keeps hz)

theorem OpCtx.wrElemAt_keeps {c : OpCtx} {ai : Nat} {b : Binding} {fmt : Nat} {off : Int} {bits pos : Nat} {s : State} (hz : Keeps ⟨φ0, true, true, φ3, φ4, φ5, φ6, true, true, true, true, φ11, φ12, φ13, φ14, φ15, true, φ17, φ18, φ19⟩ z0 s) : Keeps ⟨φ0, true, true, φ3, φ4, φ5, φ6, true, true, true, true, φ11, φ12, φ13, φ14, φ15, true, φ17, φ18, φ19⟩ z0 (OpCtx.wrElemAt c ai b fmt off bits pos s).2 := by
  unfold OpCtx.wrElemAt
  dsimp only
  exact OpCtx.wrRaw_keeps hz

theorem OpCtx.wrElem_keeps {c : OpCtx} {ai : Nat} {a : Agp} {b : Binding} {n bits pos : Nat} {s : State} (hz : Keeps ⟨φ0, true, true, φ3, φ4, φ5, φ6, true, true, true, true, φ11, φ12, φ13, φ14, φ15, true, φ17, φ18, φ19⟩ z0 s) : Keeps ⟨φ0, true, true, φ3, φ4, φ5, φ6, true, true, true, true, φ11, φ12, φ13, φ14, φ15, true, φ17, φ18, φ19⟩ z0 (OpCtx.wrElem c ai a b n bits pos s).2 := by
  unfold OpCtx.wrElem
  exact OpCtx.wrElemAt_keeps hz

theorem OpCtx.rdRun_keeps {c : OpCtx} {ai : Nat} {b : Binding} {w m : Nat} {off : Int} {s : State} (hz : Keeps ⟨φ0, true, true, φ3, φ4, φ5, φ6, true, true, true, true, φ11, φ12, φ13, φ14, φ15, true, φ17, φ18, φ19⟩ z0 s) : Keeps ⟨φ0, true, true, φ3, φ4, φ5, φ6, true, true, true, true, φ11, φ12, φ13, φ14, φ15, true, φ17, φ18, φ19⟩ z0 (OpCtx.rdRun c ai b w m off s).2 := by
  unfold OpCtx.rdRun
  dsimp only
  exact OpCtx.rdRaw_keeps hz

theorem OpCtx.wrRun_keeps {c : OpCtx} {ai : Nat} {b : Binding} {w : Nat} {off : Int} {codes : List Nat} {pos : Nat} {s : State} (hz : Keeps ⟨φ0, true, true, φ3, φ4, φ5, φ6, true, true, true, true, φ11, φ12, φ13, φ14, φ15, true, φ17, φ18, φ19⟩ z0 s) : Keeps ⟨φ0, true, true, φ3, φ4, φ5, φ6, true, true, true, true, φ11, φ12, φ13, φ14, φ15, true, φ17, φ18, φ19⟩ z0 (OpCtx.wrRun c ai b w off codes pos s).2 := by
  unfold OpCtx.wrRun
  dsimp only
  exact OpCtx.wrRaw_keeps hz

theorem readRuns_keeps {c : OpCtx} {ai : Nat} {b : Binding} {w fuel : Nat} {l : List Int} {s : State} (hz : Keeps ⟨φ0, true, true, φ3, φ4, φ5, φ6, true, true, true, true, φ11, φ12, φ13, φ14, φ15, true, φ17, φ18, φ19⟩ z0 s) : Keeps ⟨φ0, true, true, φ3, φ4, φ5, φ6, true, true, true, true, φ11, φ12, φ13, φ14, φ15, true, φ17, φ18, φ19⟩ z0 (readRuns c ai b w fuel l s).2 := by
  induction fuel generalizing l s with
  | zero => exact hz
  | succ n ih =>
    cases l with
    | nil => exact hz
    | cons off t =>
      unfold readRuns
      dsimp only
      split
      · exact OpCtx.rdRun_keeps hz
      · exact ih (OpCtx.rdRun_keeps hz)

theorem writeRuns_keeps {c : OpCtx} {ai : Nat} {b : Binding} {w fuel : Nat} {l : List (Int × Nat)} {k : Nat} {s : State} (hz : Keeps ⟨φ0, true, true, φ3, φ4, φ5, φ6, true, true, true, true, φ11, φ12, φ13, φ14, φ15, true, φ17, φ18, φ19⟩ z0 s) : Keeps ⟨φ0, true, true, φ3, φ4, φ5, φ6, true, true, true, true, φ11, φ12, φ13, φ14, φ15, true, φ17, φ18, φ19⟩ z0 (writeRuns c ai b w fuel l k s).2 := by
  induction fuel generalizing l k s with
  | zero => exact hz
  | succ n ih =>
    cases l with
    | nil => exact hz
    | cons e t =>
      unfold writeRuns
      dsimp only
      split
      · exact OpCtx.wrRun_keeps hz
      · exact ih (OpCtx.wrRun_keeps hz)

theorem sendReads_keeps {c : OpCtx} {x1 : List (Nat × Nat)} {x2 : State} (hz : Keeps ⟨φ0, true, true, φ3, φ4, φ5, φ6, φ7, φ8, true, true, φ11, φ12, φ13, φ14, φ15, true, φ17, φ18, φ19⟩ z0 x2) : Keeps ⟨φ0, true, true, φ3, φ4, φ5, φ6, φ7, φ8, true, true, φ11, φ12, φ13, φ14, φ15, true, φ17, φ18, φ19⟩ z0 (sendReads c x1 x2).2 := by
  induction x1 generalizing c x2 with
  | nil =>
    unfold sendReads
    exact hz
  | cons a l ih =>
    unfold sendReads
    dsimp only
    split
    · exact ih (sendReq_keeps hz)
    · exact sendReq_keeps hz

theorem OpCtx.gather_keeps {c : OpCtx} {ais : List Nat} {s : State} (hz : Keeps ⟨φ0, true, true, φ3, φ4, φ5, φ6, φ7, φ8, true, true, φ11, φ12, φ13, φ14, φ15, true, φ17, φ18, φ19⟩ z0 s) : Keeps ⟨φ0, true, true, φ3, φ4, φ5, φ6, φ7, φ8, true, true, φ11, φ12, φ13, φ14, φ15, true, φ17, φ18, φ19⟩ z0 (OpCtx.gather c ais s).2 := by
  unfold OpCtx.gather
  dsimp only
  split
  · exact hz
  · split
    · exact hz
    · split
      · dsimp only
        exact sendReads_keeps hz
      · dsimp only
        exact sendReads_keeps hz

theorem addSem_keeps {q sem count : Nat} {other : Bool} {s : State} (hz : Keeps ⟨φ0, true, true, true, true, true, true, true, φ8, true, true, φ11, φ12, φ13, φ14, φ15, true, φ17, φ18, φ19⟩ z0 s) : Keeps ⟨φ0, true, true, true, true, true, true, true, φ8, true, true, φ11, φ12, φ13, φ14, φ15, true, φ17, φ18, φ19⟩ z0 (addSem q sem count other s) := by
  unfold addSem
  extract_lets +onlyGivenNames v0_1 v_2 n_3
  split
  · exact setQuill_keeps hz
  · exact failWith_keeps (setQuill_keeps hz)

theorem signalJob_keeps {id rank sem count : Nat} {other : Bool} {s : State} (hz : Keeps ⟨φ0, true, true, true, true, true, true, true, φ8, true, true, φ11, φ12, φ13, φ14, φ15, true, φ17, φ18, φ19⟩ z0 s) : Keeps ⟨φ0, true, true, true, true, true, true, true, φ8, true, true, φ11, φ12, φ13, φ14, φ15, true, φ17, φ18, φ19⟩ z0 (signalJob id rank sem count other s) := by
  unfold signalJob
  split
  · apply Keeps.foldl
    · exact hz
    · intro _ _ k1
      exact addSem_keeps k1
  · exact hz

theorem signalRefused_keeps {q : Nat} {s : State} (hz : Keeps ⟨φ0, true, true, true, true, true, true, true, φ8, true, true, φ11, φ12, φ13, φ14, φ15, true, φ17, φ18, φ19⟩ z0 s) : Keeps ⟨φ0, true, true, true, true, true, true, true, φ8, true, true, φ11, φ12, φ13, φ14, φ15, true, φ17, φ18, φ19⟩ z0 (signalRefused q s) := by
  unfold signalRefused
  extract_lets +onlyGivenNames v_1
  exact failWith_keeps hz

theorem deliver_keeps {q : Nat} {g : Signal} {s : State} (hz : Keeps ⟨φ0, true, true, true, true, true, true, true, φ8, true, true, φ11, φ12, φ13, φ14, φ15, true, φ17, φ18, φ19⟩ z0 s) : Keeps ⟨φ0, true, true, true, true, true, true, true, φ8, true, true, φ11, φ12, φ13, φ14, φ15, true, φ17, φ18, φ19⟩ z0 (deliver q g s) := by
  unfold deliver
  extract_lets +onlyGivenNames v_1
  split
  · exact hz
  · split
    · split
      · exact addSem_keeps hz
      · exact signalRefused_keeps hz
    · split
      · split
        · exact signalJob_keeps hz
        · exact signalRefused_keeps hz
      · extract_lets +onlyGivenNames r_2
        have k_r_2 : Keeps ⟨φ0, true, true, true, true, true, true, true, φ8, true, true, φ11, φ12, φ13, φ14, φ15, true, φ17, φ18, φ19⟩ z0 r_2.2 := sendReq_keeps hz
        clear_value r_2
        split
        · exact k_r_2
        · exact failSince_keeps k_r_2

theorem releaseSignals_keeps {q x1 : Nat} {x2 : State} (hz : Keeps ⟨φ0, true, true, true, true, true, true, true, φ8, true, true, φ11, φ12, φ13, φ14, φ15, true, φ17, φ18, φ19⟩ z0 x2) : Keeps ⟨φ0, true, true, true, true, true, true, true, φ8, true, true, φ11, φ12, φ13, φ14, φ15, true, φ17, φ18, φ19⟩ z0 (releaseSignals q x1 x2) := by
  induction x1 generalizing q x2 with
  | zero =>
    unfold releaseSignals
    exact hz
  | succ n ih =>
    unfold releaseSignals
    split
    · exact hz
    · split
      · exact ih (deliver_keeps (setQuill_keeps hz))
      · exact hz

theorem flushSignals_keeps {q : Nat} {s : State} (hz : Keeps ⟨φ0, true, true, true, true, true, true, true, φ8, true, true, φ11, φ12, φ13, φ14, φ15, true, φ17, φ18, φ19⟩ z0 s) : Keeps ⟨φ0, true, true, true, true, true, true, true, φ8, true, true, φ11, φ12, φ13, φ14, φ15, true, φ17, φ18, φ19⟩ z0 (flushSignals q s) := by
  unfold flushSignals
  exact releaseSignals_keeps hz

theorem barrierArrive_keeps {job : Nat} {copyB : Bool} {scope group q : Nat} {s : State} (hz : Keeps ⟨φ0, φ1, φ2, φ3, φ4, φ5, true, φ7, φ8, φ9, φ10, φ11, φ12, φ13, φ14, φ15, φ16, φ17, φ18, φ19⟩ z0 s) : Keeps ⟨φ0, φ1, φ2, φ3, φ4, φ5, true, φ7, φ8, φ9, φ10, φ11, φ12, φ13, φ14, φ15, φ16, φ17, φ18, φ19⟩ z0 (barrierArrive job copyB scope group q s) := by
  unfold barrierArrive
  extract_lets +onlyGivenNames same_1 now_2
  split
  · exact Keeps.of hz rfl
  · exact Keeps.of hz rfl

theorem refuseFull_keeps {q job : Nat} {s : State} (hz : Keeps ⟨φ0, true, true, φ3, φ4, φ5, φ6, φ7, φ8, true, φ10, φ11, φ12, φ13, φ14, φ15, true, φ17, φ18, φ19⟩ z0 s) : Keeps ⟨φ0, true, true, φ3, φ4, φ5, φ6, φ7, φ8, true, φ10, φ11, φ12, φ13, φ14, φ15, true, φ17, φ18, φ19⟩ z0 (refuseFull q job s) := by
  unfold refuseFull
  split
  · extract_lets +onlyGivenNames e_1
    exact raise_keeps (disarm_keeps hz)
  · exact queueFull_keeps hz

theorem pushRecord_keeps {q job dev : Nat} {bytes : List Byte} {s0 : State} (hz : Keeps ⟨φ0, true, true, true, true, true, true, true, true, true, true, φ11, φ12, φ13, φ14, φ15, true, φ17, φ18, φ19⟩ z0 s0) : Keeps ⟨φ0, true, true, true, true, true, true, true, true, true, true, φ11, φ12, φ13, φ14, φ15, true, φ17, φ18, φ19⟩ z0 (pushRecord q job dev bytes s0).2 := by
  unfold pushRecord
  dsimp only
  split
  · dsimp only
    exact reserve_keeps (qdUse_keeps hz)
  · split
    · dsimp only
      exact queueDrop_keeps (refuseFull_keeps (qdUse_keeps hz))
    · dsimp only
      exact refuseFull_keeps (qdUse_keeps hz)
  · dsimp only
    exact raise_keeps (qdUse_keeps hz)

end Sys2Proof.Machine
end

