-- ==== Sys2Proof/Laws/KeepsQuill.lean ====
section
/-! SUPPORT. Each operation keeps what Keeps names: the instructions of a Quill and its tensor operations. -/

set_option Elab.async false

namespace Sys2Proof.Machine

variable {φ0 φ1 φ2 φ3 φ4 φ5 φ6 φ7 φ8 φ9 φ10 φ11 φ12 φ13 φ14 φ15 φ16 φ17 φ18 φ19 : Bool} {z0 : State}

theorem onQuill_keeps {q : Nat} {i : QInstr} {f : JobRec → Quill → State → State} {s : State} (h_f : ∀ y0 y1 y2, Keeps ⟨φ0, φ1, φ2, φ3, φ4, φ5, φ6, φ7, φ8, φ9, φ10, φ11, φ12, φ13, φ14, φ15, φ16, φ17, φ18, φ19⟩ z0 y2 → Keeps ⟨φ0, φ1, φ2, φ3, φ4, φ5, φ6, φ7, φ8, φ9, φ10, φ11, φ12, φ13, φ14, φ15, φ16, φ17, φ18, φ19⟩ z0 (f y0 y1 y2)) (hz : Keeps ⟨φ0, φ1, φ2, φ3, φ4, φ5, φ6, φ7, φ8, φ9, φ10, φ11, φ12, φ13, φ14, φ15, φ16, φ17, φ18, φ19⟩ z0 s) : Keeps ⟨φ0, φ1, φ2, φ3, φ4, φ5, φ6, φ7, φ8, φ9, φ10, φ11, φ12, φ13, φ14, φ15, φ16, φ17, φ18, φ19⟩ z0 (onQuill q i f s) := by
  unfold onQuill
  split
  · split
    · exact h_f _ _ _ hz
    · exact hz
  · exact hz

theorem jumpTo_keeps {q : Nat} {j : JobRec} {pc : Int} {s : State} (hz : Keeps ⟨φ0, true, true, true, true, true, true, true, φ8, true, true, φ11, φ12, φ13, φ14, φ15, true, φ17, φ18, φ19⟩ z0 s) : Keeps ⟨φ0, true, true, true, true, true, true, true, φ8, true, true, φ11, φ12, φ13, φ14, φ15, true, φ17, φ18, φ19⟩ z0 (jumpTo q j pc s) := by
  unfold jumpTo
  split
  · exact hz
  · split
    · exact setQuill_keeps hz
    · exact failWith_keeps hz

theorem nextPc_keeps {q : Nat} {j : JobRec} {p : Nat} {s : State} (hz : Keeps ⟨φ0, true, true, true, true, true, true, true, φ8, true, true, φ11, φ12, φ13, φ14, φ15, true, φ17, φ18, φ19⟩ z0 s) : Keeps ⟨φ0, true, true, true, true, true, true, true, φ8, true, true, φ11, φ12, φ13, φ14, φ15, true, φ17, φ18, φ19⟩ z0 (nextPc q j p s) := by
  unfold nextPc
  extract_lets +onlyGivenNames v_1 r_2
  exact jumpTo_keeps (setQuill_keeps hz)

theorem retire_keeps {q : Nat} {j : JobRec} {v : Quill} {s : State} (hz : Keeps ⟨φ0, true, true, true, true, true, true, true, φ8, true, true, φ11, φ12, φ13, φ14, φ15, true, φ17, φ18, φ19⟩ z0 s) : Keeps ⟨φ0, true, true, true, true, true, true, true, φ8, true, true, φ11, φ12, φ13, φ14, φ15, true, φ17, φ18, φ19⟩ z0 (retire q j v s) := by
  unfold retire
  split
  · extract_lets +onlyGivenNames t_1
    have k_t_1 : Keeps ⟨φ0, true, true, true, true, true, true, true, φ8, true, true, φ11, φ12, φ13, φ14, φ15, true, φ17, φ18, φ19⟩ z0 t_1 := nextPc_keeps (setQuill_keeps hz)
    clear_value t_1
    split
    · exact setQuill_keeps k_t_1
    · exact k_t_1
  · exact nextPc_keeps (setQuill_keeps hz)

theorem block_keeps {q cause : Nat} {s : State} (hz : Keeps ⟨φ0, true, true, true, true, true, true, true, φ8, true, true, φ11, φ12, φ13, φ14, φ15, true, φ17, φ18, φ19⟩ z0 s) : Keeps ⟨φ0, true, true, true, true, true, true, true, φ8, true, true, φ11, φ12, φ13, φ14, φ15, true, φ17, φ18, φ19⟩ z0 (block q cause s) := by
  unfold block
  extract_lets +onlyGivenNames v_1
  split
  · exact setQuill_keeps hz
  · split
    · exact failWith_keeps (disarm_keeps hz)
    · exact setQuill_keeps hz

theorem setExt_keeps {q : Nat} {s : State} (hz : Keeps ⟨φ0, φ1, φ2, φ3, true, φ5, φ6, φ7, φ8, φ9, φ10, φ11, φ12, φ13, φ14, φ15, φ16, φ17, φ18, φ19⟩ z0 s) : Keeps ⟨φ0, φ1, φ2, φ3, true, φ5, φ6, φ7, φ8, φ9, φ10, φ11, φ12, φ13, φ14, φ15, φ16, φ17, φ18, φ19⟩ z0 (setExt q s) := by
  unfold setExt
  exact setQuill_keeps hz

theorem execNop_keeps {q : Nat} {s : State} (hz : Keeps ⟨φ0, true, true, true, true, true, true, true, φ8, true, true, φ11, φ12, φ13, φ14, φ15, true, φ17, φ18, φ19⟩ z0 s) : Kept ⟨φ0, true, true, true, true, true, true, true, φ8, true, true, φ11, φ12, φ13, φ14, φ15, true, φ17, φ18, φ19⟩ z0 (execNop q s) := by
  unfold execNop
  apply Kept.next
  apply onQuill_keeps
  · intro _ _ _ k1
    exact retire_keeps k1
  · exact hz

theorem execSet_keeps {q dst imm : Nat} {s : State} (hz : Keeps ⟨φ0, true, true, true, true, true, true, true, φ8, true, true, φ11, φ12, φ13, φ14, φ15, true, φ17, φ18, φ19⟩ z0 s) : Kept ⟨φ0, true, true, true, true, true, true, true, φ8, true, true, φ11, φ12, φ13, φ14, φ15, true, φ17, φ18, φ19⟩ z0 (execSet q dst imm s) := by
  unfold execSet
  apply Kept.next
  apply onQuill_keeps
  · intro _ _ _ k1
    exact retire_keeps k1
  · exact hz

theorem execAlu_keeps {q sub dst a b : Nat} {useImm : Bool} {imm : Nat} {s : State} (hz : Keeps ⟨φ0, true, true, true, true, true, true, true, φ8, true, true, φ11, φ12, φ13, φ14, φ15, true, φ17, φ18, φ19⟩ z0 s) : Kept ⟨φ0, true, true, true, true, true, true, true, φ8, true, true, φ11, φ12, φ13, φ14, φ15, true, φ17, φ18, φ19⟩ z0 (execAlu q sub dst a b useImm imm s) := by
  unfold execAlu
  apply Kept.next
  apply onQuill_keeps
  · intro _ _ _ k1
    split
    · exact retire_keeps k1
    · exact retire_keeps k1
  · exact hz

theorem execLoop_keeps {q countSc count body : Nat} {s : State} (hz : Keeps ⟨φ0, true, true, true, true, true, true, true, φ8, true, true, φ11, φ12, φ13, φ14, φ15, true, φ17, φ18, φ19⟩ z0 s) : Kept ⟨φ0, true, true, true, true, true, true, true, φ8, true, true, φ11, φ12, φ13, φ14, φ15, true, φ17, φ18, φ19⟩ z0 (execLoop q countSc count body s) := by
  unfold execLoop
  apply Kept.next
  apply onQuill_keeps
  · intro _ _ _ k1
    extract_lets +onlyGivenNames n_2
    split
    · exact nextPc_keeps k1
    · exact jumpTo_keeps (setQuill_keeps k1)
  · exact hz

theorem execBranch_keeps {q cond a b : Nat} {useImm : Bool} {imm off : Nat} {s : State} (hz : Keeps ⟨φ0, true, true, true, true, true, true, true, φ8, true, true, φ11, φ12, φ13, φ14, φ15, true, φ17, φ18, φ19⟩ z0 s) : Kept ⟨φ0, true, true, true, true, true, true, true, φ8, true, true, φ11, φ12, φ13, φ14, φ15, true, φ17, φ18, φ19⟩ z0 (execBranch q cond a b useImm imm off s) := by
  unfold execBranch
  apply Kept.next
  apply onQuill_keeps
  · intro _ _ _ k1
    split
    · split
      · exact jumpTo_keeps k1
      · exact retire_keeps k1
    · split
      · exact jumpTo_keeps k1
      · exact retire_keeps k1
  · exact hz

theorem execTop_keeps {q tod : Nat} {s : State} (hz : Keeps ⟨φ0, true, true, true, true, true, true, true, φ8, true, true, φ11, φ12, φ13, φ14, φ15, true, φ17, φ18, φ19⟩ z0 s) : Kept ⟨φ0, true, true, true, true, true, true, true, φ8, true, true, φ11, φ12, φ13, φ14, φ15, true, φ17, φ18, φ19⟩ z0 (execTop q tod s) := by
  unfold execTop
  apply Kept.next
  apply onQuill_keeps
  · intro _ _ _ k1
    split
    · exact block_keeps k1
    · extract_lets +onlyGivenNames lv_2
      split
      · exact k1
      · extract_lets +onlyGivenNames d_3
        split
        · exact block_keeps k1
        · extract_lets +onlyGivenNames o_4
          exact retire_keeps k1
  · exact hz

theorem execWaitTop_keeps {q : Nat} {s : State} (hz : Keeps ⟨φ0, true, true, true, true, true, true, true, φ8, true, true, φ11, φ12, φ13, φ14, φ15, true, φ17, φ18, φ19⟩ z0 s) : Kept ⟨φ0, true, true, true, true, true, true, true, φ8, true, true, φ11, φ12, φ13, φ14, φ15, true, φ17, φ18, φ19⟩ z0 (execWaitTop q s) := by
  unfold execWaitTop
  apply Kept.next
  apply onQuill_keeps
  · intro _ _ _ k1
    split
    · exact retire_keeps k1
    · exact block_keeps k1
  · exact hz

theorem execSemWait_keeps {q sem count : Nat} {s : State} (hz : Keeps ⟨φ0, true, true, true, true, true, true, true, φ8, true, true, φ11, φ12, φ13, φ14, φ15, true, φ17, φ18, φ19⟩ z0 s) : Kept ⟨φ0, true, true, true, true, true, true, true, φ8, true, true, φ11, φ12, φ13, φ14, φ15, true, φ17, φ18, φ19⟩ z0 (execSemWait q sem count s) := by
  unfold execSemWait
  apply Kept.next
  apply onQuill_keeps
  · intro _ _ _ k1
    extract_lets +onlyGivenNames n_2
    split
    · exact retire_keeps k1
    · exact block_keeps k1
  · exact hz

theorem execSemSignal_keeps {q sem : Nat} {remote : Bool} {count rank dev job : Nat} {s : State} (hz : Keeps ⟨φ0, true, true, true, true, true, true, true, φ8, true, true, φ11, φ12, φ13, φ14, φ15, true, φ17, φ18, φ19⟩ z0 s) : Kept ⟨φ0, true, true, true, true, true, true, true, φ8, true, true, φ11, φ12, φ13, φ14, φ15, true, φ17, φ18, φ19⟩ z0 (execSemSignal q sem remote count rank dev job s) := by
  unfold execSemSignal
  apply Kept.next
  apply onQuill_keeps
  · intro _ _ _ k1
    extract_lets +onlyGivenNames own_2 g_3
    exact flushSignals_keeps (retire_keeps k1)
  · exact hz

theorem execBarrier_keeps {q scope group : Nat} {s : State} (hz : Keeps ⟨φ0, true, true, true, true, true, true, true, φ8, true, true, φ11, φ12, φ13, φ14, φ15, true, φ17, φ18, φ19⟩ z0 s) : Kept ⟨φ0, true, true, true, true, true, true, true, φ8, true, true, φ11, φ12, φ13, φ14, φ15, true, φ17, φ18, φ19⟩ z0 (execBarrier q scope group s) := by
  unfold execBarrier
  apply Kept.next
  apply onQuill_keeps
  · intro _ _ _ k1
    split
    · exact block_keeps k1
    · extract_lets +onlyGivenNames t1_2
      have k_t1_2 : Keeps ⟨φ0, true, true, true, true, true, true, true, φ8, true, true, φ11, φ12, φ13, φ14, φ15, true, φ17, φ18, φ19⟩ z0 t1_2 := block_keeps k1
      clear_value t1_2
      split
      · exact barrierArrive_keeps (setQuill_keeps k_t1_2)
      · exact k_t1_2
  · exact hz

theorem releaseBarrier_keeps {b : BarrierInst} {release : Nat} {s : State} (hz : Keeps ⟨φ0, true, true, true, true, true, true, true, φ8, true, true, φ11, φ12, φ13, φ14, φ15, true, φ17, φ18, φ19⟩ z0 s) : Keeps ⟨φ0, true, true, true, true, true, true, true, φ8, true, true, φ11, φ12, φ13, φ14, φ15, true, φ17, φ18, φ19⟩ z0 (releaseBarrier b release s) := by
  unfold releaseBarrier
  split
  · exact hz
  · extract_lets +onlyGivenNames s1_1
    have k_s1_1 : Keeps ⟨φ0, true, true, true, true, true, true, true, φ8, true, true, φ11, φ12, φ13, φ14, φ15, true, φ17, φ18, φ19⟩ z0 s1_1 := Keeps.of hz rfl
    clear_value s1_1
    apply Keeps.foldl
    · exact k_s1_1
    · intro _ _ k2
      extract_lets +onlyGivenNames t_3
      have k_t_3 : Keeps ⟨φ0, true, true, true, true, true, true, true, φ8, true, true, φ11, φ12, φ13, φ14, φ15, true, φ17, φ18, φ19⟩ z0 t_3 := nextPc_keeps k2
      clear_value t_3
      split
      · exact setQuill_keeps k_t_3
      · exact k_t_3

theorem updGroup_keeps {g : Nat} {f : BarrierGroup → BarrierGroup} {s : State} (hz : Keeps ⟨φ0, φ1, φ2, φ3, φ4, φ5, true, φ7, φ8, φ9, φ10, φ11, φ12, φ13, φ14, φ15, φ16, φ17, φ18, φ19⟩ z0 s) : Keeps ⟨φ0, φ1, φ2, φ3, φ4, φ5, true, φ7, φ8, φ9, φ10, φ11, φ12, φ13, φ14, φ15, φ16, φ17, φ18, φ19⟩ z0 (updGroup g f s) := by
  unfold updGroup
  exact Keeps.of hz rfl

theorem rootArrival_keeps {g member : Nat} {copyB : Bool} {s : State} (hz : Keeps ⟨φ0, φ1, φ2, φ3, φ4, φ5, true, φ7, φ8, φ9, true, φ11, φ12, φ13, φ14, φ15, φ16, φ17, φ18, φ19⟩ z0 s) : Keeps ⟨φ0, φ1, φ2, φ3, φ4, φ5, true, φ7, φ8, φ9, true, φ11, φ12, φ13, φ14, φ15, φ16, φ17, φ18, φ19⟩ z0 (rootArrival g member copyB s) := by
  unfold rootArrival
  extract_lets +onlyGivenNames s1_1
  have k_s1_1 : Keeps ⟨φ0, φ1, φ2, φ3, φ4, φ5, true, φ7, φ8, φ9, true, φ11, φ12, φ13, φ14, φ15, φ16, φ17, φ18, φ19⟩ z0 s1_1 := updGroup_keeps hz
  clear_value s1_1
  split
  · exact k_s1_1
  · extract_lets +onlyGivenNames got_2
    split
    · extract_lets +onlyGivenNames R_3 s2_4
      have k_s2_4 : Keeps ⟨φ0, φ1, φ2, φ3, φ4, φ5, true, φ7, φ8, φ9, true, φ11, φ12, φ13, φ14, φ15, φ16, φ17, φ18, φ19⟩ z0 s2_4 := updGroup_keeps k_s1_1
      clear_value s2_4
      apply Keeps.foldl
      · exact k_s2_4
      · intro _ _ k5
        split
        · exact k5
        · exact sendPktOf_keeps k5
    · exact k_s1_1

theorem execLocalBarrierRelease_keeps {job : Nat} {copyB : Bool} {scope group : Nat} {s : State} (hz : Keeps ⟨φ0, true, true, true, true, true, true, true, φ8, true, true, φ11, φ12, φ13, φ14, φ15, true, φ17, φ18, φ19⟩ z0 s) : Kept ⟨φ0, true, true, true, true, true, true, true, φ8, true, true, φ11, φ12, φ13, φ14, φ15, true, φ17, φ18, φ19⟩ z0 (execLocalBarrierRelease job copyB scope group s) := by
  unfold execLocalBarrierRelease
  apply Kept.next
  split
  · exact hz
  · split
    · exact hz
    · extract_lets +onlyGivenNames s1_1
      have k_s1_1 : Keeps ⟨φ0, true, true, true, true, true, true, true, φ8, true, true, φ11, φ12, φ13, φ14, φ15, true, φ17, φ18, φ19⟩ z0 s1_1 := advanceTo_keeps hz
      clear_value s1_1
      split
      · exact releaseBarrier_keeps k_s1_1
      · split
        · exact hz
        · split
          · exact hz
          · extract_lets +onlyGivenNames s2_2
            have k_s2_2 : Keeps ⟨φ0, true, true, true, true, true, true, true, φ8, true, true, φ11, φ12, φ13, φ14, φ15, true, φ17, φ18, φ19⟩ z0 s2_2 := Keeps.of k_s1_1 rfl
            clear_value s2_2
            split
            · exact rootArrival_keeps k_s2_2
            · exact sendPktOf_keeps k_s2_2

theorem execBarrierReleaseTime_keeps {group : Nat} {copyB : Bool} {s : State} (hz : Keeps ⟨φ0, true, true, true, true, true, true, true, φ8, true, true, φ11, φ12, φ13, φ14, φ15, true, φ17, φ18, φ19⟩ z0 s) : Kept ⟨φ0, true, true, true, true, true, true, true, φ8, true, true, φ11, φ12, φ13, φ14, φ15, true, φ17, φ18, φ19⟩ z0 (execBarrierReleaseTime group copyB s) := by
  unfold execBarrierReleaseTime
  apply Kept.next
  split
  · exact hz
  · split
    · exact hz
    · extract_lets +onlyGivenNames s1_1 s2_2
      have k_s1_1 : Keeps ⟨φ0, true, true, true, true, true, true, true, φ8, true, true, φ11, φ12, φ13, φ14, φ15, true, φ17, φ18, φ19⟩ z0 s1_1 := advanceToRing_keeps hz
      have k_s2_2 : Keeps ⟨φ0, true, true, true, true, true, true, true, φ8, true, true, φ11, φ12, φ13, φ14, φ15, true, φ17, φ18, φ19⟩ z0 s2_2 := updGroup_keeps k_s1_1
      clear_value s1_1 s2_2
      apply Keeps.foldl
      · exact k_s2_2
      · intro _ _ k3
        exact releaseBarrier_keeps k3

theorem execDma_keeps {q ch : Nat} {noFail notify : Bool} {statusSc src dst queue : Nat} {s : State} (hz : Keeps ⟨φ0, true, true, true, true, true, true, true, φ8, true, true, φ11, φ12, φ13, φ14, φ15, true, φ17, φ18, φ19⟩ z0 s) : Kept ⟨φ0, true, true, true, true, true, true, true, φ8, true, true, φ11, φ12, φ13, φ14, φ15, true, φ17, φ18, φ19⟩ z0 (execDma q ch noFail notify statusSc src dst queue s) := by
  unfold execDma
  apply Kept.next
  apply onQuill_keeps
  · intro _ _ _ k1
    extract_lets +onlyGivenNames k_2 lv_3
    split
    · exact k1
    · split
      · exact block_keeps k1
      · extract_lets +onlyGivenNames h_4 r_5
        exact chanBusy_keeps (retire_keeps (setChan_keeps (forgetPartials_keeps k1)))
  · exact hz

theorem execDmaWait_keeps {q mask : Nat} {s : State} (hz : Keeps ⟨φ0, true, true, true, true, true, true, true, φ8, true, true, φ11, φ12, φ13, φ14, φ15, true, φ17, φ18, φ19⟩ z0 s) : Kept ⟨φ0, true, true, true, true, true, true, true, φ8, true, true, φ11, φ12, φ13, φ14, φ15, true, φ17, φ18, φ19⟩ z0 (execDmaWait q mask s) := by
  unfold execDmaWait
  apply Kept.next
  apply onQuill_keeps
  · intro _ _ _ k1
    split
    · exact retire_keeps k1
    · exact block_keeps k1
  · exact hz

theorem dmaCopy_keeps {c : OpCtx} {si di : Nat} {a b : Agp} {x y : Binding} {x1 x2 : Nat} {x3 : State} (hz : Keeps ⟨φ0, true, true, φ3, φ4, φ5, φ6, true, true, true, true, φ11, φ12, φ13, φ14, φ15, true, φ17, φ18, φ19⟩ z0 x3) : Keeps ⟨φ0, true, true, φ3, φ4, φ5, φ6, true, true, true, true, φ11, φ12, φ13, φ14, φ15, true, φ17, φ18, φ19⟩ z0 (dmaCopy c si di a b x y x1 x2 x3).2 := by
  induction x1 generalizing c si di a b x y x2 x3 with
  | zero =>
    unfold dmaCopy
    exact hz
  | succ n ih =>
    unfold dmaCopy
    split
    · exact hz
    · dsimp only
      split
      · split
        · split
          · dsimp only
            split
            · exact raise_keeps (OpCtx.rdRun_keeps (disarm_keeps hz))
            · exact OpCtx.rdRun_keeps (disarm_keeps hz)
          · split
            · dsimp only
              exact OpCtx.wrRun_keeps (OpCtx.rdRun_keeps (disarm_keeps hz))
            · exact ih (OpCtx.wrRun_keeps (OpCtx.rdRun_keeps (disarm_keeps hz)))
        · split
          · dsimp only
            split
            · exact raise_keeps (OpCtx.rdRun_keeps (disarm_keeps hz))
            · exact OpCtx.rdRun_keeps (disarm_keeps hz)
          · split
            · dsimp only
              exact OpCtx.wrRun_keeps (OpCtx.rdRun_keeps (disarm_keeps hz))
            · exact ih (OpCtx.wrRun_keeps (OpCtx.rdRun_keeps (disarm_keeps hz)))
      · split
        · split
          · dsimp only
            split
            · exact raise_keeps (OpCtx.rdRun_keeps hz)
            · exact OpCtx.rdRun_keeps hz
          · split
            · dsimp only
              exact OpCtx.wrRun_keeps (OpCtx.rdRun_keeps hz)
            · exact ih (OpCtx.wrRun_keeps (OpCtx.rdRun_keeps hz))
        · split
          · dsimp only
            split
            · exact raise_keeps (OpCtx.rdRun_keeps hz)
            · exact OpCtx.rdRun_keeps hz
          · split
            · dsimp only
              exact OpCtx.wrRun_keeps (OpCtx.rdRun_keeps hz)
            · exact ih (OpCtx.wrRun_keeps (OpCtx.rdRun_keeps hz))

theorem dmaEnd_keeps {k : Nat} {r : DmaReq} {status cause bytes evSeq : Nat} {s : State} (hz : Keeps ⟨φ0, true, true, true, true, true, true, true, φ8, true, true, φ11, φ12, φ13, φ14, φ15, true, φ17, φ18, φ19⟩ z0 s) : Keeps ⟨φ0, true, true, true, true, true, true, true, φ8, true, true, φ11, φ12, φ13, φ14, φ15, true, φ17, φ18, φ19⟩ z0 (dmaEnd k r status cause bytes evSeq s) := by
  unfold dmaEnd
  extract_lets +onlyGivenNames ch_1 s1_2 s2_3
  have k_s1_2 : Keeps ⟨φ0, true, true, true, true, true, true, true, φ8, true, true, φ11, φ12, φ13, φ14, φ15, true, φ17, φ18, φ19⟩ z0 s1_2 := chanBusy_keeps (setChan_keeps hz)
  have k_s2_3 : Keeps ⟨φ0, true, true, true, true, true, true, true, φ8, true, true, φ11, φ12, φ13, φ14, φ15, true, φ17, φ18, φ19⟩ z0 s2_3 := flushSignals_keeps (dmaFinish_keeps (dropUse_keeps k_s1_2))
  clear_value s1_2 s2_3
  split
  · exact stopJob_keeps k_s2_3
  · exact k_s2_3

theorem execDmaComplete_keeps {k : Nat} {s : State} (hz : Keeps ⟨φ0, true, true, true, true, true, true, true, true, true, true, φ11, φ12, φ13, φ14, φ15, true, φ17, φ18, φ19⟩ z0 s) : Kept ⟨φ0, true, true, true, true, true, true, true, true, true, true, φ11, φ12, φ13, φ14, φ15, true, φ17, φ18, φ19⟩ z0 (execDmaComplete k s) := by
  unfold execDmaComplete
  apply Kept.next
  split
  · exact hz
  · split
    · exact hz
    · split
      · exact hz
      · extract_lets +onlyGivenNames c_1 a_2 b_3 x_4 y_5
        split
        · exact hz
        · split
          · split
            · exact hz
            · split
              · exact dmaEnd_keeps hz
              · exact dmaEnd_keeps hz
          · extract_lets +onlyGivenNames g_6
            have k_g_6 : Keeps ⟨φ0, true, true, true, true, true, true, true, true, true, true, φ11, φ12, φ13, φ14, φ15, true, φ17, φ18, φ19⟩ z0 g_6.2 := OpCtx.gather_keeps hz
            clear_value g_6
            split
            · exact k_g_6
            · extract_lets +onlyGivenNames m_7 bytes_8 far_9 ev_10
              have k_m_7 : Keeps ⟨φ0, true, true, true, true, true, true, true, true, true, true, φ11, φ12, φ13, φ14, φ15, true, φ17, φ18, φ19⟩ z0 m_7.2 := dmaCopy_keeps k_g_6
              clear_value m_7
              split
              · exact failSince_keeps k_m_7
              · split
                · extract_lets +onlyGivenNames e_11 ch_12
                  exact setChan_keeps k_m_7
                · exact dmaEnd_keeps k_m_7
            · exact dmaEnd_keeps k_g_6

theorem atomicEnd_keeps {q : Nat} {j : JobRec} {noFail : Bool} {statusSc dst status old evSeq : Nat} {s : State} (hz : Keeps ⟨φ0, true, true, true, true, true, true, true, φ8, true, true, φ11, φ12, φ13, φ14, φ15, true, φ17, φ18, φ19⟩ z0 s) : Keeps ⟨φ0, true, true, true, true, true, true, true, φ8, true, true, φ11, φ12, φ13, φ14, φ15, true, φ17, φ18, φ19⟩ z0 (atomicEnd q j noFail statusSc dst status old evSeq s) := by
  unfold atomicEnd
  extract_lets +onlyGivenNames v_1 v1_2
  split
  · exact stopJob_keeps (setQuill_keeps hz)
  · exact retire_keeps hz

theorem execAtomic_keeps {q op : Nat} {noFail : Bool} {statusSc dst val cmp agp : Nat} {s : State} (hz : Keeps ⟨φ0, true, true, true, true, true, true, true, true, true, true, φ11, φ12, φ13, φ14, φ15, true, φ17, φ18, φ19⟩ z0 s) : Kept ⟨φ0, true, true, true, true, true, true, true, true, true, true, φ11, φ12, φ13, φ14, φ15, true, φ17, φ18, φ19⟩ z0 (execAtomic q op noFail statusSc dst val cmp agp s) := by
  unfold execAtomic
  apply Kept.next
  apply onQuill_keeps
  · intro _ _ _ k1
    extract_lets +onlyGivenNames u_2
    split
    · exact block_keeps k1
    · split
      · exact atomicEnd_keeps k1
      · extract_lets +onlyGivenNames lv_3
        split
        · exact k1
        · extract_lets +onlyGivenNames a_4 b_5 off_6 p_7
          split
          · exact block_keeps k1
          · extract_lets +onlyGivenNames k_8
            have k_k_8 : Keeps ⟨φ0, true, true, true, true, true, true, true, true, true, true, φ11, φ12, φ13, φ14, φ15, true, φ17, φ18, φ19⟩ z0 k_8.2 := OpCtx.check_keeps k1
            clear_value k_8
            split
            · exact failSince_keeps k_k_8
            · split
              · extract_lets +onlyGivenNames r_9
                have k_r_9 : Keeps ⟨φ0, true, true, true, true, true, true, true, true, true, true, φ11, φ12, φ13, φ14, φ15, true, φ17, φ18, φ19⟩ z0 r_9.2 := sendReq_keeps k_k_8
                clear_value r_9
                split
                · exact block_keeps k_r_9
                · exact atomicEnd_keeps k_r_9
              · extract_lets +onlyGivenNames addr_10 old_11 new_12 r_13
                have k_r_13 : Keeps ⟨φ0, true, true, true, true, true, true, true, true, true, true, φ11, φ12, φ13, φ14, φ15, true, φ17, φ18, φ19⟩ z0 r_13.2 := access_keeps k_k_8
                clear_value r_13
                exact atomicEnd_keeps k_r_13
  · exact hz

theorem readElems_keeps {c : OpCtx} {ai : Nat} {a : Agp} {b : Binding} {k n : Nat} {s : State} (hz : Keeps ⟨φ0, true, true, φ3, φ4, φ5, φ6, true, true, true, true, φ11, φ12, φ13, φ14, φ15, true, φ17, φ18, φ19⟩ z0 s) : Keeps ⟨φ0, true, true, φ3, φ4, φ5, φ6, true, true, true, true, φ11, φ12, φ13, φ14, φ15, true, φ17, φ18, φ19⟩ z0 (readElems c ai a b k n s).2 := by
  unfold readElems
  exact readRuns_keeps hz

theorem unwaitPush_keeps {q : Nat} {s : State} (hz : Keeps ⟨φ0, φ1, true, φ3, φ4, φ5, φ6, φ7, φ8, φ9, φ10, φ11, φ12, φ13, φ14, φ15, φ16, φ17, φ18, φ19⟩ z0 s) : Keeps ⟨φ0, φ1, true, φ3, φ4, φ5, φ6, φ7, φ8, φ9, φ10, φ11, φ12, φ13, φ14, φ15, φ16, φ17, φ18, φ19⟩ z0 (unwaitPush q s) := by
  unfold unwaitPush
  exact Keeps.of hz rfl

theorem twinDeliver_keeps {job : Nat} {bytes : List Byte} {s : State} (hz : Keeps ⟨φ0, φ1, φ2, φ3, φ4, φ5, φ6, φ7, φ8, true, φ10, φ11, φ12, φ13, φ14, φ15, φ16, φ17, φ18, φ19⟩ z0 s) : Keeps ⟨φ0, φ1, φ2, φ3, φ4, φ5, φ6, φ7, φ8, true, φ10, φ11, φ12, φ13, φ14, φ15, φ16, φ17, φ18, φ19⟩ z0 (twinDeliver job bytes s) := by
  unfold twinDeliver
  exact Keeps.of hz rfl

theorem queueEnd_keeps {q : Nat} {j : JobRec} {statusSc st len evSeq : Nat} {s : State} (hz : Keeps ⟨φ0, true, true, true, true, true, true, true, φ8, true, true, φ11, φ12, φ13, φ14, φ15, true, φ17, φ18, φ19⟩ z0 s) : Keeps ⟨φ0, true, true, true, true, true, true, true, φ8, true, true, φ11, φ12, φ13, φ14, φ15, true, φ17, φ18, φ19⟩ z0 (queueEnd q j statusSc st len evSeq s) := by
  unfold queueEnd
  extract_lets +onlyGivenNames v_1
  split
  · exact stopJob_keeps (setQuill_keeps hz)
  · exact retire_keeps hz

theorem execQpush_keeps {q : Nat} {blocking : Bool} {statusSc src queue : Nat} {s : State} (hz : Keeps ⟨φ0, true, true, true, true, true, true, true, true, true, true, φ11, φ12, φ13, φ14, φ15, true, φ17, φ18, φ19⟩ z0 s) : Kept ⟨φ0, true, true, true, true, true, true, true, true, true, true, φ11, φ12, φ13, φ14, φ15, true, φ17, φ18, φ19⟩ z0 (execQpush q blocking statusSc src queue s) := by
  unfold execQpush
  apply Kept.next
  apply onQuill_keeps
  · intro _ _ _ k1
    extract_lets +onlyGivenNames lv_2
    split
    · exact k1
    · extract_lets +onlyGivenNames a_3 b_4
      split
      · exact block_keeps k1
      · split
        · apply block_keeps
          apply setExt_keeps
          split
          · exact k1
          · exact Keeps.of k1 rfl
        · extract_lets +onlyGivenNames g_5
          have k_g_5 : Keeps ⟨φ0, true, true, true, true, true, true, true, true, true, true, φ11, φ12, φ13, φ14, φ15, true, φ17, φ18, φ19⟩ z0 g_5.2 := OpCtx.gather_keeps k1
          clear_value g_5
          split
          · exact block_keeps k_g_5
          · extract_lets +onlyGivenNames r_6
            have k_r_6 : Keeps ⟨φ0, true, true, true, true, true, true, true, true, true, true, φ11, φ12, φ13, φ14, φ15, true, φ17, φ18, φ19⟩ z0 r_6.2 := readElems_keeps k_g_5
            clear_value r_6
            split
            · exact failSince_keeps k_r_6
            · extract_lets +onlyGivenNames rec0_7 done_8
              have k_done_8 : Keeps ⟨φ0, true, true, true, true, true, true, true, true, true, true, φ11, φ12, φ13, φ14, φ15, true, φ17, φ18, φ19⟩ z0 done_8 := dropBufs_keeps k_r_6
              clear_value done_8
              split
              · exact queueEnd_keeps (twinDeliver_keeps k_done_8)
              · extract_lets +onlyGivenNames p_9
                have k_p_9 : Keeps ⟨φ0, true, true, true, true, true, true, true, true, true, true, φ11, φ12, φ13, φ14, φ15, true, φ17, φ18, φ19⟩ z0 p_9.2 := pushRecord_keeps k_done_8
                clear_value p_9
                split
                · apply block_keeps
                  apply setExt_keeps
                  split
                  · exact k_p_9
                  · extract_lets +onlyGivenNames __src_10
                    have k___src_10 : Keeps ⟨φ0, true, true, true, true, true, true, true, true, true, true, φ11, φ12, φ13, φ14, φ15, true, φ17, φ18, φ19⟩ z0 __src_10 := k_p_9
                    clear_value __src_10
                    exact Keeps.of k___src_10 rfl
                · exact queueEnd_keeps (unwaitPush_keeps k_p_9)
          · exact failSince_keeps k_g_5
  · exact hz

theorem popWrite_keeps {c : OpCtx} {ai : Nat} {a : Agp} {b : Binding} {l : List Byte} {s : State} (hz : Keeps ⟨φ0, true, true, φ3, φ4, φ5, φ6, true, true, true, true, φ11, φ12, φ13, φ14, φ15, true, φ17, φ18, φ19⟩ z0 s) : Keeps ⟨φ0, true, true, φ3, φ4, φ5, φ6, true, true, true, true, φ11, φ12, φ13, φ14, φ15, true, φ17, φ18, φ19⟩ z0 (popWrite c ai a b l s).2 := by
  unfold popWrite
  dsimp only
  split
  · exact writeRuns_keeps hz
  · exact OpCtx.wrRaw_keeps (writeRuns_keeps hz)

theorem waitPop_keeps {queue q : Nat} {s : State} (hz : Keeps ⟨φ0, true, true, true, true, true, true, true, φ8, true, true, φ11, φ12, φ13, φ14, φ15, true, φ17, φ18, φ19⟩ z0 s) : Keeps ⟨φ0, true, true, true, true, true, true, true, φ8, true, true, φ11, φ12, φ13, φ14, φ15, true, φ17, φ18, φ19⟩ z0 (waitPop queue q s) := by
  unfold waitPop
  apply block_keeps
  apply setExt_keeps
  split
  · exact hz
  · exact Keeps.of hz rfl

theorem execQpop_keeps {q : Nat} {blocking : Bool} {statusSc dst queue : Nat} {s : State} (hz : Keeps ⟨φ0, true, true, true, true, true, true, true, true, true, true, φ11, φ12, φ13, true, φ15, true, φ17, φ18, φ19⟩ z0 s) : Kept ⟨φ0, true, true, true, true, true, true, true, true, true, true, φ11, φ12, φ13, true, φ15, true, φ17, φ18, φ19⟩ z0 (execQpop q blocking statusSc dst queue s) := by
  unfold execQpop
  apply Kept.next
  apply onQuill_keeps
  · intro _ _ _ k1
    split
    · exact k1
    · extract_lets +onlyGivenNames lv_2
      split
      · exact k1
      · extract_lets +onlyGivenNames a_3 b_4
        split
        · exact block_keeps k1
        · extract_lets +onlyGivenNames t1_5 st_6
          have k_t1_5 : Keeps ⟨φ0, true, true, true, true, true, true, true, true, true, true, φ11, φ12, φ13, true, φ15, true, φ17, φ18, φ19⟩ z0 t1_5 := qdUse_keeps k1
          clear_value t1_5
          split
          · split
            · exact waitPop_keeps k_t1_5
            · exact queueEnd_keeps k_t1_5
          · extract_lets +onlyGivenNames g_7
            have k_g_7 : Keeps ⟨φ0, true, true, true, true, true, true, true, true, true, true, φ11, φ12, φ13, true, φ15, true, φ17, φ18, φ19⟩ z0 g_7.2 := OpCtx.gather_keeps k_t1_5
            clear_value g_7
            split
            · exact block_keeps k_g_7
            · extract_lets +onlyGivenNames d_8 m_9
              have k_m_9 : Keeps ⟨φ0, true, true, true, true, true, true, true, true, true, true, φ11, φ12, φ13, true, φ15, true, φ17, φ18, φ19⟩ z0 m_9.2 := mcReadBlocks_keeps k_g_7
              clear_value m_9
              split
              · exact failSince_keeps k_m_9
              · extract_lets +onlyGivenNames bytes_10 s1_11 w_12
                have k_s1_11 : Keeps ⟨φ0, true, true, true, true, true, true, true, true, true, true, φ11, φ12, φ13, true, φ15, true, φ17, φ18, φ19⟩ z0 s1_11 := advanceRd_keeps (forgetPartials_keeps k_m_9)
                have k_w_12 : Keeps ⟨φ0, true, true, true, true, true, true, true, true, true, true, φ11, φ12, φ13, true, φ15, true, φ17, φ18, φ19⟩ z0 w_12.2 := popWrite_keeps k_s1_11
                clear_value s1_11 w_12
                split
                · exact failSince_keeps k_w_12
                · exact queueEnd_keeps (dropBufs_keeps k_w_12)
            · exact failSince_keeps k_g_7
          · extract_lets +onlyGivenNames s1_13
            have k_s1_13 : Keeps ⟨φ0, true, true, true, true, true, true, true, true, true, true, φ11, φ12, φ13, true, φ15, true, φ17, φ18, φ19⟩ z0 s1_13 := raise_keeps k_t1_5
            clear_value s1_13
            exact queueEnd_keeps k_s1_13
  · exact hz

theorem execTrap_keeps {q code : Nat} {s : State} (hz : Keeps ⟨φ0, true, true, true, true, true, true, true, φ8, true, true, φ11, φ12, φ13, φ14, φ15, true, φ17, φ18, φ19⟩ z0 s) : Kept ⟨φ0, true, true, true, true, true, true, true, φ8, true, true, φ11, φ12, φ13, φ14, φ15, true, φ17, φ18, φ19⟩ z0 (execTrap q code s) := by
  unfold execTrap
  apply Kept.next
  apply onQuill_keeps
  · intro _ _ _ k1
    exact failWith_keeps k1
  · exact hz

theorem copyEnded_keeps {j : JobRec} {b : Bool} {s : State} (hz : Keeps ⟨φ0, φ1, φ2, true, φ4, φ5, φ6, φ7, φ8, φ9, φ10, φ11, φ12, φ13, φ14, φ15, φ16, φ17, φ18, φ19⟩ z0 s) : Keeps ⟨φ0, φ1, φ2, true, φ4, φ5, φ6, φ7, φ8, φ9, φ10, φ11, φ12, φ13, φ14, φ15, φ16, φ17, φ18, φ19⟩ z0 (copyEnded j b s) := by
  unfold copyEnded
  split
  · exact updJob_keeps hz
  · exact hz

theorem execEnd_keeps {q : Nat} {s : State} (hz : Keeps ⟨φ0, φ1, φ2, true, true, φ5, φ6, φ7, φ8, φ9, φ10, φ11, φ12, φ13, φ14, φ15, φ16, φ17, φ18, φ19⟩ z0 s) : Kept ⟨φ0, φ1, φ2, true, true, φ5, φ6, φ7, φ8, φ9, φ10, φ11, φ12, φ13, φ14, φ15, φ16, φ17, φ18, φ19⟩ z0 (execEnd q s) := by
  unfold execEnd
  apply Kept.next
  apply onQuill_keeps
  · intro _ _ _ k1
    exact copyEnded_keeps (setQuill_keeps k1)
  · exact hz

theorem execSemTimeout_keeps {q : Nat} {s : State} (hz : Keeps ⟨φ0, true, true, true, true, true, true, true, φ8, true, true, φ11, φ12, φ13, φ14, φ15, true, φ17, φ18, φ19⟩ z0 s) : Kept ⟨φ0, true, true, true, true, true, true, true, φ8, true, true, φ11, φ12, φ13, φ14, φ15, true, φ17, φ18, φ19⟩ z0 (execSemTimeout q s) := by
  unfold execSemTimeout
  apply Kept.next
  extract_lets +onlyGivenNames v_1
  split
  · exact hz
  · extract_lets +onlyGivenNames s1_2
    have k_s1_2 : Keeps ⟨φ0, true, true, true, true, true, true, true, φ8, true, true, φ11, φ12, φ13, φ14, φ15, true, φ17, φ18, φ19⟩ z0 s1_2 := advanceTo_keeps hz
    clear_value s1_2
    exact failWith_keeps k_s1_2

theorem opRead_keeps {c : OpCtx} {a n : Nat} {s : State} (hz : Keeps ⟨φ0, true, true, φ3, φ4, φ5, φ6, true, true, true, true, φ11, φ12, φ13, φ14, φ15, true, φ17, φ18, φ19⟩ z0 s) : Keeps ⟨φ0, true, true, φ3, φ4, φ5, φ6, true, true, true, true, φ11, φ12, φ13, φ14, φ15, true, φ17, φ18, φ19⟩ z0 (opRead c a n s).2 := by
  unfold opRead
  dsimp only
  exact access_keeps hz

theorem readScaleDesc_keeps {c : OpCtx} {b : Binding} {s : State} (hz : Keeps ⟨φ0, true, true, φ3, φ4, φ5, φ6, true, true, true, true, φ11, φ12, φ13, φ14, φ15, true, φ17, φ18, φ19⟩ z0 s) : Keeps ⟨φ0, true, true, φ3, φ4, φ5, φ6, true, true, true, true, φ11, φ12, φ13, φ14, φ15, true, φ17, φ18, φ19⟩ z0 (readScaleDesc c b s).2 := by
  unfold readScaleDesc
  split
  · exact hz
  · split
    · dsimp only
      exact Keeps.of_pair (opRead_keeps hz) (by with_reducible assumption)
    · dsimp only
      exact Keeps.of_pair (opRead_keeps hz) (by with_reducible assumption)

theorem readBlocks_keeps {c : OpCtx} {d : ScaleDesc} {x1 : List (Nat × Nat)} {x2 : State} (hz : Keeps ⟨φ0, true, true, φ3, φ4, φ5, φ6, true, true, true, true, φ11, φ12, φ13, φ14, φ15, true, φ17, φ18, φ19⟩ z0 x2) : Keeps ⟨φ0, true, true, φ3, φ4, φ5, φ6, true, true, true, true, φ11, φ12, φ13, φ14, φ15, true, φ17, φ18, φ19⟩ z0 (readBlocks c d x1 x2).2 := by
  induction x1 generalizing c d x2 with
  | nil =>
    unfold readBlocks
    exact hz
  | cons a l ih =>
    unfold readBlocks
    split
    · dsimp only
      exact Keeps.of_pair (opRead_keeps hz) (by with_reducible assumption)
    · split
      · dsimp only
        exact Keeps.of_pair (ih (Keeps.of_pair (opRead_keeps hz) (by with_reducible assumption))) (by with_reducible assumption)
      · dsimp only
        exact Keeps.of_pair (ih (Keeps.of_pair (opRead_keeps hz) (by with_reducible assumption))) (by with_reducible assumption)

theorem readOutliers_keeps {c : OpCtx} {d : ScaleDesc} {s : State} (hz : Keeps ⟨φ0, true, true, φ3, φ4, φ5, φ6, true, true, true, true, φ11, φ12, φ13, φ14, φ15, true, φ17, φ18, φ19⟩ z0 s) : Keeps ⟨φ0, true, true, φ3, φ4, φ5, φ6, true, true, true, true, φ11, φ12, φ13, φ14, φ15, true, φ17, φ18, φ19⟩ z0 (readOutliers c d s).2 := by
  unfold readOutliers
  split
  · exact hz
  · split
    · dsimp only
      exact Keeps.of_pair (opRead_keeps hz) (by with_reducible assumption)
    · dsimp only
      exact Keeps.of_pair (opRead_keeps hz) (by with_reducible assumption)

theorem readOutVals_keeps {c : OpCtx} {d : ScaleDesc} {x1 : List Nat} {x2 : State} (hz : Keeps ⟨φ0, true, true, φ3, φ4, φ5, φ6, true, true, true, true, φ11, φ12, φ13, φ14, φ15, true, φ17, φ18, φ19⟩ z0 x2) : Keeps ⟨φ0, true, true, φ3, φ4, φ5, φ6, true, true, true, true, φ11, φ12, φ13, φ14, φ15, true, φ17, φ18, φ19⟩ z0 (readOutVals c d x1 x2).2 := by
  induction x1 generalizing c d x2 with
  | nil =>
    unfold readOutVals
    exact hz
  | cons a l ih =>
    unfold readOutVals
    split
    · dsimp only
      exact Keeps.of_pair (opRead_keeps hz) (by with_reducible assumption)
    · split
      · dsimp only
        exact Keeps.of_pair (ih (Keeps.of_pair (opRead_keeps hz) (by with_reducible assumption))) (by with_reducible assumption)
      · dsimp only
        exact Keeps.of_pair (ih (Keeps.of_pair (opRead_keeps hz) (by with_reducible assumption))) (by with_reducible assumption)

theorem readStreams_keeps {c : OpCtx} {o : OpRun} {da db : ScaleDesc} {steps : List (List TagCheck)} {s : State} (hz : Keeps ⟨φ0, true, true, true, true, true, true, true, true, true, true, φ11, φ12, φ13, φ14, φ15, true, φ17, φ18, φ19⟩ z0 s) : Keeps ⟨φ0, true, true, true, true, true, true, true, true, true, true, φ11, φ12, φ13, φ14, φ15, true, φ17, φ18, φ19⟩ z0 (readStreams c o da db steps s).2 := by
  unfold readStreams
  split
  · dsimp only
    exact failSince_keeps (Keeps.of_pair (readBlocks_keeps hz) (by with_reducible assumption))
  · split
    · dsimp only
      exact failSince_keeps (Keeps.of_pair (readBlocks_keeps (Keeps.of_pair (readBlocks_keeps hz) (by with_reducible assumption))) (by with_reducible assumption))
    · dsimp only
      split
      · dsimp only
        apply failWith_keeps
        split
        · exact disarm_keeps (Keeps.of_pair (readBlocks_keeps (Keeps.of_pair (readBlocks_keeps hz) (by with_reducible assumption))) (by with_reducible assumption))
        · exact Keeps.of_pair (readBlocks_keeps (Keeps.of_pair (readBlocks_keeps hz) (by with_reducible assumption))) (by with_reducible assumption)
      · dsimp only
        split
        · exact disarm_keeps (Keeps.of_pair (readBlocks_keeps (Keeps.of_pair (readBlocks_keeps hz) (by with_reducible assumption))) (by with_reducible assumption))
        · exact Keeps.of_pair (readBlocks_keeps (Keeps.of_pair (readBlocks_keeps hz) (by with_reducible assumption))) (by with_reducible assumption)

theorem readAt_keeps {c : OpCtx} {ai : Nat} {a : Agp} {b : Binding} {l : List Nat} {s : State} (hz : Keeps ⟨φ0, true, true, φ3, φ4, φ5, φ6, true, true, true, true, φ11, φ12, φ13, φ14, φ15, true, φ17, φ18, φ19⟩ z0 s) : Keeps ⟨φ0, true, true, φ3, φ4, φ5, φ6, true, true, true, true, φ11, φ12, φ13, φ14, φ15, true, φ17, φ18, φ19⟩ z0 (readAt c ai a b l s).2 := by
  unfold readAt
  dsimp only
  exact readRuns_keeps hz

theorem readWords_keeps {c : OpCtx} {ai : Nat} {a : Agp} {b : Binding} {w : Nat} {l : List Nat} {s : State} (hz : Keeps ⟨φ0, true, true, φ3, φ4, φ5, φ6, true, true, true, true, φ11, φ12, φ13, φ14, φ15, true, φ17, φ18, φ19⟩ z0 s) : Keeps ⟨φ0, true, true, φ3, φ4, φ5, φ6, true, true, true, true, φ11, φ12, φ13, φ14, φ15, true, φ17, φ18, φ19⟩ z0 (readWords c ai a b w l s).2 := by
  unfold readWords
  dsimp only
  exact readRuns_keeps hz

theorem updOp_keeps {q issue : Nat} {f : OpRun → OpRun} {s : State} (hz : Keeps ⟨φ0, φ1, φ2, φ3, true, φ5, φ6, φ7, φ8, φ9, φ10, φ11, φ12, φ13, φ14, φ15, φ16, φ17, φ18, φ19⟩ z0 s) : Keeps ⟨φ0, φ1, φ2, φ3, true, φ5, φ6, φ7, φ8, φ9, φ10, φ11, φ12, φ13, φ14, φ15, φ16, φ17, φ18, φ19⟩ z0 (updOp q issue f s) := by
  unfold updOp
  extract_lets +onlyGivenNames v_1
  exact setQuill_keeps hz

theorem opDone_keeps {q issue : Nat} {s : State} (hz : Keeps ⟨φ0, true, true, true, true, true, true, true, φ8, true, true, φ11, φ12, φ13, φ14, φ15, true, φ17, φ18, φ19⟩ z0 s) : Keeps ⟨φ0, true, true, true, true, true, true, true, φ8, true, true, φ11, φ12, φ13, φ14, φ15, true, φ17, φ18, φ19⟩ z0 (opDone q issue s) := by
  unfold opDone
  split
  · exact updOp_keeps hz
  · extract_lets +onlyGivenNames v_1
    exact flushSignals_keeps (dropUse_keeps (setQuill_keeps hz))

theorem onOp_keeps {q kind : Nat} {f : OpCtx → OpRun → State → State} {s : State} (h_f : ∀ y0 y1 y2, Keeps ⟨φ0, φ1, φ2, φ3, φ4, φ5, φ6, φ7, φ8, φ9, φ10, φ11, φ12, φ13, φ14, φ15, φ16, φ17, φ18, φ19⟩ z0 y2 → Keeps ⟨φ0, φ1, φ2, φ3, φ4, φ5, φ6, φ7, φ8, φ9, φ10, φ11, φ12, φ13, φ14, φ15, φ16, φ17, φ18, φ19⟩ z0 (f y0 y1 y2)) (hz : Keeps ⟨φ0, φ1, φ2, φ3, φ4, φ5, φ6, φ7, φ8, φ9, φ10, φ11, φ12, φ13, φ14, φ15, φ16, φ17, φ18, φ19⟩ z0 s) : Keeps ⟨φ0, φ1, φ2, φ3, φ4, φ5, φ6, φ7, φ8, φ9, φ10, φ11, φ12, φ13, φ14, φ15, φ16, φ17, φ18, φ19⟩ z0 (onOp q kind f s) := by
  unfold onOp
  split
  · split
    · split
      · exact h_f _ _ _ hz
      · exact hz
    · exact hz
  · exact hz

theorem holdResults_keeps {c : OpCtx} {o : OpRun} {w : MatWork} {s : State} (hz : Keeps ⟨φ0, φ1, φ2, true, true, φ5, φ6, φ7, φ8, φ9, φ10, φ11, φ12, φ13, φ14, φ15, φ16, φ17, φ18, φ19⟩ z0 s) : Keeps ⟨φ0, φ1, φ2, true, true, φ5, φ6, φ7, φ8, φ9, φ10, φ11, φ12, φ13, φ14, φ15, φ16, φ17, φ18, φ19⟩ z0 (holdResults c o w s) := by
  unfold holdResults
  extract_lets +onlyGivenNames nan_1 force_2 s1_3 s2_4 r_5 macs_6 s3_7 v_8
  have k_s1_3 : Keeps ⟨φ0, φ1, φ2, true, true, φ5, φ6, φ7, φ8, φ9, φ10, φ11, φ12, φ13, φ14, φ15, φ16, φ17, φ18, φ19⟩ z0 s1_3 := by
    subst s1_3
    split
    · exact disarm_keeps hz
    · exact hz
  have k_s2_4 : Keeps ⟨φ0, φ1, φ2, true, true, φ5, φ6, φ7, φ8, φ9, φ10, φ11, φ12, φ13, φ14, φ15, φ16, φ17, φ18, φ19⟩ z0 s2_4 := by
    subst s2_4
    split
    · exact disarm_keeps k_s1_3
    · exact k_s1_3
  have k_s3_7 : Keeps ⟨φ0, φ1, φ2, true, true, φ5, φ6, φ7, φ8, φ9, φ10, φ11, φ12, φ13, φ14, φ15, φ16, φ17, φ18, φ19⟩ z0 s3_7 := noteAct_keeps (addCtr_keeps (orNumeric_keeps k_s2_4))
  clear_value s1_3 s2_4 s3_7
  exact updOp_keeps (setQuill_keeps k_s3_7)

theorem matHead_keeps {c : OpCtx} {o : OpRun} {ka kb nOut : Nat} {s : State} (hz : Keeps ⟨φ0, true, true, φ3, φ4, φ5, φ6, true, true, true, true, φ11, φ12, φ13, φ14, φ15, true, φ17, φ18, φ19⟩ z0 s) : Keeps ⟨φ0, true, true, φ3, φ4, φ5, φ6, true, true, true, true, φ11, φ12, φ13, φ14, φ15, true, φ17, φ18, φ19⟩ z0 (matHead c o ka kb nOut s).2 := by
  unfold matHead
  dsimp only
  split
  · exact hz
  · exact hz
  · split
    · dsimp only
      exact Keeps.of_pair (readScaleDesc_keeps hz) (by with_reducible assumption)
    · split
      · dsimp only
        exact Keeps.of_pair (readScaleDesc_keeps (Keeps.of_pair (readScaleDesc_keeps hz) (by with_reducible assumption))) (by with_reducible assumption)
      · split
        · dsimp only
          exact Keeps.of_pair (readOutliers_keeps (Keeps.of_pair (readScaleDesc_keeps (Keeps.of_pair (readScaleDesc_keeps hz) (by with_reducible assumption))) (by with_reducible assumption))) (by with_reducible assumption)
        · split
          · dsimp only
            exact Keeps.of_pair (readOutliers_keeps (Keeps.of_pair (readScaleDesc_keeps (Keeps.of_pair (readScaleDesc_keeps hz) (by with_reducible assumption))) (by with_reducible assumption))) (by with_reducible assumption)
          · split
            · dsimp only
              exact Keeps.of_pair (readOutliers_keeps (Keeps.of_pair (readScaleDesc_keeps (Keeps.of_pair (readScaleDesc_keeps hz) (by with_reducible assumption))) (by with_reducible assumption))) (by with_reducible assumption)
            · dsimp only
              exact Keeps.of_pair (readOutliers_keeps (Keeps.of_pair (readScaleDesc_keeps (Keeps.of_pair (readScaleDesc_keeps hz) (by with_reducible assumption))) (by with_reducible assumption))) (by with_reducible assumption)

theorem rescaleReadable_keeps {c : OpCtx} {o : OpRun} {s : State} (hz : Keeps ⟨φ0, true, true, φ3, φ4, φ5, φ6, true, true, true, true, φ11, φ12, φ13, φ14, φ15, true, φ17, φ18, φ19⟩ z0 s) : Keeps ⟨φ0, true, true, φ3, φ4, φ5, φ6, true, true, true, true, φ11, φ12, φ13, φ14, φ15, true, φ17, φ18, φ19⟩ z0 (rescaleReadable c o s).2 := by
  unfold rescaleReadable
  split
  · split
    · dsimp only
      exact Keeps.of_pair (opRead_keeps hz) (by with_reducible assumption)
    · dsimp only
      exact Keeps.of_pair (opRead_keeps hz) (by with_reducible assumption)
  · exact hz

theorem opGather_keeps {c : OpCtx} {t : Tod} {s : State} (hz : Keeps ⟨φ0, true, true, φ3, φ4, φ5, φ6, φ7, φ8, true, true, φ11, φ12, φ13, φ14, φ15, true, φ17, φ18, φ19⟩ z0 s) : Keeps ⟨φ0, true, true, φ3, φ4, φ5, φ6, φ7, φ8, true, true, φ11, φ12, φ13, φ14, φ15, true, φ17, φ18, φ19⟩ z0 (opGather c t s).2 := by
  unfold opGather
  exact OpCtx.gather_keeps hz

theorem headFail_keeps {c : OpCtx} {o : OpRun} {e : Option Nat} {s0 s : State} (hz : Keeps ⟨φ0, true, true, true, true, true, true, true, φ8, true, true, φ11, φ12, φ13, φ14, φ15, true, φ17, φ18, φ19⟩ z0 s) : Keeps ⟨φ0, true, true, true, true, true, true, true, φ8, true, true, φ11, φ12, φ13, φ14, φ15, true, φ17, φ18, φ19⟩ z0 (headFail c o e s0 s) := by
  unfold headFail
  split
  · exact failWith_keeps hz
  · exact failSince_keeps hz

theorem residueFail_keeps {c : OpCtx} {o : OpRun} {nib group : Nat} {inj : Bool} {s : State} (hz : Keeps ⟨φ0, true, true, true, true, true, true, true, φ8, true, true, true, φ12, φ13, φ14, φ15, true, φ17, φ18, φ19⟩ z0 s) : Keeps ⟨φ0, true, true, true, true, true, true, true, φ8, true, true, true, φ12, φ13, φ14, φ15, true, φ17, φ18, φ19⟩ z0 (residueFail c o nib group inj s) := by
  unfold residueFail
  extract_lets +onlyGivenNames r_1
  have k_r_1 : Keeps ⟨φ0, true, true, true, true, true, true, true, φ8, true, true, true, φ12, φ13, φ14, φ15, true, φ17, φ18, φ19⟩ z0 r_1.2 := raiseSeq_keeps hz
  clear_value r_1
  exact markNib_keeps (stopJob_keeps k_r_1)

theorem runPasses_keeps {c : OpCtx} {o : OpRun} {p : MatPlan} {h : MatHead} {sa sb : Scales} {ov : List (Nat × List Nat)} {s : State} (h_prePass : ∀ h sb f t, Keeps ⟨φ0, true, true, true, true, true, true, true, true, true, true, true, φ12, φ13, φ14, φ15, true, φ17, φ18, φ19⟩ z0 t → Keeps ⟨φ0, true, true, true, true, true, true, true, true, true, true, true, φ12, φ13, φ14, φ15, true, φ17, φ18, φ19⟩ z0 (p.prePass h sb f t)) (hz : Keeps ⟨φ0, true, true, true, true, true, true, true, true, true, true, true, φ12, φ13, φ14, φ15, true, φ17, φ18, φ19⟩ z0 s) : Keeps ⟨φ0, true, true, true, true, true, true, true, true, true, true, true, φ12, φ13, φ14, φ15, true, φ17, φ18, φ19⟩ z0 (runPasses c o p h sa sb ov s) := by
  unfold runPasses
  extract_lets +onlyGivenNames t_1
  split
  · exact failWith_keeps hz
  · extract_lets +onlyGivenNames aA_2 aB_3 ra_4
    extract_lets +onlyGivenNames aB_5 ra_6
    have k_ra_6 : Keeps ⟨φ0, true, true, true, true, true, true, true, true, true, true, true, φ12, φ13, φ14, φ15, true, φ17, φ18, φ19⟩ z0 ra_6.2 := readAt_keeps hz
    clear_value ra_6
    split
    · exact failSince_keeps k_ra_6
    · extract_lets +onlyGivenNames rb_7
      have k_rb_7 : Keeps ⟨φ0, true, true, true, true, true, true, true, true, true, true, true, φ12, φ13, φ14, φ15, true, φ17, φ18, φ19⟩ z0 rb_7.2 := readAt_keeps k_ra_6
      clear_value rb_7
      split
      · exact failSince_keeps k_rb_7
      · extract_lets +onlyGivenNames la_8 lb_9 outs_10 g_11
        split
        · apply residueFail_keeps
          split
          · exact disarm_keeps k_rb_7
          · exact k_rb_7
        · extract_lets +onlyGivenNames s1_12 aI_13 rc_14
          have k_s1_12 : Keeps ⟨φ0, true, true, true, true, true, true, true, true, true, true, true, φ12, φ13, φ14, φ15, true, φ17, φ18, φ19⟩ z0 s1_12 := h_prePass _ _ _ _ k_rb_7
          have k_rc_14 : Keeps ⟨φ0, true, true, true, true, true, true, true, true, true, true, true, φ12, φ13, φ14, φ15, true, φ17, φ18, φ19⟩ z0 rc_14.2 := by
            subst rc_14
            split
            · exact k_s1_12
            · exact readWords_keeps k_s1_12
          clear_value s1_12 rc_14
          split
          · exact failSince_keeps k_rc_14
          · extract_lets +onlyGivenNames lc_15
            exact holdResults_keeps k_rc_14

theorem runMatrix_keeps {c : OpCtx} {o : OpRun} {p : MatPlan} {s : State} (h_prePass : ∀ h sb f t, Keeps ⟨φ0, true, true, true, true, true, true, true, true, true, true, true, φ12, φ13, φ14, φ15, true, φ17, φ18, φ19⟩ z0 t → Keeps ⟨φ0, true, true, true, true, true, true, true, true, true, true, true, φ12, φ13, φ14, φ15, true, φ17, φ18, φ19⟩ z0 (p.prePass h sb f t)) (hz : Keeps ⟨φ0, true, true, true, true, true, true, true, true, true, true, true, φ12, φ13, φ14, φ15, true, φ17, φ18, φ19⟩ z0 s) : Keeps ⟨φ0, true, true, true, true, true, true, true, true, true, true, true, φ12, φ13, φ14, φ15, true, φ17, φ18, φ19⟩ z0 (runMatrix c o p s) := by
  unfold runMatrix
  extract_lets +onlyGivenNames t_1
  split
  · exact headFail_keeps (Keeps.of_pair (matHead_keeps hz) (by with_reducible assumption))
  · split
    · exact failSince_keeps (Keeps.of_pair (rescaleReadable_keeps (Keeps.of_pair (matHead_keeps hz) (by with_reducible assumption))) (by with_reducible assumption))
    · split
      · exact Keeps.of_pair (opGather_keeps (Keeps.of_pair (rescaleReadable_keeps (Keeps.of_pair (matHead_keeps hz) (by with_reducible assumption))) (by with_reducible assumption))) (by with_reducible assumption)
      · split
        · exact Keeps.of_pair (readStreams_keeps (Keeps.of_pair (opGather_keeps (Keeps.of_pair (rescaleReadable_keeps (Keeps.of_pair (matHead_keeps hz) (by with_reducible assumption))) (by with_reducible assumption))) (by with_reducible assumption))) (by with_reducible assumption)
        · split
          · exact failSince_keeps (Keeps.of_pair (readOutVals_keeps (Keeps.of_pair (readStreams_keeps (Keeps.of_pair (opGather_keeps (Keeps.of_pair (rescaleReadable_keeps (Keeps.of_pair (matHead_keeps hz) (by with_reducible assumption))) (by with_reducible assumption))) (by with_reducible assumption))) (by with_reducible assumption))) (by with_reducible assumption))
          · apply runPasses_keeps
            · intro _ _ _ _ k2
              exact h_prePass _ _ _ _ k2
            · exact Keeps.of_pair (readOutVals_keeps (Keeps.of_pair (readStreams_keeps (Keeps.of_pair (opGather_keeps (Keeps.of_pair (rescaleReadable_keeps (Keeps.of_pair (matHead_keeps hz) (by with_reducible assumption))) (by with_reducible assumption))) (by with_reducible assumption))) (by with_reducible assumption))) (by with_reducible assumption)
      · exact failSince_keeps (Keeps.of_pair (opGather_keeps (Keeps.of_pair (rescaleReadable_keeps (Keeps.of_pair (matHead_keeps hz) (by with_reducible assumption))) (by with_reducible assumption))) (by with_reducible assumption))

theorem matmulRun_keeps {bad : Option (Nat × Nat)} {c : OpCtx} {o : OpRun} {s : State} (hz : Keeps ⟨φ0, true, true, true, true, true, true, true, true, true, true, true, φ12, φ13, φ14, φ15, true, φ17, φ18, φ19⟩ z0 s) : Keeps ⟨φ0, true, true, true, true, true, true, true, true, true, true, true, φ12, φ13, φ14, φ15, true, φ17, φ18, φ19⟩ z0 (matmulRun bad c o s) := by
  unfold matmulRun
  extract_lets +onlyGivenNames t_1 a_2 b_3 cc_4 ci_5 bs_6 blocks_7 rowA_8 rowB_9 spec_10
  apply runMatrix_keeps
  · intro _ _ _ _ k11
    exact k11
  · exact hz

theorem execMatmul_keeps {x : PassRun} {s : State} (hz : Keeps ⟨φ0, true, true, true, true, true, true, true, true, true, true, true, φ12, φ13, φ14, φ15, true, φ17, φ18, φ19⟩ z0 s) : Kept ⟨φ0, true, true, true, true, true, true, true, true, true, true, true, φ12, φ13, φ14, φ15, true, φ17, φ18, φ19⟩ z0 (execMatmul x s) := by
  unfold execMatmul
  apply Kept.next
  apply onOp_keeps
  · intro _ _ _ k1
    exact matmulRun_keeps k1
  · exact hz

theorem readChan_keeps {c : OpCtx} {d : Rescale} {ch : Nat} {s : State} (hz : Keeps ⟨φ0, true, true, φ3, φ4, φ5, φ6, true, true, true, true, φ11, φ12, φ13, φ14, φ15, true, φ17, φ18, φ19⟩ z0 s) : Keeps ⟨φ0, true, true, φ3, φ4, φ5, φ6, true, true, true, true, φ11, φ12, φ13, φ14, φ15, true, φ17, φ18, φ19⟩ z0 (readChan c d ch s).2 := by
  unfold readChan
  split
  · dsimp only
    refine Keeps.of_pair ?_ (by with_reducible assumption)
    split
    · exact opRead_keeps hz
    · exact hz
  · split
    · dsimp only
      refine Keeps.of_pair ?_ (by with_reducible assumption)
      split
      · apply opRead_keeps
        refine Keeps.of_pair ?_ (by with_reducible assumption)
        split
        · exact opRead_keeps hz
        · exact hz
      · dsimp only
        refine Keeps.of_pair ?_ (by with_reducible assumption)
        split
        · exact opRead_keeps hz
        · exact hz
    · dsimp only
      refine Keeps.of_pair ?_ (by with_reducible assumption)
      split
      · apply opRead_keeps
        refine Keeps.of_pair ?_ (by with_reducible assumption)
        split
        · exact opRead_keeps hz
        · exact hz
      · dsimp only
        refine Keeps.of_pair ?_ (by with_reducible assumption)
        split
        · exact opRead_keeps hz
        · exact hz

theorem writeCodes_keeps {c : OpCtx} {ai : Nat} {b : Binding} {fmt : Nat} {l : List (Int × Nat)} {s : State} (hz : Keeps ⟨φ0, true, true, φ3, φ4, φ5, φ6, true, true, true, true, φ11, φ12, φ13, φ14, φ15, true, φ17, φ18, φ19⟩ z0 s) : Keeps ⟨φ0, true, true, φ3, φ4, φ5, φ6, true, true, true, true, φ11, φ12, φ13, φ14, φ15, true, φ17, φ18, φ19⟩ z0 (writeCodes c ai b fmt l s).2 := by
  unfold writeCodes
  exact writeRuns_keeps hz

theorem opWrite_keeps {c : OpCtx} {a : Nat} {l : List Byte} {s : State} (hz : Keeps ⟨φ0, true, true, φ3, φ4, φ5, φ6, true, true, true, true, φ11, φ12, φ13, φ14, φ15, true, φ17, φ18, φ19⟩ z0 s) : Keeps ⟨φ0, true, true, φ3, φ4, φ5, φ6, true, true, true, true, φ11, φ12, φ13, φ14, φ15, true, φ17, φ18, φ19⟩ z0 (opWrite c a l s).2 := by
  unfold opWrite
  exact access_keeps hz

theorem writeGrouped_keeps {c : OpCtx} {ai : Nat} {b : Binding} {fmt : Nat} {ieee : Bool} {d : Rescale} {x1 : List (GRow × Nat)} {x2 : State} (hz : Keeps ⟨φ0, true, true, φ3, φ4, φ5, φ6, true, true, true, true, φ11, φ12, φ13, φ14, φ15, true, φ17, φ18, φ19⟩ z0 x2) : Keeps ⟨φ0, true, true, φ3, φ4, φ5, φ6, true, true, true, true, φ11, φ12, φ13, φ14, φ15, true, φ17, φ18, φ19⟩ z0 (writeGrouped c ai b fmt ieee d x1 x2).2 := by
  induction x1 generalizing c ai b fmt ieee d x2 with
  | nil =>
    unfold writeGrouped
    exact hz
  | cons a l ih =>
    unfold writeGrouped
    dsimp only
    split
    · dsimp only
      exact writeCodes_keeps hz
    · split
      · dsimp only
        exact opWrite_keeps (writeCodes_keeps hz)
      · dsimp only
        exact ih (opWrite_keeps (writeCodes_keeps hz))

theorem readChans_keeps {c : OpCtx} {d : Rescale} {x1 : List Nat} {x2 : State} (hz : Keeps ⟨φ0, true, true, φ3, φ4, φ5, φ6, true, true, true, true, φ11, φ12, φ13, φ14, φ15, true, φ17, φ18, φ19⟩ z0 x2) : Keeps ⟨φ0, true, true, φ3, φ4, φ5, φ6, true, true, true, true, φ11, φ12, φ13, φ14, φ15, true, φ17, φ18, φ19⟩ z0 (readChans c d x1 x2).2 := by
  induction x1 generalizing c d x2 with
  | nil =>
    unfold readChans
    exact hz
  | cons a l ih =>
    unfold readChans
    split
    · dsimp only
      exact Keeps.of_pair (readChan_keeps hz) (by with_reducible assumption)
    · split
      · dsimp only
        exact Keeps.of_pair (ih (Keeps.of_pair (readChan_keeps hz) (by with_reducible assumption))) (by with_reducible assumption)
      · dsimp only
        exact Keeps.of_pair (ih (Keeps.of_pair (readChan_keeps hz) (by with_reducible assumption))) (by with_reducible assumption)

theorem writePartials_keeps {c : OpCtx} {ai : Nat} {b : Binding} {l : List OutElem} {s : State} (hz : Keeps ⟨φ0, true, true, φ3, φ4, φ5, φ6, true, true, true, true, φ11, φ12, φ13, φ14, φ15, true, φ17, φ18, φ19⟩ z0 s) : Keeps ⟨φ0, true, true, φ3, φ4, φ5, φ6, true, true, true, true, φ11, φ12, φ13, φ14, φ15, true, φ17, φ18, φ19⟩ z0 (writePartials c ai b l s).2 := by
  unfold writePartials
  dsimp only
  exact writeRuns_keeps hz

theorem drainOuts_keeps {c : OpCtx} {o : OpRun} {s : State} (hz : Keeps ⟨φ0, true, true, φ3, φ4, φ5, φ6, true, true, true, true, φ11, φ12, φ13, φ14, φ15, true, φ17, φ18, φ19⟩ z0 s) : Keeps ⟨φ0, true, true, φ3, φ4, φ5, φ6, true, true, true, true, φ11, φ12, φ13, φ14, φ15, true, φ17, φ18, φ19⟩ z0 (drainOuts c o s).2 := by
  unfold drainOuts
  dsimp only
  split
  · dsimp only
    exact writePartials_keeps hz
  · dsimp only
    exact writeCodes_keeps hz
  · split
    · dsimp only
      exact Keeps.of_pair (readChans_keeps hz) (by with_reducible assumption)
    · split
      · exact writeGrouped_keeps (Keeps.of_pair (readChans_keeps hz) (by with_reducible assumption))
      · dsimp only
        exact writeCodes_keeps (Keeps.of_pair (readChans_keeps hz) (by with_reducible assumption))

theorem endEvents_keeps {c : OpCtx} {o : OpRun} {s : State} (hz : Keeps ⟨φ0, true, true, φ3, φ4, φ5, φ6, φ7, φ8, true, φ10, φ11, φ12, φ13, φ14, φ15, true, φ17, φ18, φ19⟩ z0 s) : Keeps ⟨φ0, true, true, φ3, φ4, φ5, φ6, φ7, φ8, true, φ10, φ11, φ12, φ13, φ14, φ15, true, φ17, φ18, φ19⟩ z0 (endEvents c o s) := by
  unfold endEvents
  extract_lets +onlyGivenNames s1_1
  have k_s1_1 : Keeps ⟨φ0, true, true, φ3, φ4, φ5, φ6, φ7, φ8, true, φ10, φ11, φ12, φ13, φ14, φ15, true, φ17, φ18, φ19⟩ z0 s1_1 := by
    subst s1_1
    split
    · exact hz
    · exact raise_keeps hz
  clear_value s1_1
  split
  · exact k_s1_1
  · exact raise_keeps k_s1_1

theorem execTensorOpDrain_keeps {q : Nat} {s : State} (hz : Keeps ⟨φ0, true, true, true, true, true, true, true, true, true, true, φ11, φ12, φ13, φ14, φ15, true, φ17, φ18, φ19⟩ z0 s) : Kept ⟨φ0, true, true, true, true, true, true, true, true, true, true, φ11, φ12, φ13, φ14, φ15, true, φ17, φ18, φ19⟩ z0 (execTensorOpDrain q s) := by
  unfold execTensorOpDrain
  apply Kept.next
  split
  · split
    · exact hz
    · split
      · exact hz
      · split
        · exact hz
        · extract_lets +onlyGivenNames r_1
          have k_r_1 : Keeps ⟨φ0, true, true, true, true, true, true, true, true, true, true, φ11, φ12, φ13, φ14, φ15, true, φ17, φ18, φ19⟩ z0 r_1.2 := drainOuts_keeps hz
          clear_value r_1
          split
          · exact failSince_keeps k_r_1
          · extract_lets +onlyGivenNames s0_2 s1_3 s2_4
            have k_s0_2 : Keeps ⟨φ0, true, true, true, true, true, true, true, true, true, true, φ11, φ12, φ13, φ14, φ15, true, φ17, φ18, φ19⟩ z0 s0_2 := by
              subst s0_2
              split
              · exact notePartials_keeps k_r_1
              · exact k_r_1
            have k_s1_3 : Keeps ⟨φ0, true, true, true, true, true, true, true, true, true, true, φ11, φ12, φ13, φ14, φ15, true, φ17, φ18, φ19⟩ z0 s1_3 := endEvents_keeps (orNumeric_keeps k_s0_2)
            have k_s2_4 : Keeps ⟨φ0, true, true, true, true, true, true, true, true, true, true, φ11, φ12, φ13, φ14, φ15, true, φ17, φ18, φ19⟩ z0 s2_4 := by
              subst s2_4
              split
              · exact k_s1_3
              · exact addCtr_keeps k_s1_3
            clear_value s0_2 s1_3 s2_4
            exact opDone_keeps k_s2_4
  · exact hz

end Sys2Proof.Machine
end

