-- ==== Sys2Proof/Laws/KeepsCache.lean ====
section
/-! SUPPORT. Each operation keeps what Keeps names: the cache commands and the vector operations. -/

set_option Elab.async false

namespace Sys2Proof.Machine

variable {φ0 φ1 φ2 φ3 φ4 φ5 φ6 φ7 φ8 φ9 φ10 φ11 φ12 φ13 φ14 φ15 φ16 φ17 φ18 φ19 : Bool} {z0 : State}

theorem putCtx_keeps {i : Nat} {d : CtxDesc} {s : State} (hz : Keeps ⟨φ0, true, φ2, φ3, φ4, φ5, φ6, φ7, φ8, φ9, φ10, φ11, φ12, φ13, φ14, φ15, φ16, φ17, φ18, φ19⟩ z0 s) : Keeps ⟨φ0, true, φ2, φ3, φ4, φ5, φ6, φ7, φ8, φ9, φ10, φ11, φ12, φ13, φ14, φ15, φ16, φ17, φ18, φ19⟩ z0 (putCtx i d s) := by
  unfold putCtx
  exact wrBytes_keeps hz

theorem putFolio_keeps {i : Nat} {d : FolioDesc} {s : State} (hz : Keeps ⟨φ0, true, φ2, φ3, φ4, φ5, φ6, φ7, φ8, φ9, φ10, φ11, φ12, φ13, φ14, φ15, φ16, φ17, φ18, φ19⟩ z0 s) : Keeps ⟨φ0, true, φ2, φ3, φ4, φ5, φ6, φ7, φ8, φ9, φ10, φ11, φ12, φ13, φ14, φ15, φ16, φ17, φ18, φ19⟩ z0 (putFolio i d s) := by
  unfold putFolio
  exact wrBytes_keeps hz

theorem putPt_keeps {d : CtxDesc} {layer block f : Nat} {s : State} (hz : Keeps ⟨φ0, true, φ2, φ3, φ4, φ5, φ6, φ7, φ8, φ9, φ10, φ11, φ12, φ13, φ14, φ15, φ16, φ17, φ18, φ19⟩ z0 s) : Keeps ⟨φ0, true, φ2, φ3, φ4, φ5, φ6, φ7, φ8, φ9, φ10, φ11, φ12, φ13, φ14, φ15, φ16, φ17, φ18, φ19⟩ z0 (putPt d layer block f s) := by
  unfold putPt
  exact wrBytes_keeps hz

theorem wantAdvance_keeps {s : State} (hz : Keeps ⟨φ0, φ1, φ2, φ3, φ4, φ5, φ6, φ7, φ8, φ9, φ10, φ11, true, φ13, φ14, φ15, φ16, φ17, φ18, φ19⟩ z0 s) : Keeps ⟨φ0, φ1, φ2, φ3, φ4, φ5, φ6, φ7, φ8, φ9, φ10, φ11, true, φ13, φ14, φ15, φ16, φ17, φ18, φ19⟩ z0 (wantAdvance s) := by
  unfold wantAdvance
  exact Keeps.of hz rfl

theorem linkTail_keeps {l : List Nat} {f : Nat} {s : State} (hz : Keeps ⟨φ0, true, φ2, φ3, φ4, φ5, φ6, φ7, φ8, φ9, φ10, φ11, φ12, φ13, φ14, φ15, φ16, φ17, φ18, φ19⟩ z0 s) : Keeps ⟨φ0, true, φ2, φ3, φ4, φ5, φ6, φ7, φ8, φ9, φ10, φ11, φ12, φ13, φ14, φ15, φ16, φ17, φ18, φ19⟩ z0 (linkTail l f s) := by
  unfold linkTail
  split
  · exact putFolio_keeps hz
  · exact hz

theorem slotLimbo_keeps {slot : Nat} {s : State} (hz : Keeps ⟨φ0, φ1, φ2, φ3, φ4, φ5, φ6, φ7, φ8, φ9, φ10, φ11, true, φ13, φ14, φ15, φ16, φ17, φ18, φ19⟩ z0 s) : Keeps ⟨φ0, φ1, φ2, φ3, φ4, φ5, φ6, φ7, φ8, φ9, φ10, φ11, true, φ13, φ14, φ15, φ16, φ17, φ18, φ19⟩ z0 (slotLimbo slot s) := by
  unfold slotLimbo
  apply wantAdvance_keeps
  exact Keeps.of hz rfl

theorem folioLimbo_keeps {f : Nat} {s : State} (hz : Keeps ⟨φ0, true, φ2, φ3, φ4, φ5, φ6, φ7, φ8, φ9, φ10, φ11, true, φ13, φ14, φ15, φ16, φ17, φ18, φ19⟩ z0 s) : Keeps ⟨φ0, true, φ2, φ3, φ4, φ5, φ6, φ7, φ8, φ9, φ10, φ11, true, φ13, φ14, φ15, φ16, φ17, φ18, φ19⟩ z0 (folioLimbo f s) := by
  unfold folioLimbo
  extract_lets +onlyGivenNames d_1 s1_2 s2_3
  have k_s1_2 : Keeps ⟨φ0, true, φ2, φ3, φ4, φ5, φ6, φ7, φ8, φ9, φ10, φ11, true, φ13, φ14, φ15, φ16, φ17, φ18, φ19⟩ z0 s1_2 := putFolio_keeps hz
  have k_s2_3 : Keeps ⟨φ0, true, φ2, φ3, φ4, φ5, φ6, φ7, φ8, φ9, φ10, φ11, true, φ13, φ14, φ15, φ16, φ17, φ18, φ19⟩ z0 s2_3 := linkTail_keeps k_s1_2
  clear_value s1_2 s2_3
  apply slotLimbo_keeps
  exact Keeps.of k_s2_3 rfl

theorem releaseEntry_keeps {d : CtxDesc} {layer block : Nat} {s : State} (hz : Keeps ⟨φ0, true, φ2, φ3, φ4, φ5, φ6, φ7, φ8, φ9, φ10, φ11, true, φ13, φ14, φ15, φ16, φ17, φ18, φ19⟩ z0 s) : Keeps ⟨φ0, true, φ2, φ3, φ4, φ5, φ6, φ7, φ8, φ9, φ10, φ11, true, φ13, φ14, φ15, φ16, φ17, φ18, φ19⟩ z0 (releaseEntry d layer block s) := by
  unfold releaseEntry
  extract_lets +onlyGivenNames f_1
  split
  · exact hz
  · extract_lets +onlyGivenNames x_2 s1_3
    have k_s1_3 : Keeps ⟨φ0, true, φ2, φ3, φ4, φ5, φ6, φ7, φ8, φ9, φ10, φ11, true, φ13, φ14, φ15, φ16, φ17, φ18, φ19⟩ z0 s1_3 := by
      subst s1_3
      split
      · exact folioLimbo_keeps hz
      · exact putFolio_keeps hz
    clear_value s1_3
    exact putPt_keeps k_s1_3

theorem releaseBlocks_keeps {d : CtxDesc} {lo hi : Nat} {s : State} (hz : Keeps ⟨φ0, true, φ2, φ3, φ4, φ5, φ6, φ7, φ8, φ9, φ10, φ11, true, φ13, φ14, φ15, φ16, φ17, φ18, φ19⟩ z0 s) : Keeps ⟨φ0, true, φ2, φ3, φ4, φ5, φ6, φ7, φ8, φ9, φ10, φ11, true, φ13, φ14, φ15, φ16, φ17, φ18, φ19⟩ z0 (releaseBlocks d lo hi s) := by
  unfold releaseBlocks
  apply Keeps.foldl
  · exact hz
  · intro _ _ k1
    apply Keeps.foldl
    · exact k1
    · intro _ _ k2
      exact releaseEntry_keeps k2

theorem allocFolio_keeps {kf vf refs : Nat} {s : State} (hz : Keeps ⟨φ0, true, φ2, φ3, φ4, φ5, φ6, φ7, φ8, φ9, φ10, φ11, true, φ13, φ14, φ15, φ16, φ17, φ18, φ19⟩ z0 s) : Held (fun v => Keeps ⟨φ0, true, φ2, φ3, φ4, φ5, φ6, φ7, φ8, φ9, φ10, φ11, true, φ13, φ14, φ15, φ16, φ17, φ18, φ19⟩ z0 v.2) (allocFolio kf vf refs s) := by
  unfold allocFolio
  split
  · extract_lets +onlyGivenNames d_1
    refine Held.some ?_
    try dsimp only
    apply putFolio_keeps
    exact Keeps.of hz rfl
  · exact Held.none

theorem poolLow_keeps {before : Nat} {s : State} (hz : Keeps ⟨φ0, true, true, φ3, φ4, φ5, φ6, φ7, φ8, true, φ10, φ11, φ12, φ13, φ14, φ15, true, φ17, φ18, φ19⟩ z0 s) : Keeps ⟨φ0, true, true, φ3, φ4, φ5, φ6, φ7, φ8, true, φ10, φ11, φ12, φ13, φ14, φ15, true, φ17, φ18, φ19⟩ z0 (poolLow before s) := by
  unfold poolLow
  extract_lets +onlyGivenNames w_1
  split
  · exact raise_keeps hz
  · exact hz

theorem ccEnd_keeps {c : CcCmd} {a : CcAns} {s0 s1 : State} (hz : Keeps ⟨φ0, true, true, true, φ4, φ5, φ6, φ7, φ8, true, φ10, φ11, φ12, φ13, true, φ15, true, φ17, φ18, φ19⟩ z0 s1) : Keeps ⟨φ0, true, true, true, φ4, φ5, φ6, φ7, φ8, true, φ10, φ11, φ12, φ13, true, φ15, true, φ17, φ18, φ19⟩ z0 (ccEnd c a s0 s1) := by
  unfold ccEnd
  extract_lets +onlyGivenNames d_1 s3_2 s4_3 s5_4 s6_5
  have k_s3_2 : Keeps ⟨φ0, true, true, true, φ4, φ5, φ6, φ7, φ8, true, φ10, φ11, φ12, φ13, true, φ15, true, φ17, φ18, φ19⟩ z0 s3_2 := by
    subst s3_2
    split
    · exact advanceRd_keeps hz
    · exact hz
  have k_s4_3 : Keeps ⟨φ0, true, true, true, φ4, φ5, φ6, φ7, φ8, true, φ10, φ11, φ12, φ13, true, φ15, true, φ17, φ18, φ19⟩ z0 s4_3 := addCtr_keeps k_s3_2
  have k_s5_4 : Keeps ⟨φ0, true, true, true, φ4, φ5, φ6, φ7, φ8, true, φ10, φ11, φ12, φ13, true, φ15, true, φ17, φ18, φ19⟩ z0 s5_4 := by
    subst s5_4
    split
    · exact raise_keeps k_s4_3
    · split
      · exact raise_keeps k_s4_3
      · exact k_s4_3
  have k_s6_5 : Keeps ⟨φ0, true, true, true, φ4, φ5, φ6, φ7, φ8, true, φ10, φ11, φ12, φ13, true, φ15, true, φ17, φ18, φ19⟩ z0 s6_5 := poolLow_keeps k_s5_4
  clear_value s3_2 s4_3 s5_4 s6_5
  exact pushEngine_keeps k_s6_5

theorem runCmd_keeps {op : Nat} {f : CcCmd → State → Option (CcAns × State)} {s : State} (h_f : ∀ y0 y1, Keeps ⟨φ0, true, true, true, φ4, φ5, φ6, φ7, true, true, true, φ11, φ12, φ13, true, φ15, true, φ17, φ18, φ19⟩ z0 y1 → Held (fun v => Keeps ⟨φ0, true, true, true, φ4, φ5, φ6, φ7, true, true, true, φ11, φ12, φ13, true, φ15, true, φ17, φ18, φ19⟩ z0 v.2) (f y0 y1)) (hz : Keeps ⟨φ0, true, true, true, φ4, φ5, φ6, φ7, true, true, true, φ11, φ12, φ13, true, φ15, true, φ17, φ18, φ19⟩ z0 s) : Keeps ⟨φ0, true, true, true, φ4, φ5, φ6, φ7, true, true, true, φ11, φ12, φ13, true, φ15, true, φ17, φ18, φ19⟩ z0 (runCmd op f s) := by
  unfold runCmd
  split
  · split
    · exact headRead_keeps hz
    · exact hz
  · extract_lets +onlyGivenNames valid_1
    split
    · exact hz
    · split
      · exact hz
      · apply ccEnd_keeps
        refine Held.of_pair ?_ (by with_reducible assumption)
        split
        · exact h_f _ _ hz
        · refine Held.some ?_
          try dsimp only
          exact hz

theorem ctxOpenRun_keeps {c : CcCmd} {s : State} (hz : Keeps ⟨φ0, true, φ2, φ3, φ4, φ5, φ6, φ7, φ8, φ9, φ10, φ11, φ12, φ13, φ14, φ15, φ16, φ17, φ18, φ19⟩ z0 s) : Held (fun v => Keeps ⟨φ0, true, φ2, φ3, φ4, φ5, φ6, φ7, φ8, φ9, φ10, φ11, φ12, φ13, φ14, φ15, φ16, φ17, φ18, φ19⟩ z0 v.2) (ctxOpenRun c s) := by
  unfold ctxOpenRun
  extract_lets +onlyGivenNames old_1 d_2
  split
  · refine Held.some ?_
    try dsimp only
    exact hz
  · split
    · refine Held.some ?_
      try dsimp only
      exact hz
    · refine Held.some ?_
      try dsimp only
      exact putCtx_keeps hz

theorem execCtxOpen_keeps {s : State} (hz : Keeps ⟨φ0, true, true, true, φ4, φ5, φ6, φ7, true, true, true, φ11, φ12, φ13, true, φ15, true, φ17, φ18, φ19⟩ z0 s) : Kept ⟨φ0, true, true, true, φ4, φ5, φ6, φ7, true, true, true, φ11, φ12, φ13, true, φ15, true, φ17, φ18, φ19⟩ z0 (execCtxOpen s) := by
  unfold execCtxOpen
  apply Kept.next
  apply runCmd_keeps
  · intro _ _ k1
    exact ctxOpenRun_keeps k1
  · exact hz

theorem ctxCloseRun_keeps {c : CcCmd} {s : State} (hz : Keeps ⟨φ0, true, φ2, φ3, φ4, φ5, φ6, φ7, φ8, φ9, φ10, φ11, true, φ13, φ14, φ15, φ16, φ17, φ18, φ19⟩ z0 s) : Held (fun v => Keeps ⟨φ0, true, φ2, φ3, φ4, φ5, φ6, φ7, φ8, φ9, φ10, φ11, true, φ13, φ14, φ15, φ16, φ17, φ18, φ19⟩ z0 v.2) (ctxCloseRun c s) := by
  unfold ctxCloseRun
  extract_lets +onlyGivenNames d_1
  split
  · refine Held.some ?_
    try dsimp only
    exact hz
  · split
    · refine Held.some ?_
      try dsimp only
      exact hz
    · extract_lets +onlyGivenNames s1_2 s2_3
      have k_s1_2 : Keeps ⟨φ0, true, φ2, φ3, φ4, φ5, φ6, φ7, φ8, φ9, φ10, φ11, true, φ13, φ14, φ15, φ16, φ17, φ18, φ19⟩ z0 s1_2 := releaseBlocks_keeps hz
      have k_s2_3 : Keeps ⟨φ0, true, φ2, φ3, φ4, φ5, φ6, φ7, φ8, φ9, φ10, φ11, true, φ13, φ14, φ15, φ16, φ17, φ18, φ19⟩ z0 s2_3 := putCtx_keeps k_s1_2
      clear_value s1_2 s2_3
      refine Held.some ?_
      try dsimp only
      apply wantAdvance_keeps
      exact Keeps.of k_s2_3 rfl

theorem execCtxClose_keeps {s : State} (hz : Keeps ⟨φ0, true, true, true, φ4, φ5, φ6, φ7, true, true, true, φ11, true, φ13, true, φ15, true, φ17, φ18, φ19⟩ z0 s) : Kept ⟨φ0, true, true, true, φ4, φ5, φ6, φ7, true, true, true, φ11, true, φ13, true, φ15, true, φ17, φ18, φ19⟩ z0 (execCtxClose s) := by
  unfold execCtxClose
  apply Kept.next
  apply runCmd_keeps
  · intro _ _ k1
    exact ctxCloseRun_keeps k1
  · exact hz

theorem ctxForkRun_keeps {c : CcCmd} {s : State} (hz : Keeps ⟨φ0, true, φ2, φ3, φ4, φ5, φ6, φ7, φ8, φ9, φ10, φ11, φ12, φ13, φ14, φ15, φ16, φ17, φ18, φ19⟩ z0 s) : Held (fun v => Keeps ⟨φ0, true, φ2, φ3, φ4, φ5, φ6, φ7, φ8, φ9, φ10, φ11, φ12, φ13, φ14, φ15, φ16, φ17, φ18, φ19⟩ z0 v.2) (ctxForkRun c s) := by
  unfold ctxForkRun
  extract_lets +onlyGivenNames src_1 dst_2 n_3 d_4
  split
  · refine Held.some ?_
    try dsimp only
    exact hz
  · split
    · refine Held.some ?_
      try dsimp only
      exact hz
    · split
      · refine Held.some ?_
        try dsimp only
        exact hz
      · split
        · refine Held.some ?_
          try dsimp only
          exact hz
        · extract_lets +onlyGivenNames fs_5 times_6
          split
          · refine Held.some ?_
            try dsimp only
            exact hz
          · extract_lets +onlyGivenNames s1_7
            have k_s1_7 : Keeps ⟨φ0, true, φ2, φ3, φ4, φ5, φ6, φ7, φ8, φ9, φ10, φ11, φ12, φ13, φ14, φ15, φ16, φ17, φ18, φ19⟩ z0 s1_7 := by
              subst s1_7
              apply Keeps.foldl
              · exact hz
              · intro _ _ k8
                extract_lets +onlyGivenNames a_9
                have k_a_9 : Keeps ⟨φ0, true, φ2, φ3, φ4, φ5, φ6, φ7, φ8, φ9, φ10, φ11, φ12, φ13, φ14, φ15, φ16, φ17, φ18, φ19⟩ z0 a_9 := putPt_keeps k8
                clear_value a_9
                split
                · exact k_a_9
                · extract_lets +onlyGivenNames x_10
                  exact putFolio_keeps k_a_9
            clear_value s1_7
            refine Held.some ?_
            try dsimp only
            exact putCtx_keeps k_s1_7

theorem execCtxFork_keeps {s : State} (hz : Keeps ⟨φ0, true, true, true, φ4, φ5, φ6, φ7, true, true, true, φ11, φ12, φ13, true, φ15, true, φ17, φ18, φ19⟩ z0 s) : Kept ⟨φ0, true, true, true, φ4, φ5, φ6, φ7, true, true, true, φ11, φ12, φ13, true, φ15, true, φ17, φ18, φ19⟩ z0 (execCtxFork s) := by
  unfold execCtxFork
  apply Kept.next
  apply runCmd_keeps
  · intro _ _ k1
    exact ctxForkRun_keeps k1
  · exact hz

theorem snapsFollow_keeps {addr g : Nat} {s : State} (hz : Keeps ⟨φ0, φ1, φ2, φ3, φ4, φ5, φ6, φ7, φ8, φ9, φ10, φ11, true, φ13, φ14, φ15, φ16, φ17, φ18, φ19⟩ z0 s) : Keeps ⟨φ0, φ1, φ2, φ3, φ4, φ5, φ6, φ7, φ8, φ9, φ10, φ11, true, φ13, φ14, φ15, φ16, φ17, φ18, φ19⟩ z0 (snapsFollow addr g s) := by
  unfold snapsFollow
  extract_lets +onlyGivenNames one_1
  exact Keeps.of hz rfl

theorem cow_keeps {d : CtxDesc} {layer block : Nat} {s : State} (hz : Keeps ⟨φ0, true, φ2, φ3, φ4, φ5, φ6, φ7, φ8, φ9, φ10, φ11, true, φ13, φ14, φ15, φ16, φ17, φ18, φ19⟩ z0 s) : Held (fun v => Keeps ⟨φ0, true, φ2, φ3, φ4, φ5, φ6, φ7, φ8, φ9, φ10, φ11, true, φ13, φ14, φ15, φ16, φ17, φ18, φ19⟩ z0 v) (cow d layer block s) := by
  unfold cow
  extract_lets +onlyGivenNames f_1 x_2
  split
  · refine Held.some ?_
    try dsimp only
    exact hz
  · split
    · exact Held.none
    · extract_lets +onlyGivenNames n_3 s2_4 s3_5
      have k_s2_4 : Keeps ⟨φ0, true, φ2, φ3, φ4, φ5, φ6, φ7, φ8, φ9, φ10, φ11, true, φ13, φ14, φ15, φ16, φ17, φ18, φ19⟩ z0 s2_4 := wrBytes_keeps (Held.of_pair (allocFolio_keeps hz) (by with_reducible assumption))
      have k_s3_5 : Keeps ⟨φ0, true, φ2, φ3, φ4, φ5, φ6, φ7, φ8, φ9, φ10, φ11, true, φ13, φ14, φ15, φ16, φ17, φ18, φ19⟩ z0 s3_5 := putPt_keeps k_s2_4
      clear_value s2_4 s3_5
      refine Held.some ?_
      try dsimp only
      exact addCtr_keeps (putFolio_keeps (snapsFollow_keeps k_s3_5))

theorem appendBlock_keeps {d : CtxDesc} {layer block : Nat} {s : State} (hz : Keeps ⟨φ0, true, φ2, φ3, φ4, φ5, φ6, φ7, φ8, φ9, φ10, φ11, true, φ13, φ14, φ15, φ16, φ17, φ18, φ19⟩ z0 s) : Held (fun v => Keeps ⟨φ0, true, φ2, φ3, φ4, φ5, φ6, φ7, φ8, φ9, φ10, φ11, true, φ13, φ14, φ15, φ16, φ17, φ18, φ19⟩ z0 v) (appendBlock d layer block s) := by
  unfold appendBlock
  split
  · exact cow_keeps hz
  · split
    · exact Held.none
    · refine Held.some ?_
      try dsimp only
      exact putPt_keeps (Held.of_pair (allocFolio_keeps hz) (by with_reducible assumption))

theorem foldSome_keeps {α : Type} {f : α → State → Option State} {x1 : List α} {x2 : State} (h_f : ∀ y0 y1, Keeps ⟨φ0, φ1, φ2, φ3, φ4, φ5, φ6, φ7, φ8, φ9, φ10, φ11, φ12, φ13, φ14, φ15, φ16, φ17, φ18, φ19⟩ z0 y1 → Held (fun v => Keeps ⟨φ0, φ1, φ2, φ3, φ4, φ5, φ6, φ7, φ8, φ9, φ10, φ11, φ12, φ13, φ14, φ15, φ16, φ17, φ18, φ19⟩ z0 v) (f y0 y1)) (hz : Keeps ⟨φ0, φ1, φ2, φ3, φ4, φ5, φ6, φ7, φ8, φ9, φ10, φ11, φ12, φ13, φ14, φ15, φ16, φ17, φ18, φ19⟩ z0 x2) : Held (fun v => Keeps ⟨φ0, φ1, φ2, φ3, φ4, φ5, φ6, φ7, φ8, φ9, φ10, φ11, φ12, φ13, φ14, φ15, φ16, φ17, φ18, φ19⟩ z0 v) (foldSome f x1 x2) := by
  induction x1 generalizing f x2 with
  | nil =>
    unfold foldSome
    refine Held.some ?_
    try dsimp only
    exact hz
  | cons a l ih =>
    unfold foldSome
    split
    · apply ih
      · intro _ _ k1
        exact h_f _ _ k1
      · exact Held.state (h_f _ _ hz) (by with_reducible assumption)
    · exact Held.none

theorem appendRun_keeps {c : CcCmd} {s : State} (hz : Keeps ⟨φ0, true, φ2, φ3, φ4, φ5, φ6, φ7, φ8, φ9, φ10, φ11, true, φ13, φ14, φ15, φ16, φ17, φ18, φ19⟩ z0 s) : Held (fun v => Keeps ⟨φ0, true, φ2, φ3, φ4, φ5, φ6, φ7, φ8, φ9, φ10, φ11, true, φ13, φ14, φ15, φ16, φ17, φ18, φ19⟩ z0 v.2) (appendRun c s) := by
  unfold appendRun
  extract_lets +onlyGivenNames d_1 n_2
  split
  · refine Held.some ?_
    try dsimp only
    exact hz
  · split
    · refine Held.some ?_
      try dsimp only
      exact hz
    · extract_lets +onlyGivenNames lo_3 hi_4 need_5 inj_6 cells_7
      split
      · refine Held.some ?_
        try dsimp only
        exact disarm_keeps hz
      · split
        · refine Held.some ?_
          try dsimp only
          exact hz
        · refine Held.some ?_
          try dsimp only
          apply putCtx_keeps
          refine Held.state ?_ (by with_reducible assumption)
          apply foldSome_keeps
          · intro _ _ k8
            exact appendBlock_keeps k8
          · exact hz

theorem execAppend_keeps {s : State} (hz : Keeps ⟨φ0, true, true, true, φ4, φ5, φ6, φ7, true, true, true, φ11, true, φ13, true, φ15, true, φ17, φ18, φ19⟩ z0 s) : Kept ⟨φ0, true, true, true, φ4, φ5, φ6, φ7, true, true, true, φ11, true, φ13, true, φ15, true, φ17, φ18, φ19⟩ z0 (execAppend s) := by
  unfold execAppend
  apply Kept.next
  apply runCmd_keeps
  · intro _ _ k1
    exact appendRun_keeps k1
  · exact hz

theorem moveToken_keeps {d : CtxDesc} {layer src dst : Nat} {s : State} (hz : Keeps ⟨φ0, true, φ2, φ3, φ4, φ5, φ6, φ7, φ8, φ9, φ10, φ11, φ12, φ13, φ14, φ15, φ16, φ17, φ18, φ19⟩ z0 s) : Keeps ⟨φ0, true, φ2, φ3, φ4, φ5, φ6, φ7, φ8, φ9, φ10, φ11, φ12, φ13, φ14, φ15, φ16, φ17, φ18, φ19⟩ z0 (moveToken d layer src dst s) := by
  unfold moveToken
  extract_lets +onlyGivenNames x_1 y_2 H_3 D_4 L_5 parts_6
  split
  · apply Keeps.foldl
    · exact hz
    · intro _ _ k7
      exact wrBytes_keeps k7
  · apply Keeps.foldl
    · exact hz
    · intro _ _ k8
      extract_lets +onlyGivenNames n_9
      apply wrBytes_keeps
      exact Keeps.of k8 rfl

theorem commitRun_keeps {c : CcCmd} {s : State} (hz : Keeps ⟨φ0, true, φ2, φ3, φ4, φ5, φ6, φ7, φ8, φ9, φ10, φ11, true, φ13, φ14, φ15, φ16, φ17, φ18, φ19⟩ z0 s) : Held (fun v => Keeps ⟨φ0, true, φ2, φ3, φ4, φ5, φ6, φ7, φ8, φ9, φ10, φ11, true, φ13, φ14, φ15, φ16, φ17, φ18, φ19⟩ z0 v.2) (commitRun c s) := by
  unfold commitRun
  extract_lets +onlyGivenNames d_1 k_2 path_3
  split
  · refine Held.some ?_
    try dsimp only
    exact hz
  · split
    · refine Held.some ?_
      try dsimp only
      exact hz
    · extract_lets +onlyGivenNames moves_4 cells_5
      split
      · refine Held.some ?_
        try dsimp only
        exact hz
      · extract_lets +onlyGivenNames s2_6 n_7 s3_8
        have k_s2_6 : Keeps ⟨φ0, true, φ2, φ3, φ4, φ5, φ6, φ7, φ8, φ9, φ10, φ11, true, φ13, φ14, φ15, φ16, φ17, φ18, φ19⟩ z0 s2_6 := by
          subst s2_6
          apply Keeps.foldl
          · refine Held.state ?_ (by with_reducible assumption)
            apply foldSome_keeps
            · intro _ _ k9
              exact cow_keeps k9
            · exact hz
          · intro _ _ k10
            apply Keeps.foldl
            · exact k10
            · intro _ _ k11
              exact moveToken_keeps k11
        have k_s3_8 : Keeps ⟨φ0, true, φ2, φ3, φ4, φ5, φ6, φ7, φ8, φ9, φ10, φ11, true, φ13, φ14, φ15, φ16, φ17, φ18, φ19⟩ z0 s3_8 := releaseBlocks_keeps k_s2_6
        clear_value s2_6 s3_8
        refine Held.some ?_
        try dsimp only
        exact putCtx_keeps k_s3_8

theorem execCommit_keeps {s : State} (hz : Keeps ⟨φ0, true, true, true, φ4, φ5, φ6, φ7, true, true, true, φ11, true, φ13, true, φ15, true, φ17, φ18, φ19⟩ z0 s) : Kept ⟨φ0, true, true, true, φ4, φ5, φ6, φ7, true, true, true, φ11, true, φ13, true, φ15, true, φ17, φ18, φ19⟩ z0 (execCommit s) := by
  unfold execCommit
  apply Kept.next
  apply runCmd_keeps
  · intro _ _ k1
    exact commitRun_keeps k1
  · exact hz

theorem truncateRun_keeps {c : CcCmd} {s : State} (hz : Keeps ⟨φ0, true, φ2, φ3, φ4, φ5, φ6, φ7, φ8, φ9, φ10, φ11, true, φ13, φ14, φ15, φ16, φ17, φ18, φ19⟩ z0 s) : Held (fun v => Keeps ⟨φ0, true, φ2, φ3, φ4, φ5, φ6, φ7, φ8, φ9, φ10, φ11, true, φ13, φ14, φ15, φ16, φ17, φ18, φ19⟩ z0 v.2) (truncateRun c s) := by
  unfold truncateRun
  extract_lets +onlyGivenNames d_1
  split
  · refine Held.some ?_
    try dsimp only
    exact hz
  · split
    · refine Held.some ?_
      try dsimp only
      exact hz
    · extract_lets +onlyGivenNames s1_2
      have k_s1_2 : Keeps ⟨φ0, true, φ2, φ3, φ4, φ5, φ6, φ7, φ8, φ9, φ10, φ11, true, φ13, φ14, φ15, φ16, φ17, φ18, φ19⟩ z0 s1_2 := releaseBlocks_keeps hz
      clear_value s1_2
      refine Held.some ?_
      try dsimp only
      exact putCtx_keeps k_s1_2

theorem execTruncate_keeps {s : State} (hz : Keeps ⟨φ0, true, true, true, φ4, φ5, φ6, φ7, true, true, true, φ11, true, φ13, true, φ15, true, φ17, φ18, φ19⟩ z0 s) : Kept ⟨φ0, true, true, true, φ4, φ5, φ6, φ7, true, true, true, φ11, true, φ13, true, φ15, true, φ17, φ18, φ19⟩ z0 (execTruncate s) := by
  unfold execTruncate
  apply Kept.next
  apply runCmd_keeps
  · intro _ _ k1
    exact truncateRun_keeps k1
  · exact hz

theorem advanceEpoch_keeps {s : State} (hz : Keeps ⟨φ0, true, true, φ3, φ4, φ5, φ6, φ7, φ8, true, φ10, φ11, true, φ13, φ14, φ15, true, φ17, φ18, φ19⟩ z0 s) : Keeps ⟨φ0, true, true, φ3, φ4, φ5, φ6, φ7, φ8, true, φ10, φ11, true, φ13, φ14, φ15, true, φ17, φ18, φ19⟩ z0 (advanceEpoch s) := by
  unfold advanceEpoch
  split
  · exact hz
  · extract_lets +onlyGivenNames e_1
    split
    · split
      · exact hz
      · apply raise_keeps
        exact Keeps.of hz rfl
    · exact Keeps.of hz rfl

theorem ticketPeak_keeps {s : State} (hz : Keeps ⟨φ0, φ1, φ2, φ3, φ4, φ5, φ6, φ7, φ8, φ9, φ10, φ11, φ12, φ13, φ14, φ15, φ16, φ17, φ18, φ19⟩ z0 s) : Keeps ⟨φ0, φ1, φ2, φ3, φ4, φ5, φ6, φ7, φ8, φ9, φ10, φ11, φ12, φ13, φ14, φ15, φ16, φ17, φ18, φ19⟩ z0 (ticketPeak s) := by
  unfold ticketPeak
  split
  · exact wrField_keeps hz
  · exact hz

theorem takeTicket_keeps {u : TicketUse} {snaps : List CtxSnap} {s : State} (hz : Keeps ⟨φ0, true, true, φ3, φ4, φ5, φ6, φ7, φ8, true, φ10, φ11, true, φ13, φ14, φ15, true, φ17, φ18, φ19⟩ z0 s) : Keeps ⟨φ0, true, true, φ3, φ4, φ5, φ6, φ7, φ8, true, φ10, φ11, true, φ13, φ14, φ15, true, φ17, φ18, φ19⟩ z0 (takeTicket u snaps s) := by
  unfold takeTicket
  extract_lets +onlyGivenNames s1_1
  have k_s1_1 : Keeps ⟨φ0, true, true, φ3, φ4, φ5, φ6, φ7, φ8, true, φ10, φ11, true, φ13, φ14, φ15, true, φ17, φ18, φ19⟩ z0 s1_1 := advanceEpoch_keeps hz
  clear_value s1_1
  apply ticketPeak_keeps
  exact Keeps.of k_s1_1 rfl

theorem dropTicket_keeps {p : TicketUse → Bool} {s : State} (hz : Keeps ⟨φ0, φ1, φ2, φ3, φ4, φ5, φ6, φ7, φ8, φ9, φ10, φ11, true, φ13, φ14, φ15, φ16, φ17, φ18, φ19⟩ z0 s) : Keeps ⟨φ0, φ1, φ2, φ3, φ4, φ5, φ6, φ7, φ8, φ9, φ10, φ11, true, φ13, φ14, φ15, φ16, φ17, φ18, φ19⟩ z0 (dropTicket p s) := by
  unfold dropTicket
  exact Keeps.of hz rfl

theorem reinkBeginRun_keeps {c : CcCmd} {s : State} (hz : Keeps ⟨φ0, true, true, φ3, φ4, φ5, φ6, φ7, φ8, true, φ10, φ11, true, φ13, φ14, φ15, true, φ17, φ18, φ19⟩ z0 s) : Held (fun v => Keeps ⟨φ0, true, true, φ3, φ4, φ5, φ6, φ7, φ8, true, φ10, φ11, true, φ13, φ14, φ15, true, φ17, φ18, φ19⟩ z0 v.2) (reinkBeginRun c s) := by
  unfold reinkBeginRun
  extract_lets +onlyGivenNames f_1 x_2
  split
  · refine Held.some ?_
    try dsimp only
    exact hz
  · split
    · refine Held.some ?_
      try dsimp only
      exact hz
    · split
      · refine Held.some ?_
        try dsimp only
        exact hz
      · split
        · exact Held.none
        · extract_lets +onlyGivenNames s1_3
          extract_lets +onlyGivenNames s1_4
          have k_s1_4 : Keeps ⟨φ0, true, true, φ3, φ4, φ5, φ6, φ7, φ8, true, φ10, φ11, true, φ13, φ14, φ15, true, φ17, φ18, φ19⟩ z0 s1_4 := by
            subst s1_4
            apply putFolio_keeps
            exact Keeps.of hz rfl
          clear_value s1_4
          refine Held.some ?_
          try dsimp only
          exact takeTicket_keeps k_s1_4

theorem execReinkBegin_keeps {s : State} (hz : Keeps ⟨φ0, true, true, true, φ4, φ5, φ6, φ7, true, true, true, φ11, true, φ13, true, φ15, true, φ17, φ18, φ19⟩ z0 s) : Kept ⟨φ0, true, true, true, φ4, φ5, φ6, φ7, true, true, true, φ11, true, φ13, true, φ15, true, φ17, φ18, φ19⟩ z0 (execReinkBegin s) := by
  unfold execReinkBegin
  apply Kept.next
  apply runCmd_keeps
  · intro _ _ k1
    exact reinkBeginRun_keeps k1
  · exact hz

theorem reinkEndRun_keeps {c : CcCmd} {s : State} (hz : Keeps ⟨φ0, true, φ2, φ3, φ4, φ5, φ6, φ7, φ8, φ9, φ10, φ11, true, φ13, φ14, φ15, φ16, φ17, φ18, φ19⟩ z0 s) : Held (fun v => Keeps ⟨φ0, true, φ2, φ3, φ4, φ5, φ6, φ7, φ8, φ9, φ10, φ11, true, φ13, φ14, φ15, φ16, φ17, φ18, φ19⟩ z0 v.2) (reinkEndRun c s) := by
  unfold reinkEndRun
  extract_lets +onlyGivenNames f_1 sl_2 kf_3 vf_4 x_5
  split
  · refine Held.some ?_
    try dsimp only
    exact hz
  · extract_lets +onlyGivenNames s1_6
    extract_lets +onlyGivenNames s1_7
    have k_s1_7 : Keeps ⟨φ0, true, φ2, φ3, φ4, φ5, φ6, φ7, φ8, φ9, φ10, φ11, true, φ13, φ14, φ15, φ16, φ17, φ18, φ19⟩ z0 s1_7 := by
      subst s1_7
      apply dropTicket_keeps
      exact Keeps.of hz rfl
    clear_value s1_7
    split
    · refine Held.some ?_
      try dsimp only
      exact Keeps.of k_s1_7 rfl
    · refine Held.some ?_
      try dsimp only
      exact slotLimbo_keeps (putFolio_keeps k_s1_7)

theorem execReinkEnd_keeps {s : State} (hz : Keeps ⟨φ0, true, true, true, φ4, φ5, φ6, φ7, true, true, true, φ11, true, φ13, true, φ15, true, φ17, φ18, φ19⟩ z0 s) : Kept ⟨φ0, true, true, true, φ4, φ5, φ6, φ7, true, true, true, φ11, true, φ13, true, φ15, true, φ17, φ18, φ19⟩ z0 (execReinkEnd s) := by
  unfold execReinkEnd
  apply Kept.next
  apply runCmd_keeps
  · intro _ _ k1
    exact reinkEndRun_keeps k1
  · exact hz

theorem reinkAbortRun_keeps {c : CcCmd} {s : State} (hz : Keeps ⟨φ0, true, φ2, φ3, φ4, φ5, φ6, φ7, φ8, φ9, φ10, φ11, true, φ13, φ14, φ15, φ16, φ17, φ18, φ19⟩ z0 s) : Held (fun v => Keeps ⟨φ0, true, φ2, φ3, φ4, φ5, φ6, φ7, φ8, φ9, φ10, φ11, true, φ13, φ14, φ15, φ16, φ17, φ18, φ19⟩ z0 v.2) (reinkAbortRun c s) := by
  unfold reinkAbortRun
  extract_lets +onlyGivenNames f_1 sl_2 x_3
  split
  · refine Held.some ?_
    try dsimp only
    exact hz
  · extract_lets +onlyGivenNames s1_4 s2_5
    have k_s2_5 : Keeps ⟨φ0, true, φ2, φ3, φ4, φ5, φ6, φ7, φ8, φ9, φ10, φ11, true, φ13, φ14, φ15, φ16, φ17, φ18, φ19⟩ z0 s2_5 := by
      subst s2_5
      apply dropTicket_keeps
      exact Keeps.of hz rfl
    clear_value s2_5
    extract_lets +onlyGivenNames s2_6
    have k_s2_6 : Keeps ⟨φ0, true, φ2, φ3, φ4, φ5, φ6, φ7, φ8, φ9, φ10, φ11, true, φ13, φ14, φ15, φ16, φ17, φ18, φ19⟩ z0 s2_6 := by
      subst s2_6
      split
      · exact putFolio_keeps k_s2_5
      · exact k_s2_5
    clear_value s2_6
    refine Held.some ?_
    try dsimp only
    exact slotLimbo_keeps k_s2_6

theorem execReinkAbort_keeps {s : State} (hz : Keeps ⟨φ0, true, true, true, φ4, φ5, φ6, φ7, true, true, true, φ11, true, φ13, true, φ15, true, φ17, φ18, φ19⟩ z0 s) : Kept ⟨φ0, true, true, true, φ4, φ5, φ6, φ7, true, true, true, φ11, true, φ13, true, φ15, true, φ17, φ18, φ19⟩ z0 (execReinkAbort s) := by
  unfold execReinkAbort
  apply Kept.next
  apply runCmd_keeps
  · intro _ _ k1
    exact reinkAbortRun_keeps k1
  · exact hz

theorem execTicketReturn_keeps {s : State} (hz : Keeps ⟨φ0, φ1, φ2, φ3, φ4, φ5, φ6, φ7, φ8, φ9, φ10, φ11, true, φ13, φ14, φ15, φ16, φ17, φ18, φ19⟩ z0 s) : Kept ⟨φ0, φ1, φ2, φ3, φ4, φ5, φ6, φ7, φ8, φ9, φ10, φ11, true, φ13, φ14, φ15, φ16, φ17, φ18, φ19⟩ z0 (execTicketReturn s) := by
  unfold execTicketReturn
  apply Kept.next
  exact Keeps.of hz rfl

theorem execLimboReclaim_keeps {kind : Nat} {s : State} (hz : Keeps ⟨φ0, true, φ2, φ3, φ4, φ5, φ6, φ7, φ8, φ9, φ10, φ11, true, φ13, φ14, φ15, φ16, φ17, φ18, φ19⟩ z0 s) : Kept ⟨φ0, true, φ2, φ3, φ4, φ5, φ6, φ7, φ8, φ9, φ10, φ11, true, φ13, φ14, φ15, φ16, φ17, φ18, φ19⟩ z0 (execLimboReclaim kind s) := by
  unfold execLimboReclaim
  apply Kept.next
  split
  · split
    · split
      · extract_lets +onlyGivenNames s1_1
        extract_lets +onlyGivenNames s1_2
        have k_s1_2 : Keeps ⟨φ0, true, φ2, φ3, φ4, φ5, φ6, φ7, φ8, φ9, φ10, φ11, true, φ13, φ14, φ15, φ16, φ17, φ18, φ19⟩ z0 s1_2 := linkTail_keeps (putFolio_keeps hz)
        clear_value s1_2
        exact Keeps.of k_s1_2 rfl
      · exact hz
    · exact hz
  · split
    · split
      · exact Keeps.of hz rfl
      · exact hz
    · exact hz
  · split
    · split
      · extract_lets +onlyGivenNames s1_3
        extract_lets +onlyGivenNames s1_4
        have k_s1_4 : Keeps ⟨φ0, true, φ2, φ3, φ4, φ5, φ6, φ7, φ8, φ9, φ10, φ11, true, φ13, φ14, φ15, φ16, φ17, φ18, φ19⟩ z0 s1_4 := wrBytes_keeps hz
        clear_value s1_4
        exact Keeps.of k_s1_4 rfl
      · exact hz
    · exact hz

theorem buildLists_keeps {s : State} (hz : Keeps ⟨φ0, true, φ2, φ3, φ4, φ5, φ6, φ7, φ8, φ9, φ10, φ11, true, φ13, φ14, φ15, φ16, φ17, φ18, φ19⟩ z0 s) : Keeps ⟨φ0, true, φ2, φ3, φ4, φ5, φ6, φ7, φ8, φ9, φ10, φ11, true, φ13, φ14, φ15, φ16, φ17, φ18, φ19⟩ z0 (buildLists s) := by
  unfold buildLists
  extract_lets +onlyGivenNames n_1 m_2 s1_3
  have k_s1_3 : Keeps ⟨φ0, true, φ2, φ3, φ4, φ5, φ6, φ7, φ8, φ9, φ10, φ11, true, φ13, φ14, φ15, φ16, φ17, φ18, φ19⟩ z0 s1_3 := by
    subst s1_3
    apply Keeps.foldl
    · exact hz
    · intro _ _ k4
      exact wrBytes_keeps k4
  clear_value s1_3
  exact Keeps.of k_s1_3 rfl

theorem wrCmdQueue_keeps {v : Word} {s : State} (hz : Keeps ⟨φ0, true, φ2, φ3, φ4, φ5, φ6, φ7, φ8, φ9, φ10, φ11, true, φ13, φ14, φ15, φ16, φ17, φ18, φ19⟩ z0 s) : Keeps ⟨φ0, true, φ2, φ3, φ4, φ5, φ6, φ7, φ8, φ9, φ10, φ11, true, φ13, φ14, φ15, φ16, φ17, φ18, φ19⟩ z0 (wrCmdQueue v s) := by
  unfold wrCmdQueue
  extract_lets +onlyGivenNames was_1 s1_2
  have k_s1_2 : Keeps ⟨φ0, true, φ2, φ3, φ4, φ5, φ6, φ7, φ8, φ9, φ10, φ11, true, φ13, φ14, φ15, φ16, φ17, φ18, φ19⟩ z0 s1_2 := wrReg_keeps hz
  clear_value s1_2
  split
  · exact buildLists_keeps k_s1_2
  · exact k_s1_2

theorem vecHead_keeps {c : OpCtx} {ai fmt : Nat} {s : State} (hz : Keeps ⟨φ0, true, true, φ3, φ4, φ5, φ6, true, true, true, true, φ11, φ12, φ13, φ14, φ15, true, φ17, φ18, φ19⟩ z0 s) : Keeps ⟨φ0, true, true, φ3, φ4, φ5, φ6, true, true, true, true, φ11, φ12, φ13, φ14, φ15, true, φ17, φ18, φ19⟩ z0 (vecHead c ai fmt s).2 := by
  unfold vecHead
  dsimp only
  split
  · dsimp only
    exact Keeps.of_pair (readScaleDesc_keeps hz) (by with_reducible assumption)
  · split
    · dsimp only
      exact Keeps.of_pair (readOutliers_keeps (Keeps.of_pair (readScaleDesc_keeps hz) (by with_reducible assumption))) (by with_reducible assumption)
    · split
      · dsimp only
        exact Keeps.of_pair (readOutliers_keeps (Keeps.of_pair (readScaleDesc_keeps hz) (by with_reducible assumption))) (by with_reducible assumption)
      · dsimp only
        exact Keeps.of_pair (readOutliers_keeps (Keeps.of_pair (readScaleDesc_keeps hz) (by with_reducible assumption))) (by with_reducible assumption)

theorem VecHead.read_keeps {h : VecHead} {c : OpCtx} {x : Scales} {s : State} (hz : Keeps ⟨φ0, true, true, true, true, true, true, true, true, true, true, φ11, φ12, φ13, φ14, φ15, true, φ17, φ18, φ19⟩ z0 s) : Keeps ⟨φ0, true, true, true, true, true, true, true, true, true, true, φ11, φ12, φ13, φ14, φ15, true, φ17, φ18, φ19⟩ z0 (VecHead.read h c x s).2 := by
  unfold VecHead.read
  dsimp only
  split
  · dsimp only
    exact failSince_keeps (Keeps.of_pair (readOutVals_keeps hz) (by with_reducible assumption))
  · split
    · dsimp only
      exact failSince_keeps (readElems_keeps (Keeps.of_pair (readOutVals_keeps hz) (by with_reducible assumption)))
    · dsimp only
      exact readElems_keeps (Keeps.of_pair (readOutVals_keeps hz) (by with_reducible assumption))

theorem readOperands_keeps {c : OpCtx} {o : OpRun} {ha hb : VecHead} {s : State} (hz : Keeps ⟨φ0, true, true, true, true, true, true, true, true, true, true, φ11, φ12, φ13, φ14, φ15, true, φ17, φ18, φ19⟩ z0 s) : Keeps ⟨φ0, true, true, true, true, true, true, true, true, true, true, φ11, φ12, φ13, φ14, φ15, true, φ17, φ18, φ19⟩ z0 (readOperands c o ha hb s).2 := by
  unfold readOperands
  split
  · dsimp only
    exact Keeps.of_pair (opGather_keeps hz) (by with_reducible assumption)
  · split
    · dsimp only
      exact Keeps.of_pair (readStreams_keeps (Keeps.of_pair (opGather_keeps hz) (by with_reducible assumption))) (by with_reducible assumption)
    · split
      · dsimp only
        exact Keeps.of_pair (VecHead.read_keeps (Keeps.of_pair (readStreams_keeps (Keeps.of_pair (opGather_keeps hz) (by with_reducible assumption))) (by with_reducible assumption))) (by with_reducible assumption)
      · split
        · dsimp only
          exact Keeps.of_pair (VecHead.read_keeps (Keeps.of_pair (readStreams_keeps (Keeps.of_pair (opGather_keeps hz) (by with_reducible assumption))) (by with_reducible assumption))) (by with_reducible assumption)
        · split
          · dsimp only
            exact Keeps.of_pair (VecHead.read_keeps (Keeps.of_pair (VecHead.read_keeps (Keeps.of_pair (readStreams_keeps (Keeps.of_pair (opGather_keeps hz) (by with_reducible assumption))) (by with_reducible assumption))) (by with_reducible assumption))) (by with_reducible assumption)
          · dsimp only
            exact Keeps.of_pair (VecHead.read_keeps (Keeps.of_pair (VecHead.read_keeps (Keeps.of_pair (readStreams_keeps (Keeps.of_pair (opGather_keeps hz) (by with_reducible assumption))) (by with_reducible assumption))) (by with_reducible assumption))) (by with_reducible assumption)
  · dsimp only
    exact failSince_keeps (Keeps.of_pair (opGather_keeps hz) (by with_reducible assumption))

theorem readVec_keeps {c : OpCtx} {o : OpRun} {a : Nat × Nat} {b : Option (Nat × Nat)} {s : State} (hz : Keeps ⟨φ0, true, true, true, true, true, true, true, true, true, true, φ11, φ12, φ13, φ14, φ15, true, φ17, φ18, φ19⟩ z0 s) : Keeps ⟨φ0, true, true, true, true, true, true, true, true, true, true, φ11, φ12, φ13, φ14, φ15, true, φ17, φ18, φ19⟩ z0 (readVec c o a b s).2 := by
  unfold readVec
  split
  · dsimp only
    exact headFail_keeps (Keeps.of_pair (vecHead_keeps hz) (by with_reducible assumption))
  · split
    · dsimp only
      apply headFail_keeps
      refine Keeps.of_pair ?_ (by with_reducible assumption)
      split
      · exact vecHead_keeps (Keeps.of_pair (vecHead_keeps hz) (by with_reducible assumption))
      · dsimp only
        exact Keeps.of_pair (vecHead_keeps hz) (by with_reducible assumption)
    · split
      · dsimp only
        apply headFail_keeps
        refine Keeps.of_pair ?_ (by with_reducible assumption)
        split
        · exact vecHead_keeps (Keeps.of_pair (vecHead_keeps hz) (by with_reducible assumption))
        · dsimp only
          exact Keeps.of_pair (vecHead_keeps hz) (by with_reducible assumption)
      · apply readOperands_keeps
        refine Keeps.of_pair ?_ (by with_reducible assumption)
        split
        · exact vecHead_keeps (Keeps.of_pair (vecHead_keeps hz) (by with_reducible assumption))
        · dsimp only
          exact Keeps.of_pair (vecHead_keeps hz) (by with_reducible assumption)

theorem readAll_keeps {c : OpCtx} {ai fmt : Nat} {s : State} (hz : Keeps ⟨φ0, true, true, φ3, φ4, φ5, φ6, true, true, true, true, φ11, φ12, φ13, φ14, φ15, true, φ17, φ18, φ19⟩ z0 s) : Keeps ⟨φ0, true, true, φ3, φ4, φ5, φ6, true, true, true, true, φ11, φ12, φ13, φ14, φ15, true, φ17, φ18, φ19⟩ z0 (readAll c ai fmt s).2 := by
  unfold readAll
  dsimp only
  exact readElems_keeps hz

theorem takeNanInj_keeps {c : OpCtx} {s : State} (hz : Keeps ⟨φ0, φ1, φ2, φ3, φ4, φ5, φ6, φ7, φ8, φ9, φ10, φ11, φ12, φ13, φ14, φ15, φ16, φ17, φ18, φ19⟩ z0 s) : Keeps ⟨φ0, φ1, φ2, φ3, φ4, φ5, φ6, φ7, φ8, φ9, φ10, φ11, φ12, φ13, φ14, φ15, φ16, φ17, φ18, φ19⟩ z0 (takeNanInj c s).2 := by
  unfold takeNanInj
  split
  · dsimp only
    exact disarm_keeps hz
  · exact hz

theorem vectorEnd_keeps {c : OpCtx} {o : OpRun} {flags : Nat} {s : State} (hz : Keeps ⟨φ0, true, true, true, true, true, true, true, φ8, true, true, φ11, φ12, φ13, φ14, φ15, true, φ17, φ18, φ19⟩ z0 s) : Keeps ⟨φ0, true, true, true, true, true, true, true, φ8, true, true, φ11, φ12, φ13, φ14, φ15, true, φ17, φ18, φ19⟩ z0 (vectorEnd c o flags s) := by
  unfold vectorEnd
  exact noteAct_keeps (opDone_keeps (orNumeric_keeps hz))

theorem onVector_keeps {q kind : Nat} {f : OpCtx → OpRun → State → State} {s : State} (h_f : ∀ y0 y1 y2, Keeps ⟨φ0, φ1, φ2, φ3, φ4, φ5, φ6, φ7, φ8, φ9, φ10, φ11, φ12, φ13, φ14, φ15, φ16, φ17, φ18, φ19⟩ z0 y2 → Keeps ⟨φ0, φ1, φ2, φ3, φ4, φ5, φ6, φ7, φ8, φ9, φ10, φ11, φ12, φ13, φ14, φ15, φ16, φ17, φ18, φ19⟩ z0 (f y0 y1 y2)) (hz : Keeps ⟨φ0, φ1, φ2, φ3, φ4, φ5, φ6, φ7, φ8, φ9, φ10, φ11, φ12, φ13, φ14, φ15, φ16, φ17, φ18, φ19⟩ z0 s) : Keeps ⟨φ0, φ1, φ2, φ3, φ4, φ5, φ6, φ7, φ8, φ9, φ10, φ11, φ12, φ13, φ14, φ15, φ16, φ17, φ18, φ19⟩ z0 (onVector q kind f s) := by
  unfold onVector
  apply onOp_keeps
  · intro _ _ _ k1
    split
    · exact k1
    · exact h_f _ _ _ k1
  · exact hz

theorem whenHere_keeps {c : OpCtx} {o : OpRun} {f : State → State} {s : State} (h_f : ∀ y0, Keeps ⟨φ0, true, true, true, true, true, true, true, φ8, true, true, φ11, φ12, φ13, φ14, φ15, true, φ17, φ18, φ19⟩ z0 y0 → Keeps ⟨φ0, true, true, true, true, true, true, true, φ8, true, true, φ11, φ12, φ13, φ14, φ15, true, φ17, φ18, φ19⟩ z0 (f y0)) (hz : Keeps ⟨φ0, true, true, true, true, true, true, true, φ8, true, true, φ11, φ12, φ13, φ14, φ15, true, φ17, φ18, φ19⟩ z0 s) : Keeps ⟨φ0, true, true, true, true, true, true, true, φ8, true, true, φ11, φ12, φ13, φ14, φ15, true, φ17, φ18, φ19⟩ z0 (whenHere c o f s) := by
  unfold whenHere
  split
  · exact Keeps.of_pair (opGather_keeps hz) (by with_reducible assumption)
  · exact h_f _ (Keeps.of_pair (opGather_keeps hz) (by with_reducible assumption))
  · exact failSince_keeps (Keeps.of_pair (opGather_keeps hz) (by with_reducible assumption))

theorem eltwiseRun_keeps {c : OpCtx} {o : OpRun} {s : State} (hz : Keeps ⟨φ0, true, true, true, true, true, true, true, true, true, true, φ11, φ12, φ13, φ14, φ15, true, φ17, φ18, φ19⟩ z0 s) : Keeps ⟨φ0, true, true, true, true, true, true, true, true, true, true, φ11, φ12, φ13, φ14, φ15, true, φ17, φ18, φ19⟩ z0 (eltwiseRun c o s) := by
  unfold eltwiseRun
  extract_lets +onlyGivenNames t_1 fn_2 const_3 d_4 width_5 h_6
  have k_h_6 : Keeps ⟨φ0, true, true, true, true, true, true, true, true, true, true, φ11, φ12, φ13, φ14, φ15, true, φ17, φ18, φ19⟩ z0 h_6.2 := rescaleReadable_keeps hz
  clear_value h_6
  split
  · exact failSince_keeps k_h_6
  · split
    · exact failWith_keeps k_h_6
    · split
      · exact Keeps.of_pair (readVec_keeps k_h_6) (by with_reducible assumption)
      · extract_lets +onlyGivenNames inj_7 xs0_8 xs_9 ys_10 r_11 fl_12 offs_13 b_14
        have k_inj_7 : Keeps ⟨φ0, true, true, true, true, true, true, true, true, true, true, φ11, φ12, φ13, φ14, φ15, true, φ17, φ18, φ19⟩ z0 inj_7.2 := takeNanInj_keeps (Keeps.of_pair (readVec_keeps k_h_6) (by with_reducible assumption))
        clear_value inj_7
        split
        · extract_lets +onlyGivenNames rows_15 w_16
          have k_w_16 : Keeps ⟨φ0, true, true, true, true, true, true, true, true, true, true, φ11, φ12, φ13, φ14, φ15, true, φ17, φ18, φ19⟩ z0 w_16.2 := writeGrouped_keeps k_inj_7
          clear_value w_16
          split
          · exact failSince_keeps k_w_16
          · exact vectorEnd_keeps k_w_16
        · extract_lets +onlyGivenNames codes_17 w_18
          have k_w_18 : Keeps ⟨φ0, true, true, true, true, true, true, true, true, true, true, φ11, φ12, φ13, φ14, φ15, true, φ17, φ18, φ19⟩ z0 w_18.2 := writeCodes_keeps k_inj_7
          clear_value w_18
          split
          · exact failSince_keeps k_w_18
          · exact vectorEnd_keeps k_w_18

theorem execEltwise_keeps {q : Nat} {s : State} (hz : Keeps ⟨φ0, true, true, true, true, true, true, true, true, true, true, φ11, φ12, φ13, φ14, φ15, true, φ17, φ18, φ19⟩ z0 s) : Kept ⟨φ0, true, true, true, true, true, true, true, true, true, true, φ11, φ12, φ13, φ14, φ15, true, φ17, φ18, φ19⟩ z0 (execEltwise q s) := by
  unfold execEltwise
  apply Kept.next
  apply onVector_keeps
  · intro _ _ _ k1
    exact eltwiseRun_keeps k1
  · exact hz

theorem reduceRun_keeps {q : Nat} {c : OpCtx} {o : OpRun} {s : State} (hz : Keeps ⟨φ0, true, true, true, true, true, true, true, true, true, true, φ11, φ12, φ13, φ14, φ15, true, φ17, φ18, φ19⟩ z0 s) : Keeps ⟨φ0, true, true, true, true, true, true, true, true, true, true, φ11, φ12, φ13, φ14, φ15, true, φ17, φ18, φ19⟩ z0 (reduceRun q c o s) := by
  unfold reduceRun
  extract_lets +onlyGivenNames t_1 fn_2
  split
  · exact Keeps.of_pair (readVec_keeps hz) (by with_reducible assumption)
  · extract_lets +onlyGivenNames n_3 aI_4 rc_5
    have k_rc_5 : Keeps ⟨φ0, true, true, true, true, true, true, true, true, true, true, φ11, φ12, φ13, φ14, φ15, true, φ17, φ18, φ19⟩ z0 rc_5.2 := by
      subst rc_5
      split
      · dsimp only
        exact Keeps.of_pair (readVec_keeps hz) (by with_reducible assumption)
      · exact readWords_keeps (Keeps.of_pair (readVec_keeps hz) (by with_reducible assumption))
    clear_value rc_5
    split
    · exact failSince_keeps k_rc_5
    · extract_lets +onlyGivenNames inj_6 rs_7 fl_8 nf_9 offs_10 b_11 outs_12 codes_13 w_14
      have k_inj_6 : Keeps ⟨φ0, true, true, true, true, true, true, true, true, true, true, φ11, φ12, φ13, φ14, φ15, true, φ17, φ18, φ19⟩ z0 inj_6.2 := takeNanInj_keeps k_rc_5
      have k_w_14 : Keeps ⟨φ0, true, true, true, true, true, true, true, true, true, true, φ11, φ12, φ13, φ14, φ15, true, φ17, φ18, φ19⟩ z0 w_14.2 := by
        subst w_14
        split
        · exact writePartials_keeps k_inj_6
        · exact writeCodes_keeps k_inj_6
      clear_value inj_6 w_14
      split
      · exact failSince_keeps k_w_14
      · extract_lets +onlyGivenNames s1_15 s2_16
        have k_s1_15 : Keeps ⟨φ0, true, true, true, true, true, true, true, true, true, true, φ11, φ12, φ13, φ14, φ15, true, φ17, φ18, φ19⟩ z0 s1_15 := endEvents_keeps k_w_14
        have k_s2_16 : Keeps ⟨φ0, true, true, true, true, true, true, true, true, true, true, φ11, φ12, φ13, φ14, φ15, true, φ17, φ18, φ19⟩ z0 s2_16 := by
          subst s2_16
          split
          · exact k_s1_15
          · exact addCtr_keeps k_s1_15
        clear_value s1_15 s2_16
        exact vectorEnd_keeps k_s2_16

theorem execReduce_keeps {q : Nat} {s : State} (hz : Keeps ⟨φ0, true, true, true, true, true, true, true, true, true, true, φ11, φ12, φ13, φ14, φ15, true, φ17, φ18, φ19⟩ z0 s) : Kept ⟨φ0, true, true, true, true, true, true, true, true, true, true, φ11, φ12, φ13, φ14, φ15, true, φ17, φ18, φ19⟩ z0 (execReduce q s) := by
  unfold execReduce
  apply Kept.next
  apply onVector_keeps
  · intro _ _ _ k1
    exact reduceRun_keeps k1
  · exact hz

theorem optStepRun_keeps {c : OpCtx} {o : OpRun} {s : State} (hz : Keeps ⟨φ0, true, true, true, true, true, true, true, true, true, true, φ11, φ12, φ13, φ14, φ15, true, φ17, φ18, φ19⟩ z0 s) : Keeps ⟨φ0, true, true, true, true, true, true, true, true, true, true, φ11, φ12, φ13, φ14, φ15, true, φ17, φ18, φ19⟩ z0 (optStepRun c o s) := by
  unfold optStepRun
  extract_lets +onlyGivenNames t_1 rule1_2
  split
  · exact Keeps.of_pair (readVec_keeps hz) (by with_reducible assumption)
  · split
    · exact failSince_keeps (Keeps.of_pair (opRead_keeps (Keeps.of_pair (readVec_keeps hz) (by with_reducible assumption))) (by with_reducible assumption))
    · extract_lets +onlyGivenNames p_3 rm_4
      have k_rm_4 : Keeps ⟨φ0, true, true, true, true, true, true, true, true, true, true, φ11, φ12, φ13, φ14, φ15, true, φ17, φ18, φ19⟩ z0 rm_4.2 := readAll_keeps (Keeps.of_pair (opRead_keeps (Keeps.of_pair (readVec_keeps hz) (by with_reducible assumption))) (by with_reducible assumption))
      clear_value rm_4
      split
      · exact failSince_keeps k_rm_4
      · extract_lets +onlyGivenNames rv_5
        have k_rv_5 : Keeps ⟨φ0, true, true, true, true, true, true, true, true, true, true, φ11, φ12, φ13, φ14, φ15, true, φ17, φ18, φ19⟩ z0 rv_5.2 := readAll_keeps k_rm_4
        clear_value rv_5
        split
        · exact failSince_keeps k_rv_5
        · extract_lets +onlyGivenNames inj_6 gs_7 ws_8 n_9 at'_10 rs0_11 rs_12 fl_13 put_14 w1_15
          have k_inj_6 : Keeps ⟨φ0, true, true, true, true, true, true, true, true, true, true, φ11, φ12, φ13, φ14, φ15, true, φ17, φ18, φ19⟩ z0 inj_6.2 := takeNanInj_keeps k_rv_5
          have k_w1_15 : Keeps ⟨φ0, true, true, true, true, true, true, true, true, true, true, φ11, φ12, φ13, φ14, φ15, true, φ17, φ18, φ19⟩ z0 w1_15.2 := by
            subst w1_15
            subst put_14
            dsimp only
            exact writeCodes_keeps k_inj_6
          clear_value inj_6 w1_15
          split
          · exact failSince_keeps k_w1_15
          · extract_lets +onlyGivenNames w2_16
            have k_w2_16 : Keeps ⟨φ0, true, true, true, true, true, true, true, true, true, true, φ11, φ12, φ13, φ14, φ15, true, φ17, φ18, φ19⟩ z0 w2_16.2 := by
              subst w2_16
              subst put_14
              dsimp only
              exact writeCodes_keeps k_w1_15
            clear_value w2_16
            split
            · exact failSince_keeps k_w2_16
            · extract_lets +onlyGivenNames w3_17
              have k_w3_17 : Keeps ⟨φ0, true, true, true, true, true, true, true, true, true, true, φ11, φ12, φ13, φ14, φ15, true, φ17, φ18, φ19⟩ z0 w3_17.2 := by
                subst w3_17
                split
                · subst put_14
                  dsimp only
                  exact writeCodes_keeps k_w2_16
                · exact k_w2_16
              clear_value w3_17
              split
              · exact failSince_keeps k_w3_17
              · exact vectorEnd_keeps k_w3_17

theorem execOptStep_keeps {q : Nat} {s : State} (hz : Keeps ⟨φ0, true, true, true, true, true, true, true, true, true, true, φ11, φ12, φ13, φ14, φ15, true, φ17, φ18, φ19⟩ z0 s) : Kept ⟨φ0, true, true, true, true, true, true, true, true, true, true, φ11, φ12, φ13, φ14, φ15, true, φ17, φ18, φ19⟩ z0 (execOptStep q s) := by
  unfold execOptStep
  apply Kept.next
  apply onVector_keeps
  · intro _ _ _ k1
    exact optStepRun_keeps k1
  · exact hz

end Sys2Proof.Machine
end

