-- ==== Sys2Proof/Laws/KeepsAttn.lean ====
section
/-! SUPPORT. Each operation keeps what Keeps names: attention, the scratchpad banks, register accesses, deliveries. -/

set_option Elab.async false

namespace Sys2Proof.Machine

variable {φ0 φ1 φ2 φ3 φ4 φ5 φ6 φ7 φ8 φ9 φ10 φ11 φ12 φ13 φ14 φ15 φ16 φ17 φ18 φ19 : Bool} {z0 : State}

theorem attnEntries_keeps {c : OpCtx} {p : AttnPar} {s : State} (hz : Keeps ⟨φ0, true, true, φ3, φ4, φ5, φ6, true, true, true, true, φ11, φ12, φ13, φ14, φ15, true, φ17, φ18, φ19⟩ z0 s) : Keeps ⟨φ0, true, true, φ3, φ4, φ5, φ6, true, true, true, true, φ11, φ12, φ13, φ14, φ15, true, φ17, φ18, φ19⟩ z0 (attnEntries c p s).2 := by
  unfold attnEntries
  split
  · exact hz
  · split
    · dsimp only
      exact Keeps.of_pair (opRead_keeps hz) (by with_reducible assumption)
    · dsimp only
      exact Keeps.of_pair (opRead_keeps hz) (by with_reducible assumption)

theorem attnParents_keeps {c : OpCtx} {p : AttnPar} {es : List AttnEntry} {s : State} (hz : Keeps ⟨φ0, true, true, φ3, φ4, φ5, φ6, true, true, true, true, φ11, φ12, φ13, φ14, φ15, true, φ17, φ18, φ19⟩ z0 s) : Keeps ⟨φ0, true, true, φ3, φ4, φ5, φ6, true, true, true, true, φ11, φ12, φ13, φ14, φ15, true, φ17, φ18, φ19⟩ z0 (attnParents c p es s).2 := by
  unfold attnParents
  split
  · exact hz
  · dsimp only
    split
    · dsimp only
      exact readElems_keeps hz
    · dsimp only
      exact readElems_keeps hz

theorem grantTicket_keeps {q : Nat} {j : JobRec} {o : OpRun} {s : State} (hz : Keeps ⟨φ0, true, true, true, true, true, true, true, true, true, true, φ11, true, φ13, φ14, φ15, true, φ17, φ18, φ19⟩ z0 s) : Keeps ⟨φ0, true, true, true, true, true, true, true, true, true, true, φ11, true, φ13, φ14, φ15, true, φ17, φ18, φ19⟩ z0 (grantTicket q j o s) := by
  unfold grantTicket
  extract_lets +onlyGivenNames p_1
  split
  · exact hz
  · split
    · exact failSince_keeps (Keeps.of_pair (attnEntries_keeps hz) (by with_reducible assumption))
    · split
      · exact failSince_keeps (Keeps.of_pair (attnParents_keeps (Keeps.of_pair (attnEntries_keeps hz) (by with_reducible assumption))) (by with_reducible assumption))
      · split
        · exact failWith_keeps (Keeps.of_pair (attnParents_keeps (Keeps.of_pair (attnEntries_keeps hz) (by with_reducible assumption))) (by with_reducible assumption))
        · extract_lets +onlyGivenNames n_2 snaps_3 s3_4
          extract_lets +onlyGivenNames s3_5
          have k_s3_5 : Keeps ⟨φ0, true, true, true, true, true, true, true, true, true, true, φ11, true, φ13, φ14, φ15, true, φ17, φ18, φ19⟩ z0 s3_5 := by
            subst s3_5
            apply takeTicket_keeps
            exact Keeps.of (Keeps.of_pair (attnParents_keeps (Keeps.of_pair (attnEntries_keeps hz) (by with_reducible assumption))) (by with_reducible assumption)) rfl
          clear_value s3_5
          exact updOp_keeps k_s3_5

theorem execTicketGrant_keeps {q : Nat} {s : State} (hz : Keeps ⟨φ0, true, true, true, true, true, true, true, true, true, true, φ11, true, φ13, φ14, φ15, true, φ17, φ18, φ19⟩ z0 s) : Kept ⟨φ0, true, true, true, true, true, true, true, true, true, true, φ11, true, φ13, φ14, φ15, true, φ17, φ18, φ19⟩ z0 (execTicketGrant q s) := by
  unfold execTicketGrant
  apply Kept.next
  split
  · split
    · exact hz
    · split
      · split
        · exact hz
        · apply raise_keeps
          exact Keeps.of hz rfl
      · exact grantTicket_keeps hz
  · exact hz

theorem lookUp_keeps {c : OpCtx} {ctx layer : Nat} {d : CtxDesc} {sn : CtxSnap} {x1 : List Nat} {x2 : State} (hz : Keeps ⟨φ0, true, true, true, true, true, true, true, φ8, true, true, φ11, φ12, φ13, φ14, φ15, true, φ17, φ18, φ19⟩ z0 x2) : Keeps ⟨φ0, true, true, true, true, true, true, true, φ8, true, true, φ11, φ12, φ13, φ14, φ15, true, φ17, φ18, φ19⟩ z0 (lookUp c ctx layer d sn x1 x2).2 := by
  induction x1 generalizing c ctx layer d sn x2 with
  | nil =>
    unfold lookUp
    exact hz
  | cons a l ih =>
    unfold lookUp
    dsimp only
    split
    · split
      · split
        · dsimp only
          exact failWith_keeps (disarm_keeps hz)
        · split
          · dsimp only
            apply failWith_keeps
            split
            · exact disarm_keeps (disarm_keeps hz)
            · exact disarm_keeps hz
          · split
            · dsimp only
              exact Keeps.of_pair (ih (disarm_keeps hz)) (by with_reducible assumption)
            · dsimp only
              exact Keeps.of_pair (ih (disarm_keeps hz)) (by with_reducible assumption)
      · split
        · dsimp only
          exact failWith_keeps (disarm_keeps hz)
        · split
          · dsimp only
            apply failWith_keeps
            split
            · exact disarm_keeps (disarm_keeps hz)
            · exact disarm_keeps hz
          · split
            · dsimp only
              exact Keeps.of_pair (ih (disarm_keeps hz)) (by with_reducible assumption)
            · dsimp only
              exact Keeps.of_pair (ih (disarm_keeps hz)) (by with_reducible assumption)
    · split
      · split
        · dsimp only
          exact failWith_keeps hz
        · split
          · dsimp only
            apply failWith_keeps
            split
            · exact disarm_keeps hz
            · exact hz
          · split
            · dsimp only
              exact Keeps.of_pair (ih hz) (by with_reducible assumption)
            · dsimp only
              exact Keeps.of_pair (ih hz) (by with_reducible assumption)
      · split
        · dsimp only
          exact failWith_keeps hz
        · split
          · dsimp only
            apply failWith_keeps
            split
            · exact disarm_keeps hz
            · exact hz
          · split
            · dsimp only
              exact Keeps.of_pair (ih hz) (by with_reducible assumption)
            · dsimp only
              exact Keeps.of_pair (ih hz) (by with_reducible assumption)

theorem readHead_keeps {c : OpCtx} {v : Bool} {x : FolioDesc} {H D h tok : Nat} {s : State} (hz : Keeps ⟨φ0, true, true, φ3, φ4, φ5, φ6, φ7, true, true, true, φ11, φ12, φ13, φ14, φ15, true, φ17, φ18, φ19⟩ z0 s) : Keeps ⟨φ0, true, true, φ3, φ4, φ5, φ6, φ7, true, true, true, φ11, φ12, φ13, φ14, φ15, true, φ17, φ18, φ19⟩ z0 (readHead c v x H D h tok s).2 := by
  unfold readHead
  dsimp only
  split
  · split
    · split
      · split
        · dsimp only
          exact Keeps.of_pair (lpddrRead_keeps (Keeps.of_pair (lpddrRead_keeps hz) (by with_reducible assumption))) (by with_reducible assumption)
        · dsimp only
          exact Keeps.of_pair (lpddrRead_keeps (Keeps.of_pair (lpddrRead_keeps hz) (by with_reducible assumption))) (by with_reducible assumption)
      · dsimp only
        exact Keeps.of_pair (lpddrRead_keeps hz) (by with_reducible assumption)
    · split
      · split
        · dsimp only
          exact Keeps.of_pair (lpddrRead_keeps (Keeps.of_pair (lpddrRead_keeps hz) (by with_reducible assumption))) (by with_reducible assumption)
        · dsimp only
          exact Keeps.of_pair (lpddrRead_keeps (Keeps.of_pair (lpddrRead_keeps hz) (by with_reducible assumption))) (by with_reducible assumption)
      · dsimp only
        exact Keeps.of_pair (lpddrRead_keeps hz) (by with_reducible assumption)
  · dsimp only
    exact Keeps.of_pair (lpddrRead_keeps hz) (by with_reducible assumption)

theorem readTokens_keeps {c : OpCtx} {fs : List (Nat × FolioDesc)} {H D h : Nat} {x1 : List Nat} {x2 : State} (hz : Keeps ⟨φ0, true, true, φ3, φ4, φ5, φ6, φ7, true, true, true, φ11, φ12, φ13, φ14, φ15, true, φ17, φ18, φ19⟩ z0 x2) : Keeps ⟨φ0, true, true, φ3, φ4, φ5, φ6, φ7, true, true, true, φ11, φ12, φ13, φ14, φ15, true, φ17, φ18, φ19⟩ z0 (readTokens c fs H D h x1 x2).2 := by
  induction x1 generalizing c fs H D h x2 with
  | nil =>
    unfold readTokens
    exact hz
  | cons a l ih =>
    unfold readTokens
    split
    · exact hz
    · split
      · dsimp only
        exact Keeps.of_pair (readHead_keeps hz) (by with_reducible assumption)
      · split
        · dsimp only
          exact Keeps.of_pair (readHead_keeps (Keeps.of_pair (readHead_keeps hz) (by with_reducible assumption))) (by with_reducible assumption)
        · split
          · dsimp only
            exact Keeps.of_pair (ih (Keeps.of_pair (readHead_keeps (Keeps.of_pair (readHead_keeps hz) (by with_reducible assumption))) (by with_reducible assumption))) (by with_reducible assumption)
          · dsimp only
            exact Keeps.of_pair (ih (Keeps.of_pair (readHead_keeps (Keeps.of_pair (readHead_keeps hz) (by with_reducible assumption))) (by with_reducible assumption))) (by with_reducible assumption)

theorem writeHead_keeps {c : OpCtx} {v ieee : Bool} {kvX : Int} {x : FolioDesc} {H D h tok : Nat} {vals : List Val} {s : State} (hz : Keeps ⟨φ0, true, true, φ3, φ4, φ5, φ6, φ7, true, true, true, φ11, φ12, φ13, φ14, φ15, true, φ17, φ18, φ19⟩ z0 s) : Keeps ⟨φ0, true, true, φ3, φ4, φ5, φ6, φ7, true, true, true, φ11, φ12, φ13, φ14, φ15, true, φ17, φ18, φ19⟩ z0 (writeHead c v ieee kvX x H D h tok vals s).2 := by
  unfold writeHead
  dsimp only
  split
  · split
    · split
      · dsimp only
        exact Keeps.of_pair (lpddrWrite_keeps hz) (by with_reducible assumption)
      · split
        · dsimp only
          exact Keeps.of_pair (lpddrWrite_keeps (Keeps.of_pair (lpddrWrite_keeps hz) (by with_reducible assumption))) (by with_reducible assumption)
        · dsimp only
          exact Keeps.of_pair (lpddrWrite_keeps (Keeps.of_pair (lpddrWrite_keeps hz) (by with_reducible assumption))) (by with_reducible assumption)
    · split
      · dsimp only
        exact Keeps.of_pair (lpddrWrite_keeps hz) (by with_reducible assumption)
      · split
        · dsimp only
          exact Keeps.of_pair (lpddrWrite_keeps (Keeps.of_pair (lpddrWrite_keeps hz) (by with_reducible assumption))) (by with_reducible assumption)
        · dsimp only
          exact Keeps.of_pair (lpddrWrite_keeps (Keeps.of_pair (lpddrWrite_keeps hz) (by with_reducible assumption))) (by with_reducible assumption)
  · dsimp only
    exact Keeps.of_pair (lpddrWrite_keeps hz) (by with_reducible assumption)

theorem writeKv_keeps {c : OpCtx} {t : Tod} {p : AttnPar} {e : AttnEntry} {d : CtxDesc} {p0 : Nat} {fs : List (Nat × FolioDesc)} {kb vb : Nat → Nat} {x1 : List (Nat × Nat)} {x2 : Nat} {x3 : State} (hz : Keeps ⟨φ0, true, true, φ3, φ4, φ5, φ6, φ7, true, true, true, φ11, φ12, φ13, φ14, φ15, true, φ17, φ18, φ19⟩ z0 x3) : Keeps ⟨φ0, true, true, φ3, φ4, φ5, φ6, φ7, true, true, true, φ11, φ12, φ13, φ14, φ15, true, φ17, φ18, φ19⟩ z0 (writeKv c t p e d p0 fs kb vb x1 x2 x3).2 := by
  induction x1 generalizing c t p e d p0 fs kb vb x2 x3 with
  | nil =>
    unfold writeKv
    exact hz
  | cons a l ih =>
    unfold writeKv
    dsimp only
    split
    · exact hz
    · split
      · dsimp only
        exact Keeps.of_pair (writeHead_keeps hz) (by with_reducible assumption)
      · split
        · dsimp only
          exact Keeps.of_pair (writeHead_keeps (Keeps.of_pair (writeHead_keeps hz) (by with_reducible assumption))) (by with_reducible assumption)
        · exact ih (Keeps.of_pair (writeHead_keeps (Keeps.of_pair (writeHead_keeps hz) (by with_reducible assumption))) (by with_reducible assumption))

theorem writeWords_keeps {c : OpCtx} {ai : Nat} {off : Int} {ws : List Nat} {s : State} (hz : Keeps ⟨φ0, true, true, φ3, φ4, φ5, φ6, true, true, true, true, φ11, φ12, φ13, φ14, φ15, true, φ17, φ18, φ19⟩ z0 s) : Keeps ⟨φ0, true, true, φ3, φ4, φ5, φ6, true, true, true, true, φ11, φ12, φ13, φ14, φ15, true, φ17, φ18, φ19⟩ z0 (writeWords c ai off ws s).2 := by
  unfold writeWords
  exact writeCodes_keeps hz

theorem readRowWords_keeps {c : OpCtx} {ai n : Nat} {off : Int} {s : State} (hz : Keeps ⟨φ0, true, true, φ3, φ4, φ5, φ6, true, true, true, true, φ11, φ12, φ13, φ14, φ15, true, φ17, φ18, φ19⟩ z0 s) : Keeps ⟨φ0, true, true, φ3, φ4, φ5, φ6, true, true, true, true, φ11, φ12, φ13, φ14, φ15, true, φ17, φ18, φ19⟩ z0 (readRowWords c ai n off s).2 := by
  unfold readRowWords
  exact readRuns_keeps hz

theorem readState_keeps {c : OpCtx} {ai D row : Nat} {s : State} (hz : Keeps ⟨φ0, true, true, φ3, φ4, φ5, φ6, true, true, true, true, φ11, φ12, φ13, φ14, φ15, true, φ17, φ18, φ19⟩ z0 s) : Keeps ⟨φ0, true, true, φ3, φ4, φ5, φ6, true, true, true, true, φ11, φ12, φ13, φ14, φ15, true, φ17, φ18, φ19⟩ z0 (readState c ai D row s).2 := by
  unfold readState
  dsimp only
  exact readRowWords_keeps hz

theorem writeState_keeps {c : OpCtx} {t : Tod} {stats : Option Nat} {row : Nat} {st : AttnSt} {s : State} (hz : Keeps ⟨φ0, true, true, φ3, φ4, φ5, φ6, true, true, true, true, φ11, φ12, φ13, φ14, φ15, true, φ17, φ18, φ19⟩ z0 s) : Keeps ⟨φ0, true, true, φ3, φ4, φ5, φ6, true, true, true, true, φ11, φ12, φ13, φ14, φ15, true, φ17, φ18, φ19⟩ z0 (writeState c t stats row st s).2 := by
  unfold writeState
  dsimp only
  split
  · split
    · dsimp only
      exact writeWords_keeps hz
    · split
      · dsimp only
        exact writeWords_keeps hz
      · dsimp only
        exact writeWords_keeps (writeWords_keeps hz)
  · split
    · dsimp only
      exact writeCodes_keeps hz
    · split
      · dsimp only
        exact writeCodes_keeps hz
      · dsimp only
        exact writeWords_keeps (writeCodes_keeps hz)

theorem putRows_keeps {c : OpCtx} {t : Tod} {stats : Option Nat} {x1 : List (Nat × AttnSt)} {x2 : Nat} {x3 : State} (hz : Keeps ⟨φ0, true, true, φ3, φ4, φ5, φ6, true, true, true, true, φ11, φ12, φ13, φ14, φ15, true, φ17, φ18, φ19⟩ z0 x3) : Keeps ⟨φ0, true, true, φ3, φ4, φ5, φ6, true, true, true, true, φ11, φ12, φ13, φ14, φ15, true, φ17, φ18, φ19⟩ z0 (putRows c t stats x1 x2 x3).2 := by
  induction x1 generalizing c t stats x2 x3 with
  | nil =>
    unfold putRows
    exact hz
  | cons a l ih =>
    unfold putRows
    dsimp only
    split
    · split
      · exact hz
      · split
        · dsimp only
          exact writeState_keeps hz
        · exact ih (writeState_keeps hz)
    · split
      · dsimp only
        exact readState_keeps hz
      · split
        · dsimp only
          exact writeState_keeps (readState_keeps hz)
        · exact ih (writeState_keeps (readState_keeps hz))

theorem attnMacs_keeps {c : OpCtx} {o : OpRun} {k rows toks : Nat} {s : State} (hz : Keeps ⟨φ0, φ1, φ2, φ3, φ4, φ5, φ6, φ7, φ8, φ9, φ10, φ11, φ12, φ13, φ14, φ15, φ16, φ17, φ18, φ19⟩ z0 s) : Keeps ⟨φ0, φ1, φ2, φ3, φ4, φ5, φ6, φ7, φ8, φ9, φ10, φ11, φ12, φ13, φ14, φ15, φ16, φ17, φ18, φ19⟩ z0 (attnMacs c o k rows toks s) := by
  unfold attnMacs
  extract_lets +onlyGivenNames n_1
  exact noteAct_keeps (addCtr_keeps hz)

theorem ctxRows_keeps {c : OpCtx} {o : OpRun} {p : AttnPar} {e : AttnEntry} {H p0 : Nat} {ps : List Int} {fs : List (Nat × FolioDesc)} {span : List Nat} {ea : Nat → Nat} {x1 : List Nat} {x2 : State} (hz : Keeps ⟨φ0, true, true, true, true, true, true, true, true, true, true, φ11, φ12, φ13, φ14, φ15, true, φ17, φ18, φ19⟩ z0 x2) : Keeps ⟨φ0, true, true, true, true, true, true, true, true, true, true, φ11, φ12, φ13, φ14, φ15, true, φ17, φ18, φ19⟩ z0 (ctxRows c o p e H p0 ps fs span ea x1 x2).2 := by
  induction x1 generalizing c o p e H p0 ps fs span ea x2 with
  | nil =>
    unfold ctxRows
    exact hz
  | cons a l ih =>
    unfold ctxRows
    split
    · dsimp only
      exact failSince_keeps (Keeps.of_pair (readTokens_keeps hz) (by with_reducible assumption))
    · split
      · dsimp only
        exact failWith_keeps (Keeps.of_pair (readTokens_keeps hz) (by with_reducible assumption))
      · dsimp only
        split
        · dsimp only
          exact Keeps.of_pair (ih (attnMacs_keeps (Keeps.of_pair (readTokens_keeps hz) (by with_reducible assumption)))) (by with_reducible assumption)
        · dsimp only
          exact Keeps.of_pair (ih (attnMacs_keeps (Keeps.of_pair (readTokens_keeps hz) (by with_reducible assumption)))) (by with_reducible assumption)

theorem attnEntry_keeps {c : OpCtx} {o : OpRun} {p : AttnPar} {e : AttnEntry} {ps : List Int} {ea kb vb : Nat → Nat} {s : State} (hz : Keeps ⟨φ0, true, true, true, true, true, true, true, true, true, true, φ11, φ12, φ13, φ14, φ15, true, φ17, φ18, φ19⟩ z0 s) : Keeps ⟨φ0, true, true, true, true, true, true, true, true, true, true, φ11, φ12, φ13, φ14, φ15, true, φ17, φ18, φ19⟩ z0 (attnEntry c o p e ps ea kb vb s).2 := by
  unfold attnEntry
  dsimp only
  split
  · dsimp only
    exact failWith_keeps hz
  · split
    · dsimp only
      exact Keeps.of_pair (lookUp_keeps hz) (by with_reducible assumption)
    · split
      · dsimp only
        exact failSince_keeps (Keeps.of_pair (writeKv_keeps (Keeps.of_pair (lookUp_keeps hz) (by with_reducible assumption))) (by with_reducible assumption))
      · split
        · dsimp only
          exact Keeps.of_pair (ctxRows_keeps (Keeps.of_pair (writeKv_keeps (Keeps.of_pair (lookUp_keeps hz) (by with_reducible assumption))) (by with_reducible assumption))) (by with_reducible assumption)
        · dsimp only
          exact Keeps.of_pair (ctxRows_keeps (Keeps.of_pair (writeKv_keeps (Keeps.of_pair (lookUp_keeps hz) (by with_reducible assumption))) (by with_reducible assumption))) (by with_reducible assumption)

theorem attnAll_keeps {c : OpCtx} {o : OpRun} {p : AttnPar} {es : List AttnEntry} {ps : List Int} {ea kb vb : Nat → Nat} {x1 : List (Nat × AttnEntry)} {x2 : State} (hz : Keeps ⟨φ0, true, true, true, true, true, true, true, true, true, true, φ11, φ12, φ13, φ14, φ15, true, φ17, φ18, φ19⟩ z0 x2) : Keeps ⟨φ0, true, true, true, true, true, true, true, true, true, true, φ11, φ12, φ13, φ14, φ15, true, φ17, φ18, φ19⟩ z0 (attnAll c o p es ps ea kb vb x1 x2).2 := by
  induction x1 generalizing c o p es ps ea kb vb x2 with
  | nil =>
    unfold attnAll
    exact hz
  | cons a l ih =>
    unfold attnAll
    split
    · dsimp only
      exact Keeps.of_pair (attnEntry_keeps hz) (by with_reducible assumption)
    · split
      · dsimp only
        exact Keeps.of_pair (ih (Keeps.of_pair (attnEntry_keeps hz) (by with_reducible assumption))) (by with_reducible assumption)
      · dsimp only
        exact Keeps.of_pair (ih (Keeps.of_pair (attnEntry_keeps hz) (by with_reducible assumption))) (by with_reducible assumption)

theorem attnEnd_keeps {c : OpCtx} {o : OpRun} {stats : Option Nat} {rows : List (Nat × AttnSt)} {nf0 fl0 : Nat} {s : State} (hz : Keeps ⟨φ0, true, true, true, true, true, true, true, true, true, true, φ11, φ12, φ13, φ14, φ15, true, φ17, φ18, φ19⟩ z0 s) : Keeps ⟨φ0, true, true, true, true, true, true, true, true, true, true, φ11, φ12, φ13, φ14, φ15, true, φ17, φ18, φ19⟩ z0 (attnEnd c o stats rows nf0 fl0 s) := by
  unfold attnEnd
  extract_lets +onlyGivenNames inj_1 rows'_2 fl_3 w_4
  have k_inj_1 : Keeps ⟨φ0, true, true, true, true, true, true, true, true, true, true, φ11, φ12, φ13, φ14, φ15, true, φ17, φ18, φ19⟩ z0 inj_1.2 := takeNanInj_keeps hz
  have k_w_4 : Keeps ⟨φ0, true, true, true, true, true, true, true, true, true, true, φ11, φ12, φ13, φ14, φ15, true, φ17, φ18, φ19⟩ z0 w_4.2 := putRows_keeps k_inj_1
  clear_value inj_1 w_4
  split
  · exact failSince_keeps k_w_4
  · extract_lets +onlyGivenNames nf_5
    exact vectorEnd_keeps (endEvents_keeps k_w_4)

theorem attnCombine_keeps {c : OpCtx} {o : OpRun} {stats : Option Nat} {x1 : List Nat} {x2 : List (Nat × AttnSt)} {x3 : State} (hz : Keeps ⟨φ0, true, true, true, true, true, true, true, true, true, true, φ11, φ12, φ13, φ14, φ15, true, φ17, φ18, φ19⟩ z0 x3) : Keeps ⟨φ0, true, true, true, true, true, true, true, true, true, true, φ11, φ12, φ13, φ14, φ15, true, φ17, φ18, φ19⟩ z0 (attnCombine c o stats x1 x2 x3) := by
  induction x1 generalizing c o stats x2 x3 with
  | nil =>
    unfold attnCombine
    exact attnEnd_keeps hz
  | cons a l ih =>
    unfold attnCombine
    extract_lets +onlyGivenNames r_1
    have k_r_1 : Keeps ⟨φ0, true, true, true, true, true, true, true, true, true, true, φ11, φ12, φ13, φ14, φ15, true, φ17, φ18, φ19⟩ z0 r_1.2 := readState_keeps hz
    clear_value r_1
    split
    · exact failSince_keeps k_r_1
    · exact ih k_r_1

theorem attnFwdRun_keeps {c : OpCtx} {o : OpRun} {s : State} (hz : Keeps ⟨φ0, true, true, true, true, true, true, true, true, true, true, φ11, φ12, φ13, φ14, φ15, true, φ17, φ18, φ19⟩ z0 s) : Keeps ⟨φ0, true, true, true, true, true, true, true, true, true, true, φ11, φ12, φ13, φ14, φ15, true, φ17, φ18, φ19⟩ z0 (attnFwdRun c o s) := by
  unfold attnFwdRun
  extract_lets +onlyGivenNames t_1 p_2 stats_3
  split
  · exact failWith_keeps hz
  · split
    · exact hz
    · apply whenHere_keeps
      · intro _ k4
        split
        · exact attnCombine_keeps k4
        · split
          · exact failSince_keeps (Keeps.of_pair (attnEntries_keeps k4) (by with_reducible assumption))
          · split
            · exact failSince_keeps (Keeps.of_pair (attnParents_keeps (Keeps.of_pair (attnEntries_keeps k4) (by with_reducible assumption))) (by with_reducible assumption))
            · extract_lets +onlyGivenNames ra_5
              have k_ra_5 : Keeps ⟨φ0, true, true, true, true, true, true, true, true, true, true, φ11, φ12, φ13, φ14, φ15, true, φ17, φ18, φ19⟩ z0 ra_5.2 := readAll_keeps (Keeps.of_pair (attnParents_keeps (Keeps.of_pair (attnEntries_keeps k4) (by with_reducible assumption))) (by with_reducible assumption))
              clear_value ra_5
              split
              · exact failSince_keeps k_ra_5
              · extract_lets +onlyGivenNames rk_6
                have k_rk_6 : Keeps ⟨φ0, true, true, true, true, true, true, true, true, true, true, φ11, φ12, φ13, φ14, φ15, true, φ17, φ18, φ19⟩ z0 rk_6.2 := by
                  subst rk_6
                  split
                  · exact readAll_keeps k_ra_5
                  · exact k_ra_5
                clear_value rk_6
                split
                · exact failSince_keeps k_rk_6
                · extract_lets +onlyGivenNames rv_7
                  have k_rv_7 : Keeps ⟨φ0, true, true, true, true, true, true, true, true, true, true, φ11, φ12, φ13, φ14, φ15, true, φ17, φ18, φ19⟩ z0 rv_7.2 := by
                    subst rv_7
                    split
                    · exact readAll_keeps k_rk_6
                    · exact k_rk_6
                  clear_value rv_7
                  split
                  · exact failSince_keeps k_rv_7
                  · extract_lets +onlyGivenNames qa_8 kb_9 vb_10 v_11
                    split
                    · exact Keeps.of_pair (attnAll_keeps k_rv_7) (by with_reducible assumption)
                    · exact attnEnd_keeps (Keeps.of_pair (attnAll_keeps k_rv_7) (by with_reducible assumption))
      · exact hz

theorem execAttentionFwd_keeps {q : Nat} {s : State} (hz : Keeps ⟨φ0, true, true, true, true, true, true, true, true, true, true, φ11, φ12, φ13, φ14, φ15, true, φ17, φ18, φ19⟩ z0 s) : Kept ⟨φ0, true, true, true, true, true, true, true, true, true, true, φ11, φ12, φ13, φ14, φ15, true, φ17, φ18, φ19⟩ z0 (execAttentionFwd q s) := by
  unfold execAttentionFwd
  apply Kept.next
  apply onVector_keeps
  · intro _ _ _ k1
    exact attnFwdRun_keeps k1
  · exact hz

theorem writeGrad_keeps {c : OpCtx} {t : Tod} {ai row : Nat} {l : List GradElt} {s : State} (hz : Keeps ⟨φ0, true, true, φ3, φ4, φ5, φ6, true, true, true, true, φ11, φ12, φ13, φ14, φ15, true, φ17, φ18, φ19⟩ z0 s) : Keeps ⟨φ0, true, true, φ3, φ4, φ5, φ6, true, true, true, true, φ11, φ12, φ13, φ14, φ15, true, φ17, φ18, φ19⟩ z0 (writeGrad c t ai row l s).2 := by
  unfold writeGrad
  dsimp only
  exact writeCodes_keeps hz

theorem writeGrads_keeps {c : OpCtx} {t : Tod} {ai : Nat} {l : GradRows} {fl : Nat} {s : State} (hz : Keeps ⟨φ0, true, true, φ3, φ4, φ5, φ6, true, true, true, true, φ11, φ12, φ13, φ14, φ15, true, φ17, φ18, φ19⟩ z0 s) : Keeps ⟨φ0, true, true, φ3, φ4, φ5, φ6, true, true, true, true, φ11, φ12, φ13, φ14, φ15, true, φ17, φ18, φ19⟩ z0 (writeGrads c t ai l fl s).2 := by
  induction l generalizing fl s with
  | nil => exact hz
  | cons e r ih =>
    unfold writeGrads
    dsimp only
    split
    · exact writeGrad_keeps hz
    · exact ih (writeGrad_keeps hz)

theorem readStats_keeps {c : OpCtx} {ai : Nat} {x1 : List Nat} {x2 : State} (hz : Keeps ⟨φ0, true, true, φ3, φ4, φ5, φ6, true, true, true, true, φ11, φ12, φ13, φ14, φ15, true, φ17, φ18, φ19⟩ z0 x2) : Keeps ⟨φ0, true, true, φ3, φ4, φ5, φ6, true, true, true, true, φ11, φ12, φ13, φ14, φ15, true, φ17, φ18, φ19⟩ z0 (readStats c ai x1 x2).2 := by
  induction x1 generalizing c ai x2 with
  | nil =>
    unfold readStats
    exact hz
  | cons a l ih =>
    unfold readStats
    dsimp only
    split
    · dsimp only
      exact readRowWords_keeps hz
    · split
      · dsimp only
        exact Keeps.of_pair (ih (readRowWords_keeps hz)) (by with_reducible assumption)
      · dsimp only
        exact Keeps.of_pair (ih (readRowWords_keeps hz)) (by with_reducible assumption)

theorem bwdHeads_keeps {c : OpCtx} {o : OpRun} {p : AttnPar} {e : AttnEntry} {H p0 : Nat} {ps : List Int} {fs : List (Nat × FolioDesc)} {span : List Nat} {qa da : Nat → Nat} {st : List (Nat × List Nat)} {inj : Bool} {x1 : List Nat} {x2 : Nat × Nat} {x3 : State} (hz : Keeps ⟨φ0, true, true, true, true, true, true, true, true, true, true, φ11, φ12, φ13, φ14, φ15, true, φ17, φ18, φ19⟩ z0 x3) : Keeps ⟨φ0, true, true, true, true, true, true, true, true, true, true, φ11, φ12, φ13, φ14, φ15, true, φ17, φ18, φ19⟩ z0 (bwdHeads c o p e H p0 ps fs span qa da st inj x1 x2 x3) := by
  induction x1 generalizing c o p e H p0 ps fs span qa da st inj x2 x3 with
  | nil =>
    unfold bwdHeads
    exact vectorEnd_keeps (endEvents_keeps hz)
  | cons a l ih =>
    unfold bwdHeads
    split
    · exact failSince_keeps (Keeps.of_pair (readTokens_keeps hz) (by with_reducible assumption))
    · split
      · exact failWith_keeps (Keeps.of_pair (readTokens_keeps hz) (by with_reducible assumption))
      · extract_lets +onlyGivenNames rows_1 gr0_2 hurt_3 gr_4 f0_5 nf_6 place_7 s2_8 w1_9
        have k_s2_8 : Keeps ⟨φ0, true, true, true, true, true, true, true, true, true, true, φ11, φ12, φ13, φ14, φ15, true, φ17, φ18, φ19⟩ z0 s2_8 := attnMacs_keeps (Keeps.of_pair (readTokens_keeps hz) (by with_reducible assumption))
        have k_w1_9 : Keeps ⟨φ0, true, true, true, true, true, true, true, true, true, true, φ11, φ12, φ13, φ14, φ15, true, φ17, φ18, φ19⟩ z0 w1_9.2 := writeGrads_keeps k_s2_8
        clear_value s2_8 w1_9
        split
        · exact failSince_keeps k_w1_9
        · extract_lets +onlyGivenNames w2_10
          have k_w2_10 : Keeps ⟨φ0, true, true, true, true, true, true, true, true, true, true, φ11, φ12, φ13, φ14, φ15, true, φ17, φ18, φ19⟩ z0 w2_10.2 := writeGrads_keeps k_w1_9
          clear_value w2_10
          split
          · exact failSince_keeps k_w2_10
          · extract_lets +onlyGivenNames w3_11
            have k_w3_11 : Keeps ⟨φ0, true, true, true, true, true, true, true, true, true, true, φ11, φ12, φ13, φ14, φ15, true, φ17, φ18, φ19⟩ z0 w3_11.2 := writeGrads_keeps k_w2_10
            clear_value w3_11
            split
            · exact failSince_keeps k_w3_11
            · exact ih k_w3_11

theorem attnBwdRun_keeps {c : OpCtx} {o : OpRun} {s : State} (hz : Keeps ⟨φ0, true, true, true, true, true, true, true, true, true, true, φ11, φ12, φ13, φ14, φ15, true, φ17, φ18, φ19⟩ z0 s) : Keeps ⟨φ0, true, true, true, true, true, true, true, true, true, true, φ11, φ12, φ13, φ14, φ15, true, φ17, φ18, φ19⟩ z0 (attnBwdRun c o s) := by
  unfold attnBwdRun
  extract_lets +onlyGivenNames t_1 p_2
  split
  · exact failWith_keeps hz
  · split
    · exact hz
    · apply whenHere_keeps
      · intro _ k3
        extract_lets +onlyGivenNames e_4 ra_5
        have k_ra_5 : Keeps ⟨φ0, true, true, true, true, true, true, true, true, true, true, φ11, φ12, φ13, φ14, φ15, true, φ17, φ18, φ19⟩ z0 ra_5.2 := readAll_keeps k3
        clear_value ra_5
        split
        · exact failSince_keeps k_ra_5
        · extract_lets +onlyGivenNames rd_6
          have k_rd_6 : Keeps ⟨φ0, true, true, true, true, true, true, true, true, true, true, φ11, φ12, φ13, φ14, φ15, true, φ17, φ18, φ19⟩ z0 rd_6.2 := readAll_keeps k_ra_5
          clear_value rd_6
          split
          · exact failSince_keeps k_rd_6
          · split
            · exact failSince_keeps (Keeps.of_pair (readStats_keeps k_rd_6) (by with_reducible assumption))
            · extract_lets +onlyGivenNames d_7 p0_8 span_9
              split
              · exact Keeps.of_pair (lookUp_keeps (Keeps.of_pair (readStats_keeps k_rd_6) (by with_reducible assumption))) (by with_reducible assumption)
              · extract_lets +onlyGivenNames qa_10 da_11 inj_12
                have k_inj_12 : Keeps ⟨φ0, true, true, true, true, true, true, true, true, true, true, φ11, φ12, φ13, φ14, φ15, true, φ17, φ18, φ19⟩ z0 inj_12.2 := takeNanInj_keeps (Keeps.of_pair (lookUp_keeps (Keeps.of_pair (readStats_keeps k_rd_6) (by with_reducible assumption))) (by with_reducible assumption))
                clear_value inj_12
                exact bwdHeads_keeps k_inj_12
      · exact hz

theorem execAttentionBwd_keeps {q : Nat} {s : State} (hz : Keeps ⟨φ0, true, true, true, true, true, true, true, true, true, true, φ11, φ12, φ13, φ14, φ15, true, φ17, φ18, φ19⟩ z0 s) : Kept ⟨φ0, true, true, true, true, true, true, true, true, true, true, φ11, φ12, φ13, φ14, φ15, true, φ17, φ18, φ19⟩ z0 (execAttentionBwd q s) := by
  unfold execAttentionBwd
  apply Kept.next
  apply onVector_keeps
  · intro _ _ _ k1
    exact attnBwdRun_keeps k1
  · exact hz

theorem bankTo_keeps {n b : Nat} {st : BankState} {job : Nat} {s : State} (hz : Keeps ⟨φ0, true, true, φ3, φ4, φ5, φ6, true, φ8, true, φ10, φ11, φ12, φ13, φ14, φ15, true, φ17, φ18, φ19⟩ z0 s) : Keeps ⟨φ0, true, true, φ3, φ4, φ5, φ6, true, φ8, true, φ10, φ11, φ12, φ13, φ14, φ15, true, φ17, φ18, φ19⟩ z0 (bankTo n b st job s) := by
  unfold bankTo
  extract_lets +onlyGivenNames p_1 k_2
  exact raise_keeps (setSpad_keeps hz)

theorem closeBank_keeps {n b : Nat} {s : State} (hz : Keeps ⟨φ0, φ1, φ2, φ3, φ4, φ5, φ6, true, φ8, φ9, φ10, φ11, φ12, φ13, φ14, φ15, φ16, φ17, φ18, φ19⟩ z0 s) : Keeps ⟨φ0, φ1, φ2, φ3, φ4, φ5, φ6, true, φ8, φ9, φ10, φ11, φ12, φ13, φ14, φ15, φ16, φ17, φ18, φ19⟩ z0 (closeBank n b s) := by
  unfold closeBank
  extract_lets +onlyGivenNames p_1
  exact setSpad_keeps hz

theorem bankDown_keeps {n b job : Nat} {s : State} (hz : Keeps ⟨φ0, true, true, φ3, φ4, φ5, φ6, true, φ8, true, φ10, φ11, φ12, φ13, φ14, φ15, true, φ17, φ18, φ19⟩ z0 s) : Keeps ⟨φ0, true, true, φ3, φ4, φ5, φ6, true, φ8, true, φ10, φ11, φ12, φ13, φ14, φ15, true, φ17, φ18, φ19⟩ z0 (bankDown n b job s) := by
  unfold bankDown
  extract_lets +onlyGivenNames k_1
  split
  · exact bankTo_keeps (closeBank_keeps hz)
  · exact setSpad_keeps hz
  · exact hz

theorem bankWake_keeps {n b job : Nat} {s : State} (hz : Keeps ⟨φ0, true, true, φ3, φ4, φ5, φ6, true, φ8, true, φ10, φ11, φ12, φ13, φ14, φ15, true, φ17, φ18, φ19⟩ z0 s) : Keeps ⟨φ0, true, true, φ3, φ4, φ5, φ6, true, φ8, true, φ10, φ11, φ12, φ13, φ14, φ15, true, φ17, φ18, φ19⟩ z0 (bankWake n b job s) := by
  unfold bankWake
  extract_lets +onlyGivenNames k_1
  split
  · exact bankTo_keeps hz
  · exact setSpad_keeps hz
  · exact hz

theorem regCheckAt_keeps {r : Req} {wr : Bool} {c i off size : Nat} {s : State} (hz : Keeps ⟨φ0, true, true, φ3, φ4, φ5, φ6, φ7, φ8, true, φ10, φ11, φ12, φ13, φ14, φ15, true, φ17, φ18, φ19⟩ z0 s) : Keeps ⟨φ0, true, true, φ3, φ4, φ5, φ6, φ7, φ8, true, φ10, φ11, φ12, φ13, φ14, φ15, true, φ17, φ18, φ19⟩ z0 (regCheckAt r wr c i off size s).2 := by
  unfold regCheckAt
  dsimp only
  split
  · dsimp only
    exact storeEvent_keeps hz
  · split
    · dsimp only
      exact raise_keeps hz
    · split
      · dsimp only
        exact raise_keeps hz
      · exact hz

theorem regUnmapped_keeps {r : Req} {wr : Bool} {addr : Nat} {s : State} (hz : Keeps ⟨φ0, true, true, φ3, φ4, φ5, φ6, φ7, φ8, true, φ10, φ11, φ12, φ13, φ14, φ15, true, φ17, φ18, φ19⟩ z0 s) : Keeps ⟨φ0, true, true, φ3, φ4, φ5, φ6, φ7, φ8, true, φ10, φ11, φ12, φ13, φ14, φ15, true, φ17, φ18, φ19⟩ z0 (regUnmapped r wr addr s).2 := by
  unfold regUnmapped
  dsimp only
  exact raise_keeps hz

theorem regCheck_keeps {r : Req} {wr : Bool} {addr size : Nat} {s : State} (hz : Keeps ⟨φ0, true, true, φ3, φ4, φ5, φ6, φ7, φ8, true, φ10, φ11, φ12, φ13, φ14, φ15, true, φ17, φ18, φ19⟩ z0 s) : Keeps ⟨φ0, true, true, φ3, φ4, φ5, φ6, φ7, φ8, true, φ10, φ11, φ12, φ13, φ14, φ15, true, φ17, φ18, φ19⟩ z0 (regCheck r wr addr size s).2 := by
  unfold regCheck
  split
  · exact regUnmapped_keeps hz
  · exact regCheckAt_keeps hz

theorem regAt_keeps {r : Req} {wr : Bool} {c i off : Nat} {s : State} (hz : Keeps ⟨φ0, true, true, φ3, φ4, φ5, φ6, φ7, φ8, true, φ10, φ11, φ12, φ13, φ14, φ15, true, φ17, φ18, φ19⟩ z0 s) : Keeps ⟨φ0, true, true, φ3, φ4, φ5, φ6, φ7, φ8, true, φ10, φ11, φ12, φ13, φ14, φ15, true, φ17, φ18, φ19⟩ z0 (regAt r wr c i off s).2 := by
  unfold regAt
  split
  · exact regCheckAt_keeps hz
  · exact regUnmapped_keeps hz

theorem regWriteAt_keeps {r : Req} {c i off : Nat} {f : State → RegSt × State} {s : State} (h_f : ∀ y0, Keeps ⟨φ0, true, true, φ3, φ4, φ5, φ6, φ7, φ8, true, φ10, φ11, φ12, φ13, φ14, φ15, true, φ17, φ18, φ19⟩ z0 y0 → Keeps ⟨φ0, true, true, φ3, φ4, φ5, φ6, φ7, φ8, true, φ10, φ11, φ12, φ13, φ14, φ15, true, φ17, φ18, φ19⟩ z0 (f y0).2) (hz : Keeps ⟨φ0, true, true, φ3, φ4, φ5, φ6, φ7, φ8, true, φ10, φ11, φ12, φ13, φ14, φ15, true, φ17, φ18, φ19⟩ z0 s) : Keeps ⟨φ0, true, true, φ3, φ4, φ5, φ6, φ7, φ8, true, φ10, φ11, φ12, φ13, φ14, φ15, true, φ17, φ18, φ19⟩ z0 (regWriteAt r c i off f s).2 := by
  unfold regWriteAt
  dsimp only
  split
  · exact regAt_keeps hz
  · exact h_f _ (regAt_keeps hz)

theorem onReg_keeps {r : Req} {c i off : Nat} {f : State → State} {s : State} (h_f : ∀ y0, Keeps ⟨φ0, true, true, φ3, φ4, φ5, φ6, φ7, φ8, true, φ10, φ11, φ12, φ13, φ14, φ15, true, φ17, φ18, φ19⟩ z0 y0 → Keeps ⟨φ0, true, true, φ3, φ4, φ5, φ6, φ7, φ8, true, φ10, φ11, φ12, φ13, φ14, φ15, true, φ17, φ18, φ19⟩ z0 (f y0)) (hz : Keeps ⟨φ0, true, true, φ3, φ4, φ5, φ6, φ7, φ8, true, φ10, φ11, φ12, φ13, φ14, φ15, true, φ17, φ18, φ19⟩ z0 s) : Keeps ⟨φ0, true, true, φ3, φ4, φ5, φ6, φ7, φ8, true, φ10, φ11, φ12, φ13, φ14, φ15, true, φ17, φ18, φ19⟩ z0 (onReg r c i off f s) := by
  unfold onReg
  apply regWriteAt_keeps
  · intro _ k1
    dsimp only
    exact h_f _ k1
  · exact hz

theorem plainWrite_keeps {c i off : Nat} {v : Word} {s : State} (hz : Keeps ⟨φ0, φ1, φ2, φ3, φ4, φ5, φ6, φ7, φ8, φ9, φ10, φ11, φ12, φ13, φ14, φ15, φ16, φ17, φ18, φ19⟩ z0 s) : Keeps ⟨φ0, φ1, φ2, φ3, φ4, φ5, φ6, φ7, φ8, φ9, φ10, φ11, φ12, φ13, φ14, φ15, φ16, φ17, φ18, φ19⟩ z0 (plainWrite c i off v s) := by
  unfold plainWrite
  extract_lets +onlyGivenNames m_1 old_2
  exact wrReg_keeps hz

theorem wrMask_keeps {c i : Nat} {v : Word} {s : State} (hz : Keeps ⟨φ0, φ1, φ2, φ3, φ4, φ5, φ6, φ7, φ8, φ9, φ10, φ11, φ12, φ13, φ14, φ15, φ16, φ17, φ18, φ19⟩ z0 s) : Keeps ⟨φ0, φ1, φ2, φ3, φ4, φ5, φ6, φ7, φ8, φ9, φ10, φ11, φ12, φ13, φ14, φ15, φ16, φ17, φ18, φ19⟩ z0 (wrMask c i v s) := by
  unfold wrMask
  exact wrReg_keeps hz

theorem wrInjectCtrl_keeps {r : Req} {v : Word} {s : State} (hz : Keeps ⟨φ0, true, true, φ3, φ4, φ5, φ6, φ7, φ8, true, φ10, φ11, φ12, φ13, φ14, φ15, true, φ17, φ18, φ19⟩ z0 s) : Keeps ⟨φ0, true, true, φ3, φ4, φ5, φ6, φ7, φ8, true, φ10, φ11, φ12, φ13, φ14, φ15, true, φ17, φ18, φ19⟩ z0 (wrInjectCtrl r v s).2 := by
  unfold wrInjectCtrl
  split
  · dsimp only
    exact raise_keeps hz
  · dsimp only
    apply wrReg_keeps
    exact Keeps.of hz rfl

theorem takePn_keeps {port : Nat} {s : State} (hz : Keeps ⟨φ0, true, true, φ3, φ4, φ5, φ6, φ7, φ8, true, φ10, φ11, φ12, φ13, φ14, φ15, true, φ17, φ18, φ19⟩ z0 s) : Keeps ⟨φ0, true, true, φ3, φ4, φ5, φ6, φ7, φ8, true, φ10, φ11, φ12, φ13, φ14, φ15, true, φ17, φ18, φ19⟩ z0 (takePn port s) := by
  unfold takePn
  split
  · exact hz
  · extract_lets +onlyGivenNames pn_1 s1_2
    have k_s1_2 : Keeps ⟨φ0, true, true, φ3, φ4, φ5, φ6, φ7, φ8, true, φ10, φ11, φ12, φ13, φ14, φ15, true, φ17, φ18, φ19⟩ z0 s1_2 := wrReg_keeps hz
    clear_value s1_2
    split
    · exact k_s1_2
    · exact raise_keeps (wrField_keeps k_s1_2)

theorem setLine_keeps {port : Nat} {l : HostLine} {s : State} (hz : Keeps ⟨φ0, φ1, φ2, φ3, φ4, φ5, φ6, φ7, φ8, φ9, φ10, φ11, φ12, true, φ14, φ15, φ16, φ17, φ18, φ19⟩ z0 s) : Keeps ⟨φ0, φ1, φ2, φ3, φ4, φ5, φ6, φ7, φ8, φ9, φ10, φ11, φ12, true, φ14, φ15, φ16, φ17, φ18, φ19⟩ z0 (setLine port l s) := by
  unfold setLine
  exact Keeps.of hz rfl

theorem leave_keeps {port : Nat} {p : HostPdu} {s : State} (hz : Keeps ⟨φ0, true, true, φ3, φ4, φ5, φ6, φ7, φ8, true, φ10, φ11, φ12, true, φ14, φ15, true, φ17, φ18, φ19⟩ z0 s) : Keeps ⟨φ0, true, true, φ3, φ4, φ5, φ6, φ7, φ8, true, φ10, φ11, φ12, true, φ14, φ15, true, φ17, φ18, φ19⟩ z0 (leave port p s) := by
  unfold leave
  extract_lets +onlyGivenNames go_1 sa_2
  split
  · subst go_1
    dsimp only
    exact Keeps.of hz rfl
  · split
    · subst go_1
      dsimp only
      exact Keeps.of (takePn_keeps hz) rfl
    · exact hz

theorem pumpLine_keeps {port x1 : Nat} {x2 : State} (hz : Keeps ⟨φ0, true, true, φ3, φ4, φ5, φ6, φ7, φ8, true, φ10, φ11, φ12, true, φ14, φ15, true, φ17, φ18, φ19⟩ z0 x2) : Keeps ⟨φ0, true, true, φ3, φ4, φ5, φ6, φ7, φ8, true, φ10, φ11, φ12, true, φ14, φ15, true, φ17, φ18, φ19⟩ z0 (pumpLine port x1 x2) := by
  induction x1 generalizing port x2 with
  | zero =>
    unfold pumpLine
    exact hz
  | succ n ih =>
    unfold pumpLine
    extract_lets +onlyGivenNames l_1
    split
    · exact hz
    · split
      · exact hz
      · exact ih (leave_keeps (setLine_keeps hz))

theorem sendTo_keeps {rank port : Nat} {dst : HostPeer} {kind seq op status orig pcp : Nat} {payload : List Byte} {s : State} (hz : Keeps ⟨φ0, true, true, φ3, φ4, φ5, φ6, φ7, φ8, true, φ10, φ11, φ12, true, φ14, φ15, true, φ17, φ18, φ19⟩ z0 s) : Keeps ⟨φ0, true, true, φ3, φ4, φ5, φ6, φ7, φ8, true, φ10, φ11, φ12, true, φ14, φ15, true, φ17, φ18, φ19⟩ z0 (sendTo rank port dst kind seq op status orig pcp payload s) := by
  unfold sendTo
  split
  · exact hz
  · extract_lets +onlyGivenNames p_1 s1_2 l_3 s2_4
    have k_s1_2 : Keeps ⟨φ0, true, true, φ3, φ4, φ5, φ6, φ7, φ8, true, φ10, φ11, φ12, true, φ14, φ15, true, φ17, φ18, φ19⟩ z0 s1_2 := pumpLine_keeps hz
    have k_s2_4 : Keeps ⟨φ0, true, true, φ3, φ4, φ5, φ6, φ7, φ8, true, φ10, φ11, φ12, true, φ14, φ15, true, φ17, φ18, φ19⟩ z0 s2_4 := setLine_keeps k_s1_2
    clear_value s1_2 s2_4
    exact pumpLine_keeps k_s2_4

theorem sendPeers_keeps {rank kind seq pcp : Nat} {payload : List Byte} {s : State} (hz : Keeps ⟨φ0, true, true, φ3, φ4, φ5, φ6, φ7, φ8, true, φ10, φ11, φ12, true, φ14, φ15, true, φ17, φ18, φ19⟩ z0 s) : Keeps ⟨φ0, true, true, φ3, φ4, φ5, φ6, φ7, φ8, true, φ10, φ11, φ12, true, φ14, φ15, true, φ17, φ18, φ19⟩ z0 (sendPeers rank kind seq pcp payload s) := by
  unfold sendPeers
  apply Keeps.foldl
  · exact hz
  · intro _ _ k1
    exact sendTo_keeps k1

theorem setDlv_keeps {q : Nat} {v : Dlv} {s : State} (hz : Keeps ⟨φ0, φ1, φ2, φ3, φ4, φ5, φ6, φ7, φ8, φ9, φ10, φ11, φ12, true, φ14, φ15, φ16, φ17, φ18, φ19⟩ z0 s) : Keeps ⟨φ0, φ1, φ2, φ3, φ4, φ5, φ6, φ7, φ8, φ9, φ10, φ11, φ12, true, φ14, φ15, φ16, φ17, φ18, φ19⟩ z0 (setDlv q v s) := by
  unfold setDlv
  exact Keeps.of hz rfl

theorem deliverLoop_keeps {q x1 : Nat} {x2 : State} (hz : Keeps ⟨φ0, true, true, φ3, φ4, φ5, φ6, φ7, φ8, true, φ10, φ11, φ12, true, φ14, φ15, true, φ17, φ18, φ19⟩ z0 x2) : Keeps ⟨φ0, true, true, φ3, φ4, φ5, φ6, φ7, φ8, true, φ10, φ11, φ12, true, φ14, φ15, true, φ17, φ18, φ19⟩ z0 (deliverLoop q x1 x2) := by
  induction x1 generalizing q x2 with
  | zero =>
    unfold deliverLoop
    exact hz
  | succ n ih =>
    unfold deliverLoop
    extract_lets +onlyGivenNames d_1 v_2
    split
    · exact hz
    · extract_lets +onlyGivenNames w_3 M_4
      split
      · exact ih (setDlv_keeps hz)
      · extract_lets +onlyGivenNames st_5 pkt_6 code_7 urgent_8 pcp_9 s1_10
        have k_s1_10 : Keeps ⟨φ0, true, true, φ3, φ4, φ5, φ6, φ7, φ8, true, φ10, φ11, φ12, true, φ14, φ15, true, φ17, φ18, φ19⟩ z0 s1_10 := sendPeers_keeps hz
        clear_value s1_10
        exact ih (setDlv_keeps k_s1_10)

theorem deliverQueue_keeps {q : Nat} {s : State} (hz : Keeps ⟨φ0, true, true, φ3, φ4, φ5, φ6, φ7, φ8, true, φ10, φ11, φ12, true, φ14, φ15, true, φ17, φ18, φ19⟩ z0 s) : Keeps ⟨φ0, true, true, φ3, φ4, φ5, φ6, φ7, φ8, true, φ10, φ11, φ12, true, φ14, φ15, true, φ17, φ18, φ19⟩ z0 (deliverQueue q s) := by
  unfold deliverQueue
  extract_lets +onlyGivenNames d_1
  split
  · exact hz
  · split
    · exact setDlv_keeps hz
    · exact deliverLoop_keeps hz

theorem sendNotice_keeps {q : Nat} {s : State} (hz : Keeps ⟨φ0, true, true, φ3, φ4, φ5, φ6, φ7, φ8, true, φ10, φ11, φ12, true, φ14, φ15, true, φ17, φ18, φ19⟩ z0 s) : Keeps ⟨φ0, true, true, φ3, φ4, φ5, φ6, φ7, φ8, true, φ10, φ11, φ12, true, φ14, φ15, true, φ17, φ18, φ19⟩ z0 (sendNotice q s) := by
  unfold sendNotice
  exact sendPeers_keeps hz

end Sys2Proof.Machine
end

