-- ==== Sys2Proof/Laws/KeepsQueue.lean ====
section
/-! SUPPORT. Each operation keeps what Keeps names: queues, trips, ring and power operations, jobs. -/

set_option Elab.async false

namespace Sys2Proof.Machine

variable {φ0 φ1 φ2 φ3 φ4 φ5 φ6 φ7 φ8 φ9 φ10 φ11 φ12 φ13 φ14 φ15 φ16 φ17 φ18 φ19 : Bool} {z0 : State}

theorem notice_keeps {q : Nat} {s : State} (hz : Keeps ⟨φ0, true, true, true, true, true, true, true, φ8, true, true, φ11, φ12, true, φ14, φ15, true, φ17, φ18, φ19⟩ z0 s) : Keeps ⟨φ0, true, true, true, true, true, true, true, φ8, true, true, φ11, φ12, true, φ14, φ15, true, φ17, φ18, φ19⟩ z0 (notice q s) := by
  unfold notice
  extract_lets +onlyGivenNames d_1 s1_2 s2_3
  have k_s1_2 : Keeps ⟨φ0, true, true, true, true, true, true, true, φ8, true, true, φ11, φ12, true, φ14, φ15, true, φ17, φ18, φ19⟩ z0 s1_2 := addCtr_keeps (qPut_keeps hz)
  clear_value s1_2
  extract_lets +onlyGivenNames s2_4
  have k_s2_4 : Keeps ⟨φ0, true, true, true, true, true, true, true, φ8, true, true, φ11, φ12, true, φ14, φ15, true, φ17, φ18, φ19⟩ z0 s2_4 := by
    subst s2_4
    split
    · exact Keeps.of k_s1_2 rfl
    · exact k_s1_2
  clear_value s2_4
  split
  · exact sendNotice_keeps k_s2_4
  · split
    · exact signalJob_keeps k_s2_4
    · exact raise_keeps k_s2_4
  · exact k_s2_4

theorem advanceWr_keeps {q x1 : Nat} {x2 : State} (hz : Keeps ⟨φ0, true, true, true, true, true, true, true, φ8, true, true, φ11, φ12, true, φ14, φ15, true, φ17, φ18, φ19⟩ z0 x2) : Keeps ⟨φ0, true, true, true, true, true, true, true, φ8, true, true, φ11, φ12, true, φ14, φ15, true, φ17, φ18, φ19⟩ z0 (advanceWr q x1 x2) := by
  induction x1 generalizing q x2 with
  | zero =>
    unfold advanceWr
    exact hz
  | succ n ih =>
    unfold advanceWr
    split
    · exact hz
    · split
      · exact hz
      · extract_lets +onlyGivenNames d_1 s1_2 s2_3
        have k_s2_3 : Keeps ⟨φ0, true, true, true, true, true, true, true, φ8, true, true, φ11, φ12, true, φ14, φ15, true, φ17, φ18, φ19⟩ z0 s2_3 := by
          subst s2_3
          apply qPut_keeps
          exact Keeps.of hz rfl
        clear_value s2_3
        extract_lets +onlyGivenNames s2_4
        extract_lets +onlyGivenNames s2_5
        have k_s2_5 : Keeps ⟨φ0, true, true, true, true, true, true, true, φ8, true, true, φ11, φ12, true, φ14, φ15, true, φ17, φ18, φ19⟩ z0 s2_5 := by
          subst s2_5
          split
          · exact Keeps.of k_s2_3 rfl
          · exact k_s2_3
        clear_value s2_5
        apply ih
        split
        · exact k_s2_5
        · exact notice_keeps k_s2_5

theorem settle_keeps {q : Nat} {s : State} (hz : Keeps ⟨φ0, true, true, true, true, true, true, true, φ8, true, true, φ11, φ12, true, φ14, φ15, true, φ17, φ18, φ19⟩ z0 s) : Keeps ⟨φ0, true, true, true, true, true, true, true, φ8, true, true, φ11, φ12, true, φ14, φ15, true, φ17, φ18, φ19⟩ z0 (settle q s) := by
  unfold settle
  exact deliverQueue_keeps (advanceWr_keeps hz)

theorem abandonPkt_keeps {p : Pkt} {reason : Nat} {inj : Bool} {s : State} (hz : Keeps ⟨φ0, true, true, true, true, true, true, true, φ8, true, true, φ11, φ12, true, φ14, φ15, true, φ17, φ18, φ19⟩ z0 s) : Keeps ⟨φ0, true, true, true, true, true, true, true, φ8, true, true, φ11, φ12, true, φ14, φ15, true, φ17, φ18, φ19⟩ z0 (abandonPkt p reason inj s) := by
  unfold abandonPkt
  exact settle_keeps (padPacket_keeps hz)

theorem execPacketComplete_keeps {q num : Nat} {s : State} (hz : Keeps ⟨φ0, true, true, true, true, true, true, true, true, true, true, φ11, φ12, true, φ14, φ15, true, φ17, φ18, φ19⟩ z0 s) : Kept ⟨φ0, true, true, true, true, true, true, true, true, true, true, φ11, φ12, true, φ14, φ15, true, φ17, φ18, φ19⟩ z0 (execPacketComplete q num s) := by
  unfold execPacketComplete
  apply Kept.next
  split
  · exact hz
  · split
    · exact hz
    · split
      · exact abandonPkt_keeps hz
      · extract_lets +onlyGivenNames s1_1 d_2 at__3 whole_4 s2_5
        have k_s1_1 : Keeps ⟨φ0, true, true, true, true, true, true, true, true, true, true, φ11, φ12, true, φ14, φ15, true, φ17, φ18, φ19⟩ z0 s1_1 := qdUse_keeps hz
        have k_s2_5 : Keeps ⟨φ0, true, true, true, true, true, true, true, true, true, true, φ11, φ12, true, φ14, φ15, true, φ17, φ18, φ19⟩ z0 s2_5 := by
          subst s2_5
          apply Keeps.foldl
          · exact wrBytes_keeps k_s1_1
          · intro _ _ k6
            exact mcWriteBlock_keeps k6
        clear_value s1_1 s2_5
        exact settle_keeps (setPkt_keeps k_s2_5)

theorem execPacketAbandon_keeps {q num : Nat} {s : State} (hz : Keeps ⟨φ0, true, true, true, true, true, true, true, φ8, true, true, φ11, φ12, true, φ14, φ15, true, φ17, φ18, φ19⟩ z0 s) : Kept ⟨φ0, true, true, true, true, true, true, true, φ8, true, true, φ11, φ12, true, φ14, φ15, true, φ17, φ18, φ19⟩ z0 (execPacketAbandon q num s) := by
  unfold execPacketAbandon
  apply Kept.next
  split
  · split
    · exact settle_keeps hz
    · exact hz
  · split
    · exact hz
    · split
      · exact hz
      · exact abandonPkt_keeps (advanceTo_keeps hz)
      · exact abandonPkt_keeps hz

theorem execDescriptorFetch_keeps {q : Nat} {u : Upset} {s : State} (hz : Keeps ⟨φ0, true, true, true, true, true, true, true, true, true, true, φ11, φ12, φ13, φ14, φ15, true, φ17, φ18, φ19⟩ z0 s) : Kept ⟨φ0, true, true, true, true, true, true, true, true, true, true, φ11, φ12, φ13, φ14, φ15, true, φ17, φ18, φ19⟩ z0 (execDescriptorFetch q u s) := by
  unfold execDescriptorFetch
  apply Kept.next
  split
  · exact hz
  · extract_lets +onlyGivenNames s1_1
    have k_s1_1 : Keeps ⟨φ0, true, true, true, true, true, true, true, true, true, true, φ11, φ12, φ13, φ14, φ15, true, φ17, φ18, φ19⟩ z0 s1_1 := qdUse_keeps hz
    clear_value s1_1
    split
    · exact k_s1_1
    · exact qdEvent_keeps k_s1_1
    · exact qdBroken_keeps k_s1_1

theorem stagedBytesOut_keeps {r : Staged} {s : State} (hz : Keeps ⟨φ0, φ1, φ2, φ3, φ4, φ5, φ6, φ7, φ8, φ9, φ10, φ11, φ12, φ13, φ14, φ15, φ16, φ17, φ18, φ19⟩ z0 s) : Keeps ⟨φ0, φ1, φ2, φ3, φ4, φ5, φ6, φ7, φ8, φ9, φ10, φ11, φ12, φ13, φ14, φ15, φ16, φ17, φ18, φ19⟩ z0 (stagedBytesOut r s).2 := by
  unfold stagedBytesOut
  split
  · dsimp only
    exact takeSeq_keeps hz
  · exact hz

theorem heldWritten_keeps {q : Nat} {r : Staged} {s : State} (hz : Keeps ⟨φ0, φ1, φ2, true, φ4, φ5, φ6, φ7, φ8, φ9, φ10, φ11, φ12, φ13, φ14, φ15, φ16, φ17, φ18, φ19⟩ z0 s) : Keeps ⟨φ0, φ1, φ2, true, φ4, φ5, φ6, φ7, φ8, φ9, φ10, φ11, φ12, φ13, φ14, φ15, φ16, φ17, φ18, φ19⟩ z0 (heldWritten q r s) := by
  unfold heldWritten
  split
  · exact Keeps.of hz rfl
  · exact hz

theorem execStagedRecordRelease_keeps {q : Nat} {s : State} (hz : Keeps ⟨φ0, true, true, true, φ4, φ5, φ6, φ7, φ8, true, φ10, φ11, φ12, φ13, φ14, φ15, true, φ17, φ18, φ19⟩ z0 s) : Kept ⟨φ0, true, true, true, φ4, φ5, φ6, φ7, φ8, true, φ10, φ11, φ12, φ13, φ14, φ15, true, φ17, φ18, φ19⟩ z0 (execStagedRecordRelease q s) := by
  unfold execStagedRecordRelease
  apply Kept.next
  split
  · exact hz
  · split
    · split
      · exact hz
      · apply stagingCheck_keeps
        apply placeEvent_keeps
        exact Keeps.of hz rfl
    · split
      · exact hz
      · extract_lets +onlyGivenNames b_1 s1_2
        have k_s1_2 : Keeps ⟨φ0, true, true, true, φ4, φ5, φ6, φ7, φ8, true, φ10, φ11, φ12, φ13, φ14, φ15, true, φ17, φ18, φ19⟩ z0 s1_2.2 := by
          subst s1_2
          apply stagedBytesOut_keeps
          exact Keeps.of hz rfl
        clear_value s1_2
        extract_lets +onlyGivenNames s1_3
        have k_s1_3 : Keeps ⟨φ0, true, true, true, φ4, φ5, φ6, φ7, φ8, true, φ10, φ11, φ12, φ13, φ14, φ15, true, φ17, φ18, φ19⟩ z0 s1_3 := stagingCheck_keeps (reserve_keeps k_s1_2)
        clear_value s1_3
        split
        · exact heldWritten_keeps k_s1_3
        · exact k_s1_3

theorem configRefused_keeps {q : Nat} {s : State} (hz : Keeps ⟨φ0, true, true, φ3, φ4, φ5, φ6, φ7, φ8, true, φ10, φ11, φ12, φ13, φ14, φ15, true, φ17, φ18, φ19⟩ z0 s) : Keeps ⟨φ0, true, true, φ3, φ4, φ5, φ6, φ7, φ8, true, φ10, φ11, φ12, φ13, φ14, φ15, true, φ17, φ18, φ19⟩ z0 (configRefused q s) := by
  unfold configRefused
  exact raise_keeps hz

theorem abandonOpen_keeps {q : Nat} {s : State} (hz : Keeps ⟨φ0, true, true, true, true, true, true, true, φ8, true, true, φ11, φ12, true, φ14, φ15, true, φ17, φ18, φ19⟩ z0 s) : Keeps ⟨φ0, true, true, true, true, true, true, true, φ8, true, true, φ11, φ12, true, φ14, φ15, true, φ17, φ18, φ19⟩ z0 (abandonOpen q s) := by
  unfold abandonOpen
  apply settle_keeps
  apply Keeps.foldl
  · exact hz
  · intro _ _ k1
    exact padPacket_keeps k1

theorem queueConfigure_keeps {q : Nat} {s : State} (hz : Keeps ⟨φ0, true, true, true, true, true, true, true, φ8, true, true, φ11, φ12, true, φ14, φ15, true, φ17, φ18, φ19⟩ z0 s) : Keeps ⟨φ0, true, true, true, true, true, true, true, φ8, true, true, φ11, φ12, true, φ14, φ15, true, φ17, φ18, φ19⟩ z0 (queueConfigure q s) := by
  unfold queueConfigure
  extract_lets +onlyGivenNames b_1
  split
  · exact configRefused_keeps hz
  · extract_lets +onlyGivenNames d_2 s1_3
    extract_lets +onlyGivenNames s1_4
    have k_s1_4 : Keeps ⟨φ0, true, true, true, true, true, true, true, φ8, true, true, φ11, φ12, true, φ14, φ15, true, φ17, φ18, φ19⟩ z0 s1_4 := qPut_keeps (forgetQueue_keeps (abandonOpen_keeps hz))
    clear_value s1_4
    exact Keeps.of k_s1_4 rfl

theorem queueEnable_keeps {q : Nat} {s : State} (hz : Keeps ⟨φ0, true, true, φ3, φ4, φ5, φ6, φ7, φ8, true, φ10, φ11, φ12, true, φ14, φ15, true, φ17, φ18, φ19⟩ z0 s) : Keeps ⟨φ0, true, true, φ3, φ4, φ5, φ6, φ7, φ8, true, φ10, φ11, φ12, true, φ14, φ15, true, φ17, φ18, φ19⟩ z0 (queueEnable q s) := by
  unfold queueEnable
  split
  · exact configRefused_keeps hz
  · exact deliverQueue_keeps (qPut_keeps hz)

theorem wakeDisabled_keeps {q w : Nat} {s : State} (hz : Keeps ⟨φ0, true, true, true, true, true, true, true, φ8, true, true, φ11, φ12, φ13, φ14, φ15, true, φ17, φ18, φ19⟩ z0 s) : Keeps ⟨φ0, true, true, true, true, true, true, true, φ8, true, true, φ11, φ12, φ13, φ14, φ15, true, φ17, φ18, φ19⟩ z0 (wakeDisabled q w s) := by
  unfold wakeDisabled
  extract_lets +onlyGivenNames v_1
  split
  · split
    · exact hz
    · extract_lets +onlyGivenNames r_2
      have k_r_2 : Keeps ⟨φ0, true, true, true, true, true, true, true, φ8, true, true, φ11, φ12, φ13, φ14, φ15, true, φ17, φ18, φ19⟩ z0 r_2.2 := raiseSeq_keeps hz
      clear_value r_2
      exact queueEnd_keeps k_r_2
  · split
    · exact hz
    · extract_lets +onlyGivenNames r_3
      have k_r_3 : Keeps ⟨φ0, true, true, true, true, true, true, true, φ8, true, true, φ11, φ12, φ13, φ14, φ15, true, φ17, φ18, φ19⟩ z0 r_3.2 := raiseSeq_keeps hz
      clear_value r_3
      exact queueEnd_keeps k_r_3
  · exact hz

theorem queueDisable_keeps {q : Nat} {s : State} (hz : Keeps ⟨φ0, true, true, true, true, true, true, true, φ8, true, true, φ11, φ12, φ13, φ14, φ15, true, φ17, φ18, φ19⟩ z0 s) : Keeps ⟨φ0, true, true, true, true, true, true, true, φ8, true, true, φ11, φ12, φ13, φ14, φ15, true, φ17, φ18, φ19⟩ z0 (queueDisable q s) := by
  unfold queueDisable
  split
  · exact configRefused_keeps hz
  · extract_lets +onlyGivenNames ws_1 s1_2
    extract_lets +onlyGivenNames s1_3
    have k_s1_3 : Keeps ⟨φ0, true, true, true, true, true, true, true, φ8, true, true, φ11, φ12, φ13, φ14, φ15, true, φ17, φ18, φ19⟩ z0 s1_3 := qPut_keeps hz
    clear_value s1_3
    apply Keeps.foldl
    · exact Keeps.of k_s1_3 rfl
    · intro _ _ k4
      exact wakeDisabled_keeps k4

theorem queuePin_keeps {q : Nat} {s : State} (hz : Keeps ⟨φ0, true, true, φ3, φ4, φ5, φ6, φ7, φ8, true, φ10, φ11, φ12, φ13, φ14, φ15, true, φ17, φ18, φ19⟩ z0 s) : Keeps ⟨φ0, true, true, φ3, φ4, φ5, φ6, φ7, φ8, true, φ10, φ11, φ12, φ13, φ14, φ15, true, φ17, φ18, φ19⟩ z0 (queuePin q s) := by
  unfold queuePin
  split
  · exact configRefused_keeps hz
  · exact qPut_keeps hz

theorem queueUnpin_keeps {q : Nat} {s : State} (hz : Keeps ⟨φ0, true, true, φ3, φ4, φ5, φ6, φ7, φ8, true, φ10, φ11, φ12, φ13, φ14, φ15, true, φ17, φ18, φ19⟩ z0 s) : Keeps ⟨φ0, true, true, φ3, φ4, φ5, φ6, φ7, φ8, true, φ10, φ11, φ12, φ13, φ14, φ15, true, φ17, φ18, φ19⟩ z0 (queueUnpin q s) := by
  unfold queueUnpin
  split
  · exact configRefused_keeps hz
  · exact qPut_keeps hz

theorem wrQCmd_keeps {v : Word} {s : State} (hz : Keeps ⟨φ0, true, true, true, true, true, true, true, true, true, true, φ11, φ12, true, φ14, φ15, true, φ17, φ18, φ19⟩ z0 s) : Keeps ⟨φ0, true, true, true, true, true, true, true, true, true, true, φ11, φ12, true, φ14, φ15, true, φ17, φ18, φ19⟩ z0 (wrQCmd v s) := by
  unfold wrQCmd
  extract_lets +onlyGivenNames q_1
  split
  · exact queueConfigure_keeps (qdUse_keeps hz)
  · exact queueEnable_keeps (qdUse_keeps hz)
  · exact queueDisable_keeps (qdUse_keeps hz)
  · exact queuePin_keeps (qdUse_keeps hz)
  · exact queueUnpin_keeps (qdUse_keeps hz)
  · exact hz

theorem execQueueConfigure_keeps {r : Req} {s : State} (hz : Keeps ⟨φ0, true, true, true, true, true, true, true, true, true, true, φ11, φ12, true, φ14, φ15, true, φ17, φ18, φ19⟩ z0 s) : Kept ⟨φ0, true, true, true, true, true, true, true, true, true, true, φ11, φ12, true, φ14, φ15, true, φ17, φ18, φ19⟩ z0 (execQueueConfigure r s) := by
  unfold execQueueConfigure
  apply Kept.next
  apply onReg_keeps
  · intro _ k1
    exact wrQCmd_keeps k1
  · exact hz

theorem execQueueEnable_keeps {r : Req} {s : State} (hz : Keeps ⟨φ0, true, true, true, true, true, true, true, true, true, true, φ11, φ12, true, φ14, φ15, true, φ17, φ18, φ19⟩ z0 s) : Kept ⟨φ0, true, true, true, true, true, true, true, true, true, true, φ11, φ12, true, φ14, φ15, true, φ17, φ18, φ19⟩ z0 (execQueueEnable r s) := by
  unfold execQueueEnable
  apply Kept.next
  apply onReg_keeps
  · intro _ k1
    exact wrQCmd_keeps k1
  · exact hz

theorem execQueueDisable_keeps {r : Req} {s : State} (hz : Keeps ⟨φ0, true, true, true, true, true, true, true, true, true, true, φ11, φ12, true, φ14, φ15, true, φ17, φ18, φ19⟩ z0 s) : Kept ⟨φ0, true, true, true, true, true, true, true, true, true, true, φ11, φ12, true, φ14, φ15, true, φ17, φ18, φ19⟩ z0 (execQueueDisable r s) := by
  unfold execQueueDisable
  apply Kept.next
  apply onReg_keeps
  · intro _ k1
    exact wrQCmd_keeps k1
  · exact hz

theorem execQueuePin_keeps {r : Req} {s : State} (hz : Keeps ⟨φ0, true, true, true, true, true, true, true, true, true, true, φ11, φ12, true, φ14, φ15, true, φ17, φ18, φ19⟩ z0 s) : Kept ⟨φ0, true, true, true, true, true, true, true, true, true, true, φ11, φ12, true, φ14, φ15, true, φ17, φ18, φ19⟩ z0 (execQueuePin r s) := by
  unfold execQueuePin
  apply Kept.next
  apply onReg_keeps
  · intro _ k1
    exact wrQCmd_keeps k1
  · exact hz

theorem execQueueUnpin_keeps {r : Req} {s : State} (hz : Keeps ⟨φ0, true, true, true, true, true, true, true, true, true, true, φ11, φ12, true, φ14, φ15, true, φ17, φ18, φ19⟩ z0 s) : Kept ⟨φ0, true, true, true, true, true, true, true, true, true, true, φ11, φ12, true, φ14, φ15, true, φ17, φ18, φ19⟩ z0 (execQueueUnpin r s) := by
  unfold execQueueUnpin
  apply Kept.next
  apply onReg_keeps
  · intro _ k1
    exact wrQCmd_keeps k1
  · exact hz

theorem wrRdptr_keeps {v : Word} {s0 : State} (hz : Keeps ⟨φ0, true, true, true, true, true, true, true, true, true, true, φ11, φ12, φ13, true, φ15, true, φ17, φ18, φ19⟩ z0 s0) : Keeps ⟨φ0, true, true, true, true, true, true, true, true, true, true, φ11, φ12, φ13, true, φ15, true, φ17, φ18, φ19⟩ z0 (wrRdptr v s0) := by
  unfold wrRdptr
  extract_lets +onlyGivenNames q_1 s_2 d_3 n_4
  have k_s_2 : Keeps ⟨φ0, true, true, true, true, true, true, true, true, true, true, φ11, φ12, φ13, true, φ15, true, φ17, φ18, φ19⟩ z0 s_2 := qdUse_keeps hz
  clear_value s_2
  split
  · exact raise_keeps k_s_2
  · exact advanceRd_keeps k_s_2

theorem execRdptrWrite_keeps {r : Req} {v : Nat} {s : State} (hz : Keeps ⟨φ0, true, true, true, true, true, true, true, true, true, true, φ11, φ12, φ13, true, φ15, true, φ17, φ18, φ19⟩ z0 s) : Kept ⟨φ0, true, true, true, true, true, true, true, true, true, true, φ11, φ12, φ13, true, φ15, true, φ17, φ18, φ19⟩ z0 (execRdptrWrite r v s) := by
  unfold execRdptrWrite
  apply Kept.next
  apply onReg_keeps
  · intro _ k1
    exact wrRdptr_keeps k1
  · exact hz

theorem wrDescBase_keeps {off : Nat} {v : Word} {s : State} (hz : Keeps ⟨φ0, φ1, φ2, φ3, φ4, φ5, φ6, φ7, φ8, φ9, φ10, φ11, φ12, φ13, φ14, φ15, φ16, φ17, φ18, φ19⟩ z0 s) : Keeps ⟨φ0, φ1, φ2, φ3, φ4, φ5, φ6, φ7, φ8, φ9, φ10, φ11, φ12, φ13, φ14, φ15, φ16, φ17, φ18, φ19⟩ z0 (wrDescBase off v s) := by
  unfold wrDescBase
  split
  · exact hz
  · exact plainWrite_keeps hz

theorem trip_keeps {bit slot : Nat} {s : State} (hz : Keeps ⟨φ0, true, true, φ3, φ4, φ5, φ6, φ7, φ8, true, φ10, φ11, φ12, φ13, φ14, φ15, true, φ17, φ18, φ19⟩ z0 s) : Keeps ⟨φ0, true, true, φ3, φ4, φ5, φ6, φ7, φ8, true, φ10, φ11, φ12, φ13, φ14, φ15, true, φ17, φ18, φ19⟩ z0 (trip bit slot s) := by
  unfold trip
  extract_lets +onlyGivenNames s1_1
  have k_s1_1 : Keeps ⟨φ0, true, true, φ3, φ4, φ5, φ6, φ7, φ8, true, φ10, φ11, φ12, φ13, φ14, φ15, true, φ17, φ18, φ19⟩ z0 s1_1 := tripBits_keeps hz
  clear_value s1_1
  split
  · exact k_s1_1
  · exact raise_keeps k_s1_1

theorem dropHolds_keeps {s : State} (hz : Keeps ⟨φ0, φ1, φ2, φ3, φ4, φ5, φ6, true, φ8, φ9, φ10, φ11, φ12, φ13, φ14, φ15, φ16, φ17, φ18, φ19⟩ z0 s) : Keeps ⟨φ0, φ1, φ2, φ3, φ4, φ5, φ6, true, φ8, φ9, φ10, φ11, φ12, φ13, φ14, φ15, φ16, φ17, φ18, φ19⟩ z0 (dropHolds s) := by
  unfold dropHolds
  apply Keeps.foldl
  · exact hz
  · intro _ _ k1
    split
    · extract_lets +onlyGivenNames p_2
      exact wrReg_keeps (setSpad_keeps k1)
    · exact k1

theorem debugLock_keeps {cause : Nat} {s : State} (hz : Keeps ⟨φ0, true, true, φ3, φ4, φ5, φ6, true, φ8, true, φ10, φ11, φ12, φ13, φ14, φ15, true, φ17, φ18, φ19⟩ z0 s) : Keeps ⟨φ0, true, true, φ3, φ4, φ5, φ6, true, φ8, true, φ10, φ11, φ12, φ13, φ14, φ15, true, φ17, φ18, φ19⟩ z0 (debugLock cause s) := by
  unfold debugLock
  split
  · exact raise_keeps (wrReg_keeps (dropHolds_keeps hz))
  · exact hz

theorem markLink_keeps {dev p : Nat} {down : Bool} {s : State} (hz : Keeps ⟨φ0, φ1, φ2, φ3, φ4, φ5, φ6, φ7, φ8, φ9, true, φ11, φ12, φ13, φ14, φ15, φ16, φ17, φ18, φ19⟩ z0 s) : Keeps ⟨φ0, φ1, φ2, φ3, φ4, φ5, φ6, φ7, φ8, φ9, true, φ11, φ12, φ13, φ14, φ15, φ16, φ17, φ18, φ19⟩ z0 (markLink dev p down s) := by
  unfold markLink
  extract_lets +onlyGivenNames e_1 rest_2
  exact Keeps.of hz rfl

theorem tellRoutes_keeps {dev p : Nat} {down : Bool} {s : State} (hz : Keeps ⟨φ0, φ1, φ2, φ3, φ4, φ5, φ6, φ7, φ8, φ9, true, φ11, φ12, φ13, φ14, φ15, φ16, φ17, φ18, φ19⟩ z0 s) : Keeps ⟨φ0, φ1, φ2, φ3, φ4, φ5, φ6, φ7, φ8, φ9, true, φ11, φ12, φ13, φ14, φ15, φ16, φ17, φ18, φ19⟩ z0 (tellRoutes dev p down s) := by
  unfold tellRoutes
  split
  · apply Keeps.foldl
    · exact markLink_keeps hz
    · intro _ _ k1
      exact sendPkt_keeps k1
  · exact hz

theorem linkDown_keeps {p st : Nat} {s : State} (hz : Keeps ⟨φ0, true, true, φ3, φ4, φ5, φ6, φ7, φ8, true, true, φ11, φ12, φ13, φ14, φ15, true, φ17, φ18, φ19⟩ z0 s) : Keeps ⟨φ0, true, true, φ3, φ4, φ5, φ6, φ7, φ8, true, true, φ11, φ12, φ13, φ14, φ15, true, φ17, φ18, φ19⟩ z0 (linkDown p st s) := by
  unfold linkDown
  extract_lets +onlyGivenNames l_1 s1_2 s2_3
  have k_s1_2 : Keeps ⟨φ0, true, true, φ3, φ4, φ5, φ6, φ7, φ8, true, true, φ11, φ12, φ13, φ14, φ15, true, φ17, φ18, φ19⟩ z0 s1_2 := wrField_keeps (wrField_keeps (wrField_keeps hz))
  clear_value s1_2
  extract_lets +onlyGivenNames s2_4
  have k_s2_4 : Keeps ⟨φ0, true, true, φ3, φ4, φ5, φ6, φ7, φ8, true, true, φ11, φ12, φ13, φ14, φ15, true, φ17, φ18, φ19⟩ z0 s2_4 := setPort_keeps k_s1_2
  clear_value s2_4
  split
  · exact k_s2_4
  · extract_lets +onlyGivenNames e_5
    exact tellRoutes_keeps (raise_keeps k_s2_4)

theorem linkRetrain_keeps {p cause : Nat} {inj : Bool} {s : State} (hz : Keeps ⟨φ0, true, true, φ3, φ4, φ5, φ6, φ7, φ8, true, true, φ11, φ12, φ13, φ14, φ15, true, φ17, φ18, φ19⟩ z0 s) : Keeps ⟨φ0, true, true, φ3, φ4, φ5, φ6, φ7, φ8, true, true, φ11, φ12, φ13, φ14, φ15, true, φ17, φ18, φ19⟩ z0 (linkRetrain p cause inj s) := by
  unfold linkRetrain
  split
  · exact hz
  · extract_lets +onlyGivenNames v_1 l_2 s1_3 s2_4
    have k_s1_3 : Keeps ⟨φ0, true, true, φ3, φ4, φ5, φ6, φ7, φ8, true, true, φ11, φ12, φ13, φ14, φ15, true, φ17, φ18, φ19⟩ z0 s1_3 := wrField_keeps (wrField_keeps (bump_keeps (setPort_keeps hz)))
    have k_s2_4 : Keeps ⟨φ0, true, true, φ3, φ4, φ5, φ6, φ7, φ8, true, true, φ11, φ12, φ13, φ14, φ15, true, φ17, φ18, φ19⟩ z0 s2_4 := raise_keeps k_s1_3
    clear_value s1_3 s2_4
    split
    · exact linkDown_keeps k_s2_4
    · exact k_s2_4

theorem replayAll_keeps {p : Nat} {inj : Bool} {s : State} (hz : Keeps ⟨φ0, true, true, true, φ4, φ5, φ6, φ7, φ8, true, φ10, φ11, φ12, φ13, φ14, φ15, true, φ17, φ18, φ19⟩ z0 s) : Keeps ⟨φ0, true, true, true, φ4, φ5, φ6, φ7, φ8, true, φ10, φ11, φ12, φ13, φ14, φ15, true, φ17, φ18, φ19⟩ z0 (replayAll p inj s) := by
  unfold replayAll
  extract_lets +onlyGivenNames l_1
  split
  · exact hz
  · extract_lets +onlyGivenNames s1_2 s2_3
    have k_s1_2 : Keeps ⟨φ0, true, true, true, φ4, φ5, φ6, φ7, φ8, true, φ10, φ11, φ12, φ13, φ14, φ15, true, φ17, φ18, φ19⟩ z0 s1_2 := addCtr_keeps (bump_keeps hz)
    have k_s2_3 : Keeps ⟨φ0, true, true, true, φ4, φ5, φ6, φ7, φ8, true, φ10, φ11, φ12, φ13, φ14, φ15, true, φ17, φ18, φ19⟩ z0 s2_3 := by
      subst s2_3
      apply Keeps.foldl
      · exact k_s1_2
      · intro _ _ k4
        exact updJob_keeps k4
    clear_value s1_2 s2_3
    exact raiseCount_keeps k_s2_3

theorem ackTo_keeps {p ack : Nat} {s : State} (hz : Keeps ⟨φ0, φ1, φ2, φ3, φ4, φ5, φ6, φ7, φ8, φ9, true, φ11, φ12, φ13, φ14, φ15, φ16, φ17, φ18, φ19⟩ z0 s) : Keeps ⟨φ0, φ1, φ2, φ3, φ4, φ5, φ6, φ7, φ8, φ9, true, φ11, φ12, φ13, φ14, φ15, φ16, φ17, φ18, φ19⟩ z0 (ackTo p ack s) := by
  unfold ackTo
  extract_lets +onlyGivenNames v_1
  split
  · exact setPort_keeps hz
  · exact hz

theorem switchLane_keeps {p lane : Nat} {lock inj : Bool} {s : State} (hz : Keeps ⟨φ0, true, true, φ3, φ4, φ5, φ6, φ7, φ8, true, true, true, φ12, φ13, φ14, φ15, true, φ17, φ18, φ19⟩ z0 s) : Keeps ⟨φ0, true, true, φ3, φ4, φ5, φ6, φ7, φ8, true, true, true, φ12, φ13, φ14, φ15, true, φ17, φ18, φ19⟩ z0 (switchLane p lane lock inj s) := by
  unfold switchLane
  extract_lets +onlyGivenNames s1_1 s2_2 s3_3
  have k_s1_1 : Keeps ⟨φ0, true, true, φ3, φ4, φ5, φ6, φ7, φ8, true, true, true, φ12, φ13, φ14, φ15, true, φ17, φ18, φ19⟩ z0 s1_1 := by
    subst s1_1
    apply wrField_keeps
    apply wrField_keeps
    split
    · exact wrField_keeps hz
    · exact hz
  have k_s3_3 : Keeps ⟨φ0, true, true, φ3, φ4, φ5, φ6, φ7, φ8, true, true, true, φ12, φ13, φ14, φ15, true, φ17, φ18, φ19⟩ z0 s3_3 := setPort_keeps k_s1_1
  clear_value s1_1 s3_3
  extract_lets +onlyGivenNames s3_4
  have k_s3_4 : Keeps ⟨φ0, true, true, φ3, φ4, φ5, φ6, φ7, φ8, true, true, true, φ12, φ13, φ14, φ15, true, φ17, φ18, φ19⟩ z0 s3_4 := raise_keeps k_s3_3
  clear_value s3_4
  exact askSetting_keeps k_s3_4

theorem laneFault_keeps {p lane : Nat} {lock inj : Bool} {s : State} (hz : Keeps ⟨φ0, true, true, φ3, φ4, φ5, φ6, φ7, φ8, true, true, true, φ12, φ13, φ14, φ15, true, φ17, φ18, φ19⟩ z0 s) : Keeps ⟨φ0, true, true, φ3, φ4, φ5, φ6, φ7, φ8, true, true, true, φ12, φ13, φ14, φ15, true, φ17, φ18, φ19⟩ z0 (laneFault p lane lock inj s) := by
  unfold laneFault
  split
  · exact linkDown_keeps hz
  · split
    · exact switchLane_keeps hz
    · exact pushFlits_keeps (setPort_keeps hz)

theorem wrLinkCtrl_keeps {p : Nat} {v : Word} {s : State} (hz : Keeps ⟨φ0, true, true, φ3, φ4, φ5, φ6, φ7, φ8, true, true, φ11, φ12, φ13, φ14, φ15, true, φ17, φ18, φ19⟩ z0 s) : Keeps ⟨φ0, true, true, φ3, φ4, φ5, φ6, φ7, φ8, true, true, φ11, φ12, φ13, φ14, φ15, true, φ17, φ18, φ19⟩ z0 (wrLinkCtrl p v s) := by
  unfold wrLinkCtrl
  extract_lets +onlyGivenNames old_1 mode_2 s1_3 s2_4
  have k_s1_3 : Keeps ⟨φ0, true, true, φ3, φ4, φ5, φ6, φ7, φ8, true, true, φ11, φ12, φ13, φ14, φ15, true, φ17, φ18, φ19⟩ z0 s1_3 := wrField_keeps hz
  have k_s2_4 : Keeps ⟨φ0, true, true, φ3, φ4, φ5, φ6, φ7, φ8, true, true, φ11, φ12, φ13, φ14, φ15, true, φ17, φ18, φ19⟩ z0 s2_4 := by
    subst s2_4
    split
    · exact k_s1_3
    · split
      · exact linkDown_keeps k_s1_3
      · split
        · exact linkDown_keeps k_s1_3
        · exact linkDown_keeps k_s1_3
  clear_value s1_3 s2_4
  split
  · exact linkRetrain_keeps k_s2_4
  · exact k_s2_4

theorem wrRpTest_keeps {r : Req} {p : Nat} {v : Word} {s : State} (hz : Keeps ⟨φ0, true, true, φ3, φ4, φ5, φ6, φ7, φ8, true, true, φ11, φ12, φ13, φ14, φ15, true, φ17, φ18, φ19⟩ z0 s) : Keeps ⟨φ0, true, true, φ3, φ4, φ5, φ6, φ7, φ8, true, true, φ11, φ12, φ13, φ14, φ15, true, φ17, φ18, φ19⟩ z0 (wrRpTest r p v s).2 := by
  unfold wrRpTest
  split
  · exact hz
  · split
    · dsimp only
      exact raise_keeps hz
    · dsimp only
      exact setPort_keeps hz

theorem wrDet_keeps {p off : Nat} {v : Word} {s : State} (hz : Keeps ⟨φ0, φ1, φ2, φ3, φ4, φ5, φ6, φ7, φ8, φ9, true, φ11, φ12, φ13, φ14, φ15, φ16, φ17, φ18, φ19⟩ z0 s) : Keeps ⟨φ0, φ1, φ2, φ3, φ4, φ5, φ6, φ7, φ8, φ9, true, φ11, φ12, φ13, φ14, φ15, φ16, φ17, φ18, φ19⟩ z0 (wrDet p off v s) := by
  unfold wrDet
  extract_lets +onlyGivenNames k_1 n_2 d_3 d1_4
  exact setPort_keeps hz

theorem wrReqLimit_keeps {v : Word} {s : State} (hz : Keeps ⟨φ0, φ1, φ2, φ3, φ4, φ5, φ6, φ7, φ8, φ9, φ10, φ11, φ12, φ13, φ14, φ15, φ16, φ17, φ18, φ19⟩ z0 s) : Keeps ⟨φ0, φ1, φ2, φ3, φ4, φ5, φ6, φ7, φ8, φ9, φ10, φ11, φ12, φ13, φ14, φ15, φ16, φ17, φ18, φ19⟩ z0 (wrReqLimit v s) := by
  unfold wrReqLimit
  split
  · exact wrReg_keeps hz
  · exact hz

theorem wrFenceCmd_keeps {r : Req} {v : Word} {s : State} (hz : Keeps ⟨φ0, true, true, φ3, φ4, φ5, φ6, φ7, φ8, true, true, φ11, φ12, φ13, φ14, φ15, true, φ17, φ18, φ19⟩ z0 s) : Keeps ⟨φ0, true, true, φ3, φ4, φ5, φ6, φ7, φ8, true, true, φ11, φ12, φ13, φ14, φ15, true, φ17, φ18, φ19⟩ z0 (wrFenceCmd r v s).2 := by
  unfold wrFenceCmd
  dsimp only
  split
  · exact hz
  · split
    · dsimp only
      exact fenceFor_keeps hz
    · split
      · dsimp only
        exact sendPkt_keeps hz
      · dsimp only
        exact raise_keeps hz

theorem enumRefused_keeps {cause die : Nat} {s : State} (hz : Keeps ⟨φ0, true, true, φ3, φ4, φ5, φ6, φ7, φ8, true, true, φ11, φ12, φ13, φ14, φ15, true, φ17, φ18, φ19⟩ z0 s) : Keeps ⟨φ0, true, true, φ3, φ4, φ5, φ6, φ7, φ8, true, true, φ11, φ12, φ13, φ14, φ15, true, φ17, φ18, φ19⟩ z0 (enumRefused cause die s) := by
  unfold enumRefused
  apply raise_keeps
  exact Keeps.of hz rfl

theorem fenceNotify_keeps {reason : Nat} {s : State} (hz : Keeps ⟨φ0, φ1, φ2, φ3, φ4, φ5, φ6, φ7, φ8, φ9, true, φ11, φ12, φ13, φ14, φ15, φ16, φ17, φ18, φ19⟩ z0 s) : Keeps ⟨φ0, φ1, φ2, φ3, φ4, φ5, φ6, φ7, φ8, φ9, true, φ11, φ12, φ13, φ14, φ15, φ16, φ17, φ18, φ19⟩ z0 (fenceNotify reason s) := by
  unfold fenceNotify
  extract_lets +onlyGivenNames s1_1
  have k_s1_1 : Keeps ⟨φ0, φ1, φ2, φ3, φ4, φ5, φ6, φ7, φ8, φ9, true, φ11, φ12, φ13, φ14, φ15, φ16, φ17, φ18, φ19⟩ z0 s1_1 := by
    subst s1_1
    split
    · exact hz
    · exact sendPkt_keeps hz
  clear_value s1_1
  apply Keeps.foldl
  · exact k_s1_1
  · intro _ _ k2
    exact sendPkt_keeps k2

theorem portsStop_keeps {s : State} (hz : Keeps ⟨φ0, true, true, φ3, φ4, φ5, φ6, φ7, φ8, true, true, φ11, φ12, φ13, φ14, φ15, true, φ17, φ18, φ19⟩ z0 s) : Keeps ⟨φ0, true, true, φ3, φ4, φ5, φ6, φ7, φ8, true, true, φ11, φ12, φ13, φ14, φ15, true, φ17, φ18, φ19⟩ z0 (portsStop s) := by
  unfold portsStop
  apply Keeps.foldl
  · exact hz
  · intro _ _ k1
    exact linkDown_keeps k1

theorem fenceNow_keeps {reason : Nat} {s : State} (hz : Keeps ⟨φ0, true, true, true, true, true, true, true, φ8, true, true, φ11, φ12, true, φ14, φ15, true, φ17, φ18, φ19⟩ z0 s) : Keeps ⟨φ0, true, true, true, true, true, true, true, φ8, true, true, φ11, φ12, true, φ14, φ15, true, φ17, φ18, φ19⟩ z0 (fenceNow reason s) := by
  unfold fenceNow
  extract_lets +onlyGivenNames s0_1 s1_2 r0_3 r_4 s2_5 live_6 queued_7 s3_8 s4_9
  have k_s0_1 : Keeps ⟨φ0, true, true, true, true, true, true, true, φ8, true, true, φ11, φ12, true, φ14, φ15, true, φ17, φ18, φ19⟩ z0 s0_1 := by
    subst s0_1
    split
    · exact fenceNotify_keeps hz
    · exact hz
  have k_s1_2 : Keeps ⟨φ0, true, true, true, true, true, true, true, φ8, true, true, φ11, φ12, true, φ14, φ15, true, φ17, φ18, φ19⟩ z0 s1_2 := trip_keeps k_s0_1
  have k_r0_3 : Keeps ⟨φ0, true, true, true, true, true, true, true, φ8, true, true, φ11, φ12, true, φ14, φ15, true, φ17, φ18, φ19⟩ z0 r0_3.2 := raiseSeq_keeps (wrReg_keeps k_s1_2)
  have k_r_4 : Keeps ⟨φ0, true, true, true, true, true, true, true, φ8, true, true, φ11, φ12, true, φ14, φ15, true, φ17, φ18, φ19⟩ z0 r_4 := k_r0_3
  have k_live_6 : Keeps ⟨φ0, true, true, true, true, true, true, true, φ8, true, true, φ11, φ12, true, φ14, φ15, true, φ17, φ18, φ19⟩ z0 live_6.2 := by
    subst live_6
    dsimp only
    exact Keeps.of k_r_4 rfl
  have k_queued_7 : Keeps ⟨φ0, true, true, true, true, true, true, true, φ8, true, true, φ11, φ12, true, φ14, φ15, true, φ17, φ18, φ19⟩ z0 queued_7 := by
    subst queued_7
    apply Keeps.foldl
    · exact k_live_6
    · intro _ _ k10
      exact settle_keeps (padPacket_keeps k10)
  clear_value s0_1 s1_2 r0_3 r_4 live_6 queued_7
  extract_lets +onlyGivenNames s3_11 s4_12
  have k_s3_11 : Keeps ⟨φ0, true, true, true, true, true, true, true, φ8, true, true, φ11, φ12, true, φ14, φ15, true, φ17, φ18, φ19⟩ z0 s3_11 := by
    subst s3_11
    apply Keeps.foldl
    · exact k_queued_7
    · intro _ _ k13
      exact stopJob_keeps k13
  have k_s4_12 : Keeps ⟨φ0, true, true, true, true, true, true, true, φ8, true, true, φ11, φ12, true, φ14, φ15, true, φ17, φ18, φ19⟩ z0 s4_12 := by
    subst s4_12
    apply Keeps.foldl
    · exact k_s3_11
    · intro _ _ k14
      exact endQueued_keeps k14
  clear_value s3_11 s4_12
  split
  · exact portsStop_keeps k_s4_12
  · exact fenceNotify_keeps k_s4_12

theorem goDark_keeps {s : State} (hz : Keeps ⟨φ0, true, true, φ3, φ4, φ5, φ6, φ7, φ8, true, true, φ11, φ12, φ13, φ14, φ15, true, φ17, φ18, φ19⟩ z0 s) : Keeps ⟨φ0, true, true, φ3, φ4, φ5, φ6, φ7, φ8, true, true, φ11, φ12, φ13, φ14, φ15, true, φ17, φ18, φ19⟩ z0 (goDark s) := by
  unfold goDark
  extract_lets +onlyGivenNames s1_1
  have k_s1_1 : Keeps ⟨φ0, true, true, φ3, φ4, φ5, φ6, φ7, φ8, true, true, φ11, φ12, φ13, φ14, φ15, true, φ17, φ18, φ19⟩ z0 s1_1 := raise_keeps (wrReg_keeps (fenceNotify_keeps hz))
  clear_value s1_1
  exact portsStop_keeps k_s1_1

theorem peerFenced_keeps {dev reason : Nat} {lost : Bool} {s : State} (hz : Keeps ⟨φ0, true, true, φ3, φ4, φ5, φ6, φ7, φ8, true, true, φ11, φ12, φ13, φ14, φ15, true, φ17, φ18, φ19⟩ z0 s) : Keeps ⟨φ0, true, true, φ3, φ4, φ5, φ6, φ7, φ8, true, true, φ11, φ12, φ13, φ14, φ15, true, φ17, φ18, φ19⟩ z0 (peerFenced dev reason lost s) := by
  unfold peerFenced
  extract_lets +onlyGivenNames v_1 s1_2
  extract_lets +onlyGivenNames s1_3
  have k_s1_3 : Keeps ⟨φ0, true, true, φ3, φ4, φ5, φ6, φ7, φ8, true, true, φ11, φ12, φ13, φ14, φ15, true, φ17, φ18, φ19⟩ z0 s1_3 := Keeps.of hz rfl
  clear_value s1_3
  split
  · exact k_s1_3
  · exact raise_keeps k_s1_3

theorem discoverOut_keeps {s : State} (hz : Keeps ⟨φ0, φ1, φ2, φ3, φ4, φ5, φ6, φ7, φ8, φ9, true, φ11, φ12, φ13, φ14, φ15, φ16, φ17, φ18, φ19⟩ z0 s) : Keeps ⟨φ0, φ1, φ2, φ3, φ4, φ5, φ6, φ7, φ8, φ9, true, φ11, φ12, φ13, φ14, φ15, φ16, φ17, φ18, φ19⟩ z0 (discoverOut s) := by
  unfold discoverOut
  apply Keeps.foldl
  · exact hz
  · intro _ _ k1
    apply pushFlits_keeps
    exact Keeps.of k1 rfl

theorem takeId_keeps {id : Nat} {sizes coords : Nat × Nat × Nat} {s : State} (hz : Keeps ⟨φ0, φ1, φ2, φ3, φ4, φ5, φ6, φ7, φ8, φ9, φ10, φ11, φ12, φ13, φ14, φ15, φ16, φ17, φ18, φ19⟩ z0 s) : Keeps ⟨φ0, φ1, φ2, φ3, φ4, φ5, φ6, φ7, φ8, φ9, φ10, φ11, φ12, φ13, φ14, φ15, φ16, φ17, φ18, φ19⟩ z0 (takeId id sizes coords s) := by
  unfold takeId
  extract_lets +onlyGivenNames topo_1 s1_2
  have k_s1_2 : Keeps ⟨φ0, φ1, φ2, φ3, φ4, φ5, φ6, φ7, φ8, φ9, φ10, φ11, φ12, φ13, φ14, φ15, φ16, φ17, φ18, φ19⟩ z0 s1_2 := wrReg_keeps (wrField_keeps (wrField_keeps hz))
  clear_value s1_2
  apply Keeps.foldl
  · exact k_s1_2
  · intro _ _ k3
    exact wrField_keeps k3

theorem setPeer_keeps {id : Nat} {v : Peer} {s : State} (hz : Keeps ⟨φ0, φ1, φ2, φ3, φ4, φ5, φ6, φ7, φ8, φ9, true, φ11, φ12, φ13, φ14, φ15, φ16, φ17, φ18, φ19⟩ z0 s) : Keeps ⟨φ0, φ1, φ2, φ3, φ4, φ5, φ6, φ7, φ8, φ9, true, φ11, φ12, φ13, φ14, φ15, φ16, φ17, φ18, φ19⟩ z0 (setPeer id v s) := by
  unfold setPeer
  exact Keeps.of hz rfl

theorem assignTo_keeps {id : Nat} {n c : Nat × Nat × Nat} {s : State} (hz : Keeps ⟨φ0, φ1, φ2, φ3, φ4, φ5, φ6, φ7, φ8, φ9, true, φ11, φ12, φ13, φ14, φ15, φ16, φ17, φ18, φ19⟩ z0 s) : Keeps ⟨φ0, φ1, φ2, φ3, φ4, φ5, φ6, φ7, φ8, φ9, true, φ11, φ12, φ13, φ14, φ15, φ16, φ17, φ18, φ19⟩ z0 (assignTo id n c s) := by
  unfold assignTo
  exact sendPkt_keeps hz

theorem enumPlace_keeps {s : State} (hz : Keeps ⟨φ0, true, true, φ3, φ4, φ5, φ6, φ7, φ8, true, true, φ11, φ12, φ13, φ14, φ15, true, φ17, φ18, φ19⟩ z0 s) : Keeps ⟨φ0, true, true, φ3, φ4, φ5, φ6, φ7, φ8, true, true, φ11, φ12, φ13, φ14, φ15, true, φ17, φ18, φ19⟩ z0 (enumPlace s) := by
  unfold enumPlace
  extract_lets +onlyGivenNames fs_1 root_2
  split
  · exact enumRefused_keeps hz
  · extract_lets +onlyGivenNames n_3 pl_4 ids_5 s1_6 s2_7 s3_8
    have k_s2_7 : Keeps ⟨φ0, true, true, φ3, φ4, φ5, φ6, φ7, φ8, true, true, φ11, φ12, φ13, φ14, φ15, true, φ17, φ18, φ19⟩ z0 s2_7 := by
      subst s2_7
      apply takeId_keeps
      exact Keeps.of hz rfl
    have k_s3_8 : Keeps ⟨φ0, true, true, φ3, φ4, φ5, φ6, φ7, φ8, true, true, φ11, φ12, φ13, φ14, φ15, true, φ17, φ18, φ19⟩ z0 s3_8 := by
      subst s3_8
      apply Keeps.foldl
      · exact k_s2_7
      · intro _ _ k9
        exact setPeer_keeps k9
    clear_value s2_7 s3_8
    extract_lets +onlyGivenNames s3_10
    have k_s3_10 : Keeps ⟨φ0, true, true, φ3, φ4, φ5, φ6, φ7, φ8, true, true, φ11, φ12, φ13, φ14, φ15, true, φ17, φ18, φ19⟩ z0 s3_10 := by
      subst s3_10
      apply Keeps.foldl
      · exact k_s3_8
      · intro _ _ k11
        exact markLink_keeps k11
    clear_value s3_10
    apply Keeps.foldl
    · exact k_s3_10
    · intro _ _ k12
      split
      · exact k12
      · exact assignTo_keeps k12

theorem enumCheck_keeps {s : State} (hz : Keeps ⟨φ0, true, true, φ3, φ4, φ5, φ6, φ7, φ8, true, true, φ11, φ12, φ13, φ14, φ15, true, φ17, φ18, φ19⟩ z0 s) : Keeps ⟨φ0, true, true, φ3, φ4, φ5, φ6, φ7, φ8, true, true, φ11, φ12, φ13, φ14, φ15, true, φ17, φ18, φ19⟩ z0 (enumCheck s) := by
  unfold enumCheck
  split
  · exact enumPlace_keeps hz
  · exact hz

theorem enumStart_keeps {s : State} (hz : Keeps ⟨φ0, true, true, φ3, φ4, φ5, φ6, φ7, φ8, true, true, φ11, φ12, φ13, φ14, φ15, true, φ17, φ18, φ19⟩ z0 s) : Keeps ⟨φ0, true, true, φ3, φ4, φ5, φ6, φ7, φ8, true, true, φ11, φ12, φ13, φ14, φ15, true, φ17, φ18, φ19⟩ z0 (enumStart s) := by
  unfold enumStart
  split
  · exact hz
  · extract_lets +onlyGivenNames s1_1
    extract_lets +onlyGivenNames s1_2
    have k_s1_2 : Keeps ⟨φ0, true, true, φ3, φ4, φ5, φ6, φ7, φ8, true, true, φ11, φ12, φ13, φ14, φ15, true, φ17, φ18, φ19⟩ z0 s1_2 := by
      subst s1_2
      apply discoverOut_keeps
      exact Keeps.of hz rfl
    clear_value s1_2
    exact enumCheck_keeps (wrField_keeps k_s1_2)

theorem lateFound_keeps {f : Found} {s : State} (hz : Keeps ⟨φ0, true, true, φ3, φ4, φ5, φ6, φ7, φ8, true, true, φ11, φ12, φ13, φ14, φ15, true, φ17, φ18, φ19⟩ z0 s) : Keeps ⟨φ0, true, true, φ3, φ4, φ5, φ6, φ7, φ8, true, true, φ11, φ12, φ13, φ14, φ15, true, φ17, φ18, φ19⟩ z0 (lateFound f s) := by
  unfold lateFound
  split
  · exact hz
  · split
    · exact hz
    · extract_lets +onlyGivenNames v_1
      split
      · exact enumRefused_keeps hz
      · extract_lets +onlyGivenNames s1_2
        extract_lets +onlyGivenNames s1_3
        have k_s1_3 : Keeps ⟨φ0, true, true, φ3, φ4, φ5, φ6, φ7, φ8, true, true, φ11, φ12, φ13, φ14, φ15, true, φ17, φ18, φ19⟩ z0 s1_3 := by
          subst s1_3
          apply setPeer_keeps
          exact Keeps.of hz rfl
        clear_value s1_3
        exact assignTo_keeps k_s1_3

theorem wrEnumCtrl_keeps {v : Word} {s : State} (hz : Keeps ⟨φ0, true, true, φ3, φ4, φ5, φ6, φ7, φ8, true, true, φ11, φ12, φ13, φ14, φ15, true, φ17, φ18, φ19⟩ z0 s) : Keeps ⟨φ0, true, true, φ3, φ4, φ5, φ6, φ7, φ8, true, true, φ11, φ12, φ13, φ14, φ15, true, φ17, φ18, φ19⟩ z0 (wrEnumCtrl v s) := by
  unfold wrEnumCtrl
  extract_lets +onlyGivenNames s1_1
  have k_s1_1 : Keeps ⟨φ0, true, true, φ3, φ4, φ5, φ6, φ7, φ8, true, true, φ11, φ12, φ13, φ14, φ15, true, φ17, φ18, φ19⟩ z0 s1_1 := wrField_keeps hz
  clear_value s1_1
  split
  · exact enumStart_keeps k_s1_1
  · exact k_s1_1

theorem setSlot_keeps {n : Nat} {v : TrSlot} {s : State} (hz : Keeps ⟨φ0, φ1, φ2, φ3, φ4, φ5, φ6, φ7, φ8, φ9, φ10, φ11, φ12, φ13, φ14, true, φ16, φ17, φ18, φ19⟩ z0 s) : Keeps ⟨φ0, φ1, φ2, φ3, φ4, φ5, φ6, φ7, φ8, φ9, φ10, φ11, φ12, φ13, φ14, true, φ16, φ17, φ18, φ19⟩ z0 (setSlot n v s) := by
  unfold setSlot
  exact Keeps.of hz rfl

theorem setEnc_keeps {n : Nat} {v : TioEnc} {s : State} (hz : Keeps ⟨φ0, φ1, φ2, φ3, φ4, φ5, φ6, φ7, φ8, φ9, φ10, φ11, φ12, φ13, φ14, φ15, true, φ17, φ18, φ19⟩ z0 s) : Keeps ⟨φ0, φ1, φ2, φ3, φ4, φ5, φ6, φ7, φ8, φ9, φ10, φ11, φ12, φ13, φ14, φ15, true, φ17, φ18, φ19⟩ z0 (setEnc n v s) := by
  unfold setEnc
  exact Keeps.of hz rfl

theorem setDin_keeps {n : Nat} {v : TioDin} {s : State} (hz : Keeps ⟨φ0, φ1, φ2, φ3, φ4, φ5, φ6, φ7, φ8, φ9, φ10, φ11, φ12, φ13, φ14, φ15, true, φ17, φ18, φ19⟩ z0 s) : Keeps ⟨φ0, φ1, φ2, φ3, φ4, φ5, φ6, φ7, φ8, φ9, φ10, φ11, φ12, φ13, φ14, φ15, true, φ17, φ18, φ19⟩ z0 (setDin n v s) := by
  unfold setDin
  exact Keeps.of hz rfl

theorem setAdc_keeps {n : Nat} {v : TioAdc} {s : State} (hz : Keeps ⟨φ0, φ1, φ2, φ3, φ4, φ5, φ6, φ7, φ8, φ9, φ10, φ11, φ12, φ13, φ14, φ15, true, φ17, φ18, φ19⟩ z0 s) : Keeps ⟨φ0, φ1, φ2, φ3, φ4, φ5, φ6, φ7, φ8, φ9, φ10, φ11, φ12, φ13, φ14, φ15, true, φ17, φ18, φ19⟩ z0 (setAdc n v s) := by
  unfold setAdc
  exact Keeps.of hz rfl

theorem setPwm_keeps {n : Nat} {v : TioPwm} {s : State} (hz : Keeps ⟨φ0, φ1, φ2, φ3, φ4, φ5, φ6, φ7, φ8, φ9, φ10, φ11, φ12, φ13, φ14, φ15, true, φ17, φ18, φ19⟩ z0 s) : Keeps ⟨φ0, φ1, φ2, φ3, φ4, φ5, φ6, φ7, φ8, φ9, φ10, φ11, φ12, φ13, φ14, φ15, true, φ17, φ18, φ19⟩ z0 (setPwm n v s) := by
  unfold setPwm
  exact Keeps.of hz rfl

theorem trOverrun_keeps {n : Nat} {inj : Bool} {s : State} (hz : Keeps ⟨φ0, true, true, φ3, φ4, φ5, φ6, φ7, φ8, true, φ10, φ11, φ12, φ13, φ14, φ15, true, φ17, φ18, φ19⟩ z0 s) : Keeps ⟨φ0, true, true, φ3, φ4, φ5, φ6, φ7, φ8, true, φ10, φ11, φ12, φ13, φ14, φ15, true, φ17, φ18, φ19⟩ z0 (trOverrun n inj s) := by
  unfold trOverrun
  extract_lets +onlyGivenNames key_1
  exact raiseRated_keeps (bump_keeps hz)

theorem fireSlots_keeps {src arg : Nat} {s : State} (hz : Keeps ⟨φ0, true, true, φ3, φ4, φ5, φ6, φ7, φ8, true, φ10, φ11, φ12, φ13, φ14, true, true, φ17, φ18, φ19⟩ z0 s) : Keeps ⟨φ0, true, true, φ3, φ4, φ5, φ6, φ7, φ8, true, φ10, φ11, φ12, φ13, φ14, true, true, φ17, φ18, φ19⟩ z0 (fireSlots src arg s) := by
  unfold fireSlots
  extract_lets +onlyGivenNames snap_1
  apply Keeps.foldl
  · exact hz
  · intro _ _ k2
    extract_lets +onlyGivenNames v_3
    split
    · exact k2
    · split
      · exact trOverrun_keeps k2
      · exact setSlot_keeps k2

theorem trTimeSkip_keeps {before now : Nat} {s : State} (hz : Keeps ⟨φ0, true, true, φ3, φ4, φ5, φ6, φ7, φ8, true, φ10, φ11, φ12, φ13, φ14, true, true, φ17, φ18, φ19⟩ z0 s) : Keeps ⟨φ0, true, true, φ3, φ4, φ5, φ6, φ7, φ8, true, φ10, φ11, φ12, φ13, φ14, true, true, φ17, φ18, φ19⟩ z0 (trTimeSkip before now s) := by
  unfold trTimeSkip
  apply Keeps.foldl
  · exact hz
  · intro _ _ k1
    extract_lets +onlyGivenNames v_2
    split
    · exact k1
    · extract_lets +onlyGivenNames first_3
      split
      · exact k1
      · exact raise_keeps (setSlot_keeps k1)

theorem trRefuse_keeps {value cause n : Nat} {s : State} (hz : Keeps ⟨φ0, true, true, φ3, φ4, φ5, φ6, φ7, φ8, true, φ10, φ11, φ12, φ13, φ14, φ15, true, φ17, φ18, φ19⟩ z0 s) : Keeps ⟨φ0, true, true, φ3, φ4, φ5, φ6, φ7, φ8, true, φ10, φ11, φ12, φ13, φ14, φ15, true, φ17, φ18, φ19⟩ z0 (trRefuse value cause n s) := by
  unfold trRefuse
  exact raise_keeps hz

theorem setRun_keeps {r : TrRun} {s : State} (hz : Keeps ⟨φ0, φ1, φ2, φ3, φ4, φ5, φ6, φ7, φ8, φ9, φ10, φ11, φ12, φ13, φ14, true, φ16, φ17, φ18, φ19⟩ z0 s) : Keeps ⟨φ0, φ1, φ2, φ3, φ4, φ5, φ6, φ7, φ8, φ9, φ10, φ11, φ12, φ13, φ14, true, φ16, φ17, φ18, φ19⟩ z0 (setRun r s) := by
  unfold setRun
  exact Keeps.of hz rfl

theorem sigWrite_keeps {r : TrRun} {a : Nat} {i : Int} {s : State} (hz : Keeps ⟨φ0, φ1, φ2, φ3, φ4, φ5, φ6, φ7, φ8, φ9, φ10, φ11, φ12, φ13, φ14, true, φ16, φ17, φ18, φ19⟩ z0 s) : Keeps ⟨φ0, φ1, φ2, φ3, φ4, φ5, φ6, φ7, φ8, φ9, φ10, φ11, φ12, φ13, φ14, true, φ16, φ17, φ18, φ19⟩ z0 (sigWrite r a i s) := by
  unfold sigWrite
  extract_lets +onlyGivenNames w_1
  split
  · extract_lets +onlyGivenNames v_2
    exact setRun_keeps (setSlot_keeps hz)
  · extract_lets +onlyGivenNames s1_3
    extract_lets +onlyGivenNames s1_4
    have k_s1_4 : Keeps ⟨φ0, φ1, φ2, φ3, φ4, φ5, φ6, φ7, φ8, φ9, φ10, φ11, φ12, φ13, φ14, true, φ16, φ17, φ18, φ19⟩ z0 s1_4 := Keeps.of hz rfl
    clear_value s1_4
    exact setRun_keeps k_s1_4

theorem pwmOut_keeps {c : Nat} {v : Int} {safe : Bool} {s : State} (hz : Keeps ⟨φ0, φ1, φ2, φ3, φ4, φ5, φ6, φ7, φ8, φ9, φ10, φ11, φ12, φ13, φ14, φ15, true, φ17, φ18, φ19⟩ z0 s) : Keeps ⟨φ0, φ1, φ2, φ3, φ4, φ5, φ6, φ7, φ8, φ9, φ10, φ11, φ12, φ13, φ14, φ15, true, φ17, φ18, φ19⟩ z0 (pwmOut c v safe s) := by
  unfold pwmOut
  extract_lets +onlyGivenNames p_1
  exact setPwm_keeps hz

theorem safeDuties_keeps {v : TrSlot} {s : State} (hz : Keeps ⟨φ0, φ1, φ2, φ3, φ4, φ5, φ6, φ7, φ8, φ9, φ10, φ11, φ12, φ13, φ14, φ15, true, φ17, φ18, φ19⟩ z0 s) : Keeps ⟨φ0, φ1, φ2, φ3, φ4, φ5, φ6, φ7, φ8, φ9, φ10, φ11, φ12, φ13, φ14, φ15, true, φ17, φ18, φ19⟩ z0 (safeDuties v s) := by
  unfold safeDuties
  apply Keeps.foldl
  · exact hz
  · intro _ _ k1
    exact pwmOut_keeps k1

theorem spCommit_keeps {n : Nat} {words : List Word} {held : Bool} {s : State} (hz : Keeps ⟨φ0, φ1, φ2, φ3, φ4, φ5, φ6, φ7, φ8, φ9, φ10, φ11, φ12, φ13, φ14, true, φ16, φ17, φ18, φ19⟩ z0 s) : Keeps ⟨φ0, φ1, φ2, φ3, φ4, φ5, φ6, φ7, φ8, φ9, φ10, φ11, φ12, φ13, φ14, true, φ16, φ17, φ18, φ19⟩ z0 (spCommit n words held s) := by
  unfold spCommit
  extract_lets +onlyGivenNames v_1
  split
  · exact hz
  · extract_lets +onlyGivenNames sp_2
    exact setSlot_keeps hz

theorem pwrRefuse_keeps {off : Nat} {v : Word} {s : State} (hz : Keeps ⟨φ0, true, true, φ3, φ4, φ5, φ6, φ7, φ8, true, φ10, φ11, φ12, φ13, φ14, φ15, true, φ17, φ18, φ19⟩ z0 s) : Keeps ⟨φ0, true, true, φ3, φ4, φ5, φ6, φ7, φ8, true, φ10, φ11, φ12, φ13, φ14, φ15, true, φ17, φ18, φ19⟩ z0 (pwrRefuse off v s) := by
  unfold pwrRefuse
  exact raise_keeps hz

theorem setRail_keeps {k : Nat} {v : PwrRail} {s : State} (hz : Keeps ⟨φ0, φ1, φ2, φ3, φ4, φ5, φ6, φ7, φ8, φ9, φ10, φ11, φ12, φ13, φ14, φ15, φ16, φ17, true, φ19⟩ z0 s) : Keeps ⟨φ0, φ1, φ2, φ3, φ4, φ5, φ6, φ7, φ8, φ9, φ10, φ11, φ12, φ13, φ14, φ15, φ16, φ17, true, φ19⟩ z0 (setRail k v s) := by
  unfold setRail
  exact Keeps.of hz rfl

theorem episodeOn_keeps {inkwell : Option Nat} {cause : Nat} {s : State} (hz : Keeps ⟨φ0, φ1, φ2, true, φ4, φ5, φ6, φ7, φ8, φ9, φ10, φ11, φ12, φ13, φ14, φ15, φ16, φ17, φ18, φ19⟩ z0 s) : Keeps ⟨φ0, φ1, φ2, true, φ4, φ5, φ6, φ7, φ8, φ9, φ10, φ11, φ12, φ13, φ14, φ15, φ16, φ17, φ18, φ19⟩ z0 (episodeOn inkwell cause s) := by
  unfold episodeOn
  exact Keeps.of hz rfl

theorem markNow_keeps {id : Nat} {s : State} (hz : Keeps ⟨φ0, φ1, φ2, true, φ4, φ5, φ6, φ7, φ8, φ9, φ10, φ11, φ12, φ13, φ14, φ15, φ16, φ17, φ18, φ19⟩ z0 s) : Keeps ⟨φ0, φ1, φ2, true, φ4, φ5, φ6, φ7, φ8, φ9, φ10, φ11, φ12, φ13, φ14, φ15, φ16, φ17, φ18, φ19⟩ z0 (markNow id s) := by
  unfold markNow
  exact updJob_keeps hz

theorem startRecovery_keeps {s : State} (hz : Keeps ⟨φ0, φ1, φ2, φ3, φ4, φ5, φ6, φ7, φ8, φ9, φ10, φ11, φ12, φ13, φ14, φ15, φ16, φ17, true, φ19⟩ z0 s) : Keeps ⟨φ0, φ1, φ2, φ3, φ4, φ5, φ6, φ7, φ8, φ9, φ10, φ11, φ12, φ13, φ14, φ15, φ16, φ17, true, φ19⟩ z0 (startRecovery s) := by
  unfold startRecovery
  exact Keeps.of hz rfl

theorem raiseGuard_keeps {s : State} (hz : Keeps ⟨φ0, φ1, φ2, φ3, φ4, φ5, φ6, φ7, φ8, φ9, φ10, true, φ12, φ13, φ14, φ15, φ16, φ17, φ18, φ19⟩ z0 s) : Keeps ⟨φ0, φ1, φ2, φ3, φ4, φ5, φ6, φ7, φ8, φ9, φ10, true, φ12, φ13, φ14, φ15, φ16, φ17, φ18, φ19⟩ z0 (raiseGuard s) := by
  unfold raiseGuard
  extract_lets +onlyGivenNames g_1
  split
  · exact hz
  · exact askSetting_keeps (wrField_keeps hz)

theorem showRecon_keeps {s : State} (hz : Keeps ⟨φ0, φ1, φ2, true, φ4, φ5, φ6, φ7, φ8, φ9, φ10, φ11, φ12, φ13, φ14, φ15, φ16, φ17, φ18, φ19⟩ z0 s) : Keeps ⟨φ0, φ1, φ2, true, φ4, φ5, φ6, φ7, φ8, φ9, φ10, φ11, φ12, φ13, φ14, φ15, φ16, φ17, φ18, φ19⟩ z0 (showRecon s) := by
  unfold showRecon
  extract_lets +onlyGivenNames unrec_1 s1_2 s2_3
  have k_s1_2 : Keeps ⟨φ0, φ1, φ2, true, φ4, φ5, φ6, φ7, φ8, φ9, φ10, φ11, φ12, φ13, φ14, φ15, φ16, φ17, φ18, φ19⟩ z0 s1_2 := wrField_keeps (wrField_keeps hz)
  have k_s2_3 : Keeps ⟨φ0, φ1, φ2, true, φ4, φ5, φ6, φ7, φ8, φ9, φ10, φ11, φ12, φ13, φ14, φ15, φ16, φ17, φ18, φ19⟩ z0 s2_3 := wrField_keeps k_s1_2
  clear_value s1_2 s2_3
  split
  · exact Keeps.of k_s2_3 rfl
  · exact k_s2_3

theorem emergOn_keeps {k : Nat} {t : Int} {until_ : Nat} {inj : Bool} {s : State} (hz : Keeps ⟨φ0, φ1, φ2, true, φ4, φ5, φ6, φ7, φ8, φ9, φ10, φ11, φ12, φ13, φ14, φ15, φ16, φ17, true, φ19⟩ z0 s) : Keeps ⟨φ0, φ1, φ2, true, φ4, φ5, φ6, φ7, φ8, φ9, φ10, φ11, φ12, φ13, φ14, φ15, φ16, φ17, true, φ19⟩ z0 (emergOn k t until_ inj s) := by
  unfold emergOn
  split
  · exact hz
  · apply episodeOn_keeps
    apply bump_keeps
    exact Keeps.of hz rfl

theorem emergOff_keeps {k : Nat} {s : State} (hz : Keeps ⟨φ0, true, true, φ3, φ4, φ5, φ6, φ7, φ8, true, φ10, φ11, φ12, φ13, φ14, φ15, true, φ17, true, φ19⟩ z0 s) : Keeps ⟨φ0, true, true, φ3, φ4, φ5, φ6, φ7, φ8, true, φ10, φ11, φ12, φ13, φ14, φ15, true, φ17, true, φ19⟩ z0 (emergOff k s) := by
  unfold emergOff
  split
  · exact hz
  · extract_lets +onlyGivenNames s1_1 pay_2
    have k_pay_2 : Keeps ⟨φ0, true, true, φ3, φ4, φ5, φ6, φ7, φ8, true, φ10, φ11, φ12, φ13, φ14, φ15, true, φ17, true, φ19⟩ z0 pay_2 := Keeps.of hz rfl
    clear_value pay_2
    extract_lets +onlyGivenNames pay_3
    exact startRecovery_keeps (raiseRated_keeps k_pay_2)

theorem thermal_keeps {k : Nat} {t : Int} {s : State} (hz : Keeps ⟨φ0, true, true, true, φ4, φ5, φ6, φ7, φ8, true, φ10, φ11, φ12, φ13, φ14, φ15, true, φ17, true, φ19⟩ z0 s) : Keeps ⟨φ0, true, true, true, φ4, φ5, φ6, φ7, φ8, true, φ10, φ11, φ12, φ13, φ14, φ15, true, φ17, true, φ19⟩ z0 (thermal k t s) := by
  unfold thermal
  extract_lets +onlyGivenNames lim_1 s1_2
  extract_lets +onlyGivenNames s1_3
  have k_s1_3 : Keeps ⟨φ0, true, true, true, φ4, φ5, φ6, φ7, φ8, true, φ10, φ11, φ12, φ13, φ14, φ15, true, φ17, true, φ19⟩ z0 s1_3 := by
    subst s1_3
    split
    · exact hz
    · split
      · split
        · exact Keeps.of hz rfl
        · exact hz
      · split
        · apply raiseRated_keeps
          exact Keeps.of hz rfl
        · exact Keeps.of hz rfl
  clear_value s1_3
  split
  · split
    · exact emergOn_keeps k_s1_3
    · exact k_s1_3
  · split
    · exact emergOff_keeps k_s1_3
    · exact Keeps.of k_s1_3 rfl

theorem droopOn_keeps {site level : Nat} {inj : Bool} {s : State} (hz : Keeps ⟨φ0, φ1, φ2, true, true, φ5, φ6, φ7, φ8, φ9, φ10, φ11, φ12, φ13, φ14, φ15, φ16, φ17, true, φ19⟩ z0 s) : Keeps ⟨φ0, φ1, φ2, true, true, φ5, φ6, φ7, φ8, φ9, φ10, φ11, φ12, φ13, φ14, φ15, φ16, φ17, true, φ19⟩ z0 (droopOn site level inj s) := by
  unfold droopOn
  extract_lets +onlyGivenNames inkwell_1
  split
  · split
    · extract_lets +onlyGivenNames s1_2
      extract_lets +onlyGivenNames s1_3
      have k_s1_3 : Keeps ⟨φ0, φ1, φ2, true, true, φ5, φ6, φ7, φ8, φ9, φ10, φ11, φ12, φ13, φ14, φ15, φ16, φ17, true, φ19⟩ z0 s1_3 := Keeps.of hz rfl
      clear_value s1_3
      split
      · exact advance_keeps k_s1_3
      · exact k_s1_3
    · exact hz
  · extract_lets +onlyGivenNames s1_4
    extract_lets +onlyGivenNames s1_5
    have k_s1_5 : Keeps ⟨φ0, φ1, φ2, true, true, φ5, φ6, φ7, φ8, φ9, φ10, φ11, φ12, φ13, φ14, φ15, φ16, φ17, true, φ19⟩ z0 s1_5 := by
      subst s1_5
      apply episodeOn_keeps
      apply bump_keeps
      exact Keeps.of hz rfl
    clear_value s1_5
    split
    · exact advance_keeps k_s1_5
    · exact k_s1_5

theorem droopOff_keeps {site : Nat} {s : State} (hz : Keeps ⟨φ0, true, true, φ3, φ4, φ5, φ6, φ7, φ8, true, φ10, true, φ12, φ13, φ14, φ15, true, φ17, true, φ19⟩ z0 s) : Keeps ⟨φ0, true, true, φ3, φ4, φ5, φ6, φ7, φ8, true, φ10, true, φ12, φ13, φ14, φ15, true, φ17, true, φ19⟩ z0 (droopOff site s) := by
  unfold droopOff
  split
  · exact hz
  · extract_lets +onlyGivenNames s1_1 pay_2 s2_3
    have k_pay_2 : Keeps ⟨φ0, true, true, φ3, φ4, φ5, φ6, φ7, φ8, true, φ10, true, φ12, φ13, φ14, φ15, true, φ17, true, φ19⟩ z0 pay_2 := Keeps.of hz rfl
    clear_value pay_2
    extract_lets +onlyGivenNames s2_4
    have k_s2_4 : Keeps ⟨φ0, true, true, φ3, φ4, φ5, φ6, φ7, φ8, true, φ10, true, φ12, φ13, φ14, φ15, true, φ17, true, φ19⟩ z0 s2_4 := raiseRated_keeps k_pay_2
    clear_value s2_4
    split
    · exact k_s2_4
    · extract_lets +onlyGivenNames l_5 s3_6
      extract_lets +onlyGivenNames s3_7
      have k_s3_7 : Keeps ⟨φ0, true, true, φ3, φ4, φ5, φ6, φ7, φ8, true, φ10, true, φ12, φ13, φ14, φ15, true, φ17, true, φ19⟩ z0 s3_7 := by
        subst s3_7
        apply startRecovery_keeps
        exact Keeps.of k_s2_4 rfl
      clear_value s3_7
      split
      · apply raiseGuard_keeps
        exact Keeps.of k_s3_7 rfl
      · exact k_s3_7

theorem setDomain_keeps {d : Nat} {on : Bool} {s : State} (hz : Keeps ⟨φ0, φ1, φ2, φ3, φ4, φ5, φ6, φ7, φ8, φ9, φ10, φ11, φ12, φ13, φ14, φ15, φ16, φ17, φ18, φ19⟩ z0 s) : Keeps ⟨φ0, φ1, φ2, φ3, φ4, φ5, φ6, φ7, φ8, φ9, φ10, φ11, φ12, φ13, φ14, φ15, φ16, φ17, φ18, φ19⟩ z0 (setDomain d on s) := by
  unfold setDomain
  exact wrField_keeps hz

theorem domainRise_keeps {d : Nat} {auto : Bool} {s : State} (hz : Keeps ⟨φ0, φ1, φ2, φ3, φ4, φ5, φ6, φ7, φ8, φ9, φ10, φ11, φ12, φ13, φ14, φ15, φ16, φ17, true, φ19⟩ z0 s) : Keeps ⟨φ0, φ1, φ2, φ3, φ4, φ5, φ6, φ7, φ8, φ9, φ10, φ11, φ12, φ13, φ14, φ15, φ16, φ17, true, φ19⟩ z0 (domainRise d auto s) := by
  unfold domainRise
  split
  · exact hz
  · exact Keeps.of hz rfl

theorem domainFall_keeps {d : Nat} {auto : Bool} {s : State} (hz : Keeps ⟨φ0, true, true, φ3, true, φ5, φ6, φ7, φ8, true, φ10, φ11, φ12, φ13, φ14, φ15, true, φ17, true, φ19⟩ z0 s) : Keeps ⟨φ0, true, true, φ3, true, φ5, φ6, φ7, φ8, true, φ10, φ11, φ12, φ13, φ14, φ15, true, φ17, true, φ19⟩ z0 (domainFall d auto s) := by
  unfold domainFall
  split
  · exact hz
  · extract_lets +onlyGivenNames s1_1
    have k_s1_1 : Keeps ⟨φ0, true, true, φ3, true, φ5, φ6, φ7, φ8, true, φ10, φ11, φ12, φ13, φ14, φ15, true, φ17, true, φ19⟩ z0 s1_1 := advanceTo_keeps hz
    clear_value s1_1
    apply raise_keeps
    apply setDomain_keeps
    exact Keeps.of k_s1_1 rfl

theorem refuseRecord_keeps {d : JobDesc} {cmdQ status evSeq : Nat} {s : State} (hz : Keeps ⟨φ0, true, true, true, φ4, φ5, φ6, φ7, φ8, true, true, φ11, φ12, φ13, φ14, φ15, true, φ17, φ18, φ19⟩ z0 s) : Keeps ⟨φ0, true, true, true, φ4, φ5, φ6, φ7, φ8, true, true, φ11, φ12, φ13, φ14, φ15, true, φ17, φ18, φ19⟩ z0 (refuseRecord d cmdQ status evSeq s) := by
  unfold refuseRecord
  extract_lets +onlyGivenNames j_1 new_2 rec64_3
  extract_lets +onlyGivenNames rec64_4
  split
  · exact relayRecord_keeps hz
  · split
    · exact reserve_keeps hz
    · extract_lets +onlyGivenNames s1_5
      have k_s1_5 : Keeps ⟨φ0, true, true, true, φ4, φ5, φ6, φ7, φ8, true, true, φ11, φ12, φ13, φ14, φ15, true, φ17, φ18, φ19⟩ z0 s1_5 := by
        subst s1_5
        split
        · exact raise_keeps hz
        · exact queueFull_keeps hz
      clear_value s1_5
      apply stage_keeps
      split
      · exact Keeps.of k_s1_5 rfl
      · exact k_s1_5

theorem refuseJob_keeps {d : JobDesc} {cmdQ status detail : Nat} {s : State} (hz : Keeps ⟨φ0, true, true, true, φ4, φ5, φ6, φ7, φ8, true, true, φ11, φ12, φ13, φ14, φ15, true, φ17, φ18, φ19⟩ z0 s) : Keeps ⟨φ0, true, true, true, φ4, φ5, φ6, φ7, φ8, true, true, φ11, φ12, φ13, φ14, φ15, true, φ17, φ18, φ19⟩ z0 (refuseJob d cmdQ status detail s) := by
  unfold refuseJob
  extract_lets +onlyGivenNames r_1
  have k_r_1 : Keeps ⟨φ0, true, true, true, φ4, φ5, φ6, φ7, φ8, true, true, φ11, φ12, φ13, φ14, φ15, true, φ17, φ18, φ19⟩ z0 r_1.2 := raiseSeq_keeps hz
  clear_value r_1
  exact refuseRecord_keeps k_r_1

theorem execJobDescriptor_keeps {q : Nat} {s : State} (hz : Keeps ⟨φ0, true, true, true, true, true, true, true, true, true, true, φ11, φ12, φ13, true, φ15, true, φ17, φ18, φ19⟩ z0 s) : Kept ⟨φ0, true, true, true, true, true, true, true, true, true, true, φ11, φ12, φ13, true, φ15, true, φ17, φ18, φ19⟩ z0 (execJobDescriptor q s) := by
  unfold execJobDescriptor
  apply Kept.next
  extract_lets +onlyGivenNames dq_1
  split
  · exact hz
  · split
    · exact noTake_keeps hz
    · extract_lets +onlyGivenNames s2_2
      have k_s2_2 : Keeps ⟨φ0, true, true, true, true, true, true, true, true, true, true, φ11, φ12, φ13, true, φ15, true, φ17, φ18, φ19⟩ z0 s2_2 := Keeps.of (Held.of_pair (engineTake_keeps hz) (by with_reducible assumption)) rfl
      clear_value s2_2
      split
      · extract_lets +onlyGivenNames id_3
        split
        · exact raise_keeps k_s2_2
        · split
          · exact refuseJob_keeps k_s2_2
          · exact hz
      · extract_lets +onlyGivenNames d_4
        split
        · split
          · exact refuseJob_keeps k_s2_2
          · exact hz
        · split
          · split
            · exact refuseRecord_keeps k_s2_2
            · exact hz
          · exact Keeps.of k_s2_2 rfl

theorem ownQuill_keeps {d : JobDesc} {b : Bool} {rank count q : Nat} {s : State} (hz : Keeps ⟨φ0, φ1, φ2, φ3, true, φ5, φ6, φ7, φ8, φ9, φ10, φ11, φ12, φ13, φ14, φ15, φ16, φ17, true, φ19⟩ z0 s) : Keeps ⟨φ0, φ1, φ2, φ3, true, φ5, φ6, φ7, φ8, φ9, φ10, φ11, φ12, φ13, φ14, φ15, φ16, φ17, true, φ19⟩ z0 (ownQuill d b rank count q s) := by
  unfold ownQuill
  extract_lets +onlyGivenNames v_1 sc_2 s1_3
  extract_lets +onlyGivenNames s1_4
  have k_s1_4 : Keeps ⟨φ0, φ1, φ2, φ3, true, φ5, φ6, φ7, φ8, φ9, φ10, φ11, φ12, φ13, φ14, φ15, φ16, φ17, true, φ19⟩ z0 s1_4 := by
    subst s1_4
    apply setQuill_keeps
    exact Keeps.of hz rfl
  clear_value s1_4
  exact wrCtr_keeps (wrCtr_keeps (wrCtr_keeps k_s1_4))

theorem ownCopy_keeps {d : JobDesc} {b : Bool} {qs : List Nat} {s : State} (hz : Keeps ⟨φ0, φ1, φ2, φ3, true, φ5, φ6, φ7, φ8, φ9, φ10, φ11, φ12, φ13, φ14, φ15, φ16, φ17, true, φ19⟩ z0 s) : Keeps ⟨φ0, φ1, φ2, φ3, true, φ5, φ6, φ7, φ8, φ9, φ10, φ11, φ12, φ13, φ14, φ15, φ16, φ17, true, φ19⟩ z0 (ownCopy d b qs s) := by
  unfold ownCopy
  apply Keeps.foldl
  · exact hz
  · intro _ _ k1
    split
    · exact ownQuill_keeps k1
    · exact k1

theorem freshChans_keeps {d : JobDesc} {s : State} (hz : Keeps ⟨φ0, φ1, φ2, φ3, φ4, true, φ6, φ7, φ8, φ9, φ10, φ11, φ12, φ13, φ14, φ15, φ16, φ17, φ18, φ19⟩ z0 s) : Keeps ⟨φ0, φ1, φ2, φ3, φ4, true, φ6, φ7, φ8, φ9, φ10, φ11, φ12, φ13, φ14, φ15, φ16, φ17, φ18, φ19⟩ z0 (freshChans d s) := by
  unfold freshChans
  apply Keeps.foldl
  · exact hz
  · intro _ _ k1
    apply Keeps.foldl
    · exact k1
    · intro _ _ k2
      extract_lets +onlyGivenNames k_3 e_4
      exact wrField_keeps (setChan_keeps k2)

theorem openWindows_keeps {n : Nat} {ws : List Window} {s : State} (hz : Keeps ⟨φ0, φ1, φ2, φ3, φ4, φ5, φ6, true, φ8, φ9, φ10, φ11, φ12, φ13, φ14, φ15, φ16, φ17, φ18, φ19⟩ z0 s) : Keeps ⟨φ0, φ1, φ2, φ3, φ4, φ5, φ6, true, φ8, φ9, φ10, φ11, φ12, φ13, φ14, φ15, φ16, φ17, φ18, φ19⟩ z0 (openWindows n ws s) := by
  unfold openWindows
  apply Keeps.foldl
  · exact hz
  · intro _ _ k1
    exact setSpad_keeps k1

theorem admitJob_keeps {j : JobRec} {s : State} (hz : Keeps ⟨φ0, φ1, φ2, true, true, true, φ6, true, φ8, φ9, φ10, φ11, φ12, φ13, φ14, φ15, φ16, φ17, true, φ19⟩ z0 s) : Keeps ⟨φ0, φ1, φ2, true, true, true, φ6, true, φ8, φ9, φ10, φ11, φ12, φ13, φ14, φ15, φ16, φ17, true, φ19⟩ z0 (admitJob j s) := by
  unfold admitJob
  extract_lets +onlyGivenNames d_1 units_2 areas_3 slots_4 s1_5 s2_6 s3_7
  have k_s1_5 : Keeps ⟨φ0, φ1, φ2, true, true, true, φ6, true, φ8, φ9, φ10, φ11, φ12, φ13, φ14, φ15, φ16, φ17, true, φ19⟩ z0 s1_5 := by
    subst s1_5
    apply Keeps.foldl
    · exact hz
    · intro _ _ k8
      exact openWindows_keeps k8
  have k_s2_6 : Keeps ⟨φ0, φ1, φ2, true, true, true, φ6, true, φ8, φ9, φ10, φ11, φ12, φ13, φ14, φ15, φ16, φ17, true, φ19⟩ z0 s2_6 := ownCopy_keeps (ownCopy_keeps (freshChans_keeps k_s1_5))
  have k_s3_7 : Keeps ⟨φ0, φ1, φ2, true, true, true, φ6, true, φ8, φ9, φ10, φ11, φ12, φ13, φ14, φ15, φ16, φ17, true, φ19⟩ z0 s3_7 := by
    subst s3_7
    apply Keeps.foldl
    · exact k_s2_6
    · intro _ _ k9
      exact wrField_keeps (wrField_keeps k9)
  clear_value s1_5 s2_6 s3_7
  apply markNow_keeps
  apply updJob_keeps
  exact Keeps.of k_s3_7 rfl

theorem wakeFor_keeps {d : JobDesc} {s : State} (hz : Keeps ⟨φ0, true, true, φ3, φ4, φ5, φ6, true, φ8, true, φ10, φ11, φ12, φ13, φ14, φ15, true, φ17, true, φ19⟩ z0 s) : Keeps ⟨φ0, true, true, φ3, φ4, φ5, φ6, true, φ8, true, φ10, φ11, φ12, φ13, φ14, φ15, true, φ17, true, φ19⟩ z0 (wakeFor d s) := by
  unfold wakeFor
  extract_lets +onlyGivenNames s1_1 s2_2
  have k_s1_1 : Keeps ⟨φ0, true, true, φ3, φ4, φ5, φ6, true, φ8, true, φ10, φ11, φ12, φ13, φ14, φ15, true, φ17, true, φ19⟩ z0 s1_1 := by
    subst s1_1
    apply Keeps.foldl
    · exact hz
    · intro _ _ k3
      exact domainRise_keeps (domainRise_keeps k3)
  have k_s2_2 : Keeps ⟨φ0, true, true, φ3, φ4, φ5, φ6, true, φ8, true, φ10, φ11, φ12, φ13, φ14, φ15, true, φ17, true, φ19⟩ z0 s2_2 := by
    subst s2_2
    apply Keeps.foldl
    · exact k_s1_1
    · intro _ _ k4
      apply Keeps.foldl
      · exact k4
      · intro _ _ k5
        split
        · exact bankWake_keeps k5
        · exact k5
  clear_value s1_1 s2_2
  apply Keeps.foldl
  · exact k_s2_2
  · intro _ _ k6
    split
    · exact bankWake_keeps k6
    · exact k6

theorem execJobAdmit_keeps {s : State} (hz : Keeps ⟨φ0, true, true, true, true, true, φ6, true, φ8, true, true, φ11, φ12, φ13, φ14, φ15, true, φ17, true, φ19⟩ z0 s) : Kept ⟨φ0, true, true, true, true, true, φ6, true, φ8, true, true, φ11, φ12, φ13, φ14, φ15, true, φ17, true, φ19⟩ z0 (execJobAdmit s) := by
  unfold execJobAdmit
  apply Kept.next
  split
  · exact hz
  · extract_lets +onlyGivenNames ready_1
    split
    · apply Keeps.foldl
      · exact hz
      · intro _ _ k2
        exact wakeFor_keeps k2
    · extract_lets +onlyGivenNames drop_3
      split
      · split
        · apply refuseJob_keeps
          subst drop_3
          dsimp only
          exact Keeps.of (dropJob_keeps hz) rfl
        · exact hz
      · split
        · split
          · apply refuseJob_keeps
            subst drop_3
            dsimp only
            exact Keeps.of (dropJob_keeps (raise_keeps hz)) rfl
          · exact hz
        · exact admitJob_keeps hz

theorem copyImage_keeps {j : JobRec} {s : State} (hz : Keeps ⟨φ0, true, φ2, φ3, φ4, φ5, φ6, φ7, φ8, φ9, φ10, φ11, φ12, φ13, φ14, φ15, φ16, φ17, φ18, φ19⟩ z0 s) : Keeps ⟨φ0, true, φ2, φ3, φ4, φ5, φ6, φ7, φ8, φ9, φ10, φ11, φ12, φ13, φ14, φ15, φ16, φ17, φ18, φ19⟩ z0 (copyImage j s) := by
  unfold copyImage
  extract_lets +onlyGivenNames img_1
  apply Keeps.foldl
  · exact hz
  · intro _ _ k2
    exact wrBytes_keeps k2

theorem startQuill_keeps {release q : Nat} {s : State} (hz : Keeps ⟨φ0, φ1, φ2, φ3, true, φ5, φ6, φ7, φ8, φ9, φ10, φ11, φ12, φ13, φ14, φ15, φ16, φ17, φ18, φ19⟩ z0 s) : Keeps ⟨φ0, φ1, φ2, φ3, true, φ5, φ6, φ7, φ8, φ9, φ10, φ11, φ12, φ13, φ14, φ15, φ16, φ17, φ18, φ19⟩ z0 (startQuill release q s) := by
  unfold startQuill
  extract_lets +onlyGivenNames v_1
  exact setQuill_keeps hz

theorem jobUnreadable_keeps {j : JobRec} {s : State} (hz : Keeps ⟨φ0, true, true, true, true, true, true, true, true, true, true, φ11, φ12, φ13, φ14, φ15, true, φ17, φ18, φ19⟩ z0 s) : Keeps ⟨φ0, true, true, true, true, true, true, true, true, true, true, φ11, φ12, φ13, φ14, φ15, true, φ17, φ18, φ19⟩ z0 (jobUnreadable j s) := by
  unfold jobUnreadable
  extract_lets +onlyGivenNames s1_1
  have k_s1_1 : Keeps ⟨φ0, true, true, true, true, true, true, true, true, true, true, φ11, φ12, φ13, φ14, φ15, true, φ17, φ18, φ19⟩ z0 s1_1 := by
    subst s1_1
    apply Keeps.foldl
    · exact hz
    · intro _ _ k2
      exact mcReadBlocks_keeps k2
  clear_value s1_1
  exact stopJob_keeps k_s1_1

theorem execJobRunStart_keeps {id : Nat} {s : State} (hz : Keeps ⟨φ0, true, true, true, true, true, true, true, true, true, true, φ11, φ12, φ13, φ14, φ15, true, φ17, φ18, φ19⟩ z0 s) : Kept ⟨φ0, true, true, true, true, true, true, true, true, true, true, φ11, φ12, φ13, φ14, φ15, true, φ17, φ18, φ19⟩ z0 (execJobRunStart id s) := by
  unfold execJobRunStart
  apply Kept.next
  split
  · exact hz
  · split
    · exact hz
    · split
      · exact jobUnreadable_keeps hz
      · split
        · split
          · exact failWith_keeps hz
          · exact hz
        · extract_lets +onlyGivenNames s1_1
          have k_s1_1 : Keeps ⟨φ0, true, true, true, true, true, true, true, true, true, true, φ11, φ12, φ13, φ14, φ15, true, φ17, φ18, φ19⟩ z0 s1_1 := by
            subst s1_1
            split
            · exact hz
            · exact updJob_keeps (copyImage_keeps hz)
          clear_value s1_1
          split
          · exact k_s1_1
          · extract_lets +onlyGivenNames s2_2 s3_3
            have k_s2_2 : Keeps ⟨φ0, true, true, true, true, true, true, true, true, true, true, φ11, φ12, φ13, φ14, φ15, true, φ17, φ18, φ19⟩ z0 s2_2 := by
              subst s2_2
              split
              · exact advanceToRing_keeps k_s1_1
              · exact k_s1_1
            have k_s3_3 : Keeps ⟨φ0, true, true, true, true, true, true, true, true, true, true, φ11, φ12, φ13, φ14, φ15, true, φ17, φ18, φ19⟩ z0 s3_3 := by
              subst s3_3
              apply Keeps.foldl
              · exact k_s2_2
              · intro _ _ k4
                exact startQuill_keeps (setQuill_keeps k4)
            clear_value s2_2 s3_3
            exact markNow_keeps (updJob_keeps k_s3_3)

theorem execWaveStart_keeps {q : Nat} {s : State} (hz : Keeps ⟨φ0, φ1, φ2, φ3, true, φ5, φ6, φ7, φ8, φ9, φ10, φ11, φ12, φ13, φ14, φ15, φ16, φ17, φ18, φ19⟩ z0 s) : Kept ⟨φ0, φ1, φ2, φ3, true, φ5, φ6, φ7, φ8, φ9, φ10, φ11, φ12, φ13, φ14, φ15, φ16, φ17, φ18, φ19⟩ z0 (execWaveStart q s) := by
  unfold execWaveStart
  apply Kept.next
  split
  · exact hz
  · extract_lets +onlyGivenNames s1_1
    have k_s1_1 : Keeps ⟨φ0, φ1, φ2, φ3, true, φ5, φ6, φ7, φ8, φ9, φ10, φ11, φ12, φ13, φ14, φ15, φ16, φ17, φ18, φ19⟩ z0 s1_1 := advanceTo_keeps hz
    clear_value s1_1
    exact setQuill_keeps k_s1_1

theorem releaseQuills_keeps {j : JobRec} {s : State} (hz : Keeps ⟨φ0, φ1, φ2, φ3, true, φ5, φ6, φ7, φ8, φ9, φ10, φ11, φ12, φ13, φ14, φ15, φ16, φ17, φ18, φ19⟩ z0 s) : Keeps ⟨φ0, φ1, φ2, φ3, true, φ5, φ6, φ7, φ8, φ9, φ10, φ11, φ12, φ13, φ14, φ15, φ16, φ17, φ18, φ19⟩ z0 (releaseQuills j s) := by
  unfold releaseQuills
  apply Keeps.foldl
  · exact hz
  · intro _ _ k1
    extract_lets +onlyGivenNames v_2 pend_3
    exact setQuill_keeps k1

theorem execJobDone_keeps {id : Nat} {s : State} (hz : Keeps ⟨φ0, true, true, true, true, φ5, true, true, φ8, true, true, φ11, φ12, φ13, φ14, φ15, true, φ17, φ18, φ19⟩ z0 s) : Kept ⟨φ0, true, true, true, true, φ5, true, true, φ8, true, true, φ11, φ12, φ13, φ14, φ15, true, φ17, φ18, φ19⟩ z0 (execJobDone id s) := by
  unfold execJobDone
  apply Kept.next
  split
  · exact hz
  · split
    · exact hz
    · split
      · split
        · exact complete_keeps (releaseQuills_keeps (releaseLines_keeps (closeWindows_keeps (leaveWaits_keeps hz))))
        · exact hz
      · split
        · exact complete_keeps (releaseQuills_keeps hz)
        · exact hz
      · split
        · exact hz
        · exact complete_keeps hz
      · exact hz

theorem fillLines_keeps {n : Nat} {s : State} (hz : Keeps ⟨φ0, true, φ2, φ3, φ4, φ5, φ6, φ7, φ8, φ9, φ10, φ11, φ12, φ13, φ14, φ15, φ16, φ17, φ18, φ19⟩ z0 s) : Keeps ⟨φ0, true, φ2, φ3, φ4, φ5, φ6, φ7, φ8, φ9, φ10, φ11, φ12, φ13, φ14, φ15, φ16, φ17, φ18, φ19⟩ z0 (fillLines n s) := by
  unfold fillLines
  extract_lets +onlyGivenNames p_1 s1_2
  have k_s1_2 : Keeps ⟨φ0, true, φ2, φ3, φ4, φ5, φ6, φ7, φ8, φ9, φ10, φ11, φ12, φ13, φ14, φ15, φ16, φ17, φ18, φ19⟩ z0 s1_2 := by
    subst s1_2
    apply Keeps.foldl
    · exact hz
    · intro _ _ k3
      apply Keeps.foldl
      · exact k3
      · intro _ _ k4
        extract_lets +onlyGivenNames b_5 lo_6 hi_7
        split
        · exact zeroBytes_keeps k4
        · exact k4
  clear_value s1_2
  apply Keeps.foldl
  · exact k_s1_2
  · intro _ _ k8
    split
    · exact zeroBytes_keeps k8
    · exact k8

theorem spareRow_keeps {n row : Nat} {s : State} (hz : Keeps ⟨φ0, true, true, φ3, true, φ5, φ6, true, φ8, true, φ10, true, φ12, φ13, φ14, φ15, true, φ17, φ18, φ19⟩ z0 s) : Keeps ⟨φ0, true, true, φ3, true, φ5, φ6, true, φ8, true, φ10, true, φ12, φ13, φ14, φ15, true, φ17, φ18, φ19⟩ z0 (spareRow n row s) := by
  unfold spareRow
  extract_lets +onlyGivenNames p_1 b_2 k_3
  split
  · split
    · exact hz
    · extract_lets +onlyGivenNames mask_4 s1_5 s2_6
      have k_s1_5 : Keeps ⟨φ0, true, true, φ3, true, φ5, φ6, true, φ8, true, φ10, true, φ12, φ13, φ14, φ15, true, φ17, φ18, φ19⟩ z0 s1_5 := setSpad_keeps hz
      have k_s2_6 : Keeps ⟨φ0, true, true, φ3, true, φ5, φ6, true, φ8, true, φ10, true, φ12, φ13, φ14, φ15, true, φ17, φ18, φ19⟩ z0 s2_6 := raise_keeps k_s1_5
      clear_value s1_5 s2_6
      apply Keeps.foldl
      · exact k_s2_6
      · intro _ _ k7
        split
        · exact withdrawQuill_keeps k7
        · exact k7
  · extract_lets +onlyGivenNames p1_8 s1_9 off_10 s2_11
    have k_off_10 : Keeps ⟨φ0, true, true, φ3, true, φ5, φ6, true, φ8, true, φ10, true, φ12, φ13, φ14, φ15, true, φ17, φ18, φ19⟩ z0 off_10 := setSpad_keeps hz
    clear_value off_10
    extract_lets +onlyGivenNames s2_12
    have k_s2_12 : Keeps ⟨φ0, true, true, φ3, true, φ5, φ6, true, φ8, true, φ10, true, φ12, φ13, φ14, φ15, true, φ17, φ18, φ19⟩ z0 s2_12 := wrField_keeps k_off_10
    clear_value s2_12
    exact askSetting_keeps (raise_keeps k_s2_12)

theorem showArea_keeps {n : Nat} {s : State} (hz : Keeps ⟨φ0, φ1, φ2, φ3, φ4, φ5, φ6, φ7, φ8, φ9, φ10, φ11, φ12, φ13, φ14, φ15, φ16, φ17, φ18, φ19⟩ z0 s) : Keeps ⟨φ0, φ1, φ2, φ3, φ4, φ5, φ6, φ7, φ8, φ9, φ10, φ11, φ12, φ13, φ14, φ15, φ16, φ17, φ18, φ19⟩ z0 (showArea n s) := by
  unfold showArea
  extract_lets +onlyGivenNames l_1
  split
  · exact wrField_keeps (wrField_keeps hz)
  · exact wrReg_keeps hz

theorem execZeroFillDone_keeps {n : Nat} {s : State} (hz : Keeps ⟨φ0, true, true, φ3, true, φ5, φ6, true, φ8, true, φ10, true, φ12, φ13, φ14, φ15, true, φ17, φ18, φ19⟩ z0 s) : Kept ⟨φ0, true, true, φ3, true, φ5, φ6, true, φ8, true, φ10, true, φ12, φ13, φ14, φ15, true, φ17, φ18, φ19⟩ z0 (execZeroFillDone n s) := by
  unfold execZeroFillDone
  apply Kept.next
  extract_lets +onlyGivenNames p_1
  split
  · exact hz
  · extract_lets +onlyGivenNames bad_2 s1_3 p1_4 done_5 p2_6 s2_7 s3_8
    have k_s1_3 : Keeps ⟨φ0, true, true, φ3, true, φ5, φ6, true, φ8, true, φ10, true, φ12, φ13, φ14, φ15, true, φ17, φ18, φ19⟩ z0 s1_3 := fillLines_keeps hz
    have k_s2_7 : Keeps ⟨φ0, true, true, φ3, true, φ5, φ6, true, φ8, true, φ10, true, φ12, φ13, φ14, φ15, true, φ17, φ18, φ19⟩ z0 s2_7 := setSpad_keeps k_s1_3
    have k_s3_8 : Keeps ⟨φ0, true, true, φ3, true, φ5, φ6, true, φ8, true, φ10, true, φ12, φ13, φ14, φ15, true, φ17, φ18, φ19⟩ z0 s3_8 := by
      subst s3_8
      apply Keeps.foldl
      · exact k_s2_7
      · intro _ _ k9
        extract_lets +onlyGivenNames g_10 v_11 live_12
        split
        · exact setQuill_keeps k9
        · exact k9
    clear_value s1_3 s2_7 s3_8
    apply showArea_keeps
    apply Keeps.foldl
    · exact k_s3_8
    · intro _ _ k13
      exact spareRow_keeps k13

end Sys2Proof.Machine
end

