-- ==== Sys2Proof/Laws/KeepsChecker.lean ====
section
/-! SUPPORT. Each operation keeps what Keeps names: the safety checker, the Carousel, the cameras. -/

set_option Elab.async false

namespace Sys2Proof.Machine

variable {φ0 φ1 φ2 φ3 φ4 φ5 φ6 φ7 φ8 φ9 φ10 φ11 φ12 φ13 φ14 φ15 φ16 φ17 φ18 φ19 : Bool} {z0 : State}

theorem setHist_keeps {n : Nat} {v : SnSlot} {s : State} (hz : Keeps ⟨φ0, φ1, φ2, φ3, φ4, φ5, φ6, φ7, φ8, true, φ10, φ11, φ12, φ13, φ14, φ15, φ16, φ17, φ18, φ19⟩ z0 s) : Keeps ⟨φ0, φ1, φ2, φ3, φ4, φ5, φ6, φ7, φ8, true, φ10, φ11, φ12, φ13, φ14, φ15, φ16, φ17, φ18, φ19⟩ z0 (setHist n v s) := by
  unfold setHist
  exact Keeps.of hz rfl

theorem stBegin_keeps {s : State} (hz : Keeps ⟨φ0, φ1, φ2, φ3, φ4, φ5, φ6, φ7, φ8, true, φ10, φ11, φ12, φ13, φ14, φ15, φ16, φ17, φ18, φ19⟩ z0 s) : Keeps ⟨φ0, φ1, φ2, φ3, φ4, φ5, φ6, φ7, φ8, true, φ10, φ11, φ12, φ13, φ14, φ15, φ16, φ17, φ18, φ19⟩ z0 (stBegin s) := by
  unfold stBegin
  exact Keeps.of hz rfl

theorem snStart_aux {s : State} (hz : Keeps ⟨φ0, true, true, φ3, φ4, φ5, φ6, φ7, φ8, true, φ10, φ11, φ12, φ13, φ14, φ15, true, φ17, φ18, φ19⟩ z0 s) :
    Keeps ⟨φ0, true, true, φ3, φ4, φ5, φ6, φ7, φ8, true, φ10, φ11, φ12, φ13, φ14, φ15, true, φ17, φ18, φ19⟩ z0 { s with sn := { s.sn with up := true, twins := [], gone := [], hist := [], stDone := false, skipped := [] } } :=
  Keeps.step hz rfl (Nat.le_refl _) id id id (otpKept_refl s) (fun a e => ⟨rfl, (a e).2⟩)

theorem snStart_keeps {s : State} (hz : Keeps ⟨φ0, true, true, φ3, φ4, φ5, φ6, φ7, φ8, true, φ10, φ11, φ12, φ13, φ14, φ15, true, φ17, φ18, φ19⟩ z0 s) : Keeps ⟨φ0, true, true, φ3, φ4, φ5, φ6, φ7, φ8, true, φ10, φ11, φ12, φ13, φ14, φ15, true, φ17, φ18, φ19⟩ z0 (snStart s) := by
  unfold snStart
  extract_lets _ s1
  have k : Keeps ⟨φ0, true, true, φ3, φ4, φ5, φ6, φ7, φ8, true, φ10, φ11, φ12, φ13, φ14, φ15, true, φ17, φ18, φ19⟩ z0 s1 := stBegin_keeps (snStart_aux hz)
  split
  · exact k
  · exact trip_keeps k

theorem allowEnd_keeps {s : State} (hz : Keeps ⟨φ0, φ1, φ2, φ3, φ4, φ5, φ6, φ7, φ8, true, φ10, φ11, φ12, φ13, φ14, φ15, φ16, φ17, φ18, φ19⟩ z0 s) : Keeps ⟨φ0, φ1, φ2, φ3, φ4, φ5, φ6, φ7, φ8, true, φ10, φ11, φ12, φ13, φ14, φ15, φ16, φ17, φ18, φ19⟩ z0 (allowEnd s) := by
  unfold allowEnd
  split
  · apply wrField_keeps
    exact Keeps.of hz rfl
  · exact hz

theorem snFault_keeps {kind : Nat} {s : State} (hz : Keeps ⟨φ0, true, true, φ3, φ4, φ5, φ6, φ7, φ8, true, φ10, φ11, φ12, φ13, φ14, φ15, true, φ17, φ18, φ19⟩ z0 s) : Keeps ⟨φ0, true, true, φ3, φ4, φ5, φ6, φ7, φ8, true, φ10, φ11, φ12, φ13, φ14, φ15, true, φ17, φ18, φ19⟩ z0 (snFault kind s) := by
  unfold snFault
  apply raise_keeps
  apply trip_keeps
  exact Keeps.step (allowEnd_keeps hz) rfl (Nat.le_refl _) id id id (otpKept_refl _) (fun _ e => (nomatch e))

theorem wrSnArm_keeps {v : Word} {s : State} (hz : Keeps ⟨true, true, true, φ3, φ4, φ5, φ6, true, φ8, true, φ10, φ11, φ12, φ13, φ14, φ15, true, φ17, φ18, φ19⟩ z0 s) : Keeps ⟨true, true, true, φ3, φ4, φ5, φ6, true, φ8, true, φ10, φ11, φ12, φ13, φ14, φ15, true, φ17, φ18, φ19⟩ z0 (wrSnArm v s) := by
  unfold wrSnArm
  split
  · exact hz
  · rename_i hc
    simp only [not_or, Bool.not_eq_false] at hc
    extract_lets +onlyGivenNames k
    split
    · exact raise_keeps hz
    · extract_lets +onlyGivenNames was s1 hist
      have k1 : Keeps ⟨true, true, true, φ3, φ4, φ5, φ6, true, φ8, true, φ10, φ11, φ12, φ13, φ14, φ15, true, φ17, φ18, φ19⟩ z0 s1 := wrReg_keeps (wrReg_keeps hz)
      apply raise_keeps
      apply debugLock_keeps
      exact Keeps.step k1 rfl (Nat.le_refl _) id id id (otpKept_refl s1) (fun _ _ => ⟨hc.2.2.2, Decidable.not_not.mp hc.2.2.1⟩)

theorem execArmRequest_keeps {r : Req} {clear : Bool} {s : State} (hz : Keeps ⟨true, true, true, φ3, φ4, φ5, φ6, true, φ8, true, φ10, φ11, φ12, φ13, φ14, φ15, true, φ17, φ18, φ19⟩ z0 s) : Kept ⟨true, true, true, φ3, φ4, φ5, φ6, true, φ8, true, φ10, φ11, φ12, φ13, φ14, φ15, true, φ17, φ18, φ19⟩ z0 (execArmRequest r clear s) := by
  unfold execArmRequest
  apply Kept.next
  apply onReg_keeps
  · intro _ k1
    exact wrSnArm_keeps k1
  · exact hz

theorem snPut_keeps {tbl idx : Nat} {b : List Byte} {s : State} (hz : Keeps ⟨φ0, φ1, φ2, φ3, φ4, φ5, φ6, φ7, φ8, true, φ10, φ11, φ12, φ13, φ14, φ15, φ16, φ17, φ18, φ19⟩ z0 s) : Keeps ⟨φ0, φ1, φ2, φ3, φ4, φ5, φ6, φ7, φ8, true, φ10, φ11, φ12, φ13, φ14, φ15, φ16, φ17, φ18, φ19⟩ z0 (snPut tbl idx b s) := by
  unfold snPut
  split
  · exact Keeps.of hz rfl
  · exact Keeps.of hz rfl
  · exact Keeps.of hz rfl
  · exact Keeps.of hz rfl

theorem wrSnCmd_keeps {v : Word} {s : State} (hz : Keeps ⟨φ0, true, true, φ3, φ4, φ5, φ6, φ7, φ8, true, φ10, φ11, φ12, φ13, φ14, φ15, true, φ17, φ18, φ19⟩ z0 s) : Keeps ⟨φ0, true, true, φ3, φ4, φ5, φ6, φ7, φ8, true, φ10, φ11, φ12, φ13, φ14, φ15, true, φ17, φ18, φ19⟩ z0 (wrSnCmd v s) := by
  unfold wrSnCmd
  extract_lets +onlyGivenNames tbl_1 idx_2 b_3
  split
  · exact hz
  · split
    · exact snPut_keeps hz
    · exact raise_keeps hz

theorem snCmdWrite_keeps {r : Req} {v : Word} {s : State} (hz : Keeps ⟨φ0, true, true, φ3, φ4, φ5, φ6, φ7, φ8, true, φ10, φ11, φ12, φ13, φ14, φ15, true, φ17, φ18, φ19⟩ z0 s) : Keeps ⟨φ0, true, true, φ3, φ4, φ5, φ6, φ7, φ8, true, φ10, φ11, φ12, φ13, φ14, φ15, true, φ17, φ18, φ19⟩ z0 (snCmdWrite r v s).2 := by
  unfold snCmdWrite
  dsimp only
  split
  · dsimp only
    apply raise_keeps
    apply regWriteAt_keeps
    · intro _ k1
      dsimp only
      exact wrSnCmd_keeps k1
    · exact hz
  · apply regWriteAt_keeps
    · intro _ k2
      dsimp only
      exact wrSnCmd_keeps k2
    · exact hz

theorem execSnConfigure_keeps {r : Req} {s : State} (hz : Keeps ⟨φ0, true, true, φ3, φ4, φ5, φ6, φ7, φ8, true, φ10, φ11, φ12, φ13, φ14, φ15, true, φ17, φ18, φ19⟩ z0 s) : Kept ⟨φ0, true, true, φ3, φ4, φ5, φ6, φ7, φ8, true, φ10, φ11, φ12, φ13, φ14, φ15, true, φ17, φ18, φ19⟩ z0 (execSnConfigure r s) := by
  unfold execSnConfigure
  exact Kept.next (snCmdWrite_keeps hz)

theorem snLog_keeps {bytes : List Byte} {s : State} (hz : Keeps ⟨φ0, true, true, φ3, φ4, φ5, φ6, φ7, φ8, true, φ10, φ11, φ12, φ13, φ14, φ15, true, φ17, φ18, φ19⟩ z0 s) : Keeps ⟨φ0, true, true, φ3, φ4, φ5, φ6, φ7, φ8, true, φ10, φ11, φ12, φ13, φ14, φ15, true, φ17, φ18, φ19⟩ z0 (snLog bytes s) := by
  unfold snLog
  split
  · split
    · exact reserve_keeps hz
    · split
      · exact qPut_keeps hz
      · exact ovfTrip_keeps (ovfAppend_keeps hz)
  · split
    · exact hz
    · exact ovfTrip_keeps (ovfAppend_keeps hz)

theorem disagree_keeps {slot cause job word : Nat} {rcd : List Byte} {count inj : Bool} {held : List Word} {s : State} (hz : Keeps ⟨φ0, true, true, φ3, φ4, φ5, φ6, φ7, φ8, true, φ10, φ11, φ12, φ13, φ14, φ15, true, φ17, φ18, φ19⟩ z0 s) : Keeps ⟨φ0, true, true, φ3, φ4, φ5, φ6, φ7, φ8, true, φ10, φ11, φ12, φ13, φ14, φ15, true, φ17, φ18, φ19⟩ z0 (disagree slot cause job word rcd count inj held s) := by
  unfold disagree
  extract_lets +onlyGivenNames cfg_1 h_2 h1_3 n_4 now_5 s1_6 frame_7 seq_8 s2_9 prop_10 bytes_11 s3_12
  have k_s1_6 : Keeps ⟨φ0, true, true, φ3, φ4, φ5, φ6, φ7, φ8, true, φ10, φ11, φ12, φ13, φ14, φ15, true, φ17, φ18, φ19⟩ z0 s1_6 := by
    subst s1_6
    split
    · exact bump_keeps (setHist_keeps hz)
    · exact hz
  have k_s2_9 : Keeps ⟨φ0, true, true, φ3, φ4, φ5, φ6, φ7, φ8, true, φ10, φ11, φ12, φ13, φ14, φ15, true, φ17, φ18, φ19⟩ z0 s2_9 := by
    subst s2_9
    split
    · exact raise_keeps k_s1_6
    · exact k_s1_6
  have k_s3_12 : Keeps ⟨φ0, true, true, φ3, φ4, φ5, φ6, φ7, φ8, true, φ10, φ11, φ12, φ13, φ14, φ15, true, φ17, φ18, φ19⟩ z0 s3_12 := snLog_keeps k_s2_9
  clear_value s1_6 s2_9 s3_12
  split
  · exact trip_keeps k_s3_12
  · exact k_s3_12

theorem judge_keeps {slot job pre : Nat} {rcd : List Byte} {s : State} (hz : Keeps ⟨φ0, true, true, φ3, φ4, φ5, φ6, φ7, φ8, true, φ10, φ11, φ12, φ13, φ14, true, true, φ17, φ18, φ19⟩ z0 s) : Keeps ⟨φ0, true, true, φ3, φ4, φ5, φ6, φ7, φ8, true, φ10, φ11, φ12, φ13, φ14, true, true, φ17, φ18, φ19⟩ z0 (judge slot job pre rcd s) := by
  unfold judge
  extract_lets +onlyGivenNames cfg_1 inj_2 s0_3 s1_4 s2_5 h0_6 seq_7 reach4_8 late_9 h_10 s3_11 c_12
  have k_s0_3 : Keeps ⟨φ0, true, true, φ3, φ4, φ5, φ6, φ7, φ8, true, φ10, φ11, φ12, φ13, φ14, true, true, φ17, φ18, φ19⟩ z0 s0_3 := by
    subst s0_3
    split
    · exact disarm_keeps hz
    · exact hz
  have k_s1_4 : Keeps ⟨φ0, true, true, φ3, φ4, φ5, φ6, φ7, φ8, true, φ10, φ11, φ12, φ13, φ14, true, true, φ17, φ18, φ19⟩ z0 s1_4 := addCtr_keeps k_s0_3
  have k_s2_5 : Keeps ⟨φ0, true, true, φ3, φ4, φ5, φ6, φ7, φ8, true, φ10, φ11, φ12, φ13, φ14, true, true, φ17, φ18, φ19⟩ z0 s2_5 := by
    subst s2_5
    split
    · exact raise_keeps (disarm_keeps k_s1_4)
    · exact k_s1_4
  have k_s3_11 : Keeps ⟨φ0, true, true, φ3, φ4, φ5, φ6, φ7, φ8, true, φ10, φ11, φ12, φ13, φ14, true, true, φ17, φ18, φ19⟩ z0 s3_11 := setHist_keeps k_s2_5
  clear_value s0_3 s1_4 s2_5 s3_11
  split
  · extract_lets +onlyGivenNames n_13 last_14 h1_15
    exact spCommit_keeps (setHist_keeps k_s3_11)
  · extract_lets +onlyGivenNames held_16 s4_17
    have k_s4_17 : Keeps ⟨φ0, true, true, φ3, φ4, φ5, φ6, φ7, φ8, true, φ10, φ11, φ12, φ13, φ14, true, true, φ17, φ18, φ19⟩ z0 s4_17 := by
      subst s4_17
      split
      · exact k_s3_11
      · exact spCommit_keeps k_s3_11
    clear_value s4_17
    exact disagree_keeps k_s4_17

theorem arrive_keeps {rcd : List Byte} {job : Nat} {copyB : Bool} {s : State} (hz : Keeps ⟨φ0, true, true, φ3, φ4, φ5, φ6, φ7, φ8, true, φ10, φ11, φ12, φ13, φ14, true, true, φ17, φ18, φ19⟩ z0 s) : Keeps ⟨φ0, true, true, φ3, φ4, φ5, φ6, φ7, φ8, true, φ10, φ11, φ12, φ13, φ14, true, true, φ17, φ18, φ19⟩ z0 (arrive rcd job copyB s) := by
  unfold arrive
  extract_lets +onlyGivenNames slot_1 seq_2 cfg_3 mine_4
  split
  · exact raise_keeps hz
  · split
    · split
      · exact hz
      · exact judge_keeps hz
    · split
      · extract_lets +onlyGivenNames s1_5
        extract_lets +onlyGivenNames s1_6
        have k_s1_6 : Keeps ⟨φ0, true, true, φ3, φ4, φ5, φ6, φ7, φ8, true, φ10, φ11, φ12, φ13, φ14, true, true, φ17, φ18, φ19⟩ z0 s1_6 := Keeps.of hz rfl
        clear_value s1_6
        split
        · exact disagree_keeps k_s1_6
        · exact k_s1_6
      · extract_lets +onlyGivenNames pre_7 twin_8 drop_9
        extract_lets +onlyGivenNames drop_10
        split
        · clear_value twin_8
          split
          · apply judge_keeps
            subst drop_10
            dsimp only
            exact Keeps.of hz rfl
          · apply judge_keeps
            exact Keeps.of hz rfl
        · clear_value twin_8
          split
          · extract_lets +onlyGivenNames a_11
            apply judge_keeps
            subst drop_10
            dsimp only
            exact Keeps.of hz rfl
          · exact Keeps.of hz rfl

theorem execSetpointRecord_keeps {u : Upset} {s : State} (hz : Keeps ⟨φ0, true, true, true, true, true, true, true, true, true, true, φ11, φ12, φ13, true, true, true, φ17, φ18, φ19⟩ z0 s) : Kept ⟨φ0, true, true, true, true, true, true, true, true, true, true, φ11, φ12, φ13, true, true, true, φ17, φ18, φ19⟩ z0 (execSetpointRecord u s) := by
  unfold execSetpointRecord
  apply Kept.next
  split
  · exact hz
  · split
    · exact snFault_keeps hz
    · extract_lets +onlyGivenNames s0_1
      have k_s0_1 : Keeps ⟨φ0, true, true, true, true, true, true, true, true, true, true, φ11, φ12, φ13, true, true, true, φ17, φ18, φ19⟩ z0 s0_1 := by
        subst s0_1
        split
        · exact raise_keeps hz
        · exact hz
      clear_value s0_1
      split
      · apply arrive_keeps
        exact Keeps.of k_s0_1 rfl
      · split
        · exact k_s0_1
        · extract_lets +onlyGivenNames job_2
          split
          · exact noTake_keeps k_s0_1
          · exact arrive_keeps (Held.of_pair (engineTake_keeps k_s0_1) (by with_reducible assumption))

theorem execTwinHoldExpiry_keeps {s : State} (hz : Keeps ⟨φ0, true, true, φ3, true, φ5, φ6, φ7, φ8, true, φ10, φ11, φ12, φ13, φ14, true, true, φ17, φ18, φ19⟩ z0 s) : Kept ⟨φ0, true, true, φ3, true, φ5, φ6, φ7, φ8, true, φ10, φ11, φ12, φ13, φ14, true, true, φ17, φ18, φ19⟩ z0 (execTwinHoldExpiry s) := by
  unfold execTwinHoldExpiry
  apply Kept.next
  split
  · exact hz
  · split
    · exact hz
    · extract_lets +onlyGivenNames s1_1 slot_2 s2_3
      have k_s1_1 : Keeps ⟨φ0, true, true, φ3, true, φ5, φ6, φ7, φ8, true, φ10, φ11, φ12, φ13, φ14, true, true, φ17, φ18, φ19⟩ z0 s1_1 := advanceTo_keeps hz
      clear_value s1_1
      extract_lets +onlyGivenNames s2_4
      have k_s2_4 : Keeps ⟨φ0, true, true, φ3, true, φ5, φ6, φ7, φ8, true, φ10, φ11, φ12, φ13, φ14, true, true, φ17, φ18, φ19⟩ z0 s2_4 := Keeps.of k_s1_1 rfl
      clear_value s2_4
      split
      · exact k_s2_4
      · exact judge_keeps k_s2_4

theorem execFrameRecord_keeps {s : State} (hz : Keeps ⟨φ0, true, true, true, true, true, true, true, true, true, true, φ11, φ12, φ13, true, φ15, true, φ17, φ18, φ19⟩ z0 s) : Kept ⟨φ0, true, true, true, true, true, true, true, true, true, true, φ11, φ12, φ13, true, φ15, true, φ17, φ18, φ19⟩ z0 (execFrameRecord s) := by
  unfold execFrameRecord
  apply Kept.next
  split
  · exact hz
  · split
    · exact hz
    · split
      · exact noTake_keeps hz
      · extract_lets +onlyGivenNames id_1 k_2 fz_3 l_4 s2_5
        extract_lets +onlyGivenNames s2_6
        have k_s2_6 : Keeps ⟨φ0, true, true, true, true, true, true, true, true, true, true, φ11, φ12, φ13, true, φ15, true, φ17, φ18, φ19⟩ z0 s2_6 := Keeps.of (Held.of_pair (engineTake_keeps hz) (by with_reducible assumption)) rfl
        clear_value s2_6
        split
        · exact trip_keeps k_s2_6
        · exact k_s2_6

theorem cmpMismatch_keeps {j : JobRec} {idx off : Nat} {late inj : Bool} {s : State} (hz : Keeps ⟨φ0, true, true, true, φ4, φ5, φ6, φ7, φ8, true, φ10, φ11, φ12, φ13, φ14, φ15, true, φ17, φ18, φ19⟩ z0 s) : Keeps ⟨φ0, true, true, true, φ4, φ5, φ6, φ7, φ8, true, φ10, φ11, φ12, φ13, φ14, φ15, true, φ17, φ18, φ19⟩ z0 (cmpMismatch j idx off late inj s) := by
  unfold cmpMismatch
  extract_lets +onlyGivenNames id_1 r_2 s1_3
  have k_r_2 : Keeps ⟨φ0, true, true, true, φ4, φ5, φ6, φ7, φ8, true, φ10, φ11, φ12, φ13, φ14, φ15, true, φ17, φ18, φ19⟩ z0 r_2.2 := raiseSeq_keeps hz
  have k_s1_3 : Keeps ⟨φ0, true, true, true, φ4, φ5, φ6, φ7, φ8, true, φ10, φ11, φ12, φ13, φ14, φ15, true, φ17, φ18, φ19⟩ z0 s1_3 := updJob_keeps k_r_2
  clear_value r_2 s1_3
  apply Keeps.foldl
  · exact k_s1_3
  · intro _ _ k4
    split
    · exact disagree_keeps k4
    · exact k4

theorem cmpReads_keeps {d : JobDesc} {upTo : Option (Nat × Nat)} {s : State} (hz : Keeps ⟨φ0, true, true, φ3, φ4, φ5, φ6, φ7, true, true, true, φ11, φ12, φ13, φ14, φ15, true, φ17, φ18, φ19⟩ z0 s) : Keeps ⟨φ0, true, true, φ3, φ4, φ5, φ6, φ7, true, true, true, φ11, φ12, φ13, φ14, φ15, true, φ17, φ18, φ19⟩ z0 (cmpReads d upTo s) := by
  unfold cmpReads
  extract_lets +onlyGivenNames bs_1 rd_2
  apply Keeps.foldl
  · exact hz
  · intro _ _ k3
    extract_lets +onlyGivenNames n_4
    split
    · exact k3
    · subst rd_2
      dsimp only
      split
      · exact k3
      · exact lpddrRead_keeps (lpddrRead_keeps k3)

theorem execOutputComparison_keeps {id : Nat} {s : State} (hz : Keeps ⟨φ0, true, true, true, φ4, φ5, φ6, φ7, true, true, true, φ11, φ12, φ13, φ14, φ15, true, φ17, φ18, φ19⟩ z0 s) : Kept ⟨φ0, true, true, true, φ4, φ5, φ6, φ7, true, true, true, φ11, φ12, φ13, φ14, φ15, true, φ17, φ18, φ19⟩ z0 (execOutputComparison id s) := by
  unfold execOutputComparison
  apply Kept.next
  split
  · exact hz
  · split
    · split
      · exact hz
      · extract_lets +onlyGivenNames bs_1 s1_2
        have k_s1_2 : Keeps ⟨φ0, true, true, true, φ4, φ5, φ6, φ7, true, true, true, φ11, φ12, φ13, φ14, φ15, true, φ17, φ18, φ19⟩ z0 s1_2 := cmpReads_keeps hz
        clear_value s1_2
        split
        · exact cmpMismatch_keeps (disarm_keeps k_s1_2)
        · split
          · exact cmpMismatch_keeps k_s1_2
          · exact updJob_keeps k_s1_2
    · exact hz

theorem execCmpWindowExpiry_keeps {id : Nat} {s : State} (hz : Keeps ⟨φ0, true, true, true, true, φ5, φ6, φ7, φ8, true, φ10, φ11, φ12, φ13, φ14, φ15, true, φ17, φ18, φ19⟩ z0 s) : Kept ⟨φ0, true, true, true, true, φ5, φ6, φ7, φ8, true, φ10, φ11, φ12, φ13, φ14, φ15, true, φ17, φ18, φ19⟩ z0 (execCmpWindowExpiry id s) := by
  unfold execCmpWindowExpiry
  apply Kept.next
  split
  · exact hz
  · split
    · exact hz
    · split
      · exact hz
      · split
        · exact cmpMismatch_keeps hz
        · exact hz
      · exact cmpMismatch_keeps (advanceToDev_keeps hz)
      · exact cmpMismatch_keeps (advanceToDev_keeps hz)

theorem execLockstepMismatch_keeps {kind : Nat} {s : State} (hz : Keeps ⟨φ0, true, true, φ3, φ4, φ5, φ6, φ7, φ8, true, φ10, φ11, φ12, φ13, φ14, φ15, true, φ17, φ18, φ19⟩ z0 s) : Kept ⟨φ0, true, true, φ3, φ4, φ5, φ6, φ7, φ8, true, φ10, φ11, φ12, φ13, φ14, φ15, true, φ17, φ18, φ19⟩ z0 (execLockstepMismatch kind s) := by
  unfold execLockstepMismatch
  apply Kept.next
  split
  · exact hz
  · exact snFault_keeps hz

theorem execCheckerWatchdog_keeps {s : State} (hz : Keeps ⟨φ0, true, true, φ3, φ4, φ5, φ6, φ7, φ8, true, φ10, φ11, φ12, φ13, φ14, φ15, true, φ17, φ18, φ19⟩ z0 s) : Kept ⟨φ0, true, true, φ3, φ4, φ5, φ6, φ7, φ8, true, φ10, φ11, φ12, φ13, φ14, φ15, true, φ17, φ18, φ19⟩ z0 (execCheckerWatchdog s) := by
  unfold execCheckerWatchdog
  apply Kept.next
  split
  · exact hz
  · exact snFault_keeps hz

theorem execCheckerReloadDone_keeps {s : State} (hz : Keeps ⟨φ0, true, true, φ3, φ4, φ5, φ6, φ7, φ8, true, φ10, φ11, φ12, φ13, φ14, φ15, true, φ17, φ18, φ19⟩ z0 s) : Kept ⟨φ0, true, true, φ3, φ4, φ5, φ6, φ7, φ8, true, φ10, φ11, φ12, φ13, φ14, φ15, true, φ17, φ18, φ19⟩ z0 (execCheckerReloadDone s) := by
  unfold execCheckerReloadDone
  apply Kept.next
  split
  · exact hz
  · exact snStart_keeps hz

theorem outDiscrepancy_keeps {chans : Nat} {inj : Bool} {s : State} (hz : Keeps ⟨φ0, true, true, φ3, φ4, φ5, φ6, φ7, φ8, true, φ10, φ11, φ12, φ13, φ14, φ15, true, φ17, φ18, φ19⟩ z0 s) : Keeps ⟨φ0, true, true, φ3, φ4, φ5, φ6, φ7, φ8, true, φ10, φ11, φ12, φ13, φ14, φ15, true, φ17, φ18, φ19⟩ z0 (outDiscrepancy chans inj s) := by
  unfold outDiscrepancy
  exact trip_keeps (raise_keeps hz)

theorem execChannelDiscrepancy_keeps {chans : Nat} {s : State} (hz : Keeps ⟨φ0, true, true, φ3, φ4, φ5, φ6, φ7, φ8, true, φ10, φ11, φ12, φ13, φ14, φ15, true, φ17, φ18, φ19⟩ z0 s) : Kept ⟨φ0, true, true, φ3, φ4, φ5, φ6, φ7, φ8, true, φ10, φ11, φ12, φ13, φ14, φ15, true, φ17, φ18, φ19⟩ z0 (execChannelDiscrepancy chans s) := by
  unfold execChannelDiscrepancy
  apply Kept.next
  split
  · exact hz
  · exact outDiscrepancy_keeps hz

theorem execOverflowLogDrain_keeps {s : State} (hz : Keeps ⟨φ0, true, true, φ3, φ4, φ5, φ6, φ7, φ8, true, φ10, φ11, φ12, φ13, φ14, φ15, φ16, φ17, φ18, φ19⟩ z0 s) : Kept ⟨φ0, true, true, φ3, φ4, φ5, φ6, φ7, φ8, true, φ10, φ11, φ12, φ13, φ14, φ15, φ16, φ17, φ18, φ19⟩ z0 (execOverflowLogDrain s) := by
  unfold execOverflowLogDrain
  apply Kept.next
  split
  · exact hz
  · split
    · exact hz
    · split
      · exact hz
      · extract_lets +onlyGivenNames start_1 pos_2
        apply reserve_keeps
        exact Keeps.of hz rfl

theorem logAdvance_keeps {s : State} (hz : Keeps ⟨φ0, φ1, φ2, φ3, φ4, φ5, φ6, φ7, φ8, true, φ10, φ11, φ12, φ13, φ14, φ15, φ16, φ17, φ18, φ19⟩ z0 s) : Keeps ⟨φ0, φ1, φ2, φ3, φ4, φ5, φ6, φ7, φ8, true, φ10, φ11, φ12, φ13, φ14, φ15, φ16, φ17, φ18, φ19⟩ z0 (logAdvance s) := by
  unfold logAdvance
  split
  · exact hz
  · exact Keeps.of hz rfl

theorem execLogRead_keeps {r : Req} {s : State} (hz : Keeps ⟨φ0, true, true, φ3, φ4, φ5, φ6, φ7, φ8, true, φ10, φ11, φ12, φ13, φ14, φ15, true, φ17, φ18, φ19⟩ z0 s) : Kept ⟨φ0, true, true, φ3, φ4, φ5, φ6, φ7, φ8, true, φ10, φ11, φ12, φ13, φ14, φ15, true, φ17, φ18, φ19⟩ z0 (execLogRead r s) := by
  unfold execLogRead
  apply Kept.next
  extract_lets +onlyGivenNames k_1
  have k_k_1 : Keeps ⟨φ0, true, true, φ3, φ4, φ5, φ6, φ7, φ8, true, φ10, φ11, φ12, φ13, φ14, φ15, true, φ17, φ18, φ19⟩ z0 k_1.2 := regAt_keeps hz
  clear_value k_1
  split
  · exact k_k_1
  · exact logAdvance_keeps k_k_1

theorem stSkip_keeps {s : State} (hz : Keeps ⟨φ0, true, true, φ3, φ4, φ5, φ6, φ7, φ8, true, φ10, φ11, φ12, φ13, φ14, φ15, true, φ17, φ18, φ19⟩ z0 s) : Keeps ⟨φ0, true, true, φ3, φ4, φ5, φ6, φ7, φ8, true, φ10, φ11, φ12, φ13, φ14, φ15, true, φ17, φ18, φ19⟩ z0 (stSkip s) := by
  unfold stSkip
  extract_lets +onlyGivenNames s1_1
  extract_lets +onlyGivenNames s1_2
  have k_s1_2 : Keeps ⟨φ0, true, true, φ3, φ4, φ5, φ6, φ7, φ8, true, φ10, φ11, φ12, φ13, φ14, φ15, true, φ17, φ18, φ19⟩ z0 s1_2 := Keeps.of hz rfl
  clear_value s1_2
  apply Keeps.foldl
  · exact k_s1_2
  · intro _ _ k3
    extract_lets +onlyGivenNames key_4 n_5 acc1_6
    extract_lets +onlyGivenNames acc1_7
    have k_acc1_7 : Keeps ⟨φ0, true, true, φ3, φ4, φ5, φ6, φ7, φ8, true, φ10, φ11, φ12, φ13, φ14, φ15, true, φ17, φ18, φ19⟩ z0 acc1_7 := Keeps.of k3 rfl
    clear_value acc1_7
    split
    · exact raise_keeps k_acc1_7
    · exact k_acc1_7

theorem stCycleEnd_keeps {s : State} (hz : Keeps ⟨φ0, φ1, φ2, φ3, φ4, φ5, φ6, φ7, φ8, true, φ10, φ11, φ12, φ13, φ14, φ15, φ16, φ17, φ18, φ19⟩ z0 s) : Keeps ⟨φ0, φ1, φ2, φ3, φ4, φ5, φ6, φ7, φ8, true, φ10, φ11, φ12, φ13, φ14, φ15, φ16, φ17, φ18, φ19⟩ z0 (stCycleEnd s) := by
  unfold stCycleEnd
  extract_lets +onlyGivenNames s1_1
  have k_s1_1 : Keeps ⟨φ0, φ1, φ2, φ3, φ4, φ5, φ6, φ7, φ8, true, φ10, φ11, φ12, φ13, φ14, φ15, φ16, φ17, φ18, φ19⟩ z0 s1_1 := wrField_keeps hz
  clear_value s1_1
  apply stBegin_keeps
  exact Keeps.of k_s1_1 rfl

theorem execSelfTestSlice_keeps {s : State} (hz : Keeps ⟨φ0, true, true, φ3, φ4, φ5, φ6, φ7, φ8, true, φ10, φ11, φ12, φ13, φ14, φ15, true, φ17, φ18, φ19⟩ z0 s) : Kept ⟨φ0, true, true, φ3, φ4, φ5, φ6, φ7, φ8, true, φ10, φ11, φ12, φ13, φ14, φ15, true, φ17, φ18, φ19⟩ z0 (execSelfTestSlice s) := by
  unfold execSelfTestSlice
  apply Kept.next
  split
  · exact hz
  · split
    · split
      · exact stCycleEnd_keeps (stSkip_keeps hz)
      · exact hz
    · split
      · exact Keeps.of hz rfl
      · exact hz

theorem stAbort_keeps {item unit : Nat} {inj : Bool} {s : State} (hz : Keeps ⟨φ0, true, true, φ3, true, φ5, φ6, true, φ8, true, φ10, φ11, φ12, φ13, φ14, φ15, true, φ17, φ18, φ19⟩ z0 s) : Keeps ⟨φ0, true, true, φ3, true, φ5, φ6, true, φ8, true, φ10, φ11, φ12, φ13, φ14, φ15, true, φ17, φ18, φ19⟩ z0 (stAbort item unit inj s) := by
  unfold stAbort
  extract_lets +onlyGivenNames s1_1 s2_2
  have k_s2_2 : Keeps ⟨φ0, true, true, φ3, true, φ5, φ6, true, φ8, true, φ10, φ11, φ12, φ13, φ14, φ15, true, φ17, φ18, φ19⟩ z0 s2_2 := by
    subst s2_2
    apply allowEnd_keeps
    exact Keeps.of hz rfl
  clear_value s2_2
  extract_lets +onlyGivenNames s2_3
  extract_lets +onlyGivenNames s2_4
  extract_lets +onlyGivenNames s2_5
  have k_s2_5 : Keeps ⟨φ0, true, true, φ3, true, φ5, φ6, true, φ8, true, φ10, φ11, φ12, φ13, φ14, φ15, true, φ17, φ18, φ19⟩ z0 s2_5 := by
    subst s2_5
    split
    · exact k_s2_2
    · exact setQuill_keeps (setSpad_keeps k_s2_2)
  clear_value s2_5
  exact raise_keeps k_s2_5

theorem stFail_keeps {item unit nib : Nat} {inj : Bool} {s : State} (hz : Keeps ⟨φ0, true, true, true, true, true, true, true, φ8, true, true, true, φ12, φ13, φ14, true, true, φ17, φ18, φ19⟩ z0 s) : Keeps ⟨φ0, true, true, true, true, true, true, true, φ8, true, true, true, φ12, φ13, φ14, true, true, φ17, φ18, φ19⟩ z0 (stFail item unit nib inj s) := by
  unfold stFail
  extract_lets +onlyGivenNames r_1
  have k_r_1 : Keeps ⟨φ0, true, true, true, true, true, true, true, φ8, true, true, true, φ12, φ13, φ14, true, true, φ17, φ18, φ19⟩ z0 r_1.2 := raiseSeq_keeps hz
  clear_value r_1
  split
  · exact markNib_keeps k_r_1
  · apply Keeps.foldl
    · exact k_r_1
    · intro _ _ k2
      exact setSlot_keeps k2
  · exact k_r_1
  · exact trip_keeps k_r_1

theorem execSliceDone_keeps {ok : Bool} {nib : Nat} {s : State} (hz : Keeps ⟨φ0, true, true, true, true, true, true, true, φ8, true, true, true, φ12, φ13, φ14, true, true, φ17, φ18, φ19⟩ z0 s) : Kept ⟨φ0, true, true, true, true, true, true, true, φ8, true, true, true, φ12, φ13, φ14, true, true, φ17, φ18, φ19⟩ z0 (execSliceDone ok nib s) := by
  unfold execSliceDone
  apply Kept.next
  split
  · exact hz
  · split
    · exact hz
    · split
      · exact stAbort_keeps (disarm_keeps hz)
      · extract_lets +onlyGivenNames forced_1 s1_2 s2_3 s3_4
        have k_s1_2 : Keeps ⟨φ0, true, true, true, true, true, true, true, φ8, true, true, true, φ12, φ13, φ14, true, true, φ17, φ18, φ19⟩ z0 s1_2 := by
          subst s1_2
          split
          · exact disarm_keeps hz
          · exact hz
        have k_s3_4 : Keeps ⟨φ0, true, true, true, true, true, true, true, φ8, true, true, true, φ12, φ13, φ14, true, true, φ17, φ18, φ19⟩ z0 s3_4 := by
          subst s3_4
          apply allowEnd_keeps
          exact Keeps.of k_s1_2 rfl
        clear_value s1_2 s3_4
        extract_lets +onlyGivenNames s3_5
        have k_s3_5 : Keeps ⟨φ0, true, true, true, true, true, true, true, φ8, true, true, true, φ12, φ13, φ14, true, true, φ17, φ18, φ19⟩ z0 s3_5 := by
          subst s3_5
          split
          · exact k_s3_4
          · exact stFail_keeps k_s3_4
        clear_value s3_5
        split
        · exact stCycleEnd_keeps k_s3_5
        · exact k_s3_5

theorem execSliceAbort_keeps {s : State} (hz : Keeps ⟨φ0, true, true, φ3, true, φ5, φ6, true, φ8, true, φ10, φ11, φ12, φ13, φ14, φ15, true, φ17, φ18, φ19⟩ z0 s) : Kept ⟨φ0, true, true, φ3, true, φ5, φ6, true, φ8, true, φ10, φ11, φ12, φ13, φ14, φ15, true, φ17, φ18, φ19⟩ z0 (execSliceAbort s) := by
  unfold execSliceAbort
  apply Kept.next
  split
  · exact hz
  · exact stAbort_keeps (advanceTo_keeps hz)

theorem execSelfTestLate_keeps {s : State} (hz : Keeps ⟨φ0, true, true, φ3, true, φ5, φ6, φ7, φ8, true, φ10, φ11, φ12, φ13, φ14, φ15, true, φ17, φ18, φ19⟩ z0 s) : Kept ⟨φ0, true, true, φ3, true, φ5, φ6, φ7, φ8, true, φ10, φ11, φ12, φ13, φ14, φ15, true, φ17, φ18, φ19⟩ z0 (execSelfTestLate s) := by
  unfold execSelfTestLate
  apply Kept.next
  extract_lets +onlyGivenNames sec_1
  split
  · exact hz
  · extract_lets +onlyGivenNames s1_2 s2_3
    have k_s1_2 : Keeps ⟨φ0, true, true, φ3, true, φ5, φ6, φ7, φ8, true, φ10, φ11, φ12, φ13, φ14, φ15, true, φ17, φ18, φ19⟩ z0 s1_2 := allowEnd_keeps (advanceTo_keeps hz)
    have k_s2_3 : Keeps ⟨φ0, true, true, φ3, true, φ5, φ6, φ7, φ8, true, φ10, φ11, φ12, φ13, φ14, φ15, true, φ17, φ18, φ19⟩ z0 s2_3 := raise_keeps k_s1_2
    clear_value s1_2 s2_3
    apply stBegin_keeps
    split
    · exact trip_keeps k_s2_3
    · exact k_s2_3

theorem wrStCtrl_keeps {v : Word} {s : State} (hz : Keeps ⟨φ0, φ1, φ2, φ3, φ4, φ5, φ6, φ7, φ8, φ9, φ10, φ11, φ12, φ13, φ14, φ15, φ16, φ17, φ18, φ19⟩ z0 s) : Keeps ⟨φ0, φ1, φ2, φ3, φ4, φ5, φ6, φ7, φ8, φ9, φ10, φ11, φ12, φ13, φ14, φ15, φ16, φ17, φ18, φ19⟩ z0 (wrStCtrl v s) := by
  unfold wrStCtrl
  exact plainWrite_keeps hz

theorem setStream_keeps {n : Nat} {v : CarStream} {s : State} (hz : Keeps ⟨φ0, φ1, φ2, φ3, φ4, φ5, φ6, φ7, φ8, φ9, φ10, φ11, φ12, φ13, true, φ15, φ16, φ17, φ18, φ19⟩ z0 s) : Keeps ⟨φ0, φ1, φ2, φ3, φ4, φ5, φ6, φ7, φ8, φ9, φ10, φ11, φ12, φ13, true, φ15, φ16, φ17, φ18, φ19⟩ z0 (setStream n v s) := by
  unfold setStream
  exact Keeps.of hz rfl

theorem setGrp_keeps {g : Nat} {v : CarGroup} {s : State} (hz : Keeps ⟨φ0, φ1, φ2, φ3, φ4, φ5, φ6, φ7, φ8, φ9, φ10, φ11, φ12, φ13, true, φ15, φ16, φ17, φ18, φ19⟩ z0 s) : Keeps ⟨φ0, φ1, φ2, φ3, φ4, φ5, φ6, φ7, φ8, φ9, φ10, φ11, φ12, φ13, true, φ15, φ16, φ17, φ18, φ19⟩ z0 (setGrp g v s) := by
  unfold setGrp
  exact Keeps.of hz rfl

theorem dropSample_keeps {st id : Nat} {s : State} (hz : Keeps ⟨φ0, φ1, φ2, φ3, φ4, φ5, φ6, φ7, φ8, φ9, φ10, φ11, φ12, φ13, true, φ15, φ16, φ17, φ18, φ19⟩ z0 s) : Keeps ⟨φ0, φ1, φ2, φ3, φ4, φ5, φ6, φ7, φ8, φ9, φ10, φ11, φ12, φ13, true, φ15, φ16, φ17, φ18, φ19⟩ z0 (dropSample st id s) := by
  unfold dropSample
  exact Keeps.of hz rfl

theorem updSample_keeps {st id : Nat} {f : CarSample → CarSample} {s : State} (hz : Keeps ⟨φ0, φ1, φ2, φ3, φ4, φ5, φ6, φ7, φ8, φ9, φ10, φ11, φ12, φ13, true, φ15, φ16, φ17, φ18, φ19⟩ z0 s) : Keeps ⟨φ0, φ1, φ2, φ3, φ4, φ5, φ6, φ7, φ8, φ9, φ10, φ11, φ12, φ13, true, φ15, φ16, φ17, φ18, φ19⟩ z0 (updSample st id f s) := by
  unfold updSample
  exact Keeps.of hz rfl

theorem updSlot_keeps {g num j : Nat} {f : CarSlot → CarSlot} {s : State} (hz : Keeps ⟨φ0, φ1, φ2, φ3, φ4, φ5, φ6, φ7, φ8, φ9, φ10, φ11, φ12, φ13, true, φ15, φ16, φ17, φ18, φ19⟩ z0 s) : Keeps ⟨φ0, φ1, φ2, φ3, φ4, φ5, φ6, φ7, φ8, φ9, φ10, φ11, φ12, φ13, true, φ15, φ16, φ17, φ18, φ19⟩ z0 (updSlot g num j f s) := by
  unfold updSlot
  extract_lets +onlyGivenNames k_1
  exact setGrp_keeps hz

theorem openBatch_keeps {g : Nat} {s : State} (hz : Keeps ⟨φ0, φ1, φ2, φ3, φ4, φ5, φ6, φ7, φ8, φ9, φ10, φ11, φ12, φ13, true, φ15, φ16, φ17, φ18, φ19⟩ z0 s) : Held (fun v => Keeps ⟨φ0, φ1, φ2, φ3, φ4, φ5, φ6, φ7, φ8, φ9, φ10, φ11, φ12, φ13, true, φ15, φ16, φ17, φ18, φ19⟩ z0 v.2) (openBatch g s) := by
  unfold openBatch
  split
  · exact Held.none
  · extract_lets +onlyGivenNames k_1
    refine Held.some ?_
    try dsimp only
    exact setGrp_keeps hz

theorem takeSlot_keeps {g st : Nat} {s : State} (hz : Keeps ⟨φ0, φ1, φ2, φ3, φ4, φ5, φ6, φ7, φ8, φ9, φ10, φ11, φ12, φ13, true, φ15, φ16, φ17, φ18, φ19⟩ z0 s) : Held (fun v => Keeps ⟨φ0, φ1, φ2, φ3, φ4, φ5, φ6, φ7, φ8, φ9, φ10, φ11, φ12, φ13, true, φ15, φ16, φ17, φ18, φ19⟩ z0 v.2) (takeSlot g st s) := by
  unfold takeSlot
  extract_lets +onlyGivenNames c_1 k_2
  split
  · extract_lets +onlyGivenNames j_3
    split
    · refine Held.some ?_
      try dsimp only
      exact hz
    · split
      · refine Held.some ?_
        try dsimp only
        exact Held.of_pair (openBatch_keeps hz) (by with_reducible assumption)
      · exact Held.none
  · split
    · refine Held.some ?_
      try dsimp only
      exact hz
    · split
      · refine Held.some ?_
        try dsimp only
        exact Held.of_pair (openBatch_keeps hz) (by with_reducible assumption)
      · exact Held.none

theorem pushFeed_keeps {st id : Nat} {ok : Bool} {scales : List (Nat × Nat × Nat × Nat × List Nat)} {s : State} (hz : Keeps ⟨φ0, φ1, φ2, φ3, φ4, φ5, φ6, φ7, φ8, φ9, φ10, φ11, φ12, φ13, true, φ15, φ16, φ17, φ18, φ19⟩ z0 s) : Keeps ⟨φ0, φ1, φ2, φ3, φ4, φ5, φ6, φ7, φ8, φ9, φ10, φ11, φ12, φ13, true, φ15, φ16, φ17, φ18, φ19⟩ z0 (pushFeed st id ok scales s) := by
  unfold pushFeed
  split
  · exact Keeps.of hz rfl
  · exact hz

theorem fnRow_keeps {st : Nat} {s : State} (hz : Keeps ⟨φ0, φ1, φ2, φ3, φ4, φ5, φ6, φ7, φ8, φ9, φ10, φ11, φ12, φ13, true, φ15, φ16, φ17, φ18, φ19⟩ z0 s) : Keeps ⟨φ0, φ1, φ2, φ3, φ4, φ5, φ6, φ7, φ8, φ9, φ10, φ11, φ12, φ13, true, φ15, φ16, φ17, φ18, φ19⟩ z0 (fnRow st s) := by
  unfold fnRow
  exact Keeps.of hz rfl

theorem issueBatch_keeps {g : Nat} {b : CarBatch} {s : State} (hz : Keeps ⟨φ0, true, true, φ3, φ4, φ5, φ6, φ7, φ8, true, φ10, φ11, φ12, φ13, true, φ15, true, φ17, φ18, φ19⟩ z0 s) : Keeps ⟨φ0, true, true, φ3, φ4, φ5, φ6, φ7, φ8, true, φ10, φ11, φ12, φ13, true, φ15, true, φ17, φ18, φ19⟩ z0 (issueBatch g b s) := by
  unfold issueBatch
  extract_lets +onlyGivenNames q_1 s1_2 rcd_3 k_4 s2_5
  have k_s1_2 : Keeps ⟨φ0, true, true, φ3, φ4, φ5, φ6, φ7, φ8, true, φ10, φ11, φ12, φ13, true, φ15, true, φ17, φ18, φ19⟩ z0 s1_2 := by
    subst s1_2
    apply Keeps.foldl
    · exact hz
    · intro _ _ k6
      split
      · split
        · exact raise_keeps k6
        · exact k6
      · exact k6
  have k_s2_5 : Keeps ⟨φ0, true, true, φ3, φ4, φ5, φ6, φ7, φ8, true, φ10, φ11, φ12, φ13, true, φ15, true, φ17, φ18, φ19⟩ z0 s2_5 := setGrp_keeps k_s1_2
  clear_value s1_2 s2_5
  exact carFree_keeps (pushEngine_keeps k_s2_5)

theorem settleGroup_keeps {g : Nat} {s : State} (hz : Keeps ⟨φ0, true, true, φ3, φ4, φ5, φ6, φ7, φ8, true, φ10, φ11, φ12, φ13, true, φ15, true, φ17, φ18, φ19⟩ z0 s) : Keeps ⟨φ0, true, true, φ3, φ4, φ5, φ6, φ7, φ8, true, φ10, φ11, φ12, φ13, true, φ15, true, φ17, φ18, φ19⟩ z0 (settleGroup g s) := by
  unfold settleGroup
  apply Keeps.foldl
  · exact hz
  · intro _ _ k1
    split
    · exact issueBatch_keeps k1
    · exact k1

theorem corruptSample_keeps {st id cause : Nat} {inj : Bool} {s : State} (hz : Keeps ⟨φ0, true, true, φ3, φ4, φ5, φ6, φ7, φ8, true, φ10, φ11, φ12, φ13, true, φ15, true, φ17, φ18, φ19⟩ z0 s) : Keeps ⟨φ0, true, true, φ3, φ4, φ5, φ6, φ7, φ8, true, φ10, φ11, φ12, φ13, true, φ15, true, φ17, φ18, φ19⟩ z0 (corruptSample st id cause inj s) := by
  unfold corruptSample
  split
  · exact hz
  · extract_lets +onlyGivenNames c_1 s1_2
    have k_s1_2 : Keeps ⟨φ0, true, true, φ3, φ4, φ5, φ6, φ7, φ8, true, φ10, φ11, φ12, φ13, true, φ15, true, φ17, φ18, φ19⟩ z0 s1_2 := bump_keeps hz
    clear_value s1_2
    split
    · exact raise_keeps (dropSample_keeps k_s1_2)
    · extract_lets +onlyGivenNames wait_3 s2_4 s3_5
      have k_s2_4 : Keeps ⟨φ0, true, true, φ3, φ4, φ5, φ6, φ7, φ8, true, φ10, φ11, φ12, φ13, true, φ15, true, φ17, φ18, φ19⟩ z0 s2_4 := pushFeed_keeps (dropSample_keeps k_s1_2)
      have k_s3_5 : Keeps ⟨φ0, true, true, φ3, φ4, φ5, φ6, φ7, φ8, true, φ10, φ11, φ12, φ13, true, φ15, true, φ17, φ18, φ19⟩ z0 s3_5 := by
        subst s3_5
        split
        · exact updSlot_keeps k_s2_4
        · exact k_s2_4
      clear_value s2_4 s3_5
      apply settleGroup_keeps
      split
      · exact k_s3_5
      · exact raise_keeps k_s3_5

theorem teachMean_keeps {st t : Nat} {s : State} (hz : Keeps ⟨φ0, φ1, φ2, φ3, φ4, φ5, φ6, φ7, φ8, φ9, φ10, φ11, φ12, φ13, true, φ15, φ16, φ17, φ18, φ19⟩ z0 s) : Keeps ⟨φ0, φ1, φ2, φ3, φ4, φ5, φ6, φ7, φ8, φ9, φ10, φ11, φ12, φ13, true, φ15, φ16, φ17, φ18, φ19⟩ z0 (teachMean st t s) := by
  unfold teachMean
  extract_lets +onlyGivenNames v_1
  exact setStream_keeps hz

theorem overdue_keeps {st id : Nat} {inj : Bool} {s : State} (hz : Keeps ⟨φ0, true, true, φ3, φ4, φ5, φ6, φ7, φ8, true, φ10, φ11, φ12, φ13, true, φ15, true, φ17, φ18, φ19⟩ z0 s) : Keeps ⟨φ0, true, true, φ3, φ4, φ5, φ6, φ7, φ8, true, φ10, φ11, φ12, φ13, true, φ15, true, φ17, φ18, φ19⟩ z0 (overdue st id inj s) := by
  unfold overdue
  split
  · exact hz
  · extract_lets +onlyGivenNames c_1 miss_2 mean_3 s1_4
    have k_s1_4 : Keeps ⟨φ0, true, true, φ3, φ4, φ5, φ6, φ7, φ8, true, φ10, φ11, φ12, φ13, true, φ15, true, φ17, φ18, φ19⟩ z0 s1_4 := teachMean_keeps (raise_keeps (bump_keeps hz))
    clear_value s1_4
    split
    · exact k_s1_4
    · split
      · extract_lets +onlyGivenNames s2_5 s3_6
        have k_s2_5 : Keeps ⟨φ0, true, true, φ3, φ4, φ5, φ6, φ7, φ8, true, φ10, φ11, φ12, φ13, true, φ15, true, φ17, φ18, φ19⟩ z0 s2_5 := updSlot_keeps k_s1_4
        have k_s3_6 : Keeps ⟨φ0, true, true, φ3, φ4, φ5, φ6, φ7, φ8, true, φ10, φ11, φ12, φ13, true, φ15, true, φ17, φ18, φ19⟩ z0 s3_6 := by
          subst s3_6
          split
          · exact updSample_keeps k_s2_5
          · exact dropSample_keeps k_s2_5
        clear_value s2_5 s3_6
        exact settleGroup_keeps (pushFeed_keeps k_s3_6)
      · exact updSample_keeps (updSlot_keeps k_s1_4)

theorem startSample_keeps {st id : Nat} {src : List Byte} {ready : Bool} {s : State} (hz : Keeps ⟨φ0, true, true, φ3, φ4, φ5, φ6, φ7, φ8, true, φ10, φ11, φ12, φ13, true, φ15, true, φ17, φ18, φ19⟩ z0 s) : Held (fun v => Keeps ⟨φ0, true, true, φ3, φ4, φ5, φ6, φ7, φ8, true, φ10, φ11, φ12, φ13, true, φ15, true, φ17, φ18, φ19⟩ z0 v) (startSample st id src ready s) := by
  unfold startSample
  extract_lets +onlyGivenNames c_1
  split
  · exact Held.none
  · extract_lets +onlyGivenNames v_2 s2_3 s3_4
    have k_s2_3 : Keeps ⟨φ0, true, true, φ3, φ4, φ5, φ6, φ7, φ8, true, φ10, φ11, φ12, φ13, true, φ15, true, φ17, φ18, φ19⟩ z0 s2_3 := updSlot_keeps (addCtr_keeps (Held.of_pair (takeSlot_keeps hz) (by with_reducible assumption)))
    clear_value s2_3
    extract_lets +onlyGivenNames s3_5
    have k_s3_5 : Keeps ⟨φ0, true, true, φ3, φ4, φ5, φ6, φ7, φ8, true, φ10, φ11, φ12, φ13, true, φ15, true, φ17, φ18, φ19⟩ z0 s3_5 := Keeps.of k_s2_3 rfl
    clear_value s3_5
    refine Held.some ?_
    try dsimp only
    split
    · exact overdue_keeps (disarm_keeps k_s3_5)
    · exact k_s3_5

theorem execSourceRecord_keeps {st : Nat} {s : State} (hz : Keeps ⟨φ0, true, true, true, true, true, true, true, true, true, true, φ11, φ12, φ13, true, φ15, true, φ17, φ18, φ19⟩ z0 s) : Kept ⟨φ0, true, true, true, true, true, true, true, true, true, true, φ11, φ12, φ13, true, φ15, true, φ17, φ18, φ19⟩ z0 (execSourceRecord st s) := by
  unfold execSourceRecord
  apply Kept.next
  extract_lets +onlyGivenNames c_1
  split
  · exact hz
  · split
    · exact hz
    · split
      · exact noTake_keeps hz
      · extract_lets +onlyGivenNames r_2
        split
        · exact hz
        · split
          · exact corruptSample_keeps (Held.state (startSample_keeps (Held.of_pair (engineTake_keeps hz) (by with_reducible assumption))) (by with_reducible assumption))
          · exact Held.state (startSample_keeps (Held.of_pair (engineTake_keeps hz) (by with_reducible assumption))) (by with_reducible assumption)

theorem readSource_keeps {r : SrcRec} {s : State} (hz : Keeps ⟨φ0, true, true, φ3, φ4, φ5, φ6, true, true, true, true, φ11, φ12, φ13, φ14, φ15, true, φ17, φ18, φ19⟩ z0 s) : Keeps ⟨φ0, true, true, φ3, φ4, φ5, φ6, true, true, true, true, φ11, φ12, φ13, φ14, φ15, true, φ17, φ18, φ19⟩ z0 (readSource r s).2.2 := by
  unfold readSource
  dsimp only
  split
  · dsimp only
    exact access_keeps hz
  · split
    · dsimp only
      exact access_keeps hz
    · dsimp only
      exact access_keeps hz

theorem sampleImg_keeps {c : StreamCfg} {x : CarSample} {s : State} (hz : Keeps ⟨φ0, true, true, φ3, φ4, φ5, φ6, true, true, true, true, φ11, φ12, φ13, φ14, φ15, true, φ17, φ18, φ19⟩ z0 s) : Keeps ⟨φ0, true, true, φ3, φ4, φ5, φ6, true, true, true, true, φ11, φ12, φ13, φ14, φ15, true, φ17, φ18, φ19⟩ z0 (sampleImg c x s).2 := by
  unfold sampleImg
  dsimp only
  split
  · exact hz
  · split
    · split
      · split
        · dsimp only
          exact Keeps.of_triple (readSource_keeps hz) (by with_reducible assumption)
        · dsimp only
          exact Keeps.of_triple (readSource_keeps hz) (by with_reducible assumption)
      · dsimp only
        exact Keeps.of_triple (readSource_keeps hz) (by with_reducible assumption)
    · dsimp only
      exact Keeps.of_triple (readSource_keeps hz) (by with_reducible assumption)

theorem overrunSample_keeps {st id : Nat} {s : State} (hz : Keeps ⟨φ0, true, true, φ3, φ4, φ5, φ6, true, true, true, true, φ11, φ12, φ13, true, φ15, true, φ17, φ18, φ19⟩ z0 s) : Keeps ⟨φ0, true, true, φ3, φ4, φ5, φ6, true, true, true, true, φ11, φ12, φ13, true, φ15, true, φ17, φ18, φ19⟩ z0 (overrunSample st id s) := by
  unfold overrunSample
  extract_lets +onlyGivenNames c_1 waits_2 s1_3
  have k_s1_3 : Keeps ⟨φ0, true, true, φ3, φ4, φ5, φ6, true, true, true, true, φ11, φ12, φ13, true, φ15, true, φ17, φ18, φ19⟩ z0 s1_3 := corruptSample_keeps hz
  clear_value s1_3
  split
  · split
    · exact k_s1_3
    · extract_lets +onlyGivenNames rows_4
      split
      · extract_lets +onlyGivenNames scales_5
        exact Keeps.of k_s1_3 rfl
      · exact k_s1_3
  · exact k_s1_3

theorem carWrite_keeps {g x1 x2 : Nat} {x3 : List Byte} {x4 : State} (hz : Keeps ⟨φ0, true, true, φ3, φ4, φ5, φ6, true, true, true, true, φ11, φ12, φ13, φ14, φ15, true, φ17, φ18, φ19⟩ z0 x4) : Keeps ⟨φ0, true, true, φ3, φ4, φ5, φ6, true, true, true, true, φ11, φ12, φ13, φ14, φ15, true, φ17, φ18, φ19⟩ z0 (carWrite g x1 x2 x3 x4).2 := by
  induction x1 generalizing g x2 x3 x4 with
  | zero =>
    unfold carWrite
    exact hz
  | succ n ih =>
    unfold carWrite
    split
    · exact hz
    · dsimp only
      split
      · dsimp only
        exact access_keeps hz
      · exact ih (access_keeps hz)

theorem writeScales_keeps {g a : Nat} {c : StreamCfg} {x1 : List (Nat × Nat × Nat × Nat × List Nat)} {x2 : State} (hz : Keeps ⟨φ0, true, true, φ3, φ4, φ5, φ6, true, true, true, true, φ11, φ12, φ13, φ14, φ15, true, φ17, φ18, φ19⟩ z0 x2) : Keeps ⟨φ0, true, true, φ3, φ4, φ5, φ6, true, true, true, true, φ11, φ12, φ13, φ14, φ15, true, φ17, φ18, φ19⟩ z0 (writeScales g a c x1 x2).2 := by
  induction x1 generalizing g a c x2 with
  | nil =>
    unfold writeScales
    exact hz
  | cons a l ih =>
    unfold writeScales
    dsimp only
    split
    · exact carWrite_keeps hz
    · exact ih (carWrite_keeps hz)

theorem haltGroup_keeps {g num a cause : Nat} {inj : Bool} {s : State} (hz : Keeps ⟨φ0, true, true, φ3, φ4, φ5, φ6, φ7, φ8, true, φ10, φ11, φ12, φ13, true, φ15, true, φ17, φ18, φ19⟩ z0 s) : Keeps ⟨φ0, true, true, φ3, φ4, φ5, φ6, φ7, φ8, true, φ10, φ11, φ12, φ13, true, φ15, true, φ17, φ18, φ19⟩ z0 (haltGroup g num a cause inj s) := by
  unfold haltGroup
  extract_lets +onlyGivenNames s0_1
  have k_s0_1 : Keeps ⟨φ0, true, true, φ3, φ4, φ5, φ6, φ7, φ8, true, φ10, φ11, φ12, φ13, true, φ15, true, φ17, φ18, φ19⟩ z0 s0_1 := raise_keeps hz
  clear_value s0_1
  split
  · exact k_s0_1
  · extract_lets +onlyGivenNames k_2 s1_3 live_4 s2_5
    have k_s1_3 : Keeps ⟨φ0, true, true, φ3, φ4, φ5, φ6, φ7, φ8, true, φ10, φ11, φ12, φ13, true, φ15, true, φ17, φ18, φ19⟩ z0 s1_3 := setGrp_keeps k_s0_1
    have k_s2_5 : Keeps ⟨φ0, true, true, φ3, φ4, φ5, φ6, φ7, φ8, true, φ10, φ11, φ12, φ13, true, φ15, true, φ17, φ18, φ19⟩ z0 s2_5 := by
      subst s2_5
      apply Keeps.foldl
      · exact k_s1_3
      · intro _ _ k6
        split
        · extract_lets +onlyGivenNames acc1_7 acc2_8
          have k_acc1_7 : Keeps ⟨φ0, true, true, φ3, φ4, φ5, φ6, φ7, φ8, true, φ10, φ11, φ12, φ13, true, φ15, true, φ17, φ18, φ19⟩ z0 acc1_7 := pushFeed_keeps (dropSample_keeps (bump_keeps k6))
          have k_acc2_8 : Keeps ⟨φ0, true, true, φ3, φ4, φ5, φ6, φ7, φ8, true, φ10, φ11, φ12, φ13, true, φ15, true, φ17, φ18, φ19⟩ z0 acc2_8 := by
            subst acc2_8
            split
            · exact updSlot_keeps k_acc1_7
            · exact k_acc1_7
          clear_value acc1_7 acc2_8
          exact raise_keeps k_acc2_8
        · exact k6
    clear_value s1_3 s2_5
    exact settleGroup_keeps k_s2_5

theorem placeSample_keeps {g : Nat} {x : CarSample} {s : State} (hz : Keeps ⟨φ0, true, true, φ3, φ4, φ5, φ6, φ7, φ8, true, φ10, φ11, φ12, φ13, true, φ15, true, φ17, φ18, φ19⟩ z0 s) : Held (fun v => Keeps ⟨φ0, true, true, φ3, φ4, φ5, φ6, φ7, φ8, true, φ10, φ11, φ12, φ13, true, φ15, true, φ17, φ18, φ19⟩ z0 v.2) (placeSample g x s) := by
  unfold placeSample
  split
  · extract_lets +onlyGivenNames old_1 s1_2 s2_3
    have k_s1_2 : Keeps ⟨φ0, true, true, φ3, φ4, φ5, φ6, φ7, φ8, true, φ10, φ11, φ12, φ13, true, φ15, true, φ17, φ18, φ19⟩ z0 s1_2 := by
      subst s1_2
      split
      · exact raise_keeps hz
      · exact hz
    have k_s2_3 : Keeps ⟨φ0, true, true, φ3, φ4, φ5, φ6, φ7, φ8, true, φ10, φ11, φ12, φ13, true, φ15, true, φ17, φ18, φ19⟩ z0 s2_3 := by
      subst s2_3
      split
      · exact updSlot_keeps k_s1_2
      · exact k_s1_2
    clear_value s1_2 s2_3
    refine Held.some ?_
    try dsimp only
    exact k_s2_3
  · split
    · refine Held.some ?_
      try dsimp only
      exact hz
    · split
      · refine Held.some ?_
        try dsimp only
        exact Held.of_pair (takeSlot_keeps hz) (by with_reducible assumption)
      · exact Held.none

theorem execSampleComplete_keeps {st id : Nat} {s : State} (hz : Keeps ⟨φ0, true, true, φ3, φ4, φ5, φ6, true, true, true, true, φ11, φ12, φ13, true, φ15, true, φ17, φ18, φ19⟩ z0 s) : Kept ⟨φ0, true, true, φ3, φ4, φ5, φ6, true, true, true, true, φ11, φ12, φ13, true, φ15, true, φ17, φ18, φ19⟩ z0 (execSampleComplete st id s) := by
  unfold execSampleComplete
  apply Kept.next
  split
  · exact hz
  · extract_lets +onlyGivenNames c_1 g_2
    split
    · exact hz
    · split
      · exact corruptSample_keeps (disarm_keeps hz)
      · split
        · exact corruptSample_keeps (Keeps.of_pair (sampleImg_keeps hz) (by with_reducible assumption))
        · split
          · exact hz
          · extract_lets +onlyGivenNames k_3 buf_4 a_5 depth_6 scales_7 s3_8 w_9
            have k_s3_8 : Keeps ⟨φ0, true, true, φ3, φ4, φ5, φ6, true, true, true, true, φ11, φ12, φ13, true, φ15, true, φ17, φ18, φ19⟩ z0 s3_8 := updSample_keeps (updSlot_keeps (Held.of_pair (placeSample_keeps (Keeps.of_pair (sampleImg_keeps hz) (by with_reducible assumption))) (by with_reducible assumption)))
            have k_w_9 : Keeps ⟨φ0, true, true, φ3, φ4, φ5, φ6, true, true, true, true, φ11, φ12, φ13, true, φ15, true, φ17, φ18, φ19⟩ z0 w_9.2 := by
              subst w_9
              split
              · dsimp only
                exact disarm_keeps k_s3_8
              · exact writeScales_keeps k_s3_8
            clear_value s3_8 w_9
            split
            · exact haltGroup_keeps k_w_9
            · extract_lets +onlyGivenNames s4_10
              have k_s4_10 : Keeps ⟨φ0, true, true, φ3, φ4, φ5, φ6, true, true, true, true, φ11, φ12, φ13, true, φ15, true, φ17, φ18, φ19⟩ z0 s4_10 := updSlot_keeps (pushFeed_keeps (dropSample_keeps k_w_9))
              clear_value s4_10
              apply settleGroup_keeps
              split
              · exact k_s4_10
              · exact teachMean_keeps k_s4_10

theorem execSampleLate_keeps {st id : Nat} {s : State} (hz : Keeps ⟨φ0, true, true, φ3, true, φ5, φ6, φ7, φ8, true, φ10, φ11, φ12, φ13, true, φ15, true, φ17, φ18, φ19⟩ z0 s) : Kept ⟨φ0, true, true, φ3, true, φ5, φ6, φ7, φ8, true, φ10, φ11, φ12, φ13, true, φ15, true, φ17, φ18, φ19⟩ z0 (execSampleLate st id s) := by
  unfold execSampleLate
  apply Kept.next
  split
  · split
    · split
      · exact overdue_keeps (advanceToDev_keeps hz)
      · exact hz
    · exact hz
  · exact hz

theorem execMemorySampleCorrupt_keeps {st id cause : Nat} {s : State} (hz : Keeps ⟨φ0, true, true, φ3, φ4, φ5, φ6, true, true, true, true, φ11, φ12, φ13, true, φ15, true, φ17, φ18, φ19⟩ z0 s) : Kept ⟨φ0, true, true, φ3, φ4, φ5, φ6, true, true, true, true, φ11, φ12, φ13, true, φ15, true, φ17, φ18, φ19⟩ z0 (execMemorySampleCorrupt st id cause s) := by
  unfold execMemorySampleCorrupt
  apply Kept.next
  split
  · exact hz
  · extract_lets +onlyGivenNames c_1
    split
    · exact hz
    · extract_lets +onlyGivenNames r_2 found_3
      have k_r_2 : Keeps ⟨φ0, true, true, φ3, φ4, φ5, φ6, true, true, true, true, φ11, φ12, φ13, true, φ15, true, φ17, φ18, φ19⟩ z0 r_2.2.2 := readSource_keeps hz
      clear_value r_2
      split
      · exact corruptSample_keeps k_r_2
      · exact hz

theorem execBatchWindowExpiry_keeps {g : Nat} {s : State} (hz : Keeps ⟨φ0, true, true, φ3, true, φ5, φ6, φ7, φ8, true, φ10, φ11, φ12, φ13, true, φ15, true, φ17, φ18, φ19⟩ z0 s) : Kept ⟨φ0, true, true, φ3, true, φ5, φ6, φ7, φ8, true, φ10, φ11, φ12, φ13, true, φ15, true, φ17, φ18, φ19⟩ z0 (execBatchWindowExpiry g s) := by
  unfold execBatchWindowExpiry
  apply Kept.next
  extract_lets +onlyGivenNames c_1
  split
  · exact hz
  · split
    · exact hz
    · extract_lets +onlyGivenNames s1_2 k_3
      have k_s1_2 : Keeps ⟨φ0, true, true, φ3, true, φ5, φ6, φ7, φ8, true, φ10, φ11, φ12, φ13, true, φ15, true, φ17, φ18, φ19⟩ z0 s1_2 := advanceToDev_keeps hz
      clear_value s1_2
      exact settleGroup_keeps (setGrp_keeps k_s1_2)

theorem carRefused_keeps {ctx value group : Nat} {s : State} (hz : Keeps ⟨φ0, true, true, φ3, φ4, φ5, φ6, φ7, φ8, true, φ10, φ11, φ12, φ13, φ14, φ15, true, φ17, φ18, φ19⟩ z0 s) : Keeps ⟨φ0, true, true, φ3, φ4, φ5, φ6, φ7, φ8, true, φ10, φ11, φ12, φ13, φ14, φ15, true, φ17, φ18, φ19⟩ z0 (carRefused ctx value group s) := by
  unfold carRefused
  exact raise_keeps hz

theorem cancelStream_keeps {st : Nat} {s : State} (hz : Keeps ⟨φ0, true, true, φ3, φ4, φ5, φ6, φ7, φ8, true, φ10, φ11, φ12, φ13, true, φ15, true, φ17, φ18, φ19⟩ z0 s) : Keeps ⟨φ0, true, true, φ3, φ4, φ5, φ6, φ7, φ8, true, φ10, φ11, φ12, φ13, true, φ15, true, φ17, φ18, φ19⟩ z0 (cancelStream st s) := by
  unfold cancelStream
  extract_lets +onlyGivenNames g_1 mine_2 s1_3
  have k_s1_3 : Keeps ⟨φ0, true, true, φ3, φ4, φ5, φ6, φ7, φ8, true, φ10, φ11, φ12, φ13, true, φ15, true, φ17, φ18, φ19⟩ z0 s1_3 := by
    subst s1_3
    apply Keeps.foldl
    · exact hz
    · intro _ _ k4
      extract_lets +onlyGivenNames a_5 b_6
      have k_a_5 : Keeps ⟨φ0, true, true, φ3, φ4, φ5, φ6, φ7, φ8, true, φ10, φ11, φ12, φ13, true, φ15, true, φ17, φ18, φ19⟩ z0 a_5 := dropSample_keeps k4
      have k_b_6 : Keeps ⟨φ0, true, true, φ3, φ4, φ5, φ6, φ7, φ8, true, φ10, φ11, φ12, φ13, true, φ15, true, φ17, φ18, φ19⟩ z0 b_6 := by
        subst b_6
        split
        · exact k_a_5
        · exact pushFeed_keeps k_a_5
      clear_value a_5 b_6
      split
      · exact updSlot_keeps k_b_6
      · exact k_b_6
  clear_value s1_3
  exact settleGroup_keeps k_s1_3

theorem wrStCmd_keeps {v : Word} {s : State} (hz : Keeps ⟨φ0, true, true, φ3, φ4, φ5, φ6, φ7, φ8, true, φ10, φ11, φ12, φ13, true, φ15, true, φ17, φ18, φ19⟩ z0 s) : Keeps ⟨φ0, true, true, φ3, φ4, φ5, φ6, φ7, φ8, true, φ10, φ11, φ12, φ13, true, φ15, true, φ17, φ18, φ19⟩ z0 (wrStCmd v s) := by
  unfold wrStCmd
  extract_lets +onlyGivenNames n_1 k_2
  split
  · extract_lets +onlyGivenNames b_3 c_4
    split
    · exact carRefused_keeps hz
    · exact setStream_keeps hz
  · split
    · exact hz
    · exact setStream_keeps hz
  · split
    · exact setStream_keeps (cancelStream_keeps hz)
    · exact hz
  · exact setStream_keeps hz
  · exact hz

theorem execStreamConfigure_keeps {r : Req} {s : State} (hz : Keeps ⟨φ0, true, true, φ3, φ4, φ5, φ6, φ7, φ8, true, φ10, φ11, φ12, φ13, true, φ15, true, φ17, φ18, φ19⟩ z0 s) : Kept ⟨φ0, true, true, φ3, φ4, φ5, φ6, φ7, φ8, true, φ10, φ11, φ12, φ13, true, φ15, true, φ17, φ18, φ19⟩ z0 (execStreamConfigure r s) := by
  unfold execStreamConfigure
  apply Kept.next
  apply onReg_keeps
  · intro _ k1
    exact wrStCmd_keeps k1
  · exact hz

theorem execStreamStart_keeps {r : Req} {s : State} (hz : Keeps ⟨φ0, true, true, φ3, φ4, φ5, φ6, φ7, φ8, true, φ10, φ11, φ12, φ13, true, φ15, true, φ17, φ18, φ19⟩ z0 s) : Kept ⟨φ0, true, true, φ3, φ4, φ5, φ6, φ7, φ8, true, φ10, φ11, φ12, φ13, true, φ15, true, φ17, φ18, φ19⟩ z0 (execStreamStart r s) := by
  unfold execStreamStart
  apply Kept.next
  apply onReg_keeps
  · intro _ k1
    exact wrStCmd_keeps k1
  · exact hz

theorem execStreamStop_keeps {r : Req} {s : State} (hz : Keeps ⟨φ0, true, true, φ3, φ4, φ5, φ6, φ7, φ8, true, φ10, φ11, φ12, φ13, true, φ15, true, φ17, φ18, φ19⟩ z0 s) : Kept ⟨φ0, true, true, φ3, φ4, φ5, φ6, φ7, φ8, true, φ10, φ11, φ12, φ13, true, φ15, true, φ17, φ18, φ19⟩ z0 (execStreamStop r s) := by
  unfold execStreamStop
  apply Kept.next
  apply onReg_keeps
  · intro _ k1
    exact wrStCmd_keeps k1
  · exact hz

theorem execMeanReset_keeps {r : Req} {s : State} (hz : Keeps ⟨φ0, true, true, φ3, φ4, φ5, φ6, φ7, φ8, true, φ10, φ11, φ12, φ13, true, φ15, true, φ17, φ18, φ19⟩ z0 s) : Kept ⟨φ0, true, true, φ3, φ4, φ5, φ6, φ7, φ8, true, φ10, φ11, φ12, φ13, true, φ15, true, φ17, φ18, φ19⟩ z0 (execMeanReset r s) := by
  unfold execMeanReset
  apply Kept.next
  apply onReg_keeps
  · intro _ k1
    exact wrStCmd_keeps k1
  · exact hz

theorem stopGroup_keeps {g : Nat} {s : State} (hz : Keeps ⟨φ0, true, true, φ3, φ4, φ5, φ6, φ7, φ8, true, φ10, φ11, φ12, φ13, true, φ15, true, φ17, φ18, φ19⟩ z0 s) : Keeps ⟨φ0, true, true, φ3, φ4, φ5, φ6, φ7, φ8, true, φ10, φ11, φ12, φ13, true, φ15, true, φ17, φ18, φ19⟩ z0 (stopGroup g s) := by
  unfold stopGroup
  extract_lets +onlyGivenNames c_1 s1_2 k_3
  have k_s1_2 : Keeps ⟨φ0, true, true, φ3, φ4, φ5, φ6, φ7, φ8, true, φ10, φ11, φ12, φ13, true, φ15, true, φ17, φ18, φ19⟩ z0 s1_2 := by
    subst s1_2
    apply Keeps.foldl
    · exact hz
    · intro _ _ k4
      apply Keeps.foldl
      · exact k4
      · intro _ _ k5
        extract_lets +onlyGivenNames a1_6
        have k_a1_6 : Keeps ⟨φ0, true, true, φ3, φ4, φ5, φ6, φ7, φ8, true, φ10, φ11, φ12, φ13, true, φ15, true, φ17, φ18, φ19⟩ z0 a1_6 := pushFeed_keeps (dropSample_keeps k5)
        clear_value a1_6
        split
        · exact updSlot_keeps k_a1_6
        · exact k_a1_6
  clear_value s1_2
  exact settleGroup_keeps (setGrp_keeps k_s1_2)

theorem wrGrpCmd_keeps {v : Word} {s : State} (hz : Keeps ⟨φ0, true, true, φ3, φ4, φ5, φ6, φ7, φ8, true, φ10, φ11, φ12, φ13, true, φ15, true, φ17, φ18, φ19⟩ z0 s) : Keeps ⟨φ0, true, true, φ3, φ4, φ5, φ6, φ7, φ8, true, φ10, φ11, φ12, φ13, true, φ15, true, φ17, φ18, φ19⟩ z0 (wrGrpCmd v s) := by
  unfold wrGrpCmd
  extract_lets +onlyGivenNames g_1 k_2
  split
  · extract_lets +onlyGivenNames b_3
    split
    · exact carRefused_keeps hz
    · exact setGrp_keeps hz
  · split
    · exact carRefused_keeps hz
    · exact setGrp_keeps hz
  · split
    · exact hz
    · exact stopGroup_keeps hz
  · exact hz

theorem execGroupConfigure_keeps {r : Req} {s : State} (hz : Keeps ⟨φ0, true, true, φ3, φ4, φ5, φ6, φ7, φ8, true, φ10, φ11, φ12, φ13, true, φ15, true, φ17, φ18, φ19⟩ z0 s) : Kept ⟨φ0, true, true, φ3, φ4, φ5, φ6, φ7, φ8, true, φ10, φ11, φ12, φ13, true, φ15, true, φ17, φ18, φ19⟩ z0 (execGroupConfigure r s) := by
  unfold execGroupConfigure
  apply Kept.next
  apply onReg_keeps
  · intro _ k1
    exact wrGrpCmd_keeps k1
  · exact hz

theorem execGroupStart_keeps {r : Req} {s : State} (hz : Keeps ⟨φ0, true, true, φ3, φ4, φ5, φ6, φ7, φ8, true, φ10, φ11, φ12, φ13, true, φ15, true, φ17, φ18, φ19⟩ z0 s) : Kept ⟨φ0, true, true, φ3, φ4, φ5, φ6, φ7, φ8, true, φ10, φ11, φ12, φ13, true, φ15, true, φ17, φ18, φ19⟩ z0 (execGroupStart r s) := by
  unfold execGroupStart
  apply Kept.next
  apply onReg_keeps
  · intro _ k1
    exact wrGrpCmd_keeps k1
  · exact hz

theorem execGroupStop_keeps {r : Req} {s : State} (hz : Keeps ⟨φ0, true, true, φ3, φ4, φ5, φ6, φ7, φ8, true, φ10, φ11, φ12, φ13, true, φ15, true, φ17, φ18, φ19⟩ z0 s) : Kept ⟨φ0, true, true, φ3, φ4, φ5, φ6, φ7, φ8, true, φ10, φ11, φ12, φ13, true, φ15, true, φ17, φ18, φ19⟩ z0 (execGroupStop r s) := by
  unfold execGroupStop
  apply Kept.next
  apply onReg_keeps
  · intro _ k1
    exact wrGrpCmd_keeps k1
  · exact hz

theorem setVc_keeps {csi vc : Nat} {v : CamVc} {s : State} (hz : Keeps ⟨φ0, φ1, φ2, φ3, φ4, φ5, φ6, φ7, φ8, φ9, φ10, φ11, φ12, φ13, true, φ15, φ16, φ17, φ18, φ19⟩ z0 s) : Keeps ⟨φ0, φ1, φ2, φ3, φ4, φ5, φ6, φ7, φ8, φ9, φ10, φ11, φ12, φ13, true, φ15, φ16, φ17, φ18, φ19⟩ z0 (setVc csi vc v s) := by
  unfold setVc
  exact Keeps.of hz rfl

theorem phyUp_keeps {csi : Nat} {s : State} (hz : Keeps ⟨φ0, φ1, φ2, φ3, φ4, φ5, φ6, φ7, φ8, φ9, φ10, φ11, φ12, φ13, true, φ15, φ16, φ17, φ18, φ19⟩ z0 s) : Keeps ⟨φ0, φ1, φ2, φ3, φ4, φ5, φ6, φ7, φ8, φ9, φ10, φ11, φ12, φ13, true, φ15, φ16, φ17, φ18, φ19⟩ z0 (phyUp csi s) := by
  unfold phyUp
  split
  · exact hz
  · exact Keeps.of hz rfl

theorem frameCorrupt_keeps {csi vc cause : Nat} {inj : Bool} {s : State} (hz : Keeps ⟨φ0, true, true, φ3, φ4, φ5, φ6, φ7, φ8, true, φ10, φ11, φ12, φ13, true, φ15, true, φ17, φ18, φ19⟩ z0 s) : Keeps ⟨φ0, true, true, φ3, φ4, φ5, φ6, φ7, φ8, true, φ10, φ11, φ12, φ13, true, φ15, true, φ17, φ18, φ19⟩ z0 (frameCorrupt csi vc cause inj s) := by
  unfold frameCorrupt
  extract_lets +onlyGivenNames v_1 id_2 s1_3
  have k_s1_3 : Keeps ⟨φ0, true, true, φ3, φ4, φ5, φ6, φ7, φ8, true, φ10, φ11, φ12, φ13, true, φ15, true, φ17, φ18, φ19⟩ z0 s1_3 := raise_keeps (bump_keeps hz)
  clear_value s1_3
  split
  · exact k_s1_3
  · extract_lets +onlyGivenNames s2_4
    have k_s2_4 : Keeps ⟨φ0, true, true, φ3, φ4, φ5, φ6, φ7, φ8, true, φ10, φ11, φ12, φ13, true, φ15, true, φ17, φ18, φ19⟩ z0 s2_4 := setVc_keeps k_s1_3
    clear_value s2_4
    split
    · split
      · exact corruptSample_keeps k_s2_4
      · exact k_s2_4
    · exact k_s2_4

theorem hdrCorrected_keeps {csi vc hdr : Nat} {inj : Bool} {s : State} (hz : Keeps ⟨φ0, true, true, φ3, φ4, φ5, φ6, φ7, φ8, true, φ10, φ11, φ12, φ13, φ14, φ15, true, φ17, φ18, φ19⟩ z0 s) : Keeps ⟨φ0, true, true, φ3, φ4, φ5, φ6, φ7, φ8, true, φ10, φ11, φ12, φ13, φ14, φ15, true, φ17, φ18, φ19⟩ z0 (hdrCorrected csi vc hdr inj s) := by
  unfold hdrCorrected
  exact raise_keeps (bump_keeps hz)

theorem packetIn_keeps {csi vc dt : Nat} {b : List Byte} {full : Bool} {s : State} (hz : Keeps ⟨φ0, true, true, φ3, φ4, φ5, φ6, true, true, true, true, φ11, φ12, φ13, true, φ15, true, φ17, φ18, φ19⟩ z0 s) : Keeps ⟨φ0, true, true, φ3, φ4, φ5, φ6, true, true, true, true, φ11, φ12, φ13, true, φ15, true, φ17, φ18, φ19⟩ z0 (packetIn csi vc dt b full s) := by
  unfold packetIn
  extract_lets +onlyGivenNames v_1
  split
  · exact hz
  · extract_lets +onlyGivenNames st_2 c_3 image_4 sb_5 s1_6
    have k_s1_6 : Keeps ⟨φ0, true, true, φ3, φ4, φ5, φ6, true, true, true, true, φ11, φ12, φ13, true, φ15, true, φ17, φ18, φ19⟩ z0 s1_6 := setVc_keeps hz
    clear_value s1_6
    clear_value c_3
    split
    · exact k_s1_6
    · split
      · exact k_s1_6
      · split
        · exact frameCorrupt_keeps k_s1_6
        · clear_value st_2
          split
          · exact k_s1_6
          · split
            · exact overrunSample_keeps k_s1_6
            · exact fnRow_keeps (updSample_keeps k_s1_6)

theorem csiHeader_keeps {csi vc hdr bad : Nat} {s : State} (hz : Keeps ⟨φ0, true, true, φ3, φ4, φ5, φ6, φ7, φ8, true, φ10, φ11, φ12, φ13, true, φ15, true, φ17, φ18, φ19⟩ z0 s) : Keeps ⟨φ0, true, true, φ3, φ4, φ5, φ6, φ7, φ8, true, φ10, φ11, φ12, φ13, true, φ15, true, φ17, φ18, φ19⟩ z0 (csiHeader csi vc hdr bad s).2 := by
  unfold csiHeader
  split
  · dsimp only
    exact frameCorrupt_keeps hz
  · split
    · dsimp only
      exact hdrCorrected_keeps hz
    · split
      · dsimp only
        exact hdrCorrected_keeps (disarm_keeps hz)
      · exact hz

theorem execCsiPacket_keeps {csi vc dt hdr bad : Nat} {payload : List Byte} {crcOk full : Bool} {mem : Upset} {s : State} (hz : Keeps ⟨φ0, true, true, φ3, φ4, φ5, φ6, true, true, true, true, φ11, φ12, φ13, true, φ15, true, φ17, φ18, φ19⟩ z0 s) : Kept ⟨φ0, true, true, φ3, φ4, φ5, φ6, true, true, true, true, φ11, φ12, φ13, true, φ15, true, φ17, φ18, φ19⟩ z0 (execCsiPacket csi vc dt hdr bad payload crcOk full mem s) := by
  unfold execCsiPacket
  apply Kept.next
  split
  · exact hz
  · extract_lets +onlyGivenNames h_1 s1_2
    have k_h_1 : Keeps ⟨φ0, true, true, φ3, φ4, φ5, φ6, true, true, true, true, φ11, φ12, φ13, true, φ15, true, φ17, φ18, φ19⟩ z0 h_1.2 := csiHeader_keeps (phyUp_keeps hz)
    have k_s1_2 : Keeps ⟨φ0, true, true, φ3, φ4, φ5, φ6, true, true, true, true, φ11, φ12, φ13, true, φ15, true, φ17, φ18, φ19⟩ z0 s1_2 := k_h_1
    clear_value h_1 s1_2
    split
    · exact k_s1_2
    · split
      · exact k_s1_2
      · extract_lets +onlyGivenNames inj6_3 s2_4 word_5 inj11_6 inj5c_7 s3_8 broken_9 feeds_10 s4_11
        have k_s2_4 : Keeps ⟨φ0, true, true, φ3, φ4, φ5, φ6, true, true, true, true, φ11, φ12, φ13, true, φ15, true, φ17, φ18, φ19⟩ z0 s2_4 := by
          subst s2_4
          split
          · exact disarm_keeps k_s1_2
          · exact k_s1_2
        have k_s3_8 : Keeps ⟨φ0, true, true, φ3, φ4, φ5, φ6, true, true, true, true, φ11, φ12, φ13, true, φ15, true, φ17, φ18, φ19⟩ z0 s3_8 := by
          subst s3_8
          clear_value inj11_6 inj5c_7
          split
          · exact raise_keeps k_s2_4
          · exact raise_keeps (disarm_keeps k_s2_4)
          · exact raise_keeps k_s2_4
          · exact raise_keeps (disarm_keeps k_s2_4)
          · exact k_s2_4
        have k_s4_11 : Keeps ⟨φ0, true, true, φ3, φ4, φ5, φ6, true, true, true, true, φ11, φ12, φ13, true, φ15, true, φ17, φ18, φ19⟩ z0 s4_11 := packetIn_keeps k_s3_8
        clear_value s2_4 s3_8 s4_11
        split
        · exact frameCorrupt_keeps k_s4_11
        · exact k_s4_11

theorem frameDone_keeps {csi vc : Nat} {s : State} (hz : Keeps ⟨φ0, true, true, φ3, φ4, φ5, φ6, φ7, φ8, true, φ10, φ11, φ12, φ13, true, φ15, true, φ17, φ18, φ19⟩ z0 s) : Keeps ⟨φ0, true, true, φ3, φ4, φ5, φ6, φ7, φ8, true, φ10, φ11, φ12, φ13, true, φ15, true, φ17, φ18, φ19⟩ z0 (frameDone csi vc s) := by
  unfold frameDone
  extract_lets +onlyGivenNames v_1
  split
  · exact hz
  · extract_lets +onlyGivenNames inj_2 s0_3 own_4 crcs_5 rep_6 run_7 stalled_8 hit_9 frozen_10 s1_11 s2_12 now_13 rcd_14
    have k_s0_3 : Keeps ⟨φ0, true, true, φ3, φ4, φ5, φ6, φ7, φ8, true, φ10, φ11, φ12, φ13, true, φ15, true, φ17, φ18, φ19⟩ z0 s0_3 := by
      subst s0_3
      split
      · exact disarm_keeps hz
      · exact hz
    have k_s1_11 : Keeps ⟨φ0, true, true, φ3, φ4, φ5, φ6, φ7, φ8, true, φ10, φ11, φ12, φ13, true, φ15, true, φ17, φ18, φ19⟩ z0 s1_11 := setVc_keeps k_s0_3
    have k_s2_12 : Keeps ⟨φ0, true, true, φ3, φ4, φ5, φ6, φ7, φ8, true, φ10, φ11, φ12, φ13, true, φ15, true, φ17, φ18, φ19⟩ z0 s2_12 := by
      subst s2_12
      split
      · exact raise_keeps k_s1_11
      · split
        · exact raise_keeps k_s1_11
        · exact k_s1_11
    clear_value s0_3 s1_11 s2_12
    split
    · exact pushEngine_keeps k_s2_12
    · exact k_s2_12

theorem frameSample_keeps {n id : Nat} {s : State} (hz : Keeps ⟨φ0, φ1, φ2, φ3, φ4, φ5, φ6, φ7, φ8, φ9, φ10, φ11, φ12, φ13, true, φ15, φ16, φ17, φ18, φ19⟩ z0 s) : Keeps ⟨φ0, φ1, φ2, φ3, φ4, φ5, φ6, φ7, φ8, φ9, φ10, φ11, φ12, φ13, true, φ15, φ16, φ17, φ18, φ19⟩ z0 (frameSample n id s) := by
  unfold frameSample
  split
  · split
    · exact dropSample_keeps hz
    · exact updSample_keeps hz
  · exact hz

theorem execFrameStart_keeps {csi : Nat} {p : CsiShort} {number : Nat} {s : State} (hz : Keeps ⟨φ0, true, true, φ3, φ4, φ5, φ6, φ7, φ8, true, φ10, φ11, φ12, φ13, true, φ15, true, φ17, φ18, φ19⟩ z0 s) : Kept ⟨φ0, true, true, φ3, φ4, φ5, φ6, φ7, φ8, true, φ10, φ11, φ12, φ13, true, φ15, true, φ17, φ18, φ19⟩ z0 (execFrameStart csi p number s) := by
  unfold execFrameStart
  apply Kept.next
  extract_lets +onlyGivenNames vc_0
  split
  · exact hz
  · split
    · exact csiHeader_keeps (phyUp_keeps hz)
    · extract_lets +onlyGivenNames s0_1 s1_2 v_3 prev_4 adv_5 next_6 skip_7 stalled_8 s2_9 fr_10
      have k_s0_1 : Keeps ⟨φ0, true, true, φ3, φ4, φ5, φ6, φ7, φ8, true, φ10, φ11, φ12, φ13, true, φ15, true, φ17, φ18, φ19⟩ z0 s0_1 := csiHeader_keeps (phyUp_keeps hz)
      have k_v_3 : Keeps ⟨φ0, true, true, φ3, φ4, φ5, φ6, φ7, φ8, true, φ10, φ11, φ12, φ13, true, φ15, true, φ17, φ18, φ19⟩ z0 v_3 := frameDone_keeps (frameCorrupt_keeps k_s0_1)
      have k_prev_4 : Keeps ⟨φ0, true, true, φ3, φ4, φ5, φ6, φ7, φ8, true, φ10, φ11, φ12, φ13, true, φ15, true, φ17, φ18, φ19⟩ z0 prev_4 := by
        subst prev_4
        split
        · split
          · exact dropSample_keeps k_v_3
          · exact k_v_3
        · exact k_s0_1
      clear_value s0_1 v_3 prev_4
      extract_lets +onlyGivenNames s2_11 fr_12
      have k_s2_11 : Keeps ⟨φ0, true, true, φ3, φ4, φ5, φ6, φ7, φ8, true, φ10, φ11, φ12, φ13, true, φ15, true, φ17, φ18, φ19⟩ z0 s2_11 := by
        subst s2_11
        apply addCtr_keeps
        split
        · exact raise_keeps k_prev_4
        · exact k_prev_4
      clear_value s2_11
      split
      · extract_lets +onlyGivenNames r_13
        have k_r_13 : Keeps ⟨φ0, true, true, φ3, φ4, φ5, φ6, φ7, φ8, true, φ10, φ11, φ12, φ13, true, φ15, true, φ17, φ18, φ19⟩ z0 r_13.2 := fresh_keeps k_s2_11
        clear_value r_13
        subst fr_12
        dsimp only
        exact setVc_keeps k_r_13
      · extract_lets +onlyGivenNames k_14 id_15 s3_16
        have k_s3_16 : Keeps ⟨φ0, true, true, φ3, φ4, φ5, φ6, φ7, φ8, true, φ10, φ11, φ12, φ13, true, φ15, true, φ17, φ18, φ19⟩ z0 s3_16 := by
          subst s3_16
          subst fr_12
          dsimp only
          exact setVc_keeps (setStream_keeps k_s2_11)
        clear_value s3_16
        split
        · exact k_s3_16
        · split
          · exact Held.state (startSample_keeps k_s3_16) (by with_reducible assumption)
          · exact raise_keeps (bump_keeps k_s3_16)

theorem execFrameEnd_keeps {csi : Nat} {p : CsiShort} {s : State} (hz : Keeps ⟨φ0, true, true, φ3, φ4, φ5, φ6, φ7, φ8, true, φ10, φ11, φ12, φ13, true, φ15, true, φ17, φ18, φ19⟩ z0 s) : Kept ⟨φ0, true, true, φ3, φ4, φ5, φ6, φ7, φ8, true, φ10, φ11, φ12, φ13, true, φ15, true, φ17, φ18, φ19⟩ z0 (execFrameEnd csi p s) := by
  unfold execFrameEnd
  apply Kept.next
  extract_lets +onlyGivenNames vc_0
  split
  · exact hz
  · extract_lets +onlyGivenNames h_1
    have k_h_1 : Keeps ⟨φ0, true, true, φ3, φ4, φ5, φ6, φ7, φ8, true, φ10, φ11, φ12, φ13, true, φ15, true, φ17, φ18, φ19⟩ z0 h_1.2 := csiHeader_keeps (phyUp_keeps hz)
    clear_value h_1
    split
    · exact k_h_1
    · split
      · exact k_h_1
      · extract_lets +onlyGivenNames s1_2
        have k_s1_2 : Keeps ⟨φ0, true, true, φ3, φ4, φ5, φ6, φ7, φ8, true, φ10, φ11, φ12, φ13, true, φ15, true, φ17, φ18, φ19⟩ z0 s1_2 := by
          subst s1_2
          split
          · split
            · exact frameCorrupt_keeps k_h_1
            · exact k_h_1
          · exact k_h_1
        clear_value s1_2
        split
        · exact frameDone_keeps k_s1_2
        · exact frameDone_keeps (frameSample_keeps k_s1_2)

theorem execCamLinkLost_keeps {csi lanes : Nat} {s : State} (hz : Keeps ⟨φ0, true, true, φ3, φ4, φ5, φ6, φ7, φ8, true, φ10, φ11, φ12, φ13, true, φ15, true, φ17, φ18, φ19⟩ z0 s) : Kept ⟨φ0, true, true, φ3, φ4, φ5, φ6, φ7, φ8, true, φ10, φ11, φ12, φ13, true, φ15, true, φ17, φ18, φ19⟩ z0 (execCamLinkLost csi lanes s) := by
  unfold execCamLinkLost
  apply Kept.next
  split
  · exact hz
  · apply raise_keeps
    exact Keeps.of hz rfl

theorem execDphyClockReturn_keeps {csi : Nat} {s : State} (hz : Keeps ⟨φ0, φ1, φ2, φ3, φ4, φ5, φ6, φ7, φ8, φ9, φ10, φ11, φ12, φ13, true, φ15, φ16, φ17, φ18, φ19⟩ z0 s) : Kept ⟨φ0, φ1, φ2, φ3, φ4, φ5, φ6, φ7, φ8, φ9, φ10, φ11, φ12, φ13, true, φ15, φ16, φ17, φ18, φ19⟩ z0 (execDphyClockReturn csi s) := by
  unfold execDphyClockReturn
  apply Kept.next
  split
  · exact phyUp_keeps hz
  · exact hz

theorem wrCamPhy_keeps {csi : Nat} {v : Word} {s : State} (hz : Keeps ⟨φ0, true, true, φ3, φ4, φ5, φ6, φ7, φ8, true, φ10, φ11, φ12, φ13, φ14, φ15, true, φ17, φ18, φ19⟩ z0 s) : Keeps ⟨φ0, true, true, φ3, φ4, φ5, φ6, φ7, φ8, true, φ10, φ11, φ12, φ13, φ14, φ15, true, φ17, φ18, φ19⟩ z0 (wrCamPhy csi v s) := by
  unfold wrCamPhy
  extract_lets +onlyGivenNames n_1
  split
  · exact wrReg_keeps hz
  · exact carRefused_keeps hz

theorem wrCamCheck_keeps {csi : Nat} {v : Word} {s : State} (hz : Keeps ⟨φ0, φ1, φ2, φ3, φ4, φ5, φ6, φ7, φ8, φ9, φ10, φ11, φ12, φ13, φ14, φ15, φ16, φ17, φ18, φ19⟩ z0 s) : Keeps ⟨φ0, φ1, φ2, φ3, φ4, φ5, φ6, φ7, φ8, φ9, φ10, φ11, φ12, φ13, φ14, φ15, φ16, φ17, φ18, φ19⟩ z0 (wrCamCheck csi v s) := by
  unfold wrCamCheck
  extract_lets +onlyGivenNames old_1 n_2
  exact wrReg_keeps hz

end Sys2Proof.Machine
end

