-- ==== Sys2Proof/Laws/KeepsBus.lean ====
section
/-! SUPPORT. Each operation keeps what Keeps names: CAN, convolution, the fine Nibs, main memory. -/

set_option Elab.async false

namespace Sys2Proof.Machine

variable {φ0 φ1 φ2 φ3 φ4 φ5 φ6 φ7 φ8 φ9 φ10 φ11 φ12 φ13 φ14 φ15 φ16 φ17 φ18 φ19 : Bool} {z0 : State}

theorem setCan_keeps {c : Nat} {v : CanCtl} {s : State} (hz : Keeps ⟨φ0, φ1, φ2, φ3, φ4, φ5, φ6, φ7, φ8, φ9, φ10, φ11, φ12, φ13, φ14, φ15, φ16, true, φ18, φ19⟩ z0 s) : Keeps ⟨φ0, φ1, φ2, φ3, φ4, φ5, φ6, φ7, φ8, φ9, φ10, φ11, φ12, φ13, φ14, φ15, φ16, true, φ18, φ19⟩ z0 (setCan c v s) := by
  unfold setCan
  exact Keeps.of hz rfl

theorem setTb_keeps {c b : Nat} {t : CanTb} {s : State} (hz : Keeps ⟨φ0, φ1, φ2, φ3, φ4, φ5, φ6, φ7, φ8, φ9, φ10, φ11, φ12, φ13, φ14, φ15, φ16, true, φ18, φ19⟩ z0 s) : Keeps ⟨φ0, φ1, φ2, φ3, φ4, φ5, φ6, φ7, φ8, φ9, φ10, φ11, φ12, φ13, φ14, φ15, φ16, true, φ18, φ19⟩ z0 (setTb c b t s) := by
  unfold setTb
  extract_lets +onlyGivenNames v_1
  exact setCan_keeps hz

theorem canRefuse_keeps {c off value : Nat} {s : State} (hz : Keeps ⟨φ0, true, true, φ3, φ4, φ5, φ6, φ7, φ8, true, φ10, φ11, φ12, φ13, φ14, φ15, true, φ17, φ18, φ19⟩ z0 s) : Keeps ⟨φ0, true, true, φ3, φ4, φ5, φ6, φ7, φ8, true, φ10, φ11, φ12, φ13, φ14, φ15, true, φ17, φ18, φ19⟩ z0 (canRefuse c off value s) := by
  unfold canRefuse
  exact raise_keeps hz

theorem canAbort_keeps {c b cause : Nat} {inj : Bool} {s : State} (hz : Keeps ⟨φ0, true, true, φ3, φ4, φ5, φ6, φ7, φ8, true, φ10, φ11, φ12, φ13, φ14, φ15, true, true, φ18, φ19⟩ z0 s) : Keeps ⟨φ0, true, true, φ3, φ4, φ5, φ6, φ7, φ8, true, φ10, φ11, φ12, φ13, φ14, φ15, true, true, φ18, φ19⟩ z0 (canAbort c b cause inj s) := by
  unfold canAbort
  extract_lets +onlyGivenNames t_1
  exact raise_keeps (setTb_keeps hz)

theorem canRequest_keeps {c b : Nat} {contents : List Byte} {s : State} (hz : Keeps ⟨φ0, φ1, φ2, φ3, φ4, φ5, φ6, φ7, φ8, φ9, φ10, φ11, φ12, φ13, φ14, φ15, φ16, true, φ18, φ19⟩ z0 s) : Keeps ⟨φ0, φ1, φ2, φ3, φ4, φ5, φ6, φ7, φ8, φ9, φ10, φ11, φ12, φ13, φ14, φ15, φ16, true, φ18, φ19⟩ z0 (canRequest c b contents s) := by
  unfold canRequest
  extract_lets +onlyGivenNames t_1
  split
  · exact setTb_keeps hz
  · exact setTb_keeps hz

theorem trBufWrite_keeps {buf word : Nat} {w : Word} {s : State} (hz : Keeps ⟨φ0, φ1, φ2, φ3, φ4, φ5, φ6, φ7, φ8, φ9, φ10, φ11, φ12, φ13, φ14, φ15, φ16, true, φ18, φ19⟩ z0 s) : Keeps ⟨φ0, φ1, φ2, φ3, φ4, φ5, φ6, φ7, φ8, φ9, φ10, φ11, φ12, φ13, φ14, φ15, φ16, true, φ18, φ19⟩ z0 (trBufWrite buf word w s) := by
  unfold trBufWrite
  split
  · exact hz
  · extract_lets +onlyGivenNames t_1
    exact setTb_keeps hz

theorem trBufSend_keeps {buf : Nat} {s : State} (hz : Keeps ⟨φ0, φ1, φ2, φ3, φ4, φ5, φ6, φ7, φ8, φ9, φ10, φ11, φ12, φ13, φ14, φ15, φ16, true, φ18, φ19⟩ z0 s) : Keeps ⟨φ0, φ1, φ2, φ3, φ4, φ5, φ6, φ7, φ8, φ9, φ10, φ11, φ12, φ13, φ14, φ15, φ16, true, φ18, φ19⟩ z0 (trBufSend buf s) := by
  unfold trBufSend
  split
  · exact hz
  · extract_lets +onlyGivenNames t_1
    exact canRequest_keeps hz

theorem canBusOff_keeps {c : Nat} {inj : Bool} {s : State} (hz : Keeps ⟨φ0, true, true, φ3, φ4, φ5, φ6, φ7, φ8, true, φ10, φ11, φ12, φ13, φ14, φ15, true, true, φ18, φ19⟩ z0 s) : Keeps ⟨φ0, true, true, φ3, φ4, φ5, φ6, φ7, φ8, true, φ10, φ11, φ12, φ13, φ14, φ15, true, true, φ18, φ19⟩ z0 (canBusOff c inj s) := by
  unfold canBusOff
  extract_lets +onlyGivenNames v_1 gone_2 s1_3 s2_4
  have k_s1_3 : Keeps ⟨φ0, true, true, φ3, φ4, φ5, φ6, φ7, φ8, true, φ10, φ11, φ12, φ13, φ14, φ15, true, true, φ18, φ19⟩ z0 s1_3 := setCan_keeps hz
  have k_s2_4 : Keeps ⟨φ0, true, true, φ3, φ4, φ5, φ6, φ7, φ8, true, φ10, φ11, φ12, φ13, φ14, φ15, true, true, φ18, φ19⟩ z0 s2_4 := raise_keeps k_s1_3
  clear_value s1_3 s2_4
  apply Keeps.foldl
  · exact k_s2_4
  · intro _ _ k5
    exact canAbort_keeps k5

theorem canConfine_keeps {c : Nat} {s : State} (hz : Keeps ⟨φ0, true, true, φ3, φ4, φ5, φ6, φ7, φ8, true, φ10, φ11, φ12, φ13, φ14, φ15, true, true, φ18, φ19⟩ z0 s) : Keeps ⟨φ0, true, true, φ3, φ4, φ5, φ6, φ7, φ8, true, φ10, φ11, φ12, φ13, φ14, φ15, true, true, φ18, φ19⟩ z0 (canConfine c s) := by
  unfold canConfine
  extract_lets +onlyGivenNames v_1
  split
  · exact hz
  · split
    · exact canBusOff_keeps hz
    · split
      · exact raise_keeps (setCan_keeps hz)
      · split
        · exact raise_keeps (setCan_keeps hz)
        · exact hz

theorem canError_keeps {c type : Nat} {tx inj : Bool} {s : State} (hz : Keeps ⟨φ0, true, true, φ3, φ4, φ5, φ6, φ7, φ8, true, φ10, φ11, φ12, φ13, φ14, φ15, true, true, φ18, φ19⟩ z0 s) : Keeps ⟨φ0, true, true, φ3, φ4, φ5, φ6, φ7, φ8, true, φ10, φ11, φ12, φ13, φ14, φ15, true, true, φ18, φ19⟩ z0 (canError c type tx inj s) := by
  unfold canError
  extract_lets +onlyGivenNames s1_1
  extract_lets +onlyGivenNames s1_2
  have k_s1_2 : Keeps ⟨φ0, true, true, φ3, φ4, φ5, φ6, φ7, φ8, true, φ10, φ11, φ12, φ13, φ14, φ15, true, true, φ18, φ19⟩ z0 s1_2 := bump_keeps (setCan_keeps hz)
  clear_value s1_2
  exact raiseRated_keeps k_s1_2

theorem canDrop_keeps {c f : Nat} {inj : Bool} {s : State} (hz : Keeps ⟨φ0, true, true, φ3, φ4, φ5, φ6, φ7, φ8, true, φ10, φ11, φ12, φ13, φ14, φ15, true, φ17, φ18, φ19⟩ z0 s) : Keeps ⟨φ0, true, true, φ3, φ4, φ5, φ6, φ7, φ8, true, φ10, φ11, φ12, φ13, φ14, φ15, true, φ17, φ18, φ19⟩ z0 (canDrop c f inj s) := by
  unfold canDrop
  extract_lets +onlyGivenNames key_1
  exact raiseRated_keeps (bump_keeps hz)

theorem canRecord_keeps {c qReg rtype f : Nat} {bytes : List Byte} {s : State} (hz : Keeps ⟨φ0, true, true, φ3, φ4, φ5, φ6, φ7, φ8, true, φ10, φ11, φ12, φ13, φ14, φ15, true, φ17, φ18, φ19⟩ z0 s) : Keeps ⟨φ0, true, true, φ3, φ4, φ5, φ6, φ7, φ8, true, φ10, φ11, φ12, φ13, φ14, φ15, true, φ17, φ18, φ19⟩ z0 (canRecord c qReg rtype f bytes s) := by
  unfold canRecord
  split
  · exact canDrop_keeps (disarm_keeps hz)
  · extract_lets +onlyGivenNames w_1 q_2 d_3
    split
    · exact canDrop_keeps hz
    · split
      · exact reserve_keeps hz
      · extract_lets +onlyGivenNames full_4 s1_5
        have k_s1_5 : Keeps ⟨φ0, true, true, φ3, φ4, φ5, φ6, φ7, φ8, true, φ10, φ11, φ12, φ13, φ14, φ15, true, φ17, φ18, φ19⟩ z0 s1_5 := by
          subst s1_5
          split
          · exact queueFull_keeps hz
          · exact hz
        clear_value s1_5
        apply canDrop_keeps
        split
        · exact queueDrop_keeps k_s1_5
        · exact k_s1_5

theorem canGone_keeps {c qReg len : Nat} {s : State} (hz : Keeps ⟨φ0, true, true, φ3, φ4, φ5, φ6, φ7, φ8, true, φ10, φ11, φ12, φ13, φ14, φ15, true, φ17, φ18, φ19⟩ z0 s) : Keeps ⟨φ0, true, true, φ3, φ4, φ5, φ6, φ7, φ8, true, φ10, φ11, φ12, φ13, φ14, φ15, true, φ17, φ18, φ19⟩ z0 (canGone c qReg len s) := by
  unfold canGone
  extract_lets +onlyGivenNames w_1 q_2
  split
  · exact hz
  · extract_lets +onlyGivenNames s1_3 s2_4
    have k_s1_3 : Keeps ⟨φ0, true, true, φ3, φ4, φ5, φ6, φ7, φ8, true, φ10, φ11, φ12, φ13, φ14, φ15, true, φ17, φ18, φ19⟩ z0 s1_3 := reserve_keeps hz
    have k_s2_4 : Keeps ⟨φ0, true, true, φ3, φ4, φ5, φ6, φ7, φ8, true, φ10, φ11, φ12, φ13, φ14, φ15, true, φ17, φ18, φ19⟩ z0 s2_4 := by
      subst s2_4
      split
      · exact padPacket_keeps k_s1_3
      · exact k_s1_3
    clear_value s1_3 s2_4
    exact bump_keeps k_s2_4

theorem canStop_keeps {c f : Nat} {fr : CanFrame} {inj : Bool} {s : State} (hz : Keeps ⟨φ0, true, true, φ3, φ4, φ5, φ6, φ7, φ8, true, φ10, φ11, φ12, φ13, φ14, φ15, true, φ17, φ18, φ19⟩ z0 s) : Keeps ⟨φ0, true, true, φ3, φ4, φ5, φ6, φ7, φ8, true, φ10, φ11, φ12, φ13, φ14, φ15, true, φ17, φ18, φ19⟩ z0 (canStop c f fr inj s) := by
  unfold canStop
  extract_lets +onlyGivenNames s1_1
  have k_s1_1 : Keeps ⟨φ0, true, true, φ3, φ4, φ5, φ6, φ7, φ8, true, φ10, φ11, φ12, φ13, φ14, φ15, true, φ17, φ18, φ19⟩ z0 s1_1 := wrReg_keeps hz
  clear_value s1_1
  exact trip_keeps (raise_keeps k_s1_1)

theorem canReceive_keeps {c : Nat} {f : CanFrame} {echo ovr : Bool} {s : State} (hz : Keeps ⟨φ0, true, true, φ3, φ4, φ5, φ6, φ7, φ8, true, φ10, φ11, φ12, φ13, φ14, true, true, φ17, φ18, φ19⟩ z0 s) : Keeps ⟨φ0, true, true, φ3, φ4, φ5, φ6, φ7, φ8, true, φ10, φ11, φ12, φ13, φ14, true, true, φ17, φ18, φ19⟩ z0 (canReceive c f echo ovr s) := by
  unfold canReceive
  extract_lets +onlyGivenNames v_1 hit_2 e_3 idx_4 ctx_5 s1_6 rcd_7
  have k_s1_6 : Keeps ⟨φ0, true, true, φ3, φ4, φ5, φ6, φ7, φ8, true, φ10, φ11, φ12, φ13, φ14, true, true, φ17, φ18, φ19⟩ z0 s1_6 := bump_keeps hz
  clear_value s1_6
  split
  · split
    · exact canGone_keeps k_s1_6
    · exact canRecord_keeps k_s1_6
  · split
    · exact canGone_keeps k_s1_6
    · exact canRecord_keeps k_s1_6
  · dsimp only
    apply fireSlots_keeps
    exact Keeps.of k_s1_6 rfl
  · split
    · exact canStop_keeps k_s1_6
    · exact canDrop_keeps k_s1_6
  · exact k_s1_6

theorem canConfigure_keeps {c : Nat} {s : State} (hz : Keeps ⟨φ0, true, true, φ3, φ4, φ5, φ6, φ7, φ8, true, φ10, φ11, φ12, φ13, φ14, φ15, true, true, φ18, φ19⟩ z0 s) : Keeps ⟨φ0, true, true, φ3, φ4, φ5, φ6, φ7, φ8, true, φ10, φ11, φ12, φ13, φ14, φ15, true, true, φ18, φ19⟩ z0 (canConfigure c s) := by
  unfold canConfigure
  extract_lets +onlyGivenNames k_1 b_2 v_3
  split
  · extract_lets +onlyGivenNames t_4
    split
    · exact canRefuse_keeps hz
    · exact setTb_keeps hz
  · split
    · exact setCan_keeps hz
    · exact canRefuse_keeps hz
  · split
    · exact setCan_keeps hz
    · exact canRefuse_keeps hz
  · exact canRefuse_keeps hz

theorem wrCanCmd_keeps {c : Nat} {v : Word} {s : State} (hz : Keeps ⟨φ0, true, true, φ3, φ4, φ5, φ6, φ7, φ8, true, φ10, φ11, φ12, φ13, φ14, φ15, true, true, φ18, φ19⟩ z0 s) : Keeps ⟨φ0, true, true, φ3, φ4, φ5, φ6, φ7, φ8, true, φ10, φ11, φ12, φ13, φ14, φ15, true, true, φ18, φ19⟩ z0 (wrCanCmd c v s) := by
  unfold wrCanCmd
  extract_lets +onlyGivenNames k_1 isTb_2 t_3
  split
  · exact canConfigure_keeps hz
  · split
    · exact canRequest_keeps hz
    · exact hz
  · split
    · exact hz
    · split
      · exact canAbort_keeps hz
      · split
        · exact setTb_keeps hz
        · exact hz
  · extract_lets +onlyGivenNames w_4
    split
    · exact setCan_keeps hz
    · exact hz
  · exact hz

theorem execCanEntryConfigure_keeps {r : Req} {c : Nat} {s : State} (hz : Keeps ⟨φ0, true, true, φ3, φ4, φ5, φ6, φ7, φ8, true, φ10, φ11, φ12, φ13, φ14, φ15, true, true, φ18, φ19⟩ z0 s) : Kept ⟨φ0, true, true, φ3, φ4, φ5, φ6, φ7, φ8, true, φ10, φ11, φ12, φ13, φ14, φ15, true, true, φ18, φ19⟩ z0 (execCanEntryConfigure r c s) := by
  unfold execCanEntryConfigure
  apply Kept.next
  apply onReg_keeps
  · intro _ k1
    exact wrCanCmd_keeps k1
  · exact hz

theorem execTbRequest_keeps {r : Req} {c : Nat} {s : State} (hz : Keeps ⟨φ0, true, true, φ3, φ4, φ5, φ6, φ7, φ8, true, φ10, φ11, φ12, φ13, φ14, φ15, true, true, φ18, φ19⟩ z0 s) : Kept ⟨φ0, true, true, φ3, φ4, φ5, φ6, φ7, φ8, true, φ10, φ11, φ12, φ13, φ14, φ15, true, true, φ18, φ19⟩ z0 (execTbRequest r c s) := by
  unfold execTbRequest
  apply Kept.next
  apply onReg_keeps
  · intro _ k1
    exact wrCanCmd_keeps k1
  · exact hz

theorem execTbAbort_keeps {r : Req} {c : Nat} {s : State} (hz : Keeps ⟨φ0, true, true, φ3, φ4, φ5, φ6, φ7, φ8, true, φ10, φ11, φ12, φ13, φ14, φ15, true, true, φ18, φ19⟩ z0 s) : Kept ⟨φ0, true, true, φ3, φ4, φ5, φ6, φ7, φ8, true, φ10, φ11, φ12, φ13, φ14, φ15, true, true, φ18, φ19⟩ z0 (execTbAbort r c s) := by
  unfold execTbAbort
  apply Kept.next
  apply onReg_keeps
  · intro _ k1
    exact wrCanCmd_keeps k1
  · exact hz

theorem execBusOffRecover_keeps {r : Req} {c : Nat} {s : State} (hz : Keeps ⟨φ0, true, true, φ3, φ4, φ5, φ6, φ7, φ8, true, φ10, φ11, φ12, φ13, φ14, φ15, true, true, φ18, φ19⟩ z0 s) : Kept ⟨φ0, true, true, φ3, φ4, φ5, φ6, φ7, φ8, true, φ10, φ11, φ12, φ13, φ14, φ15, true, true, φ18, φ19⟩ z0 (execBusOffRecover r c s) := by
  unfold execBusOffRecover
  apply Kept.next
  apply onReg_keeps
  · intro _ k1
    exact wrCanCmd_keeps k1
  · exact hz

theorem wrTrMap_keeps {c : Nat} {v : Word} {s : State} (hz : Keeps ⟨φ0, true, true, φ3, φ4, φ5, φ6, φ7, φ8, true, φ10, φ11, φ12, φ13, φ14, φ15, true, φ17, φ18, φ19⟩ z0 s) : Keeps ⟨φ0, true, true, φ3, φ4, φ5, φ6, φ7, φ8, true, φ10, φ11, φ12, φ13, φ14, φ15, true, φ17, φ18, φ19⟩ z0 (wrTrMap c v s) := by
  unfold wrTrMap
  extract_lets +onlyGivenNames old_1 new_2 mine_3 others_4 moved_5
  split
  · exact canRefuse_keeps hz
  · exact wrReg_keeps hz

theorem execTrMapWrite_keeps {r : Req} {c v : Nat} {s : State} (hz : Keeps ⟨φ0, true, true, φ3, φ4, φ5, φ6, φ7, φ8, true, φ10, φ11, φ12, φ13, φ14, φ15, true, φ17, φ18, φ19⟩ z0 s) : Kept ⟨φ0, true, true, φ3, φ4, φ5, φ6, φ7, φ8, true, φ10, φ11, φ12, φ13, φ14, φ15, true, φ17, φ18, φ19⟩ z0 (execTrMapWrite r c v s) := by
  unfold execTrMapWrite
  apply Kept.next
  apply onReg_keeps
  · intro _ k1
    exact wrTrMap_keeps k1
  · exact hz

theorem wrCanMode_keeps {c : Nat} {v : Word} {s : State} (hz : Keeps ⟨φ0, true, true, φ3, φ4, φ5, φ6, φ7, φ8, true, φ10, φ11, φ12, φ13, φ14, φ15, true, φ17, φ18, φ19⟩ z0 s) : Keeps ⟨φ0, true, true, φ3, φ4, φ5, φ6, φ7, φ8, true, φ10, φ11, φ12, φ13, φ14, φ15, true, φ17, φ18, φ19⟩ z0 (wrCanMode c v s) := by
  unfold wrCanMode
  split
  · exact canRefuse_keeps hz
  · exact plainWrite_keeps hz

theorem wrCanTiming_keeps {c off : Nat} {v : Word} {s : State} (hz : Keeps ⟨φ0, true, true, φ3, φ4, φ5, φ6, φ7, φ8, true, φ10, φ11, φ12, φ13, φ14, φ15, true, φ17, φ18, φ19⟩ z0 s) : Keeps ⟨φ0, true, true, φ3, φ4, φ5, φ6, φ7, φ8, true, φ10, φ11, φ12, φ13, φ14, φ15, true, φ17, φ18, φ19⟩ z0 (wrCanTiming c off v s) := by
  unfold wrCanTiming
  split
  · exact canRefuse_keeps hz
  · exact plainWrite_keeps hz

theorem wrCanRxCtrl_keeps {c : Nat} {v : Word} {s : State} (hz : Keeps ⟨φ0, true, true, φ3, φ4, φ5, φ6, φ7, φ8, true, φ10, φ11, φ12, φ13, φ14, φ15, true, φ17, φ18, φ19⟩ z0 s) : Keeps ⟨φ0, true, true, φ3, φ4, φ5, φ6, φ7, φ8, true, φ10, φ11, φ12, φ13, φ14, φ15, true, φ17, φ18, φ19⟩ z0 (wrCanRxCtrl c v s) := by
  unfold wrCanRxCtrl
  extract_lets +onlyGivenNames d_1
  split
  · exact plainWrite_keeps hz
  · exact canRefuse_keeps hz

theorem wrCanStop_keeps {c : Nat} {v : Word} {s : State} (hz : Keeps ⟨φ0, φ1, φ2, φ3, φ4, φ5, φ6, φ7, φ8, φ9, φ10, φ11, φ12, φ13, φ14, φ15, φ16, φ17, φ18, φ19⟩ z0 s) : Keeps ⟨φ0, φ1, φ2, φ3, φ4, φ5, φ6, φ7, φ8, φ9, φ10, φ11, φ12, φ13, φ14, φ15, φ16, φ17, φ18, φ19⟩ z0 (wrCanStop c v s) := by
  unfold wrCanStop
  extract_lets +onlyGivenNames old_1 l_2
  exact wrReg_keeps hz

theorem execCanStopClear_keeps {r : Req} {c : Nat} {s : State} (hz : Keeps ⟨φ0, true, true, φ3, φ4, φ5, φ6, φ7, φ8, true, φ10, φ11, φ12, φ13, φ14, φ15, true, φ17, φ18, φ19⟩ z0 s) : Kept ⟨φ0, true, true, φ3, φ4, φ5, φ6, φ7, φ8, true, φ10, φ11, φ12, φ13, φ14, φ15, true, φ17, φ18, φ19⟩ z0 (execCanStopClear r c s) := by
  unfold execCanStopClear
  apply Kept.next
  apply onReg_keeps
  · intro _ k1
    exact wrCanStop_keeps k1
  · exact hz

theorem wrTbPayload_keeps {c word : Nat} {v : Word} {s : State} (hz : Keeps ⟨φ0, true, true, φ3, φ4, φ5, φ6, φ7, φ8, true, φ10, φ11, φ12, φ13, φ14, φ15, true, true, φ18, φ19⟩ z0 s) : Keeps ⟨φ0, true, true, φ3, φ4, φ5, φ6, φ7, φ8, true, φ10, φ11, φ12, φ13, φ14, φ15, true, true, φ18, φ19⟩ z0 (wrTbPayload c word v s) := by
  unfold wrTbPayload
  extract_lets +onlyGivenNames k_1
  split
  · exact hz
  · split
    · exact canRefuse_keeps hz
    · extract_lets +onlyGivenNames t_2
      exact setTb_keeps hz

theorem execJobTxRequest_keeps {c : Nat} {s : State} (hz : Keeps ⟨φ0, true, true, true, true, true, true, true, true, true, true, φ11, φ12, φ13, true, φ15, true, true, φ18, φ19⟩ z0 s) : Kept ⟨φ0, true, true, true, true, true, true, true, true, true, true, φ11, φ12, φ13, true, φ15, true, true, φ18, φ19⟩ z0 (execJobTxRequest c s) := by
  unfold execJobTxRequest
  apply Kept.next
  extract_lets +onlyGivenNames w_1 q_2
  split
  · exact hz
  · extract_lets +onlyGivenNames job_3
    split
    · exact noTake_keeps hz
    · extract_lets +onlyGivenNames b_4 d_5
      split
      · exact canRequest_keeps (Held.of_pair (engineTake_keeps hz) (by with_reducible assumption))
      · exact raise_keeps (Held.of_pair (engineTake_keeps hz) (by with_reducible assumption))

theorem execCanArbitration_keeps {c : Nat} {s : State} (hz : Keeps ⟨φ0, true, true, φ3, φ4, φ5, φ6, true, true, true, true, φ11, φ12, φ13, φ14, φ15, true, true, φ18, φ19⟩ z0 s) : Kept ⟨φ0, true, true, φ3, φ4, φ5, φ6, true, true, true, true, φ11, φ12, φ13, φ14, φ15, true, true, φ18, φ19⟩ z0 (execCanArbitration c s) := by
  unfold execCanArbitration
  apply Kept.next
  extract_lets +onlyGivenNames m_1 v_2
  split
  · exact hz
  · split
    · exact hz
    · extract_lets +onlyGivenNames t_3
      split
      · exact canAbort_keeps (disarm_keeps hz)
      · split
        · exact setTb_keeps hz
        · extract_lets +onlyGivenNames a_4
          have k_a_4 : Keeps ⟨φ0, true, true, φ3, φ4, φ5, φ6, true, true, true, true, φ11, φ12, φ13, φ14, φ15, true, true, φ18, φ19⟩ z0 a_4.2 := access_keeps hz
          clear_value a_4
          split
          · exact canAbort_keeps k_a_4
          · exact setTb_keeps k_a_4

theorem execArbitrationLost_keeps {c : Nat} {s : State} (hz : Keeps ⟨φ0, true, true, φ3, φ4, φ5, φ6, φ7, φ8, true, φ10, φ11, φ12, φ13, φ14, φ15, true, true, φ18, φ19⟩ z0 s) : Kept ⟨φ0, true, true, φ3, φ4, φ5, φ6, φ7, φ8, true, φ10, φ11, φ12, φ13, φ14, φ15, true, true, φ18, φ19⟩ z0 (execArbitrationLost c s) := by
  unfold execArbitrationLost
  apply Kept.next
  split
  · exact hz
  · extract_lets +onlyGivenNames t_1
    split
    · exact canAbort_keeps hz
    · split
      · exact setTb_keeps hz
      · exact setTb_keeps hz

theorem canTxFail_keeps {c b type : Nat} {dry inj : Bool} {s : State} (hz : Keeps ⟨φ0, true, true, φ3, φ4, φ5, φ6, φ7, φ8, true, φ10, φ11, φ12, φ13, φ14, φ15, true, true, φ18, φ19⟩ z0 s) : Keeps ⟨φ0, true, true, φ3, φ4, φ5, φ6, φ7, φ8, true, φ10, φ11, φ12, φ13, φ14, φ15, true, true, φ18, φ19⟩ z0 (canTxFail c b type dry inj s) := by
  unfold canTxFail
  extract_lets +onlyGivenNames v_1 t_2 s1_3 s2_4 s3_5 n_6 s4_7
  have k_s1_3 : Keeps ⟨φ0, true, true, φ3, φ4, φ5, φ6, φ7, φ8, true, φ10, φ11, φ12, φ13, φ14, φ15, true, true, φ18, φ19⟩ z0 s1_3 := setCan_keeps hz
  have k_s2_4 : Keeps ⟨φ0, true, true, φ3, φ4, φ5, φ6, φ7, φ8, true, φ10, φ11, φ12, φ13, φ14, φ15, true, true, φ18, φ19⟩ z0 s2_4 := canError_keeps k_s1_3
  have k_s3_5 : Keeps ⟨φ0, true, true, φ3, φ4, φ5, φ6, φ7, φ8, true, φ10, φ11, φ12, φ13, φ14, φ15, true, true, φ18, φ19⟩ z0 s3_5 := by
    subst s3_5
    split
    · exact raise_keeps k_s2_4
    · exact k_s2_4
  have k_s4_7 : Keeps ⟨φ0, true, true, φ3, φ4, φ5, φ6, φ7, φ8, true, φ10, φ11, φ12, φ13, φ14, φ15, true, true, φ18, φ19⟩ z0 s4_7 := setTb_keeps k_s3_5
  clear_value s1_3 s2_4 s3_5 s4_7
  extract_lets +onlyGivenNames s4_8
  have k_s4_8 : Keeps ⟨φ0, true, true, φ3, φ4, φ5, φ6, φ7, φ8, true, φ10, φ11, φ12, φ13, φ14, φ15, true, true, φ18, φ19⟩ z0 s4_8 := by
    subst s4_8
    split
    · exact canAbort_keeps (setTb_keeps k_s3_5)
    · split
      · exact setTb_keeps k_s3_5
      · split
        · exact canAbort_keeps k_s4_7
        · exact k_s4_7
  clear_value s4_8
  exact canConfine_keeps k_s4_8

theorem execCanErrorFrame_keeps {c type : Nat} {dry : Bool} {s : State} (hz : Keeps ⟨φ0, true, true, φ3, φ4, φ5, φ6, φ7, φ8, true, φ10, φ11, φ12, φ13, φ14, φ15, true, true, φ18, φ19⟩ z0 s) : Kept ⟨φ0, true, true, φ3, φ4, φ5, φ6, φ7, φ8, true, φ10, φ11, φ12, φ13, φ14, φ15, true, true, φ18, φ19⟩ z0 (execCanErrorFrame c type dry s) := by
  unfold execCanErrorFrame
  apply Kept.next
  split
  · exact hz
  · exact canTxFail_keeps hz

theorem execCanFrameTransmitted_keeps {c : Nat} {s : State} (hz : Keeps ⟨φ0, true, true, φ3, φ4, φ5, φ6, φ7, φ8, true, φ10, φ11, φ12, φ13, φ14, true, true, true, φ18, φ19⟩ z0 s) : Kept ⟨φ0, true, true, φ3, φ4, φ5, φ6, φ7, φ8, true, φ10, φ11, φ12, φ13, φ14, true, true, true, φ18, φ19⟩ z0 (execCanFrameTransmitted c s) := by
  unfold execCanFrameTransmitted
  apply Kept.next
  split
  · exact hz
  · extract_lets +onlyGivenNames v_1 t_2 long_3
    split
    · exact canTxFail_keeps (disarm_keeps hz)
    · split
      · exact canTxFail_keeps (disarm_keeps hz)
      · extract_lets +onlyGivenNames f_4 t1_5 s1_6 s2_7 s3_8
        have k_s2_7 : Keeps ⟨φ0, true, true, φ3, φ4, φ5, φ6, φ7, φ8, true, φ10, φ11, φ12, φ13, φ14, true, true, true, φ18, φ19⟩ z0 s2_7 := bump_keeps (setTb_keeps (setCan_keeps hz))
        have k_s3_8 : Keeps ⟨φ0, true, true, φ3, φ4, φ5, φ6, φ7, φ8, true, φ10, φ11, φ12, φ13, φ14, true, true, true, φ18, φ19⟩ z0 s3_8 := canConfine_keeps k_s2_7
        clear_value s2_7 s3_8
        extract_lets +onlyGivenNames s3_9
        have k_s3_9 : Keeps ⟨φ0, true, true, φ3, φ4, φ5, φ6, φ7, φ8, true, φ10, φ11, φ12, φ13, φ14, true, true, true, φ18, φ19⟩ z0 s3_9 := by
          subst s3_9
          split
          · exact canRecord_keeps k_s3_8
          · exact k_s3_8
        clear_value s3_9
        split
        · exact canReceive_keeps k_s3_9
        · exact k_s3_9

theorem recGood_keeps {c : Nat} {s : State} (hz : Keeps ⟨φ0, φ1, φ2, φ3, φ4, φ5, φ6, φ7, φ8, φ9, φ10, φ11, φ12, φ13, φ14, φ15, φ16, true, φ18, φ19⟩ z0 s) : Keeps ⟨φ0, φ1, φ2, φ3, φ4, φ5, φ6, φ7, φ8, φ9, φ10, φ11, φ12, φ13, φ14, φ15, φ16, true, φ18, φ19⟩ z0 (recGood c s) := by
  unfold recGood
  extract_lets +onlyGivenNames v_1
  split
  · extract_lets +onlyGivenNames r_2
    have k_r_2 : Keeps ⟨φ0, φ1, φ2, φ3, φ4, φ5, φ6, φ7, φ8, φ9, φ10, φ11, φ12, φ13, φ14, φ15, φ16, true, φ18, φ19⟩ z0 r_2.2 := fresh_keeps hz
    clear_value r_2
    exact setCan_keeps k_r_2
  · exact setCan_keeps hz

theorem execCanFrameReceived_keeps {c : Nat} {r : CanRx} {s : State} (hz : Keeps ⟨φ0, true, true, φ3, φ4, φ5, φ6, φ7, φ8, true, φ10, φ11, φ12, φ13, φ14, true, true, true, φ18, φ19⟩ z0 s) : Kept ⟨φ0, true, true, φ3, φ4, φ5, φ6, φ7, φ8, true, φ10, φ11, φ12, φ13, φ14, true, true, true, φ18, φ19⟩ z0 (execCanFrameReceived c r s) := by
  unfold execCanFrameReceived
  apply Kept.next
  extract_lets +onlyGivenNames m_1
  split
  · exact hz
  · exact canReceive_keeps (canConfine_keeps (recGood_keeps hz))

theorem execCanRxError_keeps {c type : Nat} {e : CanRxErr} {s : State} (hz : Keeps ⟨φ0, true, true, φ3, φ4, φ5, φ6, φ7, φ8, true, φ10, φ11, φ12, φ13, φ14, φ15, true, true, φ18, φ19⟩ z0 s) : Kept ⟨φ0, true, true, φ3, φ4, φ5, φ6, φ7, φ8, true, φ10, φ11, φ12, φ13, φ14, φ15, true, true, φ18, φ19⟩ z0 (execCanRxError c type e s) := by
  unfold execCanRxError
  apply Kept.next
  extract_lets +onlyGivenNames m_1 v_2
  split
  · exact hz
  · extract_lets +onlyGivenNames s1_3 s2_4
    have k_s1_3 : Keeps ⟨φ0, true, true, φ3, φ4, φ5, φ6, φ7, φ8, true, φ10, φ11, φ12, φ13, φ14, φ15, true, true, φ18, φ19⟩ z0 s1_3 := setCan_keeps hz
    have k_s2_4 : Keeps ⟨φ0, true, true, φ3, φ4, φ5, φ6, φ7, φ8, true, φ10, φ11, φ12, φ13, φ14, φ15, true, true, φ18, φ19⟩ z0 s2_4 := canConfine_keeps (canError_keeps k_s1_3)
    clear_value s1_3 s2_4
    split
    · exact canGone_keeps k_s2_4
    · exact k_s2_4

theorem execCanRecoveryDone_keeps {c : Nat} {s : State} (hz : Keeps ⟨φ0, true, true, φ3, φ4, φ5, φ6, φ7, φ8, true, φ10, φ11, φ12, φ13, φ14, φ15, true, true, φ18, φ19⟩ z0 s) : Kept ⟨φ0, true, true, φ3, φ4, φ5, φ6, φ7, φ8, true, φ10, φ11, φ12, φ13, φ14, φ15, true, true, φ18, φ19⟩ z0 (execCanRecoveryDone c s) := by
  unfold execCanRecoveryDone
  apply Kept.next
  extract_lets +onlyGivenNames v_1
  split
  · exact hz
  · exact raise_keeps (setCan_keeps hz)

theorem ConvGeo.table_keeps {g : ConvGeo} {t : Tod} {h : MatHead} {sb : Scales} {eb : Nat → Nat} {s : State} (hz : Keeps ⟨φ0, true, φ2, φ3, φ4, φ5, φ6, true, φ8, φ9, φ10, φ11, φ12, φ13, φ14, φ15, φ16, φ17, φ18, φ19⟩ z0 s) : Keeps ⟨φ0, true, φ2, φ3, φ4, φ5, φ6, true, φ8, φ9, φ10, φ11, φ12, φ13, φ14, φ15, φ16, φ17, φ18, φ19⟩ z0 (ConvGeo.table g t h sb eb s) := by
  unfold ConvGeo.table
  split
  · exact hz
  · extract_lets +onlyGivenNames gs_1
    apply Keeps.foldl
    · exact hz
    · intro _ _ k2
      apply Keeps.foldl
      · exact k2
      · intro _ _ k3
        extract_lets +onlyGivenNames x_4 k0_5 a_6 addr_7
        exact spadWriteEcc_keeps (wrBytes_keeps k3)

theorem convRun_keeps {bad : Option (Nat × Nat)} {c : OpCtx} {o : OpRun} {s : State} (hz : Keeps ⟨φ0, true, true, true, true, true, true, true, true, true, true, true, φ12, φ13, φ14, φ15, true, φ17, φ18, φ19⟩ z0 s) : Keeps ⟨φ0, true, true, true, true, true, true, true, true, true, true, true, φ12, φ13, φ14, φ15, true, φ17, φ18, φ19⟩ z0 (convRun bad c o s) := by
  unfold convRun
  extract_lets +onlyGivenNames t_1 a_2 b_3 g_4 blocks_5 outs_6 spec_7
  apply runMatrix_keeps
  · intro _ _ _ _ k8
    dsimp only
    exact ConvGeo.table_keeps k8
  · exact hz

theorem execConv_keeps {x : PassRun} {s : State} (hz : Keeps ⟨φ0, true, true, true, true, true, true, true, true, true, true, true, φ12, φ13, φ14, φ15, true, φ17, φ18, φ19⟩ z0 s) : Kept ⟨φ0, true, true, true, true, true, true, true, true, true, true, true, φ12, φ13, φ14, φ15, true, φ17, φ18, φ19⟩ z0 (execConv x s) := by
  unfold execConv
  apply Kept.next
  apply onOp_keeps
  · intro _ _ _ k1
    exact convRun_keeps k1
  · exact hz

theorem poolRun_keeps {c : OpCtx} {o : OpRun} {g : ConvGeo} {d : Rescale} {x : PoolSrc} {ins : List ((Nat × Nat × Nat × Nat) × List (PoolIn × Nat))} {s : State} (hz : Keeps ⟨φ0, true, true, true, true, true, true, true, true, true, true, φ11, φ12, φ13, φ14, φ15, true, φ17, φ18, φ19⟩ z0 s) : Keeps ⟨φ0, true, true, true, true, true, true, true, true, true, true, φ11, φ12, φ13, φ14, φ15, true, φ17, φ18, φ19⟩ z0 (poolRun c o g d x ins s) := by
  unfold poolRun
  extract_lets +onlyGivenNames t_1 fn_2 a_3 b_4 inj_5 res0_6 res_7 n_8 s1_9 flags_10 nf_11
  have k_inj_5 : Keeps ⟨φ0, true, true, true, true, true, true, true, true, true, true, φ11, φ12, φ13, φ14, φ15, true, φ17, φ18, φ19⟩ z0 inj_5.2 := takeNanInj_keeps hz
  have k_s1_9 : Keeps ⟨φ0, true, true, true, true, true, true, true, true, true, true, φ11, φ12, φ13, φ14, φ15, true, φ17, φ18, φ19⟩ z0 s1_9 := k_inj_5
  clear_value inj_5 s1_9
  split
  · extract_lets +onlyGivenNames vals_12 w_13
    have k_w_13 : Keeps ⟨φ0, true, true, true, true, true, true, true, true, true, true, φ11, φ12, φ13, φ14, φ15, true, φ17, φ18, φ19⟩ z0 w_13.2 := writeGrouped_keeps k_s1_9
    clear_value w_13
    split
    · exact failSince_keeps k_w_13
    · exact vectorEnd_keeps (addCtr_keeps (endEvents_keeps k_w_13))
  · extract_lets +onlyGivenNames codes_14 w_15
    have k_w_15 : Keeps ⟨φ0, true, true, true, true, true, true, true, true, true, true, φ11, φ12, φ13, φ14, φ15, true, φ17, φ18, φ19⟩ z0 w_15.2 := writeCodes_keeps k_s1_9
    clear_value w_15
    split
    · exact failSince_keeps k_w_15
    · exact vectorEnd_keeps (addCtr_keeps (endEvents_keeps k_w_15))

theorem poolResizeRun_keeps {c : OpCtx} {o : OpRun} {s : State} (hz : Keeps ⟨φ0, true, true, true, true, true, true, true, true, true, true, φ11, φ12, φ13, φ14, φ15, true, φ17, φ18, φ19⟩ z0 s) : Keeps ⟨φ0, true, true, true, true, true, true, true, true, true, true, φ11, φ12, φ13, φ14, φ15, true, φ17, φ18, φ19⟩ z0 (poolResizeRun c o s) := by
  unfold poolResizeRun
  extract_lets +onlyGivenNames t_1 a_2 g_3 b0_4 fn_5 grp_6 d_7 C_8 pad_9 h_10
  extract_lets +onlyGivenNames h_11
  have k_h_11 : Keeps ⟨φ0, true, true, true, true, true, true, true, true, true, true, φ11, φ12, φ13, φ14, φ15, true, φ17, φ18, φ19⟩ z0 h_11.2 := by
    subst h_11
    split
    · exact opRead_keeps hz
    · exact hz
  clear_value h_11
  split
  · exact failSince_keeps k_h_11
  · split
    · exact failSince_keeps (Keeps.of_pair (readScaleDesc_keeps k_h_11) (by with_reducible assumption))
    · split
      · exact failSince_keeps (Keeps.of_pair (readOutliers_keeps (Keeps.of_pair (readScaleDesc_keeps k_h_11) (by with_reducible assumption))) (by with_reducible assumption))
      · split
        · exact failWith_keeps (Keeps.of_pair (readOutliers_keeps (Keeps.of_pair (readScaleDesc_keeps k_h_11) (by with_reducible assumption))) (by with_reducible assumption))
        · split
          · exact failWith_keeps (Keeps.of_pair (readOutliers_keeps (Keeps.of_pair (readScaleDesc_keeps k_h_11) (by with_reducible assumption))) (by with_reducible assumption))
          · clear_value h_10
            split
            · exact failWith_keeps (Keeps.of_pair (readOutliers_keeps (Keeps.of_pair (readScaleDesc_keeps k_h_11) (by with_reducible assumption))) (by with_reducible assumption))
            · apply whenHere_keeps
              · intro _ k12
                extract_lets +onlyGivenNames ins_13
                split
                · exact Keeps.of_pair (readStreams_keeps k12) (by with_reducible assumption)
                · split
                  · exact failSince_keeps (Keeps.of_pair (readOutVals_keeps (Keeps.of_pair (readStreams_keeps k12) (by with_reducible assumption))) (by with_reducible assumption))
                  · extract_lets +onlyGivenNames need_14 r_15
                    have k_r_15 : Keeps ⟨φ0, true, true, true, true, true, true, true, true, true, true, φ11, φ12, φ13, φ14, φ15, true, φ17, φ18, φ19⟩ z0 r_15.2 := readAt_keeps (Keeps.of_pair (readOutVals_keeps (Keeps.of_pair (readStreams_keeps k12) (by with_reducible assumption))) (by with_reducible assumption))
                    clear_value r_15
                    split
                    · exact failSince_keeps k_r_15
                    · extract_lets +onlyGivenNames la_16
                      exact poolRun_keeps k_r_15
              · exact Keeps.of_pair (readOutliers_keeps (Keeps.of_pair (readScaleDesc_keeps k_h_11) (by with_reducible assumption))) (by with_reducible assumption)

theorem execPoolResize_keeps {q : Nat} {s : State} (hz : Keeps ⟨φ0, true, true, true, true, true, true, true, true, true, true, φ11, φ12, φ13, φ14, φ15, true, φ17, φ18, φ19⟩ z0 s) : Kept ⟨φ0, true, true, true, true, true, true, true, true, true, true, φ11, φ12, φ13, φ14, φ15, true, φ17, φ18, φ19⟩ z0 (execPoolResize q s) := by
  unfold execPoolResize
  apply Kept.next
  apply onVector_keeps
  · intro _ _ _ k1
    exact poolResizeRun_keeps k1
  · exact hz

theorem fnEnd_keeps {b : List Byte} {status pixels seq : Nat} {s : State} (hz : Keeps ⟨φ0, true, true, φ3, φ4, φ5, φ6, φ7, φ8, true, φ10, φ11, φ12, φ13, true, φ15, true, φ17, φ18, φ19⟩ z0 s) : Keeps ⟨φ0, true, true, φ3, φ4, φ5, φ6, φ7, φ8, true, φ10, φ11, φ12, φ13, true, φ15, true, φ17, φ18, φ19⟩ z0 (fnEnd b status pixels seq s) := by
  unfold fnEnd
  extract_lets +onlyGivenNames d_1 s1_2
  have k_s1_2 : Keeps ⟨φ0, true, true, φ3, φ4, φ5, φ6, φ7, φ8, true, φ10, φ11, φ12, φ13, true, φ15, true, φ17, φ18, φ19⟩ z0 s1_2 := wrReg_keeps hz
  clear_value s1_2
  apply pushEngine_keeps
  exact Keeps.of k_s1_2 rfl

theorem fnFail_keeps {b : List Byte} {status pixels : Nat} {e : Ev} {s : State} (hz : Keeps ⟨φ0, true, true, φ3, φ4, φ5, φ6, φ7, φ8, true, φ10, φ11, φ12, φ13, true, φ15, true, φ17, φ18, φ19⟩ z0 s) : Keeps ⟨φ0, true, true, φ3, φ4, φ5, φ6, φ7, φ8, true, φ10, φ11, φ12, φ13, true, φ15, true, φ17, φ18, φ19⟩ z0 (fnFail b status pixels e s) := by
  unfold fnFail
  extract_lets +onlyGivenNames r_1
  have k_r_1 : Keeps ⟨φ0, true, true, φ3, φ4, φ5, φ6, φ7, φ8, true, φ10, φ11, φ12, φ13, true, φ15, true, φ17, φ18, φ19⟩ z0 r_1.2 := raiseSeq_keeps hz
  clear_value r_1
  exact fnEnd_keeps k_r_1

theorem execFnLayer_keeps {s : State} (hz : Keeps ⟨φ0, true, true, true, true, true, true, true, true, true, true, φ11, φ12, φ13, true, φ15, true, φ17, φ18, φ19⟩ z0 s) : Kept ⟨φ0, true, true, true, true, true, true, true, true, true, true, φ11, φ12, φ13, true, φ15, true, φ17, φ18, φ19⟩ z0 (execFnLayer s) := by
  unfold execFnLayer
  apply Kept.next
  split
  · exact hz
  · split
    · exact noTake_keeps hz
    · extract_lets +onlyGivenNames s1_1 d_2
      have k_d_2 : Keeps ⟨φ0, true, true, true, true, true, true, true, true, true, true, φ11, φ12, φ13, true, φ15, true, φ17, φ18, φ19⟩ z0 d_2 := Keeps.of (Held.of_pair (engineTake_keeps hz) (by with_reducible assumption)) rfl
      clear_value d_2
      extract_lets +onlyGivenNames d_3
      split
      · extract_lets +onlyGivenNames r_4
        have k_r_4 : Keeps ⟨φ0, true, true, true, true, true, true, true, true, true, true, φ11, φ12, φ13, true, φ15, true, φ17, φ18, φ19⟩ z0 r_4.2 := raiseSeq_keeps k_d_2
        clear_value r_4
        split
        · exact fnEnd_keeps k_r_4
        · exact k_r_4
      · split
        · exact fnFail_keeps k_d_2
        · split
          · split
            · exact fnEnd_keeps k_d_2
            · exact Keeps.of k_d_2 rfl
          · split
            · exact fnEnd_keeps k_d_2
            · exact Keeps.of k_d_2 rfl

theorem execFnSourceStall_keeps {s : State} (hz : Keeps ⟨φ0, true, true, φ3, true, φ5, φ6, φ7, φ8, true, φ10, φ11, φ12, φ13, true, φ15, true, φ17, φ18, φ19⟩ z0 s) : Kept ⟨φ0, true, true, φ3, true, φ5, φ6, φ7, φ8, true, φ10, φ11, φ12, φ13, true, φ15, true, φ17, φ18, φ19⟩ z0 (execFnSourceStall s) := by
  unfold execFnSourceStall
  apply Kept.next
  split
  · exact hz
  · extract_lets +onlyGivenNames d_1 limit_2 inj_3
    split
    · exact hz
    · extract_lets +onlyGivenNames s1_4 id_5
      have k_s1_4 : Keeps ⟨φ0, true, true, φ3, true, φ5, φ6, φ7, φ8, true, φ10, φ11, φ12, φ13, true, φ15, true, φ17, φ18, φ19⟩ z0 s1_4 := by
        subst s1_4
        split
        · exact disarm_keeps hz
        · exact advanceTo_keeps hz
      clear_value s1_4
      exact fnFail_keeps k_s1_4

theorem fnRead_keeps {who : Who} {x1 x2 x3 : Nat} {x4 : State} (hz : Keeps ⟨φ0, true, true, φ3, φ4, φ5, φ6, true, true, true, true, φ11, φ12, φ13, φ14, φ15, true, φ17, φ18, φ19⟩ z0 x4) : Keeps ⟨φ0, true, true, φ3, φ4, φ5, φ6, true, true, true, true, φ11, φ12, φ13, φ14, φ15, true, φ17, φ18, φ19⟩ z0 (fnRead who x1 x2 x3 x4).2 := by
  induction x1 generalizing who x2 x3 x4 with
  | zero =>
    unfold fnRead
    exact hz
  | succ n ih =>
    unfold fnRead
    split
    · exact hz
    · dsimp only
      split
      · exact access_keeps hz
      · exact ih (access_keeps hz)

theorem fnChan_keeps {who : Who} {d : Rescale} {ch : Nat} {s : State} (hz : Keeps ⟨φ0, true, true, φ3, φ4, φ5, φ6, true, true, true, true, φ11, φ12, φ13, φ14, φ15, true, φ17, φ18, φ19⟩ z0 s) : Keeps ⟨φ0, true, true, φ3, φ4, φ5, φ6, true, true, true, true, φ11, φ12, φ13, φ14, φ15, true, φ17, φ18, φ19⟩ z0 (fnChan who d ch s).2 := by
  unfold fnChan
  dsimp only
  split
  · split
    · exact access_keeps (access_keeps hz)
    · dsimp only
      exact access_keeps hz
  · split
    · exact access_keeps hz
    · exact hz

theorem fnChans_keeps {who : Who} {d : Rescale} {x1 : List Nat} {x2 : State} (hz : Keeps ⟨φ0, true, true, φ3, φ4, φ5, φ6, true, true, true, true, φ11, φ12, φ13, φ14, φ15, true, φ17, φ18, φ19⟩ z0 x2) : Keeps ⟨φ0, true, true, φ3, φ4, φ5, φ6, true, true, true, true, φ11, φ12, φ13, φ14, φ15, true, φ17, φ18, φ19⟩ z0 (fnChans who d x1 x2).2 := by
  induction x1 generalizing who d x2 with
  | nil =>
    unfold fnChans
    exact hz
  | cons a l ih =>
    unfold fnChans
    dsimp only
    split
    · dsimp only
      exact fnChan_keeps hz
    · dsimp only
      exact ih (fnChan_keeps hz)

theorem fnWrites_keeps {who : Who} {x1 : List FnWrite} {x2 : Nat} {x3 : State} (hz : Keeps ⟨φ0, true, true, φ3, φ4, φ5, φ6, true, true, true, true, φ11, φ12, φ13, φ14, φ15, true, φ17, φ18, φ19⟩ z0 x3) : Keeps ⟨φ0, true, true, φ3, φ4, φ5, φ6, true, true, true, true, φ11, φ12, φ13, φ14, φ15, true, φ17, φ18, φ19⟩ z0 (fnWrites who x1 x2 x3).2 := by
  induction x1 generalizing who x2 x3 with
  | nil =>
    unfold fnWrites
    exact hz
  | cons a l ih =>
    unfold fnWrites
    dsimp only
    split
    · dsimp only
      exact access_keeps hz
    · exact ih (access_keeps hz)

theorem fnSend_keeps {job dst : Nat} {x1 : List FnWrite} {x2 : Nat} {x3 : State} (hz : Keeps ⟨φ0, true, true, φ3, φ4, φ5, φ6, φ7, φ8, true, true, φ11, φ12, φ13, φ14, φ15, true, φ17, φ18, φ19⟩ z0 x3) : Keeps ⟨φ0, true, true, φ3, φ4, φ5, φ6, φ7, φ8, true, true, φ11, φ12, φ13, φ14, φ15, true, φ17, φ18, φ19⟩ z0 (fnSend job dst x1 x2 x3).2 := by
  induction x1 generalizing job dst x2 x3 with
  | nil =>
    unfold fnSend
    exact hz
  | cons a l ih =>
    unfold fnSend
    dsimp only
    split
    · exact sendReq_keeps hz
    · exact ih (sendReq_keeps hz)

theorem fnRun_keeps {r : FnRun} {d : FnDesc} {g : ConvGeo} {ea : State → Nat → Nat} {s : State} (hz : Keeps ⟨φ0, true, true, φ3, φ4, φ5, φ6, true, true, true, true, φ11, φ12, φ13, true, φ15, true, φ17, φ18, φ19⟩ z0 s) : Keeps ⟨φ0, true, true, φ3, φ4, φ5, φ6, true, true, true, true, φ11, φ12, φ13, true, φ15, true, φ17, φ18, φ19⟩ z0 (fnRun r d g ea s) := by
  unfold fnRun
  extract_lets +onlyGivenNames who_1 stop_2 es_3 n_4 w_5
  have k_w_5 : Keeps ⟨φ0, true, true, φ3, φ4, φ5, φ6, true, true, true, true, φ11, φ12, φ13, true, φ15, true, φ17, φ18, φ19⟩ z0 w_5.2 := fnRead_keeps hz
  clear_value w_5
  split
  · subst stop_2
    dsimp only
    exact fnEnd_keeps k_w_5
  · extract_lets +onlyGivenNames q_6
    have k_q_6 : Keeps ⟨φ0, true, true, φ3, φ4, φ5, φ6, true, true, true, true, φ11, φ12, φ13, true, φ15, true, φ17, φ18, φ19⟩ z0 q_6.2 := by
      subst q_6
      split
      · exact k_w_5
      · exact access_keeps k_w_5
    clear_value q_6
    split
    · subst stop_2
      dsimp only
      exact fnEnd_keeps k_q_6
    · extract_lets +onlyGivenNames rs_7
      split
      · exact fnFail_keeps k_q_6
      · extract_lets +onlyGivenNames ps_8
        have k_ps_8 : Keeps ⟨φ0, true, true, φ3, φ4, φ5, φ6, true, true, true, true, φ11, φ12, φ13, true, φ15, true, φ17, φ18, φ19⟩ z0 ps_8.2 := by
          subst ps_8
          split
          · exact k_q_6
          · exact fnChans_keeps k_q_6
        clear_value ps_8
        split
        · subst stop_2
          dsimp only
          exact fnEnd_keeps k_ps_8
        · extract_lets +onlyGivenNames s1_9 e_10 ws_11 dst_12
          have k_s1_9 : Keeps ⟨φ0, true, true, φ3, φ4, φ5, φ6, true, true, true, true, φ11, φ12, φ13, true, φ15, true, φ17, φ18, φ19⟩ z0 s1_9 := noteMove_keeps (addCtr_keeps k_ps_8)
          clear_value s1_9
          split
          · exact fnFail_keeps (disarm_keeps k_s1_9)
          · split
            · extract_lets +onlyGivenNames k_13
              have k_k_13 : Keeps ⟨φ0, true, true, φ3, φ4, φ5, φ6, true, true, true, true, φ11, φ12, φ13, true, φ15, true, φ17, φ18, φ19⟩ z0 k_13.2 := fnSend_keeps k_s1_9
              clear_value k_13
              split
              · exact fnFail_keeps (dropUse_keeps k_k_13)
              · extract_lets +onlyGivenNames __src_14
                have k___src_14 : Keeps ⟨φ0, true, true, φ3, φ4, φ5, φ6, true, true, true, true, φ11, φ12, φ13, true, φ15, true, φ17, φ18, φ19⟩ z0 __src_14 := k_k_13
                clear_value __src_14
                exact Keeps.of k___src_14 rfl
            · extract_lets +onlyGivenNames k_15
              have k_k_15 : Keeps ⟨φ0, true, true, φ3, φ4, φ5, φ6, true, true, true, true, φ11, φ12, φ13, true, φ15, true, φ17, φ18, φ19⟩ z0 k_15.2 := fnWrites_keeps k_s1_9
              clear_value k_15
              split
              · exact fnFail_keeps k_k_15
              · exact fnEnd_keeps k_k_15

theorem execFnLayerComplete_keeps {u : Upset} {s : State} (hz : Keeps ⟨φ0, true, true, φ3, φ4, φ5, φ6, true, true, true, true, φ11, φ12, φ13, true, φ15, true, φ17, φ18, φ19⟩ z0 s) : Kept ⟨φ0, true, true, φ3, φ4, φ5, φ6, true, true, true, true, φ11, φ12, φ13, true, φ15, true, φ17, φ18, φ19⟩ z0 (execFnLayerComplete u s) := by
  unfold execFnLayerComplete
  apply Kept.next
  split
  · exact hz
  · extract_lets +onlyGivenNames d_1
    split
    · exact hz
    · split
      · split
        · exact fnEnd_keeps (dropUse_keeps hz)
        · split
          · split
            · exact hz
            · split
              · exact fnFail_keeps hz
              · exact fnEnd_keeps hz
          · split
            · exact hz
            · split
              · exact fnFail_keeps (disarm_keeps hz)
              · split
                · exact fnFail_keeps hz
                · extract_lets +onlyGivenNames s1_2
                  have k_s1_2 : Keeps ⟨φ0, true, true, φ3, φ4, φ5, φ6, true, true, true, true, φ11, φ12, φ13, true, φ15, true, φ17, φ18, φ19⟩ z0 s1_2 := by
                    subst s1_2
                    split
                    · exact raise_keeps (disarm_keeps hz)
                    · split
                      · exact raise_keeps hz
                      · exact hz
                  clear_value s1_2
                  split
                  · extract_lets +onlyGivenNames g_3 es_4 n_5 k_6
                    have k_k_6 : Keeps ⟨φ0, true, true, φ3, φ4, φ5, φ6, true, true, true, true, φ11, φ12, φ13, true, φ15, true, φ17, φ18, φ19⟩ z0 k_6.2 := fnRead_keeps k_s1_2
                    clear_value k_6
                    split
                    · exact fnEnd_keeps k_k_6
                    · exact fnRun_keeps k_k_6
                  · split
                    · exact k_s1_2
                    · extract_lets +onlyGivenNames s2_7
                      extract_lets +onlyGivenNames s2_8
                      have k_s2_8 : Keeps ⟨φ0, true, true, φ3, φ4, φ5, φ6, true, true, true, true, φ11, φ12, φ13, true, φ15, true, φ17, φ18, φ19⟩ z0 s2_8 := Keeps.of k_s1_2 rfl
                      clear_value s2_8
                      split
                      · exact fnRun_keeps k_s2_8
                      · exact fnEnd_keeps (raise_keeps k_s2_8)
      · split
        · exact fnEnd_keeps (dropUse_keeps hz)
        · split
          · split
            · exact hz
            · split
              · exact fnFail_keeps hz
              · exact fnEnd_keeps hz
          · split
            · exact hz
            · split
              · exact fnFail_keeps (disarm_keeps hz)
              · split
                · exact fnFail_keeps hz
                · extract_lets +onlyGivenNames s1_9
                  have k_s1_9 : Keeps ⟨φ0, true, true, φ3, φ4, φ5, φ6, true, true, true, true, φ11, φ12, φ13, true, φ15, true, φ17, φ18, φ19⟩ z0 s1_9 := by
                    subst s1_9
                    split
                    · exact raise_keeps (disarm_keeps hz)
                    · split
                      · exact raise_keeps hz
                      · exact hz
                  clear_value s1_9
                  split
                  · extract_lets +onlyGivenNames g_10 es_11 n_12 k_13
                    have k_k_13 : Keeps ⟨φ0, true, true, φ3, φ4, φ5, φ6, true, true, true, true, φ11, φ12, φ13, true, φ15, true, φ17, φ18, φ19⟩ z0 k_13.2 := fnRead_keeps k_s1_9
                    clear_value k_13
                    split
                    · exact fnEnd_keeps k_k_13
                    · exact fnRun_keeps k_k_13
                  · split
                    · exact k_s1_9
                    · extract_lets +onlyGivenNames s2_14
                      extract_lets +onlyGivenNames s2_15
                      have k_s2_15 : Keeps ⟨φ0, true, true, φ3, φ4, φ5, φ6, true, true, true, true, φ11, φ12, φ13, true, φ15, true, φ17, φ18, φ19⟩ z0 s2_15 := Keeps.of k_s1_9 rfl
                      clear_value s2_15
                      split
                      · exact fnRun_keeps k_s2_15
                      · exact fnEnd_keeps (raise_keeps k_s2_15)

theorem mcUpset_keeps {u : Upset} {s : State} (hz : Keeps ⟨φ0, true, φ2, φ3, φ4, φ5, φ6, φ7, true, φ9, φ10, φ11, φ12, φ13, φ14, φ15, φ16, φ17, φ18, φ19⟩ z0 s) : Keeps ⟨φ0, true, φ2, φ3, φ4, φ5, φ6, φ7, true, φ9, φ10, φ11, φ12, φ13, φ14, φ15, φ16, φ17, φ18, φ19⟩ z0 (mcUpset u s) := by
  unfold mcUpset
  extract_lets +onlyGivenNames put_1
  split
  · exact hz
  · split
    · exact hz
    · subst put_1
      dsimp only
      split
      · exact hz
      · split
        · exact setMc_keeps hz
        · exact freeAt_keeps hz
  · subst put_1
    dsimp only
    split
    · exact hz
    · split
      · exact setMc_keeps hz
      · exact freeAt_keeps hz

theorem mcWriteBacks_keeps {m ch : Nat} {s : State} (hz : Keeps ⟨φ0, φ1, φ2, φ3, φ4, φ5, φ6, φ7, true, φ9, φ10, φ11, φ12, φ13, φ14, φ15, φ16, φ17, φ18, φ19⟩ z0 s) : Keeps ⟨φ0, φ1, φ2, φ3, φ4, φ5, φ6, φ7, true, φ9, φ10, φ11, φ12, φ13, φ14, φ15, φ16, φ17, φ18, φ19⟩ z0 (mcWriteBacks m ch s) := by
  unfold mcWriteBacks
  extract_lets +onlyGivenNames k_1
  exact setMc_keeps hz

theorem mcRefreshReg_keeps {m : Nat} {s : State} (hz : Keeps ⟨φ0, φ1, φ2, φ3, φ4, φ5, φ6, φ7, φ8, φ9, φ10, φ11, φ12, φ13, φ14, φ15, φ16, φ17, φ18, φ19⟩ z0 s) : Keeps ⟨φ0, φ1, φ2, φ3, φ4, φ5, φ6, φ7, φ8, φ9, φ10, φ11, φ12, φ13, φ14, φ15, φ16, φ17, φ18, φ19⟩ z0 (mcRefreshReg m s) := by
  unfold mcRefreshReg
  extract_lets +onlyGivenNames k_1
  exact wrField_keeps hz

theorem linkCorrected_keeps {m a : Nat} {s : State} (hz : Keeps ⟨φ0, true, true, φ3, φ4, φ5, φ6, φ7, φ8, true, φ10, φ11, φ12, φ13, φ14, φ15, true, φ17, φ18, φ19⟩ z0 s) : Keeps ⟨φ0, true, true, φ3, φ4, φ5, φ6, φ7, φ8, true, φ10, φ11, φ12, φ13, φ14, φ15, true, φ17, φ18, φ19⟩ z0 (linkCorrected m a s) := by
  unfold linkCorrected
  extract_lets +onlyGivenNames l_1
  exact raiseRated_keeps (bump_keeps hz)

theorem slotOpen_keeps {m ch at_ delay : Nat} {own : Bool} {rows : List Nat} {s : State} (hz : Keeps ⟨φ0, φ1, φ2, φ3, φ4, φ5, φ6, φ7, true, φ9, φ10, φ11, φ12, φ13, φ14, φ15, φ16, φ17, φ18, φ19⟩ z0 s) : Keeps ⟨φ0, φ1, φ2, φ3, φ4, φ5, φ6, φ7, true, φ9, φ10, φ11, φ12, φ13, φ14, φ15, φ16, φ17, φ18, φ19⟩ z0 (slotOpen m ch at_ delay own rows s) := by
  unfold slotOpen
  extract_lets +onlyGivenNames s1_1 k_2
  have k_s1_1 : Keeps ⟨φ0, φ1, φ2, φ3, φ4, φ5, φ6, φ7, true, φ9, φ10, φ11, φ12, φ13, φ14, φ15, φ16, φ17, φ18, φ19⟩ z0 s1_1 := by
    subst s1_1
    split
    · exact hz
    · exact mcWriteBacks_keeps hz
  clear_value s1_1
  exact mcRefreshReg_keeps (setMc_keeps k_s1_1)

theorem linkUpset_keeps {e : LinkErr} {a : Nat} {s : State} (hz : Keeps ⟨φ0, true, φ2, φ3, φ4, φ5, φ6, φ7, true, φ9, φ10, φ11, φ12, φ13, φ14, φ15, φ16, φ17, φ18, φ19⟩ z0 s) : Keeps ⟨φ0, true, φ2, φ3, φ4, φ5, φ6, φ7, true, φ9, φ10, φ11, φ12, φ13, φ14, φ15, φ16, φ17, φ18, φ19⟩ z0 (linkUpset e a s) := by
  unfold linkUpset
  split
  · split
    · exact mcUpset_keeps hz
    · exact mcUpset_keeps hz
    · exact hz
  · exact hz

theorem linkDone_keeps {m : Nat} {k : Mc} {s : State} (hz : Keeps ⟨φ0, φ1, φ2, φ3, φ4, φ5, φ6, φ7, true, φ9, φ10, φ11, φ12, φ13, φ14, φ15, φ16, φ17, φ18, φ19⟩ z0 s) : Keeps ⟨φ0, φ1, φ2, φ3, φ4, φ5, φ6, φ7, true, φ9, φ10, φ11, φ12, φ13, φ14, φ15, φ16, φ17, φ18, φ19⟩ z0 (linkDone m k s) := by
  unfold linkDone
  exact setMc_keeps hz

theorem slotRead_keeps {m : Nat} {w : MemWho} {a n : Nat} {link : LinkErr} {s : State} (hz : Keeps ⟨φ0, true, true, true, true, true, true, true, true, true, true, φ11, φ12, φ13, φ14, φ15, true, φ17, φ18, φ19⟩ z0 s) : Keeps ⟨φ0, true, true, true, true, true, true, true, true, true, true, φ11, φ12, φ13, φ14, φ15, true, φ17, φ18, φ19⟩ z0 (slotRead m w a n link s) := by
  unfold slotRead
  extract_lets +onlyGivenNames r_1
  have k_r_1 : Keeps ⟨φ0, true, true, true, true, true, true, true, true, true, true, φ11, φ12, φ13, φ14, φ15, true, φ17, φ18, φ19⟩ z0 r_1.2 := lpddrRead_keeps (linkUpset_keeps hz)
  clear_value r_1
  exact failOn_keeps (linkDone_keeps k_r_1)

theorem slotWrite_keeps {m : Nat} {w : MemWho} {a : Nat} {d : List Byte} {s : State} (hz : Keeps ⟨φ0, true, true, true, true, true, true, true, true, true, true, φ11, φ12, φ13, φ14, φ15, true, φ17, φ18, φ19⟩ z0 s) : Keeps ⟨φ0, true, true, true, true, true, true, true, true, true, true, φ11, φ12, φ13, φ14, φ15, true, φ17, φ18, φ19⟩ z0 (slotWrite m w a d s) := by
  unfold slotWrite
  extract_lets +onlyGivenNames part_1
  split
  · extract_lets +onlyGivenNames r_2
    have k_r_2 : Keeps ⟨φ0, true, true, true, true, true, true, true, true, true, true, φ11, φ12, φ13, φ14, φ15, true, φ17, φ18, φ19⟩ z0 r_2.2 := lpddrWrite_keeps hz
    clear_value r_2
    exact failOn_keeps k_r_2
  · split
    · exact failOn_keeps hz
    · extract_lets +onlyGivenNames r_3
      have k_r_3 : Keeps ⟨φ0, true, true, true, true, true, true, true, true, true, true, φ11, φ12, φ13, φ14, φ15, true, φ17, φ18, φ19⟩ z0 r_3.2 := mcReadBlocks_keeps hz
      clear_value r_3
      split
      · exact failOn_keeps k_r_3
      · exact setMc_keeps k_r_3

theorem slotServe_keeps {m : Nat} {link : LinkErr} {q : Bool × MemAsk} {s : State} (hz : Keeps ⟨φ0, true, true, true, true, true, true, true, true, true, true, φ11, φ12, φ13, φ14, φ15, true, φ17, φ18, φ19⟩ z0 s) : Keeps ⟨φ0, true, true, true, true, true, true, true, true, true, true, φ11, φ12, φ13, φ14, φ15, true, φ17, φ18, φ19⟩ z0 (slotServe m link q s) := by
  unfold slotServe
  extract_lets +onlyGivenNames s1_1
  have k_s1_1 : Keeps ⟨φ0, true, true, true, true, true, true, true, true, true, true, φ11, φ12, φ13, φ14, φ15, true, φ17, φ18, φ19⟩ z0 s1_1 := by
    subst s1_1
    split
    · exact linkCorrected_keeps hz
    · exact hz
  clear_value s1_1
  split
  · exact lpddrPut_keeps (setMc_keeps k_s1_1)
  · exact slotWrite_keeps k_s1_1
  · exact slotRead_keeps k_s1_1

theorem slotRun_keeps {m : Nat} {link : LinkErr} {x1 : List (Bool × MemAsk)} {x2 : State} (hz : Keeps ⟨φ0, true, true, true, true, true, true, true, true, true, true, φ11, φ12, φ13, φ14, φ15, true, φ17, φ18, φ19⟩ z0 x2) : Keeps ⟨φ0, true, true, true, true, true, true, true, true, true, true, φ11, φ12, φ13, φ14, φ15, true, φ17, φ18, φ19⟩ z0 (slotRun m link x1 x2) := by
  induction x1 generalizing m link x2 with
  | nil =>
    unfold slotRun
    exact hz
  | cons a l ih =>
    unfold slotRun
    exact ih (slotServe_keeps hz)

theorem deferred_keeps {m job : Nat} {s : State} (hz : Keeps ⟨φ0, φ1, φ2, true, φ4, φ5, φ6, φ7, φ8, φ9, φ10, φ11, φ12, φ13, φ14, φ15, φ16, φ17, φ18, φ19⟩ z0 s) : Keeps ⟨φ0, φ1, φ2, true, φ4, φ5, φ6, φ7, φ8, φ9, φ10, φ11, φ12, φ13, φ14, φ15, φ16, φ17, φ18, φ19⟩ z0 (deferred m job s) := by
  unfold deferred
  exact updJob_keeps (addCtr_keeps hz)

theorem execMemorySlot_keeps {m pos : Nat} {asks : List MemAsk} {link : LinkErr} {u : Upset} {s : State} (hz : Keeps ⟨φ0, true, true, true, true, true, true, true, true, true, true, φ11, φ12, φ13, φ14, φ15, true, φ17, φ18, φ19⟩ z0 s) : Kept ⟨φ0, true, true, true, true, true, true, true, true, true, true, φ11, φ12, φ13, φ14, φ15, true, φ17, φ18, φ19⟩ z0 (execMemorySlot m pos asks link u s) := by
  unfold execMemorySlot
  apply Kept.next
  split
  · exact hz
  · extract_lets +onlyGivenNames cand_1 t_2 ch_3 work_4 rows_5 own_6 wait_7 d_8 s1_9 s2_10
    have k_s1_9 : Keeps ⟨φ0, true, true, true, true, true, true, true, true, true, true, φ11, φ12, φ13, φ14, φ15, true, φ17, φ18, φ19⟩ z0 s1_9 := mcUpset_keeps (slotOpen_keeps (advanceToRing_keeps hz))
    have k_s2_10 : Keeps ⟨φ0, true, true, true, true, true, true, true, true, true, true, φ11, φ12, φ13, φ14, φ15, true, φ17, φ18, φ19⟩ z0 s2_10 := by
      subst s2_10
      clear_value own_6
      split
      · split
        · exact k_s1_9
        · exact deferred_keeps k_s1_9
      · exact k_s1_9
    clear_value s1_9 s2_10
    exact slotRun_keeps k_s2_10

theorem execRefresh_keeps {m ch b : Nat} {s : State} (hz : Keeps ⟨φ0, φ1, φ2, φ3, true, φ5, φ6, φ7, true, φ9, φ10, φ11, φ12, φ13, φ14, φ15, φ16, φ17, φ18, φ19⟩ z0 s) : Kept ⟨φ0, φ1, φ2, φ3, true, φ5, φ6, φ7, true, φ9, φ10, φ11, φ12, φ13, φ14, φ15, φ16, φ17, φ18, φ19⟩ z0 (execRefresh m ch b s) := by
  unfold execRefresh
  apply Kept.next
  split
  · exact hz
  · extract_lets +onlyGivenNames k_1 bank_2 post_3 due_4
    split
    · extract_lets +onlyGivenNames s1_5
      have k_s1_5 : Keeps ⟨φ0, φ1, φ2, φ3, true, φ5, φ6, φ7, true, φ9, φ10, φ11, φ12, φ13, φ14, φ15, φ16, φ17, φ18, φ19⟩ z0 s1_5 := advanceTo_keeps hz
      clear_value s1_5
      exact mcRefreshReg_keeps (setMc_keeps k_s1_5)
    · split
      · exact hz
      · extract_lets +onlyGivenNames s1_6 at0_7 used_8 at__9 s2_10 k1_11
        have k_s1_6 : Keeps ⟨φ0, φ1, φ2, φ3, true, φ5, φ6, φ7, true, φ9, φ10, φ11, φ12, φ13, φ14, φ15, φ16, φ17, φ18, φ19⟩ z0 s1_6 := by
          subst s1_6
          split
          · exact advanceTo_keeps hz
          · exact hz
        have k_s2_10 : Keeps ⟨φ0, φ1, φ2, φ3, true, φ5, φ6, φ7, true, φ9, φ10, φ11, φ12, φ13, φ14, φ15, φ16, φ17, φ18, φ19⟩ z0 s2_10 := advanceToRing_keeps k_s1_6
        clear_value s1_6 s2_10
        exact mcRefreshReg_keeps (setMc_keeps k_s2_10)

theorem execRefreshRateChange_keeps {m temp : Nat} {s : State} (hz : Keeps ⟨φ0, true, true, φ3, φ4, φ5, φ6, φ7, φ8, true, φ10, φ11, φ12, φ13, φ14, φ15, true, φ17, φ18, φ19⟩ z0 s) : Kept ⟨φ0, true, true, φ3, φ4, φ5, φ6, φ7, φ8, true, φ10, φ11, φ12, φ13, φ14, φ15, true, φ17, φ18, φ19⟩ z0 (execRefreshRateChange m temp s) := by
  unfold execRefreshRateChange
  apply Kept.next
  split
  · exact hz
  · extract_lets +onlyGivenNames s1_1 t_2 rate_3 new_4
    have k_s1_1 : Keeps ⟨φ0, true, true, φ3, φ4, φ5, φ6, φ7, φ8, true, φ10, φ11, φ12, φ13, φ14, φ15, true, φ17, φ18, φ19⟩ z0 s1_1 := wrField_keeps hz
    clear_value s1_1
    split
    · exact k_s1_1
    · exact raise_keeps (wrField_keeps k_s1_1)

theorem patrolBlock_keeps {pass blk : Nat} {s : State} (hz : Keeps ⟨φ0, true, true, φ3, φ4, φ5, φ6, φ7, true, true, true, φ11, φ12, φ13, φ14, φ15, true, φ17, φ18, φ19⟩ z0 s) : Keeps ⟨φ0, true, true, φ3, φ4, φ5, φ6, φ7, true, true, true, φ11, φ12, φ13, φ14, φ15, true, φ17, φ18, φ19⟩ z0 (patrolBlock pass blk s) := by
  unfold patrolBlock
  extract_lets +onlyGivenNames l_1 hit_2 s1_3 m_4
  have k_s1_3 : Keeps ⟨φ0, true, true, φ3, φ4, φ5, φ6, φ7, true, true, true, φ11, φ12, φ13, φ14, φ15, true, φ17, φ18, φ19⟩ z0 s1_3 := mcReadBlock_keeps hz
  clear_value s1_3
  clear_value hit_2
  split
  · extract_lets +onlyGivenNames key_5
    split
    · exact k_s1_3
    · split
      · exact setMc_keeps k_s1_3
      · split
        · exact k_s1_3
        · exact setMc_keeps k_s1_3
  · exact k_s1_3

theorem execPatrolScrub_keeps {m : Nat} {u : Upset} {s : State} (hz : Keeps ⟨φ0, true, true, φ3, true, φ5, φ6, φ7, true, true, true, φ11, φ12, φ13, φ14, φ15, true, φ17, φ18, φ19⟩ z0 s) : Kept ⟨φ0, true, true, φ3, true, φ5, φ6, φ7, true, true, true, φ11, φ12, φ13, φ14, φ15, true, φ17, φ18, φ19⟩ z0 (execPatrolScrub m u s) := by
  unfold execPatrolScrub
  apply Kept.next
  split
  · exact hz
  · extract_lets +onlyGivenNames p_1 n_2 pass_3 b_4 due_5 s0_6
    have k_s0_6 : Keeps ⟨φ0, true, true, φ3, true, φ5, φ6, φ7, true, true, true, φ11, φ12, φ13, φ14, φ15, true, φ17, φ18, φ19⟩ z0 s0_6 := advanceTo_keeps hz
    clear_value s0_6
    split
    · exact hz
    · extract_lets +onlyGivenNames rows_7 d_8 s1_9 s2_10 p1_11 s3_12
      have k_s1_9 : Keeps ⟨φ0, true, true, φ3, true, φ5, φ6, φ7, true, true, true, φ11, φ12, φ13, φ14, φ15, true, φ17, φ18, φ19⟩ z0 s1_9 := mcUpset_keeps (slotOpen_keeps (advanceToRing_keeps k_s0_6))
      have k_s2_10 : Keeps ⟨φ0, true, true, φ3, true, φ5, φ6, φ7, true, true, true, φ11, φ12, φ13, φ14, φ15, true, φ17, φ18, φ19⟩ z0 s2_10 := by
        subst s2_10
        apply Keeps.foldl
        · exact k_s1_9
        · intro _ _ k13
          exact patrolBlock_keeps k13
      clear_value s1_9 s2_10
      extract_lets +onlyGivenNames s3_14
      have k_s3_14 : Keeps ⟨φ0, true, true, φ3, true, φ5, φ6, φ7, true, true, true, φ11, φ12, φ13, φ14, φ15, true, φ17, φ18, φ19⟩ z0 s3_14 := setMc_keeps k_s2_10
      clear_value s3_14
      exact wrReg_keeps k_s3_14

theorem wrSpareSel_keeps {m : Nat} {v : Word} {s : State} (hz : Keeps ⟨φ0, φ1, φ2, φ3, φ4, φ5, φ6, φ7, true, φ9, φ10, φ11, φ12, φ13, φ14, φ15, φ16, φ17, φ18, φ19⟩ z0 s) : Keeps ⟨φ0, φ1, φ2, φ3, φ4, φ5, φ6, φ7, true, φ9, φ10, φ11, φ12, φ13, φ14, φ15, φ16, φ17, φ18, φ19⟩ z0 (wrSpareSel m v s) := by
  unfold wrSpareSel
  extract_lets +onlyGivenNames bank_1 key_2 k_3 go_4 f_5
  exact wrReg_keeps (setMc_keeps hz)

theorem execRowSpareForce_keeps {r : Req} {m bank row : Nat} {s : State} (hz : Keeps ⟨φ0, true, true, φ3, φ4, φ5, φ6, φ7, true, true, φ10, φ11, φ12, φ13, φ14, φ15, true, φ17, φ18, φ19⟩ z0 s) : Kept ⟨φ0, true, true, φ3, φ4, φ5, φ6, φ7, true, true, φ10, φ11, φ12, φ13, φ14, φ15, true, φ17, φ18, φ19⟩ z0 (execRowSpareForce r m bank row s) := by
  unfold execRowSpareForce
  apply Kept.next
  apply onReg_keeps
  · intro _ k1
    exact wrSpareSel_keeps k1
  · exact hz

theorem execRowSpareDone_keeps {m bank row : Nat} {s : State} (hz : Keeps ⟨φ0, true, true, φ3, φ4, φ5, φ6, φ7, true, true, φ10, true, φ12, φ13, φ14, φ15, true, φ17, φ18, φ19⟩ z0 s) : Kept ⟨φ0, true, true, φ3, φ4, φ5, φ6, φ7, true, true, φ10, true, φ12, φ13, φ14, φ15, true, φ17, φ18, φ19⟩ z0 (execRowSpareDone m bank row s) := by
  unfold execRowSpareDone
  apply Kept.next
  extract_lets +onlyGivenNames key_1 k_2
  split
  · exact hz
  · extract_lets +onlyGivenNames unit_3 left_4 lost_5 s1_6 s2_7 ctx_8 s3_9 s4_10 s5_11
    have k_s1_6 : Keeps ⟨φ0, true, true, φ3, φ4, φ5, φ6, φ7, true, true, φ10, true, φ12, φ13, φ14, φ15, true, φ17, φ18, φ19⟩ z0 s1_6 := by
      subst s1_6
      apply Keeps.foldl
      · exact hz
      · intro _ _ k12
        exact freeAt_keeps k12
    have k_s2_7 : Keeps ⟨φ0, true, true, φ3, φ4, φ5, φ6, φ7, true, true, φ10, true, φ12, φ13, φ14, φ15, true, φ17, φ18, φ19⟩ z0 s2_7 := setMc_keeps k_s1_6
    have k_s3_9 : Keeps ⟨φ0, true, true, φ3, φ4, φ5, φ6, φ7, true, true, φ10, true, φ12, φ13, φ14, φ15, true, φ17, φ18, φ19⟩ z0 s3_9 := wrField_keeps k_s2_7
    have k_s4_10 : Keeps ⟨φ0, true, true, φ3, φ4, φ5, φ6, φ7, true, true, φ10, true, φ12, φ13, φ14, φ15, true, φ17, φ18, φ19⟩ z0 s4_10 := raise_keeps k_s3_9
    have k_s5_11 : Keeps ⟨φ0, true, true, φ3, φ4, φ5, φ6, φ7, true, true, φ10, true, φ12, φ13, φ14, φ15, true, φ17, φ18, φ19⟩ z0 s5_11 := by
      subst s5_11
      split
      · exact raise_keeps k_s4_10
      · exact k_s4_10
    clear_value s1_6 s2_7 s3_9 s4_10 s5_11
    exact askSetting_keeps k_s5_11

theorem mcZero_keeps {m : Nat} {s : State} (hz : Keeps ⟨φ0, true, φ2, φ3, φ4, φ5, φ6, φ7, true, φ9, φ10, φ11, φ12, φ13, φ14, φ15, φ16, φ17, φ18, φ19⟩ z0 s) : Keeps ⟨φ0, true, φ2, φ3, φ4, φ5, φ6, φ7, true, φ9, φ10, φ11, φ12, φ13, φ14, φ15, φ16, φ17, φ18, φ19⟩ z0 (mcZero m s) := by
  unfold mcZero
  apply setMc_keeps
  exact Keeps.step hz rfl (Nat.le_refl _) id (fun m => Tbl.wf_filter _ _ m) id (otpKept_refl s) id

theorem execMcTrained_keeps {m : Nat} {full ok : Bool} {ms stage : Nat} {s : State} (hz : Keeps ⟨φ0, true, true, φ3, φ4, φ5, φ6, φ7, true, true, true, true, φ12, φ13, φ14, φ15, true, φ17, φ18, φ19⟩ z0 s) : Kept ⟨φ0, true, true, φ3, φ4, φ5, φ6, φ7, true, true, true, true, φ12, φ13, φ14, φ15, true, φ17, φ18, φ19⟩ z0 (execMcTrained m full ok ms stage s) := by
  unfold execMcTrained
  apply Kept.next
  split
  · exact hz
  · split
    · extract_lets +onlyGivenNames src_1 s1_2 s2_3 rec__4 s3_5
      have k_s1_2 : Keeps ⟨φ0, true, true, φ3, φ4, φ5, φ6, φ7, true, true, true, true, φ12, φ13, φ14, φ15, true, φ17, φ18, φ19⟩ z0 s1_2 := wrReg_keeps hz
      have k_s2_3 : Keeps ⟨φ0, true, true, φ3, φ4, φ5, φ6, φ7, true, true, true, true, φ12, φ13, φ14, φ15, true, φ17, φ18, φ19⟩ z0 s2_3 := raise_keeps k_s1_2
      clear_value s1_2 s2_3
      extract_lets +onlyGivenNames s3_6
      have k_s3_6 : Keeps ⟨φ0, true, true, φ3, φ4, φ5, φ6, φ7, true, true, true, true, φ12, φ13, φ14, φ15, true, φ17, φ18, φ19⟩ z0 s3_6 := by
        subst s3_6
        split
        · exact askSetting_keeps (setMc_keeps k_s2_3)
        · exact k_s2_3
      clear_value s3_6
      split
      · extract_lets +onlyGivenNames s4_7
        have k_s4_7 : Keeps ⟨φ0, true, true, φ3, φ4, φ5, φ6, φ7, true, true, true, true, φ12, φ13, φ14, φ15, true, φ17, φ18, φ19⟩ z0 s4_7 := mcZero_keeps k_s3_6
        clear_value s4_7
        exact setMc_keeps k_s4_7
      · exact k_s3_6
    · split
      · extract_lets +onlyGivenNames s1_8
        have k_s1_8 : Keeps ⟨φ0, true, true, φ3, φ4, φ5, φ6, φ7, true, true, true, true, φ12, φ13, φ14, φ15, true, φ17, φ18, φ19⟩ z0 s1_8 := wrReg_keeps hz
        clear_value s1_8
        exact fenceFor_keeps (raise_keeps k_s1_8)
      · exact setMc_keeps hz

theorem execEccFillDone_keeps {m : Nat} {s : State} (hz : Keeps ⟨φ0, φ1, φ2, φ3, φ4, φ5, φ6, φ7, true, φ9, φ10, φ11, φ12, φ13, φ14, φ15, φ16, φ17, φ18, φ19⟩ z0 s) : Kept ⟨φ0, φ1, φ2, φ3, φ4, φ5, φ6, φ7, true, φ9, φ10, φ11, φ12, φ13, φ14, φ15, φ16, φ17, φ18, φ19⟩ z0 (execEccFillDone m s) := by
  unfold execEccFillDone
  apply Kept.next
  split
  · exact setMc_keeps hz
  · exact hz

theorem wrPatrolCtrl_keeps {m : Nat} {v : Word} {s : State} (hz : Keeps ⟨φ0, φ1, φ2, φ3, φ4, φ5, φ6, φ7, φ8, φ9, φ10, φ11, φ12, φ13, φ14, φ15, φ16, φ17, φ18, φ19⟩ z0 s) : Keeps ⟨φ0, φ1, φ2, φ3, φ4, φ5, φ6, φ7, φ8, φ9, φ10, φ11, φ12, φ13, φ14, φ15, φ16, φ17, φ18, φ19⟩ z0 (wrPatrolCtrl m v s) := by
  unfold wrPatrolCtrl
  split
  · exact wrReg_keeps hz
  · exact hz

end Sys2Proof.Machine
end

