-- ==== Sys2Proof/Laws/KeepsPower.lean ====
section
/-! SUPPORT. Each operation keeps what Keeps names: resets, power and thermal control, scratchpads. -/

set_option Elab.async false

namespace Sys2Proof.Machine

variable {φ0 φ1 φ2 φ3 φ4 φ5 φ6 φ7 φ8 φ9 φ10 φ11 φ12 φ13 φ14 φ15 φ16 φ17 φ18 φ19 : Bool} {z0 : State}

theorem erasePage_keeps {c i : Nat} {s : State} (hz : Keeps ⟨φ0, φ1, φ2, φ3, φ4, φ5, φ6, φ7, φ8, φ9, φ10, φ11, φ12, φ13, φ14, φ15, φ16, φ17, φ18, φ19⟩ z0 s) : Keeps ⟨φ0, φ1, φ2, φ3, φ4, φ5, φ6, φ7, φ8, φ9, φ10, φ11, φ12, φ13, φ14, φ15, φ16, φ17, φ18, φ19⟩ z0 (erasePage c i s) := by
  unfold erasePage
  exact Keeps.of hz rfl

theorem qeFlush_keeps {s : State} (hz : Keeps ⟨φ0, true, φ2, φ3, φ4, φ5, φ6, φ7, φ8, φ9, φ10, φ11, φ12, φ13, φ14, φ15, φ16, φ17, φ18, φ19⟩ z0 s) : Keeps ⟨φ0, true, φ2, φ3, φ4, φ5, φ6, φ7, φ8, φ9, φ10, φ11, φ12, φ13, φ14, φ15, φ16, φ17, φ18, φ19⟩ z0 (qeFlush s) := by
  unfold qeFlush
  split
  · exact hz
  · apply Keeps.foldl
    · exact hz
    · intro _ _ k1
      exact wrBytes_keeps k1

theorem resetTables_aux {s : State} (hz : Keeps ⟨φ0, φ1, true, φ3, true, true, φ6, true, true, true, true, true, true, true, true, true, true, true, true, true⟩ z0 s) : Keeps ⟨φ0, φ1, true, φ3, true, true, φ6, true, true, true, true, true, true, true, true, true, true, true, true, true⟩ z0 { s with sn := SnState.init } :=
  Keeps.step hz rfl (Nat.le_refl _) id id id (otpKept_refl s) (fun _ e => (nomatch e))

theorem resetTables_keeps {c i : Nat} {s : State} (hz : Keeps ⟨φ0, φ1, true, φ3, true, true, φ6, true, true, true, true, true, true, true, true, true, true, true, true, true⟩ z0 s) : Keeps ⟨φ0, φ1, true, φ3, true, true, φ6, true, true, true, true, true, true, true, true, true, true, true, true, true⟩ z0 (resetTables c i s) := by
  unfold resetTables
  (repeat' split) <;> first
    | exact hz
    | exact setQuill_keeps hz
    | exact setSpad_keeps hz
    | exact setMc_keeps hz
    | exact resetTables_aux hz
    | exact Keeps.of hz rfl

theorem resetBlock_keeps {c i : Nat} {s : State} (hz : Keeps ⟨φ0, true, true, φ3, true, true, φ6, true, true, true, true, true, true, true, true, true, true, true, true, true⟩ z0 s) : Keeps ⟨φ0, true, true, φ3, true, true, φ6, true, true, true, true, true, true, true, true, true, true, true, true, true⟩ z0 (resetBlock c i s) := by
  unfold resetBlock
  apply erasePage_keeps
  apply resetTables_keeps
  split
  · exact qeFlush_keeps hz
  · exact hz

theorem loadSpad_keeps {n : Nat} {s : State} (hz : Keeps ⟨φ0, φ1, φ2, φ3, φ4, φ5, φ6, true, φ8, φ9, φ10, φ11, φ12, φ13, φ14, φ15, φ16, φ17, φ18, φ19⟩ z0 s) : Keeps ⟨φ0, φ1, φ2, φ3, φ4, φ5, φ6, true, φ8, φ9, φ10, φ11, φ12, φ13, φ14, φ15, φ16, φ17, φ18, φ19⟩ z0 (loadSpad n s) := by
  unfold loadSpad
  split
  · extract_lets +onlyGivenNames bank_1
    exact setSpad_keeps hz
  · exact hz

theorem domainReset_keeps {d : Nat} {s : State} (hz : Keeps ⟨φ0, true, true, φ3, true, true, φ6, true, true, true, true, true, true, true, true, true, true, true, true, true⟩ z0 s) : Keeps ⟨φ0, true, true, φ3, true, true, φ6, true, true, true, true, true, true, true, true, true, true, true, true, true⟩ z0 (domainReset d s) := by
  unfold domainReset
  extract_lets +onlyGivenNames s1_1
  have k_s1_1 : Keeps ⟨φ0, true, true, φ3, true, true, φ6, true, true, true, true, true, true, true, true, true, true, true, true, true⟩ z0 s1_1 := by
    subst s1_1
    apply Keeps.foldl
    · exact hz
    · intro _ _ k2
      exact resetBlock_keeps k2
  clear_value s1_1
  split
  · extract_lets +onlyGivenNames n_3 p_4
    exact loadSpad_keeps (setSpad_keeps k_s1_1)
  · exact k_s1_1

theorem loadMaps_keeps {s : State} (hz : Keeps ⟨φ0, φ1, φ2, φ3, true, φ5, φ6, true, true, φ9, φ10, φ11, φ12, φ13, φ14, φ15, φ16, φ17, φ18, φ19⟩ z0 s) : Keeps ⟨φ0, φ1, φ2, φ3, true, φ5, φ6, true, true, φ9, φ10, φ11, φ12, φ13, φ14, φ15, φ16, φ17, φ18, φ19⟩ z0 (loadMaps s) := by
  unfold loadMaps
  extract_lets +onlyGivenNames s1_1 s2_2 mrows_3 s3_4 trained_5 s4_6 ecc_7 s5_8 guard_9
  have k_s1_1 : Keeps ⟨φ0, φ1, φ2, φ3, true, φ5, φ6, true, true, φ9, φ10, φ11, φ12, φ13, φ14, φ15, φ16, φ17, φ18, φ19⟩ z0 s1_1 := by
    subst s1_1
    apply Keeps.foldl
    · exact hz
    · intro _ _ k10
      extract_lets +onlyGivenNames v_11
      exact setQuill_keeps k10
  have k_s2_2 : Keeps ⟨φ0, φ1, φ2, φ3, true, φ5, φ6, true, true, φ9, φ10, φ11, φ12, φ13, φ14, φ15, φ16, φ17, φ18, φ19⟩ z0 s2_2 := by
    subst s2_2
    apply Keeps.foldl
    · exact k_s1_1
    · intro _ _ k12
      exact loadSpad_keeps k12
  have k_s3_4 : Keeps ⟨φ0, φ1, φ2, φ3, true, φ5, φ6, true, true, φ9, φ10, φ11, φ12, φ13, φ14, φ15, φ16, φ17, φ18, φ19⟩ z0 s3_4 := by
    subst s3_4
    apply Keeps.foldl
    · exact k_s2_2
    · intro _ _ k13
      split
      · exact setMc_keeps k13
      · exact k13
  have k_s4_6 : Keeps ⟨φ0, φ1, φ2, φ3, true, φ5, φ6, true, true, φ9, φ10, φ11, φ12, φ13, φ14, φ15, φ16, φ17, φ18, φ19⟩ z0 s4_6 := by
    subst s4_6
    apply Keeps.foldl
    · exact k_s3_4
    · intro _ _ k14
      exact setMc_keeps k14
  have k_s5_8 : Keeps ⟨φ0, φ1, φ2, φ3, true, φ5, φ6, true, true, φ9, φ10, φ11, φ12, φ13, φ14, φ15, φ16, φ17, φ18, φ19⟩ z0 s5_8 := by
    subst s5_8
    apply Keeps.foldl
    · exact k_s4_6
    · intro _ _ k15
      exact wrField_keeps k15
  clear_value s1_1 s2_2 s3_4 s4_6 s5_8
  exact wrField_keeps k_s5_8

theorem latched_keeps {s t : State} (hz : Keeps ⟨φ0, φ1, φ2, φ3, φ4, φ5, φ6, φ7, φ8, φ9, φ10, φ11, φ12, φ13, φ14, φ15, φ16, φ17, φ18, φ19⟩ z0 t) : Keeps ⟨φ0, φ1, φ2, φ3, φ4, φ5, φ6, φ7, φ8, φ9, φ10, φ11, φ12, φ13, φ14, φ15, φ16, φ17, φ18, φ19⟩ z0 (latched s t) := by
  unfold latched
  exact wrField_keeps (wrReg_keeps (wrField_keeps (wrReg_keeps hz)))

theorem resetDevice_keeps {bit hold : Nat} {s : State} (hz : Keeps ⟨φ0, true, true, true, true, true, true, true, true, true, true, true, true, true, true, true, true, true, true, true⟩ z0 s) : Keeps ⟨φ0, true, true, true, true, true, true, true, true, true, true, true, true, true, true, true, true, true, true, true⟩ z0 (resetDevice bit hold s) := by
  unfold resetDevice
  extract_lets +onlyGivenNames causes t
  apply loadMaps_keeps
  apply wrReg_keeps
  apply latched_keeps
  have seq : State.reset.ev.next ≠ 0 := by decide
  exact Keeps.step hz rfl (Nat.le_refl _) (fun _ => seq) (fun _ => rfl) id ⟨rfl, Nat.le_refl _, Nat.le_refl _, Nat.le_refl _, fun _ o e => ⟨o, e, rfl, rfl, id⟩⟩ (fun _ e => (nomatch e))

theorem tally_keeps {a : PwrFig} {s : State} (hz : Keeps ⟨φ0, φ1, φ2, true, φ4, φ5, φ6, φ7, φ8, φ9, φ10, φ11, φ12, φ13, φ14, φ15, φ16, φ17, true, φ19⟩ z0 s) : Keeps ⟨φ0, φ1, φ2, true, φ4, φ5, φ6, φ7, φ8, φ9, φ10, φ11, φ12, φ13, φ14, φ15, φ16, φ17, true, φ19⟩ z0 (tally a s) := by
  unfold tally
  extract_lets +onlyGivenNames live_1 mine_2 s1_3
  extract_lets +onlyGivenNames s1_4
  have k_s1_4 : Keeps ⟨φ0, φ1, φ2, true, φ4, φ5, φ6, φ7, φ8, φ9, φ10, φ11, φ12, φ13, φ14, φ15, φ16, φ17, true, φ19⟩ z0 s1_4 := Keeps.of hz rfl
  clear_value s1_4
  exact addCtr_keeps k_s1_4

theorem diverge_keeps {m x : Nat} {s : State} (hz : Keeps ⟨φ0, true, true, φ3, φ4, φ5, φ6, φ7, φ8, true, φ10, φ11, φ12, φ13, φ14, φ15, true, φ17, true, φ19⟩ z0 s) : Keeps ⟨φ0, true, true, φ3, φ4, φ5, φ6, φ7, φ8, true, φ10, φ11, φ12, φ13, φ14, φ15, true, φ17, true, φ19⟩ z0 (diverge m x s) := by
  unfold diverge
  extract_lets +onlyGivenNames big_1 bad_2 from__3 p_4 s1_5 held_6
  have k_held_6 : Keeps ⟨φ0, true, true, φ3, φ4, φ5, φ6, φ7, φ8, true, φ10, φ11, φ12, φ13, φ14, φ15, true, φ17, true, φ19⟩ z0 held_6 := by
    subst held_6
    apply wrField_keeps
    apply wrField_keeps
    exact Keeps.of hz rfl
  clear_value held_6
  extract_lets +onlyGivenNames held_7
  split
  · apply raise_keeps
    exact Keeps.of k_held_6 rfl
  · split
    · apply raise_keeps
      exact Keeps.of k_held_6 rfl
    · exact k_held_6

theorem checkReserve_keeps {j : JobRec} {s : State} (hz : Keeps ⟨φ0, true, true, φ3, φ4, φ5, φ6, φ7, φ8, true, φ10, φ11, φ12, φ13, φ14, φ15, true, φ17, true, φ19⟩ z0 s) : Keeps ⟨φ0, true, true, φ3, φ4, φ5, φ6, φ7, φ8, true, φ10, φ11, φ12, φ13, φ14, φ15, true, φ17, true, φ19⟩ z0 (checkReserve j s) := by
  unfold checkReserve
  extract_lets +onlyGivenNames draw_1 n_2 s1_3
  extract_lets +onlyGivenNames s1_4
  have k_s1_4 : Keeps ⟨φ0, true, true, φ3, φ4, φ5, φ6, φ7, φ8, true, φ10, φ11, φ12, φ13, φ14, φ15, true, φ17, true, φ19⟩ z0 s1_4 := Keeps.of hz rfl
  clear_value s1_4
  split
  · exact k_s1_4
  · exact raiseRated_keeps k_s1_4

theorem setVddq_keeps {mv : Nat} {s : State} (hz : Keeps ⟨φ0, φ1, φ2, φ3, φ4, φ5, φ6, φ7, φ8, φ9, φ10, φ11, φ12, φ13, φ14, φ15, φ16, φ17, φ18, φ19⟩ z0 s) : Keeps ⟨φ0, φ1, φ2, φ3, φ4, φ5, φ6, φ7, φ8, φ9, φ10, φ11, φ12, φ13, φ14, φ15, φ16, φ17, φ18, φ19⟩ z0 (setVddq mv s) := by
  unfold setVddq
  exact wrField_keeps (wrField_keeps hz)

theorem newClocks_keeps {a : PwrFig} {s : State} (hz : Keeps ⟨φ0, φ1, φ2, φ3, true, φ5, φ6, φ7, φ8, φ9, φ10, φ11, φ12, φ13, φ14, φ15, φ16, φ17, true, φ19⟩ z0 s) : Keeps ⟨φ0, φ1, φ2, φ3, true, φ5, φ6, φ7, φ8, φ9, φ10, φ11, φ12, φ13, φ14, φ15, φ16, φ17, true, φ19⟩ z0 (newClocks a s) := by
  unfold newClocks
  extract_lets +onlyGivenNames want_1 top_2 need_3 set_4
  split
  · extract_lets +onlyGivenNames up_5 s1_6
    have k_s1_6 : Keeps ⟨φ0, φ1, φ2, φ3, true, φ5, φ6, φ7, φ8, φ9, φ10, φ11, φ12, φ13, φ14, φ15, φ16, φ17, true, φ19⟩ z0 s1_6 := by
      subst s1_6
      subst set_4
      dsimp only
      apply Keeps.foldl
      · exact hz
      · intro _ _ k7
        split
        · exact k7
        · exact setQuill_keeps k7
    clear_value s1_6
    apply setVddq_keeps
    exact Keeps.of k_s1_6 rfl
  · apply setVddq_keeps
    subst set_4
    dsimp only
    apply Keeps.foldl
    · exact Keeps.of hz rfl
    · intro _ _ k8
      split
      · exact k8
      · exact setQuill_keeps k8

theorem checkCap_keeps {dev : Nat} {s : State} (hz : Keeps ⟨φ0, true, true, φ3, φ4, φ5, φ6, φ7, φ8, true, φ10, φ11, φ12, φ13, φ14, φ15, true, φ17, φ18, φ19⟩ z0 s) : Keeps ⟨φ0, true, true, φ3, φ4, φ5, φ6, φ7, φ8, true, φ10, φ11, φ12, φ13, φ14, φ15, true, φ17, φ18, φ19⟩ z0 (checkCap dev s) := by
  unfold checkCap
  extract_lets +onlyGivenNames thr_1 cap_2
  split
  · exact hz
  · exact raiseRated_keeps hz

theorem execGrantPeriod_keeps {act : PwrAct} {s : State} (hz : Keeps ⟨φ0, true, true, true, true, φ5, φ6, φ7, φ8, true, φ10, φ11, φ12, φ13, φ14, φ15, true, φ17, true, φ19⟩ z0 s) : Kept ⟨φ0, true, true, true, true, φ5, φ6, φ7, φ8, true, φ10, φ11, φ12, φ13, φ14, φ15, true, φ17, true, φ19⟩ z0 (execGrantPeriod act s) := by
  unfold execGrantPeriod
  apply Kept.next
  split
  · exact hz
  · extract_lets +onlyGivenNames s0_1 a_2 m_3 x_4 s1_5 dev_6 s2_7 s3_8 s4_9 pair_10
    have k_s0_1 : Keeps ⟨φ0, true, true, true, true, φ5, φ6, φ7, φ8, true, φ10, φ11, φ12, φ13, φ14, φ15, true, φ17, true, φ19⟩ z0 s0_1 := advanceToDev_keeps hz
    have k_dev_6 : Keeps ⟨φ0, true, true, true, true, φ5, φ6, φ7, φ8, true, φ10, φ11, φ12, φ13, φ14, φ15, true, φ17, true, φ19⟩ z0 dev_6 := by
      subst dev_6
      apply diverge_keeps
      apply tally_keeps
      exact Keeps.of k_s0_1 rfl
    have k_s4_9 : Keeps ⟨φ0, true, true, true, true, φ5, φ6, φ7, φ8, true, φ10, φ11, φ12, φ13, φ14, φ15, true, φ17, true, φ19⟩ z0 s4_9 := Keeps.of k_dev_6 rfl
    have k_pair_10 : Keeps ⟨φ0, true, true, true, true, φ5, φ6, φ7, φ8, true, φ10, φ11, φ12, φ13, φ14, φ15, true, φ17, true, φ19⟩ z0 pair_10 := by
      subst pair_10
      apply checkCap_keeps
      apply Keeps.foldl
      · exact k_s4_9
      · intro _ _ k11
        exact checkReserve_keeps k11
    clear_value s0_1 dev_6 s4_9 pair_10
    extract_lets +onlyGivenNames s4_12 pair_13
    have k_pair_13 : Keeps ⟨φ0, true, true, true, true, φ5, φ6, φ7, φ8, true, φ10, φ11, φ12, φ13, φ14, φ15, true, φ17, true, φ19⟩ z0 pair_13 := by
      subst pair_13
      apply newClocks_keeps
      exact Keeps.of k_pair_10 rfl
    clear_value pair_13
    extract_lets +onlyGivenNames pair_14
    exact showRecon_keeps (wrReg_keeps (wrReg_keeps k_pair_13))

theorem execVoltageReached_keeps {s : State} (hz : Keeps ⟨φ0, φ1, φ2, φ3, true, φ5, φ6, φ7, φ8, φ9, φ10, φ11, φ12, φ13, φ14, φ15, φ16, φ17, true, φ19⟩ z0 s) : Kept ⟨φ0, φ1, φ2, φ3, true, φ5, φ6, φ7, φ8, φ9, φ10, φ11, φ12, φ13, φ14, φ15, φ16, φ17, true, φ19⟩ z0 (execVoltageReached s) := by
  unfold execVoltageReached
  apply Kept.next
  apply Keeps.foldl
  · exact Keeps.of hz rfl
  · intro _ _ k1
    exact setQuill_keeps k1

theorem railFault_keeps {k : Nat} {pmbus inj : Bool} {s : State} (hz : Keeps ⟨φ0, true, true, true, φ4, φ5, φ6, φ7, φ8, true, φ10, φ11, φ12, φ13, φ14, φ15, true, φ17, true, φ19⟩ z0 s) : Keeps ⟨φ0, true, true, true, φ4, φ5, φ6, φ7, φ8, true, φ10, φ11, φ12, φ13, φ14, φ15, true, φ17, true, φ19⟩ z0 (railFault k pmbus inj s) := by
  unfold railFault
  exact showRecon_keeps (raise_keeps (setRail_keeps hz))

theorem execRailReading_keeps {k mv mw : Nat} {s : State} (hz : Keeps ⟨φ0, true, true, true, φ4, φ5, φ6, φ7, φ8, true, φ10, φ11, φ12, φ13, φ14, φ15, true, φ17, true, φ19⟩ z0 s) : Kept ⟨φ0, true, true, true, φ4, φ5, φ6, φ7, φ8, true, φ10, φ11, φ12, φ13, φ14, φ15, true, φ17, true, φ19⟩ z0 (execRailReading k mv mw s) := by
  unfold execRailReading
  apply Kept.next
  split
  · exact hz
  · split
    · exact railFault_keeps (disarm_keeps hz)
    · exact showRecon_keeps (setRail_keeps hz)

theorem execRailTimeout_keeps {k : Nat} {pmbus : Bool} {s : State} (hz : Keeps ⟨φ0, true, true, true, true, φ5, φ6, φ7, φ8, true, φ10, φ11, φ12, φ13, φ14, φ15, true, φ17, true, φ19⟩ z0 s) : Kept ⟨φ0, true, true, true, true, φ5, φ6, φ7, φ8, true, φ10, φ11, φ12, φ13, φ14, φ15, true, φ17, true, φ19⟩ z0 (execRailTimeout k pmbus s) := by
  unfold execRailTimeout
  apply Kept.next
  extract_lets +onlyGivenNames r_1
  split
  · exact hz
  · exact railFault_keeps (advanceTo_keeps hz)

theorem execReconWindow_aux {s : State} {p : PwrState} (hz : Keeps ⟨φ0, φ1, φ2, true, true, φ5, φ6, φ7, φ8, φ9, φ10, φ11, φ12, φ13, φ14, φ15, φ16, φ17, true, φ19⟩ z0 s) : Keeps ⟨φ0, φ1, φ2, true, true, φ5, φ6, φ7, φ8, φ9, φ10, φ11, φ12, φ13, φ14, φ15, φ16, φ17, true, φ19⟩ z0 { s with pwr := p } := Keeps.of hz rfl

theorem execReconWindow_keeps {s : State} (hz : Keeps ⟨φ0, φ1, φ2, true, true, φ5, φ6, φ7, φ8, φ9, φ10, φ11, φ12, φ13, φ14, φ15, φ16, φ17, true, φ19⟩ z0 s) : Kept ⟨φ0, φ1, φ2, true, true, φ5, φ6, φ7, φ8, φ9, φ10, φ11, φ12, φ13, φ14, φ15, φ16, φ17, true, φ19⟩ z0 (execReconWindow s) :=
  Kept.next (showRecon_keeps (execReconWindow_aux (advanceToDev_keeps hz)))

theorem wrCap_keeps {v : Word} {s : State} (hz : Keeps ⟨φ0, true, true, φ3, φ4, φ5, φ6, φ7, φ8, true, φ10, φ11, φ12, φ13, φ14, φ15, true, φ17, φ18, φ19⟩ z0 s) : Keeps ⟨φ0, true, true, φ3, φ4, φ5, φ6, φ7, φ8, true, φ10, φ11, φ12, φ13, φ14, φ15, true, φ17, φ18, φ19⟩ z0 (wrCap v s) := by
  unfold wrCap
  extract_lets +onlyGivenNames n_1
  split
  · exact plainWrite_keeps hz
  · exact pwrRefuse_keeps hz

theorem wrAllowance_keeps {v : Word} {s : State} (hz : Keeps ⟨φ0, true, true, φ3, φ4, φ5, φ6, φ7, φ8, true, φ10, φ11, φ12, φ13, φ14, φ15, true, φ17, φ18, φ19⟩ z0 s) : Keeps ⟨φ0, true, true, φ3, φ4, φ5, φ6, φ7, φ8, true, φ10, φ11, φ12, φ13, φ14, φ15, true, φ17, φ18, φ19⟩ z0 (wrAllowance v s) := by
  unfold wrAllowance
  extract_lets +onlyGivenNames n_1
  split
  · exact plainWrite_keeps hz
  · exact pwrRefuse_keeps hz

theorem wrDroopCtrl_keeps {v : Word} {s : State} (hz : Keeps ⟨φ0, true, true, φ3, φ4, φ5, φ6, φ7, φ8, true, φ10, φ11, φ12, φ13, φ14, φ15, true, φ17, φ18, φ19⟩ z0 s) : Keeps ⟨φ0, true, true, φ3, φ4, φ5, φ6, φ7, φ8, true, φ10, φ11, φ12, φ13, φ14, φ15, true, φ17, φ18, φ19⟩ z0 (wrDroopCtrl v s) := by
  unfold wrDroopCtrl
  split
  · exact plainWrite_keeps hz
  · exact pwrRefuse_keeps hz

theorem wrThermCtrl_keeps {v : Word} {s : State} (hz : Keeps ⟨φ0, true, true, φ3, φ4, φ5, φ6, φ7, φ8, true, φ10, φ11, φ12, φ13, φ14, φ15, true, φ17, φ18, φ19⟩ z0 s) : Keeps ⟨φ0, true, true, φ3, φ4, φ5, φ6, φ7, φ8, true, φ10, φ11, φ12, φ13, φ14, φ15, true, φ17, φ18, φ19⟩ z0 (wrThermCtrl v s) := by
  unfold wrThermCtrl
  split
  · exact plainWrite_keeps hz
  · exact pwrRefuse_keeps hz

theorem execCapWrite_keeps {r : Req} {v : Nat} {s : State} (hz : Keeps ⟨φ0, true, true, φ3, φ4, φ5, φ6, φ7, φ8, true, φ10, φ11, φ12, φ13, φ14, φ15, true, φ17, φ18, φ19⟩ z0 s) : Kept ⟨φ0, true, true, φ3, φ4, φ5, φ6, φ7, φ8, true, φ10, φ11, φ12, φ13, φ14, φ15, true, φ17, φ18, φ19⟩ z0 (execCapWrite r v s) := by
  unfold execCapWrite
  apply Kept.next
  apply onReg_keeps
  · intro _ k1
    exact wrCap_keeps k1
  · exact hz

theorem execAllowanceWrite_keeps {r : Req} {v : Nat} {s : State} (hz : Keeps ⟨φ0, true, true, φ3, φ4, φ5, φ6, φ7, φ8, true, φ10, φ11, φ12, φ13, φ14, φ15, true, φ17, φ18, φ19⟩ z0 s) : Kept ⟨φ0, true, true, φ3, φ4, φ5, φ6, φ7, φ8, true, φ10, φ11, φ12, φ13, φ14, φ15, true, φ17, φ18, φ19⟩ z0 (execAllowanceWrite r v s) := by
  unfold execAllowanceWrite
  apply Kept.next
  apply onReg_keeps
  · intro _ k1
    exact wrAllowance_keeps k1
  · exact hz

theorem execOverpower_keeps {s : State} (hz : Keeps ⟨φ0, φ1, φ2, φ3, true, φ5, φ6, φ7, φ8, φ9, φ10, φ11, φ12, φ13, φ14, φ15, φ16, φ17, true, φ19⟩ z0 s) : Kept ⟨φ0, φ1, φ2, φ3, true, φ5, φ6, φ7, φ8, φ9, φ10, φ11, φ12, φ13, φ14, φ15, φ16, φ17, true, φ19⟩ z0 (execOverpower s) := by
  unfold execOverpower
  apply Kept.next
  split
  · exact hz
  · extract_lets +onlyGivenNames s1_1
    have k_s1_1 : Keeps ⟨φ0, φ1, φ2, φ3, true, φ5, φ6, φ7, φ8, φ9, φ10, φ11, φ12, φ13, φ14, φ15, φ16, φ17, true, φ19⟩ z0 s1_1 := advance_keeps hz
    clear_value s1_1
    apply Keeps.foldl
    · exact Keeps.of k_s1_1 rfl
    · intro _ _ k2
      split
      · exact setQuill_keeps k2
      · exact k2

theorem execDroopDetect_keeps {site level : Nat} {s : State} (hz : Keeps ⟨φ0, φ1, φ2, true, true, φ5, φ6, φ7, φ8, φ9, φ10, φ11, φ12, φ13, φ14, φ15, φ16, φ17, true, φ19⟩ z0 s) : Kept ⟨φ0, φ1, φ2, true, true, φ5, φ6, φ7, φ8, φ9, φ10, φ11, φ12, φ13, φ14, φ15, φ16, φ17, true, φ19⟩ z0 (execDroopDetect site level s) := by
  unfold execDroopDetect
  apply Kept.next
  split
  · exact hz
  · exact droopOn_keeps hz

theorem execDroopEnd_keeps {site : Nat} {s : State} (hz : Keeps ⟨φ0, true, true, φ3, true, φ5, φ6, φ7, φ8, true, φ10, true, φ12, φ13, φ14, φ15, true, φ17, true, φ19⟩ z0 s) : Kept ⟨φ0, true, true, φ3, true, φ5, φ6, φ7, φ8, true, φ10, true, φ12, φ13, φ14, φ15, true, φ17, true, φ19⟩ z0 (execDroopEnd site s) := by
  unfold execDroopEnd
  apply Kept.next
  split
  · exact droopOff_keeps (advanceTo_keeps hz)
  · exact hz

theorem setTemp_keeps {k : Nat} {t : Int} {s : State} (hz : Keeps ⟨φ0, φ1, φ2, φ3, φ4, φ5, φ6, φ7, φ8, φ9, φ10, φ11, φ12, φ13, φ14, φ15, φ16, φ17, true, φ19⟩ z0 s) : Keeps ⟨φ0, φ1, φ2, φ3, φ4, φ5, φ6, φ7, φ8, φ9, φ10, φ11, φ12, φ13, φ14, φ15, φ16, φ17, true, φ19⟩ z0 (setTemp k t s) := by
  unfold setTemp
  exact Keeps.of hz rfl

theorem execTempReading_keeps {k temp : Nat} {s : State} (hz : Keeps ⟨φ0, true, true, true, φ4, φ5, φ6, φ7, φ8, true, φ10, φ11, φ12, φ13, φ14, φ15, true, φ17, true, true⟩ z0 s) : Kept ⟨φ0, true, true, true, φ4, φ5, φ6, φ7, φ8, true, φ10, φ11, φ12, φ13, φ14, φ15, true, φ17, true, true⟩ z0 (execTempReading k temp s) := by
  unfold execTempReading
  apply Kept.next
  extract_lets +onlyGivenNames t_1
  split
  · exact hz
  · split
    · extract_lets +onlyGivenNames s1_2
      have k_s1_2 : Keeps ⟨φ0, true, true, true, φ4, φ5, φ6, φ7, φ8, true, φ10, φ11, φ12, φ13, φ14, φ15, true, φ17, true, true⟩ z0 s1_2 := setTemp_keeps hz
      clear_value s1_2
      split
      · exact Keeps.of k_s1_2 rfl
      · exact k_s1_2
    · extract_lets +onlyGivenNames s1_3
      have k_s1_3 : Keeps ⟨φ0, true, true, true, φ4, φ5, φ6, φ7, φ8, true, φ10, φ11, φ12, φ13, φ14, φ15, true, φ17, true, true⟩ z0 s1_3 := setTemp_keeps hz
      clear_value s1_3
      apply thermal_keeps
      split
      · exact wrField_keeps k_s1_3
      · exact k_s1_3

theorem execThermalTrip_keeps {k temp : Nat} {s : State} (hz : Keeps ⟨φ0, true, true, true, true, true, true, true, true, true, true, true, true, true, true, true, true, true, true, true⟩ z0 s) : Kept ⟨φ0, true, true, true, true, true, true, true, true, true, true, true, true, true, true, true, true, true, true, true⟩ z0 (execThermalTrip k temp s) := by
  unfold execThermalTrip
  apply Kept.next
  split
  · exact hz
  · exact resetDevice_keeps (setTemp_keeps (trip_keeps hz))

theorem execRecoveryEnd_keeps {s : State} (hz : Keeps ⟨φ0, φ1, φ2, φ3, true, φ5, φ6, φ7, φ8, φ9, φ10, φ11, φ12, φ13, φ14, φ15, φ16, φ17, true, φ19⟩ z0 s) : Kept ⟨φ0, φ1, φ2, φ3, true, φ5, φ6, φ7, φ8, φ9, φ10, φ11, φ12, φ13, φ14, φ15, φ16, φ17, true, φ19⟩ z0 (execRecoveryEnd s) := by
  unfold execRecoveryEnd
  apply Kept.next
  split
  · extract_lets +onlyGivenNames s1_1
    have k_s1_1 : Keeps ⟨φ0, φ1, φ2, φ3, true, φ5, φ6, φ7, φ8, φ9, φ10, φ11, φ12, φ13, φ14, φ15, φ16, φ17, true, φ19⟩ z0 s1_1 := advanceTo_keeps hz
    clear_value s1_1
    exact Keeps.of k_s1_1 rfl
  · exact hz

theorem setSelfRef_keeps {on : Bool} {s : State} (hz : Keeps ⟨φ0, true, φ2, φ3, φ4, φ5, φ6, φ7, true, φ9, φ10, φ11, φ12, φ13, φ14, φ15, φ16, φ17, φ18, φ19⟩ z0 s) : Keeps ⟨φ0, true, φ2, φ3, φ4, φ5, φ6, φ7, true, φ9, φ10, φ11, φ12, φ13, φ14, φ15, φ16, φ17, φ18, φ19⟩ z0 (setSelfRef on s) := by
  unfold setSelfRef
  apply Keeps.foldl
  · exact hz
  · intro _ _ k1
    extract_lets +onlyGivenNames t_2
    have k_t_2 : Keeps ⟨φ0, true, φ2, φ3, φ4, φ5, φ6, φ7, true, φ9, φ10, φ11, φ12, φ13, φ14, φ15, φ16, φ17, φ18, φ19⟩ z0 t_2 := by
      subst t_2
      apply Keeps.foldl
      · exact k1
      · intro _ _ k3
        exact lpddrPut_keeps k3
    clear_value t_2
    exact setMc_keeps k_t_2

theorem execCoolantLoss_keeps {s : State} (hz : Keeps ⟨φ0, true, true, true, φ4, φ5, φ6, φ7, true, true, φ10, φ11, φ12, φ13, φ14, φ15, true, φ17, true, φ19⟩ z0 s) : Kept ⟨φ0, true, true, true, φ4, φ5, φ6, φ7, true, true, φ10, φ11, φ12, φ13, φ14, φ15, true, φ17, true, φ19⟩ z0 (execCoolantLoss s) := by
  unfold execCoolantLoss
  apply Kept.next
  extract_lets +onlyGivenNames s1_1
  have k_s1_1 : Keeps ⟨φ0, true, true, true, φ4, φ5, φ6, φ7, true, true, φ10, φ11, φ12, φ13, φ14, φ15, true, φ17, true, φ19⟩ z0 s1_1 := wrField_keeps hz
  clear_value s1_1
  split
  · exact k_s1_1
  · extract_lets +onlyGivenNames n_2 s2_3
    extract_lets +onlyGivenNames s2_4
    have k_s2_4 : Keeps ⟨φ0, true, true, true, φ4, φ5, φ6, φ7, true, true, φ10, φ11, φ12, φ13, φ14, φ15, true, φ17, true, φ19⟩ z0 s2_4 := by
      subst s2_4
      apply wrField_keeps
      apply episodeOn_keeps
      apply bump_keeps
      exact Keeps.of k_s1_1 rfl
    clear_value s2_4
    exact setSelfRef_keeps (raise_keeps (trip_keeps k_s2_4))

theorem execCoolFlowRestored_keeps {s : State} (hz : Keeps ⟨φ0, φ1, φ2, φ3, φ4, φ5, φ6, φ7, φ8, φ9, φ10, φ11, φ12, φ13, φ14, φ15, φ16, φ17, true, φ19⟩ z0 s) : Kept ⟨φ0, φ1, φ2, φ3, φ4, φ5, φ6, φ7, φ8, φ9, φ10, φ11, φ12, φ13, φ14, φ15, φ16, φ17, true, φ19⟩ z0 (execCoolFlowRestored s) := by
  unfold execCoolFlowRestored
  apply Kept.next
  split
  · exact hz
  · apply wrField_keeps
    exact Keeps.of hz rfl

theorem ungate_keeps {gated : Nat} {s : State} (hz : Keeps ⟨φ0, φ1, true, φ3, true, φ5, φ6, φ7, φ8, φ9, φ10, φ11, φ12, φ13, φ14, φ15, φ16, φ17, φ18, φ19⟩ z0 s) : Keeps ⟨φ0, φ1, true, φ3, true, φ5, φ6, φ7, φ8, φ9, φ10, φ11, φ12, φ13, φ14, φ15, φ16, φ17, φ18, φ19⟩ z0 (ungate gated s) := by
  unfold ungate
  extract_lets +onlyGivenNames qs_1
  exact Keeps.of hz rfl

theorem wrCool_keeps {v : Word} {s : State} (hz : Keeps ⟨φ0, true, true, φ3, true, φ5, φ6, φ7, true, true, φ10, φ11, φ12, φ13, φ14, φ15, true, φ17, true, φ19⟩ z0 s) : Keeps ⟨φ0, true, true, φ3, true, φ5, φ6, φ7, true, true, φ10, φ11, φ12, φ13, φ14, φ15, true, φ17, true, φ19⟩ z0 (wrCool v s) := by
  unfold wrCool
  split
  · exact hz
  · split
    · exact pwrRefuse_keeps hz
    · split
      · exact hz
      · extract_lets +onlyGivenNames s1_1 s2_2 gated_3 s3_4
        have k_s1_1 : Keeps ⟨φ0, true, true, φ3, true, φ5, φ6, φ7, true, true, φ10, φ11, φ12, φ13, φ14, φ15, true, φ17, true, φ19⟩ z0 s1_1 := advanceToRing_keeps (setSelfRef_keeps hz)
        have k_s2_2 : Keeps ⟨φ0, true, true, φ3, true, φ5, φ6, φ7, true, true, φ10, φ11, φ12, φ13, φ14, φ15, true, φ17, true, φ19⟩ z0 s2_2 := by
          subst s2_2
          apply Keeps.foldl
          · exact k_s1_1
          · intro _ _ k5
            split
            · exact wrField_keeps k5
            · exact k5
        have k_s3_4 : Keeps ⟨φ0, true, true, φ3, true, φ5, φ6, φ7, true, true, φ10, φ11, φ12, φ13, φ14, φ15, true, φ17, true, φ19⟩ z0 s3_4 := ungate_keeps (wrField_keeps k_s2_2)
        clear_value s1_1 s2_2 s3_4
        exact startRecovery_keeps (raise_keeps k_s3_4)

theorem execCoolantRestart_keeps {r : Req} {v : Nat} {s : State} (hz : Keeps ⟨φ0, true, true, φ3, true, φ5, φ6, φ7, true, true, φ10, φ11, φ12, φ13, φ14, φ15, true, φ17, true, φ19⟩ z0 s) : Kept ⟨φ0, true, true, φ3, true, φ5, φ6, φ7, true, true, φ10, φ11, φ12, φ13, φ14, φ15, true, φ17, true, φ19⟩ z0 (execCoolantRestart r v s) := by
  unfold execCoolantRestart
  apply Kept.next
  apply onReg_keeps
  · intro _ k1
    exact wrCool_keeps k1
  · exact hz

theorem wrDomainCmd_keeps {v : Word} {s : State} (hz : Keeps ⟨φ0, true, true, φ3, true, φ5, φ6, φ7, φ8, true, φ10, φ11, φ12, φ13, φ14, φ15, true, φ17, true, φ19⟩ z0 s) : Keeps ⟨φ0, true, true, φ3, true, φ5, φ6, φ7, φ8, true, φ10, φ11, φ12, φ13, φ14, φ15, true, φ17, true, φ19⟩ z0 (wrDomainCmd v s) := by
  unfold wrDomainCmd
  extract_lets +onlyGivenNames d_1
  split
  · exact pwrRefuse_keeps hz
  · split
    · exact domainRise_keeps hz
    · split
      · exact pwrRefuse_keeps hz
      · exact domainFall_keeps hz

theorem execDomainOn_keeps {r : Req} {d : Nat} {s : State} (hz : Keeps ⟨φ0, true, true, φ3, true, φ5, φ6, φ7, φ8, true, φ10, φ11, φ12, φ13, φ14, φ15, true, φ17, true, φ19⟩ z0 s) : Kept ⟨φ0, true, true, φ3, true, φ5, φ6, φ7, φ8, true, φ10, φ11, φ12, φ13, φ14, φ15, true, φ17, true, φ19⟩ z0 (execDomainOn r d s) := by
  unfold execDomainOn
  apply Kept.next
  apply onReg_keeps
  · intro _ k1
    exact wrDomainCmd_keeps k1
  · exact hz

theorem execDomainOffCmd_keeps {r : Req} {d : Nat} {s : State} (hz : Keeps ⟨φ0, true, true, φ3, true, φ5, φ6, φ7, φ8, true, φ10, φ11, φ12, φ13, φ14, φ15, true, φ17, true, φ19⟩ z0 s) : Kept ⟨φ0, true, true, φ3, true, φ5, φ6, φ7, φ8, true, φ10, φ11, φ12, φ13, φ14, φ15, true, φ17, true, φ19⟩ z0 (execDomainOffCmd r d s) := by
  unfold execDomainOffCmd
  apply Kept.next
  apply onReg_keeps
  · intro _ k1
    exact wrDomainCmd_keeps k1
  · exact hz

theorem wakeBanks_keeps {n : Nat} {s : State} (hz : Keeps ⟨φ0, true, true, φ3, φ4, φ5, φ6, true, φ8, true, φ10, φ11, φ12, φ13, φ14, φ15, true, φ17, φ18, φ19⟩ z0 s) : Keeps ⟨φ0, true, true, φ3, φ4, φ5, φ6, true, φ8, true, φ10, φ11, φ12, φ13, φ14, φ15, true, φ17, φ18, φ19⟩ z0 (wakeBanks n s) := by
  unfold wakeBanks
  apply Keeps.foldl
  · exact hz
  · intro _ _ k1
    exact bankTo_keeps k1

theorem execDomainUsable_keeps {d : Nat} {s : State} (hz : Keeps ⟨φ0, true, true, φ3, true, true, φ6, true, true, true, true, true, true, true, true, true, true, true, true, true⟩ z0 s) : Kept ⟨φ0, true, true, φ3, true, true, φ6, true, true, true, true, true, true, true, true, true, true, true, true, true⟩ z0 (execDomainUsable d s) := by
  unfold execDomainUsable
  apply Kept.next
  split
  · exact hz
  · extract_lets +onlyGivenNames s1_1 s2_2
    have k_s1_1 : Keeps ⟨φ0, true, true, φ3, true, true, φ6, true, true, true, true, true, true, true, true, true, true, true, true, true⟩ z0 s1_1 := advanceTo_keeps hz
    clear_value s1_1
    extract_lets +onlyGivenNames s2_3
    have k_s2_3 : Keeps ⟨φ0, true, true, φ3, true, true, φ6, true, true, true, true, true, true, true, true, true, true, true, true, true⟩ z0 s2_3 := by
      subst s2_3
      apply domainReset_keeps
      apply setDomain_keeps
      exact Keeps.of k_s1_1 rfl
    clear_value s2_3
    apply raise_keeps
    split
    · exact wakeBanks_keeps k_s2_3
    · exact k_s2_3

theorem execAutoPowerDown_keeps {bank : Option Nat} {n : Nat} {s : State} (hz : Keeps ⟨φ0, true, true, φ3, true, φ5, φ6, true, φ8, true, φ10, φ11, φ12, φ13, φ14, φ15, true, φ17, true, φ19⟩ z0 s) : Kept ⟨φ0, true, true, φ3, true, φ5, φ6, true, φ8, true, φ10, φ11, φ12, φ13, φ14, φ15, true, φ17, true, φ19⟩ z0 (execAutoPowerDown bank n s) := by
  unfold execAutoPowerDown
  apply Kept.next
  extract_lets +onlyGivenNames idle_1
  split
  · exact hz
  · split
    · extract_lets +onlyGivenNames qs_2
      split
      · exact hz
      · exact domainFall_keeps (advanceTo_keeps hz)
    · extract_lets +onlyGivenNames k_3 p_4
      split
      · exact hz
      · exact bankDown_keeps (advanceTo_keeps hz)

theorem spadUpset_keeps {n : Nat} {u : Upset} {s : State} (hz : Keeps ⟨φ0, φ1, φ2, φ3, φ4, φ5, φ6, true, φ8, φ9, φ10, φ11, φ12, φ13, φ14, φ15, φ16, φ17, φ18, φ19⟩ z0 s) : Keeps ⟨φ0, φ1, φ2, φ3, φ4, φ5, φ6, true, φ8, φ9, φ10, φ11, φ12, φ13, φ14, φ15, φ16, φ17, φ18, φ19⟩ z0 (spadUpset n u s) := by
  unfold spadUpset
  extract_lets +onlyGivenNames p_1
  split
  · exact hz
  · extract_lets +onlyGivenNames w_2
    split
    · exact hz
    · split
      · exact setSpad_keeps hz
      · exact setSpad_keeps hz
  · split
    · exact hz
    · exact setSpad_keeps hz

theorem requestEnd_keeps {w : Who} {status : Nat} {s s1 : State} (hz : Keeps ⟨φ0, true, true, true, true, true, true, true, φ8, true, true, φ11, φ12, φ13, φ14, φ15, true, φ17, φ18, φ19⟩ z0 s1) : Keeps ⟨φ0, true, true, true, true, true, true, true, φ8, true, true, φ11, φ12, φ13, φ14, φ15, true, φ17, φ18, φ19⟩ z0 (requestEnd w status s s1) := by
  unfold requestEnd
  split
  · split
    · exact failOn_keeps hz
    · exact hz
  · exact hz

theorem execSpadRequest_keeps {w : Who} {k : Acc3} {addr len : Nat} {data : List Byte} {u : Upset} {s : State} (hz : Keeps ⟨φ0, true, true, true, true, true, true, true, true, true, true, φ11, φ12, φ13, φ14, φ15, true, φ17, φ18, φ19⟩ z0 s) : Kept ⟨φ0, true, true, true, true, true, true, true, true, true, true, φ11, φ12, φ13, φ14, φ15, true, φ17, φ18, φ19⟩ z0 (execSpadRequest w k addr len data u s) := by
  unfold execSpadRequest
  apply Kept.next
  split
  · exact hz
  · extract_lets +onlyGivenNames n_1 off_2 s1_3
    have k_s1_3 : Keeps ⟨φ0, true, true, true, true, true, true, true, true, true, true, φ11, φ12, φ13, φ14, φ15, true, φ17, φ18, φ19⟩ z0 s1_3 := spadUpset_keeps hz
    clear_value s1_3
    split
    · exact spadReadEcc_keeps (raise_keeps k_s1_3)
    · extract_lets +onlyGivenNames r_4
      have k_r_4 : Keeps ⟨φ0, true, true, true, true, true, true, true, true, true, true, φ11, φ12, φ13, φ14, φ15, true, φ17, φ18, φ19⟩ z0 r_4.2 := access_keeps k_s1_3
      clear_value r_4
      exact requestEnd_keeps k_r_4

theorem execWindowExpiry_keeps {n w : Nat} {s : State} (hz : Keeps ⟨φ0, φ1, φ2, φ3, true, φ5, φ6, φ7, φ8, φ9, φ10, φ11, φ12, φ13, φ14, φ15, φ16, φ17, φ18, φ19⟩ z0 s) : Kept ⟨φ0, φ1, φ2, φ3, true, φ5, φ6, φ7, φ8, φ9, φ10, φ11, φ12, φ13, φ14, φ15, φ16, φ17, φ18, φ19⟩ z0 (execWindowExpiry n w s) := by
  unfold execWindowExpiry
  apply Kept.next
  extract_lets +onlyGivenNames x_1
  split
  · exact advanceToDev_keeps hz
  · exact hz

theorem wrWinCmd_keeps {n : Nat} {v : Word} {s : State} (hz : Keeps ⟨φ0, true, true, φ3, φ4, φ5, φ6, true, φ8, true, φ10, φ11, φ12, φ13, φ14, φ15, true, φ17, φ18, φ19⟩ z0 s) : Keeps ⟨φ0, true, true, φ3, φ4, φ5, φ6, true, φ8, true, φ10, φ11, φ12, φ13, φ14, φ15, true, φ17, φ18, φ19⟩ z0 (wrWinCmd n v s) := by
  unfold wrWinCmd
  extract_lets +onlyGivenNames idx_1 b_2 p_3
  split
  · split
    · exact setSpad_keeps hz
    · exact raise_keeps hz
  · split
    · exact setSpad_keeps hz
    · exact raise_keeps hz
  · exact hz

theorem execWindowOpen_keeps {r : Req} {n : Nat} {s : State} (hz : Keeps ⟨φ0, true, true, φ3, φ4, φ5, φ6, true, φ8, true, φ10, φ11, φ12, φ13, φ14, φ15, true, φ17, φ18, φ19⟩ z0 s) : Kept ⟨φ0, true, true, φ3, φ4, φ5, φ6, true, φ8, true, φ10, φ11, φ12, φ13, φ14, φ15, true, φ17, φ18, φ19⟩ z0 (execWindowOpen r n s) := by
  unfold execWindowOpen
  apply Kept.next
  apply onReg_keeps
  · intro _ k1
    exact wrWinCmd_keeps k1
  · exact hz

theorem execWindowClose_keeps {r : Req} {n : Nat} {s : State} (hz : Keeps ⟨φ0, true, true, φ3, φ4, φ5, φ6, true, φ8, true, φ10, φ11, φ12, φ13, φ14, φ15, true, φ17, φ18, φ19⟩ z0 s) : Kept ⟨φ0, true, true, φ3, φ4, φ5, φ6, true, φ8, true, φ10, φ11, φ12, φ13, φ14, φ15, true, φ17, φ18, φ19⟩ z0 (execWindowClose r n s) := by
  unfold execWindowClose
  apply Kept.next
  apply onReg_keeps
  · intro _ k1
    exact wrWinCmd_keeps k1
  · exact hz

theorem wrBankCtrl_keeps {n : Nat} {v : Word} {s : State} (hz : Keeps ⟨φ0, true, true, φ3, φ4, φ5, φ6, true, φ8, true, φ10, φ11, φ12, φ13, φ14, φ15, true, φ17, φ18, φ19⟩ z0 s) : Keeps ⟨φ0, true, true, φ3, φ4, φ5, φ6, true, φ8, true, φ10, φ11, φ12, φ13, φ14, φ15, true, φ17, φ18, φ19⟩ z0 (wrBankCtrl n v s) := by
  unfold wrBankCtrl
  extract_lets +onlyGivenNames b_1 job_2 down_3
  split
  · exact raise_keeps hz
  · split
    · exact bankDown_keeps hz
    · exact bankWake_keeps hz

theorem execBankPowerDown_keeps {r : Req} {n bank owner : Nat} {s : State} (hz : Keeps ⟨φ0, true, true, φ3, φ4, φ5, φ6, true, φ8, true, φ10, φ11, φ12, φ13, φ14, φ15, true, φ17, φ18, φ19⟩ z0 s) : Kept ⟨φ0, true, true, φ3, φ4, φ5, φ6, true, φ8, true, φ10, φ11, φ12, φ13, φ14, φ15, true, φ17, φ18, φ19⟩ z0 (execBankPowerDown r n bank owner s) := by
  unfold execBankPowerDown
  apply Kept.next
  apply onReg_keeps
  · intro _ k1
    exact wrBankCtrl_keeps k1
  · exact hz

theorem execBankWake_keeps {r : Req} {n bank owner : Nat} {s : State} (hz : Keeps ⟨φ0, true, true, φ3, φ4, φ5, φ6, true, φ8, true, φ10, φ11, φ12, φ13, φ14, φ15, true, φ17, φ18, φ19⟩ z0 s) : Kept ⟨φ0, true, true, φ3, φ4, φ5, φ6, true, φ8, true, φ10, φ11, φ12, φ13, φ14, φ15, true, φ17, φ18, φ19⟩ z0 (execBankWake r n bank owner s) := by
  unfold execBankWake
  apply Kept.next
  apply onReg_keeps
  · intro _ k1
    exact wrBankCtrl_keeps k1
  · exact hz

theorem execBankDrained_keeps {n b : Nat} {s : State} (hz : Keeps ⟨φ0, true, true, φ3, true, φ5, φ6, true, φ8, true, φ10, φ11, φ12, φ13, φ14, φ15, true, φ17, φ18, φ19⟩ z0 s) : Kept ⟨φ0, true, true, φ3, true, φ5, φ6, true, φ8, true, φ10, φ11, φ12, φ13, φ14, φ15, true, φ17, φ18, φ19⟩ z0 (execBankDrained n b s) := by
  unfold execBankDrained
  apply Kept.next
  extract_lets +onlyGivenNames k_1
  split
  · exact hz
  · extract_lets +onlyGivenNames s1_2
    have k_s1_2 : Keeps ⟨φ0, true, true, φ3, true, φ5, φ6, true, φ8, true, φ10, φ11, φ12, φ13, φ14, φ15, true, φ17, φ18, φ19⟩ z0 s1_2 := bankTo_keeps (advanceTo_keeps hz)
    clear_value s1_2
    split
    · exact bankWake_keeps k_s1_2
    · exact k_s1_2

theorem execBankWakeDone_keeps {n b : Nat} {s : State} (hz : Keeps ⟨φ0, true, true, φ3, true, φ5, φ6, true, φ8, true, φ10, true, φ12, φ13, φ14, φ15, true, φ17, φ18, φ19⟩ z0 s) : Kept ⟨φ0, true, true, φ3, true, φ5, φ6, true, φ8, true, φ10, true, φ12, φ13, φ14, φ15, true, φ17, φ18, φ19⟩ z0 (execBankWakeDone n b s) := by
  unfold execBankWakeDone
  apply Kept.next
  extract_lets +onlyGivenNames k_1
  split
  · exact hz
  · extract_lets +onlyGivenNames s1_2 p_3 inB_4 s2_5 s3_6
    have k_s1_2 : Keeps ⟨φ0, true, true, φ3, true, φ5, φ6, true, φ8, true, φ10, true, φ12, φ13, φ14, φ15, true, φ17, φ18, φ19⟩ z0 s1_2 := zeroBytes_keeps (advanceTo_keeps hz)
    have k_s2_5 : Keeps ⟨φ0, true, true, φ3, true, φ5, φ6, true, φ8, true, φ10, true, φ12, φ13, φ14, φ15, true, φ17, φ18, φ19⟩ z0 s2_5 := by
      subst s2_5
      apply Keeps.foldl
      · exact setSpad_keeps k_s1_2
      · intro _ _ k7
        exact spareRow_keeps k7
    have k_s3_6 : Keeps ⟨φ0, true, true, φ3, true, φ5, φ6, true, φ8, true, φ10, true, φ12, φ13, φ14, φ15, true, φ17, φ18, φ19⟩ z0 s3_6 := bankTo_keeps k_s2_5
    clear_value s1_2 s2_5 s3_6
    split
    · exact bankDown_keeps k_s3_6
    · exact k_s3_6

theorem releaseHeld_keeps {n : Nat} {s : State} (hz : Keeps ⟨φ0, φ1, φ2, φ3, φ4, φ5, φ6, true, φ8, φ9, φ10, φ11, φ12, φ13, φ14, φ15, φ16, φ17, φ18, φ19⟩ z0 s) : Keeps ⟨φ0, φ1, φ2, φ3, φ4, φ5, φ6, true, φ8, φ9, φ10, φ11, φ12, φ13, φ14, φ15, φ16, φ17, φ18, φ19⟩ z0 (releaseHeld n s) := by
  unfold releaseHeld
  extract_lets +onlyGivenNames p_1
  exact setSpad_keeps hz

theorem wrSpadDebug_keeps {n : Nat} {v : Word} {s : State} (hz : Keeps ⟨φ0, true, true, φ3, φ4, φ5, φ6, true, φ8, true, φ10, φ11, φ12, φ13, φ14, φ15, true, φ17, φ18, φ19⟩ z0 s) : Keeps ⟨φ0, true, true, φ3, φ4, φ5, φ6, true, φ8, true, φ10, φ11, φ12, φ13, φ14, φ15, true, φ17, φ18, φ19⟩ z0 (wrSpadDebug n v s) := by
  unfold wrSpadDebug
  split
  · split
    · exact wrReg_keeps hz
    · exact raise_keeps hz
  · exact releaseHeld_keeps (wrReg_keeps hz)

theorem execHoldFill_keeps {r : Req} {n : Nat} {hold : Bool} {s : State} (hz : Keeps ⟨φ0, true, true, φ3, φ4, φ5, φ6, true, φ8, true, φ10, φ11, φ12, φ13, φ14, φ15, true, φ17, φ18, φ19⟩ z0 s) : Kept ⟨φ0, true, true, φ3, φ4, φ5, φ6, true, φ8, true, φ10, φ11, φ12, φ13, φ14, φ15, true, φ17, φ18, φ19⟩ z0 (execHoldFill r n hold s) := by
  unfold execHoldFill
  apply Kept.next
  apply onReg_keeps
  · intro _ k1
    exact wrSpadDebug_keeps k1
  · exact hz

theorem spadWriteBack_keeps {n b : Nat} {s : State} (hz : Keeps ⟨φ0, φ1, φ2, φ3, φ4, φ5, φ6, true, φ8, φ9, φ10, φ11, φ12, φ13, φ14, φ15, φ16, φ17, φ18, φ19⟩ z0 s) : Keeps ⟨φ0, φ1, φ2, φ3, φ4, φ5, φ6, true, φ8, φ9, φ10, φ11, φ12, φ13, φ14, φ15, φ16, φ17, φ18, φ19⟩ z0 (spadWriteBack n b s) := by
  unfold spadWriteBack
  extract_lets +onlyGivenNames p_1 mine_2
  exact setSpad_keeps hz

theorem scrubWord_keeps {n b w : Nat} {s : State} (hz : Keeps ⟨φ0, true, true, φ3, true, φ5, φ6, true, φ8, true, φ10, true, φ12, φ13, φ14, φ15, true, φ17, φ18, φ19⟩ z0 s) : Keeps ⟨φ0, true, true, φ3, true, φ5, φ6, true, φ8, true, φ10, true, φ12, φ13, φ14, φ15, true, φ17, φ18, φ19⟩ z0 (scrubWord n b w s) := by
  unfold scrubWord
  extract_lets +onlyGivenNames p_1 row_2
  split
  · extract_lets +onlyGivenNames s1_3
    have k_s1_3 : Keeps ⟨φ0, true, true, φ3, true, φ5, φ6, true, φ8, true, φ10, true, φ12, φ13, φ14, φ15, true, φ17, φ18, φ19⟩ z0 s1_3 := raise_keeps hz
    clear_value s1_3
    split
    · exact k_s1_3
    · exact spareRow_keeps k_s1_3
  · split
    · exact hz
    · extract_lets +onlyGivenNames pass_4 s1_5 p1_6 s2_7
      have k_s1_5 : Keeps ⟨φ0, true, true, φ3, true, φ5, φ6, true, φ8, true, φ10, true, φ12, φ13, φ14, φ15, true, φ17, φ18, φ19⟩ z0 s1_5 := raise_keeps (bump_keeps hz)
      have k_s2_7 : Keeps ⟨φ0, true, true, φ3, true, φ5, φ6, true, φ8, true, φ10, true, φ12, φ13, φ14, φ15, true, φ17, φ18, φ19⟩ z0 s2_7 := setSpad_keeps k_s1_5
      clear_value s1_5 s2_7
      split
      · exact spareRow_keeps k_s2_7
      · split
        · exact k_s2_7
        · exact setSpad_keeps k_s2_7

theorem execScrubStep_keeps {n b : Nat} {u : Upset} {s : State} (hz : Keeps ⟨φ0, true, true, φ3, true, φ5, φ6, true, φ8, true, φ10, true, φ12, φ13, φ14, φ15, true, φ17, φ18, φ19⟩ z0 s) : Kept ⟨φ0, true, true, φ3, true, φ5, φ6, true, φ8, true, φ10, true, φ12, φ13, φ14, φ15, true, φ17, φ18, φ19⟩ z0 (execScrubStep n b u s) := by
  unfold execScrubStep
  apply Kept.next
  extract_lets +onlyGivenNames k_1
  split
  · exact hz
  · extract_lets +onlyGivenNames w_2 s0_3 s1_4 p_5 q_6
    have k_s0_3 : Keeps ⟨φ0, true, true, φ3, true, φ5, φ6, true, φ8, true, φ10, true, φ12, φ13, φ14, φ15, true, φ17, φ18, φ19⟩ z0 s0_3 := spadUpset_keeps (spadWriteBack_keeps hz)
    have k_s1_4 : Keeps ⟨φ0, true, true, φ3, true, φ5, φ6, true, φ8, true, φ10, true, φ12, φ13, φ14, φ15, true, φ17, φ18, φ19⟩ z0 s1_4 := by
      subst s1_4
      split
      · exact k_s0_3
      · exact scrubWord_keeps k_s0_3
    clear_value s0_3 s1_4
    exact setSpad_keeps k_s1_4

end Sys2Proof.Machine
end

