-- ==== Sys2Proof/Laws/KeepsControl.lean ====
section
/-! SUPPORT. Each operation keeps what Keeps names: the control engine and its timed I/O. -/

set_option Elab.async false

namespace Sys2Proof.Machine

variable {φ0 φ1 φ2 φ3 φ4 φ5 φ6 φ7 φ8 φ9 φ10 φ11 φ12 φ13 φ14 φ15 φ16 φ17 φ18 φ19 : Bool} {z0 : State}

theorem adcStale_keeps {mask : Nat} {p : Snap} {inj : Bool} {s : State} (hz : Keeps ⟨φ0, true, true, φ3, φ4, φ5, φ6, φ7, φ8, true, φ10, φ11, φ12, φ13, φ14, φ15, true, φ17, φ18, φ19⟩ z0 s) : Keeps ⟨φ0, true, true, φ3, φ4, φ5, φ6, φ7, φ8, true, φ10, φ11, φ12, φ13, φ14, φ15, true, φ17, φ18, φ19⟩ z0 (adcStale mask p inj s) := by
  unfold adcStale
  apply Keeps.foldl
  · exact hz
  · intro _ _ k1
    split
    · exact k1
    · exact raiseRated_keeps k1

theorem takeTrigger_keeps {n : Nat} {p : Snap} {s : State} (hz : Keeps ⟨φ0, true, true, φ3, φ4, φ5, φ6, φ7, φ8, true, φ10, φ11, φ12, φ13, φ14, true, true, φ17, φ18, φ19⟩ z0 s) : Keeps ⟨φ0, true, true, φ3, φ4, φ5, φ6, φ7, φ8, true, φ10, φ11, φ12, φ13, φ14, true, true, φ17, φ18, φ19⟩ z0 (takeTrigger n p s) := by
  unfold takeTrigger
  extract_lets +onlyGivenNames v_1
  split
  · exact trOverrun_keeps (disarm_keeps hz)
  · split
    · split
      · exact trOverrun_keeps hz
      · extract_lets +onlyGivenNames inj_2 p1_3 s1_4
        have k_s1_4 : Keeps ⟨φ0, true, true, φ3, φ4, φ5, φ6, φ7, φ8, true, φ10, φ11, φ12, φ13, φ14, true, true, φ17, φ18, φ19⟩ z0 s1_4 := by
          subst s1_4
          split
          · exact disarm_keeps hz
          · exact hz
        clear_value s1_4
        exact adcStale_keeps (setSlot_keeps k_s1_4)
    · split
      · exact trOverrun_keeps hz
      · extract_lets +onlyGivenNames inj_5 p1_6 s1_7
        have k_s1_7 : Keeps ⟨φ0, true, true, φ3, φ4, φ5, φ6, φ7, φ8, true, φ10, φ11, φ12, φ13, φ14, true, true, φ17, φ18, φ19⟩ z0 s1_7 := by
          subst s1_7
          split
          · exact disarm_keeps hz
          · exact hz
        clear_value s1_7
        exact adcStale_keeps (setSlot_keeps k_s1_7)

theorem execSlotTrigger_keeps {n : Nat} {s : State} (hz : Keeps ⟨φ0, true, true, φ3, true, φ5, φ6, φ7, φ8, true, φ10, φ11, φ12, φ13, φ14, true, true, φ17, φ18, φ19⟩ z0 s) : Kept ⟨φ0, true, true, φ3, true, φ5, φ6, φ7, φ8, true, φ10, φ11, φ12, φ13, φ14, true, true, φ17, φ18, φ19⟩ z0 (execSlotTrigger n s) := by
  unfold execSlotTrigger
  apply Kept.next
  extract_lets +onlyGivenNames v_1
  split
  · exact hz
  · split
    · split
      · exact hz
      · extract_lets +onlyGivenNames t_2 s1_3
        have k_s1_3 : Keeps ⟨φ0, true, true, φ3, true, φ5, φ6, φ7, φ8, true, φ10, φ11, φ12, φ13, φ14, true, true, φ17, φ18, φ19⟩ z0 s1_3 := advanceToDev_keeps hz
        clear_value s1_3
        exact takeTrigger_keeps (setSlot_keeps k_s1_3)
    · split
      · exact hz
      · exact takeTrigger_keeps (setSlot_keeps hz)

theorem bankSwap_keeps {s : State} (hz : Keeps ⟨φ0, true, true, φ3, φ4, φ5, φ6, φ7, φ8, true, φ10, φ11, φ12, φ13, φ14, φ15, true, φ17, φ18, φ19⟩ z0 s) : Keeps ⟨φ0, true, true, φ3, φ4, φ5, φ6, φ7, φ8, true, φ10, φ11, φ12, φ13, φ14, φ15, true, φ17, φ18, φ19⟩ z0 (bankSwap s) := by
  unfold bankSwap
  extract_lets +onlyGivenNames a_1
  exact raise_keeps (wrField_keeps hz)

theorem testAdvance_keeps {s : State} (hz : Keeps ⟨φ0, φ1, φ2, φ3, φ4, φ5, φ6, φ7, φ8, φ9, φ10, φ11, φ12, φ13, φ14, true, φ16, φ17, φ18, φ19⟩ z0 s) : Keeps ⟨φ0, φ1, φ2, φ3, φ4, φ5, φ6, φ7, φ8, φ9, φ10, φ11, φ12, φ13, φ14, true, φ16, φ17, φ18, φ19⟩ z0 (testAdvance s) := by
  unfold testAdvance
  extract_lets +onlyGivenNames l_1 fb_2
  exact Keeps.of hz rfl

theorem startLaw_keeps {n : Nat} {hold : Bool} {p : Snap} {delta : List Nat} {test : Option Int} {s : State} (hz : Keeps ⟨φ0, φ1, φ2, φ3, φ4, φ5, φ6, φ7, φ8, φ9, φ10, φ11, φ12, φ13, φ14, true, φ16, φ17, φ18, φ19⟩ z0 s) : Keeps ⟨φ0, φ1, φ2, φ3, φ4, φ5, φ6, φ7, φ8, φ9, φ10, φ11, φ12, φ13, φ14, true, φ16, φ17, φ18, φ19⟩ z0 (startLaw n hold p delta test s) := by
  unfold startLaw
  extract_lets +onlyGivenNames v_1 w_2 bank_3 sp_4 r_5
  exact Keeps.of hz rfl

theorem trSram_keeps {bad : Bool} {n addr : Nat} {inj : Bool} {s : State} (hz : Keeps ⟨φ0, true, true, φ3, φ4, φ5, φ6, φ7, φ8, true, φ10, φ11, φ12, φ13, φ14, φ15, true, φ17, φ18, φ19⟩ z0 s) : Keeps ⟨φ0, true, true, φ3, φ4, φ5, φ6, φ7, φ8, true, φ10, φ11, φ12, φ13, φ14, φ15, true, φ17, φ18, φ19⟩ z0 (trSram bad n addr inj s) := by
  unfold trSram
  exact raise_keeps hz

theorem lawFetch_keeps {n : Nat} {u : Upset} {s : State} (hz : Keeps ⟨φ0, true, true, φ3, φ4, φ5, φ6, φ7, φ8, true, φ10, φ11, φ12, φ13, φ14, true, true, φ17, φ18, φ19⟩ z0 s) : Keeps ⟨φ0, true, true, φ3, φ4, φ5, φ6, φ7, φ8, true, φ10, φ11, φ12, φ13, φ14, true, true, φ17, φ18, φ19⟩ z0 (lawFetch n u s) := by
  unfold lawFetch
  extract_lets +onlyGivenNames v_1 bad_2
  split
  · subst bad_2
    dsimp only
    exact trSram_keeps (setSlot_keeps (disarm_keeps hz))
  · split
    · subst bad_2
      dsimp only
      exact trSram_keeps (setSlot_keeps hz)
    · exact trSram_keeps hz
    · exact hz

theorem holdAndRun_keeps {n : Nat} {p : Snap} {delta : List Nat} {test : Option Int} {s : State} (hz : Keeps ⟨φ0, true, true, φ3, φ4, φ5, φ6, φ7, φ8, true, φ10, φ11, φ12, φ13, φ14, true, true, φ17, φ18, φ19⟩ z0 s) : Keeps ⟨φ0, true, true, φ3, φ4, φ5, φ6, φ7, φ8, true, φ10, φ11, φ12, φ13, φ14, true, true, φ17, φ18, φ19⟩ z0 (holdAndRun n p delta test s) := by
  unfold holdAndRun
  extract_lets +onlyGivenNames v_1 inj_2 s0_3 inv_4 cause_5
  have k_s0_3 : Keeps ⟨φ0, true, true, φ3, φ4, φ5, φ6, φ7, φ8, true, φ10, φ11, φ12, φ13, φ14, true, true, φ17, φ18, φ19⟩ z0 s0_3 := by
    subst s0_3
    split
    · exact disarm_keeps hz
    · exact hz
  split
  · split
    · split
      · exact k_s0_3
      · exact startLaw_keeps (raise_keeps (setSlot_keeps k_s0_3))
    · exact startLaw_keeps k_s0_3
  · extract_lets +onlyGivenNames mode_6 s1_7
    have k_s1_7 : Keeps ⟨φ0, true, true, φ3, φ4, φ5, φ6, φ7, φ8, true, φ10, φ11, φ12, φ13, φ14, true, true, φ17, φ18, φ19⟩ z0 s1_7 := raise_keeps (setSlot_keeps k_s0_3)
    clear_value s1_7
    extract_lets +onlyGivenNames s1_8
    have k_s1_8 : Keeps ⟨φ0, true, true, φ3, φ4, φ5, φ6, φ7, φ8, true, φ10, φ11, φ12, φ13, φ14, true, true, φ17, φ18, φ19⟩ z0 s1_8 := by
      subst s1_8
      split
      · split
        · exact safeDuties_keeps (setSlot_keeps k_s0_3)
        · exact k_s0_3
      · split
        · exact safeDuties_keeps k_s1_7
        · exact k_s1_7
    clear_value s1_8
    split
    · exact startLaw_keeps k_s1_8
    · exact k_s1_8

theorem execLawDispatch_keeps {u : Upset} {s : State} (hz : Keeps ⟨φ0, true, true, φ3, φ4, φ5, φ6, φ7, φ8, true, φ10, φ11, φ12, φ13, φ14, true, true, φ17, φ18, φ19⟩ z0 s) : Kept ⟨φ0, true, true, φ3, φ4, φ5, φ6, φ7, φ8, true, φ10, φ11, φ12, φ13, φ14, true, true, φ17, φ18, φ19⟩ z0 (execLawDispatch u s) := by
  unfold execLawDispatch
  apply Kept.next
  split
  · exact hz
  · extract_lets +onlyGivenNames v_1
    split
    · exact hz
    · split
      · split
        · exact hz
        · extract_lets +onlyGivenNames delta_2 s1_3 s2_4 s3_5 test_6 s4_7
          have k_s1_3 : Keeps ⟨φ0, true, true, φ3, φ4, φ5, φ6, φ7, φ8, true, φ10, φ11, φ12, φ13, φ14, true, true, φ17, φ18, φ19⟩ z0 s1_3 := setSlot_keeps hz
          have k_s2_4 : Keeps ⟨φ0, true, true, φ3, φ4, φ5, φ6, φ7, φ8, true, φ10, φ11, φ12, φ13, φ14, true, true, φ17, φ18, φ19⟩ z0 s2_4 := by
            subst s2_4
            split
            · exact bankSwap_keeps k_s1_3
            · exact k_s1_3
          have k_s3_5 : Keeps ⟨φ0, true, true, φ3, φ4, φ5, φ6, φ7, φ8, true, φ10, φ11, φ12, φ13, φ14, true, true, φ17, φ18, φ19⟩ z0 s3_5 := lawFetch_keeps k_s2_4
          have k_s4_7 : Keeps ⟨φ0, true, true, φ3, φ4, φ5, φ6, φ7, φ8, true, φ10, φ11, φ12, φ13, φ14, true, true, φ17, φ18, φ19⟩ z0 s4_7 := holdAndRun_keeps k_s3_5
          clear_value s1_3 s2_4 s3_5 s4_7
          split
          · exact testAdvance_keeps k_s4_7
          · exact k_s4_7
      · split
        · exact hz
        · extract_lets +onlyGivenNames delta_8 s1_9 s2_10 s3_11 test_12 s4_13
          have k_s1_9 : Keeps ⟨φ0, true, true, φ3, φ4, φ5, φ6, φ7, φ8, true, φ10, φ11, φ12, φ13, φ14, true, true, φ17, φ18, φ19⟩ z0 s1_9 := setSlot_keeps hz
          have k_s2_10 : Keeps ⟨φ0, true, true, φ3, φ4, φ5, φ6, φ7, φ8, true, φ10, φ11, φ12, φ13, φ14, true, true, φ17, φ18, φ19⟩ z0 s2_10 := by
            subst s2_10
            split
            · exact bankSwap_keeps k_s1_9
            · exact k_s1_9
          have k_s3_11 : Keeps ⟨φ0, true, true, φ3, φ4, φ5, φ6, φ7, φ8, true, φ10, φ11, φ12, φ13, φ14, true, true, φ17, φ18, φ19⟩ z0 s3_11 := lawFetch_keeps k_s2_10
          have k_s4_13 : Keeps ⟨φ0, true, true, φ3, φ4, φ5, φ6, φ7, φ8, true, φ10, φ11, φ12, φ13, φ14, true, true, φ17, φ18, φ19⟩ z0 s4_13 := holdAndRun_keeps k_s3_11
          clear_value s1_9 s2_10 s3_11 s4_13
          split
          · exact testAdvance_keeps k_s4_13
          · exact k_s4_13

theorem lawStep_keeps {i : LawIns} {f : TrRun → State → State} {s : State} (h_f : ∀ y0 y1, Keeps ⟨φ0, φ1, φ2, φ3, φ4, φ5, φ6, φ7, φ8, φ9, φ10, φ11, φ12, φ13, φ14, φ15, φ16, φ17, φ18, φ19⟩ z0 y1 → Keeps ⟨φ0, φ1, φ2, φ3, φ4, φ5, φ6, φ7, φ8, φ9, φ10, φ11, φ12, φ13, φ14, φ15, φ16, φ17, φ18, φ19⟩ z0 (f y0 y1)) (hz : Keeps ⟨φ0, φ1, φ2, φ3, φ4, φ5, φ6, φ7, φ8, φ9, φ10, φ11, φ12, φ13, φ14, φ15, φ16, φ17, φ18, φ19⟩ z0 s) : Keeps ⟨φ0, φ1, φ2, φ3, φ4, φ5, φ6, φ7, φ8, φ9, φ10, φ11, φ12, φ13, φ14, φ15, φ16, φ17, φ18, φ19⟩ z0 (lawStep i f s) := by
  unfold lawStep
  split
  · split
    · exact h_f _ _ hz
    · exact hz
  · exact hz

theorem coefRead_keeps {r : TrRun} {k : Nat} {u : Upset} {s : State} (hz : Keeps ⟨φ0, true, true, φ3, φ4, φ5, φ6, φ7, φ8, true, φ10, φ11, φ12, φ13, φ14, true, true, φ17, φ18, φ19⟩ z0 s) : Keeps ⟨φ0, true, true, φ3, φ4, φ5, φ6, φ7, φ8, true, φ10, φ11, φ12, φ13, φ14, true, true, φ17, φ18, φ19⟩ z0 (coefRead r k u s).2 := by
  unfold coefRead
  dsimp only
  split
  · dsimp only
    exact trSram_keeps (disarm_keeps hz)
  · split
    · exact hz
    · dsimp only
      exact trSram_keeps hz
    · dsimp only
      exact Keeps.of (trSram_keeps (setSlot_keeps hz)) rfl

theorem execMac_keeps {clr : Bool} {src coef : Nat} {u : Upset} {s : State} (hz : Keeps ⟨φ0, true, true, φ3, φ4, φ5, φ6, φ7, φ8, true, φ10, φ11, φ12, φ13, φ14, true, true, φ17, φ18, φ19⟩ z0 s) : Kept ⟨φ0, true, true, φ3, φ4, φ5, φ6, φ7, φ8, true, φ10, φ11, φ12, φ13, φ14, true, true, φ17, φ18, φ19⟩ z0 (execMac clr src coef u s) := by
  unfold execMac
  apply Kept.next
  apply lawStep_keeps
  · intro _ _ k1
    extract_lets +onlyGivenNames c_2
    have k_c_2 : Keeps ⟨φ0, true, true, φ3, φ4, φ5, φ6, φ7, φ8, true, φ10, φ11, φ12, φ13, φ14, true, true, φ17, φ18, φ19⟩ z0 c_2.2 := coefRead_keeps k1
    clear_value c_2
    split
    · exact k_c_2
    · extract_lets +onlyGivenNames term_3
      exact setRun_keeps k_c_2
  · exact hz

theorem execLawStore_keeps {dst sh : Nat} {s : State} (hz : Keeps ⟨φ0, true, true, φ3, φ4, φ5, φ6, φ7, φ8, true, φ10, φ11, φ12, φ13, φ14, true, true, φ17, φ18, φ19⟩ z0 s) : Kept ⟨φ0, true, true, φ3, φ4, φ5, φ6, φ7, φ8, true, φ10, φ11, φ12, φ13, φ14, true, true, φ17, φ18, φ19⟩ z0 (execLawStore dst sh s) := by
  unfold execLawStore
  apply Kept.next
  apply lawStep_keeps
  · intro _ _ k1
    extract_lets +onlyGivenNames x_2 y_3 s1_4
    have k_s1_4 : Keeps ⟨φ0, true, true, φ3, φ4, φ5, φ6, φ7, φ8, true, φ10, φ11, φ12, φ13, φ14, true, true, φ17, φ18, φ19⟩ z0 s1_4 := sigWrite_keeps k1
    clear_value s1_4
    split
    · exact k_s1_4
    · exact raiseRated_keeps (setSlot_keeps k_s1_4)
  · exact hz

theorem execLimit_keeps {dst coef : Nat} {u : Upset} {s : State} (hz : Keeps ⟨φ0, true, true, φ3, φ4, φ5, φ6, φ7, φ8, true, φ10, φ11, φ12, φ13, φ14, true, true, φ17, φ18, φ19⟩ z0 s) : Kept ⟨φ0, true, true, φ3, φ4, φ5, φ6, φ7, φ8, true, φ10, φ11, φ12, φ13, φ14, true, true, φ17, φ18, φ19⟩ z0 (execLimit dst coef u s) := by
  unfold execLimit
  apply Kept.next
  apply lawStep_keeps
  · intro _ _ k1
    extract_lets +onlyGivenNames c_2
    have k_c_2 : Keeps ⟨φ0, true, true, φ3, φ4, φ5, φ6, φ7, φ8, true, φ10, φ11, φ12, φ13, φ14, true, true, φ17, φ18, φ19⟩ z0 c_2.2 := coefRead_keeps k1
    clear_value c_2
    split
    · exact k_c_2
    · exact sigWrite_keeps k_c_2
  · exact hz

theorem execLawMove_keeps {dst src : Nat} {s : State} (hz : Keeps ⟨φ0, φ1, φ2, φ3, φ4, φ5, φ6, φ7, φ8, φ9, φ10, φ11, φ12, φ13, φ14, true, φ16, φ17, φ18, φ19⟩ z0 s) : Kept ⟨φ0, φ1, φ2, φ3, φ4, φ5, φ6, φ7, φ8, φ9, φ10, φ11, φ12, φ13, φ14, true, φ16, φ17, φ18, φ19⟩ z0 (execLawMove dst src s) := by
  unfold execLawMove
  apply Kept.next
  apply lawStep_keeps
  · intro _ _ k1
    exact sigWrite_keeps k1
  · exact hz

theorem execLawOut_keeps {src : Nat} {buf : Bool} {n word : Nat} {s : State} (hz : Keeps ⟨φ0, φ1, φ2, φ3, φ4, φ5, φ6, φ7, φ8, φ9, φ10, φ11, φ12, φ13, φ14, true, true, true, φ18, φ19⟩ z0 s) : Kept ⟨φ0, φ1, φ2, φ3, φ4, φ5, φ6, φ7, φ8, φ9, φ10, φ11, φ12, φ13, φ14, true, true, true, φ18, φ19⟩ z0 (execLawOut src buf n word s) := by
  unfold execLawOut
  apply Kept.next
  split
  · apply lawStep_keeps
    · intro _ _ k1
      exact trBufWrite_keeps (setRun_keeps k1)
    · exact hz
  · apply lawStep_keeps
    · intro _ _ k2
      extract_lets +onlyGivenNames v_3 v1_4
      exact pwmOut_keeps (setRun_keeps k2)
    · exact hz

theorem execLawSend_keeps {buf : Nat} {s : State} (hz : Keeps ⟨φ0, φ1, φ2, φ3, φ4, φ5, φ6, φ7, φ8, φ9, φ10, φ11, φ12, φ13, φ14, true, φ16, φ17, φ18, φ19⟩ z0 s) : Kept ⟨φ0, φ1, φ2, φ3, φ4, φ5, φ6, φ7, φ8, φ9, φ10, φ11, φ12, φ13, φ14, true, φ16, φ17, φ18, φ19⟩ z0 (execLawSend buf s) := by
  unfold execLawSend
  apply Kept.next
  apply lawStep_keeps
  · intro _ _ k1
    exact setRun_keeps k1
  · exact hz

theorem execSkipif_keeps {src cond n : Nat} {s : State} (hz : Keeps ⟨φ0, φ1, φ2, φ3, φ4, φ5, φ6, φ7, φ8, φ9, φ10, φ11, φ12, φ13, φ14, true, φ16, φ17, φ18, φ19⟩ z0 s) : Kept ⟨φ0, φ1, φ2, φ3, φ4, φ5, φ6, φ7, φ8, φ9, φ10, φ11, φ12, φ13, φ14, true, φ16, φ17, φ18, φ19⟩ z0 (execSkipif src cond n s) := by
  unfold execSkipif
  apply Kept.next
  apply lawStep_keeps
  · intro _ _ k1
    extract_lets +onlyGivenNames v_2 hit_3
    exact setRun_keeps k1
  · exact hz

theorem capTime_keeps {s : State} (hz : Keeps ⟨φ0, φ1, φ2, φ3, φ4, φ5, φ6, φ7, φ8, φ9, φ10, φ11, φ12, φ13, φ14, φ15, φ16, φ17, φ18, φ19⟩ z0 s) : Keeps ⟨φ0, φ1, φ2, φ3, φ4, φ5, φ6, φ7, φ8, φ9, φ10, φ11, φ12, φ13, φ14, φ15, φ16, φ17, φ18, φ19⟩ z0 (capTime s) := by
  unfold capTime
  split
  · exact wrCtr_keeps hz
  · exact wrCtr_keeps hz

theorem capRecord_keeps {r : TrRun} {s : State} (hz : Keeps ⟨φ0, φ1, φ2, φ3, φ4, φ5, φ6, φ7, φ8, φ9, φ10, φ11, φ12, φ13, φ14, true, φ16, φ17, φ18, φ19⟩ z0 s) : Keeps ⟨φ0, φ1, φ2, φ3, φ4, φ5, φ6, φ7, φ8, φ9, φ10, φ11, φ12, φ13, φ14, true, φ16, φ17, φ18, φ19⟩ z0 (capRecord r s) := by
  unfold capRecord
  extract_lets +onlyGivenNames w_1
  split
  · exact hz
  · extract_lets +onlyGivenNames sig_2 rcd_3 l_4 s1_5
    extract_lets +onlyGivenNames s1_6
    have k_s1_6 : Keeps ⟨φ0, φ1, φ2, φ3, φ4, φ5, φ6, φ7, φ8, φ9, φ10, φ11, φ12, φ13, φ14, true, φ16, φ17, φ18, φ19⟩ z0 s1_6 := by
      subst s1_6
      apply capTime_keeps
      exact Keeps.of hz rfl
    clear_value s1_6
    split
    · exact wrField_keeps k_s1_6
    · exact k_s1_6

theorem execLawEnd_keeps {s : State} (hz : Keeps ⟨φ0, φ1, φ2, φ3, φ4, φ5, φ6, φ7, φ8, φ9, φ10, φ11, φ12, φ13, φ14, true, φ16, true, φ18, φ19⟩ z0 s) : Kept ⟨φ0, φ1, φ2, φ3, φ4, φ5, φ6, φ7, φ8, φ9, φ10, φ11, φ12, φ13, φ14, true, φ16, true, φ18, φ19⟩ z0 (execLawEnd s) := by
  unfold execLawEnd
  apply Kept.next
  apply lawStep_keeps
  · intro _ _ k1
    extract_lets +onlyGivenNames s1_2 s2_3
    have k_s1_2 : Keeps ⟨φ0, φ1, φ2, φ3, φ4, φ5, φ6, φ7, φ8, φ9, φ10, φ11, φ12, φ13, φ14, true, φ16, true, φ18, φ19⟩ z0 s1_2 := capRecord_keeps k1
    clear_value s1_2
    extract_lets +onlyGivenNames s2_4
    have k_s2_4 : Keeps ⟨φ0, φ1, φ2, φ3, φ4, φ5, φ6, φ7, φ8, φ9, φ10, φ11, φ12, φ13, φ14, true, φ16, true, φ18, φ19⟩ z0 s2_4 := by
      subst s2_4
      apply addCtr_keeps
      exact Keeps.of k_s1_2 rfl
    clear_value s2_4
    apply Keeps.foldl
    · exact k_s2_4
    · intro _ _ k5
      exact trBufSend_keeps k5
  · exact hz

theorem setEntry_keeps {n : Nat} {b : List Byte} {s : State} (hz : Keeps ⟨φ0, φ1, φ2, φ3, φ4, φ5, φ6, φ7, φ8, φ9, φ10, φ11, φ12, φ13, φ14, true, φ16, φ17, φ18, φ19⟩ z0 s) : Keeps ⟨φ0, φ1, φ2, φ3, φ4, φ5, φ6, φ7, φ8, φ9, φ10, φ11, φ12, φ13, φ14, true, φ16, φ17, φ18, φ19⟩ z0 (setEntry n b s) := by
  unfold setEntry
  exact setSlot_keeps hz

theorem slotConfigure_keeps {n : Nat} {s : State} (hz : Keeps ⟨φ0, true, true, φ3, φ4, φ5, φ6, φ7, φ8, true, φ10, φ11, φ12, φ13, φ14, true, true, φ17, φ18, φ19⟩ z0 s) : Keeps ⟨φ0, true, true, φ3, φ4, φ5, φ6, φ7, φ8, true, φ10, φ11, φ12, φ13, φ14, true, true, φ17, φ18, φ19⟩ z0 (slotConfigure n s) := by
  unfold slotConfigure
  extract_lets +onlyGivenNames b_1 k_2
  split
  · exact trRefuse_keeps hz
  · exact setEntry_keeps hz

theorem slotStart_keeps {n : Nat} {s : State} (hz : Keeps ⟨φ0, true, true, φ3, φ4, φ5, φ6, φ7, φ8, true, φ10, φ11, φ12, φ13, φ14, true, true, φ17, φ18, φ19⟩ z0 s) : Keeps ⟨φ0, true, true, φ3, φ4, φ5, φ6, φ7, φ8, true, φ10, φ11, φ12, φ13, φ14, true, true, φ17, φ18, φ19⟩ z0 (slotStart n s) := by
  unfold slotStart
  extract_lets +onlyGivenNames v_1
  split
  · exact hz
  · split
    · exact trRefuse_keeps hz
    · extract_lets +onlyGivenNames l_2
      split
      · exact trRefuse_keeps hz
      · exact setSlot_keeps hz

theorem slotStop_keeps {n : Nat} {s : State} (hz : Keeps ⟨φ0, φ1, φ2, φ3, φ4, φ5, φ6, φ7, φ8, φ9, φ10, φ11, φ12, φ13, φ14, true, φ16, φ17, φ18, φ19⟩ z0 s) : Keeps ⟨φ0, φ1, φ2, φ3, φ4, φ5, φ6, φ7, φ8, φ9, φ10, φ11, φ12, φ13, φ14, true, φ16, φ17, φ18, φ19⟩ z0 (slotStop n s) := by
  unfold slotStop
  extract_lets +onlyGivenNames v_1
  split
  · exact hz
  · extract_lets +onlyGivenNames s1_2 s2_3
    have k_s1_2 : Keeps ⟨φ0, φ1, φ2, φ3, φ4, φ5, φ6, φ7, φ8, φ9, φ10, φ11, φ12, φ13, φ14, true, φ16, φ17, φ18, φ19⟩ z0 s1_2 := setSlot_keeps hz
    clear_value s1_2
    extract_lets +onlyGivenNames s2_4
    have k_s2_4 : Keeps ⟨φ0, φ1, φ2, φ3, φ4, φ5, φ6, φ7, φ8, φ9, φ10, φ11, φ12, φ13, φ14, true, φ16, φ17, φ18, φ19⟩ z0 s2_4 := Keeps.of k_s1_2 rfl
    clear_value s2_4
    split
    · exact wrField_keeps k_s2_4
    · exact k_s2_4

theorem slotResume_keeps {n : Nat} {s : State} (hz : Keeps ⟨φ0, true, true, φ3, φ4, φ5, φ6, φ7, φ8, true, φ10, φ11, φ12, φ13, φ14, true, true, φ17, φ18, φ19⟩ z0 s) : Keeps ⟨φ0, true, true, φ3, φ4, φ5, φ6, φ7, φ8, true, φ10, φ11, φ12, φ13, φ14, true, true, φ17, φ18, φ19⟩ z0 (slotResume n s) := by
  unfold slotResume
  extract_lets +onlyGivenNames v_1
  split
  · exact hz
  · split
    · exact trRefuse_keeps hz
    · exact raise_keeps (setSlot_keeps hz)

theorem wrSlotCmd_keeps {v : Word} {s : State} (hz : Keeps ⟨φ0, true, true, φ3, φ4, φ5, φ6, φ7, φ8, true, φ10, φ11, φ12, φ13, φ14, true, true, φ17, φ18, φ19⟩ z0 s) : Keeps ⟨φ0, true, true, φ3, φ4, φ5, φ6, φ7, φ8, true, φ10, φ11, φ12, φ13, φ14, true, true, φ17, φ18, φ19⟩ z0 (wrSlotCmd v s) := by
  unfold wrSlotCmd
  extract_lets +onlyGivenNames n_1
  split
  · exact slotConfigure_keeps hz
  · exact slotStart_keeps hz
  · exact slotStop_keeps hz
  · exact slotResume_keeps hz
  · exact hz

theorem execSlotConfigure_keeps {r : Req} {s : State} (hz : Keeps ⟨φ0, true, true, φ3, φ4, φ5, φ6, φ7, φ8, true, φ10, φ11, φ12, φ13, φ14, true, true, φ17, φ18, φ19⟩ z0 s) : Kept ⟨φ0, true, true, φ3, φ4, φ5, φ6, φ7, φ8, true, φ10, φ11, φ12, φ13, φ14, true, true, φ17, φ18, φ19⟩ z0 (execSlotConfigure r s) := by
  unfold execSlotConfigure
  apply Kept.next
  apply onReg_keeps
  · intro _ k1
    exact wrSlotCmd_keeps k1
  · exact hz

theorem execSlotStart_keeps {r : Req} {s : State} (hz : Keeps ⟨φ0, true, true, φ3, φ4, φ5, φ6, φ7, φ8, true, φ10, φ11, φ12, φ13, φ14, true, true, φ17, φ18, φ19⟩ z0 s) : Kept ⟨φ0, true, true, φ3, φ4, φ5, φ6, φ7, φ8, true, φ10, φ11, φ12, φ13, φ14, true, true, φ17, φ18, φ19⟩ z0 (execSlotStart r s) := by
  unfold execSlotStart
  apply Kept.next
  apply onReg_keeps
  · intro _ k1
    exact wrSlotCmd_keeps k1
  · exact hz

theorem execSlotStop_keeps {r : Req} {s : State} (hz : Keeps ⟨φ0, true, true, φ3, φ4, φ5, φ6, φ7, φ8, true, φ10, φ11, φ12, φ13, φ14, true, true, φ17, φ18, φ19⟩ z0 s) : Kept ⟨φ0, true, true, φ3, φ4, φ5, φ6, φ7, φ8, true, φ10, φ11, φ12, φ13, φ14, true, true, φ17, φ18, φ19⟩ z0 (execSlotStop r s) := by
  unfold execSlotStop
  apply Kept.next
  apply onReg_keeps
  · intro _ k1
    exact wrSlotCmd_keeps k1
  · exact hz

theorem execSlotResume_keeps {r : Req} {s : State} (hz : Keeps ⟨φ0, true, true, φ3, φ4, φ5, φ6, φ7, φ8, true, φ10, φ11, φ12, φ13, φ14, true, true, φ17, φ18, φ19⟩ z0 s) : Kept ⟨φ0, true, true, φ3, φ4, φ5, φ6, φ7, φ8, true, φ10, φ11, φ12, φ13, φ14, true, true, φ17, φ18, φ19⟩ z0 (execSlotResume r s) := by
  unfold execSlotResume
  apply Kept.next
  apply onReg_keeps
  · intro _ k1
    exact wrSlotCmd_keeps k1
  · exact hz

theorem wrLawData_keeps {v : Word} {s : State} (hz : Keeps ⟨φ0, true, true, φ3, φ4, φ5, φ6, φ7, φ8, true, φ10, φ11, φ12, φ13, φ14, true, true, φ17, φ18, φ19⟩ z0 s) : Keeps ⟨φ0, true, true, φ3, φ4, φ5, φ6, φ7, φ8, true, φ10, φ11, φ12, φ13, φ14, true, true, φ17, φ18, φ19⟩ z0 (wrLawData v s) := by
  unfold wrLawData
  extract_lets +onlyGivenNames k_1
  split
  · exact trRefuse_keeps hz
  · apply wrField_keeps
    exact Keeps.of hz rfl

theorem execLawDataWrite_keeps {r : Req} {v : Nat} {s : State} (hz : Keeps ⟨φ0, true, true, φ3, φ4, φ5, φ6, φ7, φ8, true, φ10, φ11, φ12, φ13, φ14, true, true, φ17, φ18, φ19⟩ z0 s) : Kept ⟨φ0, true, true, φ3, φ4, φ5, φ6, φ7, φ8, true, φ10, φ11, φ12, φ13, φ14, true, true, φ17, φ18, φ19⟩ z0 (execLawDataWrite r v s) := by
  unfold execLawDataWrite
  apply Kept.next
  apply onReg_keeps
  · intro _ k1
    exact wrLawData_keeps k1
  · exact hz

theorem wrCoefValue_keeps {r : Req} {v : Word} {s : State} (hz : Keeps ⟨φ0, φ1, φ2, φ3, φ4, φ5, φ6, φ7, φ8, φ9, φ10, φ11, φ12, φ13, φ14, true, φ16, φ17, φ18, φ19⟩ z0 s) : Keeps ⟨φ0, φ1, φ2, φ3, φ4, φ5, φ6, φ7, φ8, φ9, φ10, φ11, φ12, φ13, φ14, true, φ16, φ17, φ18, φ19⟩ z0 (wrCoefValue r v s) := by
  unfold wrCoefValue
  exact Keeps.of hz rfl

theorem wrCoefWrite_keeps {r : Req} {v : Word} {s : State} (hz : Keeps ⟨φ0, true, true, φ3, φ4, φ5, φ6, φ7, φ8, true, φ10, φ11, φ12, φ13, φ14, true, true, φ17, φ18, φ19⟩ z0 s) : Keeps ⟨φ0, true, true, φ3, φ4, φ5, φ6, φ7, φ8, true, φ10, φ11, φ12, φ13, φ14, true, true, φ17, φ18, φ19⟩ z0 (wrCoefWrite r v s) := by
  unfold wrCoefWrite
  extract_lets +onlyGivenNames bank_1 want_2
  split
  · exact trRefuse_keeps hz
  · extract_lets +onlyGivenNames w_3
    apply wrField_keeps
    exact Keeps.of hz rfl

theorem execCoefWrite_keeps {r : Req} {v : Nat} {s : State} (hz : Keeps ⟨φ0, true, true, φ3, φ4, φ5, φ6, φ7, φ8, true, φ10, φ11, φ12, φ13, φ14, true, true, φ17, φ18, φ19⟩ z0 s) : Kept ⟨φ0, true, true, φ3, φ4, φ5, φ6, φ7, φ8, true, φ10, φ11, φ12, φ13, φ14, true, true, φ17, φ18, φ19⟩ z0 (execCoefWrite r v s) := by
  unfold execCoefWrite
  apply Kept.next
  apply onReg_keeps
  · intro _ k1
    exact wrCoefWrite_keeps k1
  · exact hz

theorem wrCoefBank_keeps {v : Word} {s : State} (hz : Keeps ⟨φ0, true, true, φ3, φ4, φ5, φ6, φ7, φ8, true, φ10, φ11, φ12, φ13, φ14, φ15, true, φ17, φ18, φ19⟩ z0 s) : Keeps ⟨φ0, true, true, φ3, φ4, φ5, φ6, φ7, φ8, true, φ10, φ11, φ12, φ13, φ14, φ15, true, φ17, φ18, φ19⟩ z0 (wrCoefBank v s) := by
  unfold wrCoefBank
  extract_lets +onlyGivenNames stopped_1 swap_2
  split
  · exact trRefuse_keeps hz
  · extract_lets +onlyGivenNames s1_3
    have k_s1_3 : Keeps ⟨φ0, true, true, φ3, φ4, φ5, φ6, φ7, φ8, true, φ10, φ11, φ12, φ13, φ14, φ15, true, φ17, φ18, φ19⟩ z0 s1_3 := wrField_keeps (wrField_keeps hz)
    clear_value s1_3
    split
    · exact k_s1_3
    · split
      · exact bankSwap_keeps k_s1_3
      · exact wrField_keeps k_s1_3

theorem execBankSwap_keeps {r : Req} {slot : Nat} {s : State} (hz : Keeps ⟨φ0, true, true, φ3, φ4, φ5, φ6, φ7, φ8, true, φ10, φ11, φ12, φ13, φ14, φ15, true, φ17, φ18, φ19⟩ z0 s) : Kept ⟨φ0, true, true, φ3, φ4, φ5, φ6, φ7, φ8, true, φ10, φ11, φ12, φ13, φ14, φ15, true, φ17, φ18, φ19⟩ z0 (execBankSwap r slot s) := by
  unfold execBankSwap
  apply Kept.next
  apply onReg_keeps
  · intro _ k1
    exact wrCoefBank_keeps k1
  · exact hz

theorem execCoefCopyDone_keeps {s : State} (hz : Keeps ⟨φ0, φ1, φ2, φ3, φ4, φ5, φ6, φ7, φ8, φ9, φ10, φ11, φ12, φ13, φ14, true, φ16, φ17, φ18, φ19⟩ z0 s) : Kept ⟨φ0, φ1, φ2, φ3, φ4, φ5, φ6, φ7, φ8, φ9, φ10, φ11, φ12, φ13, φ14, true, φ16, φ17, φ18, φ19⟩ z0 (execCoefCopyDone s) := by
  unfold execCoefCopyDone
  apply Kept.next
  split
  · exact hz
  · extract_lets +onlyGivenNames a_1 from__2 l_3
    apply wrField_keeps
    exact Keeps.of hz rfl

theorem wrSpCommit_keeps {v : Word} {s : State} (hz : Keeps ⟨φ0, φ1, φ2, φ3, φ4, φ5, φ6, φ7, φ8, φ9, φ10, φ11, φ12, φ13, φ14, true, φ16, φ17, φ18, φ19⟩ z0 s) : Keeps ⟨φ0, φ1, φ2, φ3, φ4, φ5, φ6, φ7, φ8, φ9, φ10, φ11, φ12, φ13, φ14, true, φ16, φ17, φ18, φ19⟩ z0 (wrSpCommit v s) := by
  unfold wrSpCommit
  exact spCommit_keeps hz

theorem execSpCommit_keeps {r : Req} {v : Nat} {s : State} (hz : Keeps ⟨φ0, true, true, φ3, φ4, φ5, φ6, φ7, φ8, true, φ10, φ11, φ12, φ13, φ14, true, true, φ17, φ18, φ19⟩ z0 s) : Kept ⟨φ0, true, true, φ3, φ4, φ5, φ6, φ7, φ8, true, φ10, φ11, φ12, φ13, φ14, true, true, φ17, φ18, φ19⟩ z0 (execSpCommit r v s) := by
  unfold execSpCommit
  apply Kept.next
  apply onReg_keeps
  · intro _ k1
    exact wrSpCommit_keeps k1
  · exact hz

theorem wrTestCtrl_keeps {r : Req} {v : Word} {s : State} (hz : Keeps ⟨φ0, φ1, φ2, φ3, φ4, φ5, φ6, φ7, φ8, φ9, φ10, φ11, φ12, φ13, φ14, true, φ16, φ17, φ18, φ19⟩ z0 s) : Keeps ⟨φ0, φ1, φ2, φ3, φ4, φ5, φ6, φ7, φ8, φ9, φ10, φ11, φ12, φ13, φ14, true, φ16, φ17, φ18, φ19⟩ z0 (wrTestCtrl r v s) := by
  unfold wrTestCtrl
  extract_lets +onlyGivenNames old_1 w_2 s1_3
  have k_s1_3 : Keeps ⟨φ0, φ1, φ2, φ3, φ4, φ5, φ6, φ7, φ8, φ9, φ10, φ11, φ12, φ13, φ14, true, φ16, φ17, φ18, φ19⟩ z0 s1_3 := wrReg_keeps hz
  clear_value s1_3
  split
  · exact Keeps.of k_s1_3 rfl
  · exact k_s1_3

theorem execTestGenerator_keeps {r : Req} {v : Nat} {s : State} (hz : Keeps ⟨φ0, true, true, φ3, φ4, φ5, φ6, φ7, φ8, true, φ10, φ11, φ12, φ13, φ14, true, true, φ17, φ18, φ19⟩ z0 s) : Kept ⟨φ0, true, true, φ3, φ4, φ5, φ6, φ7, φ8, true, φ10, φ11, φ12, φ13, φ14, true, true, φ17, φ18, φ19⟩ z0 (execTestGenerator r v s) := by
  unfold execTestGenerator
  apply Kept.next
  apply onReg_keeps
  · intro _ k1
    exact wrTestCtrl_keeps k1
  · exact hz

theorem wrCapCtrl_keeps {v : Word} {s : State} (hz : Keeps ⟨φ0, φ1, φ2, φ3, φ4, φ5, φ6, φ7, φ8, φ9, φ10, φ11, φ12, φ13, φ14, true, φ16, φ17, φ18, φ19⟩ z0 s) : Keeps ⟨φ0, φ1, φ2, φ3, φ4, φ5, φ6, φ7, φ8, φ9, φ10, φ11, φ12, φ13, φ14, true, φ16, φ17, φ18, φ19⟩ z0 (wrCapCtrl v s) := by
  unfold wrCapCtrl
  extract_lets +onlyGivenNames on_1 s1_2
  have k_s1_2 : Keeps ⟨φ0, φ1, φ2, φ3, φ4, φ5, φ6, φ7, φ8, φ9, φ10, φ11, φ12, φ13, φ14, true, φ16, φ17, φ18, φ19⟩ z0 s1_2 := plainWrite_keeps hz
  clear_value s1_2
  split
  · apply capTime_keeps
    exact Keeps.of k_s1_2 rfl
  · exact k_s1_2

theorem capAdvance_keeps {s : State} (hz : Keeps ⟨φ0, φ1, φ2, φ3, φ4, φ5, φ6, φ7, φ8, φ9, φ10, φ11, φ12, φ13, φ14, true, φ16, φ17, φ18, φ19⟩ z0 s) : Keeps ⟨φ0, φ1, φ2, φ3, φ4, φ5, φ6, φ7, φ8, φ9, φ10, φ11, φ12, φ13, φ14, true, φ16, φ17, φ18, φ19⟩ z0 (capAdvance s) := by
  unfold capAdvance
  split
  · exact hz
  · exact Keeps.of hz rfl

theorem execCaptureRead_keeps {r : Req} {s : State} (hz : Keeps ⟨φ0, true, true, φ3, φ4, φ5, φ6, φ7, φ8, true, φ10, φ11, φ12, φ13, φ14, true, true, φ17, φ18, φ19⟩ z0 s) : Kept ⟨φ0, true, true, φ3, φ4, φ5, φ6, φ7, φ8, true, φ10, φ11, φ12, φ13, φ14, true, true, φ17, φ18, φ19⟩ z0 (execCaptureRead r s) := by
  unfold execCaptureRead
  apply Kept.next
  extract_lets +onlyGivenNames k_1
  have k_k_1 : Keeps ⟨φ0, true, true, φ3, φ4, φ5, φ6, φ7, φ8, true, φ10, φ11, φ12, φ13, φ14, true, true, φ17, φ18, φ19⟩ z0 k_1.2 := regAt_keeps hz
  clear_value k_1
  split
  · exact k_k_1
  · exact capAdvance_keeps k_k_1

theorem tioRefuse_keeps {value n : Nat} {s : State} (hz : Keeps ⟨φ0, true, true, φ3, φ4, φ5, φ6, φ7, φ8, true, φ10, φ11, φ12, φ13, φ14, φ15, true, φ17, φ18, φ19⟩ z0 s) : Keeps ⟨φ0, true, true, φ3, φ4, φ5, φ6, φ7, φ8, true, φ10, φ11, φ12, φ13, φ14, φ15, true, φ17, φ18, φ19⟩ z0 (tioRefuse value n s) := by
  unfold tioRefuse
  exact raise_keeps hz

theorem encConfigure_keeps {n : Nat} {s : State} (hz : Keeps ⟨φ0, true, true, φ3, φ4, φ5, φ6, φ7, φ8, true, φ10, φ11, φ12, φ13, φ14, φ15, true, φ17, φ18, φ19⟩ z0 s) : Keeps ⟨φ0, true, true, φ3, φ4, φ5, φ6, φ7, φ8, true, φ10, φ11, φ12, φ13, φ14, φ15, true, φ17, φ18, φ19⟩ z0 (encConfigure n s) := by
  unfold encConfigure
  extract_lets +onlyGivenNames b_1
  split
  · exact tioRefuse_keeps hz
  · extract_lets +onlyGivenNames c_2 e_3
    extract_lets +onlyGivenNames e_4
    exact setEnc_keeps hz

theorem encRevalidate_keeps {n : Nat} {s : State} (hz : Keeps ⟨φ0, true, true, φ3, φ4, φ5, φ6, φ7, φ8, true, φ10, φ11, φ12, φ13, φ14, φ15, true, φ17, φ18, φ19⟩ z0 s) : Keeps ⟨φ0, true, true, φ3, φ4, φ5, φ6, φ7, φ8, true, φ10, φ11, φ12, φ13, φ14, φ15, true, φ17, φ18, φ19⟩ z0 (encRevalidate n s) := by
  unfold encRevalidate
  extract_lets +onlyGivenNames e_1
  split
  · exact hz
  · extract_lets +onlyGivenNames s1_2
    have k_s1_2 : Keeps ⟨φ0, true, true, φ3, φ4, φ5, φ6, φ7, φ8, true, φ10, φ11, φ12, φ13, φ14, φ15, true, φ17, φ18, φ19⟩ z0 s1_2 := setEnc_keeps hz
    clear_value s1_2
    split
    · exact k_s1_2
    · exact raise_keeps k_s1_2

theorem wrEncCmd_keeps {v : Word} {s : State} (hz : Keeps ⟨φ0, true, true, φ3, φ4, φ5, φ6, φ7, φ8, true, φ10, φ11, φ12, φ13, φ14, φ15, true, φ17, φ18, φ19⟩ z0 s) : Keeps ⟨φ0, true, true, φ3, φ4, φ5, φ6, φ7, φ8, true, φ10, φ11, φ12, φ13, φ14, φ15, true, φ17, φ18, φ19⟩ z0 (wrEncCmd v s) := by
  unfold wrEncCmd
  extract_lets +onlyGivenNames n_1
  split
  · exact encConfigure_keeps hz
  · exact encRevalidate_keeps hz
  · exact hz

theorem execEncConfigure_keeps {r : Req} {s : State} (hz : Keeps ⟨φ0, true, true, φ3, φ4, φ5, φ6, φ7, φ8, true, φ10, φ11, φ12, φ13, φ14, φ15, true, φ17, φ18, φ19⟩ z0 s) : Kept ⟨φ0, true, true, φ3, φ4, φ5, φ6, φ7, φ8, true, φ10, φ11, φ12, φ13, φ14, φ15, true, φ17, φ18, φ19⟩ z0 (execEncConfigure r s) := by
  unfold execEncConfigure
  apply Kept.next
  apply onReg_keeps
  · intro _ k1
    exact wrEncCmd_keeps k1
  · exact hz

theorem execEncRevalidate_keeps {r : Req} {s : State} (hz : Keeps ⟨φ0, true, true, φ3, φ4, φ5, φ6, φ7, φ8, true, φ10, φ11, φ12, φ13, φ14, φ15, true, φ17, φ18, φ19⟩ z0 s) : Kept ⟨φ0, true, true, φ3, φ4, φ5, φ6, φ7, φ8, true, φ10, φ11, φ12, φ13, φ14, φ15, true, φ17, φ18, φ19⟩ z0 (execEncRevalidate r s) := by
  unfold execEncRevalidate
  apply Kept.next
  apply onReg_keeps
  · intro _ k1
    exact wrEncCmd_keeps k1
  · exact hz

theorem encInvalid_keeps {n cause : Nat} {inj : Bool} {s : State} (hz : Keeps ⟨φ0, true, true, φ3, φ4, φ5, φ6, φ7, φ8, true, φ10, φ11, φ12, φ13, φ14, φ15, true, φ17, φ18, φ19⟩ z0 s) : Keeps ⟨φ0, true, true, φ3, φ4, φ5, φ6, φ7, φ8, true, φ10, φ11, φ12, φ13, φ14, φ15, true, φ17, φ18, φ19⟩ z0 (encInvalid n cause inj s) := by
  unfold encInvalid
  extract_lets +onlyGivenNames e_1
  split
  · split
    · exact setEnc_keeps hz
    · exact hz
  · exact raise_keeps (setEnc_keeps hz)

theorem encMove_keeps {n pos : Nat} {s : State} (hz : Keeps ⟨φ0, true, true, φ3, φ4, φ5, φ6, φ7, φ8, true, φ10, φ11, φ12, φ13, φ14, true, true, φ17, φ18, φ19⟩ z0 s) : Keeps ⟨φ0, true, true, φ3, φ4, φ5, φ6, φ7, φ8, true, φ10, φ11, φ12, φ13, φ14, true, true, φ17, φ18, φ19⟩ z0 (encMove n pos s) := by
  unfold encMove
  extract_lets +onlyGivenNames e_1 hit_2 s1_3
  have k_s1_3 : Keeps ⟨φ0, true, true, φ3, φ4, φ5, φ6, φ7, φ8, true, φ10, φ11, φ12, φ13, φ14, true, true, φ17, φ18, φ19⟩ z0 s1_3 := setEnc_keeps hz
  clear_value s1_3
  split
  · exact fireSlots_keeps k_s1_3
  · exact k_s1_3

theorem encQuad_keeps {n : Nat} {a b z : Bool} {s : State} (hz : Keeps ⟨φ0, true, true, φ3, φ4, φ5, φ6, φ7, φ8, true, φ10, φ11, φ12, φ13, φ14, true, true, φ17, φ18, φ19⟩ z0 s) : Keeps ⟨φ0, true, true, φ3, φ4, φ5, φ6, φ7, φ8, true, φ10, φ11, φ12, φ13, φ14, true, true, φ17, φ18, φ19⟩ z0 (encQuad n a b z s) := by
  unfold encQuad
  extract_lets +onlyGivenNames e_1 now_2 first_3 o_4 s1_5 s2_6
  have k_s1_5 : Keeps ⟨φ0, true, true, φ3, φ4, φ5, φ6, φ7, φ8, true, φ10, φ11, φ12, φ13, φ14, true, true, φ17, φ18, φ19⟩ z0 s1_5 := setEnc_keeps hz
  clear_value s1_5
  extract_lets +onlyGivenNames s2_7
  extract_lets +onlyGivenNames s2_8
  extract_lets +onlyGivenNames s2_9
  extract_lets +onlyGivenNames s2_10
  extract_lets +onlyGivenNames s2_11
  extract_lets +onlyGivenNames s2_12
  have k_s2_12 : Keeps ⟨φ0, true, true, φ3, φ4, φ5, φ6, φ7, φ8, true, φ10, φ11, φ12, φ13, φ14, true, true, φ17, φ18, φ19⟩ z0 s2_12 := setEnc_keeps k_s1_5
  clear_value s2_12
  extract_lets +onlyGivenNames s2_13
  have k_s2_13 : Keeps ⟨φ0, true, true, φ3, φ4, φ5, φ6, φ7, φ8, true, φ10, φ11, φ12, φ13, φ14, true, true, φ17, φ18, φ19⟩ z0 s2_13 := encMove_keeps k_s2_12
  clear_value s2_13
  extract_lets +onlyGivenNames s2_14
  have k_s2_14 : Keeps ⟨φ0, true, true, φ3, φ4, φ5, φ6, φ7, φ8, true, φ10, φ11, φ12, φ13, φ14, true, true, φ17, φ18, φ19⟩ z0 s2_14 := by
    subst s2_14
    split
    · exact encInvalid_keeps k_s1_5
    · split
      · exact k_s1_5
      · split
        · exact encInvalid_keeps k_s2_13
        · exact k_s2_13
  clear_value s2_14
  split
  · extract_lets +onlyGivenNames e2_15 s5_16
    have k_s5_16 : Keeps ⟨φ0, true, true, φ3, φ4, φ5, φ6, φ7, φ8, true, φ10, φ11, φ12, φ13, φ14, true, true, φ17, φ18, φ19⟩ z0 s5_16 := by
      subst s5_16
      split
      · exact setEnc_keeps k_s2_14
      · exact k_s2_14
    clear_value s5_16
    exact fireSlots_keeps k_s5_16
  · exact k_s2_14

theorem encSerial_keeps {n data : Nat} {par start : Bool} {s : State} (hz : Keeps ⟨φ0, true, true, φ3, φ4, φ5, φ6, φ7, φ8, true, φ10, φ11, φ12, φ13, φ14, true, true, φ17, φ18, φ19⟩ z0 s) : Keeps ⟨φ0, true, true, φ3, φ4, φ5, φ6, φ7, φ8, true, φ10, φ11, φ12, φ13, φ14, true, true, φ17, φ18, φ19⟩ z0 (encSerial n data par start s) := by
  unfold encSerial
  extract_lets +onlyGivenNames e_1 bits_2 d_3
  split
  · exact encInvalid_keeps hz
  · split
    · exact encInvalid_keeps hz
    · extract_lets +onlyGivenNames v_4 pos_5 s1_6 s2_7
      have k_s1_6 : Keeps ⟨φ0, true, true, φ3, φ4, φ5, φ6, φ7, φ8, true, φ10, φ11, φ12, φ13, φ14, true, true, φ17, φ18, φ19⟩ z0 s1_6 := setEnc_keeps hz
      have k_s2_7 : Keeps ⟨φ0, true, true, φ3, φ4, φ5, φ6, φ7, φ8, true, φ10, φ11, φ12, φ13, φ14, true, true, φ17, φ18, φ19⟩ z0 s2_7 := encMove_keeps k_s1_6
      clear_value s1_6 s2_7
      split
      · exact k_s2_7
      · exact raise_keeps k_s2_7

theorem execEncSample_keeps {n : Nat} {x : EncIn} {s : State} (hz : Keeps ⟨φ0, true, true, φ3, φ4, φ5, φ6, φ7, φ8, true, φ10, φ11, φ12, φ13, φ14, true, true, φ17, φ18, φ19⟩ z0 s) : Kept ⟨φ0, true, true, φ3, φ4, φ5, φ6, φ7, φ8, true, φ10, φ11, φ12, φ13, φ14, true, true, φ17, φ18, φ19⟩ z0 (execEncSample n x s) := by
  unfold execEncSample
  apply Kept.next
  extract_lets +onlyGivenNames e_1
  split
  · exact hz
  · split
    · split
      · exact hz
      · split
        · exact encInvalid_keeps (disarm_keeps hz)
        · exact encQuad_keeps hz
    · split
      · exact hz
      · split
        · exact encInvalid_keeps (disarm_keeps hz)
        · exact encSerial_keeps hz

theorem dinRecovered_keeps {n : Nat} {stuck : Bool} {s : State} (hz : Keeps ⟨φ0, true, true, φ3, φ4, φ5, φ6, φ7, φ8, true, φ10, φ11, φ12, φ13, φ14, φ15, true, φ17, φ18, φ19⟩ z0 s) : Keeps ⟨φ0, true, true, φ3, φ4, φ5, φ6, φ7, φ8, true, φ10, φ11, φ12, φ13, φ14, φ15, true, φ17, φ18, φ19⟩ z0 (dinRecovered n stuck s) := by
  unfold dinRecovered
  exact raise_keeps hz

theorem dinSet_keeps {n : Nat} {lvl : Bool} {s : State} (hz : Keeps ⟨φ0, true, true, φ3, φ4, φ5, φ6, φ7, φ8, true, φ10, φ11, φ12, φ13, φ14, true, true, φ17, φ18, φ19⟩ z0 s) : Keeps ⟨φ0, true, true, φ3, φ4, φ5, φ6, φ7, φ8, true, φ10, φ11, φ12, φ13, φ14, true, true, φ17, φ18, φ19⟩ z0 (dinSet n lvl s) := by
  unfold dinSet
  extract_lets +onlyGivenNames d_1
  split
  · exact hz
  · extract_lets +onlyGivenNames d1_2 d2_3 s1_4 s2_5
    have k_s1_4 : Keeps ⟨φ0, true, true, φ3, φ4, φ5, φ6, φ7, φ8, true, φ10, φ11, φ12, φ13, φ14, true, true, φ17, φ18, φ19⟩ z0 s1_4 := setDin_keeps hz
    have k_s2_5 : Keeps ⟨φ0, true, true, φ3, φ4, φ5, φ6, φ7, φ8, true, φ10, φ11, φ12, φ13, φ14, true, true, φ17, φ18, φ19⟩ z0 s2_5 := by
      subst s2_5
      split
      · exact dinRecovered_keeps k_s1_4
      · exact k_s1_4
    clear_value s1_4 s2_5
    split
    · exact fireSlots_keeps k_s2_5
    · exact k_s2_5

theorem dinFast_keeps {n : Nat} {inj : Bool} {s : State} (hz : Keeps ⟨φ0, true, true, φ3, φ4, φ5, φ6, φ7, φ8, true, φ10, φ11, φ12, φ13, φ14, φ15, true, φ17, φ18, φ19⟩ z0 s) : Keeps ⟨φ0, true, true, φ3, φ4, φ5, φ6, φ7, φ8, true, φ10, φ11, φ12, φ13, φ14, φ15, true, φ17, φ18, φ19⟩ z0 (dinFast n inj s) := by
  unfold dinFast
  extract_lets +onlyGivenNames d_1
  split
  · exact hz
  · exact raise_keeps (setDin_keeps hz)

theorem dinStuck_keeps {n us : Nat} {inj : Bool} {s : State} (hz : Keeps ⟨φ0, true, true, φ3, φ4, φ5, φ6, φ7, φ8, true, φ10, φ11, φ12, φ13, φ14, φ15, true, φ17, φ18, φ19⟩ z0 s) : Keeps ⟨φ0, true, true, φ3, φ4, φ5, φ6, φ7, φ8, true, φ10, φ11, φ12, φ13, φ14, φ15, true, φ17, φ18, φ19⟩ z0 (dinStuck n us inj s) := by
  unfold dinStuck
  extract_lets +onlyGivenNames d_1
  split
  · exact hz
  · exact raise_keeps (setDin_keeps hz)

theorem dinSettle_keeps {n : Nat} {s : State} (hz : Keeps ⟨φ0, true, true, φ3, φ4, φ5, φ6, φ7, φ8, true, φ10, φ11, φ12, φ13, φ14, true, true, φ17, φ18, φ19⟩ z0 s) : Keeps ⟨φ0, true, true, φ3, φ4, φ5, φ6, φ7, φ8, true, φ10, φ11, φ12, φ13, φ14, true, true, φ17, φ18, φ19⟩ z0 (dinSettle n s) := by
  unfold dinSettle
  extract_lets +onlyGivenNames d_1
  split
  · split
    · exact dinSet_keeps (dinRecovered_keeps (setDin_keeps hz))
    · exact hz
  · split
    · exact dinSet_keeps hz
    · exact hz

theorem dinInject_keeps {n : Nat} {s : State} (hz : Keeps ⟨φ0, true, true, φ3, φ4, φ5, φ6, φ7, φ8, true, φ10, φ11, φ12, φ13, φ14, φ15, true, φ17, φ18, φ19⟩ z0 s) : Keeps ⟨φ0, true, true, φ3, φ4, φ5, φ6, φ7, φ8, true, φ10, φ11, φ12, φ13, φ14, φ15, true, φ17, φ18, φ19⟩ z0 (dinInject n s) := by
  unfold dinInject
  extract_lets +onlyGivenNames s1_1
  have k_s1_1 : Keeps ⟨φ0, true, true, φ3, φ4, φ5, φ6, φ7, φ8, true, φ10, φ11, φ12, φ13, φ14, φ15, true, φ17, φ18, φ19⟩ z0 s1_1 := by
    subst s1_1
    split
    · exact dinFast_keeps (disarm_keeps hz)
    · exact hz
  clear_value s1_1
  split
  · extract_lets +onlyGivenNames d_2
    exact dinStuck_keeps (disarm_keeps k_s1_1)
  · exact k_s1_1

theorem execDinEdge_keeps {n : Nat} {s : State} (hz : Keeps ⟨φ0, true, true, φ3, φ4, φ5, φ6, φ7, φ8, true, φ10, φ11, φ12, φ13, φ14, true, true, φ17, φ18, φ19⟩ z0 s) : Kept ⟨φ0, true, true, φ3, φ4, φ5, φ6, φ7, φ8, true, φ10, φ11, φ12, φ13, φ14, true, true, φ17, φ18, φ19⟩ z0 (execDinEdge n s) := by
  unfold execDinEdge
  apply Kept.next
  split
  · exact hz
  · extract_lets +onlyGivenNames s1_1 d_2 short_3 s2_4
    have k_s1_1 : Keeps ⟨φ0, true, true, φ3, φ4, φ5, φ6, φ7, φ8, true, φ10, φ11, φ12, φ13, φ14, true, true, φ17, φ18, φ19⟩ z0 s1_1 := dinInject_keeps (dinSettle_keeps hz)
    have k_s2_4 : Keeps ⟨φ0, true, true, φ3, φ4, φ5, φ6, φ7, φ8, true, φ10, φ11, φ12, φ13, φ14, true, true, φ17, φ18, φ19⟩ z0 s2_4 := setDin_keeps k_s1_1
    clear_value s1_1 s2_4
    split
    · exact dinFast_keeps k_s2_4
    · exact k_s2_4

theorem execDinLevelStable_keeps {n : Nat} {s : State} (hz : Keeps ⟨φ0, true, true, φ3, true, φ5, φ6, φ7, φ8, true, φ10, φ11, φ12, φ13, φ14, true, true, φ17, φ18, φ19⟩ z0 s) : Kept ⟨φ0, true, true, φ3, true, φ5, φ6, φ7, φ8, true, φ10, φ11, φ12, φ13, φ14, true, true, φ17, φ18, φ19⟩ z0 (execDinLevelStable n s) := by
  unfold execDinLevelStable
  apply Kept.next
  extract_lets +onlyGivenNames d_1
  split
  · exact hz
  · split
    · exact dinSettle_keeps (advanceTo_keeps hz)
    · split
      · exact dinSettle_keeps (advanceTo_keeps hz)
      · exact hz

theorem execDinStuck_keeps {n : Nat} {s : State} (hz : Keeps ⟨φ0, true, true, φ3, true, φ5, φ6, φ7, φ8, true, φ10, φ11, φ12, φ13, φ14, φ15, true, φ17, φ18, φ19⟩ z0 s) : Kept ⟨φ0, true, true, φ3, true, φ5, φ6, φ7, φ8, true, φ10, φ11, φ12, φ13, φ14, φ15, true, φ17, φ18, φ19⟩ z0 (execDinStuck n s) := by
  unfold execDinStuck
  apply Kept.next
  extract_lets +onlyGivenNames d_1
  split
  · exact hz
  · split
    · exact hz
    · extract_lets +onlyGivenNames s1_2
      have k_s1_2 : Keeps ⟨φ0, true, true, φ3, true, φ5, φ6, φ7, φ8, true, φ10, φ11, φ12, φ13, φ14, φ15, true, φ17, φ18, φ19⟩ z0 s1_2 := advanceTo_keeps hz
      clear_value s1_2
      exact dinStuck_keeps k_s1_2

theorem wrDinCmd_keeps {v : Word} {s : State} (hz : Keeps ⟨φ0, true, true, φ3, φ4, φ5, φ6, φ7, φ8, true, φ10, φ11, φ12, φ13, φ14, φ15, true, φ17, φ18, φ19⟩ z0 s) : Keeps ⟨φ0, true, true, φ3, φ4, φ5, φ6, φ7, φ8, true, φ10, φ11, φ12, φ13, φ14, φ15, true, φ17, φ18, φ19⟩ z0 (wrDinCmd v s) := by
  unfold wrDinCmd
  extract_lets +onlyGivenNames n_1 b_2
  split
  · exact hz
  · split
    · exact tioRefuse_keeps hz
    · extract_lets +onlyGivenNames d_3
      extract_lets +onlyGivenNames d_4
      exact setDin_keeps hz

theorem execDinConfigure_keeps {r : Req} {s : State} (hz : Keeps ⟨φ0, true, true, φ3, φ4, φ5, φ6, φ7, φ8, true, φ10, φ11, φ12, φ13, φ14, φ15, true, φ17, φ18, φ19⟩ z0 s) : Kept ⟨φ0, true, true, φ3, φ4, φ5, φ6, φ7, φ8, true, φ10, φ11, φ12, φ13, φ14, φ15, true, φ17, φ18, φ19⟩ z0 (execDinConfigure r s) := by
  unfold execDinConfigure
  apply Kept.next
  apply onReg_keeps
  · intro _ k1
    exact wrDinCmd_keeps k1
  · exact hz

theorem wrAdcCmd_keeps {v : Word} {s : State} (hz : Keeps ⟨φ0, true, true, φ3, φ4, φ5, φ6, φ7, φ8, true, φ10, φ11, φ12, φ13, φ14, φ15, true, φ17, φ18, φ19⟩ z0 s) : Keeps ⟨φ0, true, true, φ3, φ4, φ5, φ6, φ7, φ8, true, φ10, φ11, φ12, φ13, φ14, φ15, true, φ17, φ18, φ19⟩ z0 (wrAdcCmd v s) := by
  unfold wrAdcCmd
  extract_lets +onlyGivenNames m_1 b_2
  split
  · split
    · exact tioRefuse_keeps hz
    · exact setAdc_keeps hz
  · exact setAdc_keeps hz
  · split
    · exact tioRefuse_keeps hz
    · exact setAdc_keeps hz
  · exact hz

theorem execAdcConfigure_keeps {r : Req} {s : State} (hz : Keeps ⟨φ0, true, true, φ3, φ4, φ5, φ6, φ7, φ8, true, φ10, φ11, φ12, φ13, φ14, φ15, true, φ17, φ18, φ19⟩ z0 s) : Kept ⟨φ0, true, true, φ3, φ4, φ5, φ6, φ7, φ8, true, φ10, φ11, φ12, φ13, φ14, φ15, true, φ17, φ18, φ19⟩ z0 (execAdcConfigure r s) := by
  unfold execAdcConfigure
  apply Kept.next
  apply onReg_keeps
  · intro _ k1
    exact wrAdcCmd_keeps k1
  · exact hz

theorem execAdcStart_keeps {r : Req} {s : State} (hz : Keeps ⟨φ0, true, true, φ3, φ4, φ5, φ6, φ7, φ8, true, φ10, φ11, φ12, φ13, φ14, φ15, true, φ17, φ18, φ19⟩ z0 s) : Kept ⟨φ0, true, true, φ3, φ4, φ5, φ6, φ7, φ8, true, φ10, φ11, φ12, φ13, φ14, φ15, true, φ17, φ18, φ19⟩ z0 (execAdcStart r s) := by
  unfold execAdcStart
  apply Kept.next
  apply onReg_keeps
  · intro _ k1
    exact wrAdcCmd_keeps k1
  · exact hz

theorem execAdcStop_keeps {r : Req} {s : State} (hz : Keeps ⟨φ0, true, true, φ3, φ4, φ5, φ6, φ7, φ8, true, φ10, φ11, φ12, φ13, φ14, φ15, true, φ17, φ18, φ19⟩ z0 s) : Kept ⟨φ0, true, true, φ3, φ4, φ5, φ6, φ7, φ8, true, φ10, φ11, φ12, φ13, φ14, φ15, true, φ17, φ18, φ19⟩ z0 (execAdcStop r s) := by
  unfold execAdcStop
  apply Kept.next
  apply onReg_keeps
  · intro _ k1
    exact wrAdcCmd_keeps k1
  · exact hz

theorem execAdcSequence_keeps {m : Nat} {frames : List Nat} {s : State} (hz : Keeps ⟨φ0, φ1, φ2, φ3, true, φ5, φ6, φ7, φ8, φ9, φ10, φ11, φ12, φ13, φ14, φ15, true, φ17, φ18, φ19⟩ z0 s) : Kept ⟨φ0, φ1, φ2, φ3, true, φ5, φ6, φ7, φ8, φ9, φ10, φ11, φ12, φ13, φ14, φ15, true, φ17, φ18, φ19⟩ z0 (execAdcSequence m frames s) := by
  unfold execAdcSequence
  apply Kept.next
  extract_lets +onlyGivenNames a_1
  split
  · exact hz
  · extract_lets +onlyGivenNames s1_2 n_3 rd_4
    have k_s1_2 : Keeps ⟨φ0, φ1, φ2, φ3, true, φ5, φ6, φ7, φ8, φ9, φ10, φ11, φ12, φ13, φ14, φ15, true, φ17, φ18, φ19⟩ z0 s1_2 := advanceToDev_keeps hz
    clear_value s1_2
    exact setAdc_keeps k_s1_2

theorem wrPwmCmd_keeps {v : Word} {s : State} (hz : Keeps ⟨φ0, true, true, φ3, φ4, φ5, φ6, φ7, φ8, true, φ10, φ11, φ12, φ13, φ14, φ15, true, φ17, φ18, φ19⟩ z0 s) : Keeps ⟨φ0, true, true, φ3, φ4, φ5, φ6, φ7, φ8, true, φ10, φ11, φ12, φ13, φ14, φ15, true, φ17, φ18, φ19⟩ z0 (wrPwmCmd v s) := by
  unfold wrPwmCmd
  extract_lets +onlyGivenNames n_1 op_2 used_3 b_4
  clear_value op_2
  split
  · split
    · exact tioRefuse_keeps hz
    · exact setPwm_keeps hz
  · split
    · exact tioRefuse_keeps hz
    · exact setPwm_keeps hz
  · exact hz

theorem execPwmConfigure_keeps {r : Req} {s : State} (hz : Keeps ⟨φ0, true, true, φ3, φ4, φ5, φ6, φ7, φ8, true, φ10, φ11, φ12, φ13, φ14, φ15, true, φ17, φ18, φ19⟩ z0 s) : Kept ⟨φ0, true, true, φ3, φ4, φ5, φ6, φ7, φ8, true, φ10, φ11, φ12, φ13, φ14, φ15, true, φ17, φ18, φ19⟩ z0 (execPwmConfigure r s) := by
  unfold execPwmConfigure
  apply Kept.next
  apply onReg_keeps
  · intro _ k1
    exact wrPwmCmd_keeps k1
  · exact hz

theorem execPwmRelease_keeps {r : Req} {s : State} (hz : Keeps ⟨φ0, true, true, φ3, φ4, φ5, φ6, φ7, φ8, true, φ10, φ11, φ12, φ13, φ14, φ15, true, φ17, φ18, φ19⟩ z0 s) : Kept ⟨φ0, true, true, φ3, φ4, φ5, φ6, φ7, φ8, true, φ10, φ11, φ12, φ13, φ14, φ15, true, φ17, φ18, φ19⟩ z0 (execPwmRelease r s) := by
  unfold execPwmRelease
  apply Kept.next
  apply onReg_keeps
  · intro _ k1
    exact wrPwmCmd_keeps k1
  · exact hz

theorem execPwmPeriodStart_keeps {n : Nat} {s : State} (hz : Keeps ⟨φ0, true, true, φ3, true, φ5, φ6, φ7, φ8, true, φ10, φ11, φ12, φ13, φ14, true, true, φ17, φ18, φ19⟩ z0 s) : Kept ⟨φ0, true, true, φ3, true, φ5, φ6, φ7, φ8, true, φ10, φ11, φ12, φ13, φ14, true, true, φ17, φ18, φ19⟩ z0 (execPwmPeriodStart n s) := by
  unfold execPwmPeriodStart
  apply Kept.next
  extract_lets +onlyGivenNames p_1
  split
  · exact hz
  · extract_lets +onlyGivenNames s1_2
    have k_s1_2 : Keeps ⟨φ0, true, true, φ3, true, φ5, φ6, φ7, φ8, true, φ10, φ11, φ12, φ13, φ14, true, true, φ17, φ18, φ19⟩ z0 s1_2 := advanceToDev_keeps hz
    clear_value s1_2
    exact fireSlots_keeps (setPwm_keeps k_s1_2)

theorem execStopNAssert_keeps {s : State} (hz : Keeps ⟨φ0, true, true, φ3, φ4, φ5, φ6, φ7, φ8, true, φ10, φ11, φ12, φ13, φ14, φ15, true, φ17, φ18, φ19⟩ z0 s) : Kept ⟨φ0, true, true, φ3, φ4, φ5, φ6, φ7, φ8, true, φ10, φ11, φ12, φ13, φ14, φ15, true, φ17, φ18, φ19⟩ z0 (execStopNAssert s) := by
  unfold execStopNAssert
  apply Kept.next
  apply trip_keeps
  exact Keeps.of hz rfl

theorem execStopNRelease_keeps {s : State} (hz : Keeps ⟨φ0, φ1, φ2, φ3, φ4, φ5, φ6, φ7, φ8, φ9, φ10, φ11, φ12, φ13, φ14, φ15, true, φ17, φ18, φ19⟩ z0 s) : Kept ⟨φ0, φ1, φ2, φ3, φ4, φ5, φ6, φ7, φ8, φ9, φ10, φ11, φ12, φ13, φ14, φ15, true, φ17, φ18, φ19⟩ z0 (execStopNRelease s) := by
  unfold execStopNRelease
  apply Kept.next
  exact Keeps.of hz rfl

end Sys2Proof.Machine
end

