-- ==== Sys2Proof/Laws/KeepsRegs.lean ====
section
/-! SUPPORT. Each operation keeps what Keeps names: register reads and writes, injections, settings. -/

set_option Elab.async false

namespace Sys2Proof.Machine

variable {φ0 φ1 φ2 φ3 φ4 φ5 φ6 φ7 φ8 φ9 φ10 φ11 φ12 φ13 φ14 φ15 φ16 φ17 φ18 φ19 : Bool} {z0 : State}

theorem latchHi_keeps {r : Req} {c i lo : Nat} {s : State} (hz : Keeps ⟨φ0, φ1, φ2, φ3, φ4, φ5, φ6, φ7, φ8, φ9, φ10, φ11, φ12, φ13, φ14, φ15, φ16, φ17, φ18, φ19⟩ z0 s) : Keeps ⟨φ0, φ1, φ2, φ3, φ4, φ5, φ6, φ7, φ8, φ9, φ10, φ11, φ12, φ13, φ14, φ15, φ16, φ17, φ18, φ19⟩ z0 (latchHi r c i lo s) := by
  unfold latchHi
  exact Keeps.of hz rfl

theorem clearRc_keeps {c i off : Nat} {s : State} (hz : Keeps ⟨φ0, φ1, φ2, φ3, φ4, φ5, φ6, φ7, φ8, φ9, φ10, φ11, φ12, φ13, φ14, φ15, φ16, φ17, φ18, φ19⟩ z0 s) : Keeps ⟨φ0, φ1, φ2, φ3, φ4, φ5, φ6, φ7, φ8, φ9, φ10, φ11, φ12, φ13, φ14, φ15, φ16, φ17, φ18, φ19⟩ z0 (clearRc c i off s) := by
  unfold clearRc
  split
  · split
    · exact hz
    · exact wrReg_keeps hz
  · exact hz

theorem regReadEffect_keeps {r : Req} {c i off : Nat} {s : State} (hz : Keeps ⟨φ0, φ1, φ2, φ3, φ4, φ5, φ6, φ7, φ8, true, φ10, φ11, φ12, φ13, φ14, true, φ16, φ17, φ18, φ19⟩ z0 s) : Keeps ⟨φ0, φ1, φ2, φ3, φ4, φ5, φ6, φ7, φ8, true, φ10, φ11, φ12, φ13, φ14, true, φ16, φ17, φ18, φ19⟩ z0 (regReadEffect r c i off s) := by
  unfold regReadEffect
  split
  · exact hz
  · split
    · exact latchHi_keeps hz
    · split
      · exact capAdvance_keeps hz
      · split
        · exact logAdvance_keeps hz
        · exact clearRc_keeps hz

theorem readReg_keeps {r : Req} {addr size : Nat} {s : State} (hz : Keeps ⟨φ0, true, true, φ3, φ4, φ5, φ6, φ7, φ8, true, φ10, φ11, φ12, φ13, φ14, true, true, φ17, φ18, φ19⟩ z0 s) : Keeps ⟨φ0, true, true, φ3, φ4, φ5, φ6, φ7, φ8, true, φ10, φ11, φ12, φ13, φ14, true, true, φ17, φ18, φ19⟩ z0 (readReg r addr size s).2.2 := by
  unfold readReg
  dsimp only
  split
  · dsimp only
    exact regCheck_keeps hz
  · split
    · dsimp only
      exact regReadEffect_keeps (regCheck_keeps hz)
    · dsimp only
      exact regCheck_keeps hz

theorem hostDown_keeps {p st : Nat} {inj : Bool} {s : State} (hz : Keeps ⟨φ0, true, true, φ3, φ4, φ5, φ6, φ7, φ8, true, φ10, φ11, φ12, true, φ14, φ15, true, φ17, φ18, φ19⟩ z0 s) : Keeps ⟨φ0, true, true, φ3, φ4, φ5, φ6, φ7, φ8, true, φ10, φ11, φ12, true, φ14, φ15, true, φ17, φ18, φ19⟩ z0 (hostDown p st inj s) := by
  unfold hostDown
  extract_lets +onlyGivenNames l_1 rate_2 s0_3 s1_4
  have k_s1_4 : Keeps ⟨φ0, true, true, φ3, φ4, φ5, φ6, φ7, φ8, true, φ10, φ11, φ12, true, φ14, φ15, true, φ17, φ18, φ19⟩ z0 s1_4 := Keeps.of hz rfl
  clear_value s1_4
  extract_lets +onlyGivenNames s1_5
  have k_s1_5 : Keeps ⟨φ0, true, true, φ3, φ4, φ5, φ6, φ7, φ8, true, φ10, φ11, φ12, true, φ14, φ15, true, φ17, φ18, φ19⟩ z0 s1_5 := wrField_keeps (wrField_keeps (wrField_keeps k_s1_4))
  clear_value s1_5
  split
  · exact k_s1_5
  · exact raise_keeps k_s1_5

theorem latchStop_keeps {s : State} (hz : Keeps ⟨φ0, true, true, φ3, φ4, φ5, φ6, φ7, φ8, true, φ10, φ11, φ12, φ13, φ14, φ15, true, φ17, φ18, φ19⟩ z0 s) : Keeps ⟨φ0, true, true, φ3, φ4, φ5, φ6, φ7, φ8, true, φ10, φ11, φ12, φ13, φ14, φ15, true, φ17, φ18, φ19⟩ z0 (latchStop s) := by
  unfold latchStop
  apply trip_keeps
  apply wrField_keeps
  exact Keeps.of hz rfl

theorem arm_keeps {c i bit : Nat} {s : State} (hz : Keeps ⟨φ0, φ1, φ2, φ3, φ4, φ5, φ6, φ7, φ8, φ9, φ10, φ11, φ12, φ13, φ14, φ15, φ16, φ17, φ18, φ19⟩ z0 s) : Keeps ⟨φ0, φ1, φ2, φ3, φ4, φ5, φ6, φ7, φ8, φ9, φ10, φ11, φ12, φ13, φ14, φ15, φ16, φ17, φ18, φ19⟩ z0 (arm c i bit s) := by
  unfold arm
  split
  · exact hz
  · exact Keeps.of hz rfl

theorem reportOnly_keeps {c i bit code : Nat} {s : State} (hz : Keeps ⟨φ0, true, true, φ3, φ4, φ5, φ6, φ7, φ8, true, φ10, φ11, φ12, φ13, φ14, φ15, true, φ17, φ18, φ19⟩ z0 s) : Keeps ⟨φ0, true, true, φ3, φ4, φ5, φ6, φ7, φ8, true, φ10, φ11, φ12, φ13, φ14, φ15, true, φ17, φ18, φ19⟩ z0 (reportOnly c i bit code s) := by
  unfold reportOnly
  extract_lets +onlyGivenNames n_1
  have k_n_1 : Keeps ⟨φ0, true, true, φ3, φ4, φ5, φ6, φ7, φ8, true, φ10, φ11, φ12, φ13, φ14, φ15, true, φ17, φ18, φ19⟩ z0 n_1.2 := fresh_keeps hz
  clear_value n_1
  exact raise_keeps k_n_1

theorem provokeStop_keeps {c : Nat} {s : State} (hz : Keeps ⟨φ0, true, true, φ3, φ4, φ5, φ6, φ7, φ8, true, φ10, φ11, φ12, φ13, φ14, φ15, true, φ17, φ18, φ19⟩ z0 s) : Keeps ⟨φ0, true, true, φ3, φ4, φ5, φ6, φ7, φ8, true, φ10, φ11, φ12, φ13, φ14, φ15, true, φ17, φ18, φ19⟩ z0 (provokeStop c s) := by
  unfold provokeStop
  extract_lets +onlyGivenNames n_1 d_2
  have k_n_1 : Keeps ⟨φ0, true, true, φ3, φ4, φ5, φ6, φ7, φ8, true, φ10, φ11, φ12, φ13, φ14, φ15, true, φ17, φ18, φ19⟩ z0 n_1.2 := fresh_keeps hz
  clear_value n_1
  exact canStop_keeps k_n_1

theorem provoke_keeps {c i bit : Nat} {s : State} (hz : Keeps ⟨φ0, true, true, true, true, φ5, φ6, φ7, φ8, true, true, true, φ12, true, φ14, φ15, true, true, true, φ19⟩ z0 s) : Keeps ⟨φ0, true, true, true, true, φ5, φ6, φ7, φ8, true, true, true, φ12, true, φ14, φ15, true, true, true, φ19⟩ z0 (provoke c i bit s) := by
  unfold provoke
  split
  · exact laneFault_keeps hz
  · exact arm_keeps (setPort_keeps hz)
  · exact linkRetrain_keeps hz
  · exact canBusOff_keeps hz
  · exact provokeStop_keeps hz
  · exact outDiscrepancy_keeps hz
  · exact Keeps.of hz rfl
  · exact droopOn_keeps hz
  · extract_lets +onlyGivenNames k_1
    exact emergOn_keeps hz
  · exact hostDown_keeps hz
  · extract_lets +onlyGivenNames e_2
    exact raise_keeps (latchStop_keeps hz)
  · exact arm_keeps hz

theorem wrInject_keeps {r : Req} {c i : Nat} {v : Word} {s : State} (hz : Keeps ⟨φ0, true, true, true, true, φ5, φ6, φ7, φ8, true, true, true, φ12, true, φ14, φ15, true, true, true, φ19⟩ z0 s) : Keeps ⟨φ0, true, true, true, true, φ5, φ6, φ7, φ8, true, true, true, φ12, true, φ14, φ15, true, true, true, φ19⟩ z0 (wrInject r c i v s).2 := by
  unfold wrInject
  split
  · dsimp only
    exact raise_keeps hz
  · dsimp only
    split
    · exact hz
    · split
      · dsimp only
        exact provoke_keeps hz
      · dsimp only
        apply reportOnly_keeps
        split
        · exact Keeps.of hz rfl
        · exact hz

theorem wrMtu_keeps {v : Word} {s : State} (hz : Keeps ⟨φ0, φ1, φ2, φ3, φ4, φ5, φ6, φ7, φ8, φ9, φ10, φ11, φ12, φ13, φ14, φ15, φ16, φ17, φ18, φ19⟩ z0 s) : Keeps ⟨φ0, φ1, φ2, φ3, φ4, φ5, φ6, φ7, φ8, φ9, φ10, φ11, φ12, φ13, φ14, φ15, φ16, φ17, φ18, φ19⟩ z0 (wrMtu v s) := by
  unfold wrMtu
  split
  · exact wrReg_keeps hz
  · exact hz

theorem wrHostSec_keeps {v : Word} {s : State} (hz : Keeps ⟨φ0, φ1, φ2, φ3, φ4, φ5, φ6, φ7, φ8, φ9, φ10, φ11, φ12, φ13, φ14, φ15, φ16, φ17, φ18, φ19⟩ z0 s) : Keeps ⟨φ0, φ1, φ2, φ3, φ4, φ5, φ6, φ7, φ8, φ9, φ10, φ11, φ12, φ13, φ14, φ15, φ16, φ17, φ18, φ19⟩ z0 (wrHostSec v s) := by
  unfold wrHostSec
  split
  · exact hz
  · exact wrReg_keeps hz

theorem loadQueue0_keeps {s : State} (hz : Keeps ⟨φ0, true, true, φ3, φ4, φ5, φ6, φ7, φ8, true, φ10, φ11, φ12, true, φ14, φ15, true, φ17, φ18, φ19⟩ z0 s) : Keeps ⟨φ0, true, true, φ3, φ4, φ5, φ6, φ7, φ8, true, φ10, φ11, φ12, true, φ14, φ15, true, φ17, φ18, φ19⟩ z0 (loadQueue0 s) := by
  unfold loadQueue0
  split
  · exact hz
  · split
    · exact hz
    · extract_lets +onlyGivenNames d_1 d1_2
      split
      · exact deliverQueue_keeps (qPut_keeps hz)
      · exact hz

theorem applyDevice_keeps {s : State} (hz : Keeps ⟨φ0, true, true, φ3, φ4, φ5, φ6, φ7, φ8, true, φ10, φ11, φ12, true, φ14, φ15, true, φ17, φ18, φ19⟩ z0 s) : Keeps ⟨φ0, true, true, φ3, φ4, φ5, φ6, φ7, φ8, true, φ10, φ11, φ12, true, φ14, φ15, true, φ17, φ18, φ19⟩ z0 (applyDevice s) := by
  unfold applyDevice
  extract_lets +onlyGivenNames put
  have hp : ∀ k f t, Keeps ⟨φ0, true, true, φ3, φ4, φ5, φ6, φ7, φ8, true, φ10, φ11, φ12, true, φ14, φ15, true, φ17, φ18, φ19⟩ z0 t → (∀ v u, Keeps ⟨φ0, true, true, φ3, φ4, φ5, φ6, φ7, φ8, true, φ10, φ11, φ12, true, φ14, φ15, true, φ17, φ18, φ19⟩ z0 u → Keeps ⟨φ0, true, true, φ3, φ4, φ5, φ6, φ7, φ8, true, φ10, φ11, φ12, true, φ14, φ15, true, φ17, φ18, φ19⟩ z0 (f v u)) → Keeps ⟨φ0, true, true, φ3, φ4, φ5, φ6, φ7, φ8, true, φ10, φ11, φ12, true, φ14, φ15, true, φ17, φ18, φ19⟩ z0 (put k f t) := by
    intro k f t ht hf
    dsimp only [put]
    split
    · exact hf _ _ ht
    · exact ht
  clear_value put
  refine hp _ _ _ (hp _ _ _ (hp _ _ _ (hp _ _ _ (hp _ _ _ (loadQueue0_keeps hz) ?_) ?_) ?_) ?_) ?_
  · exact fun _ _ h => wrHostSec_keeps h
  · exact fun _ _ h => wrReg_keeps h
  · exact fun _ _ h => wrReg_keeps h
  · exact fun _ _ h => wrMtu_keeps h
  · exact fun _ _ h => wrField_keeps h

theorem loadPage_keeps {c i : Nat} {s : State} (hz : Keeps ⟨φ0, φ1, φ2, φ3, φ4, φ5, φ6, φ7, φ8, φ9, φ10, φ11, φ12, φ13, φ14, φ15, φ16, φ17, φ18, φ19⟩ z0 s) : Keeps ⟨φ0, φ1, φ2, φ3, φ4, φ5, φ6, φ7, φ8, φ9, φ10, φ11, φ12, φ13, φ14, φ15, φ16, φ17, φ18, φ19⟩ z0 (loadPage c i s) := by
  unfold loadPage
  split
  · exact wrReg_keeps (wrReg_keeps hz)
  · exact wrField_keeps hz
  · exact hz

theorem putSafety_keeps {tbl n : Nat} {s : State} (hz : Keeps ⟨φ0, φ1, φ2, φ3, φ4, φ5, φ6, φ7, φ8, true, φ10, φ11, φ12, φ13, φ14, φ15, φ16, φ17, φ18, φ19⟩ z0 s) : Keeps ⟨φ0, φ1, φ2, φ3, φ4, φ5, φ6, φ7, φ8, true, φ10, φ11, φ12, φ13, φ14, φ15, φ16, φ17, φ18, φ19⟩ z0 (putSafety tbl n s) := by
  unfold putSafety
  apply Keeps.foldl
  · exact hz
  · intro _ _ k1
    split
    · split
      · exact snPut_keeps k1
      · exact k1
    · exact k1

theorem putSafetyReg_keeps {k off : Nat} {s : State} (hz : Keeps ⟨φ0, φ1, φ2, φ3, φ4, φ5, φ6, φ7, φ8, φ9, φ10, φ11, φ12, φ13, φ14, φ15, φ16, φ17, φ18, φ19⟩ z0 s) : Keeps ⟨φ0, φ1, φ2, φ3, φ4, φ5, φ6, φ7, φ8, φ9, φ10, φ11, φ12, φ13, φ14, φ15, φ16, φ17, φ18, φ19⟩ z0 (putSafetyReg k off s) := by
  unfold putSafetyReg
  split
  · exact plainWrite_keeps hz
  · exact hz

theorem putStCtrl_keeps {s : State} (hz : Keeps ⟨φ0, φ1, φ2, φ3, φ4, φ5, φ6, φ7, φ8, φ9, φ10, φ11, φ12, φ13, φ14, φ15, φ16, φ17, φ18, φ19⟩ z0 s) : Keeps ⟨φ0, φ1, φ2, φ3, φ4, φ5, φ6, φ7, φ8, φ9, φ10, φ11, φ12, φ13, φ14, φ15, φ16, φ17, φ18, φ19⟩ z0 (putStCtrl s) := by
  unfold putStCtrl
  split
  · exact wrStCtrl_keeps hz
  · exact hz

theorem applySafety_keeps {s : State} (hz : Keeps ⟨φ0, φ1, φ2, φ3, φ4, φ5, φ6, φ7, φ8, true, φ10, φ11, φ12, φ13, φ14, φ15, φ16, φ17, φ18, φ19⟩ z0 s) : Keeps ⟨φ0, φ1, φ2, φ3, φ4, φ5, φ6, φ7, φ8, true, φ10, φ11, φ12, φ13, φ14, φ15, φ16, φ17, φ18, φ19⟩ z0 (applySafety s) := by
  unfold applySafety
  exact putSafetyReg_keeps (putSafetyReg_keeps (putSafetyReg_keeps (putSafetyReg_keeps (putStCtrl_keeps (putSafety_keeps (putSafety_keeps (putSafety_keeps (putSafety_keeps hz))))))))

theorem applyTightrope_keeps {s : State} (hz : Keeps ⟨φ0, φ1, φ2, φ3, φ4, φ5, φ6, φ7, φ8, φ9, φ10, φ11, φ12, φ13, φ14, true, true, φ17, φ18, φ19⟩ z0 s) : Keeps ⟨φ0, φ1, φ2, φ3, φ4, φ5, φ6, φ7, φ8, φ9, φ10, φ11, φ12, φ13, φ14, true, true, φ17, φ18, φ19⟩ z0 (applyTightrope s) := by
  unfold applyTightrope
  extract_lets +onlyGivenNames each
  have he : ∀ b n f acc, Keeps ⟨φ0, φ1, φ2, φ3, φ4, φ5, φ6, φ7, φ8, φ9, φ10, φ11, φ12, φ13, φ14, true, true, φ17, φ18, φ19⟩ z0 acc → (∀ i v u, Keeps ⟨φ0, φ1, φ2, φ3, φ4, φ5, φ6, φ7, φ8, φ9, φ10, φ11, φ12, φ13, φ14, true, true, φ17, φ18, φ19⟩ z0 u → Keeps ⟨φ0, φ1, φ2, φ3, φ4, φ5, φ6, φ7, φ8, φ9, φ10, φ11, φ12, φ13, φ14, true, true, φ17, φ18, φ19⟩ z0 (f i v u)) → Keeps ⟨φ0, φ1, φ2, φ3, φ4, φ5, φ6, φ7, φ8, φ9, φ10, φ11, φ12, φ13, φ14, true, true, φ17, φ18, φ19⟩ z0 (each b n f acc) := by
    intro b n f acc h hf
    refine Keeps.foldl _ h (fun u i hu => ?_)
    split
    · exact hf _ _ _ hu
    · exact hu
  clear_value each
  extract_lets +onlyGivenNames law coef encs dins adcs pwms
  have k1 : Keeps ⟨φ0, φ1, φ2, φ3, φ4, φ5, φ6, φ7, φ8, φ9, φ10, φ11, φ12, φ13, φ14, true, true, φ17, φ18, φ19⟩ z0 law := he _ _ _ _ hz (fun _ _ _ h => Keeps.of h rfl)
  have k2 : Keeps ⟨φ0, φ1, φ2, φ3, φ4, φ5, φ6, φ7, φ8, φ9, φ10, φ11, φ12, φ13, φ14, true, true, φ17, φ18, φ19⟩ z0 coef := he _ _ _ _ k1 (fun _ _ _ h => Keeps.of h rfl)
  have k3 : Keeps ⟨φ0, φ1, φ2, φ3, φ4, φ5, φ6, φ7, φ8, φ9, φ10, φ11, φ12, φ13, φ14, true, true, φ17, φ18, φ19⟩ z0 encs := he _ _ _ _ k2 (fun _ _ _ h => by dsimp only; split <;> first | exact setEnc_keeps h | exact h)
  have k4 : Keeps ⟨φ0, φ1, φ2, φ3, φ4, φ5, φ6, φ7, φ8, φ9, φ10, φ11, φ12, φ13, φ14, true, true, φ17, φ18, φ19⟩ z0 dins := he _ _ _ _ k3 (fun _ _ _ h => setDin_keeps h)
  have k5 : Keeps ⟨φ0, φ1, φ2, φ3, φ4, φ5, φ6, φ7, φ8, φ9, φ10, φ11, φ12, φ13, φ14, true, true, φ17, φ18, φ19⟩ z0 adcs := he _ _ _ _ k4 (fun _ _ _ h => by dsimp only; split <;> first | exact setAdc_keeps h | exact h)
  have k6 : Keeps ⟨φ0, φ1, φ2, φ3, φ4, φ5, φ6, φ7, φ8, φ9, φ10, φ11, φ12, φ13, φ14, true, true, φ17, φ18, φ19⟩ z0 pwms := he _ _ _ _ k5 (fun _ _ _ h => by dsimp only; split <;> first | exact setPwm_keeps h | exact h)
  exact he _ _ _ _ k6 (fun _ _ _ h => by split <;> first | exact setEntry_keeps h | exact h)

theorem applyKind_keeps {kind : Nat} {s : State} (hz : Keeps ⟨φ0, true, true, φ3, φ4, φ5, φ6, φ7, φ8, true, φ10, φ11, φ12, true, φ14, φ15, true, φ17, φ18, φ19⟩ z0 s) : Keeps ⟨φ0, true, true, φ3, φ4, φ5, φ6, φ7, φ8, true, φ10, φ11, φ12, true, φ14, φ15, true, φ17, φ18, φ19⟩ z0 (applyKind kind s) := by
  unfold applyKind
  split
  · exact applyDevice_keeps hz
  · exact applySafety_keeps hz
  · exact hz

theorem softReset_keeps {c i : Nat} {s : State} (hz : Keeps ⟨φ0, true, true, φ3, true, true, φ6, true, true, true, true, true, true, true, true, true, true, true, true, true⟩ z0 s) : Keeps ⟨φ0, true, true, φ3, true, true, φ6, true, true, true, true, true, true, true, true, true, true, true, true, true⟩ z0 (softReset c i s) := by
  unfold softReset
  extract_lets +onlyGivenNames s1_1 s2_2
  have k_s1_1 : Keeps ⟨φ0, true, true, φ3, true, true, φ6, true, true, true, true, true, true, true, true, true, true, true, true, true⟩ z0 s1_1 := by
    subst s1_1
    split
    · exact debugLock_keeps hz
    · split
      · exact Keeps.of hz rfl
      · exact hz
  have k_s2_2 : Keeps ⟨φ0, true, true, φ3, true, true, φ6, true, true, true, true, true, true, true, true, true, true, true, true, true⟩ z0 s2_2 := loadPage_keeps (resetBlock_keeps k_s1_1)
  clear_value s1_1 s2_2
  apply wrField_keeps
  exact Keeps.of k_s2_2 rfl

theorem wrCtrl_keeps {r : Req} {c i : Nat} {v : Word} {s : State} (hz : Keeps ⟨φ0, true, true, φ3, true, true, φ6, true, true, true, true, true, true, true, true, true, true, true, true, true⟩ z0 s) : Keeps ⟨φ0, true, true, φ3, true, true, φ6, true, true, true, true, true, true, true, true, true, true, true, true, true⟩ z0 (wrCtrl r c i v s).2 := by
  unfold wrCtrl
  dsimp only
  split
  · dsimp only
    exact raise_keeps hz
  · split
    · dsimp only
      exact softReset_keeps hz
    · dsimp only
      apply wrField_keeps
      split
      · exact Keeps.of hz rfl
      · exact hz

theorem wrNibRetire_keeps {q : Nat} {v : Word} {s : State} (hz : Keeps ⟨φ0, true, true, true, true, true, true, true, φ8, true, true, true, φ12, φ13, φ14, φ15, true, φ17, φ18, φ19⟩ z0 s) : Keeps ⟨φ0, true, true, true, true, true, true, true, φ8, true, true, true, φ12, φ13, φ14, φ15, true, φ17, φ18, φ19⟩ z0 (wrNibRetire q v s) := by
  unfold wrNibRetire
  split
  · exact markNib_keeps hz
  · exact hz

theorem ranged_keeps {c i off hi lo a b : Nat} {v : Word} {s : State} (hz : Keeps ⟨φ0, φ1, φ2, φ3, φ4, φ5, φ6, φ7, φ8, φ9, φ10, φ11, φ12, φ13, φ14, φ15, φ16, φ17, φ18, φ19⟩ z0 s) : Keeps ⟨φ0, φ1, φ2, φ3, φ4, φ5, φ6, φ7, φ8, φ9, φ10, φ11, φ12, φ13, φ14, φ15, φ16, φ17, φ18, φ19⟩ z0 (ranged c i off hi lo a b v s) := by
  unfold ranged
  split
  · exact plainWrite_keeps hz
  · exact plainWrite_keeps hz

theorem wrCcTable_keeps {off : Nat} {v : Word} {s : State} (hz : Keeps ⟨φ0, φ1, φ2, φ3, φ4, φ5, φ6, φ7, φ8, φ9, φ10, φ11, φ12, φ13, φ14, φ15, φ16, φ17, φ18, φ19⟩ z0 s) : Keeps ⟨φ0, φ1, φ2, φ3, φ4, φ5, φ6, φ7, φ8, φ9, φ10, φ11, φ12, φ13, φ14, φ15, φ16, φ17, φ18, φ19⟩ z0 (wrCcTable off v s) := by
  unfold wrCcTable
  split
  · exact hz
  · split
    · exact wrReg_keeps hz
    · exact wrReg_keeps hz
    · exact wrReg_keeps hz
    · split
      · exact wrReg_keeps hz
      · exact hz
    · exact plainWrite_keeps hz

theorem wrHostLink_keeps {p : Nat} {v : Word} {s : State} (hz : Keeps ⟨φ0, true, true, φ3, φ4, φ5, φ6, φ7, φ8, true, φ10, φ11, φ12, true, φ14, φ15, true, φ17, φ18, φ19⟩ z0 s) : Keeps ⟨φ0, true, true, φ3, φ4, φ5, φ6, φ7, φ8, true, φ10, φ11, φ12, true, φ14, φ15, true, φ17, φ18, φ19⟩ z0 (wrHostLink p v s) := by
  unfold wrHostLink
  extract_lets +onlyGivenNames s1_1
  have k_s1_1 : Keeps ⟨φ0, true, true, φ3, φ4, φ5, φ6, φ7, φ8, true, φ10, φ11, φ12, true, φ14, φ15, true, φ17, φ18, φ19⟩ z0 s1_1 := plainWrite_keeps hz
  clear_value s1_1
  split
  · exact hostDown_keeps k_s1_1
  · split
    · exact wrField_keeps k_s1_1
    · exact k_s1_1

theorem wrHostStop_keeps {v : Word} {s : State} (hz : Keeps ⟨φ0, φ1, φ2, φ3, φ4, φ5, φ6, φ7, φ8, φ9, φ10, φ11, φ12, φ13, φ14, φ15, φ16, φ17, φ18, φ19⟩ z0 s) : Keeps ⟨φ0, φ1, φ2, φ3, φ4, φ5, φ6, φ7, φ8, φ9, φ10, φ11, φ12, φ13, φ14, φ15, φ16, φ17, φ18, φ19⟩ z0 (wrHostStop v s) := by
  unfold wrHostStop
  extract_lets +onlyGivenNames s1_1
  have k_s1_1 : Keeps ⟨φ0, φ1, φ2, φ3, φ4, φ5, φ6, φ7, φ8, φ9, φ10, φ11, φ12, φ13, φ14, φ15, φ16, φ17, φ18, φ19⟩ z0 s1_1 := wrField_keeps hz
  clear_value s1_1
  split
  · exact wrField_keeps k_s1_1
  · exact k_s1_1

theorem wrDbgLock_keeps {v : Word} {s : State} (hz : Keeps ⟨φ0, true, true, φ3, φ4, φ5, φ6, true, φ8, true, φ10, φ11, φ12, φ13, φ14, φ15, true, φ17, φ18, φ19⟩ z0 s) : Keeps ⟨φ0, true, true, φ3, φ4, φ5, φ6, true, φ8, true, φ10, φ11, φ12, φ13, φ14, φ15, true, φ17, φ18, φ19⟩ z0 (wrDbgLock v s) := by
  unfold wrDbgLock
  split
  · exact debugLock_keeps hz
  · exact hz

theorem wrWarmReset_keeps {v : Word} {s : State} (hz : Keeps ⟨φ0, true, true, true, true, true, true, true, true, true, true, true, true, true, true, true, true, true, true, true⟩ z0 s) : Keeps ⟨φ0, true, true, true, true, true, true, true, true, true, true, true, true, true, true, true, true, true, true, true⟩ z0 (wrWarmReset v s) := by
  unfold wrWarmReset
  split
  · exact resetDevice_keeps (trip_keeps hz)
  · exact hz

theorem writeA_keeps {r : Req} {c i off : Nat} {v : Word} {s : State} (hz : Keeps ⟨φ0, true, true, true, true, true, true, true, true, true, true, true, true, true, true, true, true, true, true, true⟩ z0 s) : Keeps ⟨φ0, true, true, true, true, true, true, true, true, true, true, true, true, true, true, true, true, true, true, true⟩ z0 (writeA r c i off v s).2 := by
  unfold writeA
  split
  · exact wrInjectCtrl_keeps hz
  · dsimp only
    exact wrWarmReset_keeps hz
  · dsimp only
    exact wrNibRetire_keeps hz
  · dsimp only
    exact wrBankCtrl_keeps hz
  · dsimp only
    exact wrWinCmd_keeps hz
  · dsimp only
    exact ranged_keeps hz
  · dsimp only
    exact wrSpadDebug_keeps hz
  · dsimp only
    exact wrPatrolCtrl_keeps hz
  · dsimp only
    exact wrSpareSel_keeps hz
  · dsimp only
    exact wrLinkCtrl_keeps hz
  · dsimp only
    exact wrDet_keeps hz
  · dsimp only
    exact wrDet_keeps hz
  · dsimp only
    exact wrDet_keeps hz
  · exact wrRpTest_keeps hz
  · dsimp only
    exact wrEnumCtrl_keeps hz
  · dsimp only
    exact wrReqLimit_keeps hz
  · exact wrFenceCmd_keeps hz
  · dsimp only
    exact plainWrite_keeps hz

theorem writeB_keeps {c i off : Nat} {v : Word} {s : State} (hz : Keeps ⟨φ0, true, true, true, true, true, true, true, true, true, true, φ11, true, true, true, φ15, true, φ17, φ18, φ19⟩ z0 s) : Keeps ⟨φ0, true, true, true, true, true, true, true, true, true, true, φ11, true, true, true, φ15, true, φ17, φ18, φ19⟩ z0 (writeB c i off v s) := by
  unfold writeB
  split
  · exact wrDescBase_keeps hz
  · exact wrDescBase_keeps hz
  · exact wrQCmd_keeps hz
  · exact wrRdptr_keeps hz
  · exact wrCmdQueue_keeps hz
  · exact wrStCmd_keeps hz
  · exact wrGrpCmd_keeps hz
  · exact wrCamPhy_keeps hz
  · exact wrCamCheck_keeps hz
  · split
    · exact wrCcTable_keeps hz
    · exact plainWrite_keeps hz

theorem writeC_keeps {r : Req} {c i off : Nat} {v : Word} {s : State} (hz : Keeps ⟨φ0, true, true, φ3, φ4, φ5, φ6, φ7, φ8, true, φ10, φ11, φ12, φ13, φ14, true, true, true, φ18, φ19⟩ z0 s) : Keeps ⟨φ0, true, true, φ3, φ4, φ5, φ6, φ7, φ8, true, φ10, φ11, φ12, φ13, φ14, true, true, true, φ18, φ19⟩ z0 (writeC r c i off v s) := by
  unfold writeC
  split
  · split
    · exact wrTbPayload_keeps hz
    · split
      · exact wrCanMode_keeps hz
      · exact wrCanTiming_keeps hz
      · exact wrCanTiming_keeps hz
      · exact wrCanTiming_keeps hz
      · exact wrCanCmd_keeps hz
      · exact wrTrMap_keeps hz
      · exact wrCanRxCtrl_keeps hz
      · exact wrCanStop_keeps hz
      · exact plainWrite_keeps hz
  · split
    · split
      · exact wrSlotCmd_keeps hz
      · exact wrLawData_keeps hz
      · exact wrCoefValue_keeps hz
      · exact wrCoefWrite_keeps hz
      · exact wrCoefBank_keeps hz
      · exact wrSpCommit_keeps hz
      · exact wrTestCtrl_keeps hz
      · exact wrCapCtrl_keeps hz
      · exact plainWrite_keeps hz
    · split
      · exact wrEncCmd_keeps hz
      · exact wrDinCmd_keeps hz
      · exact wrPwmCmd_keeps hz
      · exact wrAdcCmd_keeps hz
      · exact plainWrite_keeps hz

theorem writeD_keeps {c i off : Nat} {v : Word} {s : State} (hz : Keeps ⟨true, true, true, φ3, true, φ5, φ6, true, true, true, φ10, φ11, φ12, true, φ14, φ15, true, φ17, true, φ19⟩ z0 s) : Keeps ⟨true, true, true, φ3, true, φ5, φ6, true, true, true, φ10, φ11, φ12, true, φ14, φ15, true, φ17, true, φ19⟩ z0 (writeD c i off v s) := by
  unfold writeD
  split
  · exact wrSnArm_keeps hz
  · exact wrSnCmd_keeps hz
  · exact ranged_keeps hz
  · exact wrStCtrl_keeps hz
  · exact wrCap_keeps hz
  · exact wrAllowance_keeps hz
  · exact wrDroopCtrl_keeps hz
  · exact wrThermCtrl_keeps hz
  · exact wrCool_keeps hz
  · exact wrDomainCmd_keeps hz
  · exact ranged_keeps hz
  · exact wrHostLink_keeps hz
  · split
    · exact ranged_keeps hz
    · exact ranged_keeps hz
  · exact wrMtu_keeps hz
  · exact wrHostSec_keeps hz
  · exact wrHostStop_keeps hz
  · split
    · exact ranged_keeps hz
    · exact ranged_keeps hz
  · split
    · exact wrDbgLock_keeps hz
    · exact plainWrite_keeps hz
  · exact plainWrite_keeps hz

theorem regEffect_keeps {r : Req} {c i off : Nat} {v : Word} {s : State} (hz : Keeps ⟨true, true, true, true, true, true, true, true, true, true, true, true, true, true, true, true, true, true, true, true⟩ z0 s) : Keeps ⟨true, true, true, true, true, true, true, true, true, true, true, true, true, true, true, true, true, true, true, true⟩ z0 (regEffect r c i off v s).2 := by
  unfold regEffect
  split
  · exact hz
  · split
    · exact wrCtrl_keeps hz
    · dsimp only
      exact wrMask_keeps hz
    · exact wrInject_keeps hz
    · split
      · dsimp only
        exact plainWrite_keeps hz
      · split
        · exact writeA_keeps hz
        · split
          · dsimp only
            exact writeB_keeps hz
          · split
            · dsimp only
              exact writeC_keeps hz
            · dsimp only
              exact writeD_keeps hz

theorem writeReg_keeps {r : Req} {addr size : Nat} {v : Word} {s : State} (hz : Keeps ⟨true, true, true, true, true, true, true, true, true, true, true, true, true, true, true, true, true, true, true, true⟩ z0 s) : Keeps ⟨true, true, true, true, true, true, true, true, true, true, true, true, true, true, true, true, true, true, true, true⟩ z0 (writeReg r addr size v s).2 := by
  unfold writeReg
  split
  · split
    · exact snCmdWrite_keeps hz
    · exact regCheck_keeps hz
  · dsimp only
    split
    · exact regCheck_keeps hz
    · exact regEffect_keeps (regCheck_keeps hz)
  · exact regCheck_keeps hz

end Sys2Proof.Machine
end

