-- ==== Sys2Proof/Laws/KeepsHost.lean ====
section
/-! SUPPORT. Each operation keeps what Keeps names: host commands, flash and keys, boot. -/

set_option Elab.async false

namespace Sys2Proof.Machine

variable {φ0 φ1 φ2 φ3 φ4 φ5 φ6 φ7 φ8 φ9 φ10 φ11 φ12 φ13 φ14 φ15 φ16 φ17 φ18 φ19 : Bool} {z0 : State}

theorem reply_keeps {c : HostCmd} {st orig : Nat} {payload : List Byte} {s : State} (hz : Keeps ⟨φ0, true, true, φ3, φ4, φ5, φ6, φ7, φ8, true, φ10, φ11, φ12, true, φ14, φ15, true, φ17, φ18, φ19⟩ z0 s) : Keeps ⟨φ0, true, true, φ3, φ4, φ5, φ6, φ7, φ8, true, φ10, φ11, φ12, true, φ14, φ15, true, φ17, φ18, φ19⟩ z0 (reply c st orig payload s) := by
  unfold reply
  exact sendTo_keeps hz

theorem noteDone_keeps {prio : Bool} {seq st : Nat} {s : State} (hz : Keeps ⟨φ0, φ1, φ2, φ3, φ4, φ5, φ6, φ7, φ8, φ9, φ10, φ11, φ12, true, φ14, φ15, φ16, φ17, φ18, φ19⟩ z0 s) : Keeps ⟨φ0, φ1, φ2, φ3, φ4, φ5, φ6, φ7, φ8, φ9, φ10, φ11, φ12, true, φ14, φ15, φ16, φ17, φ18, φ19⟩ z0 (noteDone prio seq st s) := by
  unfold noteDone
  extract_lets +onlyGivenNames mine_1 others_2
  exact Keeps.of hz rfl

theorem replyDup_keeps {c : HostCmd} {s : State} (hz : Keeps ⟨φ0, true, true, φ3, φ4, φ5, φ6, φ7, φ8, true, φ10, φ11, φ12, true, φ14, φ15, true, φ17, φ18, φ19⟩ z0 s) : Keeps ⟨φ0, true, true, φ3, φ4, φ5, φ6, φ7, φ8, true, φ10, φ11, φ12, true, φ14, φ15, true, φ17, φ18, φ19⟩ z0 (replyDup c s) := by
  unfold replyDup
  extract_lets +onlyGivenNames prio_1 last_2 orig_3
  exact reply_keeps hz

theorem hostFinish_keeps {c : HostCmd} {st : Nat} {payload : List Byte} {s : State} (hz : Keeps ⟨φ0, true, true, φ3, φ4, φ5, φ6, φ7, φ8, true, φ10, φ11, φ12, true, φ14, φ15, true, φ17, φ18, φ19⟩ z0 s) : Keeps ⟨φ0, true, true, φ3, φ4, φ5, φ6, φ7, φ8, true, φ10, φ11, φ12, true, φ14, φ15, true, φ17, φ18, φ19⟩ z0 (hostFinish c st payload s) := by
  unfold hostFinish
  extract_lets +onlyGivenNames s1_1
  extract_lets +onlyGivenNames s1_2
  have k_s1_2 : Keeps ⟨φ0, true, true, φ3, φ4, φ5, φ6, φ7, φ8, true, φ10, φ11, φ12, true, φ14, φ15, true, φ17, φ18, φ19⟩ z0 s1_2 := Keeps.of hz rfl
  clear_value s1_2
  exact reply_keeps (noteDone_keeps (wrReg_keeps k_s1_2))

theorem hostRun_keeps {c : HostCmd} {run : HostCmd → State → CcpRes} {s : State} (h_run : ∀ y0 y1, Keeps ⟨φ0, true, true, φ3, φ4, φ5, φ6, φ7, φ8, true, φ10, φ11, φ12, true, φ14, φ15, true, φ17, φ18, φ19⟩ z0 y1 → Keeps ⟨φ0, true, true, φ3, φ4, φ5, φ6, φ7, φ8, true, φ10, φ11, φ12, true, φ14, φ15, true, φ17, φ18, φ19⟩ z0 (run y0 y1).2) (hz : Keeps ⟨φ0, true, true, φ3, φ4, φ5, φ6, φ7, φ8, true, φ10, φ11, φ12, true, φ14, φ15, true, φ17, φ18, φ19⟩ z0 s) : Keeps ⟨φ0, true, true, φ3, φ4, φ5, φ6, φ7, φ8, true, φ10, φ11, φ12, true, φ14, φ15, true, φ17, φ18, φ19⟩ z0 (hostRun c run s) := by
  unfold hostRun
  split
  · exact hostFinish_keeps hz
  · split
    · exact hostFinish_keeps hz
    · extract_lets +onlyGivenNames r_1
      have k_r_1 : Keeps ⟨φ0, true, true, φ3, φ4, φ5, φ6, φ7, φ8, true, φ10, φ11, φ12, true, φ14, φ15, true, φ17, φ18, φ19⟩ z0 r_1.2 := h_run _ _ hz
      clear_value r_1
      split
      · exact hostFinish_keeps k_r_1
      · extract_lets +onlyGivenNames __src_2
        have k___src_2 : Keeps ⟨φ0, true, true, φ3, φ4, φ5, φ6, φ7, φ8, true, φ10, φ11, φ12, true, φ14, φ15, true, φ17, φ18, φ19⟩ z0 __src_2 := k_r_1
        clear_value __src_2
        exact Keeps.of k___src_2 rfl

theorem ackQueue_keeps {q n : Nat} {s : State} (hz : Keeps ⟨φ0, true, true, true, φ4, φ5, φ6, φ7, φ8, true, φ10, φ11, φ12, true, true, φ15, true, φ17, φ18, φ19⟩ z0 s) : Held (fun v => Keeps ⟨φ0, true, true, true, φ4, φ5, φ6, φ7, φ8, true, φ10, φ11, φ12, true, true, φ15, true, φ17, φ18, φ19⟩ z0 v) (ackQueue q n s) := by
  unfold ackQueue
  extract_lets +onlyGivenNames d_1
  split
  · exact Held.none
  · extract_lets +onlyGivenNames v_2 r_3
    split
    · refine Held.some ?_
      try dsimp only
      exact hz
    · refine Held.some ?_
      try dsimp only
      exact deliverQueue_keeps (setDlv_keeps (advanceRd_keeps hz))

theorem headerAck_keeps {c : HostCmd} {s : State} (hz : Keeps ⟨φ0, true, true, true, φ4, φ5, φ6, φ7, φ8, true, φ10, φ11, φ12, true, true, φ15, true, φ17, φ18, φ19⟩ z0 s) : Keeps ⟨φ0, true, true, true, φ4, φ5, φ6, φ7, φ8, true, φ10, φ11, φ12, true, true, φ15, true, φ17, φ18, φ19⟩ z0 (headerAck c s) := by
  unfold headerAck
  split
  · exact hz
  · have k : Held (fun v => Keeps ⟨φ0, true, true, true, φ4, φ5, φ6, φ7, φ8, true, φ10, φ11, φ12, true, true, φ15, true, φ17, φ18, φ19⟩ z0 v) (ackQueue 0 c.ack s) := ackQueue_keeps hz
    cases e : ackQueue 0 c.ack s with
    | none => exact hz
    | some v => exact k.get e

theorem takeCmd_keeps {c : HostCmd} {run : HostCmd → State → CcpRes} {s0 : State} (h_run : ∀ y0 y1, Keeps ⟨φ0, true, true, true, φ4, φ5, φ6, φ7, φ8, true, φ10, φ11, φ12, true, true, φ15, true, φ17, φ18, φ19⟩ z0 y1 → Keeps ⟨φ0, true, true, true, φ4, φ5, φ6, φ7, φ8, true, φ10, φ11, φ12, true, true, φ15, true, φ17, φ18, φ19⟩ z0 (run y0 y1).2) (hz : Keeps ⟨φ0, true, true, true, φ4, φ5, φ6, φ7, φ8, true, φ10, φ11, φ12, true, true, φ15, true, φ17, φ18, φ19⟩ z0 s0) : Keeps ⟨φ0, true, true, true, φ4, φ5, φ6, φ7, φ8, true, φ10, φ11, φ12, true, true, φ15, true, φ17, φ18, φ19⟩ z0 (takeCmd c run s0) := by
  unfold takeCmd
  extract_lets +onlyGivenNames s_1
  have k_s_1 : Keeps ⟨φ0, true, true, true, φ4, φ5, φ6, φ7, φ8, true, φ10, φ11, φ12, true, true, φ15, true, φ17, φ18, φ19⟩ z0 s_1 := headerAck_keeps hz
  clear_value s_1
  split
  · exact reply_keeps k_s_1
  · extract_lets +onlyGivenNames d_2
    split
    · exact replyDup_keeps k_s_1
    · split
      · exact reply_keeps k_s_1
      · split
        · exact reply_keeps k_s_1
        · extract_lets +onlyGivenNames s1_3
          extract_lets +onlyGivenNames s1_4
          have k_s1_4 : Keeps ⟨φ0, true, true, true, φ4, φ5, φ6, φ7, φ8, true, φ10, φ11, φ12, true, true, φ15, true, φ17, φ18, φ19⟩ z0 s1_4 := by
            subst s1_4
            apply wrReg_keeps
            exact Keeps.of k_s_1 rfl
          clear_value s1_4
          split
          · apply hostRun_keeps
            · intro _ _ k5
              exact h_run _ _ k5
            · exact k_s1_4
          · exact k_s1_4

theorem takePrio_keeps {c : HostCmd} {run : HostCmd → State → Nat × List Byte × State} {s0 : State} (h_run : ∀ y0 y1, Keeps ⟨φ0, true, true, true, φ4, φ5, φ6, φ7, φ8, true, φ10, φ11, φ12, true, true, φ15, true, φ17, φ18, φ19⟩ z0 y1 → Keeps ⟨φ0, true, true, true, φ4, φ5, φ6, φ7, φ8, true, φ10, φ11, φ12, true, true, φ15, true, φ17, φ18, φ19⟩ z0 (run y0 y1).2.2) (hz : Keeps ⟨φ0, true, true, true, φ4, φ5, φ6, φ7, φ8, true, φ10, φ11, φ12, true, true, φ15, true, φ17, φ18, φ19⟩ z0 s0) : Keeps ⟨φ0, true, true, true, φ4, φ5, φ6, φ7, φ8, true, φ10, φ11, φ12, true, true, φ15, true, φ17, φ18, φ19⟩ z0 (takePrio c run s0) := by
  unfold takePrio
  extract_lets +onlyGivenNames s_1
  have k_s_1 : Keeps ⟨φ0, true, true, true, φ4, φ5, φ6, φ7, φ8, true, φ10, φ11, φ12, true, true, φ15, true, φ17, φ18, φ19⟩ z0 s_1 := headerAck_keeps hz
  clear_value s_1
  split
  · exact reply_keeps k_s_1
  · extract_lets +onlyGivenNames d_2
    split
    · exact replyDup_keeps k_s_1
    · extract_lets +onlyGivenNames s1_3 r_4
      have k_s1_3 : Keeps ⟨φ0, true, true, true, φ4, φ5, φ6, φ7, φ8, true, φ10, φ11, φ12, true, true, φ15, true, φ17, φ18, φ19⟩ z0 s1_3 := wrReg_keeps k_s_1
      have k_r_4 : Keeps ⟨φ0, true, true, true, φ4, φ5, φ6, φ7, φ8, true, φ10, φ11, φ12, true, true, φ15, true, φ17, φ18, φ19⟩ z0 r_4.2.2 := by
        subst r_4
        split
        · exact k_s1_3
        · split
          · exact k_s1_3
          · exact h_run _ _ k_s1_3
      clear_value s1_3 r_4
      exact reply_keeps (noteDone_keeps k_r_4)

theorem nextFrame_keeps {op : Nat} {s : State} (hz : Keeps ⟨φ0, φ1, φ2, φ3, φ4, φ5, φ6, φ7, φ8, φ9, φ10, φ11, φ12, true, φ14, φ15, φ16, φ17, φ18, φ19⟩ z0 s) : Held (fun v => Keeps ⟨φ0, φ1, φ2, φ3, φ4, φ5, φ6, φ7, φ8, φ9, φ10, φ11, φ12, true, φ14, φ15, φ16, φ17, φ18, φ19⟩ z0 v.2) (nextFrame op s) := by
  unfold nextFrame
  split
  · split
    · refine Held.some ?_
      try dsimp only
      exact Keeps.of hz rfl
    · exact Held.none
  · split
    · split
      · refine Held.some ?_
        try dsimp only
        exact Keeps.of hz rfl
      · exact Held.none
    · exact Held.none

theorem runUnknown_keeps {u1 : HostCmd} {s : State} (hz : Keeps ⟨φ0, φ1, φ2, φ3, φ4, φ5, φ6, φ7, φ8, φ9, φ10, φ11, φ12, φ13, φ14, φ15, φ16, φ17, φ18, φ19⟩ z0 s) : Keeps ⟨φ0, φ1, φ2, φ3, φ4, φ5, φ6, φ7, φ8, φ9, φ10, φ11, φ12, φ13, φ14, φ15, φ16, φ17, φ18, φ19⟩ z0 (runUnknown u1 s).2 := by
  unfold runUnknown
  exact hz

theorem settleOne_keeps {s : State} (hz : Keeps ⟨φ0, true, true, true, φ4, φ5, φ6, φ7, φ8, true, φ10, φ11, φ12, true, true, φ15, true, φ17, φ18, φ19⟩ z0 s) : Held (fun v => Keeps ⟨φ0, true, true, true, φ4, φ5, φ6, φ7, φ8, true, φ10, φ11, φ12, true, true, φ15, true, φ17, φ18, φ19⟩ z0 v) (settleOne s) := by
  unfold settleOne
  split
  · refine Held.some ?_
    try dsimp only
    apply hostRun_keeps
    · intro _ _ k1
      exact runUnknown_keeps k1
    · exact hz
  · split
    · split
      · exact Held.none
      · refine Held.some ?_
        try dsimp only
        apply takeCmd_keeps
        · intro _ _ k2
          exact runUnknown_keeps k2
        · exact Keeps.of hz rfl
    · exact Held.none

theorem hostSettle_keeps {x1 : Nat} {x2 : State} (hz : Keeps ⟨φ0, true, true, true, φ4, φ5, φ6, φ7, φ8, true, φ10, φ11, φ12, true, true, φ15, true, φ17, φ18, φ19⟩ z0 x2) : Keeps ⟨φ0, true, true, true, φ4, φ5, φ6, φ7, φ8, true, φ10, φ11, φ12, true, true, φ15, true, φ17, φ18, φ19⟩ z0 (hostSettle x1 x2) := by
  induction x1 generalizing x2 with
  | zero =>
    unfold hostSettle
    exact hz
  | succ n ih =>
    unfold hostSettle
    split
    · exact ih (Held.state (settleOne_keeps hz) (by with_reducible assumption))
    · exact hz

theorem settleHost_keeps {s : State} (hz : Keeps ⟨φ0, true, true, true, φ4, φ5, φ6, φ7, φ8, true, φ10, φ11, φ12, true, true, φ15, true, φ17, φ18, φ19⟩ z0 s) : Keeps ⟨φ0, true, true, true, φ4, φ5, φ6, φ7, φ8, true, φ10, φ11, φ12, true, true, φ15, true, φ17, φ18, φ19⟩ z0 (settleHost s) := by
  unfold settleHost
  exact hostSettle_keeps hz

theorem ccp_keeps {op : Nat} {run : HostCmd → State → CcpRes} {s : State} (h_run : ∀ y0 y1, Keeps ⟨φ0, true, true, true, φ4, φ5, φ6, φ7, φ8, true, φ10, φ11, φ12, true, true, φ15, true, φ17, φ18, φ19⟩ z0 y1 → Keeps ⟨φ0, true, true, true, φ4, φ5, φ6, φ7, φ8, true, φ10, φ11, φ12, true, true, φ15, true, φ17, φ18, φ19⟩ z0 (run y0 y1).2) (hz : Keeps ⟨φ0, true, true, true, φ4, φ5, φ6, φ7, φ8, true, φ10, φ11, φ12, true, true, φ15, true, φ17, φ18, φ19⟩ z0 s) : Keeps ⟨φ0, true, true, true, φ4, φ5, φ6, φ7, φ8, true, φ10, φ11, φ12, true, true, φ15, true, φ17, φ18, φ19⟩ z0 (ccp op run s) := by
  unfold ccp
  extract_lets +onlyGivenNames front_1
  split
  · clear_value front_1
    split
    · apply settleHost_keeps
      apply hostRun_keeps
      · intro _ _ k2
        exact h_run _ _ k2
      · exact hz
    · apply settleHost_keeps
      apply takeCmd_keeps
      · intro _ _ k3
        exact h_run _ _ k3
      · exact Held.of_pair (nextFrame_keeps hz) (by with_reducible assumption)
  · clear_value front_1
    split
    · apply settleHost_keeps
      apply hostRun_keeps
      · intro _ _ k4
        exact h_run _ _ k4
      · exact hz
    · exact hz

theorem ccpPrio_keeps {op : Nat} {run : HostCmd → State → Nat × List Byte × State} {s : State} (h_run : ∀ y0 y1, Keeps ⟨φ0, true, true, true, φ4, φ5, φ6, φ7, φ8, true, φ10, φ11, φ12, true, true, φ15, true, φ17, φ18, φ19⟩ z0 y1 → Keeps ⟨φ0, true, true, true, φ4, φ5, φ6, φ7, φ8, true, φ10, φ11, φ12, true, true, φ15, true, φ17, φ18, φ19⟩ z0 (run y0 y1).2.2) (hz : Keeps ⟨φ0, true, true, true, φ4, φ5, φ6, φ7, φ8, true, φ10, φ11, φ12, true, true, φ15, true, φ17, φ18, φ19⟩ z0 s) : Keeps ⟨φ0, true, true, true, φ4, φ5, φ6, φ7, φ8, true, φ10, φ11, φ12, true, true, φ15, true, φ17, φ18, φ19⟩ z0 (ccpPrio op run s) := by
  unfold ccpPrio
  split
  · apply settleHost_keeps
    apply takePrio_keeps
    · intro _ _ k1
      exact h_run _ _ k1
    · exact Held.of_pair (nextFrame_keeps hz) (by with_reducible assumption)
  · exact hz

theorem noteErr_keeps {u : ReqUse} {st cause pos : Nat} {s : State} (hz : Keeps ⟨φ0, φ1, φ2, φ3, φ4, φ5, φ6, φ7, φ8, φ9, true, φ11, φ12, φ13, φ14, φ15, φ16, φ17, φ18, φ19⟩ z0 s) : Keeps ⟨φ0, φ1, φ2, φ3, φ4, φ5, φ6, φ7, φ8, φ9, true, φ11, φ12, φ13, φ14, φ15, φ16, φ17, φ18, φ19⟩ z0 (noteErr u st cause pos s) := by
  unfold noteErr
  split
  · split
    · exact hz
    · exact rbufPut_keeps hz
  · exact rbufPut_keeps hz

theorem hostRead_keeps {p : Nat} {x1 : List (Nat × Nat)} {x2 : State} (hz : Keeps ⟨φ0, true, true, φ3, φ4, φ5, φ6, true, true, true, true, φ11, φ12, φ13, φ14, φ15, true, φ17, φ18, φ19⟩ z0 x2) : Keeps ⟨φ0, true, true, φ3, φ4, φ5, φ6, true, true, true, true, φ11, φ12, φ13, φ14, φ15, true, φ17, φ18, φ19⟩ z0 (hostRead p x1 x2).2 := by
  induction x1 generalizing p x2 with
  | nil =>
    unfold hostRead
    exact hz
  | cons a l ih =>
    unfold hostRead
    dsimp only
    split
    · exact ih (access_keeps hz)
    · exact access_keeps hz

theorem hostWrite_keeps {p : Nat} {data : List Byte} {x1 : List (Nat × Nat)} {x2 : Nat} {x3 : State} (hz : Keeps ⟨φ0, true, true, φ3, φ4, φ5, φ6, true, true, true, true, φ11, φ12, φ13, φ14, φ15, true, φ17, φ18, φ19⟩ z0 x3) : Keeps ⟨φ0, true, true, φ3, φ4, φ5, φ6, true, true, true, true, φ11, φ12, φ13, φ14, φ15, true, φ17, φ18, φ19⟩ z0 (hostWrite p data x1 x2 x3).2 := by
  induction x1 generalizing p data x2 x3 with
  | nil =>
    unfold hostWrite
    exact hz
  | cons a l ih =>
    unfold hostWrite
    dsimp only
    split
    · exact ih (access_keeps hz)
    · dsimp only
      exact access_keeps hz

theorem hostSend_keeps {u : ReqUse} {op dst : Nat} {data : List Byte} {x1 : List (Nat × Nat)} {x2 : Nat} {x3 : State} (hz : Keeps ⟨φ0, true, true, φ3, φ4, φ5, φ6, φ7, φ8, true, true, φ11, φ12, φ13, φ14, φ15, true, φ17, φ18, φ19⟩ z0 x3) : Keeps ⟨φ0, true, true, φ3, φ4, φ5, φ6, φ7, φ8, true, true, φ11, φ12, φ13, φ14, φ15, true, φ17, φ18, φ19⟩ z0 (hostSend u op dst data x1 x2 x3) := by
  induction x1 generalizing u op dst data x2 x3 with
  | nil =>
    unfold hostSend
    exact hz
  | cons a l ih =>
    unfold hostSend
    extract_lets +onlyGivenNames r_1
    have k_r_1 : Keeps ⟨φ0, true, true, φ3, φ4, φ5, φ6, φ7, φ8, true, true, φ11, φ12, φ13, φ14, φ15, true, φ17, φ18, φ19⟩ z0 r_1.2 := sendReq_keeps hz
    clear_value r_1
    split
    · exact ih k_r_1
    · exact noteErr_keeps k_r_1

theorem readWordsAt_keeps {r : Req} {x1 x2 : Nat} {x3 : State} (hz : Keeps ⟨φ0, true, true, φ3, φ4, φ5, φ6, φ7, φ8, true, φ10, φ11, φ12, φ13, φ14, true, true, φ17, φ18, φ19⟩ z0 x3) : Keeps ⟨φ0, true, true, φ3, φ4, φ5, φ6, φ7, φ8, true, φ10, φ11, φ12, φ13, φ14, true, true, φ17, φ18, φ19⟩ z0 (readWordsAt r x1 x2 x3).2.2 := by
  induction x1 generalizing r x2 x3 with
  | zero =>
    unfold readWordsAt
    exact hz
  | succ n ih =>
    unfold readWordsAt
    dsimp only
    split
    · dsimp only
      exact readReg_keeps hz
    · dsimp only
      exact ih (readReg_keeps hz)

theorem refusedWrite_keeps {r : Req} {a : Nat} {v : Word} {s : State} (hz : Keeps ⟨true, true, true, true, true, true, true, true, true, true, true, true, true, true, true, true, true, true, true, true⟩ z0 s) : Keeps ⟨true, true, true, true, true, true, true, true, true, true, true, true, true, true, true, true, true, true, true, true⟩ z0 (refusedWrite r a v s).2 := by
  unfold refusedWrite
  split
  · exact writeReg_keeps hz
  · split
    · exact writeReg_keeps hz
    · split
      · dsimp only
        split
        · dsimp only
          exact writeReg_keeps hz
        · exact writeReg_keeps hz
      · split
        · exact writeReg_keeps hz
        · dsimp only
          split
          · dsimp only
            exact writeReg_keeps (wrReg_keeps hz)
          · dsimp only
            exact wrReg_keeps (writeReg_keeps (wrReg_keeps hz))

theorem writeWordsAt_keeps {r : Req} {x1 : List Word} {x2 x3 : Nat} {x4 : State} (hz : Keeps ⟨true, true, true, true, true, true, true, true, true, true, true, true, true, true, true, true, true, true, true, true⟩ z0 x4) : Keeps ⟨true, true, true, true, true, true, true, true, true, true, true, true, true, true, true, true, true, true, true, true⟩ z0 (writeWordsAt r x1 x2 x3 x4).2.2 := by
  induction x1 generalizing r x2 x3 x4 with
  | nil =>
    unfold writeWordsAt
    exact hz
  | cons a l ih =>
    unfold writeWordsAt
    dsimp only
    split
    · dsimp only
      exact refusedWrite_keeps hz
    · exact ih (refusedWrite_keeps hz)

theorem hostDone_keeps {port seq : Nat} {s : State} (hz : Keeps ⟨φ0, true, true, true, φ4, φ5, φ6, φ7, φ8, true, true, φ11, φ12, true, true, φ15, true, φ17, φ18, φ19⟩ z0 s) : Keeps ⟨φ0, true, true, true, φ4, φ5, φ6, φ7, φ8, true, true, φ11, φ12, true, true, φ15, true, φ17, φ18, φ19⟩ z0 (hostDone port seq s) := by
  unfold hostDone
  extract_lets +onlyGivenNames u_1
  split
  · exact hz
  · split
    · exact hz
    · extract_lets +onlyGivenNames r_2
      exact settleHost_keeps (hostFinish_keeps (dropUse_keeps hz))

theorem flashErase_keeps {a n : Nat} {s : State} (hz : Keeps ⟨φ0, φ1, φ2, φ3, φ4, φ5, φ6, φ7, φ8, φ9, φ10, φ11, φ12, φ13, φ14, φ15, φ16, φ17, φ18, true⟩ z0 s) : Keeps ⟨φ0, φ1, φ2, φ3, φ4, φ5, φ6, φ7, φ8, φ9, φ10, φ11, φ12, φ13, φ14, φ15, φ16, φ17, φ18, true⟩ z0 (flashErase a n s) :=
  Keeps.step hz rfl (Nat.le_refl _) id id (fun f => Tbl.wf_filter _ _ f) (otpKept_refl s) id

theorem flashProgram_aux (a : Nat) (l : List Byte) (f : Tbl Byte) (h : Flash.wf f = true) : Flash.wf (flashPut a l f) = true := by
  induction l generalizing a f with
  | nil => exact h
  | cons b l ih => exact ih _ _ (Tbl.wf_set f a _ h)

theorem flashProgram_keeps {a : Nat} {l : List Byte} {s : State} (hz : Keeps ⟨φ0, φ1, φ2, φ3, φ4, φ5, φ6, φ7, φ8, φ9, φ10, φ11, φ12, φ13, φ14, φ15, φ16, φ17, φ18, true⟩ z0 s) : Keeps ⟨φ0, φ1, φ2, φ3, φ4, φ5, φ6, φ7, φ8, φ9, φ10, φ11, φ12, φ13, φ14, φ15, φ16, φ17, φ18, true⟩ z0 (flashProgram a l s) :=
  Keeps.step hz rfl (Nat.le_refl _) id id (fun f => flashProgram_aux a l _ f) (otpKept_refl s) id

theorem flashError_keeps {off op : Nat} {inj : Bool} {s : State} (hz : Keeps ⟨φ0, true, true, φ3, φ4, φ5, φ6, φ7, φ8, true, φ10, φ11, φ12, φ13, φ14, φ15, true, φ17, φ18, φ19⟩ z0 s) : Keeps ⟨φ0, true, true, φ3, φ4, φ5, φ6, φ7, φ8, true, φ10, φ11, φ12, φ13, φ14, φ15, true, φ17, φ18, φ19⟩ z0 (flashError off op inj s) := by
  unfold flashError
  exact raise_keeps hz

theorem programRetry_keeps {off : Nat} {s : State} (hz : Keeps ⟨φ0, true, true, φ3, φ4, φ5, φ6, φ7, φ8, true, φ10, φ11, φ12, φ13, φ14, φ15, true, φ17, φ18, φ19⟩ z0 s) : Keeps ⟨φ0, true, true, φ3, φ4, φ5, φ6, φ7, φ8, true, φ10, φ11, φ12, φ13, φ14, φ15, true, φ17, φ18, φ19⟩ z0 (programRetry off s) := by
  unfold programRetry
  split
  · exact flashError_keeps (disarm_keeps hz)
  · exact hz

theorem writeDescriptor_keeps {d : BootDesc} {s : State} (hz : Keeps ⟨φ0, true, true, φ3, φ4, φ5, φ6, φ7, φ8, true, φ10, φ11, φ12, φ13, φ14, φ15, true, φ17, φ18, true⟩ z0 s) : Keeps ⟨φ0, true, true, φ3, φ4, φ5, φ6, φ7, φ8, true, φ10, φ11, φ12, φ13, φ14, φ15, true, φ17, φ18, true⟩ z0 (writeDescriptor d s) := by
  unfold writeDescriptor
  extract_lets +onlyGivenNames old_1 w_2 v_3 first_4 s1_5
  have k_s1_5 : Keeps ⟨φ0, true, true, φ3, φ4, φ5, φ6, φ7, φ8, true, φ10, φ11, φ12, φ13, φ14, φ15, true, φ17, φ18, true⟩ z0 s1_5 := programRetry_keeps hz
  clear_value s1_5
  split
  · exact Keeps.of k_s1_5 rfl
  · exact Keeps.of k_s1_5 rfl

theorem imageRejected_keeps {slot cause : Nat} {s : State} (hz : Keeps ⟨φ0, true, true, φ3, φ4, φ5, φ6, φ7, φ8, true, φ10, φ11, φ12, φ13, φ14, φ15, true, φ17, φ18, φ19⟩ z0 s) : Keeps ⟨φ0, true, true, φ3, φ4, φ5, φ6, φ7, φ8, true, φ10, φ11, φ12, φ13, φ14, φ15, true, φ17, φ18, φ19⟩ z0 (imageRejected slot cause s) := by
  unfold imageRejected
  extract_lets +onlyGivenNames put_1
  split
  · subst put_1
    dsimp only
    exact raise_keeps hz
  · subst put_1
    dsimp only
    exact raise_keeps hz
  · subst put_1
    dsimp only
    exact raise_keeps hz
  · extract_lets +onlyGivenNames f_2
    have k_f_2 : Keeps ⟨φ0, true, true, φ3, φ4, φ5, φ6, φ7, φ8, true, φ10, φ11, φ12, φ13, φ14, φ15, true, φ17, φ18, φ19⟩ z0 f_2.2 := fresh_keeps hz
    clear_value f_2
    subst put_1
    dsimp only
    exact raise_keeps k_f_2

theorem setUpd_keeps {v : Nat} {s : State} (hz : Keeps ⟨φ0, φ1, φ2, φ3, φ4, φ5, φ6, φ7, φ8, φ9, φ10, φ11, φ12, φ13, φ14, φ15, φ16, φ17, φ18, φ19⟩ z0 s) : Keeps ⟨φ0, φ1, φ2, φ3, φ4, φ5, φ6, φ7, φ8, φ9, φ10, φ11, φ12, φ13, φ14, φ15, φ16, φ17, φ18, φ19⟩ z0 (setUpd v s) := by
  unfold setUpd
  exact wrField_keeps hz

theorem evUpdateDone_keeps {op version : Nat} {s : State} (hz : Keeps ⟨φ0, true, true, φ3, φ4, φ5, φ6, φ7, φ8, true, φ10, φ11, φ12, φ13, φ14, φ15, true, φ17, φ18, φ19⟩ z0 s) : Keeps ⟨φ0, true, true, φ3, φ4, φ5, φ6, φ7, φ8, true, φ10, φ11, φ12, φ13, φ14, φ15, true, φ17, φ18, φ19⟩ z0 (evUpdateDone op version s) := by
  unfold evUpdateDone
  exact raise_keeps (wrField_keeps hz)

theorem evUpdateFailed_keeps {op cause : Nat} {inj : Bool} {s : State} (hz : Keeps ⟨φ0, true, true, φ3, φ4, φ5, φ6, φ7, φ8, true, φ10, φ11, φ12, φ13, φ14, φ15, true, φ17, φ18, φ19⟩ z0 s) : Keeps ⟨φ0, true, true, φ3, φ4, φ5, φ6, φ7, φ8, true, φ10, φ11, φ12, φ13, φ14, φ15, true, φ17, φ18, φ19⟩ z0 (evUpdateFailed op cause inj s).2 := by
  unfold evUpdateFailed
  exact raiseSeq_keeps (wrField_keeps hz)

theorem ccpFail_keeps {ev : Nat} {s : State} (hz : Keeps ⟨φ0, φ1, φ2, φ3, φ4, φ5, φ6, φ7, φ8, φ9, φ10, φ11, φ12, φ13, φ14, φ15, φ16, φ17, φ18, φ19⟩ z0 s) : Keeps ⟨φ0, φ1, φ2, φ3, φ4, φ5, φ6, φ7, φ8, φ9, φ10, φ11, φ12, φ13, φ14, φ15, φ16, φ17, φ18, φ19⟩ z0 (ccpFail ev s).2 := by
  unfold ccpFail
  dsimp only
  exact fresh_keeps hz

theorem compact_keeps {s : State} (hz : Keeps ⟨φ0, true, true, φ3, φ4, φ5, φ6, φ7, φ8, true, φ10, true, φ12, φ13, φ14, φ15, true, φ17, φ18, φ19⟩ z0 s) : Keeps ⟨φ0, true, true, φ3, φ4, φ5, φ6, φ7, φ8, true, φ10, true, φ12, φ13, φ14, φ15, true, φ17, φ18, φ19⟩ z0 (compact s) := by
  unfold compact
  extract_lets +onlyGivenNames s1_1 g_2
  have k_s1_1 : Keeps ⟨φ0, true, true, φ3, φ4, φ5, φ6, φ7, φ8, true, φ10, true, φ12, φ13, φ14, φ15, true, φ17, φ18, φ19⟩ z0 s1_1 := programRetry_keeps hz
  clear_value s1_1
  apply raise_keeps
  exact Keeps.of k_s1_1 rfl

theorem loadKey_keeps {s : State} (hz : Keeps ⟨φ0, φ1, φ2, φ3, φ4, φ5, φ6, φ7, φ8, φ9, φ10, φ11, φ12, φ13, φ14, φ15, φ16, φ17, φ18, true⟩ z0 s) : Keeps ⟨φ0, φ1, φ2, φ3, φ4, φ5, φ6, φ7, φ8, φ9, φ10, φ11, φ12, φ13, φ14, φ15, φ16, φ17, φ18, true⟩ z0 (loadKey s) := by
  unfold loadKey
  extract_lets +onlyGivenNames key_1
  exact Keeps.of hz rfl

theorem applyKey_aux {s : State} {n : Nat} {o : Owner} (h : ownerSlot s = some (n, o)) : Tbl.find? s.sec.owners n = some o := by
  unfold ownerSlot at h
  obtain ⟨m, _, e⟩ := List.exists_of_findSome?_eq_some h
  split at e
  · rename_i p hp
    split at e
    · cases e
    · cases e; exact hp
  · cases e

theorem applyKey_keeps {s : State} (hz : Keeps ⟨φ0, φ1, φ2, φ3, φ4, φ5, φ6, φ7, φ8, φ9, φ10, φ11, φ12, φ13, φ14, φ15, φ16, φ17, φ18, true⟩ z0 s) : Keeps ⟨φ0, φ1, φ2, φ3, φ4, φ5, φ6, φ7, φ8, φ9, φ10, φ11, φ12, φ13, φ14, φ15, φ16, φ17, φ18, true⟩ z0 (applyKey s) := by
  unfold applyKey
  split
  · exact hz
  · rename_i n o ho
    extract_lets +onlyGivenNames _ s1
    have k1 : Keeps ⟨φ0, φ1, φ2, φ3, φ4, φ5, φ6, φ7, φ8, φ9, φ10, φ11, φ12, φ13, φ14, φ15, φ16, φ17, φ18, true⟩ z0 s1 := by
      dsimp only [s1]
      split
      · exact loadKey_keeps hz
      · exact Keeps.of hz rfl
    have e1 : s1.sec.owners = s.sec.owners := by
      dsimp only [s1, loadKey]
      split <;> rfl
    split
    · split
      · exact k1
      · rename_i hc
        simp only [not_or, Bool.not_eq_true, Option.isSome_eq_false_iff, Option.isNone_iff_eq_none] at hc
        refine Keeps.step k1 rfl (Nat.le_refl _) id id id ⟨rfl, Nat.le_refl _, Nat.le_refl _, Nat.le_refl _, fun i p hp => ?_⟩ id
        rw [e1] at hp
        show ∃ q, Tbl.find? (Tbl.put (Tbl.put s1.sec.owners (n + 1) _) n _) i = some q ∧ _
        by_cases hi : i = n
        · subst hi
          rw [applyKey_aux ho] at hp
          cases hp
          exact ⟨_, Tbl.find?_put_self _ _ _, rfl, rfl, fun _ => rfl⟩
        · have hn : i ≠ n + 1 := by
            rintro rfl
            rw [hc.2] at hp; cases hp
          exact ⟨p, by rw [Tbl.find?_put_ne _ _ hi, Tbl.find?_put_ne _ _ hn, e1]; exact hp, rfl, rfl, id⟩
    · exact k1

theorem appendRecord_keeps {r0 : SetRec} {s : State} (hz : Keeps ⟨φ0, true, true, φ3, φ4, φ5, φ6, φ7, φ8, true, φ10, true, φ12, true, φ14, φ15, true, φ17, φ18, true⟩ z0 s) : Keeps ⟨φ0, true, true, φ3, φ4, φ5, φ6, φ7, φ8, true, φ10, true, φ12, true, φ14, φ15, true, φ17, φ18, true⟩ z0 (appendRecord r0 s) := by
  unfold appendRecord
  extract_lets +onlyGivenNames r_1 s1_2
  extract_lets +onlyGivenNames s1_3
  have k_s1_3 : Keeps ⟨φ0, true, true, φ3, φ4, φ5, φ6, φ7, φ8, true, φ10, true, φ12, true, φ14, φ15, true, φ17, φ18, true⟩ z0 s1_3 := Keeps.of hz rfl
  clear_value s1_3
  split
  · exact k_s1_3
  · split
    · exact applyKey_keeps k_s1_3
    · exact applyKind_keeps k_s1_3

theorem evAttestState_keeps {cause : Nat} {s : State} (hz : Keeps ⟨φ0, true, true, φ3, φ4, φ5, φ6, φ7, φ8, true, φ10, φ11, φ12, φ13, φ14, φ15, true, φ17, φ18, φ19⟩ z0 s) : Keeps ⟨φ0, true, true, φ3, φ4, φ5, φ6, φ7, φ8, true, φ10, φ11, φ12, φ13, φ14, φ15, true, φ17, φ18, φ19⟩ z0 (evAttestState cause s) := by
  unfold evAttestState
  exact raise_keeps hz

theorem writeSig_keeps {next : Nat} {s : State} (hz : Keeps ⟨φ0, true, true, φ3, φ4, φ5, φ6, φ7, φ8, true, φ10, φ11, φ12, φ13, φ14, φ15, true, φ17, φ18, true⟩ z0 s) : Keeps ⟨φ0, true, true, φ3, φ4, φ5, φ6, φ7, φ8, true, φ10, φ11, φ12, φ13, φ14, φ15, true, φ17, φ18, true⟩ z0 (writeSig next s) := by
  unfold writeSig
  extract_lets +onlyGivenNames seq_1 w_2 v_3 first_4 s1_5
  have k_s1_5 : Keeps ⟨φ0, true, true, φ3, φ4, φ5, φ6, φ7, φ8, true, φ10, φ11, φ12, φ13, φ14, φ15, true, φ17, φ18, true⟩ z0 s1_5 := programRetry_keeps hz
  clear_value s1_5
  split
  · exact Keeps.of k_s1_5 rfl
  · exact Keeps.of k_s1_5 rfl

theorem burnTop_keeps {cause : Nat} {s : State} (hz : Keeps ⟨φ0, true, true, φ3, φ4, φ5, φ6, φ7, φ8, true, φ10, φ11, φ12, φ13, φ14, φ15, true, φ17, φ18, true⟩ z0 s) : Keeps ⟨φ0, true, true, φ3, φ4, φ5, φ6, φ7, φ8, true, φ10, φ11, φ12, φ13, φ14, φ15, true, φ17, φ18, true⟩ z0 (burnTop cause s) := by
  unfold burnTop
  split
  · exact hz
  · extract_lets _ s1
    have k : Keeps ⟨φ0, true, true, φ3, φ4, φ5, φ6, φ7, φ8, true, φ10, φ11, φ12, φ13, φ14, φ15, true, φ17, φ18, true⟩ z0 s1 := by
      apply evAttestState_keeps
      apply writeSig_keeps
      exact Keeps.step hz rfl (Nat.le_refl _) id id id ⟨rfl, Nat.le_refl _, Nat.le_refl _, Nat.le_succ _, fun _ o e => ⟨o, e, rfl, rfl, id⟩⟩ id
    split
    · exact evAttestState_keeps k
    · exact k

theorem turnTree_keeps {s : State} (hz : Keeps ⟨φ0, true, true, φ3, φ4, φ5, φ6, φ7, φ8, true, φ10, φ11, φ12, φ13, φ14, φ15, true, φ17, φ18, true⟩ z0 s) : Keeps ⟨φ0, true, true, φ3, φ4, φ5, φ6, φ7, φ8, true, φ10, φ11, φ12, φ13, φ14, φ15, true, φ17, φ18, true⟩ z0 (turnTree s) := by
  unfold turnTree
  extract_lets +onlyGivenNames s1_1
  extract_lets +onlyGivenNames s1_2
  have k_s1_2 : Keeps ⟨φ0, true, true, φ3, φ4, φ5, φ6, φ7, φ8, true, φ10, φ11, φ12, φ13, φ14, φ15, true, φ17, φ18, true⟩ z0 s1_2 := by
    subst s1_2
    split
    · exact Keeps.of hz rfl
    · exact hz
  clear_value s1_2
  split
  · exact burnTop_keeps k_s1_2
  · exact k_s1_2

theorem fetchPieces_keeps {x1 : List (Nat × Nat)} {x2 : State} (hz : Keeps ⟨φ0, true, true, φ3, φ4, φ5, φ6, true, true, true, true, φ11, φ12, φ13, φ14, φ15, true, φ17, φ18, φ19⟩ z0 x2) : Keeps ⟨φ0, true, true, φ3, φ4, φ5, φ6, true, true, true, true, φ11, φ12, φ13, φ14, φ15, true, φ17, φ18, φ19⟩ z0 (fetchPieces x1 x2).2 := by
  induction x1 generalizing x2 with
  | nil =>
    unfold fetchPieces
    exact hz
  | cons a l ih =>
    unfold fetchPieces
    dsimp only
    split
    · exact ih (access_keeps hz)
    · dsimp only
      exact access_keeps hz

theorem fetchMem_keeps {addr n : Nat} {s : State} (hz : Keeps ⟨φ0, true, true, φ3, φ4, φ5, φ6, true, true, true, true, φ11, φ12, φ13, φ14, φ15, true, φ17, φ18, φ19⟩ z0 s) : Keeps ⟨φ0, true, true, φ3, φ4, φ5, φ6, true, true, true, true, φ11, φ12, φ13, φ14, φ15, true, φ17, φ18, φ19⟩ z0 (fetchMem addr n s).2 := by
  unfold fetchMem
  split
  · exact hz
  · exact fetchPieces_keeps hz

theorem marginFail_keeps {x : State × Nat} {q : Nat} (hz : Keeps ⟨φ0, true, true, φ3, true, φ5, φ6, φ7, φ8, true, φ10, true, φ12, φ13, φ14, φ15, true, φ17, φ18, φ19⟩ z0 x.1) : Keeps ⟨φ0, true, true, φ3, true, φ5, φ6, φ7, φ8, true, φ10, true, φ12, φ13, φ14, φ15, true, φ17, φ18, φ19⟩ z0 (marginFail x q).1 := by
  unfold marginFail
  extract_lets s v
  split
  · exact hz
  · split
    · exact raise_keeps (askSetting_keeps (setQuill_keeps hz))
    · split
      · exact raiseGuard_keeps hz
      · exact withdrawQuill_keeps hz

theorem startTable_keeps {fails : List Nat} {s : State} (hz : Keeps ⟨φ0, true, true, φ3, true, φ5, φ6, φ7, φ8, true, φ10, true, φ12, φ13, φ14, φ15, true, φ17, true, φ19⟩ z0 s) : Keeps ⟨φ0, true, true, φ3, true, φ5, φ6, φ7, φ8, true, φ10, true, φ12, φ13, φ14, φ15, true, φ17, true, φ19⟩ z0 (startTable fails s) := by
  unfold startTable
  extract_lets +onlyGivenNames done_1
  split
  · subst done_1
    dsimp only
    exact Keeps.of (raise_keeps hz) rfl
  · extract_lets +onlyGivenNames s1_2 s2_3 s3_4 s4_5
    have k_s2_3 : Keeps ⟨φ0, true, true, φ3, true, φ5, φ6, φ7, φ8, true, φ10, true, φ12, φ13, φ14, φ15, true, φ17, true, φ19⟩ z0 s2_3 := Keeps.of hz rfl
    have k_s3_4 : Keeps ⟨φ0, true, true, φ3, true, φ5, φ6, φ7, φ8, true, φ10, true, φ12, φ13, φ14, φ15, true, φ17, true, φ19⟩ z0 s3_4 := wrField_keeps k_s2_3
    have k_s4_5 : Keeps ⟨φ0, true, true, φ3, true, φ5, φ6, φ7, φ8, true, φ10, true, φ12, φ13, φ14, φ15, true, φ17, true, φ19⟩ z0 s4_5 := by
      subst s4_5
      apply Keeps.foldl
      · exact k_s3_4
      · intro _ _ k6
        exact setQuill_keeps k6
    clear_value s2_3 s3_4 s4_5
    extract_lets +onlyGivenNames s4_7
    have k_s4_7 : Keeps ⟨φ0, true, true, φ3, true, φ5, φ6, φ7, φ8, true, φ10, true, φ12, φ13, φ14, φ15, true, φ17, true, φ19⟩ z0 s4_7 := by
      subst s4_7
      apply Keeps.foldl_fst
      · exact k_s4_5
      · intro _ _ k8
        exact marginFail_keeps k8
    clear_value s4_7
    subst done_1
    dsimp only
    exact Keeps.of (setVddq_keeps k_s4_7) rfl

theorem mainStart_keeps {fails : List Nat} {s : State} (hz : Keeps ⟨φ0, true, true, φ3, true, φ5, φ6, φ7, φ8, true, φ10, true, φ12, φ13, φ14, true, true, φ17, true, φ19⟩ z0 s) : Keeps ⟨φ0, true, true, φ3, true, φ5, φ6, φ7, φ8, true, φ10, true, φ12, φ13, φ14, true, true, φ17, true, φ19⟩ z0 (mainStart fails s) := by
  unfold mainStart
  exact startTable_keeps (applyTightrope_keeps (snStart_keeps (applySafety_keeps hz)))

theorem scanSettings_keeps {s : State} (hz : Keeps ⟨φ0, true, true, φ3, φ4, φ5, φ6, φ7, φ8, true, φ10, true, φ12, φ13, φ14, φ15, true, φ17, φ18, φ19⟩ z0 s) : Keeps ⟨φ0, true, true, φ3, φ4, φ5, φ6, φ7, φ8, true, φ10, true, φ12, φ13, φ14, φ15, true, φ17, φ18, φ19⟩ z0 (scanSettings s) := by
  unfold scanSettings
  extract_lets +onlyGivenNames recs_1
  apply Keeps.foldl
  · exact Keeps.of hz rfl
  · intro _ _ k2
    split
    · split
      · exact k2
      · exact raise_keeps k2
    · exact k2

theorem writeBoots_keeps {s : State} (hz : Keeps ⟨φ0, true, true, φ3, φ4, φ5, φ6, φ7, φ8, true, φ10, true, φ12, true, φ14, φ15, true, φ17, φ18, true⟩ z0 s) : Keeps ⟨φ0, true, true, φ3, φ4, φ5, φ6, φ7, φ8, true, φ10, true, φ12, true, φ14, φ15, true, φ17, φ18, true⟩ z0 (writeBoots s) := by
  unfold writeBoots
  extract_lets +onlyGivenNames n_1 s1_2
  have k_s1_2 : Keeps ⟨φ0, true, true, φ3, φ4, φ5, φ6, φ7, φ8, true, φ10, true, φ12, true, φ14, φ15, true, φ17, φ18, true⟩ z0 s1_2 := by
    subst s1_2
    split
    · exact compact_keeps hz
    · exact hz
  clear_value s1_2
  exact appendRecord_keeps (programRetry_keeps k_s1_2)

theorem startKey_keeps {s : State} (hz : Keeps ⟨φ0, true, true, φ3, φ4, φ5, φ6, φ7, φ8, true, φ10, φ11, φ12, φ13, φ14, φ15, true, φ17, φ18, true⟩ z0 s) : Keeps ⟨φ0, true, true, φ3, φ4, φ5, φ6, φ7, φ8, true, φ10, φ11, φ12, φ13, φ14, φ15, true, φ17, φ18, true⟩ z0 (startKey s) := by
  unfold startKey
  split
  · exact burnTop_keeps hz
  · exact turnTree_keeps hz

theorem openHost_keeps {s : State} (hz : Keeps ⟨φ0, φ1, φ2, φ3, φ4, φ5, φ6, φ7, φ8, φ9, φ10, φ11, φ12, φ13, φ14, φ15, φ16, φ17, φ18, φ19⟩ z0 s) : Keeps ⟨φ0, φ1, φ2, φ3, φ4, φ5, φ6, φ7, φ8, φ9, φ10, φ11, φ12, φ13, φ14, φ15, φ16, φ17, φ18, φ19⟩ z0 (openHost s) := by
  unfold openHost
  exact wrField_keeps (wrField_keeps hz)

theorem startImage_aux {s : State} {run : List Byte} {slot before phase : Nat} (hz : Keeps ⟨φ0, true, true, φ3, true, φ5, φ6, φ7, φ8, true, φ10, true, φ12, true, φ14, true, true, φ17, true, true⟩ z0 s) :
    Keeps ⟨φ0, true, true, φ3, true, φ5, φ6, φ7, φ8, true, φ10, true, φ12, true, φ14, true, true, φ17, true, true⟩ z0 { s with sn := { s.sn with safeOut := false }, sec := { s.sec with run := run, slot := slot, before := before, phase := phase, hold := 0 } } :=
  Keeps.step hz rfl (Nat.le_refl _) id id id ⟨rfl, Nat.le_refl _, Nat.le_refl _, Nat.le_refl _, fun _ o e => ⟨o, e, rfl, rfl, id⟩⟩ (fun _ e => (nomatch e))

theorem startImage_keeps {slot reason : Nat} {fails : List Nat} {s : State} (hz : Keeps ⟨φ0, true, true, φ3, true, φ5, φ6, φ7, φ8, true, φ10, true, φ12, true, φ14, true, true, φ17, true, true⟩ z0 s) : Keeps ⟨φ0, true, true, φ3, true, φ5, φ6, φ7, φ8, true, φ10, true, φ12, true, φ14, true, true, φ17, true, true⟩ z0 (startImage slot reason fails s) := by
  unfold startImage
  extract_lets h trial _ _ s1 s2 s3 s4
  have k1 : Keeps ⟨φ0, true, true, φ3, true, φ5, φ6, φ7, φ8, true, φ10, true, φ12, true, φ14, true, true, φ17, true, true⟩ z0 s1 := startImage_aux hz
  have k2 : Keeps ⟨φ0, true, true, φ3, true, φ5, φ6, φ7, φ8, true, φ10, true, φ12, true, φ14, true, true, φ17, true, true⟩ z0 s2 := wrReg_keeps (wrReg_keeps k1)
  clear_value s2
  have k3 : Keeps ⟨φ0, true, true, φ3, true, φ5, φ6, φ7, φ8, true, φ10, true, φ12, true, φ14, true, true, φ17, true, true⟩ z0 s3 := by
    apply startKey_keeps
    split
    · exact setUpd_keeps k2
    · exact k2
  clear_value s3
  have k4 : Keeps ⟨φ0, true, true, φ3, true, φ5, φ6, φ7, φ8, true, φ10, true, φ12, true, φ14, true, true, φ17, true, true⟩ z0 s4 := openHost_keeps (loadKey_keeps (applyDevice_keeps (loadPage_keeps (loadPage_keeps (writeBoots_keeps (scanSettings_keeps k3))))))
  split
  · exact mainStart_keeps k4
  · exact k4

theorem evFallback_keeps {slot reason : Nat} {s : State} (hz : Keeps ⟨φ0, true, true, φ3, φ4, φ5, φ6, φ7, φ8, true, φ10, φ11, φ12, φ13, φ14, φ15, true, φ17, φ18, φ19⟩ z0 s) : Keeps ⟨φ0, true, true, φ3, φ4, φ5, φ6, φ7, φ8, true, φ10, φ11, φ12, φ13, φ14, φ15, true, φ17, φ18, φ19⟩ z0 (evFallback slot reason s) := by
  unfold evFallback
  exact raise_keeps hz

theorem bootRecovery_keeps {reason : Nat} {fallback : Bool} {fails : List Nat} {s : State} (hz : Keeps ⟨φ0, true, true, φ3, true, φ5, φ6, φ7, φ8, true, φ10, true, φ12, true, φ14, true, true, φ17, true, true⟩ z0 s) :
    Keeps ⟨φ0, true, true, φ3, true, φ5, φ6, φ7, φ8, true, φ10, true, φ12, true, φ14, true, true, φ17, true, true⟩ z0 (bootRecovery reason fallback fails s) := by
  unfold bootRecovery
  split
  · apply startImage_keeps
    split
    · exact evFallback_keeps hz
    · exact hz
  · rename_i k _
    have k1 : Keeps ⟨φ0, true, true, φ3, true, φ5, φ6, φ7, φ8, true, φ10, true, φ12, true, φ14, true, true, φ17, true, true⟩ z0 (imageRejected 2 k s) := imageRejected_keeps hz
    apply openHost_keeps
    exact Keeps.step k1 rfl (Nat.le_refl _) id id id ⟨rfl, Nat.le_refl _, Nat.le_refl _, Nat.le_refl _, fun _ o e => ⟨o, e, rfl, rfl, id⟩⟩ (fun _ e => (nomatch e))

theorem bootDevice_keeps {fails : List Nat} {s : State} (hz : Keeps ⟨φ0, true, true, φ3, true, φ5, φ6, φ7, φ8, true, φ10, true, φ12, true, φ14, true, true, φ17, true, true⟩ z0 s) : Keeps ⟨φ0, true, true, φ3, true, φ5, φ6, φ7, φ8, true, φ10, true, φ12, true, φ14, true, true, φ17, true, true⟩ z0 (bootDevice fails s) := by
  unfold bootDevice
  split
  · exact bootRecovery_keeps hz
  · extract_lets +onlyGivenNames d_1 trial_2 first_3 reason_4 s1_5
    have k_s1_5 : Keeps ⟨φ0, true, true, φ3, true, φ5, φ6, φ7, φ8, true, φ10, true, φ12, true, φ14, true, true, φ17, true, true⟩ z0 s1_5 := by
      subst s1_5
      split
      · exact writeDescriptor_keeps hz
      · exact hz
    clear_value s1_5
    split
    · exact startImage_keeps k_s1_5
    · extract_lets +onlyGivenNames s2_6
      have k_s2_6 : Keeps ⟨φ0, true, true, φ3, true, φ5, φ6, φ7, φ8, true, φ10, true, φ12, true, φ14, true, true, φ17, true, true⟩ z0 s2_6 := imageRejected_keeps k_s1_5
      clear_value s2_6
      split
      · exact startImage_keeps (evFallback_keeps k_s2_6)
      · exact bootRecovery_keeps (imageRejected_keeps k_s2_6)

theorem execBoot_keeps {fails : List Nat} {s : State} (hz : Keeps ⟨φ0, true, true, φ3, true, φ5, φ6, φ7, φ8, true, φ10, true, φ12, true, φ14, true, true, φ17, true, true⟩ z0 s) : Kept ⟨φ0, true, true, φ3, true, φ5, φ6, φ7, φ8, true, φ10, true, φ12, true, φ14, true, true, φ17, true, true⟩ z0 (execBoot fails s) := by
  unfold execBoot
  apply Kept.next
  split
  · exact hz
  · exact bootDevice_keeps hz

theorem latchPins_keeps {straps banks : Nat} {s : State} (hz : Keeps ⟨φ0, φ1, φ2, φ3, φ4, φ5, φ6, φ7, φ8, φ9, φ10, φ11, φ12, φ13, φ14, φ15, φ16, φ17, φ18, φ19⟩ z0 s) : Keeps ⟨φ0, φ1, φ2, φ3, φ4, φ5, φ6, φ7, φ8, φ9, φ10, φ11, φ12, φ13, φ14, φ15, φ16, φ17, φ18, φ19⟩ z0 (latchPins straps banks s) := by
  unfold latchPins
  exact wrField_keeps (wrReg_keeps (wrReg_keeps hz))

theorem execPowerOnReset_keeps {straps banks : Nat} {s : State} (hz : Keeps ⟨φ0, true, true, true, true, true, true, true, true, true, true, true, true, true, true, true, true, true, true, true⟩ z0 s) : Kept ⟨φ0, true, true, true, true, true, true, true, true, true, true, true, true, true, true, true, true, true, true, true⟩ z0 (execPowerOnReset straps banks s) := by
  unfold execPowerOnReset
  exact Kept.next (latchPins_keeps (resetDevice_keeps hz))

theorem execResetPin_keeps {straps banks : Nat} {s : State} (hz : Keeps ⟨φ0, true, true, true, true, true, true, true, true, true, true, true, true, true, true, true, true, true, true, true⟩ z0 s) : Kept ⟨φ0, true, true, true, true, true, true, true, true, true, true, true, true, true, true, true, true, true, true, true⟩ z0 (execResetPin straps banks s) := by
  unfold execResetPin
  exact Kept.next (latchPins_keeps (resetDevice_keeps hz))

theorem execMgmtWatchdog_keeps {s : State} (hz : Keeps ⟨φ0, true, true, true, true, true, true, true, true, true, true, true, true, true, true, true, true, true, true, true⟩ z0 s) : Kept ⟨φ0, true, true, true, true, true, true, true, true, true, true, true, true, true, true, true, true, true, true, true⟩ z0 (execMgmtWatchdog s) := by
  unfold execMgmtWatchdog
  apply Kept.next
  split
  · exact resetDevice_keeps hz
  · exact hz

theorem execRailUndervoltage_keeps {rail mv : Nat} {s : State} (hz : Keeps ⟨φ0, true, true, true, true, true, true, true, true, true, true, true, true, true, true, true, true, true, true, true⟩ z0 s) : Kept ⟨φ0, true, true, true, true, true, true, true, true, true, true, true, true, true, true, true, true, true, true, true⟩ z0 (execRailUndervoltage rail mv s) := by
  unfold execRailUndervoltage
  apply Kept.next
  split
  · exact resetDevice_keeps hz
  · exact hz

theorem execRefclkLoss_keeps {s : State} (hz : Keeps ⟨φ0, true, true, true, true, true, true, true, true, true, true, true, true, true, true, true, true, true, true, true⟩ z0 s) : Kept ⟨φ0, true, true, true, true, true, true, true, true, true, true, true, true, true, true, true, true, true, true, true⟩ z0 (execRefclkLoss s) := by
  unfold execRefclkLoss
  apply Kept.next
  split
  · exact hz
  · exact resetDevice_keeps (snFault_keeps hz)

theorem execRefclkReturn_keeps {s : State} (hz : Keeps ⟨φ0, φ1, φ2, φ3, true, φ5, φ6, φ7, φ8, φ9, φ10, φ11, φ12, φ13, φ14, φ15, φ16, φ17, φ18, true⟩ z0 s) : Kept ⟨φ0, φ1, φ2, φ3, true, φ5, φ6, φ7, φ8, φ9, φ10, φ11, φ12, φ13, φ14, φ15, φ16, φ17, φ18, true⟩ z0 (execRefclkReturn s) := by
  unfold execRefclkReturn
  apply Kept.next
  split
  · extract_lets +onlyGivenNames t_1
    have k_t_1 : Keeps ⟨φ0, φ1, φ2, φ3, true, φ5, φ6, φ7, φ8, φ9, φ10, φ11, φ12, φ13, φ14, φ15, φ16, φ17, φ18, true⟩ z0 t_1 := advance_keeps hz
    clear_value t_1
    exact Keeps.of k_t_1 rfl
  · exact hz

theorem setSecY_keeps {p : Nat} {v : HostSecY} {s : State} (hz : Keeps ⟨φ0, φ1, φ2, φ3, φ4, φ5, φ6, φ7, φ8, φ9, φ10, φ11, φ12, true, φ14, φ15, φ16, φ17, φ18, φ19⟩ z0 s) : Keeps ⟨φ0, φ1, φ2, φ3, φ4, φ5, φ6, φ7, φ8, φ9, φ10, φ11, φ12, true, φ14, φ15, φ16, φ17, φ18, φ19⟩ z0 (setSecY p v s) := by
  unfold setSecY
  apply wrField_keeps
  exact Keeps.of hz rfl

theorem icvFailed_keeps {p : Nat} {inj : Bool} {s : State} (hz : Keeps ⟨φ0, true, true, φ3, φ4, φ5, φ6, φ7, φ8, true, φ10, φ11, φ12, φ13, φ14, φ15, true, φ17, φ18, φ19⟩ z0 s) : Keeps ⟨φ0, true, true, φ3, φ4, φ5, φ6, φ7, φ8, true, φ10, φ11, φ12, φ13, φ14, φ15, true, φ17, φ18, φ19⟩ z0 (icvFailed p inj s) := by
  unfold icvFailed
  exact raiseCount_keeps (bump_keeps hz)

theorem macsecPass_keeps {p : Nat} {f : HostFrame} {s : State} (hz : Keeps ⟨φ0, true, true, φ3, φ4, φ5, φ6, φ7, φ8, true, φ10, φ11, φ12, true, φ14, φ15, true, φ17, φ18, φ19⟩ z0 s) : Keeps ⟨φ0, true, true, φ3, φ4, φ5, φ6, φ7, φ8, true, φ10, φ11, φ12, true, φ14, φ15, true, φ17, φ18, φ19⟩ z0 (macsecPass p f s).2 := by
  unfold macsecPass
  split
  · exact hz
  · dsimp only
    split
    · exact hz
    · split
      · exact hz
      · split
        · dsimp only
          exact icvFailed_keeps (disarm_keeps hz)
        · split
          · dsimp only
            exact icvFailed_keeps hz
          · dsimp only
            exact setSecY_keeps hz

theorem prioDrop_keeps {p op : Nat} {full : Bool} {s : State} (hz : Keeps ⟨φ0, true, true, φ3, φ4, φ5, φ6, φ7, φ8, true, φ10, φ11, φ12, φ13, φ14, φ15, true, φ17, φ18, φ19⟩ z0 s) : Keeps ⟨φ0, true, true, φ3, φ4, φ5, φ6, φ7, φ8, true, φ10, φ11, φ12, φ13, φ14, φ15, true, φ17, φ18, φ19⟩ z0 (prioDrop p op full s) := by
  unfold prioDrop
  exact raise_keeps (bump_keeps hz)

theorem rateDrop_keeps {p : Nat} {inj : Bool} {s : State} (hz : Keeps ⟨φ0, true, true, φ3, φ4, φ5, φ6, φ7, φ8, true, φ10, φ11, φ12, φ13, φ14, φ15, true, φ17, φ18, φ19⟩ z0 s) : Keeps ⟨φ0, true, true, φ3, φ4, φ5, φ6, φ7, φ8, true, φ10, φ11, φ12, φ13, φ14, φ15, true, φ17, φ18, φ19⟩ z0 (rateDrop p inj s) := by
  unfold rateDrop
  exact raiseCount_keeps (bump_keeps hz)

theorem toData_keeps {p : Nat} {f : HostFrame} {c : HostCmd} {s : State} (hz : Keeps ⟨φ0, true, true, φ3, φ4, φ5, φ6, φ7, φ8, true, φ10, φ11, φ12, true, φ14, φ15, true, φ17, φ18, φ19⟩ z0 s) : Keeps ⟨φ0, true, true, φ3, φ4, φ5, φ6, φ7, φ8, true, φ10, φ11, φ12, true, φ14, φ15, true, φ17, φ18, φ19⟩ z0 (toData p f c s) := by
  unfold toData
  extract_lets +onlyGivenNames put_1
  split
  · subst put_1
    dsimp only
    split
    · exact bump_keeps hz
    · exact Keeps.of hz rfl
  · split
    · exact rateDrop_keeps (disarm_keeps hz)
    · extract_lets +onlyGivenNames k_2 cost_3
      split
      · apply rateDrop_keeps
        exact Keeps.of hz rfl
      · subst put_1
        dsimp only
        split
        · apply bump_keeps
          exact Keeps.of hz rfl
        · exact Keeps.of hz rfl

theorem rxFrame_keeps {p : Nat} {f : HostFrame} {s : State} (hz : Keeps ⟨φ0, true, true, φ3, φ4, φ5, φ6, φ7, φ8, true, φ10, φ11, φ12, true, φ14, φ15, true, φ17, φ18, φ19⟩ z0 s) : Keeps ⟨φ0, true, true, φ3, φ4, φ5, φ6, φ7, φ8, true, φ10, φ11, φ12, true, φ14, φ15, true, φ17, φ18, φ19⟩ z0 (rxFrame p f s) := by
  unfold rxFrame
  extract_lets +onlyGivenNames pcp_1 isCcp_2
  split
  · exact bump_keeps hz
  · split
    · split
      · split
        · exact prioDrop_keeps hz
        · exact Keeps.of hz rfl
      · exact prioDrop_keeps hz
    · split
      · exact sendTo_keeps hz
      · split
        · exact hz
        · exact toData_keeps hz

theorem execHostFrame_keeps {p : Nat} {f : HostFrame} {s : State} (hz : Keeps ⟨φ0, true, true, true, φ4, φ5, φ6, φ7, φ8, true, φ10, φ11, φ12, true, true, φ15, true, φ17, φ18, φ19⟩ z0 s) : Kept ⟨φ0, true, true, true, φ4, φ5, φ6, φ7, φ8, true, φ10, φ11, φ12, true, true, φ15, true, φ17, φ18, φ19⟩ z0 (execHostFrame p f s) := by
  unfold execHostFrame
  apply Kept.next
  split
  · exact hz
  · split
    · exact bump_keeps hz
    · split
      · exact hz
      · extract_lets +onlyGivenNames m_1
        have k_m_1 : Keeps ⟨φ0, true, true, true, φ4, φ5, φ6, φ7, φ8, true, φ10, φ11, φ12, true, true, φ15, true, φ17, φ18, φ19⟩ z0 m_1.2 := macsecPass_keeps hz
        clear_value m_1
        split
        · exact k_m_1
        · exact settleHost_keeps (rxFrame_keeps k_m_1)

theorem execHostLinkUp_keeps {p rate : Nat} {s : State} (hz : Keeps ⟨φ0, true, true, φ3, φ4, φ5, φ6, φ7, φ8, true, φ10, φ11, φ12, φ13, φ14, φ15, true, φ17, φ18, φ19⟩ z0 s) : Kept ⟨φ0, true, true, φ3, φ4, φ5, φ6, φ7, φ8, true, φ10, φ11, φ12, φ13, φ14, φ15, true, φ17, φ18, φ19⟩ z0 (execHostLinkUp p rate s) := by
  unfold execHostLinkUp
  apply Kept.next
  extract_lets +onlyGivenNames st_1 want_2
  split
  · exact hz
  · exact raise_keeps (wrField_keeps (wrField_keeps hz))

theorem execHostLinkDown_keeps {p : Nat} {s : State} (hz : Keeps ⟨φ0, true, true, φ3, φ4, φ5, φ6, φ7, φ8, true, φ10, φ11, φ12, true, φ14, φ15, true, φ17, φ18, φ19⟩ z0 s) : Kept ⟨φ0, true, true, φ3, φ4, φ5, φ6, φ7, φ8, true, φ10, φ11, φ12, true, φ14, φ15, true, φ17, φ18, φ19⟩ z0 (execHostLinkDown p s) := by
  unfold execHostLinkDown
  apply Kept.next
  split
  · exact hz
  · exact hostDown_keeps hz

theorem restartQueue_keeps {q : Nat} {s : State} (hz : Keeps ⟨φ0, φ1, φ2, φ3, φ4, φ5, φ6, φ7, φ8, φ9, φ10, φ11, φ12, true, φ14, φ15, φ16, φ17, φ18, φ19⟩ z0 s) : Keeps ⟨φ0, φ1, φ2, φ3, φ4, φ5, φ6, φ7, φ8, φ9, φ10, φ11, φ12, true, φ14, φ15, φ16, φ17, φ18, φ19⟩ z0 (restartQueue q s) := by
  unfold restartQueue
  exact setDlv_keeps hz

theorem runSync_keeps {c : HostCmd} {s0 : State} (hz : Keeps ⟨φ0, true, true, true, φ4, φ5, φ6, φ7, φ8, true, φ10, φ11, φ12, true, true, φ15, true, φ17, φ18, φ19⟩ z0 s0) : Keeps ⟨φ0, true, true, true, φ4, φ5, φ6, φ7, φ8, true, φ10, φ11, φ12, true, true, φ15, true, φ17, φ18, φ19⟩ z0 (runSync c s0) := by
  unfold runSync
  extract_lets +onlyGivenNames s_1 p_2 resend_3
  have k_s_1 : Keeps ⟨φ0, true, true, true, φ4, φ5, φ6, φ7, φ8, true, φ10, φ11, φ12, true, true, φ15, true, φ17, φ18, φ19⟩ z0 s_1 := headerAck_keeps hz
  clear_value s_1
  split
  · exact reply_keeps k_s_1
  · extract_lets +onlyGivenNames s1_4 e_5 w_6 depth_7 body_8 s2_9 s3_10 qs_11 s4_12
    have k_e_5 : Keeps ⟨φ0, true, true, true, φ4, φ5, φ6, φ7, φ8, true, φ10, φ11, φ12, true, true, φ15, true, φ17, φ18, φ19⟩ z0 e_5 := Keeps.of k_s_1 rfl
    have k_s3_10 : Keeps ⟨φ0, true, true, true, φ4, φ5, φ6, φ7, φ8, true, φ10, φ11, φ12, true, true, φ15, true, φ17, φ18, φ19⟩ z0 s3_10 := reply_keeps k_e_5
    have k_qs_11 : Keeps ⟨φ0, true, true, true, φ4, φ5, φ6, φ7, φ8, true, φ10, φ11, φ12, true, true, φ15, true, φ17, φ18, φ19⟩ z0 qs_11 := raise_keeps k_s3_10
    clear_value e_5 s3_10 qs_11
    extract_lets +onlyGivenNames s4_13
    have k_s4_13 : Keeps ⟨φ0, true, true, true, φ4, φ5, φ6, φ7, φ8, true, φ10, φ11, φ12, true, true, φ15, true, φ17, φ18, φ19⟩ z0 s4_13 := by
      subst s4_13
      split
      · apply Keeps.foldl
        · exact k_qs_11
        · intro _ _ k14
          exact restartQueue_keeps k14
      · exact k_qs_11
    clear_value s4_13
    apply Keeps.foldl
    · exact k_s4_13
    · intro _ _ k15
      exact deliverQueue_keeps k15

theorem execSync_keeps {s : State} (hz : Keeps ⟨φ0, true, true, true, φ4, φ5, φ6, φ7, φ8, true, φ10, φ11, φ12, true, true, φ15, true, φ17, φ18, φ19⟩ z0 s) : Kept ⟨φ0, true, true, true, φ4, φ5, φ6, φ7, φ8, true, φ10, φ11, φ12, true, true, φ15, true, φ17, φ18, φ19⟩ z0 (execSync s) := by
  unfold execSync
  apply Kept.next
  split
  · exact settleHost_keeps (runSync_keeps (Held.of_pair (nextFrame_keeps hz) (by with_reducible assumption)))
  · exact hz

theorem runQack_keeps {c : HostCmd} {s : State} (hz : Keeps ⟨φ0, true, true, true, φ4, φ5, φ6, φ7, φ8, true, φ10, φ11, φ12, true, true, φ15, true, φ17, φ18, φ19⟩ z0 s) : Keeps ⟨φ0, true, true, true, φ4, φ5, φ6, φ7, φ8, true, φ10, φ11, φ12, true, true, φ15, true, φ17, φ18, φ19⟩ z0 (runQack c s).2 := by
  unfold runQack
  dsimp only
  split
  · exact hz
  · split
    · dsimp only
      exact Held.state (ackQueue_keeps hz) (by with_reducible assumption)
    · dsimp only
      exact fresh_keeps hz

theorem execQack_keeps {s : State} (hz : Keeps ⟨φ0, true, true, true, φ4, φ5, φ6, φ7, φ8, true, φ10, φ11, φ12, true, true, φ15, true, φ17, φ18, φ19⟩ z0 s) : Kept ⟨φ0, true, true, true, φ4, φ5, φ6, φ7, φ8, true, φ10, φ11, φ12, true, true, φ15, true, φ17, φ18, φ19⟩ z0 (execQack s) := by
  unfold execQack
  apply Kept.next
  apply ccp_keeps
  · intro _ _ k1
    exact runQack_keeps k1
  · exact hz

theorem ringWait_keeps {c : HostCmd} {u : ReqUse} {s : State} (hz : Keeps ⟨φ0, φ1, φ2, φ3, φ4, φ5, φ6, φ7, φ8, φ9, true, φ11, φ12, φ13, φ14, φ15, φ16, φ17, φ18, φ19⟩ z0 s) : Keeps ⟨φ0, φ1, φ2, φ3, φ4, φ5, φ6, φ7, φ8, φ9, true, φ11, φ12, φ13, φ14, φ15, φ16, φ17, φ18, φ19⟩ z0 (ringWait c u s).2 := by
  unfold ringWait
  split
  · exact hz
  · dsimp only
    exact dropUse_keeps hz

theorem remoteReg_keeps {c : HostCmd} {op n : Nat} {data : List Byte} {s : State} (hz : Keeps ⟨φ0, true, true, φ3, φ4, φ5, φ6, φ7, φ8, true, true, φ11, φ12, φ13, φ14, φ15, true, φ17, φ18, φ19⟩ z0 s) : Keeps ⟨φ0, true, true, φ3, φ4, φ5, φ6, φ7, φ8, true, true, φ11, φ12, φ13, φ14, φ15, true, φ17, φ18, φ19⟩ z0 (remoteReg c op n data s).2 := by
  unfold remoteReg
  dsimp only
  split
  · dsimp only
    exact raiseSeq_keeps hz
  · exact ringWait_keeps (hostSend_keeps hz)

theorem runRegRead_keeps {c : HostCmd} {s : State} (hz : Keeps ⟨φ0, true, true, φ3, φ4, φ5, φ6, φ7, φ8, true, true, φ11, φ12, true, φ14, true, true, φ17, φ18, φ19⟩ z0 s) : Keeps ⟨φ0, true, true, φ3, φ4, φ5, φ6, φ7, φ8, true, true, φ11, φ12, true, φ14, true, true, φ17, φ18, φ19⟩ z0 (runRegRead c s).2 := by
  unfold runRegRead
  dsimp only
  split
  · exact hz
  · split
    · exact remoteReg_keeps hz
    · split
      · dsimp only
        apply readWordsAt_keeps
        exact Keeps.of hz rfl
      · dsimp only
        apply readWordsAt_keeps
        exact Keeps.of hz rfl

theorem execRegRead_keeps {s : State} (hz : Keeps ⟨φ0, true, true, true, φ4, φ5, φ6, φ7, φ8, true, true, φ11, φ12, true, true, true, true, φ17, φ18, φ19⟩ z0 s) : Kept ⟨φ0, true, true, true, φ4, φ5, φ6, φ7, φ8, true, true, φ11, φ12, true, true, true, true, φ17, φ18, φ19⟩ z0 (execRegRead s) := by
  unfold execRegRead
  apply Kept.next
  apply ccp_keeps
  · intro _ _ k1
    exact runRegRead_keeps k1
  · exact hz

theorem runRegWrite_keeps {c : HostCmd} {s : State} (hz : Keeps ⟨true, true, true, true, true, true, true, true, true, true, true, true, true, true, true, true, true, true, true, true⟩ z0 s) : Keeps ⟨true, true, true, true, true, true, true, true, true, true, true, true, true, true, true, true, true, true, true, true⟩ z0 (runRegWrite c s).2 := by
  unfold runRegWrite
  dsimp only
  split
  · exact hz
  · split
    · exact remoteReg_keeps hz
    · split
      · dsimp only
        apply writeWordsAt_keeps
        exact Keeps.of hz rfl
      · dsimp only
        apply writeWordsAt_keeps
        exact Keeps.of hz rfl

theorem execRegWrite_keeps {s : State} (hz : Keeps ⟨true, true, true, true, true, true, true, true, true, true, true, true, true, true, true, true, true, true, true, true⟩ z0 s) : Kept ⟨true, true, true, true, true, true, true, true, true, true, true, true, true, true, true, true, true, true, true, true⟩ z0 (execRegWrite s) := by
  unfold execRegWrite
  apply Kept.next
  apply ccp_keeps
  · intro _ _ k1
    exact runRegWrite_keeps k1
  · exact hz

theorem runMemRead_keeps {c : HostCmd} {s : State} (hz : Keeps ⟨φ0, true, true, φ3, φ4, φ5, φ6, true, true, true, true, φ11, φ12, φ13, φ14, φ15, true, φ17, φ18, φ19⟩ z0 s) : Keeps ⟨φ0, true, true, φ3, φ4, φ5, φ6, true, true, true, true, φ11, φ12, φ13, φ14, φ15, true, φ17, φ18, φ19⟩ z0 (runMemRead c s).2 := by
  unfold runMemRead
  dsimp only
  split
  · exact hz
  · split
    · exact ringWait_keeps (hostSend_keeps hz)
    · split
      · split
        · dsimp only
          exact access_keeps hz
        · dsimp only
          exact access_keeps hz
      · split
        · dsimp only
          exact hostRead_keeps hz
        · dsimp only
          exact hostRead_keeps hz

theorem execMemRead_keeps {s : State} (hz : Keeps ⟨φ0, true, true, true, φ4, φ5, φ6, true, true, true, true, φ11, φ12, true, true, φ15, true, φ17, φ18, φ19⟩ z0 s) : Kept ⟨φ0, true, true, true, φ4, φ5, φ6, true, true, true, true, φ11, φ12, true, true, φ15, true, φ17, φ18, φ19⟩ z0 (execMemRead s) := by
  unfold execMemRead
  apply Kept.next
  apply ccp_keeps
  · intro _ _ k1
    exact runMemRead_keeps k1
  · exact hz

theorem runMemWrite_keeps {c : HostCmd} {s : State} (hz : Keeps ⟨φ0, true, true, φ3, φ4, φ5, φ6, true, true, true, true, φ11, φ12, φ13, φ14, φ15, true, φ17, φ18, φ19⟩ z0 s) : Keeps ⟨φ0, true, true, φ3, φ4, φ5, φ6, true, true, true, true, φ11, φ12, φ13, φ14, φ15, true, φ17, φ18, φ19⟩ z0 (runMemWrite c s).2 := by
  unfold runMemWrite
  dsimp only
  split
  · exact hz
  · split
    · exact ringWait_keeps (hostSend_keeps hz)
    · split
      · split
        · dsimp only
          exact access_keeps hz
        · dsimp only
          exact access_keeps hz
      · split
        · dsimp only
          exact hostWrite_keeps hz
        · dsimp only
          exact hostWrite_keeps hz

theorem execMemWrite_keeps {s : State} (hz : Keeps ⟨φ0, true, true, true, φ4, φ5, φ6, true, true, true, true, φ11, φ12, true, true, φ15, true, φ17, φ18, φ19⟩ z0 s) : Kept ⟨φ0, true, true, true, φ4, φ5, φ6, true, true, true, true, φ11, φ12, true, true, φ15, true, φ17, φ18, φ19⟩ z0 (execMemWrite s) := by
  unfold execMemWrite
  apply Kept.next
  apply ccp_keeps
  · intro _ _ k1
    exact runMemWrite_keeps k1
  · exact hz

theorem hostPush_keeps {q rtype : Nat} {bytes : List Byte} {s0 : State} (hz : Keeps ⟨φ0, true, true, true, true, true, true, true, true, true, true, φ11, φ12, φ13, φ14, φ15, true, φ17, φ18, φ19⟩ z0 s0) : Keeps ⟨φ0, true, true, true, true, true, true, true, true, true, true, φ11, φ12, φ13, φ14, φ15, true, φ17, φ18, φ19⟩ z0 (hostPush q rtype bytes s0).2 := by
  unfold hostPush
  dsimp only
  split
  · dsimp only
    exact reserve_keeps (qdUse_keeps hz)
  · split
    · dsimp only
      exact queueDrop_keeps (refuseFull_keeps (qdUse_keeps hz))
    · dsimp only
      exact refuseFull_keeps (qdUse_keeps hz)
  · dsimp only
    exact raise_keeps (qdUse_keeps hz)

theorem runQueuePush_keeps {c : HostCmd} {s : State} (hz : Keeps ⟨φ0, true, true, true, true, true, true, true, true, true, true, φ11, φ12, φ13, φ14, φ15, true, φ17, φ18, φ19⟩ z0 s) : Keeps ⟨φ0, true, true, true, true, true, true, true, true, true, true, φ11, φ12, φ13, φ14, φ15, true, φ17, φ18, φ19⟩ z0 (runQueuePush c s).2 := by
  unfold runQueuePush
  dsimp only
  split
  · exact hz
  · split
    · exact hz
    · dsimp only
      exact hostPush_keeps hz

theorem execQueuePush_keeps {s : State} (hz : Keeps ⟨φ0, true, true, true, true, true, true, true, true, true, true, φ11, φ12, true, true, φ15, true, φ17, φ18, φ19⟩ z0 s) : Kept ⟨φ0, true, true, true, true, true, true, true, true, true, true, φ11, φ12, true, true, φ15, true, φ17, φ18, φ19⟩ z0 (execQueuePush s) := by
  unfold execQueuePush
  apply Kept.next
  apply ccp_keeps
  · intro _ _ k1
    exact runQueuePush_keeps k1
  · exact hz

theorem takeGroup_keeps {b : List Byte} {d : Nat} {s : State} (hz : Keeps ⟨φ0, φ1, φ2, φ3, φ4, φ5, true, φ7, φ8, φ9, φ10, φ11, φ12, φ13, φ14, φ15, φ16, φ17, φ18, φ19⟩ z0 s) : Held (fun v => Keeps ⟨φ0, φ1, φ2, φ3, φ4, φ5, true, φ7, φ8, φ9, φ10, φ11, φ12, φ13, φ14, φ15, φ16, φ17, φ18, φ19⟩ z0 v) (takeGroup b d s) := by
  unfold takeGroup
  extract_lets +onlyGivenNames g_1 busy_2 rest_3
  split
  · exact Held.none
  · refine Held.some ?_
    try dsimp only
    exact Keeps.of hz rfl

theorem runBarrierGroup_keeps {c : HostCmd} {s : State} (hz : Keeps ⟨φ0, φ1, φ2, φ3, φ4, φ5, true, φ7, φ8, φ9, true, φ11, φ12, φ13, φ14, φ15, φ16, φ17, φ18, φ19⟩ z0 s) : Keeps ⟨φ0, φ1, φ2, φ3, φ4, φ5, true, φ7, φ8, φ9, true, φ11, φ12, φ13, φ14, φ15, φ16, φ17, φ18, φ19⟩ z0 (runBarrierGroup c s).2 := by
  unfold runBarrierGroup
  dsimp only
  split
  · exact hz
  · split
    · exact hz
    · split
      · exact hz
      · dsimp only
        apply Keeps.foldl
        · refine Held.state ?_ (by with_reducible assumption)
          split
          · exact takeGroup_keeps hz
          · refine Held.some ?_
            try dsimp only
            exact hz
        · intro _ _ k1
          exact sendPkt_keeps k1

theorem execBarrierGroup_keeps {copy : Option (List Byte)} {s : State} (hz : Keeps ⟨φ0, true, true, true, φ4, φ5, true, φ7, φ8, true, true, φ11, φ12, true, true, φ15, true, φ17, φ18, φ19⟩ z0 s) : Kept ⟨φ0, true, true, true, φ4, φ5, true, φ7, φ8, true, true, φ11, φ12, true, true, φ15, true, φ17, φ18, φ19⟩ z0 (execBarrierGroup copy s) := by
  unfold execBarrierGroup
  apply Kept.next
  split
  · apply ccp_keeps
    · intro _ _ k1
      exact runBarrierGroup_keeps k1
    · exact hz
  · split
    · exact hz
    · apply Held.getD
      · exact takeGroup_keeps hz
      · exact hz

theorem putDet_keeps {u : ReqUse} {b : List Byte} {k : Nat} {s : State} (hz : Keeps ⟨φ0, true, true, φ3, φ4, φ5, φ6, φ7, φ8, true, true, φ11, φ12, φ13, φ14, φ15, true, φ17, φ18, φ19⟩ z0 s) : Keeps ⟨φ0, true, true, φ3, φ4, φ5, φ6, φ7, φ8, true, true, φ11, φ12, φ13, φ14, φ15, true, φ17, φ18, φ19⟩ z0 (putDet u b k s) := by
  unfold putDet
  extract_lets +onlyGivenNames e_1
  split
  · exact setPort_keeps hz
  · extract_lets +onlyGivenNames r_2
    have k_r_2 : Keeps ⟨φ0, true, true, φ3, φ4, φ5, φ6, φ7, φ8, true, true, φ11, φ12, φ13, φ14, φ15, true, φ17, φ18, φ19⟩ z0 r_2.2 := sendReq_keeps hz
    clear_value r_2
    split
    · exact k_r_2
    · exact noteErr_keeps k_r_2

theorem runDetSlots_keeps {c : HostCmd} {s : State} (hz : Keeps ⟨φ0, true, true, φ3, φ4, φ5, φ6, φ7, φ8, true, true, φ11, φ12, φ13, φ14, φ15, true, φ17, φ18, φ19⟩ z0 s) : Keeps ⟨φ0, true, true, φ3, φ4, φ5, φ6, φ7, φ8, true, true, φ11, φ12, φ13, φ14, φ15, true, φ17, φ18, φ19⟩ z0 (runDetSlots c s).2 := by
  unfold runDetSlots
  dsimp only
  split
  · exact hz
  · split
    · exact hz
    · apply ringWait_keeps
      apply Keeps.foldl
      · exact hz
      · intro _ _ k1
        exact putDet_keeps k1

theorem execDetSlots_keeps {s : State} (hz : Keeps ⟨φ0, true, true, true, φ4, φ5, φ6, φ7, φ8, true, true, φ11, φ12, true, true, φ15, true, φ17, φ18, φ19⟩ z0 s) : Kept ⟨φ0, true, true, true, φ4, φ5, φ6, φ7, φ8, true, true, φ11, φ12, true, true, φ15, true, φ17, φ18, φ19⟩ z0 (execDetSlots s) := by
  unfold execDetSlots
  apply Kept.next
  apply ccp_keeps
  · intro _ _ k1
    exact runDetSlots_keeps k1
  · exact hz

theorem installKey_keeps {tx act : Bool} {sak : List Byte} {an p : Nat} {s : State} (hz : Keeps ⟨φ0, φ1, φ2, φ3, φ4, φ5, φ6, φ7, φ8, φ9, φ10, φ11, φ12, true, φ14, φ15, φ16, φ17, φ18, φ19⟩ z0 s) : Keeps ⟨φ0, φ1, φ2, φ3, φ4, φ5, φ6, φ7, φ8, φ9, φ10, φ11, φ12, true, φ14, φ15, φ16, φ17, φ18, φ19⟩ z0 (installKey tx act sak an p s) := by
  unfold installKey
  extract_lets +onlyGivenNames y_1
  split
  · exact setSecY_keeps hz
  · extract_lets +onlyGivenNames s1_2
    have k_s1_2 : Keeps ⟨φ0, φ1, φ2, φ3, φ4, φ5, φ6, φ7, φ8, φ9, φ10, φ11, φ12, true, φ14, φ15, φ16, φ17, φ18, φ19⟩ z0 s1_2 := setSecY_keeps hz
    clear_value s1_2
    split
    · exact wrReg_keeps (wrField_keeps (wrField_keeps k_s1_2))
    · exact k_s1_2

theorem runMacsecKey_keeps {c : HostCmd} {s : State} (hz : Keeps ⟨φ0, φ1, φ2, φ3, φ4, φ5, φ6, φ7, φ8, φ9, φ10, φ11, φ12, true, φ14, φ15, φ16, φ17, φ18, φ19⟩ z0 s) : Keeps ⟨φ0, φ1, φ2, φ3, φ4, φ5, φ6, φ7, φ8, φ9, φ10, φ11, φ12, true, φ14, φ15, φ16, φ17, φ18, φ19⟩ z0 (runMacsecKey c s).2 := by
  unfold runMacsecKey
  dsimp only
  split
  · exact hz
  · split
    · exact hz
    · dsimp only
      apply Keeps.foldl
      · exact hz
      · intro _ _ k1
        exact installKey_keeps k1

theorem execMacsecKey_keeps {s : State} (hz : Keeps ⟨φ0, true, true, true, φ4, φ5, φ6, φ7, φ8, true, φ10, φ11, φ12, true, true, φ15, true, φ17, φ18, φ19⟩ z0 s) : Kept ⟨φ0, true, true, true, φ4, φ5, φ6, φ7, φ8, true, φ10, φ11, φ12, true, true, φ15, true, φ17, φ18, φ19⟩ z0 (execMacsecKey s) := by
  unfold execMacsecKey
  apply Kept.next
  apply ccp_keeps
  · intro _ _ k1
    exact runMacsecKey_keeps k1
  · exact hz

theorem runStop_keeps {c : HostCmd} {s0 : State} (hz : Keeps ⟨φ0, true, true, true, φ4, φ5, φ6, φ7, φ8, true, φ10, φ11, φ12, true, true, φ15, true, φ17, φ18, φ19⟩ z0 s0) : Keeps ⟨φ0, true, true, true, φ4, φ5, φ6, φ7, φ8, true, φ10, φ11, φ12, true, true, φ15, true, φ17, φ18, φ19⟩ z0 (runStop c s0) := by
  unfold runStop
  extract_lets +onlyGivenNames s_1 p_2 s1_3
  have k_s_1 : Keeps ⟨φ0, true, true, true, φ4, φ5, φ6, φ7, φ8, true, φ10, φ11, φ12, true, true, φ15, true, φ17, φ18, φ19⟩ z0 s_1 := headerAck_keeps hz
  have k_s1_3 : Keeps ⟨φ0, true, true, true, φ4, φ5, φ6, φ7, φ8, true, φ10, φ11, φ12, true, true, φ15, true, φ17, φ18, φ19⟩ z0 s1_3 := raise_keeps k_s_1
  clear_value s_1 s1_3
  split
  · exact reply_keeps k_s1_3
  · split
    · exact reply_keeps k_s1_3
    · extract_lets +onlyGivenNames s2_4 bad_5
      have k_s2_4 : Keeps ⟨φ0, true, true, true, φ4, φ5, φ6, φ7, φ8, true, φ10, φ11, φ12, true, true, φ15, true, φ17, φ18, φ19⟩ z0 s2_4 := by
        subst s2_4
        split
        · exact latchStop_keeps k_s1_3
        · exact k_s1_3
      clear_value s2_4
      exact reply_keeps k_s2_4

theorem nextStop_keeps {s : State} (hz : Keeps ⟨φ0, φ1, φ2, φ3, φ4, φ5, φ6, φ7, φ8, φ9, φ10, φ11, φ12, true, φ14, φ15, φ16, φ17, φ18, φ19⟩ z0 s) : Held (fun v => Keeps ⟨φ0, φ1, φ2, φ3, φ4, φ5, φ6, φ7, φ8, φ9, φ10, φ11, φ12, true, φ14, φ15, φ16, φ17, φ18, φ19⟩ z0 v.2) (nextStop s) := by
  unfold nextStop
  split
  · refine Held.some ?_
    try dsimp only
    exact Keeps.of hz rfl
  · split
    · split
      · refine Held.some ?_
        try dsimp only
        exact Keeps.of hz rfl
      · exact Held.none
    · exact Held.none

theorem execHostStop_keeps {s : State} (hz : Keeps ⟨φ0, true, true, true, φ4, φ5, φ6, φ7, φ8, true, φ10, φ11, φ12, true, true, φ15, true, φ17, φ18, φ19⟩ z0 s) : Kept ⟨φ0, true, true, true, φ4, φ5, φ6, φ7, φ8, true, φ10, φ11, φ12, true, true, φ15, true, φ17, φ18, φ19⟩ z0 (execHostStop s) := by
  unfold execHostStop
  apply Kept.next
  split
  · exact settleHost_keeps (runStop_keeps (Held.of_pair (nextStop_keeps hz) (by with_reducible assumption)))
  · exact hz

theorem killJob_keeps {id : Nat} {s : State} (hz : Keeps ⟨φ0, true, true, true, true, true, true, true, φ8, true, true, φ11, φ12, φ13, φ14, φ15, true, φ17, φ18, φ19⟩ z0 s) : Keeps ⟨φ0, true, true, true, true, true, true, true, φ8, true, true, φ11, φ12, φ13, φ14, φ15, true, φ17, φ18, φ19⟩ z0 (killJob id s) := by
  unfold killJob
  split
  · split
    · split
      · exact endQueued_keeps hz
      · exact hz
    · exact stopJob_keeps hz
  · exact hz

theorem runKill_keeps {c : HostCmd} {s : State} (hz : Keeps ⟨φ0, true, true, true, true, true, true, true, φ8, true, true, φ11, φ12, φ13, φ14, φ15, true, φ17, φ18, φ19⟩ z0 s) : Keeps ⟨φ0, true, true, true, true, true, true, true, φ8, true, true, φ11, φ12, φ13, φ14, φ15, true, φ17, φ18, φ19⟩ z0 (runKill c s).2.2 := by
  unfold runKill
  dsimp only
  split
  · exact hz
  · dsimp only
    apply Keeps.foldl
    · exact hz
    · intro _ _ k1
      exact killJob_keeps k1

theorem execKill_keeps {s : State} (hz : Keeps ⟨φ0, true, true, true, true, true, true, true, φ8, true, true, φ11, φ12, true, true, φ15, true, φ17, φ18, φ19⟩ z0 s) : Kept ⟨φ0, true, true, true, true, true, true, true, φ8, true, true, φ11, φ12, true, true, φ15, true, φ17, φ18, φ19⟩ z0 (execKill s) := by
  unfold execKill
  apply Kept.next
  apply ccpPrio_keeps
  · intro _ _ k1
    exact runKill_keeps k1
  · exact hz

theorem runHold_keeps {on : Bool} {c : HostCmd} {s : State} (hz : Keeps ⟨φ0, φ1, φ2, φ3, φ4, φ5, φ6, φ7, φ8, φ9, φ10, φ11, φ12, φ13, φ14, φ15, φ16, φ17, φ18, φ19⟩ z0 s) : Keeps ⟨φ0, φ1, φ2, φ3, φ4, φ5, φ6, φ7, φ8, φ9, φ10, φ11, φ12, φ13, φ14, φ15, φ16, φ17, φ18, φ19⟩ z0 (runHold on c s).2.2 := by
  unfold runHold
  dsimp only
  split
  · exact hz
  · dsimp only
    exact wrReg_keeps hz

theorem execHostHold_keeps {s : State} (hz : Keeps ⟨φ0, true, true, true, φ4, φ5, φ6, φ7, φ8, true, φ10, φ11, φ12, true, true, φ15, true, φ17, φ18, φ19⟩ z0 s) : Kept ⟨φ0, true, true, true, φ4, φ5, φ6, φ7, φ8, true, φ10, φ11, φ12, true, true, φ15, true, φ17, φ18, φ19⟩ z0 (execHostHold s) := by
  unfold execHostHold
  apply Kept.next
  apply ccpPrio_keeps
  · intro _ _ k1
    exact runHold_keeps k1
  · exact hz

theorem execHostRelease_keeps {s : State} (hz : Keeps ⟨φ0, true, true, true, φ4, φ5, φ6, φ7, φ8, true, φ10, φ11, φ12, true, true, φ15, true, φ17, φ18, φ19⟩ z0 s) : Kept ⟨φ0, true, true, true, φ4, φ5, φ6, φ7, φ8, true, φ10, φ11, φ12, true, true, φ15, true, φ17, φ18, φ19⟩ z0 (execHostRelease s) := by
  unfold execHostRelease
  apply Kept.next
  apply ccpPrio_keeps
  · intro _ _ k1
    exact runHold_keeps k1
  · exact hz

theorem execHostStopClear_keeps {r : Req} {s : State} (hz : Keeps ⟨φ0, true, true, φ3, φ4, φ5, φ6, φ7, φ8, true, φ10, φ11, φ12, φ13, φ14, φ15, true, φ17, φ18, φ19⟩ z0 s) : Kept ⟨φ0, true, true, φ3, φ4, φ5, φ6, φ7, φ8, true, φ10, φ11, φ12, φ13, φ14, φ15, true, φ17, φ18, φ19⟩ z0 (execHostStopClear r s) := by
  unfold execHostStopClear
  apply Kept.next
  apply onReg_keeps
  · intro _ k1
    exact wrHostStop_keeps k1
  · exact hz

theorem execDeliveryResend_keeps {q : Nat} {s : State} (hz : Keeps ⟨φ0, true, true, φ3, true, φ5, φ6, φ7, φ8, true, φ10, φ11, φ12, true, φ14, φ15, true, φ17, φ18, φ19⟩ z0 s) : Kept ⟨φ0, true, true, φ3, true, φ5, φ6, φ7, φ8, true, φ10, φ11, φ12, true, φ14, φ15, true, φ17, φ18, φ19⟩ z0 (execDeliveryResend q s) := by
  unfold execDeliveryResend
  apply Kept.next
  split
  · exact hz
  · split
    · exact hz
    · extract_lets +onlyGivenNames s1_1
      have k_s1_1 : Keeps ⟨φ0, true, true, φ3, true, φ5, φ6, φ7, φ8, true, φ10, φ11, φ12, true, φ14, φ15, true, φ17, φ18, φ19⟩ z0 s1_1 := advanceTo_keeps hz
      clear_value s1_1
      exact deliverQueue_keeps (restartQueue_keeps k_s1_1)

end Sys2Proof.Machine
end

