-- ==== Sys2Proof/Laws/KeepsLast.lean ====
section
/-! SUPPORT. Each operation keeps what Keeps names: the register rows, the ring, security and updates. -/

set_option Elab.async false

namespace Sys2Proof.Machine

variable {φ0 φ1 φ2 φ3 φ4 φ5 φ6 φ7 φ8 φ9 φ10 φ11 φ12 φ13 φ14 φ15 φ16 φ17 φ18 φ19 : Bool} {z0 : State}

theorem execNibRetire_keeps {r : Req} {q v : Nat} {s : State} (hz : Keeps ⟨φ0, true, true, true, true, true, true, true, φ8, true, true, true, φ12, φ13, φ14, φ15, true, φ17, φ18, φ19⟩ z0 s) : Kept ⟨φ0, true, true, true, true, true, true, true, φ8, true, true, true, φ12, φ13, φ14, φ15, true, φ17, φ18, φ19⟩ z0 (execNibRetire r q v s) := by
  unfold execNibRetire
  apply Kept.next
  apply onReg_keeps
  · intro _ k1
    exact wrNibRetire_keeps k1
  · exact hz

theorem execNibSpared_keeps {q : Nat} {s : State} (hz : Keeps ⟨φ0, true, true, φ3, true, φ5, φ6, φ7, φ8, true, φ10, true, φ12, φ13, φ14, φ15, true, φ17, φ18, φ19⟩ z0 s) : Kept ⟨φ0, true, true, φ3, true, φ5, φ6, φ7, φ8, true, φ10, true, φ12, φ13, φ14, φ15, true, φ17, φ18, φ19⟩ z0 (execNibSpared q s) := by
  unfold execNibSpared
  apply Kept.next
  extract_lets +onlyGivenNames v_1
  split
  · split
    · exact hz
    · extract_lets +onlyGivenNames s1_2
      have k_s1_2 : Keeps ⟨φ0, true, true, φ3, true, φ5, φ6, φ7, φ8, true, φ10, true, φ12, φ13, φ14, φ15, true, φ17, φ18, φ19⟩ z0 s1_2 := setQuill_keeps hz
      clear_value s1_2
      exact saveNibs_keeps (raise_keeps k_s1_2)
  · exact hz

theorem execRegisterWrite_keeps {r : Req} {addr size v : Nat} {s : State} (hz : Keeps ⟨true, true, true, true, true, true, true, true, true, true, true, true, true, true, true, true, true, true, true, true⟩ z0 s) : Kept ⟨true, true, true, true, true, true, true, true, true, true, true, true, true, true, true, true, true, true, true, true⟩ z0 (execRegisterWrite r addr size v s) := by
  unfold execRegisterWrite
  exact Kept.next (writeReg_keeps hz)

theorem execReadClear_keeps {r : Req} {addr size : Nat} {s : State} (hz : Keeps ⟨φ0, true, true, φ3, φ4, φ5, φ6, φ7, φ8, true, φ10, φ11, φ12, φ13, φ14, true, true, φ17, φ18, φ19⟩ z0 s) : Kept ⟨φ0, true, true, φ3, φ4, φ5, φ6, φ7, φ8, true, φ10, φ11, φ12, φ13, φ14, true, true, φ17, φ18, φ19⟩ z0 (execReadClear r addr size s) := by
  unfold execReadClear
  exact Kept.next (readReg_keeps hz)

theorem execCounterLoRead_keeps {r : Req} {c i lo : Nat} {s : State} (hz : Keeps ⟨φ0, true, true, φ3, φ4, φ5, φ6, φ7, φ8, true, φ10, φ11, φ12, φ13, φ14, true, true, φ17, φ18, φ19⟩ z0 s) : Kept ⟨φ0, true, true, φ3, φ4, φ5, φ6, φ7, φ8, true, φ10, φ11, φ12, φ13, φ14, true, true, φ17, φ18, φ19⟩ z0 (execCounterLoRead r c i lo s) := by
  unfold execCounterLoRead
  apply Kept.next
  split
  · extract_lets +onlyGivenNames k_1
    have k_k_1 : Keeps ⟨φ0, true, true, φ3, φ4, φ5, φ6, φ7, φ8, true, φ10, φ11, φ12, φ13, φ14, true, true, φ17, φ18, φ19⟩ z0 k_1.2 := regAt_keeps hz
    clear_value k_1
    split
    · exact k_k_1
    · exact regReadEffect_keeps k_k_1
  · exact hz

theorem execSoftReset_keeps {r : Req} {c i : Nat} {s : State} (hz : Keeps ⟨φ0, true, true, φ3, true, true, φ6, true, true, true, true, true, true, true, true, true, true, true, true, true⟩ z0 s) : Kept ⟨φ0, true, true, φ3, true, true, φ6, true, true, true, true, true, true, true, true, true, true, true, true, true⟩ z0 (execSoftReset r c i s) := by
  unfold execSoftReset
  apply Kept.next
  apply regWriteAt_keeps
  · intro _ k1
    exact wrCtrl_keeps k1
  · exact hz

theorem execSoftResetDone_keeps {c i : Nat} {s : State} (hz : Keeps ⟨φ0, φ1, φ2, φ3, φ4, φ5, φ6, φ7, φ8, φ9, φ10, φ11, φ12, φ13, φ14, φ15, φ16, φ17, φ18, φ19⟩ z0 s) : Kept ⟨φ0, φ1, φ2, φ3, φ4, φ5, φ6, φ7, φ8, φ9, φ10, φ11, φ12, φ13, φ14, φ15, φ16, φ17, φ18, φ19⟩ z0 (execSoftResetDone c i s) := by
  unfold execSoftResetDone
  apply Kept.next
  split
  · apply wrField_keeps
    exact Keeps.of hz rfl
  · exact hz

theorem execBlockDisable_keeps {r : Req} {c i : Nat} {s : State} (hz : Keeps ⟨φ0, true, true, φ3, true, true, φ6, true, true, true, true, true, true, true, true, true, true, true, true, true⟩ z0 s) : Kept ⟨φ0, true, true, φ3, true, true, φ6, true, true, true, true, true, true, true, true, true, true, true, true, true⟩ z0 (execBlockDisable r c i s) := by
  unfold execBlockDisable
  apply Kept.next
  apply regWriteAt_keeps
  · intro _ k1
    exact wrCtrl_keeps k1
  · exact hz

theorem execEventInject_keeps {r : Req} {c i v : Nat} {s : State} (hz : Keeps ⟨φ0, true, true, true, true, φ5, φ6, φ7, φ8, true, true, true, φ12, true, φ14, φ15, true, true, true, φ19⟩ z0 s) : Kept ⟨φ0, true, true, true, true, φ5, φ6, φ7, φ8, true, true, true, φ12, true, φ14, φ15, true, true, true, φ19⟩ z0 (execEventInject r c i v s) := by
  unfold execEventInject
  apply Kept.next
  apply regWriteAt_keeps
  · intro _ k1
    exact wrInject_keeps k1
  · exact hz

theorem execInjectAllowWrite_keeps {r : Req} {allow : Bool} {s : State} (hz : Keeps ⟨φ0, true, true, φ3, φ4, φ5, φ6, φ7, φ8, true, φ10, φ11, φ12, φ13, φ14, φ15, true, φ17, φ18, φ19⟩ z0 s) : Kept ⟨φ0, true, true, φ3, φ4, φ5, φ6, φ7, φ8, true, φ10, φ11, φ12, φ13, φ14, φ15, true, φ17, φ18, φ19⟩ z0 (execInjectAllowWrite r allow s) := by
  unfold execInjectAllowWrite
  apply Kept.next
  apply regWriteAt_keeps
  · intro _ k1
    exact wrInjectCtrl_keeps k1
  · exact hz

theorem execEventsLost_keeps {s : State} (hz : Keeps ⟨φ0, true, true, φ3, φ4, φ5, φ6, φ7, φ8, φ9, φ10, φ11, φ12, φ13, φ14, φ15, φ16, φ17, φ18, φ19⟩ z0 s) : Kept ⟨φ0, true, true, φ3, φ4, φ5, φ6, φ7, φ8, φ9, φ10, φ11, φ12, φ13, φ14, φ15, φ16, φ17, φ18, φ19⟩ z0 (execEventsLost s) := by
  unfold execEventsLost
  apply Kept.next
  split
  · exact flushLost_keeps hz
  · exact hz

theorem execWarmReset_keeps {r : Req} {v : Nat} {s : State} (hz : Keeps ⟨φ0, true, true, true, true, true, true, true, true, true, true, true, true, true, true, true, true, true, true, true⟩ z0 s) : Kept ⟨φ0, true, true, true, true, true, true, true, true, true, true, true, true, true, true, true, true, true, true, true⟩ z0 (execWarmReset r v s) := by
  unfold execWarmReset
  apply Kept.next
  apply onReg_keeps
  · intro _ k1
    exact wrWarmReset_keeps k1
  · exact hz

theorem timeStep_keeps {ns : Nat} {s : State} (hz : Keeps ⟨φ0, true, true, φ3, φ4, φ5, φ6, φ7, φ8, true, φ10, φ11, φ12, φ13, φ14, true, true, φ17, φ18, φ19⟩ z0 s) : Keeps ⟨φ0, true, true, φ3, φ4, φ5, φ6, φ7, φ8, true, φ10, φ11, φ12, φ13, φ14, true, true, φ17, φ18, φ19⟩ z0 (timeStep ns s) := by
  unfold timeStep
  extract_lets +onlyGivenNames d_1 s1_2
  extract_lets +onlyGivenNames s1_3
  have k_s1_3 : Keeps ⟨φ0, true, true, φ3, φ4, φ5, φ6, φ7, φ8, true, φ10, φ11, φ12, φ13, φ14, true, true, φ17, φ18, φ19⟩ z0 s1_3 := Keeps.of hz rfl
  clear_value s1_3
  exact trTimeSkip_keeps (raise_keeps (wrField_keeps k_s1_3))

theorem execGptpSync_keeps {p ns : Nat} {s : State} (hz : Keeps ⟨φ0, true, true, φ3, φ4, φ5, φ6, φ7, φ8, true, φ10, φ11, φ12, φ13, φ14, true, true, φ17, φ18, φ19⟩ z0 s) : Kept ⟨φ0, true, true, φ3, φ4, φ5, φ6, φ7, φ8, true, φ10, φ11, φ12, φ13, φ14, true, true, φ17, φ18, φ19⟩ z0 (execGptpSync p ns s) := by
  unfold execGptpSync
  apply Kept.next
  split
  · exact hz
  · extract_lets +onlyGivenNames s1_1 d_2
    have k_d_2 : Keeps ⟨φ0, true, true, φ3, φ4, φ5, φ6, φ7, φ8, true, φ10, φ11, φ12, φ13, φ14, true, true, φ17, φ18, φ19⟩ z0 d_2 := by
      subst d_2
      apply wrField_keeps
      apply wrField_keeps
      exact Keeps.of hz rfl
    clear_value d_2
    extract_lets +onlyGivenNames d_3
    split
    · exact timeStep_keeps k_d_2
    · extract_lets +onlyGivenNames off_4 k_5 slew_6
      exact Keeps.of k_d_2 rfl

theorem execGptpSyncTimeout_aux {s : State} (hz : Keeps ⟨φ0, φ1, φ2, φ3, true, φ5, φ6, φ7, φ8, φ9, φ10, φ11, φ12, φ13, φ14, φ15, φ16, φ17, φ18, φ19⟩ z0 s) : Keeps ⟨φ0, φ1, φ2, φ3, true, φ5, φ6, φ7, φ8, φ9, φ10, φ11, φ12, φ13, φ14, φ15, φ16, φ17, φ18, φ19⟩ z0 { s with time := { s.time with locked := false, slew := .none, slewLeft := 0, lastSync := none } } :=
  Keeps.of hz rfl

theorem execGptpSyncTimeout_keeps {s : State} (hz : Keeps ⟨φ0, φ1, φ2, φ3, true, φ5, φ6, φ7, φ8, φ9, φ10, φ11, φ12, φ13, φ14, φ15, φ16, φ17, φ18, φ19⟩ z0 s) : Kept ⟨φ0, φ1, φ2, φ3, true, φ5, φ6, φ7, φ8, φ9, φ10, φ11, φ12, φ13, φ14, φ15, φ16, φ17, φ18, φ19⟩ z0 (execGptpSyncTimeout s) := by
  unfold execGptpSyncTimeout
  apply Kept.next
  cases s.time.lastSync with
  | none => exact hz
  | some t => exact wrField_keeps (wrField_keeps (execGptpSyncTimeout_aux (advanceTo_keeps hz)))

theorem execPdelayMeasure_keeps {p : Nat} {ns : Option Nat} {s : State} (hz : Keeps ⟨φ0, true, true, φ3, φ4, φ5, φ6, φ7, φ8, true, φ10, φ11, φ12, true, φ14, φ15, true, φ17, φ18, φ19⟩ z0 s) : Kept ⟨φ0, true, true, φ3, φ4, φ5, φ6, φ7, φ8, true, φ10, φ11, φ12, true, φ14, φ15, true, φ17, φ18, φ19⟩ z0 (execPdelayMeasure p ns s) := by
  unfold execPdelayMeasure
  apply Kept.next
  split
  · exact hz
  · split
    · exact wrField_keeps (wrField_keeps (sendTo_keeps hz))
    · exact wrField_keeps (sendTo_keeps hz)

theorem execCcEnable_keeps {r : Req} {q : Nat} {s : State} (hz : Keeps ⟨φ0, true, true, φ3, φ4, φ5, φ6, φ7, φ8, true, φ10, φ11, true, φ13, φ14, φ15, true, φ17, φ18, φ19⟩ z0 s) : Kept ⟨φ0, true, true, φ3, φ4, φ5, φ6, φ7, φ8, true, φ10, φ11, true, φ13, φ14, φ15, true, φ17, φ18, φ19⟩ z0 (execCcEnable r q s) := by
  unfold execCcEnable
  apply Kept.next
  apply onReg_keeps
  · intro _ k1
    exact wrCmdQueue_keeps k1
  · exact hz

theorem fecCount_keeps {p : Nat} {fec : List Nat} {s : State} (hz : Keeps ⟨φ0, true, true, φ3, φ4, φ5, φ6, φ7, φ8, true, true, φ11, φ12, φ13, φ14, φ15, true, φ17, φ18, φ19⟩ z0 s) : Keeps ⟨φ0, true, true, φ3, φ4, φ5, φ6, φ7, φ8, true, true, φ11, φ12, φ13, φ14, φ15, true, φ17, φ18, φ19⟩ z0 (fecCount p fec s) := by
  unfold fecCount
  split
  · exact hz
  · extract_lets +onlyGivenNames k_1 fresh1_2 old_3 sym_4 s1_5
    have k_s1_5 : Keeps ⟨φ0, true, true, φ3, φ4, φ5, φ6, φ7, φ8, true, true, φ11, φ12, φ13, φ14, φ15, true, φ17, φ18, φ19⟩ z0 s1_5 := setPort_keeps (bump_keeps hz)
    clear_value s1_5
    exact raiseCount_keeps k_s1_5

theorem forward_keeps {t : Option Transit} {s : State} (hz : Keeps ⟨φ0, true, true, φ3, φ4, φ5, φ6, φ7, φ8, true, true, φ11, φ12, φ13, φ14, φ15, true, φ17, φ18, φ19⟩ z0 s) : Keeps ⟨φ0, true, true, φ3, φ4, φ5, φ6, φ7, φ8, true, true, φ11, φ12, φ13, φ14, φ15, true, φ17, φ18, φ19⟩ z0 (forward t s) := by
  unfold forward
  extract_lets +onlyGivenNames pass_1
  split
  · split
    · extract_lets +onlyGivenNames s1_2
      have k_s1_2 : Keeps ⟨φ0, true, true, φ3, φ4, φ5, φ6, φ7, φ8, true, true, φ11, φ12, φ13, φ14, φ15, true, φ17, φ18, φ19⟩ z0 s1_2 := raise_keeps hz
      clear_value s1_2
      split
      · exact k_s1_2
      · exact putResp_keeps k_s1_2
    · subst pass_1
      dsimp only
      split
      · exact addCtr_keeps (pushFlits_keeps hz)
      · exact hz
  · subst pass_1
    dsimp only
    split
    · exact addCtr_keeps (pushFlits_keeps hz)
    · exact hz
  · exact hz

theorem execFlitReceived_keeps {p : Nat} {f : FlitIn} {s : State} (hz : Keeps ⟨φ0, true, true, φ3, φ4, φ5, φ6, φ7, φ8, true, true, φ11, φ12, φ13, φ14, φ15, true, φ17, φ18, φ19⟩ z0 s) : Kept ⟨φ0, true, true, φ3, φ4, φ5, φ6, φ7, φ8, true, true, φ11, φ12, φ13, φ14, φ15, true, φ17, φ18, φ19⟩ z0 (execFlitReceived p f s) := by
  unfold execFlitReceived
  apply Kept.next
  split
  · exact hz
  · extract_lets +onlyGivenNames s1_1
    have k_s1_1 : Keeps ⟨φ0, true, true, φ3, φ4, φ5, φ6, φ7, φ8, true, true, φ11, φ12, φ13, φ14, φ15, true, φ17, φ18, φ19⟩ z0 s1_1 := fecCount_keeps hz
    clear_value s1_1
    split
    · exact setPort_keeps (bump_keeps k_s1_1)
    · extract_lets +onlyGivenNames s2_2 v_3 ahead_4 s3_5
      have k_s2_2 : Keeps ⟨φ0, true, true, φ3, φ4, φ5, φ6, φ7, φ8, true, true, φ11, φ12, φ13, φ14, φ15, true, φ17, φ18, φ19⟩ z0 s2_2 := ackTo_keeps (addCtr_keeps k_s1_1)
      have k_s3_5 : Keeps ⟨φ0, true, true, φ3, φ4, φ5, φ6, φ7, φ8, true, true, φ11, φ12, φ13, φ14, φ15, true, φ17, φ18, φ19⟩ z0 s3_5 := by
        subst s3_5
        split
        · exact k_s2_2
        · split
          · exact forward_keeps (setPort_keeps k_s2_2)
          · split
            · exact setPort_keeps k_s2_2
            · exact k_s2_2
      clear_value s2_2 s3_5
      exact pumpPort_keeps k_s3_5

theorem execNakReceived_keeps {p ack : Nat} {s : State} (hz : Keeps ⟨φ0, true, true, true, φ4, φ5, φ6, φ7, φ8, true, true, φ11, φ12, φ13, φ14, φ15, true, φ17, φ18, φ19⟩ z0 s) : Kept ⟨φ0, true, true, true, φ4, φ5, φ6, φ7, φ8, true, true, φ11, φ12, φ13, φ14, φ15, true, φ17, φ18, φ19⟩ z0 (execNakReceived p ack s) := by
  unfold execNakReceived
  apply Kept.next
  split
  · exact hz
  · extract_lets +onlyGivenNames s1_1 v_2 n_3 s2_4
    have k_s1_1 : Keeps ⟨φ0, true, true, true, φ4, φ5, φ6, φ7, φ8, true, true, φ11, φ12, φ13, φ14, φ15, true, φ17, φ18, φ19⟩ z0 s1_1 := ackTo_keeps hz
    have k_s2_4 : Keeps ⟨φ0, true, true, true, φ4, φ5, φ6, φ7, φ8, true, true, φ11, φ12, φ13, φ14, φ15, true, φ17, φ18, φ19⟩ z0 s2_4 := setPort_keeps k_s1_1
    clear_value s1_1 s2_4
    split
    · exact linkRetrain_keeps k_s2_4
    · split
      · exact replayAll_keeps (disarm_keeps k_s2_4)
      · exact replayAll_keeps k_s2_4

theorem execLinkRetrain_keeps {p cause : Nat} {s : State} (hz : Keeps ⟨φ0, true, true, φ3, φ4, φ5, φ6, φ7, φ8, true, true, φ11, φ12, φ13, φ14, φ15, true, φ17, φ18, φ19⟩ z0 s) : Kept ⟨φ0, true, true, φ3, φ4, φ5, φ6, φ7, φ8, true, true, φ11, φ12, φ13, φ14, φ15, true, φ17, φ18, φ19⟩ z0 (execLinkRetrain p cause s) := by
  unfold execLinkRetrain
  apply Kept.next
  split
  · exact hz
  · exact linkRetrain_keeps hz

theorem execRetrainDone_keeps {p : Nat} {s : State} (hz : Keeps ⟨φ0, true, true, true, φ4, φ5, φ6, φ7, φ8, true, true, φ11, φ12, φ13, φ14, φ15, true, φ17, φ18, φ19⟩ z0 s) : Kept ⟨φ0, true, true, true, φ4, φ5, φ6, φ7, φ8, true, true, φ11, φ12, φ13, φ14, φ15, true, φ17, φ18, φ19⟩ z0 (execRetrainDone p s) := by
  unfold execRetrainDone
  apply Kept.next
  split
  · exact hz
  · extract_lets +onlyGivenNames s1_1
    have k_s1_1 : Keeps ⟨φ0, true, true, true, φ4, φ5, φ6, φ7, φ8, true, true, φ11, φ12, φ13, φ14, φ15, true, φ17, φ18, φ19⟩ z0 s1_1 := replayAll_keeps (wrField_keeps (wrField_keeps hz))
    clear_value s1_1
    exact pumpPort_keeps k_s1_1

theorem execLinkDown_keeps {p : Nat} {s : State} (hz : Keeps ⟨φ0, true, true, φ3, φ4, φ5, φ6, φ7, φ8, true, true, φ11, φ12, φ13, φ14, φ15, true, φ17, φ18, φ19⟩ z0 s) : Kept ⟨φ0, true, true, φ3, φ4, φ5, φ6, φ7, φ8, true, true, φ11, φ12, φ13, φ14, φ15, true, φ17, φ18, φ19⟩ z0 (execLinkDown p s) := by
  unfold execLinkDown
  apply Kept.next
  split
  · exact hz
  · exact linkDown_keeps hz

theorem execLinkUp_keeps {p die dev q delayPs lanes : Nat} {s : State} (hz : Keeps ⟨φ0, true, true, φ3, φ4, φ5, φ6, φ7, φ8, true, true, φ11, φ12, φ13, φ14, φ15, true, φ17, φ18, φ19⟩ z0 s) : Kept ⟨φ0, true, true, φ3, φ4, φ5, φ6, φ7, φ8, true, true, φ11, φ12, φ13, φ14, φ15, true, φ17, φ18, φ19⟩ z0 (execLinkUp p die dev q delayPs lanes s) := by
  unfold execLinkUp
  apply Kept.next
  split
  · exact hz
  · extract_lets +onlyGivenNames k_1 s1_2 w_3 v_4 s2_5 s3_6
    have k_s1_2 : Keeps ⟨φ0, true, true, φ3, φ4, φ5, φ6, φ7, φ8, true, true, φ11, φ12, φ13, φ14, φ15, true, φ17, φ18, φ19⟩ z0 s1_2 := setPort_keeps hz
    have k_s2_5 : Keeps ⟨φ0, true, true, φ3, φ4, φ5, φ6, φ7, φ8, true, true, φ11, φ12, φ13, φ14, φ15, true, φ17, φ18, φ19⟩ z0 s2_5 := wrReg_keeps k_s1_2
    clear_value s1_2 s2_5
    extract_lets +onlyGivenNames s3_7
    have k_s3_7 : Keeps ⟨φ0, true, true, φ3, φ4, φ5, φ6, φ7, φ8, true, true, φ11, φ12, φ13, φ14, φ15, true, φ17, φ18, φ19⟩ z0 s3_7 := Keeps.of k_s2_5 rfl
    clear_value s3_7
    exact tellRoutes_keeps (raise_keeps k_s3_7)

theorem execLaneSpared_keeps {p lane : Nat} {lock : Bool} {s : State} (hz : Keeps ⟨φ0, true, true, φ3, φ4, φ5, φ6, φ7, φ8, true, true, true, φ12, φ13, φ14, φ15, true, φ17, φ18, φ19⟩ z0 s) : Kept ⟨φ0, true, true, φ3, φ4, φ5, φ6, φ7, φ8, true, true, true, φ12, φ13, φ14, φ15, true, φ17, φ18, φ19⟩ z0 (execLaneSpared p lane lock s) := by
  unfold execLaneSpared
  apply Kept.next
  split
  · exact hz
  · exact laneFault_keeps hz

theorem execLaneSwapFlit_keeps {p lane : Nat} {s : State} (hz : Keeps ⟨φ0, true, true, φ3, φ4, φ5, φ6, φ7, φ8, true, true, true, φ12, φ13, φ14, φ15, true, φ17, φ18, φ19⟩ z0 s) : Kept ⟨φ0, true, true, φ3, φ4, φ5, φ6, φ7, φ8, true, true, true, φ12, φ13, φ14, φ15, true, φ17, φ18, φ19⟩ z0 (execLaneSwapFlit p lane s) := by
  unfold execLaneSwapFlit
  apply Kept.next
  split
  · exact hz
  · split
    · exact switchLane_keeps hz
    · split
      · exact switchLane_keeps hz
      · exact hz

theorem execSpareShadowRotate_keeps {p : Nat} {s : State} (hz : Keeps ⟨φ0, φ1, φ2, φ3, true, φ5, φ6, φ7, φ8, φ9, true, φ11, φ12, φ13, φ14, φ15, φ16, φ17, φ18, φ19⟩ z0 s) : Kept ⟨φ0, φ1, φ2, φ3, true, φ5, φ6, φ7, φ8, φ9, true, φ11, φ12, φ13, φ14, φ15, φ16, φ17, φ18, φ19⟩ z0 (execSpareShadowRotate p s) := by
  unfold execSpareShadowRotate
  apply Kept.next
  split
  · exact hz
  · extract_lets +onlyGivenNames s1_1 k_2
    have k_s1_1 : Keeps ⟨φ0, φ1, φ2, φ3, true, φ5, φ6, φ7, φ8, φ9, true, φ11, φ12, φ13, φ14, φ15, φ16, φ17, φ18, φ19⟩ z0 s1_1 := advanceTo_keeps hz
    clear_value s1_1
    exact setPort_keeps k_s1_1

theorem execCreditReturn_keeps {p vc n : Nat} {s : State} (hz : Keeps ⟨φ0, φ1, φ2, φ3, φ4, φ5, φ6, φ7, φ8, φ9, true, φ11, φ12, φ13, φ14, φ15, φ16, φ17, φ18, φ19⟩ z0 s) : Kept ⟨φ0, φ1, φ2, φ3, φ4, φ5, φ6, φ7, φ8, φ9, true, φ11, φ12, φ13, φ14, φ15, φ16, φ17, φ18, φ19⟩ z0 (execCreditReturn p vc n s) := by
  unfold execCreditReturn
  apply Kept.next
  split
  · exact hz
  · extract_lets +onlyGivenNames k_1 s1_2
    have k_s1_2 : Keeps ⟨φ0, φ1, φ2, φ3, φ4, φ5, φ6, φ7, φ8, φ9, true, φ11, φ12, φ13, φ14, φ15, φ16, φ17, φ18, φ19⟩ z0 s1_2 := setPort_keeps hz
    clear_value s1_2
    exact pumpPort_keeps k_s1_2

theorem execTimeSync_keeps {p ps depth : Nat} {s : State} (hz : Keeps ⟨φ0, φ1, φ2, φ3, φ4, φ5, φ6, φ7, φ8, φ9, true, φ11, φ12, φ13, φ14, φ15, φ16, φ17, φ18, φ19⟩ z0 s) : Kept ⟨φ0, φ1, φ2, φ3, φ4, φ5, φ6, φ7, φ8, φ9, true, φ11, φ12, φ13, φ14, φ15, φ16, φ17, φ18, φ19⟩ z0 (execTimeSync p ps depth s) := by
  unfold execTimeSync
  apply Kept.next
  split
  · exact hz
  · extract_lets +onlyGivenNames new_1 corr_2 s1_3 old_4 s2_5
    have k_s2_5 : Keeps ⟨φ0, φ1, φ2, φ3, φ4, φ5, φ6, φ7, φ8, φ9, true, φ11, φ12, φ13, φ14, φ15, φ16, φ17, φ18, φ19⟩ z0 s2_5 := Keeps.of hz rfl
    clear_value s2_5
    extract_lets +onlyGivenNames old_6 s2_7
    have k_s2_7 : Keeps ⟨φ0, φ1, φ2, φ3, φ4, φ5, φ6, φ7, φ8, φ9, true, φ11, φ12, φ13, φ14, φ15, φ16, φ17, φ18, φ19⟩ z0 s2_7 := wrReg_keeps k_s2_5
    clear_value s2_7
    apply Keeps.foldl
    · exact k_s2_7
    · intro _ _ k8
      exact addCtr_keeps k8

theorem execRingTimeLost_keeps {managerGone : Bool} {s : State} (hz : Keeps ⟨φ0, true, true, φ3, true, φ5, φ6, φ7, φ8, true, φ10, φ11, φ12, φ13, φ14, φ15, true, φ17, φ18, φ19⟩ z0 s) : Kept ⟨φ0, true, true, φ3, true, φ5, φ6, φ7, φ8, true, φ10, φ11, φ12, φ13, φ14, φ15, true, φ17, φ18, φ19⟩ z0 (execRingTimeLost managerGone s) := by
  unfold execRingTimeLost
  apply Kept.next
  split
  · exact hz
  · extract_lets +onlyGivenNames s1_1 inj_2 s2_3 s3_4
    have k_s1_1 : Keeps ⟨φ0, true, true, φ3, true, φ5, φ6, φ7, φ8, true, φ10, φ11, φ12, φ13, φ14, φ15, true, φ17, φ18, φ19⟩ z0 s1_1 := advanceTo_keeps hz
    have k_s2_3 : Keeps ⟨φ0, true, true, φ3, true, φ5, φ6, φ7, φ8, true, φ10, φ11, φ12, φ13, φ14, φ15, true, φ17, φ18, φ19⟩ z0 s2_3 := wrField_keeps (wrField_keeps (disarm_keeps k_s1_1))
    have k_s3_4 : Keeps ⟨φ0, true, true, φ3, true, φ5, φ6, φ7, φ8, true, φ10, φ11, φ12, φ13, φ14, φ15, true, φ17, φ18, φ19⟩ z0 s3_4 := raise_keeps k_s2_3
    clear_value s1_1 s2_3 s3_4
    split
    · exact wrField_keeps (wrField_keeps k_s3_4)
    · exact k_s3_4

theorem execRingRead_keeps {src job tag : Nat} {det : Bool} {addr len : Nat} {s : State} (hz : Keeps ⟨φ0, true, true, φ3, φ4, φ5, φ6, true, true, true, true, φ11, φ12, φ13, φ14, φ15, true, φ17, φ18, φ19⟩ z0 s) : Kept ⟨φ0, true, true, φ3, φ4, φ5, φ6, true, true, true, true, φ11, φ12, φ13, φ14, φ15, true, φ17, φ18, φ19⟩ z0 (execRingRead src job tag det addr len s) := by
  unfold execRingRead
  apply Kept.next
  split
  · exact sendResp_keeps hz
  · extract_lets +onlyGivenNames r_1
    have k_r_1 : Keeps ⟨φ0, true, true, φ3, φ4, φ5, φ6, true, true, true, true, φ11, φ12, φ13, φ14, φ15, true, φ17, φ18, φ19⟩ z0 r_1.2 := access_keeps hz
    clear_value r_1
    exact sendResp_keeps k_r_1

theorem execRingWrite_keeps {src job tag : Nat} {det : Bool} {addr : Nat} {data : List Byte} {s : State} (hz : Keeps ⟨φ0, true, true, φ3, φ4, φ5, φ6, true, true, true, true, φ11, φ12, φ13, φ14, φ15, true, φ17, φ18, φ19⟩ z0 s) : Kept ⟨φ0, true, true, φ3, φ4, φ5, φ6, true, true, true, true, φ11, φ12, φ13, φ14, φ15, true, φ17, φ18, φ19⟩ z0 (execRingWrite src job tag det addr data s) := by
  unfold execRingWrite
  apply Kept.next
  split
  · exact sendResp_keeps hz
  · extract_lets +onlyGivenNames r_1
    have k_r_1 : Keeps ⟨φ0, true, true, φ3, φ4, φ5, φ6, true, true, true, true, φ11, φ12, φ13, φ14, φ15, true, φ17, φ18, φ19⟩ z0 r_1.2 := access_keeps hz
    clear_value r_1
    exact sendResp_keeps k_r_1

theorem execRingAtomic_keeps {src job tag : Nat} {det : Bool} {addr op val cmp : Nat} {s : State} (hz : Keeps ⟨φ0, true, true, φ3, φ4, φ5, φ6, true, true, true, true, φ11, φ12, φ13, φ14, φ15, true, φ17, φ18, φ19⟩ z0 s) : Kept ⟨φ0, true, true, φ3, φ4, φ5, φ6, true, true, true, true, φ11, φ12, φ13, φ14, φ15, true, φ17, φ18, φ19⟩ z0 (execRingAtomic src job tag det addr op val cmp s) := by
  unfold execRingAtomic
  apply Kept.next
  split
  · exact sendResp_keeps hz
  · extract_lets +onlyGivenNames old_1 new_2 r_3
    have k_r_3 : Keeps ⟨φ0, true, true, φ3, φ4, φ5, φ6, true, true, true, true, φ11, φ12, φ13, φ14, φ15, true, φ17, φ18, φ19⟩ z0 r_3.2 := access_keeps hz
    clear_value r_3
    exact sendResp_keeps k_r_3

theorem answerOp_keeps {q issue : Nat} {r : RingReq} {st ev : Nat} {data : List Byte} {s : State} (hz : Keeps ⟨φ0, true, true, true, true, true, true, true, φ8, true, true, φ11, φ12, φ13, φ14, φ15, true, φ17, φ18, φ19⟩ z0 s) : Keeps ⟨φ0, true, true, true, true, true, true, true, φ8, true, true, φ11, φ12, φ13, φ14, φ15, true, φ17, φ18, φ19⟩ z0 (answerOp q issue r st ev data s) := by
  unfold answerOp
  extract_lets +onlyGivenNames u_1
  split
  · exact stopJob_keeps (dropUse_keeps hz)
  · extract_lets +onlyGivenNames s1_2
    have k_s1_2 : Keeps ⟨φ0, true, true, true, true, true, true, true, φ8, true, true, φ11, φ12, φ13, φ14, φ15, true, φ17, φ18, φ19⟩ z0 s1_2 := by
      subst s1_2
      split
      · exact rbufPut_keeps hz
      · exact hz
    clear_value s1_2
    split
    · exact opDone_keeps k_s1_2
    · exact k_s1_2

theorem answerDma_keeps {k issue : Nat} {r : RingReq} {st cause ev : Nat} {data : List Byte} {s : State} (hz : Keeps ⟨φ0, φ1, φ2, φ3, φ4, true, φ6, φ7, φ8, φ9, true, φ11, φ12, φ13, φ14, φ15, φ16, φ17, φ18, φ19⟩ z0 s) : Keeps ⟨φ0, φ1, φ2, φ3, φ4, true, φ6, φ7, φ8, φ9, true, φ11, φ12, φ13, φ14, φ15, φ16, φ17, φ18, φ19⟩ z0 (answerDma k issue r st cause ev data s) := by
  unfold answerDma
  extract_lets +onlyGivenNames u_1
  split
  · split
    · exact rbufPut_keeps hz
    · exact noteFar_keeps hz
  · split
    · exact hz
    · extract_lets +onlyGivenNames ch_2
      exact setChan_keeps hz

theorem answerHost_keeps {port seq : Nat} {r : RingReq} {st cause : Nat} {data : List Byte} {s : State} (hz : Keeps ⟨φ0, true, true, true, φ4, φ5, φ6, φ7, φ8, true, true, φ11, φ12, true, true, φ15, true, φ17, φ18, φ19⟩ z0 s) : Keeps ⟨φ0, true, true, true, φ4, φ5, φ6, φ7, φ8, true, true, φ11, φ12, true, true, φ15, true, φ17, φ18, φ19⟩ z0 (answerHost port seq r st cause data s) := by
  unfold answerHost
  extract_lets +onlyGivenNames u_1 s1_2
  have k_s1_2 : Keeps ⟨φ0, true, true, true, φ4, φ5, φ6, φ7, φ8, true, true, φ11, φ12, true, true, φ15, true, φ17, φ18, φ19⟩ z0 s1_2 := by
    subst s1_2
    split
    · exact noteErr_keeps hz
    · split
      · exact rbufPut_keeps hz
      · exact hz
  clear_value s1_2
  exact hostDone_keeps k_s1_2

theorem answer_keeps {r : RingReq} {st cause ev : Nat} {data : List Byte} {s0 : State} (hz : Keeps ⟨φ0, true, true, true, true, true, true, true, φ8, true, true, φ11, φ12, true, true, φ15, true, φ17, φ18, φ19⟩ z0 s0) : Keeps ⟨φ0, true, true, true, true, true, true, true, φ8, true, true, φ11, φ12, true, true, φ15, true, φ17, φ18, φ19⟩ z0 (answer r st cause ev data s0) := by
  unfold answer
  extract_lets +onlyGivenNames s_1
  extract_lets +onlyGivenNames s_2
  have k_s_2 : Keeps ⟨φ0, true, true, true, true, true, true, true, φ8, true, true, φ11, φ12, true, true, φ15, true, φ17, φ18, φ19⟩ z0 s_2 := Keeps.of hz rfl
  clear_value s_2
  split
  · exact answerOp_keeps k_s_2
  · exact answerDma_keeps k_s_2
  · exact setQuill_keeps k_s_2
  · split
    · exact k_s_2
    · exact stopJob_keeps k_s_2
  · split
    · exact stopJob_keeps (dropUse_keeps k_s_2)
    · split
      · exact rbufPut_keeps k_s_2
      · exact flushSignals_keeps k_s_2
  · exact answerHost_keeps k_s_2
  · split
    · exact k_s_2
    · exact Keeps.of k_s_2 rfl
  · exact k_s_2

theorem respond_keeps {ops : List Nat} {tag st cause : Nat} {data : List Byte} {s : State} (hz : Keeps ⟨φ0, true, true, true, true, true, true, true, φ8, true, true, φ11, φ12, true, true, φ15, true, φ17, φ18, φ19⟩ z0 s) : Keeps ⟨φ0, true, true, true, true, true, true, true, φ8, true, true, φ11, φ12, true, true, φ15, true, φ17, φ18, φ19⟩ z0 (respond ops tag st cause data s) := by
  unfold respond
  split
  · split
    · split
      · exact hz
      · exact answer_keeps hz
    · split
      · exact hz
      · exact answer_keeps hz
  · exact hz

theorem execReadResponse_keeps {tag status cause : Nat} {data : List Byte} {s : State} (hz : Keeps ⟨φ0, true, true, true, true, true, true, true, φ8, true, true, φ11, φ12, true, true, φ15, true, φ17, φ18, φ19⟩ z0 s) : Kept ⟨φ0, true, true, true, true, true, true, true, φ8, true, true, φ11, φ12, true, true, φ15, true, φ17, φ18, φ19⟩ z0 (execReadResponse tag status cause data s) := by
  unfold execReadResponse
  exact Kept.next (respond_keeps hz)

theorem execWriteResponse_keeps {tag status cause : Nat} {s : State} (hz : Keeps ⟨φ0, true, true, true, true, true, true, true, φ8, true, true, φ11, φ12, true, true, φ15, true, φ17, φ18, φ19⟩ z0 s) : Kept ⟨φ0, true, true, true, true, true, true, true, φ8, true, true, φ11, φ12, true, true, φ15, true, φ17, φ18, φ19⟩ z0 (execWriteResponse tag status cause s) := by
  unfold execWriteResponse
  exact Kept.next (respond_keeps hz)

theorem execRegisterResponse_keeps {tag status : Nat} {data : List Byte} {s : State} (hz : Keeps ⟨φ0, true, true, true, true, true, true, true, φ8, true, true, φ11, φ12, true, true, φ15, true, φ17, φ18, φ19⟩ z0 s) : Kept ⟨φ0, true, true, true, true, true, true, true, φ8, true, true, φ11, φ12, true, true, φ15, true, φ17, φ18, φ19⟩ z0 (execRegisterResponse tag status data s) := by
  unfold execRegisterResponse
  exact Kept.next (respond_keeps hz)

theorem execRingSemSignal_keeps {src job tag : Nat} {det : Bool} {target rank sem count : Nat} {s : State} (hz : Keeps ⟨φ0, true, true, true, true, true, true, true, φ8, true, true, φ11, φ12, φ13, φ14, φ15, true, φ17, φ18, φ19⟩ z0 s) : Kept ⟨φ0, true, true, true, true, true, true, true, φ8, true, true, φ11, φ12, φ13, φ14, φ15, true, φ17, φ18, φ19⟩ z0 (execRingSemSignal src job tag det target rank sem count s) := by
  unfold execRingSemSignal
  apply Kept.next
  split
  · exact sendResp_keeps hz
  · split
    · exact sendResp_keeps (signalJob_keeps hz)
    · exact sendResp_keeps (raise_keeps hz)

theorem execRingQueuePush_keeps {src job tag : Nat} {det : Bool} {q : Nat} {data : List Byte} {s : State} (hz : Keeps ⟨φ0, true, true, true, true, true, true, true, true, true, true, φ11, φ12, φ13, φ14, φ15, true, φ17, φ18, φ19⟩ z0 s) : Kept ⟨φ0, true, true, true, true, true, true, true, true, true, true, φ11, φ12, φ13, φ14, φ15, true, φ17, φ18, φ19⟩ z0 (execRingQueuePush src job tag det q data s) := by
  unfold execRingQueuePush
  apply Kept.next
  split
  · exact sendResp_keeps hz
  · split
    · exact sendResp_keeps hz
    · extract_lets +onlyGivenNames r_1
      have k_r_1 : Keeps ⟨φ0, true, true, true, true, true, true, true, true, true, true, φ11, φ12, φ13, φ14, φ15, true, φ17, φ18, φ19⟩ z0 r_1.2 := pushRecord_keeps hz
      clear_value r_1
      exact sendResp_keeps k_r_1

theorem execBarrierArrival_keeps {group member : Nat} {copyB : Bool} {s : State} (hz : Keeps ⟨φ0, φ1, φ2, φ3, φ4, φ5, true, φ7, φ8, φ9, true, φ11, φ12, φ13, φ14, φ15, φ16, φ17, φ18, φ19⟩ z0 s) : Kept ⟨φ0, φ1, φ2, φ3, φ4, φ5, true, φ7, φ8, φ9, true, φ11, φ12, φ13, φ14, φ15, φ16, φ17, φ18, φ19⟩ z0 (execBarrierArrival group member copyB s) := by
  unfold execBarrierArrival
  apply Kept.next
  split
  · split
    · exact rootArrival_keeps hz
    · exact hz
  · exact hz

theorem execBarrierRelease_keeps {group : Nat} {copyB : Bool} {R : Nat} {s : State} (hz : Keeps ⟨φ0, φ1, φ2, φ3, φ4, φ5, true, φ7, φ8, φ9, φ10, φ11, φ12, φ13, φ14, φ15, φ16, φ17, φ18, φ19⟩ z0 s) : Kept ⟨φ0, φ1, φ2, φ3, φ4, φ5, true, φ7, φ8, φ9, φ10, φ11, φ12, φ13, φ14, φ15, φ16, φ17, φ18, φ19⟩ z0 (execBarrierRelease group copyB R s) := by
  unfold execBarrierRelease
  apply Kept.next
  split
  · exact hz
  · extract_lets +onlyGivenNames t_1
    exact updGroup_keeps hz

theorem execRingRegAccess_keeps {src tag : Nat} {wr : Bool} {addr n : Nat} {data : List Byte} {s : State} (hz : Keeps ⟨true, true, true, true, true, true, true, true, true, true, true, true, true, true, true, true, true, true, true, true⟩ z0 s) : Kept ⟨true, true, true, true, true, true, true, true, true, true, true, true, true, true, true, true, true, true, true, true⟩ z0 (execRingRegAccess src tag wr addr n data s) := by
  unfold execRingRegAccess
  apply Kept.next
  split
  · exact sendResp_keeps hz
  · split
    · exact sendResp_keeps (raise_keeps hz)
    · split
      · extract_lets +onlyGivenNames r_1
        have k_r_1 : Keeps ⟨true, true, true, true, true, true, true, true, true, true, true, true, true, true, true, true, true, true, true, true⟩ z0 r_1.2.2 := writeWordsAt_keeps hz
        clear_value r_1
        exact sendResp_keeps k_r_1
      · extract_lets +onlyGivenNames r_2
        have k_r_2 : Keeps ⟨true, true, true, true, true, true, true, true, true, true, true, true, true, true, true, true, true, true, true, true⟩ z0 r_2.2.2 := readWordsAt_keeps hz
        clear_value r_2
        exact sendResp_keeps k_r_2

theorem execRingReqTimeout_keeps {tag : Nat} {s : State} (hz : Keeps ⟨φ0, true, true, true, true, true, true, true, φ8, true, true, φ11, φ12, true, true, φ15, true, φ17, φ18, φ19⟩ z0 s) : Kept ⟨φ0, true, true, true, true, true, true, true, φ8, true, true, φ11, φ12, true, true, φ15, true, φ17, φ18, φ19⟩ z0 (execRingReqTimeout tag s) := by
  unfold execRingReqTimeout
  apply Kept.next
  split
  · exact hz
  · extract_lets +onlyGivenNames s1_1 e_2
    have k_s1_1 : Keeps ⟨φ0, true, true, true, true, true, true, true, φ8, true, true, φ11, φ12, true, true, φ15, true, φ17, φ18, φ19⟩ z0 s1_1 := advanceTo_keeps hz
    have k_e_2 : Keeps ⟨φ0, true, true, true, true, true, true, true, φ8, true, true, φ11, φ12, true, true, φ15, true, φ17, φ18, φ19⟩ z0 e_2.2 := raiseSeq_keeps k_s1_1
    clear_value s1_1 e_2
    exact answer_keeps k_e_2

theorem execEnumStart_keeps {r : Option Req} {s : State} (hz : Keeps ⟨φ0, true, true, φ3, φ4, φ5, φ6, φ7, φ8, true, true, φ11, φ12, φ13, φ14, φ15, true, φ17, φ18, φ19⟩ z0 s) : Kept ⟨φ0, true, true, φ3, φ4, φ5, φ6, φ7, φ8, true, true, φ11, φ12, φ13, φ14, φ15, true, φ17, φ18, φ19⟩ z0 (execEnumStart r s) := by
  unfold execEnumStart
  apply Kept.next
  split
  · apply onReg_keeps
    · intro _ k1
      exact wrEnumCtrl_keeps k1
    · exact hz
  · split
    · exact hz
    · exact enumStart_keeps hz

theorem execDiscover_keeps {p origin round : Nat} {s : State} (hz : Keeps ⟨φ0, true, true, φ3, φ4, φ5, φ6, φ7, φ8, true, true, φ11, φ12, φ13, φ14, φ15, true, φ17, φ18, φ19⟩ z0 s) : Kept ⟨φ0, true, true, φ3, φ4, φ5, φ6, φ7, φ8, true, true, φ11, φ12, φ13, φ14, φ15, true, φ17, φ18, φ19⟩ z0 (execDiscover p origin round s) := by
  unfold execDiscover
  apply Kept.next
  split
  · exact hz
  · split
    · exact enumRefused_keeps hz
    · split
      · exact hz
      · extract_lets +onlyGivenNames f_1 words_2 s1_3
        extract_lets +onlyGivenNames s1_4
        have k_s1_4 : Keeps ⟨φ0, true, true, φ3, φ4, φ5, φ6, φ7, φ8, true, true, φ11, φ12, φ13, φ14, φ15, true, φ17, φ18, φ19⟩ z0 s1_4 := by
          subst s1_4
          apply pushFlits_keeps
          exact Keeps.of hz rfl
        clear_value s1_4
        apply Keeps.foldl
        · exact k_s1_4
        · intro _ _ k5
          exact pushFlits_keeps k5

theorem execDiscoverReply_keeps {die : Nat} {manager : Bool} {ports : List (Bool × Nat × Nat)} {s : State} (hz : Keeps ⟨φ0, true, true, φ3, φ4, φ5, φ6, φ7, φ8, true, true, φ11, φ12, φ13, φ14, φ15, true, φ17, φ18, φ19⟩ z0 s) : Kept ⟨φ0, true, true, φ3, φ4, φ5, φ6, φ7, φ8, true, true, φ11, φ12, φ13, φ14, φ15, true, φ17, φ18, φ19⟩ z0 (execDiscoverReply die manager ports s) := by
  unfold execDiscoverReply
  apply Kept.next
  extract_lets +onlyGivenNames f_1
  split
  · exact hz
  · split
    · apply enumCheck_keeps
      exact Keeps.of hz rfl
    · split
      · split
        · exact enumRefused_keeps hz
        · exact lateFound_keeps hz
      · exact hz

theorem execAssign_keeps {id sx sy sz x y z depth : Nat} {down : List (Nat × Nat)} {s : State} (hz : Keeps ⟨φ0, φ1, φ2, φ3, φ4, φ5, φ6, φ7, φ8, φ9, true, φ11, φ12, φ13, φ14, φ15, φ16, φ17, φ18, φ19⟩ z0 s) : Kept ⟨φ0, φ1, φ2, φ3, φ4, φ5, φ6, φ7, φ8, φ9, true, φ11, φ12, φ13, φ14, φ15, φ16, φ17, φ18, φ19⟩ z0 (execAssign id sx sy sz x y z depth down s) := by
  unfold execAssign
  apply Kept.next
  split
  · exact hz
  · extract_lets +onlyGivenNames s1_1 s2_2
    have k_s1_1 : Keeps ⟨φ0, φ1, φ2, φ3, φ4, φ5, φ6, φ7, φ8, φ9, true, φ11, φ12, φ13, φ14, φ15, φ16, φ17, φ18, φ19⟩ z0 s1_1 := takeId_keeps hz
    clear_value s1_1
    extract_lets +onlyGivenNames s2_3
    have k_s2_3 : Keeps ⟨φ0, φ1, φ2, φ3, φ4, φ5, φ6, φ7, φ8, φ9, true, φ11, φ12, φ13, φ14, φ15, φ16, φ17, φ18, φ19⟩ z0 s2_3 := by
      subst s2_3
      apply Keeps.foldl
      · exact Keeps.of k_s1_1 rfl
      · intro _ _ k4
        exact setPeer_keeps k4
    clear_value s2_3
    exact sendPkt_keeps (wrField_keeps k_s2_3)

theorem execEnumDone_keeps {s : State} (hz : Keeps ⟨φ0, true, true, φ3, φ4, φ5, φ6, φ7, φ8, true, true, φ11, φ12, φ13, φ14, φ15, true, φ17, φ18, φ19⟩ z0 s) : Kept ⟨φ0, true, true, φ3, φ4, φ5, φ6, φ7, φ8, true, true, φ11, φ12, φ13, φ14, φ15, true, φ17, φ18, φ19⟩ z0 (execEnumDone s) := by
  unfold execEnumDone
  apply Kept.next
  split
  · exact hz
  · extract_lets +onlyGivenNames n_1 s1_2 s2_3
    have k_s2_3 : Keeps ⟨φ0, true, true, φ3, φ4, φ5, φ6, φ7, φ8, true, true, φ11, φ12, φ13, φ14, φ15, true, φ17, φ18, φ19⟩ z0 s2_3 := Keeps.of hz rfl
    clear_value s2_3
    extract_lets +onlyGivenNames s2_4
    have k_s2_4 : Keeps ⟨φ0, true, true, φ3, φ4, φ5, φ6, φ7, φ8, true, true, φ11, φ12, φ13, φ14, φ15, true, φ17, φ18, φ19⟩ z0 s2_4 := wrField_keeps (wrField_keeps k_s2_3)
    clear_value s2_4
    exact raise_keeps k_s2_4

theorem execDiscoverRepeat_aux {n : Nat} {s : State} (hz : Keeps ⟨φ0, φ1, φ2, φ3, true, φ5, φ6, φ7, φ8, φ9, true, φ11, φ12, φ13, φ14, φ15, φ16, φ17, φ18, φ19⟩ z0 s) : Keeps ⟨φ0, φ1, φ2, φ3, true, φ5, φ6, φ7, φ8, φ9, true, φ11, φ12, φ13, φ14, φ15, φ16, φ17, φ18, φ19⟩ z0 { s with ring := { s.ring with discAt := n } } := Keeps.of hz rfl

theorem execDiscoverRepeat_keeps {s : State} (hz : Keeps ⟨φ0, φ1, φ2, φ3, true, φ5, φ6, φ7, φ8, φ9, true, φ11, φ12, φ13, φ14, φ15, φ16, φ17, φ18, φ19⟩ z0 s) : Kept ⟨φ0, φ1, φ2, φ3, true, φ5, φ6, φ7, φ8, φ9, true, φ11, φ12, φ13, φ14, φ15, φ16, φ17, φ18, φ19⟩ z0 (execDiscoverRepeat s) := by
  unfold execDiscoverRepeat
  apply Kept.next
  split
  · exact hz
  · exact discoverOut_keeps (execDiscoverRepeat_aux (advanceTo_keeps hz))

theorem execEnumWaitTimeout_aux {s : State} (hz : Keeps ⟨φ0, true, true, φ3, true, φ5, φ6, φ7, φ8, true, true, φ11, φ12, φ13, φ14, φ15, true, φ17, φ18, φ19⟩ z0 s) : Keeps ⟨φ0, true, true, φ3, true, φ5, φ6, φ7, φ8, true, true, φ11, φ12, φ13, φ14, φ15, true, φ17, φ18, φ19⟩ z0 { s with ring := { s.ring with noManager := true } } := Keeps.of hz rfl

theorem execEnumWaitTimeout_keeps {s : State} (hz : Keeps ⟨φ0, true, true, φ3, true, φ5, φ6, φ7, φ8, true, true, φ11, φ12, φ13, φ14, φ15, true, φ17, φ18, φ19⟩ z0 s) : Kept ⟨φ0, true, true, φ3, true, φ5, φ6, φ7, φ8, true, true, φ11, φ12, φ13, φ14, φ15, true, φ17, φ18, φ19⟩ z0 (execEnumWaitTimeout s) := by
  unfold execEnumWaitTimeout
  apply Kept.next
  cases s.ring.firstUp with
  | none => exact hz
  | some t =>
    show Keeps _ _ (ite _ _ _)
    split
    · exact hz
    · exact enumRefused_keeps (execEnumWaitTimeout_aux (advanceTo_keeps hz))

theorem execRouteUpdate_keeps {dev p : Nat} {down : Bool} {s : State} (hz : Keeps ⟨φ0, φ1, φ2, φ3, φ4, φ5, φ6, φ7, φ8, φ9, true, φ11, φ12, φ13, φ14, φ15, φ16, φ17, φ18, φ19⟩ z0 s) : Kept ⟨φ0, φ1, φ2, φ3, φ4, φ5, φ6, φ7, φ8, φ9, true, φ11, φ12, φ13, φ14, φ15, φ16, φ17, φ18, φ19⟩ z0 (execRouteUpdate dev p down s) := by
  unfold execRouteUpdate
  apply Kept.next
  split
  · exact hz
  · split
    · exact tellRoutes_keeps hz
    · exact markLink_keeps hz

theorem execFenceCmd_keeps {r : Req} {target : Nat} {s : State} (hz : Keeps ⟨φ0, true, true, φ3, φ4, φ5, φ6, φ7, φ8, true, true, φ11, φ12, φ13, φ14, φ15, true, φ17, φ18, φ19⟩ z0 s) : Kept ⟨φ0, true, true, φ3, φ4, φ5, φ6, φ7, φ8, true, true, φ11, φ12, φ13, φ14, φ15, true, φ17, φ18, φ19⟩ z0 (execFenceCmd r target s) := by
  unfold execFenceCmd
  apply Kept.next
  apply regWriteAt_keeps
  · intro _ k1
    exact wrFenceCmd_keeps k1
  · exact hz

theorem execDeviceFence_keeps {fault : Option Nat} {s : State} (hz : Keeps ⟨φ0, true, true, true, true, true, true, true, φ8, true, true, φ11, φ12, true, φ14, φ15, true, φ17, φ18, φ19⟩ z0 s) : Kept ⟨φ0, true, true, true, true, true, true, true, φ8, true, true, φ11, φ12, true, φ14, φ15, true, φ17, φ18, φ19⟩ z0 (execDeviceFence fault s) := by
  unfold execDeviceFence
  apply Kept.next
  extract_lets +onlyGivenNames due_1 s1_2
  extract_lets +onlyGivenNames s1_3
  have k_s1_3 : Keeps ⟨φ0, true, true, true, true, true, true, true, φ8, true, true, φ11, φ12, true, φ14, φ15, true, φ17, φ18, φ19⟩ z0 s1_3 := Keeps.of hz rfl
  clear_value s1_3
  clear_value due_1
  split
  · exact k_s1_3
  · split
    · exact fenceNow_keeps k_s1_3
    · split
      · exact goDark_keeps k_s1_3
      · exact k_s1_3

theorem relayTo_keeps {q : Nat} {b : List Byte} {s : State} (hz : Keeps ⟨φ0, true, true, φ3, φ4, φ5, φ6, φ7, φ8, true, φ10, φ11, φ12, φ13, φ14, φ15, true, φ17, φ18, φ19⟩ z0 s) : Keeps ⟨φ0, true, true, φ3, φ4, φ5, φ6, φ7, φ8, true, φ10, φ11, φ12, φ13, φ14, φ15, true, φ17, φ18, φ19⟩ z0 (relayTo q b s) := by
  unfold relayTo
  exact pushEngine_keeps hz

theorem execFenceNotice_keeps {dev reason : Nat} {records : List (List Byte)} {s : State} (hz : Keeps ⟨φ0, true, true, φ3, φ4, φ5, φ6, φ7, φ8, true, true, φ11, φ12, φ13, φ14, φ15, true, φ17, φ18, φ19⟩ z0 s) : Kept ⟨φ0, true, true, φ3, φ4, φ5, φ6, φ7, φ8, true, true, φ11, φ12, φ13, φ14, φ15, true, φ17, φ18, φ19⟩ z0 (execFenceNotice dev reason records s) := by
  unfold execFenceNotice
  apply Kept.next
  split
  · exact hz
  · split
    · split
      · exact fenceFor_keeps hz
      · exact hz
    · extract_lets +onlyGivenNames on_1 s1_2
      have k_s1_2 : Keeps ⟨φ0, true, true, φ3, φ4, φ5, φ6, φ7, φ8, true, true, φ11, φ12, φ13, φ14, φ15, true, φ17, φ18, φ19⟩ z0 s1_2 := peerFenced_keeps hz
      clear_value s1_2
      split
      · apply Keeps.foldl
        · exact k_s1_2
        · intro _ _ k3
          exact relayTo_keeps k3
      · exact k_s1_2

theorem execLinkRetrainCmd_keeps {r : Req} {p : Nat} {s : State} (hz : Keeps ⟨φ0, true, true, φ3, φ4, φ5, φ6, φ7, φ8, true, true, φ11, φ12, φ13, φ14, φ15, true, φ17, φ18, φ19⟩ z0 s) : Kept ⟨φ0, true, true, φ3, φ4, φ5, φ6, φ7, φ8, true, true, φ11, φ12, φ13, φ14, φ15, true, φ17, φ18, φ19⟩ z0 (execLinkRetrainCmd r p s) := by
  unfold execLinkRetrainCmd
  apply Kept.next
  apply onReg_keeps
  · intro _ k1
    exact wrLinkCtrl_keeps k1
  · exact hz

theorem execLinkModeWrite_keeps {r : Req} {p mode : Nat} {s : State} (hz : Keeps ⟨φ0, true, true, φ3, φ4, φ5, φ6, φ7, φ8, true, true, φ11, φ12, φ13, φ14, φ15, true, φ17, φ18, φ19⟩ z0 s) : Kept ⟨φ0, true, true, φ3, φ4, φ5, φ6, φ7, φ8, true, true, φ11, φ12, φ13, φ14, φ15, true, φ17, φ18, φ19⟩ z0 (execLinkModeWrite r p mode s) := by
  unfold execLinkModeWrite
  apply Kept.next
  apply onReg_keeps
  · intro _ k1
    exact wrLinkCtrl_keeps k1
  · exact hz

theorem execLinkTestDrop_keeps {r : Req} {p n : Nat} {s : State} (hz : Keeps ⟨φ0, true, true, φ3, φ4, φ5, φ6, φ7, φ8, true, true, φ11, φ12, φ13, φ14, φ15, true, φ17, φ18, φ19⟩ z0 s) : Kept ⟨φ0, true, true, φ3, φ4, φ5, φ6, φ7, φ8, true, true, φ11, φ12, φ13, φ14, φ15, true, φ17, φ18, φ19⟩ z0 (execLinkTestDrop r p n s) := by
  unfold execLinkTestDrop
  apply Kept.next
  apply regWriteAt_keeps
  · intro _ k1
    exact wrRpTest_keeps k1
  · exact hz

theorem execLinkTestCorrupt_keeps {r : Req} {p n : Nat} {s : State} (hz : Keeps ⟨φ0, true, true, φ3, φ4, φ5, φ6, φ7, φ8, true, true, φ11, φ12, φ13, φ14, φ15, true, φ17, φ18, φ19⟩ z0 s) : Kept ⟨φ0, true, true, φ3, φ4, φ5, φ6, φ7, φ8, true, true, φ11, φ12, φ13, φ14, φ15, true, φ17, φ18, φ19⟩ z0 (execLinkTestCorrupt r p n s) := by
  unfold execLinkTestCorrupt
  apply Kept.next
  apply regWriteAt_keeps
  · intro _ k1
    exact wrRpTest_keeps k1
  · exact hz

theorem execLinkTestReorder_keeps {r : Req} {p : Nat} {s : State} (hz : Keeps ⟨φ0, true, true, φ3, φ4, φ5, φ6, φ7, φ8, true, true, φ11, φ12, φ13, φ14, φ15, true, φ17, φ18, φ19⟩ z0 s) : Kept ⟨φ0, true, true, φ3, φ4, φ5, φ6, φ7, φ8, true, true, φ11, φ12, φ13, φ14, φ15, true, φ17, φ18, φ19⟩ z0 (execLinkTestReorder r p s) := by
  unfold execLinkTestReorder
  apply Kept.next
  apply regWriteAt_keeps
  · intro _ k1
    exact wrRpTest_keeps k1
  · exact hz

theorem reserveIndex_keeps {s : State} (hz : Keeps ⟨φ0, true, true, φ3, φ4, φ5, φ6, φ7, φ8, true, φ10, φ11, φ12, φ13, φ14, φ15, true, φ17, φ18, true⟩ z0 s) : Keeps ⟨φ0, true, true, φ3, φ4, φ5, φ6, φ7, φ8, true, φ10, φ11, φ12, φ13, φ14, φ15, true, φ17, φ18, true⟩ z0 (reserveIndex s) := by
  unfold reserveIndex
  split
  · split
    · exact writeSig_keeps hz
    · exact hz
  · exact hz

theorem runAttest_keeps {c : HostCmd} {s : State} (hz : Keeps ⟨φ0, true, true, φ3, φ4, φ5, φ6, true, true, true, true, φ11, φ12, φ13, φ14, φ15, true, φ17, φ18, true⟩ z0 s) : Keeps ⟨φ0, true, true, φ3, φ4, φ5, φ6, true, true, true, true, φ11, φ12, φ13, φ14, φ15, true, φ17, φ18, true⟩ z0 (runAttest c s).2 := by
  unfold runAttest
  dsimp only
  split
  · exact hz
  · split
    · exact hz
    · split
      · exact hz
      · split
        · exact hz
        · split
          · split
            · dsimp only
              apply turnTree_keeps
              apply access_keeps
              refine Keeps.of ?_ rfl
              apply reserveIndex_keeps
              apply wrField_keeps
              exact Keeps.of hz rfl
            · dsimp only
              apply turnTree_keeps
              apply access_keeps
              refine Keeps.of ?_ rfl
              apply reserveIndex_keeps
              apply wrField_keeps
              exact Keeps.of hz rfl
          · split
            · dsimp only
              apply turnTree_keeps
              apply access_keeps
              exact Keeps.of (reserveIndex_keeps (wrField_keeps hz)) rfl
            · dsimp only
              apply turnTree_keeps
              apply access_keeps
              exact Keeps.of (reserveIndex_keeps (wrField_keeps hz)) rfl

theorem execAttest_keeps {s : State} (hz : Keeps ⟨φ0, true, true, true, φ4, φ5, φ6, true, true, true, true, φ11, φ12, true, true, φ15, true, φ17, φ18, true⟩ z0 s) : Kept ⟨φ0, true, true, true, φ4, φ5, φ6, true, true, true, true, φ11, φ12, true, true, φ15, true, φ17, φ18, true⟩ z0 (execAttest s) := by
  unfold execAttest
  apply Kept.next
  apply ccp_keeps
  · intro _ _ k1
    exact runAttest_keeps k1
  · exact hz

theorem execBottomTreeReady_keeps {s : State} (hz : Keeps ⟨φ0, true, true, φ3, φ4, φ5, φ6, φ7, φ8, true, φ10, φ11, φ12, φ13, φ14, φ15, true, φ17, φ18, true⟩ z0 s) : Kept ⟨φ0, true, true, φ3, φ4, φ5, φ6, φ7, φ8, true, φ10, φ11, φ12, φ13, φ14, φ15, true, φ17, φ18, true⟩ z0 (execBottomTreeReady s) := by
  unfold execBottomTreeReady
  apply Kept.next
  split
  · apply turnTree_keeps
    exact Keeps.of hz rfl
  · exact hz

theorem execAttestTokenRefill_aux {s : State} {c : Nat} (hz : Keeps ⟨φ0, φ1, φ2, φ3, true, φ5, φ6, φ7, φ8, φ9, φ10, φ11, φ12, φ13, φ14, φ15, φ16, φ17, φ18, true⟩ z0 s) : Keeps ⟨φ0, φ1, φ2, φ3, true, φ5, φ6, φ7, φ8, φ9, φ10, φ11, φ12, φ13, φ14, φ15, φ16, φ17, φ18, true⟩ z0 { s with sec := { s.sec with refill := c } } :=
  Keeps.of hz rfl

theorem execAttestTokenRefill_keeps {s : State} (hz : Keeps ⟨φ0, φ1, φ2, φ3, true, φ5, φ6, φ7, φ8, φ9, φ10, φ11, φ12, φ13, φ14, φ15, φ16, φ17, φ18, true⟩ z0 s) : Kept ⟨φ0, φ1, φ2, φ3, true, φ5, φ6, φ7, φ8, φ9, φ10, φ11, φ12, φ13, φ14, φ15, φ16, φ17, φ18, true⟩ z0 (execAttestTokenRefill s) := by
  unfold execAttestTokenRefill
  apply Kept.next
  split
  · exact hz
  · exact wrField_keeps (execAttestTokenRefill_aux (advanceTo_keeps hz))

theorem runDebugChallenge_keeps {u1 : HostCmd} {s : State} (hz : Keeps ⟨φ0, φ1, φ2, φ3, φ4, φ5, φ6, φ7, φ8, φ9, φ10, φ11, φ12, φ13, φ14, φ15, φ16, φ17, φ18, true⟩ z0 s) : Keeps ⟨φ0, φ1, φ2, φ3, φ4, φ5, φ6, φ7, φ8, φ9, φ10, φ11, φ12, φ13, φ14, φ15, φ16, φ17, φ18, true⟩ z0 (runDebugChallenge u1 s).2 := by
  unfold runDebugChallenge
  dsimp only
  exact Keeps.of (fresh_keeps hz) rfl

theorem execDebugChallenge_keeps {s : State} (hz : Keeps ⟨φ0, true, true, true, φ4, φ5, φ6, φ7, φ8, true, φ10, φ11, φ12, true, true, φ15, true, φ17, φ18, true⟩ z0 s) : Kept ⟨φ0, true, true, true, φ4, φ5, φ6, φ7, φ8, true, φ10, φ11, φ12, true, true, φ15, true, φ17, φ18, true⟩ z0 (execDebugChallenge s) := by
  unfold execDebugChallenge
  apply Kept.next
  apply ccp_keeps
  · intro _ _ k1
    exact runDebugChallenge_keeps k1
  · exact hz

theorem unlockRefused_keeps {cause : Nat} {s : State} (hz : Keeps ⟨φ0, true, true, φ3, φ4, φ5, φ6, φ7, φ8, true, φ10, φ11, φ12, φ13, φ14, φ15, true, φ17, φ18, φ19⟩ z0 s) : Keeps ⟨φ0, true, true, φ3, φ4, φ5, φ6, φ7, φ8, true, φ10, φ11, φ12, φ13, φ14, φ15, true, φ17, φ18, φ19⟩ z0 (unlockRefused cause s).2 := by
  unfold unlockRefused
  dsimp only
  exact raise_keeps hz

theorem checkToken_keeps {t : List Byte} {s : State} (hz : Keeps ⟨φ0, true, true, φ3, φ4, φ5, φ6, φ7, φ8, true, φ10, φ11, φ12, φ13, φ14, φ15, true, φ17, φ18, true⟩ z0 s) : Keeps ⟨φ0, true, true, φ3, φ4, φ5, φ6, φ7, φ8, true, φ10, φ11, φ12, φ13, φ14, φ15, true, φ17, φ18, true⟩ z0 (checkToken t s).2 := by
  unfold checkToken
  dsimp only
  split
  · exact unlockRefused_keeps hz
  · split
    · exact unlockRefused_keeps hz
    · split
      · apply unlockRefused_keeps
        exact Keeps.of hz rfl
      · split
        · apply unlockRefused_keeps
          exact Keeps.of hz rfl
        · split
          · apply unlockRefused_keeps
            exact Keeps.of hz rfl
          · dsimp only
            apply raise_keeps
            apply wrReg_keeps
            exact Keeps.of hz rfl

theorem runDebugUnlock_keeps {c : HostCmd} {s : State} (hz : Keeps ⟨φ0, true, true, φ3, φ4, φ5, φ6, true, true, true, true, φ11, φ12, φ13, φ14, φ15, true, φ17, φ18, true⟩ z0 s) : Keeps ⟨φ0, true, true, φ3, φ4, φ5, φ6, true, true, true, true, φ11, φ12, φ13, φ14, φ15, true, φ17, φ18, true⟩ z0 (runDebugUnlock c s).2 := by
  unfold runDebugUnlock
  dsimp only
  split
  · exact hz
  · split
    · dsimp only
      exact fetchMem_keeps hz
    · exact checkToken_keeps (fetchMem_keeps hz)

theorem execDebugUnlock_keeps {s : State} (hz : Keeps ⟨φ0, true, true, true, φ4, φ5, φ6, true, true, true, true, φ11, φ12, true, true, φ15, true, φ17, φ18, true⟩ z0 s) : Kept ⟨φ0, true, true, true, φ4, φ5, φ6, true, true, true, true, φ11, φ12, true, true, φ15, true, φ17, φ18, true⟩ z0 (execDebugUnlock s) := by
  unfold execDebugUnlock
  apply Kept.next
  apply ccp_keeps
  · intro _ _ k1
    exact runDebugUnlock_keeps k1
  · exact hz

theorem execDebugLock_keeps {r : Req} {s : State} (hz : Keeps ⟨φ0, true, true, φ3, φ4, φ5, φ6, true, φ8, true, φ10, φ11, φ12, φ13, φ14, φ15, true, φ17, φ18, φ19⟩ z0 s) : Kept ⟨φ0, true, true, φ3, φ4, φ5, φ6, true, φ8, true, φ10, φ11, φ12, φ13, φ14, φ15, true, φ17, φ18, φ19⟩ z0 (execDebugLock r s) := by
  unfold execDebugLock
  apply Kept.next
  apply onReg_keeps
  · intro _ k1
    exact wrDbgLock_keeps k1
  · exact hz

theorem execDebugExpiry_keeps {s : State} (hz : Keeps ⟨φ0, true, true, φ3, true, φ5, φ6, true, φ8, true, φ10, φ11, φ12, φ13, φ14, φ15, true, φ17, φ18, φ19⟩ z0 s) : Kept ⟨φ0, true, true, φ3, true, φ5, φ6, true, φ8, true, φ10, φ11, φ12, φ13, φ14, φ15, true, φ17, φ18, φ19⟩ z0 (execDebugExpiry s) := by
  unfold execDebugExpiry
  apply Kept.next
  split
  · exact debugLock_keeps (advanceTo_keeps hz)
  · exact hz

theorem runProvision_keeps {c : HostCmd} {s : State} (hz : Keeps ⟨φ0, φ1, φ2, φ3, φ4, φ5, φ6, φ7, φ8, φ9, φ10, φ11, φ12, φ13, φ14, φ15, φ16, φ17, φ18, true⟩ z0 s) : Keeps ⟨φ0, φ1, φ2, φ3, φ4, φ5, φ6, φ7, φ8, φ9, φ10, φ11, φ12, φ13, φ14, φ15, φ16, φ17, φ18, true⟩ z0 (runProvision c s).2 := by
  unfold runProvision
  extract_lets p
  split
  · exact hz
  · split
    · exact hz
    · rename_i hc
      simp only [not_or, Bool.not_eq_false, List.isEmpty_iff] at hc
      refine Keeps.step hz rfl (Nat.le_refl _) id id id ⟨rfl, Nat.le_refl _, Nat.le_refl _, Nat.le_refl _, fun n o e => ?_⟩ id
      rw [hc.1] at e; cases e

theorem execProvision_keeps {s : State} (hz : Keeps ⟨φ0, true, true, true, φ4, φ5, φ6, φ7, φ8, true, φ10, φ11, φ12, true, true, φ15, true, φ17, φ18, true⟩ z0 s) : Kept ⟨φ0, true, true, true, φ4, φ5, φ6, φ7, φ8, true, φ10, φ11, φ12, true, true, φ15, true, φ17, φ18, true⟩ z0 (execProvision s) := by
  unfold execProvision
  apply Kept.next
  apply ccp_keeps
  · intro _ _ k1
    exact runProvision_keeps k1
  · exact hz

theorem runUpdateStage_keeps {c : HostCmd} {s : State} (hz : Keeps ⟨φ0, φ1, φ2, φ3, φ4, φ5, φ6, φ7, φ8, φ9, φ10, φ11, φ12, φ13, φ14, φ15, φ16, φ17, φ18, true⟩ z0 s) : Keeps ⟨φ0, φ1, φ2, φ3, φ4, φ5, φ6, φ7, φ8, φ9, φ10, φ11, φ12, φ13, φ14, φ15, φ16, φ17, φ18, true⟩ z0 (runUpdateStage c s).2 := by
  unfold runUpdateStage
  dsimp only
  split
  · exact hz
  · split
    · exact hz
    · dsimp only
      apply setUpd_keeps
      apply wrField_keeps
      refine Keeps.of ?_ rfl
      split
      · exact disarm_keeps hz
      · exact hz

theorem execUpdateStage_keeps {s : State} (hz : Keeps ⟨φ0, true, true, true, φ4, φ5, φ6, φ7, φ8, true, φ10, φ11, φ12, true, true, φ15, true, φ17, φ18, true⟩ z0 s) : Kept ⟨φ0, true, true, true, φ4, φ5, φ6, φ7, φ8, true, φ10, φ11, φ12, true, true, φ15, true, φ17, φ18, true⟩ z0 (execUpdateStage s) := by
  unfold execUpdateStage
  apply Kept.next
  apply ccp_keeps
  · intro _ _ k1
    exact runUpdateStage_keeps k1
  · exact hz

theorem stageFail_keeps {r : StageRun} {cause : Nat} {inj : Bool} {s : State} (hz : Keeps ⟨φ0, true, true, φ3, φ4, φ5, φ6, φ7, φ8, true, φ10, φ11, φ12, φ13, φ14, φ15, true, φ17, φ18, φ19⟩ z0 s) : Keeps ⟨φ0, true, true, φ3, φ4, φ5, φ6, φ7, φ8, true, φ10, φ11, φ12, φ13, φ14, φ15, true, φ17, φ18, φ19⟩ z0 (stageFail r cause inj s) := by
  unfold stageFail
  exact setUpd_keeps (evUpdateFailed_keeps hz)

theorem stageRecord_keeps {r : StageRun} {b : List Byte} {s : State} (hz : Keeps ⟨φ0, true, true, φ3, φ4, φ5, φ6, φ7, φ8, true, φ10, true, φ12, φ13, φ14, φ15, true, φ17, φ18, φ19⟩ z0 s) : Keeps ⟨φ0, true, true, φ3, φ4, φ5, φ6, φ7, φ8, true, φ10, true, φ12, φ13, φ14, φ15, true, φ17, φ18, φ19⟩ z0 (stageRecord r b s) := by
  unfold stageRecord
  split
  · exact stageFail_keeps hz
  · apply evUpdateDone_keeps
    apply setUpd_keeps
    exact Keeps.of hz rfl

theorem stageImage_keeps {r : StageRun} {b : List Byte} {bad : Option Nat} {s : State} (hz : Keeps ⟨φ0, true, true, φ3, φ4, φ5, φ6, φ7, φ8, true, φ10, φ11, φ12, φ13, φ14, φ15, true, φ17, φ18, true⟩ z0 s) : Keeps ⟨φ0, true, true, φ3, φ4, φ5, φ6, φ7, φ8, true, φ10, φ11, φ12, φ13, φ14, φ15, true, φ17, φ18, true⟩ z0 (stageImage r b bad s) := by
  unfold stageImage
  extract_lets +onlyGivenNames k_1 rd_2 reject_3
  split
  · subst reject_3
    dsimp only
    exact stageFail_keeps (imageRejected_keeps hz)
  · split
    · subst reject_3
      dsimp only
      exact stageFail_keeps (imageRejected_keeps hz)
    · extract_lets +onlyGivenNames s1_4
      have k_s1_4 : Keeps ⟨φ0, true, true, φ3, φ4, φ5, φ6, φ7, φ8, true, φ10, φ11, φ12, φ13, φ14, φ15, true, φ17, φ18, true⟩ z0 s1_4 := flashErase_keeps hz
      clear_value s1_4
      split
      · exact stageFail_keeps (flashError_keeps (disarm_keeps k_s1_4))
      · split
        · exact stageFail_keeps (flashError_keeps k_s1_4)
        · extract_lets +onlyGivenNames s2_5
          have k_s2_5 : Keeps ⟨φ0, true, true, φ3, φ4, φ5, φ6, φ7, φ8, true, φ10, φ11, φ12, φ13, φ14, φ15, true, φ17, φ18, true⟩ z0 s2_5 := wrField_keeps (flashProgram_keeps k_s1_4)
          clear_value s2_5
          split
          · subst reject_3
            dsimp only
            exact stageFail_keeps (imageRejected_keeps k_s2_5)
          · exact evUpdateDone_keeps (setUpd_keeps k_s2_5)

theorem execUpdateDone_keeps {bad : Option Nat} {s : State} (hz : Keeps ⟨φ0, true, true, φ3, φ4, φ5, φ6, true, true, true, true, true, φ12, φ13, φ14, φ15, true, φ17, φ18, true⟩ z0 s) : Kept ⟨φ0, true, true, φ3, φ4, φ5, φ6, true, true, true, true, true, φ12, φ13, φ14, φ15, true, φ17, φ18, true⟩ z0 (execUpdateDone bad s) := by
  unfold execUpdateDone
  apply Kept.next
  split
  · exact hz
  · extract_lets +onlyGivenNames s1_1
    extract_lets +onlyGivenNames s1_2
    have k_s1_2 : Keeps ⟨φ0, true, true, φ3, φ4, φ5, φ6, true, true, true, true, true, φ12, φ13, φ14, φ15, true, φ17, φ18, true⟩ z0 s1_2 := Keeps.of hz rfl
    clear_value s1_2
    split
    · exact stageFail_keeps k_s1_2
    · extract_lets +onlyGivenNames m_3
      have k_m_3 : Keeps ⟨φ0, true, true, φ3, φ4, φ5, φ6, true, true, true, true, true, φ12, φ13, φ14, φ15, true, φ17, φ18, true⟩ z0 m_3.2 := fetchMem_keeps k_s1_2
      clear_value m_3
      split
      · exact stageFail_keeps k_m_3
      · extract_lets +onlyGivenNames b_4
        split
        · exact stageRecord_keeps k_m_3
        · exact stageImage_keeps k_m_3

theorem runUpdateActivate_keeps {u1 : HostCmd} {s : State} (hz : Keeps ⟨φ0, true, true, φ3, φ4, φ5, φ6, φ7, φ8, true, φ10, φ11, φ12, φ13, φ14, φ15, true, φ17, φ18, true⟩ z0 s) : Keeps ⟨φ0, true, true, φ3, φ4, φ5, φ6, φ7, φ8, true, φ10, φ11, φ12, φ13, φ14, φ15, true, φ17, φ18, true⟩ z0 (runUpdateActivate u1 s).2 := by
  unfold runUpdateActivate
  split
  · exact hz
  · split
    · exact hz
    · dsimp only
      split
      · exact ccpFail_keeps (evUpdateFailed_keeps hz)
      · split
        · exact ccpFail_keeps (evUpdateFailed_keeps hz)
        · dsimp only
          apply setUpd_keeps
          exact Keeps.of hz rfl

theorem execUpdateActivate_keeps {s : State} (hz : Keeps ⟨φ0, true, true, true, φ4, φ5, φ6, φ7, φ8, true, φ10, φ11, φ12, true, true, φ15, true, φ17, φ18, true⟩ z0 s) : Kept ⟨φ0, true, true, true, φ4, φ5, φ6, φ7, φ8, true, φ10, φ11, φ12, true, true, φ15, true, φ17, φ18, true⟩ z0 (execUpdateActivate s) := by
  unfold execUpdateActivate
  apply Kept.next
  apply ccp_keeps
  · intro _ _ k1
    exact runUpdateActivate_keeps k1
  · exact hz

theorem dropChecker_keeps {s : State} (hz : Keeps ⟨φ0, φ1, φ2, φ3, φ4, φ5, φ6, φ7, φ8, true, φ10, φ11, φ12, φ13, φ14, φ15, true, φ17, φ18, φ19⟩ z0 s) : Keeps ⟨φ0, φ1, φ2, φ3, φ4, φ5, φ6, φ7, φ8, true, φ10, φ11, φ12, φ13, φ14, φ15, true, φ17, φ18, φ19⟩ z0 (dropChecker s) :=
  Keeps.step hz rfl (Nat.le_refl _) id id id (otpKept_refl s) (fun _ e => (nomatch e))

theorem swapDone_aux {s : State} {k : Nat} {run : List Byte} {before : Nat} (hz : Keeps ⟨φ0, true, true, φ3, true, φ5, φ6, φ7, φ8, true, φ10, true, φ12, φ13, φ14, true, true, φ17, true, true⟩ z0 s) (hs : k < 2 ∨ s.sn.safeOut = false) :
    Keeps ⟨φ0, true, true, φ3, true, φ5, φ6, φ7, φ8, true, φ10, true, φ12, φ13, φ14, true, true, φ17, true, true⟩ z0 { s with sec := { s.sec with run := run, slot := k, before := before, phase := if k < 2 then 1 else 3 } } := by
  refine Keeps.step hz rfl (Nat.le_refl _) id id id ⟨rfl, Nat.le_refl _, Nat.le_refl _, Nat.le_refl _, fun _ o e => ⟨o, e, rfl, rfl, id⟩⟩ (fun a e => ?_)
  rcases hs with hk | hk
  · exact ⟨(a e).1, if_pos hk⟩
  · exact absurd e (by rw [show ({ s with sec := _ } : State).sn.safeOut = s.sn.safeOut from rfl, hk]; decide)

theorem swapDone_keeps {s : State} (hz : Keeps ⟨φ0, true, true, φ3, true, φ5, φ6, φ7, φ8, true, φ10, true, φ12, φ13, φ14, true, true, φ17, true, true⟩ z0 s) : Keeps ⟨φ0, true, true, φ3, true, φ5, φ6, φ7, φ8, true, φ10, true, φ12, φ13, φ14, true, true, φ17, true, true⟩ z0 (swapDone s) := by
  unfold swapDone
  extract_lets +onlyGivenNames k h d first s0 _ s1
  have k0 : Keeps ⟨φ0, true, true, φ3, true, φ5, φ6, φ7, φ8, true, φ10, true, φ12, φ13, φ14, true, true, φ17, true, true⟩ z0 s0 := by
    dsimp only [s0]
    split
    · exact hz
    · exact dropChecker_keeps hz
  have q0 : k < 2 ∨ s0.sn.safeOut = false := by
    dsimp only [s0]
    by_cases hk : k < 2
    · exact .inl hk
    · rw [if_neg hk]; exact .inr rfl
  have k1 : Keeps ⟨φ0, true, true, φ3, true, φ5, φ6, φ7, φ8, true, φ10, true, φ12, φ13, φ14, true, true, φ17, true, true⟩ z0 s1 := wrReg_keeps (swapDone_aux k0 q0)
  clear_value s1
  split
  · apply evUpdateDone_keeps
    apply setUpd_keeps
    apply wrField_keeps
    split
    · exact writeDescriptor_keeps k1
    · exact k1
  · extract_lets +onlyGivenNames s2
    have k2 : Keeps ⟨φ0, true, true, φ3, true, φ5, φ6, φ7, φ8, true, φ10, true, φ12, φ13, φ14, true, true, φ17, true, true⟩ z0 s2 := evUpdateDone_keeps (setUpd_keeps (wrField_keeps (writeDescriptor_keeps k1)))
    split
    · exact mainStart_keeps k2
    · exact k2

theorem execComponentSwap_keeps {id : Nat} {s : State} (hz : Keeps ⟨φ0, true, true, φ3, true, φ5, φ6, φ7, φ8, true, φ10, true, φ12, φ13, φ14, true, true, φ17, true, true⟩ z0 s) : Kept ⟨φ0, true, true, φ3, true, φ5, φ6, φ7, φ8, true, φ10, true, φ12, φ13, φ14, true, true, φ17, true, true⟩ z0 (execComponentSwap id s) := by
  unfold execComponentSwap
  apply Kept.next
  split
  · exact hz
  · extract_lets +onlyGivenNames s1_1
    extract_lets +onlyGivenNames s1_2
    have k_s1_2 : Keeps ⟨φ0, true, true, φ3, true, φ5, φ6, φ7, φ8, true, φ10, true, φ12, φ13, φ14, true, true, φ17, true, true⟩ z0 s1_2 := Keeps.of hz rfl
    clear_value s1_2
    split
    · exact swapDone_keeps k_s1_2
    · exact k_s1_2

theorem runUpdateCommit_aux {s : State} {n : Nat} (hz : Keeps ⟨φ0, true, true, φ3, φ4, φ5, φ6, φ7, φ8, true, φ10, φ11, φ12, φ13, φ14, φ15, true, φ17, φ18, true⟩ z0 s) : Keeps ⟨φ0, true, true, φ3, φ4, φ5, φ6, φ7, φ8, true, φ10, φ11, φ12, φ13, φ14, φ15, true, φ17, φ18, true⟩ z0 { s with sec := { s.sec with main := max s.sec.main n } } :=
  Keeps.step hz rfl (Nat.le_refl _) id id id ⟨rfl, Nat.le_max_left _ _, Nat.le_refl _, Nat.le_refl _, fun _ o e => ⟨o, e, rfl, rfl, id⟩⟩ id

theorem runUpdateCommit_keeps {c : HostCmd} {s : State} (hz : Keeps ⟨φ0, true, true, φ3, φ4, φ5, φ6, φ7, φ8, true, φ10, φ11, φ12, φ13, φ14, φ15, true, φ17, φ18, true⟩ z0 s) : Keeps ⟨φ0, true, true, φ3, φ4, φ5, φ6, φ7, φ8, true, φ10, φ11, φ12, φ13, φ14, φ15, true, φ17, φ18, true⟩ z0 (runUpdateCommit c s).2 := by
  unfold runUpdateCommit
  extract_lets +onlyGivenNames p d
  split
  · exact hz
  split
  · exact hz
  split
  · exact hz
  extract_lets +onlyGivenNames s1
  have k1 : Keeps ⟨φ0, true, true, φ3, φ4, φ5, φ6, φ7, φ8, true, φ10, φ11, φ12, φ13, φ14, φ15, true, φ17, φ18, true⟩ z0 s1 := writeDescriptor_keeps hz
  clear_value s1
  extract_lets +onlyGivenNames _ s2
  have k2 : Keeps ⟨φ0, true, true, φ3, φ4, φ5, φ6, φ7, φ8, true, φ10, φ11, φ12, φ13, φ14, φ15, true, φ17, φ18, true⟩ z0 s2 := by
    apply wrField_keeps
    split
    · exact setUpd_keeps k1
    · exact Keeps.of k1 rfl
  clear_value s2
  extract_lets +onlyGivenNames _ _ s3
  have k3 : Keeps ⟨φ0, true, true, φ3, φ4, φ5, φ6, φ7, φ8, true, φ10, φ11, φ12, φ13, φ14, φ15, true, φ17, φ18, true⟩ z0 s3 := by
    dsimp only [s3]
    split
    · exact k2
    · exact raise_keeps (runUpdateCommit_aux k2)
  exact evUpdateDone_keeps k3

theorem execUpdateCommit_keeps {s : State} (hz : Keeps ⟨φ0, true, true, true, φ4, φ5, φ6, φ7, φ8, true, φ10, φ11, φ12, true, true, φ15, true, φ17, φ18, true⟩ z0 s) : Kept ⟨φ0, true, true, true, φ4, φ5, φ6, φ7, φ8, true, φ10, φ11, φ12, true, true, φ15, true, φ17, φ18, true⟩ z0 (execUpdateCommit s) := by
  unfold execUpdateCommit
  apply Kept.next
  apply ccp_keeps
  · intro _ _ k1
    exact runUpdateCommit_keeps k1
  · exact hz

theorem runUpdateAbort_keeps {u1 : HostCmd} {s : State} (hz : Keeps ⟨φ0, true, true, φ3, φ4, φ5, φ6, φ7, φ8, true, φ10, φ11, φ12, φ13, φ14, φ15, true, φ17, φ18, true⟩ z0 s) : Keeps ⟨φ0, true, true, φ3, φ4, φ5, φ6, φ7, φ8, true, φ10, φ11, φ12, φ13, φ14, φ15, true, φ17, φ18, true⟩ z0 (runUpdateAbort u1 s).2 := by
  unfold runUpdateAbort
  split
  · dsimp only
    apply evUpdateDone_keeps
    apply setUpd_keeps
    exact Keeps.of hz rfl
  · dsimp only
    exact evUpdateDone_keeps (setUpd_keeps hz)
  · split
    · exact hz
    · dsimp only
      split
      · dsimp only
        apply evUpdateDone_keeps
        apply setUpd_keeps
        exact Keeps.of hz rfl
      · dsimp only
        exact Keeps.of hz rfl
  · dsimp only
    apply setUpd_keeps
    exact Keeps.of hz rfl
  · exact hz

theorem execUpdateAbort_keeps {s : State} (hz : Keeps ⟨φ0, true, true, true, φ4, φ5, φ6, φ7, φ8, true, φ10, φ11, φ12, true, true, φ15, true, φ17, φ18, true⟩ z0 s) : Kept ⟨φ0, true, true, true, φ4, φ5, φ6, φ7, φ8, true, φ10, φ11, φ12, true, true, φ15, true, φ17, φ18, true⟩ z0 (execUpdateAbort s) := by
  unfold execUpdateAbort
  apply Kept.next
  apply ccp_keeps
  · intro _ _ k1
    exact runUpdateAbort_keeps k1
  · exact hz

theorem execSettingsRecordAppend_keeps {bad : Bool} {s : State} (hz : Keeps ⟨φ0, true, true, φ3, φ4, φ5, φ6, φ7, φ8, true, φ10, true, φ12, true, φ14, φ15, true, φ17, φ18, true⟩ z0 s) : Kept ⟨φ0, true, true, φ3, φ4, φ5, φ6, φ7, φ8, true, φ10, true, φ12, true, φ14, φ15, true, φ17, φ18, true⟩ z0 (execSettingsRecordAppend bad s) := by
  unfold execSettingsRecordAppend
  apply Kept.next
  split
  · exact hz
  · extract_lets +onlyGivenNames off_1
    split
    · exact hz
    · split
      · exact Keeps.of hz rfl
      · split
        · exact flashError_keeps (disarm_keeps hz)
        · split
          · exact flashError_keeps hz
          · apply appendRecord_keeps
            exact Keeps.of hz rfl

theorem execSettingsCompaction_keeps {s : State} (hz : Keeps ⟨φ0, true, true, φ3, φ4, φ5, φ6, φ7, φ8, true, φ10, true, φ12, φ13, φ14, φ15, true, φ17, φ18, φ19⟩ z0 s) : Kept ⟨φ0, true, true, φ3, φ4, φ5, φ6, φ7, φ8, true, φ10, true, φ12, φ13, φ14, φ15, true, φ17, φ18, φ19⟩ z0 (execSettingsCompaction s) := by
  unfold execSettingsCompaction
  apply Kept.next
  split
  · exact compact_keeps hz
  · exact hz

end Sys2Proof.Machine
end

