-- ==== Sys2Proof/Laws/Memory.lean ====
section
/-! SUPPORT. Every memory operation keeps memory in its canonical form, and the state after reset has it (DESIGN CHOICE, log entry 5). -/

set_option Elab.async false

namespace Sys2Proof.Machine

theorem memSet_wf (m : Tbl Byte) (a : Nat) (b : Byte) (h : Memory.wf m = true) : Memory.wf (memSet m a b) = true := Tbl.wf_set m a b h

theorem wrBytes_wf (a : Nat) (l : List Byte) (s : State) (h : Memory.wf s.mem = true) : Memory.wf (wrBytes a l s).mem = true :=
  memSetBytes_wf s.mem a l h

theorem zeroBytes_wf (a n : Nat) (s : State) (h : Memory.wf s.mem = true) : Memory.wf (zeroBytes a n s).mem = true := Tbl.wf_filter _ _ h

theorem reset_mem_wf : Memory.wf State.reset.mem = true := rfl

theorem reset_flash_wf : Flash.wf State.reset.sec.flash = true := rfl

/-- One byte of memory after one byte is set. -/
theorem get_memSet (m : Tbl Byte) (a x : Nat) (b : Byte) : Tbl.get 0 (memSet m a b) x = if x = a then b else Tbl.get 0 m x := Tbl.get_set 0 m a x b

/-- Writing the value that an unlisted address reads as removes the entry: equal memories are equal data. -/
theorem memSet_zero (m : Tbl Byte) (a : Nat) : memSet m a 0 = Tbl.erase m a := by
  simp [memSet, Tbl.set_eq]

end Sys2Proof.Machine
end

