-- ==== Sys2Proof/Laws/Ops.lean ====
section
/-! SUPPORT. What the shared operations of the register rows, the queues and the cache commands do, said once each. -/

set_option Elab.async false

namespace Sys2Proof.Machine

/-- A register row whose access passes its checks runs its effect. -/
theorem regWriteAt_ok {r : Req} {c i off : Nat} {f : State → RegSt × State} {s : State} (h : regAt r true c i off s = (0, s)) :
    regWriteAt r c i off f s = f s := by
  simp [regWriteAt, h]

/-- The same for an effect that answers nothing. -/
theorem onReg_ok {r : Req} {c i off : Nat} {f : State → State} {s : State} (h : regAt r true c i off s = (0, s)) : onReg r c i off f s = f s := by
  simp [onReg, regWriteAt_ok h]

/-- An access that passes its checks changes nothing by them. -/
theorem regCheckAt_ok {r : Req} {wr : Bool} {c i off n : Nat} {s : State} (h : (regCheckAt r wr c i off n s).1 = 0) : regCheckAt r wr c i off n s = (0, s) := by
  unfold regCheckAt at *
  by_cases h1 : n ≠ 4 ∨ off % 4 ≠ 0
  · simp [h1] at h
  · by_cases h2 : regAllowed r wr c i off s = false
    · simp [h1, h2] at h
    · by_cases h3 : wr = true ∧ blockPowered c i s = false
      · rw [if_neg h1, if_neg h2, if_pos h3] at h; simp at h
      · rw [if_neg h1, if_neg h2, if_neg h3]

/-- The same at a register named by its page. -/
theorem regAt_ok {r : Req} {wr : Bool} {c i off : Nat} {s : State} (h : (regAt r wr c i off s).1 = 0) : regAt r wr c i off s = (0, s) := by
  unfold regAt at *
  split at h
  · rename_i hp; rw [if_pos hp]; exact regCheckAt_ok h
  · simp [regUnmapped] at h

/-- A cache command at the head of its queue, with a legal record, ends with the answer its effect gives. -/
theorem runCmd_ok {op : Nat} {f : CcCmd → State → Option (CcAns × State)} {s t : State} {c : CcCmd} {a : CcAns} (h : ccHead s = some c) (ok : c.ok = true)
    (hop : c.op = op) (h1 : 1 ≤ op) (h9 : op ≤ 9) (hf : f c s = some (a, t)) : runCmd op f s = ccEnd c a s t := by
  subst hop; simp [runCmd, h, ok, h1, h9, hf]

/-- An instruction of a Quill that may issue it runs on its job and its Quill. -/
theorem onQuill_ok {q : Nat} {i : QInstr} {f : JobRec → Quill → State → State} {s : State} {j : JobRec} (h : quillReady q i s = true)
    (hj : findJob (quill q s).job s = some j) : onQuill q i f s = f j (quill q s) s := by
  simp [onQuill, h, hj]

end Sys2Proof.Machine
end

