-- ==== Sys2Proof/Tests/Slice0.lean ====
section
/-! SUPPORT. The model's own tests: ill-formed terms, single steps with results taken from the spec, and a witness for the hypotheses of every statement. -/

namespace Sys2Proof.Tests

open Sys2Proof.Machine

set_option Elab.async false

/-- After reset with all eight memory controllers trained. -/
def trained : State := (List.range 8).foldl (fun s m => wrReg 4 m 0x44 1 s) State.reset

/-- A job of one Quill, with its program in the first unit of Inkwell 0's program area and its bindings at 0x1000. -/
def job1 : JobRec :=
  { JobRec.make { JobDesc.read (List.replicate 128 0) with id := 1, quillsA := [0], complQ := 5, bindAddr := 0x1000, bindCount := 2 } 0 0 0 with
    phase := .running, areas := [(0, 0, 1)] }

/-- An address-generator program of `n` elements of a format over a binding, one after another. -/
def agp (fmt binding n : Nat) : List Byte := leBytes 1 1 ++ leBytes 1 fmt ++ leBytes 2 binding ++ leBytes 8 0 ++ leBytes 2 n ++ leBytes 4 1 ++ leBytes 46 0

/-- A binding entry of this device. -/
def bind (addr extent fmt : Nat) : List Byte := leBytes 8 addr ++ leBytes 6 extent ++ leBytes 1 fmt ++ leBytes 17 0

/-- A program image of the given instructions at offset 64, with descriptors at 1024 and address-generator programs at 2048. -/
def image (is : List QInstr) (tods : List (List Byte)) : List Byte :=
  leBytes 4 0x4D495550 ++ leBytes 2 1 ++ leBytes 2 1 ++ leBytes 4 4096 ++ leBytes 4 64 ++ leBytes 4 is.length ++ leBytes 4 1024 ++ leBytes 2 tods.length
    ++ leBytes 2 2 ++ leBytes 4 2048 ++ leBytes 32 0 ++ is.flatMap (fun i => leBytes 16 i.word)

/-- Memory of job 1's program: an instruction and NOP, a descriptor, two address-generator programs over two bindings of four INT32 words. -/
def withProgram (i : QInstr) (tod : List Byte) (s : State) : State :=
  wrBytes 0x1000 (bind 0x2000 16 8 ++ bind 0x3000 16 8) (wrBytes (spadAddr 0 (progBase + 2048)) (agp 8 0 4 ++ agp 8 1 4)
    (wrBytes (spadAddr 0 (progBase + 1024)) tod (wrBytes (spadAddr 0 progBase) (image [i, .nop] [tod]) s)))

/-- Quill 0 running job 1, inside eight loops. -/
def quill1 : Quill := { Quill.init with job := 1, count := 1, st := .running, loops := List.replicate 8 ⟨0, 1, 2, 1⟩ }

/-- Job 1 running on Quill 0 at an instruction. -/
def onQ (i : QInstr) : State := setQuill 0 quill1 (withProgram i (leBytes 64 0) { trained with jobs := [job1] })

/-- What the Quill's operands resolve to, as the instruction sees it. -/
def ctx1 (use : ReqUse) (s : State) : OpCtx :=
  { q := 0, job := 1, copyB := false, dev := deviceId s, det := false, img := spadAddr 0 progBase, hdr := ImgHdr.read (rdBytes s (spadAddr 0 progBase) 64),
    bindBase := 0x1000, loops := (loopVals (quill 0 s)), scs := (quill 0 s).scs, use := use, c := 2, i := 0, ctx := 0 }

/-- The queue engine with its descriptor table at 0x100000 and one queue's descriptor cached. -/
def withQueue (q : Nat) (d : QDesc) (s : State) : State :=
  wrReg 6 0 0x40 0x100000 { s with qe := { s.qe with cache := (q, d) :: s.qe.cache } }

/-- An empty queue of 4 KiB for records of up to 256 bytes. -/
def queueOf (consumer : Nat) : QDesc := { base := 0x10000, sizeLog2 := 12, enabled := true, consumer := consumer, recordSize := 256 }

/-- A queue whose head is one complete record. -/
def withRecord (q consumer : Nat) (b : List Byte) (s : State) : State :=
  withQueue q { queueOf consumer with wr := stride b.length, res := stride b.length, packets := 1 }
    (wrBytes 0x10000 (leBytes 4 b.length ++ leBytes 4 0 ++ b) s)

/-- A tensor operation issued on Quill 0. -/
def opOf (kind : Nat) : OpRun :=
  { index := 0, desc := 0, tod := Tod.read (leBytes 1 kind ++ leBytes 3 0x880088 ++ leBytes 60 0), loops := List.replicate 8 0, scs := List.replicate 16 0, ran := false,
    outs := [], unit := 0, ticket := none, issue := 0, drained := false, nf := 0, nfNib := 0, sat := 0, satGroup := 0, satNeg := false, satNib := 0,
    nfInj := false, satInj := false }

/-- Quill 0 working on one tensor operation. -/
def onOp (o : OpRun) : State := setQuill 0 { quill1 with ops := [o], issued := 1 } (onQ .nop)
/-! Ill-formed commands, one for each field that WellFormed bounds. -/

theorem test_ill_formed_1 :
    ([.jobDescriptor (2 ^ 20), .jobRunStart 65536, .waveStart 192,
      .jobDone 65536, .zeroFillDone 48, .nop 192,
      .quillSet 0 16 0, .alu 0 12 0 0 0 true 0, .loop 0 0 1 0,
      .branch 0 6 0 0 true 0 0, .top 0 65536, .waitTop 192,
      .semWait 0 32 0, .semSignal 0 0 true 0 0 256 0, .barrier 0 2 0,
      .localBarrierRelease 65536 true 0 0, .barrierReleaseTime 1024 true, .dma 0 2 true true 0 0 0 0,
      .dmaWait 0 4, .dmaComplete 384] : List Instr).all (fun c => !c.wellFormed) = true := by decide +kernel

theorem test_ill_formed_2 :
    ([.atomic 0 3 true 0 0 0 0 0, .qpush 0 true 16 0 0, .qpop 0 true 0 65536 0,
      .trap 0 (2 ^ 32), .quillEnd 192, .semTimeout 192,
      .matmul ⟨192, none⟩, .conv ⟨0, some (16, 0)⟩, .poolResize 192,
      .attentionFwd 192, .attentionBwd 192, .eltwise 192,
      .reduce 192, .optStep 192, .tensorOpDrain 192,
      .nibRetire .host 192 0, .nibSpared 192, .registerWrite .host 0 4 (2 ^ 32),
      .readClear .host (2 ^ 56) 4, .counterLoRead .host 16 0 0] : List Instr).all (fun c => !c.wellFormed) = true := by decide +kernel

theorem test_ill_formed_3 :
    ([.softReset .host 16 0, .softResetDone 16 0, .blockDisable .host 16 0,
      .eventInject .host 16 0 0, .warmReset .host (2 ^ 32), .gptpSync 2 0,
      .pdelayMeasure 2 none, .spadRequest (.job 256 0) .read 0 0 [] .none, .windowExpiry 0 64,
      .windowOpen .host 48, .windowClose .host 48, .bankPowerDown .host 0 16 0,
      .bankWake .host 0 16 0, .bankDrained 0 16, .bankWakeDone 0 16,
      .holdFill .host 48 true, .scrubStep 48 0 .none, .memorySlot 8 0 [] .ok .none,
      .refresh 0 8 0, .refreshRateChange 8 0] : List Instr).all (fun c => !c.wellFormed) = true := by decide +kernel

theorem test_ill_formed_4 :
    ([.patrolScrub 8 .none, .rowSpareForce .host 8 0 0, .rowSpareDone 8 0 0,
      .mcTrained 8 true true 0 0, .eccFillDone 8, .packetComplete 0 (2 ^ 32),
      .packetAbandon 0 (2 ^ 32), .descriptorFetch 0 (.single 0 1024), .stagedRecordRelease (2 ^ 20),
      .rdptrWrite .host (2 ^ 32), .ticketGrant 192, .limboReclaim 3,
      .ccEnable .host (2 ^ 20), .fnLayerComplete (.single 0 1024), .csiPacket 12 0 0 0 0 [] true true .none,
      .frameStart 0 ⟨16, 0, 0⟩ 0, .frameEnd 0 ⟨16, 0, 0⟩, .camLinkLost 12 0,
      .sourceRecord 32, .sampleComplete 32 0] : List Instr).all (fun c => !c.wellFormed) = true := by decide +kernel

theorem test_ill_formed_5 :
    ([.sampleLate 32 0, .batchWindowExpiry 8, .slotTrigger 64,
      .lawDispatch (.single 0 1024), .mac true 256 0 .none, .lawStore 256 0,
      .limit 0 2048 .none, .lawMove 256 0, .lawOut 256 true 0 0,
      .lawSend 16, .skipif 0 4 0, .lawDataWrite .host (2 ^ 32),
      .coefWrite .host (2 ^ 32), .bankSwap .host 64, .spCommit .host (2 ^ 32),
      .testGenerator .host (2 ^ 32), .encSample 16 (.quad true true true), .dinEdge 32,
      .dinStuck 32, .adcSequence 4 []] : List Instr).all (fun c => !c.wellFormed) = true := by decide +kernel

theorem test_ill_formed_6 :
    ([.pwmPeriodStart 24, .canEntryConfigure .host 8, .tbRequest .host 8,
      .tbAbort .host 8, .busOffRecover .host 8, .trMapWrite .host 8 0,
      .jobTxRequest 8, .canFrameReceived 0 ⟨{ id := 2 ^ 29, ide := true, rtr := false, fmt := 0, brs := false, esi := false, len := 0, sdt := 0, vcid := 0, sec := false, af := 0, data := [], ago := 0 }, false⟩, .canFrameTransmitted 8,
      .canErrorFrame 8 0 true, .canRecoveryDone 8, .canStopClear .host 8,
      .setpointRecord (.single 0 1024), .outputComparison 65536, .cmpWindowExpiry 65536,
      .lockstepMismatch 3, .channelDiscrepancy 4, .sliceDone true 32,
      .grantPeriod ⟨0, [0, 0, 0, 0, 0, 0]⟩, .railReading 5 0 0] : List Instr).all (fun c => !c.wellFormed) = true := by decide +kernel

theorem test_ill_formed_7 :
    ([.railTimeout 5 true, .capWrite .host (2 ^ 32), .allowanceWrite .host (2 ^ 32),
      .droopDetect 0 3, .droopEnd 49, .tempReading 72 0,
      .thermalTrip 72 0, .coolantRestart .host (2 ^ 32), .domainOn .host 112,
      .domainOffCmd .host 112, .domainUsable 112, .autoPowerDown none 112,
      .flitReceived 6 ⟨true, 0, 0, 0, 0, [], none⟩, .nakReceived 6 0, .linkRetrain 6 0,
      .retrainDone 6, .linkDown 6, .linkUp 6 0 0 0 0 0,
      .laneSpared 6 0 true, .laneSwapFlit 6 0] : List Instr).all (fun c => !c.wellFormed) = true := by decide +kernel

theorem test_ill_formed_8 :
    ([.spareShadowRotate 6, .creditReturn 0 8 0, .timeSync 6 0 0,
      .ringRead 0 0 0 true 0 257, .ringWrite 256 0 0 true 0 [], .ringAtomic 0 0 0 true 0 4 0 0,
      .readResponse 65536 0 0 [], .writeResponse 65536 0 0, .ringSemSignal 0 0 0 true 0 0 32 0,
      .ringQueuePush 0 0 0 true (2 ^ 20) [], .barrierArrival 1024 0 true, .barrierRelease 1024 true 0,
      .ringRegAccess 0 0 true 0 65 [], .registerResponse 65536 0 [], .ringReqTimeout 65536,
      .discover 6 0 0, .discoverReply (2 ^ 56) true [], .assign 256 0 0 0 0 0 0 0 [],
      .routeUpdate 256 0 true, .fenceCmd .host 256] : List Instr).all (fun c => !c.wellFormed) = true := by decide +kernel

theorem test_ill_formed_9 :
    ([.deviceFence (some 16), .fenceNotice 256 0 [], .linkRetrainCmd .host 6,
      .linkModeWrite .host 6 0, .linkTestDrop .host 6 0, .linkTestCorrupt .host 6 0,
      .linkTestReorder .host 6, .hostFrame 2 ⟨true, 0, 0, none, none, 0, none, none, 0, []⟩, .hostLinkUp 0 4,
      .hostLinkDown 2, .deliveryResend (2 ^ 20), .updateDone (some 3),
      .componentSwap 5, .powerOnReset 4 0, .resetPin 4 0,
      .railUndervoltage 9 0, .boot [192], .canArbitration 8,
      .arbitrationLost 8, .canRxError 8 0 ⟨true, none⟩] : List Instr).all (fun c => !c.wellFormed) = true := by decide +kernel

theorem test_ill_formed_10 :
    ([.memorySampleCorrupt 32 0 0, .dinLevelStable 32, .dphyClockReturn 12] : List Instr).all (fun c => !c.wellFormed) = true := by decide +kernel

theorem met_ScalarInstructionsRetire :
    (quillReady 0 .nop (onQ .nop) = true ∧ findJob (quill 0 (onQ .nop)).job (onQ .nop) = some job1)
    ∧ (quillReady 0 (.set 15 0xFFFFFFFF) (onQ (.set 15 0xFFFFFFFF)) = true)
    ∧ (quillReady 0 (.alu 10 15 15 15 true 0xFFFFFFFF) (onQ (.alu 10 15 15 15 true 0xFFFFFFFF)) = true)
    ∧ (quillReady 0 (.alu 11 1 0 0 false 7) (onQ (.alu 11 1 0 0 false 7)) = true ∧ (quill 0 (onQ (.alu 11 1 0 0 false 7))).loops.reverse[7]? = some ⟨0, 1, 2, 1⟩)
    ∧ (quillReady 0 .waitTop (onQ .waitTop) = true ∧ (quill 0 (onQ .waitTop)).ops = []) := by decide +kernel

theorem met_ScalarRegisterFile : (15 : Nat) ≠ 0 ∧ (14 : Nat) ≠ 15 := by decide

theorem met_QuillRetireFrame :
    quillHdr 0 job1 (onQ .nop) = some (spadAddr 0 progBase, ImgHdr.read (rdBytes (onQ .nop) (spadAddr 0 progBase) 64))
    ∧ (loopBack [] 1).2 < (ImgHdr.read (rdBytes (onQ .nop) (spadAddr 0 progBase) 64)).instrCount
    ∧ (loopBack quill1.loops (0 + 1)).2 < (ImgHdr.read (rdBytes (onQ .nop) (spadAddr 0 progBase) 64)).instrCount := by decide +kernel

theorem met_LoopAndBranch :
    (quillReady 0 (.loop 0 0xFFFFFFFF 4096) (onQ (.loop 0 0xFFFFFFFF 4096)) = true)
    ∧ (quillReady 0 (.branch 5 15 15 true 0xFFFFFFFF 0xFFFF) (onQ (.branch 5 15 15 true 0xFFFFFFFF 0xFFFF)) = true) := by decide +kernel

theorem met_TensorOperationIssues :
    quillReady 0 (.top 0) (onQ (.top 0)) = true ∧ findJob (quill 0 (onQ (.top 0))).job (onQ (.top 0)) = some job1 ∧ (quill 0 (onQ (.top 0))).ops.length < 2
    ∧ opCtx job1 0 (loopVals (quill 0 (onQ (.top 0)))) (quill 0 (onQ (.top 0))).scs (.op 0 (quill 0 (onQ (.top 0))).issued) (onQ (.top 0))
        = some (ctx1 (.op 0 0) (onQ (.top 0)))
    ∧ hazard (ctx1 (.op 0 0) (onQ (.top 0))) ((ctx1 (.op 0 0) (onQ (.top 0))).bindsOf ((ctx1 (.op 0 0) (onQ (.top 0))).tod 0 (onQ (.top 0))).reads (onQ (.top 0)))
        ((ctx1 (.op 0 0) (onQ (.top 0))).bindsOf ((ctx1 (.op 0 0) (onQ (.top 0))).tod 0 (onQ (.top 0))).writes (onQ (.top 0))) (onQ (.top 0)) = false := by
  decide +kernel

theorem met_QuillSynchronisation :
    (quillReady 0 (.semWait 31 0) (onQ (.semWait 31 0)) = true ∧ 0 ≤ Tbl.get 0 (quill 0 (onQ (.semWait 31 0))).sem 31)
    ∧ (quillReady 0 (.semSignal 31 true 0xFFFF 191 255 0xFFFF) (onQ (.semSignal 31 true 0xFFFF 191 255 0xFFFF)) = true)
    ∧ (quillReady 0 (.barrier 1 63) (onQ (.barrier 1 63)) = true ∧ (quill 0 (onQ (.barrier 1 63))).arrived = false
        ∧ writesDone 0 (quill 0 (onQ (.barrier 1 63))).issued (onQ (.barrier 1 63)) = true ∧ (quill 0 (onQ (.barrier 1 63))).sigs = []
        ∧ armed 2 0 2 (onQ (.barrier 1 63)) = false)
    ∧ (quillReady 0 (.dmaWait 3) (onQ (.dmaWait 3)) = true
        ∧ ∀ b < 2, natBit 3 b = true → (chan (dmaChan 0 b) (onQ (.dmaWait 3))).reqs = []) := by decide +kernel
def qDma : State := onQ (.dma 1 true true 15 0 1 5)
def qAtomic : State := onQ (.atomic 2 true 15 15 15 15 1)
def qPush : State := withQueue 5 (queueOf 1) (onQ (.qpush true 15 0 5))
def qPop : State := withRecord 5 0 (leBytes 16 0x0102030405060708090A0B0C0D0E0F10) (onQ (.qpop true 15 1 5))

theorem met_QuillDataMovement_dma :
    quillReady 0 (.dma 1 true true 15 0 1 5) qDma = true ∧ findJob (quill 0 qDma).job qDma = some job1
    ∧ opCtx job1 0 (loopVals (quill 0 qDma)) (quill 0 qDma).scs (.dma (dmaChan 0 1) (quill 0 qDma).issued) qDma = some (ctx1 (.dma (dmaChan 0 1) 0) qDma)
    ∧ (chan (dmaChan 0 1) qDma).reqs.length < 16
    ∧ hazard (ctx1 (.dma (dmaChan 0 1) 0) qDma) ((ctx1 (.dma (dmaChan 0 1) 0) qDma).bindsOf [0] qDma) ((ctx1 (.dma (dmaChan 0 1) 0) qDma).bindsOf [1] qDma) qDma = false := by
  decide +kernel

theorem met_QuillDataMovement_atomic :
    quillReady 0 (.atomic 2 true 15 15 15 15 1) qAtomic = true ∧ (quill 0 qAtomic).atomic = none ∧ reqOut (.atomic 0) qAtomic = false
    ∧ opCtx job1 0 (loopVals (quill 0 qAtomic)) (quill 0 qAtomic).scs (.atomic 0) qAtomic = some (ctx1 (.atomic 0) qAtomic)
    ∧ ((ctx1 (.atomic 0) qAtomic).agp 1 qAtomic).binding = 1 ∧ hazard (ctx1 (.atomic 0) qAtomic) [1] [1] qAtomic = false
    ∧ ((ctx1 (.atomic 0) qAtomic).check 1 ((ctx1 (.atomic 0) qAtomic).bind 1 qAtomic) true ((ctx1 (.atomic 0) qAtomic).offset ((ctx1 (.atomic 0) qAtomic).agp 1 qAtomic) 0)
        (elemAt 8 ((ctx1 (.atomic 0) qAtomic).offset ((ctx1 (.atomic 0) qAtomic).agp 1 qAtomic) 0)).1 4 qAtomic).1 = true
    ∧ ((ctx1 (.atomic 0) qAtomic).agp 1 qAtomic).fmt = 8
    ∧ (ctx1 (.atomic 0) qAtomic).far ((ctx1 (.atomic 0) qAtomic).bind 1 qAtomic) = false := by decide +kernel

theorem met_QuillDataMovement_qpush :
    quillReady 0 (.qpush true 15 0 5) qPush = true ∧ (quill 0 qPush).copyB = false
    ∧ opCtx job1 0 (loopVals (quill 0 qPush)) (quill 0 qPush).scs (.queue 0) qPush = some (ctx1 (.queue 0) qPush)
    ∧ hazard (ctx1 (.queue 0) qPush) [((ctx1 (.queue 0) qPush).agp 0 qPush).binding] [] qPush = false ∧ pushTurn 5 0 qPush = true
    ∧ ((ctx1 (.queue 0) qPush).gather [0] qPush).1 = some 0
    ∧ (readElems (ctx1 (.queue 0) qPush) 0 ((ctx1 (.queue 0) qPush).agp 0 qPush) ((ctx1 (.queue 0) qPush).bind ((ctx1 (.queue 0) qPush).agp 0 qPush).binding qPush)
        ((ctx1 (.queue 0) qPush).agp 0 qPush).size 0 ((ctx1 (.queue 0) qPush).gather [0] qPush).2).1
        = (⟨0, 0⟩, [0, 0, 0, 0])
    ∧ (pushRecord 5 1 (deviceId qPush) (packBits 8 [0, 0, 0, 0]) qPush).1 = 0 := by decide +kernel

theorem met_QuillDataMovement_qpop :
    quillReady 0 (.qpop true 15 1 5) qPop = true ∧ qPop.qe.popWait.contains (5, 0) = false
    ∧ opCtx job1 0 (loopVals (quill 0 qPop)) (quill 0 qPop).scs (.queue 0) qPop = some (ctx1 (.queue 0) qPop)
    ∧ hazard (ctx1 (.queue 0) qPop) [1] [1] qPop = false ∧ ((ctx1 (.queue 0) qPop).agp 1 qPop).binding = 1 ∧ fmtWidth ((ctx1 (.queue 0) qPop).agp 1 qPop).fmt % 8 = 0
    ∧ popStatus 5 1 (deviceId qPop) (((ctx1 (.queue 0) qPop).agp 1 qPop).size * 32 / 8) (qdUse 5 qPop) = (0, 0, 16)
    ∧ ((ctx1 (.queue 0) qPop).gather [] (qdUse 5 qPop)).1 = some 0
    ∧ (let t := ((ctx1 (.queue 0) qPop).gather [] (qdUse 5 qPop)).2
       let w := (mcReadBlocks 1 (blocksOf ((qDesc 5 t).base + 0 % (qDesc 5 t).size) (16 + 8)) t)
       w.1 = 0 ∧ (popWrite (ctx1 (.queue 0) qPop) 1 ((ctx1 (.queue 0) qPop).agp 1 qPop) ((ctx1 (.queue 0) qPop).bind 1 qPop) (recBytes (qDesc 5 t) 0 16 w.2)
           (advanceRd 5 (stride 16 % (2 * (qDesc 5 t).size)) (forgetPartials 1 false 1 w.2))).1 = ⟨0, 0⟩) := by decide +kernel

theorem met_QuillProgramEnds :
    quillReady 0 (.trap 0xFFFFFFFF) (onQ (.trap 0xFFFFFFFF)) = true ∧ quillReady 0 .stop (onQ .stop) = true
    ∧ ((quill 0 (setQuill 0 { quill1 with st := .waiting } (onQ .waitTop))).st = .waiting
        ∧ (quill 0 (setQuill 0 { quill1 with st := .waiting } (onQ .waitTop))).waitLimit ≠ 0) := by decide +kernel

def bar1 (scope : Nat) : BarrierInst := { job := 1, copyB := false, scope := scope, group := 63, arrived := [0], last := 100, told := false }
def group63 : BarrierGroup :=
  { group := 63, root := 255, dNs := 0, members := [(255, 1)], arrivedA := [], arrivedB := [], releaseA := some 7, releaseB := none }
def qBar (scope : Nat) : State := { onQ (.barrier scope 63) with barriers := [bar1 scope], groups := [group63] }
def dma1 : DmaReq :=
  { quill := 0, job := 1, src := 0, dst := 1, noFail := false, notify := false, queue := 0, statusSc := 0, seq := 1, loops := List.replicate 8 0,
    scs := List.replicate 16 0, issue := 0, sent := false, moved := 0, err := none }
def qCopy : State := setChan 0 { reqs := [dma1], seq := 1, err := false } (onQ .nop)
def cCopy : OpCtx := { ctx1 (.dma 0 0) qCopy with loops := dma1.loops, scs := dma1.scs, c := 1, i := 0, ctx := 0 }

theorem met_BarriersAndDmasComplete :
    ((qBar 0).barriers.find? (fun b => b.job == 1 && b.copyB == false && b.scope == 0 && b.group == 63) = some (bar1 0) ∧ barrierFull (bar1 0) (qBar 0) = true ∧ (bar1 0).told = false)
    ∧ ((qBar 1).barriers.find? (fun b => b.job == 1 && b.copyB == false && b.scope == 1 && b.group == 63) = some (bar1 1) ∧ barrierFull (bar1 1) (qBar 1) = true
        ∧ findGroup 63 (advanceTo 196 (qBar 1)) = some group63
        ∧ group63.members.findIdx? (fun x => x == (deviceId (advanceTo 196 (qBar 1)), 1)) = some 0)
    ∧ (findGroup 63 (qBar 1) = some group63 ∧ group63.releaseA = some 7) := by decide +kernel

theorem met_BarriersAndDmasComplete_dma :
    (chan 0 qCopy).reqs = [dma1] ∧ findJob 1 qCopy = some job1 ∧ job1.live = true
    ∧ opCtx job1 0 dma1.loops dma1.scs (.dma 0 0) qCopy = some { cCopy with c := 2, i := 0, ctx := 0 }
    ∧ dmaRecordReady dma1 qCopy = true ∧ writePending cCopy [(cCopy.agp 1 qCopy).binding] 0 qCopy = false
    ∧ (cCopy.gather [0] qCopy).1 = some 0
    ∧ (dmaCopy cCopy 0 1 (cCopy.agp 0 qCopy) (cCopy.agp 1 qCopy) (cCopy.bind 0 qCopy) (cCopy.bind 1 qCopy) 4 0 qCopy).1 = (⟨0, 0⟩, 4)
    ∧ fmtWidth (cCopy.agp 1 qCopy).fmt % 8 = 0 ∧ dma1.sent = false
    ∧ reqOut cCopy.use (dmaCopy cCopy 0 1 (cCopy.agp 0 qCopy) (cCopy.agp 1 qCopy) (cCopy.bind 0 qCopy) (cCopy.bind 1 qCopy) 4 0 qCopy).2 = false := by
  decide +kernel

def cOp (o : OpRun) : OpCtx := { ctx1 (.op 0 0) (onOp o) with loops := o.loops, scs := o.scs }

theorem met_TensorOperationsRun :
    (∀ k ∈ [1, 2, 3, 4, 5, 6, 7, 8], nextOp 0 (onOp (opOf k)) = some (opOf k) ∧ findJob (quill 0 (onOp (opOf k))).job (onOp (opOf k)) = some job1
      ∧ quillWorks 0 (onOp (opOf k)) = true ∧ opCtx job1 0 (opOf k).loops (opOf k).scs (.op 0 0) (onOp (opOf k)) = some (cOp (opOf k))
      ∧ (opOf k).tod.kind = k ∧ writePending (cOp (opOf k)) ((cOp (opOf k)).bindsOf (opOf k).tod.writes (onOp (opOf k))) 0 (onOp (opOf k)) = false
      ∧ (opGather (cOp (opOf k)) (opOf k).tod (onOp (opOf k))).1 = some 0) := by decide +kernel

def ranOp : OpRun :=
  { opOf 6 with ran := true, tod := { (opOf 6).tod with accOut := 2, fmtC := 0, agpC := 1 }, outs := [⟨1, 0, 0, 0, 0, .f32 0x3F800000⟩] }

theorem met_TensorOperationsRun_drain :
    (quill 0 (onOp ranOp)).ops = [ranOp] ∧ quillWorks 0 (onOp ranOp) = true ∧ opCtx job1 0 ranOp.loops ranOp.scs (.op 0 0) (onOp ranOp) = some (cOp ranOp)
    ∧ writePending (cOp ranOp) ((cOp ranOp).bindsOf ranOp.tod.writes (onOp ranOp)) 0 (onOp ranOp) = false
    ∧ ranOp.drained = false ∧ (drainOuts (cOp ranOp) ranOp (onOp ranOp)).1.1 = ⟨0, 0⟩ := by decide +kernel
/-- Device booted: main image, power table, memory trained, management controller enabled. -/
def booted : State :=
  { trained with sec := { State.reset.sec with phase := 1 }, pwr := { State.reset.pwr with tableDone := true } }

/-- A legal descriptor of job 1 on Quill 0, its completion queue 5. -/
def desc1 : List Byte :=
  leBytes 2 1 ++ leBytes 6 0 ++ leBytes 8 0x8000 ++ leBytes 8 0x1000 ++ leBytes 4 5 ++ leBytes 36 0 ++ leBytes 24 1 ++ leBytes 40 0

def jDesc : State := withRecord 9 3 desc1 (withQueue 5 (queueOf 1) booted)
def jQueued : JobRec := JobRec.make (JobDesc.read desc1) 9 1 0
def jAdmit : State := { wrReg 2 0 8 1 (wrBytes 0x8000 (image [.stop] []) booted) with jobs := [jQueued] }
def jAdmitted : State := { booted with jobs := [{ job1 with phase := .admitted, validated := true }] }
def jWave : State := setQuill 0 { quill1 with startAt := some 7 } jAdmitted
def jZero : State := setSpad 47 { pendUnits := [0] } State.reset
def jEnded : State := setQuill 0 { quill1 with ended := true } (withQueue 5 (queueOf 1) { booted with jobs := [job1] })
def jKilled : State := withQueue 5 (queueOf 1) { booted with jobs := [{ job1 with phase := .scrubbing, status := 3 }] }

theorem met_JobsMoveOn :
    ((qDesc 9 jDesc).enabled = true ∧ (qDesc 9 jDesc).consumer = 3 ∧ blockEnabled 15 0 jDesc = true ∧ memUp jDesc = true
        ∧ (engineTake 9 jDesc).map (fun x => x.1) = some desc1 ∧ desc1.length = 128 ∧ descVerdict desc1 jDesc = none ∧ fenced jDesc = false)
    ∧ (admissionHeld jAdmit = false ∧ jAdmit.qe.stFull = false ∧ fenced jAdmit = false ∧ blockEnabled 15 0 jAdmit = true ∧ bootReady jAdmit = true
        ∧ pickHead ((queueHeads jAdmit).filter (fun j => j.status == 0 && (!bindingsInShares j.d jAdmit || (safetyFault j.d jAdmit).isSome || available j.d jAdmit))) jAdmit
            = some jQueued
        ∧ bindingsInShares jQueued.d jAdmit = true ∧ safetyFault jQueued.d jAdmit = none)
    ∧ (findJob 1 jAdmitted = some { job1 with phase := .admitted, validated := true } ∧ chainMet job1 jAdmitted = true)
    ∧ (quill 0 jWave).startAt = some 7
    ∧ ((spad 47 jZero).pendShares = [] ∧ (spad 47 jZero).pendUnits ≠ [])
    ∧ (findJob 1 jEnded = some job1 ∧ complReady job1.d.complQ jEnded = true ∧ jobDrained job1 jEnded = true ∧ job1.d.safety = false
        ∧ jobPackets 1 jEnded = false ∧ fineBusy 1 jEnded = false)
    ∧ (findJob 1 jKilled = some { job1 with phase := .scrubbing, status := 3 } ∧ complReady job1.d.complQ jKilled = true ∧ linesFilled job1 jKilled = true
        ∧ jobPackets 1 jKilled = false ∧ fineBusy 1 jKilled = false) := by decide +kernel

/-- A cache command record. -/
def ccRec (op ctx arg0 arg1 : Nat) (tail : List Byte) : List Byte :=
  leBytes 4 op ++ leBytes 4 ctx ++ leBytes 4 arg0 ++ leBytes 4 arg1 ++ leBytes 4 5 ++ leBytes 4 0 ++ (tail ++ List.replicate 40 0).take 40

/-- The cache on: command queue 7, contexts at 0x20000, Folios at 0x40000, slots of 1 KiB at 0x80000, two Folios. -/
def cacheOn (s : State) : State :=
  wrReg 6 0 8 1 (wrReg 6 0 0x424 2 (wrReg 6 0 0x420 2 (wrReg 6 0 0x41C 8 (wrReg 6 0 0x414 0x80000 (wrReg 6 0 0x40C 0x40000 (wrReg 6 0 0x404 0x20000
    (wrReg 6 0 0x400 0x80000007 s)))))))

/-- An open context of one layer: 17 positions reserved, 17 committed; both blocks hold Folios. -/
def ctx17 : CtxDesc := { state := 1, kFmt := 3, vFmt := 3, heads := 1, dim32 := 1, layers := 1, len := 17, reserved := 17, pt := 0x60000, ptStride := 4 }

/-- A command at the head of the command queue, beside context 3 and Folio 0 live. -/
def ccAt (op ctx arg0 arg1 : Nat) (tail : List Byte) : State :=
  withQueue 5 (queueOf 1) (withRecord 7 4 (ccRec op ctx arg0 arg1 tail) (wrBytes 0x60000 (leBytes 4 0 ++ leBytes 4 1)
    (wrBytes 0x40000 ({ slot := 0, state := 1, kFmt := 3, vFmt := 3, refs := 1 } : FolioDesc).bytes
      (wrBytes 0x40010 ({ slot := 1, state := 1, kFmt := 3, vFmt := 3, refs := 1 } : FolioDesc).bytes (wrBytes (0x20000 + 64 * 3) ctx17.bytes (cacheOn booted))))))

def cmdOf (op ctx arg0 arg1 : Nat) (tail : List Byte) : CcCmd := CcCmd.read (ccRec op ctx arg0 arg1 tail) 0xFFFF

def openTail : List Byte := leBytes 1 0x33 ++ leBytes 1 1 ++ leBytes 1 1 ++ leBytes 1 0 ++ leBytes 4 1 ++ leBytes 8 0x61000 ++ leBytes 4 4
def forkTail : List Byte := leBytes 8 0 ++ leBytes 8 0x62000 ++ leBytes 4 65536

def sOpen : State := ccAt 1 0x3FFFF 0 0 openTail
def sClose : State := ccAt 2 3 0 0 []
def sFork : State := ccAt 3 4 3 17 forkTail
def sAppend : State := { ccAt 4 3 4 0 [] with cc := { (ccAt 4 3 4 0 []).cc with freeFolios := [2], freeSlots := [2] } }
def sTrunc : State := ccAt 6 3 17 0 []
/-- Context 3 with one position committed of 17, so that a commit can pick among the others. -/
def sCommit : State := wrBytes (0x20000 + 64 * 3) { ctx17 with len := 1 }.bytes (ccAt 5 3 2 0 [0, 15])

theorem met_CacheContextCommands :
    (ccHead sOpen = some (cmdOf 1 0x3FFFF 0 0 openTail) ∧ (cmdOf 1 0x3FFFF 0 0 openTail).ok = true ∧ (ctxDesc 0x3FFFF sOpen).state = 0
        ∧ (cmdOf 1 0x3FFFF 0 0 openTail).unused [(24, 30), (32, 38), (40, 44)] = true
        ∧ ctxFieldsOk { state := 1, kFmt := 3, vFmt := 3, heads := 1, dim32 := 1, layers := 1, pt := 0x61000, ptStride := 4 } sOpen = true)
    ∧ (ccHead sClose = some (cmdOf 2 3 0 0 []) ∧ (cmdOf 2 3 0 0 []).ok = true ∧ (ctxDesc 3 sClose).state = 1 ∧ (cmdOf 2 3 0 0 []).unused [] = true)
    ∧ (ccHead sFork = some (cmdOf 3 4 3 17 forkTail) ∧ (cmdOf 3 4 3 17 forkTail).ok = true ∧ (ctxDesc 3 sFork).state = 1
        ∧ (ctxDesc 3 sFork).reserved = (ctxDesc 3 sFork).len ∧ (ctxDesc 4 sFork).state = 0 ∧ 17 ≤ (ctxDesc 3 sFork).len
        ∧ (cmdOf 3 4 3 17 forkTail).unused [(32, 38), (40, 44)] = true ∧ leField (cmdOf 3 4 3 17 forkTail).b 32 6 = 0x62000
        ∧ leField (cmdOf 3 4 3 17 forkTail).b 40 4 = 65536
        ∧ ∀ e ∈ ctxFolios (ctxDesc 3 sFork) (blocksFor 17) sFork, e.2 ≠ nullIdx
            → (folio e.2 sFork).refs + ((ctxFolios (ctxDesc 3 sFork) (blocksFor 17) sFork).filter (fun x => x.2 == e.2)).length ≤ 65535)
    ∧ (ccHead sTrunc = some (cmdOf 6 3 17 0 []) ∧ (cmdOf 6 3 17 0 []).ok = true ∧ (ctxDesc 3 sTrunc).state = 1 ∧ 17 ≤ (ctxDesc 3 sTrunc).len) := by
  decide +kernel

theorem met_CacheContextCommands_append :
    ccHead sAppend = some (cmdOf 4 3 4 0 []) ∧ (cmdOf 4 3 4 0 []).ok = true ∧ (ctxDesc 3 sAppend).state = 1 ∧ (ctxDesc 3 sAppend).reserved + 4 ≤ 4 * 16
    ∧ armed 6 0 30 sAppend = false ∧ (ctxDesc 3 sAppend).layers * (blocksFor 21 - 1) ≤ sAppend.cc.freeFolios.length
    ∧ (ctxDesc 3 sAppend).layers * (blocksFor 21 - 1) ≤ sAppend.cc.freeSlots.length
    ∧ (foldSome (fun e a => appendBlock (ctxDesc 3 sAppend) e.1 e.2 a)
        ((List.range 1).flatMap (fun l => (List.range (blocksFor 21 - 1)).map (fun b => (l, 1 + b)))) sAppend).isSome = true := by decide +kernel

theorem met_CacheContextCommands_commit :
    ccHead sCommit = some (cmdOf 5 3 2 0 [0, 15]) ∧ (cmdOf 5 3 2 0 [0, 15]).ok = true ∧ (ctxDesc 3 sCommit).state = 1
    ∧ (cmdOf 5 3 2 0 [0, 15]).unused [(24, 26)] = true ∧ ([0, 15].zip ([0, 15].drop 1)).any (fun p => decide (p.2 ≤ p.1)) = false
    ∧ (∀ p ∈ [0, 15], (ctxDesc 3 sCommit).len + p < (ctxDesc 3 sCommit).reserved)
    ∧ (foldSome (fun e a => cow (ctxDesc 3 sCommit) e.1 e.2 a) [(0, 0)] sCommit).isSome = true := by decide +kernel

def sReink : State := { ccAt 7 0 1 0 [] with cc := { (ccAt 7 0 1 0 []).cc with freeSlots := [7], tickets := [] } }
def reinking (s : State) : State :=
  putFolio 1 { folio 1 s with state := 3 } { s with cc := { s.cc with reinks := [(1, 7)] } }
def sReinkEnd : State := reinking (ccAt 8 0 1 7 [0x77, 1])
def sReinkAbort : State := reinking (ccAt 9 0 1 7 [])
def attnOp : OpRun := { opOf 4 with tod := { (opOf 4).tod with n := 32, tail := leBytes 8 0 ++ leBytes 6 3 ++ leBytes 10 0 } }
def sTicket : State := wrBytes (0x20000 + 64 * 3) ctx17.bytes (cacheOn (onOp attnOp))

theorem met_CacheFoliosAndTickets :
    (ccHead sReink = some (cmdOf 7 0 1 0 []) ∧ (cmdOf 7 0 1 0 []).ok = true ∧ 1 < rdField 6 0 0x420 23 0 sReink ∧ (folio 1 sReink).state = 1
        ∧ sReink.cc.freeSlots = [7] ∧ sReink.cc.tickets.length < 512)
    ∧ (ccHead sReinkEnd = some (cmdOf 8 0 1 7 [0x77, 1]) ∧ (cmdOf 8 0 1 7 [0x77, 1]).ok = true ∧ sReinkEnd.cc.reinks.contains (1, 7) = true
        ∧ (cmdOf 8 0 1 7 [0x77, 1]).unused [(24, 26)] = true ∧ kvFmtOk 7 = true ∧ (folio 1 sReinkEnd).state = 3 ∧ (folio 1 sReinkEnd).gen = 1)
    ∧ (ccHead sReinkAbort = some (cmdOf 9 0 1 7 []) ∧ (cmdOf 9 0 1 7 []).ok = true ∧ sReinkAbort.cc.reinks.contains (1, 7) = true
        ∧ (cmdOf 9 0 1 7 []).unused [] = true)
    ∧ (wantsTicket 0 sTicket = some attnOp ∧ ccOn sTicket = true ∧ quillWorks 0 sTicket = true ∧ sTicket.cc.tickets.length < 512
        ∧ opCtx job1 0 attnOp.loops attnOp.scs (.op 0 0) sTicket = some (cOp attnOp)
        ∧ (attnEntries (cOp attnOp) (AttnPar.read attnOp.tod.tail) sTicket).1 = some [{ ctx := 3, row := 0, nNew := 0, rank := 0, ok := true }]
        ∧ (attnParents (cOp attnOp) (AttnPar.read attnOp.tod.tail) [{ ctx := 3, row := 0, nNew := 0, rank := 0, ok := true }] sTicket).1 = some []
        ∧ launchFault attnOp.tod (AttnPar.read attnOp.tod.tail) [{ ctx := 3, row := 0, nNew := 0, rank := 0, ok := true }] []
            (attnParents (cOp attnOp) (AttnPar.read attnOp.tod.tail) [{ ctx := 3, row := 0, nNew := 0, rank := 0, ok := true }]
              (attnEntries (cOp attnOp) (AttnPar.read attnOp.tod.tail) sTicket).2).2 = none) := by
  decide +kernel

def limbo (s : CcState) : State := { cacheOn State.reset with cc := s }
theorem met_CacheFoliosAndTickets_limbo :
    ((limbo { CcState.init with limboFolios := [(5, 1)] }).cc.limboFolios = [(5, 1)] ∧ stampReached 1 (limbo { CcState.init with limboFolios := [(5, 1)] }) = true)
    ∧ (limbo { CcState.init with limboSlots := [(5, 1)] }).cc.limboSlots = [(5, 1)] ∧ (limbo { CcState.init with limboCtxs := [(5, 1)] }).cc.limboCtxs = [(5, 1)] := by
  decide +kernel
/-- Registers of class 14 that show a host port up. -/
def portUp : State := wrReg 14 1 0x40 2 { State.reset with time := { State.reset.time with everLocked := true } }

theorem met_RegisterCommandsTakeEffect :
    (regPage 0xF00000000014 = some (0, 0, 0x14) ∧ regCheck .host true 0xF00000000014 4 State.reset = (0, State.reset))
    ∧ regPage 0xF00000C0006C = some (12, 0, 0x6C)
    ∧ regCheck .host false 0xF00000000014 4 State.reset = (0, State.reset)
    ∧ ((counterLos 13 0).contains 0xA8 = true ∧ regAt .host false 13 0 0xA8 State.reset = (0, State.reset))
    ∧ (regAt .host true 11 7 8 State.reset = (0, State.reset) ∧ resetRefused .host 11 7 State.reset = false)
    ∧ ({ State.reset with resetting := [pageNo 11 7] } : State).resetting.contains (pageNo 11 7) = true
    ∧ (regAt .host true 2 191 0x18 State.reset = (0, State.reset) ∧ injectOk .host 2 191 (BitVec.ofNat 32 0x1A7E0001) State.reset = true
        ∧ (evRow 2 191 1).isSome = true)
    ∧ (regAt .host true 0 0 0x6C State.reset = (0, State.reset) ∧ State.reset.sn.safeOut = false)
    ∧ (regAt .host true 2 191 0x58 State.reset = (0, State.reset) ∧ Word.field (BitVec.ofNat 32 0x7E71001F) 31 16 = 0x7E71)
    ∧ ((quill 191 (setQuill 191 { Quill.init with sparePending := true, failed := 0x8000 } State.reset)).sparePending = true
        ∧ (quill 191 (setQuill 191 { Quill.init with sparePending := true, failed := 0x8000 } State.reset)).st = .free
        ∧ (bitList 16 (quill 191 (setQuill 191 { Quill.init with sparePending := true, failed := 0x8000 } State.reset)).failed).head? = some 15) := by
  decide +kernel

/-- The state a Sync finds once it has chosen its port. -/
def synced (s : State) : State := wrField 14 0 0x70 1 1 0 (wrField 14 1 0x70 1 1 1 { s with time := { s.time with lastSync := some s.time.clk } })

/-- The same port with device time at 1 us. -/
def portUp1 : State := advanceToDev 1000 portUp
def neverLocked : State := { portUp with time := { portUp.time with everLocked := false } }

theorem met_GptpMovesDeviceTime :
    (hostUp 1 portUp = true ∧ devNow (synced portUp) < 1000001 ∧ 1000000 < 1000001 - devNow (synced portUp))
    ∧ (hostUp 1 neverLocked = true ∧ devNow (synced neverLocked) < 1 ∧ (synced neverLocked).time.everLocked = false)
    ∧ (devNow (synced portUp) < 1000000 ∧ 1000000 - devNow (synced portUp) ≤ 1000000 ∧ (synced portUp).time.everLocked = true)
    ∧ (devNow (synced portUp) < 1 ∧ 1 - devNow (synced portUp) ≤ 1000000)
    ∧ (hostUp 1 portUp1 = true ∧ 0 ≤ devNow (synced portUp1) ∧ devNow (synced portUp1) - 0 ≤ 1000)
    ∧ (hostUp 1 (advanceToDev 1001 portUp) = true ∧ 0 + 1000 < devNow (synced (advanceToDev 1001 portUp)))
    ∧ (synced portUp).time.lastSync = some 0 := by decide +kernel

/-- Losses noted, the event queue of 4 KiB empty and enabled. -/
def lossy (masks : Nat) : State :=
  wrReg 0 0 0x14 (BitVec.ofNat 32 masks) (withQueue 0 (queueOf 1) { trained with ev := { trained.ev with lostPending := 7 } })
def reported (s : State) : State := wrReg 0 0 0x10 (rdReg 0 0 0x10 s ||| (1 <<< 5)) { s with ev := { s.ev with lostPending := 0 } }

theorem met_WarmResetLostEventsAndCacheEnable :
    (regAt .host true 0 0 0x70 State.reset = (0, State.reset) ∧ Word.field (BitVec.ofNat 32 0xFFFF5AFE) 15 0 = 0x5AFE)
    ∧ (memUp (lossy 0) = true ∧ 0 < (lossy 0).ev.lostPending ∧ (qDesc (eventQueue (lossy 0)) (lossy 0)).enabled = true ∧ 65 ≤ eventSlots (lossy 0)
        ∧ ovfHasEvents (lossy 0) = false ∧ natBit (rdReg 0 0 0x14 (reported (lossy 0))).toNat 5 = false)
    ∧ (regAt .host true 6 0 0x400 State.reset = (0, State.reset) ∧ ccOn State.reset = false) := by decide +kernel
def openWin : State := setSpad 47 (({} : Spad).setWin 127 { state := .opened, expiry := 7 }) State.reset
def bankIn (st : BankState) : State := setSpad 47 (({} : Spad).setBank 15 { (({} : Spad).bank 15) with st := st }) State.reset

theorem met_InkwellCommands :
    (spadBase ≤ spadAddr 47 0x7FFFFF ∧ spadAddr 47 0x7FFFFF + 1 ≤ spadTop ∧ spadOff (spadAddr 47 0x7FFFFF) + 1 ≤ 0x800000)
    ∧ (regAt .host true 3 47 0x70 State.reset = (0, State.reset))
    ∧ (((spad 47 openWin).win 127).state = .opened ∧ ((spad 47 openWin).win 127).expiry ≠ 0)
    ∧ (regAt .host true 3 47 0x44 State.reset = (0, State.reset) ∧ bankCmdOk 47 15 0xFFFF true State.reset = true ∧ ((spad 47 State.reset).bank 15).st = .on)
    ∧ (regAt .host true 3 47 0x44 (bankIn .off) = (0, bankIn .off) ∧ bankCmdOk 47 15 0xFFFF false (bankIn .off) = true ∧ ((spad 47 (bankIn .off)).bank 15).st = .off)
    ∧ (((spad 47 (bankIn .draining)).bank 15).st = .draining ∧ ((spad 47 (bankIn .draining)).bank 15).heldOp = false)
    ∧ (((spad 47 (bankIn .waking)).bank 15).st = .waking ∧ ((spad 47 (bankIn .waking)).bank 15).heldOp = false)
    ∧ (regAt .host true 3 47 0x94 (wrReg 15 3 0x40 1 State.reset) = (0, wrReg 15 3 0x40 1 State.reset) ∧ debugOpen (wrReg 15 3 0x40 1 State.reset) = true)
    ∧ (((spad 47 State.reset).bank 15).st = .on ∧ ((spad 47 State.reset).bank 15).retired = false) := by decide +kernel

def winState : State := { wrReg 3 0 0x58 0x01070001 (wrReg 3 0 0x54 64 (wrReg 3 0 0x4C 127 State.reset)) with jobs := [job1] }
theorem met_InkwellCommands_open :
    regAt .host true 3 0 0x70 winState = (0, winState) ∧ rdField 3 0 0x4C 6 0 winState = 127
    ∧ windowOpenOk 0 127 (stagedBytes 3 0 0x50 8 winState) winState = true := by decide +kernel

def postponing : State := setMc 7 { (mc 7 trained) with delay := [(7, 1)] } trained
def copying : State := setMc 7 { (mc 7 State.reset) with copying := [255 * 65536 + 65535] } State.reset
/-- Job 1 owning slot 63, with the refresh delay of channel 0 at one step. -/
def slotted (d : Nat) : State :=
  setMc 7 { (mc 7 trained) with delay := [(0, d)] } { trained with jobs := [{ job1 with slots := [63] }] }
def askOne : MemAsk := .read (.job 1) (7 * 2048) 1
def owned (d : Nat) : List (Bool × MemAsk) :=
  let s := slotted d
  slotWork 7 63 0 (nextSlot 63 (some 0) (ringNow s)).2 [askOne] s

theorem met_MemoryControllerCommands :
    (mcRuns 7 (slotted 1) = true ∧ slotQueue 7 63 [askOne] (slotted 1) = [askOne] ∧ (mcLoc (askAddr askOne)).ch = 0 ∧ slotOwner 63 (slotted 1) = some 1
        ∧ owned 1 = [(false, askOne)] ∧ Tbl.get 0 (mc 7 (slotted 1)).delay 0 = 1 ∧ owned 0 = [(false, askOne)] ∧ slotQueue 7 63 [askOne] (slotted 0) = [askOne])
    ∧ (slotOwner 63 trained = none ∧ mcRuns 7 trained = true)
    ∧ (mcRuns 7 postponing = true ∧ Tbl.get 0 (mc 7 postponing).delay 7 ≠ 0 ∧ 255 = 7 * 32 + 31 ∧ Tbl.get 0 (mc 7 postponing).postponed 255 = 0)
    ∧ (Tbl.get 0 (mc 7 trained).delay 7 = 0 ∧ (mc 7 trained).pend = [])
    ∧ (85 < signed 8 86 ∧ rdField 4 7 0x50 17 16 State.reset ≠ 2 ∧ signed 8 81 < 82 ∧ rdField 4 7 0x50 17 16 (wrField 4 7 0x50 17 16 2 State.reset) ≠ 1
        ∧ 82 ≤ signed 8 82 ∧ signed 8 85 ≤ 85)
    ∧ ((mc 7 trained).filling = false ∧ (mc 7 trained).patrol + 1 < mcUnits trained
        ∧ (nextFree ((mc 7 trained).patrol % 8) (ringNow (advanceTo ((mc 7 trained).patrolAt + patrolEvery 7 trained) trained))
            (advanceTo ((mc 7 trained).patrolAt + patrolEvery 7 trained) trained)).isSome = true)
    ∧ regAt .host true 4 7 0x88 State.reset = (0, State.reset)
    ∧ ((mc 7 copying).copying.contains (255 * 65536 + 65535) = true ∧ (mc 7 copying).left 255 = 7 + 1)
    ∧ ((mc 7 (setMc 7 { (mc 7 State.reset) with filling := true } State.reset)).filling = true) := by decide +kernel

/-- Controller 7 with a training record for the stack it finds, at temperatures `t` then and 0 now, inline ECC off. -/
def trainedAt (t : Nat) : State :=
  setMc 7 { (mc 7 State.reset) with trainRec := some (stackSerial 7 State.reset, t) } (wrReg 4 0 0x40 0 State.reset)
def up7 (src : Nat) (s : State) : State :=
  raise { c := 4, i := 7, bit := 9, code := 0x0501, payload := src + 65535 % 65536 * 4 } (wrReg 4 7 0x44 (BitVec.ofNat 32 (1 + src * 4 + 65535 % 65536 * 65536)) s)
def kept7 (s : State) : State :=
  askSetting 3 (.train 7 (stackSerial 7 s) (rdField 4 7 0x54 7 0 s)) (setMc 7 { mc 7 s with trainRec := some (stackSerial 7 s, rdField 4 7 0x54 7 0 s) } s)

theorem met_MemoryControllerCommands_trained :
    (rdField 4 7 0x44 1 0 (trainedAt 30) = 0 ∧ canRestore 7 (trainedAt 30) = true ∧ inlineEcc (up7 1 (trainedAt 30)) = false)
    ∧ (rdField 4 7 0x44 1 0 (trainedAt 31) = 0 ∧ canRestore 7 (trainedAt 31) = false ∧ inlineEcc (kept7 (up7 2 (trainedAt 31))) = false) := by decide +kernel
def pkt1 (rtype job : Nat) : Pkt :=
  { q := 5, ptr := 0, stride := 24, num := 9, pad := false, complete := false, len := 16, rtype := rtype, job := job, dev := 255, born := 0 }
def withPkt (p : Pkt) : State := wrReg 6 0 0x94 100 { withQueue 5 (queueOf 1) trained with qe := { (withQueue 5 (queueOf 1) trained).qe with pkts := [p] } }
def staged1 : Staged := { q := 5, rtype := 1, bytes := List.replicate 256 0, prio := true, job := 1, compl := true }
def withStaged : State :=
  { withQueue 5 (queueOf 1) trained with qe := { (withQueue 5 (queueOf 1) trained).qe with staging := [staged1] } }
def stagedEvent : Staged := { q := 0, rtype := 3, bytes := List.replicate 32 0, prio := false, job := 0xFFFF, compl := false }
def eventStaged : State :=
  { withQueue 0 (queueOf 1) trained with qe := { (withQueue 0 (queueOf 1) trained).qe with staging := [stagedEvent] } }
def selQ : State := wrReg 6 0 0x48 5 (withQueue 5 { queueOf 2 with enabled := false } trained)
def newDesc : List Byte := ({ base := 0x20000, sizeLog2 := 12, consumer := 1, recordSize := 2048 - 8 } : QDesc).bytes
def cfgQ : State := (List.range 16).foldl (fun s k => wrReg 6 0 (0x4C + 4 * k) (BitVec.ofNat 32 (leField newDesc (4 * k) 4)) s) selQ
def ptrQ : State := wrReg 6 0 0x48 5 (withRecord 5 2 (List.replicate 16 1) trained)

theorem met_QueueCommands :
    (openPkt 5 9 (withPkt (pkt1 1 1)) = some (pkt1 1 1) ∧ memUp (withPkt (pkt1 1 1)) = true ∧ (pkt1 1 1).doomed = false
        ∧ openPkt 5 9 (withPkt { pkt1 1 1 with doomed := true }) = some { pkt1 1 1 with doomed := true })
    ∧ abandonReason (pkt1 1 1) (withPkt (pkt1 1 1)) = some 0
    ∧ (qeBase selQ ≠ 0 ∧ memUp selQ = true ∧ 2 ^ 20 - 1 < 2 ^ 20)
    ∧ (withStaged.qe.staging.find? (fun r => r.q == 5) = some staged1 ∧ staged1.rtype ≠ 3 ∧ qAdmits staged1 withStaged = true)
    ∧ (eventStaged.qe.staging.find? (fun r => r.q == 0) = some stagedEvent ∧ eventQueue eventStaged = 0 ∧ (qDesc 0 eventStaged).enabled = true ∧ memUp eventStaged = true)
    ∧ (regAt .host true 6 0 0x8C selQ = (0, selQ) ∧ rdField 6 0 0x48 19 0 selQ = 5 ∧ qeBase (qdUse 5 selQ) ≠ 0 ∧ pinnedCount (qdUse 5 selQ) < 2048)
    ∧ (regAt .host true 6 0 0x8C cfgQ = (0, cfgQ) ∧ (qDesc 5 (qdUse 5 cfgQ)).enabled = false
        ∧ descOk 5 (queueConfigure.stagedBytes6 (qdUse 5 cfgQ)) (qdUse 5 cfgQ) = true)
    ∧ (regAt .host true 6 0 0x90 ptrQ = (0, ptrQ) ∧ rdField 6 0 0x48 19 0 ptrQ = 5 ∧ qeBase ptrQ ≠ 0 ∧ (qDesc 5 ptrQ).consumer = 2
        ∧ 24 < 2 * (qDesc 5 ptrQ).size ∧ (qDesc 5 ptrQ).dist 24 (qDesc 5 ptrQ).rd ≤ (qDesc 5 ptrQ).used) := by decide +kernel

def peerFenced : State :=
  { withPkt { pkt1 1 1 with dev := 7 } with ring := { RingState.init with peers := Tbl.set {} RingState.init.peers 7 { fenced := true } } }
theorem met_QueueCommands_peer :
    openPkt 5 9 peerFenced = some { pkt1 1 1 with dev := 7 } ∧ abandonReason { pkt1 1 1 with dev := 7 } peerFenced = some 3 := by decide +kernel

/-- A fine-convolution descriptor of one tap, one channel, one pixel, from memory (1) or from a stream (0). -/
def fnDesc (last : Nat) : List Byte :=
  leBytes 1 last ++ leBytes 3 0x110101 ++ leBytes 2 1 ++ leBytes 1 1 ++ leBytes 3 0 ++ leBytes 2 1 ++ leBytes 4 0 ++ leBytes 6 0x2000 ++ leBytes 2 1 ++ leBytes 2 1
    ++ leBytes 6 0x2100 ++ leBytes 6 0x2200 ++ leBytes 2 10 ++ leBytes 8 0x2300 ++ leBytes 2 1 ++ leBytes 2 1 ++ leBytes 12 5
def fnRun1 (last : Nat) (sent : Bool) : FnRun := { desc := fnDesc last, pos := 0, start := 0, rowAt := 0, sent := sent, pixels := 1, refused := false }
def fnQueue : State := wrReg 9 0 8 1 (wrReg 9 0 0x40 0x80000005 { withRecord 5 4 (fnDesc 1) trained with jobs := [job1] })
def fnAt (last : Nat) (sent : Bool) : State :=
  wrReg 9 0 8 1 (wrReg 9 0 0x48 100 { trained with jobs := [job1], fn := { FnState.init with cur := some (fnRun1 last sent) } })

theorem met_FineNibsAndCameras_layers :
    (fnTakes fnQueue = true ∧ (engineTake 5 fnQueue).map (fun x => x.1) = some (fnDesc 1) ∧ rdField 9 0 0x40 19 0 fnQueue = 5 ∧ (fnDesc 1).length = 64
        ∧ (engineTake 5 fnQueue).map (fun x => (FnDesc.read (fnDesc 1)).bad (fnDesc 1) { x.2 with fn := { x.2.fn with taken := x.2.fn.taken + 1 } }) = some none
        ∧ (engineTake 5 fnQueue).map (fun x => (findJob (FnDesc.read (fnDesc 1)).job x.2).map (fun j => j.phase)) = some (some .running))
    ∧ ((fnAt 0 false).fn.cur = some (fnRun1 0 false) ∧ (FnDesc.read (fnDesc 0)).last = false ∧ fnFeedOf (FnDesc.read (fnDesc 0)).stream (fnAt 0 false) = none
        ∧ (rdReg 9 0 0x48 (fnAt 0 false)).toNat ≠ 0 ∧ armed 9 0 6 (fnAt 0 false) = false ∧ (fnAt 0 false).car.samples = []
        ∧ pushGoes (FnDesc.read (fnDesc 0)).queue 16 false (fnAt 0 false) = true)
    ∧ ((fnAt 1 true).fn.cur = some (fnRun1 1 true) ∧ findJob (FnDesc.read (fnDesc 1)).job (fnAt 1 true) = some job1 ∧ reqOut .fine (fnAt 1 true) = false
        ∧ job1.phase = .running ∧ (fnRun1 1 true).refused = false ∧ pushGoes (FnDesc.read (fnDesc 1)).queue 16 false (fnAt 1 true) = true)
    ∧ (pushGoes (FnDesc.read (fnDesc 1)).queue 16 false (fnAt 1 false) = true ∧ blockEnabled 9 0 (fnAt 1 false) = true ∧ domainOn 111 (fnAt 1 false) = true ∧ coolantLost (fnAt 1 false) = false ∧ armed 9 0 8 (fnAt 1 false) = false
        ∧ armed 9 0 5 (fnAt 1 false) = false ∧ (FnDesc.read (fnDesc 1)).last = true
        ∧ (let g := (FnDesc.read (fnDesc 1)).geo 1 1; g.CB * g.H * g.W * g.b * 1) = 16
        ∧ (fnRead (.fine (deviceId (fnAt 1 false)) 1) (16 / 256 + 2) 0x2000 16 (fnAt 1 false)).1 = ⟨0, 0⟩) := by decide +kernel

/-- Camera receiver 11 on virtual channel 15, feeding stream 31 of two lines. -/
def camOn (f : Option CamFrame) : State :=
  wrReg 8 11 8 1 (wrReg 8 11 0x44 0x8000 { State.reset with car := { CarState.init with
    phy := [11], vcs := Tbl.set {} [] (vcKey 11 15) { cur := f },
    streams := Tbl.set (stream 31 State.reset) [] 31 { stream 31 State.reset with running := true, cfg := leBytes 1 0 ++ leBytes 1 0xFB ++ leBytes 36 0 ++ leBytes 2 2 } } })
def frame1 : CamFrame := { id := 31 * 2 ^ 27, fsTime := 0, number := 1, lines := 2, fcrc := 0, scrc := 0, cause := 0, stalled := false, advances := true, skip := false }

theorem met_FineNibsAndCameras_cameras :
    (camRuns 11 15 (camOn none) = true ∧ csiHeader 11 15 7 0 (phyUp 11 (camOn none)) = (false, phyUp 11 (camOn none)) ∧ csiBits 0x2B ≠ 0
        ∧ armed 8 11 6 (phyUp 11 (camOn none)) = false ∧ armed 7 0 11 (phyUp 11 (camOn none)) = false ∧ armed 7 0 5 (phyUp 11 (camOn none)) = false)
    ∧ ((camVc 11 15 (phyUp 11 (camOn none))).cur = none ∧ (camVc 11 15 (phyUp 11 (camOn none))).crcs = none
        ∧ vcStream 11 15 (addCtr 8 11 0x5C 1 (phyUp 11 (camOn none))) = some 31)
    ∧ (camRuns 11 15 (camOn (some frame1)) = true
        ∧ csiHeader 11 15 7 0 (phyUp 11 (camOn (some frame1))) = (false, phyUp 11 (camOn (some frame1)))
        ∧ (camVc 11 15 (phyUp 11 (camOn (some frame1)))).cur = some frame1 ∧ vcStream 11 15 (phyUp 11 (camOn (some frame1))) = some 31
        ∧ vcCfg 11 15 (phyUp 11 (camOn (some frame1))) = some (streamCfg 31 (phyUp 11 (camOn (some frame1))))
        ∧ frame1.lines = (streamCfg 31 (phyUp 11 (camOn (some frame1)))).height)
    ∧ (rdField 8 11 0x44 15 0 (camOn none) ≠ 0 ∧ blockEnabled 8 11 (camOn none) = true ∧ domainOn 110 (camOn none) = true
        ∧ (camOn none).car.phy.contains 11 = true) := by decide +kernel
/-- Stream 31 of a 2 × 1 tensor source in group 7, at its configuration's far ends; a stream the staging registers may name. -/
def strCfg (src : Nat) : List Byte :=
  leBytes 1 src ++ leBytes 3 0x040000 ++ leBytes 4 0x07FF0A01 ++ leBytes 8 0 ++ leBytes 2 0 ++ leBytes 6 0x000100010001 ++ leBytes 2 0 ++ leBytes 2 0 ++ leBytes 4 5
    ++ leBytes 4 1000 ++ leBytes 2 16 ++ leBytes 2 16 ++ leBytes 4 0
def grpCfg1 (per : Nat) : List Byte :=
  leBytes 1 per ++ leBytes 3 0x010101 ++ leBytes 4 (2 ^ 31) ++ leBytes 6 0x4000 ++ leBytes 2 0 ++ leBytes 4 4096 ++ leBytes 4 6 ++ leBytes 4 20 ++ leBytes 4 0
def srcRec (kind : Nat) : List Byte := leBytes 4 7 ++ leBytes 1 kind ++ leBytes 3 0 ++ leBytes 6 0x2000 ++ leBytes 2 0 ++ leBytes 4 2 ++ leBytes 2 2 ++ leBytes 2 1 ++ leBytes 8 0
def carOn (src : Nat) (smp : List CarSample) (bs : List CarBatch) (per : Nat) : State :=
  let s := withQueue 6 { queueOf 2 with pinned := true } (withRecord 5 4 (srcRec (src - 1)) trained)
  wrReg 7 0 8 1 { s with car := { CarState.init with
    streams := Tbl.set (stream 30 State.reset) [] 31 { stream 31 State.reset with running := true, cfg := strCfg src, mean := 1000 },
    groups := Tbl.set (grp 0 State.reset) [] 7 { grp 7 State.reset with cfg := grpCfg1 per, st := 1, next := 1, batches := bs }, samples := smp } }
def smp1 (src : Nat) : CarSample :=
  { id := 7, stream := 31, start := 0, deadline := some 500, slot := some (0, 0), late := false, gone := false, ready := true, src := srcRec (src - 1), rows := [] }
def bat1 (held : Bool) : CarBatch :=
  { number := 0, buffer := 0, slots := [if held then { sample := some (7, 31) } else {}], opened := 0, closed := false, flags := 0 }
def scales1 (m : Img) (x : CarSample) (c : StreamCfg) : List (Nat × Nat × Nat × Nat × List Nat) :=
  c.written.map (fun z => (z, (m.scale z).h, (m.scale z).w, (m.scale z).ch, scaleCodes c (bitDepth c (SrcRec.read x.src)) (m.scale z)))
/-- A sample whose record carries a CRC that its two bytes do not have. -/
def smpBad : CarSample :=
  { smp1 2 with src := leBytes 4 7 ++ leBytes 1 1 ++ leBytes 1 1 ++ leBytes 2 0 ++ leBytes 6 0x2000 ++ leBytes 2 0 ++ leBytes 4 2 ++ leBytes 12 0 }
/-- The hypotheses of a completing sample, with what preparing and placing it answer. -/
def completes (st id : Nat) (s : State) : Bool :=
  match findSample st id s with
  | none => false
  | some x =>
    let c := streamCfg st s
    carRuns s && x.ready && !x.gone && !armed 7 0 9 s
      && (match sampleImg c x s with
          | (.inr m, t) =>
            (match placeSample c.group x t with
             | some ((n, j, _), u) =>
               let v := updSample st id (fun y => { y with slot := some (n, j) })
                 (updSlot c.group n j (fun y => { y with sample := some (id, st), status := none, sub := false }) u)
               !armed 7 0 10 v && ((writeScales c.group (grpCfg c.group u).dest c (scales1 m x c) v).1.1 == ⟨0, 0⟩)
             | none => false)
          | _ => false)

theorem met_CarouselCommands_samples :
    (let s := carOn 2 [] [] 0; carRuns s = true ∧ (stream 31 s).running = true ∧ (streamCfg 31 s).source = 2 ∧ grpTakes 31 s = true ∧ (streamCfg 31 s).queue = 5
      ∧ (streamCfg 31 s).group = 7 ∧ (qDesc 5 s).consumer = 4 ∧ (takeSlot 7 31 s).isSome = true
      ∧ (engineTake 5 s).map (fun x => (x.1, (startSample 31 7 x.1 true x.2).isSome)) = some (srcRec 1, true)
      ∧ (SrcRec.read (srcRec 1)).ok = true ∧ (SrcRec.read (srcRec 1)).kind + 1 = 2 ∧ (SrcRec.read (srcRec 1)).w ≤ 16 ∧ (SrcRec.read (srcRec 1)).h ≤ 16)
    ∧ completes 31 7 (carOn 2 [smp1 2] [bat1 true] 0) = true
    ∧ (let s := carOn 2 [smp1 2] [bat1 true] 0; findSample 31 7 s = some (smp1 2) ∧ (smp1 2).deadline = some 500 ∧ carRuns s = true)
    ∧ (let s := carOn 2 [smpBad] [bat1 true] 0; findSample 31 7 s = some smpBad ∧ carRuns s = true ∧ (streamCfg 31 s).source = 2 ∧ smpBad.gone = false
      ∧ (readSource (SrcRec.read smpBad.src) s).1 = 9)
    ∧ (let s := carOn 1 [smp1 1] [bat1 true] 0; findSample 31 7 s = some (smp1 1) ∧ carRuns s = true ∧ (streamCfg 31 s).source = 1 ∧ (smp1 1).gone = false
      ∧ (readSource (SrcRec.read (smp1 1).src) s).1 = 0
      ∧ (match jpegImg (streamCfg 31 s) (readSource (SrcRec.read (smp1 1).src) s).2.1 with | .inl c => c | .inr _ => 0) = 5) := by
  decide +kernel

/-- A staged stream and a staged group that may be configured, named by the selections' highest numbers. -/
def carRegs : State :=
  wrReg 7 0 0x78 7 (wrReg 7 0 0x40 31 ((List.range 8).foldl (fun s k => wrReg 7 0 (0x7C + 4 * k) (BitVec.ofNat 32 (leField (grpCfg1 0) (4 * k) 4)) s)
    ((List.range 11).foldl (fun s k => wrReg 7 0 (0x44 + 4 * k) (BitVec.ofNat 32 (leField (strCfg 2) (4 * k) 4)) s) (carOn 2 [] [] 0))))
def carIdle (run : Bool) (st : Nat) : State :=
  { carRegs with car := { carRegs.car with
      streams := Tbl.set (stream 30 State.reset) [] 31 { stream 31 carRegs with running := run },
      groups := Tbl.set (grp 0 State.reset) [] 7 { grp 7 carRegs with st := st } } }

theorem met_CarouselCommands_registers :
    ((grp 7 (carOn 2 [] [bat1 false] 0)).batches.find? (fun b => !b.closed) = some (bat1 false) ∧ carRuns (carOn 2 [] [bat1 false] 0) = true
        ∧ (grpCfg 7 (carOn 2 [] [bat1 false] 0)).window ≠ 0)
    ∧ (let s := carIdle false 0; regAt .host true 7 0 0x74 s = (0, s) ∧ rdField 7 0 0x40 4 0 s = 31 ∧ (stream 31 s).running = false
        ∧ streamOk (stagedStream s) = true ∧ (StreamCfg.read (stagedStream s)).substitute = false)
    ∧ (let s := carIdle true 0; regAt .host true 7 0 0x74 s = (0, s) ∧ (stream 31 s).running = true)
    ∧ (let s := carIdle true 0; regAt .host true 7 0 0x9C s = (0, s) ∧ rdField 7 0 0x78 2 0 s = 7 ∧ (grp 7 s).st = 0
        ∧ grpOk 7 ((List.range 8).flatMap (fun i => leBytes 4 (rdReg 7 0 (0x7C + 4 * i) s).toNat)) s = true ∧ grpFits 7 s = true ∧ (grpCfg 7 s).slots ≠ 0)
    ∧ (let s := carIdle true 1; regAt .host true 7 0 0x9C s = (0, s) ∧ (grp 7 s).st ≠ 0) := by decide +kernel

/-- A trigger snapshot of all-zero inputs; slot 63 with the law {i, STOP} at word 4094. -/
def snap0 : Snap := { time := 0, encs := List.replicate 16 0, encBad := 0, dins := 0, dinBad := 0, adcs := List.replicate 32 0, ages := List.replicate 32 0, adcBad := 0 }
def slotCfg (src : Nat) : List Byte := leBytes 1 src ++ leBytes 1 0 ++ leBytes 2 4094 ++ leBytes 2 0 ++ leBytes 2 2 ++ leBytes 4 5000 ++ leBytes 6 0 ++ leBytes 2 0xFFFF ++ leBytes 12 0
def slot1 (src : Nat) : TrSlot := { cfg := slotCfg src, conf := true, st := 1, mode := 2 }
def trOn (v : TrSlot) (i : LawIns) (rs : List TrRun) : State :=
  wrReg 10 0 8 1 { State.reset with tr := { TrState.init with slots := Tbl.set {} [] 63 v, law := Tbl.set 0 [] 4094 (BitVec.ofNat 32 i.word), runs := rs } }
def trRun1 : TrRun :=
  { slot := 63, hold := false, pc := 4094, acc := 5, snap := snap0, delta := List.replicate 16 0, sp := [], shared := [], coef := [], age := 0, test := 0,
    carries := false, pwm := none, sends := [15] }

theorem met_ControlLawCommands :
    ((trSlot 63 (trOn (slot1 1) .stop [])).st ≠ 0 ∧ blockEnabled 10 0 (trOn (slot1 1) .stop []) = true ∧ (slot1 1).src = 1 ∧ (slot1 1).period ≠ 0)
    ∧ ((trSlot 63 (trOn { slot1 0 with fired := some snap0 } .stop [])).fired = some snap0 ∧ (slot1 0).src ≠ 1)
    ∧ (let s := trOn { slot1 0 with pend := some snap0 } .stop []
       nextPending s = some 63 ∧ (trSlot 63 s).pend = some snap0 ∧ blockEnabled 10 0 s = true ∧ s.tr.runs.head? = none
        ∧ swapPending (setSlot 63 { trSlot 63 s with pend := none, prev := some snap0.encs } s) = false
        ∧ testValue 63 (lawFetch 63 (.single 8 1) (setSlot 63 { trSlot 63 s with pend := none, prev := some snap0.encs } s)) = none)
    ∧ [LawIns.mac true 255 2047, .store 255 63, .limit 255 2046, .move 255 255, .outBuf 255 15 15, .outPwm 255 23, .send 15, .skipif 255 3 31, .stop].all (fun i =>
        (trOn (slot1 0) i [trRun1]).tr.runs == [trRun1] && lawDecode (Tbl.get 0 (trOn (slot1 0) i [trRun1]).tr.law trRun1.pc).toNat == some i
        && (coefRead { trRun1 with pc := 4095 } 2047 .none (trOn (slot1 0) i [trRun1])).1.isSome) = true
    ∧ sat32 (rheScaleInt trRun1.acc (-(63 : Int))) = rheScaleInt trRun1.acc (-(63 : Int)) ∧ trRun1.pwm = none := by decide +kernel

def trReg (off : Nat) (w : Word) (v : TrSlot) : State := wrReg 10 0 0x40 63 (wrReg 10 0 off w (trOn v .stop []))
def trStaged : State := (List.range 8).foldl (fun s k => wrReg 10 0 (0x44 + 4 * k) (BitVec.ofNat 32 (leField (slotCfg 1) (4 * k) 4)) s) (trReg 0x40 63 { slot1 1 with st := 0 })
theorem met_TightropeRegisterCommands_slots :
    (regAt .host true 10 0 0x64 trStaged = (0, trStaged) ∧ rdField 10 0 0x40 5 0 trStaged = 63 ∧ slotRefusal 63 (slotStaged trStaged) trStaged = 0)
    ∧ ((trSlot 63 trStaged).st = 0 ∧ trStaged.sec.phase ≠ 3 ∧ (trSlot 63 trStaged).conf = true
        ∧ (trLoad ((List.range 64).filter (fun j => j == 63 || decide ((trSlot j trStaged).st ≠ 0))) trStaged).1
            ≤ 640000000 * (trLoad ((List.range 64).filter (fun j => j == 63 || decide ((trSlot j trStaged).st ≠ 0))) trStaged).2)
    ∧ (let s := trReg 0x40 63 (slot1 1); regAt .host true 10 0 0x64 s = (0, s) ∧ rdField 10 0 0x40 5 0 s = 63 ∧ (trSlot 63 s).st ≠ 0)
    ∧ (let s := trReg 0x40 63 { slot1 1 with st := 2, accepted := some 0 }; regAt .host true 10 0 0x64 s = (0, s) ∧ (trSlot 63 s).st = 2 ∧ (trSlot 63 s).mode = 2
        ∧ (trSlot 63 s).memErr = false ∧ firstInvalid (trSlot 63 s) (snapNow s) = none ∧ spAged (trSlot 63 s) (devNow s) = false) := by decide +kernel

theorem met_TightropeRegisterCommands_memories :
    (let s := trReg 0x70 4095 (slot1 1); regAt .host true 10 0 0x74 s = (0, s) ∧ lawCovered (rdField 10 0 0x70 11 0 s) s = false)
    ∧ (let s := trReg 0x84 0 (slot1 1); let w : Word := BitVec.ofNat 32 (62 * 2 ^ 16 + 2047); regAt .host true 10 0 0x7C s = (0, s) ∧ w.field 31 31 = 0 ∧ w.field 21 16 ≠ 63
        ∧ rdField 10 0 0x84 0 0 s = 0 ∧ rdField 10 0 0x84 4 4 s = 0)
    ∧ (let s := trReg 0x84 3 (slot1 1); let w : Word := BitVec.ofNat 32 (62 * 2 ^ 16 + 2047); rdField 10 0 0x84 0 0 s = 1 ∧ w.field 31 31 = 1 - rdField 10 0 0x84 1 1 s)
    ∧ (let s := trReg 0x84 1 (slot1 1); let w := (rdReg 10 0 0x84 s).put 13 8 62 ||| 4
       regAt .host true 10 0 0x84 s = (0, s) ∧ w.field 0 0 = 1 ∧ rdField 10 0 0x84 0 0 s = 1 ∧ natBit w.toNat 2 = true ∧ swapPending s = false
        ∧ w.field 13 8 = 62 ∧ (trSlot 62 (wrField 10 0 0x84 13 8 62 (wrField 10 0 0x84 0 0 1 s))).st = 0)
    ∧ rdField 10 0 0x84 4 4 (trReg 0x84 0x11 (slot1 1)) ≠ 0
    ∧ (let v := { slot1 1 with cfg := leBytes 18 0 ++ leBytes 2 9 ++ leBytes 12 0 }; let s := trReg 0x40 63 v
       regAt .checker true 10 0 0xA8 s = (0, s) ∧ Word.field (BitVec.ofNat 32 63) 5 0 = 63 ∧ (trSlot 63 s).ageLimit ≠ 0)
    ∧ (let s := trReg 0xAC 0 (slot1 1); regAt .checker true 10 0 0xAC s = (0, s) ∧ natBit (BitVec.ofNat 32 0x8000).toNat 15 = true ∧ natBit (rdReg 10 0 0xAC s).toNat 15 = false)
    ∧ (let s := { trReg 0xB4 0 (slot1 1) with tr := { (trReg 0xB4 0 (slot1 1)).tr with caps := [(0, leBytes 16 0)], capPos := 3 } }
       regAt .host false 10 0 0xBC s = (0, s) ∧ natBit (rdReg 10 0 0xB4 s).toNat 0 = false ∧ s.tr.capPos < 4 * s.tr.caps.length) := by decide +kernel
def tioIn (regs : List (Nat × Nat)) (t : TioState) : State :=
  regs.foldl (fun s (e : Nat × Nat) => wrReg 10 1 e.1 (BitVec.ofNat 32 e.2) s) (wrReg 10 1 8 1 { State.reset with tio := t })
/-- Staging registers from an offset, for a table entry. -/
def staging (off : Nat) (b : List Byte) : List (Nat × Nat) := (List.range (b.length / 4)).map (fun k => (off + 4 * k, leField b (4 * k) 4))
def encT : List Byte := leBytes 1 0xF9 ++ leBytes 15 0
def adcT : List Byte := leBytes 1 7 ++ leBytes 1 32 ++ leBytes 1 0 ++ leBytes 1 24 ++ leBytes 4 1 ++ leBytes 4 1000 ++ leBytes 20 0
def pwmT : List Byte := leBytes 1 1 ++ leBytes 3 0 ++ leBytes 4 20 ++ leBytes 8 0

theorem met_TimedIoCommands_encoders :
    (let s := tioIn ((0x40, 15) :: staging 0x44 encT) TioState.init
     regAt .host true 10 1 0x54 s = (0, s) ∧ rdField 10 1 0x40 3 0 s = 15 ∧ encTableOk (tioStaged 0x44 4 s) = true ∧ startedUses (fun v _ => natBit v.encMask 15) s = false)
    ∧ (let s := tioIn [(0x40, 15)] { TioState.init with encs := Tbl.set {} [] 15 { cfg := encT, cause := 2 } }
       regAt .host true 10 1 0x54 s = (0, s) ∧ rdField 10 1 0x40 3 0 s = 15 ∧ (tioEnc 15 s).mode = 1 ∧ (tioEnc 15 s).cause = 2 ∧ blockEnabled 10 1 s = true ∧ armed 10 1 5 s = false)
    ∧ (tioEnc 15 (tioIn [] { TioState.init with encs := Tbl.set {} [] 15 { cfg := leBytes 1 2 ++ leBytes 15 0 } })).mode = 2 := by decide +kernel

theorem met_TimedIoCommands_inputs :
    (let s := tioIn ((0x60, 31) :: staging 0x64 (leBytes 8 1)) TioState.init
     regAt .host true 10 1 0x6C s = (0, s) ∧ rdField 10 1 0x60 4 0 s = 31 ∧ leField (tioStaged 0x64 2 s) 0 2 ≠ 0 ∧ byteAt (tioStaged 0x64 2 s) 2 < 4
      ∧ byteAt (tioStaged 0x64 2 s) 3 = 0)
    ∧ (let s := tioIn [] TioState.init; blockEnabled 10 1 s = true ∧ (tioDin 31 (dinInject 31 (dinSettle 31 s))).raw = (tioDin 31 (dinInject 31 (dinSettle 31 s))).level)
    ∧ (let s := tioIn [] { TioState.init with dins := Tbl.set {} [] 31 { raw := true } }; (tioDin 31 s).fast = false ∧ (tioDin 31 s).raw ≠ (tioDin 31 s).level)
    ∧ (tioDin 31 (tioIn [] { TioState.init with dins := Tbl.set {} [] 31 { fast := true } })).fast = true
    ∧ (let s := tioIn [] { TioState.init with dins := Tbl.set {} [] 31 { cfg := leBytes 4 0 ++ leBytes 4 1, active := some 0 } }
       (tioDin 31 s).active = some 0 ∧ (tioDin 31 s).maxActive ≠ 0 ∧ (tioDin 31 s).stuck = false) := by decide +kernel

theorem met_TimedIoCommands_outputs :
    (let s := tioIn ((0x98, 3) :: staging 0x9C adcT) TioState.init
     regAt .host true 10 1 0xBC s = (0, s) ∧ rdField 10 1 0x98 1 0 s = 3 ∧ adcTableOk (tioStaged 0x9C 8 s) = true ∧ adcUsed 3 s = false)
    ∧ (let s := tioIn [] { TioState.init with adcs := Tbl.set {} [] 3 { cfg := adcT, running := true } }; (tioAdc 3 s).running = true ∧ blockEnabled 10 1 s = true)
    ∧ (let s := tioIn ((0x7C, 23) :: staging 0x80 pwmT) TioState.init
       regAt .host true 10 1 0x90 s = (0, s) ∧ rdField 10 1 0x7C 4 0 s = 23 ∧ startedUses (fun _ l => (pwmsOf l).contains 23) s = false
        ∧ pwmTableOk 23 (tioStaged 0x80 4 s) = true)
    ∧ (tioPwm 23 (tioIn [] { TioState.init with pwms := Tbl.set {} [] 23 { cfg := pwmT, conf := true } })).conf = true := by decide +kernel
/-- A transmit descriptor: identifier, format with its report bit, length. -/
def canD (id fmt n : Nat) : List Byte := leBytes 4 id ++ leBytes 2 fmt ++ leBytes 2 n ++ leBytes 8 0 ++ leBytes 6 (if 64 < n then 0x2000 else 0) ++ leBytes 10 0
def canIn (regs : List (Nat × Nat)) (v : CanCtl) (s : State) : State :=
  regs.foldl (fun s (e : Nat × Nat) => wrReg 11 7 e.1 (BitVec.ofNat 32 e.2) s) (wrReg 11 7 8 1 { s with cans := Tbl.set {} [] 7 v })
/-- Staging registers from an offset, for a table entry. -/
def canStaging (b : List Byte) : List (Nat × Nat) := (List.range (b.length / 4)).map (fun k => (0x58 + 4 * k, leField b (4 * k) 4))
def allowE : List Byte := leBytes 12 0 ++ leBytes 2 0xFFF ++ leBytes 2 1

theorem met_CanCommands_tables :
    (let s := canIn ((0x54, 15) :: canStaging (canD 0x7FF 0 8)) {} State.reset
     regAt .host true 11 7 0x78 s = (0, s) ∧ rdField 11 7 0x54 5 0 s = 15 ∧ rdField 11 7 0x54 7 6 s = 0 ∧ ((canCtl 7 s).tb 15).st = 0
      ∧ tbTableOk 15 ((List.range 8).flatMap (fun j => leBytes 4 (rdReg 11 7 (0x58 + 4 * j) s).toNat)) = true)
    ∧ (let s := canIn ((0x54, 0x7F) :: canStaging (leBytes 32 0)) {} State.reset
       regAt .host true 11 7 0x78 s = (0, s) ∧ rdField 11 7 0x54 7 6 s = 1
        ∧ filterTableOk (((List.range 8).flatMap (fun j => leBytes 4 (rdReg 11 7 (0x58 + 4 * j) s).toNat)).take 16) = true)
    ∧ (let s := canIn ((0x54, 0x87) :: canStaging allowE) {} State.reset
       regAt .host true 11 7 0x78 s = (0, s) ∧ rdField 11 7 0x54 7 6 s = 2 ∧ rdField 11 7 0x54 5 0 s < 8
        ∧ allowTableOk (((List.range 8).flatMap (fun j => leBytes 4 (rdReg 11 7 (0x58 + 4 * j) s).toNat)).take 16) = true)
    ∧ ((canCtl 7 (canIn [] { tbs := Tbl.set {} [] 15 { st := 1 } } State.reset)).tb 15).st = 1
    ∧ ((canCtl 7 (canIn [] { tbs := Tbl.set {} [] 15 { st := 2 } } State.reset)).tb 15).st = 2
    ∧ (canCtl 7 (canIn [] { st := 2 } State.reset)).st = 2
    ∧ (canCtl 7 (canIn [] { recovering := true } State.reset)).recovering = true := by decide +kernel

theorem met_CanCommands_map :
    (let s := canIn [] {} State.reset
     regAt .host true 11 7 0x80 s = (0, s) ∧ ((List.range 4).filterMap (trMapped 0x8F8E8D8C)).Nodup ∧ (BitVec.ofNat 32 0x8F8E8D8C &&& 0x8F8F8F8F : Word).toNat = 0x8F8E8D8C
      ∧ (∀ n < 32, n / 4 ≠ 7 → trMapped (rdReg 11 (n / 4) 0x80 s).toNat (n % 4) = none)
      ∧ startedUses (fun _ l => (bufsOf l).any (fun b => ((List.range 4).flatMap (fun k => if trMapped 0 k = trMapped 0x8F8E8D8C k then []
          else (trMapped 0 k).toList ++ (trMapped 0x8F8E8D8C k).toList)).contains b)) s = false
      ∧ regAt .host true 11 7 0x94 s = (0, s)) := by decide +kernel

/-- Job traffic: a queue of 112-byte records whose head comes from job 0. -/
def canJob : State :=
  let b := leBytes 16 11 ++ canD 0x7FF 0 8 ++ leBytes 64 1
  let s := withQueue 5 { queueOf 4 with recordSize := 112, wr := stride 112, res := stride 112, packets := 1 } (wrBytes 0x10000 (leBytes 4 112 ++ leBytes 4 0 ++ b) trained)
  canIn [(0x8C, 0x80000005)] { allow := Tbl.set [] [] 7 (leBytes 2 0xFFFF ++ allowE.drop 2) } s

theorem met_CanCommands_jobs :
    natBit (rdReg 11 7 0x8C canJob).toNat 31 = true ∧ Word.field (rdReg 11 7 0x8C canJob) 19 0 = 5 ∧ (qDesc 5 canJob).consumer = 4 ∧ (qDesc 5 canJob).recordSize = 112
    ∧ (engineTake 5 canJob).map (fun x => jobTxOk 7 (qSource 5 canJob).1 x.1 x.2) = some true := by decide +kernel

def bus1 (tb : CanTb) (m : Nat) : State := canIn [(0x40, m)] { tbs := Tbl.set {} [] 15 tb, tec := 1 } trained
theorem met_CanCommands_bus :
    (let s := bus1 { st := 1, cur := canD 0x7FF 0 8 ++ leBytes 64 0 } 4
     rdField 11 7 0x40 2 0 s = 4 ∧ (canCtl 7 s).st ≠ 2 ∧ onBus 7 s = none ∧ blockEnabled 11 7 s = true ∧ arbWinner 7 s = some 15 ∧ armed 11 7 8 s = false
      ∧ cdLen ((canCtl 7 s).tb 15).cur ≤ 64)
    ∧ (let s := bus1 { st := 1, cur := canD 0x7FF 2 2048 ++ leBytes 64 0 } 0x11
       rdField 11 7 0x40 2 0 s = 1 ∧ arbWinner 7 s = some 15 ∧ 64 < cdLen ((canCtl 7 s).tb 15).cur
        ∧ (access 11 7 15 .scribe .read (cdExt ((canCtl 7 s).tb 15).cur) (cdLen ((canCtl 7 s).tb 15).cur) [] s).1 = ⟨0, 0⟩)
    ∧ (let s := bus1 { st := 2, cur := canD 0x7FF 8 8 ++ leBytes 64 0 } 1; onBus 7 s = some 15 ∧ ((canCtl 7 s).tb 15).abort = false ∧ ((canCtl 7 s).tb 15).held = none
      ∧ armed 11 7 11 s = false ∧ armed 11 7 9 s = false)
    ∧ (let s := bus1 { st := 2, cur := canD 0x7FF 8 8 ++ leBytes 64 0 } 1; let v := canCtl 7 s
       let t := canConfine 7 (bump 11 7 0x98 1 (setTb 7 15 { v.tb 15 with st := 0, abort := false } (setCan 7 { v with tec := v.tec - 1, sent := (v.tb 15).cur :: v.sent } s)))
       cdReport (v.tb 15).cur = true ∧ natBit (rdReg 11 7 0x90 (canRecord 7 0x84 0x51 15
              (canHeader { canFrameOf (v.tb 15).cur (devNow s - (v.tb 15).sof) with esi := v.st == 1 } false 0xFF (v.tb 15).sof 15
                ++ (canFrameOf (v.tb 15).cur (devNow s - (v.tb 15).sof)).data) t)).toNat 3 = false)
    ∧ (let s := bus1 { st := 2, held := some (canD 1 0 8) } 1; onBus 7 s = some 15 ∧ ((canCtl 7 s).tb 15).held = some (canD 1 0 8))
    ∧ (let s := bus1 {} 3; rdField 11 7 0x40 2 0 s = 3 ∧ (canCtl 7 s).st ≠ 2 ∧ blockEnabled 11 7 s = true ∧ fmtOn 7 0 s = true) := by decide +kernel
/-- The checker runs under a main image; queue 5 gives setpoints, 6 takes the log, 7 gives frames; coolant flows, inline ECC is on, a self-test cycle has passed. -/
def snUp : State :=
  let q := fun (d : QDesc) => { d with pinned := true }
  let s := withQueue 7 (q (queueOf 4)) (withQueue 6 (q { queueOf 1 with fixed := true, recordSize := 88, drop := true })
    (withQueue 5 (q { queueOf 4 with fixed := true, recordSize := 48 }) trained))
  let t := wrReg 13 0 0x78 2 (wrReg 4 0 0x40 1 (wrReg 12 0 0x54 0x80000007 (wrReg 12 0 0x50 0x80000006 (wrReg 12 0 0x4C 0x80000005 s))))
  { t with tio := { t.tio with stopN := false }, sec := { t.sec with phase := 1 }, sn := { t.sn with up := true, stDone := true } }
def snTripped : State := wrReg 12 0 0x48 0x400 snUp
def snStage (sel : Nat) (b : List Byte) : State :=
  (List.range 4).foldl (fun s k => wrReg 12 0 (0x5C + 4 * k) (BitVec.ofNat 32 (leField b (4 * k) 4)) s) (wrReg 12 0 0x58 (BitVec.ofNat 32 sel) snUp)
def slotEntry : List Byte := leBytes 1 3 ++ leBytes 1 15 ++ leBytes 1 1 ++ leBytes 1 32 ++ leBytes 2 0 ++ leBytes 2 1 ++ leBytes 8 0
def rule1 : List Byte := leBytes 4 0 ++ leBytes 4 0 ++ leBytes 4 0 ++ leBytes 4 3

theorem met_CheckerJudges_arm :
    (regAt .host true 12 0 0x44 snUp = (0, snUp) ∧ snUp.sec.phase = 1 ∧ snUp.sn.up = true ∧ armFault 0x0A4D0001 snUp = 0)
    ∧ (regAt .host true 12 0 0x44 snTripped = (0, snTripped) ∧ armFault 0x0A4D0003 snTripped = 0)
    ∧ (let s := snStage 63 slotEntry; regAt .host true 12 0 0x6C s = (0, s) ∧ rdField 12 0 0x58 10 9 s = 0 ∧ rdField 12 0 0x58 8 0 s = 63
        ∧ snEntryOk 0 63 ((List.range 4).flatMap (fun k => leBytes 4 (rdReg 12 0 (0x5C + 4 * k) s).toNat)) = true)
    ∧ (let s := snStage 0x3FF rule1; regAt .host true 12 0 0x6C s = (0, s) ∧ rdField 12 0 0x58 10 9 s = 1 ∧ rdField 12 0 0x58 8 0 s = 511
        ∧ snEntryOk 1 511 ((List.range 4).flatMap (fun k => leBytes 4 (rdReg 12 0 (0x5C + 4 * k) s).toNat)) = true)
    ∧ snEntryOk 2 31 (leBytes 16 2) = true ∧ snEntryOk 3 15 (leBytes 4 1000000 ++ leBytes 4 0 ++ leBytes 4 999999 ++ leBytes 4 0) = true := by decide +kernel

/-- A record at the head of one of the checker's queues. -/
def snRecord (q n : Nat) (f : QDesc → QDesc) (b : List Byte) : State :=
  withQueue q (f { queueOf 4 with pinned := true, fixed := n != 0, recordSize := if n = 0 then 256 else n, wr := stride b.length, res := stride b.length, packets := 1 })
    (wrBytes 0x10000 (leBytes 4 b.length ++ leBytes 4 0 ++ b) snUp)
def twinB : Twin := { job := 1, copyB := true, bytes := leBytes 48 63, born := 0 }
def withTwins (l : List Twin) : State := { snUp with sn := { snUp.sn with twins := l } }
def frameRec : List Byte := leBytes 4 (31 * 2 ^ 27) ++ leBytes 1 0 ++ leBytes 1 4 ++ leBytes 26 0
def endedAt (a b : Nat) : State :=
  let j := { JobRec.make { JobDesc.read desc1 with safety := true } 9 1 0 with phase := .running, endA := some a, endB := some b }
  setQuill 0 { quill1 with ended := true } (wrReg 12 0 0x70 1 { snUp with jobs := [j] })

theorem met_CheckerJudges_records :
    twinReady (withTwins [twinB]) = some twinB
    ∧ (let s := snRecord 5 48 id (leBytes 48 63); s.sn.up = true ∧ twinReady s = none ∧ snQueue 0x4C s = some 5 ∧ (engineTake 5 s).map (fun x => x.1) = some (leBytes 48 63))
    ∧ ((withTwins [{ twinB with copyB := false }]).sn.twins = { twinB with copyB := false } :: [] ∧ (withTwins [twinB]).sn.twins = twinB :: [])
    ∧ (let s := snRecord 7 0 id frameRec; s.sn.up = true ∧ snQueue 0x54 s = some 7 ∧ (engineTake 7 s).map (fun x => (leField x.1 0 4 / 2 ^ 27, natBit (byteAt x.1 5) 2)) = some (31, true)) := by decide +kernel

def endedOk (a b : Nat) (s : State) : Bool :=
  match findJob 1 s with
  | some j => j.endA == some a && j.endB == some b && j.phase == .running && j.d.safety && !j.compared
  | none => false
def comparedOk (want : Option (Nat × Nat)) (s : State) : Bool :=
  match findJob 1 s with
  | some j =>
    let t := cmpReads j.d (firstDiff j.d s) s
    jobDrained j s && !armed 12 0 9 t && firstDiff j.d t == want
  | none => false

/-- Both copies ended; their one binding of two bytes differs in its second byte. -/
def differing : State :=
  let s := wrBytes 0x3001 [1] (wrBytes 0x1000 (bind 0x2000 2 8 ++ bind 0x3000 2 8) (endedAt 7 7))
  updJob 1 (fun j => { j with d := { j.d with bindCount := 1, bindAddr := 0x1000 } }) s

theorem met_CheckerJudges_outputs :
    (endedOk 5 1005 (endedAt 5 1005) = true ∧ comparedOk none (endedAt 5 1005) = true ∧ max 5 1005 - min 5 1005 ≤ cmpWindow (endedAt 5 1005))
    ∧ (endedOk 7 7 differing = true ∧ comparedOk (some (0, 1)) differing = true ∧ max 7 7 - min 7 7 ≤ cmpWindow differing)
    ∧ endedOk 1006 5 (endedAt 1006 5) = true ∧ cmpWindow (endedAt 1006 5) < max 1006 5 - min 1006 5 := by decide +kernel

def logged : OvfEntry := { isLog := true, bytes := leBytes 88 1 }
def selfTesting (left : List (Nat × Nat)) (run : Option (Nat × Nat × Nat)) : State := wrReg 2 191 8 1 { snUp with sn := { snUp.sn with stLeft := left, stRun := run } }

theorem met_CheckerWatchesItself :
    snUp.sn.up = true ∧ State.reset.sn.up = false ∧ 1 % 4 ≠ 0 ∧ 3 % 4 ≠ 0
    ∧ (let s := { snUp with sn := { snUp.sn with ovf := [logged] } }
       s.sn.ovf.findIdx? (fun e => (ovfAdmits e s).isSome) = some 0 ∧ s.sn.ovf[0]? = some logged ∧ ovfAdmits logged s = some 6
        ∧ regAt .host false 12 0 0x88 s = (0, s) ∧ s.sn.logPos < (s.sn.ovf.map OvfEntry.words).sum)
    ∧ (let s := selfTesting [(4, 191), (6, 0)] none
       s.sn.up = true ∧ s.sn.stRun = none ∧ s.sn.stLeft.find? (fun x => stFree x s) = some (4, 191) ∧ stFits (stLength 4) (devNow s) s = true)
    ∧ (let s := selfTesting [] (some (6, 0, 0)); s.time.clk ≤ 0 + stLength 6 * oneUs ∧ armed 12 0 12 s = false ∧ armed 12 0 10 s = false)
    ∧ (let s := wrReg 12 0 0x74 255 snUp; s.sn.up = true ∧ rdField 12 0 0x74 7 0 s = 255) := by decide +kernel
def pwrOn : State := { State.reset with pwr := { State.reset.pwr with winModel := 1, figures := [600001] } }
theorem met_PowerCommands :
    blockEnabled 13 0 (wrReg 13 0 8 1 State.reset) = true ∧ armed 13 0 9 State.reset = false ∧ (pwrRail 4 State.reset).missing = false
    ∧ (let t := advanceToDev ((devNow pwrOn / 1000000 + 1) * 1000000) pwrOn; t.pwr.winDiv = false ∧ railMissing t = false ∧ t.pwr.winModel ≠ 0)
    ∧ (let s := wrReg 13 0 0x44 300 State.reset; regAt .host true 13 0 0x40 s = (0, s) ∧ rdField 13 0 0x44 15 0 s + powerReserved s ≤ 1500)
    ∧ (let s := wrReg 13 0 0x40 6000 State.reset; regAt .host true 13 0 0x44 s = (0, s) ∧ 2000 + powerReserved s ≤ rdField 13 0 0x40 15 0 s)
    ∧ 600000 < measured pwrOn.pwr.figures pwrOn
    ∧ Tbl.find? (droopOn 48 2 false State.reset).pwr.droops 48 ≠ none := by decide +kernel

def thermo (f : PwrState → PwrState) : State := { State.reset with pwr := f State.reset.pwr }
/-- Held in thermal shutdown with every junction sensor below 100 °C. -/
def hot99 : State := { thermo (fun p => { p with temps := [(0, 99), (64, 105)] }) with sec := { State.reset.sec with hold := 1 } }
/-- Coolant lost, then flowing for a second, with the die at 20 °C. -/
def cooled : State :=
  wrReg 13 0 0x78 3 { thermo (fun p => { p with temps := [(0, 20)] }) with time := { State.reset.time with clk := 1000000 * oneUs } }
theorem met_ThermalAndDomainCommands :
    State.reset.sec.hold ≠ 1
    ∧ (hot99.sec.hold = 1 ∧ ∀ e ∈ (setTemp 63 (signed 8 99) hot99).pwr.temps, 64 ≤ e.1 ∨ e.2 < 100)
    ∧ 120 ≤ signed 8 120
    ∧ (thermo (fun p => { p with recovery := some 5 })).pwr.recovery = some 5
    ∧ coolantLost State.reset = false ∧ rdField 13 0 0x78 1 1 (wrReg 13 0 0x78 0 State.reset) ≠ 1
    ∧ (regAt .host true 13 0 0x78 cooled = (0, cooled) ∧ Word.field (BitVec.ofNat 32 0xC0010004) 31 16 = 0xC001 ∧ natBit (BitVec.ofNat 32 0xC0010004).toNat 2 = true
        ∧ restartOk cooled = true ∧ coolantLost cooled = true)
    ∧ (regAt .host true 13 0 0x7C State.reset = (0, State.reset) ∧ offRefused 111 State.reset = false)
    ∧ (thermo (fun p => { p with rising := [(111, 5, true)] })).pwr.rising.find? (fun e => e.1 == 111) = some (111, 5, true)
    ∧ (let s := setSpad 47 { wins := [], banks := (List.range 16).foldl (fun t b => Tbl.set (({} : Spad).bank 0) t b { (({} : Spad).bank b) with st := .off }) [] } (wrReg 13 0 0x90 3 State.reset)
       natBit (rdReg 13 0 0x90 s).toNat 0 = true ∧ domainOn 47 s = true ∧ offRefused 47 s = false)
    ∧ (let s := wrReg 13 0 0x90 2 State.reset
       natBit (rdReg 13 0 0x90 s).toNat 1 = true ∧ ((spad 47 s).bank 15).st = .on ∧ bankOwner 47 15 s = 0xFFFF
        ∧ ((spad 47 s).pendShares ++ (spad 47 s).heldShares).contains (15 / 4) = false ∧ bankCmdOk 47 15 0xFFFF true s = true) := by decide +kernel

/-- An enumerated device 2 of a torus of 8 × 8 × 4 whose port 5 is up. -/
def ringUp (f : Port → Port) : State :=
  let s := wrReg 5 5 0x40 2 (wrReg 5 0 0x100 0x488 (wrReg 0 0 0x40 0x102 State.reset))
  { s with ring := { s.ring with ports := Tbl.set {} [] 5 (f {}) }, sec := { s.sec with phase := 1 } }
def flit1 (ok : Bool) (seq : Nat) : FlitIn := { crcOk := ok, seq := seq, ack := 16383, vc := 6, kind := 0, fec := [], transit := none }
def linkIn (st : Nat) : State := wrReg 5 5 0x40 (BitVec.ofNat 32 st) (ringUp id)

theorem met_RingLinkCommands_flits :
    linkState 5 (ringUp id) = 2 ∧ (flit1 false 0).crcOk = false ∧ flitSequenced (flit1 true 16383) = true
    ∧ (let s := ringUp id; ((port 5 (ackTo 5 16383 (addCtr 5 5 0x64 1 (fecCount 5 [] s)))).rxSeq + 1) % 16384 = (flit1 true 0).seq)
    ∧ (let s := ringUp (fun p => { p with rxSeq := 16382 }); ((port 5 (ackTo 5 16383 (addCtr 5 5 0x64 1 (fecCount 5 [] s)))).rxSeq + 1) % 16384 = (flit1 true 16383).seq)
    ∧ (let t := ackTo 5 7 (ringUp (fun p => { p with nakSeq := 7, nakCount := 7 })); (port 5 t).nakSeq = 7 ∧ 8 ≤ (port 5 t).nakCount + 1)
    ∧ (let t := ackTo 5 7 (ringUp (fun p => { p with nakSeq := 7, nakCount := 6 })); (port 5 t).nakSeq = 7 ∧ (port 5 t).nakCount + 1 < 8
        ∧ armed 5 5 7 (setPort 5 { port 5 t with nakSeq := 7, nakCount := 7 } t) = false)
    ∧ ((port 5 (ringUp (fun p => { p with retrains := [0] }))).retrains.filter (fun t => decide ((ringUp id).time.clk < t + oneS))).length < 2 := by decide +kernel

theorem met_RingLinkCommands_links :
    linkState 5 (linkIn 3) = 3 ∧ (linkState 5 (linkIn 1) < 2 ∧ rdField 5 5 0x44 1 0 (linkIn 1) = 0 ∧ blockPowered 5 5 (linkIn 1) = true ∧ fenceReason (linkIn 1) ≠ 4)
    ∧ rdField 5 5 0x48 23 0 (wrReg 5 5 0x48 5 (ringUp id)) < Tbl.get 0 (port 5 (ringUp (fun p => { p with symbols := Tbl.set 0 [] 3 6 }))).symbols 3
    ∧ (port 5 (ringUp (fun p => { p with swap := some 3 }))).swap = some 3
    ∧ spareUsed 5 (ringUp id) = false ∧ (port 5 (ringUp id)).swap = none
    ∧ regAt .host true 5 5 0x44 (ringUp id) = (0, ringUp id) ∧ rdField 5 5 0x44 1 0 (ringUp id) ≠ 1 ∧ rdField 5 5 0x44 1 0 (wrReg 5 5 0x44 1 (ringUp id)) ≠ 0
    ∧ (let s := wrReg 0 0 0x6C 1 (ringUp id); regAt .host true 5 5 0x84 s = (0, s) ∧ natBit (rdReg 0 0 0x6C s).toNat 0 = true) := by decide +kernel

/-- A request that the device has sent to device 1. -/
def req1 (op tag : Nat) : RingReq := { tag := tag, dst := 1, op := op, job := 1, addr := 0, len := 256, data := [], use := .fine, pos := 0, born := 0 }
def withReq (op : Nat) : State := { ringUp id with ring := { (ringUp id).ring with reqs := [req1 op 4095] } }
theorem met_RingRequests :
    takesRing State.reset = false ∧ takesRing (ringUp id) = true ∧ enumerated (ringUp id) = true ∧ fenced (ringUp id) = false ∧ memUp (ringUp id) = true
    ∧ takesSignal 1 0 { ringUp id with jobs := [job1] } = true
    ∧ ([0, 2].all (fun op => (withReq op).ring.reqs.find? (fun r => r.tag == 4095 && [0, 2].contains r.op) == some (req1 op 4095)) = true)
    ∧ ([1, 5, 6].all (fun op => (withReq op).ring.reqs.find? (fun r => r.tag == 4095 && [1, 5, 6].contains r.op) == some (req1 op 4095)) = true)
    ∧ ([9, 10].all (fun op => (withReq op).ring.reqs.find? (fun r => r.tag == 4095 && [9, 10].contains r.op) == some (req1 op 4095)) = true)
    ∧ (req1 0 4095).len ≤ (List.replicate 256 (0 : Byte)).length
    ∧ (let s := { ringUp id with groups := [⟨511, 2, 0, [(2, 0)], [], [], none, none⟩] }
       findGroup 511 s = some ⟨511, 2, 0, [(2, 0)], [], [], none, none⟩ ∧ deviceId s = 2 ∧ ringNow s ≤ ringNow s) := by decide +kernel

def die9 : Found := { die := 9, manager := false, ports := [] }
def managing (on : Bool) (placed : List (Nat × Nat)) : State :=
  let s := wrReg 5 0 0x104 1 (wrReg 0 0 0x40 0x200 (ringUp id))
  { s with ring := { s.ring with enumOn := on, placed := placed } }
theorem met_RingDeviceCommands :
    (let s := ringUp id; linkState 5 s = 2 ∧ enumerated s = true ∧ ownTime s = false ∧ armed 5 0 16 s = false ∧ rdField 5 0 0x110 1 1 s ≠ 1)
    ∧ (let s := managing false []; s.sec.phase = 1 ∧ rdField 5 0 0x104 0 0 s ≠ 0 ∧ s.ring.enumOn = false ∧ enumerated s = false ∧ rdField 0 0 0x40 9 9 s = 1)
    ∧ (let s := ringUp id; 9 ≠ dieId s ∧ rdField 0 0 0x40 9 9 s ≠ 1 ∧ s.ring.discovers ≠ 1)
    ∧ ((managing true []).ring.enumOn = true ∧ (managing true []).ring.placed = [] ∧ rdField 5 0 0x100 20 20 (wrReg 5 0 0x100 0x100000 (managing false [])) = 1)
    ∧ (let s := { ringUp id with ring := { (ringUp id).ring with discovers := 1 } }; rdField 0 0 0x40 9 9 s ≠ 1 ∧ s.ring.discovers ≠ 0)
    ∧ ((managing true [(9, 1)]).ring.placed ≠ [])
    ∧ rdField 5 0 0x100 20 20 (wrReg 5 0 0x100 0x100000 (managing false [])) ≠ 0
    ∧ (let s := { ringUp id with ring := { (ringUp id).ring with firstUp := some 5 } }
       s.ring.firstUp = some 5 ∧ s.ring.discovers = 0 ∧ s.ring.noManager = false ∧ upPorts s ≠ [])
    ∧ (isManager (ringUp id) = false ∧ isManager (wrReg 0 0 0x40 0x300 (ringUp id)) = true ∧ deviceId (wrReg 0 0 0x40 0x300 (ringUp id)) = 0)
    ∧ (let s := ringUp id; regAt .host true 5 0 0x11C s = (0, s) ∧ deviceId s = 2)
    ∧ (let s := wrReg 0 0 0x40 0x300 (ringUp id); regAt .host true 5 0 0x11C s = (0, s))
    ∧ (let s := { ringUp id with ring := { (ringUp id).ring with fenceDue := some 5 } }
       s.ring.fenceDue = some 5 ∧ fenced { s with ring := { s.ring with fenceDue := none } } = false)
    ∧ ((ringUp id).ring.fenceDue = none ∧ fenced { ringUp id with ring := { (ringUp id).ring with fenceDue := none } } = false)
    ∧ (let s := wrReg 0 0 0x78 0x21 (ringUp id); let t := { s with ring := { s.ring with fenceDue := none } }
       fenced t = true ∧ fenceReason t ≠ 4) := by decide +kernel
/-- A device with a main image, its host ports up on session 7, two commands of the session accepted. -/
def hostOn (f : HostState → HostState) (s : State) : State :=
  let t := (List.range 2).foldl (fun s p => wrReg 14 p 8 1 (wrReg 14 p 0x40 2 s)) (wrReg 14 0 0x110 7 s)
  { t with sec := { t.sec with phase := 1 }, host := f t.host }
/-- A command of number 5 with a payload, from port 1. -/
def hostCmd (op : Nat) (pay : List Byte) : HostCmd :=
  { port := 1, src := ⟨9, 0, 0, 0⟩, len := 100, pdu := leBytes 2 1 ++ leBytes 2 (24 + pay.length) ++ leBytes 4 7 ++ leBytes 4 5 ++ leBytes 4 op ++ leBytes 4 0 ++ leBytes 4 0 ++ pay }
def withCmd (c : HostCmd) (s : State) : State := hostOn (fun h => { h with accepted := [(c, false)] }) s
def nextIs (c : HostCmd) (op : Nat) (s : State) : Bool := s.host.accepted.head? == some (c, false) && c.op == op && !c.reserved && served op s

theorem hostNext_of_nextIs {c : HostCmd} {op : Nat} {s : State} (h : nextIs c op s = true) : hostNext c op s := by
  simp only [nextIs, Bool.and_eq_true, Bool.not_eq_true', beq_iff_eq] at h
  obtain ⟨⟨⟨h1, h2⟩, h3⟩, h4⟩ := h
  refine ⟨?_, h2, h3, h4⟩
  cases hl : s.host.accepted with
  | nil => simp [hl] at h1
  | cons a l => rw [hl] at h1; simp at h1; exact ⟨l, by rw [h1]⟩

/-- The state once a priority command is out of its buffer, if it is the one that is taken next. -/
def prioThen (c : HostCmd) (op : Nat) (s : State) : Option State :=
  match nextFrame op s with
  | some (d, u) =>
    let n := serial c.seq (rdReg 14 0 0x11C (headerAck c u)).toNat
    if d = c ∧ c.op = op ∧ c.session = (rdReg 14 0 0x110 (headerAck c u)).toNat ∧ n ≠ 0 ∧ n < 2 ^ 31 ∧ c.reserved = false ∧ served op (headerAck c u) = true
    then some (wrReg 14 0 0x11C (BitVec.ofNat 32 c.seq) (headerAck c u)) else none
  | none => none

theorem prioNext_of_prioThen {c : HostCmd} {op : Nat} {s t : State} (h : prioThen c op s = some t) : prioNext c op s t := by
  unfold prioThen at h
  split at h
  · rename_i d u hn
    simp only at h
    split at h
    · rename_i hc
      obtain ⟨rfl, h2, h3, h4, h5, h6, h7⟩ := hc
      exact ⟨u, hn, h2, h3, h4, h5, h6, h7, by simpa using h.symm⟩
    · simp at h
  · simp at h

def frameIn : HostFrame :=
  { fcsOk := true, dst := portMac 1 State.reset, src := 9, tag := none, sec := none, ethertype := 0x88B5, arp := none, ip := none, len := 64, pdu := leBytes 46 0 }
def sync1 : HostCmd := hostCmd 1 (leBytes 8 0)

theorem met_HostPortCommands :
    (let s := hostOn id State.reset
     hostUp 1 s = true ∧ blockEnabled 14 1 s = true ∧ frameIn.fcsOk = true ∧ frameIn.len ≤ rdField 14 0 0x108 13 0 s ∧ frameForMe 1 frameIn s = true
      ∧ (macsecPass 1 frameIn s).1 = true ∧ s.sec.phase ≠ 2)
    ∧ (rdField 14 1 0x40 2 0 State.reset < 2 ∧ rdField 14 1 0x44 1 0 State.reset = 0 ∧ rdField 14 1 0x44 1 0 (wrReg 14 1 0x44 3 State.reset) = 3)
    ∧ (nextFrame 1 (hostOn (fun h => { h with data := [sync1] }) State.reset)).isSome = true
    ∧ (sync1.reserved = false ∧ byteAt sync1.payload 0 = 0 ∧ (sync1.payload.drop 1).any (fun b => b != 0) = false
        ∧ (qDesc 0 { headerAck sync1 State.reset with host := { (headerAck sync1 State.reset).host with
            peers := Tbl.put (headerAck sync1 State.reset).host.peers sync1.port sync1.src } }).enabled = false)
    ∧ (let s := hostOn (fun h => { h with dlv := Tbl.put [] (2 ^ 20 - 1) ⟨0, 1, 0⟩, peers := Tbl.put [] 1 sync1.src }) State.reset
       Tbl.find? s.host.dlv (2 ^ 20 - 1) = some ⟨0, 1, 0⟩ ∧ s.host.peers ≠ [])
    ∧ regAt .host true 14 0 0x120 State.reset = (0, State.reset) := by decide +kernel

/-- Queue 5 of the host, one record of number 0 in it. -/
def hostQ : State := withRecord 5 1 (List.replicate 16 1) trained
def cQack : HostCmd := hostCmd 0x2 (leBytes 4 5 ++ leBytes 4 0xFFFFFFFF)
def cRegRead : HostCmd := hostCmd 0x10 (leBytes 6 (regAddr 0 0 0) ++ leBytes 2 255 ++ leBytes 2 2)
def cRegWrite : HostCmd := hostCmd 0x11 (leBytes 6 (regAddr 10 0 0x70) ++ leBytes 2 255 ++ leBytes 2 1 ++ leBytes 4 4095)
def cMemRead : HostCmd := hostCmd 0x20 (leBytes 8 (255 * 2 ^ 48 + 0x2000) ++ leBytes 4 257)
def cMemWrite : HostCmd := hostCmd 0x21 (leBytes 8 (255 * 2 ^ 48 + 0x20FF) ++ leBytes 4 2 ++ leBytes 2 0xABCD)
def cPush : HostCmd := hostCmd 0x30 (leBytes 4 5 ++ leBytes 1 127 ++ leBytes 3 0 ++ leBytes 4 1)

theorem met_HostDataCommands_access :
    (let s := withCmd cQack hostQ
     nextIs cQack 0x2 s = true ∧ 8 ≤ cQack.payload.length ∧ leField cQack.payload 0 4 < 2 ^ 20
      ∧ (ackQueue (leField cQack.payload 0 4) (leField cQack.payload 4 4) s).isSome = true)
    ∧ (let s := withCmd cRegRead State.reset
       nextIs cRegRead 0x10 s = true ∧ regHeadOk cRegRead.payload = true ∧ hostLocal (leField cRegRead.payload 0 8) s = true
        ∧ (readWordsAt .host 2 (leField cRegRead.payload 0 8 % 2 ^ 48) { s with host := { s.host with regPort := 1 } }).1 = 0)
    ∧ (let s := withCmd cRegWrite State.reset
       nextIs cRegWrite 0x11 s = true ∧ regHeadOk cRegWrite.payload = true ∧ 10 + 4 * leField cRegWrite.payload 8 2 ≤ cRegWrite.payload.length
        ∧ hostLocal (leField cRegWrite.payload 0 8) s = true
        ∧ (writeWordsAt .host (wordsOf (cRegWrite.payload.drop 10) 1) (leField cRegWrite.payload 0 8 % 2 ^ 48) 0 { s with host := { s.host with regPort := 1 } }).1 = 0)
    ∧ (let s := withCmd cMemRead trained
       nextIs cMemRead 0x20 s = true ∧ 12 ≤ cMemRead.payload.length ∧ byteAt cMemRead.payload 7 = 0 ∧ 257 + 64 ≤ rdField 14 0 0x108 13 0 s
        ∧ hostLocal (leField cMemRead.payload 0 8) s = true ∧ touchesRegs 0x2000 257 = false ∧ (hostRead 1 (pieces 0x2000 257) s).1 = ⟨0, 0⟩)
    ∧ (let s := withCmd cMemWrite trained
       nextIs cMemWrite 0x21 s = true ∧ 12 + 2 ≤ cMemWrite.payload.length ∧ byteAt cMemWrite.payload 7 = 0 ∧ hostLocal (leField cMemWrite.payload 0 8) s = true
        ∧ touchesRegs 0x20FF 2 = false ∧ (hostWrite 1 ((cMemWrite.payload.drop 12).take 2) (pieces 0x20FF 2) 0 s).1.1 = ⟨0, 0⟩)
    ∧ (let s := withCmd cPush hostQ
       nextIs cPush 0x30 s = true ∧ 8 ≤ cPush.payload.length ∧ leField cPush.payload 0 4 < 2 ^ 20 ∧ byteAt cPush.payload 4 < 128 ∧ leField cPush.payload 5 3 = 0
        ∧ memUp s = true) := by decide +kernel

def managed : State := wrReg 0 0 0x40 0x300 State.reset
def cGroup : HostCmd := hostCmd 0x40 (leBytes 2 511 ++ leBytes 1 1 ++ leBytes 1 0 ++ leBytes 4 0 ++ leBytes 2 0 ++ leBytes 2 1)
def cSlots : HostCmd := hostCmd 0x41 (leBytes 1 0 ++ leBytes 1 5 ++ leBytes 1 15 ++ leBytes 13 0)
def cKey : HostCmd := hostCmd 0x50 (leBytes 4 0x030303 ++ leBytes 40 0)

theorem met_HostDataCommands_setup :
    (let s := withCmd cGroup managed
     let devs := (byteAt cGroup.payload 3 :: (groupMembers cGroup.payload).map (fun e => e.1)).eraseDups
     nextIs cGroup 0x40 s = true ∧ isManager s = true ∧ 8 ≤ cGroup.payload.length ∧ groupOk cGroup.payload = true ∧ devs.contains (deviceId s) = true
      ∧ (takeGroup (cGroup.payload.take 4 ++ leBytes 2 (groupD cGroup.payload s) ++ cGroup.payload.drop 6) (groupD cGroup.payload s) s).isSome = true)
    ∧ (enumerated managed = true ∧ (takeGroup cGroup.payload (leField cGroup.payload 4 2) managed).isSome = true)
    ∧ (let s := withCmd cSlots managed
       nextIs cSlots 0x41 s = true ∧ isManager s = true ∧ detOk cSlots.payload = true
        ∧ reqOut (.host 1 5) ((List.range (cSlots.payload.length / 16)).foldl (fun acc k => putDet (.host 1 5) cSlots.payload k acc) s) = false)
    ∧ (let s := withCmd cKey State.reset
       nextIs cKey 0x50 s = true ∧ 44 ≤ cKey.payload.length ∧ byteAt cKey.payload 0 = 3 ∧ byteAt cKey.payload 1 = 3 ∧ byteAt cKey.payload 2 = 3
        ∧ byteAt cKey.payload 3 = 0) := by decide +kernel

def cStop : HostCmd := hostCmd 0xF0 (leBytes 1 0xFF ++ leBytes 3 1)
def cKill (n : Nat) : HostCmd := hostCmd 0xF1 (leBytes 1 n ++ leBytes 1 0 ++ leBytes 2 1)
def cHold (op : Nat) : HostCmd := hostCmd op (leBytes 1 3)
def withPrio (c : HostCmd) : State := wrReg 14 0 0x120 1 (hostOn (fun h => { h with prio := [c] }) { booted with jobs := [job1] })

theorem met_HostPriorityCommands :
    (let t := { withPrio cStop with host := { (withPrio cStop).host with prio := [] } }
     let u := raise (evStop 1 0xFF 9) (headerAck cStop t)
     nextStop (withPrio cStop) = some (cStop, t) ∧ 2 ≤ cStop.payload.length ∧ rdField 14 0 0x120 0 0 (headerAck cStop t) ≠ 0
      ∧ stopsMe 0xFF (natBit (byteAt cStop.payload 1) 0) u = true ∧ rdField 14 0 0x120 1 1 u = 0 ∧ cStop.reserved = false ∧ byteAt cStop.payload 1 < 2
      ∧ leField cStop.payload 2 2 = 0)
    ∧ ((prioThen (cKill 0xFF) 0xF1 (withPrio (cKill 0xFF))).isSome = true ∧ 2 ≤ (cKill 0xFF).payload.length ∧ byteAt (cKill 0xFF).payload 0 = 0xFF)
    ∧ ((prioThen (cKill 1) 0xF1 (withPrio (cKill 1))).isSome = true ∧ 2 + 2 * 1 ≤ (cKill 1).payload.length ∧ byteAt (cKill 1).payload 1 = 0)
    ∧ ((prioThen (cHold 0xF2) 0xF2 (withPrio (cHold 0xF2))).isSome = true ∧ byteAt (cHold 0xF2).payload 0 = 3)
    ∧ (prioThen (cHold 0xF3) 0xF3 (withPrio (cHold 0xF3))).isSome = true := by decide +kernel
def secOn (f : SecState → SecState) (s : State) : State := { s with sec := f { s.sec with phase := 1 } }
def withUpd (n : Nat) (c : HostCmd) (f : SecState → SecState) (s : State) : State := wrField 15 0 0x48 2 0 n (secOn f (withCmd c s))
/-- This device's address, in a command. -/
def addr8 (a : Nat) : List Byte := leBytes 8 (255 * 2 ^ 48 + a)
def cStage (target : Nat) : HostCmd := hostCmd 0x100 (leBytes 8 target ++ addr8 0x2000 ++ leBytes 4 64)
def stage1 (target : Nat) : StageRun := { target := target, src := 255 * 2 ^ 48 + 0x2000, len := 64, fail := false, prev := 2 }
/-- The inactive slot's header: SVN 5, live from version 0. -/
def flashHdr : Tbl Byte := [(0x1840008, 5), (0x184000C, 0), (0x184000D, 0), (0x184000E, 0), (0x184000F, 0)]
def trial0 : BootDesc := { seq := 7, active := 0, pending := 1, tries := 0, version := 3 }
/-- The descriptor with the authenticator that this device's settings key gives it. -/
def trialDesc : BootDesc := { trial0 with mac := hmac (settingsKey State.reset.sec) (descBytes trial0) }

theorem met_UpdateCommands_stage :
    (let s := withUpd 2 (cStage 0) id State.reset
     nextIs (cStage 0) 0x100 s = true ∧ 20 ≤ (cStage 0).payload.length ∧ byteAt (cStage 0).payload 0 ≤ 2 ∧ leField (cStage 0).payload 1 7 = 0 ∧ s.sec.stage = none
      ∧ updState s ≠ 3 ∧ updState s ≠ 4 ∧ armed 15 0 6 s = false)
    ∧ (let s := withUpd 4 (cStage 2) id State.reset
       nextIs (cStage 2) 0x100 s = true ∧ byteAt (cStage 2).payload 0 = 2 ∧ updState s ≠ 3)
    ∧ ([0, 2].all (fun k => (fetchMem (stage1 k).src (stage1 k).len { secOn (fun x => { x with stage := some (stage1 k) }) trained with sec := { (secOn id trained).sec with stage := none } }).1 == 0) = true)
    ∧ (stage1 2).fail = false := by decide +kernel

def cActivate : HostCmd := hostCmd 0x101 []
def cCommit : HostCmd := hostCmd 0x102 (leBytes 1 0)
def cAbort : HostCmd := hostCmd 0x103 []
def record1 : SetRec := { kind := 1, auth := 0, seq := 1, body := .bytes [1], valid := true }

theorem leBytes_length (n v : Nat) : (leBytes n v).length = n := by
  induction n generalizing v with
  | zero => rfl
  | succ n ih => simp [leBytes, ih]

theorem beBytes_length (n v : Nat) : (beBytes n v).length = n := by simp [beBytes, leBytes_length]

theorem sha256_length (m : List Byte) : (sha256 m).length = 32 := by
  simp only [sha256, List.flatMap_cons, List.flatMap_nil, List.length_append, List.length_nil, beBytes_length]

theorem hmac_ne_nil (k m : List Byte) : (hmac k m).isEmpty = false := by
  cases h : hmac k m with
  | nil =>
    have e : (hmac k m).length = 32 := by unfold hmac; exact sha256_length _
    rw [h] at e
    simp at e
  | cons a l => rfl

/-- A trial image running, under a descriptor that is authentic and whose other copy has never been written. -/
def onTrial : State := withUpd 4 cCommit (fun x => { x with slot := 1, desc0 := trialDesc }) State.reset

theorem onTrial_valid : descValid onTrial trialDesc = true := by
  have e : trialDesc.mac = hmac (settingsKey State.reset.sec) (descBytes trial0) := rfl
  have hs : onTrial.sec.secret = State.reset.sec.secret := rfl
  have hd : descBytes trialDesc = descBytes trial0 := rfl
  have hk : settingsKey onTrial.sec = settingsKey State.reset.sec := by unfold settingsKey; rw [hs]
  unfold descValid
  rw [e, hmac_ne_nil, hk, hd]
  simp only [Bool.not_false, beq_self_eq_true, Bool.and_self]

theorem onTrial_descriptor : descriptor onTrial = trialDesc := by
  have h0 : onTrial.sec.desc0 = trialDesc := rfl
  have hm : onTrial.sec.desc1.mac = [] := rfl
  have h1 : descValid onTrial onTrial.sec.desc1 = false := by
    unfold descValid
    rw [hm]
    simp only [List.isEmpty_nil, Bool.not_true, Bool.false_and]
  simp only [descriptor, h0, onTrial_valid, h1, Bool.not_false, Bool.true_or, Bool.and_self, if_true]

theorem updState_sec (x : SecState) (s : State) : updState { s with sec := x } = updState s := rfl

theorem updState_written (d : BootDesc) (s : State) (h : armed 15 2 5 s = false) : updState (writeDescriptor d s) = updState s := by
  have hp : ∀ off, programRetry off s = s := by intro off; simp only [programRetry, h, Bool.false_eq_true, if_false]
  unfold writeDescriptor
  simp only [hp]
  split <;> rw [updState_sec]

theorem onTrial_written (d : BootDesc) : updState (writeDescriptor d onTrial) = 4 := by
  rw [updState_written d onTrial (by decide +kernel)]
  decide +kernel

theorem met_UpdateCommands_swap :
    (let s := withUpd 2 cActivate (fun x => { x with flash := flashHdr, main := 5, run := leBytes 4096 0 }) State.reset
     nextIs cActivate 0x101 s = true ∧ updState s = 2 ∧ s.sec.main ≤ imgSvn (flashBytes (slotBase (inactiveSlot s)) 4096 s)
      ∧ liveOk s.sec.run (flashBytes (slotBase (inactiveSlot s)) 4096 s) = true)
    ∧ (let s := secOn (fun x => { x with swaps := [1, 2, 3, 4] }) State.reset
       [1, 2, 3, 4].all (fun id => s.sec.swaps.contains id && swapPoint id s) = true)
    ∧ (nextIs cCommit 0x102 onTrial = true ∧ 1 ≤ cCommit.payload.length ∧ byteAt cCommit.payload 0 = 0 ∧ updState onTrial = 4 ∧ trialDesc.pending < 2
        ∧ onTrial.sec.slot = trialDesc.pending)
    ∧ (nextIs cAbort 0x103 (withUpd 2 cAbort id State.reset) = true ∧ updState (withUpd 2 cAbort id State.reset) = 2)
    ∧ (nextIs cAbort 0x103 (withUpd 4 cAbort id State.reset) = true ∧ updState (withUpd 4 cAbort id State.reset) = 4)
    ∧ (let s := { State.reset with settings := { State.reset.settings with waiting := [record1] } }
       s.settings.waiting = record1 :: [] ∧ s.settings.compacting = false ∧ record1.size ≤ settingsFree s ∧ armed 15 2 5 s = false)
    ∧ ({ State.reset with settings := { State.reset.settings with compacting := true } } : State).settings.compacting = true := by decide +kernel

def cAttest : HostCmd := hostCmd 0x110 (leBytes 32 1 ++ addr8 0x2000)
def cChallenge : HostCmd := hostCmd 0x111 []
def cUnlock : HostCmd := hostCmd 0x112 (addr8 0x2000 ++ leBytes 4 64)
def cProvision : HostCmd := hostCmd 0x113 (leBytes 64 1)
def tokenB : List Byte := leBytes 4 0x4B434E55 ++ leBytes 4 1 ++ leBytes 7 (dieId State.reset) ++ leBytes 1 0 ++ leBytes 32 77 ++ leBytes 16 3
def withTok (n : Nat) : State := wrField 15 1 0x4C 7 0 n (withUpd 0 cAttest id trained)

theorem met_SecurityCommands_attest :
    (let s := withTok 239
     nextIs cAttest 0x110 s = true ∧ 40 ≤ cAttest.payload.length ∧ s.sec.fuses < 1024 ∧ attestTokens s = 239 ∧ s.sec.bottom < 32768
      ∧ hostLocal (leField cAttest.payload 32 8) s = true ∧ regionOf s (leField cAttest.payload 32 8 % 2 ^ 48) 5380 = .lpddr)
    ∧ (secOn (fun x => { x with treeGen := true }) State.reset).sec.treeGen = true
    ∧ attestTokens (withTok 239) < 240
    ∧ nextIs cChallenge 0x111 (withUpd 0 cChallenge id State.reset) = true := by decide +kernel

/-- Whether memory takes a write does not depend on the bytes. -/
theorem lpddrWrite_status (a : Nat) (l m : List Byte) (job : Nat) (s : State) (h : l.length = m.length) : (lpddrWrite a l job s).1 = (lpddrWrite a m job s).1 := by
  simp only [lpddrWrite, h]
  split
  · rfl
  · split <;> rfl

theorem attestRecord_length (nonce : List Byte) (bottom : Nat) (s : State) : (attestRecord nonce bottom s).length = 5380 := by
  simp only [attestRecord, attestHead, List.length_append, List.length_take, List.length_replicate, leBytes_length, sha256_length]
  omega

/-- The state in which the record of cAttest is written. -/
def attesting : State :=
  let t := reserveIndex (wrField 15 1 0x4C 7 0 238 (withTok 239))
  { t with sec := { t.sec with bottom := t.sec.bottom + 1 } }

theorem met_SecurityCommands_attest_write :
    (access 15 1 0 .scribe .write 0x2000 5380 (attestRecord (cAttest.payload.take 32) (withTok 239).sec.bottom (reserveIndex (wrField 15 1 0x4C 7 0 238 (withTok 239))))
      attesting).1 = ⟨0, 0⟩ := by
  have hr : regionOf attesting 0x2000 5380 = .lpddr := by decide +kernel
  have hw : (lpddrWrite 0x2000 (List.replicate 5380 0) (whoJob .scribe) attesting).1 = 0 := by decide +kernel
  simp only [access, hr]
  rw [lpddrWrite_status _ _ (List.replicate 5380 0) _ _ (by rw [attestRecord_length, List.length_replicate]), hw]

theorem met_SecurityCommands_unlock :
    (let s := wrBytes 0x2000 tokenB (withUpd 0 cUnlock (fun x => { x with nonce := some (leBytes 32 77, 1) }) trained)
     let t := (fetchMem (leField cUnlock.payload 0 8) 64 s).2
     let b := rdBytes t 0x2000 64
     nextIs cUnlock 0x112 s = true ∧ 12 ≤ cUnlock.payload.length ∧ 64 ≤ leField cUnlock.payload 8 4 ∧ leField cUnlock.payload 0 8 % 2 ^ 48 = 0x2000
      ∧ (fetchMem (leField cUnlock.payload 0 8) 64 s).1 = 0 ∧ t.sn.safeOut = false ∧ nonceOk ((b.drop 16).take 32) t = true ∧ leField b 8 7 = dieId t
      ∧ (issuerKey (byteAt b 4) { t with sec := { t.sec with nonce := none } }).isSome = true ∧ leField b 0 4 = 0x4B434E55)
    ∧ (debugOpen (wrReg 15 3 0x40 1 State.reset) = true ∧ regAt .host true 15 3 0x44 (wrReg 15 3 0x40 1 State.reset) = (0, wrReg 15 3 0x40 1 State.reset))
    ∧ (let s := withUpd 0 cProvision id State.reset
       nextIs cProvision 0x113 s = true ∧ 64 ≤ cProvision.payload.length ∧ s.sec.owners = [] ∧ s.sn.safeOut = false) := by decide +kernel

theorem met_ResetAndBootCommands :
    (secOn id State.reset).sec.phase = 1 ∧ ({ State.reset with sec := { State.reset.sec with phase := 3 } } : State).sec.phase = 3
    ∧ railTrips 4 1619 State.reset = true ∧ railTrips 8 1981 State.reset = true ∧ State.reset.sec.hold = 0
    ∧ (secOn (fun x => { x with hold := 3 }) State.reset).sec.hold = 3
    ∧ (State.reset.sec.phase = 0 ∧ natBit (rdReg 0 0 0x48 State.reset).toNat 1 = false ∧ 2 ≤ (descriptor State.reset).pending) := by decide +kernel
/-- A write by the host with a memory write at the front of the queue, and a checker that has given permission. -/
def aWrite : State := { withCmd cMemWrite State.reset with pending := [.memWrite] }
def armedUp : State := { snUp with sn := { snUp.sn with safeOut := true } }

theorem met_StepKeepsCanonicalForms : memInv aWrite ∧ aWrite.pending = [.memWrite] ∧ ∃ t, step aWrite = .next t :=
  ⟨by unfold memInv; decide +kernel, rfl, ⟨_, rfl⟩⟩
theorem met_StepKeepsSafeOutLegal : armedInv armedUp ∧ armedUp.sn.safeOut = true ∧ ∃ t, step { armedUp with pending := [.overpower] } = .next t :=
  ⟨by unfold armedInv; decide +kernel, by decide +kernel, ⟨_, rfl⟩⟩
theorem met_StepKeepsOneTimeMemory : ∃ t, step { withUpd 0 cProvision id State.reset with pending := [.provision] } = .next t := ⟨_, rfl⟩
theorem met_StepKeepsQueueClockAndNumbers : State.reset.ev.next ≠ 0 ∧ ∃ t, step { State.reset with pending := [.overpower] } = .next t :=
  ⟨by decide +kernel, ⟨_, rfl⟩⟩
theorem met_CommandsStayInFootprint : ∃ t, exec .overpower State.reset = .next t := ⟨_, rfl⟩

theorem met_NanConversion :
    (List.range 8).all (fun f => match fpFmt f with
      | some F => if f < 5 then (List.range 256).any (fun k => F.value (2 ^ F.width - 1 - k) == .nan) else true
      | none => true) = true := by decide +kernel
theorem met_FloatEncodingsRoundTrip :
    (List.range 8).all (fun f => match fpFmt f with | some F => F.value 1 != .nan && F.value (2 ^ (F.width - 1)) != .nan && decide (2 ^ (F.width - 1) < 2 ^ F.width)
                                                    | none => true) = true
    ∧ (fpFmt 0).isSome = true := by decide +kernel
theorem met_ArmingClearsHistory : snUp.sn.safeOut = false ∧ (wrSnArm 0x0A4D0001 snUp).sn.safeOut = true := by decide +kernel

def badId : List Byte := leBytes 2 0xFFFF ++ desc1.drop 2
theorem met_ReservedJobIdRefused :
    let s := withRecord 9 3 badId (withQueue 5 (queueOf 1) booted)
    (qDesc 9 s).enabled = true ∧ (qDesc 9 s).consumer = 3 ∧ blockEnabled 15 0 s = true ∧ memUp s = true ∧ (engineTake 9 s).map (fun x => x.1) = some badId
    ∧ badId.length = 128 ∧ leField badId 0 2 = 0xFFFF ∧ complReady (JobDesc.read badId).complQ s = true := by decide +kernel

def fineOff : State := setDomain 111 false State.reset
theorem met_UnpoweredBlockAnswers :
    pageExists 9 0 = true ∧ blockPowered 9 0 fineOff = false
    ∧ (List.all [0, 4, 8, 0xC, 0xFFC] (fun off => regAllowed .host false 9 0 off fineOff) = true) ∧ regAllowed .host true 9 0 0 fineOff = true := by decide +kernel
theorem met_DeviceIdsAndCoordinates : torusSizes (ringUp id) = (8, 8, 4) := by decide +kernel
theorem met_PartialSumWord : -(2 ^ 95 : Int) ≤ ({ Acc.zero with value := -(2 ^ 95) } : Acc).value ∧ ({ Acc.zero with value := 2 ^ 95 - 1 } : Acc).value < 2 ^ 95 := by decide +kernel
theorem met_ExactSumsBoundedAndOrderFree :
    [((2 : Int) ^ 71, 7, true)].length ≤ 2 ^ 24 - 1 ∧ (-(2 ^ 71 - 1 : Int)).natAbs ≤ 2 ^ 71 - 1 ∧ [(1 : Int), 2].isPerm [2, 1] = true := by decide +kernel
theorem met_DescriptorsRoundTrip :
    (queueOf 7).consumer < 8 ∧ (queueOf 7).base < 2 ^ 48 ∧ (queueOf 7).recordSize < 2 ^ 24 ∧ ctx17.pt < 2 ^ 48 ∧ ctx17.len < 2 ^ 32
    ∧ ({ slot := 2 ^ 24 - 1, state := 3, kFmt := 15, vFmt := 15, refs := 65535 } : FolioDesc).slot < 2 ^ 24 := by decide +kernel
theorem met_RaisedEventsStayVisible :
    (let s := wrReg 13 0 0x14 0xFFFFFFFF (wrReg 13 0 0x10 1 State.reset)
     let e : Ev := { c := 13, i := 0, bit := 31, code := 0x0D01, payload := 0 }
     e.c < 16 ∧ e.i < 256 ∧ e.bit < 32 ∧ natBit (rdReg 13 0 0x10 s).toNat 0 = true ∧ e.safety = false ∧ natBit (rdReg 13 0 0x14 s).toNat 31 = true
      ∧ s.sn.safeOut = false) := by decide +kernel
theorem met_MainMemoryMapOneToOne : mcLoc 0x800 = mcLoc 0xFFF ∧ (0x37FFFFFFFF : Nat) < 0x3800000000 ∧ (0x3FFFFFFFFF : Nat) < 2 ^ 38 := by decide +kernel
/-- An encoding of a float format, converted (03, Example 2). -/
def conv (src bits dst : Nat) (ieee : Bool) : Nat × Nat := convertTo dst ieee (elemValue src bits)

/-- 03, Example 2: ties, exact values, saturation, a signalling NaN, an integer and the Q-format. -/
theorem test_conversions :
    conv 0 0x3F808000 1 false = (0x3F80, 0) ∧ conv 0 0x3F818000 1 false = (0x3F82, 0) ∧ conv 0 0x41500000 3 false = (0x55, 0) ∧ conv 0 0x41580000 3 false = (0x56, 0)
    ∧ conv 0 0x43FA0000 3 false = (0x7E, nsOverSat) ∧ conv 0 0x43FA0000 4 true = (0x60, 0) ∧ conv 3 0x55 1 false = (0x4150, 0)
    ∧ (conv 0 0x7FA00001 2 false).1 = 0x7E00 ∧ conv 0 0xBF400000 10 false = (0xFF, 0) ∧ toQ 30 (f32Val 0x3F400000) = (0x30000000, 0) := by decide +kernel

/-- An output element over two lists of positions with their codes. -/
def outOver (a b : List (Nat × Nat)) (fa fb : Nat → Int) (outl : List (Nat × Nat)) : OutSpec :=
  let sel := fun (l : List (Nat × Nat)) k => if l.any (fun e => e.1 == k) then Sel.elem k else .zero
  { flat := 0, flatIn := 0, void := fun _ => false, chan := 0, row := 0, col := 0, nib := 0, a := sel a, b := sel b, fa := fun k => some (fa k), fb := fun k => some (fb k), outl := outl, outA := true, macs := 0 }
def codeAt (l : List (Nat × Nat)) (k : Nat) : Nat := ((l.find? (fun e => e.1 == k)).map (fun e => e.2)).getD 0

/-- 03, Example 1: two groups, E4M3 by E2M1, one truncated; A96 is 0x38_5FFF_FFFD. -/
theorem test_exact_output :
    let a := [(0, 0x3C), (1, 0xB2), (2, 0x05), (32, 0x87)]
    let b := [(0, 5), (1, 3), (2, 0xE), (32, 2)]
    let r := exactOutput 3 7 0 0 32 64 (codeAt a) (codeAt b) false (outOver a b (fun k => if k < 32 then -2 else -26) (fun k => if k < 32 then 1 else -3) [])
    r.value = 242128781309 ∧ r.sat = false ∧ r.poison = false ∧ r.count = 2 ∧ accUnit 0 0 3 7 = -37 := by decide +kernel

/-- 04, Example 1: four groups and a BF16 outlier at column 77; A96 is 720 × 2^36 with 5 contributions, and rescales to code 0x39. -/
theorem test_outlier_and_rescale :
    let a := [(0, 0x7), (1, 0xD), (32, 0x8), (64, 0x5), (65, 0x2), (77, 0x9), (96, 0x1)]
    let b := [(0, 20), (1, 11), (32, 9), (64, 0xFA), (65, 50), (77, 13), (96, 3)]
    let fa : Nat → Int := fun k => if k < 32 then -1 else if k < 64 then -4 else if k < 96 then -3 else -5
    let r := exactOutput 11 10 (-1) (-4) 32 128 (codeAt a) (codeAt b) false (outOver a b fa (fun _ => -3) [(77, 0xC02E)])
    let d : Rescale := { fmt := 10, perChannel := false, bias := true, ieee := false, groupOut := false, group := 32, tagBase := 0, r := 70, biasShift := 36,
                         m := 1427848170, zero := 0, xOut := 0, chanAddr := 0, biasAddr := 0, scaleAddr := 0, scalePitch := 0, ok := true }
    r.value = 720 * 2 ^ 36 ∧ r.count = 5 ∧ rescaleOne d ⟨1427848170, 70, -37⟩ (-44) r = (0x39, 0) := by decide +kernel

/-- 04, Example 2: E2M1 with output scales; elements 5, −1.25, 0.3125, 0 and 0.6875, 0.1875; the block's bytes. -/
theorem test_grouped_output :
    let l : List GVal := [.fin false 5 0, .fin true 5 (-2), .fin false 5 (-4), .fin false 0 0] ++ List.replicate 28 (.fin false 0 0)
      ++ [.fin false 11 (-4), .fin false 3 (-4)] ++ List.replicate 478 (.fin false 0 0)
    let r := superBlock 7 false 32 0 5 l
    (r.1.take 4).map (fun e => e.1) = [6, 0xA, 1, 0] ∧ ((r.1.drop 32).take 2).map (fun e => e.1) = [7, 3]
      ∧ r.2 = [0xF9, 0x05, 0x47, 0x88, 0x88, 0x88, 0x88, 0x88, 0x88, 0x88, 0, 0, 0, 0, 0, 0] := by decide +kernel

/-- 06, Example 1: the Ductus tree over five chunks gives +0, and so do its two halves. -/
theorem test_ductus :
    ductusTree 3 [0x3F800000, 0x33800000, 0x33800000, 0, 0xBF800000] = (0, 0) ∧ ductusTree 2 [0x3F800000, 0x33800000, 0x33800000, 0] = (0x3F800000, 0)
    ∧ ductusTree 1 [0x3F800000, 0xBF800000] = (0, 0) := by decide +kernel

/-- 02, Example 2: a record of IW12 as it arrives in the event queue. -/
theorem test_event_record :
    (evUnmapped 1 0x0C 0x003800001000 2 0 3 0x42 3).bytes 0x1A2F 0x17E4A2C05D310800
      = [0x2F, 0x1A, 0, 0, 0x00, 0x08, 0x31, 0x5D, 0xC0, 0xA2, 0xE4, 0x17, 0x01, 0x70, 0x0C, 0x01, 0x42, 0, 3, 0, 0x00, 0x10, 0x00, 0x00, 0x38, 0x00, 0x02, 0x03, 0, 0, 0, 0]
      := by decide +kernel

/-- 11, Example 1: two reservations, the second behind a pad of 80 bytes; the pointers and the numbers. -/
theorem test_queue_wrap :
    let s := withQueue 5 { queueOf 1 with wr := 0x1F40, rd := 0x1F40, res := 0x1F40, packets := 0x411 } State.reset
    let t := reserve 5 0 1 0 (List.replicate 100 0) s
    let u := reserve 5 0 1 0 (List.replicate 120 0) t
    (qDesc 5 t).res = 0x1FB0 ∧ (qDesc 5 u).res = 0x80 ∧ (qDesc 5 u).wr = 0x1F40 ∧ rdLe u (0x10000 + 4016) 4 = 0x80000050
      ∧ u.qe.pkts.map (fun p => (p.num, p.pad)) = [(0x411, false), (0xFFFFFFFF, true), (0x412, false)] := by decide +kernel

/-- 13, Example 1: Kp 0.8 with shift 30 at e = 0.5 gives 26,214; 1.6 gives 52,429; the encodings of the law. -/
theorem test_proportional_term :
    lawDecode 0x18000A00 = some (.mac true 0 10) ∧ lawDecode 0x10000B00 = some (.mac false 0 11) ∧ lawDecode 0x20080000 = some (.store 1 0)
    ∧ ([(0x33333333, (26214 : Int)), (0x66666666, 52429)].all (fun e =>
        let s := trOn { slot1 0 with words := Tbl.set 0 [] 0 0x8000 } (.mac true 0 10) [{ trRun1 with coef := Tbl.set 0 [] 10 (e.1 + 30 * 2 ^ 32) }]
        (match exec (.mac true 0 10 .none) s with | .next t => t.tr.runs.head?.map (fun r => r.acc) == some e.2 | _ => false)) = true) := by decide +kernel

/-- 12, Example 1: the mean after samples of 2.1 ms. -/
theorem test_mean :
    let s := { State.reset with car := { CarState.init with streams := Tbl.set (stream 30 State.reset) [] 4 { stream 4 State.reset with mean := 2000000 } } }
    (stream 4 (teachMean 4 2100000 s)).mean = 2006250 ∧ (stream 4 (teachMean 4 2100000 (teachMean 4 2100000 s))).mean = 2012109 := by decide +kernel

/-- 15, Example 1: the judgment at 60 ms repeats seq 105, the third disagreement in the window of sixteen; SAFE_OUT drops and the last plausible value is held. -/
theorem test_third_disagreement :
    let cfg := leBytes 1 1 ++ leBytes 1 2 ++ leBytes 1 3 ++ leBytes 1 16 ++ leBytes 2 0xFFFF ++ leBytes 2 1 ++ leBytes 8 0
    let rule := leBytes 4 0xFFC00000 ++ leBytes 4 0x00400000 ++ leBytes 4 0x00020000 ++ leBytes 4 3
    let h : SnSlot := { last := Tbl.set 0 [] 0 0x00130000, has := 1, lastSeq := some 105, consec := 0, outcomes := [false, true, false, true, false, false] }
    let s0 := { armedUp with tr := { armedUp.tr with slots := Tbl.set {} [] 7 { cfg := leBytes 18 0 ++ leBytes 2 9 ++ leBytes 12 0 } } }
    let s := { s0 with sn := { s0.sn with slots := Tbl.set [] [] 7 cfg, rules := Tbl.set [] [] 56 rule, hist := Tbl.set {} [] 7 h } }
    let rec_ := leBytes 1 7 ++ leBytes 1 1 ++ leBytes 6 0 ++ leBytes 4 105 ++ leBytes 4 0 ++ leBytes 4 0x00134000 ++ leBytes 28 0
    let t := judge 7 1 0 rec_ s
    s.sn.safeOut = true ∧ t.sn.safeOut = false ∧ Tbl.get 0 (trSlot 7 t).sp 0 = 0x00130000 ∧ (snHist 7 t).lastSeq = some 105 := by decide +kernel

/-- 17, Example 1: the route from 0x07 to 0x1C in a 4 × 4 × 2 torus, and the way back. -/
theorem test_route :
    let s := wrReg 5 0 0x100 0x244 (wrReg 0 0 0x40 0x107 State.reset)
    (route s 7 0x1C).map (fun e => e.1) = [0x07, 0x04, 0x08, 0x0C] ∧ (route s 0x1C 7).map (fun e => e.1) = [0x1C, 0x1F, 0x13, 0x17] := by decide +kernel

/-- 19, Example 1: the die identity in Colophon bytes 12 to 18. -/
theorem test_die_id :
    dieId { State.reset with sec := { State.reset.sec with colophon := List.replicate 12 0 ++ [0x60, 0x48, 0x8A, 0xC3, 0xB2, 0xA1, 0x30] } } = 0x30A1B2C38A4860 := by
  decide +kernel

/-- 06, Example 2: D of a three-device group whose root lies 1 and 2 hops away is 540 ns. -/
theorem test_barrier_delay :
    groupD (leBytes 2 1 ++ leBytes 1 3 ++ leBytes 1 0 ++ leBytes 4 0 ++ [0, 1, 5].flatMap (fun d => leBytes 2 d ++ leBytes 2 1))
      (wrReg 5 0 0x100 0x244 (wrReg 0 0 0x40 0x100 State.reset)) = 540 := by decide +kernel

/-- On an empty queue a step is one mesh cycle (log entry 1); no row of the table gives bits. -/
theorem test_idle_and_words (n w : Nat) (s : State) :
    (∃ t, step State.reset = .next t ∧ State.reset.time.clk < t.time.clk) ∧ decodeTableWord n w = none ∧ s.withFetchWord n w = s :=
  ⟨⟨_, rfl, by decide +kernel⟩, rfl, rfl⟩
/-- FIPS 180-4: the hash of "abc". FIPS 197: the substitution of 0x53, and its inverse. -/
theorem test_hash_and_substitution :
    sha256 [0x61, 0x62, 0x63] = beBytes 32 0xBA7816BF8F01CFEA414140DE5DAE2223B00361A396177A9CB410FF61F20015AD
    ∧ aesSub 0x53 = 0xED ∧ aesUnsub 0xED = 0x53 := by decide +kernel

/-- 05, R131: e (0x402DF854) stands for exp 1 within 2 ulp, and three ulp off does not; 1/3 and tanh 1 likewise. -/
theorem test_two_ulp :
    let one := eltExact 8 false 1 0
    within2Ulp 0x402DF854 one = true ∧ within2Ulp 0x402DF856 one = true ∧ within2Ulp 0x402DF857 one = false
    ∧ within2Ulp 0x3EAAAAAB (eltExact 9 false 3 0) = true ∧ within2Ulp 0x3F42F7D6 (eltExact 11 false 1 0) = true := by decide +kernel

/-- 03, R71: a short final chunk ends in +0 products, so its negative zeros sum to +0; a full chunk of them gives −0. -/
theorem test_short_chunk :
    let z : FOp × FOp := ((.fin true 0 0, 0), (.fin false 1 0, 0))
    (floatReduce (List.replicate 127 z) none).1.1 = 0 ∧ (floatReduce (List.replicate 128 z) none).1.1 = 0x80000000 := by decide +kernel

end Sys2Proof.Tests
end

section
/-! The rows of the job lifecycle, each where it moves its job on (01 R17 to R22): one lemma per row and case, then the statement they make up. -/

namespace Sys2Proof.Machine

/-- A legal descriptor is taken from its queue and queued as a job: no refusal of `descVerdict` and no fence stands in its way (01 R17, 11 R266). -/
theorem execJobDescriptor_legal {q : Nat} {b : List Byte} {s s1 : State} (hen : (qDesc q s).enabled = true) (hcons : (qDesc q s).consumer = 3)
    (hmc : blockEnabled 15 0 s = true) (hmem : memUp s = true) (htake : engineTake q s = some (b, s1)) (hlen : b.length = 128)
    (hok : descVerdict b s = none) (hfence : fenced s = false) :
    execJobDescriptor q s
      = .next (let t := { s1 with arrivals := s1.arrivals + 1 }
               { t with jobs := t.jobs ++ [JobRec.make (JobDesc.read b) q t.arrivals (qDesc (JobDesc.read b).chainQ t).notices] }) := by
  have hread : ¬((qDesc q s).enabled = false ∨ (qDesc q s).consumer ≠ 3 ∨ blockEnabled 15 0 s = false ∨ memUp s = false) := by
    simp [hen, hcons, hmc, hmem]
  have hfull : ¬b.length ≠ 128 := not_not.mpr hlen
  simp only [execJobDescriptor, if_neg hread, htake, if_neg hfull, hok, hfence, Bool.false_eq_true, if_false]

/-- The head that 01 R19 picks is admitted, where neither condition 7 (its shares) nor 15 R355 (its safety entry) refuses it. -/
theorem execJobAdmit_picked {s : State} {j : JobRec} (hheld : admissionHeld s = false) (hst : s.qe.stFull = false) (hfence : fenced s = false)
    (hmc : blockEnabled 15 0 s = true) (hboot : bootReady s = true)
    (hpick : pickHead ((queueHeads s).filter
      (fun j => j.status == 0 && (!bindingsInShares j.d s || (safetyFault j.d s).isSome || available j.d s))) s = some j)
    (hshares : bindingsInShares j.d s = true) (hsafe : safetyFault j.d s = none) :
    execJobAdmit s = .next (admitJob j s) := by
  have hopen : ¬(admissionHeld s = true ∨ s.qe.stFull = true ∨ fenced s = true ∨ blockEnabled 15 0 s = false ∨ bootReady s = false) := by
    simp [hheld, hst, hfence, hmc, hboot]
  have hkeep : ¬bindingsInShares j.d s = false := by simp [hshares]
  simp only [execJobAdmit, if_neg hopen, hpick, if_neg hkeep, hsafe]

/-- A validated job whose chain condition is met starts with nothing more read or copied (05 R117, 06 R155). -/
theorem execJobRunStart_validated {id : Nat} {s : State} {j : JobRec} (hj : findJob id s = some j) (hphase : j.phase = .admitted)
    (hheld : admissionHeld s = false) (hval : j.validated = true) (hchain : chainMet j s = true) :
    execJobRunStart id s
      = .next (let t := if j.d.det then advanceToRing (rotationAfter (ringNow s)) s else s
               let u := j.quills.foldl (fun acc q => startQuill t.time.clk q
                 (setQuill q { quill q acc with pc := copiedEntry j q t } acc)) t
               markNow id (updJob id (fun k => { k with phase := .running, start := devNow t, unrec := natBit (rdReg 13 0 0x50 t).toNat 0 }) u)) := by
  have hgo : ¬(j.phase ≠ .admitted ∨ admissionHeld s = true) := by simp [hphase, hheld]
  have hkeep : ∀ p : Prop, ¬(j.validated = false ∧ p) := by simp [hval]
  have hmet : ¬chainMet j s = false := by simp [hchain]
  simp only [execJobRunStart, hj, if_neg hgo, if_neg (hkeep _), if_pos hval, if_neg hmet]

/-- A Quill that waits for its wave starts at that wave, with no wait left (06 R155). -/
theorem execWaveStart_waiting {q t : Nat} {s : State} (hwait : (quill q s).startAt = some t) :
    execWaveStart q s = .next (setQuill q { quill q (advanceTo t s) with startAt := none } (advanceTo t s)) := by
  simp only [execWaveStart, hwait]

/-- A fill of program units alone frees no Quill: its fold over the pending shares is empty (09 R219, R227). -/
theorem execZeroFillDone_units {n : Nat} {s : State} (hshares : (spad n s).pendShares = []) (hunits : (spad n s).pendUnits ≠ []) :
    execZeroFillDone n s
      = .next (let p := { fillErrors (spad n (fillLines n s)) with pendShares := [], pendUnits := [] }
               showArea n ((filledBadRows (spad n s)).foldl (fun acc r => spareRow n r acc)
                 (setSpad n { p with wins := p.wins.map (fun w => (w.1, if windowFreed n w.2 s then { w.2 with state := .free } else w.2)) }
                   (fillLines n s)))) := by
  have hpend : ¬((spad n s).pendShares.isEmpty && (spad n s).pendUnits.isEmpty) = true := by simp [hunits]
  simp only [execZeroFillDone, if_neg hpend]
  simp only [hshares, List.foldl_nil]

/-- A running job that has drained leaves its waits, windows, lines and Quills, and completes (01 R22, 11 R267). -/
theorem execJobDone_drained {id : Nat} {s : State} {j : JobRec} (hj : findJob id s = some j) (hroom : complReady j.d.complQ s = true)
    (hphase : j.phase = .running) (hdrained : jobDrained j s = true) (hpkts : jobPackets id s = false) (hfine : fineBusy id s = false)
    (hcmp : j.d.safety = true → j.compared = true) :
    execJobDone id s = .next (complete j (releaseQuills j (releaseLines j (closeWindows id (leaveWaits j s))))) := by
  have hcompared : (!j.d.safety || j.compared) = true := by
    cases hs : j.d.safety with
    | false => rfl
    | true => simp [hcmp hs]
  simp [execJobDone, hj, hroom, hphase, hdrained, hpkts, hfine, hcompared]

/-- A killed or failed job completes once the zero-fill has taken all its lines (01 R22, 09 R227). -/
theorem execJobDone_filled {id : Nat} {s : State} {j : JobRec} (hj : findJob id s = some j) (hroom : complReady j.d.complQ s = true)
    (hphase : j.phase = .scrubbing) (hfilled : linesFilled j s = true) (hpkts : jobPackets id s = false) (hfine : fineBusy id s = false) :
    execJobDone id s = .next (complete j (releaseQuills j s)) := by
  simp [execJobDone, hj, hroom, hphase, hfilled, hpkts, hfine]

/-- Settles O12, one clause per row of the job lifecycle; each row's command is its own function of the model, by the dispatch of `exec`. -/
theorem jobsMoveOn : Obligations.JobsMoveOn := by
  unfold Obligations.JobsMoveOn
  refine ⟨?descriptor, ?admission, ?runStart, ?wave, ?fill, ?drained, ?filled⟩
  case descriptor => exact fun _ _ _ _ => execJobDescriptor_legal
  case admission => exact fun _ _ => execJobAdmit_picked
  case runStart => exact fun _ _ _ => execJobRunStart_validated
  case wave => exact fun _ _ _ => execWaveStart_waiting
  case fill => exact fun _ _ => execZeroFillDone_units
  case drained => exact fun _ _ _ => execJobDone_drained
  case filled => exact fun _ _ _ => execJobDone_filled

end Sys2Proof.Machine
end

section
/-! SUPPORT. Every command keeps what Keeps names, within its footprint, and so does every step; the statements on what a step keeps (02 R28, R50; 19 R449). -/

namespace Sys2Proof.Machine

/-! The arms of the dispatch that the elaborator does not see through by itself where it looks for a command's own lemma. -/

theorem exec_jobDescriptor (q : Nat) (s : State) : exec (.jobDescriptor q) s = execJobDescriptor q s := rfl
theorem exec_qpop (q : Nat) (blocking : Bool) (statusSc dst queue : Nat) (s : State) :
    exec (.qpop q blocking statusSc dst queue) s = execQpop q blocking statusSc dst queue s := rfl
theorem exec_fnLayer (s : State) : exec .fnLayer s = execFnLayer s := rfl
theorem exec_jobTxRequest (can : Nat) (s : State) : exec (.jobTxRequest can) s = execJobTxRequest can s := rfl

/-- Every command, on every state, keeps what `Keeps` names and changes nothing outside its footprint: each by the lemma on its own function. -/
theorem exec_keeps (c : Instr) (s : State) : Kept (footprint c) s (exec c s) := by
  cases c with
  | jobDescriptor => rw [exec_jobDescriptor]; exact execJobDescriptor_keeps (Keeps.refl s)
  | jobAdmit => exact execJobAdmit_keeps (Keeps.refl s)
  | jobRunStart => exact execJobRunStart_keeps (Keeps.refl s)
  | waveStart => exact execWaveStart_keeps (Keeps.refl s)
  | jobDone => exact execJobDone_keeps (Keeps.refl s)
  | zeroFillDone => exact execZeroFillDone_keeps (Keeps.refl s)
  | nop => exact execNop_keeps (Keeps.refl s)
  | quillSet => exact execSet_keeps (Keeps.refl s)
  | alu => exact execAlu_keeps (Keeps.refl s)
  | loop => exact execLoop_keeps (Keeps.refl s)
  | branch => exact execBranch_keeps (Keeps.refl s)
  | top => exact execTop_keeps (Keeps.refl s)
  | waitTop => exact execWaitTop_keeps (Keeps.refl s)
  | semWait => exact execSemWait_keeps (Keeps.refl s)
  | semSignal => exact execSemSignal_keeps (Keeps.refl s)
  | barrier => exact execBarrier_keeps (Keeps.refl s)
  | localBarrierRelease => exact execLocalBarrierRelease_keeps (Keeps.refl s)
  | barrierReleaseTime => exact execBarrierReleaseTime_keeps (Keeps.refl s)
  | dma => exact execDma_keeps (Keeps.refl s)
  | dmaWait => exact execDmaWait_keeps (Keeps.refl s)
  | dmaComplete => exact execDmaComplete_keeps (Keeps.refl s)
  | atomic => exact execAtomic_keeps (Keeps.refl s)
  | qpush => exact execQpush_keeps (Keeps.refl s)
  | qpop => rw [exec_qpop]; exact execQpop_keeps (Keeps.refl s)
  | trap => exact execTrap_keeps (Keeps.refl s)
  | quillEnd => exact execEnd_keeps (Keeps.refl s)
  | semTimeout => exact execSemTimeout_keeps (Keeps.refl s)
  | matmul => exact execMatmul_keeps (Keeps.refl s)
  | conv => exact execConv_keeps (Keeps.refl s)
  | poolResize => exact execPoolResize_keeps (Keeps.refl s)
  | attentionFwd => exact execAttentionFwd_keeps (Keeps.refl s)
  | attentionBwd => exact execAttentionBwd_keeps (Keeps.refl s)
  | eltwise => exact execEltwise_keeps (Keeps.refl s)
  | reduce => exact execReduce_keeps (Keeps.refl s)
  | optStep => exact execOptStep_keeps (Keeps.refl s)
  | tensorOpDrain => exact execTensorOpDrain_keeps (Keeps.refl s)
  | nibRetire => exact execNibRetire_keeps (Keeps.refl s)
  | nibSpared => exact execNibSpared_keeps (Keeps.refl s)
  | registerWrite => exact execRegisterWrite_keeps (Keeps.refl s)
  | readClear => exact execReadClear_keeps (Keeps.refl s)
  | counterLoRead => exact execCounterLoRead_keeps (Keeps.refl s)
  | softReset => exact execSoftReset_keeps (Keeps.refl s)
  | softResetDone => exact execSoftResetDone_keeps (Keeps.refl s)
  | blockDisable => exact execBlockDisable_keeps (Keeps.refl s)
  | eventInject => exact execEventInject_keeps (Keeps.refl s)
  | injectAllowWrite => exact execInjectAllowWrite_keeps (Keeps.refl s)
  | eventsLost => exact execEventsLost_keeps (Keeps.refl s)
  | warmReset => exact execWarmReset_keeps (Keeps.refl s)
  | gptpSync => exact execGptpSync_keeps (Keeps.refl s)
  | gptpSyncTimeout => exact execGptpSyncTimeout_keeps (Keeps.refl s)
  | pdelayMeasure => exact execPdelayMeasure_keeps (Keeps.refl s)
  | spadRequest => exact execSpadRequest_keeps (Keeps.refl s)
  | windowExpiry => exact execWindowExpiry_keeps (Keeps.refl s)
  | windowOpen => exact execWindowOpen_keeps (Keeps.refl s)
  | windowClose => exact execWindowClose_keeps (Keeps.refl s)
  | bankPowerDown => exact execBankPowerDown_keeps (Keeps.refl s)
  | bankWake => exact execBankWake_keeps (Keeps.refl s)
  | bankDrained => exact execBankDrained_keeps (Keeps.refl s)
  | bankWakeDone => exact execBankWakeDone_keeps (Keeps.refl s)
  | holdFill => exact execHoldFill_keeps (Keeps.refl s)
  | scrubStep => exact execScrubStep_keeps (Keeps.refl s)
  | memorySlot => exact execMemorySlot_keeps (Keeps.refl s)
  | refresh => exact execRefresh_keeps (Keeps.refl s)
  | refreshRateChange => exact execRefreshRateChange_keeps (Keeps.refl s)
  | patrolScrub => exact execPatrolScrub_keeps (Keeps.refl s)
  | rowSpareForce => exact execRowSpareForce_keeps (Keeps.refl s)
  | rowSpareDone => exact execRowSpareDone_keeps (Keeps.refl s)
  | mcTrained => exact execMcTrained_keeps (Keeps.refl s)
  | eccFillDone => exact execEccFillDone_keeps (Keeps.refl s)
  | packetComplete => exact execPacketComplete_keeps (Keeps.refl s)
  | packetAbandon => exact execPacketAbandon_keeps (Keeps.refl s)
  | descriptorFetch => exact execDescriptorFetch_keeps (Keeps.refl s)
  | stagedRecordRelease => exact execStagedRecordRelease_keeps (Keeps.refl s)
  | queueConfigure => exact execQueueConfigure_keeps (Keeps.refl s)
  | queueEnable => exact execQueueEnable_keeps (Keeps.refl s)
  | queueDisable => exact execQueueDisable_keeps (Keeps.refl s)
  | queuePin => exact execQueuePin_keeps (Keeps.refl s)
  | queueUnpin => exact execQueueUnpin_keeps (Keeps.refl s)
  | rdptrWrite => exact execRdptrWrite_keeps (Keeps.refl s)
  | ctxOpen => exact execCtxOpen_keeps (Keeps.refl s)
  | ctxClose => exact execCtxClose_keeps (Keeps.refl s)
  | ctxFork => exact execCtxFork_keeps (Keeps.refl s)
  | append => exact execAppend_keeps (Keeps.refl s)
  | commit => exact execCommit_keeps (Keeps.refl s)
  | truncate => exact execTruncate_keeps (Keeps.refl s)
  | reinkBegin => exact execReinkBegin_keeps (Keeps.refl s)
  | reinkEnd => exact execReinkEnd_keeps (Keeps.refl s)
  | reinkAbort => exact execReinkAbort_keeps (Keeps.refl s)
  | ticketGrant => exact execTicketGrant_keeps (Keeps.refl s)
  | ticketReturn => exact execTicketReturn_keeps (Keeps.refl s)
  | limboReclaim => exact execLimboReclaim_keeps (Keeps.refl s)
  | ccEnable => exact execCcEnable_keeps (Keeps.refl s)
  | fnLayer => rw [exec_fnLayer]; exact execFnLayer_keeps (Keeps.refl s)
  | fnSourceStall => exact execFnSourceStall_keeps (Keeps.refl s)
  | fnLayerComplete => exact execFnLayerComplete_keeps (Keeps.refl s)
  | csiPacket => exact execCsiPacket_keeps (Keeps.refl s)
  | frameStart => exact execFrameStart_keeps (Keeps.refl s)
  | frameEnd => exact execFrameEnd_keeps (Keeps.refl s)
  | camLinkLost => exact execCamLinkLost_keeps (Keeps.refl s)
  | sourceRecord => exact execSourceRecord_keeps (Keeps.refl s)
  | sampleComplete => exact execSampleComplete_keeps (Keeps.refl s)
  | sampleLate => exact execSampleLate_keeps (Keeps.refl s)
  | batchWindowExpiry => exact execBatchWindowExpiry_keeps (Keeps.refl s)
  | streamConfigure => exact execStreamConfigure_keeps (Keeps.refl s)
  | streamStart => exact execStreamStart_keeps (Keeps.refl s)
  | streamStop => exact execStreamStop_keeps (Keeps.refl s)
  | meanReset => exact execMeanReset_keeps (Keeps.refl s)
  | groupConfigure => exact execGroupConfigure_keeps (Keeps.refl s)
  | groupStart => exact execGroupStart_keeps (Keeps.refl s)
  | groupStop => exact execGroupStop_keeps (Keeps.refl s)
  | slotTrigger => exact execSlotTrigger_keeps (Keeps.refl s)
  | lawDispatch => exact execLawDispatch_keeps (Keeps.refl s)
  | mac => exact execMac_keeps (Keeps.refl s)
  | lawStore => exact execLawStore_keeps (Keeps.refl s)
  | limit => exact execLimit_keeps (Keeps.refl s)
  | lawMove => exact execLawMove_keeps (Keeps.refl s)
  | lawOut => exact execLawOut_keeps (Keeps.refl s)
  | lawSend => exact execLawSend_keeps (Keeps.refl s)
  | skipif => exact execSkipif_keeps (Keeps.refl s)
  | lawEnd => exact execLawEnd_keeps (Keeps.refl s)
  | slotConfigure => exact execSlotConfigure_keeps (Keeps.refl s)
  | slotStart => exact execSlotStart_keeps (Keeps.refl s)
  | slotStop => exact execSlotStop_keeps (Keeps.refl s)
  | slotResume => exact execSlotResume_keeps (Keeps.refl s)
  | lawDataWrite => exact execLawDataWrite_keeps (Keeps.refl s)
  | coefWrite => exact execCoefWrite_keeps (Keeps.refl s)
  | bankSwap => exact execBankSwap_keeps (Keeps.refl s)
  | coefCopyDone => exact execCoefCopyDone_keeps (Keeps.refl s)
  | spCommit => exact execSpCommit_keeps (Keeps.refl s)
  | testGenerator => exact execTestGenerator_keeps (Keeps.refl s)
  | captureRead => exact execCaptureRead_keeps (Keeps.refl s)
  | encConfigure => exact execEncConfigure_keeps (Keeps.refl s)
  | encRevalidate => exact execEncRevalidate_keeps (Keeps.refl s)
  | encSample => exact execEncSample_keeps (Keeps.refl s)
  | dinConfigure => exact execDinConfigure_keeps (Keeps.refl s)
  | dinEdge => exact execDinEdge_keeps (Keeps.refl s)
  | dinStuck => exact execDinStuck_keeps (Keeps.refl s)
  | adcConfigure => exact execAdcConfigure_keeps (Keeps.refl s)
  | adcStart => exact execAdcStart_keeps (Keeps.refl s)
  | adcStop => exact execAdcStop_keeps (Keeps.refl s)
  | adcSequence => exact execAdcSequence_keeps (Keeps.refl s)
  | pwmConfigure => exact execPwmConfigure_keeps (Keeps.refl s)
  | pwmRelease => exact execPwmRelease_keeps (Keeps.refl s)
  | pwmPeriodStart => exact execPwmPeriodStart_keeps (Keeps.refl s)
  | stopNAssert => exact execStopNAssert_keeps (Keeps.refl s)
  | stopNRelease => exact execStopNRelease_keeps (Keeps.refl s)
  | canEntryConfigure => exact execCanEntryConfigure_keeps (Keeps.refl s)
  | tbRequest => exact execTbRequest_keeps (Keeps.refl s)
  | tbAbort => exact execTbAbort_keeps (Keeps.refl s)
  | busOffRecover => exact execBusOffRecover_keeps (Keeps.refl s)
  | trMapWrite => exact execTrMapWrite_keeps (Keeps.refl s)
  | jobTxRequest => rw [exec_jobTxRequest]; exact execJobTxRequest_keeps (Keeps.refl s)
  | canFrameReceived => exact execCanFrameReceived_keeps (Keeps.refl s)
  | canFrameTransmitted => exact execCanFrameTransmitted_keeps (Keeps.refl s)
  | canErrorFrame => exact execCanErrorFrame_keeps (Keeps.refl s)
  | canRecoveryDone => exact execCanRecoveryDone_keeps (Keeps.refl s)
  | canStopClear => exact execCanStopClear_keeps (Keeps.refl s)
  | armRequest => exact execArmRequest_keeps (Keeps.refl s)
  | snConfigure => exact execSnConfigure_keeps (Keeps.refl s)
  | setpointRecord => exact execSetpointRecord_keeps (Keeps.refl s)
  | twinHoldExpiry => exact execTwinHoldExpiry_keeps (Keeps.refl s)
  | frameRecord => exact execFrameRecord_keeps (Keeps.refl s)
  | outputComparison => exact execOutputComparison_keeps (Keeps.refl s)
  | cmpWindowExpiry => exact execCmpWindowExpiry_keeps (Keeps.refl s)
  | lockstepMismatch => exact execLockstepMismatch_keeps (Keeps.refl s)
  | checkerWatchdog => exact execCheckerWatchdog_keeps (Keeps.refl s)
  | channelDiscrepancy => exact execChannelDiscrepancy_keeps (Keeps.refl s)
  | overflowLogDrain => exact execOverflowLogDrain_keeps (Keeps.refl s)
  | logRead => exact execLogRead_keeps (Keeps.refl s)
  | selfTestSlice => exact execSelfTestSlice_keeps (Keeps.refl s)
  | sliceDone => exact execSliceDone_keeps (Keeps.refl s)
  | sliceAbort => exact execSliceAbort_keeps (Keeps.refl s)
  | selfTestLate => exact execSelfTestLate_keeps (Keeps.refl s)
  | grantPeriod => exact execGrantPeriod_keeps (Keeps.refl s)
  | voltageReached => exact execVoltageReached_keeps (Keeps.refl s)
  | railReading => exact execRailReading_keeps (Keeps.refl s)
  | railTimeout => exact execRailTimeout_keeps (Keeps.refl s)
  | reconWindow => exact execReconWindow_keeps (Keeps.refl s)
  | capWrite => exact execCapWrite_keeps (Keeps.refl s)
  | allowanceWrite => exact execAllowanceWrite_keeps (Keeps.refl s)
  | overpower => exact execOverpower_keeps (Keeps.refl s)
  | droopDetect => exact execDroopDetect_keeps (Keeps.refl s)
  | droopEnd => exact execDroopEnd_keeps (Keeps.refl s)
  | tempReading => exact execTempReading_keeps (Keeps.refl s)
  | thermalTrip => exact execThermalTrip_keeps (Keeps.refl s)
  | recoveryEnd => exact execRecoveryEnd_keeps (Keeps.refl s)
  | coolantLoss => exact execCoolantLoss_keeps (Keeps.refl s)
  | coolantRestart => exact execCoolantRestart_keeps (Keeps.refl s)
  | domainOn => exact execDomainOn_keeps (Keeps.refl s)
  | domainOffCmd => exact execDomainOffCmd_keeps (Keeps.refl s)
  | domainUsable => exact execDomainUsable_keeps (Keeps.refl s)
  | autoPowerDown => exact execAutoPowerDown_keeps (Keeps.refl s)
  | flitReceived => exact execFlitReceived_keeps (Keeps.refl s)
  | nakReceived => exact execNakReceived_keeps (Keeps.refl s)
  | linkRetrain => exact execLinkRetrain_keeps (Keeps.refl s)
  | retrainDone => exact execRetrainDone_keeps (Keeps.refl s)
  | linkDown => exact execLinkDown_keeps (Keeps.refl s)
  | linkUp => exact execLinkUp_keeps (Keeps.refl s)
  | laneSpared => exact execLaneSpared_keeps (Keeps.refl s)
  | laneSwapFlit => exact execLaneSwapFlit_keeps (Keeps.refl s)
  | spareShadowRotate => exact execSpareShadowRotate_keeps (Keeps.refl s)
  | creditReturn => exact execCreditReturn_keeps (Keeps.refl s)
  | timeSync => exact execTimeSync_keeps (Keeps.refl s)
  | ringTimeLost => exact execRingTimeLost_keeps (Keeps.refl s)
  | ringRead => exact execRingRead_keeps (Keeps.refl s)
  | ringWrite => exact execRingWrite_keeps (Keeps.refl s)
  | ringAtomic => exact execRingAtomic_keeps (Keeps.refl s)
  | readResponse => exact execReadResponse_keeps (Keeps.refl s)
  | writeResponse => exact execWriteResponse_keeps (Keeps.refl s)
  | ringSemSignal => exact execRingSemSignal_keeps (Keeps.refl s)
  | ringQueuePush => exact execRingQueuePush_keeps (Keeps.refl s)
  | barrierArrival => exact execBarrierArrival_keeps (Keeps.refl s)
  | barrierRelease => exact execBarrierRelease_keeps (Keeps.refl s)
  | ringRegAccess => exact execRingRegAccess_keeps (Keeps.refl s)
  | registerResponse => exact execRegisterResponse_keeps (Keeps.refl s)
  | ringReqTimeout => exact execRingReqTimeout_keeps (Keeps.refl s)
  | enumStart => exact execEnumStart_keeps (Keeps.refl s)
  | discover => exact execDiscover_keeps (Keeps.refl s)
  | discoverReply => exact execDiscoverReply_keeps (Keeps.refl s)
  | assign => exact execAssign_keeps (Keeps.refl s)
  | enumDone => exact execEnumDone_keeps (Keeps.refl s)
  | discoverRepeat => exact execDiscoverRepeat_keeps (Keeps.refl s)
  | enumWaitTimeout => exact execEnumWaitTimeout_keeps (Keeps.refl s)
  | routeUpdate => exact execRouteUpdate_keeps (Keeps.refl s)
  | fenceCmd => exact execFenceCmd_keeps (Keeps.refl s)
  | deviceFence => exact execDeviceFence_keeps (Keeps.refl s)
  | fenceNotice => exact execFenceNotice_keeps (Keeps.refl s)
  | linkRetrainCmd => exact execLinkRetrainCmd_keeps (Keeps.refl s)
  | linkModeWrite => exact execLinkModeWrite_keeps (Keeps.refl s)
  | linkTestDrop => exact execLinkTestDrop_keeps (Keeps.refl s)
  | linkTestCorrupt => exact execLinkTestCorrupt_keeps (Keeps.refl s)
  | linkTestReorder => exact execLinkTestReorder_keeps (Keeps.refl s)
  | hostFrame => exact execHostFrame_keeps (Keeps.refl s)
  | hostLinkUp => exact execHostLinkUp_keeps (Keeps.refl s)
  | hostLinkDown => exact execHostLinkDown_keeps (Keeps.refl s)
  | sync => exact execSync_keeps (Keeps.refl s)
  | qack => exact execQack_keeps (Keeps.refl s)
  | regRead => exact execRegRead_keeps (Keeps.refl s)
  | regWrite => exact execRegWrite_keeps (Keeps.refl s)
  | memRead => exact execMemRead_keeps (Keeps.refl s)
  | memWrite => exact execMemWrite_keeps (Keeps.refl s)
  | queuePush => exact execQueuePush_keeps (Keeps.refl s)
  | barrierGroup => exact execBarrierGroup_keeps (Keeps.refl s)
  | detSlots => exact execDetSlots_keeps (Keeps.refl s)
  | macsecKey => exact execMacsecKey_keeps (Keeps.refl s)
  | hostStop => exact execHostStop_keeps (Keeps.refl s)
  | kill => exact execKill_keeps (Keeps.refl s)
  | hostHold => exact execHostHold_keeps (Keeps.refl s)
  | hostRelease => exact execHostRelease_keeps (Keeps.refl s)
  | hostStopClear => exact execHostStopClear_keeps (Keeps.refl s)
  | deliveryResend => exact execDeliveryResend_keeps (Keeps.refl s)
  | updateStage => exact execUpdateStage_keeps (Keeps.refl s)
  | updateDone => exact execUpdateDone_keeps (Keeps.refl s)
  | updateActivate => exact execUpdateActivate_keeps (Keeps.refl s)
  | componentSwap => exact execComponentSwap_keeps (Keeps.refl s)
  | updateCommit => exact execUpdateCommit_keeps (Keeps.refl s)
  | updateAbort => exact execUpdateAbort_keeps (Keeps.refl s)
  | attest => exact execAttest_keeps (Keeps.refl s)
  | bottomTreeReady => exact execBottomTreeReady_keeps (Keeps.refl s)
  | debugChallenge => exact execDebugChallenge_keeps (Keeps.refl s)
  | debugUnlock => exact execDebugUnlock_keeps (Keeps.refl s)
  | debugLock => exact execDebugLock_keeps (Keeps.refl s)
  | debugExpiry => exact execDebugExpiry_keeps (Keeps.refl s)
  | provision => exact execProvision_keeps (Keeps.refl s)
  | settingsRecordAppend => exact execSettingsRecordAppend_keeps (Keeps.refl s)
  | settingsCompaction => exact execSettingsCompaction_keeps (Keeps.refl s)
  | powerOnReset => exact execPowerOnReset_keeps (Keeps.refl s)
  | resetPin => exact execResetPin_keeps (Keeps.refl s)
  | mgmtWatchdog => exact execMgmtWatchdog_keeps (Keeps.refl s)
  | railUndervoltage => exact execRailUndervoltage_keeps (Keeps.refl s)
  | refclkLoss => exact execRefclkLoss_keeps (Keeps.refl s)
  | refclkReturn => exact execRefclkReturn_keeps (Keeps.refl s)
  | boot => exact execBoot_keeps (Keeps.refl s)
  | canArbitration => exact execCanArbitration_keeps (Keeps.refl s)
  | arbitrationLost => exact execArbitrationLost_keeps (Keeps.refl s)
  | canRxError => exact execCanRxError_keeps (Keeps.refl s)
  | memorySampleCorrupt => exact execMemorySampleCorrupt_keeps (Keeps.refl s)
  | coolFlowRestored => exact execCoolFlowRestored_keeps (Keeps.refl s)
  | dinLevelStable => exact execDinLevelStable_keeps (Keeps.refl s)
  | dphyClockReturn => exact execDphyClockReturn_keeps (Keeps.refl s)
  | attestTokenRefill => exact execAttestTokenRefill_keeps (Keeps.refl s)
  | checkerReloadDone => exact execCheckerReloadDone_keeps (Keeps.refl s)

/-- One step: the front command runs on the queue's rest, or, with none waiting, one mesh cycle passes. -/
theorem step_next_cases {s t : State} (h : step s = .next t) :
    (s.pending = [] ∧ t = advance meshCycle s) ∨ ∃ c rest, s.pending = c :: rest ∧ exec c { s with pending := rest } = .next t := by
  unfold step at h
  split at h
  · exact .inl ⟨‹_›, (Host.Outcome.next.inj h).symm⟩
  · exact .inr ⟨_, _, ‹_›, h⟩

/-- What a step does to the queue is to take its front command; beyond that it keeps what `Keeps` names, within some footprint. -/
theorem step_keeps {s t : State} (h : step s = .next t) : ∃ F, Keeps F { s with pending := s.pending.tail } t := by
  rcases step_next_cases h with ⟨hp, rfl⟩ | ⟨c, rest, hp, hc⟩
  · have hs : { s with pending := s.pending.tail } = s := by rw [hp, List.tail_nil, ← hp]
    rw [hs]
    exact ⟨_, advance_keeps (Keeps.refl (F := { quills := true }) s)⟩
  · rw [hp, List.tail_cons]
    exact ⟨footprint c, exec_keeps c _ t hc⟩

/-- Settles O40, by the lemma that says what every step keeps. -/
theorem stepKeepsCanonicalForms : Obligations.StepKeepsCanonicalForms := by
  unfold Obligations.StepKeepsCanonicalForms
  intro s t ⟨hmem, hflash⟩ h
  obtain ⟨F, k⟩ := step_keeps h
  exact ⟨k.mem hmem, k.flash hflash⟩

/-- Settles O43, by the lemma that says what every step keeps. -/
theorem stepKeepsQueueClockAndNumbers : Obligations.StepKeepsQueueClockAndNumbers := by
  unfold Obligations.StepKeepsQueueClockAndNumbers
  intro s t h
  obtain ⟨F, k⟩ := step_keeps h
  exact ⟨k.queue, k.clock, k.number⟩

/-- Settles O45: the state after reset holds no memory byte off its default, SAFE_OUT deasserted, event number 1 and an empty queue. -/
theorem resetMeetsInvariants : Obligations.ResetMeetsInvariants := by
  unfold Obligations.ResetMeetsInvariants
  have hsafe : State.reset.sn.safeOut = false := rfl
  have harmed : armedInv State.reset := fun h => nomatch hsafe.symm.trans h
  exact ⟨⟨reset_mem_wf, reset_flash_wf⟩, harmed, hsafe, rfl, rfl⟩

end Sys2Proof.Machine
end

section
/-! SUPPORT. What memory reads as after a write of bytes and after a zero-fill, byte by byte (02 R28; the zero of an unlisted byte is the model's, log entry 5). -/

namespace Sys2Proof.Machine

/-- A byte after bytes are written from an address: the list's where it lies among them, else as before. -/
theorem get_memSetBytes (m : Tbl Byte) (a : Nat) (l : List Byte) (x : Nat) :
    Tbl.get 0 (memSetBytes m a l) x = if x < a then Tbl.get 0 m x else (l[x - a]?).getD (Tbl.get 0 m x) := by
  induction l generalizing m a with
  | nil => simp [memSetBytes]
  | cons b l ih =>
    rw [memSetBytes, ih, get_memSet]
    rcases Nat.lt_trichotomy x a with hlt | rfl | hgt
    · rw [if_pos (by omega), if_neg (by omega), if_pos hlt]
    · simp
    · obtain ⟨k, rfl⟩ : ∃ k, x = a + 1 + k := ⟨x - (a + 1), by omega⟩
      rw [if_neg (by omega), if_neg (by omega), if_neg (by omega), Nat.add_sub_cancel_left, show a + 1 + k - a = k + 1 by omega,
        List.getElem?_cons_succ]

/-- One byte of the state after bytes are written. -/
theorem rdByte_wrBytes (a : Nat) (l : List Byte) (s : State) (x : Nat) :
    rdByte (wrBytes a l s) x = if x < a then rdByte s x else (l[x - a]?).getD (rdByte s x) := get_memSetBytes s.mem a l x

/-- Reading where a list was written gives the list. -/
theorem rdBytes_wrBytes_same (a : Nat) (l : List Byte) (s : State) : rdBytes (wrBytes a l s) a l.length = l := by
  refine List.ext_getElem (by simp [rdBytes]) fun k _ hk => ?_
  simp [rdBytes, rdByte_wrBytes, hk]

/-- Outside the written bytes memory reads as before. -/
theorem rdByte_wrBytes_outside {a x : Nat} {l : List Byte} (s : State) (h : x < a ∨ a + l.length ≤ x) : rdByte (wrBytes a l s) x = rdByte s x := by
  rw [rdByte_wrBytes]
  rcases h with hlt | hge
  · rw [if_pos hlt]
  · rw [if_neg (by omega), List.getElem?_eq_none (by omega), Option.getD_none]

/-- A table without the entries that a test of the key turns away reads their keys as unlisted, and its other keys as before. -/
theorem get_filter_key {α : Type} (d : α) (t : Tbl α) (p : Nat → Bool) (x : Nat) :
    Tbl.get d (t.filter (fun e => p e.1)) x = if p x then Tbl.get d t x else d := by
  induction t with
  | nil => simp
  | cons e t ih =>
    obtain ⟨j, v⟩ := e
    by_cases hj : j = x
    · subst hj
      cases hp : p j <;> simp [Tbl.get, ih, hp]
    · cases hp : p j <;> simp [Tbl.get, ih, hp, hj]

/-- One byte after a zero-fill. -/
theorem rdByte_zeroBytes (a n : Nat) (s : State) (x : Nat) : rdByte (zeroBytes a n s) x = if a ≤ x ∧ x < a + n then 0 else rdByte s x := by
  have h := get_filter_key 0 s.mem (fun k => decide (k < a) || decide (a + n ≤ k)) x
  rw [rdByte, zeroBytes, h]
  by_cases hx : a ≤ x ∧ x < a + n
  · rw [if_neg (by simp; omega), if_pos hx]
  · rw [if_pos (by simp; omega), if_neg hx]; rfl

/-- Settles O53, byte by byte; that the rest of the state stays is how `wrBytes` and `zeroBytes` are defined. -/
theorem memoryBytesReadBack : Obligations.MemoryBytesReadBack := by
  unfold Obligations.MemoryBytesReadBack
  refine ⟨fun a l s => ⟨rdBytes_wrBytes_same a l s, fun x => rdByte_wrBytes_outside s, rfl⟩, fun a n s => ⟨rdByte_zeroBytes a n s, rfl⟩⟩

end Sys2Proof.Machine
end

section
/-! SUPPORT. What the raising of an event leaves whatever becomes of its record: every bit of every EVENT_RAW that was set, and the checker's history
(02 R45, R50, R51; 15 R339). -/

namespace Sys2Proof.Machine

/-- A bit of a word is the number's bit at its place. -/
theorem natBit_eq_testBit (n k : Nat) : natBit n k = n.testBit k := by
  rw [natBit, Nat.testBit_eq_decide_div_mod_eq]

/-- A bit of two words' OR. -/
theorem natBit_or (v w : Word) (k : Nat) : natBit (v ||| w).toNat k = (natBit v.toNat k || natBit w.toNat k) := by
  simp only [natBit_eq_testBit, BitVec.toNat_or, Nat.testBit_or]

/-- The number 0 has no bit. -/
theorem natBit_zero (k : Nat) : natBit 0 k = false := by simp [natBit]

/-- The word of one bit has that bit. -/
theorem natBit_oneBit {k : Nat} (h : k < 32) : natBit (BitVec.ofNat 32 (2 ^ k)).toNat k = true := by
  rw [BitVec.toNat_ofNat, Nat.mod_eq_of_lt (Nat.pow_lt_pow_right (by decide) h), natBit_eq_testBit, Nat.testBit_two_pow_self]

/-- From one state to a later one no EVENT_RAW bit has cleared and no slot's history has changed. -/
structure EventLeaves (s t : State) : Prop where
  raw : ∀ c i k, i < 256 → natBit (rdReg c i 0x10 s).toNat k = true → natBit (rdReg c i 0x10 t).toNat k = true
  hist : t.sn.hist = s.sn.hist

section
variable {z s t : State}

theorem EventLeaves.refl (s : State) : EventLeaves s s := ⟨fun _ _ _ _ h => h, rfl⟩

/-- A state with the same registers and history. -/
theorem EventLeaves.of (h : EventLeaves z s) (hr : t.regs = s.regs) (hh : t.sn.hist = s.sn.hist) : EventLeaves z t :=
  ⟨fun c i k hi hk => by have := h.raw c i k hi hk; simpa only [rdReg, hr] using this, hh.trans h.hist⟩

/-- Another register than EVENT_RAW is written. -/
theorem EventLeaves.wr {c i off : Nat} {v : Word} (h : EventLeaves z s) (hi : i < 256) (ho : off < 0x1000) (hraw : off ≠ 0x10) :
    EventLeaves z (wrReg c i off v s) := by
  refine ⟨fun c' i' k hi' hk => ?_, h.hist⟩
  have hkey : ¬pageKey c' i' + 0x10 = pageKey c i + off := fun e => hraw (pageKey_inj hi' (by decide) hi ho e).2.2.symm
  rw [rdReg_wrReg, if_neg hkey]
  exact h.raw c' i' k hi' hk

/-- Bits are set in an EVENT_RAW, read in a state that has no more of them set. -/
theorem EventLeaves.setRaw {c i : Nat} {m : Word} (h : EventLeaves z s) (ht : EventLeaves z t) :
    EventLeaves z (wrReg c i 0x10 (rdReg c i 0x10 s ||| m) t) := by
  refine ⟨fun c' i' k hi' hk => ?_, ht.hist⟩
  rw [rdReg_wrReg]
  split
  · next hkey =>
    have hsame : rdReg c i 0x10 s = rdReg c' i' 0x10 s := by simp only [rdReg, hkey]
    rw [natBit_or, hsame, h.raw c' i' k hi' hk, Bool.true_or]
  · exact ht.raw c' i' k hi' hk

theorem EventLeaves.bump {c i off n : Nat} (h : EventLeaves z s) (hi : i < 256) (ho : off < 0x1000) (hraw : off ≠ 0x10) :
    EventLeaves z (bump c i off n s) := h.wr hi ho hraw

/-! The operations that an event's record may pass through, in the order of the model. -/

theorem EventLeaves.wrBytes {a : Nat} {l : List Byte} (h : EventLeaves z s) : EventLeaves z (wrBytes a l s) := h.of rfl rfl

theorem EventLeaves.qEvict (h : EventLeaves z s) : EventLeaves z (qEvict s) := by
  unfold Machine.qEvict
  split
  · exact h
  · split
    · exact h
    · exact EventLeaves.wrBytes (h.of rfl rfl)

theorem EventLeaves.qFetch {q : Nat} (h : EventLeaves z s) : EventLeaves z (qFetch q s) := by
  unfold Machine.qFetch
  split
  · exact h
  · have hmiss : EventLeaves z (Machine.bump 6 0 0xA0 1 s) := h.bump (by decide) (by decide) (by decide)
    exact hmiss.qEvict.of rfl rfl

theorem EventLeaves.qPut {q : Nat} {d : QDesc} (h : EventLeaves z s) : EventLeaves z (qPut q d s) := h.qFetch.of rfl rfl

theorem EventLeaves.reserve {q rtype job dev : Nat} {l : List Byte} (h : EventLeaves z s) : EventLeaves z (reserve q rtype job dev l s) := by
  unfold Machine.reserve
  extract_lets +onlyGivenNames d M len pad ptr s1
  have h1 : EventLeaves z s1 := by
    unfold s1
    split
    · exact h
    · exact h.wrBytes
  clear_value s1
  extract_lets +onlyGivenNames s2 now padPkt pkt s3
  have h3 : EventLeaves z s3 := h1.wrBytes.qPut
  exact h3.of rfl rfl

theorem EventLeaves.takeSeqOf {b : List Byte} (h : EventLeaves z s) : EventLeaves z (takeSeqOf b s) := by
  have hseq : EventLeaves z (wrReg (byteAt b 15) (byteAt b 14) 0x1C s.ev.next s) := h.wr (byteAt_lt b 14) (by decide) (by decide)
  exact EventLeaves.wr (hseq.of rfl rfl) (by decide) (by decide) (by decide)

theorem EventLeaves.recToQueue {b : List Byte} (h : EventLeaves z s) : EventLeaves z (recToQueue b s) := h.takeSeqOf.reserve

theorem EventLeaves.countLost (h : EventLeaves z s) : EventLeaves z (countLost s) := by
  have hcount : EventLeaves z (Machine.bump 0 0 0x68 1 s) := h.bump (by decide) (by decide) (by decide)
  exact hcount.of rfl rfl

theorem EventLeaves.flushLost (h : EventLeaves z s) : EventLeaves z (flushLost s) := by
  unfold Machine.flushLost
  split
  · exact h
  · extract_lets +onlyGivenNames e x1
    extract_lets +onlyGivenNames s1
    have h1 : EventLeaves z s1 := h.setRaw (h.of rfl rfl)
    split
    · exact h1
    · exact h1.recToQueue

theorem EventLeaves.eventQueueFull (h : EventLeaves z s) : EventLeaves z (eventQueueFull s) := by
  unfold Machine.eventQueueFull
  extract_lets +onlyGivenNames q
  split
  · exact h
  · extract_lets +onlyGivenNames x1
    extract_lets +onlyGivenNames s1
    have h1 : EventLeaves z s1 := h.setRaw (h.of rfl rfl)
    split
    · exact h1
    · exact h1.countLost

theorem EventLeaves.ovfRecord {b : List Byte} (h : EventLeaves z s) : EventLeaves z (ovfRecord b s) := by
  unfold Machine.ovfRecord
  split
  · exact h.countLost
  · exact h.takeSeqOf.of rfl rfl

theorem EventLeaves.tripBits {bit slot : Nat} (h : EventLeaves z s) : EventLeaves z (tripBits bit slot s) :=
  EventLeaves.wr (h.of rfl rfl) (by decide) (by decide) (by decide)

theorem EventLeaves.ovfTrip (h : EventLeaves z s) : EventLeaves z (ovfTrip s) := by
  unfold Machine.ovfTrip
  split
  · exact (h.tripBits.setRaw h.tripBits).ovfRecord
  · exact h

theorem EventLeaves.placeEvent {safety : Bool} {b : List Byte} (h : EventLeaves z s) : EventLeaves z (placeEvent safety b s) := by
  unfold Machine.placeEvent
  extract_lets +onlyGivenNames d s1 d1
  split
  · split
    · exact h.ovfRecord.ovfTrip
    · exact h.countLost.eventQueueFull
  split
  · split
    · exact h.recToQueue
    · exact h.eventQueueFull.ovfRecord.ovfTrip
  · have h1 : EventLeaves z s1 := h.flushLost
    split
    · exact h1.recToQueue
    · exact h1.countLost.eventQueueFull

theorem EventLeaves.stagingTop (h : EventLeaves z s) : EventLeaves z (stagingTop s) := by
  unfold Machine.stagingTop
  split
  · exact h
  · extract_lets +onlyGivenNames x1
    extract_lets +onlyGivenNames s1
    have h1 : EventLeaves z s1 := h.setRaw (h.of rfl rfl)
    split
    · exact h1
    · exact h1.countLost

theorem EventLeaves.storeEvent {e : Ev} (h : EventLeaves z s) : EventLeaves z (storeEvent e s) := by
  unfold Machine.storeEvent
  extract_lets +onlyGivenNames q
  split
  · split
    · split
      · exact h.ovfRecord.ovfTrip
      · exact h.countLost
    · exact EventLeaves.stagingTop (h.of rfl rfl)
  · exact h.placeEvent

/-- What a raised event leaves, from the state in which its own EVENT_RAW bit has just been set. -/
theorem raise_after_rawBit (e : Ev) (s : State) : EventLeaves (rawBit e s) (raise e s) := by
  unfold raise
  split
  · exact .refl _
  · exact (EventLeaves.refl _).storeEvent

theorem EventLeaves.raise {e : Ev} (h : EventLeaves z s) : EventLeaves z (raise e s) := by
  have hraw : EventLeaves z (rawBit e s) := h.setRaw h
  have hrest := raise_after_rawBit e s
  exact ⟨fun c i k hi hk => hrest.raw c i k hi (hraw.raw c i k hi hk), hrest.hist.trans hraw.hist⟩

end

/-- An occurrence sets its bit of EVENT_RAW (02 R45). -/
theorem rawBit_sets {e : Ev} (s : State) (hbit : e.bit < 32) : natBit (rdReg e.c e.i 0x10 (rawBit e s)).toNat e.bit = true := by
  rw [rawBit, rdReg_wrReg, if_pos rfl, natBit_or, natBit_oneBit hbit, Bool.or_true]

/-- A masked source that is no safety event writes no record (02 R45). -/
theorem raise_masked {e : Ev} {s : State} (hs : e.safety = false) (hm : natBit (rdReg e.c e.i 0x14 s).toNat e.bit = true) : raise e s = rawBit e s :=
  if_pos (by simp [Ev.masked, hs, hm])

/-- Settles O57: the bit and the history by `EventLeaves`, the rest by the footprint of an event. -/
theorem raisedEventsStayVisible : Obligations.RaisedEventsStayVisible := by
  unfold Obligations.RaisedEventsStayVisible
  intro e s _ hi hbit
  have hleaves : EventLeaves s (raise e s) := (EventLeaves.refl s).raise
  have hwithin : Within Foot.event s (raise e s) := (raise_keeps (Keeps.refl s)).within
  exact ⟨(raise_after_rawBit e s).raw e.c e.i e.bit hi (rawBit_sets s hbit), fun c i k _ hi' => hleaves.raw c i k hi', raise_masked,
    hwithin.arms rfl, hleaves.hist, hwithin.jobs rfl, hwithin.quills rfl⟩

end Sys2Proof.Machine
end

section
/-! SUPPORT. Register accesses by address: the page an address names, and what a read or a write does once the access rules have spoken (02 R30, R36, R37). -/

namespace Sys2Proof.Machine

/-- The classes and instances of existing pages fit their fields of a register address (02 R30). -/
theorem pageExists_bounds {c i : Nat} (h : pageExists c i = true) : c < 16 ∧ i < 256 := by
  unfold pageExists classInstances at h
  split at h <;> simp at h <;> omega

/-- The address of a register leads back to its page and offset. -/
theorem regPage_regAddr {c i off : Nat} (hp : pageExists c i = true) (ho : off < 0x1000) : regPage (regAddr c i off) = some (c, i, off) := by
  obtain ⟨hc, hi⟩ := pageExists_bounds hp
  have hk : regAddr c i off - regBase = c * 0x100000 + i * 0x1000 + off := by simp only [regAddr, pageKey]; omega
  have hin : regBase ≤ regAddr c i off ∧ regAddr c i off < regBase + 0x1000000 := by simp only [regAddr, pageKey]; omega
  have hclass : (c * 0x100000 + i * 0x1000 + off) / 0x100000 = c := by omega
  have hinst : (c * 0x100000 + i * 0x1000 + off) / 0x1000 % 0x100 = i := by omega
  have hoff : (c * 0x100000 + i * 0x1000 + off) % 0x1000 = off := by omega
  simp only [regPage, if_pos hin, hk, hclass, hinst, hoff, hp, if_true]

/-- The access rules at an address are those of the page it lies in. -/
theorem regCheck_page {r : Req} {wr : Bool} {addr size c i off : Nat} {s : State} (h : regPage addr = some (c, i, off)) :
    regCheck r wr addr size s = regCheckAt r wr c i off size s := by
  simp only [regCheck, h]

/-- A read that passes the access rules answers the register's value and has its read effect (02 R37). -/
theorem readReg_ok {r : Req} {addr size c i off : Nat} {s : State} (h : regPage addr = some (c, i, off)) (hk : regCheck r false addr size s = (0, s)) :
    readReg r addr size s = (0, regValue r c i off s, regReadEffect r c i off s) := by
  simp only [readReg, hk, h, ne_eq, not_true_eq_false, if_false]

/-- A write that the access rules refuse does what the refusal does; the checker's command register is apart. -/
theorem writeReg_refused {r : Req} {addr size c i off k : Nat} {v : Word} {s t : State} (h : regPage addr = some (c, i, off)) (hsn : ¬(c = 12 ∧ off = 0x6C))
    (hk : regCheck r true addr size s = (k, t)) (hk0 : k ≠ 0) : writeReg r addr size v s = (k, t) := by
  unfold writeReg
  rw [h]
  split
  · next heq => cases heq; exact absurd ⟨rfl, rfl⟩ hsn
  · simp only [hk, ne_eq, hk0, not_false_eq_true, if_true]
  · next heq => cases heq

/-- A write that passes the access rules has the register's effect; the checker's command register is apart (02 R37). -/
theorem writeReg_ok {r : Req} {addr size c i off : Nat} {v : Word} {s : State} (h : regPage addr = some (c, i, off)) (hsn : ¬(c = 12 ∧ off = 0x6C))
    (hk : regCheck r true addr size s = (0, s)) : writeReg r addr size v s = regEffect r c i off v s := by
  unfold writeReg
  rw [h]
  split
  · next heq => cases heq; exact absurd ⟨rfl, rfl⟩ hsn
  · next heq => cases heq; simp only [hk, ne_eq, not_true_eq_false, if_false]
  · next heq => cases heq

/-- A word written to the checker's command register goes the checker's own way (15 R347, R492). -/
theorem writeReg_checkerCommand {r : Req} {addr i : Nat} {v : Word} {s : State} (h : regPage addr = some (12, i, 0x6C)) :
    writeReg r addr 4 v s = snCmdWrite r v s := by
  simp only [writeReg, h, if_true]

end Sys2Proof.Machine
end

section
/-! SUPPORT. A register page whose power domain is off: the three registers that answer, and the refusal of writes (02 R39). -/

namespace Sys2Proof.Machine

/-- A block that can lose its power lies in a switched domain; the checker's page is in the unswitched core (01 R24). -/
theorem unpowered_not_checker {c i : Nat} {s : State} (h : blockPowered c i s = false) : c ≠ 12 := by
  rintro rfl
  exact absurd h (by simp [blockPowered, blockDomain, domainOn])

/-- The 64-bit counters stand behind the common registers of a page (02 R40). -/
theorem le_of_mem_counterLos {c i k : Nat} (h : (counterLos c i).contains k = true) : 0x48 ≤ k := by
  rw [List.contains_iff_mem] at h
  unfold counterLos at h
  split at h <;> (try split at h) <;> simp at h <;> omega

/-- BLOCK_ID, BLOCK_CAPS and STATUS read as their live values, powered or not (02 R39). -/
theorem regValue_identity {r : Req} {c i off v : Nat} {s : State} (ho : off = 0 ∨ off = 4 ∨ off = 0xC) (hv : liveReg r c i off s = some v) :
    regValue r c i off s = BitVec.ofNat 32 v := by
  have hsmall : off < 0x48 := by omega
  have hpow : ¬(blockPowered c i s = false ∧ off ≠ 0 ∧ off ≠ 4 ∧ off ≠ 0xC) := by omega
  have hlo : ¬(counterLos c i).contains off = true := fun h => absurd (le_of_mem_counterLos h) (by omega)
  have hhi : ¬(4 ≤ off ∧ (counterLos c i).contains (off - 4) = true) := fun h => absurd (le_of_mem_counterLos h.2) (by omega)
  have hrow : ∃ row, regRow c i off = some row := by rcases ho with rfl | rfl | rfl <;> exact ⟨_, rfl⟩
  obtain ⟨row, hrow⟩ := hrow
  simp only [regValue, if_neg hpow, if_neg hlo, if_neg hhi, hrow, hv]

/-- Without power every other register of the page reads 0 (02 R39). -/
theorem regValue_unpowered {r : Req} {c i off : Nat} {s : State} (hp : blockPowered c i s = false) (h0 : off ≠ 0) (h4 : off ≠ 4) (hC : off ≠ 0xC) :
    regValue r c i off s = 0 := if_pos ⟨hp, h0, h4, hC⟩

/-- The block's own status stands above the eight common bits of STATUS. -/
theorem blockStatus_mod (c i : Nat) (s : State) : blockStatus c i s % 256 = 0 := by
  unfold blockStatus
  split <;> (try split) <;> omega

/-- STATUS.powered of a block without power (02 STATUS). -/
theorem statusReg_unpowered {c i : Nat} {s : State} (hp : blockPowered c i s = false) :
    natBit (BitVec.ofNat 32 (statusReg c i s)).toNat 2 = false := by
  have hb := blockStatus_mod c i s
  have hr : b2n (s.resetting.contains (pageKey c i / 0x1000)) ≤ 1 := by unfold b2n; split <;> omega
  have he : b2n (blockEnabled c i s) ≤ 1 := by unfold b2n; split <;> omega
  have hoff : b2n (blockPowered c i s) = 0 := by rw [hp]; rfl
  simp only [statusReg, hoff, BitVec.toNat_ofNat, natBit, decide_eq_false_iff_not]
  omega

/-- An allowed, aligned word read of a page passes the access rules, powered or not. -/
theorem regCheckAt_read {r : Req} {c i off : Nat} {s : State} (ha : off % 4 = 0) (hr : regAllowed r false c i off s = true) :
    regCheckAt r false c i off 4 s = (0, s) := by
  simp [regCheckAt, ha, hr]

/-- An allowed, aligned word write to a page without power is refused with DOMAIN_OFF (02 R39). -/
theorem regCheckAt_unpowered {r : Req} {c i off : Nat} {s : State} (ha : off % 4 = 0) (hp : blockPowered c i s = false)
    (hr : regAllowed r true c i off s = true) :
    regCheckAt r true c i off 4 s = (4, raise (evDomainOff c i (regAddr c i off) (blockDomain c i) 2 r s) s) := by
  simp [regCheckAt, ha, hr, hp]

/-- An allowed read of a page without power answers its value and does nothing. -/
theorem readReg_unpowered {r : Req} {c i off : Nat} {s : State} (hpage : pageExists c i = true) (ho : off < 0x1000) (ha : off % 4 = 0)
    (hp : blockPowered c i s = false) (hr : regAllowed r false c i off s = true) :
    readReg r (regAddr c i off) 4 s = (0, regValue r c i off s, s) := by
  have haddr := regPage_regAddr hpage ho
  have heffect : regReadEffect r c i off s = s := if_pos hp
  rw [readReg_ok haddr ((regCheck_page haddr).trans (regCheckAt_read ha hr)), heffect]

/-- An allowed write to a page without power is refused with DOMAIN_OFF and raises that event. -/
theorem writeReg_unpowered {r : Req} {c i off : Nat} {s : State} (hpage : pageExists c i = true) (ho : off < 0x1000) (ha : off % 4 = 0)
    (hp : blockPowered c i s = false) (hr : regAllowed r true c i off s = true) (v : Word) :
    writeReg r (regAddr c i off) 4 v s = (4, raise (evDomainOff c i (regAddr c i off) (blockDomain c i) 2 r s) s) := by
  have haddr := regPage_regAddr hpage ho
  exact writeReg_refused haddr (fun h => unpowered_not_checker hp h.1) ((regCheck_page haddr).trans (regCheckAt_unpowered ha hp hr)) (by decide)

/-- Settles O50, from what a read and a write of a page without power answer. -/
theorem unpoweredBlockAnswers : Obligations.UnpoweredBlockAnswers := by
  unfold Obligations.UnpoweredBlockAnswers
  intro r c i off s hpage ho ha hp
  refine ⟨fun hr => ⟨_, readReg_unpowered hpage ho ha hp hr, ?id, ?caps, ?status, regValue_unpowered hp⟩, fun hr v => ?write⟩
  case id => rintro rfl; exact regValue_identity (.inl rfl) rfl
  case caps => rintro rfl; exact regValue_identity (.inr (.inl rfl)) rfl
  case status =>
    rintro rfl
    rw [regValue_identity (.inr (.inr rfl)) (v := statusReg c i s) rfl]
    exact statusReg_unpowered hp
  case write =>
    have hw := writeReg_unpowered hpage ho ha hp hr v
    exact ⟨hw, fun d => by rw [hw]; exact raise_domainOn _ s d (pageExists_bounds hpage).2⟩

end Sys2Proof.Machine
end

section
/-! SUPPORT. The common register commands: an access that passes its checks has its register's effect (02 R36 to R55; 05 R135, R136). -/

namespace Sys2Proof.Machine

/-- A write of CTRL that sets soft_reset resets the block, where R44 does not refuse it. -/
theorem wrCtrl_softReset {r : Req} {c i : Nat} {v : Word} {s : State} (hbit : natBit v.toNat 1 = true) (hr : resetRefused r c i s = false) :
    wrCtrl r c i v s = (0, softReset c i s) := by
  simp [wrCtrl, hbit, hr]

/-- A write of 0 to CTRL disables the block, where R44 does not refuse it. -/
theorem wrCtrl_zero {r : Req} {c i : Nat} {s : State} (hr : blockEnabled c i s = true → resetRefused r c i s = false) :
    wrCtrl r c i 0 s = (0, wrField c i 8 0 0 0 s) := by
  cases he : blockEnabled c i s with
  | true => simp [wrCtrl, natBit_zero, hr he, b2n]
  | false => simp [wrCtrl, natBit_zero, he, b2n]

/-- An accepted injection provokes the fault or reports the event; MODEL_DIVERGENCE, which a report ends, is apart (02 R46; 16 R390). -/
theorem wrInject_ok {r : Req} {c i : Nat} {v : Word} {s : State} {e : EvRow} (hok : injectOk r c i v s = true) (he : evRow c i (v.field 4 0) = some e)
    (hdiv : ¬(c = 13 ∧ v.field 4 0 = 7)) :
    wrInject r c i v s
      = (0, if natBit v.toNat 5 = true ∧ e.fault = true then provoke c i (v.field 4 0) s else reportOnly c i (v.field 4 0) e.code s) := by
  have hacc : ¬injectOk r c i v s = false := by simp [hok]
  simp only [wrInject, if_neg hacc, he, if_neg hdiv, Bool.and_eq_true]
  split <;> rfl

/-- The injection gate takes the written bit, where R55 lets the requester set it. -/
theorem wrInjectCtrl_ok {r : Req} {allow : Bool} {s : State} (h : allow = true → s.sn.safeOut = true → r = .checker) :
    wrInjectCtrl r (BitVec.ofNat 32 (b2n allow)) s
      = (0, wrReg 0 0 0x6C (if allow then 1 else 0) { s with sn := { s.sn with allowSet := allow && r == .checker } }) := by
  cases allow with
  | false => rfl
  | true =>
    have hpass : ¬(natBit (BitVec.ofNat 32 (b2n true)).toNat 0 = true ∧ s.sn.safeOut = true ∧ r ≠ .checker) :=
      fun hrefused => hrefused.2.2 (h rfl hrefused.2.1)
    exact if_neg hpass

/-- A retire word with its key marks a Nib (05 R135). -/
theorem wrNibRetire_key {q : Nat} {v : Word} {s : State} (h : v.field 31 16 = 0x7E71) :
    wrNibRetire q v s = markNib q (v.field 3 0) (natBit v.toNat 4) 0 s := if_pos h

/-- A soft reset is a write of CTRL with its bit 1 set, whatever enable is. -/
theorem natBit_softReset (b : Bool) : natBit (BitVec.ofNat 32 (2 + b2n b)).toNat 1 = true := by
  cases b <;> rfl

/-- A failed Nib of a free Quill gives its place to NS (05 R136). -/
theorem execNibSpared_free {q n : Nat} {s : State} (hq : q < 192) (hp : (quill q s).sparePending = true) (hfree : (quill q s).st = .free)
    (hn : (bitList 16 (quill q s).failed).head? = some n) :
    execNibSpared q s
      = .next (saveNibs q (raise { c := 2, i := q, bit := 1, code := 0x1100, ctx := n, payload := n + nsIndex q % 512 * 16 + 2 ^ 13 }
          (setQuill q { quill q s with spared := n, nsInUse := true, sparePending := false } s))) := by
  have hgo : ¬(192 ≤ q ∨ (quill q s).sparePending = false ∨ (quill q s).st ≠ .free) := by simp [hp, hfree, hq]
  simp only [execNibSpared, hn, if_neg hgo]

/-- Settles O15, one clause per register command. -/
theorem registerCommandsTakeEffect : Obligations.RegisterCommandsTakeEffect := by
  unfold Obligations.RegisterCommandsTakeEffect
  refine ⟨?write, ?checkerCommand, ?read, ?counter, ?softReset, ?resetDone, ?disable, ?inject, ?gate, ?retire, ?spare⟩
  case write =>
    intro r addr size v c i off s hpage hsn hk
    exact congrArg (fun x => Host.Outcome.next x.2) (writeReg_ok hpage hsn hk)
  case checkerCommand =>
    intro r addr v i s hpage
    exact congrArg (fun x => Host.Outcome.next x.2) (writeReg_checkerCommand hpage)
  case read =>
    intro r addr size c i off s hpage hk
    exact congrArg (fun x => Host.Outcome.next x.2.2) (readReg_ok hpage hk)
  case counter =>
    intro r c i lo s hlo hk
    change execCounterLoRead r c i lo s = _
    simp only [execCounterLoRead, if_pos hlo, hk, ne_eq, not_true_eq_false, if_false]
  case softReset =>
    intro r c i s hk hr
    change execSoftReset r c i s = _
    simp only [execSoftReset, regWriteAt_ok hk, wrCtrl_softReset (natBit_softReset _) hr]
  case resetDone =>
    intro c i s h
    exact congrArg Host.Outcome.next (if_pos h)
  case disable =>
    intro r c i s hk hr
    change execBlockDisable r c i s = _
    simp only [execBlockDisable, regWriteAt_ok hk, wrCtrl_zero hr]
  case inject =>
    rintro r c i v b s e hk hok rfl he hdiv
    change execEventInject r c i v s = _
    simp only [execEventInject, regWriteAt_ok hk, wrInject_ok hok he hdiv]
  case gate =>
    intro r allow s hk h
    change execInjectAllowWrite r allow s = _
    simp only [execInjectAllowWrite, regWriteAt_ok hk, wrInjectCtrl_ok h]
  case retire =>
    intro r q v s hk hkey
    change execNibRetire r q v s = _
    simp only [execNibRetire, onReg_ok hk, wrNibRetire_key hkey]
  case spare => exact fun q n s => execNibSpared_free

end Sys2Proof.Machine
end

section
/-! SUPPORT. What a gPTP Sync makes of device time, by how far it is off, and the other rows of gPTP (02 R54; 18 R424; the model's choices: log entries 16, 17). -/

namespace Sys2Proof.Machine

/-- The state in which a Sync on port `p` finds device time: the port chosen, the time of the Sync kept. -/
def syncSeen (p : Nat) (s : State) : State :=
  wrField 14 (1 - p) 0x70 1 1 0 (wrField 14 p 0x70 1 1 1 { s with time := { s.time with lastSync := some s.time.clk } })

section
variable {p ns : Nat} {s : State} (hp : p < 2) (hup : hostUp p s = true)
include hp hup

/-- A port of the device that is up is heard. -/
theorem sync_heard : ¬(2 ≤ p ∨ hostUp p s = false) := by simp [hp, hup]

/-- Device time behind by more than 1 ms, or never locked, steps. -/
theorem execGptpSync_step (hlt : devNow (syncSeen p s) < ns) (hfar : 1000000 < ns - devNow (syncSeen p s) ∨ (syncSeen p s).time.everLocked = false) :
    execGptpSync p ns s = .next (timeStep ns (syncSeen p s)) := by
  simp only [execGptpSync, if_neg (sync_heard hp hup)]
  exact congrArg Host.Outcome.next (if_pos ⟨hlt, hfar⟩)

/-- Device time that need not step takes gPTP's offset, with the lock, the slew and its length that the offset gives. -/
theorem execGptpSync_slew {off : Int} {k : Nat} (hoff : off = (devNow (syncSeen p s) : Int) - (ns : Int)) (hk : k = off.natAbs)
    (hstep : ¬(devNow (syncSeen p s) < ns ∧ (1000000 < ns - devNow (syncSeen p s) ∨ (syncSeen p s).time.everLocked = false))) :
    execGptpSync p ns s
      = .next { syncSeen p s with time := { (syncSeen p s).time with
          offset := off, locked := decide (k ≤ 1000), everLocked := (syncSeen p s).time.everLocked || decide (k ≤ 1000)
          slew := if k = 0 then .none else if off < 0 then .fast else if k ≤ 1000 then .none else .slow
          slewLeft := if off < 0 then k * 6000 else (k - 1000) * 6000 } } := by
  subst hoff hk
  simp only [execGptpSync, if_neg (sync_heard hp hup)]
  exact congrArg Host.Outcome.next (if_neg hstep)

/-- Behind by at most 1 ms, once locked, it runs fast until the whole offset is gone. -/
theorem execGptpSync_fast (hlt : devNow (syncSeen p s) < ns) (hnear : ns - devNow (syncSeen p s) ≤ 1000000)
    (hlock : (syncSeen p s).time.everLocked = true) :
    execGptpSync p ns s
      = .next { syncSeen p s with time := { (syncSeen p s).time with
          offset := (devNow (syncSeen p s) : Int) - (ns : Int), locked := decide (ns - devNow (syncSeen p s) ≤ 1000), slew := .fast
          slewLeft := (ns - devNow (syncSeen p s)) * 6000 } } := by
  have hstep : ¬(devNow (syncSeen p s) < ns ∧ (1000000 < ns - devNow (syncSeen p s) ∨ (syncSeen p s).time.everLocked = false)) := by
    rintro ⟨-, hfar | hnever⟩
    · omega
    · exact absurd (hlock.symm.trans hnever) (by decide)
  rw [execGptpSync_slew hp hup rfl (k := ns - devNow (syncSeen p s)) (by omega) hstep]
  have hneg : (devNow (syncSeen p s) : Int) - (ns : Int) < 0 := by omega
  have hpos : ns - devNow (syncSeen p s) ≠ 0 := by omega
  simp only [if_neg hpos, if_pos hneg, hlock, Bool.true_or]

/-- Ahead by at most 1 µs, it is in lock and runs on. -/
theorem execGptpSync_runsOn (hge : ns ≤ devNow (syncSeen p s)) (hnear : devNow (syncSeen p s) - ns ≤ 1000) :
    execGptpSync p ns s
      = .next { syncSeen p s with time := { (syncSeen p s).time with
          offset := (devNow (syncSeen p s) : Int) - (ns : Int), locked := true, everLocked := true, slew := .none, slewLeft := 0 } } := by
  rw [execGptpSync_slew hp hup rfl (k := devNow (syncSeen p s) - ns) (by omega) (fun h => by omega)]
  have hnonneg : ¬(devNow (syncSeen p s) : Int) - (ns : Int) < 0 := by omega
  have hover : (devNow (syncSeen p s) - ns - 1000) * 6000 = 0 := by omega
  simp only [if_neg hnonneg, if_pos hnear, ite_self, decide_eq_true hnear, Bool.or_true, hover]

/-- Ahead by more than 1 µs, it runs slow until within 1 µs. -/
theorem execGptpSync_slow (hfar : ns + 1000 < devNow (syncSeen p s)) :
    execGptpSync p ns s
      = .next { syncSeen p s with time := { (syncSeen p s).time with
          offset := (devNow (syncSeen p s) : Int) - (ns : Int), locked := false, slew := .slow
          slewLeft := (devNow (syncSeen p s) - ns - 1000) * 6000 } } := by
  rw [execGptpSync_slew hp hup rfl (k := devNow (syncSeen p s) - ns) (by omega) (fun h => by omega)]
  have hnonneg : ¬(devNow (syncSeen p s) : Int) - (ns : Int) < 0 := by omega
  have hpos : devNow (syncSeen p s) - ns ≠ 0 := by omega
  have hover : ¬devNow (syncSeen p s) - ns ≤ 1000 := by omega
  simp only [if_neg hnonneg, if_neg hpos, if_neg hover, decide_eq_false hover, Bool.or_false]

/-- A measured path delay goes to its port's register, cut at the field's width; without an answer the port says that none was measured. -/
theorem execPdelayMeasure_up (answer : Option Nat) :
    execPdelayMeasure p answer s
      = .next (match answer with
        | some n => wrField 14 p 0x70 31 16 (min n 0xFFFF) (wrField 14 p 0x70 0 0 1 (sendTo 0 p gptpGroup 10 0 0 0 0 0 [] s))
        | none => wrField 14 p 0x70 0 0 0 (sendTo 0 p gptpGroup 10 0 0 0 0 0 [] s)) := by
  cases answer with
  | some n => exact congrArg Host.Outcome.next (if_neg (sync_heard hp hup))
  | none => exact congrArg Host.Outcome.next (if_neg (sync_heard hp hup))

end

/-- 3 s after the last Sync the lock and the slew are over, on both ports. -/
theorem execGptpSyncTimeout_due {s : State} {k : Nat} (h : s.time.lastSync = some k) :
    execGptpSyncTimeout s
      = .next (let t := advanceTo (k + 3000000 * oneUs) s
               wrField 14 0 0x70 1 1 0 (wrField 14 1 0x70 1 1 0
                 { t with time := { t.time with locked := false, slew := .none, slewLeft := 0, lastSync := none } })) := by
  simp only [execGptpSyncTimeout, h]

/-- Settles O16, by how far device time is off, then the loss of Sync and the path delay. -/
theorem gptpMovesDeviceTime : Obligations.GptpMovesDeviceTime := by
  unfold Obligations.GptpMovesDeviceTime
  refine ⟨?sync, fun s k => execGptpSyncTimeout_due, fun p ns s hp hup => ⟨execPdelayMeasure_up hp hup (some ns), execPdelayMeasure_up hp hup none⟩⟩
  case sync =>
    rintro p ns s _ hp hup rfl
    exact ⟨execGptpSync_step hp hup, execGptpSync_fast hp hup, execGptpSync_runsOn hp hup, execGptpSync_slow hp hup⟩

end Sys2Proof.Machine
end

section
/-! SUPPORT. The warm reset, the report of lost events and the start of the cache manager (02 R51; 19 R443; 07 CC_CMD_QUEUE). -/

namespace Sys2Proof.Machine

/-- The magic word asks for the trip and resets the device. -/
theorem wrWarmReset_magic {v : Word} {s : State} (h : v.field 15 0 = 0x5AFE) : wrWarmReset v s = resetDevice 2 0 (trip 10 0 s) := if_pos h

/-- The state in which losses are reported: they are over, and the global page's bit 5, the model's for EVENTS_LOST, is set (log entry 8). -/
def lossesOver (s : State) : State := wrReg 0 0 0x10 (rdReg 0 0 0x10 s ||| (1 <<< 5)) { s with ev := { s.ev with lostPending := 0 } }

/-- Losses are reported by one record once the queue has room and the overflow log holds no event, unless the report is masked (02 R51). -/
theorem flushLost_due {s : State} (hlost : 0 < s.ev.lostPending) (hen : (qDesc (eventQueue s) s).enabled = true) (hroom : 65 ≤ eventSlots s)
    (hovf : ovfHasEvents s = false) (hmask : natBit (rdReg 0 0 0x14 (lossesOver s)).toNat 5 = false) :
    flushLost s = eventToQueue (evEventsLost s.ev.lostPending) (lossesOver s) := by
  have hdue : ¬(s.ev.lostPending = 0 ∨ (qDesc (eventQueue s) s).enabled = false ∨ eventSlots s < 65 ∨ ovfHasEvents s = true) := by
    simp [hen, hovf]; omega
  have hrecord : ¬natBit (rdReg 0 0 0x14 (lossesOver s)).toNat 5 = true := by simp [hmask]
  rw [flushLost, if_neg hdue]
  exact if_neg hrecord

/-- Setting enable while it is clear keeps the queue's number and builds the free lists (07 CC_CMD_QUEUE). -/
theorem wrCmdQueue_enables {v : Word} {s : State} (hv : natBit v.toNat 31 = true) (hoff : ccOn s = false) :
    wrCmdQueue v s = buildLists (wrReg 6 0 0x400 (v &&& 0x800FFFFF) s) :=
  if_pos (by simp [hv, hoff])

/-- The word that CC_ENABLE writes has enable set, whatever queue it names. -/
theorem natBit_ccEnable (q : Nat) : natBit (BitVec.ofNat 32 (2 ^ 31 + q % 2 ^ 20)).toNat 31 = true := by
  rw [BitVec.toNat_ofNat, natBit, decide_eq_true_eq]
  omega

/-- Settles O17, one clause per command. -/
theorem warmResetLostEventsAndCacheEnable : Obligations.WarmResetLostEventsAndCacheEnable := by
  unfold Obligations.WarmResetLostEventsAndCacheEnable
  refine ⟨?warmReset, ?eventsLost, ?ccEnable⟩
  case warmReset =>
    intro r v s hk hkey
    change execWarmReset r v s = _
    rw [execWarmReset, onReg_ok hk, wrWarmReset_magic hkey]
  case eventsLost =>
    rintro s _ hmem hlost hen hroom hovf rfl hmask
    change execEventsLost s = _
    rw [execEventsLost, if_pos hmem, flushLost_due hlost hen hroom hovf hmask]
    rfl
  case ccEnable =>
    intro r q s hk hoff
    change execCcEnable r q s = _
    rw [execCcEnable, onReg_ok hk, wrCmdQueue_enables (natBit_ccEnable q) hoff]

end Sys2Proof.Machine
end

section
/-! SUPPORT. Where a job descriptor with the reserved ID is refused and its completion queue takes no record, the refusal stays in the job table until
its record can be written (02 R49; 11 R262, R268). -/

namespace Sys2Proof.Machine

/-- A descriptor on Quill 0 that is legal but for its job_id 0xFFFF; its completion queue is 5. -/
def reservedIdDesc : List Byte :=
  leBytes 2 0xFFFF ++ leBytes 6 0 ++ leBytes 8 0x8000 ++ leBytes 8 0x1000 ++ leBytes 4 5 ++ leBytes 36 0 ++ leBytes 24 1 ++ leBytes 40 0

/-- The descriptor at the head of job queue 9, the only queue that has been configured. -/
def reservedIdQueued : State :=
  wrBytes 0x10000 (leBytes 4 128 ++ leBytes 4 0 ++ reservedIdDesc)
    (wrReg 6 0 0x40 0x100000
      { State.reset with
        qe := { State.reset.qe with
          cache := [(9, { base := 0x10000, sizeLog2 := 12, enabled := true, consumer := 3, recordSize := 256, wr := 136, res := 136, packets := 1 })] } })

/-- The state meets what the statement asks of the queue, the descriptor and the completion record, which finds room in the staging buffer. -/
theorem reservedIdQueued_admissible :
    (qDesc 9 reservedIdQueued).enabled = true ∧ (qDesc 9 reservedIdQueued).consumer = 3 ∧ blockEnabled 15 0 reservedIdQueued = true
    ∧ memUp reservedIdQueued = true ∧ reservedIdDesc.length = 128 ∧ leField reservedIdDesc 0 2 = 0xFFFF
    ∧ complReady (JobDesc.read reservedIdDesc).complQ reservedIdQueued = true := by
  decide +kernel

/-- Its descriptor is taken with an empty job table, and the refusal leaves one job in it. -/
theorem reservedIdQueued_refusal_held :
    (engineTake 9 reservedIdQueued).map
        (fun x => (x.1, x.2.jobs.length, (refuseJob (JobDesc.read x.1) 9 6 0 { x.2 with arrivals := x.2.arrivals + 1 }).jobs.length))
      = some (reservedIdDesc, 0, 1) := by
  decide +kernel

/-- Refutes O49: the completion queue is not enabled, so the refusal's record is staged and the job table holds the ID as in use until it can be written. -/
theorem not_reservedJobIdRefused : ¬ Obligations.ReservedJobIdRefused := by
  unfold Obligations.ReservedJobIdRefused
  intro h
  obtain ⟨hen, hcons, hmc, hmem, hlen, hid, hready⟩ := reservedIdQueued_admissible
  obtain ⟨⟨b, t⟩, htake, hres⟩ := Option.map_eq_some_iff.mp reservedIdQueued_refusal_held
  obtain ⟨rfl, hbefore, hafter⟩ : b = reservedIdDesc ∧ t.jobs.length = 0
      ∧ (refuseJob (JobDesc.read b) 9 6 0 { t with arrivals := t.arrivals + 1 }).jobs.length = 1 := by simpa using hres
  have hkept := (h 9 _ t _ hen hcons hmc hmem htake hlen hid hready).2
  rw [hkept, hbefore] at hafter
  exact absurd hafter (by decide)

end Sys2Proof.Machine
end

section
/-! SUPPORT. What a NaN converts to (03 R75). -/

namespace Sys2Proof.Machine

/-- A conversion to a float format's code is that format's conversion. -/
theorem convertTo_float {fmt : Nat} {F : FpFmt} (h : fpFmt fmt = some F) (ieee : Bool) (v : Val) :
    convertTo fmt ieee v = F.convert (ieee && decide (fmt = 0 ∨ fmt = 1 ∨ fmt = 2 ∨ fmt = 4)) v := by
  simp only [convertTo, h]

/-- A conversion to any other code is the conversion to an integer of its width. -/
theorem convertTo_int {fmt : Nat} (h : fpFmt fmt = none) (ieee : Bool) (v : Val) : convertTo fmt ieee v = intConvert (fmtWidth fmt) v := by
  simp only [convertTo, h]

/-- A float format with a canonical NaN receives it, with no flag (03 R75). -/
theorem convertTo_nan_canon {fmt c : Nat} (h : (fpFmt fmt).map FpFmt.canon = some c) (h0 : c ≠ 0) (ieee : Bool) :
    convertTo fmt ieee .nan = (c, 0) := by
  obtain ⟨F, hF, rfl⟩ := Option.map_eq_some_iff.mp h
  rw [convertTo_float hF, FpFmt.convert, if_neg h0]

/-- A format without NaN, a float format or an integer one, receives +0 with nan_to_zero (03 R75). -/
theorem convertTo_nan_zero {fmt : Nat} (h : ∀ F, fpFmt fmt = some F → F.canon = 0) (ieee : Bool) :
    convertTo fmt ieee .nan = (0, nsNanToZero) := by
  cases hf : fpFmt fmt with
  | some F => rw [convertTo_float hf, FpFmt.convert, if_pos (h F hf)]
  | none => rw [convertTo_int hf, intConvert]

/-- The float formats from code 5 on, E3M2, E2M3 and E2M1, have no NaN (03 R57). -/
theorem fpFmt_canon_zero : ∀ {fmt : Nat}, 5 ≤ fmt → ∀ F, fpFmt fmt = some F → F.canon = 0
  | 5, _, _, rfl | 6, _, _, rfl | 7, _, _, rfl => rfl
  | _ + 8, _, _, h => nomatch h

/-- Settles O46: a NaN is one value, whatever its encoding, and each destination answers it by whether it has a canonical NaN. -/
theorem nanConversion : Obligations.NanConversion := by
  intro src bits F ieee _ hnan
  rw [hnan]
  refine ⟨?fp32, ?bf16, ?fp16, ?e4m3, ?e5m2, fun fmt h5 _ => convertTo_nan_zero (fpFmt_canon_zero h5) ieee, fun _ => rfl⟩
  all_goals exact convertTo_nan_canon (by decide) (by decide) ieee

end Sys2Proof.Machine
end

section
/-! SUPPORT. The fields of a float encoding, its value, and the conversion of that value back (03 R57, R60, R74, R76). -/

namespace Sys2Proof.Machine

/-- The fraction field of an encoding (03 R57). -/
def FpFmt.frac (F : FpFmt) (bits : Nat) : Nat := bits % 2 ^ F.mbits

/-- The biased exponent of an encoding (03 R57). -/
def FpFmt.biased (F : FpFmt) (bits : Nat) : Nat := bits / 2 ^ F.mbits % 2 ^ F.ebits

/-- How a format's parameters fit together: sign, exponent and fraction make up the width; infinities come with the NaNs of IEEE 754; every encoding
that is no NaN and no infinity is at most the largest finite one (03 R57). -/
structure FpFmt.Layout (F : FpFmt) : Prop where
  width : F.width = F.ebits + F.mbits + 1
  inf : F.hasInf = true → F.nanKind = 2
  finite : ∀ e f, e < 2 ^ F.ebits → f < 2 ^ F.mbits → (e = 2 ^ F.ebits - 1 → F.hasInf = false ∧ ¬(F.nanKind = 1 ∧ f = 2 ^ F.mbits - 1)) →
    e * 2 ^ F.mbits + f ≤ F.maxBits

/-- The eight formats' parameters fit together. -/
theorem fpFmt_layout {fmt : Nat} {F : FpFmt} (h : fpFmt fmt = some F) : F.Layout := by
  unfold fpFmt at h
  split at h <;> cases h
  all_goals
    refine ⟨rfl, by decide, fun e f he hf hfin => ?_⟩
    norm_num at he hf hfin ⊢
    omega

/-- The formats that have infinities are those whose IEEE overflow gives them (03 R76). -/
theorem fpFmt_hasInf {fmt : Nat} {F : FpFmt} (h : fpFmt fmt = some F) : F.hasInf = decide (fmt = 0 ∨ fmt = 1 ∨ fmt = 2 ∨ fmt = 4) := by
  unfold fpFmt at h
  split at h <;> cases h <;> rfl

variable {F : FpFmt} {bits : Nat}

/-- The value of an encoding, by its fields (03 R57). -/
theorem FpFmt.value_eq (F : FpFmt) (bits : Nat) :
    F.value bits =
      if F.nanKind = 2 ∧ F.biased bits = 2 ^ F.ebits - 1 ∧ F.frac bits ≠ 0 then .nan
      else if F.nanKind = 1 ∧ F.biased bits = 2 ^ F.ebits - 1 ∧ F.frac bits = 2 ^ F.mbits - 1 then .nan
      else if F.hasInf = true ∧ F.biased bits = 2 ^ F.ebits - 1 then .inf (natBit bits (F.width - 1))
      else if F.biased bits = 0 then .fin (natBit bits (F.width - 1)) (F.frac bits) (1 - (F.bias : Int) - F.mbits)
      else .fin (natBit bits (F.width - 1)) (2 ^ F.mbits + F.frac bits) ((F.biased bits : Int) - F.bias - F.mbits) := rfl

theorem FpFmt.frac_lt (F : FpFmt) (bits : Nat) : F.frac bits < 2 ^ F.mbits := Nat.mod_lt _ (Nat.two_pow_pos _)

theorem FpFmt.biased_lt (F : FpFmt) (bits : Nat) : F.biased bits < 2 ^ F.ebits := Nat.mod_lt _ (Nat.two_pow_pos _)

/-- Exponent and fraction are the encoding without its sign. -/
theorem FpFmt.Layout.magnitude (L : F.Layout) (bits : Nat) : F.biased bits * 2 ^ F.mbits + F.frac bits = bits % 2 ^ (F.width - 1) := by
  have hw : F.width - 1 = F.mbits + F.ebits := by rw [L.width]; omega
  rw [hw, Nat.pow_add, Nat.mod_mul, FpFmt.biased, FpFmt.frac, Nat.mul_comm, Nat.add_comm]

/-- The sign put back over the exponent and the fraction gives the encoding. -/
theorem FpFmt.Layout.signBits_magnitude (L : F.Layout) (hb : bits < 2 ^ F.width) :
    F.signBits (natBit bits (F.width - 1)) (F.biased bits * 2 ^ F.mbits + F.frac bits) = bits := by
  have hpow : 2 ^ F.width = 2 ^ (F.width - 1) * 2 := by rw [← Nat.pow_succ]; congr 1; rw [L.width]; omega
  have hq : bits / 2 ^ (F.width - 1) < 2 := Nat.div_lt_of_lt_mul (hpow ▸ hb)
  have hdiv := Nat.mod_add_div bits (2 ^ (F.width - 1))
  rw [L.magnitude, FpFmt.signBits, natBit]
  obtain h | h := Nat.le_one_iff_eq_zero_or_eq_one.mp (Nat.le_of_lt_succ hq) <;> simpa [h] using hdiv

/-- What an encoding that is no NaN stands for: an infinity; or, with the encoding at most the largest finite one, a subnormal (or a zero) at
exponent 0 or a normal number at an exponent from 1 on (03 R57). -/
theorem FpFmt.Layout.value_cases (L : F.Layout) (hn : F.value bits ≠ .nan) :
    (F.hasInf = true ∧ F.biased bits * 2 ^ F.mbits + F.frac bits = F.infBits ∧ F.value bits = .inf (natBit bits (F.width - 1)))
    ∨ F.biased bits * 2 ^ F.mbits + F.frac bits ≤ F.maxBits
      ∧ (F.biased bits = 0 ∧ F.value bits = .fin (natBit bits (F.width - 1)) (F.frac bits) (1 - (F.bias : Int) - F.mbits)
        ∨ 0 < F.biased bits
          ∧ F.value bits = .fin (natBit bits (F.width - 1)) (2 ^ F.mbits + F.frac bits) ((F.biased bits : Int) - F.bias - F.mbits)) := by
  have hmax := L.finite (F.biased bits) (F.frac bits) (F.biased_lt bits) (F.frac_lt bits)
  by_cases htop : F.biased bits = 2 ^ F.ebits - 1 ∧ F.hasInf = true
  · obtain ⟨he, hi⟩ := htop
    have hf : F.frac bits = 0 := by
      by_contra hf
      exact hn (by rw [FpFmt.value_eq, if_pos ⟨L.inf hi, he, hf⟩])
    exact .inl ⟨hi, by rw [he, hf, FpFmt.infBits, Nat.add_zero], by rw [FpFmt.value_eq]; simp [L.inf hi, he, hf, hi]⟩
  · have hv := F.value_eq bits
    split_ifs at hv with h2 h1 hi he
    · exact absurd hv hn
    · exact absurd hv hn
    · exact absurd ⟨hi.2, hi.1⟩ htop
    all_goals
      have hle := hmax fun ht => ⟨by simpa [ht] using hi, fun h => h1 ⟨h.1, ht, h.2⟩⟩
    · exact .inr ⟨hle, .inl ⟨he, hv⟩⟩
    · exact .inr ⟨hle, .inr ⟨Nat.pos_of_ne_zero he, hv⟩⟩

/-- Exponent and fraction of the significand `m` with its last bit at weight 2^k: a significand below 2^mbits is a subnormal's. -/
def FpFmt.exactBits (F : FpFmt) (m : Nat) (k : Int) : Nat :=
  if m < 2 ^ F.mbits then m else (k + F.mbits + F.bias).toNat * 2 ^ F.mbits + (m - 2 ^ F.mbits)

/-- A significand that fits the format and whose last bit already has the weight of the format's last place is encoded as it is (03 R74). -/
theorem FpFmt.roundMag_exact {m : Nat} {k : Int} (hlast : max (k + Nat.log2 m) (1 - F.bias) = k + F.mbits) (hm : m < 2 ^ (F.mbits + 1))
    (hmax : F.exactBits m k ≤ F.maxBits) : F.roundMag m k = some (F.exactBits m k) := by
  have hq : (if k + Nat.log2 m < 1 - F.bias then (1 - F.bias : Int) else k + Nat.log2 m) - F.mbits = k := by split <;> omega
  have hn : rheScale m (k - k) = m := by simp [rheScale]
  simp only [FpFmt.roundMag, hq, hn, hm, if_true]
  exact if_pos hmax

/-- A subnormal magnitude is kept (03 R60). -/
theorem FpFmt.roundMag_subnormal {f : Nat} (h0 : f ≠ 0) (hf : f < 2 ^ F.mbits) (hmax : f ≤ F.maxBits) :
    F.roundMag f (1 - (F.bias : Int) - F.mbits) = some f := by
  have hlog : Nat.log2 f < F.mbits := (Nat.log2_lt h0).2 hf
  have hbits : F.exactBits f (1 - (F.bias : Int) - F.mbits) = f := if_pos hf
  rw [FpFmt.roundMag_exact (by omega) (by rw [Nat.pow_succ]; omega) (hbits.le.trans hmax), hbits]

/-- A normal magnitude keeps its exponent and its fraction. -/
theorem FpFmt.roundMag_normal {e f : Nat} (he : 0 < e) (hf : f < 2 ^ F.mbits) (hmax : e * 2 ^ F.mbits + f ≤ F.maxBits) :
    F.roundMag (2 ^ F.mbits + f) ((e : Int) - F.bias - F.mbits) = some (e * 2 ^ F.mbits + f) := by
  have hlog : Nat.log2 (2 ^ F.mbits + f) = F.mbits := by
    rw [Nat.log2_eq_iff (by omega), Nat.pow_succ]; omega
  have hexp : ((e : Int) - F.bias - F.mbits + F.mbits + F.bias).toNat = e := by omega
  have hbits : F.exactBits (2 ^ F.mbits + f) ((e : Int) - F.bias - F.mbits) = e * 2 ^ F.mbits + f := by
    rw [FpFmt.exactBits, if_neg (by omega), hexp, Nat.add_sub_cancel_left]
  rw [FpFmt.roundMag_exact (by omega) (by rw [Nat.pow_succ]; omega) (hbits.le.trans hmax), hbits]

/-- The conversion of an encoding's value gives the encoding back with no flag, where the overflow mode gives the format its infinities (03 R76). -/
theorem FpFmt.Layout.convert_value (L : F.Layout) (hb : bits < 2 ^ F.width) (hn : F.value bits ≠ .nan) :
    F.convert F.hasInf (F.value bits) = (bits, 0) := by
  have hsign := L.signBits_magnitude hb
  obtain ⟨hinf, hmag, hv⟩ | ⟨hmax, ⟨he, hv⟩ | ⟨he, hv⟩⟩ := L.value_cases hn
  · rw [hv, FpFmt.convert, if_pos ⟨hinf, hinf⟩, ← hmag, hsign]
  · rw [he, Nat.zero_mul, Nat.zero_add] at hsign hmax
    rw [hv, FpFmt.convert]
    by_cases h0 : F.frac bits = 0
    · rw [if_pos h0, ← h0, hsign]
    · simp only [FpFmt.roundMag_subnormal h0 (F.frac_lt bits) hmax, h0, if_false, hsign]
  · have hm : 2 ^ F.mbits + F.frac bits ≠ 0 := by have := Nat.two_pow_pos F.mbits; omega
    have hb0 : F.biased bits * 2 ^ F.mbits + F.frac bits ≠ 0 := by
      have := Nat.mul_pos he (Nat.two_pow_pos F.mbits); omega
    rw [hv, FpFmt.convert]
    simp only [FpFmt.roundMag_normal he (F.frac_lt bits) hmax, hm, hb0, if_false, hsign]

/-- Settles O47: every encoding that is no NaN is an infinity, a subnormal or a normal number, and none of the three needs rounding. -/
theorem floatEncodingsRoundTrip : Obligations.FloatEncodingsRoundTrip := by
  intro fmt bits F h hb hn
  rw [convertTo_float h, Bool.true_and, ← fpFmt_hasInf h]
  exact (fpFmt_layout h).convert_value hb hn

end Sys2Proof.Machine
end

section
/-! SUPPORT. The partial-sum word: its fields, read back, and the sum of words (03 R69, R70). -/

namespace Sys2Proof.Machine

theorem b2n_lt_two (b : Bool) : b2n b < 2 := by cases b <;> decide

/-- One bit read as a flag. -/
theorem decide_b2n (b : Bool) : decide (b2n b = 1) = b := by cases b <;> rfl

theorem wrapNat_lt (n : Nat) (i : Int) : wrapNat n i < 2 ^ n := by
  have hpos : (0 : Int) < (2 ^ n : Nat) := by exact_mod_cast Nat.two_pow_pos n
  have := Int.emod_lt_of_pos i hpos
  have := Int.emod_nonneg i hpos.ne'
  unfold wrapNat
  omega

/-- A signed read keeps an integer within the field's range: the wrapped integer read back is the integer. -/
theorem signed_wrapNat {n : Nat} (hn : 0 < n) {i : Int} (hlo : -(2 ^ (n - 1) : Int) ≤ i) (hhi : i < (2 ^ (n - 1) : Int)) : signed n (wrapNat n i) = i := by
  have hpow : (2 ^ n : Nat) = 2 * 2 ^ (n - 1) := by rw [← Nat.pow_succ']; congr 1; omega
  have hcast : ((2 ^ (n - 1) : Nat) : Int) = 2 ^ (n - 1) := by push_cast; rfl
  have hmod := wrapNat_lt n i
  rw [signed, Nat.mod_eq_of_lt hmod]
  unfold wrapNat at *
  rcases lt_or_ge i 0 with hneg | hpos
  · have : i % (2 ^ n : Nat) = i + (2 ^ n : Nat) := by
      rw [← Int.add_emod_right, Int.emod_eq_of_lt] <;> omega
    rw [this] at *
    rw [if_neg] <;> omega
  · rw [Int.emod_eq_of_lt hpos (by omega), if_pos] <;> omega

/-- A signed read looks at the field's bits only. -/
theorem signed_mod (n v : Nat) : signed n (v % 2 ^ n) = signed n v := by simp [signed]

/-- The four fields of the word, laid end to end: 96 bits of value, the two flags, and the count from bit 112 on (03 R70). -/
theorem Acc.word_fields (a : Acc) :
    a.word < 2 ^ 128 ∧ a.word % 2 ^ 96 = wrapNat 96 a.value ∧ a.word / 2 ^ 96 % 2 = b2n a.poison ∧ a.word / 2 ^ 97 % 2 = b2n a.sat
    ∧ a.word / 2 ^ 112 % 2 ^ 16 = min a.count 0xFFFF := by
  have hv := wrapNat_lt 96 a.value
  have hp := b2n_lt_two a.poison
  have hs := b2n_lt_two a.sat
  unfold Acc.word
  generalize wrapNat 96 a.value = v at *
  generalize b2n a.poison = p at *
  generalize b2n a.sat = s at *
  omega

/-- A word added into the empty accumulator leaves what its fields hold. -/
theorem Acc.zero_addWord (w : Nat) :
    Acc.zero.addWord w = { Acc.zero with value := signed 96 w, poison := natBit w 96, sat := natBit w 97, count := natField w 127 112 } := by
  simp [Acc.addWord, Acc.zero]

/-- Words add in any order: integers and counts by addition, flags by OR (03 R69, R70). -/
theorem Acc.addWord_right_comm (a : Acc) (w x : Nat) : (a.addWord w).addWord x = (a.addWord x).addWord w := by
  simp only [Acc.addWord, Acc.mk.injEq, true_and]
  exact ⟨Int.add_right_comm .., Bool.or_right_comm .., Bool.or_right_comm .., Nat.add_right_comm .., trivial⟩

/-- Settles O54: each field of the word holds its part of the accumulator. -/
theorem partialSumWord : Obligations.PartialSumWord := by
  refine ⟨fun a hlo hhi => ?_, Acc.addWord_right_comm⟩
  obtain ⟨hlt, hvalue, hpoison, hsat, hcount⟩ := a.word_fields
  rw [Acc.zero_addWord]
  refine ⟨hlt, ?value, ?poison, ?sat, hcount⟩
  case value =>
    change signed 96 a.word = a.value
    rw [← signed_mod, hvalue, signed_wrapNat (by decide) hlo hhi]
  case poison =>
    change natBit a.word 96 = a.poison
    rw [natBit, hpoison, decide_b2n]
  case sat =>
    change natBit a.word 97 = a.sat
    rw [natBit, hsat, decide_b2n]

end Sys2Proof.Machine
end

section
/-! SUPPORT. A run of contributions in closed form: what the window lets through is summed, saturations are joined, contributions are counted
(03 R67, R68). -/

namespace Sys2Proof.Machine

/-- Whether a contribution is saturated: forced to be, or beyond the window (03 R67, R80). -/
def saturates (c : Int) (force : Bool) : Bool := force || decide (windowMax < c.natAbs)

/-- What a contribution adds to the accumulator (03 R67). -/
def contributes (c : Int) (force : Bool) : Int := if saturates c force then (if c < 0 then -windowMax else windowMax) else c

/-- One contribution adds what the window lets through. -/
@[simp] theorem Acc.add_value (a : Acc) (c : Int) (g : Nat) (force : Bool) : (a.add c g force).value = a.value + contributes c force := rfl
@[simp] theorem Acc.add_sat (a : Acc) (c : Int) (g : Nat) (force : Bool) : (a.add c g force).sat = (a.sat || saturates c force) := rfl
@[simp] theorem Acc.add_count (a : Acc) (c : Int) (g : Nat) (force : Bool) : (a.add c g force).count = a.count + 1 := rfl

/-- Saturated are the forced contributions and those beyond ±(2^71 − 1) (03 R67). -/
theorem saturates_iff {c : Int} {force : Bool} : saturates c force = true ↔ force = true ∨ 2 ^ 71 - 1 < c.natAbs := by
  have hmax : windowMax = 2 ^ 71 - 1 := rfl
  simp only [saturates, Bool.or_eq_true, decide_eq_true_eq]
  exact or_congr_right (by omega)

/-- A contribution within the window is not saturated. -/
theorem saturates_of_le {c : Int} (h : c.natAbs ≤ 2 ^ 71 - 1) : saturates c false = false := by
  rw [Bool.eq_false_iff, ne_eq, saturates_iff]
  simp only [Bool.false_eq_true, false_or]
  omega

/-- Whatever its size, a contribution adds no more than the window's bound. -/
theorem natAbs_contributes_le (c : Int) (force : Bool) : (contributes c force).natAbs ≤ 2 ^ 71 - 1 := by
  unfold contributes
  split
  · split <;> decide
  · rename_i h
    rw [saturates_iff] at h
    omega

/-- A list of contributions (size, group, forced saturation) added one after the other. -/
def Acc.addAll (a : Acc) (l : List (Int × Nat × Bool)) : Acc := l.foldl (fun a c => a.add c.1 c.2.1 c.2.2) a

theorem Acc.addAll_cons (a : Acc) (c : Int × Nat × Bool) (l : List (Int × Nat × Bool)) :
    a.addAll (c :: l) = (a.add c.1 c.2.1 c.2.2).addAll l := rfl

theorem Acc.addAll_value (l : List (Int × Nat × Bool)) (a : Acc) :
    (a.addAll l).value = a.value + (l.map fun c => contributes c.1 c.2.2).sum := by
  induction l generalizing a with
  | nil => simp [Acc.addAll]
  | cons c l ih => rw [Acc.addAll_cons, ih, Acc.add_value, List.map_cons, List.sum_cons, Int.add_assoc]

theorem Acc.addAll_sat (l : List (Int × Nat × Bool)) (a : Acc) :
    (a.addAll l).sat = (a.sat || l.any fun c => saturates c.1 c.2.2) := by
  induction l generalizing a with
  | nil => simp [Acc.addAll]
  | cons c l ih => rw [Acc.addAll_cons, ih, Acc.add_sat, List.any_cons, Bool.or_assoc]

theorem Acc.addAll_count (l : List (Int × Nat × Bool)) (a : Acc) : (a.addAll l).count = a.count + l.length := by
  induction l generalizing a with
  | nil => rfl
  | cons c l ih => rw [Acc.addAll_cons, ih, Acc.add_count, List.length_cons]; omega

/-- n contributions stay within n times the window's bound. -/
theorem Acc.natAbs_addAll_zero_le (l : List (Int × Nat × Bool)) : (Acc.zero.addAll l).value.natAbs ≤ l.length * (2 ^ 71 - 1) := by
  rw [Acc.addAll_value]
  induction l with
  | nil => decide
  | cons c l ih =>
    have hc := natAbs_contributes_le c.1 c.2.2
    simp only [List.map_cons, List.sum_cons, List.length_cons, Acc.zero, Int.zero_add] at ih ⊢
    omega

/-- Settles O55: the bound by the length of the list, the order by the closed forms, which a permutation leaves. -/
theorem exactSumsBoundedAndOrderFree : Obligations.ExactSumsBoundedAndOrderFree := by
  refine ⟨fun l hl => ?bound, fun a c g hc => ?window, fun l m a hp => ?order⟩
  case bound =>
    have := Acc.natAbs_addAll_zero_le l
    change (Acc.zero.addAll l).value.natAbs < 2 ^ 95
    omega
  case window =>
    simp [contributes, saturates_of_le hc]
  case order =>
    change (a.addAll l).value = (a.addAll m).value ∧ (a.addAll l).sat = (a.addAll m).sat ∧ (a.addAll l).count = (a.addAll m).count
    simp only [Acc.addAll_value, Acc.addAll_sat, Acc.addAll_count]
    rw [(hp.map _).sum_eq, hp.any_eq, hp.length_eq]
    exact ⟨rfl, rfl, rfl⟩

end Sys2Proof.Machine
end

section
/-! SUPPORT. What a step of one Quill leaves alone: every other Quill and all of the state but the Quills. -/

namespace Sys2Proof.Machine

/-- From `s` to `t` Quill `q` becomes `v`; no other Quill and nothing else of the state changes. -/
def MovesQuill (q : Nat) (v : Quill) (s t : State) : Prop :=
  quill q t = v ∧ (∀ p, p ≠ q → quill p t = quill p s) ∧ { t with quills := s.quills } = s

theorem movesQuill_setQuill (q : Nat) (v : Quill) (s : State) : MovesQuill q v s (setQuill q v s) :=
  ⟨quill_setQuill_self s q v, fun _ hp => quill_setQuill_ne s v hp, rfl⟩

/-- Two moves of one Quill are one move, to where the second leaves it. -/
theorem MovesQuill.trans {q : Nat} {v w : Quill} {s t u : State} (hst : MovesQuill q v s t) (htu : MovesQuill q w t u) : MovesQuill q w s u := by
  obtain ⟨-, hothers, hrest⟩ := hst
  obtain ⟨hquill, hothers', hrest'⟩ := htu
  refine ⟨hquill, fun p hp => (hothers' p hp).trans (hothers p hp), ?_⟩
  calc { u with quills := s.quills } = { { u with quills := t.quills } with quills := s.quills } := rfl
    _ = { t with quills := s.quills } := by rw [hrest']
    _ = s := hrest

/-- Two states that differ in their Quills alone have one ring time, and reach a ring time at one model time. -/
theorem MovesQuill.rotationClk_eq {q : Nat} {v : Quill} {s t : State} (h : MovesQuill q v s t) :
    clkAtRing (rotationAfter (ringNow t)) t = clkAtRing (rotationAfter (ringNow s)) s := by
  obtain ⟨-, -, hrest⟩ := h
  have hclk := congrArg (fun u => clkAtRing (rotationAfter (ringNow u)) u) hrest
  exact hclk

/-- The program that a Quill runs does not depend on what the Quills hold. -/
@[simp] theorem quillHdr_setQuill (q p : Nat) (j : JobRec) (v : Quill) (s : State) : quillHdr q j (setQuill p v s) = quillHdr q j s := rfl

/-- A jump within the instruction stream (05 R117). -/
theorem jumpTo_moves {q : Nat} {j : JobRec} {p a : Nat} {h : ImgHdr} {s : State} (hhdr : quillHdr q j s = some (a, h)) (hp : p < h.instrCount) :
    MovesQuill q { quill q s with pc := p, st := .running, wait := 0, arrived := false } s (jumpTo q j p s) := by
  have hin : (0 : Int) ≤ p ∧ (p : Int) < (h.instrCount : Int) := by omega
  simp only [jumpTo, hhdr, if_pos hin, Int.toNat_natCast]
  exact movesQuill_setQuill q _ s

/-- An instruction finished whose next one, after the ends of loop bodies, lies in the stream (05 R116). -/
theorem nextPc_moves {q : Nat} {j : JobRec} {p a : Nat} {h : ImgHdr} {s : State} (hhdr : quillHdr q j s = some (a, h))
    (hp : (loopBack (quill q s).loops p).2 < h.instrCount) :
    MovesQuill q { quill q s with pc := (loopBack (quill q s).loops p).2, loops := (loopBack (quill q s).loops p).1, st := .running, wait := 0,
                                  arrived := false } s (nextPc q j p s) := by
  have hjump := jumpTo_moves (s := setQuill q { quill q s with loops := (loopBack (quill q s).loops p).1 } s) hhdr hp
  rw [quill_setQuill_self] at hjump
  exact (movesQuill_setQuill q _ s).trans hjump

/-- A Quill given anew whose instruction then finishes. -/
theorem nextPc_setQuill_moves {q : Nat} {j : JobRec} {v : Quill} {p a : Nat} {h : ImgHdr} {s : State} (hhdr : quillHdr q j s = some (a, h))
    (hp : (loopBack v.loops p).2 < h.instrCount) :
    MovesQuill q { v with pc := (loopBack v.loops p).2, loops := (loopBack v.loops p).1, st := .running, wait := 0, arrived := false } s
      (nextPc q j p (setQuill q v s)) := by
  have hnext := nextPc_moves (s := setQuill q v s) (q := q) (j := j) (p := p) (a := a) (h := h)
  simp only [quillHdr_setQuill, quill_setQuill_self] at hnext
  exact (movesQuill_setQuill q v s).trans (hnext hhdr hp)

/-- A Quill that has waited on nothing external, or whose job is not deterministic, goes on at once. -/
theorem retire_moves_atOnce {q : Nat} {j : JobRec} {v : Quill} {a : Nat} {h : ImgHdr} {s : State} (hwait : (v.ext && v.det) = false)
    (hhdr : quillHdr q j s = some (a, h)) (hp : (loopBack v.loops (v.pc + 1)).2 < h.instrCount) :
    MovesQuill q { v with pc := (loopBack v.loops (v.pc + 1)).2, loops := (loopBack v.loops (v.pc + 1)).1, st := .running, wait := 0, arrived := false }
      s (retire q j v s) := by
  simp only [retire, hwait, Bool.false_eq_true, if_false]
  exact nextPc_setQuill_moves hhdr hp

/-- A Quill of a deterministic job after an external wait goes on at the next rotation boundary (10 R243). -/
theorem retire_moves_atRotation {q : Nat} {j : JobRec} {v : Quill} {a : Nat} {h : ImgHdr} {s : State} (hwait : (v.ext && v.det) = true)
    (hhdr : quillHdr q j s = some (a, h)) (hp : (loopBack v.loops (v.pc + 1)).2 < h.instrCount) :
    MovesQuill q { v with pc := (loopBack v.loops (v.pc + 1)).2, loops := (loopBack v.loops (v.pc + 1)).1, st := .running, wait := 0, arrived := false,
                          ext := false, startAt := some (clkAtRing (rotationAfter (ringNow s)) s) } s (retire q j v s) := by
  have hnext := nextPc_setQuill_moves (v := { v with ext := false }) hhdr hp
  have hquill := hnext.1
  simp only [retire, hwait, if_true, hquill, hnext.rotationClk_eq]
  exact hnext.trans (movesQuill_setQuill q _ _)

/-- Both forms in one: the external wait is over, and with determinism it sets the time of the next issue (10 R243). -/
theorem retire_moves {q : Nat} {j : JobRec} {v : Quill} {a : Nat} {h : ImgHdr} {s : State} (hhdr : quillHdr q j s = some (a, h))
    (hp : (loopBack v.loops (v.pc + 1)).2 < h.instrCount) :
    MovesQuill q { v with pc := (loopBack v.loops (v.pc + 1)).2, loops := (loopBack v.loops (v.pc + 1)).1, st := .running, wait := 0, arrived := false,
                          ext := v.ext && !v.det,
                          startAt := if v.ext && v.det then some (clkAtRing (rotationAfter (ringNow s)) s) else v.startAt } s (retire q j v s) := by
  cases hwait : v.ext && v.det with
  | false =>
    have hext : (v.ext && !v.det) = v.ext := by
      rw [Bool.and_eq_false_imp] at hwait
      cases he : v.ext with
      | false => rfl
      | true => simp [hwait he]
    simpa only [hext, Bool.false_eq_true, if_false] using retire_moves_atOnce hwait hhdr hp
  | true =>
    have hext : (v.ext && !v.det) = false := by
      simp [((Bool.and_eq_true _ _).mp hwait).2]
    simpa only [hext, if_true] using retire_moves_atRotation hwait hhdr hp

/-- Settles O4: a retired instruction moves its Quill alone; in no loop the next pc is one further. -/
theorem quillRetireFrame : Obligations.QuillRetireFrame := by
  unfold Obligations.QuillRetireFrame
  intro q j v s a h hhdr hp
  obtain ⟨hquill, hothers, hrest⟩ := retire_moves hhdr hp
  refine ⟨hquill, hothers, hrest, fun hloops => ?_⟩
  rw [hquill, hloops]
  rfl

end Sys2Proof.Machine
end

section
/-! The scalar instructions, the register file, loops and branches of a Quill (05 R116, R117). -/

namespace Sys2Proof.Machine

@[simp] theorem Quill.rd_zero (v : Quill) : v.rd 0 = 0 := rfl
@[simp] theorem Quill.wr_zero (v : Quill) (w : Word) : v.wr 0 w = v := rfl

/-- A register other than sc0 reads back what was written (05 R117). -/
theorem Quill.rd_wr_self {v : Quill} {r : Nat} {w : Word} (hr : r ≠ 0) : (v.wr r w).rd r = w := by
  simp only [Quill.rd, Quill.wr, if_neg hr, Tbl.get_set_self]

/-- And the other registers are as before. -/
theorem Quill.rd_wr_ne {v : Quill} {r k : Nat} {w : Word} (hk : k ≠ r) : (v.wr r w).rd k = v.rd k := by
  by_cases hr : r = 0
  · rw [hr, Quill.wr_zero]
  · simp only [Quill.rd, Quill.wr, if_neg hr, Tbl.get_set_ne _ _ _ hk]

/-- A write changes nothing of the Quill but its register file. -/
theorem Quill.wr_frame (v : Quill) (r : Nat) (w : Word) : { v.wr r w with sc := v.sc } = v := by
  by_cases hr : r = 0
  · rw [hr, Quill.wr_zero]
  · simp only [Quill.wr, if_neg hr]

/-- Settles O3, law by law. -/
theorem scalarRegisterFile : Obligations.ScalarRegisterFile :=
  fun v r _ w => ⟨v.rd_zero, v.wr_zero w, Quill.rd_wr_self, Quill.rd_wr_ne, v.wr_frame r w⟩

/-- The index of an open loop, by its depth from the outermost (05 R116). -/
theorem loopIndex_open {v : Quill} {depth : Nat} {f : LoopFrame} (h : v.loops.reverse[depth]? = some f) : loopIndex v depth = f.index := by
  simp only [loopIndex, h]

section
variable {q : Nat} {s : State} {j : JobRec} (hj : findJob (quill q s).job s = some j)
include hj

/-- An ALU sub-op that computes on two words. -/
theorem execAlu_words {sub dst a b imm : Nat} {ui : Bool} (hready : quillReady q (.alu sub dst a b ui imm) s = true) (hsub : sub < 11) :
    execAlu q sub dst a b ui imm s
      = .next (retire q j ((quill q s).wr dst (aluOp sub ((quill q s).rd a) (if ui then BitVec.ofNat 32 imm else (quill q s).rd b))) s) := by
  have hwords : sub ≠ 11 := by omega
  simp only [execAlu, onQuill_ok hready hj, if_neg hwords]

/-- ALU sub-op 11 at an open loop. -/
theorem execAlu_loopIndex {dst a b imm : Nat} {ui : Bool} {f : LoopFrame} (hready : quillReady q (.alu 11 dst a b ui imm) s = true)
    (hloop : (quill q s).loops.reverse[imm]? = some f) :
    execAlu q 11 dst a b ui imm s = .next (retire q j ((quill q s).wr dst (BitVec.ofNat 32 f.index)) s) := by
  simp only [execAlu, onQuill_ok hready hj, if_true, loopIndex_open hloop]

/-- WAIT_TOP with nothing in flight. -/
theorem execWaitTop_idle (hready : quillReady q .waitTop s = true) (hops : (quill q s).ops = []) :
    execWaitTop q s = .next (retire q j (quill q s) s) := by
  simp only [execWaitTop, onQuill_ok hready hj, hops, List.isEmpty_nil, if_true]

end

/-- Settles O2: each scalar instruction runs on its job and Quill, where it may issue. -/
theorem scalarInstructionsRetire : Obligations.ScalarInstructionsRetire := by
  unfold Obligations.ScalarInstructionsRetire
  refine ⟨?nop, ?set, ?alu, ?index, ?wait⟩
  case nop => exact fun q s j hready hj => congrArg Host.Outcome.next (onQuill_ok hready hj)
  case set => exact fun q dst imm s j hready hj => congrArg Host.Outcome.next (onQuill_ok hready hj)
  case alu => exact fun q sub dst a b ui imm s j hready hj => execAlu_words hj hready
  case index => exact fun q dst a b ui imm s j f hready hj => execAlu_loopIndex hj hready
  case wait => exact fun q s j hready hj => execWaitTop_idle hj hready

/-- Settles O5: both are their own functions of the model on the Quill that issues them. -/
theorem loopAndBranch : Obligations.LoopAndBranch := by
  unfold Obligations.LoopAndBranch
  refine ⟨?loop, ?branch⟩
  case loop =>
    rintro q countSc count body n s j hready hj rfl
    exact congrArg Host.Outcome.next (onQuill_ok hready hj)
  case branch => exact fun q cond a b ui imm off s j hready hj => congrArg Host.Outcome.next (onQuill_ok hready hj)

end Sys2Proof.Machine
end

section
/-! The instructions of a Quill that issue an operation, synchronise or end its program, where they take effect (05 R116, R123 to R130). -/

namespace Sys2Proof.Machine

/-- Settles O6: TOP with room and no hazard. -/
theorem tensorOperationIssues : Obligations.TensorOperationIssues := by
  unfold Obligations.TensorOperationIssues
  intro q tod s j c hready hj hroom hctx hhazard
  have hfree : ¬2 ≤ (quill q s).ops.length := by omega
  refine ⟨{ index := (quill q s).opIndex, desc := tod, tod := c.tod tod s, loops := loopVals (quill q s), scs := (quill q s).scs, ran := false,
            outs := [], unit := 0, ticket := none, issue := (quill q s).issued, drained := false, nf := 0, nfNib := 0, sat := 0, satGroup := 0,
            satNeg := false, satNib := 0, nfInj := false, satInj := false }, rfl, rfl, rfl, rfl, rfl, rfl, rfl, rfl, rfl, rfl, ?_⟩
  change execTop q tod s = _
  simp only [execTop, onQuill_ok hready hj, if_neg hfree, hctx, hhazard, Bool.false_eq_true, if_false]

section
variable {q : Nat} {s : State} {j : JobRec} (hj : findJob (quill q s).job s = some j)
include hj

/-- SEM_WAIT on a semaphore that holds the count (05 R125). -/
theorem execSemWait_holds {sem count : Nat} (hready : quillReady q (.semWait sem count) s = true) (hcount : count ≤ Tbl.get 0 (quill q s).sem sem) :
    execSemWait q sem count s
      = .next (retire q j { quill q s with sem := Tbl.set 0 (quill q s).sem sem (Tbl.get 0 (quill q s).sem sem - count) } s) := by
  simp only [execSemWait, onQuill_ok hready hj, if_pos hcount]

/-- DMA_WAIT with every masked channel empty (05 R116). -/
theorem execDmaWait_empty {mask : Nat} (hready : quillReady q (.dmaWait mask) s = true)
    (hempty : ∀ b, b < 2 → natBit mask b = true → (chan (dmaChan q b) s).reqs = []) :
    execDmaWait q mask s = .next (retire q j (quill q s) s) := by
  have hall : (List.range 2).all (fun b => !natBit mask b || (chan (dmaChan q b) s).reqs.isEmpty) = true := by
    rw [List.all_eq_true]
    intro b hb
    cases hbit : natBit mask b with
    | false => rfl
    | true => simp [hempty b (List.mem_range.mp hb) hbit]
  simp only [execDmaWait, onQuill_ok hready hj, hall, if_true]

end

/-- A Quill that waits already, or whose wait no injection ends, waits (05 R130). -/
theorem quill_block_waiting {q cause : Nat} {s : State} (h : (quill q s).st = .waiting ∨ armed 2 q 2 s = false) :
    (quill q (block q cause s)).st = .waiting := by
  unfold block
  by_cases hst : (quill q s).st = .waiting
  · simp only [if_pos hst, quill_setQuill_self]
    exact hst
  · have harmed : ¬armed 2 q 2 s = true := by simp [h.resolve_left hst]
    simp only [if_neg hst, if_neg harmed, quill_setQuill_self]

/-- BARRIER of a Quill whose earlier writes and signals are through (05 R127). -/
theorem execBarrier_arrives {q scope group : Nat} {s : State} {j : JobRec} (hready : quillReady q (.barrier scope group) s = true)
    (hj : findJob (quill q s).job s = some j) (hnew : (quill q s).arrived = false) (hwrites : writesDone q (quill q s).issued s = true)
    (hsigs : (quill q s).sigs = []) (hwait : (quill q s).st = .waiting ∨ armed 2 q 2 s = false) :
    execBarrier q scope group s
      = .next (barrierArrive j.d.id (quill q s).copyB scope group q (setQuill q { quill q (block q 2 s) with arrived := true } (block q 2 s))) := by
  have hgo : ¬((quill q s).arrived = true ∨ writesDone q (quill q s).issued s = false ∨ (quill q s).sigs ≠ []) := by simp [hnew, hwrites, hsigs]
  simp only [execBarrier, onQuill_ok hready hj, if_neg hgo, if_pos (quill_block_waiting hwait)]

/-- Settles O7, one clause per instruction. -/
theorem quillSynchronisation : Obligations.QuillSynchronisation := by
  unfold Obligations.QuillSynchronisation
  refine ⟨?semWait, ?semSignal, ?barrier, ?dmaWait⟩
  case semWait => exact fun q sem count s j hready hj => execSemWait_holds hj hready
  case semSignal =>
    intro q sem remote count rank dev job s j hready hj
    exact ⟨{ issue := (quill q s).issued, remote := remote, dev := dev, job := job, sem := sem, count := count
             rank := if remote = false ∧ ((quill q s).rd 1).toNat = rank then (quill q s).rank else rank },
      rfl, rfl, rfl, rfl, rfl, rfl, rfl, congrArg Host.Outcome.next (onQuill_ok hready hj)⟩
  case barrier => exact fun q scope group s j => execBarrier_arrives
  case dmaWait => exact fun q mask s j hready hj => execDmaWait_empty hj hready

/-- The event of a wait that ran out by itself, with the injection's flag at 0 (05 R140). -/
theorem evSemTimeout_notInjected (q job pc cause : Nat) :
    evSemTimeout q job pc cause false = { c := 2, i := q, bit := 2, code := 0x2100, job := job, payload := pc + cause * 2 ^ 32 } := by
  simp only [evSemTimeout, injFlag, Bool.false_eq_true, if_false, add_zero]

/-- SEM_TIMEOUT of a Quill that waits with a limit (05 R130, R140). -/
theorem execSemTimeout_waiting {q : Nat} {s : State} (hst : (quill q s).st = .waiting) (hlimit : (quill q s).waitLimit ≠ 0) :
    execSemTimeout q s
      = .next (failWith (quill q s).job
          { c := 2, i := q, bit := 2, code := 0x2100, job := (quill q s).job, payload := (quill q s).pc + (quill q s).wait * 2 ^ 32 }
          (advanceTo ((quill q s).waitStart + (quill q s).waitLimit * oneUs + 1) s)) := by
  have hgo : ¬((quill q s).st ≠ .waiting ∨ (quill q s).waitLimit = 0) := by simp [hst, hlimit]
  simp only [execSemTimeout, if_neg hgo, evSemTimeout_notInjected]

/-- Settles O9, one clause per way a program ends. -/
theorem quillProgramEnds : Obligations.QuillProgramEnds := by
  unfold Obligations.QuillProgramEnds
  refine ⟨?trap, ?stop, ?timeout⟩
  case trap => exact fun q code s j hready hj => congrArg Host.Outcome.next (onQuill_ok hready hj)
  case stop => exact fun q s j hready hj => congrArg Host.Outcome.next (onQuill_ok hready hj)
  case timeout => exact fun q s => execSemTimeout_waiting

end Sys2Proof.Machine
end

section
/-! The instructions of a Quill that move data, in the forms that go through at once (05 R128, R129, R490; 11 R258 to R264). -/

namespace Sys2Proof.Machine

section
variable {q : Nat} {s : State} {j : JobRec} {c : OpCtx} (hj : findJob (quill q s).job s = some j)
include hj

/-- ATOMIC on a word of this device, with no hazard and no answer outstanding (05 R490). -/
theorem execAtomic_local {op sc dst val cmp agp : Nat} {nf : Bool} {t : State} (hready : quillReady q (.atomic op nf sc dst val cmp agp) s = true)
    (hnone : (quill q s).atomic = none) (hout : reqOut (.atomic q) s = false)
    (hctx : opCtx j q (loopVals (quill q s)) (quill q s).scs (.atomic q) s = some c)
    (hhazard : hazard c [(c.agp agp s).binding] [(c.agp agp s).binding] s = false)
    (hcheck : c.check agp (c.bind (c.agp agp s).binding s) true (c.offset (c.agp agp s) 0) (elemAt (c.agp agp s).fmt (c.offset (c.agp agp s) 0)).1 4 s
      = (true, t))
    (hnear : c.far (c.bind (c.agp agp s).binding s) = false) :
    execAtomic q op nf sc dst val cmp agp s
      = .next (let addr := (c.bind (c.agp agp s).binding s).addr % 2 ^ 48 + (elemAt (c.agp agp s).fmt (c.offset (c.agp agp s) 0)).1.toNat
               let old := rdLe t addr 4
               let r := access 2 q 0 c.who .atomic addr 4
                 (leBytes 4 (atomicWord op (BitVec.ofNat 32 old) ((quill q s).rd val) ((quill q s).rd cmp)).toNat) t
               atomicEnd q j nf sc dst r.1.status old (lastSeq t r.2) r.2) := by
  simp only [execAtomic, onQuill_ok hready hj, hout, hnone, hctx, hhazard, hcheck, hnear, Bool.false_eq_true, Bool.true_eq_false, if_false]

/-- QPUSH of copy A, in its turn, into a queue that takes or refuses its record at once (05 R129; 11 R259, R264). -/
theorem execQpush_copyA {sc src queue : Nat} {bl : Bool} {t u : State} {l : List Nat} (hready : quillReady q (.qpush bl sc src queue) s = true)
    (hcopy : (quill q s).copyB = false) (hctx : opCtx j q (loopVals (quill q s)) (quill q s).scs (.queue q) s = some c)
    (hhazard : hazard c [(c.agp src s).binding] [] s = false) (hturn : bl = true → pushTurn queue q s = true) (hhere : c.gather [src] s = (some 0, t))
    (hread : readElems c src (c.agp src s) (c.bind (c.agp src s).binding s) (c.agp src s).size 0 t = ((⟨0, 0⟩, l), u))
    (hnow : bl = true → (pushRecord queue j.d.id (deviceId s) (packBits (c.agp src s).fmt l) (dropBufs c.use u)).1 ≠ 1) :
    execQpush q bl sc src queue s
      = .next (let p := pushRecord queue j.d.id (deviceId s) (packBits (c.agp src s).fmt l) (dropBufs c.use u)
               queueEnd q j sc p.1 0 (lastSeq (dropBufs c.use u) p.2) (unwaitPush q p.2)) := by
  have hgo : ¬(bl = true ∧ pushTurn queue q s = false) :=
    fun ⟨hbl, hother⟩ => Bool.false_ne_true (hother.symm.trans (hturn hbl))
  have hdone : ¬((pushRecord queue j.d.id (deviceId s) (packBits (c.agp src s).fmt l) (dropBufs c.use u)).1 = 1 ∧ bl = true) :=
    fun ⟨hfull, hbl⟩ => hnow hbl hfull
  simp only [execQpush, onQuill_ok hready hj, hctx, hhazard, hcopy, and_true, if_neg hgo, hhere, hread, if_neg hdone, ne_eq, not_true_eq_false,
    Bool.false_eq_true, if_false]

/-- QPOP of a head record that may be taken and reads well (05 R129; 11 R258 to R260). -/
theorem execQpop_takes {sc dst queue ptr len : Nat} {bl : Bool} {t u w : State} (hready : quillReady q (.qpop bl sc dst queue) s = true)
    (hwait : s.qe.popWait.contains (queue, q) = false) (hctx : opCtx j q (loopVals (quill q s)) (quill q s).scs (.queue q) s = some c)
    (hhazard : hazard c [(c.agp dst s).binding] [(c.agp dst s).binding] s = false)
    (hhead : popStatus queue j.d.id (deviceId s) ((c.agp dst s).size * fmtWidth (c.agp dst s).fmt / 8) (qdUse queue s) = (0, ptr, len))
    (hhere : c.gather (if fmtWidth (c.agp dst s).fmt % 8 = 0 then [] else [dst]) (qdUse queue s) = (some 0, t))
    (hread : mcReadBlocks j.d.id (blocksOf ((qDesc queue t).base + ptr % (qDesc queue t).size) (len + 8)) t = (0, w))
    (hwrite : popWrite c dst (c.agp dst s) (c.bind (c.agp dst s).binding s) (recBytes (qDesc queue t) ptr len w)
      (advanceRd queue ((ptr + stride len) % (2 * (qDesc queue t).size)) (forgetPartials j.d.id (quill q s).copyB (c.agp dst s).binding w))
        = (⟨0, 0⟩, u)) :
    execQpop q bl sc dst queue s = .next (queueEnd q j sc 0 len 0 (dropBufs c.use u)) := by
  simp only [execQpop, onQuill_ok hready hj, hwait, hctx, hhazard, hhead, hhere, hread, hwrite, ne_eq, not_true_eq_false, Bool.false_eq_true, if_false]

end

/-- Settles O8, one clause per instruction. -/
theorem quillDataMovement : Obligations.QuillDataMovement := by
  unfold Obligations.QuillDataMovement
  refine ⟨?dma, ?atomic, ?qpush, ?qpop⟩
  case dma =>
    intro q ch nf nt sc src dst queue s j c hready hj hctx hroom hhazard
    have hgo : ¬(16 ≤ (chan (dmaChan q ch) s).reqs.length ∨ hazard c (c.bindsOf [src] s) (c.bindsOf [dst] s) s = true) := by
      simp [hroom, hhazard]
    refine ⟨{ quill := q, job := j.d.id, src := src, dst := dst, noFail := nf, notify := nt, queue := queue, statusSc := sc,
              seq := ((chan (dmaChan q ch) s).seq + 1) % 65536, loops := loopVals (quill q s), scs := (quill q s).scs, issue := (quill q s).issued,
              sent := false, moved := 0, err := none }, rfl, rfl, rfl, rfl, rfl, rfl, rfl, rfl, rfl, rfl, rfl, rfl, rfl, rfl, ?_⟩
    change execDma q ch nf nt sc src dst queue s = _
    simp only [execDma, onQuill_ok hready hj, hctx, if_neg hgo]
  case atomic =>
    rintro q op nf sc dst val cmp agp old s t j c a b hready hj hnone hout hctx rfl rfl hhazard hcheck hnear rfl
    exact execAtomic_local hj hready hnone hout hctx hhazard hcheck hnear
  case qpush => exact fun q bl sc src queue s t u j c l hready hj => execQpush_copyA hj hready
  case qpop =>
    rintro q bl sc dst queue ptr len s t u w j c a d hready hj hwait hctx rfl hhazard hhead hhere rfl hread hwrite
    exact execQpop_takes hj hready hwait hctx hhazard hhead hhere hread hwrite

end Sys2Proof.Machine
end

section
/-! What lets a waiting Quill go on: barriers that release and DMAs that complete (05 R128; 06 R154 to R158; 11 R269). -/

namespace Sys2Proof.Machine

section
variable {job group : Nat} {copyB : Bool} {s : State} {b : BarrierInst} (hfull : barrierFull b s = true) (htold : b.told = false)
include hfull htold

/-- A local barrier that its copy has reached releases 48 mesh cycles after the last arrival (06 R154). -/
theorem execLocalBarrierRelease_local
    (hb : s.barriers.find? (fun b => b.job == job && b.copyB == copyB && b.scope == 0 && b.group == group) = some b) :
    execLocalBarrierRelease job copyB 0 group s = .next (releaseBarrier b (b.last + 96) (advanceTo (b.last + 96) s)) := by
  have hgo : ¬(barrierFull b s = false ∨ b.told = true) := by simp [hfull, htold]
  simp only [execLocalBarrierRelease, hb, if_neg hgo, if_true]

/-- A cross-device barrier that its copy has reached tells its root, which may be this device (06 R156). -/
theorem execLocalBarrierRelease_tellsRoot {scope m : Nat} {e : BarrierGroup} (hscope : scope ≠ 0)
    (hb : s.barriers.find? (fun b => b.job == job && b.copyB == copyB && b.scope == scope && b.group == group) = some b)
    (he : findGroup group (advanceTo (b.last + 96) s) = some e)
    (hm : e.members.findIdx? (fun x => x == (deviceId (advanceTo (b.last + 96) s), job)) = some m) :
    execLocalBarrierRelease job copyB scope group s
      = .next (let t := { advanceTo (b.last + 96) s with
                   barriers := (advanceTo (b.last + 96) s).barriers.map (fun x => if x = b then { x with told := true } else x) }
               if e.root = deviceId t then rootArrival group m copyB t else sendPktOf job 7 e.root [group, m, b2n copyB] t) := by
  have hgo : ¬(barrierFull b s = false ∨ b.told = true) := by simp [hfull, htold]
  simp only [execLocalBarrierRelease, hb, if_neg hgo, if_neg hscope, he, hm]

end

/-- The release of a cross-device barrier at its time R (06 R156). -/
theorem execBarrierReleaseTime_due {group R : Nat} {copyB : Bool} {s : State} {e : BarrierGroup} (he : findGroup group s = some e)
    (hR : (if copyB then e.releaseB else e.releaseA) = some R) :
    execBarrierReleaseTime group copyB s
      = .next (let t := updGroup group (fun e => if copyB then { e with releaseB := none } else { e with releaseA := none }) (advanceToRing R s)
               (t.barriers.filter (fun b => b.scope == 1 && b.group == group && b.copyB == copyB && b.told)).foldl
                 (fun acc b => releaseBarrier b acc.time.clk acc) t) := by
  simp only [execBarrierReleaseTime, he, hR]

/-- A DMA at its channel's head that copies all its elements and has no write outstanding on the ring completes (05 R128, 11 R269). -/
theorem execDmaComplete_copied {k n : Nat} {s t u : State} {r : DmaReq} {rest : List DmaReq} {j : JobRec} {c0 c : OpCtx}
    (hreqs : (chan k s).reqs = r :: rest) (hj : findJob r.job s = some j) (hctx : opCtx j r.quill r.loops r.scs (.dma k r.issue) s = some c0)
    (hc : c = { c0 with c := 1, i := k / 8, ctx := k % 8 }) (hlive : j.live = true) (hrec : dmaRecordReady r s = true)
    (hpend : writePending c [(c.agp r.dst s).binding] r.issue s = false) (hsent : r.sent = false)
    (hhere : c.gather (if fmtWidth (c.agp r.dst s).fmt % 8 = 0 then [r.src] else [r.src, r.dst]) s = (some 0, t))
    (hcopy : dmaCopy c r.src r.dst (c.agp r.src s) (c.agp r.dst s) (c.bind (c.agp r.src s).binding s) (c.bind (c.agp r.dst s).binding s)
      (c.agp r.src s).size 0 t = ((⟨0, 0⟩, n), u))
    (hout : reqOut c.use u = false) :
    execDmaComplete k s = .next (dmaEnd k r 0 0 ((n * fmtWidth (c.agp r.dst s).fmt + 7) / 8) 0 u) := by
  have hgo : ¬(j.live = false ∨ dmaRecordReady r s = false ∨ writePending c [(c.agp r.dst s).binding] r.issue s = true) := by
    simp [hlive, hrec, hpend]
  have hok : ¬(0 : Nat) = 0xFF := by decide
  have huse : c.use = c0.use := by rw [hc]
  rw [huse] at hout
  simp only [execDmaComplete, hreqs, hj, hctx, ← hc, if_neg hgo, hsent, hhere, hcopy, hout, if_neg hok, Bool.false_eq_true, if_false, if_true]

/-- Settles O10, one clause per way of going on. -/
theorem barriersAndDmasComplete : Obligations.BarriersAndDmasComplete := by
  unfold Obligations.BarriersAndDmasComplete
  refine ⟨?localRelease, ?tellRoot, ?release, ?dma⟩
  case localRelease => exact fun job copyB group s b hb hfull htold => execLocalBarrierRelease_local hfull htold hb
  case tellRoot =>
    exact fun job copyB scope group m s b e hscope hb hfull htold he hm => execLocalBarrierRelease_tellsRoot hfull htold hscope hb he hm
  case release => exact fun group R copyB s e => execBarrierReleaseTime_due
  case dma =>
    rintro k n s t u r rest j c0 c a b hreqs hj hctx hc rfl rfl hlive hrec hpend hsent hhere hcopy hout
    exact execDmaComplete_copied hreqs hj hctx hc hlive hrec hpend hsent hhere hcopy hout

end Sys2Proof.Machine
end

section
/-! The tensor operations of a Quill: the next one runs by its kind, the oldest one that has run drains (05 R109, R122, R123). -/

namespace Sys2Proof.Machine

section
variable {q : Nat} {s : State} {o : OpRun} {j : JobRec} {c : OpCtx} {kind : Nat} {f : OpCtx → OpRun → State → State}
  (hnext : nextOp q s = some o) (hj : findJob (quill q s).job s = some j) (hworks : quillWorks q s = true)
  (hctx : opCtx j q o.loops o.scs (.op q o.issue) s = some c)
include hnext hj hworks hctx

/-- The next operation of a Quill that works runs under its kind's row (05 R122). -/
theorem onOp_kind (hkind : o.tod.kind = kind) : onOp q kind f s = f c o s := by
  simp only [onOp, hnext, hj, hkind, hworks, and_self, if_true, hctx]

/-- So does a vector operation, once no earlier write of its outputs is pending (05 R123). -/
theorem onVector_kind (hpend : writePending c (c.bindsOf o.tod.writes s) o.issue s = false) (hkind : o.tod.kind = kind) :
    onVector q kind f s = f c o s := by
  simp only [onVector, onOp_kind hnext hj hworks hctx hkind, hpend, Bool.false_eq_true, if_false]

end

/-- An operation that has run and whose outputs are all written drains (05 R109; 03 R79). -/
theorem execTensorOpDrain_written {q fl : Nat} {s t : State} {o : OpRun} {rest : List OpRun} {j : JobRec} {c : OpCtx}
    (hops : (quill q s).ops = o :: rest) (hj : findJob (quill q s).job s = some j) (hran : o.ran = true) (hdrained : o.drained = false)
    (hworks : quillWorks q s = true) (hctx : opCtx j q o.loops o.scs (.op q o.issue) s = some c)
    (hpend : writePending c (c.bindsOf o.tod.writes s) o.issue s = false) (hdrain : drainOuts c o s = ((⟨0, 0⟩, fl), t)) :
    execTensorOpDrain q s
      = .next (let t1 := if o.tod.accOut = 1 ∧ o.tod.floatPath = false ∧ (o.tod.kind = 1 ∨ o.tod.kind = 2)
                         then notePartials c.job c.copyB (c.agp o.tod.agpC t).binding o.unit t else t
               let u := endEvents c o (orNumeric c.job fl t1)
               opDone q o.issue (if o.tod.accOut = 1 then u else addCtr 1 (q / 4) 0x48 o.outs.length u)) := by
  have hgo : ¬(o.ran = false ∨ o.drained = true ∨ quillWorks q s = false) := by simp [hran, hdrained, hworks]
  simp only [execTensorOpDrain, hops, hj, if_neg hgo, hctx, hpend, hdrain, ne_eq, not_true_eq_false, Bool.false_eq_true, if_false]

/-- Settles O11: the matrix kinds run as they come, the vector kinds after the earlier writes of their outputs; then the drain. -/
theorem tensorOperationsRun : Obligations.TensorOperationsRun := by
  unfold Obligations.TensorOperationsRun
  refine ⟨?matrix, ?vector, ?drain⟩
  case matrix =>
    intro q bad s o j c hnext hj hworks hctx
    exact ⟨fun hkind => congrArg Host.Outcome.next (onOp_kind hnext hj hworks hctx hkind),
      fun hkind => congrArg Host.Outcome.next (onOp_kind hnext hj hworks hctx hkind)⟩
  case vector =>
    intro q s o j c hnext hj hworks hctx hpend
    have hrun : ∀ {kind : Nat} {f : OpCtx → OpRun → State → State}, o.tod.kind = kind →
        Host.Outcome.next (onVector q kind f s) = (.next (f c o s) : Out) :=
      fun hkind => congrArg Host.Outcome.next (onVector_kind hnext hj hworks hctx hpend hkind)
    exact ⟨hrun, hrun, hrun, hrun, hrun, hrun⟩
  case drain => exact fun q fl s t o rest j c => execTensorOpDrain_written

end Sys2Proof.Machine
end

section
/-! The cache commands on contexts past their checks: what each answers and the state it leaves, then the statement they make up (07 R162, R168 to R170,
R176, R187). -/

namespace Sys2Proof.Machine

/-- A context's Folios shared with the page table of another: each entry copied, each Folio's reference count one higher (07 R168). -/
def shareFolios (d : CtxDesc) (fs : List ((Nat × Nat) × Nat)) (s : State) : State :=
  fs.foldl (fun acc e =>
    let a := putPt d e.1.1 e.1.2 e.2 acc
    if e.2 = nullIdx then a else let x := folio e.2 a; putFolio e.2 { x with refs := x.refs + 1 } a) s

/-- A cache command's row ends as its effect says (07 R165, R167). -/
theorem nextRunCmd_ok {op : Nat} {f : CcCmd → State → Option (CcAns × State)} {s t : State} {c : CcCmd} {a : CcAns} (hhead : ccHead s = some c)
    (hok : c.ok = true) (hop : c.op = op) (hrun : f c s = some (a, t)) (hrow : 1 ≤ op ∧ op ≤ 9 := by decide) :
    (Host.Outcome.next (runCmd op f s) : Out) = .next (ccEnd c a s t) :=
  congrArg Host.Outcome.next (runCmd_ok hhead hok hop hrow.1 hrow.2 hrun)

section
variable {c : CcCmd} {s t : State} {d : CtxDesc}

/-- CTX_OPEN on a free context, with fields that are in range and a Folio that fits a slot (07 R162, R168). -/
theorem ctxOpenRun_free (hfree : (ctxDesc c.ctx s).state = 0)
    (hd : d = { state := 1, kFmt := byteAt c.b 24 % 16, vFmt := byteAt c.b 24 / 16, heads := byteAt c.b 25, dim32 := byteAt c.b 26, kvX := byteAt c.b 27,
                layers := leField c.b 28 2, pt := leField c.b 32 6, ptStride := leField c.b 40 4, gen := (ctxDesc c.ctx s).gen })
    (hunused : c.unused [(24, 30), (32, 38), (40, 44)] = true) (hfields : ctxFieldsOk d s = true) :
    ctxOpenRun c s = some (ccOk, putCtx c.ctx d s) := by
  have hlegal : ¬(c.unused [(24, 30), (32, 38), (40, 44)] && ctxFieldsOk d s) = false := by simp [hunused, hfields]
  rw [ctxOpenRun, if_neg (not_not_intro hfree), ← hd, if_neg hlegal]

/-- CTX_CLOSE on an active context: its blocks released first, then limbo (07 R168, R170, R176). -/
theorem ctxCloseRun_active (hactive : (ctxDesc c.ctx s).state = 1) (hunused : c.unused [] = true) :
    ctxCloseRun c s
      = some (ccOk,
          let d := ctxDesc c.ctx s
          let s1 := releaseBlocks d 0 (blocksFor d.reserved) s
          let s2 := putCtx c.ctx { d with state := 2, stamp := newStamp s1 } s1
          wantAdvance { s2 with cc := { s2.cc with limboCtxs := s2.cc.limboCtxs ++ [(c.ctx, newStamp s1)] } }) := by
  have hlegal : ¬c.unused [] = false := by simp [hunused]
  rw [ctxCloseRun, if_neg (not_not_intro hactive), if_neg hlegal]

/-- CTX_FORK of a settled active context onto a free one, within the source's length, the new page table and the reference counts (07 R168). -/
theorem ctxForkRun_settled {fs : List ((Nat × Nat) × Nat)} (hsrc : c.arg0 < 2 ^ 18) (hactive : (ctxDesc c.arg0 s).state = 1)
    (hsettled : (ctxDesc c.arg0 s).reserved = (ctxDesc c.arg0 s).len) (hfree : (ctxDesc c.ctx s).state = 0) (hlen : c.arg1 ≤ (ctxDesc c.arg0 s).len)
    (hd : d = { ctxDesc c.arg0 s with state := 1, len := c.arg1, reserved := c.arg1, pt := leField c.b 32 6, ptStride := leField c.b 40 4, stamp := 0,
                                      gen := (ctxDesc c.ctx s).gen })
    (hunused : c.unused [(32, 38), (40, 44)] = true) (htable : d.pt % 4 = 0 ∧ 1 ≤ d.ptStride ∧ d.ptStride ≤ 65536 ∧ c.arg1 ≤ d.ptStride * 16)
    (hfs : fs = ctxFolios (ctxDesc c.arg0 s) (blocksFor c.arg1) s)
    (hrefs : ∀ e ∈ fs, e.2 ≠ nullIdx → (folio e.2 s).refs + (fs.filter (fun x => x.2 == e.2)).length ≤ 65535) :
    ctxForkRun c s = some (ccOk, putCtx c.ctx d (shareFolios d fs s)) := by
  have hstates : ¬((ctxDesc c.arg0 s).state ≠ 1 ∨ (ctxDesc c.arg0 s).reserved ≠ (ctxDesc c.arg0 s).len ∨ (ctxDesc c.ctx s).state ≠ 0) := by
    simp [hactive, hsettled, hfree]
  have hlegal : ¬(c.unused [(32, 38), (40, 44)]
      && decide (d.pt % 4 = 0 ∧ 1 ≤ d.ptStride ∧ d.ptStride ≤ 65536 ∧ c.arg1 ≤ d.ptStride * 16)) = false := by
    rw [hunused, decide_eq_true htable]
    exact Bool.noConfusion
  have hroom : ¬fs.any (fun e => e.2 != nullIdx && decide (65535 < (folio e.2 s).refs + (fs.filter (fun x => x.2 == e.2)).length)) = true := by
    simpa using hrefs
  subst hd hfs
  rw [ctxForkRun, if_neg (Nat.not_le.mpr hsrc), if_neg hstates, if_neg (Nat.not_lt.mpr hlen), if_neg hlegal]
  exact if_neg hroom

/-- APPEND on an active context, within its page table, with a Folio and a slot for every block of every layer (07 R168, R169). -/
theorem appendRun_fits {lo hi : Nat} (hd : d = ctxDesc c.ctx s) (hactive : d.state = 1) (hpos : 1 ≤ c.arg0) (hmax : c.arg0 ≤ 4096) (hunused : c.unused [] = true)
    (hroom : d.reserved + c.arg0 ≤ d.ptStride * 16) (hlo : lo = d.reserved / 16) (hhi : hi = blocksFor (d.reserved + c.arg0)) (hinj : armed 6 0 30 s = false)
    (hfolios : d.layers * (hi - lo) ≤ s.cc.freeFolios.length) (hslots : d.layers * (hi - lo) ≤ s.cc.freeSlots.length)
    (hblocks : foldSome (fun e a => appendBlock d e.1 e.2 a)
      ((List.range d.layers).flatMap (fun l => (List.range (hi - lo)).map (fun b => (l, lo + b)))) s = some t) :
    appendRun c s = some (ccOk, putCtx c.ctx { d with reserved := d.reserved + c.arg0 } t) := by
  have hlegal : ¬(d.state ≠ 1 ∨ c.arg0 = 0 ∨ 4096 < c.arg0 ∨ c.unused [] = false) := by simp [hactive, hunused]; omega
  have hpool : ¬(armed 6 0 30 s = true ∨ s.cc.freeFolios.length < d.layers * (hi - lo) ∨ s.cc.freeSlots.length < d.layers * (hi - lo)) := by
    simp [hinj, hfolios, hslots]
  subst hd hlo hhi
  rw [appendRun, if_neg hlegal, if_neg (Nat.not_lt.mpr hroom), if_neg hpool, hblocks]

/-- COMMIT on an active context whose path lies below its reserved length: shared blocks are copied, the path moves down, the rest is released
(07 R168, R187). -/
theorem commitRun_within {path : List Nat} {moves : List (Nat × Nat)} (hd : d = ctxDesc c.ctx s) (hactive : d.state = 1) (hmax : c.arg0 ≤ 32)
    (hunused : c.unused [(24, 24 + c.arg0)] = true) (hpath : path = (List.range c.arg0).map (fun j => byteAt c.b (24 + j)))
    (hbelow : ∀ p ∈ path, d.len + p < d.reserved) (hmoves : moves = ((List.range c.arg0).zip path).filter (fun m => m.1 != m.2))
    (hcopies : foldSome (fun e a => cow d e.1 e.2 a)
      ((List.range d.layers).flatMap (fun l => ((moves.map (fun m => (d.len + m.1) / 16)).eraseDups).map (fun b => (l, b)))) s = some t) :
    commitRun c s
      = some (ccOk, putCtx c.ctx { d with len := d.len + c.arg0, reserved := d.len + c.arg0 }
          (releaseBlocks d (blocksFor (d.len + c.arg0)) (blocksFor d.reserved)
            (moves.foldl (fun acc m => (List.range d.layers).foldl (fun a l => moveToken d l (d.len + m.2) (d.len + m.1) a) acc) t))) := by
  have hlegal : ¬(d.state ≠ 1 ∨ 32 < c.arg0 ∨ c.unused [(24, 24 + c.arg0)] = false) := by simp [hactive, hunused, hmax]
  have hwithin : ¬path.any (fun p => decide (d.reserved ≤ d.len + p)) = true := by simpa using hbelow
  subst hd hpath hmoves
  rw [commitRun, if_neg hlegal, if_neg hwithin]
  simp only [hcopies]

/-- TRUNCATE of an active context to no more than its length (07 R168). -/
theorem truncateRun_within (hd : d = ctxDesc c.ctx s) (hactive : d.state = 1) (hunused : c.unused [] = true) (hlen : c.arg0 ≤ d.len) :
    truncateRun c s
      = some (ccOk, putCtx c.ctx { d with len := c.arg0, reserved := c.arg0 } (releaseBlocks d (blocksFor c.arg0) (blocksFor d.reserved) s)) := by
  have hlegal : ¬(d.state ≠ 1 ∨ c.unused [] = false) := by simp [hactive, hunused]
  subst hd
  rw [truncateRun, if_neg hlegal, if_neg (Nat.not_lt.mpr hlen)]

end

/-- Settles O13, one clause per command: its answer and effect past its checks, ended as any command at the head of its queue. -/
theorem cacheContextCommands : Obligations.CacheContextCommands := by
  unfold Obligations.CacheContextCommands
  refine ⟨?ctxOpen, ?ctxClose, ?ctxFork, ?append, ?commit, ?truncate⟩
  case ctxOpen =>
    intro s c d hhead hok hop hfree hd hunused hfields
    exact nextRunCmd_ok hhead hok hop (ctxOpenRun_free hfree hd hunused hfields)
  case ctxClose =>
    intro s c hhead hok hop hactive hunused
    exact nextRunCmd_ok hhead hok hop (ctxCloseRun_active hactive hunused)
  case ctxFork =>
    intro s c d fs hhead hok hop hsrc hactive hsettled hfree hlen hd hunused halign hstride hmax hroom hfs hrefs
    exact nextRunCmd_ok hhead hok hop
      (ctxForkRun_settled hsrc hactive hsettled hfree hlen hd hunused ⟨halign, hstride, hmax, hroom⟩ hfs hrefs)
  case append =>
    intro s t c d lo hi hhead hok hop hd hactive hpos hmax hunused hroom hlo hhi hinj hfolios hslots hblocks
    exact nextRunCmd_ok hhead hok hop
      (appendRun_fits hd hactive hpos hmax hunused hroom hlo hhi hinj hfolios hslots hblocks)
  case commit =>
    intro s t c d path moves hhead hok hop hd hactive hmax hunused hpath hbelow hmoves hcopies
    exact nextRunCmd_ok hhead hok hop
      (commitRun_within hd hactive hmax hunused hpath hbelow hmoves hcopies)
  case truncate =>
    intro s c d hhead hok hop hd hactive hunused hlen
    exact nextRunCmd_ok hhead hok hop (truncateRun_within hd hactive hunused hlen)

end Sys2Proof.Machine
end

section
/-! Re-ink, tickets and limbo: what each row answers past its checks and the state it leaves, then the statement they make up (07 R168, R172, R174,
R190). -/

namespace Sys2Proof.Machine

section
variable {c : CcCmd} {s : State}

/-- REINK_BEGIN of a live Folio with a slot and a ticket free (07 R168, R172, R190). -/
theorem reinkBeginRun_live {sl : Nat} {ss : List Nat} (hfolio : c.arg0 < rdField 6 0 0x420 23 0 s) (hunused : c.unused [] = true)
    (hlive : (folio c.arg0 s).state = 1) (hslots : s.cc.freeSlots = sl :: ss) (htickets : s.cc.tickets.length < 512) :
    reinkBeginRun c s
      = some (let t := putFolio c.arg0 { folio c.arg0 s with state := 3 }
                { s with cc := { s.cc with freeSlots := ss, reinks := s.cc.reinks ++ [(c.arg0, sl)] } }
              ({ ccOk with value := sl + (folio c.arg0 t).gen * 2 ^ 24 }, takeTicket (.reink c.arg0 sl c.job) [] t)) := by
  have hlegal : ¬(rdField 6 0 0x420 23 0 s ≤ c.arg0 ∨ c.unused [] = false) := by simp [hfolio, hunused]
  rw [reinkBeginRun, if_neg hlegal, if_neg (not_not_intro hlive), hslots]
  exact if_neg (Nat.not_le.mpr htickets)

/-- REINK_END of a Folio that has not changed since: the new slot in place, the old one in limbo (07 R168, R190). -/
theorem reinkEndRun_unchanged {x : FolioDesc} (hreink : s.cc.reinks.contains (c.arg0, c.arg1) = true) (hunused : c.unused [(24, 26)] = true)
    (hkFmt : kvFmtOk (byteAt c.b 24 % 16) = true) (hvFmt : kvFmtOk (byteAt c.b 24 / 16) = true) (hx : x = folio c.arg0 s) (hstate : x.state = 3)
    (hgen : x.gen = byteAt c.b 25) :
    reinkEndRun c s
      = some (ccOk, slotLimbo x.slot
          (putFolio c.arg0 { x with slot := c.arg1, kFmt := byteAt c.b 24 % 16, vFmt := byteAt c.b 24 / 16, state := 1 }
            (dropTicket (isReink c.arg0 c.arg1) { s with cc := { s.cc with reinks := s.cc.reinks.filter (fun e => e != (c.arg0, c.arg1)) } }))) := by
  have hlegal : ¬(s.cc.reinks.contains (c.arg0, c.arg1) = false ∨ c.unused [(24, 26)] = false ∨ kvFmtOk (byteAt c.b 24 % 16) = false
      ∨ kvFmtOk (byteAt c.b 24 / 16) = false) := by
    rw [hreink, hunused, hkFmt, hvFmt]
    decide
  have hfresh : ¬(x.state ≠ 3 ∨ x.gen ≠ byteAt c.b 25) := by simp [hstate, hgen]
  subst hx
  rw [reinkEndRun, if_neg hlegal]
  exact if_neg hfresh

/-- REINK_ABORT of a Re-ink in progress: the new slot in limbo, a Folio still marked live again (07 R168, R190). -/
theorem reinkAbortRun_open (hreink : s.cc.reinks.contains (c.arg0, c.arg1) = true) (hunused : c.unused [] = true) :
    reinkAbortRun c s
      = some (ccOk, slotLimbo c.arg1 (
          let t := dropTicket (isReink c.arg0 c.arg1) { s with cc := { s.cc with reinks := s.cc.reinks.filter (fun e => e != (c.arg0, c.arg1)) } }
          if (folio c.arg0 s).state = 3 then putFolio c.arg0 { folio c.arg0 s with state := 1 } t else t)) := by
  have hlegal : ¬(s.cc.reinks.contains (c.arg0, c.arg1) = false ∨ c.unused [] = false) := by
    rw [hreink, hunused]
    decide
  rw [reinkAbortRun, if_neg hlegal]

end

/-- The snapshots that a launch's ticket takes of its contexts (07 R172, R175). -/
def launchSnaps (layer : Nat) (es : List AttnEntry) (u : State) : List CtxSnap :=
  es.map (fun e => { ctx := e.ctx, len := (ctxDesc e.ctx u).len, reserved := (ctxDesc e.ctx u).reserved, entries := snapEntries (ctxDesc e.ctx u) layer u })

/-- A launch's ticket taken by the operation that asked for it, which waits no longer (07 R172). -/
def launchTicket (q : Nat) (o : OpRun) (es : List AttnEntry) (u : State) : State :=
  updOp q o.issue (fun x => { x with ticket := some u.cc.launches })
    (takeTicket (.launch u.cc.launches) (launchSnaps (AttnPar.read o.tod.tail).layer es u)
      { u with cc := { u.cc with launches := u.cc.launches + 1, waiting := u.cc.waiting.filter (fun x => x != q) } })

section
variable {q : Nat} {s t u : State} {o : OpRun} {j : JobRec} {c : OpCtx} {es : List AttnEntry} {ps : List Int}
  (hctx : opCtx j q o.loops o.scs (.op q o.issue) s = some c) (hentries : attnEntries c (AttnPar.read o.tod.tail) s = (some es, t))
  (hparents : attnParents c (AttnPar.read o.tod.tail) es t = (some ps, u)) (hfault : launchFault o.tod (AttnPar.read o.tod.tail) es ps u = none)
include hctx hentries hparents hfault

/-- A launch whose contexts and parents can be read and hold no fault is granted its ticket (07 R172, R178). -/
theorem grantTicket_valid : grantTicket q j o s = launchTicket q o es u := by
  simp only [grantTicket, hctx, hentries, hparents, hfault, launchTicket, launchSnaps]

/-- TICKET_GRANT with a ticket free, for a launch that asks for one on a Quill that works (07 R172). -/
theorem execTicketGrant_free (hwants : wantsTicket q s = some o) (hj : findJob (quill q s).job s = some j) (hon : ccOn s = true)
    (hworks : quillWorks q s = true) (htickets : s.cc.tickets.length < 512) : execTicketGrant q s = .next (launchTicket q o es u) := by
  have hgo : ¬(ccOn s = false ∨ quillWorks q s = false) := by simp [hon, hworks]
  simp only [execTicketGrant, hwants, hj, if_neg hgo, if_neg (Nat.not_le.mpr htickets), grantTicket_valid hctx hentries hparents hfault]

end

section
variable {s : State} {i st : Nat} {r : List (Nat × Nat)} (hreached : stampReached st s = true)
include hreached

/-- LIMBO_RECLAIM of the oldest Folio in limbo, which joins the free list at its end (07 R163, R174). -/
theorem execLimboReclaim_folio (hlimbo : s.cc.limboFolios = (i, st) :: r) :
    execLimboReclaim 0 s
      = .next (let t := linkTail s.cc.freeFolios i (putFolio i { folio i s with state := 0, next := nullIdx } s)
               { t with cc := { t.cc with limboFolios := r, freeFolios := t.cc.freeFolios ++ [i] } }) := by
  simp only [execLimboReclaim, hlimbo, hreached, if_true]

/-- LIMBO_RECLAIM of the oldest slot in limbo (07 R174). -/
theorem execLimboReclaim_slot (hlimbo : s.cc.limboSlots = (i, st) :: r) :
    execLimboReclaim 1 s = .next { s with cc := { s.cc with limboSlots := r, freeSlots := s.cc.freeSlots ++ [i] } } := by
  simp only [execLimboReclaim, hlimbo, hreached, if_true]

/-- LIMBO_RECLAIM of the oldest context in limbo (07 R174, R176). -/
theorem execLimboReclaim_context (hlimbo : s.cc.limboCtxs = (i, st) :: r) :
    execLimboReclaim 2 s
      = .next (let t := wrBytes (ccAddr 0x404 s + 64 * i) { ctxDesc i s with state := 0 }.bytes s
               { t with cc := { t.cc with limboCtxs := r } }) := by
  simp only [execLimboReclaim, hlimbo, hreached, if_true]

end

/-- Settles O14, one clause per row; the Re-ink rows end as any cache command does. -/
theorem cacheFoliosAndTickets : Obligations.CacheFoliosAndTickets := by
  unfold Obligations.CacheFoliosAndTickets
  refine ⟨?reinkBegin, ?reinkEnd, ?reinkAbort, ?ticketGrant, ?ticketReturn, ?folio, ?slot, ?context⟩
  case reinkBegin =>
    intro s c sl ss hhead hok hop hfolio hunused hlive hslots htickets
    exact nextRunCmd_ok hhead hok hop (reinkBeginRun_live hfolio hunused hlive hslots htickets)
  case reinkEnd =>
    intro s c x hhead hok hop hreink hunused hkFmt hvFmt hx hstate hgen
    exact nextRunCmd_ok hhead hok hop (reinkEndRun_unchanged hreink hunused hkFmt hvFmt hx hstate hgen)
  case reinkAbort =>
    intro s c hhead hok hop hreink hunused
    exact nextRunCmd_ok hhead hok hop (reinkAbortRun_open hreink hunused)
  case ticketGrant =>
    intro q s t u o j c es ps hwants hj hon hworks htickets hctx hentries hparents hfault
    exact execTicketGrant_free hctx hentries hparents hfault hwants hj hon hworks htickets
  case ticketReturn => exact fun s => rfl
  case folio => exact fun s f st r hlimbo hreached => execLimboReclaim_folio hreached hlimbo
  case slot => exact fun s f st r hlimbo hreached => execLimboReclaim_slot hreached hlimbo
  case context => exact fun s c st r hlimbo hreached => execLimboReclaim_context hreached hlimbo

end Sys2Proof.Machine
end

section
/-! The Fine Nibs' rows in the forms that go through, and the layer that no row reaches (08 R211 to R217). -/

namespace Sys2Proof.Machine

/-- FN_LAYER with a descriptor of 64 bytes that breaks no check, for a running job: its layer is the one in progress (08 R211, R212, R214). -/
theorem execFnLayer_valid {s t u : State} {b : List Byte} {j : JobRec} (htakes : fnTakes s = true)
    (htake : engineTake (rdField 9 0 0x40 19 0 s) s = some (b, t)) (hlen : b.length = 64)
    (hu : u = { t with fn := { t.fn with taken := t.fn.taken + 1 } }) (hvalid : (FnDesc.read b).bad b u = none)
    (hj : findJob (FnDesc.read b).job u = some j) (hrunning : j.phase = .running) :
    execFnLayer s
      = .next { u with fn := { u.fn with cur := some { desc := b, pos := t.fn.taken % 65536, start := t.time.clk, rowAt := t.time.clk, sent := false,
                                                       pixels := 0, refused := false } } } := by
  have hgo : ¬fnTakes s = false := by simp [htakes]
  have hrun : (j.phase == .running) = true := beq_iff_eq.mpr hrunning
  subst hu
  simp only [execFnLayer, if_neg hgo, htake, if_neg (not_not_intro hlen), hvalid, hj, hrun, Bool.true_eq_false, if_false]

section
variable {s : State} {r : FnRun} (hcur : s.fn.cur = some r) (hpush : pushGoes (FnDesc.read r.desc).queue 16 false s = true)
include hcur hpush

/-- FN_SOURCE_STALL of a layer fed by a stream that holds no row and has no sample under way, at its limit: cause 4 (08 R215, R217). -/
theorem execFnSourceStall_limit (hsource : (FnDesc.read r.desc).last = false) (hfeed : fnFeedOf (FnDesc.read r.desc).stream s = none)
    (hlimit : (rdReg 9 0 0x48 s).toNat ≠ 0) (hinj : armed 9 0 6 s = false) (hsamples : s.car.samples = []) :
    execFnSourceStall s
      = .next (let d := FnDesc.read r.desc
               fnFail r.desc 4 0 { c := 9, i := 0, bit := 6, code := 0x2300, job := d.job, ctx := r.pos,
                                   payload := d.stream + (d.stream * 2 ^ 27 + (stream d.stream s).seq) * 2 ^ 8 + injFlag false }
                 (advanceTo (r.rowAt + (rdReg 9 0 0x48 s).toNat * oneUs) s)) := by
  have hgo : ¬((FnDesc.read r.desc).last = true ∨ (fnFeedOf (FnDesc.read r.desc).stream s).isSome = true
      ∨ ((rdReg 9 0 0x48 s).toNat = 0 ∧ armed 9 0 6 s = false) ∨ pushGoes (FnDesc.read r.desc).queue 16 false s = false) := by
    simp [hsource, hfeed, hlimit, hpush]
  simp only [execFnSourceStall, hcur, if_neg hgo]
  simp only [hinj, hsamples, List.find?_nil, Bool.false_eq_true, if_false]

variable {j : JobRec} (hj : findJob (FnDesc.read r.desc).job s = some j) (hrunning : j.phase = .running)
include hj hrunning

/-- FN_LAYER_COMPLETE of a layer whose outputs went to another device, with every write answered and none refused (08 R214). -/
theorem execFnLayerComplete_answered {u : Upset} (hsent : r.sent = true) (hanswered : reqOut .fine s = false) (hkept : r.refused = false) :
    execFnLayerComplete u s = .next (fnEnd r.desc 0 r.pixels 0 s) := by
  have hrun : (j.phase == .running) = true := beq_iff_eq.mpr hrunning
  simp only [execFnLayerComplete, hcur, hpush, hj, hrun, hsent, hanswered, hkept, Bool.true_eq_false, Bool.false_eq_true, if_true, if_false]

/-- FN_LAYER_COMPLETE of a layer read from memory, on a powered engine with no error of its SRAM, once its source is read: it runs over the values
there (08 R211, R213). -/
theorem execFnLayerComplete_fromMemory {t : State} {d : FnDesc} {g : ConvGeo} {n es : Nat} (hd : d = FnDesc.read r.desc) (hunsent : r.sent = false)
    (henabled : blockEnabled 9 0 s = true) (hpowered : domainOn 111 s = true) (hcooled : coolantLost s = false) (hfatal : armed 9 0 8 s = false)
    (hcorrected : armed 9 0 5 s = false) (hlast : d.last = true) (hg : g = d.geo d.inH d.inW) (hes : es = (if d.bf16 then 2 else 1))
    (hn : n = g.CB * g.H * g.W * g.b * es) (hread : fnRead (.fine (deviceId s) d.job) (n / 256 + 2) d.source n s = (⟨0, 0⟩, t)) :
    execFnLayerComplete .none s = .next (fnRun r d g (fun t i => rdLe t (d.source + i * es) es) t) := by
  have hgo : ¬(blockEnabled 9 0 s = false ∨ domainOn 111 s = false ∨ coolantLost s = true) := by simp [henabled, hpowered, hcooled]
  have hrun : (j.phase == .running) = true := beq_iff_eq.mpr hrunning
  subst hd hg hes hn
  simp only [execFnLayerComplete, hcur, hpush, hj, hrun, hunsent, if_neg hgo, hfatal, hcorrected, hlast, hread, ne_eq, not_true_eq_false,
    Bool.true_eq_false, Bool.false_eq_true, if_true, if_false]

end

end Sys2Proof.Machine
end

section
/-! The cameras' rows for packets whose header is good and for the link, then the statement that the Fine Nibs and the cameras make up
(12 R272 to R277, R282, R295). -/

namespace Sys2Proof.Machine

section
variable {csi vc hdr bad : Nat} {s t : State} (hruns : camRuns csi vc s = true) (hheader : csiHeader csi vc hdr bad (phyUp csi s) = (false, t))
include hruns hheader

/-- CSI_PACKET of image or embedded data with a good checksum and no error of the line buffer goes into its frame (12 R272, R273). -/
theorem execCsiPacket_good {dt : Nat} {p : List Byte} (htype : csiBits dt ≠ 0 ∨ dt = 0x12) (hcrc : armed 8 csi 6 t = false)
    (hfatal : armed 7 0 11 t = false) (hcorrected : armed 7 0 5 t = false) :
    execCsiPacket csi vc dt hdr bad p true false .none s = .next (packetIn csi vc dt p false t) := by
  have hgo : ¬camRuns csi vc s = false := by simp [hruns]
  have hkind : ¬(csiBits dt = 0 ∧ dt ≠ 0x12) := fun h => htype.elim (· h.1) h.2
  simp only [execCsiPacket, if_neg hgo, hheader, if_neg hkind, hcrc, hfatal, hcorrected, Bool.false_and, Bool.or_false, Bool.true_eq_false,
    Bool.false_eq_true, or_self, if_false]

/-- FRAME_END of a frame with as many lines as its stream has rows: its sample's rows are whole and its record follows (12 R273 to R277). -/
theorem execFrameEnd_whole {n : Nat} {f : CamFrame} {c : StreamCfg} (hcur : (camVc csi vc t).cur = some f) (hcfg : vcCfg csi vc t = some c)
    (hlines : f.lines = c.height) (hstream : vcStream csi vc t = some n) :
    execFrameEnd csi ⟨vc, hdr, bad⟩ s = .next (frameDone csi vc (frameSample n f.id t)) := by
  have hgo : ¬camRuns csi vc s = false := by simp [hruns]
  simp only [execFrameEnd, if_neg hgo, hheader, hcur, hcfg, if_neg (not_not_intro hlines), hstream, Bool.false_eq_true, if_false]

end

/-- A frame begun on a virtual channel, with a number that advances and no line yet (12 R274, R275). -/
def beginFrame (csi vc id number : Nat) (s : State) : State :=
  setVc csi vc { camVc csi vc s with
    number := number
    cur := some { id := id, fsTime := devNow s, number := number, lines := 0, fcrc := 0xFFFFFFFF, scrc := 0xFFFFFFFF, cause := 0, stalled := false,
                  advances := true, skip := false } } s

/-- The sample of a frame of stream `n`, started where its group takes one; dropped with an event where no slot is free (12 R282, R285). -/
def beginSample (n id : Nat) (s : State) : State :=
  if carRuns s = false ∨ grpTakes n s = false then s
  else match startSample n id [] false s with
    | some x => x
    | none => raise { c := 7, i := 0, bit := 8, code := 0x2702, ctx := n, payload := id } (bump 7 0 0xB8 1 s)

/-- FRAME_START of the first frame since the channel came up: the frame takes the stream's next number, and its sample begins (12 R274, R282). -/
theorem execFrameStart_first {csi vc number hdr bad n : Nat} {s t u v : State} (hruns : camRuns csi vc s = true)
    (hheader : csiHeader csi vc hdr bad (phyUp csi s) = (false, t)) (hidle : (camVc csi vc t).cur = none) (hfirst : (camVc csi vc t).crcs = none)
    (hnumber : number ≠ 0) (hv : v = addCtr 8 csi 0x5C 1 t) (hstream : vcStream csi vc v = some n)
    (hu : u = setStream n { stream n v with seq := ((stream n v).seq + 1) % 2 ^ 27 } v) :
    execFrameStart csi ⟨vc, hdr, bad⟩ number s
      = .next (beginSample n (n * 2 ^ 27 + (stream n v).seq) (beginFrame csi vc (n * 2 ^ 27 + (stream n v).seq) number u)) := by
  have hgo : ¬camRuns csi vc s = false := by simp [hruns]
  have hadvances : (number != 0) = true := bne_iff_ne.mpr hnumber
  subst hv hu
  simp only [execFrameStart, if_neg hgo, hheader, hidle, hfirst, hadvances, hstream, Option.isSome_none, Option.isNone_none, Bool.true_or, Bool.and_false,
    Bool.false_and, Bool.and_self, Bool.not_true, Bool.false_eq_true, if_false]
  rfl

/-- CAM_LINK_LOST of an enabled receiver whose clock lane was active (12 R295). -/
theorem execCamLinkLost_active {csi lanes : Nat} {s : State} (hcsi : csi < 12) (hchannels : rdField 8 csi 0x44 15 0 s ≠ 0)
    (henabled : blockEnabled 8 csi s = true) (hpowered : domainOn 110 s = true) (hactive : s.car.phy.contains csi = true) :
    execCamLinkLost csi lanes s
      = .next (raise { c := 8, i := csi, bit := 10, code := 0x5800, payload := lanes % 16 }
          { s with car := { s.car with phy := s.car.phy.filter (fun x => x != csi) } }) := by
  have hgo : ¬(12 ≤ csi ∨ rdField 8 csi 0x44 15 0 s = 0 ∨ blockEnabled 8 csi s = false ∨ domainOn 110 s = false ∨ s.car.phy.contains csi = false) := by
    rw [henabled, hpowered, hactive]
    simp [hcsi, hchannels]
  rw [execCamLinkLost, if_neg hgo]

/-- Settles O21, one clause per row. -/
theorem fineNibsAndCameras : Obligations.FineNibsAndCameras := by
  unfold Obligations.FineNibsAndCameras
  refine ⟨?layer, ?stall, ?answered, ?fromMemory, ?packet, ?frameStart, ?frameEnd, ?linkLost, ?clockReturn⟩
  case layer =>
    rintro s t b htakes htake hlen hvalid ⟨j, hj, hrunning⟩
    exact execFnLayer_valid htakes htake hlen rfl hvalid hj hrunning
  case stall =>
    intro s r hcur hsource hfeed hlimit hinj hsamples hpush
    exact execFnSourceStall_limit hcur hpush hsource hfeed hlimit hinj hsamples
  case answered =>
    intro u s r j hcur hj hrunning hpush hsent hanswered hkept
    exact execFnLayerComplete_answered hcur hpush hj hrunning hsent hanswered hkept
  case fromMemory =>
    rintro s t r j _ g n es hcur rfl hj hrunning hunsent hpush henabled hpowered hcooled hfatal hcorrected hlast hg hes hn hread
    exact execFnLayerComplete_fromMemory hcur hpush hj hrunning rfl hunsent henabled hpowered hcooled hfatal hcorrected hlast hg hes hn hread
  case packet =>
    intro csi vc dt hdr bad p s t hruns hheader htype hcrc hfatal hcorrected
    exact execCsiPacket_good hruns hheader htype hcrc hfatal hcorrected
  case frameStart =>
    intro csi vc number hdr bad n s t u hruns hheader hidle hfirst hnumber hstream hu
    exact execFrameStart_first hruns hheader hidle hfirst hnumber rfl hstream hu
  case frameEnd =>
    intro csi vc hdr bad n s t f c hruns hheader hcur hcfg hlines hstream
    exact execFrameEnd_whole hruns hheader hcur hcfg hlines hstream
  case linkLost =>
    intro csi lanes s hcsi hchannels henabled hpowered hactive
    exact execCamLinkLost_active hcsi hchannels henabled hpowered hactive
  case clockReturn => exact fun csi s hcsi => congrArg Host.Outcome.next (if_pos hcsi)

end Sys2Proof.Machine
end

section
/-! SUPPORT. The registers of an Inkwell: what a word written to its window command, its bank control or its debug register does
(09 R220 to R226, R229). -/

namespace Sys2Proof.Machine

section
variable {n idx : Nat} {s : State} (hidx : idx = rdField 3 n 0x4C 6 0 s)
include hidx

/-- Window command 1 opens the selected entry from the staged words, where the checks of the open pass (09 R220, R221). -/
theorem wrWinCmd_open (hok : windowOpenOk n idx (stagedBytes 3 n 0x50 8 s) s = true) :
    wrWinCmd n 1 s
      = setSpad n ((spad n s).setWin idx { windowOf (stagedBytes 3 n 0x50 8 s) with state := .opened, refused := 0 }) s := by
  subst hidx
  exact if_pos hok

/-- Window command 2 closes the selected entry, where it is open (09 R224). -/
theorem wrWinCmd_close (hopen : ((spad n s).win idx).state = .opened) :
    wrWinCmd n 2 s = setSpad n ((spad n s).setWin idx { (spad n s).win idx with state := .closed }) s := by
  subst hidx
  exact if_pos hopen

end

/-- A request's word holds its owner, its direction and its bank in fields of their own (09 SPAD_BANK_CTRL). -/
theorem bankCtrl_fields {b owner : Nat} (wake : Bool) (hb : b < 16) (howner : owner < 65536) :
    (bankCtrl wake b owner).field 3 0 = b ∧ (bankCtrl wake b owner).field 31 16 = owner ∧ (bankCtrl wake b owner).field 8 8 = b2n wake := by
  have hwake := b2n_lt_two wake
  simp only [bankCtrl, Word.field, BitVec.toNat_ofNat]
  omega

/-- A power-down word that R226 accepts is a power-down request to its bank. -/
theorem wrBankCtrl_down {n b owner : Nat} {s : State} (hb : b < 16) (howner : owner < 65536) (hok : bankCmdOk n b owner true s = true) :
    wrBankCtrl n (bankCtrl false b owner) s = bankDown n b owner s := by
  obtain ⟨hbank, hjob, hdir⟩ := bankCtrl_fields false hb howner
  have hdown : (b2n false == 0) = true := rfl
  simp only [wrBankCtrl, hbank, hjob, hdir, hdown, hok, Bool.true_eq_false, if_true, if_false]

/-- A wake word that R226 accepts is a wake request to its bank. -/
theorem wrBankCtrl_wake {n b owner : Nat} {s : State} (hb : b < 16) (howner : owner < 65536) (hok : bankCmdOk n b owner false s = true) :
    wrBankCtrl n (bankCtrl true b owner) s = bankWake n b owner s := by
  obtain ⟨hbank, hjob, hdir⟩ := bankCtrl_fields true hb howner
  have hup : (b2n true == 0) = false := rfl
  simp only [wrBankCtrl, hbank, hjob, hdir, hup, hok, Bool.true_eq_false, Bool.false_eq_true, if_false]

/-- A bank that is ON drains at a power-down request, its windows closed (09 R225). -/
theorem bankDown_on {n b job : Nat} {s : State} (hon : ((spad n s).bank b).st = .on) :
    bankDown n b job s = bankTo n b .draining job (closeBank n b s) := by
  simp only [bankDown, hon]

/-- A bank that is OFF wakes at a wake request (09 R225). -/
theorem bankWake_off {n b job : Nat} {s : State} (hoff : ((spad n s).bank b).st = .off) :
    bankWake n b job s = bankTo n b .waking job s := by
  simp only [bankWake, hoff]

/-- The debug word 1 holds the zero-fill, where debug is unlocked (09 R229). -/
theorem wrSpadDebug_hold {n : Nat} {s : State} (hdebug : debugOpen s = true) : wrSpadDebug n 1 s = wrReg 3 n 0x94 1 s :=
  if_pos hdebug

/-- The debug word 0 makes the held fills due (09 R229). -/
theorem wrSpadDebug_release (n : Nat) (s : State) : wrSpadDebug n 0 s = releaseHeld n (wrReg 3 n 0x94 0 s) := rfl

end Sys2Proof.Machine
end

section
/-! The scratchpads' rows that no register write starts, then the statement that the scratchpads' rows make up (09 R220 to R231). -/

namespace Sys2Proof.Machine

/-- SPAD_REQUEST within one Inkwell by a requester other than the debug port runs through the access rules, after what the array gives it
(09 R222, R223, R228). -/
theorem execSpadRequest_inside {w : Who} {k : Acc3} {addr len : Nat} {data : List Byte} {u : Upset} {s t : State} {a : AccRes × State}
    (hbase : spadBase ≤ addr) (htop : addr + len ≤ spadTop) (hsome : 1 ≤ len) (hmost : len ≤ 256) (hone : spadOff addr + len ≤ 0x800000)
    (hdata : k ≠ .read → data.length = len) (hwho : w ≠ .debug) (ht : t = spadUpset (spadOf addr) u s)
    (ha : a = access 3 (spadOf addr) (spadOff addr / 0x80000) w k addr len data t) :
    execSpadRequest w k addr len data u s = .next (requestEnd w a.1.status t a.2) := by
  have hlen : ¬(k ≠ .read ∧ data.length ≠ len) := fun h => h.2 (hdata h.1)
  have hgo : ¬(addr < spadBase ∨ spadTop < addr + len ∨ len = 0 ∨ 256 < len ∨ 0x800000 < spadOff addr + len ∨ (k ≠ .read ∧ data.length ≠ len)) := by
    simp only [hlen, or_false]
    omega
  subst ht ha
  simp only [execSpadRequest, if_neg hgo, hwho, false_and, if_false]

/-- WINDOW_EXPIRY of an open window that has a time brings that time (09 R222, R224). -/
theorem execWindowExpiry_opened {n w : Nat} {s : State} (hopen : ((spad n s).win w).state = .opened) (htime : ((spad n s).win w).expiry ≠ 0) :
    execWindowExpiry n w s = .next (advanceToDev ((spad n s).win w).expiry s) :=
  congrArg Host.Outcome.next (if_pos ⟨hopen, htime⟩)

section
variable {n b : Nat} {s : State} (hheld : ((spad n s).bank b).heldOp = false)
include hheld

/-- BANK_DRAINED of a draining bank that holds no wake: it is OFF 16 mesh cycles after it began to drain (09 R225). -/
theorem execBankDrained_off (hst : ((spad n s).bank b).st = .draining) :
    execBankDrained n b s
      = .next (bankTo n b .off ((spad n s).bank b).req (advanceTo (((spad n s).bank b).since + 2 * 16) s)) := by
  simp only [execBankDrained, if_neg (not_not_intro hst), hheld, Bool.false_eq_true, if_false]

/-- BANK_WAKE_DONE of a waking bank that holds no power-down: it is ON 9,692 mesh cycles after its wake, zero and with its bad rows spared
(09 R225, R232). -/
theorem execBankWakeDone_on (hst : ((spad n s).bank b).st = .waking) :
    execBankWakeDone n b s
      = .next (let t := zeroBytes (spadAddr n (b * 0x80000)) 0x80000 (advanceTo (((spad n s).bank b).since + 2 * 9692) s)
               let inB := fun w => w / 0x80000 == b
               bankTo n b .on ((spad n s).bank b).req
                 (((spad n t).badRows inB).foldl (fun acc r => spareRow n r acc) (setSpad n ((spad n t).clean inB) t))) := by
  simp only [execBankWakeDone, if_neg (not_not_intro hst), hheld, Bool.false_eq_true, if_false]

end

/-- SCRUB_STEP of a bank that is ON or DRAINING reads its next word after the write-back, discards what it finds in a word written in that
cycle, and moves on; past the last word a pass is counted (09 R231; DEDUCED, log entry 31). -/
theorem execScrubStep_running {n b w : Nat} {u : Upset} {s t v : State} (hb : b < 16)
    (hst : ((spad n s).bank b).st = .on ∨ ((spad n s).bank b).st = .draining) (hw : w = b * 0x80000 + ((spad n s).bank b).pos * 8)
    (ht : t = spadUpset n u (spadWriteBack n b s)) (hv : v = (if (spad n t).writtenNow w t.time.clk then t else scrubWord n b w t)) :
    execScrubStep n b u s
      = .next (setSpad n ((spad n v).setBank b { (spad n v).bank b with
          pos := (((spad n v).bank b).pos + 1) % 65536,
          passes := if ((spad n v).bank b).pos + 1 = 65536 then ((spad n v).bank b).passes + 1 else ((spad n v).bank b).passes }) v) := by
  have hgo : ¬((((spad n s).bank b).st ≠ .on ∧ ((spad n s).bank b).st ≠ .draining) ∨ 16 ≤ b) := by
    rintro (⟨hnotOn, hnotDraining⟩ | hpast)
    · exact hst.elim hnotOn hnotDraining
    · omega
  subst hv ht hw
  exact congrArg Host.Outcome.next (if_neg hgo)

/-- Settles O18, one clause per row or pair of rows. -/
theorem inkwellCommands : Obligations.InkwellCommands := by
  unfold Obligations.InkwellCommands
  refine ⟨?request, ?windows, ?expiry, ?bankRequests, ?drained, ?wakeDone, ?holdFill, ?scrub⟩
  case request =>
    intro w k addr len data u s hbase htop hsome hmost hone hdata hwho
    exact execSpadRequest_inside hbase htop hsome hmost hone hdata hwho rfl rfl
  case windows =>
    intro r n idx s hk hidx
    refine ⟨fun hok => ?opens, fun hopen => ?closes⟩
    case opens => exact congrArg Host.Outcome.next ((onReg_ok hk).trans (wrWinCmd_open hidx hok))
    case closes => exact congrArg Host.Outcome.next ((onReg_ok hk).trans (wrWinCmd_close hidx hopen))
  case expiry => exact fun n w s hopen htime => execWindowExpiry_opened hopen htime
  case bankRequests =>
    intro r n b owner s hk hb howner
    refine ⟨fun hok hon => ?down, fun hok hoff => ?wake⟩
    case down =>
      change execBankPowerDown r n b owner s = _
      rw [execBankPowerDown, onReg_ok hk, wrBankCtrl_down hb howner hok, bankDown_on hon]
    case wake =>
      change execBankWake r n b owner s = _
      rw [execBankWake, onReg_ok hk, wrBankCtrl_wake hb howner hok, bankWake_off hoff]
  case drained => exact fun n b s hst hheld => execBankDrained_off hheld hst
  case wakeDone => exact fun n b s hst hheld => execBankWakeDone_on hheld hst
  case holdFill =>
    intro r n s hk
    refine ⟨fun hdebug => ?hold, ?release⟩
    case hold => exact congrArg Host.Outcome.next ((onReg_ok hk).trans (wrSpadDebug_hold hdebug))
    case release => exact congrArg Host.Outcome.next ((onReg_ok hk).trans (wrSpadDebug_release n s))
  case scrub =>
    intro n b w u s t v hb hst hw ht hv
    exact execScrubStep_running hb hst hw ht hv

end Sys2Proof.Machine
end

section
/-! The address map of main memory: the location of a unit holds every bit of its number, the hash of its controller and channel taken back by the
number's upper bits, so that no two units share one; then the bounds of its rows (10 R235, R236). -/

namespace Sys2Proof.Machine

/-- What the upper bits of a unit's number put into the hash that picks its controller and channel (10 R235). -/
def unitHash (v : Nat) : Nat := natField v 5 0 ^^^ natField v 11 6 ^^^ natField v 17 12 ^^^ natField v 20 18

/-- A field of a number is that of the number without its `k` low bits, `k` places lower. -/
theorem natField_shift (n hi lo k : Nat) : natField n (hi + k) (lo + k) = natField (n / 2 ^ k) hi lo := by
  rw [natField, natField, Nat.div_div_eq_div_mul, ← Nat.pow_add, Nat.add_comm k lo, show hi + k + 1 - (lo + k) = hi + 1 - lo by omega]

/-- The location of an address, in the number of its unit above the unit's six low bits (10 R235). -/
theorem mcLoc_eq (a : Nat) :
    mcLoc a = { mc := (a / 2048 % 64 ^^^ unitHash (a / 131072)) % 8, ch := (a / 2048 % 64 ^^^ unitHash (a / 131072)) / 8, row := a / 4194304,
                rank := a / 131072 / 16 % 2, bank := (a / 131072 % 16) ^^^ (a / 4194304 % 16) } := by
  have hlow : natField (a / 2048) 5 0 = a / 2048 % 64 := by simp [natField]
  have hupper : a / 2048 / 64 = a / 131072 := Nat.div_div_eq_div_mul a 2048 64
  have hrow : a / 131072 / 32 = a / 4194304 := Nat.div_div_eq_div_mul a 131072 32
  have hash (hi lo : Nat) : natField (a / 2048) (hi + 6) (lo + 6) = natField (a / 131072) hi lo :=
    (natField_shift _ hi lo 6).trans (congrArg (natField · hi lo) hupper)
  simp only [mcLoc, unitHash, Nat.xor_assoc, hlow, hupper, hrow, ← hash 5 0, ← hash 11 6, ← hash 17 12, ← hash 20 18]

/-- The hash of a unit's upper bits has six bits, as a controller and a channel together have. -/
theorem unitHash_lt (v : Nat) : unitHash v < 64 := by
  have hfield (hi lo : Nat) (h : hi + 1 - lo ≤ 6) : natField v hi lo < 2 ^ 6 :=
    Nat.lt_of_lt_of_le (Nat.mod_lt _ (Nat.two_pow_pos _)) (Nat.pow_le_pow_right Nat.two_pos h)
  exact Nat.xor_lt_two_pow (Nat.xor_lt_two_pow (Nat.xor_lt_two_pow (hfield 5 0 (by omega)) (hfield 11 6 (by omega))) (hfield 17 12 (by omega)))
    (hfield 20 18 (by omega))

/-- The unit of an address follows from its location: row, rank and bank give the upper bits, and these the low ones (10 R235). -/
theorem unit_eq_of_mcLoc_eq {a b : Nat} (h : mcLoc a = mcLoc b) : a / 2048 = b / 2048 := by
  rw [mcLoc_eq, mcLoc_eq] at h
  obtain ⟨hmc, hch, hrow, hrank, hbank⟩ := McLoc.mk.inj h
  have hlowBank : a / 131072 % 16 = b / 131072 % 16 := by
    rw [hrow] at hbank
    exact Nat.xor_left_injective hbank
  have hupper : a / 131072 = b / 131072 := by omega
  have hlow : a / 2048 % 64 = b / 2048 % 64 := by
    rw [hupper] at hmc hch
    have hhash : a / 2048 % 64 ^^^ unitHash (b / 131072) = b / 2048 % 64 ^^^ unitHash (b / 131072) := by omega
    exact Nat.xor_left_injective hhash
  omega

/-- Every address has one of 8 controllers, 8 channels, 2 ranks and 16 banks (10 R235). -/
theorem mcLoc_ranges (a : Nat) : (mcLoc a).mc < 8 ∧ (mcLoc a).ch < 8 ∧ (mcLoc a).rank < 2 ∧ (mcLoc a).bank < 16 := by
  rw [mcLoc_eq]
  have hhash : a / 2048 % 64 ^^^ unitHash (a / 131072) < 2 ^ 6 := Nat.xor_lt_two_pow (Nat.mod_lt _ (by decide)) (unitHash_lt _)
  have hbank : (a / 131072 % 16) ^^^ (a / 4194304 % 16) < 2 ^ 4 := Nat.xor_lt_two_pow (Nat.mod_lt _ (by decide)) (Nat.mod_lt _ (by decide))
  exact ⟨Nat.mod_lt _ (by decide), Nat.div_lt_of_lt_mul hhash, Nat.mod_lt _ (by decide), hbank⟩

/-- A row holds the 4 MiB that its number counts (10 R235). -/
theorem mcLoc_row (a : Nat) : (mcLoc a).row = a / 4194304 := congrArg McLoc.row (mcLoc_eq a)

/-- Settles O52: units are told apart by their locations, and a row's bound is its address's, in steps of 4 MiB. -/
theorem mainMemoryMapOneToOne : Obligations.MainMemoryMapOneToOne := by
  unfold Obligations.MainMemoryMapOneToOne
  refine ⟨fun a b => unit_eq_of_mcLoc_eq, fun a => ?ranges, ?example1⟩
  case ranges =>
    obtain ⟨hmc, hch, hrank, hbank⟩ := mcLoc_ranges a
    rw [mcLoc_row]
    exact ⟨hmc, hch, hrank, hbank, by omega, by omega⟩
  case example1 => decide

end Sys2Proof.Machine
end

section
/-! The rows of the memory controllers' schedule: the slots, the refresh and its rate, and the patrol scrubber (10 R241 to R248). -/

namespace Sys2Proof.Machine

/-- MEMORY_SLOT passes its guard at a position of the rotation of a controller that runs its schedule (10 R241). -/
theorem memorySlot_due {m pos : Nat} {s : State} (hruns : mcRuns m s = true) (hpos : pos < 64) : ¬(mcRuns m s = false ∨ 64 ≤ pos) := by
  simp [hruns, hpos]

/-- REFRESH passes its guard at a bank of a controller that runs its schedule (10 R245). -/
theorem refresh_due {m ch b : Nat} {s : State} (hruns : mcRuns m s = true) (hch : ch < 8) (hb : b < 32) :
    ¬(mcRuns m s = false ∨ 8 ≤ ch ∨ 32 ≤ b) := by
  simp [hruns, hch, hb]

section
variable {m pos ch start wait d : Nat} {asks cand : List MemAsk} {work : List (Bool × MemAsk)} {rows : List Nat} {link : LinkErr} {u : Upset} {s : State}
  (hruns : mcRuns m s = true) (hpos : pos < 64) (hcand : cand = slotQueue m pos asks s)
  (hstart : start = (nextSlot pos (cand.head?.map (fun q => (mcLoc (askAddr q)).ch)) (ringNow s)).2)
  (hch : ch = (pos + (nextSlot pos (cand.head?.map (fun q => (mcLoc (askAddr q)).ch)) (ringNow s)).1) % 8)
  (hwork : work = slotWork m pos ch start cand s) (hrows : rows = work.flatMap (fun q => slotRows (askAddr q.2) s))
  (hwait : wait = rows.foldl (fun x r => max x (bankWait m start r s)) 0)
include hruns hpos hcand hstart hch hwork hrows hwait

/-- MEMORY_SLOT of an unreserved position waits for the refresh of its banks alone, and makes the pending write-backs (10 R239, R241, R245). -/
theorem execMemorySlot_unreserved (hfree : slotOwner pos s = none) :
    execMemorySlot m pos asks link u s
      = .next (slotRun m link work (mcUpset u (slotOpen m ch start wait false rows (advanceToRing (start + wait) s)))) := by
  subst hwait hrows hwork hch hstart hcand
  simp only [execMemorySlot, if_neg (memorySlot_due hruns hpos), hfree, Option.isSome_none, Bool.false_eq_true, if_false]

variable {j : Nat} (howner : slotOwner pos s = some j) (hd : d = max wait (Tbl.get 0 (mc m s).delay ch))
include howner hd

/-- MEMORY_SLOT of a reserved position whose command the delay outstanding on its channel puts off: counted for its owner (10 R242, R245). -/
theorem execMemorySlot_deferred (hsome : work ≠ []) (hlate : d ≠ 0) :
    execMemorySlot m pos asks link u s
      = .next (slotRun m link work (deferred m j (mcUpset u (slotOpen m ch start d true rows (advanceToRing (start + d) s))))) := by
  have hcount : ¬(work.isEmpty || d == 0) = true := by simp [hsome, hlate]
  subst hd hwait hrows hwork hch hstart hcand
  simp only [execMemorySlot, if_neg (memorySlot_due hruns hpos), howner, Option.isSome_some, if_true, if_neg hcount]

/-- MEMORY_SLOT of a reserved position with no command or no delay: nothing is counted (10 R242, R245). -/
theorem execMemorySlot_onTime (hnone : work = [] ∨ d = 0) :
    execMemorySlot m pos asks link u s
      = .next (slotRun m link work (mcUpset u (slotOpen m ch start d true rows (advanceToRing (start + d) s)))) := by
  have hcount : (work.isEmpty || d == 0) = true := by simpa using hnone
  subst hd hwait hrows hwork hch hstart hcand
  simp only [execMemorySlot, if_neg (memorySlot_due hruns hpos), howner, Option.isSome_some, if_true, if_pos hcount]

end

section
variable {m ch b bank due post : Nat} {s : State} (hruns : mcRuns m s = true) (hch : ch < 8) (hb : b < 32) (hbank : bank = ch * 32 + b)
  (hdue : due = Tbl.get 0 (mc m s).refreshed bank + refreshInterval m s) (hpost : post = Tbl.get 0 (mc m s).postponed bank)
include hruns hch hb hbank hdue hpost

/-- REFRESH that falls due during a delay of its channel is postponed, while the part lets it (10 R245). -/
theorem execRefresh_postponed {t : State} (hdelay : Tbl.get 0 (mc m s).delay ch ≠ 0) (hleft : post < Config.maxPostponed) (ht : t = advanceTo due s) :
    execRefresh m ch b s
      = .next (mcRefreshReg m (setMc m { mc m t with postponed := Tbl.set 0 (mc m s).postponed bank (post + 1),
                                                     refreshed := Tbl.set 0 (mc m s).refreshed bank due } t)) := by
  subst ht hdue hpost hbank
  simp only [execRefresh, if_neg (refresh_due hruns hch hb), if_pos (And.intro hdelay hleft)]

/-- REFRESH that is not postponed, with no partial write pending on its bank, is issued at the next slot start that leaves its bank alone, and
closes the bank for 140 ns (10 R245). -/
theorem execRefresh_issued {t u : State} {at0 start : Nat} (hnow : Tbl.get 0 (mc m s).delay ch = 0 ∨ Config.maxPostponed ≤ post)
    (hpend : (mc m s).pend.any (fun e => (slotRows e.2.1 s).any (fun r => r / 65536 == bank)) = false) (ht : t = (if post = 0 then advanceTo due s else s))
    (hat0 : at0 = (ringNow t + 101) / 102 * 102)
    (hstart : start = (if (Tbl.get (0, []) (mc m s).lastSlot ch).1 = at0 ∧ (Tbl.get (0, []) (mc m s).lastSlot ch).2.contains bank = true
                       then at0 + 102 else at0))
    (hu : u = advanceToRing start t) :
    execRefresh m ch b s
      = .next (mcRefreshReg m (setMc m { mc m u with postponed := Tbl.set 0 (mc m u).postponed bank (post - 1),
                                                     refreshed := if post = 0 then Tbl.set 0 (mc m u).refreshed bank due else (mc m u).refreshed,
                                                     refEnd := Tbl.set 0 (mc m u).refEnd bank (start + 140) } u)) := by
  have hissue : ¬(Tbl.get 0 (mc m s).delay ch ≠ 0 ∧ post < Config.maxPostponed) := fun ⟨hdelay, hleft⟩ => hnow.elim hdelay (Nat.not_le.mpr hleft)
  subst hu hstart hat0 ht hdue hpost hbank
  simp only [execRefresh, if_neg (refresh_due hruns hch hb), if_neg hissue, hpend, Bool.false_eq_true, if_false]

end

section
variable {m temp : Nat} {s : State} (hm : m < 8)
include hm

/-- REFRESH_RATE_CHANGE above 85 °C doubles a rate that is not doubled yet (10 R245). -/
theorem execRefreshRateChange_hot (hhot : 85 < signed 8 temp) (hrate : rdField 4 m 0x50 17 16 s ≠ 2) :
    execRefreshRateChange m temp s
      = .next (raise { c := 4, i := m, bit := 8, code := 0x0500, payload := 2 + temp % 256 * 4 } (wrField 4 m 0x50 17 16 2 (wrField 4 m 0x54 7 0 temp s))) := by
  simp only [execRefreshRateChange, if_neg (Nat.not_le.mpr hm), if_pos hhot, if_neg hrate.symm]

/-- REFRESH_RATE_CHANGE below 82 °C returns a rate that has not returned yet (10 R245). -/
theorem execRefreshRateChange_cool (hcool : signed 8 temp < 82) (hrate : rdField 4 m 0x50 17 16 s ≠ 1) :
    execRefreshRateChange m temp s
      = .next (raise { c := 4, i := m, bit := 8, code := 0x0500, payload := 1 + temp % 256 * 4 } (wrField 4 m 0x50 17 16 1 (wrField 4 m 0x54 7 0 temp s))) := by
  have hnotHot : ¬85 < signed 8 temp := by omega
  simp only [execRefreshRateChange, if_neg (Nat.not_le.mpr hm), if_neg hnotHot, if_pos hcool, if_neg hrate.symm]

/-- REFRESH_RATE_CHANGE from 82 to 85 °C notes the reading and keeps the rate (10 R245). -/
theorem execRefreshRateChange_between (hlow : 82 ≤ signed 8 temp) (hhigh : signed 8 temp ≤ 85) :
    execRefreshRateChange m temp s = .next (wrField 4 m 0x54 7 0 temp s) := by
  simp only [execRefreshRateChange, if_neg (Nat.not_le.mpr hm), if_neg (not_lt.mpr hhigh), if_neg (not_lt.mpr hlow), if_true]

end

/-- PATROL_SCRUB of a unit that is not the stack's last: its 32 blocks are read at the next unreserved slot of its channel once the period has
passed, and the scrubber moves to the next unit of the same pass (10 R248). -/
theorem execPatrolScrub_next {m p start d due : Nat} {rows : List Nat} {u : Upset} {s v t : State} (hruns : mcRuns m s = true)
    (hfill : (mc m s).filling = false) (hp : p = (mc m s).patrol) (hmore : p + 1 < mcUnits s) (hdue : due = (mc m s).patrolAt + patrolEvery m s)
    (hv : v = advanceTo due s) (hslot : nextFree (p % 8) (ringNow v) v = some start) (hrows : rows = slotRows (mcUnitAddr m p / 64 * 64) v)
    (hd : d = rows.foldl (fun x r => max x (bankWait m start r v)) 0)
    (ht : t = (List.range 32).foldl (fun acc k => patrolBlock (rdField 4 m 0x5C 31 16 s) (mcUnitAddr m p / 64 + k) acc)
      (mcUpset u (slotOpen m (p % 8) start d false rows (advanceToRing (start + d) v)))) :
    execPatrolScrub m u s
      = .next (wrReg 4 m 0x5C (BitVec.ofNat 32 (rdField 4 m 0x5C 31 16 s * 65536 + (p + 1) * 65536 / mcUnits s))
          (setMc m { mc m t with patrol := p + 1, patrolAt := max due s.time.clk } t)) := by
  have hgo : ¬(mcRuns m s = false ∨ (mc m s).filling = true) := by simp [hruns, hfill]
  have hpass : ¬mcUnits s ≤ p + 1 := Nat.not_le.mpr hmore
  subst hp
  simp only [execPatrolScrub, if_neg hgo, ← hdue, ← hv, hslot, ← hrows, ← hd, ← ht, if_neg hpass, if_neg (Nat.add_one_ne_zero _)]

end Sys2Proof.Machine
end

section
/-! The rows of a memory controller's spare rows, training and start-up fill, then the statement that the controllers' rows make up
(10 R248, R249). -/

namespace Sys2Proof.Machine

/-- ROW_SPARE_DONE of a row whose copy is under way, from a bank with another spare left: the remap takes effect and the map is saved
(10 R248, R251). -/
theorem execRowSpareDone_copied {m bank row left : Nat} {s t u : State} (hcopying : (mc m s).copying.contains (bank * 65536 + row) = true)
    (hspares : (mc m s).left bank = left + 1)
    (ht : t = setMc m ((mc m s).rowSpared bank row (rowUnitBlock m bank row / 32) left)
      ((((List.range 32).map (fun i => rowUnitBlock m bank row / 32 * 32 + i)).filter (fun x => (mc m s).bad.contains x)).foldl
        (fun acc x => freeAt (x * 64) 64 acc) s))
    (hu : u = raise { c := 4, i := m, bit := 7, code := 0x1502, ctx := bank / 16, payload := row + bank % 16 * 2 ^ 16 + left * 2 ^ 20 }
      (wrField 4 m 0x88 31 31 (b2n (!(mc m t).forced.isEmpty)) t))
    (hmore : left ≠ 0) :
    execRowSpareDone m bank row s = .next (askSetting 4 (.mcRows m (mc m u).spared) u) := by
  have hgo : ¬((mc m s).copying.contains (bank * 65536 + row) = false ∨ (mc m s).left bank = 0) := by
    rw [hcopying, hspares]
    simp
  subst hu ht
  rw [execRowSpareDone, if_neg hgo]
  simp only [hspares, Nat.add_sub_cancel, if_neg hmore]

section
variable {m ms stage : Nat} {s t : State} (hm : m < 8) (hdown : rdField 4 m 0x44 1 0 s = 0)
include hm hdown

/-- MC_TRAINED ends the training that is under way: a restore where the record serves, full training elsewhere (10 R249). -/
theorem mcTrained_due {full : Bool} (hkind : canRestore m s = !full) :
    ¬(8 ≤ m ∨ rdField 4 m 0x44 1 0 s ≠ 0 ∨ canRestore m s = full) := by
  rintro (hpast | hup | hother)
  · omega
  · exact hup hdown
  · exact Bool.not_ne_self full (hkind.symm.trans hother)

/-- MC_TRAINED of a restore that succeeds, with inline ECC off: the controller is up from source 1 (10 R249). -/
theorem execMcTrained_restored (hrestore : canRestore m s = true) (hecc : inlineEcc t = false)
    (ht : t = raise { c := 4, i := m, bit := 9, code := 0x0501, payload := 1 + ms % 65536 * 4 }
      (wrReg 4 m 0x44 (BitVec.ofNat 32 (1 + 1 * 4 + ms % 65536 * 65536)) s)) :
    execMcTrained m false true ms stage s = .next t := by
  subst ht
  simp only [execMcTrained, if_neg (mcTrained_due hm hdown (full := false) hrestore), Bool.false_eq_true, if_true, if_false, hecc]

/-- MC_TRAINED of a restore whose verification fails leaves full training to run (10 R249). -/
theorem execMcTrained_restoreFailed (hrestore : canRestore m s = true) :
    execMcTrained m false false ms stage s = .next (setMc m { mc m s with restoreFailed := true } s) := by
  simp only [execMcTrained, if_neg (mcTrained_due hm hdown (full := false) hrestore), Bool.false_eq_true, if_false]

/-- MC_TRAINED of full training that succeeds, with inline ECC off: the controller is up from source 2, and its record is kept (10 R249). -/
theorem execMcTrained_full (hfull : canRestore m s = false)
    (hecc : inlineEcc (askSetting 3 (.train m (stackSerial m t) (rdField 4 m 0x54 7 0 t))
      (setMc m { mc m t with trainRec := some (stackSerial m t, rdField 4 m 0x54 7 0 t) } t)) = false)
    (ht : t = raise { c := 4, i := m, bit := 9, code := 0x0501, payload := 2 + ms % 65536 * 4 }
      (wrReg 4 m 0x44 (BitVec.ofNat 32 (1 + 2 * 4 + ms % 65536 * 65536)) s)) :
    execMcTrained m true true ms stage s
      = .next (askSetting 3 (.train m (stackSerial m t) (rdField 4 m 0x54 7 0 t))
          (setMc m { mc m t with trainRec := some (stackSerial m t, rdField 4 m 0x54 7 0 t) } t)) := by
  subst ht
  simp only [execMcTrained, if_neg (mcTrained_due hm hdown (full := true) hfull), Bool.false_eq_true, if_true, if_false, hecc]

/-- MC_TRAINED of full training that fails leaves the controller down and fences the device (10 R249). -/
theorem execMcTrained_fullFailed (hfull : canRestore m s = false) :
    execMcTrained m true false ms stage s
      = .next (fenceFor 2 (raise { c := 4, i := m, bit := 12, code := 0x3502, payload := stage % 256 }
          (wrReg 4 m 0x44 (BitVec.ofNat 32 (2 + ms % 65536 * 65536)) s))) := by
  simp only [execMcTrained, if_neg (mcTrained_due hm hdown (full := true) hfull), Bool.false_eq_true, if_true, if_false]

end

/-- Settles O19, one clause per row of the memory controllers. -/
theorem memoryControllerCommands : Obligations.MemoryControllerCommands := by
  unfold Obligations.MemoryControllerCommands
  refine ⟨?slot, ?refresh, ?rate, ?patrol, ?spareForce, ?spareDone, ?trained, ?fillDone⟩
  case slot =>
    intro m pos ch start wait d asks cand work rows link u s hruns hpos hcand hstart hch hwork hrows hwait
    refine ⟨fun j howner hd hsome hlate => ?deferred, fun j howner hd hnone => ?onTime, fun hfree => ?unreserved⟩
    case deferred => exact execMemorySlot_deferred hruns hpos hcand hstart hch hwork hrows hwait howner hd hsome hlate
    case onTime => exact execMemorySlot_onTime hruns hpos hcand hstart hch hwork hrows hwait howner hd hnone
    case unreserved => exact execMemorySlot_unreserved hruns hpos hcand hstart hch hwork hrows hwait hfree
  case refresh =>
    intro m ch b bank due post s hruns hch hb hbank hdue hpost
    refine ⟨fun t hdelay hleft ht => ?postponed, fun t u at0 start hnow hpend ht hat0 hstart hu => ?issued⟩
    case postponed => exact execRefresh_postponed hruns hch hb hbank hdue hpost hdelay hleft ht
    case issued => exact execRefresh_issued hruns hch hb hbank hdue hpost hnow hpend ht hat0 hstart hu
  case rate =>
    exact fun m temp s hm => ⟨execRefreshRateChange_hot hm, execRefreshRateChange_cool hm, execRefreshRateChange_between hm⟩
  case patrol =>
    intro m p start d due rows u s v t hruns hfill hp hmore hdue hv hslot hrows hd ht
    exact execPatrolScrub_next hruns hfill hp hmore hdue hv hslot hrows hd ht
  case spareForce => exact fun r m bank row s hk => congrArg Host.Outcome.next (onReg_ok hk)
  case spareDone =>
    intro m bank row left s t u hcopying hspares ht hu hmore
    exact execRowSpareDone_copied hcopying hspares ht hu hmore
  case trained =>
    intro m ms stage s t hm hdown
    refine ⟨fun hrestore hecc ht => ?restored, fun hrestore => ?restoreFailed, fun hfull hecc ht => ?full, fun hfull ht => ?fullFailed⟩
    case restored => exact execMcTrained_restored hm hdown hrestore hecc ht
    case restoreFailed => exact execMcTrained_restoreFailed hm hdown hrestore
    case full => exact execMcTrained_full hm hdown hfull hecc ht
    case fullFailed =>
      subst ht
      exact execMcTrained_fullFailed hm hdown hfull
  case fillDone => exact fun m s hfilling => congrArg Host.Outcome.next (if_pos hfilling)

end Sys2Proof.Machine
end

section
/-! SUPPORT. Little-endian fields read back from the bytes that they were written as: the field at the front of a record, and the field behind others
(00 R7). -/

namespace Sys2Proof.Machine

@[simp] theorem length_leBytes (n v : Nat) : (leBytes n v).length = n := by
  induction n generalizing v with
  | zero => rfl
  | succ n ih => rw [leBytes, List.length_cons, ih]

/-- `n` bytes of a number spell it modulo `256 ^ n`. -/
theorem leNat_leBytes (n v : Nat) : leNat (leBytes n v) = v % 256 ^ n := by
  induction n generalizing v with
  | zero => rw [leBytes, leNat, Nat.pow_zero, Nat.mod_one]
  | succ n ih => rw [leBytes, leNat, ih, BitVec.toNat_ofNat, ← Nat.mod_mul, ← Nat.pow_succ']

/-- A field at the front of a record is the number written there, where the field has room for it. -/
theorem leField_front {n v : Nat} (l : List Byte) (h : v < 256 ^ n) : leField (leBytes n v ++ l) 0 n = v := by
  rw [leField, List.drop_zero, List.take_left' (length_leBytes n v), leNat_leBytes, Nat.mod_eq_of_lt h]

/-- A field behind another is a field of the record without that one. -/
theorem leField_behind {k off : Nat} (v n : Nat) (l : List Byte) (h : k ≤ off) : leField (leBytes k v ++ l) off n = leField l (off - k) n := by
  have hskip : (leBytes k v).drop off = [] := List.drop_eq_nil_of_le (by rwa [length_leBytes])
  rw [leField, List.drop_append, hskip, length_leBytes, List.nil_append, leField]

/-- A byte of a record is its field of one byte. -/
theorem byteAt_eq_leField (l : List Byte) (i : Nat) : byteAt l i = leField l i 1 := by
  rw [byteAt, leField]
  cases hdrop : l.drop i with
  | nil => rw [List.getElem?_eq_none (List.drop_eq_nil_iff.mp hdrop)]; rfl
  | cons b t =>
    have hb : l[i]? = some b := by rw [← List.head?_drop, hdrop]; rfl
    rw [hb]; rfl

/-- A bit of a number, where the number's digit there is a flag's. -/
theorem natBit_of_eq {n i : Nat} {b : Bool} (h : n / 2 ^ i % 2 = b2n b) : natBit n i = b := by
  rw [natBit, h, decide_b2n]

end Sys2Proof.Machine
end

section
/-! The descriptors of queues, contexts and Folios: the bytes that pack several fields keep them apart, and so every field comes back (11 R252;
07 R162, R163). -/

namespace Sys2Proof.Machine

/-- The flag byte of a queue descriptor keeps its flags and its consumer apart (11 R252). -/
theorem queueFlags_fields {c : Nat} (e f d p : Bool) (hc : c < 8) :
    let v := b2n e + 2 * b2n f + 4 * c + 32 * b2n d + 64 * b2n p
    v < 256 ∧ natBit v 0 = e ∧ natBit v 1 = f ∧ natField v 4 2 = c ∧ natBit v 5 = d ∧ natBit v 6 = p := by
  have he := b2n_lt_two e
  have hf := b2n_lt_two f
  have hd := b2n_lt_two d
  have hp := b2n_lt_two p
  refine ⟨by omega, natBit_of_eq ?_, natBit_of_eq ?_, ?consumer, natBit_of_eq ?_, natBit_of_eq ?_⟩
  case consumer => rw [natField]; omega
  all_goals omega

/-- The byte of a key and a value format keeps the two apart (07 R162, R163). -/
theorem formatByte_fields {k v : Nat} (hk : k < 16) (hv : v < 16) : k + 16 * v < 256 ∧ (k + 16 * v) % 16 = k ∧ (k + 16 * v) / 16 = v := by omega

/-- The byte of a notice's semaphore and mode keeps the two apart (11 R252). -/
theorem signalByte_fields {sem mode : Nat} (hsem : sem < 32) (hmode : mode < 4) :
    sem + 32 * mode < 256 ∧ (sem + 32 * mode) % 32 = sem ∧ natField (sem + 32 * mode) 6 5 = mode := by
  rw [natField]
  omega

/-- Settles O56: the widths of a layout add up, and each field lies behind those written before it, in a field of its own or in a byte that keeps it
apart. -/
theorem descriptorsRoundTrip : Obligations.DescriptorsRoundTrip := by
  unfold Obligations.DescriptorsRoundTrip
  refine ⟨?queue, ?context, ?folio⟩
  case queue =>
    intro d hbase hsize hconsumer hrecord hwr hrd hres hnotices hpackets hjobMatch hjobMask hdevMatch hdevMask hreserve hsigJob hsigRank hsigSem hmode
      hdropped
    obtain ⟨hflags, henabled, hfixed, hcons, hdrop, hpinned⟩ := queueFlags_fields d.enabled d.fixed d.drop d.pinned hconsumer
    obtain ⟨hsignal, hsem, hnotice⟩ := signalByte_fields hsigSem hmode
    unfold QDesc.bytes
    refine ⟨by simp only [List.length_append, length_leBytes], ?_⟩
    simp (disch := omega) only [QDesc.read, byteAt_eq_leField, List.append_assoc, leField_behind, leField_front, Nat.reduceSub, Nat.mod_eq_of_lt,
      henabled, hfixed, hcons, hdrop, hpinned, hsem, hnotice]
  case context =>
    intro d hstate hk hv hheads hdim hlayers hkvX hlen hreserved hpt hstride hstamp hgen
    obtain ⟨hformats, hkFmt, hvFmt⟩ := formatByte_fields hk hv
    unfold CtxDesc.bytes
    refine ⟨by simp only [List.length_append, length_leBytes], ?_⟩
    simp (disch := omega) only [CtxDesc.read, byteAt_eq_leField, List.append_assoc, leField_behind, leField_front, Nat.reduceSub, Nat.mod_eq_of_lt,
      hkFmt, hvFmt]
  case folio =>
    intro d hslot hstate hk hv hgen hrefs hstamp hnext
    obtain ⟨hformats, hkFmt, hvFmt⟩ := formatByte_fields hk hv
    unfold FolioDesc.bytes
    refine ⟨by simp only [List.length_append, length_leBytes], ?_⟩
    simp (disch := omega) only [FolioDesc.read, byteAt_eq_leField, List.append_assoc, leField_behind, leField_front, Nat.reduceSub, Nat.mod_eq_of_lt,
      hkFmt, hvFmt]

end Sys2Proof.Machine
end

section
/-! SUPPORT. The queue engine's command register and read-pointer register: what a word written to each does to the selected queue (11 R253, R260,
R263). -/

namespace Sys2Proof.Machine

section
variable {q : Nat} {s : State} (hbase : qeBase s ≠ 0)
include hbase

/-- A disabled queue is configured from a legal staged descriptor, its pointers and counts 0; the packets that were open in it are abandoned (11 R263;
the abandoning is the model's choice, log entry 47). -/
theorem queueConfigure_legal (hdisabled : (qDesc q s).enabled = false) (hok : descOk q (queueConfigure.stagedBytes6 s) s = true) :
    queueConfigure q s
      = (let d := { QDesc.read (queueConfigure.stagedBytes6 s) with wr := 0, rd := 0, res := 0, notices := 0, packets := 0, dropped := 0 }
         let t := qPut q d (forgetQueue q (abandonOpen q s))
         { t with
           qe := { t.qe with adm := (if d.consumer = 3 then q :: t.qe.adm.filter (fun x => x != q) else t.qe.adm.filter (fun x => x != q)) },
           host := { t.host with dlv := Tbl.erase t.host.dlv q } }) := by
  have hgo : ¬(qeBase s = 0 ∨ (qDesc q s).enabled = true ∨ descOk q (queueConfigure.stagedBytes6 s) s = false) := by simp [hbase, hdisabled, hok]
  exact if_neg hgo

/-- Enabling a queue delivers what stands in it, where its consumer is the host (11 R252, R258). -/
theorem queueEnable_based : queueEnable q s = deliverQueue q (qPut q { qDesc q s with enabled := true } s) := if_neg hbase

/-- Disabling a queue wakes the Quills that wait on it, those of a pop first (11 R263). -/
theorem queueDisable_based :
    queueDisable q s
      = (let t := qPut q { qDesc q s with enabled := false } s
         ((s.qe.popWait ++ s.qe.pushWait).filter (fun w => w.1 == q)).foldl (fun acc w => wakeDisabled q w.2 acc)
           { t with qe := { t.qe with popWait := t.qe.popWait.filter (fun w => w.1 != q), pushWait := t.qe.pushWait.filter (fun w => w.1 != q) } }) := by
  rw [queueDisable, if_neg hbase]
  exact List.foldl_map

/-- A descriptor is pinned where it is already, or where fewer than 2,048 are (11 R253). -/
theorem queuePin_room (hroom : (qDesc q s).pinned = true ∨ pinnedCount s < 2048) :
    queuePin q s = qPut q { qDesc q s with pinned := true } s := by
  have hgo : ¬(qeBase s = 0 ∨ ((qDesc q s).pinned = false ∧ 2048 ≤ pinnedCount s)) := by
    rintro (hunset | ⟨hunpinned, hfull⟩)
    · exact hbase hunset
    · exact hroom.elim (by simp [hunpinned]) (Nat.not_lt.mpr hfull)
  exact if_neg hgo

theorem queueUnpin_based : queueUnpin q s = qPut q { qDesc q s with pinned := false } s := if_neg hbase

end

/-- The read pointer of a consumer-2 queue moves on by no more than the used space (11 R260). -/
theorem wrRdptr_legal {v q : Nat} {s t : State} (hv : v < 2 ^ 32) (hq : q = rdField 6 0 0x48 19 0 s) (ht : t = qdUse q s) (hbase : qeBase t ≠ 0)
    (hconsumer : (qDesc q t).consumer = 2) (hinside : v < 2 * (qDesc q t).size) (hused : (qDesc q t).dist v (qDesc q t).rd ≤ (qDesc q t).used) :
    wrRdptr (BitVec.ofNat 32 v) s = advanceRd q v t := by
  subst ht hq
  have hword : (BitVec.ofNat 32 v).toNat = v := (BitVec.toNat_ofNat v 32).trans (Nat.mod_eq_of_lt hv)
  simp only [wrRdptr, hword]
  exact if_neg (by simp [hbase, hconsumer, hinside, hused])

end Sys2Proof.Machine
end

section
/-! The rows of the Queue Engine that no register write starts, then the statement that its rows make up (11 R252 to R263). -/

namespace Sys2Proof.Machine

section
variable {q num : Nat} {s : State} {p : Pkt} (hopen : openPkt q num s = some p) (hmem : memUp s = true)
include hopen hmem

/-- PACKET_COMPLETE writes the length word after every record byte, then moves wr_ptr on (11 R254 to R256). -/
theorem execPacketComplete_record {t : State} {start : Nat} (hkept : p.doomed = false) (ht : t = qdUse q s)
    (hstart : start = (qDesc q t).base + p.ptr % (qDesc q t).size) :
    execPacketComplete q num s
      = .next (settle q (setPkt p { p with complete := true }
          (((blocksOf start p.stride).filter (fun b => !(partBlocks start p.stride).contains b)).foldl (fun acc b => mcWriteBlock b acc)
            (wrBytes start (leBytes 4 (p.len + p.rtype * 2 ^ 24)) t)))) := by
  subst hstart ht
  simp only [execPacketComplete, hopen, hmem, hkept, Bool.true_eq_false, Bool.false_eq_true, if_false]

/-- PACKET_COMPLETE of a packet that an injection marked abandons it (11 R271). -/
theorem execPacketComplete_doomed (hdoomed : p.doomed = true) : execPacketComplete q num s = .next (abandonPkt p 0 true s) := by
  simp only [execPacketComplete, hopen, hmem, hdoomed, Bool.true_eq_false, if_false, if_true]

/-- PACKET_ABANDON of a packet at its limit brings that time (11 R257). -/
theorem execPacketAbandon_limit (hreason : abandonReason p s = some 0) :
    execPacketAbandon q num s = .next (abandonPkt p 0 false (advanceTo (p.born + (rdReg 6 0 0x94 s).toNat * oneUs) s)) := by
  simp only [execPacketAbandon, hopen, hmem, hreason, Bool.true_eq_false, if_false]

/-- PACKET_ABANDON of a packet whose producer's device is fenced (11 R257). -/
theorem execPacketAbandon_fenced (hreason : abandonReason p s = some 3) : execPacketAbandon q num s = .next (abandonPkt p 3 false s) := by
  simp only [execPacketAbandon, hopen, hmem, hreason, Bool.true_eq_false, if_false]

end

/-- DESCRIPTOR_FETCH of a queue of the table has a descriptor to bring (11 R253). -/
theorem descriptorFetch_due {q : Nat} {s : State} (hbase : qeBase s ≠ 0) (hq : q < 2 ^ 20) (hmem : memUp s = true) :
    ¬(qeBase s = 0 ∨ 2 ^ 20 ≤ q ∨ memUp s = false) := by
  simp only [hbase, Nat.not_le.mpr hq, hmem, Bool.true_eq_false, or_self, not_false_eq_true]

section
variable {q : Nat} {s : State} {r : Staged} (holdest : s.qe.staging.find? (fun r => r.q == q) = some r)
include holdest

/-- STAGED_RECORD_RELEASE of a record that its queue admits reserves it there; a held job's record keeps the job's ID (11 R262, R268). -/
theorem execStagedRecordRelease_admitted {b : List Byte × State} (hkind : r.rtype ≠ 3 ∨ q ≠ eventQueue s) (hadmits : qAdmits r s = true)
    (hb : b = stagedBytesOut r { s with qe := { s.qe with staging := s.qe.staging.erase r } }) :
    execStagedRecordRelease q s
      = .next (let t := stagingCheck (reserve q r.rtype r.job (deviceId s) b.1 b.2)
               if r.compl then heldWritten q r t else t) := by
  subst hb
  have hqueue : ¬(r.rtype = 3 ∧ q = eventQueue s) := fun h => hkind.elim (· h.1) (· h.2)
  simp only [execStagedRecordRelease, holdest, if_neg hqueue, hadmits, Bool.true_eq_false, if_false]

/-- STAGED_RECORD_RELEASE of an event record of the device event queue sends it as it would have gone at once (02 R50, R51). -/
theorem execStagedRecordRelease_event (htype : r.rtype = 3) (hqueue : q = eventQueue s) (henabled : (qDesc q s).enabled = true)
    (hmem : memUp s = true) :
    execStagedRecordRelease q s
      = .next (stagingCheck (placeEvent r.prio r.bytes { s with qe := { s.qe with staging := s.qe.staging.erase r } })) := by
  have hgo : ¬((qDesc q s).enabled = false ∨ memUp s = false) := by simp [henabled, hmem]
  simp only [execStagedRecordRelease, holdest, if_pos (And.intro htype hqueue), if_neg hgo]

end

/-- Settles O20, one clause per row or group of rows. -/
theorem queueCommands : Obligations.QueueCommands := by
  unfold Obligations.QueueCommands
  refine ⟨?complete, ?abandon, ?fetch, ?staged, ?commands, ?configure, ?readPointer⟩
  case complete =>
    intro q num start s t p hopen hmem
    exact ⟨execPacketComplete_record hopen hmem, execPacketComplete_doomed hopen hmem⟩
  case abandon =>
    intro q num s p hopen hmem
    exact ⟨execPacketAbandon_limit hopen hmem, execPacketAbandon_fenced hopen hmem⟩
  case fetch =>
    intro q s hbase hq hmem
    have hdue := descriptorFetch_due hbase hq hmem
    exact ⟨congrArg Host.Outcome.next (if_neg hdue), fun _ _ => congrArg Host.Outcome.next (if_neg hdue),
      fun _ => congrArg Host.Outcome.next (if_neg hdue)⟩
  case staged =>
    intro q s r b holdest
    exact ⟨execStagedRecordRelease_admitted holdest, execStagedRecordRelease_event holdest⟩
  case commands =>
    intro r q s hk hq hbase
    subst hq
    refine ⟨?enable, fun t ht => ?disable, fun hroom => ?pin, ?unpin⟩
    case enable => exact congrArg Host.Outcome.next ((onReg_ok hk).trans (queueEnable_based hbase))
    case disable =>
      subst ht
      exact congrArg Host.Outcome.next ((onReg_ok hk).trans (queueDisable_based hbase))
    case pin => exact congrArg Host.Outcome.next ((onReg_ok hk).trans (queuePin_room hbase hroom))
    case unpin => exact congrArg Host.Outcome.next ((onReg_ok hk).trans (queueUnpin_based hbase))
  case configure =>
    intro r q s u t b d hk hq hu hbase hdisabled hb hok hd ht
    subst ht hd hb hu hq
    exact congrArg Host.Outcome.next ((onReg_ok hk).trans (queueConfigure_legal hbase hdisabled hok))
  case readPointer =>
    intro r v q s t hk hv hq ht hbase hconsumer hinside hused
    exact congrArg Host.Outcome.next ((onReg_ok hk).trans (wrRdptr_legal hv hq ht hbase hconsumer hinside hused))

end Sys2Proof.Machine
end

section
/-! SUPPORT. Carousel's command registers: what a command word does to the selected stream or group where nothing refuses it (12 R278, R283, R287,
R290). -/

namespace Sys2Proof.Machine

section
variable {n : Nat} {s : State} (hn : n = rdField 7 0 0x40 4 0 s)
include hn

/-- Stream command 1 gives a stopped stream its legal staged entry; a substitute stream's group is not composed per member (12 R278, R289). -/
theorem wrStCmd_configure {b : List Byte} (hb : b = stagedStream s) (hstopped : (stream n s).running = false) (hok : streamOk b = true)
    (hsubstitute : (StreamCfg.read b).substitute = true → (grpCfg (StreamCfg.read b).group s).perMember = false) :
    wrStCmd 1 s = setStream n { stream n s with cfg := b, mean := (StreamCfg.read b).initMean } s := by
  subst hn hb
  refine if_neg ?_
  rintro (hrunning | hbad | ⟨hsub, hmember⟩)
  · exact absurd hrunning (by simp [hstopped])
  · exact absurd hok (by simp [hbad])
  · exact absurd hmember (by simp [hsubstitute hsub])

/-- Stream command 2 starts a stopped stream, its samples numbered from 0 (12 R278, R282). -/
theorem wrStCmd_start (hstopped : (stream n s).running = false) :
    wrStCmd 2 s = setStream n { stream n s with running := true, seq := 0 } s := by
  subst hn
  exact if_neg (by simp [hstopped])

/-- Stream command 3 stops a running stream once its samples in progress are cancelled (12 R290). -/
theorem wrStCmd_stop (hrunning : (stream n s).running = true) :
    wrStCmd 3 s = setStream n { stream n (cancelStream n s) with running := false } (cancelStream n s) := by
  subst hn
  exact if_pos hrunning

/-- Stream command 4 sets the running mean back to the entry's first one (12 R287). -/
theorem wrStCmd_meanReset : wrStCmd 4 s = setStream n { stream n s with mean := (StreamCfg.read (stream n s).cfg).initMean } s := by
  subst hn
  rfl

end

section
variable {g : Nat} {s : State} (hg : g = rdField 7 0 0x78 2 0 s)
include hg

/-- Group command 1 gives a stopped group its legal staged entry (12 R283). -/
theorem wrGrpCmd_configure {b : List Byte} (hb : b = (List.range 8).flatMap (fun i => leBytes 4 (rdReg 7 0 (0x7C + 4 * i) s).toNat))
    (hstopped : (grp g s).st = 0) (hok : grpOk g b s = true) : wrGrpCmd 1 s = setGrp g { grp g s with cfg := b } s := by
  subst hg hb
  exact if_neg (by simp [hstopped, hok])

/-- Group command 2 starts a stopped group whose slots hold its members' largest samples, its batches numbered from 0 (12 R283). -/
theorem wrGrpCmd_start (hstopped : (grp g s).st = 0) (hfits : grpFits g s = true) (hslots : (grpCfg g s).slots ≠ 0) :
    wrGrpCmd 2 s = setGrp g { grp g s with st := 1, next := 0, lowArmed := false } s := by
  subst hg
  exact if_neg (by simp [hstopped, hfits, hslots])

/-- Group command 3 stops a group that is not stopped (12 R290). -/
theorem wrGrpCmd_stop (hstarted : (grp g s).st ≠ 0) : wrGrpCmd 3 s = stopGroup g s := by
  subst hg
  exact if_neg hstarted

end

end Sys2Proof.Machine
end

section
/-! The rows of the Carousel that no register write starts, then the statement that its rows make up (12 R279, R285 to R290). -/

namespace Sys2Proof.Machine

/-- SOURCE_RECORD of a running memory stream whose group has a slot: a record that keeps R279 starts its sample (12 R279, R285). -/
theorem execSourceRecord_started {st : Nat} {s t u : State} {b : List Byte} {c : StreamCfg} {p : (Nat × Nat) × State} (hc : c = streamCfg st s)
    (hruns : carRuns s = true) (hrunning : (stream st s).running = true) (hmemory : c.source ≠ 0) (htakes : grpTakes st s = true)
    (hconsumer : (qDesc c.queue s).consumer = 4) (hslot : takeSlot c.group st s = some p) (htake : engineTake c.queue s = some (b, t))
    (hstart : startSample st (SrcRec.read b).id b true t = some u) (hok : (SrcRec.read b).ok = true) (hkind : (SrcRec.read b).kind + 1 = c.source)
    (hsize : c.source = 2 → (SrcRec.read b).w ≤ c.width ∧ (SrcRec.read b).h ≤ c.height) :
    execSourceRecord st s = .next u := by
  subst hc
  have hgo : ¬(carRuns s = false ∨ (stream st s).running = false ∨ (streamCfg st s).source = 0 ∨ grpTakes st s = false
      ∨ (qDesc (streamCfg st s).queue s).consumer ≠ 4) := by
    simp [hruns, hrunning, hmemory, htakes, hconsumer]
  have hkept : ¬((SrcRec.read b).ok = false ∨ (SrcRec.read b).kind + 1 ≠ (streamCfg st s).source
      ∨ ((streamCfg st s).source = 2 ∧ ((streamCfg st s).width < (SrcRec.read b).w ∨ (streamCfg st s).height < (SrcRec.read b).h))) := by
    rintro (hbad | hother | ⟨htensor, hwide | hhigh⟩)
    · exact absurd hok (by simp [hbad])
    · exact hother hkind
    · exact absurd (hsize htensor).1 (Nat.not_le.mpr hwide)
    · exact absurd (hsize htensor).2 (Nat.not_le.mpr hhigh)
  simp only [execSourceRecord, if_neg hgo, hslot, Option.isNone_some, Bool.false_eq_true, if_false, htake, hstart, if_neg hkept]

/-- The scales of a prepared image that a stream writes, with their sizes and codes (12 R281, R284). -/
def imageScales (c : StreamCfg) (x : CarSample) (m : Img) : List (Nat × Nat × Nat × Nat × List Nat) :=
  c.written.map (fun z => (z, (m.scale z).h, (m.scale z).w, (m.scale z).ch, scaleCodes c (bitDepth c (SrcRec.read x.src)) (m.scale z)))

/-- The address of slot `j` of a group's batch `n` (12 R283, R284). -/
def slotAddress (g n j : Nat) (s : State) : Nat :=
  (grpCfg g s).dest + ((match (grp g s).batches.find? (fun b => b.number == n) with | some b => b.buffer | none => 0) * (grpCfg g s).slots + j)
    * (grpCfg g s).stride

/-- A sample that holds slot `j` of batch `n` while it is written there (12 R285). -/
def assignSample (g st id n j : Nat) (s : State) : State :=
  updSample st id (fun y => { y with slot := some (n, j) })
    (updSlot g n j (fun y => { y with sample := some (id, st), status := none, sub := false }) s)

/-- A written sample taken off the list, its slot resolved with the status that its place gave (12 R285, R286, R292). -/
def resolveSample (g st id n j status : Nat) (scales : List (Nat × Nat × Nat × Nat × List Nat)) (s : State) : State :=
  updSlot g n j (fun y => { y with status := some status, cause := 0 }) (pushFeed st id true scales (dropSample st id s))

section
variable {st id n j status : Nat} {s t u v : State} {x : CarSample} {c : StreamCfg} {m : Img} (hfound : findSample st id s = some x)
  (hc : c = streamCfg st s) (hruns : carRuns s = true) (hready : x.ready = true) (hkept : x.gone = false) (hcorrupt : armed 7 0 9 s = false)
  (himage : sampleImg c x s = (.inr m, t)) (hplace : placeSample c.group x t = some ((n, j, status), u)) (hv : v = assignSample c.group st id n j u)
include hfound hc hruns hready hkept hcorrupt himage hplace hv

/-- SAMPLE_COMPLETE of a whole sample that is prepared and has a place: its scales are written there, and a refused write halts the group
(12 R280, R285, R291). -/
theorem execSampleComplete_placed :
    execSampleComplete st id s
      = .next (let a := slotAddress c.group n j u
               let w := if armed 7 0 10 v then ((⟨1, 1⟩, a), disarm 7 0 10 v) else writeScales c.group a c (imageScales c x m) v
               if w.1.1.status ≠ 0 then haltGroup c.group n w.1.2 w.1.1.cause (armed 7 0 10 v) w.2
               else
                 let z := resolveSample c.group st id n j status (imageScales c x m) w.2
                 settleGroup c.group (if x.late then z else teachMean st (devNow z - x.start) z)) := by
  have hgo : ¬(carRuns s = false ∨ x.ready = false ∨ x.gone = true) := by simp [hruns, hready, hkept]
  subst hc hv
  simp only [execSampleComplete, hfound, if_neg hgo, hcorrupt, himage, hplace, Bool.false_eq_true, if_false]
  rfl

/-- SAMPLE_COMPLETE of a placed sample whose scales are all written: its slot resolves, an on-time sample teaches the mean, and the resolved batches
are issued (12 R284, R285, R287). -/
theorem execSampleComplete_written {e : Nat} {w : State} (hrefuse : armed 7 0 10 v = false)
    (hwritten : writeScales c.group (slotAddress c.group n j u) c (imageScales c x m) v = ((⟨0, 0⟩, e), w)) :
    execSampleComplete st id s
      = .next (let z := resolveSample c.group st id n j status (imageScales c x m) w
               settleGroup c.group (if x.late then z else teachMean st (devNow z - x.start) z)) := by
  rw [execSampleComplete_placed hfound hc hruns hready hkept hcorrupt himage hplace hv]
  simp only [hrefuse, hwritten, Bool.false_eq_true, if_false, ne_eq, not_true_eq_false]

end

section
variable {st id : Nat} {s : State} {x : CarSample} (hfound : findSample st id s = some x) (hruns : carRuns s = true)
include hfound hruns

/-- SAMPLE_LATE brings a sample's deadline, and the sample is overdue (12 R288). -/
theorem execSampleLate_deadline {d : Nat} (hdeadline : x.deadline = some d) :
    execSampleLate st id s = .next (overdue st id false (advanceToDev d s)) := by
  simp only [execSampleLate, hfound, hdeadline, hruns, if_true]

variable {cause : Nat} {l : List Byte} {t : State} (hkept : x.gone = false) (hcause : cause ≠ 0)
include hkept hcause

/-- MEMORY_SAMPLE_CORRUPT of a sample whose source is not read, or not with the record's CRC (12 R289, causes 8 and 9). -/
theorem execMemorySampleCorrupt_unread (hmemory : (streamCfg st s).source ≠ 0) (hread : readSource (SrcRec.read x.src) s = (cause, l, t)) :
    execMemorySampleCorrupt st id cause s = .next (corruptSample st id cause false t) := by
  have hgo : ¬(carRuns s = false ∨ (streamCfg st s).source = 0 ∨ x.gone = true) := by simp [hruns, hmemory, hkept]
  simp only [execMemorySampleCorrupt, hfound, if_neg hgo, hread, hcause, false_and, if_false, ne_eq, not_false_eq_true, and_self, if_true]

/-- MEMORY_SAMPLE_CORRUPT of a sample whose JPEG file is read and does not decode (12 R279, R289, causes 5 and 6). -/
theorem execMemorySampleCorrupt_undecoded (hjpeg : (streamCfg st s).source = 1) (hread : readSource (SrcRec.read x.src) s = (0, l, t))
    (hdecode : jpegImg (streamCfg st s) l = .inl cause) :
    execMemorySampleCorrupt st id cause s = .next (corruptSample st id cause false t) := by
  have hgo : ¬(carRuns s = false ∨ (streamCfg st s).source = 0 ∨ x.gone = true) := by simp [hruns, hjpeg, hkept]
  rw [hjpeg] at hgo
  simp only [execMemorySampleCorrupt, hfound, if_neg hgo, hread, hjpeg, hdecode, hcause, ne_eq, not_false_eq_true, and_self, if_true]

end

/-- BATCH_WINDOW_EXPIRY of a group with a window brings the window's end to its oldest open batch, which takes no more samples (12 R285). -/
theorem execBatchWindowExpiry_open {g : Nat} {s t : State} {b : CarBatch} (hopen : (grp g s).batches.find? (fun b => !b.closed) = some b)
    (hruns : carRuns s = true) (hwindow : (grpCfg g s).perMember = true ∨ (grpCfg g s).window ≠ 0)
    (ht : t = advanceToDev (b.opened + (grpCfg g s).window * 1000) s) :
    execBatchWindowExpiry g s
      = .next (settleGroup g (setGrp g { grp g t with batches := (grp g t).batches.map (fun x => if x.number = b.number then
          { x with closed := true, flags := if x.slots.any (fun y => y.sample.isNone && y.status.isNone) then x.flags ||| 1 else x.flags,
                   slots := x.slots.map (fun y => if y.sample.isNone ∧ y.status.isNone then
                     { y with status := some (if (grpCfg g s).perMember then 2 else 4) } else y) } else x) } t)) := by
  have hgo : ¬(carRuns s = false ∨ ((grpCfg g s).perMember = false ∧ (grpCfg g s).window = 0)) := by
    rintro (hstill | ⟨hfill, hnone⟩)
    · exact absurd hruns (by simp [hstill])
    · exact hwindow.elim (by simp [hfill]) (· hnone)
  subst ht
  simp only [execBatchWindowExpiry, hopen, if_neg hgo]

/-- Settles O22, one clause per row or group of rows. -/
theorem carouselCommands : Obligations.CarouselCommands := by
  unfold Obligations.CarouselCommands
  refine ⟨?record, ?complete, ?late, ?corrupt, ?window, ?streams, ?groups⟩
  case record =>
    intro st s t u b c p hc hruns hrunning hmemory htakes hconsumer hslot htake hstart hok hkind hsize
    exact execSourceRecord_started hc hruns hrunning hmemory htakes hconsumer hslot htake hstart hok hkind hsize
  case complete =>
    rintro st id n j status _ e s t u v w x c m _ hfound hc hruns hready hkept hcorrupt himage hplace rfl rfl hv hrefuse hwritten
    exact execSampleComplete_written hfound hc hruns hready hkept hcorrupt himage hplace hv hrefuse hwritten
  case late =>
    intro st id d s x hfound hdeadline hruns
    exact execSampleLate_deadline hfound hruns hdeadline
  case corrupt =>
    intro st id cause s x hfound hruns hmemory hkept
    exact ⟨fun l t hcause hread => execMemorySampleCorrupt_unread hfound hruns hkept hcause hmemory hread,
      fun l t hjpeg hcause hread hdecode => execMemorySampleCorrupt_undecoded hfound hruns hkept hcause hjpeg hread hdecode⟩
  case window =>
    intro g s t b hopen hruns hwindow ht
    exact execBatchWindowExpiry_open hopen hruns hwindow ht
  case streams =>
    intro r n s b hk hn hb
    refine ⟨fun hstopped hok hsubstitute => ?configure, fun hstopped => ?start, fun hrunning => ?stop, ?meanReset⟩
    case configure => exact congrArg Host.Outcome.next ((onReg_ok hk).trans (wrStCmd_configure hn hb hstopped hok hsubstitute))
    case start => exact congrArg Host.Outcome.next ((onReg_ok hk).trans (wrStCmd_start hn hstopped))
    case stop => exact congrArg Host.Outcome.next ((onReg_ok hk).trans (wrStCmd_stop hn hrunning))
    case meanReset => exact congrArg Host.Outcome.next ((onReg_ok hk).trans (wrStCmd_meanReset hn))
  case groups =>
    intro r g s b hk hg hb
    refine ⟨fun hstopped hok => ?configure, fun hstopped hfits hslots => ?start, fun hstarted => ?stop⟩
    case configure => exact congrArg Host.Outcome.next ((onReg_ok hk).trans (wrGrpCmd_configure hg hb hstopped hok))
    case start => exact congrArg Host.Outcome.next ((onReg_ok hk).trans (wrGrpCmd_start hg hstopped hfits hslots))
    case stop => exact congrArg Host.Outcome.next ((onReg_ok hk).trans (wrGrpCmd_stop hg hstarted))

end Sys2Proof.Machine
end

section
/-! SUPPORT. The executing law of Tightrope: its next word runs on its run, and what a trigger and a dispatch find (13 R297 to R302). -/

namespace Sys2Proof.Machine

/-- The law that executes runs the instruction of its next word, on its run with the word after it as the next (13 R301). -/
theorem lawStep_head {i : LawIns} {f : TrRun → State → State} {s : State} {r0 r : TrRun} {l : List TrRun} (hrun : s.tr.runs = r0 :: l)
    (hword : lawDecode (Tbl.get 0 s.tr.law r0.pc).toNat = some i) (hr : r = { r0 with pc := r0.pc + 1 }) : lawStep i f s = f r s := by
  subst hr
  simp only [lawStep, hrun, if_pos hword]

/-- What the encoders have moved from a slot's previous latch to a new one: 0 where it has none (13 R300). -/
def encMoves (v : TrSlot) (p : Snap) : List Nat :=
  (List.range 16).map (fun k => match v.prev with | some q => wrapNat 32 ((p.encs.getD k 0 : Int) - (q.getD k 0 : Nat)) | none => 0)

/-- A slot whose pending trigger is taken: its latch is the previous one of the next (13 R299, R300). -/
def latchSlot (n : Nat) (p : Snap) (s : State) : State := setSlot n { trSlot n s with pend := none, prev := some p.encs } s

section
variable {n : Nat} {s : State} (hn : n < 64) (hstarted : (trSlot n s).st ≠ 0) (hen : blockEnabled 10 0 s = true)
include hn hstarted hen

/-- SLOT_TRIGGER of a started slot has a trigger to bring (13 R298). -/
theorem slotTrigger_due : ¬(64 ≤ n ∨ (trSlot n s).st = 0 ∨ blockEnabled 10 0 s = false) := by
  simp [Nat.not_le.mpr hn, hstarted, hen]

/-- SLOT_TRIGGER of a started timer slot brings its next instant, at which the inputs are latched (13 R297, R299). -/
theorem execSlotTrigger_timer (hsrc : (trSlot n s).src = 1) (hperiod : (trSlot n s).period ≠ 0) :
    execSlotTrigger n s
      = .next (let t := (trSlot n s).nextTick (trSlot n s).timer
               let u := advanceToDev t s
               takeTrigger n { snapNow u with time := t } (setSlot n { trSlot n u with timer := t } u)) := by
  simp only [execSlotTrigger, if_neg (slotTrigger_due hn hstarted hen), if_pos hsrc, if_neg hperiod]

/-- SLOT_TRIGGER of a started slot with another source takes the trigger that has fired, with the inputs of its tick (13 R299). -/
theorem execSlotTrigger_fired {p : Snap} (hsrc : (trSlot n s).src ≠ 1) (hfired : (trSlot n s).fired = some p) :
    execSlotTrigger n s = .next (takeTrigger n p (setSlot n { trSlot n s with fired := none } s)) := by
  simp only [execSlotTrigger, if_neg (slotTrigger_due hn hstarted hen), if_neg hsrc, hfired]

end

/-- LAW_DISPATCH of the first pending slot over a law of a lower priority, with no bank swap due at it and no test of it (13 R299, R308, R317,
R318). -/
theorem execLawDispatch_pending {n : Nat} {u : Upset} {s t : State} {p : Snap} (hnext : nextPending s = some n) (hpend : (trSlot n s).pend = some p)
    (hen : blockEnabled 10 0 s = true) (hover : ∀ r, s.tr.runs.head? = some r → n < r.slot) (hswap : swapPending (latchSlot n p s) = false)
    (ht : t = lawFetch n u (latchSlot n p s)) (htest : testValue n t = none) :
    execLawDispatch u s = .next (holdAndRun n p (encMoves (trSlot n s) p) none t) := by
  subst ht
  simp only [latchSlot] at hswap htest ⊢
  simp only [execLawDispatch, hnext, hpend]
  rw [if_neg ?free]
  case free =>
    rintro (hoff | hbusy)
    · exact absurd hen (by simp [hoff])
    · cases hruns : s.tr.runs with
      | nil => simp only [hruns, Bool.false_eq_true] at hbusy
      | cons r l =>
        have hlower : n < r.slot := hover r (by rw [hruns, List.head?_cons])
        simp only [hruns, decide_eq_true_eq] at hbusy
        exact Nat.not_lt.mpr hbusy hlower
  simp only [hswap, htest, Bool.false_and, Bool.false_eq_true, if_false, Option.isSome_none]
  rfl

end Sys2Proof.Machine
end

section
/-! The instructions of a control law, each where the executing law's next word holds it, then the statement on the laws (13 R297 to R302, R314). -/

namespace Sys2Proof.Machine

section
variable {s : State} {r0 r : TrRun} {l : List TrRun} {i : LawIns} (hrun : s.tr.runs = r0 :: l) (hr : r = { r0 with pc := r0.pc + 1 })
include hrun hr

/-- MAC whose coefficient is read adds the rounded product to the accumulator, or starts it there (13 R301, R302). -/
theorem execMac_run {clr : Bool} {src coef w : Nat} {u : Upset} {t : State}
    (hword : lawDecode (Tbl.get 0 s.tr.law r0.pc).toNat = some (.mac clr src coef)) (hcoef : coefRead r coef u s = (some w, t)) :
    execMac clr src coef u s
      = .next (let term := rheScaleInt (sigRead r src t * coefValue w) (-((w / 2 ^ 32 : Nat) : Int))
               setRun { r with acc := if clr then term else r.acc + term } t) := by
  simp only [execMac, lawStep_head hrun hword hr, hcoef]

/-- STORE of an accumulator that rounds to an INT32 writes that value (13 R301). -/
theorem execLawStore_inRange {dst sh : Nat} (hword : lawDecode (Tbl.get 0 s.tr.law r0.pc).toNat = some (.store dst sh))
    (hrange : sat32 (rheScaleInt r.acc (-(sh : Int))) = rheScaleInt r.acc (-(sh : Int))) :
    execLawStore dst sh s = .next (sigWrite r dst (rheScaleInt r.acc (-(sh : Int))) s) := by
  simp only [execLawStore, lawStep_head hrun hword hr, hrange, if_true]

/-- LIMIT whose low limit is read clamps its signal, the high limit over the low one (13 R301). -/
theorem execLimit_run {dst coef w : Nat} {u : Upset} {t : State} (hword : lawDecode (Tbl.get 0 s.tr.law r0.pc).toNat = some (.limit dst coef))
    (hcoef : coefRead r coef u s = (some w, t)) :
    execLimit dst coef u s
      = .next (sigWrite r dst (min (max (sigRead r dst t) (coefValue w)) (coefValue (Tbl.get 0 r.coef (coef + 1)))) t) := by
  simp only [execLimit, lawStep_head hrun hword hr, hcoef]

/-- OUT to a PWM channel with no test's value injected there gives it the signal's compare (13 R301, R312). -/
theorem execLawOut_pwm {src n word : Nat} (hword : lawDecode (Tbl.get 0 s.tr.law r0.pc).toNat = some (.outPwm src n)) (htest : r.pwm = none) :
    execLawOut src false n word s = .next (pwmOut n (sigRead r src s) false (setRun r s)) := by
  simp only [execLawOut, Bool.false_eq_true, if_false, lawStep_head hrun hword hr, htest]

/-- SKIPIF skips its words where the signal meets its condition: below 0, at 0, above 0 or not at 0 (13 R301). -/
theorem execSkipif_run {src cond n : Nat} (hword : lawDecode (Tbl.get 0 s.tr.law r0.pc).toNat = some (.skipif src cond n)) (hcond : cond < 4) :
    execSkipif src cond n s
      = .next (setRun { r with pc := if (cond = 0 ∧ sigRead r src s < 0) ∨ (cond = 1 ∧ sigRead r src s = 0) ∨ (cond = 2 ∧ 0 < sigRead r src s)
                                 ∨ (cond = 3 ∧ sigRead r src s ≠ 0) then r.pc + n else r.pc } s) := by
  simp only [execSkipif, lawStep_head hrun hword hr]
  match cond, hcond with
  | 0, _ => simp
  | 1, _ => simp
  | 2, _ => simp
  | 3, _ => simp

end

/-- Settles O23, one clause per row; an instruction's row runs on the executing law by `lawStep_head`. -/
theorem controlLawCommands : Obligations.ControlLawCommands := by
  unfold Obligations.ControlLawCommands
  refine ⟨?trigger, ?dispatch, ?instructions⟩
  case trigger =>
    intro n s hn hstarted hen
    exact ⟨execSlotTrigger_timer hn hstarted hen, fun p => execSlotTrigger_fired hn hstarted hen⟩
  case dispatch =>
    intro n u s t p hnext hpend hen hover hswap ht htest
    exact execLawDispatch_pending hnext hpend hen hover hswap ht htest
  case instructions =>
    intro s r0 r l i hrun hi hr
    subst hi
    refine ⟨?mac, ?store, ?limit, ?move, ?outBuf, ?outPwm, ?send, ?skipif, ?stop⟩
    case mac => exact fun clr src coef w u t hword => execMac_run hrun hr hword
    case store => exact fun dst sh hword => execLawStore_inRange hrun hr hword
    case limit => exact fun dst coef w u t hword => execLimit_run hrun hr hword
    case move => exact fun dst src hword => congrArg Host.Outcome.next (lawStep_head hrun hword hr)
    case outBuf => exact fun src n word hword => congrArg Host.Outcome.next ((if_pos rfl).trans (lawStep_head hrun hword hr))
    case outPwm => exact fun src n word hword => execLawOut_pwm hrun hr hword
    case send => exact fun buf hword => congrArg Host.Outcome.next (lawStep_head hrun hword hr)
    case skipif => exact fun src cond n hword => execSkipif_run hrun hr hword
    case stop => exact fun hword => congrArg Host.Outcome.next (lawStep_head hrun hword hr)

end Sys2Proof.Machine
end

section
/-! SUPPORT. Tightrope's command registers: what a write does where nothing refuses it (13 R296, R298, R301, R307, R308, R315 to R319). -/

namespace Sys2Proof.Machine

section
variable {n : Nat} {s : State} (hn : n = rdField 10 0 0x40 5 0 s)
include hn

/-- Slot command 1 puts the staged entry in force where nothing refuses it (13 R296, R303). -/
theorem wrSlotCmd_configure (hlegal : slotRefusal n (slotStaged s) s = 0) : wrSlotCmd 1 s = setEntry n (slotStaged s) s := by
  subst hn
  exact if_neg (not_not.mpr hlegal)

/-- Slot command 2 starts a configured stopped slot outside recovery whose load the started slots' loads leave room for (13 R298; 19 R450). -/
theorem wrSlotCmd_start {load : Nat × Nat} (hstopped : (trSlot n s).st = 0) (hphase : s.sec.phase ≠ 3) (hconf : (trSlot n s).conf = true)
    (hload : load = trLoad ((List.range 64).filter (fun j => j == n || decide ((trSlot j s).st ≠ 0))) s) (hroom : load.1 ≤ 640000000 * load.2) :
    wrSlotCmd 2 s
      = setSlot n { trSlot n s with st := 1, cause := 0, saturated := false, words := [], accepted := none, fired := none, pend := none, prev := none,
                                    lastTrig := none, timer := devNow s, memErr := false } s := by
  have hgo : ¬((trSlot n s).st ≠ 0 ∨ s.sec.phase = 3) := by simp [hstopped, hphase]
  have hconfigured : ¬(trSlot n s).conf = false := by simp [hconf]
  subst hn hload
  exact (if_neg hgo).trans ((if_neg hconfigured).trans (if_neg (Nat.not_lt.mpr hroom)))

/-- Slot command 3 stops a started slot: what is pending or executes for it ends, and so does a test of it (13 R296, R318; log entry 42). -/
theorem wrSlotCmd_stop (hstarted : (trSlot n s).st ≠ 0) :
    wrSlotCmd 3 s
      = (let t := setSlot n { trSlot n s with st := 0, cause := 0, fired := none, pend := none } s
         let u := { t with tr := { t.tr with runs := t.tr.runs.filter (fun r => r.slot != n) } }
         if rdField 10 0 0xAC 5 0 u = n then wrField 10 0 0xAC 15 15 0 u else u) := by
  subst hn
  exact if_neg hstarted

/-- Slot command 4 lets a slot held with hold_mode 2 go on once no cause of its hold persists (13 R308). -/
theorem wrSlotCmd_resume (hheld : (trSlot n s).st = 2) (hmode : (trSlot n s).mode = 2) (hmem : (trSlot n s).memErr = false)
    (hvalid : firstInvalid (trSlot n s) (snapNow s) = none) (hfresh : spAged (trSlot n s) (devNow s) = false) :
    wrSlotCmd 4 s
      = raise { c := 10, i := 0, bit := 10, code := 0x0A00, ctx := n, payload := 2 } (setSlot n { trSlot n s with st := 1, cause := 0 } s) := by
  have hgo : ¬((trSlot n s).st ≠ 2 ∨ (trSlot n s).mode ≠ 2) := by simp [hheld, hmode]
  have hclear : ¬((trSlot n s).memErr = true ∨ (firstInvalid (trSlot n s) (snapNow s)).isSome = true ∨ spAged (trSlot n s) (devNow s) = true) := by
    simp [hmem, hvalid, hfresh]
  have hslot : wrSlotCmd 4 s = slotResume n s := by
    subst hn
    rfl
  simp only [hslot, slotResume, if_neg hgo, if_neg hclear]
  rw [hmode]

end

/-- A word of the law memory outside the laws of started slots is written, and the index passes to the next one (13 R301). -/
theorem wrLawData_uncovered {v : Word} {s : State} (hfree : lawCovered (rdField 10 0 0x70 11 0 s) s = false) :
    wrLawData v s
      = wrField 10 0 0x70 11 0 (rdField 10 0 0x70 11 0 s + 1)
          { s with tr := { s.tr with law := Tbl.set 0 s.tr.law (rdField 10 0 0x70 11 0 s) v } } :=
  if_neg (by simp [hfree])

/-- A coefficient goes, with its path's staged value, into the bank that the mode allows while no copy runs (13 R315, R317). -/
theorem wrCoefWrite_allowed {r : Req} {w : Word} {s : State}
    (hbank : Word.field w 31 31 = (if rdField 10 0 0x84 0 0 s = 1 then 1 - rdField 10 0 0x84 1 1 s else 0)) (hshift : Word.field w 21 16 ≠ 63)
    (hcopied : rdField 10 0 0x84 4 4 s = 0) :
    wrCoefWrite r w s
      = wrField 10 0 0x80 15 0 (rdField 10 0 0x80 15 0 s + 1)
          { s with tr := { s.tr with coef := Tbl.set 0 s.tr.coef (Word.field w 31 31 * 2048 + Word.field w 10 0)
                                       ((Tbl.get 0 s.tr.staged (reqCode r)).toNat + Word.field w 21 16 * 2 ^ 32) } } := by
  refine if_neg ?_
  rintro (hother | h63 | hcopying)
  · exact hother hbank
  · exact hshift h63
  · exact absurd hcopying (by simp [hcopied])

/-- In bank-swap mode with none pending, a swap asked for at a stopped slot takes place at once (13 R317). -/
theorem wrCoefBank_swapNow {w : Word} {s t : State} (hmode : Word.field w 0 0 = 1) (hold : rdField 10 0 0x84 0 0 s = 1)
    (hswap : natBit w.toNat 2 = true) (hnone : swapPending s = false)
    (ht : t = wrField 10 0 0x84 13 8 (Word.field w 13 8) (wrField 10 0 0x84 0 0 1 s)) (hstopped : (trSlot (Word.field w 13 8) t).st = 0) :
    wrCoefBank w s = bankSwap t := by
  subst ht
  simp only [wrCoefBank, hmode, hold, hswap, hnone, ne_eq, not_true_eq_false, false_and, Nat.one_ne_zero, Bool.false_eq_true, or_self, and_false,
    Bool.true_eq_false, if_false, if_pos hstopped]

/-- COEF_COPY_DONE of a copy in progress gives the inactive bank the active one's values (13 R317). -/
theorem execCoefCopyDone_copying {s : State} {a : Nat} (ha : a = rdField 10 0 0x84 1 1 s) (hcopying : rdField 10 0 0x84 4 4 s ≠ 0) :
    execCoefCopyDone s
      = .next (wrField 10 0 0x84 4 4 0 { s with tr := { s.tr with
          coef := (s.tr.coef.filter (fun e => e.1 / 2048 == a)).foldl (fun (t : Tbl Nat) e => Tbl.set 0 t ((1 - a) * 2048 + e.1 % 2048) e.2)
            (s.tr.coef.filter (fun e => e.1 / 2048 == a)) } }) := by
  subst ha
  exact congrArg Host.Outcome.next (if_neg hcopying)

/-- A commit to a slot with an age limit writes all eight words and, unless held, is accepted now (13 R307). -/
theorem spCommit_limited {n : Nat} {words : List Word} {held : Bool} {s : State} (hlimit : (trSlot n s).ageLimit ≠ 0) :
    spCommit n words held s
      = setSlot n { trSlot n s with sp := words.zipIdx.foldl (fun (t : Tbl Word) e => Tbl.set 0 t e.2 e.1) (trSlot n s).sp,
                                    accepted := if held then (trSlot n s).accepted else some (devNow s) } s :=
  if_neg hlimit

/-- The checker's write that turns the test generator on starts it anew (13 R318). -/
theorem wrTestCtrl_started {w : Word} {s : State} (hon : natBit w.toNat 15 = true) (hoff : natBit (rdReg 10 0 0xAC s).toNat 15 = false) :
    wrTestCtrl .checker w s = { wrReg 10 0 0xAC w s with tr := { (wrReg 10 0 0xAC w s).tr with testN := 0, lfsr := 0x7FFF } } :=
  if_pos ⟨hon, .inl hoff⟩

/-- A read of a finished capture passes to the next of its words (13 R319). -/
theorem capAdvance_within {s : State} (hdone : natBit (rdReg 10 0 0xB4 s).toNat 0 = false) (hleft : s.tr.capPos < 4 * s.tr.caps.length) :
    capAdvance s = { s with tr := { s.tr with capPos := s.tr.capPos + 1 } } := by
  refine if_neg ?_
  rintro (hrunning | hend)
  · exact absurd hrunning (by simp [hdone])
  · exact Nat.not_le.mpr hleft hend

/-- CAPTURE_READ of a reader that the register lets through advances the position (13 R319). -/
theorem execCaptureRead_allowed {r : Req} {s : State} (hk : regAt r false 10 0 0xBC s = (0, s)) : execCaptureRead r s = .next (capAdvance s) := by
  simp only [execCaptureRead, hk, ne_eq, not_true_eq_false, if_false]

/-- Settles O24, one clause per register of Tightrope; a row whose write passes its checks runs its effect by `onReg_ok`. -/
theorem tightropeRegisterCommands : Obligations.TightropeRegisterCommands := by
  unfold Obligations.TightropeRegisterCommands
  refine ⟨?slots, ?lawData, ?coefWrite, ?swap, ?copy, ?commit, ?test, ?capture⟩
  case slots =>
    intro r n s hk hn
    refine ⟨fun hlegal => ?configure, fun load hstopped hphase hconf hload hroom => ?start, fun hstarted => ?stop,
      fun hheld hmode hmem hvalid hfresh => ?resume⟩
    case configure => exact congrArg Host.Outcome.next ((onReg_ok hk).trans (wrSlotCmd_configure hn hlegal))
    case start => exact congrArg Host.Outcome.next ((onReg_ok hk).trans (wrSlotCmd_start hn hstopped hphase hconf hload hroom))
    case stop => exact congrArg Host.Outcome.next ((onReg_ok hk).trans (wrSlotCmd_stop hn hstarted))
    case resume => exact congrArg Host.Outcome.next ((onReg_ok hk).trans (wrSlotCmd_resume hn hheld hmode hmem hvalid hfresh))
  case lawData => exact fun r v s hk hfree => congrArg Host.Outcome.next ((onReg_ok hk).trans (wrLawData_uncovered hfree))
  case coefWrite =>
    rintro r v w s hk rfl hbank hshift hcopied
    exact congrArg Host.Outcome.next ((onReg_ok hk).trans (wrCoefWrite_allowed hbank hshift hcopied))
  case swap =>
    rintro r slot w s t hk rfl hmode hold hswap hnone ht hstopped
    exact congrArg Host.Outcome.next ((onReg_ok hk).trans (wrCoefBank_swapNow hmode hold hswap hnone ht hstopped))
  case copy => exact fun s a ha hcopying => execCoefCopyDone_copying ha hcopying
  case commit =>
    rintro r v n held s hk rfl rfl hlimit
    exact congrArg Host.Outcome.next ((onReg_ok hk).trans (spCommit_limited hlimit))
  case test =>
    rintro v w s hk rfl hon hoff
    exact congrArg Host.Outcome.next ((onReg_ok hk).trans (wrTestCtrl_started hon hoff))
  case capture =>
    intro r s hk hdone hleft
    exact (execCaptureRead_allowed hk).trans (congrArg Host.Outcome.next (capAdvance_within hdone hleft))

end Sys2Proof.Machine
end

section
/-! SUPPORT. The command registers of the timed I/O block: what a command word does to the selected encoder, input, converter or channel where
nothing refuses it (13 R309 to R312). -/

namespace Sys2Proof.Machine

section
variable {n : Nat} {s : State} {e : TioEnc} (hn : n = rdField 10 1 0x40 3 0 s)
include hn

/-- Encoder command 1 takes a legal table for an encoder that no started slot reads; causes 1 and 2 stay, causes 3 and 4 go with the old entry
(13 R309; log entry 43). -/
theorem wrEncCmd_configure (hok : encTableOk (tioStaged 0x44 4 s) = true) (hunused : startedUses (fun v _ => natBit v.encMask n) s = false)
    (he : e = { tioEnc n s with cfg := tioStaged 0x44 4 s, cause := if (tioEnc n s).cause ≤ 2 then (tioEnc n s).cause else 0, seen := false,
                                ab := none, counts := [] }) :
    wrEncCmd 1 s = setEnc n { e with zArm := e.zReset && e.mode == 1 } s := by
  subst hn he
  exact if_neg (by simp [hok, hunused])

/-- Encoder command 2 makes a configured encoder with cause 1 or 2 valid again, and reports it; a valid one's position stands with no report
(13 R309). -/
theorem wrEncCmd_revalidate (he : e = tioEnc n s) (hmode : e.mode ≠ 0) (hcause : e.cause < 3) :
    wrEncCmd 2 s
      = (let u := setEnc n { e with cause := 0, last := e.pos, zArm := e.zReset && e.mode == 1, counts := [] } s
         if e.cause = 0 then u else raise { c := 10, i := 1, bit := 6, code := 0x0A10, ctx := n, payload := e.pos } u) := by
  subst hn he
  exact if_neg (by simp [hmode, Nat.not_le.mpr hcause])

end

/-- The input command takes a legal entry; an input that reads 1 under it is active from now, and one that reads 0 is not stuck (13 R310). -/
theorem wrDinCmd_configure {n : Nat} {s : State} {d : TioDin} (hn : n = rdField 10 1 0x60 4 0 s) (hpulse : leField (tioStaged 0x64 2 s) 0 2 ≠ 0)
    (hflags : byteAt (tioStaged 0x64 2 s) 2 < 4) (hzero : byteAt (tioStaged 0x64 2 s) 3 = 0)
    (hd : d = { tioDin n s with cfg := tioStaged 0x64 2 s, rejects := 0 }) :
    wrDinCmd 1 s = setDin n { d with active := if d.reads then some s.time.clk else none, stuck := d.stuck && d.reads } s := by
  have hlegal : ¬(leField (tioStaged 0x64 2 s) 0 2 = 0 ∨ 4 ≤ byteAt (tioStaged 0x64 2 s) 2 ∨ byteAt (tioStaged 0x64 2 s) 3 ≠ 0) := by
    simp [hpulse, Nat.not_le.mpr hflags, hzero]
  have hset : (1 : Word).field 0 0 ≠ 0 := by decide
  subst hn hd
  simp only [wrDinCmd, if_neg hset, if_neg hlegal]

section
variable {m : Nat} {s : State} (hm : m = rdField 10 1 0x98 1 0 s)
include hm

/-- Converter command 1 takes a legal table for a master that no started slot reads (13 R311). -/
theorem wrAdcCmd_configure (hok : adcTableOk (tioStaged 0x9C 8 s) = true) (hunused : adcUsed m s = false) :
    wrAdcCmd 1 s = setAdc m { tioAdc m s with cfg := tioStaged 0x9C 8 s } s := by
  subst hm
  exact if_neg (by simp [hok, hunused])

/-- Converter command 2 starts a master, its first sequence a period from now (13 R311). -/
theorem wrAdcCmd_start : wrAdcCmd 2 s = setAdc m { tioAdc m s with running := true, next := devNow s + leField (tioAdc m s).cfg 8 4 } s := by
  subst hm
  rfl

/-- Converter command 3 stops a master that no started slot reads (13 R311). -/
theorem wrAdcCmd_stop (hunused : adcUsed m s = false) : wrAdcCmd 3 s = setAdc m { tioAdc m s with running := false } s := by
  subst hm
  exact if_neg (by simp [hunused])

end

section
variable {n : Nat} {s : State} (hn : n = rdField 10 1 0x7C 4 0 s) (hchan : n < 24) (hunused : startedUses (fun _ l => (pwmsOf l).contains n) s = false)
include hn hchan hunused

/-- Channel command 1 takes a legal table for a channel that no started slot writes; it drives where outputs are permitted (13 R312, R313). -/
theorem wrPwmCmd_configure (hok : pwmTableOk n (tioStaged 0x80 4 s) = true) :
    wrPwmCmd 1 s = setPwm n { tioPwm n s with cfg := tioStaged 0x80 4 s, conf := true, driving := permitted s } s := by
  have hlegal : ¬(24 ≤ n ∨ startedUses (fun _ l => (pwmsOf l).contains n) s = true ∨ pwmTableOk n (tioStaged 0x80 4 s) = false) := by
    simp only [Nat.not_le.mpr hchan, hunused, hok, Bool.false_eq_true, Bool.true_eq_false, or_self, not_false_eq_true]
  subst hn
  exact if_neg hlegal

/-- Channel command 2 releases a channel that no started slot writes (13 R312). -/
theorem wrPwmCmd_release : wrPwmCmd 2 s = setPwm n { tioPwm n s with conf := false, driving := false } s := by
  have hlegal : ¬(24 ≤ n ∨ startedUses (fun _ l => (pwmsOf l).contains n) s = true) := by
    simp only [Nat.not_le.mpr hchan, hunused, Bool.false_eq_true, or_self, not_false_eq_true]
  subst hn
  exact if_neg hlegal

end

end Sys2Proof.Machine
end

section
/-! The rows of the timed I/O block that no register write starts, then the statement that its rows make up (13 R309 to R313; 15 R342). -/

namespace Sys2Proof.Machine

section
variable {n : Nat} {s : State} (hn : n < 16) (hen : blockEnabled 10 1 s = true)
include hn hen

/-- ENC_SAMPLE of an encoder of the enabled block is looked at (13 R309). -/
theorem encSample_due : ¬(16 ≤ n ∨ blockEnabled 10 1 s = false) := by
  simp [Nat.not_le.mpr hn, hen]

variable (harmed : armed 10 1 5 s = false)
include harmed

/-- ENC_SAMPLE of a quadrature encoder counts (13 R309). -/
theorem execEncSample_quad {a b z : Bool} (hmode : (tioEnc n s).mode = 1) : execEncSample n (.quad a b z) s = .next (encQuad n a b z s) := by
  simp only [execEncSample, if_neg (encSample_due hn hen), hmode, harmed, ne_eq, not_true_eq_false, Bool.false_eq_true, if_false]

/-- ENC_SAMPLE of a serial encoder decodes its read (13 R309). -/
theorem execEncSample_serial {d : Nat} {p t : Bool} (hmode : (tioEnc n s).mode = 2) :
    execEncSample n (.serial d p t) s = .next (encSerial n d p t s) := by
  simp only [execEncSample, if_neg (encSample_due hn hen), hmode, harmed, ne_eq, not_true_eq_false, Bool.false_eq_true, if_false]

end

section
variable {n : Nat} {s : State} (hn : n < 32) (hen : blockEnabled 10 1 s = true)
include hn hen

/-- A row of a discrete input of the enabled block is looked at (13 R310). -/
theorem dinLine_due : ¬(32 ≤ n ∨ blockEnabled 10 1 s = false) := by
  simp [Nat.not_le.mpr hn, hen]

/-- DIN_EDGE after a level that was stable, or of an input in over-rate, rejects nothing: the raw level changes from now on (13 R310). -/
theorem execDinEdge_kept {t : State} (ht : t = dinInject n (dinSettle n s)) (hkept : (tioDin n t).raw = (tioDin n t).level ∨ (tioDin n t).fast = true) :
    execDinEdge n s = .next (setDin n { tioDin n t with raw := !(tioDin n t).raw, since := t.time.clk } t) := by
  have hlong : ((tioDin n t).raw != (tioDin n t).level && !(tioDin n t).fast) = false := by
    rcases hkept with hsame | hfast
    · simp [hsame]
    · simp [hfast]
  subst ht
  simp only [execDinEdge, if_neg (dinLine_due hn hen), hlong, Bool.false_and, Bool.false_eq_true, if_false]

/-- DIN_LEVEL_STABLE of a raw level that differs from the filtered one brings the end of its min_pulse (13 R310). -/
theorem execDinLevelStable_pulse (hfast : (tioDin n s).fast = false) (hdiffers : (tioDin n s).raw ≠ (tioDin n s).level) :
    execDinLevelStable n s = .next (dinSettle n (advanceTo ((tioDin n s).since + (tioDin n s).minPulse * tioTick) s)) := by
  simp only [execDinLevelStable, if_neg (dinLine_due hn hen), hfast, Bool.false_eq_true, if_false, if_pos hdiffers]

/-- DIN_LEVEL_STABLE of an input in over-rate brings the end of 16 times its min_pulse (13 R310). -/
theorem execDinLevelStable_overrate (hfast : (tioDin n s).fast = true) :
    execDinLevelStable n s = .next (dinSettle n (advanceTo ((tioDin n s).since + 16 * (tioDin n s).minPulse * tioTick) s)) := by
  simp only [execDinLevelStable, if_neg (dinLine_due hn hen), hfast, if_true]

end

/-- DIN_STUCK of an active input with a max_active_us brings the moment it is exceeded (13 R310). -/
theorem execDinStuck_active {n k : Nat} {s : State} (hn : n < 32) (hactive : (tioDin n s).active = some k) (hmax : (tioDin n s).maxActive ≠ 0)
    (hstuck : (tioDin n s).stuck = false) :
    execDinStuck n s
      = .next (let t := advanceTo (k + (tioDin n s).maxActive * oneUs + 1) s
               dinStuck n ((t.time.clk - k) / oneUs) false t) := by
  have hgo : ¬(32 ≤ n ∨ (tioDin n s).maxActive = 0 ∨ (tioDin n s).stuck = true) := by simp [Nat.not_le.mpr hn, hmax, hstuck]
  simp only [execDinStuck, hactive, if_neg hgo]

/-- ADC_SEQUENCE of a running master brings its period's end and keeps the readings of the sequence's frames with that time (13 R311). -/
theorem execAdcSequence_running {m : Nat} {frames : List Nat} {s t : State} {a : TioAdc} (hm : m < 4) (ha : a = tioAdc m s) (hrunning : a.running = true)
    (hen : blockEnabled 10 1 s = true) (ht : t = advanceToDev a.next s) :
    execAdcSequence m frames s
      = .next (setAdc m { a with next := a.next + leField a.cfg 8 4,
                                 readings := ((frames.take (byteAt a.cfg 0 % 8 + 1)).zipIdx).foldl
                                   (fun (l : Tbl (Nat × Nat)) e => Tbl.set (0, 0) l e.2 (adcReading a.cfg e.1, devNow t)) a.readings } t) := by
  subst ha ht
  have hgo : ¬(4 ≤ m ∨ (tioAdc m s).running = false ∨ blockEnabled 10 1 s = false) := by simp [Nat.not_le.mpr hm, hrunning, hen]
  exact congrArg Host.Outcome.next (if_neg hgo)

/-- PWM_PERIOD_START of a configured channel: the latest compare takes effect, the channel drives where outputs are permitted then, and its triggers
fire (13 R296, R312, R313). -/
theorem execPwmPeriodStart_configured {n : Nat} {s t : State} (hn : n < 24) (hconf : (tioPwm n s).conf = true)
    (ht : t = advanceToDev (pwmNext (tioPwm n s).cfg (devNow s)) s) :
    execPwmPeriodStart n s
      = .next (fireSlots 5 n (setPwm n { tioPwm n s with act := (tioPwm n s).next, actSafe := (tioPwm n s).nextSafe, driving := permitted t } t)) := by
  subst ht
  have hgo : ¬(24 ≤ n ∨ (tioPwm n s).conf = false) := by simp [Nat.not_le.mpr hn, hconf]
  exact congrArg Host.Outcome.next (if_neg hgo)

/-- Settles O25, one clause per row or group of rows; a row whose write passes its checks runs its effect by `onReg_ok`. -/
theorem timedIoCommands : Obligations.TimedIoCommands := by
  unfold Obligations.TimedIoCommands
  refine ⟨?encoder, ?sample, ?input, ?levels, ?stuck, ?converter, ?sequence, ?channel, ?period, ?stopN⟩
  case encoder =>
    intro r n s e hk hn
    refine ⟨fun hok hunused he => ?configure, fun u he hmode hcause hu => ?revalidate⟩
    case configure => exact congrArg Host.Outcome.next ((onReg_ok hk).trans (wrEncCmd_configure hn hok hunused he))
    case revalidate =>
      subst hu
      have hcommand := (onReg_ok hk).trans (wrEncCmd_revalidate hn he hmode hcause)
      exact ⟨fun hlost => congrArg Host.Outcome.next (hcommand.trans (if_neg hlost)),
        fun hvalid => congrArg Host.Outcome.next (hcommand.trans (if_pos hvalid))⟩
  case sample =>
    intro n s hn hen harmed
    exact ⟨fun _ _ _ => execEncSample_quad hn hen harmed, fun _ _ _ => execEncSample_serial hn hen harmed⟩
  case input =>
    intro r n s d hk hn hpulse hflags hzero hd
    exact congrArg Host.Outcome.next ((onReg_ok hk).trans (wrDinCmd_configure hn hpulse hflags hzero hd))
  case levels =>
    intro n s t hn hen
    exact ⟨execDinEdge_kept hn hen, execDinLevelStable_pulse hn hen, execDinLevelStable_overrate hn hen⟩
  case stuck => exact fun n k s hn hactive => execDinStuck_active hn hactive
  case converter =>
    intro r m s hk hm
    refine ⟨fun hok hunused => ?configure, ?start, fun hunused => ?stop⟩
    case configure => exact congrArg Host.Outcome.next ((onReg_ok hk).trans (wrAdcCmd_configure hm hok hunused))
    case start => exact congrArg Host.Outcome.next ((onReg_ok hk).trans (wrAdcCmd_start hm))
    case stop => exact congrArg Host.Outcome.next ((onReg_ok hk).trans (wrAdcCmd_stop hm hunused))
  case sequence => exact fun m frames s t a hm ha hrunning hen ht => execAdcSequence_running hm ha hrunning hen ht
  case channel =>
    intro r n s hk hn hchan hunused
    refine ⟨fun hok => ?configure, ?release⟩
    case configure => exact congrArg Host.Outcome.next ((onReg_ok hk).trans (wrPwmCmd_configure hn hchan hunused hok))
    case release => exact congrArg Host.Outcome.next ((onReg_ok hk).trans (wrPwmCmd_release hn hchan hunused))
  case period => exact fun n s t hn hconf ht => execPwmPeriodStart_configured hn hconf ht
  case stopN => exact fun s => ⟨rfl, rfl⟩

end Sys2Proof.Machine
end

section
/-! What every step keeps, the front command and the footprint of each command, from the one lemma on every command (02 R50; 15 R341; 19 R451, R456). -/

namespace Sys2Proof.Machine

/-- Settles O1, by the cases of the queue in the definition of a step. -/
theorem stepRunsFrontCommand : Obligations.StepRunsFrontCommand := by
  unfold Obligations.StepRunsFrontCommand
  refine ⟨?command, ?idle⟩
  case command => intro c rest s hq; simp only [step, hq]
  case idle => intro s hq; simp only [step, hq]

/-- Settles O41, by the lemma that says what every step keeps. -/
theorem stepKeepsSafeOutLegal : Obligations.StepKeepsSafeOutLegal := by
  unfold Obligations.StepKeepsSafeOutLegal
  intro s t harmed h
  obtain ⟨F, k⟩ := step_keeps h
  exact k.arm harmed

/-- Settles O42, by the lemma that says what every step keeps. -/
theorem stepKeepsOneTimeMemory : Obligations.StepKeepsOneTimeMemory := by
  unfold Obligations.StepKeepsOneTimeMemory
  intro s t h
  obtain ⟨F, k⟩ := step_keeps h
  exact k.otp

/-- Settles O44, by the lemma that says what every command keeps within its footprint. -/
theorem commandsStayInFootprint : Obligations.CommandsStayInFootprint := by
  unfold Obligations.CommandsStayInFootprint
  intro c s t h
  exact (exec_keeps c s t h).within

end Sys2Proof.Machine
end

section
/-! The checker's histories over arming and trips (15 R342, R345). -/

namespace Sys2Proof.Machine

/-- A table whose values are all changed alike, read at a key: the default changes to itself. -/
theorem Tbl.get_map {α : Type} {f : α → α} {d : α} (hd : f d = d) (t : Tbl α) (k : Nat) :
    Tbl.get d (t.map (fun e => (e.1, f e.2))) k = f (Tbl.get d t k) := by
  induction t with
  | nil => exact hd.symm
  | cons e t ih =>
    obtain ⟨j, v⟩ := e
    by_cases h : j = k
    · simp only [List.map_cons, Tbl.get, if_pos h]
    · simp only [List.map_cons, Tbl.get, if_neg h]; exact ih

/-- A slot's history read where the table of histories is another state's. -/
theorem snHist_eq_of_hist {s t : State} (h : t.sn.hist = s.sn.hist) (k : Nat) : snHist k t = snHist k s := by
  simp only [snHist, h]

/-- The lock of debug leaves the histories: it changes scratchpads and one register, and raises its event (19 R462). -/
theorem debugLock_hist (cause : Nat) (s : State) : (debugLock cause s).sn.hist = s.sn.hist := by
  unfold debugLock
  split
  · have hholds : Within { spads := true } s (dropHolds s) := (dropHolds_keeps (Keeps.refl s)).within
    have hraise := (EventLeaves.refl (wrReg 15 3 0x40 0 (dropHolds s))).raise (e := { c := 15, i := 1, bit := 7, code := 0x8F02, payload := cause })
    exact hraise.hist.trans (congrArg SnState.hist (hholds.sn rfl))
  · rfl

/-- An event asserts nothing (15 R341). -/
theorem raise_safeOut_off {e : Ev} {s : State} (h : s.sn.safeOut = false) : (raise e s).sn.safeOut = false :=
  have hwithin : Within Foot.event s (raise e s) := (raise_keeps (Keeps.refl s)).within
  hwithin.arms rfl h

/-- A trip leaves SAFE_OUT deasserted (15 R342). -/
theorem trip_safeOut (bit slot : Nat) (s : State) : (trip bit slot s).sn.safeOut = false := by
  unfold trip
  split
  · rfl
  · exact raise_safeOut_off rfl

/-- A trip leaves the histories (15 R345). -/
theorem trip_hist (bit slot : Nat) (s : State) : (trip bit slot s).sn.hist = s.sn.hist := by
  have hbits : EventLeaves s (tripBits bit slot s) := (EventLeaves.refl s).tripBits
  unfold trip
  split
  · exact hbits.hist
  · exact hbits.raise.hist

/-- A write of SN_ARM that asserts SAFE_OUT was let through with no arming condition unmet (15 R344). -/
theorem armFault_of_asserted {v : Word} {s : State} (hoff : s.sn.safeOut = false) (hon : (wrSnArm v s).sn.safeOut = true) :
    (v.field 31 16 = 0x0A4D ∧ natBit v.toNat 0 = true ∧ s.sec.phase = 1 ∧ s.sn.up = true) ∧ armFault v s = 0 := by
  unfold wrSnArm at hon
  split at hon
  case isTrue => exact absurd hon (by simp [hoff])
  case isFalse hlet =>
    dsimp only at hon
    split at hon
    case isTrue => exact absurd hon (by simp [raise_safeOut_off hoff])
    case isFalse hnone => exact ⟨by simpa using hlet, not_not.mp hnone⟩

/-- What a write of SN_ARM with the key does, the checker running under a main image and no arming condition unmet (15 R344, R345). -/
theorem wrSnArm_asserts {v : Word} {s t : State} (hkey : v.field 31 16 = 0x0A4D ∧ natBit v.toNat 0 = true ∧ s.sec.phase = 1 ∧ s.sn.up = true)
    (hnone : armFault v s = 0) (ht : t = wrReg 0 0 0x6C 0 (wrReg 12 0 0x48 0 s)) :
    wrSnArm v s
      = raise { c := 12, i := 0, bit := 15, code := 0x0C00, payload := rdField 12 0 0x48 11 0 s }
          (debugLock 2 { t with sn := { t.sn with safeOut := true, hist := t.sn.hist.map (fun e => (e.1, { e.2 with consec := 0, outcomes := [] })) } }) := by
  obtain ⟨hmagic, hset, hphase, hup⟩ := hkey
  subst ht
  simp only [wrSnArm, hmagic, hset, hphase, hup, hnone, ne_eq, not_true_eq_false, Bool.true_eq_false, or_self, if_false]

/-- Settles O48: arming replaces the table of histories slot by slot, and neither the lock of debug nor an event touches it after that. -/
theorem armingClearsHistory : Obligations.ArmingClearsHistory := by
  unfold Obligations.ArmingClearsHistory
  refine ⟨?arming, ?trips⟩
  case arming =>
    intro v s k hoff hon
    obtain ⟨hkey, hnone⟩ := armFault_of_asserted hoff hon
    have hhist : (wrSnArm v s).sn.hist = s.sn.hist.map (fun e => (e.1, { e.2 with consec := 0, outcomes := [] })) := by
      rw [wrSnArm_asserts hkey hnone rfl, (EventLeaves.refl _).raise.hist, debugLock_hist]
      rfl
    simp only [snHist, hhist]
    exact Tbl.get_map (f := fun h : SnSlot => { h with consec := 0, outcomes := [] }) rfl s.sn.hist k
  case trips => exact fun bit slot s k => ⟨trip_safeOut bit slot s, snHist_eq_of_hist (trip_hist bit slot s) k⟩

end Sys2Proof.Machine
end

section
/-! Device IDs and coordinates (17 R398). -/

namespace Sys2Proof.Machine

/-- The ID of coordinates inside a torus is below the number of its devices. -/
theorem mixedRadix_lt {x y z sx sy sz : Nat} (hx : x < sx) (hy : y < sy) (hz : z < sz) : x + sx * (y + sy * z) < sx * sy * sz := by
  have hplane : y + sy * z < sy * sz := by
    calc y + sy * z < sy + sy * z := by omega
      _ = sy * (z + 1) := by ring
      _ ≤ sy * sz := Nat.mul_le_mul_left sy hz
  calc x + sx * (y + sy * z) < sx + sx * (y + sy * z) := by omega
    _ = sx * (y + sy * z + 1) := by ring
    _ ≤ sx * (sy * sz) := Nat.mul_le_mul_left sx hplane
    _ = sx * sy * sz := (Nat.mul_assoc sx sy sz).symm

/-- The coordinates of an ID are the digits of its number, in the radices of the torus (17 R398). -/
theorem coordOf_eq {s : State} {sx sy sz : Nat} (hsizes : torusSizes s = (sx, sy, sz)) (hsx : 0 < sx) (hsy : 0 < sy) (id : Nat) :
    coordOf s id 0 = id % sx ∧ coordOf s id 1 = id / sx % sy ∧ coordOf s id 2 = id / sx / sy := by
  have hx : max sx 1 = sx := Nat.max_eq_left hsx
  have hy : max sy 1 = sy := Nat.max_eq_left hsy
  simp only [coordOf, hsizes, hx, hy, and_self]

/-- Settles O51: an ID is a number of mixed radix, whose digits are the coordinates. -/
theorem deviceIdsAndCoordinates : Obligations.DeviceIdsAndCoordinates := by
  unfold Obligations.DeviceIdsAndCoordinates
  intro s x y z sx sy sz hsizes hx hy hz
  have hsx : 0 < sx := Nat.zero_lt_of_lt hx
  have hsy : 0 < sy := Nat.zero_lt_of_lt hy
  have hid (a b c : Nat) : idOf s a b c = a + sx * (b + sy * c) := by simp only [idOf, hsizes]
  have hrest : (x + sx * (y + sy * z)) / sx = y + sy * z := by rw [Nat.add_mul_div_left _ _ hsx, Nat.div_eq_of_lt hx, Nat.zero_add]
  obtain ⟨hc0, hc1, hc2⟩ := coordOf_eq hsizes hsx hsy (idOf s x y z)
  refine ⟨hid x y z, ?below, ?first, ?second, ?third, ?manager⟩
  case manager => simp only [hid, Nat.mul_zero, Nat.add_zero]
  case below => rw [hid]; exact mixedRadix_lt hx hy hz
  case first => rw [hc0, hid, Nat.add_mul_mod_self_left, Nat.mod_eq_of_lt hx]
  case second => rw [hc1, hid, hrest, Nat.add_mul_mod_self_left, Nat.mod_eq_of_lt hy]
  case third => rw [hc2, hid, hrest, Nat.add_mul_div_left _ _ hsy, Nat.div_eq_of_lt hy, Nat.zero_add]

end Sys2Proof.Machine
end

section
/-! SUPPORT. The checker's rows by which it judges, each where it takes effect (15 R344 to R357): arming, tables, setpoints, twins, frames, outputs. -/

namespace Sys2Proof.Machine

/-- The arming key, with or without the bit that clears the trip causes, passes SN_ARM's check of its written word (15 R344). -/
theorem armKey_written (clear : Bool) :
    Word.field (BitVec.ofNat 32 (0x0A4D0001 + 2 * b2n clear)) 31 16 = 0x0A4D
      ∧ natBit (BitVec.ofNat 32 (0x0A4D0001 + 2 * b2n clear)).toNat 0 = true := by
  cases clear <;> decide

/-- SN_CMD's write takes a legal staged entry into its table (15 R347, R348, R357, R359). -/
theorem wrSnCmd_legal {tbl idx : Nat} {b : List Byte} {s : State} (htbl : tbl = rdField 12 0 0x58 10 9 s) (hidx : idx = rdField 12 0 0x58 8 0 s)
    (hb : b = (List.range 4).flatMap (fun k => leBytes 4 (rdReg 12 0 (0x5C + 4 * k) s).toNat)) (hok : snEntryOk tbl idx b = true) :
    wrSnCmd 1 s = snPut tbl idx b s := by
  have hset : natBit (1 : Word).toNat 0 = true := by decide
  subst htbl hidx hb
  simp only [wrSnCmd, hset, hok, Bool.true_eq_false, if_false, if_true]

/-- A write of SN_CMD by a requester that the window lets in is the checker's own write of it (15 R343, R347). -/
theorem snCmdWrite_ok {r : Req} {v : Word} {s : State} (hk : regAt r true 12 0 0x6C s = (0, s)) : snCmdWrite r v s = (0, wrSnCmd v s) := by
  have hw : regWriteAt r 12 0 0x6C (fun t => (0, wrSnCmd v t)) s = (0, wrSnCmd v s) := regWriteAt_ok hk
  simp only [snCmdWrite, hw, OfNat.zero_ne_ofNat, false_and, if_false]

section
variable {s : State} (hup : s.sn.up = true)
include hup

/-- SETPOINT_RECORD with no memory error takes a record of the twin buffer that ends or completes a pair first (15 R350). -/
theorem execSetpointRecord_twin {t : Twin} (hready : twinReady s = some t) :
    execSetpointRecord .none s = .next (arrive t.bytes t.job true { s with sn := { s.sn with twins := s.sn.twins.erase t } }) := by
  simp only [execSetpointRecord, hup, Bool.true_eq_false, if_false, hready]

/-- SETPOINT_RECORD with no memory error and no such record takes the setpoint queue's next (15 R346). -/
theorem execSetpointRecord_queue {q : Nat} {b : List Byte} {t : State} (hready : twinReady s = none) (hqueue : snQueue 0x4C s = some q)
    (htake : engineTake q s = some (b, t)) : execSetpointRecord .none s = .next (arrive b (qSource q s).1 false t) := by
  simp only [execSetpointRecord, hup, Bool.true_eq_false, if_false, hready, hqueue, htake]

/-- TWIN_HOLD_EXPIRY brings the end of the oldest record's hold: one of copy A is judged with cause 8, one of copy B discarded (15 R350). -/
theorem execTwinHoldExpiry_held {u : State} {t : Twin} {rest : List Twin} (htwins : s.sn.twins = t :: rest)
    (hu : u = { advanceTo (t.born + 4200) s with
      sn := { (advanceTo (t.born + 4200) s).sn with
        twins := rest,
        gone := (advanceTo (t.born + 4200) s).sn.gone ++ [⟨byteAt t.bytes 0 % 64, leField t.bytes 8 4, !t.copyB, true, none⟩] } }) :
    execTwinHoldExpiry s = .next (if t.copyB then u else judge (byteAt t.bytes 0 % 64) t.job 8 t.bytes u) := by
  subst hu
  simp only [execTwinHoldExpiry, htwins, hup, Bool.true_eq_false, if_false]

/-- FRAME_RECORD keeps the frame of its stream; one that was frozen trips where the stream's action is 2 (15 R357). -/
theorem execFrameRecord_taken {q id k : Nat} {b : List Byte} {fz : Bool} {l : List (Nat × Nat × Bool)} {t : State} (hqueue : snQueue 0x54 s = some q)
    (htake : engineTake q s = some (b, t)) (hid : id = leField b 0 4) (hk : k = id / 2 ^ 27) (hfz : fz = natBit (byteAt b 5) 2)
    (hl : l = ((id, leField b 20 8, fz) :: Tbl.get [] t.sn.frames k).take 64) :
    execFrameRecord s
      = .next (let u := { t with sn := { t.sn with frames := Tbl.set [] t.sn.frames k l } }
               if fz = true ∧ byteAt (snStream k u) 0 = 2 then trip 7 0 u else u) := by
  subst hl hfz hk hid
  simp only [execFrameRecord, hup, Bool.true_eq_false, if_false, hqueue, htake]

end

section
variable {id a b : Nat} {s : State} {j : JobRec} (hj : findJob id s = some j) (ha : j.endA = some a) (hb : j.endB = some b)
  (hphase : j.phase = .running) (hsafety : j.d.safety = true) (hcompared : j.compared = false)
include hj ha hb hphase hsafety hcompared

omit hj ha hb in
/-- OUTPUT_COMPARISON of a drained job whose copies ended within the window compares (15 R356). -/
theorem outputComparison_due (hdrained : jobDrained j s = true) (hnear : max a b - min a b ≤ cmpWindow s) :
    ¬(j.phase ≠ .running ∨ j.d.safety = false ∨ j.compared = true ∨ jobDrained j s = false ∨ cmpWindow s < max a b - min a b) := by
  simp [hphase, hsafety, hcompared, hdrained, hnear]

/-- CMP_WINDOW_EXPIRY of a job whose copies ended further apart than the window is a late mismatch (15 R356). -/
theorem execCmpWindowExpiry_apart (hapart : cmpWindow s < max a b - min a b) : execCmpWindowExpiry id s = .next (cmpMismatch j 0 0 true false s) := by
  simp only [execCmpWindowExpiry, hj, hphase, hsafety, hcompared, ha, hb, ne_eq, not_true_eq_false, Bool.true_eq_false, Bool.false_eq_true,
    or_self, if_false, if_pos hapart]

variable {t : State} (hdrained : jobDrained j s = true) (hnear : max a b - min a b ≤ cmpWindow s)
  (ht : t = cmpReads j.d (firstDiff j.d s) s) (hforced : armed 12 0 9 t = false)
include hdrained hnear ht hforced

/-- OUTPUT_COMPARISON of a drained job whose copies ended within the window and whose compared bytes are equal marks it compared (15 R356). -/
theorem execOutputComparison_equal (hsame : firstDiff j.d t = none) :
    execOutputComparison id s = .next (updJob id (fun k => { k with compared := true }) t) := by
  subst ht
  simp only [execOutputComparison, hj, ha, hb, if_neg (outputComparison_due hphase hsafety hcompared hdrained hnear), hforced, Bool.false_eq_true, false_and, if_false, hsame]

/-- Where a byte differs, the first that does is a mismatch (15 R356). -/
theorem execOutputComparison_differs {i k : Nat} (hdiff : firstDiff j.d t = some (i, k)) :
    execOutputComparison id s = .next (cmpMismatch j i k false false t) := by
  subst ht
  simp only [execOutputComparison, hj, ha, hb, if_neg (outputComparison_due hphase hsafety hcompared hdrained hnear), hforced, Bool.false_eq_true, false_and, if_false, hdiff]

end

end Sys2Proof.Machine
end

section
/-! The checker judges: the statement that its rows make up (15 R342 to R357). -/

namespace Sys2Proof.Machine

/-- Settles O27, one clause per row; a row whose write passes its checks runs its effect by `onReg_ok`. -/
theorem checkerJudges : Obligations.CheckerJudges := by
  unfold Obligations.CheckerJudges
  refine ⟨?arm, ?configure, ?setpoint, ?hold, ?frame, ?outputs⟩
  case arm =>
    rintro r clear _ s t hk hphase hup rfl hnone ht
    obtain ⟨hmagic, hset⟩ := armKey_written clear
    exact congrArg Host.Outcome.next ((onReg_ok hk).trans (wrSnArm_asserts ⟨hmagic, hset, hphase, hup⟩ hnone ht))
  case configure =>
    intro r tbl idx b s hk htbl hidx hb hok
    exact congrArg Host.Outcome.next ((congrArg Prod.snd (snCmdWrite_ok hk)).trans (wrSnCmd_legal htbl hidx hb hok))
  case setpoint => exact fun s hup => ⟨fun t => execSetpointRecord_twin hup, fun q b t => execSetpointRecord_queue hup⟩
  case hold => exact fun s u t rest htwins hup hu => execTwinHoldExpiry_held hup htwins hu
  case frame => exact fun s t q id k b fz l hup => execFrameRecord_taken hup
  case outputs =>
    intro id a b s t j hj ha hb hphase hsafety hcompared
    refine ⟨fun hdrained hnear ht hforced => ?within, execCmpWindowExpiry_apart hj ha hb hphase hsafety hcompared⟩
    exact ⟨execOutputComparison_equal hj ha hb hphase hsafety hcompared hdrained hnear ht hforced,
      fun i k => execOutputComparison_differs hj ha hb hphase hsafety hcompared hdrained hnear ht hforced⟩

end Sys2Proof.Machine
end

section
/-! The checker watches itself, row by row, then the statement that its rows make up (15 R340, R341, R354, R358 to R360). -/

namespace Sys2Proof.Machine

section
variable {s : State} (hup : s.sn.up = true)
include hup

/-- LOCKSTEP_MISMATCH of a running checker: the comparator, the clock or memory (15 R341). -/
theorem execLockstepMismatch_running {k : Nat} (hk : k ≤ 2) : execLockstepMismatch k s = .next (snFault k s) := by
  have hgo : ¬(s.sn.up = false ∨ 2 < k) := by simp [hup, hk]
  simp only [execLockstepMismatch, if_neg hgo]

/-- CHECKER_WATCHDOG of a running checker (15 R341). -/
theorem execCheckerWatchdog_running : execCheckerWatchdog s = .next (snFault 3 s) := by
  simp only [execCheckerWatchdog, hup, Bool.true_eq_false, if_false]

/-- SELF_TEST_SLICE starts the next slice whose resource is free, where it fits outside every safety window (15 R358, R359). -/
theorem execSelfTestSlice_fits {x : Nat × Nat} (hidle : s.sn.stRun = none) (hnext : s.sn.stLeft.find? (fun x => stFree x s) = some x)
    (hfits : stFits (stLength x.1) (devNow s) s = true) :
    execSelfTestSlice s = .next { s with sn := { s.sn with stLeft := s.sn.stLeft.erase x, stRun := some (x.1, x.2, s.time.clk) } } := by
  have hleft : s.sn.stLeft ≠ [] := fun hnil => by simp [hnil] at hnext
  have hgo : ¬(s.sn.up = false ∨ s.sn.stRun.isSome = true ∨ s.sn.stLeft = []) := by simp [hup, hidle, hleft]
  simp only [execSelfTestSlice, if_neg hgo, hnext, hfits, if_true]

/-- SELF_TEST_LATE brings the end of cycle_s; it is reported, trips where so set, and a cycle begins (15 R360). -/
theorem execSelfTestLate_due {sec : Nat} {t u : State} (hsec : sec = rdField 12 0 0x74 7 0 s) (hset : sec ≠ 0)
    (ht : t = allowEnd (advanceTo (s.sn.stStart + sec * 1000000 * oneUs) s))
    (hu : u = raise { c := 12, i := 0, bit := 11, code := 0x4C05, payload := (t.time.clk - t.sn.stStart) / oneMs % 2 ^ 32 } t) :
    execSelfTestLate s = .next (stBegin (if rdField 12 0 0x74 8 8 u = 1 then trip 6 0 u else u)) := by
  subst hu ht hsec
  have hgo : ¬(s.sn.up = false ∨ rdField 12 0 0x74 7 0 s = 0) := by simp [hup, hset]
  simp only [execSelfTestLate, if_neg hgo]

end

/-- CHECKER_RELOAD_DONE of a stopped checker starts it (15 R341). -/
theorem execCheckerReloadDone_stopped {s : State} (hdown : s.sn.up = false) : execCheckerReloadDone s = .next (snStart s) := by
  simp only [execCheckerReloadDone, hdown, Bool.false_eq_true, if_false]

/-- OVERFLOW_LOG_DRAIN passes the oldest entry whose queue has room for it on to that queue; the read position stays on its word, or falls to the entry's
place where it stood inside it (15 R354). -/
theorem execOverflowLogDrain_passes {k q : Nat} {e : OvfEntry} {s : State} (hfirst : s.sn.ovf.findIdx? (fun e => (ovfAdmits e s).isSome) = some k)
    (hentry : s.sn.ovf[k]? = some e) (hqueue : ovfAdmits e s = some q) :
    execOverflowLogDrain s
      = .next (let start := ((s.sn.ovf.take k).map OvfEntry.words).sum
               reserve q (if e.isLog then 0x60 else 3) 0xFFFF (deviceId s) e.bytes
                 { s with sn := { s.sn with
                     ovf := s.sn.ovf.eraseIdx k,
                     logPos := if start + e.words ≤ s.sn.logPos then s.sn.logPos - e.words else min s.sn.logPos start } }) := by
  simp only [execOverflowLogDrain, hfirst, hentry, hqueue]

/-- LOG_READ by a reader that the register lets through passes to the next word of the log (15 R354). -/
theorem execLogRead_within {r : Req} {s : State} (hk : regAt r false 12 0 0x88 s = (0, s)) (hleft : s.sn.logPos < (s.sn.ovf.map OvfEntry.words).sum) :
    execLogRead r s = .next { s with sn := { s.sn with logPos := s.sn.logPos + 1 } } := by
  simp only [execLogRead, hk, ne_eq, not_true_eq_false, if_false, logAdvance, if_neg (Nat.not_le.mpr hleft)]

section
variable {item unit start : Nat} {s : State} (hrun : s.sn.stRun = some (item, unit, start))
include hrun

/-- SLICE_DONE in success within the slice's length, with no test of a failure, ends the slice; the last of a cycle ends the cycle (15 R358, R360). -/
theorem execSliceDone_success {nib : Nat} {t : State} (htime : s.time.clk ≤ start + stLength item * oneUs) (habort : armed 12 0 12 s = false)
    (hfail : armed 12 0 10 s = false)
    (ht : t = allowEnd { s with sn := { s.sn with stRun := none, skipped := Tbl.erase s.sn.skipped (item * 1024 + unit) } }) :
    execSliceDone true nib s = .next (if t.sn.stLeft.isEmpty then stCycleEnd t else t) := by
  subst ht
  simp only [execSliceDone, hrun, if_neg (Nat.not_lt.mpr htime), habort, hfail, Bool.false_and, Bool.not_false, Bool.and_self, Bool.false_eq_true,
    if_false, if_true]

/-- SLICE_ABORT ends a slice at its length (15 R359). -/
theorem execSliceAbort_running : execSliceAbort s = .next (stAbort item unit false (advanceTo (start + stLength item * oneUs) s)) := by
  simp only [execSliceAbort, hrun]

end

/-- Settles O28, one clause per row or group of rows; the read position after an entry has left the log is the model's own choice. -/
theorem checkerWatchesItself : Obligations.CheckerWatchesItself := by
  unfold Obligations.CheckerWatchesItself
  refine ⟨?faults, ?reload, ?channels, ?drain, ?logRead, ?slice, ?sliceEnd, ?late⟩
  case faults => exact fun s hup => ⟨fun k => execLockstepMismatch_running hup, execCheckerWatchdog_running hup⟩
  case reload => exact fun s => execCheckerReloadDone_stopped
  case channels => exact fun k s hdiffers => congrArg Host.Outcome.next (if_neg hdiffers)
  case drain => exact fun k q e s => execOverflowLogDrain_passes
  case logRead => exact fun r s => execLogRead_within
  case slice => exact fun x s hup => execSelfTestSlice_fits hup
  case sliceEnd => exact fun item unit start nib s t hrun => ⟨execSliceDone_success hrun, execSliceAbort_running hrun⟩
  case late => exact fun sec s t u hup => execSelfTestLate_due hup

end Sys2Proof.Machine
end

section
/-! SUPPORT. The command registers of a CAN controller: what a command does to the selected entry or buffer where nothing refuses it (14 R324 to R330,
R335, R336). -/

namespace Sys2Proof.Machine

section
variable {c k : Nat} {s : State} {b : List Byte} (hk : k = rdField 11 c 0x54 5 0 s)
include hk

section
variable (hb : b = (List.range 8).flatMap (fun j => leBytes 4 (rdReg 11 c (0x58 + 4 * j) s).toNat))
include hb

/-- CAN command 1 on the table of buffers takes a legal descriptor for an idle buffer (14 R324). -/
theorem wrCanCmd_configureBuffer (htable : rdField 11 c 0x54 7 6 s = 0) (hlt : k < 16) (hidle : ((canCtl c s).tb k).st = 0) (hok : tbTableOk k b = true) :
    wrCanCmd c 1 s = setTb c k { (canCtl c s).tb k with desc := b } s := by
  have hgo : ¬(16 ≤ k ∨ ((canCtl c s).tb k).st ≠ 0 ∨ tbTableOk k b = false) := by simp [hlt, hidle, hok]
  subst hk hb
  refine Eq.trans (rfl : _ = canConfigure c s) ?_
  simp only [canConfigure, htable, if_neg hgo]

/-- CAN command 1 on the table of filters takes a legal filter (14 R330). -/
theorem wrCanCmd_configureFilter (htable : rdField 11 c 0x54 7 6 s = 1) (hok : filterTableOk (b.take 16) = true) :
    wrCanCmd c 1 s = setCan c { canCtl c s with filters := Tbl.set [] (canCtl c s).filters k (b.take 16) } s := by
  subst hk hb
  refine Eq.trans (rfl : _ = canConfigure c s) ?_
  simp only [canConfigure, htable, hok, if_true]

/-- CAN command 1 on the allow-list takes a legal entry (14 R329). -/
theorem wrCanCmd_configureAllow (htable : rdField 11 c 0x54 7 6 s = 2) (hlt : k < 8) (hok : allowTableOk (b.take 16) = true) :
    wrCanCmd c 1 s = setCan c { canCtl c s with allow := Tbl.set [] (canCtl c s).allow k (b.take 16) } s := by
  have hgo : (decide (k < 8) && allowTableOk (b.take 16)) = true := by simp [hlt, hok]
  subst hk hb
  refine Eq.trans (rfl : _ = canConfigure c s) ?_
  simp only [canConfigure, htable, if_pos hgo]

end

section
variable (hlt : k < 16) (htable : rdField 11 c 0x54 7 6 s = 0)
include hlt htable

/-- The selection of a CAN command on a buffer names a buffer (14 R325, R326). -/
theorem canSelects_buffer : (rdField 11 c 0x54 7 6 s == 0 && decide (rdField 11 c 0x54 5 0 s < 16)) = true := by
  simp [htable, ← hk, hlt]

/-- CAN command 2 requests the selected buffer with its contents as they stand (14 R325). -/
theorem wrCanCmd_request : wrCanCmd c 2 s = canRequest c k (((canCtl c s).tb k).desc ++ ((canCtl c s).tb k).pay) s := by
  have hcmd : Word.field 2 2 0 = 2 := by decide
  simp only [wrCanCmd, hcmd, canSelects_buffer hk hlt htable, if_true, hk]

/-- CAN command 3 aborts a pending buffer (14 R326). -/
theorem wrCanCmd_abortPending (hpending : ((canCtl c s).tb k).st = 1) : wrCanCmd c 3 s = canAbort c k 2 false s := by
  have hcmd : Word.field 3 2 0 = 3 := by decide
  rw [hk] at hpending
  simp only [wrCanCmd, hcmd, canSelects_buffer hk hlt htable, Bool.true_eq_false, if_false, if_pos hpending, hk]

/-- CAN command 3 marks a buffer on the bus, which is aborted where its frame fails (14 R326). -/
theorem wrCanCmd_abortOnBus (hbus : ((canCtl c s).tb k).st = 2) : wrCanCmd c 3 s = setTb c k { (canCtl c s).tb k with abort := true } s := by
  have hcmd : Word.field 3 2 0 = 3 := by decide
  rw [hk] at hbus
  simp only [wrCanCmd, hcmd, canSelects_buffer hk hlt htable, Bool.true_eq_false, if_false, hbus, OfNat.ofNat_ne_one, if_true, hk]

end

end

/-- CAN command 4 starts the recovery of a controller that is bus-off (14 R336). -/
theorem wrCanCmd_recover {c : Nat} {s : State} (hoff : (canCtl c s).st = 2) :
    wrCanCmd c 4 s = setCan c { canCtl c s with recovering := true } s := by
  have hcmd : Word.field 4 2 0 = 4 := by decide
  simp only [wrCanCmd, hcmd, if_pos hoff]

/-- CAN_TR_MAP takes a map with no Tightrope buffer twice, here or on another controller, that moves none a started slot writes (14 R328). -/
theorem wrTrMap_legal {c old new : Nat} {v : Word} {s : State} (hold : old = (rdReg 11 c 0x80 s).toNat) (hnew : new = (v &&& 0x8F8F8F8F).toNat)
    (hnodup : ((List.range 4).filterMap (trMapped new)).Nodup)
    (hothers : ∀ n < 32, n / 4 ≠ c → ∀ b, trMapped (rdReg 11 (n / 4) 0x80 s).toNat (n % 4) = some b → b ∉ (List.range 4).filterMap (trMapped new))
    (hmoved : startedUses (fun _ l => (bufsOf l).any (fun b => ((List.range 4).flatMap (fun k => if trMapped old k = trMapped new k then []
      else (trMapped old k).toList ++ (trMapped new k).toList)).contains b)) s = false) :
    wrTrMap c v s = wrReg 11 c 0x80 (BitVec.ofNat 32 new) s := by
  have hfree : ((List.range 4).filterMap (trMapped new)).any (fun b => ((List.range 32).filterMap
      (fun n => if n / 4 = c then none else trMapped (rdReg 11 (n / 4) 0x80 s).toNat (n % 4))).contains b) = false := by
    rw [List.any_eq_false]
    intro b hmine htheirs
    rw [List.contains_iff_mem, List.mem_filterMap] at htheirs
    obtain ⟨n, hn, hb⟩ := htheirs
    split at hb
    · exact nomatch hb
    · next hother => exact hothers n (List.mem_range.mp hn) hother b hb hmine
  subst hold hnew
  refine if_neg ?_
  rw [hfree, hmoved]
  simp only [hnodup, decide_true, Bool.true_eq_false, Bool.false_eq_true, or_self, not_false_eq_true]

end Sys2Proof.Machine
end

section
/-! The CAN rows that no register write starts, then the statement that all its rows make up (14 R324 to R336). -/

namespace Sys2Proof.Machine

/-- JOB_TX_REQUEST of a controller with a job queue takes its next request, which its allow-list holds (14 R329). -/
theorem execJobTxRequest_allowed {c q : Nat} {s t : State} {b : List Byte} (hc : c < 8) (hset : natBit (rdReg 11 c 0x8C s).toNat 31 = true)
    (hq : q = Word.field (rdReg 11 c 0x8C s) 19 0) (hconsumer : (qDesc q s).consumer = 4) (hsize : (qDesc q s).recordSize = 112)
    (htake : engineTake q s = some (b, t)) (hok : jobTxOk c (qSource q s).1 b t = true) :
    execJobTxRequest c s = .next (canRequest c (byteAt b 0) (b.drop 16) t) := by
  subst hq
  have hgo : ¬(8 ≤ c ∨ natBit (rdReg 11 c 0x8C s).toNat 31 = false ∨ (qDesc ((rdReg 11 c 0x8C s).field 19 0) s).consumer ≠ 4
      ∨ (qDesc ((rdReg 11 c 0x8C s).field 19 0) s).recordSize ≠ 112) := by simp [Nat.not_le.mpr hc, hset, hconsumer, hsize]
  simp only [execJobTxRequest, if_neg hgo, htake, hok, if_true]

section
variable {c b : Nat} {s : State} (hc : c < 8) (hmode : rdField 11 c 0x40 2 0 s = 1 ∨ rdField 11 c 0x40 2 0 s = 4) (hon : (canCtl c s).st ≠ 2)
  (hidle : onBus c s = none) (hen : blockEnabled 11 c s = true)
include hc hmode hon hidle hen

/-- CAN_ARBITRATION of a controller that sends on an idle bus has its lowest identifier's buffer to bring (14 R325). -/
theorem canArbitration_due :
    ¬(8 ≤ c ∨ (rdField 11 c 0x40 2 0 s ≠ 1 ∧ rdField 11 c 0x40 2 0 s ≠ 4) ∨ (canCtl c s).st = 2 ∨ (onBus c s).isSome = true ∨ blockEnabled 11 c s = false) := by
  have hsends : ¬(rdField 11 c 0x40 2 0 s ≠ 1 ∧ rdField 11 c 0x40 2 0 s ≠ 4) := fun h => hmode.elim h.1 h.2
  simp [Nat.not_le.mpr hc, hsends, hon, hidle, hen]

variable (hwinner : arbWinner c s = some b) (harmed : armed 11 c 8 s = false)
include hwinner harmed

/-- CAN_ARBITRATION of a payload that the buffer holds starts its frame (14 R325). -/
theorem execCanArbitration_held (hshort : cdLen ((canCtl c s).tb b).cur ≤ 64) :
    execCanArbitration c s = .next (setTb c b { (canCtl c s).tb b with st := 2, sof := devNow s } s) := by
  simp only [execCanArbitration, if_neg (canArbitration_due hc hmode hon hidle hen), hwinner, harmed, Bool.false_eq_true, false_and,
    if_false, if_pos hshort]

/-- CAN_ARBITRATION of a long payload that is read without an error starts its frame with the bytes read (14 R327). -/
theorem execCanArbitration_long {t : State} (hlong : 64 < cdLen ((canCtl c s).tb b).cur)
    (hread : access 11 c b .scribe .read (cdExt ((canCtl c s).tb b).cur) (cdLen ((canCtl c s).tb b).cur) [] s = (⟨0, 0⟩, t)) :
    execCanArbitration c s
      = .next (setTb c b { (canCtl c s).tb b with
          st := 2, sof := devNow s,
          cur := ((canCtl c s).tb b).cur.take 32 ++ rdBytes t (cdExt ((canCtl c s).tb b).cur) (cdLen ((canCtl c s).tb b).cur) } t) := by
  simp only [execCanArbitration, if_neg (canArbitration_due hc hmode hon hidle hen), hwinner, harmed, Bool.false_eq_true, false_and,
    if_false, if_neg (Nat.not_le.mpr hlong), hread, ne_eq, not_true_eq_false]

end

section
variable {c b : Nat} {s : State} (hbus : onBus c s = some b)
include hbus

section
variable (hkeep : ((canCtl c s).tb b).abort = false)
include hkeep

/-- ARBITRATION_LOST makes the buffer pending again, with no attempt counted (14 R325). -/
theorem execArbitrationLost_again (hheld : ((canCtl c s).tb b).held = none) :
    execArbitrationLost c s = .next (setTb c b { (canCtl c s).tb b with st := 1 } s) := by
  simp only [execArbitrationLost, hbus, hkeep, Bool.false_eq_true, if_false, hheld]

/-- ARBITRATION_LOST of a buffer that was requested anew meanwhile makes the new contents pending (14 R325). -/
theorem execArbitrationLost_replaced {h : List Byte} (hheld : ((canCtl c s).tb b).held = some h) :
    execArbitrationLost c s = .next (setTb c b { (canCtl c s).tb b with st := 1, cur := h, held := none, attempts := 0 } s) := by
  simp only [execArbitrationLost, hbus, hkeep, Bool.false_eq_true, if_false, hheld]

end

/-- CAN_ERROR_FRAME fails the frame on the bus; its prefetch can run dry for a long payload only (14 R326, R327). -/
theorem execCanErrorFrame_onBus {type : Nat} {dry : Bool} :
    execCanErrorFrame c type dry s = .next (canTxFail c b type (dry && decide (64 < cdLen ((canCtl c s).tb b).cur)) false s) := by
  simp only [execCanErrorFrame, hbus]

/-- CAN_FRAME_TRANSMITTED with no test of a failure and nothing requested meanwhile ends the request; the frame is recorded where it asks, and no echo
is received (14 R325, R330, R331, R336). -/
theorem execCanFrameTransmitted_ended {t u : State} {v : CanCtl} (hdry : armed 11 c 11 s = false) (hfail : armed 11 c 9 s = false) (hv : v = canCtl c s)
    (hheld : (v.tb b).held = none)
    (ht : t = canConfine c (bump 11 c 0x98 1 (setTb c b { v.tb b with st := 0, abort := false }
      (setCan c { v with tec := v.tec - 1, sent := (v.tb b).cur :: v.sent } s))))
    (hu : u = (if cdReport (v.tb b).cur then canRecord c 0x84 0x51 b
        (canHeader { canFrameOf (v.tb b).cur (devNow s - (v.tb b).sof) with esi := v.st == 1 } false 0xFF (v.tb b).sof b
          ++ (canFrameOf (v.tb b).cur (devNow s - (v.tb b).sof)).data) t else t))
    (hecho : natBit (rdReg 11 c 0x90 u).toNat 3 = false) : execCanFrameTransmitted c s = .next u := by
  subst hv ht hu
  simp only [hheld] at hecho
  simp only [execCanFrameTransmitted, hbus, hdry, hfail, Bool.false_and, Bool.false_eq_true, if_false, hheld, hecho]

end

section
variable {c m : Nat} {s : State} (hc : c < 8) (hm : m = rdField 11 c 0x40 2 0 s) (hlow : 1 ≤ m) (hhigh : m ≤ 3) (hon : (canCtl c s).st ≠ 2)
  (hen : blockEnabled 11 c s = true)
include hc hm hlow hhigh hon hen

omit hm in
/-- A controller in a mode that receives, enabled and not bus-off, looks at what is on the bus (14 R330, R336). -/
theorem canReceives_due : ¬(8 ≤ c ∨ m = 0 ∨ 3 < m ∨ (canCtl c s).st = 2 ∨ blockEnabled 11 c s = false) := by
  simp [Nat.not_le.mpr hc, Nat.pos_iff_ne_zero.mp hlow, Nat.not_lt.mpr hhigh, hon, hen]

/-- CAN_FRAME_RECEIVED in a mode that receives, of a format that is on, counts the frame and lets the filters place it (14 R330, R336). -/
theorem execCanFrameReceived_receives {f : CanFrame} {ovr : Bool} (hfmt : fmtOn c f.fmt s = true) :
    execCanFrameReceived c ⟨f, ovr⟩ s = .next (canReceive c f false ovr (canConfine c (recGood c s))) := by
  subst hm
  have hgo : ¬(8 ≤ c ∨ rdField 11 c 0x40 2 0 s = 0 ∨ 3 < rdField 11 c 0x40 2 0 s ∨ (canCtl c s).st = 2 ∨ fmtOn c f.fmt s = false
      ∨ blockEnabled 11 c s = false) := by simp [Nat.not_le.mpr hc, Nat.pos_iff_ne_zero.mp hlow, Nat.not_lt.mpr hhigh, hon, hfmt, hen]
  simp only [execCanFrameReceived, if_neg hgo]

variable {type : Nat} {eight : Bool} {t : State} (ht : t = canConfine c (canError c type false false
  (setCan c { canCtl c s with rxc := min 255 ((canCtl c s).rxc + (if eight then 8 else 1)) } s)))
include ht

/-- CAN_RX_ERROR in a mode that receives, with no record begun for the frame, is counted and reported (14 R336). -/
theorem execCanRxError_counted : execCanRxError c type ⟨eight, none⟩ s = .next t := by
  subst hm ht
  exact congrArg Host.Outcome.next (if_neg (canReceives_due hc hlow hhigh hon hen))

/-- A record begun for the frame is gone (14 R331). -/
theorem execCanRxError_begun {second : Bool} {n : Nat} :
    execCanRxError c type ⟨eight, some (second, n)⟩ s = .next (canGone c (if second then 0x88 else 0x84) n t) := by
  subst hm ht
  exact congrArg Host.Outcome.next (if_neg (canReceives_due hc hlow hhigh hon hen))

end

/-- CAN_RECOVERY_DONE of a controller that recovers makes it error-active, both counters 0 (14 R336). -/
theorem execCanRecoveryDone_recovering {c : Nat} {s : State} (hrecovering : (canCtl c s).recovering = true) :
    execCanRecoveryDone c s
      = .next (raise { c := 11, i := c, bit := 7, code := 0x0B00, payload := 0 }
          (setCan c { canCtl c s with st := 0, recovering := false, tec := 0, rxc := 0 } s)) := by
  simp only [execCanRecoveryDone, hrecovering, Bool.true_eq_false, if_false]

/-- Settles O26, one clause per row or group of rows; a row whose write passes its checks runs its effect by `onReg_ok`. -/
theorem canCommands : Obligations.CanCommands := by
  unfold Obligations.CanCommands
  refine ⟨?commands, ?map, ?stopClear, ?jobRequest, ?arbitration, ?lost, ?errorFrame, ?transmitted, ?received, ?recovered⟩
  case commands =>
    intro r c k s b hreg hk hb
    refine ⟨fun htable hlt hidle hok => ?buffer, fun htable hok => ?filter, fun htable hlt hok => ?allow, fun hlt htable => ?requests,
      fun hoff => congrArg Host.Outcome.next ((onReg_ok hreg).trans (wrCanCmd_recover hoff))⟩
    case buffer => exact congrArg Host.Outcome.next ((onReg_ok hreg).trans (wrCanCmd_configureBuffer hk hb htable hlt hidle hok))
    case filter => exact congrArg Host.Outcome.next ((onReg_ok hreg).trans (wrCanCmd_configureFilter hk hb htable hok))
    case allow => exact congrArg Host.Outcome.next ((onReg_ok hreg).trans (wrCanCmd_configureAllow hk hb htable hlt hok))
    case requests =>
      exact ⟨congrArg Host.Outcome.next ((onReg_ok hreg).trans (wrCanCmd_request hk hlt htable)),
        fun hpending => congrArg Host.Outcome.next ((onReg_ok hreg).trans (wrCanCmd_abortPending hk hlt htable hpending)),
        fun hbus => congrArg Host.Outcome.next ((onReg_ok hreg).trans (wrCanCmd_abortOnBus hk hlt htable hbus))⟩
  case map =>
    intro r c v old new s hreg hold hnew hnodup hothers hmoved
    exact congrArg Host.Outcome.next ((onReg_ok hreg).trans (wrTrMap_legal hold hnew hnodup hothers hmoved))
  case stopClear => exact fun r c s hreg => congrArg Host.Outcome.next (onReg_ok hreg)
  case jobRequest => exact fun c q s t b => execJobTxRequest_allowed
  case arbitration =>
    intro c b s hc hmode hon hidle hen hwinner harmed
    exact ⟨execCanArbitration_held hc hmode hon hidle hen hwinner harmed, fun t => execCanArbitration_long hc hmode hon hidle hen hwinner harmed⟩
  case lost => exact fun c b s hbus hkeep => ⟨execArbitrationLost_again hbus hkeep, fun h => execArbitrationLost_replaced hbus hkeep⟩
  case errorFrame => exact fun c b type dry s hbus => execCanErrorFrame_onBus hbus
  case transmitted => exact fun c b s t u v hbus => execCanFrameTransmitted_ended hbus
  case received =>
    intro c m s hc hm hlow hhigh hon hen
    exact ⟨fun f ovr => execCanFrameReceived_receives hc hm hlow hhigh hon hen,
      fun type eight t ht => ⟨execCanRxError_counted hc hm hlow hhigh hon hen ht,
        fun second n => execCanRxError_begun hc hm hlow hhigh hon hen ht⟩⟩
  case recovered => exact fun c s => execCanRecoveryDone_recovering

end Sys2Proof.Machine
end

section
/-! Resets, the reference clock and boot, each row where it takes effect, then the statement that they make up (15 R341; 19 R443, R444, R450; 20 R474,
R476). -/

namespace Sys2Proof.Machine

/-- MGMT_WATCHDOG resets a device that runs an image (19 R443). -/
theorem execMgmtWatchdog_running {s : State} (hruns : s.sec.phase = 1 ∨ s.sec.phase = 3) : execMgmtWatchdog s = .next (resetDevice 3 0 s) := by
  simp only [execMgmtWatchdog, if_pos hruns]

/-- RAIL_UNDERVOLTAGE of a rail past its threshold resets the device and holds it (20 R474). -/
theorem execRailUndervoltage_trips {rail mv : Nat} {s : State} (htrips : railTrips rail mv s = true) :
    execRailUndervoltage rail mv s = .next (resetDevice 0 2 s) := by
  simp only [execRailUndervoltage, htrips, if_true]

/-- REFCLK_LOSS of a device that nothing holds trips, resets and holds it (20 R476). -/
theorem execRefclkLoss_free {s : State} (hfree : s.sec.hold = 0) : execRefclkLoss s = .next (resetDevice 4 3 (snFault 1 s)) := by
  simp only [execRefclkLoss, hfree, OfNat.zero_ne_ofNat, if_false, if_true]

/-- REFCLK_RETURN brings the end of that hold, 100 µs later (20 R476). -/
theorem execRefclkReturn_held {s : State} (hheld : s.sec.hold = 3) :
    execRefclkReturn s = .next { advance (100 * oneUs) s with sec := { (advance (100 * oneUs) s).sec with hold := 0 } } := by
  simp only [execRefclkReturn, hheld, if_true]

section
variable {fails : List Nat} {s : State} {a : Nat} (hstrap : natBit (rdReg 0 0 0x48 s).toNat 1 = false) (hnone : 2 ≤ (descriptor s).pending)
  (ha : a = (descriptor s).active % 2)
include hstrap hnone ha

/-- With SAFE_BOOT low and no trial pending, the active slot boots where its image is good (19 R450). -/
theorem bootDevice_active (hgood : slotCause a s = none) : bootDevice fails s = startImage a 0 fails s := by
  have htrial : decide ((descriptor s).pending < 2) = false := decide_eq_false (Nat.not_lt.mpr hnone)
  subst ha
  simp only [bootDevice, hstrap, htrial, Bool.false_eq_true, false_and, if_false, hgood]

variable {k : Nat} {t : State} (hbad : slotCause a s = some k) (ht : t = imageRejected a k s)
include hbad ht

/-- Where it is not, the other slot boots if that one's image is good (19 R450). -/
theorem bootDevice_other (hgood : slotCause (1 - a) t = none) :
    bootDevice fails s = startImage (1 - a) (bootReason k) fails (evFallback (1 - a) (bootReason k) t) := by
  have htrial : decide ((descriptor s).pending < 2) = false := decide_eq_false (Nat.not_lt.mpr hnone)
  subst ha ht
  simp only [bootDevice, hstrap, htrial, Bool.false_eq_true, false_and, if_false, hbad, hgood]

/-- Where neither is, the recovery image is taken (19 R450). -/
theorem bootDevice_recovery {k2 : Nat} (hbad2 : slotCause (1 - a) t = some k2) :
    bootDevice fails s = bootRecovery (bootReason k) true fails (imageRejected (1 - a) k2 t) := by
  have htrial : decide ((descriptor s).pending < 2) = false := decide_eq_false (Nat.not_lt.mpr hnone)
  subst ha ht
  simp only [bootDevice, hstrap, htrial, Bool.false_eq_true, false_and, if_false, hbad, hbad2]

end

/-- BOOT of a device that waits and is not held, or that its rails held, boots (19 R450; 20 R474). -/
theorem execBoot_waiting {fails : List Nat} {s : State} (hphase : s.sec.phase = 0) (hhold : s.sec.hold = 0 ∨ s.sec.hold = 2) :
    execBoot fails s = .next (bootDevice fails s) := by
  have hgo : ¬(s.sec.phase ≠ 0 ∨ (s.sec.hold ≠ 0 ∧ s.sec.hold ≠ 2)) := by
    rintro (hrunning | ⟨hheld, hother⟩)
    · exact hrunning hphase
    · exact hhold.elim hheld hother
  simp only [execBoot, if_neg hgo]

/-- Settles O39, one clause per row. -/
theorem resetAndBootCommands : Obligations.ResetAndBootCommands := by
  unfold Obligations.ResetAndBootCommands
  refine ⟨?pins, ?watchdog, ?rail, ?clockLoss, ?clockReturn, ?boot⟩
  case pins => exact fun straps banks s => ⟨rfl, rfl⟩
  case watchdog => exact fun s => execMgmtWatchdog_running
  case rail => exact fun rail mv s => execRailUndervoltage_trips
  case clockLoss => exact fun s => execRefclkLoss_free
  case clockReturn => exact fun s => execRefclkReturn_held
  case boot =>
    intro fails s hphase hhold hstrap hnone
    refine (execBoot_waiting hphase hhold).trans (congrArg Host.Outcome.next ?_)
    dsimp only
    split
    · next hgood => exact bootDevice_active hstrap hnone rfl hgood
    · next k hbad =>
      split
      · next hgood => exact bootDevice_other hstrap hnone rfl hbad rfl hgood
      · next k2 hbad2 => exact bootDevice_recovery hstrap hnone rfl hbad rfl hbad2

end Sys2Proof.Machine
end

section
/-! The power arbiter's rows, each where it takes effect, then the statement that they make up (16 R364 to R381). -/

namespace Sys2Proof.Machine

/-- GRANT_PERIOD of the enabled arbiter: the period's counts become figures, tallies and the device's power, the cap is checked, and grants and clocks of
the next period are set (16 R366, R369, R370, R378, R379, R381). -/
theorem execGrantPeriod_enabled {act : PwrAct} {a : PwrFig} {m x dev : Nat} {s s0 s1 s2 s3 s4 : State} (hen : blockEnabled 13 0 s = true)
    (h0 : s0 = advanceToDev ((devNow s / 10000 + 1) * 10000) s) (ha : a = offsetAct (figures act s0) s0) (hm : m = actTotal a)
    (hx : x = measured a.rails s0) (h1 : s1 = diverge m x (tally a { s0 with pwr := { s0.pwr with figures := a.rails }, act := {} }))
    (hdev : dev = (if s1.pwr.divergent then max m x else scaled m s1))
    (h2 : s2 = { s1 with pwr := { s1.pwr with overpower := s1.pwr.overpower && decide (580000 ≤ x) } })
    (h3 : s3 = checkCap dev ((s2.jobs.filter (fun j => j.live && j.d.det)).foldl (fun acc j => checkReserve j acc) s2))
    (h4 : s4 = newClocks a { s3 with pwr := { s3.pwr with grants := newGrants a dev s3 } }) :
    execGrantPeriod act s
      = .next (let pair := fun (hi lo : Nat) => BitVec.ofNat 32 (min (hi / 100) 0xFFFF * 65536 + min (lo / 100) 0xFFFF)
               showRecon (wrReg 13 0 0x48 (pair (x - scaled (actQuills a) s4) x) (wrReg 13 0 0x4C (pair (actQuills a) m) s4))) := by
  subst h4 h3 h2 hdev h1 hx hm ha h0
  exact congrArg Host.Outcome.next (if_neg (by simp [hen]))

section
variable {k : Nat} {s : State} (hk : k < 5)
include hk

/-- RAIL_READING, no injection taking VDD_M's away, is the rail's latest (16 R364). -/
theorem execRailReading_taken {mv mw : Nat} (harmed : k = 2 → armed 13 0 9 s = false) :
    execRailReading k mv mw s = .next (showRecon (setRail k { mv := mv % 65536, mw := mw, read := some s.time.clk, missing := false } s)) := by
  have hinject : ¬(k = 2 ∧ armed 13 0 9 s = true) := fun ⟨hm, hon⟩ => absurd hon (by simp [harmed hm])
  simp only [execRailReading, if_neg (Nat.not_le.mpr hk), if_neg hinject]

/-- RAIL_TIMEOUT of a rail that is not missing yet brings the end of its last reading's millisecond (16 R364). -/
theorem execRailTimeout_due {pmbus : Bool} (hpresent : (pwrRail k s).missing = false) :
    execRailTimeout k pmbus s = .next (railFault k pmbus false (advanceTo ((pwrRail k s).read.getD 0 + oneMs) s)) := by
  have hgo : ¬(5 ≤ k ∨ (pwrRail k s).missing = true) := by simp [Nat.not_le.mpr hk, hpresent]
  simp only [execRailTimeout, if_neg hgo]

end

/-- RECON_WINDOW of a window that did not diverge, with every rail read and something modelled, takes its factor from the window's sums (16 R380). -/
theorem execReconWindow_reconciled {s t : State} (ht : t = advanceToDev ((devNow s / 1000000 + 1) * 1000000) s) (hdiv : t.pwr.winDiv = false)
    (hrails : railMissing t = false) (hmodel : t.pwr.winModel ≠ 0) :
    execReconWindow s
      = .next (showRecon { t with pwr := { t.pwr with
          rNum := t.pwr.winMeas, rDen := t.pwr.winModel, winMeas := 0, winModel := 0, winDiv := false } }) := by
  subst ht
  simp only [execReconWindow, hdiv, hrails, hmodel, ne_eq, not_false_eq_true, decide_true, Bool.not_false, Bool.and_self, if_true]

/-- PWR_CAP takes a value in its range that the allowance and the reservations leave room for (16 R365). -/
theorem wrCap_legal {n : Nat} {v : Word} {s : State} (hn : n = v.field 15 0) (hlow : 1500 ≤ n) (hhigh : n ≤ 6000)
    (hroom : rdField 13 0 0x44 15 0 s + powerReserved s ≤ n) : wrCap v s = plainWrite 13 0 0x40 v s := by
  subst hn
  exact if_pos ⟨hlow, hhigh, hroom⟩

/-- PWR_ALLOWANCE takes a value in its range that the cap leaves room for beside the reservations (16 R365). -/
theorem wrAllowance_legal {n : Nat} {v : Word} {s : State} (hn : n = v.field 15 0) (hlow : 300 ≤ n) (hhigh : n ≤ 2000)
    (hroom : n + powerReserved s ≤ rdField 13 0 0x40 15 0 s) : wrAllowance v s = plainWrite 13 0 0x44 v s := by
  subst hn
  exact if_pos ⟨hlow, hhigh, hroom⟩

/-- OVERPOWER with more than 600 W measured brings 100 µs and holds the throughput Quills at 300 MHz (16 R370). -/
theorem execOverpower_above {s t : State} (habove : 600000 < measured s.pwr.figures s) (ht : t = advance (100 * oneUs) s) :
    execOverpower s
      = .next ((List.range 192).foldl (fun acc q => if (throughput q acc).isSome ∧ 300 < (quill q acc).mhz then setQuill q { quill q acc with mhz := 300 } acc
            else acc)
          { t with pwr := { t.pwr with overpower := true, waiting := t.pwr.waiting.filter (fun e => (throughput e.1 t).isNone) } }) := by
  subst ht
  simp only [execOverpower, if_neg (Nat.not_le.mpr habove)]

/-- DROOP_DETECT of a detector that exists, at either level, begins or deepens the droop (16 R376, R377). -/
theorem execDroopDetect_site {site level : Nat} {s : State} (hsite : site ≤ 48) (hlow : 1 ≤ level) (hhigh : level ≤ 2) :
    execDroopDetect site level s = .next (droopOn site level false s) := by
  have hgo : ¬(48 < site ∨ level = 0 ∨ 2 < level) := by omega
  simp only [execDroopDetect, if_neg hgo]

/-- DROOP_END of a droop brings its end, 64 mesh cycles after its start (16 R376). -/
theorem execDroopEnd_due {site : Nat} {s : State} {d : PwrEpisode} (hdroop : Tbl.find? s.pwr.droops site = some d) :
    execDroopEnd site s = .next (droopOff site (advanceTo (d.start + 128) s)) := by
  simp only [execDroopEnd, hdroop]

/-- Settles O29, one clause per row or pair of rows; a row whose write passes its checks runs its effect by `onReg_ok`. -/
theorem powerCommands : Obligations.PowerCommands := by
  unfold Obligations.PowerCommands
  refine ⟨?grants, fun s => rfl, ?rails, ?window, ?caps, ?overpower, ?droop, ?droopEnd⟩
  case grants => exact fun act a m x dev s s0 s1 s2 s3 s4 => execGrantPeriod_enabled
  case rails => exact fun k mv mw pmbus s hk => ⟨execRailReading_taken hk, execRailTimeout_due hk⟩
  case window => exact fun s t => execReconWindow_reconciled
  case caps =>
    intro r v n s hn
    exact ⟨fun hreg hlow hhigh hroom => congrArg Host.Outcome.next ((onReg_ok hreg).trans (wrCap_legal hn hlow hhigh hroom)),
      fun hreg hlow hhigh hroom => congrArg Host.Outcome.next ((onReg_ok hreg).trans (wrAllowance_legal hn hlow hhigh hroom))⟩
  case overpower => exact fun s t => execOverpower_above
  case droop => exact fun site level s => execDroopDetect_site
  case droopEnd => exact fun site s d => execDroopEnd_due

end Sys2Proof.Machine
end

section
/-! The rows of temperature, coolant and power domains, each where it takes effect, then the statement that they make up (16 R374, R383 to R389). -/

namespace Sys2Proof.Machine

section
variable {k temp : Nat} {s : State} (hk : k < 72)
include hk

/-- TEMP_READING of a device that no thermal trip holds updates its sensor and what follows from it; a stack's shows in its controller (16 R383, R384). -/
theorem execTempReading_running (hhold : s.sec.hold ≠ 1) :
    execTempReading k temp s
      = .next (thermal k (signed 8 temp)
          (if 64 ≤ k then wrField 4 (k - 64) 0x54 7 0 (temp % 256) (setTemp k (signed 8 temp) s) else setTemp k (signed 8 temp) s)) := by
  simp only [execTempReading, if_neg (Nat.not_le.mpr hk), if_neg hhold]

/-- TEMP_READING that leaves every junction sensor below 100 °C ends the hold of a thermal trip (16 R384). -/
theorem execTempReading_released {t : State} (hhold : s.sec.hold = 1) (ht : t = setTemp k (signed 8 temp) s)
    (hcool : ∀ e ∈ t.pwr.temps, 64 ≤ e.1 ∨ e.2 < 100) : execTempReading k temp s = .next { t with sec := { t.sec with hold := 0 } } := by
  have hall : t.pwr.temps.all (fun e => decide (64 ≤ e.1) || decide (e.2 < 100)) = true := by
    rw [List.all_eq_true]
    intro e he
    simpa only [Bool.or_eq_true, decide_eq_true_eq] using hcool e he
  subst ht
  simp only [execTempReading, if_neg (Nat.not_le.mpr hk), if_pos hhold, hall, if_true]

end

/-- THERMAL_TRIP at 120 °C of a junction sensor drops SAFE_OUT, then resets and holds the device (16 R384). -/
theorem execThermalTrip_hot {k temp : Nat} {s : State} (hk : k < 64) (hhot : 120 ≤ signed 8 temp) :
    execThermalTrip k temp s = .next (resetDevice 5 1 (setTemp k (signed 8 temp) (trip 10 0 s))) := by
  have hgo : ¬(64 ≤ k ∨ signed 8 temp < 120) := by omega
  simp only [execThermalTrip, if_neg hgo]

/-- RECOVERY_END brings the end of recovery (16 R374). -/
theorem execRecoveryEnd_due {t : Nat} {s : State} (hrecovery : s.pwr.recovery = some t) :
    execRecoveryEnd s = .next { advanceTo t s with pwr := { (advanceTo t s).pwr with recovery := none } } := by
  simp only [execRecoveryEnd, hrecovery]

/-- COOLANT_LOSS with none in force gates the Quills, trips, writes COOLANT_LOST and puts memory in self-refresh, in this order (16 R385). -/
theorem execCoolantLoss_first {s t : State} (hnone : coolantLost s = false) (ht : t = wrField 13 0 0x78 1 1 0 s) :
    execCoolantLoss s
      = .next (setSelfRef true (raise { c := 13, i := 0, bit := 13, code := 0x4D00, payload := (t.jobs.filter (fun j => j.phase == .running)).length }
          (trip 4 0 (wrField 13 0 0x78 0 0 1 (episodeOn none 4 (bump 13 0 0xB0 1 { t with pwr := { t.pwr with lostAt := t.time.clk } })))))) := by
  subst ht
  simp only [execCoolantLoss, hnone, Bool.false_eq_true, if_false]

/-- COOL_FLOW_RESTORED after a low pin notes the flow's return (16 R387). -/
theorem execCoolFlowRestored_low {s : State} (hlow : rdField 13 0 0x78 1 1 s ≠ 1) :
    execCoolFlowRestored s = .next (wrField 13 0 0x78 1 1 1 { s with pwr := { s.pwr with flowSince := s.time.clk } }) := by
  simp only [execCoolFlowRestored, if_neg hlow]

/-- PWR_COOL's restart key, with restart allowed and coolant lost, ungates the device from a rotation boundary on and starts recovery (16 R387). -/
theorem wrCool_restarts {v : Word} {s t : State} (hkey : v.field 31 16 = 0xC001) (hset : natBit v.toNat 2 = true) (hok : restartOk s = true)
    (hlost : coolantLost s = true)
    (ht : t = (List.range 8).foldl (fun acc m => if natBit (rdReg 4 m 0x44 acc).toNat 0 then wrField 4 m 0x44 3 2 1 acc else acc)
      (advanceToRing (rotationAfter (ringNow s)) (setSelfRef false s))) :
    wrCool v s
      = startRecovery (raise { c := 13, i := 0, bit := 14, code := 0x0D01, payload := min ((t.time.clk - t.pwr.lostAt) / oneUs) 0xFFFFFFFF }
          (ungate (t.time.clk - t.pwr.lostAt) (wrField 13 0 0x78 0 0 0 t))) := by
  subst ht
  simp only [wrCool, hkey, hset, hok, hlost, ne_eq, not_true_eq_false, Bool.true_eq_false, or_self, if_false]

section
variable {d : Nat} {s : State} (hd : d < 112)
include hd

/-- The command word of a domain's op 1: the domain and the bit that asks it on (16 R388). -/
theorem domainOnWord : Word.field (BitVec.ofNat 32 (256 + d % 128)) 6 0 = d ∧ natBit (BitVec.ofNat 32 (256 + d % 128)).toNat 8 = true := by
  simp only [Word.field, natBit, BitVec.toNat_ofNat, decide_eq_true_eq]
  omega

/-- The command word of a domain's op 0. -/
theorem domainOffWord : Word.field (BitVec.ofNat 32 (d % 128)) 6 0 = d ∧ natBit (BitVec.ofNat 32 (d % 128)).toNat 8 = false := by
  simp only [Word.field, natBit, BitVec.toNat_ofNat, decide_eq_false_iff_not]
  omega

/-- PWR_DOMAIN_CMD asks a domain on (16 R388). -/
theorem wrDomainCmd_on : wrDomainCmd (BitVec.ofNat 32 (256 + d % 128)) s = domainRise d false s := by
  obtain ⟨hfield, hbit⟩ := domainOnWord hd
  simp only [wrDomainCmd, hfield, hbit, if_neg (Nat.not_le.mpr hd), if_true]

/-- PWR_DOMAIN_CMD switches a domain off where nothing refuses it (16 R388). -/
theorem wrDomainCmd_off (hfree : offRefused d s = false) : wrDomainCmd (BitVec.ofNat 32 (d % 128)) s = domainFall d false s := by
  obtain ⟨hfield, hbit⟩ := domainOffWord hd
  simp only [wrDomainCmd, hfield, hbit, hfree, if_neg (Nat.not_le.mpr hd), Bool.false_eq_true, if_false]

end

/-- DOMAIN_USABLE brings the end of a rising domain's on time; its blocks start from reset, and a scratchpad's banks wake (16 R388). -/
theorem execDomainUsable_risen {d : Nat} {s t : State} {e : Nat × Nat × Bool} (hrising : s.pwr.rising.find? (fun e => e.1 == d) = some e)
    (ht : t = advanceTo (e.2.1 + domainTime d) s) :
    execDomainUsable d s
      = .next (let u := domainReset d (setDomain d true { t with pwr := { t.pwr with rising := t.pwr.rising.filter (fun x => x.1 != d) } })
               raise (evDomainState d true e.2.2) (if 48 ≤ d ∧ d < 96 then wakeBanks (d - 48) u else u)) := by
  subst ht
  simp only [execDomainUsable, hrising]

section
variable {n : Nat} {s : State} (hn : n < 48)
include hn

/-- AUTO_POWER_DOWN of an idle Inkwell logic domain switches it off when its Quills have been idle for idle_ms (16 R389). -/
theorem execAutoPowerDown_logic (hset : natBit (rdReg 13 0 0x90 s).toNat 0 = true) (hon : domainOn n s = true) (hfree : offRefused n s = false) :
    execAutoPowerDown none n s
      = .next (domainFall n true (advanceTo (((List.range 4).map (fun k => quill (4 * n + k) s)).foldl (fun m v => max m v.freed) 0
          + rdField 13 0 0x90 31 16 s * oneMs) s)) := by
  simp only [execAutoPowerDown, if_neg (Nat.not_le.mpr hn), hset, hon, hfree, Bool.true_eq_false, Bool.false_eq_true, or_self, if_false]

/-- AUTO_POWER_DOWN of an idle bank with no owner and no fill waiting powers it down when it has been idle for idle_ms (16 R389; 09 R226). -/
theorem execAutoPowerDown_bank {b : Nat} (hset : natBit (rdReg 13 0 0x90 s).toNat 1 = true) (hb : b < 16) (hon : ((spad n s).bank b).st = .on)
    (howner : bankOwner n b s = 0xFFFF) (hfills : ((spad n s).pendShares ++ (spad n s).heldShares).contains (b / 4) = false)
    (hok : bankCmdOk n b 0xFFFF true s = true) :
    execAutoPowerDown (some b) n s
      = .next (bankDown n b 0xFFFF
          (advanceTo (max ((spad n s).bank b).since (quill (4 * n + b / 4) s).freed + rdField 13 0 0x90 31 16 s * oneMs) s)) := by
  simp only [execAutoPowerDown, if_neg (Nat.not_le.mpr hn), hset, Nat.not_le.mpr hb, hon, howner, hfills, hok, ne_eq, not_true_eq_false,
    Bool.true_eq_false, Bool.false_eq_true, or_self, if_false]

end

/-- Settles O30, one clause per row or pair of rows; a row whose write passes its checks runs its effect by `onReg_ok`. -/
theorem thermalAndDomainCommands : Obligations.ThermalAndDomainCommands := by
  unfold Obligations.ThermalAndDomainCommands
  refine ⟨?readings, ?trips, ?recovery, ?loss, ?flow, ?restart, ?switch, ?usable, ?idle⟩
  case readings => exact fun k temp s hk => ⟨execTempReading_running hk, fun t => execTempReading_released hk⟩
  case trips => exact fun k temp s => execThermalTrip_hot
  case recovery => exact fun t s => execRecoveryEnd_due
  case loss => exact fun s t => execCoolantLoss_first
  case flow => exact fun s => execCoolFlowRestored_low
  case restart =>
    intro r v s t hreg hkey hset hok hlost ht
    exact congrArg Host.Outcome.next ((onReg_ok hreg).trans (wrCool_restarts hkey hset hok hlost ht))
  case switch =>
    intro r d s hreg hd
    exact ⟨congrArg Host.Outcome.next ((onReg_ok hreg).trans (wrDomainCmd_on hd)),
      fun hfree => congrArg Host.Outcome.next ((onReg_ok hreg).trans (wrDomainCmd_off hd hfree))⟩
  case usable => exact fun d s t e => execDomainUsable_risen
  case idle => exact fun n s hn => ⟨execAutoPowerDown_logic hn, fun b => execAutoPowerDown_bank hn⟩

end Sys2Proof.Machine
end

section
/-! SUPPORT. The rows of a ring port that no register write starts, each where it takes effect (17 R393 to R409). -/

namespace Sys2Proof.Machine

section
variable {p : Nat} {s : State} (hp : p < 6) (hup : linkState p s = 2)
include hp hup

/-- A port that is up looks at what its link brings (17 R395, R402). -/
theorem portUp_due : ¬(6 ≤ p ∨ (linkState p s ≠ 2 ∧ linkState p s ≠ 5)) := by
  simp [Nat.not_le.mpr hp, hup]

/-- FLIT_RECEIVED with a failed check is counted and asks for replay (17 R402). -/
theorem execFlitReceived_bad {f : FlitIn} (hcrc : f.crcOk = false) :
    execFlitReceived p f s = .next (setPort p { port p (fecCount p f.fec s) with nak := true } (bump 5 p 0x50 1 (fecCount p f.fec s))) := by
  simp only [execFlitReceived, if_neg (portUp_due hp hup), hcrc, if_true]

/-- FLIT_RECEIVED with the next number is taken, acknowledges what it names and is passed on, and waiting flits go (17 R395, R396, R402). -/
theorem execFlitReceived_next {f : FlitIn} {t : State} (hcrc : f.crcOk = true) (hseq : flitSequenced f = true)
    (ht : t = ackTo p f.ack (addCtr 5 p 0x64 1 (fecCount p f.fec s))) (_ : f.seq < 16384) (hnext : ((port p t).rxSeq + 1) % 16384 = f.seq) :
    execFlitReceived p f s
      = .next (let u := forward f.transit (setPort p { port p t with rxSeq := f.seq, nak := false } t)
               pumpPort p (port p u).waiting.length u) := by
  have hahead : (f.seq + 16384 - f.seq) % 16384 = 0 := by omega
  subst ht
  simp only [execFlitReceived, if_neg (portUp_due hp hup), hcrc, hseq, hnext, hahead, Bool.true_eq_false, if_false, if_true]

section
variable {ack n : Nat} {t : State} (ht : t = ackTo p ack s) (hn : n = (if (port p t).nakSeq = ack then (port p t).nakCount + 1 else 1))
include ht hn

/-- NAK_RECEIVED for the eighth time for one number starts a retrain (17 R403). -/
theorem execNakReceived_eighth (hmany : 8 ≤ n) :
    execNakReceived p ack s = .next (linkRetrain p 0 false (setPort p { port p t with nakSeq := ack, nakCount := n } t)) := by
  have hgo : ¬(6 ≤ p ∨ linkState p s ≠ 2) := by simp [Nat.not_le.mpr hp, hup]
  subst hn ht
  simp only [execNakReceived, if_neg hgo, if_pos hmany]

/-- NAK_RECEIVED before, with no test of a replay, resends the flits that follow its number (17 R402). -/
theorem execNakReceived_replays (hfew : n < 8) (harmed : armed 5 p 7 (setPort p { port p t with nakSeq := ack, nakCount := n } t) = false) :
    execNakReceived p ack s = .next (replayAll p false (setPort p { port p t with nakSeq := ack, nakCount := n } t)) := by
  have hgo : ¬(6 ≤ p ∨ linkState p s ≠ 2) := by simp [Nat.not_le.mpr hp, hup]
  subst hn ht
  simp only [execNakReceived, if_neg hgo, if_neg (Nat.not_le.mpr hfew), harmed, Bool.false_eq_true, if_false]

end

/-- A retrain that is not the third within a second shows, is counted and reported, and leaves the link to train (17 R403). -/
theorem linkRetrain_begins {cause : Nat} {t : State} (hfew : ((port p s).retrains.filter (fun t => decide (s.time.clk < t + oneS))).length < 2)
    (ht : t = setPort p { port p s with
      retrains := (port p s).retrains.filter (fun t => decide (s.time.clk < t + oneS)) ++ [s.time.clk], nakCount := 0 } s) :
    execLinkRetrain p cause s
      = .next (raise { c := 5, i := p, bit := 8, code := 0x5901, payload := cause + injFlag false }
          (wrField 5 p 0x44 2 2 1 (wrField 5 p 0x40 2 0 3 (bump 5 p 0x58 1 t)))) := by
  have hthird : ¬3 ≤ ((port p s).retrains.filter (fun t => decide (s.time.clk < t + oneS)) ++ [s.time.clk]).length := by
    rw [List.length_append, List.length_singleton]
    omega
  subst ht
  simp only [execLinkRetrain, if_neg (Nat.not_le.mpr hp), linkRetrain, hup, ne_eq, not_true_eq_false, if_false, if_neg hthird]

/-- LINK_DOWN of a port that is up takes its link down (17 R404). -/
theorem execLinkDown_up : execLinkDown p s = .next (linkDown p 0 s) := by
  have hgo : ¬(6 ≤ p ∨ (linkState p s ≠ 2 ∧ linkState p s ≠ 3)) := by simp [Nat.not_le.mpr hp, hup]
  simp only [execLinkDown, if_neg hgo]

section
variable {lane : Nat} (hlane : lane < 4)
include hlane

/-- LANE_SPARED of a lane out of lock (17 R393). -/
theorem execLaneSpared_unlocked : execLaneSpared p lane true s = .next (laneFault p lane true false s) := by
  have hgo : ¬(6 ≤ p ∨ 4 ≤ lane ∨ linkState p s ≠ 2 ∨ (true = false ∧ Tbl.get 0 (port p s).symbols lane ≤ rdField 5 p 0x48 23 0 s)) := by
    simp [Nat.not_le.mpr hp, Nat.not_le.mpr hlane, hup]
  simp only [execLaneSpared, if_neg hgo]

/-- LANE_SPARED of a lane over the threshold of corrected symbols (17 R393). -/
theorem execLaneSpared_over (hover : rdField 5 p 0x48 23 0 s < Tbl.get 0 (port p s).symbols lane) :
    execLaneSpared p lane false s = .next (laneFault p lane false false s) := by
  have hgo : ¬(6 ≤ p ∨ 4 ≤ lane ∨ linkState p s ≠ 2 ∨ (false = false ∧ Tbl.get 0 (port p s).symbols lane ≤ rdField 5 p 0x48 23 0 s)) := by
    simp [Nat.not_le.mpr hp, Nat.not_le.mpr hlane, hup, hover]
  exact congrArg Host.Outcome.next (if_neg hgo)

end

/-- LANE_SWAP_FLIT switches the lane that this end asked for (17 R393). -/
theorem execLaneSwapFlit_asked {lane : Nat} (hswap : (port p s).swap = some lane) :
    execLaneSwapFlit p lane s = .next (switchLane p lane false false s) := by
  have hgo : ¬(6 ≤ p ∨ linkState p s ≠ 2) := by simp [Nat.not_le.mpr hp, hup]
  simp only [execLaneSwapFlit, if_neg hgo, hswap]

/-- SPARE_SHADOW_ROTATE of a spare lane that no lane has taken brings the end of its 100 ms: it shadows the next lane (17 R393). -/
theorem execSpareShadowRotate_spare {t : State} (hspare : spareUsed p s = false) (hswap : (port p s).swap = none)
    (ht : t = advanceTo ((port p s).shadowAt + 100 * oneMs) s) :
    execSpareShadowRotate p s = .next (setPort p { port p t with shadow := ((port p t).shadow + 1) % 4, shadowAt := t.time.clk } t) := by
  have hgo : ¬(6 ≤ p ∨ linkState p s ≠ 2 ∨ spareUsed p s = true ∨ (port p s).swap.isSome) := by simp [Nat.not_le.mpr hp, hup, hspare, hswap]
  subst ht
  simp only [execSpareShadowRotate, if_neg hgo]

end

section
variable {p : Nat} {s : State} (hp : p < 6)
include hp

/-- RETRAIN_DONE of a retraining link replays the held flits, and waiting ones go (17 R403). -/
theorem execRetrainDone_retraining (hretrain : linkState p s = 3) :
    execRetrainDone p s
      = .next (let t := replayAll p false (wrField 5 p 0x44 2 2 0 (wrField 5 p 0x40 2 0 2 s))
               pumpPort p (port p t).waiting.length t) := by
  have hgo : ¬(6 ≤ p ∨ linkState p s ≠ 3) := by simp [Nat.not_le.mpr hp, hretrain]
  simp only [execRetrainDone, if_neg hgo]

/-- LINK_UP of a powered port in normal mode, its device not dark: the ends know each other, the sequence starts anew, and routes are restored (17 R404,
R409). -/
theorem execLinkUp_trained {die dev q d lanes : Nat} {t u : State} (hdown : linkState p s < 2) (hmode : rdField 5 p 0x44 1 0 s = 0)
    (hpower : blockPowered 5 p s = true) (hdark : fenceReason s ≠ 4)
    (ht : t = setPort p { det := (port p s).det, retrains := (port p s).retrains, delayPs := d, peerDie := die, symSince := s.time.clk, shadowAt := s.time.clk } s)
    (hu : u = wrReg 5 p 0x40 (BitVec.ofNat 32 (dev % 256 * 2 ^ 24 + q % 8 * 2 ^ 21 + savedLanes p s / 32 % 16 * 2 ^ 15 + lanes % 32 * 2 ^ 10 + 2)) t) :
    execLinkUp p die dev q d lanes s
      = .next (let w := { u with ring := { u.ring with firstUp := if u.ring.firstUp.isSome then u.ring.firstUp else some s.time.clk } }
               tellRoutes (deviceId w) p false (raise { c := 5, i := p, bit := 10, code := 0x0900, payload := dev % 256 + q % 8 * 2 ^ 8 } w)) := by
  have hgo : ¬(6 ≤ p ∨ 2 ≤ linkState p s ∨ rdField 5 p 0x44 1 0 s ≠ 0 ∨ blockPowered 5 p s = false ∨ fenceReason s = 4) := by
    simp [Nat.not_le.mpr hp, Nat.not_le.mpr hdown, hmode, hpower, hdark]
  subst hu ht
  simp only [execLinkUp, if_neg hgo]

/-- CREDIT_RETURN of a data channel takes its flits off what is used, and waiting flits go (17 R395, R396). -/
theorem execCreditReturn_channel {vc n : Nat} {t : State} (hvc : vc < 7)
    (ht : t = setPort p { port p s with used := Tbl.set 0 (port p s).used vc (Tbl.get 0 (port p s).used vc - n) } s) :
    execCreditReturn p vc n s = .next (pumpPort p (port p t).waiting.length t) := by
  have hgo : ¬(6 ≤ p ∨ 7 ≤ vc) := by simp [Nat.not_le.mpr hp, Nat.not_le.mpr hvc]
  subst ht
  simp only [execCreditReturn, if_neg hgo]

end

end Sys2Proof.Machine
end

section
/-! The registers of a ring port that retrain it, set its mode and provoke faults, then the statement on its rows (17 R403, R416). -/

namespace Sys2Proof.Machine

/-- A register row whose write answers a status, and passes its checks, leads to what its effect leaves (02 R35). -/
theorem next_regWriteAt_ok {r : Req} {c i off : Nat} {f : State → RegSt × State} {s t : State} {k : RegSt} (h : regAt r true c i off s = (0, s))
    (hf : f s = (k, t)) : (Host.Outcome.next (regWriteAt r c i off f s).2 : Out) = .next t := by
  rw [regWriteAt_ok h, hf]

/-- The word that asks for a retrain with a mode: bit 2 beside the mode's field (17 RP_LINK_CTRL). -/
theorem retrainWord {m : Nat} (hm : m < 4) : Word.field (BitVec.ofNat 32 (4 + m)) 1 0 = m ∧ natBit (BitVec.ofNat 32 (4 + m)).toNat 2 = true := by
  simp only [Word.field, natBit, BitVec.toNat_ofNat, decide_eq_true_eq]
  omega

/-- RP_LINK_CTRL.retrain with the mode as it stands starts a retrain for cause 2 (17 R403). -/
theorem wrLinkCtrl_retrain (p : Nat) (s : State) :
    wrLinkCtrl p (BitVec.ofNat 32 (4 + rdField 5 p 0x44 1 0 s)) s = linkRetrain p 2 false (wrField 5 p 0x44 1 0 (rdField 5 p 0x44 1 0 s) s) := by
  have hlt : rdField 5 p 0x44 1 0 s < 4 := Nat.mod_lt _ (by decide)
  obtain ⟨hmode, hset⟩ := retrainWord hlt
  simp only [wrLinkCtrl, hmode, hset, if_true]

/-- RP_LINK_CTRL that changes the mode to 1 or 0 takes the link down, to state 4 or 1 (17 R416). -/
theorem wrLinkCtrl_mode {p m st : Nat} {s : State} (hm : (m = 1 ∧ st = 4) ∨ (m = 0 ∧ st = 1)) (hchange : rdField 5 p 0x44 1 0 s ≠ m) :
    wrLinkCtrl p (BitVec.ofNat 32 (m % 4)) s = linkDown p st (wrField 5 p 0x44 1 0 m s) := by
  have hnew : m ≠ rdField 5 p 0x44 1 0 s := Ne.symm hchange
  obtain ⟨rfl, rfl⟩ | ⟨rfl, rfl⟩ := hm
  · have hword : Word.field (BitVec.ofNat 32 (1 % 4)) 1 0 = 1 ∧ natBit (BitVec.ofNat 32 (1 % 4)).toNat 2 = false := by decide
    simp only [wrLinkCtrl, hword, if_neg hnew, Bool.false_eq_true, if_false, if_true]
  · have hword : Word.field (BitVec.ofNat 32 (0 % 4)) 1 0 = 0 ∧ natBit (BitVec.ofNat 32 (0 % 4)).toNat 2 = false := by decide
    simp only [wrLinkCtrl, hword, if_neg hnew, Bool.false_eq_true, zero_ne_one, if_false, if_true]

/-- The word of RP_TEST with its key: the key, the action and the count (17 RP_TEST). -/
theorem testWord_fields {action n : Nat} (haction : action < 4) (hn : n < 256) :
    (testWord action n).field 31 16 = 0x0F1A ∧ (testWord action n).field 9 8 = action ∧ (testWord action n).field 7 0 = n := by
  simp only [testWord, Word.field, BitVec.toNat_ofNat]
  omega

section
variable {r : Req} {p n : Nat} {s : State} (hallow : natBit (rdReg 0 0 0x6C s).toNat 0 = true)
include hallow

/-- RP_TEST's action 1, while fault injection is permitted, drops the next n flits (17 R416). -/
theorem wrRpTest_drop (hlow : 1 ≤ n) (hn : n < 256) : wrRpTest r p (testWord 1 n) s = (0, setPort p { port p s with drop := n } s) := by
  obtain ⟨hkey, hact, hcount⟩ := testWord_fields (action := 1) (by decide) hn
  simp only [wrRpTest, hkey, hact, hcount, hallow, Nat.ne_of_gt hlow, ne_eq, not_true_eq_false, one_ne_zero, Bool.true_eq_false, false_and, or_self,
    if_false]

/-- Its action 2 corrupts them (17 R416). -/
theorem wrRpTest_corrupt (hlow : 1 ≤ n) (hn : n < 256) : wrRpTest r p (testWord 2 n) s = (0, setPort p { port p s with corrupt := n } s) := by
  obtain ⟨hkey, hact, hcount⟩ := testWord_fields (action := 2) (by decide) hn
  simp only [wrRpTest, hkey, hact, hcount, hallow, Nat.ne_of_gt hlow, ne_eq, not_true_eq_false, OfNat.ofNat_ne_zero, Bool.true_eq_false, false_and,
    or_self, if_false]

/-- Its action 3 has the next two flits change places (17 R416). -/
theorem wrRpTest_reorder : wrRpTest r p (testWord 3 0) s = (0, setPort p { port p s with reorder := 2 } s) := by
  obtain ⟨hkey, hact, hcount⟩ := testWord_fields (action := 3) (n := 0) (by decide) (by decide)
  simp only [wrRpTest, hkey, hact, hallow, ne_eq, not_true_eq_false, OfNat.ofNat_ne_zero, Bool.true_eq_false, false_and, or_self, if_false]

end

/-- Settles O31, one clause per row or group of rows; a row whose write passes its checks runs its effect by `onReg_ok` or `regWriteAt_ok`. -/
theorem ringLinkCommands : Obligations.RingLinkCommands := by
  unfold Obligations.RingLinkCommands
  refine ⟨?flits, ?naks, ?retrain, ?retrainEnds, ?linkUp, ?lanes, ?credits, ?control, ?tests⟩
  case flits => exact fun p f s t hp hup => ⟨execFlitReceived_bad hp hup, execFlitReceived_next hp hup⟩
  case naks => exact fun p ack n s t hp hup ht hn => ⟨execNakReceived_eighth hp hup ht hn, execNakReceived_replays hp hup ht hn⟩
  case retrain => exact fun p cause s t hp hup => linkRetrain_begins hp hup
  case retrainEnds => exact fun p s hp => ⟨execRetrainDone_retraining hp, execLinkDown_up hp⟩
  case linkUp => exact fun p die dev q d lanes s t u hp => execLinkUp_trained hp
  case lanes =>
    intro p lane s hp hlane hup
    exact ⟨execLaneSpared_unlocked hp hup hlane, execLaneSpared_over hp hup hlane, execLaneSwapFlit_asked hp hup,
      fun t => execSpareShadowRotate_spare hp hup⟩
  case credits => exact fun p vc n s t hp => execCreditReturn_channel hp
  case control =>
    intro r p mode s hreg
    refine ⟨congrArg Host.Outcome.next ((onReg_ok hreg).trans (wrLinkCtrl_retrain p s)), ?loopback, ?normal⟩
    case loopback =>
      rintro rfl hchange
      exact congrArg Host.Outcome.next ((onReg_ok hreg).trans (wrLinkCtrl_mode (.inl ⟨rfl, rfl⟩) hchange))
    case normal =>
      rintro rfl hchange
      exact congrArg Host.Outcome.next ((onReg_ok hreg).trans (wrLinkCtrl_mode (.inr ⟨rfl, rfl⟩) hchange))
  case tests =>
    intro r p n s hreg hlow hhigh hallow
    exact ⟨next_regWriteAt_ok hreg (wrRpTest_drop hallow hlow hhigh),
      next_regWriteAt_ok hreg (wrRpTest_corrupt hallow hlow hhigh),
      next_regWriteAt_ok hreg (wrRpTest_reorder hallow)⟩

end Sys2Proof.Machine
end

section
/-! The ring's requests: those that arrive are performed and answered, those that were sent end with their answer or their limit (17 R397, R407, R414;
02 R34; 05 R126, R490; 06 R156; 11 R259). -/

namespace Sys2Proof.Machine

section
variable {src job tag addr len : Nat} {det : Bool} {s : State}

section
variable (hcloses : takesRing s = false)
include hcloses

/-- RING_READ to a device that takes no requests is answered with status 7 (17 R414). -/
theorem execRingRead_closed : execRingRead src job tag det addr len s = .next (sendResp 3 src job tag det 7 0 [] s) := by
  simp only [execRingRead, hcloses, if_true]

/-- RING_WRITE to such a device. -/
theorem execRingWrite_closed {data : List Byte} : execRingWrite src job tag det addr data s = .next (sendResp 4 src job tag det 7 0 [] s) := by
  simp only [execRingWrite, hcloses, if_true]

/-- RING_ATOMIC to such a device. -/
theorem execRingAtomic_closed {op val cmp : Nat} :
    execRingAtomic src job tag det addr op val cmp s = .next (sendResp 3 src job tag det 7 0 [] s) := by
  simp only [execRingAtomic, hcloses, if_true]

end

section
variable (hopen : takesRing s = true)
include hopen

/-- RING_READ is performed through the access rules for the requesting job, and answered with the data where it succeeded (02 R34; 17 R397). -/
theorem execRingRead_performed :
    execRingRead src job tag det addr len s
      = .next (let r := access 5 (inPort src s) 0 (.job src job) .read addr len [] s
               sendResp 3 src job tag det r.1.status r.1.cause (if r.1.status = 0 then rdBytes r.2 addr len else []) r.2) := by
  simp only [execRingRead, hopen, Bool.true_eq_false, if_false]

/-- RING_WRITE likewise, answered with its status (17 R397). -/
theorem execRingWrite_performed {data : List Byte} :
    execRingWrite src job tag det addr data s
      = .next (let r := access 5 (inPort src s) 0 (.job src job) .write addr data.length data s
               sendResp 4 src job tag det r.1.status r.1.cause [] r.2) := by
  simp only [execRingWrite, hopen, Bool.true_eq_false, if_false]

/-- RING_ATOMIC likewise, answered with the old value (05 R490). -/
theorem execRingAtomic_performed {op val cmp : Nat} :
    execRingAtomic src job tag det addr op val cmp s
      = .next (let old := rdLe s addr 4
               let r := access 5 (inPort src s) 0 (.job src job) .atomic addr 4
                 (leBytes 4 (atomicWord op (BitVec.ofNat 32 old) (BitVec.ofNat 32 val) (BitVec.ofNat 32 cmp)).toNat) s
               sendResp 3 src job tag det r.1.status r.1.cause (if r.1.status = 0 then leBytes 4 old else []) r.2) := by
  simp only [execRingAtomic, hopen, Bool.true_eq_false, if_false]

/-- RING_QUEUE_PUSH with memory open is a push of the requesting job; how its R264 status travels is the model's choice (11 R259; log entry 38). -/
theorem execRingQueuePush_pushed {q : Nat} {data : List Byte} (hmem : memUp s = true) :
    execRingQueuePush src job tag det q data s
      = .next (let r := pushRecord q job src data s
               sendResp 4 src job tag det (pushCode r.1) 0 (leBytes 1 r.1) r.2) := by
  simp only [execRingQueuePush, hopen, hmem, Bool.true_eq_false, if_false]

end

/-- RING_SEM_SIGNAL to a running job that holds the rank, on an enumerated device that is not fenced, is delivered (05 R126). -/
theorem execRingSemSignal_delivered {target rank sem count : Nat} (henum : enumerated s = true) (hfence : fenced s = false)
    (htakes : takesSignal target rank s = true) :
    execRingSemSignal src job tag det target rank sem count s = .next (sendResp 4 src job tag det 0 0 [] (signalJob target rank sem count true s)) := by
  simp only [execRingSemSignal, henum, hfence, htakes, Bool.true_eq_false, Bool.not_false, Bool.and_self, if_false, if_true]

end

section
variable {tag addr n : Nat} {data : List Byte} {s : State} (henum : enumerated s = true)
include henum

/-- RING_REG_ACCESS by the manager that writes: word by word, answered with the number of words written (02 R34; 17 R397). -/
theorem execRingRegAccess_write :
    execRingRegAccess 0 tag true addr n data s
      = .next (let r := writeWordsAt .manager (wordsOf data n) addr 0 s
               sendResp 11 0 0xFFFF tag false r.1 0 (leBytes 2 r.2.1) r.2.2) := by
  simp only [execRingRegAccess, henum, ne_eq, not_true_eq_false, Bool.true_eq_false, if_false, if_true]

/-- One that reads: answered with the words where all could be read. -/
theorem execRingRegAccess_read :
    execRingRegAccess 0 tag false addr n data s
      = .next (let r := readWordsAt .manager n addr s
               sendResp 11 0 0xFFFF tag false r.1 0 (if r.1 = 0 then r.2.1 else []) r.2.2) := by
  simp only [execRingRegAccess, henum, ne_eq, not_true_eq_false, Bool.true_eq_false, Bool.false_eq_true, if_false]

end

/-- A response with a request of its tag and kind, and with the data that the request needs where it succeeds, answers the request (17 R397). -/
theorem respond_matched {ops : List Nat} {tag st cause : Nat} {data : List Byte} {s : State} {r : RingReq}
    (hfound : s.ring.reqs.find? (fun r => r.tag == tag && ops.contains r.op) = some r)
    (hdata : r.op = 1 ∨ r.op = 10 ∨ (if r.op = 2 then 4 else r.len) ≤ data.length) :
    respond ops tag st cause data s = answer r st cause 0 data s := by
  have hshort : ¬(st = 0 ∧ r.op ≠ 1 ∧ r.op ≠ 10 ∧ data.length < (if r.op = 2 then 4 else r.len)) := by
    rintro ⟨-, hwrite, hregWrite, hlt⟩
    rcases hdata with hop | hop | hle
    · exact hwrite hop
    · exact hregWrite hop
    · exact Nat.not_lt.mpr hle hlt
  simp only [respond, hfound, if_neg hshort]

/-- RING_REQ_TIMEOUT of a request brings the end of its limit: it is reported, and the request ends with status 7 (17 R407). -/
theorem execRingReqTimeout_due {tag : Nat} {s : State} {r : RingReq} (hfound : s.ring.reqs.find? (fun r => r.tag == tag) = some r) :
    execRingReqTimeout tag s
      = .next (let t := advanceTo (r.born + (rdReg 5 0 0x114 s).toNat * oneUs) s
               let e := raiseSeq (evReqTimeout (outPort r.dst t) r.dst r.job tag) t
               answer r 7 0 e.1 [] e.2) := by
  simp only [execRingReqTimeout, hfound]

section
variable {group : Nat} {copyB : Bool} {s : State} {e : BarrierGroup} (hgroup : findGroup group s = some e) (henum : enumerated s = true)
include hgroup henum

/-- BARRIER_ARRIVAL of a member at the group's root (06 R156). -/
theorem execBarrierArrival_atRoot {member : Nat} (hroot : e.root = deviceId s) (hmember : member < e.members.length) :
    execBarrierArrival group member copyB s = .next (rootArrival group member copyB s) := by
  simp only [execBarrierArrival, hgroup, if_pos (And.intro henum (And.intro hroot hmember))]

/-- BARRIER_RELEASE with a time that has not passed is the copy's release time (06 R156). -/
theorem execBarrierRelease_ahead {R : Nat} (hahead : ringNow s ≤ R) :
    execBarrierRelease group copyB R s
      = .next (updGroup group (fun e => if copyB then { e with releaseB := some R } else { e with releaseA := some R }) s) := by
  have hgo : ¬((findGroup group s).isNone ∨ enumerated s = false) := by simp [hgroup, henum]
  simp only [execBarrierRelease, if_neg hgo, if_neg (Nat.not_lt.mpr hahead)]

end

/-- Settles O32, one clause per kind of request. What a queue push answers and the word count of a register response are the model's (log entry 38). -/
theorem ringRequests : Obligations.RingRequests := by
  unfold Obligations.RingRequests
  refine ⟨?closed, ?performed, ?signal, ?push, ?registers, ?responses, ?timeout, ?barriers⟩
  case closed =>
    intro src job tag addr len det s hcloses
    exact ⟨execRingRead_closed hcloses, fun data => execRingWrite_closed hcloses, fun op val cmp => execRingAtomic_closed hcloses⟩
  case performed =>
    intro src job tag addr len det s hopen
    exact ⟨execRingRead_performed hopen, fun data => execRingWrite_performed hopen, fun op val cmp => execRingAtomic_performed hopen⟩
  case signal => exact fun src job tag target rank sem count det s => execRingSemSignal_delivered
  case push => exact fun src job tag q det data s hopen => execRingQueuePush_pushed hopen
  case registers => exact fun tag addr n data s henum => ⟨execRingRegAccess_write henum, execRingRegAccess_read henum⟩
  case responses =>
    intro tag st cause data s r
    refine ⟨fun hfound hdata _ _ => ?read, fun hfound hdata hread => ?write, fun hfound hdata hread => ?register⟩
    case read => exact congrArg Host.Outcome.next (respond_matched hfound (.inr (.inr hdata)))
    case write =>
      refine congrArg Host.Outcome.next (respond_matched hfound (hdata.imp_right fun hlen => .inr ?_))
      rw [if_neg hread, List.length_replicate]
      exact hlen
    case register =>
      refine congrArg Host.Outcome.next (respond_matched hfound (.inr (hdata.imp_right fun hlen => ?_)))
      rw [if_neg hread]
      exact hlen
  case timeout => exact fun tag s r => execRingReqTimeout_due
  case barriers => exact fun group member R copyB s e hgroup henum => ⟨execBarrierArrival_atRoot hgroup henum, execBarrierRelease_ahead hgroup henum⟩

end Sys2Proof.Machine
end

section
/-! SUPPORT. Ring time and enumeration, each row where it takes effect (17 R405 to R411). -/

namespace Sys2Proof.Machine

section
variable {s t : State} (henum : enumerated s = true) (howner : ownTime s = false)
include henum howner

/-- TIME_SYNC on a port that is up, with no test that suppresses it, moves ring time forward, never back, and is passed down the tree (17 R405, R406). -/
theorem execTimeSync_corrects {p ps depth : Nat} (hp : p < 6) (hup : linkState p s = 2) (harmed : armed 5 0 16 s = false)
    (ht : t = { s with time := { s.time with ring := max s.time.ring (ps * 6) }, ring := { s.ring with lastSync := some s.time.clk } }) :
    execTimeSync p ps depth s
      = .next (let u := wrReg 5 0 0x110 (BitVec.ofNat 32 (satField 16 ((max s.time.ring (ps * 6) - s.time.ring) / 6 : Nat) * 65536 + depth % 256 * 256
                 + (rdReg 5 0 0x110 s).toNat / 4 % 2 * 4 + 1)) t
               (timeChildren u).foldl (fun acc q => addCtr 5 q 0x5C 1 acc) u) := by
  have hgo : ¬(6 ≤ p ∨ linkState p s ≠ 2 ∨ enumerated s = false ∨ ownTime s = true ∨ armed 5 0 16 s = true) := by
    simp [Nat.not_le.mpr hp, hup, henum, howner, harmed]
  subst ht
  simp only [execTimeSync, if_neg hgo]

/-- RING_TIME_LOST with the manager still there brings the end of 10 µs without a sync: ring time is lost, shown and reported (17 R407). -/
theorem execRingTimeLost_worker (hsource : rdField 5 0 0x110 1 1 s ≠ 1) (ht : t = advanceTo (s.ring.lastSync.getD 0 + 10 * oneUs) s) :
    execRingTimeLost false s
      = .next (raise { c := 5, i := 0, bit := 16, code := 0x2900, payload := injFlag (armed 5 0 16 t) }
          (wrField 5 0 0x110 2 2 1 (wrField 5 0 0x110 0 0 0 (disarm 5 0 16 t)))) := by
  have hgo : ¬(enumerated s = false ∨ ownTime s = true ∨ rdField 5 0 0x110 1 1 s = 1) := by simp [henum, howner, hsource]
  subst ht
  simp only [execRingTimeLost, if_neg hgo, Bool.false_eq_true, false_and, if_false]

end

/-- ENUM_START at boot of a manager with auto set and nothing enumerated yet asks on every port that is up, and places the devices where all have
answered (17 R409). -/
theorem execEnumStart_boot {s : State} (hphase : s.sec.phase = 1) (hauto : rdField 5 0 0x104 0 0 s ≠ 0) (hidle : s.ring.enumOn = false)
    (hnew : enumerated s = false) (hmanager : rdField 0 0 0x40 9 9 s = 1) :
    execEnumStart none s
      = .next (enumCheck (wrField 5 0 0x100 20 20 0 (discoverOut
          { s with ring := { s.ring with enumOn := true, found := [selfFound s], placed := [], discAt := s.time.clk } }))) := by
  have hgo : ¬(s.sec.phase ≠ 1 ∨ rdField 5 0 0x104 0 0 s = 0 ∨ s.ring.enumOn = true ∨ enumerated s = true) := by simp [hphase, hauto, hidle, hnew]
  simp only [execEnumStart, if_neg hgo, enumStart, hmanager, one_ne_zero, if_false]

section
variable {s : State} (hworker : rdField 0 0 0x40 9 9 s ≠ 1)
include hworker

/-- DISCOVER of a new round at a worker is answered, and passed on by the other ports that are up (17 R409). -/
theorem execDiscover_answered {p origin round : Nat} {t : State} (hp : p < 6) (hup : linkState p s = 2) (hother : origin ≠ dieId s)
    (hround : s.ring.discovers ≠ round)
    (ht : t = pushFlits p 0 0xFFFF 1 { s with ring := { s.ring with
      discovers := round,
      sent := ⟨12, 0, [2, (selfFound s).die] ++ (selfFound s).ports.flatMap (fun (e : Bool × Nat × Nat) => [b2n e.1, e.2.1, e.2.2])⟩ :: s.ring.sent } }) :
    execDiscover p origin round s = .next (((upPorts t).filter (fun k => k != p)).foldl (fun acc k => pushFlits k 0 0xFFFF 1 acc) t) := by
  have hgo : ¬(6 ≤ p ∨ linkState p s ≠ 2 ∨ origin = dieId s) := by simp [Nat.not_le.mpr hp, hup, hother]
  subst ht
  simp only [execDiscover, if_neg hgo, if_neg hworker, if_neg hround]

/-- ASSIGN at a worker that answered a round, of an ID that is that of its coordinates inside legal sizes: it takes them, knows the devices and the down
links, and acknowledges (17 R409). -/
theorem execAssign_taken {sx sy sz x y z depth : Nat} {down : List (Nat × Nat)} {t : State} (hround : s.ring.discovers ≠ 0)
    (hsx : 1 ≤ sx ∧ sx ≤ 8) (hsy : 1 ≤ sy ∧ sy ≤ 8) (hsz : 1 ≤ sz ∧ sz ≤ 4) (hx : x < sx) (hy : y < sy) (hz : z < sz)
    (ht : t = takeId (idIn (sx, sy, sz) x y z) (sx, sy, sz) (x, y, z) s) :
    execAssign (idIn (sx, sy, sz) x y z) sx sy sz x y z depth down s
      = .next (sendPkt 12 0 [3, idIn (sx, sy, sz) x y z] (wrField 5 0 0x110 15 8 depth
          ((List.range (sx * sy * sz)).foldl (fun acc k => setPeer k { Tbl.get ({} : Peer) acc.ring.peers k with present := true } acc)
            { t with ring := { t.ring with down := down, lastSync := some s.time.clk } }))) := by
  have hbounds : ¬(sx = 0 ∨ sy = 0 ∨ sz = 0 ∨ 8 < sx ∨ 8 < sy ∨ 4 < sz ∨ sx ≤ x ∨ sy ≤ y ∨ sz ≤ z) := by omega
  have hgo : ¬(rdField 0 0 0x40 9 9 s = 1 ∨ s.ring.discovers = 0 ∨ sx = 0 ∨ sy = 0 ∨ sz = 0 ∨ 8 < sx ∨ 8 < sy ∨ 4 < sz ∨ sx ≤ x ∨ sy ≤ y ∨ sz ≤ z
      ∨ idIn (sx, sy, sz) x y z ≠ idIn (sx, sy, sz) x y z) := by
    simpa only [hworker, hround, ne_eq, not_true_eq_false, or_false, false_or] using hbounds
  subst ht
  simp only [execAssign, if_neg hgo]

/-- ENUM_WAIT_TIMEOUT of a worker with a port up that has heard no manager and not said so brings the end of its second: it says so once (17 R408). -/
theorem execEnumWaitTimeout_unheard {k : Nat} {t : State} (hfirst : s.ring.firstUp = some k) (hround : s.ring.discovers = 0)
    (hsaid : s.ring.noManager = false) (hports : upPorts s ≠ []) (ht : t = advanceTo (k + oneS) s) :
    execEnumWaitTimeout s = .next (enumRefused 6 (dieId t) { t with ring := { t.ring with noManager := true } }) := by
  have hgo : ¬(rdField 0 0 0x40 9 9 s = 1 ∨ s.ring.discovers ≠ 0 ∨ s.ring.noManager = true ∨ (upPorts s).isEmpty) := by
    simp [hworker, hround, hsaid, hports]
  subst ht
  simp only [execEnumWaitTimeout, hfirst, if_neg hgo]

end

section
variable {s : State} (hmanager : rdField 0 0 0x40 9 9 s ≠ 0)
include hmanager

/-- DISCOVER_REPLY during the enumeration, before the placing, is a device found; with none still to answer the devices are placed (17 R409). -/
theorem execDiscoverReply_found {die : Nat} {manager : Bool} {ports : List (Bool × Nat × Nat)} (hon : s.ring.enumOn = true) (hplaced : s.ring.placed = []) :
    execDiscoverReply die manager ports s
      = .next (enumCheck { s with ring := { s.ring with found := s.ring.found ++ [{ die := die, manager := manager, ports := ports }] } }) := by
  simp only [execDiscoverReply, if_neg hmanager, hon, hplaced, List.isEmpty_nil, Bool.and_self, if_true]

/-- DISCOVER_REPLY of a worker after the enumeration is a device found late (17 R411). -/
theorem execDiscoverReply_late {die : Nat} {ports : List (Bool × Nat × Nat)} (hoff : s.ring.enumOn = false) (hdone : rdField 5 0 0x100 20 20 s = 1) :
    execDiscoverReply die false ports s = .next (lateFound { die := die, manager := false, ports := ports } s) := by
  simp only [execDiscoverReply, if_neg hmanager, hoff, hdone, Bool.false_and, Bool.false_eq_true, if_false, if_true]

/-- DISCOVER_REPEAT of a manager with its enumeration done brings the end of 100 ms: it asks again (17 R411). -/
theorem execDiscoverRepeat_due {t : State} (hdone : rdField 5 0 0x100 20 20 s ≠ 0) (ht : t = advanceTo (s.ring.discAt + 100 * oneMs) s) :
    execDiscoverRepeat s = .next (discoverOut { t with ring := { t.ring with discAt := t.time.clk } }) := by
  have hgo : ¬(rdField 0 0 0x40 9 9 s = 0 ∨ rdField 5 0 0x100 20 20 s = 0) := not_or.mpr ⟨hmanager, hdone⟩
  subst ht
  simp only [execDiscoverRepeat, if_neg hgo]

end

/-- ENUM_DONE once the devices are placed shows and reports the sizes and the number of devices, and the manager owns ring time (17 R409). -/
theorem execEnumDone_placed {s : State} (hon : s.ring.enumOn = true) (hplaced : s.ring.placed ≠ []) :
    execEnumDone s
      = .next (raise { c := 5, i := 0, bit := 12, code := 0x0901,
                       payload := (torusSizes s).1 + 16 * (torusSizes s).2.1 + 256 * (torusSizes s).2.2 + s.ring.placed.length * 4096 }
          (wrField 5 0 0x110 1 0 3 (wrField 5 0 0x100 20 20 1 { s with ring := { s.ring with enumOn := false, found := [], discAt := s.time.clk } }))) := by
  have hgo : ¬(s.ring.enumOn = false ∨ s.ring.placed.isEmpty) := by simp [hon, hplaced]
  simp only [execEnumDone, if_neg hgo]

end Sys2Proof.Machine
end

section
/-! Routes and fencing, then the statement on the ring as a whole (17 R404, R412 to R415). -/

namespace Sys2Proof.Machine

section
variable {dev p : Nat} {down : Bool} {s : State} (henum : enumerated s = true) (hp : p < 6)
include henum hp

/-- ROUTE_UPDATE at the manager marks the link and is passed on to every device (17 R404). -/
theorem execRouteUpdate_manager (hmanager : isManager s = true) : execRouteUpdate dev p down s = .next (tellRoutes dev p down s) := by
  have hgo : ¬(enumerated s = false ∨ 6 ≤ p) := by simp [henum, hp]
  simp only [execRouteUpdate, if_neg hgo, hmanager, if_true]

/-- ROUTE_UPDATE at a worker marks the link (17 R404). -/
theorem execRouteUpdate_worker (hworker : isManager s = false) : execRouteUpdate dev p down s = .next (markLink dev p down s) := by
  have hgo : ¬(enumerated s = false ∨ 6 ≤ p) := by simp [henum, hp]
  simp only [execRouteUpdate, if_neg hgo, hworker, Bool.false_eq_true, if_false]

end

/-- The word of RING_FENCE_CMD with its key: the key, the device and the bit that fences (17 RING_FENCE_CMD). -/
theorem fenceWord {d : Nat} (hd : d < 256) :
    Word.field (BitVec.ofNat 32 (0xFE0C0001 + d % 256 * 256)) 31 16 = 0xFE0C ∧ Word.field (BitVec.ofNat 32 (0xFE0C0001 + d % 256 * 256)) 15 8 = d
      ∧ natBit (BitVec.ofNat 32 (0xFE0C0001 + d % 256 * 256)).toNat 0 = true := by
  simp only [Word.field, natBit, BitVec.toNat_ofNat, decide_eq_true_eq]
  omega

section
variable {r : Req} {d : Nat} {s : State} (hd : d < 256)
include hd

/-- RING_FENCE_CMD with the own ID fences this device for reason 5 (17 R412). -/
theorem wrFenceCmd_self (hself : d = deviceId s) : wrFenceCmd r (BitVec.ofNat 32 (0xFE0C0001 + d % 256 * 256)) s = (0, fenceFor 5 s) := by
  obtain ⟨hkey, hdev, hset⟩ := fenceWord hd
  simp only [wrFenceCmd, hkey, hdev, hset, ne_eq, not_true_eq_false, Bool.true_eq_false, or_self, if_false, if_pos hself]

/-- RING_FENCE_CMD of the manager with another ID sends that device its fence (17 R412). -/
theorem wrFenceCmd_other (hother : d ≠ deviceId s) (hmanager : isManager s = true) :
    wrFenceCmd r (BitVec.ofNat 32 (0xFE0C0001 + d % 256 * 256)) s = (0, sendPkt 13 d [6] s) := by
  obtain ⟨hkey, hdev, hset⟩ := fenceWord hd
  simp only [wrFenceCmd, hkey, hdev, hset, ne_eq, not_true_eq_false, Bool.true_eq_false, or_self, if_false, if_neg hother, hmanager, if_true]

end

section
variable {f : Option Nat} {r : Nat} {s t : State} (ht : t = { s with ring := { s.ring with fenceDue := none } })
include ht

/-- DEVICE_FENCE fences a device that is not fenced for the reason that is due, unless the ring crossbar failed (17 R412; log entry 46). -/
theorem execDeviceFence_due (hdue : s.ring.fenceDue = some r) (hfault : f ≠ some 4) (hfree : fenced t = false) :
    execDeviceFence f s = .next (fenceNow r t) := by
  subst ht
  simp only [execDeviceFence, if_neg hfault, hdue, hfree, if_true]

/-- With none due, for the fault it names (17 R412). -/
theorem execDeviceFence_fault (hnone : s.ring.fenceDue = none) (hfault : f = some r) (hfree : fenced t = false) :
    execDeviceFence f s = .next (fenceNow r t) := by
  subst ht hfault
  simp only [execDeviceFence, hnone, ite_self, hfree, if_true]

/-- A failed ring crossbar, reason 4, goes before a reason that is due (17 R415; log entry 46). -/
theorem execDeviceFence_crossbar (hfault : f = some 4) (hfree : fenced t = false) : execDeviceFence f s = .next (fenceNow 4 t) := by
  subst ht hfault
  simp only [execDeviceFence, if_true, hfree]

/-- It makes a device that another reason fenced go dark (17 R415; log entry 46). -/
theorem execDeviceFence_dark (hfault : f = some 4) (hfenced : fenced t = true) (hreason : fenceReason t ≠ 4) :
    execDeviceFence f s = .next (goDark t) := by
  subst ht hfault
  simp only [execDeviceFence, hfenced, hreason, Bool.true_eq_false, ne_eq, not_false_eq_true, and_self, if_false, if_true]

end

/-- FENCE_NOTICE of another device marks and reports its sender, and writes the records it relays where their queue is set (17 R413). -/
theorem execFenceNotice_other {dev reason : Nat} {l : List (List Byte)} {s : State} (henum : enumerated s = true) (hother : dev ≠ deviceId s) :
    execFenceNotice dev reason l s
      = .next (let on := natBit (rdReg 5 0 0x118 s).toNat 31
               let t := peerFenced dev reason (!on && !l.isEmpty) s
               if on then l.foldl (fun acc b => relayTo (rdField 5 0 0x118 19 0 s) b acc) t else t) := by
  simp only [execFenceNotice, henum, Bool.true_eq_false, if_false, if_neg hother]

/-- Settles O33, one clause per row or group of rows; which reason a fence keeps and the words of the packets are the model's (log entries 38, 46). -/
theorem ringDeviceCommands : Obligations.RingDeviceCommands := by
  unfold Obligations.RingDeviceCommands
  refine ⟨?sync, ?lost, ?start, ?discover, ?reply, ?assign, ?done, ?again, ?unheard, ?routes, ?fenceCmd, ?fence, ?notice⟩
  case sync => exact fun p ps depth s t hp hup henum howner => execTimeSync_corrects henum howner hp hup
  case lost => exact fun s t henum howner => execRingTimeLost_worker henum howner
  case start => exact fun s => execEnumStart_boot
  case discover => exact fun p origin round s t hp hup hother hworker => execDiscover_answered hworker hp hup hother
  case reply => exact fun die manager ports s hmanager => ⟨execDiscoverReply_found hmanager, execDiscoverReply_late hmanager⟩
  case assign =>
    intro sx sy sz x y z depth down s t hworker hround hsx hsx8 hsy hsy8 hsz hsz4 hx hy hz ht
    exact execAssign_taken hworker hround ⟨hsx, hsx8⟩ ⟨hsy, hsy8⟩ ⟨hsz, hsz4⟩ hx hy hz ht
  case done => exact fun s => execEnumDone_placed
  case again => exact fun s t hmanager => execDiscoverRepeat_due hmanager
  case unheard => exact fun k s t hfirst hworker => execEnumWaitTimeout_unheard hworker hfirst
  case routes => exact fun dev p down s henum hp => ⟨execRouteUpdate_manager henum hp, execRouteUpdate_worker henum hp⟩
  case fenceCmd =>
    intro r d s hreg hd
    exact ⟨fun hself => next_regWriteAt_ok hreg (wrFenceCmd_self hd hself),
      fun hother hmanager => next_regWriteAt_ok hreg (wrFenceCmd_other hd hother hmanager)⟩
  case fence =>
    intro f s t ht
    exact ⟨fun r => execDeviceFence_due ht, fun r => execDeviceFence_fault ht, execDeviceFence_crossbar ht, execDeviceFence_dark ht⟩
  case notice => exact fun dev reason l s => execFenceNotice_other

end Sys2Proof.Machine
end

section
/-! SUPPORT. The rows of the host ports below the command layer, each where it takes effect (18 R418 to R438). -/

namespace Sys2Proof.Machine

/-- HOST_FRAME of a good frame for this device that MACsec passes goes on to its buffer (18 R420, R422). -/
theorem execHostFrame_taken {p : Nat} {f : HostFrame} {s : State} (hp : p < 2) (hup : hostUp p s = true) (hon : blockEnabled 14 p s = true)
    (hfcs : f.fcsOk = true) (hlen : f.len ≤ rdField 14 0 0x108 13 0 s) (hme : frameForMe p f s = true) (hpass : (macsecPass p f s).1 = true)
    (hphase : s.sec.phase ≠ 2) : execHostFrame p f s = .next (settleHost (rxFrame p f (macsecPass p f s).2)) := by
  have hport : ¬(2 ≤ p ∨ hostUp p s = false ∨ blockEnabled 14 p s = false ∨ f.fcsOk = false) := by simp [Nat.not_le.mpr hp, hup, hon, hfcs]
  have hgo : ¬((macsecPass p f s).1 = false ∨ (s.sec.phase = 2 ∧ (carriesCcp f s = false ∨ frameOp f ≠ 1))) := by simp [hpass, hphase]
  simp only [execHostFrame, if_neg hport, if_neg (Nat.not_lt.mpr hlen), hme, Bool.true_eq_false, if_false, if_neg hgo]

/-- HOST_LINK_UP at a rate that the port's speed field lets in brings the port up (18 R418). -/
theorem execHostLinkUp_rises {p rate : Nat} {s : State} (hp : p < 2) (hst : rdField 14 p 0x40 2 0 s < 2) (hlow : 1 ≤ rate) (hhigh : rate < 4)
    (hwant : rdField 14 p 0x44 1 0 s = 0 ∨ rdField 14 p 0x44 1 0 s = rate) :
    execHostLinkUp p rate s
      = .next (raise { c := 14, i := p, bit := 8, code := 0x0E00, payload := rate } (wrField 14 p 0x40 10 8 rate (wrField 14 p 0x40 2 0 2 s))) := by
  have hgo : ¬(2 ≤ p ∨ 2 ≤ rdField 14 p 0x40 2 0 s ∨ rate = 0 ∨ 4 ≤ rate
      ∨ (rdField 14 p 0x44 1 0 s ≠ 0 ∧ rdField 14 p 0x44 1 0 s ≠ rate)) := by omega
  simp only [execHostLinkUp, if_neg hgo]

/-- HOST_LINK_DOWN of a port that is up takes it down (18 R418). -/
theorem execHostLinkDown_falls {p : Nat} {s : State} (hp : p < 2) (hup : hostUp p s = true) : execHostLinkDown p s = .next (hostDown p 0 false s) := by
  have hgo : ¬(2 ≤ p ∨ hostUp p s = false) := by simp [Nat.not_le.mpr hp, hup]
  simp only [execHostLinkDown, if_neg hgo]

/-- SYNC at the front of its buffer runs (18 R432). -/
theorem execSync_runs {s t : State} {c : HostCmd} (hnext : nextFrame 0x1 s = some (c, t)) : execSync s = .next (settleHost (runSync c t)) := by
  simp only [execSync, hnext]

/-- SYNC without resend, with queue 0 off, answers depth 0 and lets every delivery go on where it stands (18 R432). -/
theorem runSync_goesOn {s t u : State} {c : HostCmd} {e : Nat × Nat × Nat} (ht : t = headerAck c s) (hres : c.reserved = false)
    (hpay : byteAt c.payload 0 < 2) (hrest : (c.payload.drop 1).any (fun b => b != 0) = false)
    (hu : u = { t with host := { t.host with peers := Tbl.put t.host.peers c.port c.src } }) (he : e = syncEvents u) (hoff : (qDesc 0 u).enabled = false)
    (hresend : byteAt c.payload 0 = 0) :
    runSync c s
      = (let w := fun off => leBytes 4 (rdReg 14 0 off u).toNat
         let x := raise { c := 14, i := c.port, bit := 12, code := 0x0E01, payload := (rdReg 14 0 0x114 u).toNat + 0 * 2 ^ 32 }
           (reply c 0 0 (w 0x110 ++ w 0x114 ++ w 0x118 ++ w 0x11C ++ leBytes 4 e.1 ++ leBytes 4 0 ++ leBytes 4 0 ++ leBytes 4 (rdReg 0 0 0x68 u).toNat) u)
         (x.host.dlv.map (fun e => e.1)).foldl (fun acc q => deliverQueue q acc) x) := by
  have hgo : ¬(c.reserved = true ∨ 2 ≤ byteAt c.payload 0 ∨ (c.payload.drop 1).any (fun b => b != 0) = true) := by
    simp only [hres, hrest, Nat.not_le.mpr hpay, Bool.false_eq_true, or_self, not_false_eq_true]
  have hbit : natBit (byteAt c.payload 0) 0 = false := by rw [hresend]; exact natBit_zero 0
  subst he hu ht
  simp only [runSync, if_neg hgo, hbit, hoff, Bool.false_eq_true, if_false, if_true, b2n]

/-- DELIVERY_RESEND of a queue with unacknowledged records sends them again from the read pointer, once resend_us has passed (18 R433). -/
theorem execDeliveryResend_again {q : Nat} {s : State} {v : Dlv} (hv : Tbl.find? s.host.dlv q = some v) (hcount : v.count ≠ 0) (hpeer : s.host.peers ≠ []) :
    execDeliveryResend q s = .next (deliverQueue q (restartQueue q (advanceTo (v.moved + rdField 14 0 0x128 31 16 s * oneUs) s))) := by
  have hgo : ¬(v.count = 0 ∨ s.host.peers.isEmpty = true) := by simp [hcount, hpeer]
  simp only [execDeliveryResend, hv, if_neg hgo]

/-- Bit 0 of HOST_STOP is enable, bit 2 clear; the value that HOST_STOP_CLEAR writes sets clear and keeps enable. -/
theorem wrHostStop_clear {e : Nat} {s : State} (he : e < 2) :
    wrHostStop (BitVec.ofNat 32 (4 + e)) s = wrField 14 0 0x120 1 1 0 (wrField 14 0 0x120 0 0 e s) := by
  obtain rfl | rfl : e = 0 ∨ e = 1 := by omega
  all_goals rfl

/-- Enable of HOST_STOP is one bit. -/
theorem hostStopEnable_lt (s : State) : rdField 14 0 0x120 0 0 s < 2 := Nat.mod_lt _ Nat.two_pos

/-- HOST_STOP_CLEAR takes the latch and keeps enable (18 R438). -/
theorem execHostStopClear_clears {r : Req} {s : State} (hreg : regAt r true 14 0 0x120 s = (0, s)) :
    execHostStopClear r s = .next (wrField 14 0 0x120 1 1 0 (wrField 14 0 0x120 0 0 (rdField 14 0 0x120 0 0 s) s)) :=
  congrArg Host.Outcome.next ((onReg_ok hreg).trans (wrHostStop_clear (hostStopEnable_lt s)))

/-- Settles O34, row by row. -/
theorem hostPortCommands : Obligations.HostPortCommands := by
  unfold Obligations.HostPortCommands
  refine ⟨?frame, ?up, ?down, ?sync, ?runs, ?resend, ?clear⟩
  case frame => exact fun p f s hp hup hon hfcs hlen hme hpass hphase => execHostFrame_taken hp hup hon hfcs hlen hme hpass hphase
  case up => exact fun p rate s hp hst hlow hhigh hwant => execHostLinkUp_rises hp hst hlow hhigh hwant
  case down => exact fun p s hp hup => execHostLinkDown_falls hp hup
  case sync => exact fun s t c hnext => execSync_runs hnext
  case runs => exact fun s t u c e ht hres hpay hrest hu he hoff hresend => runSync_goesOn ht hres hpay hrest hu he hoff hresend
  case resend => exact fun q s v hv hcount hpeer => execDeliveryResend_again hv hcount hpeer
  case clear => exact fun r s hreg => execHostStopClear_clears hreg

end Sys2Proof.Machine
end

section
/-! SUPPORT. A host command that runs next: what its row comes to, from what its effect answers (18 R428 to R431). -/

namespace Sys2Proof.Machine

/-- The host command that runs next, whose effect ends with a status and a payload, is finished with them (18 R428, R430). -/
theorem ccp_finishes {c : HostCmd} {op st : Nat} {pay : List Byte} {run : HostCmd → State → CcpRes} {s t : State} (hnext : hostNext c op s)
    (hrun : run c s = (some (st, pay), t)) : ccp op run s = settleHost (hostFinish c st pay t) := by
  obtain ⟨⟨l, hfront⟩, hop, hres, hserved⟩ := hnext
  subst hop
  simp only [ccp, hfront, if_true, hostRun, hres, hserved, hrun, Bool.false_eq_true, Bool.true_eq_false, if_false]

/-- The same for a row of the command, as its next state. -/
theorem next_ccp_finishes {c : HostCmd} {op st : Nat} {pay : List Byte} {run : HostCmd → State → CcpRes} {s t : State} (hnext : hostNext c op s)
    (hrun : run c s = (some (st, pay), t)) : (Host.Outcome.next (ccp op run s) : Out) = .next (settleHost (hostFinish c st pay t)) :=
  congrArg Host.Outcome.next (ccp_finishes hnext hrun)

/-- The priority command that is taken next runs at once, and answers what its effect answers (18 R428 to R431). -/
theorem ccpPrio_answers {c : HostCmd} {op st : Nat} {pay : List Byte} {run : HostCmd → State → Nat × List Byte × State} {s t u : State}
    (hnext : prioNext c op s t) (hrun : run c t = (st, pay, u)) :
    (Host.Outcome.next (ccpPrio op run s) : Out) = .next (settleHost (reply c st 0 pay (noteDone true c.seq st u))) := by
  obtain ⟨v, hframe, hop, hsess, hnew, hahead, hres, hserved, ht⟩ := hnext
  have hfresh : ¬(serial c.seq (rdReg 14 0 0x11C (headerAck c v)).toNat = 0 ∨ 2 ^ 31 ≤ serial c.seq (rdReg 14 0 0x11C (headerAck c v)).toNat) := by
    omega
  subst ht hop
  simp only [ccpPrio, hframe, takePrio, if_neg (not_not.mpr hsess), if_neg hfresh, hres, hserved, hrun, Bool.false_eq_true, Bool.true_eq_false, if_false]

end Sys2Proof.Machine
end

section
/-! SUPPORT. The effect of each ordinary host command with a legal payload for this device (18 R433, R436; 06 R157; 17 R401). -/

namespace Sys2Proof.Machine

variable {c : HostCmd} {s t : State}

/-- QACK moves its queue (18 R433). -/
theorem runQack_moves (hlen : 8 ≤ c.payload.length) (hq : leField c.payload 0 4 < 2 ^ 20)
    (hack : ackQueue (leField c.payload 0 4) (leField c.payload 4 4) s = some t) : runQack c s = (some (0, []), t) := by
  have hgo : ¬(c.payload.length < 8 ∨ 2 ^ 20 ≤ leField c.payload 0 4) := by omega
  simp only [runQack, if_neg hgo, hack]

/-- REG_READ on this device answers the words read (18 R436). -/
theorem runRegRead_words {w : List Byte} (hhead : regHeadOk c.payload = true) (hloc : hostLocal (leField c.payload 0 8) s = true)
    (hread : readWordsAt .host (leField c.payload 8 2) (leField c.payload 0 8 % 2 ^ 48) { s with host := { s.host with regPort := c.port } } = (0, w, t)) :
    runRegRead c s = (some (0, w), t) := by
  simp only [runRegRead, hhead, hloc, hread, Bool.true_eq_false, if_false, if_true]

/-- REG_WRITE on this device answers the number of words written (18 R436). -/
theorem runRegWrite_words {n : Nat} (hhead : regHeadOk c.payload = true) (hlen : 10 + 4 * leField c.payload 8 2 ≤ c.payload.length)
    (hloc : hostLocal (leField c.payload 0 8) s = true)
    (hwrite : writeWordsAt .host (wordsOf (c.payload.drop 10) (leField c.payload 8 2)) (leField c.payload 0 8 % 2 ^ 48) 0
      { s with host := { s.host with regPort := c.port } } = (0, n, t)) :
    runRegWrite c s = (some (0, leBytes 2 n), t) := by
  have hgo : ¬(regHeadOk c.payload = false ∨ c.payload.length < 10 + 4 * leField c.payload 8 2) := by simp [hhead, Nat.not_lt.mpr hlen]
  simp only [runRegWrite, if_neg hgo, hloc, hwrite, Bool.true_eq_false, if_false, if_true]

section
variable {b n : Nat} (hb : b = leField c.payload 0 8 % 2 ^ 48) (hn : n = leField c.payload 8 4) (htop : byteAt c.payload 7 = 0) (hsome : 1 ≤ n)
  (hloc : hostLocal (leField c.payload 0 8) s = true) (hregs : touchesRegs b n = false)
include hb hn htop hsome hloc hregs

/-- MEM_READ on this device, off the registers, answers the bytes read (18 R436). -/
theorem runMemRead_bytes (hlen : 12 ≤ c.payload.length) (hmtu : n + 64 ≤ rdField 14 0 0x108 13 0 s)
    (hread : hostRead c.port (pieces b n) s = (⟨0, 0⟩, t)) : runMemRead c s = (some (0, rdBytes t b n), t) := by
  subst hb hn
  have hgo : ¬(c.payload.length < 12 ∨ byteAt c.payload 7 ≠ 0 ∨ leField c.payload 8 4 = 0
      ∨ rdField 14 0 0x108 13 0 s < leField c.payload 8 4 + 64) := by omega
  simp only [runMemRead, if_neg hgo, hloc, hregs, hread, Bool.true_eq_false, Bool.false_eq_true, false_and, if_false, if_true]

/-- MEM_WRITE on this device, off the registers, answers the number of bytes written (18 R436). -/
theorem runMemWrite_bytes {k : Nat} (hlen : 12 + n ≤ c.payload.length)
    (hwrite : hostWrite c.port ((c.payload.drop 12).take n) (pieces b n) 0 s = ((⟨0, 0⟩, k), t)) :
    runMemWrite c s = (some (0, leBytes 4 k), t) := by
  subst hb hn
  have hgo : ¬(c.payload.length < 12 + leField c.payload 8 4 ∨ c.payload.length < 12 ∨ byteAt c.payload 7 ≠ 0 ∨ leField c.payload 8 4 = 0) := by
    omega
  simp only [runMemWrite, if_neg hgo, hloc, hregs, hwrite, Bool.true_eq_false, Bool.false_eq_true, false_and, if_false, if_true]

end

/-- QUEUE_PUSH pushes its record and answers the status of the push (18 R436). -/
theorem runQueuePush_pushes (hlen : 8 ≤ c.payload.length) (hq : leField c.payload 0 4 < 2 ^ 20) (htype : byteAt c.payload 4 < 128)
    (hrest : leField c.payload 5 3 = 0) (hmem : memUp s = true) :
    runQueuePush c s
      = (some (0, leBytes 4 (hostPush (leField c.payload 0 4) (byteAt c.payload 4) (c.payload.drop 8) s).1),
         (hostPush (leField c.payload 0 4) (byteAt c.payload 4) (c.payload.drop 8) s).2) := by
  have hgo : ¬(c.payload.length < 8 ∨ 2 ^ 20 ≤ leField c.payload 0 4 ∨ 128 ≤ byteAt c.payload 4 ∨ leField c.payload 5 3 ≠ 0) := by omega
  simp only [runQueuePush, if_neg hgo, hmem, Bool.true_eq_false, if_false]

/-- BARRIER_GROUP whose members include this device takes the entry here and sends it to the other devices (06 R157). -/
theorem runBarrierGroup_copies {b : List Byte} {devs : List Nat} (hman : isManager s = true) (hlen : 8 ≤ c.payload.length)
    (hok : groupOk c.payload = true) (hb : b = c.payload.take 4 ++ leBytes 2 (groupD c.payload s) ++ c.payload.drop 6)
    (hdevs : devs = (byteAt c.payload 3 :: (groupMembers c.payload).map (fun e => e.1)).eraseDups) (hown : devs.contains (deviceId s) = true)
    (htake : takeGroup b (groupD c.payload s) s = some t) :
    runBarrierGroup c s
      = (some (0, []), (devs.filter (fun d => d != deviceId s)).foldl (fun acc d => sendPkt 10 d (b.map (fun x => x.toNat)) acc) t) := by
  have hgo : ¬(c.payload.length < 8 ∨ groupOk c.payload = false) := by simp [hok, Nat.not_lt.mpr hlen]
  subst hb hdevs
  simp only [runBarrierGroup, hman, if_neg hgo, if_pos hown, htake, Bool.true_eq_false, if_false]

/-- The manager's copy of a group entry is taken by a device of its domain (06 R157). -/
theorem execBarrierGroup_copy {b : List Byte} (hen : enumerated s = true) (hok : groupOk b = true) (hlen : 8 ≤ b.length)
    (htake : takeGroup b (leField b 4 2) s = some t) : execBarrierGroup (some b) s = .next t := by
  have hgo : ¬(enumerated s = false ∨ groupOk b = false ∨ b.length < 8) := by simp [hen, hok, Nat.not_lt.mpr hlen]
  simp only [execBarrierGroup, if_neg hgo, htake, Option.getD_some]

/-- DET_SLOTS that leaves no request open ends with what the ring answered (17 R401; 18 R436). -/
theorem runDetSlots_ends {u : ReqUse} (hu : u = .host c.port c.seq) (hman : isManager s = true) (hok : detOk c.payload = true)
    (ht : t = (List.range (c.payload.length / 16)).foldl (fun acc k => putDet u c.payload k acc) s) (hout : reqOut u t = false) :
    runDetSlots c s = (some (ringAnswer c u t), dropUse u t) := by
  subst hu ht
  simp only [runDetSlots, hman, hok, ringWait, hout, Bool.true_eq_false, Bool.false_eq_true, if_false]

section
variable (hlen : 44 ≤ c.payload.length) (hports : byteAt c.payload 0 < 4) (hflags : byteAt c.payload 1 < 4) (han : byteAt c.payload 2 < 4)
  (hrest : byteAt c.payload 3 = 0)
include hlen hports hflags han hrest

/-- The payload of a MACSEC_KEY is legal (18 R435). -/
theorem macsecKey_legal :
    ¬(c.payload.length < 44 ∨ 4 ≤ byteAt c.payload 0 ∨ 4 ≤ byteAt c.payload 1 ∨ 4 ≤ byteAt c.payload 2 ∨ byteAt c.payload 3 ≠ 0) := by omega

/-- MACSEC_KEY installs a key that unwraps under the link key on each named port (18 R421). -/
theorem runMacsecKey_installs {sak : List Byte} (hkey : unwrapKey s.sec.linkKey ((c.payload.drop 4).take 40) = some sak) :
    runMacsecKey c s
      = (some (0, []), (bitList 2 (byteAt c.payload 0)).foldl
          (fun acc k => installKey (natBit (byteAt c.payload 1) 0) (natBit (byteAt c.payload 1) 1) sak (byteAt c.payload 2) k acc) s) := by
  simp only [runMacsecKey, if_neg (macsecKey_legal hlen hports hflags han hrest), hkey]

/-- MACSEC_KEY with a key that does not unwrap changes nothing and is denied (18 R421). -/
theorem runMacsecKey_denied (hkey : unwrapKey s.sec.linkKey ((c.payload.drop 4).take 40) = none) : runMacsecKey c s = (some (6, []), s) := by
  simp only [runMacsecKey, if_neg (macsecKey_legal hlen hports hflags han hrest), hkey]

end

end Sys2Proof.Machine
end

section
/-! CLAIM. The rows of the ordinary host commands. -/

namespace Sys2Proof.Machine

/-- Settles O35: each row is `next_ccp_finishes` of its command's effect. -/
theorem hostDataCommands : Obligations.HostDataCommands := by
  unfold Obligations.HostDataCommands
  refine ⟨?qack, ?regRead, ?regWrite, ?memRead, ?memWrite, ?push, ?group, ?copy, ?slots, ?key⟩
  case qack => exact fun c s t hnext hlen hq hack => next_ccp_finishes hnext (runQack_moves hlen hq hack)
  case regRead => exact fun c s t w hnext hhead hloc hread => next_ccp_finishes hnext (runRegRead_words hhead hloc hread)
  case regWrite => exact fun c n s t hnext hhead hlen hloc hwrite => next_ccp_finishes hnext (runRegWrite_words hhead hlen hloc hwrite)
  case memRead =>
    exact fun c b n s t hnext hb hn hlen htop hsome hmtu hloc hregs hread =>
      next_ccp_finishes hnext (runMemRead_bytes hb hn htop hsome hloc hregs hlen hmtu hread)
  case memWrite =>
    exact fun c b n k s t hnext hb hn hlen htop hsome hloc hregs hwrite =>
      next_ccp_finishes hnext (runMemWrite_bytes hb hn htop hsome hloc hregs hlen hwrite)
  case push => exact fun c s hnext hlen hq htype hrest hmem => next_ccp_finishes hnext (runQueuePush_pushes hlen hq htype hrest hmem)
  case group =>
    exact fun c b devs s t hnext hman hlen hok hb hdevs hown htake =>
      next_ccp_finishes hnext (runBarrierGroup_copies hman hlen hok hb hdevs hown htake)
  case copy => exact fun b s t hen hok hlen htake => execBarrierGroup_copy hen hok hlen htake
  case slots => exact fun c u s t hnext hu hman hok ht hout => next_ccp_finishes hnext (runDetSlots_ends hu hman hok ht hout)
  case key =>
    intro c s hnext hlen hports hflags han hrest
    split
    next sak hkey => exact next_ccp_finishes hnext (runMacsecKey_installs hlen hports hflags han hrest hkey)
    next hkey => exact next_ccp_finishes hnext (runMacsecKey_denied hlen hports hflags han hrest hkey)

end Sys2Proof.Machine
end

section
/-! SUPPORT. The priority commands, each where it takes effect (18 R428 to R439). -/

namespace Sys2Proof.Machine

variable {c : HostCmd} {s t u : State}

/-- HOST_STOP for this device, with the latch enabled and clear, latches the stop and answers 0 (18 R438). -/
theorem execHostStop_latches (hnext : nextStop s = some (c, t)) (hlen : 2 ≤ c.payload.length) (hon : rdField 14 0 0x120 0 0 (headerAck c t) ≠ 0)
    (hu : u = raise (evStop c.port (byteAt c.payload 0) c.src.mac) (headerAck c t))
    (hme : stopsMe (byteAt c.payload 0) (natBit (byteAt c.payload 1) 0) u = true) (hclear : rdField 14 0 0x120 1 1 u = 0) (hres : c.reserved = false)
    (hall : byteAt c.payload 1 < 2) (hrest : leField c.payload 2 2 = 0) : execHostStop s = .next (settleHost (reply c 0 0 [] (latchStop u))) := by
  subst hu
  have hlegal : (c.reserved || decide (2 ≤ byteAt c.payload 1) || leField c.payload 2 2 != 0) = false := by
    simp [hres, hrest, hall]
  simp only [execHostStop, hnext, runStop, if_neg (Nat.not_lt.mpr hlen), if_neg hon, if_pos (And.intro hme hclear), hlegal, Bool.false_eq_true, if_false]

section
variable {n : Nat} (hn : n = byteAt c.payload 0) (hlen : 2 ≤ c.payload.length) (hrest : byteAt c.payload 1 = 0)
include hn hlen hrest

/-- KILL with count FF ends every job that is not held (18 R439). -/
theorem runKill_all (hall : n = 0xFF) :
    runKill c t
      = (let ids := (t.jobs.filter (fun j => j.phase != .held)).map (fun j => j.d.id)
         (0, leBytes 1 (min ids.length 255), ids.foldl (fun acc i => killJob i acc) t)) := by
  subst hn
  have hgo : ¬(c.payload.length < 2 ∨ byteAt c.payload 1 ≠ 0 ∨ byteAt c.payload 0 = 0 ∨ (8 < byteAt c.payload 0 ∧ byteAt c.payload 0 ≠ 0xFF)
      ∨ (byteAt c.payload 0 ≠ 0xFF ∧ c.payload.length < 2 + 2 * byteAt c.payload 0)) := by omega
  simp only [runKill, if_neg hgo, if_pos hall]

/-- KILL with a count of 1 to 8 ends the named jobs that are not held, each once (18 R439). -/
theorem runKill_named (hsome : 1 ≤ n) (hmost : n ≤ 8) (hids : 2 + 2 * n ≤ c.payload.length) :
    runKill c t
      = (let live := (t.jobs.filter (fun j => j.phase != .held)).map (fun j => j.d.id)
         let ids := ((List.range n).map (fun k => leField c.payload (2 + 2 * k) 2)).eraseDups.filter (fun i => live.contains i)
         (0, leBytes 1 (min ids.length 255), ids.foldl (fun acc i => killJob i acc) t)) := by
  subst hn
  have hgo : ¬(c.payload.length < 2 ∨ byteAt c.payload 1 ≠ 0 ∨ byteAt c.payload 0 = 0 ∨ (8 < byteAt c.payload 0 ∧ byteAt c.payload 0 ≠ 0xFF)
      ∨ (byteAt c.payload 0 ≠ 0xFF ∧ c.payload.length < 2 + 2 * byteAt c.payload 0)) := by omega
  have hnot : ¬byteAt c.payload 0 = 0xFF := by omega
  simp only [runKill, if_neg hgo, if_neg hnot]

end

section
variable (hlen : 1 ≤ c.payload.length) (hscope : byteAt c.payload 0 < 4)
include hlen hscope

/-- The payload of a HOLD or a RELEASE is legal (18 R439). -/
theorem hold_legal : ¬(c.payload.length < 1 ∨ 4 ≤ byteAt c.payload 0) := by omega

/-- HOLD sets the bits of its scopes in HOST_HOLD (18 R439). -/
theorem runHold_sets : runHold true c t = (0, [], wrReg 14 0 0x124 (rdReg 14 0 0x124 t ||| BitVec.ofNat 32 (byteAt c.payload 0)) t) := by
  simp only [runHold, if_neg (hold_legal hlen hscope), if_true]

/-- RELEASE clears the bits of its scopes in HOST_HOLD (18 R439). -/
theorem runHold_clears : runHold false c t = (0, [], wrReg 14 0 0x124 (rdReg 14 0 0x124 t &&& ~~~(BitVec.ofNat 32 (byteAt c.payload 0))) t) := by
  simp only [runHold, if_neg (hold_legal hlen hscope), Bool.false_eq_true, if_false]

end

end Sys2Proof.Machine
end

section
/-! CLAIM. The rows of the priority commands. -/

namespace Sys2Proof.Machine

/-- Settles O36: STOP by itself, the others by `ccpPrio_answers` of their effect. -/
theorem hostPriorityCommands : Obligations.HostPriorityCommands := by
  unfold Obligations.HostPriorityCommands
  refine ⟨?stop, ?kill, ?hold⟩
  case stop =>
    exact fun c s t u hnext hlen hon hu hme hclear hres hall hrest => execHostStop_latches hnext hlen hon hu hme hclear hres hall hrest
  case kill =>
    exact fun c n s t hnext hn hlen hrest =>
      ⟨fun hall => ccpPrio_answers hnext (runKill_all hn hlen hrest hall),
       fun hsome hmost hids => ccpPrio_answers hnext (runKill_named hn hlen hrest hsome hmost hids)⟩
  case hold =>
    exact fun c s t hlen hscope =>
      ⟨fun hnext => ccpPrio_answers hnext (runHold_sets hlen hscope), fun hnext => ccpPrio_answers hnext (runHold_clears hlen hscope)⟩

end Sys2Proof.Machine
end

section
/-! SUPPORT. Updates and the settings log, each row where it takes effect (19 R455, R463 to R465). -/

namespace Sys2Proof.Machine

section
variable {c : HostCmd} {s t u : State}

/-- UPDATE_STAGE with no staging under way, no hand-over in progress and no injected failure notes what is to be staged (19 R463). -/
theorem runUpdateStage_notes (hlen : 20 ≤ c.payload.length) (htarget : byteAt c.payload 0 ≤ 2) (hrest : leField c.payload 1 7 = 0)
    (hidle : s.sec.stage = none) (hswap : updState s ≠ 3) (htrial : byteAt c.payload 0 = 0 → updState s ≠ 4) (hinj : armed 15 0 6 s = false) :
    runUpdateStage c s
      = (some (0, []), setUpd 1 (wrField 15 0 0x48 31 16 0
          { s with sec := { s.sec with
              stage := some { target := byteAt c.payload 0, src := leField c.payload 8 8, len := leField c.payload 16 4, fail := false
                              prev := if byteAt c.payload 0 = 0 then 0 else updState s } } })) := by
  have hlegal : ¬(c.payload.length < 20 ∨ 2 < byteAt c.payload 0 ∨ leField c.payload 1 7 ≠ 0) := by omega
  have hfree : ¬(s.sec.stage.isSome = true ∨ updState s = 3 ∨ (byteAt c.payload 0 = 0 ∧ updState s = 4)) := by
    simpa [hidle, hswap] using htrial
  simp only [runUpdateStage, if_neg hlegal, if_neg hfree, hinj, Bool.false_eq_true, if_false]

section
variable {bad : Option Nat} {r : StageRun} (hstage : s.sec.stage = some r) (hfail : r.fail = false) (ht : t = { s with sec := { s.sec with stage := none } })
  (hfetch : fetchMem r.src r.len t = (0, u))
include hstage hfail ht hfetch

/-- UPDATE_DONE of a settings record reads and checks it (19 R463). -/
theorem execUpdateDone_record (htarget : r.target = 2) : execUpdateDone bad s = .next (stageRecord r (rdBytes u (r.src % 2 ^ 48) r.len) u) := by
  subst ht
  simp only [execUpdateDone, hstage, hfail, hfetch, htarget, Bool.false_eq_true, if_false, ne_eq, not_true_eq_false, if_true]

/-- UPDATE_DONE of an image reads it, and checks and writes a slot (19 R463). -/
theorem execUpdateDone_image (htarget : r.target ≠ 2) : execUpdateDone bad s = .next (stageImage r (rdBytes u (r.src % 2 ^ 48) r.len) bad u) := by
  subst ht
  simp only [execUpdateDone, hstage, hfail, hfetch, if_neg htarget, Bool.false_eq_true, if_false, ne_eq, not_true_eq_false]

end

/-- UPDATE_ACTIVATE with a staged image no older than the fuses, to which the running one hands over, starts the swaps (19 R451, R464). -/
theorem runUpdateActivate_starts {h : List Byte} (hstaged : updState s = 2) (hh : h = flashBytes (slotBase (inactiveSlot s)) 4096 s)
    (hsvn : s.sec.main ≤ imgSvn h) (hlive : liveOk s.sec.run h = true) :
    runUpdateActivate c s
      = (some (0, []), setUpd 3 { s with sec := { s.sec with swaps := [1, 2, 3, 4], swapTo := inactiveSlot s, back := false } }) := by
  have hready : ¬(updState s = 1 ∨ updState s = 3) := by omega
  simp only [runUpdateActivate, ← hh, if_neg hready, if_neg (not_not.mpr hstaged), if_neg (Nat.not_lt.mpr hsvn), hlive, Bool.true_eq_false, if_false]

/-- COMPONENT_SWAP at its swap point takes the component out of those to swap, and the last one completes the hand-over (19 R464). -/
theorem execComponentSwap_swaps {id : Nat} (hleft : s.sec.swaps.contains id = true) (hpoint : swapPoint id s = true)
    (ht : t = { s with sec := { s.sec with swaps := s.sec.swaps.erase id } }) :
    execComponentSwap id s = .next (if t.sec.swaps.isEmpty then swapDone t else t) := by
  have hgo : ¬(s.sec.swaps.contains id = false ∨ swapPoint id s = false) := by
    simp only [hleft, hpoint, Bool.true_eq_false, or_self, not_false_eq_true]
  subst ht
  simp only [execComponentSwap, if_neg hgo]

/-- UPDATE_COMMIT of the slot on trial, no fuses to burn, makes it the active one (19 R465). -/
theorem runUpdateCommit_commits {d : BootDesc} (hd : d = descriptor s) (hlen : 1 ≤ c.payload.length) (hkeep : byteAt c.payload 0 = 0)
    (htrial : updState s = 4) (hpending : d.pending < 2) (hruns : s.sec.slot = d.pending)
    (ht : t = writeDescriptor { d with active := d.pending, pending := 0xFF, tries := 0, version := imgVersion s.sec.run } s) (hstate : updState t = 4) :
    runUpdateCommit c s = (some (0, []), evUpdateDone 2 (imgVersion s.sec.run) (wrField 15 0 0x44 2 2 0 (setUpd 0 t))) := by
  have hlegal : ¬(c.payload.length < 1 ∨ 2 ≤ byteAt c.payload 0) := by omega
  have hswap : ¬updState s = 3 := by omega
  subst hd ht
  have hmine : ¬(2 ≤ (descriptor s).pending ∨ s.sec.slot ≠ (descriptor s).pending) := by omega
  simp only [runUpdateCommit, if_neg hlegal, if_neg hswap, if_neg hmine, if_pos hstate, if_pos hkeep]

/-- UPDATE_ABORT of a staged image discards it (19 R465). -/
theorem runUpdateAbort_staged (hstaged : updState s = 2) :
    runUpdateAbort c s = (some (0, []), evUpdateDone 3 (imgVersion s.sec.run) (setUpd 0 s)) := by
  simp only [runUpdateAbort, hstaged]

/-- UPDATE_ABORT of an image on trial swaps back to the slot before (19 R465). -/
theorem runUpdateAbort_trial (htrial : updState s = 4) :
    runUpdateAbort c s = (some (0, []), setUpd 3 { s with sec := { s.sec with swaps := [1, 2, 3, 4], swapTo := s.sec.before, back := true } }) := by
  simp only [runUpdateAbort, htrial]

/-- SETTINGS_RECORD_APPEND of a waiting record that fits appends it (19 R455). -/
theorem execSettingsRecordAppend_appends {r : SetRec} {l : List SetRec} (hwait : s.settings.waiting = r :: l) (hidle : s.settings.compacting = false)
    (hfits : r.size ≤ settingsFree s) (hinj : armed 15 2 5 s = false) :
    execSettingsRecordAppend false s = .next (appendRecord r { s with settings := { s.settings with waiting := l } }) := by
  simp only [execSettingsRecordAppend, hwait, hidle, if_neg (Nat.not_lt.mpr hfits), hinj, Bool.false_eq_true, if_false]

/-- SETTINGS_COMPACTION ends the compaction under way (19 R455). -/
theorem execSettingsCompaction_compacts (hbusy : s.settings.compacting = true) : execSettingsCompaction s = .next (compact s) := by
  simp only [execSettingsCompaction, hbusy, if_true]

end

end Sys2Proof.Machine
end

section
/-! CLAIM. The rows of updates and settings. -/

namespace Sys2Proof.Machine

/-- Settles O37, row by row. The version that a staged record's UPDATE_DONE carries (its sequence number), and the slot to which an abort returns with
its event, are the model's choice (log entry 39). -/
theorem updateCommands : Obligations.UpdateCommands := by
  unfold Obligations.UpdateCommands
  refine ⟨?stage, ?done, ?activate, ?swap, ?commit, ?abort, ?append, ?compaction⟩
  case stage =>
    exact fun c s hnext hlen htarget hrest hidle hswap htrial hinj =>
      next_ccp_finishes hnext (runUpdateStage_notes hlen htarget hrest hidle hswap htrial hinj)
  case done =>
    exact fun bad s t u r hstage hfail ht hfetch =>
      ⟨fun htarget => execUpdateDone_record hstage hfail ht hfetch htarget, fun htarget => execUpdateDone_image hstage hfail ht hfetch htarget⟩
  case activate => exact fun c h s hnext hstaged hh hsvn hlive => next_ccp_finishes hnext (runUpdateActivate_starts hstaged hh hsvn hlive)
  case swap => exact fun id s t hleft hpoint ht => execComponentSwap_swaps hleft hpoint ht
  case commit =>
    exact fun c d s t hnext hd hlen hkeep htrial hpending hruns ht hstate =>
      next_ccp_finishes hnext (runUpdateCommit_commits hd hlen hkeep htrial hpending hruns ht hstate)
  case abort =>
    exact fun c s hnext =>
      ⟨fun hstaged => next_ccp_finishes hnext (runUpdateAbort_staged hstaged), fun htrial => next_ccp_finishes hnext (runUpdateAbort_trial htrial)⟩
  case append => exact fun s r l hwait hidle hfits hinj => execSettingsRecordAppend_appends hwait hidle hfits hinj
  case compaction => exact fun s hbusy => execSettingsCompaction_compacts hbusy

end Sys2Proof.Machine
end

section
/-! SUPPORT. Attestation, debug unlock and provisioning, each row where it takes effect (19 R459 to R462). -/

namespace Sys2Proof.Machine

variable {c : HostCmd} {s t u : State}

/-- ATTEST with a token and a leaf left takes both, writes the signed record and answers its length (19 R460, R461). -/
theorem runAttest_signs {a k : Nat} (ha : a = leField c.payload 32 8) (hk : k = attestTokens s) (hlen : 40 ≤ c.payload.length)
    (hfuses : s.sec.fuses < 1024) (htoken : 1 ≤ k) (hbelow : k ≠ 240) (hleaf : s.sec.bottom < 32768) (hloc : hostLocal a s = true)
    (hregion : regionOf s (a % 2 ^ 48) 5380 = .lpddr) (ht : t = reserveIndex (wrField 15 1 0x4C 7 0 (k - 1) s))
    (hwrite : access 15 1 0 .scribe .write (a % 2 ^ 48) 5380 (attestRecord (c.payload.take 32) s.sec.bottom t)
      { t with sec := { t.sec with bottom := t.sec.bottom + 1 } } = (⟨0, 0⟩, u)) :
    runAttest c s = (some (0, leBytes 4 5380), turnTree u) := by
  subst ht ha hk
  have hready : ¬(attestTokens s = 0 ∨ 32768 ≤ s.sec.bottom) := by omega
  have hmine : ¬(hostLocal (leField c.payload 32 8) s = false ∨ regionOf s (leField c.payload 32 8 % 2 ^ 48) 5380 ≠ .lpddr) := by
    simp only [hloc, hregion, Bool.true_eq_false, ne_eq, not_true_eq_false, or_self, not_false_eq_true]
  simp only [runAttest, if_neg (Nat.not_lt.mpr hlen), if_neg (Nat.not_le.mpr hfuses), if_neg hready, if_neg hmine, if_neg hbelow, hwrite, if_true]

/-- BOTTOM_TREE_READY ends the generation, and the key turns to the tree where it is due (19 R461). -/
theorem execBottomTreeReady_ready (hgen : s.sec.treeGen = true) :
    execBottomTreeReady s = .next (turnTree { s with sec := { s.sec with treeGen := false, treeReady := true } }) := by
  simp only [execBottomTreeReady, hgen, if_true]

/-- ATTEST_TOKEN_REFILL below 240 tokens adds one, 15 s after the one before (19 R460). -/
theorem execAttestTokenRefill_adds (hbelow : attestTokens s < 240) (ht : t = advanceTo (s.sec.refill + 15000000 * oneUs) s) :
    execAttestTokenRefill s
      = .next (wrField 15 1 0x4C 7 0 (attestTokens s + 1) { t with sec := { t.sec with refill := s.sec.refill + 15000000 * oneUs } }) := by
  subst ht
  simp only [execAttestTokenRefill, if_neg (Nat.not_le.mpr hbelow)]

/-- Taking a free value leaves the clock. -/
theorem fresh_clk (s : State) : (fresh s).2.time.clk = s.time.clk := rfl

/-- DEBUG_CHALLENGE answers a nonce that holds for 300 s (19 R462). -/
theorem runDebugChallenge_nonce :
    runDebugChallenge c s
      = (some (0, leBytes 32 (fresh s).1),
         { (fresh s).2 with sec := { (fresh s).2.sec with nonce := some (leBytes 32 (fresh s).1, (fresh s).2.time.clk + 300000000 * oneUs) } }) := by
  simp only [runDebugChallenge, fresh_clk]

/-- DEBUG_UNLOCK whose token can be read checks that token (19 R462). -/
theorem runDebugUnlock_checks {b : List Byte} (hlen : 12 ≤ c.payload.length) (hsize : 64 ≤ leField c.payload 8 4)
    (hfetch : fetchMem (leField c.payload 0 8) (leField c.payload 8 4) s = (0, t))
    (hb : b = rdBytes t (leField c.payload 0 8 % 2 ^ 48) (leField c.payload 8 4)) : runDebugUnlock c s = checkToken b t := by
  have hlegal : ¬(c.payload.length < 12 ∨ leField c.payload 8 4 < 64) := by omega
  subst hb
  simp only [runDebugUnlock, if_neg hlegal, hfetch, ne_eq, not_true_eq_false, if_false]

/-- The die's number does not depend on the nonce. -/
theorem dieId_nonce (s : State) : dieId { s with sec := { s.sec with nonce := none } } = dieId s := rfl

/-- The key of an issuer does not depend on the nonce. -/
theorem issuerKey_nonce (i : Nat) (s : State) : issuerKey i { s with sec := { s.sec with nonce := none } } = issuerKey i s := rfl

section
variable {b : List Byte} {k : Nat} (hoff : t.sn.safeOut = false) (hnonce : nonceOk ((b.drop 16).take 32) t = true)
  (hu : u = { t with sec := { t.sec with nonce := none } }) (hdie : leField b 8 7 = dieId u) (hkey : issuerKey (byteAt b 4) u = some k)
  (hmagic : leField b 0 4 = 0x4B434E55)
include hoff hnonce hu hdie hkey hmagic

/-- A token for the nonce, by its issuer, for this die, whose signature holds unlocks debug for its duration (19 R462). -/
theorem checkToken_unlocks (hsig : signatureOk (byteAt b 4 == 1) k (b.take 64) (b.drop 64) = true) :
    checkToken b t
      = (some (0, []), raise { c := 15, i := 1, bit := 6, code := 0x8F01, payload := byteAt b 4 + byteAt b 5 % 16 * 2 + leField b 48 4 * 32 }
          (wrReg 15 3 0x40 (BitVec.ofNat 32 (1 + byteAt b 4 * 2 + byteAt b 5 % 16 * 4))
            { u with sec := { u.sec with dbgEnd := u.time.clk + leField b 48 4 * (1000000 * oneUs) } })) := by
  subst hu
  rw [dieId_nonce] at hdie
  rw [issuerKey_nonce] at hkey
  have hgood : ¬(leField b 0 4 ≠ 0x4B434E55 ∨ signatureOk (byteAt b 4 == 1) k (b.take 64) (b.drop 64) = false) := by simp [hmagic, hsig]
  simp only [checkToken, hoff, hnonce, if_neg (not_not.mpr hdie), hkey, if_neg hgood, Bool.false_eq_true, Bool.true_eq_false, if_false]

omit hmagic in
/-- The same token with a signature that does not hold is refused, and the nonce is used up (19 R462). -/
theorem checkToken_refused (hsig : ¬signatureOk (byteAt b 4 == 1) k (b.take 64) (b.drop 64) = true) :
    checkToken b t = (some (6, []), (unlockRefused 3 u).2) := by
  subst hu
  rw [dieId_nonce] at hdie
  rw [issuerKey_nonce] at hkey
  have hbad : leField b 0 4 ≠ 0x4B434E55 ∨ signatureOk (byteAt b 4 == 1) k (b.take 64) (b.drop 64) = false :=
    Or.inr (Bool.eq_false_of_not_eq_true hsig)
  simp only [checkToken, hoff, hnonce, if_neg (not_not.mpr hdie), hkey, if_pos hbad, Bool.false_eq_true, Bool.true_eq_false, if_false, unlockRefused]

end

/-- DBG_LOCK written with its key locks (19 R462). -/
theorem wrDbgLock_key (s : State) : wrDbgLock 0xDB6C0000 s = debugLock 0 s := if_pos rfl

/-- DEBUG_EXPIRY of an open unlock locks at its end (19 R462). -/
theorem execDebugExpiry_locks (hopen : debugOpen s = true) : execDebugExpiry s = .next (debugLock 1 (advanceTo s.sec.dbgEnd s)) := by
  simp only [execDebugExpiry, hopen, if_true]

/-- PROVISION with no owner yet and SAFE_OUT off writes the first owner slot (19 R459). -/
theorem runProvision_writes (hlen : 64 ≤ c.payload.length) (hnone : s.sec.owners = []) (hoff : s.sn.safeOut = false) :
    runProvision c s
      = (some (0, []), { s with sec := { s.sec with owners := [(0, ⟨c.payload.take 32, (c.payload.drop 32).take 32, false⟩)] } }) := by
  have hgo : ¬(s.sec.owners.isEmpty = false ∨ s.sn.safeOut = true) := by simp [hnone, hoff]
  simp only [runProvision, if_neg (Nat.not_lt.mpr hlen), if_neg hgo]

end Sys2Proof.Machine
end

section
/-! CLAIM. The rows of the security block. -/

namespace Sys2Proof.Machine

/-- Settles O38, row by row; the host's commands by `next_ccp_finishes` of their effect. -/
theorem securityCommands : Obligations.SecurityCommands := by
  unfold Obligations.SecurityCommands
  refine ⟨?attest, ?tree, ?refill, ?challenge, ?unlock, ?lock, ?provision⟩
  case attest =>
    exact fun c a k s t u hnext ha hk hlen hfuses htoken hbelow hleaf hloc hregion ht hwrite =>
      next_ccp_finishes hnext (runAttest_signs ha hk hlen hfuses htoken hbelow hleaf hloc hregion ht hwrite)
  case tree => exact fun s hgen => execBottomTreeReady_ready hgen
  case refill => exact fun s t hbelow ht => execAttestTokenRefill_adds hbelow ht
  case challenge => exact fun c s hnext => next_ccp_finishes hnext runDebugChallenge_nonce
  case unlock =>
    intro c b k s t u hnext hlen hsize hfetch hb hoff hnonce hu hdie hkey hmagic
    have hrun := runDebugUnlock_checks hlen hsize hfetch hb
    split
    next hsig => exact next_ccp_finishes hnext (hrun.trans (checkToken_unlocks hoff hnonce hu hdie hkey hmagic hsig))
    next hsig => exact next_ccp_finishes hnext (hrun.trans (checkToken_refused hoff hnonce hu hdie hkey hsig))
  case lock =>
    exact fun r s hopen =>
      ⟨fun hreg => congrArg Host.Outcome.next ((onReg_ok hreg).trans (wrDbgLock_key s)), execDebugExpiry_locks hopen⟩
  case provision => exact fun c s hnext hlen hnone hoff => next_ccp_finishes hnext (runProvision_writes hlen hnone hoff)

end Sys2Proof.Machine
end
